-- ==== Sys2Proof/Word.lean ====
section
/-! DEFINITION. The words the manual treats as bits. -/

namespace Sys2Proof

/-- One octet. -/
abbrev Byte := BitVec 8
/-- A short address, PAN identifier, sequence number or other 16-bit field. -/
abbrev W16 := BitVec 16
/-- A WIN_CFG register value, frame counter or command identifier. -/
abbrev W32 := BitVec 32
/-- An EUI-64, a sequencer instruction, a hash value or a seed. -/
abbrev W64 := BitVec 64

end Sys2Proof
end

