-- ==== Sys2Proof/Syntax.lean ====
section
/-! DEFINITION. The commands of the block: one constructor of `Instr` per row of spec/opcode_table.json, in the order of
the table. Operands are what the outside world supplies with the step: command headers and payload octets, register
offsets and values, the indexes of the unit the event happens in, and what the hardware measures or receives there. -/

namespace Sys2Proof

/-- The firmware worlds of the service cores (R533). -/
inductive World where
  | secure | vendor | customer
  deriving DecidableEq, Repr, Inhabited

/-- The path a command arrives on (R43, R53, R516): ring 0 on PCIE, the MGMT console, the shelf root that the device
follows, another chip through a QL port, or a service core of a world. -/
inductive CmdPath where
  | pcie
  | console
  | root
  | otherQl
  | core (w : World)
  deriving DecidableEq, Repr, Inhabited

/-- The command entry beside its opcode (R514). -/
structure Hdr where
  path : CmdPath
  cmdId : W32
  remote : Bool
  dst : BitVec 10
  deriving DecidableEq, Repr, Inhabited

/-- The clock domains that the boundary strobe reaches (R61, R62). -/
inductive Domain where
  | dsp | pipe | core | pcie | serdes | lpddr
  deriving DecidableEq, Repr, Inhabited

/-- Who writes a register: the host through PCIE, or service core k (R66). -/
inductive CfgSrc where
  | host
  | core (k : Fin 8)
  deriving DecidableEq, Repr, Inhabited

/-- Where the PCIe link stands, as R504 names it: L0, L1 by ASPM with its substates, L1 for a function in D3hot, Recovery with
whether the link returns to L0 from it, and the states below. -/
inductive LinkState where
  | l0
  | l1Aspm
  | l1D3hot
  | recovery (toL0 : Bool)
  | detect
  | polling
  | configuration
  | disabled
  | l2
  deriving DecidableEq, Repr, Inhabited

/-- R504: the link counts as in L0. -/
def LinkState.inL0 : LinkState → Bool
  | .l0 | .l1Aspm => true
  | .recovery r => r
  | .l1D3hot | .detect | .polling | .configuration | .disabled | .l2 => false

/-- A transmit descriptor as the device reads it (R527). -/
structure TxDesc where
  addr : W64
  len : W32
  sop : Bool
  eop : Bool
  tsReq : Bool
  remote : Bool
  wOffset : Byte
  tag : W32
  dstChip : BitVec 10
  deriving DecidableEq, Repr, Inhabited

/-- A task descriptor (R535). -/
structure TaskDesc where
  fn : W32
  group : Fin 8
  prio : Fin 16
  cores : Byte
  hold : Bool
  arg : W64
  deriving DecidableEq, Repr, Inhabited

/-- The occupants of on-chip and LPDDR memory that an uncorrectable error names (R588). -/
inductive Occupant where
  | nodeRow | routeRow | prefixRow
  | stagedNodeRow | stagedRouteRow | stagedPrefixRow
  | seenRow
  | seqWord | actionWord | gateWord
  | shaperState | policerState | queueState
  | packetBuffer
  | rxLog | stampQueue
  | derivedKey | storedKey
  | mordant
  | standbyImage
  | snapshotBuffer
  | shadowRecord
  | imageCopy
  | stagedImage
  | counter
  | violationLog | eventStaging
  | descriptorCache
  | taskSlot
  | coreMemory | secureMemory
  deriving DecidableEq, Repr, Inhabited

/-- What a crossing item that fails parity carried (R589). -/
inductive CrossItem where
  | frame | strobe | seqInstr | lookupRequest | lookupResult
  deriving DecidableEq, Repr, Inhabited

/-- What the board and the boot flash hold at reset release: the straps (R604), the LPDDR densities in GiB and whether
training succeeds (R35), whether the entropy source passes at step 2 (R415), and the octets of the boot flash by offset
(R410), where an offset not listed is erased and reads 0xFF. -/
structure BootFacts where
  chipId : BitVec 10
  pairSide : Bool
  bootOctal : Bool
  testEn : Bool
  dens0 : Fin 16
  dens1 : Fin 16
  trained : Bool
  trngOk : Bool
  flash : List (Nat × Byte)
  deriving DecidableEq, Repr, Inhabited

/-- What the environment gives a command that a console frame or a QZ-Link HOST frame carries: whether a fuse read-back
or a DMA succeeds, the level a CCA measures (0.25 dBm), and the blob that a transfer reads. -/
structure CmdEnv where
  ok : Bool
  level : Int
  blob : Option (List Byte)
  deriving DecidableEq, Repr, Inhabited

/-- The commands, one per row of spec/opcode_table.json. -/
inductive Instr where
  /-- SYS_RST_ASSERT (R599): SYS_RST_N is held low for 20 ns or more, which resets every subsystem and releases OWN within 100 ns. -/
  | sysRstAssert
  /-- SYS_RST_RELEASE (R413): SYS_RST_N rises: the straps are sampled and secure boot begins in the boot ROM. -/
  | sysRstRelease (boot : BootFacts)
  /-- SUPPLY_LOSS (R598): A rail stays below 90 % of nominal for 1 µs, which causes an internal reset and sets RST_CAUSE.SUPPLY. -/
  | supplyLoss (rail : Fin 11)
  /-- SUPPLY_RESET_END (R598): Every rail has been in tolerance for 10 ms, so the internal supply reset ends. -/
  | supplyResetEnd (boot : BootFacts)
  /-- THERMAL_OVERTEMP (R611): The junction stays at 125 °C or above for 1 ms, which causes an internal reset with RST_CAUSE.THERMAL. -/
  | thermalOvertemp
  /-- THERMAL_RESET_END (R611): The hottest sensor reads 115 °C or less, so the thermal reset ends. -/
  | thermalResetEnd (boot : BootFacts)
  /-- CLOCK_LOSS (R548): REFCLK, or the TIME or PIPE clock, is absent for 2 µs, which releases OWN and gives a fatal fault. -/
  | clockLoss
  /-- PERST_N_ASSERT (R599): PERST_N resets only the PCIE port. -/
  | perstNAssert
  /-- JTAG_TRST (R599): JTAG_TRST_N resets only the test logic. -/
  | jtagTrst
  /-- PCIE_LINK_CHANGE (R504): The PCIe link enters or leaves L0 as R504 counts it, which may decide Hosted at power-on. -/
  | pcieLinkChange (link : LinkState)
  /-- HOST_LINK_LOSS_TIMEOUT (R50): The PCIe link has stayed out of L0 for 2 s, so a Hosted device moves to Stand-alone at the next boundary. -/
  | hostLinkLossTimeout
  /-- CONTROL_MODE_WINDOW_END (R77): The 2 s window after reset release ends, and the device decides Shelf-member or Stand-alone. -/
  | controlModeWindowEnd
  /-- OWN_BOOT_DELAY_END (R549): The 100 ms wait of a PAIR_SIDE 1 device ends with OWN_IN released throughout, and OWN is acquired. -/
  | ownBootDelayEnd
  /-- FUNCTION_LEVEL_RESET (R508): A function-level reset clears every ring enable, and completions of accepted commands are discarded. -/
  | functionLevelReset
  /-- D3HOT_ENTRY (R508): The function enters D3hot, with the same effect on the rings as a function-level reset. -/
  | d3hotEntry
  /-- PCIE_DMA_ERROR (R509): A DMA request ends in an unsupported request, a completer abort or a timeout, and the issuing ring is disabled. -/
  | pcieDmaError (n : Fin 35)
  /-- REGISTER_WRITE (R8): A write to a WIN_CFG register that has no row of its own takes effect under its access code; an ST field is staged. -/
  | registerWrite (src : CfgSrc) (off : BitVec 24) (val : W32)
  /-- CFG_BAD_WIDTH_ACCESS (R13): A WIN_CFG access that is not a naturally aligned 32-bit access returns 0xFFFF_FFFF or is discarded, and logs VIO_CFG_WIDTH. -/
  | cfgBadWidthAccess (write : Bool) (off : BitVec 24)
  /-- CFG_UNMAPPED_ACCESS (R14): An access to an unassigned WIN_CFG offset reads 0 or is discarded, and logs VIO_CFG_UNMAPPED. -/
  | cfgUnmappedAccess (write : Bool) (off : BitVec 24)
  /-- WIN_RING_BAD_ACCESS (R506): A WIN_RING access other than a 32-bit doorbell access has no effect and logs VIO_CFG_WIDTH. -/
  | winRingBadAccess (write : Bool) (off : BitVec 20)
  /-- EPOCH_NUM_LO_READ (R59): A read of EPOCH_NUM_LO returns the low half and latches the high half into EPOCH_NUM_HI. -/
  | epochNumLoRead
  /-- SEQ_PEEK_LO_READ (R232): A read of SEQ_PEEK_LO returns the low half of the bank word and latches the high half into SEQ_PEEK_HI. -/
  | seqPeekLoRead (q : Fin 4)
  /-- TIME_NOW_LO_READ (R453): A read of TIME_NOW_LO returns the low half of the time scale and latches the high half. -/
  | timeNowLoRead
  /-- TBL_SEED_LO_READ (R324): A read of TBL_SEED_LO_t returns the low half of the seed and latches the high half. -/
  | tblSeedLoRead (t : Fin 4)
  /-- PAIR_COMMIT_LO_READ (R544): A read of PAIR_COMMIT_LO returns the low half of the committed epoch and latches the high half. -/
  | pairCommitLoRead
  /-- STAGE_HOLD_WRITE (R69): A write of STAGE_CTL.HOLD holds or releases the accumulated staged settings. -/
  | stageHoldWrite (hold : Bool)
  /-- CIN_STAGE_WRITE (R120): A write to CIN_STAGE_w stages block octets, or is discarded with VIO_CIN_LOCKED once the block is locked. -/
  | cinStageWrite (w : Fin 64) (data : W32)
  /-- RING_ENABLE (R512): Setting HR_CTL_n.EN from 0 to 1 resets both ring indexes and the expected PHASE. -/
  | ringEnable (n : Fin 35) (ctl : W32)
  /-- RING_DOORBELL (R510): A doorbell write carries the host's new ring index; an invalid index is ignored and logs VIO_RING_DOORBELL. -/
  | ringDoorbell (n : Fin 35) (idx : W16)
  /-- PAIR_KEEPALIVE_WRITE (R553): A secure-world write to PAIR_KEEPALIVE refreshes the keepalive condition of heartbeat generation. -/
  | pairKeepaliveWrite (val : W32)
  /-- CMD_NOP (R521): The command does nothing and completes with ST_OK. -/
  | cmdNop (h : Hdr)
  /-- CMD_HOST_ATTACH (R53): The command stages a change of control mode to Hosted or Shelf-member. -/
  | cmdHostAttach (h : Hdr)
  /-- CMD_SET_PHASE (R52): The command stages a change of mesh phase, now or at a named epoch. -/
  | cmdSetPhase (h : Hdr) (p : List Byte)
  /-- CMD_COMMIT (R280): The command stages the commit of the verified staged Vat image. -/
  | cmdCommit (h : Hdr) (p : List Byte)
  /-- CMD_VAT_LOAD (R274): The command copies a Vat image into LPDDR staging for verification. -/
  | cmdVatLoad (h : Hdr) (p : List Byte)
  /-- VAT_COPY_DONE (R274): The copy of a loaded image ends, and its verification starts. -/
  | vatCopyDone (ok : Bool) (image : List Byte)
  /-- VAT_VERIFY_DONE (R277): Verification of a staged image ends, and CMD_VAT_LOAD completes with ST_OK or ST_IMAGE_REFUSED. -/
  | vatVerifyDone
  /-- CMD_VAT_DISCARD (R278): The command discards the staged image. -/
  | cmdVatDiscard (h : Hdr)
  /-- CMD_RF_CAL (R94): The command orders an on-request calibration of one port. -/
  | cmdRfCal (h : Hdr) (p : List Byte)
  /-- CMD_RF_TEST_TX (R193): The command starts a test transmission in Test. -/
  | cmdRfTestTx (h : Hdr) (p : List Byte) (level : Int)
  /-- TEST_TX_END (R193): A test transmission reaches its duration and returns the port to RX, and the command completes. -/
  | testTxEnd (c : Fin 16)
  /-- CMD_FEM_SPI_WRITE (R101): The command starts a FEM SPI write transaction. -/
  | cmdFemSpiWrite (h : Hdr) (p : List Byte)
  /-- CMD_FEM_SPI_READ (R101): The command starts a FEM SPI read transaction. -/
  | cmdFemSpiRead (h : Hdr) (p : List Byte)
  /-- CMD_CINNABAR_LOCK (R121): The command checks the staged Cinnabar block and burns it into OTP. -/
  | cmdCinnabarLock (h : Hdr) (p : List Byte) (readBackOk : Bool)
  /-- CMD_ASSOC_DECIDE_ADMIT (R218): The host admits a pending association request, and a response is queued. -/
  | cmdAssocDecideAdmit (h : Hdr) (p : List Byte)
  /-- CMD_ASSOC_DECIDE_DENY (R218): The host denies a pending association request, and a denial response is queued. -/
  | cmdAssocDecideDeny (h : Hdr) (p : List Byte)
  /-- CMD_NBR_SET_ADD (R226): The command stages the addition of a neighbour entry. -/
  | cmdNbrSetAdd (h : Hdr) (p : List Byte)
  /-- CMD_NBR_SET_REMOVE (R226): The command stages the removal of a neighbour entry. -/
  | cmdNbrSetRemove (h : Hdr) (p : List Byte)
  /-- CMD_SEEN_FLUSH (R302): The command stages a switch of the seen-cache to its empty bank. -/
  | cmdSeenFlush (h : Hdr)
  /-- CMD_NODE_SET_ADD (R332): The command adds or replaces a node entry, staged or into a staged bank. -/
  | cmdNodeSetAdd (h : Hdr) (p : List Byte)
  /-- CMD_NODE_SET_DELETE (R333): The command deletes a node entry and reports its final counters. -/
  | cmdNodeSetDelete (h : Hdr) (p : List Byte)
  /-- CMD_NODE_SET_CLEAR_QUARANTINE (R351): The command clears the quarantine of a node entry. -/
  | cmdNodeSetClearQuarantine (h : Hdr) (p : List Byte)
  /-- CMD_ROUTE_SET_ADD (R334): The command adds or replaces a route entry. -/
  | cmdRouteSetAdd (h : Hdr) (p : List Byte)
  /-- CMD_ROUTE_SET_DELETE (R334): The command deletes a route entry. -/
  | cmdRouteSetDelete (h : Hdr) (p : List Byte)
  /-- CMD_ROUTE_SET_CLEAR_QUARANTINE (R351): The command clears the quarantine of a route entry. -/
  | cmdRouteSetClearQuarantine (h : Hdr) (p : List Byte)
  /-- CMD_PREFIX_SET_ADD (R334): The command adds or replaces a prefix entry within the limit of eight lengths. -/
  | cmdPrefixSetAdd (h : Hdr) (p : List Byte)
  /-- CMD_PREFIX_SET_DELETE (R334): The command deletes a prefix entry. -/
  | cmdPrefixSetDelete (h : Hdr) (p : List Byte)
  /-- CMD_PREFIX_SET_CLEAR_QUARANTINE (R351): The command clears the quarantine of a prefix entry. -/
  | cmdPrefixSetClearQuarantine (h : Hdr) (p : List Byte)
  /-- CMD_TABLE_REBUILD_COPY (R346): The command starts a COPY rebuild of a table's staged bank. -/
  | cmdTableRebuildCopy (h : Hdr) (p : List Byte)
  /-- CMD_TABLE_REBUILD_EMPTY (R346): The command starts an EMPTY rebuild of a table's staged bank. -/
  | cmdTableRebuildEmpty (h : Hdr) (p : List Byte)
  /-- CMD_TABLE_REBUILD_SWAP (R346): The command stages the swap of a rebuilt bank. -/
  | cmdTableRebuildSwap (h : Hdr) (p : List Byte)
  /-- CMD_TABLE_REBUILD_ABANDON (R346): The command stops a rebuild and clears its staged bank. -/
  | cmdTableRebuildAbandon (h : Hdr) (p : List Byte)
  /-- REBUILD_COPY_DONE (R346): The rebuild copy ends, and EVT_REBUILD_READY is raised. -/
  | rebuildCopyDone (t : Fin 3)
  /-- CMD_NODE_REKEY (R436): The command stages a new key epoch for a node and resets its frame counters. -/
  | cmdNodeRekey (h : Hdr) (p : List Byte)
  /-- CMD_TM_SET (R402): The command stages new parameters for one shaper, policer or queue. -/
  | cmdTmSet (h : Hdr) (p : List Byte)
  /-- CMD_KEY_SET_IMPORT_SYM256 (R425): The command stages the import of a wrapped AES-256 key into a slot. -/
  | cmdKeySetImportSym256 (h : Hdr) (p : List Byte) (blob : Option (List Byte))
  /-- CMD_KEY_SET_IMPORT_PUB_PAIR (R425): The command stages the import of a public-key pair for image verification. -/
  | cmdKeySetImportPubPair (h : Hdr) (p : List Byte) (blob : Option (List Byte))
  /-- CMD_KEY_SET_DERIVE (R425): The command stages the derivation of a stored slot from its parent. -/
  | cmdKeySetDerive (h : Hdr) (p : List Byte)
  /-- CMD_KEY_SET_INVALIDATE (R438): The command stages the invalidation of a slot and all slots below it. -/
  | cmdKeySetInvalidate (h : Hdr) (p : List Byte)
  /-- KEYSTORE_WRITE_DONE (R444): A keystore record write ends, with success or failure, and the pending key commands complete. -/
  | keystoreWriteDone (ok : Bool)
  /-- CMD_KEY_MIGRATE (R446): The command writes a migration keystore record for the successor firmware. -/
  | cmdKeyMigrate (h : Hdr) (p : List Byte) (manifest : Option (List Byte))
  /-- CMD_MACSEC_SAK_INSTALL_TX (R450): The command installs a wrapped transmit SA. -/
  | cmdMacsecSakInstallTx (h : Hdr) (p : List Byte)
  /-- CMD_MACSEC_SAK_INSTALL_RX (R450): The command installs a wrapped receive SA. -/
  | cmdMacsecSakInstallRx (h : Hdr) (p : List Byte)
  /-- CMD_MACSEC_SAK_GENERATE_TX (R450): The command generates a transmit SAK, installs it and returns its wrapping. -/
  | cmdMacsecSakGenerateTx (h : Hdr) (p : List Byte)
  /-- CMD_MACSEC_SAK_REMOVE (R450): The command removes a MACsec SA. -/
  | cmdMacsecSakRemove (h : Hdr) (p : List Byte)
  /-- CMD_LC_ADVANCE (R409): The command burns the fuses of a new life-cycle state. -/
  | cmdLcAdvance (h : Hdr) (p : List Byte) (readBackOk : Bool)
  /-- CMD_OTP_HASH (R522): The command burns one OEM or customer key hash into OTP. -/
  | cmdOtpHash (h : Hdr) (p : List Byte) (readBackOk : Bool)
  /-- CMD_ROLLBACK_COMMIT (R417): The command burns SEC_MIN up to the running SEC_VERSION. -/
  | cmdRollbackCommit (h : Hdr) (p : List Byte)
  /-- CMD_TIME_SET (R462): The command performs first time acquisition from a host-given time. -/
  | cmdTimeSet (h : Hdr) (p : List Byte)
  /-- CMD_TIME_RESTEP (R461): The command authorises acceptance of the current source's offset after a refused jump. -/
  | cmdTimeRestep (h : Hdr) (p : List Byte)
  /-- CMD_PAIR_SET_FORBID (R577): The command stages PAIR_CTL.ALLOW = 0, which takes MIR down at the boundary. -/
  | cmdPairSetForbid (h : Hdr) (p : List Byte)
  /-- CMD_PAIR_SET_ALLOW (R577): The command stages PAIR_CTL.ALLOW = 1. -/
  | cmdPairSetAllow (h : Hdr) (p : List Byte)
  /-- CMD_TAKEOVER_READ (R569): The command writes the takeover record to host memory. -/
  | cmdTakeoverRead (h : Hdr) (p : List Byte) (dmaOk : Bool)
  /-- CMD_LOG_DRAIN (R586): The command copies the oldest violation log entries out and removes them. -/
  | cmdLogDrain (h : Hdr) (p : List Byte) (dmaOk : Bool)
  /-- STAGING_FREEZE (R60): 1 ms before B, STAGE_CTL.FROZEN is set and the freeze strobe goes to every domain. -/
  | stagingFreeze
  /-- EPOCH_BOUNDARY (R60): At B the epoch number increments, the sequencers fetch tick 0, and the time subsystem swaps its settings. -/
  | epochBoundary
  /-- BOUNDARY_STROBE_ARRIVAL (R60): The boundary strobe reaches a domain, which swaps its staged settings and latches its SN values. -/
  | boundaryStrobeArrival (dom : Domain)
  /-- NODE_AGE_OUT (R339): An entry's age passes AGE_LIMIT, so it becomes absent and its address is released. -/
  | nodeAgeOut (slot : BitVec 18)
  /-- ADDRESS_RELEASE_HOLD_END (R216): A released address has been held for RELEASE_HOLD epochs and returns to the free map. -/
  | addressReleaseHoldEnd (k : Fin 4) (addr : W16)
  /-- ROM_STARTUP_DWELL_END (R50): After 64 epochs of Start-up under the ROM image, the phase passes to Service. -/
  | romStartupDwellEnd
  /-- RECORD_ACK_TIMEOUT (R561): The record of epoch e is still unacknowledged at the strobe that opens e + 2, so the chain breaks. -/
  | recordAckTimeout
  /-- SNAPSHOT_PUBLISH (R74): The fill of the unpublished buffer ends, SNAP_INDEX flips and EVT_EPOCH is posted. -/
  | snapshotPublish
  /-- PORT_TEMP_MEASURE (R93): The per-epoch port temperature measurement sets TEMP_DUE on a drift of 10 °C. -/
  | portTempMeasure (p : Fin 4) (temp : Int)
  /-- SEQ_NOP (R237): The sequencer instruction NOP has no effect. -/
  | seqNop (s : Fin 4) (tick : BitVec 24)
  /-- SEQ_END (R255): The sequencer instruction END starts the tail of the epoch. -/
  | seqEnd (s : Fin 4) (tick : BitVec 24)
  /-- SEQ_COND (R253): The sequencer instruction COND samples its condition and chooses sequence A or B. -/
  | seqCond (s : Fin 4) (tick : BitVec 24) (cond arg n : Byte)
  /-- SEQ_RX (R249): The sequencer instruction RX takes the port from IDLE to RX. -/
  | seqRx (s : Fin 4) (tick : BitVec 24)
  /-- SEQ_RETUNE (R247): The sequencer instruction RETUNE moves the port centre through RETUNE. -/
  | seqRetune (s : Fin 4) (tick : BitVec 24) (home : Bool) (khz : BitVec 22)
  /-- SEQ_CAL (R248): The sequencer instruction CAL opens a calibration window. -/
  | seqCal (s : Fin 4) (tick : BitVec 24) (window : W16) (sel : BitVec 7)
  /-- SEQ_LFREQ (R250): The sequencer instruction LFREQ sets a lane's channel in force. -/
  | seqLfreq (s : Fin 4) (tick : BitVec 24) (lane : Fin 192) (offset : BitVec 24)
  /-- SEQ_LMODE (R250): The sequencer instruction LMODE sets a lane's mode in force. -/
  | seqLmode (s : Fin 4) (tick : BitVec 24) (lane : Fin 192) (mode : Byte)
  /-- SEQ_CSET (R250): The sequencer instruction CSET sets a carrier's channel in force. -/
  | seqCset (s : Fin 4) (tick : BitVec 24) (c : Fin 16) (offset : BitVec 24)
  /-- SEQ_CMODE (R250): The sequencer instruction CMODE sets a carrier's mode in force. -/
  | seqCmode (s : Fin 4) (tick : BitVec 24) (c : Fin 16) (mode : Byte)
  /-- SEQ_TX (R239): The sequencer instruction TX opens a slot for one air class and releases its head frame. -/
  | seqTx (s : Fin 4) (tick : BitVec 24) (c : Fin 16) (cls : Fin 8) (cca multi : Bool) (len : BitVec 23)
  /-- SEQ_WIN (R244): The sequencer instruction WIN opens a contention window for a set of air classes. -/
  | seqWin (s : Fin 4) (tick : BitVec 24) (c : Fin 16) (classes : Byte) (len : BitVec 20)
  /-- SEQ_BCN (R245): The sequencer instruction BCN releases one beacon of a PAN. -/
  | seqBcn (s : Fin 4) (tick : BitVec 24) (c : Fin 16) (pan : Fin 4) (nextBcn : W16) (len : BitVec 10)
  /-- SEQ_RXP (R251): The sequencer instruction RXP raises COEX_x_REQ with PRI low for DUR_US. -/
  | seqRxp (s : Fin 4) (tick : BitVec 24) (dur : BitVec 20)
  /-- SEQ_SPI (R251): The sequencer instruction SPI starts a FEM SPI write. -/
  | seqSpi (s : Fin 4) (tick : BitVec 24) (word : W32)
  /-- SLOT_CLOSE (R239): A slot or window reaches its close; a slot without release advances SLOT_EMPTY. -/
  | slotClose (c : Fin 16)
  /-- AIR_QUEUE_HEAD_ARRIVAL (R239): A frame reaches the head of a class queue inside an open slot or window and is released. -/
  | airQueueHeadArrival (p : Fin 4) (cls : Fin 8)
  /-- CSMA_BACKOFF_EXPIRY (R197): A backoff wait ends, and a CCA begins. -/
  | csmaBackoffExpiry (c : Fin 16)
  /-- CCA_END (R196): A CCA ends; an idle channel admits the frame, and a busy one backs off or fails. -/
  | ccaEnd (c : Fin 16) (level : Int)
  /-- PORT_RX_RETURN (R99): 24 µs after E the port is back in RX, lanes resume search, and waiting releases proceed. -/
  | portRxReturn (p : Fin 4)
  /-- COEX_GNT_REVOKE (R106): GNT falls while a frame is on air, which completes or aborts the frame by REVOKE_ABORT. -/
  | coexGntRevoke (p : Fin 4)
  /-- COEX_REQ_HOLD_END (R103): REQ_HOLD after E has elapsed, and REQ and PRI fall unless another carrier transmits. -/
  | coexReqHoldEnd (p : Fin 4)
  /-- RXP_END (R107): The receive-protect duration ends, and REQ falls. -/
  | rxpEnd (p : Fin 4)
  /-- ACK_WAIT_END (R209): The ack wait of an AR frame ends without a match, and the frame returns to its queue or is dropped. -/
  | ackWaitEnd (c : Fin 16)
  /-- PORT_POWER_UP (R86): An enabled port completes OFF to STBY and enters start-up calibration. -/
  | portPowerUp (p : Fin 4)
  /-- SYNTH_LOCK (R247): The synthesiser locks after STBY or RETUNE, RF_CENTRE updates and lanes are re-evaluated. -/
  | synthLock (p : Fin 4)
  /-- CAL_DONE (R92): A calibration run ends, with a retry or failure handled, and the port passes to IDLE or RX. -/
  | calDone (p : Fin 4) (miss1 miss2 : BitVec 7) (temp : Int)
  /-- PORT_POWER_DOWN (R86): A port completes STBY to OFF after ENABLE is cleared. -/
  | portPowerDown (p : Fin 4)
  /-- FEM_SPI_DONE (R102): A FEM SPI transaction ends, with the verify read-back compared when VERIFY is set. -/
  | femSpiDone (p : Fin 4) (rdata : W32) (isMatch : Bool)
  /-- AGC_STEP (R109): The composite RMS holds beyond a threshold for its time with no lane in frame, and the gain steps by one index. -/
  | agcStep (p : Fin 4) (rms peak : Byte)
  /-- AGC_FORCED_STEP (R110): Clipping is imminent, and the gain steps down two indices. -/
  | agcForcedStep (p : Fin 4) (peak : Byte)
  /-- PREAMBLE_DETECT (R142): A lane's correlator detects d preamble symbols, and the lane passes to PREAMBLE. -/
  | preambleDetect (l : Fin 192) (e : Int)
  /-- SYNC_MATCH (R143): The sync word matches, and the lane latches RSSI, stamp, epoch and SEQ and enters HEADER. -/
  | syncMatch (l : Fin 192) (word : W32) (rssi snr foff : Int)
  /-- SYNC_TIMEOUT (R144): No sync word arrives within T symbols after the preamble, and the lane returns to SEARCH. -/
  | syncTimeout (l : Fin 192)
  /-- PHR_CHECK (R140): The PHR is complete and checked, and the lane enters PAYLOAD or logs RX_BAD_PHR. -/
  | phrCheck (l : Fin 192) (phr : BitVec 24)
  /-- PSDU_END (R142): The last PSDU symbol passes, the FCS is checked and the receive-log record is written. -/
  | psduEnd (l : Fin 192) (psdu : List Byte)
  /-- CAPTURE (R146): A stronger preamble clears the capture margin and pre-empts the current reception. -/
  | capture (l : Fin 192) (e : Int)
  /-- RX_RECORD_DECIDE (R201): An RX_OK record is taken through the acknowledgement and membership decisions. -/
  | rxRecordDecide (p : Fin 4) (seq : W16)
  /-- COPY_GROUP_CLOSE (R204): At the earliest t0 + 20 µs the copy group is decided once and the acknowledging port chosen. -/
  | copyGroupClose
  /-- CCM_UPLINK_DONE (R432): CCM* and the frame-counter check of an uplink frame complete, and the node row is updated. -/
  | ccmUplinkDone (p : Fin 4) (seq : W16)
  /-- KDF_DONE (R428): A node, beacon or bulk key derivation completes and enters the cache. -/
  | kdfDone
  /-- INDIRECT_RESPONSE_START (R213): GAP_US after the acknowledgement, the oldest indirect frame for the polling node is sent. -/
  | indirectResponseStart (c : Fin 16) (level : Int)
  /-- INDIRECT_EXPIRE (R212): An indirect frame reaches PERSIST_MS without an exchange under way and is dropped. -/
  | indirectExpire (i : Fin 4096)
  /-- ASSOC_DECIDE_TIMEOUT (R215): Under the HOST policy a request with no decision after PERSIST_MS is dropped. -/
  | assocDecideTimeout (k : Fin 4) (eui : W64)
  /-- NBR_WINDOW_JUDGE (R223): At X + TOL the beacon window of a neighbour is judged heard, missed or unheard. -/
  | nbrWindowJudge (i : Fin 64)
  /-- DUTY_BIN_ADVANCE (R183): A duty bin interval elapses, and the oldest bin is cleared. -/
  | dutyBinAdvance
  /-- TOKEN_REFILL (R396): Every 1 ms all shapers and policers are refilled and staged records applied. -/
  | tokenRefill
  /-- PIPE_WINDOW_START (R360): A pipeline window opens and a pass of the next packet or recirculation begins. -/
  | pipeWindowStart (i : Fin 2)
  /-- ACT_NOP (R370): The action instruction NOP has no effect. -/
  | actNop (i : Fin 2)
  /-- ACT_MOVI (R370): The action instruction MOVI loads an immediate. -/
  | actMovi (i : Fin 2) (rd : Fin 16) (imm : BitVec 18)
  /-- ACT_LUI (R370): The action instruction LUI loads an upper immediate. -/
  | actLui (i : Fin 2) (rd : Fin 16) (imm : BitVec 18)
  /-- ACT_ADD (R370): The action instruction ADD adds two registers. -/
  | actAdd (i : Fin 2) (rd ra rb : Fin 16)
  /-- ACT_ADDI (R370): The action instruction ADDI adds a signed immediate. -/
  | actAddi (i : Fin 2) (rd ra : Fin 16) (aux : BitVec 14)
  /-- ACT_SUB (R370): The action instruction SUB subtracts two registers. -/
  | actSub (i : Fin 2) (rd ra rb : Fin 16)
  /-- ACT_AND (R370): The action instruction AND ands two registers. -/
  | actAnd (i : Fin 2) (rd ra rb : Fin 16)
  /-- ACT_OR (R370): The action instruction OR ors two registers. -/
  | actOr (i : Fin 2) (rd ra rb : Fin 16)
  /-- ACT_XOR (R370): The action instruction XOR xors two registers. -/
  | actXor (i : Fin 2) (rd ra rb : Fin 16)
  /-- ACT_EXT (R370): The action instruction EXT extracts a bit field. -/
  | actExt (i : Fin 2) (rd ra : Fin 16) (pos wm1 : Fin 32)
  /-- ACT_INS (R370): The action instruction INS inserts a bit field. -/
  | actIns (i : Fin 2) (rd ra : Fin 16) (pos wm1 : Fin 32)
  /-- ACT_LDM (R370): The action instruction LDM reads a metadata field. -/
  | actLdm (i : Fin 2) (rd : Fin 16) (field : Byte)
  /-- ACT_STM (R370): The action instruction STM writes a metadata field. -/
  | actStm (i : Fin 2) (ra : Fin 16) (field : Byte)
  /-- ACT_LDH (R370): The action instruction LDH reads octets of the header window. -/
  | actLdh (i : Fin 2) (rd : Fin 16) (off : Fin 128) (wid : Fin 4)
  /-- ACT_STH (R370): The action instruction STH writes octets of the header window. -/
  | actSth (i : Fin 2) (ra : Fin 16) (off : Fin 128) (wid : Fin 4)
  /-- ACT_LDR (R370): The action instruction LDR reads octets of a result buffer. -/
  | actLdr (i : Fin 2) (rd : Fin 16) (rb : Fin 4) (off : Fin 64) (wid : Fin 4)
  /-- ACT_CNT (R370): The action instruction CNT advances an ACT counter. -/
  | actCnt (i : Fin 2) (k : Fin 1024)
  /-- ACT_OWNR (R370): The action instruction OWNR finds the owner chip of an address. -/
  | actOwnr (i : Fin 2) (rd ra : Fin 16)
  /-- ACT_BEQ (R370): The action instruction BEQ branches if two registers are equal. -/
  | actBeq (i : Fin 2) (ra rb : Fin 16) (target : Fin 64)
  /-- ACT_BNE (R370): The action instruction BNE branches if two registers differ. -/
  | actBne (i : Fin 2) (ra rb : Fin 16) (target : Fin 64)
  /-- ACT_BLTU (R370): The action instruction BLTU branches if less, unsigned. -/
  | actBltu (i : Fin 2) (ra rb : Fin 16) (target : Fin 64)
  /-- ACT_BGEU (R370): The action instruction BGEU branches if greater or equal, unsigned. -/
  | actBgeu (i : Fin 2) (ra rb : Fin 16) (target : Fin 64)
  /-- ACT_BEQI (R370): The action instruction BEQI branches if a register equals an immediate. -/
  | actBeqi (i : Fin 2) (ra : Fin 16) (imm : Byte) (target : Fin 64)
  /-- ACT_BNEI (R370): The action instruction BNEI branches if a register differs from an immediate. -/
  | actBnei (i : Fin 2) (ra : Fin 16) (imm : Byte) (target : Fin 64)
  /-- ACT_BBS (R370): The action instruction BBS branches if a bit is set. -/
  | actBbs (i : Fin 2) (ra : Fin 16) (imm : Byte) (target : Fin 64)
  /-- ACT_BBC (R370): The action instruction BBC branches if a bit is clear. -/
  | actBbc (i : Fin 2) (ra : Fin 16) (imm : Byte) (target : Fin 64)
  /-- ACT_JMP (R370): The action instruction JMP branches always. -/
  | actJmp (i : Fin 2) (target : Fin 64)
  /-- ACT_LKN (R372): The action instruction LKN looks up a node by short address. -/
  | actLkn (i : Fin 2) (rd ra rb : Fin 16) (res : Fin 4)
  /-- ACT_LKE (R372): The action instruction LKE looks up a node by EUI-64. -/
  | actLke (i : Fin 2) (rd ra rb : Fin 16) (res : Fin 4)
  /-- ACT_LKR (R372): The action instruction LKR looks up a route. -/
  | actLkr (i : Fin 2) (rd ra rb : Fin 16) (res : Fin 4)
  /-- ACT_LKP (R372): The action instruction LKP looks up the longest matching prefix. -/
  | actLkp (i : Fin 2) (rd : Fin 16) (res : Fin 4) (source : Bool)
  /-- LOOKUP_RETURN (R371): A table lookup completes and fills its result buffer and destination register. -/
  | lookupReturn (i : Fin 2) (late : Bool)
  /-- ACT_POL (R373): The action instruction POL charges a policer and returns a colour. -/
  | actPol (i : Fin 2) (rd ra : Fin 16)
  /-- ACT_DCMP (R376): The action instruction DCMP decompresses the 6LoWPAN header. -/
  | actDcmp (i : Fin 2) (rd : Fin 16)
  /-- ACT_CMPR (R376): The action instruction CMPR compresses the IPv6 header. -/
  | actCmpr (i : Fin 2) (rd : Fin 16)
  /-- ACT_FWD (R383): The action instruction FWD ends the pass and forwards the packet to its queue. -/
  | actFwd (i : Fin 2)
  /-- ACT_DROP (R370): The action instruction DROP ends the pass and drops the packet. -/
  | actDrop (i : Fin 2) (k : Fin 1024)
  /-- ACT_RECIRC (R375): The action instruction RECIRC ends pass 1 and names the program of pass 2. -/
  | actRecirc (i : Fin 2) (prog : Byte)
  /-- ACT_RECIRCP (R375): The action instruction RECIRCP recirculates to the program named by a prefix entry. -/
  | actRecircp (i : Fin 2) (res : Fin 4)
  /-- REASM_TIMEOUT (R381): No fragment of a datagram arrives for TIMEOUT_MS, and the datagram is dropped. -/
  | reasmTimeout (j : Fin 2048)
  /-- ETH_FRAME_RX (R481): An Ethernet frame is received, checked, stamped and passed to its pipeline source queue. -/
  | ethFrameRx (e : Fin 4) (frame : List Byte)
  /-- ETH_LINK_CHANGE (R482): An Ethernet link goes up or down, and EVT_ETH_LINK is raised. -/
  | ethLinkChange (e : Fin 4) (up : Bool) (rate : Fin 6) (half : Bool)
  /-- ETH_TX_TAKE (R486): An idle MAC takes the highest eligible head frame that fits its gate. -/
  | ethTxTake (e : Fin 4)
  /-- GATE_CHANGE (R484): A gate-list interval ends, and the gates of the next entry apply. -/
  | gateChange (e : Fin 4)
  /-- EEE_LPI_ENTRY (R483): The TQs stay empty for IDLE_US, and the transmitter enters low-power idle. -/
  | eeeLpiEntry (e : Fin 4)
  /-- PTP_SYNC_RX (R465): A Sync on the time-receiver port yields an offset measurement. -/
  | ptpSyncRx (parent : Bool)
  /-- PTP_DELAY_MSG_RX (R465): A delay or peer-delay message updates the mean path delay. -/
  | ptpDelayMsgRx
  /-- PPS_EDGE (R474): A PPS_IN edge is stamped and yields an offset measurement. -/
  | ppsEdge (rising : Bool)
  /-- TOD_MESSAGE_RX (R475): A ToD message naming the next edge is received and checked. -/
  | todMessageRx (msg : List Byte)
  /-- TIME_MEASUREMENT (R457): A measurement from the source in use is judged, feeds the servo or counts as a candidate. -/
  | timeMeasurement
  /-- HOLDOVER_LOSS_TIMEOUT (R460): The source in use gives no valid measurement for LOSS_MS, and holdover begins. -/
  | holdoverLossTimeout
  /-- PPS_OUT_EDGE (R476): At each whole second PPS_OUT drives its edge. -/
  | ppsOutEdge
  /-- TOD_OUT_SEND (R476): 500 ms before each edge the ToD message for it is sent. -/
  | todOutSend
  /-- TX_STAMP_DRAIN (R470): A stamp record drains to the event ring as EVT_TX_STAMP once the ring has room. -/
  | txStampDrain (eth : Bool) (p : Fin 4)
  /-- QL_FRAME_RX (R493): A QZ-Link frame is received, checked and accepted, transited or discarded. -/
  | qlFrameRx (q : Fin 7) (frame : List Byte) (env : CmdEnv)
  /-- QL_ACK_RX (R493): An ACK link word frees the acknowledged frames. -/
  | qlAckRx (q : Fin 7) (d1 : Byte) (val : W16)
  /-- QL_NAK_RX (R493): A NAK link word makes the sender resend every unacknowledged frame. -/
  | qlNakRx (q : Fin 7) (val : W16)
  /-- QL_CREDIT_RX (R495): A CREDIT link word returns credits of one class. -/
  | qlCreditRx (q : Fin 7) (val : W16)
  /-- QL_LEVEL_RX (R496): A LEVEL link word carries the partner's requested level. -/
  | qlLevelRx (q : Fin 6) (val : W16)
  /-- QL_ACK_SEND (R493): While frames arrive, the receiver sends an ACK at least every 2 µs. -/
  | qlAckSend (q : Fin 7)
  /-- QL_REPLAY_TIMEOUT (R493): 20 µs pass without ACK progress, and the sender resends every unacknowledged frame. -/
  | qlReplayTimeout (q : Fin 7)
  /-- QL_LINK_DOWN (R494): Eight resends without progress or 1 ms without lock take the link down for retraining. -/
  | qlLinkDown (q : Fin 7)
  /-- QL_LINK_UP (R494): A QZ-Link or MIR port completes training, grants credits and resends held records. -/
  | qlLinkUp (q : Fin 7) (lane1 : Bool)
  /-- QL_LEVEL_WINDOW (R496): A 100 µs measurement window ends, and the end updates its level request. -/
  | qlLevelWindow (q : Fin 6)
  /-- QL_STEP_DONE (R497): A level step completes, and frames resume at the new level. -/
  | qlStepDone (q : Fin 6) (lane1 : Bool)
  /-- QL_TX_SCHEDULE (R391): The QZ-Link scheduler takes the next frame by class priority and round robin. -/
  | qlTxSchedule (q : Fin 7)
  /-- ANNOUNCE_RX (R499): An ANNOUNCE is received and updates root following, re-sending and learned routes. -/
  | announceRx
  /-- ANNOUNCE_SEND (R499): Every 100 ms a root sends an ANNOUNCE on every port that is up. -/
  | announceSend
  /-- MEMBER_ANNOUNCE_SEND (R500): Every 100 ms a Shelf-member sends its own ANNOUNCE on ROOT_PORT. -/
  | memberAnnounceSend
  /-- ROOT_EXPIRY (R499): A root's ANNOUNCE has not arrived for 300 ms, so it ceases to be current. -/
  | rootExpiry (root : BitVec 10)
  /-- SHELF_ROOT_LOSS (R50): No ANNOUNCE of any root arrives for 2 s, so a Shelf-member moves to Stand-alone. -/
  | shelfRootLoss
  /-- HEARTBEAT_SEND (R553): Every 1,000 µs the device sends a heartbeat word on MIR while its conditions hold. -/
  | heartbeatSend
  /-- HEARTBEAT_STALL (R548): No heartbeat is generated for 1,500 µs, so the keeper releases OWN. -/
  | heartbeatStall
  /-- HEARTBEAT_RX (R553): A partner heartbeat is received and resets the miss count. -/
  | heartbeatRx (val : W16)
  /-- HEARTBEAT_MISS (R563): An interval passes without a heartbeat, and at the third miss the mode acts under R564. -/
  | heartbeatMiss
  /-- TAKEOVER_OWN_ACQUIRE (R565): After the third miss and 50 µs of released OWN_IN, OWN is asserted and the Standby becomes Active. -/
  | takeoverOwnAcquire
  /-- TAKEOVER_RESTORE_DONE (R565): Restore and port start-up complete, the takeover record forms and EVT_TAKEOVER is posted. -/
  | takeoverRestoreDone
  /-- OWN_IN_ASSERT (R550): OWN_IN becomes held while the device holds OWN, which closes the transmit gate. -/
  | ownInAssert
  /-- OWN_IN_RELEASE (R547): OWN_IN reads released again, which reopens the gate while OWN_OUT is held. -/
  | ownInRelease
  /-- MIR_FRAGMENT_RX (R559): A record fragment is stored; a complete valid commit record commits the record. -/
  | mirFragmentRx
  /-- MIR_RECORD_ACK_RX (R561): A RECORD_ACK frees the acknowledged record at the Active device. -/
  | mirRecordAckRx
  /-- MIR_REQ_BASE_RX (R571): A REQ_BASE from a Resync partner makes a Solo device with ALLOW become Active. -/
  | mirReqBaseRx
  /-- MIR_BREAK_RX (R562): A BREAK makes the Standby enter Resync. -/
  | mirBreakRx
  /-- MIR_OCHRE_RX (R576): An OCHRE frame updates the partner's report and PARTNER_READY. -/
  | mirOchreRx
  /-- REQ_BASE_SEND (R571): A Resync device sends REQ_BASE every 100 ms until a base fragment arrives. -/
  | reqBaseSend
  /-- MIRROR_FILL_DONE (R572): The mirror fill completes, and MIRROR_VALID becomes 1. -/
  | mirrorFillDone
  /-- OCHRE_TEST_RUN (R574): A self-test of the rotation comes due and sets its PASS or FAIL bit. -/
  | ochreTestRun (test : Fin 11) (pass : Bool) (ce : W32)
  /-- RX_DMA_DELIVER (R531): Enough descriptors are posted, and the head frame of a receive ring is delivered. -/
  | rxDmaDeliver (r : Fin 16) (bufLens : List Nat)
  /-- RX_STALL_TIMEOUT (R531): The head frame has waited RX_STALL_US for descriptors and is dropped. -/
  | rxStallTimeout (r : Fin 16)
  /-- TX_RING_FETCH (R528): The device fetches the next packet of a transmit ring while its source queue has room. -/
  | txRingFetch (r : Fin 16) (descs : List TxDesc) (data : List Byte)
  /-- EVENT_POST (R525): A staged event is written into ring 2 once the ring has room. -/
  | eventPost
  /-- MSIX_MODERATION_END (R507): MOD_US has passed, and a deferred vector fires. -/
  | msixModerationEnd (n : Fin 64)
  /-- TASK_SUBMIT (R537): A core submits a task descriptor and obtains a handle. -/
  | taskSubmit (k : Fin 8) (desc : TaskDesc)
  /-- TASK_READY (R539): A core makes a HELD task READY. -/
  | taskReady (k : Fin 8) (handle : W32)
  /-- TASK_CANCEL (R541): A core cancels a HELD or READY task. -/
  | taskCancel (k : Fin 8) (handle : W32)
  /-- TASK_TAKE (R540): A core reads TAKE and blocks until an eligible task is dispatched to it. -/
  | taskTake (k : Fin 8)
  /-- TASK_TAKE_TIMEOUT (R540): TAKE_TIMEOUT_US elapses, and TAKE returns a handle of 0. -/
  | taskTakeTimeout (k : Fin 8)
  /-- TASK_DONE (R539): A core completes a task, and the result goes to the producer's completion queue. -/
  | taskDone (k : Fin 8) (handle result : W32)
  /-- TASK_CPL_READ (R536): A core reads one entry of its completion queue. -/
  | taskCplRead (k : Fin 8)
  /-- TASK_WATCHDOG_EXPIRY (R542): A dispatched task without DONE reaches WATCHDOG_MS and completes with ST_TASK_TIMEOUT. -/
  | taskWatchdogExpiry (slot : Fin 4096)
  /-- BACKGROUND_TABLE_WORK (R315): The reserved row slots carry out rebuild copies, reclamation sweeps and Verdigris in priority order. -/
  | backgroundTableWork
  /-- VERDIGRIS_COMPARE (R350): Verdigris compares a table record with its shadow and quarantines or reports a difference. -/
  | verdigrisCompare
  /-- PATROL_SCRUB (R587): The patrol scrubber reads the next SRAM word. -/
  | patrolScrub
  /-- ECC_CORRECTABLE (R587): A read finds a correctable error, which is corrected and written back. -/
  | eccCorrectable (occ : Occupant) (index : W32)
  /-- ECC_UNCORRECTABLE (R588): A read finds an uncorrectable error, which the occupant answers. -/
  | eccUncorrectable (occ : Occupant) (index : W32)
  /-- CROSSING_PARITY_ERROR (R589): A crossing item fails parity and is dropped or gives a fatal fault. -/
  | crossingParityError (item : CrossItem)
  /-- TRNG_HEALTH_FAIL (R415): A health test of the entropy source fails, and reseeding stops. -/
  | trngHealthFail
  /-- CONSOLE_FRAME_RX (R608): A console frame is received; a command slot is executed and a bad frame discarded. -/
  | consoleFrameRx (frame : List Byte) (env : CmdEnv)
  /-- BOOT_NONE_REPORT (R414): With no verifying boot image, BOOT_NONE is sent on the console once per second. -/
  | bootNoneReport
  /-- DDR_TRAIN_FAIL_REPORT (R608): In the state of R35, DDR_TRAIN_FAIL is sent on the console once per second. -/
  | ddrTrainFailReport
  /-- SMBUS_BLOCK_READ (R609): An SMBus Block Read returns the register named by the command code. -/
  | smbusBlockRead (code : Byte)
  /-- SMBUS_WRITE (R609): An SMBus write, or an unknown code, is NACKed. -/
  | smbusWrite
  /-- SMBUS_ALERT_RESPONSE (R609): The device answers the Alert Response Address with its own address. -/
  | smbusAlertResponse
  /-- TX_GRANT (R24): At the grant instant G, 40 µs minus GNT_SETUP after S, GNT is sampled, the frame counter and flood identifier are assigned and CCM* starts, or a denied grant returns the port toward RX. -/
  | txGrant (c : Fin 16) (gnt : Bool)
  /-- TX_RAMP_UP (R99): At S + 40 µs the TXPRE-to-TX transition ends, the first PA ramp-up starts, and the frame's charge and TX_FRAMES become final. -/
  | txRampUp (c : Fin 16)
  /-- TX_END (R99): At E the last carrier's ramp-down ends, the FEM lines take the IDLE map, the stamp record enters its queue, the composite contribution leaves and the ack wait or REQ_HOLD begins. -/
  | txEnd (c : Fin 16)
  /-- ACK_TX_START (R207): At S = t0 + TA − RAMP_US − 40 µs the acknowledgement runs its admission checks, and the port enters TXPRE and blanks its lanes. -/
  | ackTxStart (c : Fin 16)
  /-- LATE_LOCK_TIMEOUT (R95): A TX release waiting for synthesiser lock is given up when D + 40 µs + A can no longer end by the slot end, and the frame returns to its queue with ST_LATE_LOCK. -/
  | lateLockTimeout (c : Fin 16)
  /-- OWN_WAIT_DEADLINE (R564): At h + 3,500 µs a Standby device whose OWN_IN is still held enters Resync and raises EVT_PARTNER_SILENT. -/
  | ownWaitDeadline
  /-- TRNG_HEALTH_PASS (R415): The restarted health tests of the entropy source pass, TRNG_FAIL clears, reseeding resumes, and a boot held at step 2 continues. -/
  | trngHealthPass
  /-- KEY_SLOT_RELOAD (R588): A stored-key slot hit by an uncorrectable error is reloaded from the keystore record in use within 10 ms, and requests that name it stop failing. -/
  | keySlotReload (slot : Fin 1024)
  /-- PTP_MESSAGE_SEND (R464): At its configured interval the PTP engine sends Sync on each time-transmitter port and Delay_Req or Pdelay_Req as its delay mechanism requires. -/
  | ptpMessageSend (e : Fin 4)
  /-- PPS_OUT_PULSE_END (R476): WIDTH_US after each PPS_OUT edge the pulse ends and the output returns to its idle level. -/
  | ppsOutPulseEnd
  /-- CORE_MEMORY_ACCESS (R534): A service-core access outside its world's memory raises an access fault on the core and logs VIO_CORE_ACCESS. -/
  | coreMemoryAccess (k : Fin 8) (owner : Option World) (dram write : Bool) (off : BitVec 34) (data : List Byte)
  /-- CORE_INTERRUPT_PENDING (R540): An interrupt becomes pending for a core, and a TAKE that the core holds returns a handle of 0. -/
  | coreInterruptPending (k : Fin 8)
  /-- THERMAL_WARNING (R609): The hottest junction sensor crosses THERM_CTL.WARN_C, TEMP_STATUS.WARN changes, and MGMT_ALERT_N follows it. -/
  | thermalWarning (tj : Int)
  /-- CMD_UNKNOWN_OPCODE (R520): A command whose OPCODE is not listed completes with ST_UNKNOWN_OPCODE and has no other effect. -/
  | cmdUnknownOpcode (h : Hdr) (opcode : W16)
  deriving DecidableEq, Repr

end Sys2Proof
end

