-- ==== Sys2Proof/Decode.lean ====
section
/-! DEFINITION. The commands that the opcode table spells in bits. -/

namespace Sys2Proof

/-- The table gives no row any bits: a command reaches the block as an event, a register access or a slot, never as a
word. -/
def decodeTableWord (nbits w : Nat) : Option Instr :=
  let _ := nbits
  let _ := w
  none

end Sys2Proof
end

