-- ==== Sys2Proof/Machine/SMap.lean ====
section
/-! DEFINITION. Bit-field and byte-order helpers (R5, R6), and the sparse map that holds every banked or indexed
piece of state: a list of (key, value) pairs with keys strictly rising and no pair equal to the default that an
unlisted key reads as, so that equal maps are equal data. -/

namespace Sys2Proof.Machine

/-- Bits [hi:lo] of a number (R5). -/
def bits (v hi lo : Nat) : Nat := (v >>> lo) % 2 ^ (hi - lo + 1)

/-- Bit n of a number (R5). -/
def bit (v n : Nat) : Bool := (v >>> n) % 2 == 1

/-- 1 or 0. -/
def ofBool (b : Bool) : Nat := if b then 1 else 0

/-- The n octets of a value, least significant first (R6). -/
def le : Nat → Nat → List (BitVec 8)
  | 0, _ => []
  | n + 1, v => BitVec.ofNat 8 v :: le n (v / 256)

/-- The value of octets, least significant first (R6). -/
def unle : List (BitVec 8) → Nat
  | [] => 0
  | b :: bs => b.toNat + 256 * unle bs

/-- The value of octets in network order, most significant first. -/
def unbe (bs : List (BitVec 8)) : Nat := unle bs.reverse

/-- The n octets from offset `off`, 0 beyond the end. -/
def slice (bs : List (BitVec 8)) (off n : Nat) : List (BitVec 8) :=
  let t := (bs.drop off).take n
  t ++ List.replicate (n - t.length) 0#8

/-- Little-endian field of n octets at `off`. -/
def fld (bs : List (BitVec 8)) (off n : Nat) : Nat := unle (slice bs off n)

/-- An n-bit two's complement field. -/
def sext (n v : Nat) : Int := if v % 2 ^ n < 2 ^ (n - 1) then ((v % 2 ^ n : Nat) : Int) else ((v % 2 ^ n : Nat) : Int) - ((2 ^ n : Nat) : Int)

/-- The n-bit two's complement pattern of an integer. -/
def pat (n : Nat) (v : Int) : Nat := (v % ((2 ^ n : Nat) : Int)).toNat

/-- An integer held to a range. -/
def clampI (lo hi v : Int) : Int := if v < lo then lo else if hi < v then hi else v

/-- A count held to a range. -/
def clampN (lo hi v : Nat) : Nat := if v < lo then lo else if hi < v then hi else v

/-- Quotient rounded up. -/
def ceilDiv (a b : Nat) : Nat := (a + b - 1) / b

/-- Replace the n octets from offset `off` (unchanged beyond the end). -/
def patch (bs : List (BitVec 8)) (off : Nat) (v : List (BitVec 8)) : List (BitVec 8) :=
  (bs.take off) ++ (v.take (bs.length - off)) ++ bs.drop (off + v.length)

/-- A sparse map: see the head of the file. -/
abbrev SMap (α : Type) := List (Nat × α)

namespace SMap

variable {α : Type}

/-- The listed value of a key. -/
def find : SMap α → Nat → Option α
  | [], _ => none
  | (k, v) :: t, i => if k = i then some v else find t i

/-- The value of a key, `d` where none is listed. -/
def get (m : SMap α) (d : α) (i : Nat) : α := (m.find i).getD d

/-- List a value for a key. -/
def put : SMap α → Nat → α → SMap α
  | [], i, v => [(i, v)]
  | (k, w) :: t, i, v =>
    if i < k then (i, v) :: (k, w) :: t else if i = k then (i, v) :: t else (k, w) :: put t i v

/-- Unlist a key. -/
def del : SMap α → Nat → SMap α
  | [], _ => []
  | (k, w) :: t, i => if k = i then del t i else (k, w) :: del t i

/-- Write a key: the default value is never listed. -/
def set [DecidableEq α] (m : SMap α) (d : α) (i : Nat) (v : α) : SMap α :=
  if v = d then m.del i else m.put i v

/-- Change the value of a key. -/
def upd [DecidableEq α] (m : SMap α) (d : α) (i : Nat) (f : α → α) : SMap α :=
  m.set d i (f (m.get d i))

/-- Keys strictly rise. -/
def rising : SMap α → Bool
  | [] => true
  | [_] => true
  | (a, _) :: (b, w) :: t => decide (a < b) && rising ((b, w) :: t)

/-- The canonical form: keys strictly rise and no value is the default. -/
def wf [DecidableEq α] (d : α) (m : SMap α) : Bool :=
  rising m && m.all (fun p => !decide (p.2 = d))

/-- The same change of every listed value (values that become the default stay listed only if `f` keeps them apart). -/
def mapAll [DecidableEq α] (m : SMap α) (d : α) (f : Nat → α → α) : SMap α :=
  m.filterMap (fun p => if f p.1 p.2 = d then none else some (p.1, f p.1 p.2))

end SMap

end Sys2Proof.Machine
end

