-- ==== Sys2Proof/Machine/ActWord.lean ====
section
/-! DEFINITION. Action instructions as the words of a program (R369, R370): what a load checks of them (check 11 of R275),
the cost bound (R273), and the places in a program that a pass refers to. Operand registers (R366) are numbered: G0 to G15
from 0, the header window 16, result buffers from 17, metadata fields from 32. -/

namespace Sys2Proof.Machine

/-- Fields of an action word (R369). -/
def actOp (w : Nat) : Nat := bits w 31 26
def actD (w : Nat) : Nat := bits w 25 22
def actA (w : Nat) : Nat := bits w 21 18
def actB (w : Nat) : Nat := bits w 17 14

/-- Fields of format J: the registers stand in D's and A's places. -/
def actJA (w : Nat) : Nat := bits w 25 22
def actJB (w : Nat) : Nat := bits w 21 18
def actTarget (w : Nat) : Nat := bits w 5 0

/-- The metadata field of LDM and STM, and the result buffer of a lookup and of RECIRCP. -/
def actField (w : Nat) : Nat := bits w 7 0
def actRb (w : Nat) : Nat := bits w 13 12

/-- Formats (R369). -/
def actIsI (op : Nat) : Bool := op == 1 || op == 2
def actIsJ (op : Nat) : Bool := decide (20 ≤ op ∧ op ≤ 28)

/-- A word of format A, I or J. -/
def wordA (op d a b aux : Nat) : Nat := op * 2 ^ 26 + d * 2 ^ 22 + a * 2 ^ 18 + b * 2 ^ 14 + aux
def wordI (op d imm : Nat) : Nat := op * 2 ^ 26 + d * 2 ^ 22 + imm
def wordJ (op a b imm target : Nat) : Nat := op * 2 ^ 26 + a * 2 ^ 22 + b * 2 ^ 18 + imm * 2 ^ 10 + target

/-- The bits that an opcode uses below its opcode, or none for an undefined opcode (R370). -/
def actMask (op : Nat) : Option Nat :=
  let d := 0x3C00000
  let a := 0x3C0000
  let b := 0x3C000
  match op with
  | 0 => some 0
  | 1 => some (d + 0x3FFFF)
  | 2 => some (d + 0x3FFFF)
  | 3 => some (d + a + b)
  | 4 => some (d + a + 0x3FFF)
  | 5 => some (d + a + b)
  | 6 => some (d + a + b)
  | 7 => some (d + a + b)
  | 8 => some (d + a + b)
  | 9 => some (d + a + 0x3FF0)
  | 10 => some (d + a + 0x3FF0)
  | 11 => some (d + 0xFF)
  | 12 => some (a + 0xFF)
  | 13 => some (d + 0x3FE0)
  | 14 => some (a + 0x3FE0)
  | 15 => some (d + 0x3FF0)
  | 16 => some 0x3FF
  | 17 => some (d + a)
  | 20 => some (d + a + 0x3F)
  | 21 => some (d + a + 0x3F)
  | 22 => some (d + a + 0x3F)
  | 23 => some (d + a + 0x3F)
  | 24 => some (d + 0x3FC00 + 0x3F)
  | 25 => some (d + 0x3FC00 + 0x3F)
  | 26 => some (d + 0x7C00 + 0x3F)
  | 27 => some (d + 0x7C00 + 0x3F)
  | 28 => some 0x3F
  | 32 => some (d + a + b + 0x3000)
  | 33 => some (d + a + b + 0x3000)
  | 34 => some (d + a + b + 0x3000)
  | 35 => some (d + 0x3001)
  | 40 => some (d + a)
  | 48 => some d
  | 49 => some d
  | 56 => some 0
  | 57 => some 0x3FF
  | 58 => some 0xFF
  | 59 => some 0x3000
  | _ => none

/-- The word is a defined instruction with every unused bit 0 (R369). -/
def actDefined (w : Nat) : Bool :=
  match actMask (actOp w) with
  | some m => (w % 2 ^ 26) &&& m == w % 2 ^ 26
  | none => false

/-- Cost classes (R272). -/
def actLookup (op : Nat) : Bool := decide (32 ≤ op ∧ op ≤ 35)
def actEmit (op : Nat) : Bool := decide (56 ≤ op ∧ op ≤ 59)

/-- Latency of a class. -/
def actLatency (op : Nat) : Nat :=
  if actLookup op then 12 else if op = 40 then 4 else if op = 48 ∨ op = 49 then 16 else 1

/-- Operand registers an instruction reads (R366, R370); G0 is none. -/
def actReads (w : Nat) : List Nat :=
  let g := fun r => if r = 0 then [] else [r]
  let op := actOp w
  let a := g (actA w)
  let b := g (actB w)
  let outs := [0x10, 0x11, 0x12, 0x13, 0x14, 0x15, 0x18].map (fun f => 32 + f)
  match op with
  | 2 => g (actD w)
  | 3 => a ++ b
  | 4 => a
  | 5 => a ++ b
  | 6 => a ++ b
  | 7 => a ++ b
  | 8 => a ++ b
  | 9 => a
  | 10 => g (actD w) ++ a
  | 11 => [32 + actField w]
  | 12 => a
  | 13 => [16]
  | 14 => a
  | 15 => [17 + actRb w]
  | 17 => 34 :: a
  | 20 => g (actJA w) ++ g (actJB w)
  | 21 => g (actJA w) ++ g (actJB w)
  | 22 => g (actJA w) ++ g (actJB w)
  | 23 => g (actJA w) ++ g (actJB w)
  | 24 => g (actJA w)
  | 25 => g (actJA w)
  | 26 => g (actJA w)
  | 27 => g (actJA w)
  | 32 => a ++ b
  | 33 => 34 :: (a ++ b)
  | 34 => a ++ b
  | 35 => [16]
  | 40 => (32 + 0x17) :: a
  | 48 => [16]
  | 49 => [16, 34, 32 + 0x14]
  | 56 => 16 :: outs
  | 59 => [17 + actRb w]
  | _ => []

/-- Operand registers an instruction writes. -/
def actWrites (w : Nat) : List Nat :=
  let g := fun r => if r = 0 then [] else [r]
  let op := actOp w
  let d := g (actD w)
  if op = 12 then [32 + actField w]
  else if op = 14 then [16]
  else if actLookup op then (17 + actRb w) :: d
  else if op = 48 ∨ op = 49 then 16 :: 37 :: d
  else if [1, 2, 3, 4, 5, 6, 7, 8, 9, 10, 11, 13, 15, 17, 40].contains op then d
  else []

/-- A state of the cost bound (R273). -/
structure CostSt where
  cycle : Nat := 0
  ready : SMap Nat := []
  inflight : List Nat := []
  deriving DecidableEq, Repr, Inhabited

/-- The merge of two states: the greater of each, and the union of what is in flight. -/
def CostSt.merge (x y : CostSt) : CostSt :=
  { cycle := max x.cycle y.cycle
    ready := y.ready.foldl (fun (m : SMap Nat) (p : Nat × Nat) => m.put p.1 (max (m.get 0 p.1) p.2)) x.ready
    inflight := x.inflight ++ y.inflight.filter (fun t => !x.inflight.contains t) }

/-- Insert into a list that falls. -/
def insertDesc (t : Nat) : List Nat → List Nat
  | [] => [t]
  | a :: l => if a < t then t :: a :: l else a :: insertDesc t l

/-- The state after an instruction, and the cycle after its issue (R273). -/
def CostSt.after (s : CostSt) (w : Nat) : CostSt :=
  let start0 := (actReads w).foldl (fun m r => max m (s.ready.get 0 r)) s.cycle
  let late := (s.inflight.filter (fun t => decide (start0 < t))).foldl (fun l t => insertDesc t l) []
  let op := actOp w
  let start := if actLookup op ∧ 4 ≤ late.length then late.getD 3 start0 else start0
  { cycle := start + 1
    ready := (actWrites w).foldl (fun (m : SMap Nat) r => m.put r (start + actLatency op)) s.ready
    inflight := if actLookup op then s.inflight ++ [start + 12] else s.inflight }

/-- Join a state to those that arrive at an index. -/
def arrive (m : SMap CostSt) (i : Nat) (s : CostSt) : SMap CostSt :=
  match m.find i with
  | some t => m.put i (t.merge s)
  | none => m.put i s

/-- The cost of the instructions from index i on, with the states that arrive at each (R273, R374). -/
def costFrom : Nat → List Nat → SMap CostSt → Nat → Nat
  | i, [], m, best => match m.find i with
    | some s => max best (s.cycle + 1)
    | none => best
  | i, w :: ws, m, best =>
    match m.find i with
    | none => costFrom (i + 1) ws m best
    | some s =>
      let t := s.after w
      if actEmit (actOp w) then costFrom (i + 1) ws m (max best t.cycle)
      else
        let m := arrive m (i + 1) t
        costFrom (i + 1) ws (if actIsJ (actOp w) then arrive m (actTarget w) t else m) best

/-- The cost of a program (R273). -/
def progCost (ws : List Nat) : Nat := costFrom 0 ws [(0, {})] 0

/-- A program can recirculate. -/
def recirculates (ws : List Nat) : Bool := ws.any (fun w => actOp w == 58 || actOp w == 59)

/-- Every branch goes forward within the program (R369). -/
def forwardOnly (ws : List Nat) : Bool :=
  ws.zipIdx.all (fun x => !actIsJ (actOp x.1) || decide (x.2 < actTarget x.1 ∧ actTarget x.1 < ws.length))

end Sys2Proof.Machine
end

