-- ==== Sys2Proof/Config.lean ====
section
/-! DEFINITION. The free values and the functions the spec names but does not compute here: constants with NO body,
so nothing can be proved about their values. Notes/assumptions name each. -/

namespace Sys2Proof.Config

/-- A random draw of w bits (R197, R211, R324, R382, R450), and any value the spec leaves open after a step: the n-th
free value of the run. -/
opaque freeValue (w : Nat) (n : Nat) : BitVec w

/-- SHA-384 (FIPS 180-4, R265, R416): 48 octets. -/
opaque sha384 (m : List Byte) : List Byte

/-- AES CCM* encryption (R430, R431): key, nonce, authenticated data, MIC length, plaintext; ciphertext with MIC. -/
opaque ccmSeal (key : List Byte) (nonce aad : List Byte) (mic : Nat) (plain : List Byte) : List Byte

/-- AES CCM* decryption (R432): none where the MIC does not verify. -/
opaque ccmOpen (key : List Byte) (nonce aad : List Byte) (mic : Nat) (cipher : List Byte) : Option (List Byte)

/-- AES-KW unwrapping (R424): none where the integrity check fails. -/
opaque keyUnwrap (kek wrapped : List Byte) : Option (List Byte)

/-- AES-KW wrapping (R440). -/
opaque keyWrap (kek key : List Byte) : List Byte

/-- CMAC-AES-256 (NIST SP 800-38B; R419, R424, R427, R442): 16 octets. -/
opaque cmac (key m : List Byte) : List Byte

/-- ECDSA P-384 verification under FIPS 186-5: public key, message hash, signature. -/
opaque ecdsaVerify (pub hash sig : List Byte) : Bool

/-- ML-DSA-65 verification under FIPS 204: public key, message, signature. -/
opaque mldsaVerify (pub msg sig : List Byte) : Bool

/-- GCM-AES-256 of MACsec (R450): key, nonce, authenticated data, text; ciphertext with the 16-octet ICV. -/
opaque gcmSeal (key nonce aad plain : List Byte) : List Byte

/-- GCM-AES-256 verification: none where the ICV does not verify. -/
opaque gcmOpen (key nonce aad cipher : List Byte) : Option (List Byte)

/-- D1 of R416: the digest of the boot ROM, the built-in Vat image included. -/
opaque romDigest : List Byte

/-- What R283 does not give of the built-in Vat image: its digest, the default power of TXC_0, the acknowledgement carriers and the composite back-off of RF_A. -/
opaque romVatDigest : List Byte
opaque romCarrierPwr : BitVec 16
opaque romAckCarriers : BitVec 16
opaque romBackoff : BitVec 6

/-- The set of the derived-key cache that a tag falls into, 0 to 4,095 (R428). -/
opaque kcacheSet (slot gen ident epoch : Nat) : Nat

/-- The mean noise power a lane publishes over an epoch (R155), in 0.25 dBm: lane and epoch. -/
opaque laneNoise (lane epoch : Nat) : BitVec 16

/-- What R135 takes from IEEE 802.15.4-2020 clause 19 for coded SUN-FSK without repeating it: the taps of its codes of
constraint length 4, four bits for each of the two parities of NRNSC, the feedback and the parity of RSC; the five padding
bits; and the order in which the interleaver reads a block of 16 coded bits. -/
opaque sunTaps : BitVec 16
opaque sunPad : BitVec 5
opaque sunPerm (i : Nat) : Nat

/-- The words of the snapshot directory (R73), and what stands at an offset of a snapshot buffer: the kind of item and its
index (R72, R73). The spec gives neither layout. -/
opaque snapDir (n : Nat) : BitVec 32
opaque snapItem (o : Nat) : Nat × Nat

end Sys2Proof.Config
end

