-- ==== Sys2Proof/Machine/Codes.lean ====
section
/-! DEFINITION. The code tables of the manual: command opcodes (R521), status codes (R523, R570), event codes (R526,
R570, R594), violations (R583) and counters with their WIN_CFG offsets and classes (R591). -/

namespace Sys2Proof.Machine

/-- Command and frame outcomes (R523; 0b0111_0000 from Redundant pairs and takeover). -/
inductive Status where
  | ST_OK
  | ST_BAD_PARAM
  | ST_MODE_REFUSED
  | ST_BUSY
  | ST_FULL
  | ST_NOT_FOUND
  | ST_EPOCH_PASSED
  | ST_TRANSFER_FAIL
  | ST_WRONG_LIFECYCLE
  | ST_UNKNOWN_OPCODE
  | ST_WORLD_DENIED
  | ST_ALREADY_SET
  | ST_DROPPED
  | ST_CANCELLED_BEFORE_DISPATCH
  | ST_ALREADY_DISPATCHED
  | ST_TASK_TIMEOUT
  | ST_PHASE_UNSUPPORTED
  | ST_NOTHING_STAGED
  | ST_IMAGE_REFUSED
  | ST_COMMIT_PENDING
  | ST_DIGEST_MISMATCH
  | ST_CAL_BUSY
  | ST_PORT_BUSY
  | ST_CINNABAR_LOCKED
  | ST_CINNABAR_INVALID
  | ST_CINNABAR_UNLOCKED
  | ST_OTP_FAIL
  | ST_SUBBAND_OFF
  | ST_DUTY_EXHAUSTED
  | ST_LATE_LOCK
  | ST_COEX_DENIED
  | ST_CARRIER_BUSY
  | ST_DUTY_DEFERRED
  | ST_COMPOSITE_FULL
  | ST_TOO_LONG_FOR_SLOT
  | ST_CHANNEL_BUSY
  | ST_CHANNEL_ACCESS_FAILURE
  | ST_NO_ACK
  | ST_INDIRECT_FULL
  | ST_NEVER_FITS
  | ST_FC_EXHAUSTED
  | ST_CARRIER_PARKED
  | ST_NEXT_WINDOW
  | ST_NO_ROUTE
  | ST_BULK_PHASE
  | ST_NO_REBUILD
  | ST_ADDR_IN_USE
  | ST_EUI_IN_USE
  | ST_TABLE_FULL
  | ST_PREFIX_LENGTHS
  | ST_REBUILD_INCOMPLETE
  | ST_TRNG_FAIL
  | ST_KEY_DENIED
  | ST_MIGRATION_PENDING
  | ST_SLOT_IN_USE
  | ST_KEY_INVALID
  | ST_LEVEL
  | ST_PUBKEY_FULL
  | ST_UNWRAP_FAIL
  | ST_KCV_MISMATCH
  | ST_KEYSTORE_FAIL
  | ST_MANIFEST_REFUSED
  | ST_ROLLBACK
  | ST_NO_JUMP
  | ST_ALREADY_ACQUIRED
  | ST_NO_TAKEOVER
  deriving DecidableEq, Repr, Inhabited

/-- The code of the table. -/
def Status.code : Status → Nat
  | .ST_OK => 0x0
  | .ST_BAD_PARAM => 0x1
  | .ST_MODE_REFUSED => 0x2
  | .ST_BUSY => 0x3
  | .ST_FULL => 0x4
  | .ST_NOT_FOUND => 0x5
  | .ST_EPOCH_PASSED => 0x6
  | .ST_TRANSFER_FAIL => 0x7
  | .ST_WRONG_LIFECYCLE => 0x8
  | .ST_UNKNOWN_OPCODE => 0x9
  | .ST_WORLD_DENIED => 0xa
  | .ST_ALREADY_SET => 0xb
  | .ST_DROPPED => 0xc
  | .ST_CANCELLED_BEFORE_DISPATCH => 0xd
  | .ST_ALREADY_DISPATCHED => 0xe
  | .ST_TASK_TIMEOUT => 0xf
  | .ST_PHASE_UNSUPPORTED => 0x10
  | .ST_NOTHING_STAGED => 0x11
  | .ST_IMAGE_REFUSED => 0x12
  | .ST_COMMIT_PENDING => 0x13
  | .ST_DIGEST_MISMATCH => 0x14
  | .ST_CAL_BUSY => 0x20
  | .ST_PORT_BUSY => 0x21
  | .ST_CINNABAR_LOCKED => 0x22
  | .ST_CINNABAR_INVALID => 0x23
  | .ST_CINNABAR_UNLOCKED => 0x24
  | .ST_OTP_FAIL => 0x25
  | .ST_SUBBAND_OFF => 0x26
  | .ST_DUTY_EXHAUSTED => 0x27
  | .ST_LATE_LOCK => 0x30
  | .ST_COEX_DENIED => 0x31
  | .ST_CARRIER_BUSY => 0x32
  | .ST_DUTY_DEFERRED => 0x33
  | .ST_COMPOSITE_FULL => 0x34
  | .ST_TOO_LONG_FOR_SLOT => 0x35
  | .ST_CHANNEL_BUSY => 0x36
  | .ST_CHANNEL_ACCESS_FAILURE => 0x37
  | .ST_NO_ACK => 0x38
  | .ST_INDIRECT_FULL => 0x39
  | .ST_NEVER_FITS => 0x3a
  | .ST_FC_EXHAUSTED => 0x3b
  | .ST_CARRIER_PARKED => 0x3c
  | .ST_NEXT_WINDOW => 0x3d
  | .ST_NO_ROUTE => 0x3e
  | .ST_BULK_PHASE => 0x3f
  | .ST_NO_REBUILD => 0x40
  | .ST_ADDR_IN_USE => 0x41
  | .ST_EUI_IN_USE => 0x42
  | .ST_TABLE_FULL => 0x43
  | .ST_PREFIX_LENGTHS => 0x44
  | .ST_REBUILD_INCOMPLETE => 0x45
  | .ST_TRNG_FAIL => 0x50
  | .ST_KEY_DENIED => 0x51
  | .ST_MIGRATION_PENDING => 0x52
  | .ST_SLOT_IN_USE => 0x53
  | .ST_KEY_INVALID => 0x54
  | .ST_LEVEL => 0x55
  | .ST_PUBKEY_FULL => 0x56
  | .ST_UNWRAP_FAIL => 0x57
  | .ST_KCV_MISMATCH => 0x58
  | .ST_KEYSTORE_FAIL => 0x59
  | .ST_MANIFEST_REFUSED => 0x5a
  | .ST_ROLLBACK => 0x5b
  | .ST_NO_JUMP => 0x60
  | .ST_ALREADY_ACQUIRED => 0x61
  | .ST_NO_TAKEOVER => 0x70

/-- The status of a code. -/
def Status.ofCode : Nat → Option Status
  | 0x0 => some .ST_OK
  | 0x1 => some .ST_BAD_PARAM
  | 0x2 => some .ST_MODE_REFUSED
  | 0x3 => some .ST_BUSY
  | 0x4 => some .ST_FULL
  | 0x5 => some .ST_NOT_FOUND
  | 0x6 => some .ST_EPOCH_PASSED
  | 0x7 => some .ST_TRANSFER_FAIL
  | 0x8 => some .ST_WRONG_LIFECYCLE
  | 0x9 => some .ST_UNKNOWN_OPCODE
  | 0xa => some .ST_WORLD_DENIED
  | 0xb => some .ST_ALREADY_SET
  | 0xc => some .ST_DROPPED
  | 0xd => some .ST_CANCELLED_BEFORE_DISPATCH
  | 0xe => some .ST_ALREADY_DISPATCHED
  | 0xf => some .ST_TASK_TIMEOUT
  | 0x10 => some .ST_PHASE_UNSUPPORTED
  | 0x11 => some .ST_NOTHING_STAGED
  | 0x12 => some .ST_IMAGE_REFUSED
  | 0x13 => some .ST_COMMIT_PENDING
  | 0x14 => some .ST_DIGEST_MISMATCH
  | 0x20 => some .ST_CAL_BUSY
  | 0x21 => some .ST_PORT_BUSY
  | 0x22 => some .ST_CINNABAR_LOCKED
  | 0x23 => some .ST_CINNABAR_INVALID
  | 0x24 => some .ST_CINNABAR_UNLOCKED
  | 0x25 => some .ST_OTP_FAIL
  | 0x26 => some .ST_SUBBAND_OFF
  | 0x27 => some .ST_DUTY_EXHAUSTED
  | 0x30 => some .ST_LATE_LOCK
  | 0x31 => some .ST_COEX_DENIED
  | 0x32 => some .ST_CARRIER_BUSY
  | 0x33 => some .ST_DUTY_DEFERRED
  | 0x34 => some .ST_COMPOSITE_FULL
  | 0x35 => some .ST_TOO_LONG_FOR_SLOT
  | 0x36 => some .ST_CHANNEL_BUSY
  | 0x37 => some .ST_CHANNEL_ACCESS_FAILURE
  | 0x38 => some .ST_NO_ACK
  | 0x39 => some .ST_INDIRECT_FULL
  | 0x3a => some .ST_NEVER_FITS
  | 0x3b => some .ST_FC_EXHAUSTED
  | 0x3c => some .ST_CARRIER_PARKED
  | 0x3d => some .ST_NEXT_WINDOW
  | 0x3e => some .ST_NO_ROUTE
  | 0x3f => some .ST_BULK_PHASE
  | 0x40 => some .ST_NO_REBUILD
  | 0x41 => some .ST_ADDR_IN_USE
  | 0x42 => some .ST_EUI_IN_USE
  | 0x43 => some .ST_TABLE_FULL
  | 0x44 => some .ST_PREFIX_LENGTHS
  | 0x45 => some .ST_REBUILD_INCOMPLETE
  | 0x50 => some .ST_TRNG_FAIL
  | 0x51 => some .ST_KEY_DENIED
  | 0x52 => some .ST_MIGRATION_PENDING
  | 0x53 => some .ST_SLOT_IN_USE
  | 0x54 => some .ST_KEY_INVALID
  | 0x55 => some .ST_LEVEL
  | 0x56 => some .ST_PUBKEY_FULL
  | 0x57 => some .ST_UNWRAP_FAIL
  | 0x58 => some .ST_KCV_MISMATCH
  | 0x59 => some .ST_KEYSTORE_FAIL
  | 0x5a => some .ST_MANIFEST_REFUSED
  | 0x5b => some .ST_ROLLBACK
  | 0x60 => some .ST_NO_JUMP
  | 0x61 => some .ST_ALREADY_ACQUIRED
  | 0x70 => some .ST_NO_TAKEOVER
  | _ => none

/-- Event codes (R526, and those assigned in chapters 17 and 18). -/
inductive EvCode where
  | EVT_EPOCH
  | EVT_OVERFLOW
  | EVT_DMA_FAULT
  | EVT_CNT_SAT
  | EVT_CAL_FAIL
  | EVT_CAL_DUE
  | EVT_CINNABAR_UNLOCKED
  | EVT_SUBBAND_DISABLED
  | EVT_DUTY_EXHAUSTED
  | EVT_TX_STAMP
  | EVT_NODE_JOINED
  | EVT_NODE_LEFT
  | EVT_ASSOC_REQUEST
  | EVT_NEIGHBOUR_LOST
  | EVT_NEIGHBOUR_FOUND
  | EVT_NODE_UNKNOWN
  | EVT_NODE_AGED
  | EVT_HINT_FAIL
  | EVT_REBUILD_READY
  | EVT_REBUILD_FAILED
  | EVT_VERDIGRIS_MISMATCH
  | EVT_VERDIGRIS_PASS
  | EVT_TRNG_FAIL
  | EVT_CUSTOMER_REFUSED
  | EVT_FC_EXHAUSTED
  | EVT_KEYSTORE_EMPTY
  | EVT_KEYSTORE_FAIL
  | EVT_TIME_ACQUIRED
  | EVT_TIME_SOURCE
  | EVT_RATE_LIMIT
  | EVT_TIME_JUMP_REFUSED
  | EVT_HOLDOVER
  | EVT_ETH_LINK
  | EVT_MACSEC_PN
  | EVT_QL_LINK
  | EVT_QL_DEGRADED
  | EVT_TAKEOVER
  | EVT_PAIR_MODE
  | EVT_PARTNER_SILENT
  | EVT_CHAIN_BREAK
  | EVT_OCHRE
  | EVT_OWN_CONTENTION
  | EVT_ECC_UE
  | EVT_FATAL
  | EVT_LOG_OVERFLOW
  | EVT_NODE_QUARANTINED
  deriving DecidableEq, Repr, Inhabited

/-- The code of the table. -/
def EvCode.code : EvCode → Nat
  | .EVT_EPOCH => 0x1
  | .EVT_OVERFLOW => 0x2
  | .EVT_DMA_FAULT => 0x3
  | .EVT_CNT_SAT => 0x4
  | .EVT_CAL_FAIL => 0x10
  | .EVT_CAL_DUE => 0x11
  | .EVT_CINNABAR_UNLOCKED => 0x12
  | .EVT_SUBBAND_DISABLED => 0x13
  | .EVT_DUTY_EXHAUSTED => 0x14
  | .EVT_TX_STAMP => 0x15
  | .EVT_NODE_JOINED => 0x20
  | .EVT_NODE_LEFT => 0x21
  | .EVT_ASSOC_REQUEST => 0x22
  | .EVT_NEIGHBOUR_LOST => 0x23
  | .EVT_NEIGHBOUR_FOUND => 0x24
  | .EVT_NODE_UNKNOWN => 0x30
  | .EVT_NODE_AGED => 0x31
  | .EVT_HINT_FAIL => 0x32
  | .EVT_REBUILD_READY => 0x33
  | .EVT_REBUILD_FAILED => 0x34
  | .EVT_VERDIGRIS_MISMATCH => 0x35
  | .EVT_VERDIGRIS_PASS => 0x36
  | .EVT_TRNG_FAIL => 0x50
  | .EVT_CUSTOMER_REFUSED => 0x51
  | .EVT_FC_EXHAUSTED => 0x52
  | .EVT_KEYSTORE_EMPTY => 0x53
  | .EVT_KEYSTORE_FAIL => 0x54
  | .EVT_TIME_ACQUIRED => 0x60
  | .EVT_TIME_SOURCE => 0x61
  | .EVT_RATE_LIMIT => 0x62
  | .EVT_TIME_JUMP_REFUSED => 0x63
  | .EVT_HOLDOVER => 0x64
  | .EVT_ETH_LINK => 0x70
  | .EVT_MACSEC_PN => 0x71
  | .EVT_QL_LINK => 0x72
  | .EVT_QL_DEGRADED => 0x73
  | .EVT_TAKEOVER => 0x80
  | .EVT_PAIR_MODE => 0x81
  | .EVT_PARTNER_SILENT => 0x82
  | .EVT_CHAIN_BREAK => 0x83
  | .EVT_OCHRE => 0x84
  | .EVT_OWN_CONTENTION => 0x85
  | .EVT_ECC_UE => 0x90
  | .EVT_FATAL => 0x91
  | .EVT_LOG_OVERFLOW => 0x92
  | .EVT_NODE_QUARANTINED => 0x93

/-- Command opcodes (R521). -/
inductive Opcode where
  | CMD_NOP
  | CMD_HOST_ATTACH
  | CMD_SET_PHASE
  | CMD_COMMIT
  | CMD_VAT_LOAD
  | CMD_VAT_DISCARD
  | CMD_RF_CAL
  | CMD_RF_TEST_TX
  | CMD_FEM_SPI
  | CMD_CINNABAR_LOCK
  | CMD_ASSOC_DECIDE
  | CMD_NBR_SET
  | CMD_SEEN_FLUSH
  | CMD_NODE_SET
  | CMD_ROUTE_SET
  | CMD_PREFIX_SET
  | CMD_TABLE_REBUILD
  | CMD_NODE_REKEY
  | CMD_TM_SET
  | CMD_KEY_SET
  | CMD_KEY_MIGRATE
  | CMD_MACSEC_SAK
  | CMD_LC_ADVANCE
  | CMD_OTP_HASH
  | CMD_ROLLBACK_COMMIT
  | CMD_TIME_SET
  | CMD_TIME_RESTEP
  | CMD_PAIR_SET
  | CMD_TAKEOVER_READ
  | CMD_LOG_DRAIN
  deriving DecidableEq, Repr, Inhabited

/-- The code of the table. -/
def Opcode.code : Opcode → Nat
  | .CMD_NOP => 0x1
  | .CMD_HOST_ATTACH => 0x2
  | .CMD_SET_PHASE => 0x3
  | .CMD_COMMIT => 0x4
  | .CMD_VAT_LOAD => 0x5
  | .CMD_VAT_DISCARD => 0x6
  | .CMD_RF_CAL => 0x10
  | .CMD_RF_TEST_TX => 0x11
  | .CMD_FEM_SPI => 0x12
  | .CMD_CINNABAR_LOCK => 0x13
  | .CMD_ASSOC_DECIDE => 0x20
  | .CMD_NBR_SET => 0x21
  | .CMD_SEEN_FLUSH => 0x30
  | .CMD_NODE_SET => 0x31
  | .CMD_ROUTE_SET => 0x32
  | .CMD_PREFIX_SET => 0x33
  | .CMD_TABLE_REBUILD => 0x34
  | .CMD_NODE_REKEY => 0x35
  | .CMD_TM_SET => 0x40
  | .CMD_KEY_SET => 0x50
  | .CMD_KEY_MIGRATE => 0x51
  | .CMD_MACSEC_SAK => 0x52
  | .CMD_LC_ADVANCE => 0x53
  | .CMD_OTP_HASH => 0x54
  | .CMD_ROLLBACK_COMMIT => 0x55
  | .CMD_TIME_SET => 0x60
  | .CMD_TIME_RESTEP => 0x61
  | .CMD_PAIR_SET => 0x70
  | .CMD_TAKEOVER_READ => 0x71
  | .CMD_LOG_DRAIN => 0x80

/-- Violations (R583). -/
inductive Vio where
  | VIO_FRAME_TYPE
  | VIO_UNSECURED_DATA
  | VIO_MAC_CMD
  | VIO_MESH_HDR
  | VIO_SEC_LEVEL
  | VIO_AUTH_FAIL
  | VIO_FC_REPLAY
  | VIO_FRAG_OVERLAP
  | VIO_ETH_HALF_DUPLEX
  | VIO_PTP_MSG
  | VIO_TOD_TIMING
  | VIO_TOD_FORMAT
  | VIO_QL_WORD
  | VIO_QL_FRAME
  | VIO_QL_CREDIT
  | VIO_QL_DUP_ID
  | VIO_QL_TWO_ROOTS
  | VIO_MIR_FRAME
  | VIO_PAIR_SIDE
  | VIO_OWN_CONTENTION
  | VIO_CFG_WIDTH
  | VIO_CFG_UNMAPPED
  | VIO_RING_DOORBELL
  | VIO_RING_BUSY
  | VIO_HOST_DESC
  | VIO_PCIE_DMA
  | VIO_LANE_PLAN_OWNED
  | VIO_LG_OVERCOMMIT
  | VIO_TXC_OVERCOMMIT
  | VIO_SEQ_FOREIGN
  | VIO_CIN_LOOSEN
  | VIO_CIN_LOCKED
  | VIO_PTP_PORT
  | VIO_CORE_ACCESS
  | VIO_FEM_READBACK
  deriving DecidableEq, Repr, Inhabited

/-- The code of the table. -/
def Vio.code : Vio → Nat
  | .VIO_FRAME_TYPE => 0x10
  | .VIO_UNSECURED_DATA => 0x11
  | .VIO_MAC_CMD => 0x12
  | .VIO_MESH_HDR => 0x13
  | .VIO_SEC_LEVEL => 0x14
  | .VIO_AUTH_FAIL => 0x15
  | .VIO_FC_REPLAY => 0x16
  | .VIO_FRAG_OVERLAP => 0x17
  | .VIO_ETH_HALF_DUPLEX => 0x20
  | .VIO_PTP_MSG => 0x21
  | .VIO_TOD_TIMING => 0x22
  | .VIO_TOD_FORMAT => 0x23
  | .VIO_QL_WORD => 0x30
  | .VIO_QL_FRAME => 0x31
  | .VIO_QL_CREDIT => 0x32
  | .VIO_QL_DUP_ID => 0x33
  | .VIO_QL_TWO_ROOTS => 0x34
  | .VIO_MIR_FRAME => 0x40
  | .VIO_PAIR_SIDE => 0x41
  | .VIO_OWN_CONTENTION => 0x42
  | .VIO_CFG_WIDTH => 0x50
  | .VIO_CFG_UNMAPPED => 0x51
  | .VIO_RING_DOORBELL => 0x52
  | .VIO_RING_BUSY => 0x53
  | .VIO_HOST_DESC => 0x54
  | .VIO_PCIE_DMA => 0x55
  | .VIO_LANE_PLAN_OWNED => 0x56
  | .VIO_LG_OVERCOMMIT => 0x57
  | .VIO_TXC_OVERCOMMIT => 0x58
  | .VIO_SEQ_FOREIGN => 0x59
  | .VIO_CIN_LOOSEN => 0x5a
  | .VIO_CIN_LOCKED => 0x5b
  | .VIO_PTP_PORT => 0x5c
  | .VIO_CORE_ACCESS => 0x5d
  | .VIO_FEM_READBACK => 0x60

/-- PARTNER of a log entry (R583, R584). -/
def Vio.partner : Vio → Nat
  | .VIO_FRAME_TYPE => 0
  | .VIO_UNSECURED_DATA => 0
  | .VIO_MAC_CMD => 0
  | .VIO_MESH_HDR => 0
  | .VIO_SEC_LEVEL => 0
  | .VIO_AUTH_FAIL => 0
  | .VIO_FC_REPLAY => 0
  | .VIO_FRAG_OVERLAP => 0
  | .VIO_ETH_HALF_DUPLEX => 1
  | .VIO_PTP_MSG => 1
  | .VIO_TOD_TIMING => 1
  | .VIO_TOD_FORMAT => 1
  | .VIO_QL_WORD => 2
  | .VIO_QL_FRAME => 2
  | .VIO_QL_CREDIT => 2
  | .VIO_QL_DUP_ID => 2
  | .VIO_QL_TWO_ROOTS => 2
  | .VIO_MIR_FRAME => 3
  | .VIO_PAIR_SIDE => 3
  | .VIO_OWN_CONTENTION => 3
  | .VIO_CFG_WIDTH => 4
  | .VIO_CFG_UNMAPPED => 4
  | .VIO_RING_DOORBELL => 4
  | .VIO_RING_BUSY => 4
  | .VIO_HOST_DESC => 4
  | .VIO_PCIE_DMA => 4
  | .VIO_LANE_PLAN_OWNED => 4
  | .VIO_LG_OVERCOMMIT => 4
  | .VIO_TXC_OVERCOMMIT => 4
  | .VIO_SEQ_FOREIGN => 4
  | .VIO_CIN_LOOSEN => 4
  | .VIO_CIN_LOCKED => 4
  | .VIO_PTP_PORT => 4
  | .VIO_CORE_ACCESS => 4
  | .VIO_FEM_READBACK => 5

/-- The code is rate-limited (R581, R583). -/
def Vio.rateLimited : Vio → Bool
  | .VIO_FRAME_TYPE => false
  | .VIO_UNSECURED_DATA => false
  | .VIO_MAC_CMD => false
  | .VIO_MESH_HDR => false
  | .VIO_SEC_LEVEL => false
  | .VIO_AUTH_FAIL => false
  | .VIO_FC_REPLAY => true
  | .VIO_FRAG_OVERLAP => false
  | .VIO_ETH_HALF_DUPLEX => true
  | .VIO_PTP_MSG => true
  | .VIO_TOD_TIMING => false
  | .VIO_TOD_FORMAT => false
  | .VIO_QL_WORD => true
  | .VIO_QL_FRAME => false
  | .VIO_QL_CREDIT => false
  | .VIO_QL_DUP_ID => false
  | .VIO_QL_TWO_ROOTS => true
  | .VIO_MIR_FRAME => false
  | .VIO_PAIR_SIDE => true
  | .VIO_OWN_CONTENTION => true
  | .VIO_CFG_WIDTH => false
  | .VIO_CFG_UNMAPPED => false
  | .VIO_RING_DOORBELL => true
  | .VIO_RING_BUSY => false
  | .VIO_HOST_DESC => false
  | .VIO_PCIE_DMA => false
  | .VIO_LANE_PLAN_OWNED => false
  | .VIO_LG_OVERCOMMIT => false
  | .VIO_TXC_OVERCOMMIT => false
  | .VIO_SEQ_FOREIGN => false
  | .VIO_CIN_LOOSEN => false
  | .VIO_CIN_LOCKED => false
  | .VIO_PTP_PORT => false
  | .VIO_CORE_ACCESS => false
  | .VIO_FEM_READBACK => false

/-- A counter: its WIN_CFG offset, and whether it is a 64-bit statistics counter (R591). -/
structure Counter where
  off : Nat
  wide : Bool
  deriving DecidableEq, Repr, Inhabited

/-- The subsystem of R18 that a WIN_CFG offset belongs to. -/
def subsysOf (off : Nat) : Nat :=
  match off / 0x10000 with
  | 0x10 | 0x11 | 0x12 | 0x13 | 0x14 | 0x15 | 0x16 | 0x17 | 0x18 | 0x19 | 0x1A | 0x1B | 0x1C | 0x1D | 0x1E | 0x1F => 1
  | 0x20 | 0x21 | 0x22 | 0x23 => 3
  | 0x24 => 4
  | 0x28 => 5
  | 0x30 | 0x31 | 0x32 | 0x33 | 0x34 | 0x35 | 0x36 | 0x37 => 6
  | 0x40 => 7
  | 0x48 => 11
  | 0x50 => 10
  | 0x58 | 0x59 | 0x5A => 12
  | 0x60 | 0x61 => 8
  | 0x68 => 14
  | 0x70 => 13
  | 0x78 => 15
  | 0x80 => 16
  | 0x88 => 17
  | 0x90 => 19
  | 0xA0 => 18
  | _ => 20

namespace Cnt
/-- R115: A calibration run of R90 ends, start-up or on request. -/
def CAL_RUNS (p : Nat) : Counter := ⟨0x101000 + 0x40000 * p, true⟩
/-- R115: The AGC steps one index under R109. -/
def AGC_STEPS (p : Nat) : Counter := ⟨0x101008 + 0x40000 * p, true⟩
/-- R115: The AGC steps under R110. -/
def AGC_FORCED_STEPS (p : Nat) : Counter := ⟨0x101010 + 0x40000 * p, false⟩
/-- R115: GNT falls during a frame with REVOKE_ABORT = 0 (R106). -/
def COEX_REVOKE_IGNORED (p : Nat) : Counter := ⟨0x101014 + 0x40000 * p, false⟩
/-- R115: A frame is aborted by a revoked grant with REVOKE_ABORT = 1 (R106). -/
def TX_ABORT_COEX (p : Nat) : Counter := ⟨0x101018 + 0x40000 * p, false⟩
/-- R166: SEARCH to PREAMBLE. -/
def PREAMBLE_DET (l : Nat) : Counter := ⟨0x200100 + 0x400 * l, true⟩
/-- R166: An RX_OK record is written. -/
def RX_OK (l : Nat) : Counter := ⟨0x200108 + 0x400 * l, true⟩
/-- R166: PREAMBLE to SEARCH. -/
def SYNC_TIMEOUT (l : Nat) : Counter := ⟨0x200110 + 0x400 * l, false⟩
/-- R166: RX_BAD_PHR. -/
def BAD_PHR (l : Nat) : Counter := ⟨0x200114 + 0x400 * l, false⟩
/-- R166: RX_BAD_FCS. -/
def BAD_FCS (l : Nat) : Counter := ⟨0x200118 + 0x400 * l, false⟩
/-- R166: RX_PREEMPTED. -/
def PREEMPTED (l : Nat) : Counter := ⟨0x20011c + 0x400 * l, false⟩
/-- R166: Capture in PREAMBLE (R148). -/
def PRESYNC_PREEMPT (l : Nat) : Counter := ⟨0x200120 + 0x400 * l, false⟩
/-- R166: R149. -/
def CAPTURE_MISSED (l : Nat) : Counter := ⟨0x200124 + 0x400 * l, false⟩
/-- R166: RX_BLANKED. -/
def BLANKED (l : Nat) : Counter := ⟨0x200128 + 0x400 * l, false⟩
/-- R166: RX_RETUNED. -/
def RETUNED (l : Nat) : Counter := ⟨0x20012c + 0x400 * l, false⟩
/-- R166: RX_NO_BUFFER. -/
def NO_BUFFER (l : Nat) : Counter := ⟨0x200130 + 0x400 * l, false⟩
/-- R194: A ramp-up starts. -/
def TX_FRAMES (c : Nat) : Counter := ⟨0x240080 + 0x100 * c, true⟩
/-- R194: R172. -/
def TX_CARRIER_PARKED (c : Nat) : Counter := ⟨0x240088 + 0x100 * c, false⟩
/-- R194: R126. -/
def TX_SUBBAND_OFF (c : Nat) : Counter := ⟨0x24008c + 0x100 * c, false⟩
/-- R194: ST_CARRIER_BUSY. -/
def CARRIER_BUSY (c : Nat) : Counter := ⟨0x240090 + 0x100 * c, false⟩
/-- R194: ST_DUTY_DEFERRED. -/
def DUTY_DEFER (c : Nat) : Counter := ⟨0x240094 + 0x100 * c, false⟩
/-- R194: ST_COMPOSITE_FULL. -/
def COMPOSITE_FULL (c : Nat) : Counter := ⟨0x240098 + 0x100 * c, false⟩
/-- R194: Driver limit binds (R126). -/
def PWR_CLAMPED (c : Nat) : Counter := ⟨0x24009c + 0x100 * c, false⟩
/-- R194: Headroom binds (R176). -/
def PWR_CLAMPED_COMP (c : Nat) : Counter := ⟨0x2400a0 + 0x100 * c, false⟩
/-- R227: An Imm-Ack or Enh-Ack ramps up. -/
def ACK_SENT (p : Nat) : Counter := ⟨0x281000 + 0x100 * p, true⟩
/-- R227: An Enh-Ack ramps up. -/
def ENH_ACK_SENT (p : Nat) : Counter := ⟨0x281008 + 0x100 * p, true⟩
/-- R227: A beacon ramps up. -/
def BEACON_SENT (p : Nat) : Counter := ⟨0x281010 + 0x100 * p, true⟩
/-- R227: Decision 11 of R201. -/
def DUP_ACKED (p : Nat) : Counter := ⟨0x281018 + 0x100 * p, false⟩
/-- R227: Decision 10. -/
def MULTI_COPY (p : Nat) : Counter := ⟨0x28101c + 0x100 * p, false⟩
/-- R227: Decision 5. -/
def NOT_FOR_US (p : Nat) : Counter := ⟨0x281020 + 0x100 * p, false⟩
/-- R227: Decision 12. -/
def FC_STALE (p : Nat) : Counter := ⟨0x281024 + 0x100 * p, false⟩
/-- R227: R91, R206. -/
def ACK_PORT_BUSY (p : Nat) : Counter := ⟨0x281028 + 0x100 * p, false⟩
/-- R227: R205. -/
def ACK_SLOT_CLOSED (p : Nat) : Counter := ⟨0x28102c + 0x100 * p, false⟩
/-- R227: R105. -/
def ACK_COEX_DENIED (p : Nat) : Counter := ⟨0x281030 + 0x100 * p, false⟩
/-- R227: R179. -/
def ACK_DUTY_DENIED (p : Nat) : Counter := ⟨0x281034 + 0x100 * p, false⟩
/-- R227: R179, R206. -/
def ACK_CARRIER_BUSY (p : Nat) : Counter := ⟨0x281038 + 0x100 * p, false⟩
/-- R227: R179. -/
def ACK_COMPOSITE_FULL (p : Nat) : Counter := ⟨0x28103c + 0x100 * p, false⟩
/-- R227: R219. -/
def BEACON_LBT_BUSY (p : Nat) : Counter := ⟨0x281040 + 0x100 * p, false⟩
/-- R227: R105. -/
def BEACON_COEX_DENIED (p : Nat) : Counter := ⟨0x281044 + 0x100 * p, false⟩
/-- R227: R179. -/
def BEACON_DUTY_DENIED (p : Nat) : Counter := ⟨0x281048 + 0x100 * p, false⟩
/-- R227: R179. -/
def BEACON_CARRIER_BUSY (p : Nat) : Counter := ⟨0x28104c + 0x100 * p, false⟩
/-- R227: R179. -/
def BEACON_COMPOSITE_FULL (p : Nat) : Counter := ⟨0x281050 + 0x100 * p, false⟩
/-- R227: R198, access failure. -/
def CHANNEL_BUSY (p : Nat) : Counter := ⟨0x281054 + 0x100 * p, false⟩
/-- R227: R198, drop. -/
def CHANNEL_ACCESS_FAIL (p : Nat) : Counter := ⟨0x281058 + 0x100 * p, false⟩
/-- R227: R198, wait for the next window. -/
def CSMA_WINDOW_END (p : Nat) : Counter := ⟨0x28105c + 0x100 * p, false⟩
/-- R227: R209. -/
def NO_ACK_RETRY (p : Nat) : Counter := ⟨0x281060 + 0x100 * p, false⟩
/-- R227: R210. -/
def NO_ACK_DROP (p : Nat) : Counter := ⟨0x281064 + 0x100 * p, false⟩
/-- R227: R223. -/
def NBR_UNHEARD (p : Nat) : Counter := ⟨0x281068 + 0x100 * p, false⟩
/-- R227: R217. -/
def BCN_REQ_IGNORED (p : Nat) : Counter := ⟨0x28106c + 0x100 * p, false⟩
/-- R227: R203. -/
def SHELF_COPY (p : Nat) : Counter := ⟨0x281070 + 0x100 * p, false⟩
/-- R227: R222. -/
def NBR_TABLE_FULL (p : Nat) : Counter := ⟨0x281074 + 0x100 * p, false⟩
/-- R261: An instruction issues; a pair counts once. -/
def SEQ_ISSUED (s : Nat) : Counter := ⟨0x300100 + 0x20000 * s, true⟩
/-- R261: R239. -/
def SLOT_EMPTY (s : Nat) : Counter := ⟨0x300108 + 0x20000 * s, false⟩
/-- R261: R260. -/
def SLOT_INHIBITED (s : Nat) : Counter := ⟨0x30010c + 0x20000 * s, false⟩
/-- R261: ST_LATE_LOCK. -/
def LATE_LOCK (s : Nat) : Counter := ⟨0x300110 + 0x20000 * s, false⟩
/-- R261: R260. -/
def SEQ_DEFERRED (s : Nat) : Counter := ⟨0x300114 + 0x20000 * s, false⟩
/-- R261: R260. -/
def SEQ_SKIPPED (s : Nat) : Counter := ⟨0x300118 + 0x20000 * s, false⟩
/-- R261: R258. -/
def SEQ_TRUNCATED (s : Nat) : Counter := ⟨0x30011c + 0x20000 * s, false⟩
/-- R261: R257. -/
def HOME_RETUNE (s : Nat) : Counter := ⟨0x300120 + 0x20000 * s, false⟩
/-- R261: R245. -/
def BCN_SKIPPED (s : Nat) : Counter := ⟨0x300124 + 0x20000 * s, false⟩
/-- R261: R251. -/
def SPI_WAIT (s : Nat) : Counter := ⟨0x300128 + 0x20000 * s, false⟩
/-- R311: A DOWN frame is originated. -/
def FLOOD_ORIG : Counter := ⟨0x401000, true⟩
/-- R311: A ROUTE frame is originated. -/
def ROUTE_ORIG : Counter := ⟨0x401008, true⟩
/-- R311: A BULK frame is originated, once for all its copies. -/
def BULK_ORIG : Counter := ⟨0x401010, true⟩
/-- R311: R295, R296. -/
def SEEN_DROP : Counter := ⟨0x401018, false⟩
/-- R311: R301. -/
def SEEN_EVICT : Counter := ⟨0x40101c, false⟩
/-- R311: R295. -/
def SHELF_FWD : Counter := ⟨0x401020, false⟩
/-- R311: R295. -/
def MESH_NO_OWNER : Counter := ⟨0x401024, false⟩
/-- R311: R289. -/
def MESH_HDR_BAD : Counter := ⟨0x401028, false⟩
/-- R311: R304. -/
def MESH_NO_ROUTE : Counter := ⟨0x40102c, false⟩
/-- R311: R304, R309. -/
def MESH_BULK_PHASE : Counter := ⟨0x401030, false⟩
/-- R311: R306. -/
def TTL_CLAMPED : Counter := ⟨0x401034, false⟩
/-- R311: R305. -/
def FLOOD_CAP : Counter := ⟨0x401038, false⟩
/-- R357: A node lookup completes, for any requester. -/
def NODE_LOOKUP : Counter := ⟨0x481000, true⟩
/-- R357: A prefix lookup completes. -/
def PREFIX_LOOKUP : Counter := ⟨0x481008, true⟩
/-- R357: R336, drop. -/
def UNKNOWN_SRC : Counter := ⟨0x481010, false⟩
/-- R357: R336, forward. -/
def OWNER_FWD : Counter := ⟨0x481014, false⟩
/-- R357: R320. -/
def HINT_FAIL : Counter := ⟨0x481018, false⟩
/-- R357: R329. -/
def INSERT_FULL : Counter := ⟨0x48101c, false⟩
/-- R357: R340. -/
def AGED_OUT : Counter := ⟨0x481020, false⟩
/-- R357: R326. -/
def ROUTE_EXPIRED : Counter := ⟨0x481024, false⟩
/-- R357: R350. -/
def VG_MISMATCH : Counter := ⟨0x481028, false⟩
/-- R357: R344. -/
def REBUILD_FAIL : Counter := ⟨0x48102c, false⟩
/-- R385: A pass starts. -/
def PIPE_PASSES (i : Nat) : Counter := ⟨0x501000 + 0x100 * i, true⟩
/-- R385: A pass 2 starts. -/
def PIPE_RECIRC (i : Nat) : Counter := ⟨0x501008 + 0x100 * i, true⟩
/-- R385: R363. -/
def PIPE_IN_FULL (i : Nat) : Counter := ⟨0x501010 + 0x100 * i, false⟩
/-- R385: R361. -/
def PIPE_LATE (i : Nat) : Counter := ⟨0x501014 + 0x100 * i, false⟩
/-- R385: R362. -/
def PIPE_NO_PROG (i : Nat) : Counter := ⟨0x501018 + 0x100 * i, false⟩
/-- R385: R374. -/
def PIPE_NO_EMIT (i : Nat) : Counter := ⟨0x50101c + 0x100 * i, false⟩
/-- R385: R375. -/
def PIPE_BAD_TARGET (i : Nat) : Counter := ⟨0x501020 + 0x100 * i, false⟩
/-- R385: R383. -/
def PIPE_NO_NODE (i : Nat) : Counter := ⟨0x501024 + 0x100 * i, false⟩
/-- R385: R383. -/
def PIPE_L3_MISMATCH (i : Nat) : Counter := ⟨0x501028 + 0x100 * i, false⟩
/-- R385: R383. -/
def PIPE_QL_TRANSIT (i : Nat) : Counter := ⟨0x50102c + 0x100 * i, false⟩
/-- R385: R382. -/
def PIPE_TOO_BIG (i : Nat) : Counter := ⟨0x501030 + 0x100 * i, false⟩
/-- R385: R383. -/
def PIPE_FWD_INVALID (i : Nat) : Counter := ⟨0x501034 + 0x100 * i, false⟩
/-- R385: R373. -/
def PIPE_NO_POLICER (i : Nat) : Counter := ⟨0x501038 + 0x100 * i, false⟩
/-- R385: A FWD to a host ring fails in Stand-alone (R383, R43). -/
def HOST_ABSENT_DROP (i : Nat) : Counter := ⟨0x50103c + 0x100 * i, false⟩
/-- R385: A datagram completes (R381). -/
def REASM_DONE : Counter := ⟨0x501200, true⟩
/-- R385: R382. -/
def FRAG_SENT : Counter := ⟨0x501208, true⟩
/-- R385: ACT_CNT_n, advanced by CNT and DROP (R370). -/
def ACT_CNT (n : Nat) : Counter := ⟨0x502000 + 8 * n, true⟩
/-- R385: R381. -/
def REASM_TIMEOUT : Counter := ⟨0x501210, false⟩
/-- R385: R381. -/
def REASM_EVICT : Counter := ⟨0x501214, false⟩
/-- R385: R381. -/
def REASM_OVERLAP : Counter := ⟨0x501218, false⟩
/-- R404: A packet is admitted. -/
def Q_ENQ (q : Nat) : Counter := ⟨0x590000 + 0x20 * q, true⟩
/-- R404: A packet is dequeued (R394). -/
def Q_DEQ (q : Nat) : Counter := ⟨0x590008 + 0x20 * q, true⟩
/-- R404: R390, test 4. -/
def Q_DROP_FULL (q : Nat) : Counter := ⟨0x590010 + 0x20 * q, false⟩
/-- R404: R390, test 3. -/
def Q_DROP_COLOUR (q : Nat) : Counter := ⟨0x590014 + 0x20 * q, false⟩
/-- R404: R390, test 2. -/
def Q_TOO_LONG (q : Nat) : Counter := ⟨0x590018 + 0x20 * q, false⟩
/-- R451: An uplink frame passes R432. -/
def CCM_UP_OK : Counter := ⟨0x601000, true⟩
/-- R451: A node-bound, beacon or BULK frame is secured. -/
def CCM_DN : Counter := ⟨0x601008, true⟩
/-- R451: A key request hits. -/
def KCACHE_HIT : Counter := ⟨0x601010, true⟩
/-- R451: A derivation completes. -/
def KDF_DERIVE : Counter := ⟨0x601018, true⟩
/-- R451: R432 check 1. -/
def SEC_LEVEL_BAD : Counter := ⟨0x601020, false⟩
/-- R451: R432 check 2. -/
def KEY_EPOCH_MISMATCH : Counter := ⟨0x601024, false⟩
/-- R451: R432 check 3, R438. -/
def KEY_INVALID : Counter := ⟨0x601028, false⟩
/-- R451: R432 check 4. -/
def AUTH_FAIL : Counter := ⟨0x60102c, false⟩
/-- R451: R432 check 5. -/
def FC_OVERTAKEN : Counter := ⟨0x601030, false⟩
/-- R451: R433. -/
def FC_EXHAUSTED : Counter := ⟨0x601034, false⟩
/-- R451: R434. -/
def PAN_FC_EXHAUSTED : Counter := ⟨0x601038, false⟩
/-- R451: R428. -/
def KCACHE_EVICT : Counter := ⟨0x60103c, false⟩
/-- R451: R444. -/
def KS_WRITE_FAIL : Counter := ⟨0x601040, false⟩
/-- R478: A measurement feeds the servo. -/
def TIME_MEAS : Counter := ⟨0x681000, true⟩
/-- R478: A Sync is received on RX_PORT. -/
def PTP_SYNC_RX : Counter := ⟨0x681008, true⟩
/-- R478: R457. -/
def TIME_OUTLIER : Counter := ⟨0x681010, false⟩
/-- R478: R459. -/
def TIME_JUMP : Counter := ⟨0x681014, false⟩
/-- R478: R460. -/
def HOLDOVER_ENTRY : Counter := ⟨0x681018, false⟩
/-- R478: R468. -/
def PTP_STAMP_LOST : Counter := ⟨0x68101c, false⟩
/-- R478: R475. -/
def TOD_REJECT : Counter := ⟨0x681020, false⟩
/-- R478: R458. -/
def RATE_LIMIT_HIT : Counter := ⟨0x681024, false⟩
/-- R502: A frame goes to the pipeline (R481). -/
def ETH_RX_FRAMES (e : Nat) : Counter := ⟨0x708000 + 0x100 * e, true⟩
/-- R502: A frame is sent. -/
def ETH_TX_FRAMES (e : Nat) : Counter := ⟨0x708008 + 0x100 * e, true⟩
/-- R502: R481. -/
def ETH_RX_FCS_ERR (e : Nat) : Counter := ⟨0x708010 + 0x100 * e, false⟩
/-- R502: R481. -/
def ETH_RX_SIZE_ERR (e : Nat) : Counter := ⟨0x708014 + 0x100 * e, false⟩
/-- R502: R481. -/
def ETH_RX_PAUSE (e : Nat) : Counter := ⟨0x708018 + 0x100 * e, false⟩
/-- R502: R487. -/
def ETH_TX_NEVER_FITS (e : Nat) : Counter := ⟨0x70801c + 0x100 * e, false⟩
/-- R502: R482. -/
def ETH_TX_FLUSH_DOWN (e : Nat) : Counter := ⟨0x708020 + 0x100 * e, false⟩
/-- R502: R490. -/
def ETH_MACSEC_RX_DROP (e : Nat) : Counter := ⟨0x708024 + 0x100 * e, false⟩
/-- R502: R489. -/
def ETH_MACSEC_TX_NO_SA (e : Nat) : Counter := ⟨0x708028 + 0x100 * e, false⟩
/-- R502: R489. -/
def ETH_MACSEC_PN_EXHAUSTED (e : Nat) : Counter := ⟨0x70802c + 0x100 * e, false⟩
/-- R502: The transmitter enters low-power idle. -/
def ETH_LPI_ENTRY (e : Nat) : Counter := ⟨0x708030 + 0x100 * e, false⟩
/-- R502: A frame is sent for the first time. -/
def QL_TX_FRAMES (n : Nat) : Counter := ⟨0x782000 + 0x40 * n, true⟩
/-- R502: A frame is accepted in order. -/
def QL_RX_FRAMES (n : Nat) : Counter := ⟨0x782008 + 0x40 * n, true⟩
/-- R502: R492, R495. -/
def QL_CRC_ERR (n : Nat) : Counter := ⟨0x782010 + 0x40 * n, false⟩
/-- R502: R493. -/
def QL_REPLAY (n : Nat) : Counter := ⟨0x782014 + 0x40 * n, false⟩
/-- R502: R494. -/
def QL_LOST (n : Nat) : Counter := ⟨0x782018 + 0x40 * n, false⟩
/-- R502: R501. -/
def QL_NO_ROUTE (n : Nat) : Counter := ⟨0x78201c + 0x40 * n, false⟩
/-- R502: R501. -/
def QL_TTL_DROP (n : Nat) : Counter := ⟨0x782020 + 0x40 * n, false⟩
/-- R502: R497. -/
def QL_STEPS (n : Nat) : Counter := ⟨0x782024 + 0x40 * n, false⟩
/-- R502: R494. -/
def QL_RETRAIN (n : Nat) : Counter := ⟨0x782028 + 0x40 * n, false⟩
/-- R543: A command is accepted. -/
def CMD_ACCEPTED : Counter := ⟨0x801000, true⟩
/-- R543: An event entry is written. -/
def EVT_POSTED : Counter := ⟨0x801008, true⟩
/-- R543: R525. -/
def EVT_LOST : Counter := ⟨0x801010, false⟩
/-- R543: R519. -/
def CMD_REPLAYED : Counter := ⟨0x801014, false⟩
/-- R543: R519. -/
def CMD_DUP_INFLIGHT : Counter := ⟨0x801018, false⟩
/-- R543: R511. -/
def RING_DB_BAD : Counter := ⟨0x80101c, false⟩
/-- R543: R509. -/
def DMA_FAULT : Counter := ⟨0x801020, false⟩
/-- R543: R531. -/
def RX_DELIVERED (r : Nat) : Counter := ⟨0x801100 + 0x20 * r, true⟩
/-- R543: R508, R531. -/
def RX_STALL_DROP (r : Nat) : Counter := ⟨0x801108 + 0x20 * r, false⟩
/-- R543: R531. -/
def RX_TOO_BIG (r : Nat) : Counter := ⟨0x80110c + 0x20 * r, false⟩
/-- R543: R531. -/
def RX_RING_OFF (r : Nat) : Counter := ⟨0x801110 + 0x20 * r, false⟩
/-- R543: A TAKE returns a task. -/
def TASK_DISPATCHED : Counter := ⟨0x880100, true⟩
/-- R543: R537. -/
def TASK_FULL : Counter := ⟨0x880108, false⟩
/-- R543: A cancel ends with ST_CANCELLED_BEFORE_DISPATCH. -/
def TASK_CANCELLED : Counter := ⟨0x88010c, false⟩
/-- R543: R542. -/
def TASK_TIMEOUT : Counter := ⟨0x880110, false⟩
/-- R579: A record is acknowledged (Active) or committed (Standby, Resync). -/
def MORDANT_RECORDS : Counter := ⟨0x901000, true⟩
/-- R579: Record octets are sent or committed. -/
def MORDANT_OCTETS : Counter := ⟨0x901008, true⟩
/-- R579: R567. -/
def POSSIBLE_DUP_MARKED : Counter := ⟨0x901010, true⟩
/-- R579: R563. -/
def HB_MISSED : Counter := ⟨0x901018, false⟩
/-- R579: R561. -/
def RECORD_RESEND : Counter := ⟨0x90101c, false⟩
/-- R579: R561. -/
def CHAIN_BREAK : Counter := ⟨0x901020, false⟩
/-- R579: R565. -/
def TAKEOVERS : Counter := ⟨0x901024, false⟩
/-- R579: R550. -/
def OWN_CONTENTION : Counter := ⟨0x901028, false⟩
/-- R579: R559. -/
def RECORD_DISCARDED : Counter := ⟨0x90102c, false⟩
/-- R579: R576. -/
def OCHRE_FAIL : Counter := ⟨0x901030, false⟩
/-- R595: R580. -/
def VIO_TOTAL : Counter := ⟨0x981000, true⟩
/-- R595: R587. -/
def ECC_CE : Counter := ⟨0x981008, true⟩
/-- R595: R587. -/
def ECC_UE : Counter := ⟨0x981010, false⟩
/-- R595: R588. -/
def ECC_RESTORED : Counter := ⟨0x981014, false⟩
/-- R595: R589. -/
def PARITY_DROP : Counter := ⟨0x981018, false⟩
/-- R595: R582. -/
def TALLY_FULL : Counter := ⟨0x98101c, false⟩
/-- R595: R582. -/
def NODE_QUARANTINE : Counter := ⟨0x981020, false⟩
/-- R595: R580; this places VIO_CNT_c at 0x0098_2000 + 4 × c. -/
def VIO_CNT (c : Nat) : Counter := ⟨0x982000 + 0x4 * c, false⟩
/-- R228. -/
def ASSOC_OK (k : Nat) : Counter := ⟨0x282000 + 0x100 * k, false⟩
/-- R228. -/
def ASSOC_REPEAT (k : Nat) : Counter := ⟨0x282004 + 0x100 * k, false⟩
/-- R228. -/
def ASSOC_DENIED (k : Nat) : Counter := ⟨0x282008 + 0x100 * k, false⟩
/-- R228. -/
def ASSOC_CAPACITY (k : Nat) : Counter := ⟨0x28200c + 0x100 * k, false⟩
/-- R228. -/
def ASSOC_IGNORED (k : Nat) : Counter := ⟨0x282010 + 0x100 * k, false⟩
/-- R228. -/
def ASSOC_TIMEOUT (k : Nat) : Counter := ⟨0x282014 + 0x100 * k, false⟩
/-- R228. -/
def INDIRECT_EXPIRED (k : Nat) : Counter := ⟨0x282018 + 0x100 * k, false⟩
/-- R228. -/
def NODE_LEFT (k : Nat) : Counter := ⟨0x28201c + 0x100 * k, false⟩
/-- R161: records lost to a full log on port n. -/
def RXLOG_FULL (n : Nat) : Counter := ⟨0x230120 + 0x4 * n, false⟩
/-- R190: stamps lost to a full queue on port p. -/
def TXTS_OVF (p : Nat) : Counter := ⟨0x246000 + 0x4 * p, false⟩
/-- R468. -/
def ETH_TS_OVF (e : Nat) : Counter := ⟨0x680140 + 0x4 * e, false⟩
/-- R608. -/
def MGMT_FRAME_ERR : Counter := ⟨0xa00040, false⟩
/-- R404. -/
def TM_BUF_FULL : Counter := ⟨0x581000, false⟩
/-- R404. -/
def TM_REFILLS : Counter := ⟨0x581008, true⟩
/-- R404: every frame discarded under R46 and test 1 of R390. -/
def AIRQ_FLUSH_SURVEY : Counter := ⟨0x581010, false⟩
end Cnt

end Sys2Proof.Machine
end

