-- ==== Sys2Proof/Machine/RegMap.lean ====
section
/-! DEFINITION. The WIN_CFG register map: for every register the spec lays out, its offset (Reg), its table row
(regTable: masks of the writable bits and the reset value), and an accessor for each RW or ST field that reads the
value IN FORCE (R8, R9). Where a table gives a reset of OTP, strap, fuse, boot, random or locked, the row holds 0 and
the typed state of Machine/State.lean holds the value. -/

namespace Sys2Proof.Machine

namespace Reg
/-- ID_DEVICE (R2 of 00_scope.md): part, revision and temperature grade. -/
def ID_DEVICE : Nat := 0x0
/-- MODE_STATUS (R41 of 02_modes_and_epochs.md): current modes and start-up facts. -/
def MODE_STATUS : Nat := 0x10
/-- EPOCH_NUM_LO (R59 of 02_modes_and_epochs.md): live epoch number, low half. -/
def EPOCH_NUM_LO : Nat := 0x20
/-- EPOCH_NUM_HI (R59 of 02_modes_and_epochs.md): live epoch number, high half. -/
def EPOCH_NUM_HI : Nat := 0x24
/-- EPOCH_LEN (R59 of 02_modes_and_epochs.md): epoch length in force. -/
def EPOCH_LEN : Nat := 0x28
/-- EPOCH_ORIGIN_LO (R59 of 02_modes_and_epochs.md): grid origin, low half. -/
def EPOCH_ORIGIN_LO : Nat := 0x30
/-- EPOCH_ORIGIN_HI (R59 of 02_modes_and_epochs.md): grid origin, high half. -/
def EPOCH_ORIGIN_HI : Nat := 0x34
/-- STAGE_CTL (R69 of 02_modes_and_epochs.md): staging control. -/
def STAGE_CTL : Nat := 0x38
/-- SNAP_INDEX (R73 of 02_modes_and_epochs.md): published snapshot buffer. -/
def SNAP_INDEX : Nat := 0xf00000
/-- RF_CTL (R89 of 03_radio_ports.md): port enable. -/
def RF_CTL (p : Nat) : Nat := 0x100000 + 0x40000 * p
/-- RF_STATUS (R89 of 03_radio_ports.md): live port state. -/
def RF_STATUS (p : Nat) : Nat := 0x100004 + 0x40000 * p
/-- RF_CENTRE (R89 of 03_radio_ports.md): live centre frequency. -/
def RF_CENTRE (p : Nat) : Nat := 0x100008 + 0x40000 * p
/-- CAL_STATUS (R94 of 03_radio_ports.md): calibration results. -/
def CAL_STATUS (p : Nat) : Nat := 0x100014 + 0x40000 * p
/-- FEM_MAP_LO (R99 of 03_radio_ports.md): static line maps, first half. -/
def FEM_MAP_LO (p : Nat) : Nat := 0x100020 + 0x40000 * p
/-- FEM_MAP_HI (R99 of 03_radio_ports.md): static line maps, second half. -/
def FEM_MAP_HI (p : Nat) : Nat := 0x100024 + 0x40000 * p
/-- FEM_TIMING (R99 of 03_radio_ports.md): map lead times. -/
def FEM_TIMING (p : Nat) : Nat := 0x100028 + 0x40000 * p
/-- FEM_SPI_CTL (R102 of 03_radio_ports.md): FEM SPI format. -/
def FEM_SPI_CTL (p : Nat) : Nat := 0x100030 + 0x40000 * p
/-- COEX_CTL (R107 of 03_radio_ports.md): coexistence control. -/
def COEX_CTL (p : Nat) : Nat := 0x100040 + 0x40000 * p
/-- AGC_CTL (R114 of 03_radio_ports.md): AGC control. -/
def AGC_CTL (p : Nat) : Nat := 0x100050 + 0x40000 * p
/-- AGC_STATUS (R114 of 03_radio_ports.md): live AGC state. -/
def AGC_STATUS (p : Nat) : Nat := 0x100054 + 0x40000 * p
/-- CIN_STATUS (R126 of 03_radio_ports.md): Cinnabar state (one register, aliased in every port block). -/
def CIN_STATUS : Nat := 0x100100
/-- CIN_TIGHT_A_n (R126 of 03_radio_ports.md): tightening of sub-band n, power and duty. -/
def CIN_TIGHT_A (n : Nat) : Nat := 0x100140 + 0x8 * n
/-- CIN_TIGHT_B_n (R126 of 03_radio_ports.md): tightening of sub-band n, LBT and disable. -/
def CIN_TIGHT_B (n : Nat) : Nat := 0x100144 + 0x8 * n
/-- CIN_STAGE_w (R126 of 03_radio_ports.md): lock staging, w = 0 to 63. -/
def CIN_STAGE (w : Nat) : Nat := 0x100400 + 0x4 * w
/-- LG_CFG_g (R132 of 04_receive_lanes.md): lane group assignment, g = 0 to 23. -/
def LG_CFG (g : Nat) : Nat := 0x230000 + 0x4 * g
/-- RXLOG_CTL (R164 of 04_receive_lanes.md): delivery of failed records. -/
def RXLOG_CTL : Nat := 0x230100
/-- RXLOG_SEQ_n (R164 of 04_receive_lanes.md): next record number of port n. -/
def RXLOG_SEQ (n : Nat) : Nat := 0x230110 + 0x4 * n
/-- RXLOG_FULL_n (R164 of 04_receive_lanes.md): records lost to a full log on port n. -/
def RXLOG_FULL (n : Nat) : Nat := 0x230120 + 0x4 * n
/-- LANE_CFG (R165 of 04_receive_lanes.md): mode and reception rules. -/
def LANE_CFG (l : Nat) : Nat := 0x200000 + 0x400 * l
/-- LANE_FREQ (R165 of 04_receive_lanes.md): channel. -/
def LANE_FREQ (l : Nat) : Nat := 0x200004 + 0x400 * l
/-- LANE_NOISE (R166 of 04_receive_lanes.md): mean noise power of the lane over the epoch. -/
def LANE_NOISE (l : Nat) : Nat := 0x200134 + 0x400 * l
/-- LANE_STATUS (R165 of 04_receive_lanes.md): live lane state. -/
def LANE_STATUS (l : Nat) : Nat := 0x200008 + 0x400 * l
/-- DUTY_RSV_p_s (R188 of 05_transmit_carriers.md): reserve of port p, sub-band s (s = 0 to 11). -/
def DUTY_RSV (p : Nat) (s : Nat) : Nat := 0x244000 + 0x100 * p + 0x8 * s
/-- DUTY_USED_p_s (R188 of 05_transmit_carriers.md): used airtime of port p, sub-band s. -/
def DUTY_USED (p : Nat) (s : Nat) : Nat := 0x244004 + 0x100 * p + 0x8 * s
/-- TXTS_OVF_p (R191 of 05_transmit_carriers.md): stamps lost to a full queue on port p. -/
def TXTS_OVF (p : Nat) : Nat := 0x246000 + 0x4 * p
/-- TXC_CFG (R193 of 05_transmit_carriers.md): carrier configuration. -/
def TXC_CFG (t : Nat) : Nat := 0x240000 + 0x100 * t
/-- TXC_FREQ (R193 of 05_transmit_carriers.md): channel. -/
def TXC_FREQ (t : Nat) : Nat := 0x240004 + 0x100 * t
/-- TXC_PWR (R193 of 05_transmit_carriers.md): default requested power. -/
def TXC_PWR (t : Nat) : Nat := 0x240008 + 0x100 * t
/-- TXC_STATUS (R193 of 05_transmit_carriers.md): live carrier state. -/
def TXC_STATUS (t : Nat) : Nat := 0x24000c + 0x100 * t
/-- TX_PORT_CTL_p (R193 of 05_transmit_carriers.md): composite limit of port p. -/
def TX_PORT_CTL (p : Nat) : Nat := 0x242000 + 0x4 * p
/-- PAN_CFG_k (R226 of 06_air_access.md): PAN identity and policy. -/
def PAN_CFG (k : Nat) : Nat := 0x280100 + 0x20 * k
/-- PAN_EUI_LO_k (R226 of 06_air_access.md): PAN EUI-64, low half. -/
def PAN_EUI_LO (k : Nat) : Nat := 0x280104 + 0x20 * k
/-- PAN_EUI_HI_k (R226 of 06_air_access.md): PAN EUI-64, high half. -/
def PAN_EUI_HI (k : Nat) : Nat := 0x280108 + 0x20 * k
/-- PAN_POOL_k (R226 of 06_air_access.md): short-address pool. -/
def PAN_POOL (k : Nat) : Nat := 0x28010c + 0x20 * k
/-- PAN_HOLD_k (R226 of 06_air_access.md): persistence and release hold. -/
def PAN_HOLD (k : Nat) : Nat := 0x280110 + 0x20 * k
/-- PAN_FREE_k (R226 of 06_air_access.md): free addresses. -/
def PAN_FREE (k : Nat) : Nat := 0x280114 + 0x20 * k
/-- ACK_CTL_p (R226 of 06_air_access.md): acknowledgement carriers and wait. -/
def ACK_CTL (p : Nat) : Nat := 0x280200 + 0x10 * p
/-- CSMA_CTL_p (R226 of 06_air_access.md): channel access and retries. -/
def CSMA_CTL (p : Nat) : Nat := 0x280204 + 0x10 * p
/-- INDIRECT_CTL_p (R226 of 06_air_access.md): indirect response gap. -/
def INDIRECT_CTL (p : Nat) : Nat := 0x280208 + 0x10 * p
/-- NBR_CTL (R226 of 06_air_access.md): neighbour tracking. -/
def NBR_CTL : Nat := 0x280300
/-- SEQ_STATUS (R260 of 07_sequencer_isa.md): live sequencer state. -/
def SEQ_STATUS (s : Nat) : Nat := 0x300000 + 0x20000 * s
/-- SEQ_FLAGS (R260 of 07_sequencer_isa.md): host flags for COND. -/
def SEQ_FLAGS (s : Nat) : Nat := 0x300004 + 0x20000 * s
/-- SEQ_HOME (R260 of 07_sequencer_isa.md): home centre in force. -/
def SEQ_HOME (s : Nat) : Nat := 0x300008 + 0x20000 * s
/-- SEQ_END (R260 of 07_sequencer_isa.md): tail start of the active bank. -/
def SEQ_END (s : Nat) : Nat := 0x30000c + 0x20000 * s
/-- SEQ_PEEK_IDX (R260 of 07_sequencer_isa.md): bank read index. -/
def SEQ_PEEK_IDX (s : Nat) : Nat := 0x300010 + 0x20000 * s
/-- SEQ_PEEK_LO (R260 of 07_sequencer_isa.md): bank word, low half. -/
def SEQ_PEEK_LO (s : Nat) : Nat := 0x300014 + 0x20000 * s
/-- SEQ_PEEK_HI (R260 of 07_sequencer_isa.md): bank word, high half. -/
def SEQ_PEEK_HI (s : Nat) : Nat := 0x300018 + 0x20000 * s
/-- SEQ_CLASS_MAX_c (R260 of 07_sequencer_isa.md): usable span of air class c, c = 0 to 7. -/
def SEQ_CLASS_MAX (s : Nat) (c : Nat) : Nat := 0x300040 + 0x20000 * s + 0x4 * c
/-- VAT_STATUS (R283 of 08_vat_images.md): image state. -/
def VAT_STATUS : Nat := 0x40
/-- VAT_PLAN_ID (R283 of 08_vat_images.md): plan in force. -/
def VAT_PLAN_ID : Nat := 0x44
/-- VAT_STAGED_PLAN (R283 of 08_vat_images.md): plan staged. -/
def VAT_STAGED_PLAN : Nat := 0x48
/-- VAT_REFUSE (R283 of 08_vat_images.md): refusal detail. -/
def VAT_REFUSE : Nat := 0x4c
/-- VAT_DIGEST_n (R283 of 08_vat_images.md): digest of the image in force, n = 0 to 11. -/
def VAT_DIGEST (n : Nat) : Nat := 0x50 + 0x4 * n
/-- MESH_CTL (R310 of 09_mesh_relaying.md): flood scoping and seen-cache life. -/
def MESH_CTL : Nat := 0x400000
/-- MESH_BULK_k (R310 of 09_mesh_relaying.md): bulk flood parameters of PAN_k. -/
def MESH_BULK (k : Nat) : Nat := 0x400010 + 0x4 * k
/-- MESH_FLOOD_k (R310 of 09_mesh_relaying.md): flood identifiers and depth of PAN_k. -/
def MESH_FLOOD (k : Nat) : Nat := 0x400020 + 0x4 * k
/-- MESH_SEEN_USED (R310 of 09_mesh_relaying.md): seen-cache occupancy. -/
def MESH_SEEN_USED : Nat := 0x400030
/-- TBL_STATUS (R356 of 10_node_tables.md): rebuild state. -/
def TBL_STATUS : Nat := 0x480000
/-- TBL_AGE_k (R356 of 10_node_tables.md): ageing of PAN_k. -/
def TBL_AGE (k : Nat) : Nat := 0x480010 + 0x4 * k
/-- TBL_LEARN (R356 of 10_node_tables.md): notifications. -/
def TBL_LEARN : Nat := 0x480020
/-- TBL_SEED_LO_t (R356 of 10_node_tables.md): active seed, low half (t: 0 EUI index, 1 route, 2 prefix, 3 seen). -/
def TBL_SEED_LO (t : Nat) : Nat := 0x480040 + 0x8 * t
/-- TBL_SEED_HI_t (R356 of 10_node_tables.md): active seed, high half. -/
def TBL_SEED_HI (t : Nat) : Nat := 0x480044 + 0x8 * t
/-- NODE_COUNT_k (R356 of 10_node_tables.md): entries of PAN_k. -/
def NODE_COUNT (k : Nat) : Nat := 0x480080 + 0x4 * k
/-- PFX_LEN_LO (R356 of 10_node_tables.md): prefix lengths in force, first four. -/
def PFX_LEN_LO : Nat := 0x480090
/-- PFX_LEN_HI (R356 of 10_node_tables.md): prefix lengths in force, last four. -/
def PFX_LEN_HI : Nat := 0x480094
/-- VG_CTL (R356 of 10_node_tables.md): Verdigris control. -/
def VG_CTL : Nat := 0x480100
/-- VG_BASE_t (R356 of 10_node_tables.md): shadow base (t: 0 node, 1 route, 2 prefix). -/
def VG_BASE (t : Nat) : Nat := 0x480110 + 0x4 * t
/-- VG_COUNT_ROUTE (R356 of 10_node_tables.md): route shadow size. -/
def VG_COUNT_ROUTE : Nat := 0x480124
/-- VG_COUNT_PREFIX (R356 of 10_node_tables.md): prefix shadow size. -/
def VG_COUNT_PREFIX : Nat := 0x480128
/-- VG_STATUS (R356 of 10_node_tables.md): Verdigris progress. -/
def VG_STATUS : Nat := 0x480130
/-- OWNER_RANGE_k_n (R356 of 10_node_tables.md): owner range n of PAN_k, n = 0 to 15. -/
def OWNER_RANGE (k : Nat) (n : Nat) : Nat := 0x480200 + 0x80 * k + 0x8 * n
/-- OWNER_CHIP_k_n (R356 of 10_node_tables.md): owner of range n of PAN_k. -/
def OWNER_CHIP (k : Nat) (n : Nat) : Nat := 0x480204 + 0x80 * k + 0x8 * n
/-- PIPE_SRC_MAP (R384 of 11_packet_pipeline.md): pipeline of each source. -/
def PIPE_SRC_MAP : Nat := 0x500000
/-- PIPE_PAN_k (R384 of 11_packet_pipeline.md): fragmentation of PAN_k. -/
def PIPE_PAN (k : Nat) : Nat := 0x500010 + 0x4 * k
/-- REASM_CTL (R384 of 11_packet_pipeline.md): reassembly. -/
def REASM_CTL : Nat := 0x500020
/-- PIPE_L2_n_w (R384 of 11_packet_pipeline.md): Ethernet template n, word w (n = 0 to 15, w = 0 to 3). -/
def PIPE_L2 (n : Nat) (w : Nat) : Nat := 0x500400 + 0x10 * n + 0x4 * w
/-- TM_DEFAULT (R403 of 12_traffic_manager.md): depth of fixed queues without a record. -/
def TM_DEFAULT : Nat := 0x580000
/-- TM_BUF_USED (R403 of 12_traffic_manager.md): packet-buffer occupancy. -/
def TM_BUF_USED : Nat := 0x580004
/-- SHP_LEVEL_s (R403 of 12_traffic_manager.md): bucket of shaper s, s = 0 to 1,023. -/
def SHP_LEVEL (s : Nat) : Nat := 0x582000 + 0x4 * s
/-- Q_DEPTH of queue q (R404 of 12_traffic_manager.md): packets queued at the boundary. -/
def Q_DEPTH (q : Nat) : Nat := 0x59001c + 0x20 * q
/-- POL_LEVEL_i (R403 of 12_traffic_manager.md): buckets of policer i, i = 0 to 2,047. -/
def POL_LEVEL (i : Nat) : Nat := 0x584000 + 0x8 * i
/-- SEC_STATUS (R450 of 13_keys_and_trust.md): trust state. -/
def SEC_STATUS : Nat := 0x600000
/-- SEC_VERSION (R450 of 13_keys_and_trust.md): rollback state. -/
def SEC_VERSION : Nat := 0x600004
/-- MEAS_n (R450 of 13_keys_and_trust.md): measurement, n = 0 to 11. -/
def MEAS (n : Nat) : Nat := 0x600010 + 0x4 * n
/-- SEC_CTL (R450 of 13_keys_and_trust.md): takeover counter skip. -/
def SEC_CTL : Nat := 0x600040
/-- SEC_PAN_k (R450 of 13_keys_and_trust.md): PAN key and level of PAN_k. -/
def SEC_PAN (k : Nat) : Nat := 0x600050 + 0x8 * k
/-- SEC_PAN_FC_k (R450 of 13_keys_and_trust.md): PAN counter of PAN_k. -/
def SEC_PAN_FC (k : Nat) : Nat := 0x600054 + 0x8 * k
/-- KEY_DESC_A_n (R450 of 13_keys_and_trust.md): slot state. -/
def KEY_DESC_A (n : Nat) : Nat := 0x610000 + 0x10 * n
/-- KEY_DESC_B_n (R450 of 13_keys_and_trust.md): slot lineage. -/
def KEY_DESC_B (n : Nat) : Nat := 0x610004 + 0x10 * n
/-- KEY_KCV_n (R450 of 13_keys_and_trust.md): check value. -/
def KEY_KCV (n : Nat) : Nat := 0x610008 + 0x10 * n
/-- TIME_STATUS (R477 of 14_time.md): live time state. -/
def TIME_STATUS : Nat := 0x680000
/-- TIME_NOW_LO (R477 of 14_time.md): live time, low half. -/
def TIME_NOW_LO : Nat := 0x680008
/-- TIME_NOW_HI (R477 of 14_time.md): live time, high half. -/
def TIME_NOW_HI : Nat := 0x68000c
/-- TIME_RATE (R477 of 14_time.md): rate in force. -/
def TIME_RATE : Nat := 0x680010
/-- TIME_ERR (R477 of 14_time.md): error estimate. -/
def TIME_ERR : Nat := 0x680014
/-- TIME_SRC (R477 of 14_time.md): source order. -/
def TIME_SRC : Nat := 0x680020
/-- TIME_SERVO (R477 of 14_time.md): servo limits. -/
def TIME_SERVO : Nat := 0x680024
/-- TIME_HOLD (R477 of 14_time.md): holdover. -/
def TIME_HOLD : Nat := 0x680028
/-- TIME_MESH (R477 of 14_time.md): mesh time. -/
def TIME_MESH : Nat := 0x68002c
/-- PTP_CTL (R477 of 14_time.md): PTP engine. -/
def PTP_CTL : Nat := 0x680040
/-- TS_ETH_LAT_e (R477 of 14_time.md): board latency of ETH_e. -/
def TS_ETH_LAT (e : Nat) : Nat := 0x680080 + 0x8 * e
/-- TS_ETH_ASYM_e (R477 of 14_time.md): delayAsymmetry of ETH_e. -/
def TS_ETH_ASYM (e : Nat) : Nat := 0x680084 + 0x8 * e
/-- TS_RF_ADJ_p (R477 of 14_time.md): FEM and cable delay of port p. -/
def TS_RF_ADJ (p : Nat) : Nat := 0x6800c0 + 0x4 * p
/-- PPS_CTL (R477 of 14_time.md): PPS and ToD. -/
def PPS_CTL : Nat := 0x680100
/-- PPS_DELAY (R477 of 14_time.md): PPS cable compensation. -/
def PPS_DELAY : Nat := 0x680104
/-- ETH_TS_OVF_e (R477 of 14_time.md): Ethernet stamps lost on ETH_e. -/
def ETH_TS_OVF (e : Nat) : Nat := 0x680140 + 0x4 * e
/-- ETH_CFG_e (R501 of 15_wired_links.md): port mode. -/
def ETH_CFG (e : Nat) : Nat := 0x700000 + 0x1000 * e
/-- ETH_STATUS_e (R501 of 15_wired_links.md): live link state. -/
def ETH_STATUS (e : Nat) : Nat := 0x700004 + 0x1000 * e
/-- ETH_EEE_e (R501 of 15_wired_links.md): low-power idle. -/
def ETH_EEE (e : Nat) : Nat := 0x700008 + 0x1000 * e
/-- ETH_MACSEC_e (R501 of 15_wired_links.md): MACsec control. -/
def ETH_MACSEC (e : Nat) : Nat := 0x70000c + 0x1000 * e
/-- ETH_TQ_SPAN_e_c (R501 of 15_wired_links.md): longest open run of TQ_c. -/
def ETH_TQ_SPAN (e : Nat) (c : Nat) : Nat := 0x700040 + 0x1000 * e + 0x4 * c
/-- ETH_GATE_BASE_LO (R501 of 15_wired_links.md): gate time base, low half. -/
def ETH_GATE_BASE_LO : Nat := 0x704000
/-- ETH_GATE_BASE_HI (R501 of 15_wired_links.md): gate time base, high half. -/
def ETH_GATE_BASE_HI : Nat := 0x704004
/-- QL_ID (R501 of 15_wired_links.md): chip identity. -/
def QL_ID : Nat := 0x780000
/-- QL_ROOT (R501 of 15_wired_links.md): root in use. -/
def QL_ROOT : Nat := 0x780004
/-- QL_CFG_n (R501 of 15_wired_links.md): link n control. -/
def QL_CFG (q : Nat) : Nat := 0x780100 + 0x10 * q
/-- QL_STATUS_n (R501 of 15_wired_links.md): link n state. -/
def QL_STATUS (q : Nat) : Nat := 0x780104 + 0x10 * q
/-- QL_ROUTE_i (R501 of 15_wired_links.md): route to system chip i, i = 0 to 1,023. -/
def QL_ROUTE (i : Nat) : Nat := 0x781000 + 0x4 * i
/-- HOST_CTL (R542 of 16_host_and_service_cores.md): receive stall limit. -/
def HOST_CTL : Nat := 0x800000
/-- HR_BASE_LO_n (R542 of 16_host_and_service_cores.md): ring base, low half, n = 0 to 34. -/
def HR_BASE_LO (h : Nat) : Nat := 0x800100 + 0x10 * h
/-- HR_BASE_HI_n (R542 of 16_host_and_service_cores.md): ring base, high half. -/
def HR_BASE_HI (h : Nat) : Nat := 0x800104 + 0x10 * h
/-- HR_CTL_n (R542 of 16_host_and_service_cores.md): ring control. -/
def HR_CTL (h : Nat) : Nat := 0x800108 + 0x10 * h
/-- HR_IDX_n (R542 of 16_host_and_service_cores.md): live indexes. -/
def HR_IDX (h : Nat) : Nat := 0x80010c + 0x10 * h
/-- DISP_CTL (R542 of 16_host_and_service_cores.md): dispatcher limits. -/
def DISP_CTL : Nat := 0x880000
/-- DISP_GROUP_g (R542 of 16_host_and_service_cores.md): group g, g = 0 to 7. -/
def DISP_GROUP (g : Nat) : Nat := 0x880010 + 0x4 * g
/-- DISP_STATUS (R542 of 16_host_and_service_cores.md): slot occupancy. -/
def DISP_STATUS : Nat := 0x880030
/-- PAIR_CTL (R578 of 17_redundancy.md): pairing control. -/
def PAIR_CTL : Nat := 0x900000
/-- PAIR_STATUS (R578 of 17_redundancy.md): live pair state. -/
def PAIR_STATUS : Nat := 0x900004
/-- PAIR_COMMIT_LO (R578 of 17_redundancy.md): last committed or acknowledged epoch, low half. -/
def PAIR_COMMIT_LO : Nat := 0x900008
/-- PAIR_COMMIT_HI (R578 of 17_redundancy.md): high half. -/
def PAIR_COMMIT_HI : Nat := 0x90000c
/-- PAIR_KEEPALIVE (R578 of 17_redundancy.md): secure-world keepalive. -/
def PAIR_KEEPALIVE : Nat := 0x900010
/-- OCHRE_w (R578 of 17_redundancy.md): own Ochre report, w = 0 to 15. -/
def OCHRE (w : Nat) : Nat := 0x900100 + 0x4 * w
/-- PARTNER_OCHRE_w (R578 of 17_redundancy.md): partner's Ochre report, w = 0 to 15. -/
def PARTNER_OCHRE (w : Nat) : Nat := 0x900140 + 0x4 * w
/-- FAULT_STATUS (R594 of 18_faults_and_counters.md): fault and log state. -/
def FAULT_STATUS : Nat := 0x980000
/-- FAULT_CTL (R594 of 18_faults_and_counters.md): quarantine threshold. -/
def FAULT_CTL : Nat := 0x980004
/-- CNT_CLEAR (R594 of 18_faults_and_counters.md): event counter clear. -/
def CNT_CLEAR : Nat := 0x980008
/-- CNT_SAT (R594 of 18_faults_and_counters.md): saturation summary. -/
def CNT_SAT : Nat := 0x98000c
/-- RST_CAUSE (R618 of 19_electrical_and_package.md): cause of the last reset, kept in the VDD_AON domain. -/
def RST_CAUSE : Nat := 0xa00000
/-- STRAP_STATUS (R618 of 19_electrical_and_package.md): straps sampled (R604). -/
def STRAP_STATUS : Nat := 0xa00004
/-- TEMP_STATUS (R618 of 19_electrical_and_package.md): junction temperature. -/
def TEMP_STATUS : Nat := 0xa00010
/-- THERM_CTL (R618 of 19_electrical_and_package.md): warning threshold. -/
def THERM_CTL : Nat := 0xa00014
/-- POWER_EST (R618 of 19_electrical_and_package.md): estimated power. -/
def POWER_EST : Nat := 0xa00018
/-- PAD_DRIVE (R618 of 19_electrical_and_package.md): output drive. -/
def PAD_DRIVE : Nat := 0xa00020
/-- DDR_STATUS (R618 of 19_electrical_and_package.md): LPDDR training. -/
def DDR_STATUS : Nat := 0xa00030
/-- MGMT_FRAME_ERR (R618 of 19_electrical_and_package.md): console frames discarded. -/
def MGMT_FRAME_ERR : Nat := 0xa00040
end Reg

/-- A row of the register map: `name` as the spec spells it, first offset, up to two strides with their counts, the
masks of the bits that a write reaches by access code (R8), and the reset value of the writable fields. -/
structure RegDef where
  name : String
  base : Nat
  s1 : Nat
  n1 : Nat
  s2 : Nat
  n2 : Nat
  rw : Nat
  st : Nat
  wc : Nat
  ws : Nat
  reset : Nat
  deriving DecidableEq, Repr

/-- The offset lies on an instance of the row (R14 calls every other offset unassigned). -/
def RegDef.covers (r : RegDef) (off : Nat) : Bool :=
  r.base ≤ off && (off - r.base) / r.s1 < r.n1 &&
    ((off - r.base) % r.s1) % r.s2 = 0 && ((off - r.base) % r.s1) / r.s2 < r.n2

/-- Instance indexes of an offset on the row. -/
def RegDef.idx1 (r : RegDef) (off : Nat) : Nat := (off - r.base) / r.s1
def RegDef.idx2 (r : RegDef) (off : Nat) : Nat := ((off - r.base) % r.s1) / r.s2

def regTable0 : List RegDef :=
  [⟨"ID_DEVICE", 0x0, 0x4, 1, 0x4, 1, 0x0, 0x0, 0x0, 0x0, 0x0⟩,
   ⟨"MODE_STATUS", 0x10, 0x4, 1, 0x4, 1, 0x0, 0x0, 0x0, 0x0, 0x0⟩,
   ⟨"EPOCH_NUM_LO", 0x20, 0x4, 1, 0x4, 1, 0x0, 0x0, 0x0, 0x0, 0x0⟩,
   ⟨"EPOCH_NUM_HI", 0x24, 0x4, 1, 0x4, 1, 0x0, 0x0, 0x0, 0x0, 0x0⟩,
   ⟨"EPOCH_LEN", 0x28, 0x4, 1, 0x4, 1, 0x0, 0x0, 0x0, 0x0, 0x0⟩,
   ⟨"EPOCH_ORIGIN_LO", 0x30, 0x4, 1, 0x4, 1, 0x0, 0xffffffff, 0x0, 0x0, 0x0⟩,
   ⟨"EPOCH_ORIGIN_HI", 0x34, 0x4, 1, 0x4, 1, 0x0, 0xffffffff, 0x0, 0x0, 0x0⟩,
   ⟨"STAGE_CTL", 0x38, 0x4, 1, 0x4, 1, 0x1, 0x0, 0x0, 0x0, 0x0⟩,
   ⟨"SNAP_INDEX", 0xf00000, 0x4, 1, 0x4, 1, 0x0, 0x0, 0x0, 0x0, 0x0⟩,
   ⟨"RF_CTL", 0x100000, 0x40000, 4, 0x40000, 1, 0x0, 0x3, 0x0, 0x0, 0x0⟩,
   ⟨"RF_STATUS", 0x100004, 0x40000, 4, 0x40000, 1, 0x0, 0x0, 0x0, 0x0, 0x0⟩,
   ⟨"RF_CENTRE", 0x100008, 0x40000, 4, 0x40000, 1, 0x0, 0x0, 0x0, 0x0, 0x0⟩,
   ⟨"CAL_STATUS", 0x100014, 0x40000, 4, 0x40000, 1, 0x0, 0x0, 0x0, 0x0, 0x0⟩,
   ⟨"FEM_MAP_LO", 0x100020, 0x40000, 4, 0x40000, 1, 0x0, 0xffffffff, 0x0, 0x0, 0x0⟩,
   ⟨"FEM_MAP_HI", 0x100024, 0x40000, 4, 0x40000, 1, 0x0, 0xffffffff, 0x0, 0x0, 0x0⟩,
   ⟨"FEM_TIMING", 0x100028, 0x40000, 4, 0x40000, 1, 0x0, 0x7ff07ff, 0x0, 0x0, 0x0⟩,
   ⟨"FEM_SPI_CTL", 0x100030, 0x40000, 4, 0x40000, 1, 0x0, 0x7cff, 0x0, 0x0, 0x28⟩,
   ⟨"COEX_CTL", 0x100040, 0x40000, 4, 0x40000, 1, 0x0, 0xffff0f1f, 0x0, 0x0, 0x4000300⟩,
   ⟨"AGC_CTL", 0x100050, 0x40000, 4, 0x40000, 1, 0x0, 0x1ffffff, 0x0, 0x0, 0xf0180c⟩,
   ⟨"AGC_STATUS", 0x100054, 0x40000, 4, 0x40000, 1, 0x0, 0x0, 0x0, 0x0, 0x0⟩]
def regTable1 : List RegDef :=
  [⟨"CIN_STATUS", 0x100100, 0x4, 1, 0x4, 1, 0x0, 0x0, 0x0, 0x0, 0x0⟩,
   ⟨"CIN_TIGHT_A", 0x100140, 0x8, 12, 0x8, 1, 0x0, 0xffffffff, 0x0, 0x0, 0x0⟩,
   ⟨"CIN_TIGHT_B", 0x100144, 0x8, 12, 0x8, 1, 0x0, 0x8000ffff, 0x0, 0x0, 0x0⟩,
   ⟨"CIN_STAGE", 0x100400, 0x4, 64, 0x4, 1, 0xffffffff, 0x0, 0x0, 0x0, 0x0⟩,
   ⟨"LG_CFG", 0x230000, 0x4, 24, 0x4, 1, 0x0, 0x7, 0x0, 0x0, 0x4⟩,
   ⟨"RXLOG_CTL", 0x230100, 0x4, 1, 0x4, 1, 0x0, 0xf, 0x0, 0x0, 0x0⟩,
   ⟨"RXLOG_SEQ", 0x230110, 0x4, 4, 0x4, 1, 0x0, 0x0, 0x0, 0x0, 0x0⟩,
   ⟨"RXLOG_FULL", 0x230120, 0x4, 4, 0x4, 1, 0x0, 0x0, 0x0, 0x0, 0x0⟩,
   ⟨"LANE_CFG", 0x200000, 0x400, 192, 0x400, 1, 0x0, 0xcfffffff, 0x0, 0x0, 0x46080800⟩,
   ⟨"LANE_FREQ", 0x200004, 0x400, 192, 0x400, 1, 0x0, 0xffffffff, 0x0, 0x0, 0x0⟩,
   ⟨"LANE_STATUS", 0x200008, 0x400, 192, 0x400, 1, 0x0, 0x0, 0x0, 0x0, 0x0⟩,
   ⟨"LANE_NOISE", 0x200134, 0x400, 192, 0x400, 1, 0x0, 0x0, 0x0, 0x0, 0x0⟩,
   ⟨"DUTY_RSV", 0x244000, 0x100, 4, 0x8, 12, 0x0, 0xffff, 0x0, 0x0, 0x0⟩,
   ⟨"DUTY_USED", 0x244004, 0x100, 4, 0x8, 12, 0x0, 0x0, 0x0, 0x0, 0x0⟩,
   ⟨"TXTS_OVF", 0x246000, 0x4, 4, 0x4, 1, 0x0, 0x0, 0x0, 0x0, 0x0⟩,
   ⟨"TXC_CFG", 0x240000, 0x100, 16, 0x100, 1, 0x0, 0xffe0ffff, 0x0, 0x0, 0x45008800⟩,
   ⟨"TXC_FREQ", 0x240004, 0x100, 16, 0x100, 1, 0x0, 0xffffffff, 0x0, 0x0, 0x0⟩,
   ⟨"TXC_PWR", 0x240008, 0x100, 16, 0x100, 1, 0x0, 0xffff, 0x0, 0x0, 0xff88⟩,
   ⟨"TXC_STATUS", 0x24000c, 0x100, 16, 0x100, 1, 0x0, 0x0, 0x0, 0x0, 0x0⟩,
   ⟨"TX_PORT_CTL", 0x242000, 0x4, 4, 0x4, 1, 0x0, 0x3f, 0x0, 0x0, 0x0⟩,
   ⟨"PAN_CFG", 0x280100, 0x20, 4, 0x20, 1, 0x0, 0xfe00ffff, 0x0, 0x0, 0x1000ffff⟩]
def regTable2 : List RegDef :=
  [⟨"PAN_EUI_LO", 0x280104, 0x20, 4, 0x20, 1, 0x0, 0xffffffff, 0x0, 0x0, 0x0⟩,
   ⟨"PAN_EUI_HI", 0x280108, 0x20, 4, 0x20, 1, 0x0, 0xffffffff, 0x0, 0x0, 0x0⟩,
   ⟨"PAN_POOL", 0x28010c, 0x20, 4, 0x20, 1, 0x0, 0xffffffff, 0x0, 0x0, 0xffef0000⟩,
   ⟨"PAN_HOLD", 0x280110, 0x20, 4, 0x20, 1, 0x0, 0xffffffff, 0x0, 0x0, 0x1f400010⟩,
   ⟨"PAN_FREE", 0x280114, 0x20, 4, 0x20, 1, 0x0, 0x0, 0x0, 0x0, 0x0⟩,
   ⟨"ACK_CTL", 0x280200, 0x10, 4, 0x10, 1, 0x0, 0xffff0fff, 0x0, 0x0, 0x64⟩,
   ⟨"CSMA_CTL", 0x280204, 0x10, 4, 0x10, 1, 0x0, 0xfffe0fff, 0x0, 0x0, 0xab460453⟩,
   ⟨"INDIRECT_CTL", 0x280208, 0x10, 4, 0x10, 1, 0x0, 0xffff, 0x0, 0x0, 0x3e8⟩,
   ⟨"NBR_CTL", 0x280300, 0x4, 1, 0x4, 1, 0x0, 0x80ffffff, 0x0, 0x0, 0x80140400⟩,
   ⟨"SEQ_STATUS", 0x300000, 0x20000, 4, 0x20000, 1, 0x0, 0x0, 0x0, 0x0, 0x0⟩,
   ⟨"SEQ_FLAGS", 0x300004, 0x20000, 4, 0x20000, 1, 0x0, 0xffff, 0x0, 0x0, 0x0⟩,
   ⟨"SEQ_HOME", 0x300008, 0x20000, 4, 0x20000, 1, 0x0, 0x0, 0x0, 0x0, 0x0⟩,
   ⟨"SEQ_END", 0x30000c, 0x20000, 4, 0x20000, 1, 0x0, 0x0, 0x0, 0x0, 0x0⟩,
   ⟨"SEQ_PEEK_IDX", 0x300010, 0x20000, 4, 0x20000, 1, 0x13fff, 0x0, 0x0, 0x0, 0x0⟩,
   ⟨"SEQ_PEEK_LO", 0x300014, 0x20000, 4, 0x20000, 1, 0x0, 0x0, 0x0, 0x0, 0x0⟩,
   ⟨"SEQ_PEEK_HI", 0x300018, 0x20000, 4, 0x20000, 1, 0x0, 0x0, 0x0, 0x0, 0x0⟩,
   ⟨"SEQ_CLASS_MAX", 0x300040, 0x20000, 4, 0x4, 8, 0x0, 0x0, 0x0, 0x0, 0x0⟩,
   ⟨"VAT_STATUS", 0x40, 0x4, 1, 0x4, 1, 0x0, 0x0, 0x0, 0x0, 0x0⟩,
   ⟨"VAT_PLAN_ID", 0x44, 0x4, 1, 0x4, 1, 0x0, 0x0, 0x0, 0x0, 0x0⟩,
   ⟨"VAT_STAGED_PLAN", 0x48, 0x4, 1, 0x4, 1, 0x0, 0x0, 0x0, 0x0, 0x0⟩]
def regTable3 : List RegDef :=
  [⟨"VAT_REFUSE", 0x4c, 0x4, 1, 0x4, 1, 0x0, 0x0, 0x0, 0x0, 0x0⟩,
   ⟨"VAT_DIGEST", 0x50, 0x4, 12, 0x4, 1, 0x0, 0x0, 0x0, 0x0, 0x0⟩,
   ⟨"MESH_CTL", 0x400000, 0x4, 1, 0x4, 1, 0x0, 0x1f1f0ff0, 0x0, 0x0, 0xf080220⟩,
   ⟨"MESH_BULK", 0x400010, 0x4, 4, 0x4, 1, 0x0, 0xfcff0000, 0x0, 0x0, 0x0⟩,
   ⟨"MESH_FLOOD", 0x400020, 0x4, 4, 0x4, 1, 0x0, 0x0, 0x0, 0x0, 0x0⟩,
   ⟨"MESH_SEEN_USED", 0x400030, 0x4, 1, 0x4, 1, 0x0, 0x0, 0x0, 0x0, 0x0⟩,
   ⟨"TBL_STATUS", 0x480000, 0x4, 1, 0x4, 1, 0x0, 0x0, 0x0, 0x0, 0x0⟩,
   ⟨"TBL_AGE", 0x480010, 0x4, 4, 0x4, 1, 0x0, 0xffffff, 0x0, 0x0, 0x0⟩,
   ⟨"TBL_LEARN", 0x480020, 0x4, 1, 0x4, 1, 0x0, 0xc000ffff, 0x0, 0x0, 0xc0000010⟩,
   ⟨"TBL_SEED_LO", 0x480040, 0x8, 4, 0x8, 1, 0x0, 0x0, 0x0, 0x0, 0x0⟩,
   ⟨"TBL_SEED_HI", 0x480044, 0x8, 4, 0x8, 1, 0x0, 0x0, 0x0, 0x0, 0x0⟩,
   ⟨"NODE_COUNT", 0x480080, 0x4, 4, 0x4, 1, 0x0, 0x0, 0x0, 0x0, 0x0⟩,
   ⟨"PFX_LEN_LO", 0x480090, 0x4, 1, 0x4, 1, 0x0, 0x0, 0x0, 0x0, 0x0⟩,
   ⟨"PFX_LEN_HI", 0x480094, 0x4, 1, 0x4, 1, 0x0, 0x0, 0x0, 0x0, 0x0⟩,
   ⟨"VG_CTL", 0x480100, 0x4, 1, 0x4, 1, 0x0, 0x800fffff, 0x0, 0x0, 0x21000⟩,
   ⟨"VG_BASE", 0x480110, 0x4, 3, 0x4, 1, 0x0, 0x3fffff, 0x0, 0x0, 0x0⟩,
   ⟨"VG_COUNT_ROUTE", 0x480124, 0x4, 1, 0x4, 1, 0x0, 0x1ffff, 0x0, 0x0, 0x0⟩,
   ⟨"VG_COUNT_PREFIX", 0x480128, 0x4, 1, 0x4, 1, 0x0, 0x1fff, 0x0, 0x0, 0x0⟩,
   ⟨"VG_STATUS", 0x480130, 0x4, 1, 0x4, 1, 0x0, 0x0, 0x0, 0x0, 0x0⟩,
   ⟨"OWNER_RANGE", 0x480200, 0x80, 4, 0x8, 16, 0x0, 0xffffffff, 0x0, 0x0, 0x0⟩]
def regTable4 : List RegDef :=
  [⟨"OWNER_CHIP", 0x480204, 0x80, 4, 0x8, 16, 0x0, 0x800003ff, 0x0, 0x0, 0x0⟩,
   ⟨"PIPE_SRC_MAP", 0x500000, 0x4, 1, 0x4, 1, 0x0, 0x3fffffff, 0x0, 0x0, 0x3ff0⟩,
   ⟨"PIPE_PAN", 0x500010, 0x4, 4, 0x4, 1, 0x0, 0x7ffff00, 0x0, 0x0, 0x7ff4000⟩,
   ⟨"REASM_CTL", 0x500020, 0x4, 1, 0x4, 1, 0x0, 0xffff, 0x0, 0x0, 0x7d0⟩,
   ⟨"PIPE_L2", 0x500400, 0x10, 16, 0x4, 4, 0x0, 0xffffffff, 0x0, 0x0, 0x0⟩,
   ⟨"TM_DEFAULT", 0x580000, 0x4, 1, 0x4, 1, 0x0, 0xffff, 0x0, 0x0, 0x400⟩,
   ⟨"TM_BUF_USED", 0x580004, 0x4, 1, 0x4, 1, 0x0, 0x0, 0x0, 0x0, 0x0⟩,
   ⟨"SHP_LEVEL", 0x582000, 0x4, 1024, 0x4, 1, 0x0, 0x0, 0x0, 0x0, 0x0⟩,
   ⟨"POL_LEVEL", 0x584000, 0x8, 2048, 0x4, 2, 0x0, 0x0, 0x0, 0x0, 0x0⟩,
   ⟨"Q_DEPTH", 0x59001c, 0x20, 4096, 0x20, 1, 0x0, 0x0, 0x0, 0x0, 0x0⟩,
   ⟨"SEC_STATUS", 0x600000, 0x4, 1, 0x4, 1, 0x0, 0x0, 0x0, 0x0, 0x0⟩,
   ⟨"SEC_VERSION", 0x600004, 0x4, 1, 0x4, 1, 0x0, 0x0, 0x0, 0x0, 0x0⟩,
   ⟨"MEAS", 0x600010, 0x4, 12, 0x4, 1, 0x0, 0x0, 0x0, 0x0, 0x0⟩,
   ⟨"SEC_CTL", 0x600040, 0x4, 1, 0x4, 1, 0x0, 0xffffffff, 0x0, 0x0, 0x10000⟩,
   ⟨"SEC_PAN", 0x600050, 0x8, 4, 0x8, 1, 0x0, 0x783ff, 0x0, 0x0, 0x60000⟩,
   ⟨"SEC_PAN_FC", 0x600054, 0x8, 4, 0x8, 1, 0x0, 0x0, 0x0, 0x0, 0x0⟩,
   ⟨"KEY_DESC_A", 0x610000, 0x10, 1024, 0x10, 1, 0x0, 0x0, 0x0, 0x0, 0x0⟩,
   ⟨"KEY_DESC_B", 0x610004, 0x10, 1024, 0x10, 1, 0x0, 0x0, 0x0, 0x0, 0x0⟩,
   ⟨"KEY_KCV", 0x610008, 0x10, 1024, 0x10, 1, 0x0, 0x0, 0x0, 0x0, 0x0⟩,
   ⟨"TIME_STATUS", 0x680000, 0x4, 1, 0x4, 1, 0x0, 0x0, 0x0, 0x0, 0x0⟩,
   ⟨"TIME_NOW_LO", 0x680008, 0x4, 1, 0x4, 1, 0x0, 0x0, 0x0, 0x0, 0x0⟩]
def regTable5 : List RegDef :=
  [⟨"TIME_NOW_HI", 0x68000c, 0x4, 1, 0x4, 1, 0x0, 0x0, 0x0, 0x0, 0x0⟩,
   ⟨"TIME_RATE", 0x680010, 0x4, 1, 0x4, 1, 0x0, 0x0, 0x0, 0x0, 0x0⟩,
   ⟨"TIME_ERR", 0x680014, 0x4, 1, 0x4, 1, 0x0, 0x0, 0x0, 0x0, 0x0⟩,
   ⟨"TIME_SRC", 0x680020, 0x4, 1, 0x4, 1, 0x0, 0xffff00ff, 0x0, 0x0, 0xa00e4⟩,
   ⟨"TIME_SERVO", 0x680024, 0x4, 1, 0x4, 1, 0x0, 0xff80ffff, 0x0, 0x0, 0x450003e8⟩,
   ⟨"TIME_HOLD", 0x680028, 0x4, 1, 0x4, 1, 0x0, 0xffffffff, 0x0, 0x0, 0x640bb8⟩,
   ⟨"TIME_MESH", 0x68002c, 0x4, 1, 0x4, 1, 0x0, 0x8000ffff, 0x0, 0x0, 0x0⟩,
   ⟨"PTP_CTL", 0x680040, 0x4, 1, 0x4, 1, 0x0, 0xfffffc03, 0x0, 0x0, 0x0⟩,
   ⟨"TS_ETH_LAT", 0x680080, 0x8, 4, 0x8, 1, 0x0, 0xffffffff, 0x0, 0x0, 0x0⟩,
   ⟨"TS_ETH_ASYM", 0x680084, 0x8, 4, 0x8, 1, 0x0, 0xffffffff, 0x0, 0x0, 0x0⟩,
   ⟨"TS_RF_ADJ", 0x6800c0, 0x4, 4, 0x4, 1, 0x0, 0xffffffff, 0x0, 0x0, 0x0⟩,
   ⟨"PPS_CTL", 0x680100, 0x4, 1, 0x4, 1, 0x0, 0xffff003f, 0x0, 0x0, 0x3e80000⟩,
   ⟨"PPS_DELAY", 0x680104, 0x4, 1, 0x4, 1, 0x0, 0xffffffff, 0x0, 0x0, 0x0⟩,
   ⟨"ETH_TS_OVF", 0x680140, 0x4, 4, 0x4, 1, 0x0, 0x0, 0x0, 0x0, 0x0⟩,
   ⟨"ETH_CFG", 0x700000, 0x1000, 4, 0x1000, 1, 0x0, 0xff003fff, 0x0, 0x0, 0x40005f2⟩,
   ⟨"ETH_STATUS", 0x700004, 0x1000, 4, 0x1000, 1, 0x0, 0x0, 0x0, 0x0, 0x0⟩,
   ⟨"ETH_EEE", 0x700008, 0x1000, 4, 0x1000, 1, 0x0, 0xffffffff, 0x0, 0x0, 0x3e800064⟩,
   ⟨"ETH_MACSEC", 0x70000c, 0x1000, 4, 0x1000, 1, 0x0, 0xfc00ffff, 0x0, 0x0, 0x10000000⟩,
   ⟨"ETH_TQ_SPAN", 0x700040, 0x1000, 4, 0x4, 8, 0x0, 0x0, 0x0, 0x0, 0x0⟩,
   ⟨"ETH_GATE_BASE_LO", 0x704000, 0x4, 1, 0x4, 1, 0x0, 0xffffffff, 0x0, 0x0, 0x0⟩]
def regTable6 : List RegDef :=
  [⟨"ETH_GATE_BASE_HI", 0x704004, 0x4, 1, 0x4, 1, 0x0, 0xffffffff, 0x0, 0x0, 0x0⟩,
   ⟨"QL_ID", 0x780000, 0x4, 1, 0x4, 1, 0x0, 0x0, 0x0, 0x0, 0x0⟩,
   ⟨"QL_ROOT", 0x780004, 0x4, 1, 0x4, 1, 0x0, 0x0, 0x0, 0x0, 0x0⟩,
   ⟨"QL_CFG", 0x780100, 0x10, 6, 0x10, 1, 0x0, 0xffffffff, 0x0, 0x0, 0x45064040⟩,
   ⟨"QL_STATUS", 0x780104, 0x10, 6, 0x10, 1, 0x0, 0x0, 0x0, 0x0, 0x0⟩,
   ⟨"QL_ROUTE", 0x781000, 0x4, 1024, 0x4, 1, 0x0, 0x80000007, 0x0, 0x0, 0x7⟩,
   ⟨"HOST_CTL", 0x800000, 0x4, 1, 0x4, 1, 0x0, 0xfffff, 0x0, 0x0, 0x2710⟩,
   ⟨"HR_BASE_LO", 0x800100, 0x10, 35, 0x10, 1, 0xfffff000, 0x0, 0x0, 0x0, 0x0⟩,
   ⟨"HR_BASE_HI", 0x800104, 0x10, 35, 0x10, 1, 0xffffffff, 0x0, 0x0, 0x0, 0x0⟩,
   ⟨"HR_CTL", 0x800108, 0x10, 35, 0x10, 1, 0xffff0000, 0x0, 0x0, 0x0, 0x20000000⟩,
   ⟨"HR_IDX", 0x80010c, 0x10, 35, 0x10, 1, 0x0, 0x0, 0x0, 0x0, 0x0⟩,
   ⟨"DISP_CTL", 0x880000, 0x4, 1, 0x4, 1, 0x0, 0xffffffff, 0x0, 0x0, 0x0⟩,
   ⟨"DISP_GROUP", 0x880010, 0x4, 8, 0x4, 1, 0x0, 0xff001fff, 0x0, 0x0, 0x1001000⟩,
   ⟨"DISP_STATUS", 0x880030, 0x4, 1, 0x4, 1, 0x0, 0x0, 0x0, 0x0, 0x0⟩,
   ⟨"PAIR_CTL", 0x900000, 0x4, 1, 0x4, 1, 0x0, 0xfff07f, 0x0, 0x0, 0x2021⟩,
   ⟨"PAIR_STATUS", 0x900004, 0x4, 1, 0x4, 1, 0x0, 0x0, 0x0, 0x0, 0x0⟩,
   ⟨"PAIR_COMMIT_LO", 0x900008, 0x4, 1, 0x4, 1, 0x0, 0x0, 0x0, 0x0, 0x0⟩,
   ⟨"PAIR_COMMIT_HI", 0x90000c, 0x4, 1, 0x4, 1, 0x0, 0x0, 0x0, 0x0, 0x0⟩,
   ⟨"PAIR_KEEPALIVE", 0x900010, 0x4, 1, 0x4, 1, 0x0, 0x0, 0x0, 0xffffffff, 0x0⟩,
   ⟨"OCHRE", 0x900100, 0x4, 16, 0x4, 1, 0x0, 0x0, 0x0, 0x0, 0x0⟩]
def regTable7 : List RegDef :=
  [⟨"PARTNER_OCHRE", 0x900140, 0x4, 16, 0x4, 1, 0x0, 0x0, 0x0, 0x0, 0x0⟩,
   ⟨"FAULT_STATUS", 0x980000, 0x4, 1, 0x4, 1, 0x0, 0x0, 0x0, 0x0, 0x0⟩,
   ⟨"FAULT_CTL", 0x980004, 0x4, 1, 0x4, 1, 0x0, 0xff, 0x0, 0x0, 0x10⟩,
   ⟨"CNT_CLEAR", 0x980008, 0x4, 1, 0x4, 1, 0x0, 0xfffff, 0x0, 0x0, 0x0⟩,
   ⟨"CNT_SAT", 0x98000c, 0x4, 1, 0x4, 1, 0x0, 0x0, 0x0, 0x0, 0x0⟩,
   ⟨"RST_CAUSE", 0xa00000, 0x4, 1, 0x4, 1, 0x0, 0x0, 0x1e, 0x0, 0x2⟩,
   ⟨"STRAP_STATUS", 0xa00004, 0x4, 1, 0x4, 1, 0x0, 0x0, 0x0, 0x0, 0x0⟩,
   ⟨"TEMP_STATUS", 0xa00010, 0x4, 1, 0x4, 1, 0x0, 0x0, 0x0, 0x0, 0x0⟩,
   ⟨"THERM_CTL", 0xa00014, 0x4, 1, 0x4, 1, 0x0, 0xff, 0x0, 0x0, 0x64⟩,
   ⟨"POWER_EST", 0xa00018, 0x4, 1, 0x4, 1, 0x0, 0x0, 0x0, 0x0, 0x0⟩,
   ⟨"PAD_DRIVE", 0xa00020, 0x4, 1, 0x4, 1, 0x3f, 0x0, 0x0, 0x0, 0x15⟩,
   ⟨"DDR_STATUS", 0xa00030, 0x4, 1, 0x4, 1, 0x0, 0x0, 0x0, 0x0, 0x0⟩,
   ⟨"MGMT_FRAME_ERR", 0xa00040, 0x4, 1, 0x4, 1, 0x0, 0x0, 0x0, 0x0, 0x0⟩]
/-- Every register of WIN_CFG. -/
def regTable : List RegDef :=
  regTable0 ++ regTable1 ++ regTable2 ++ regTable3 ++ regTable4 ++ regTable5 ++ regTable6 ++ regTable7

/-- The row of an offset, if the offset is assigned to a register. -/
def regAt (off : Nat) : Option RegDef := regTable.find? (fun r => r.covers off)

/-- Register values in force, by offset: only values that differ from the row's reset are listed. -/
abbrev Cfg := SMap (BitVec 32)

/-- Bits [hi:lo] of the value in force at `off`, whose writable fields reset to `rst`. -/
def Cfg.field (c : Cfg) (off rst hi lo : Nat) : Nat :=
  ((match c.find off with
    | some v => v.toNat
    | none => rst) >>> lo) % 2 ^ (hi - lo + 1)

def Cfg.EPOCH_ORIGIN_LO_ORIGIN_LO (x : Cfg) : Nat := x.field Reg.EPOCH_ORIGIN_LO 0x0 31 0
def Cfg.EPOCH_ORIGIN_HI_ORIGIN_HI (x : Cfg) : Nat := x.field Reg.EPOCH_ORIGIN_HI 0x0 31 0
def Cfg.STAGE_CTL_HOLD (x : Cfg) : Nat := x.field Reg.STAGE_CTL 0x0 0 0
def Cfg.RF_CTL_TX_INHIBIT (x : Cfg) (p : Nat) : Nat := x.field (Reg.RF_CTL p) 0x0 1 1
def Cfg.RF_CTL_ENABLE (x : Cfg) (p : Nat) : Nat := x.field (Reg.RF_CTL p) 0x0 0 0
def Cfg.FEM_MAP_LO_RX (x : Cfg) (p : Nat) : Nat := x.field (Reg.FEM_MAP_LO p) 0x0 31 24
def Cfg.FEM_MAP_LO_IDLE (x : Cfg) (p : Nat) : Nat := x.field (Reg.FEM_MAP_LO p) 0x0 23 16
def Cfg.FEM_MAP_LO_STBY (x : Cfg) (p : Nat) : Nat := x.field (Reg.FEM_MAP_LO p) 0x0 15 8
def Cfg.FEM_MAP_LO_OFF (x : Cfg) (p : Nat) : Nat := x.field (Reg.FEM_MAP_LO p) 0x0 7 0
def Cfg.FEM_MAP_HI_CAL (x : Cfg) (p : Nat) : Nat := x.field (Reg.FEM_MAP_HI p) 0x0 31 24
def Cfg.FEM_MAP_HI_TX (x : Cfg) (p : Nat) : Nat := x.field (Reg.FEM_MAP_HI p) 0x0 23 16
def Cfg.FEM_MAP_HI_TXPRE (x : Cfg) (p : Nat) : Nat := x.field (Reg.FEM_MAP_HI p) 0x0 15 8
def Cfg.FEM_MAP_HI_RX_BYPASS (x : Cfg) (p : Nat) : Nat := x.field (Reg.FEM_MAP_HI p) 0x0 7 0
def Cfg.FEM_TIMING_RX_LEAD (x : Cfg) (p : Nat) : Nat := x.field (Reg.FEM_TIMING p) 0x0 26 16
def Cfg.FEM_TIMING_TX_LEAD (x : Cfg) (p : Nat) : Nat := x.field (Reg.FEM_TIMING p) 0x0 10 0
def Cfg.FEM_SPI_CTL_VERIFY (x : Cfg) (p : Nat) : Nat := x.field (Reg.FEM_SPI_CTL p) 0x28 14 14
def Cfg.FEM_SPI_CTL_RDATA16 (x : Cfg) (p : Nat) : Nat := x.field (Reg.FEM_SPI_CTL p) 0x28 13 13
def Cfg.FEM_SPI_CTL_RADDR16 (x : Cfg) (p : Nat) : Nat := x.field (Reg.FEM_SPI_CTL p) 0x28 12 12
def Cfg.FEM_SPI_CTL_WLEN (x : Cfg) (p : Nat) : Nat := x.field (Reg.FEM_SPI_CTL p) 0x28 11 10
def Cfg.FEM_SPI_CTL_DIV (x : Cfg) (p : Nat) : Nat := x.field (Reg.FEM_SPI_CTL p) 0x28 7 0
def Cfg.COEX_CTL_GNT_SETUP (x : Cfg) (p : Nat) : Nat := x.field (Reg.COEX_CTL p) 0x4000300 31 24
def Cfg.COEX_CTL_REQ_HOLD (x : Cfg) (p : Nat) : Nat := x.field (Reg.COEX_CTL p) 0x4000300 23 16
def Cfg.COEX_CTL_PRI_MASK (x : Cfg) (p : Nat) : Nat := x.field (Reg.COEX_CTL p) 0x4000300 11 8
def Cfg.COEX_CTL_RX_REQ (x : Cfg) (p : Nat) : Nat := x.field (Reg.COEX_CTL p) 0x4000300 4 4
def Cfg.COEX_CTL_GNT_ACTIVE_LOW (x : Cfg) (p : Nat) : Nat := x.field (Reg.COEX_CTL p) 0x4000300 3 3
def Cfg.COEX_CTL_REVOKE_ABORT (x : Cfg) (p : Nat) : Nat := x.field (Reg.COEX_CTL p) 0x4000300 2 2
def Cfg.COEX_CTL_EARLY_REQ (x : Cfg) (p : Nat) : Nat := x.field (Reg.COEX_CTL p) 0x4000300 1 1
def Cfg.COEX_CTL_EN (x : Cfg) (p : Nat) : Nat := x.field (Reg.COEX_CTL p) 0x4000300 0 0
def Cfg.AGC_CTL_FREEZE (x : Cfg) (p : Nat) : Nat := x.field (Reg.AGC_CTL p) 0xf0180c 24 24
def Cfg.AGC_CTL_MAX_INDEX (x : Cfg) (p : Nat) : Nat := x.field (Reg.AGC_CTL p) 0xf0180c 23 20
def Cfg.AGC_CTL_MIN_INDEX (x : Cfg) (p : Nat) : Nat := x.field (Reg.AGC_CTL p) 0xf0180c 19 16
def Cfg.AGC_CTL_LO_THRESH (x : Cfg) (p : Nat) : Nat := x.field (Reg.AGC_CTL p) 0xf0180c 15 8
def Cfg.AGC_CTL_HI_THRESH (x : Cfg) (p : Nat) : Nat := x.field (Reg.AGC_CTL p) 0xf0180c 7 0
def Cfg.LG_CFG_PORT (x : Cfg) (g : Nat) : Nat := x.field (Reg.LG_CFG g) 0x4 2 0
def Cfg.RXLOG_CTL_DELIVER_FAILED (x : Cfg) : Nat := x.field Reg.RXLOG_CTL 0x0 3 0
def Cfg.LANE_CFG_EN (x : Cfg) (l : Nat) : Nat := x.field (Reg.LANE_CFG l) 0x46080800 31 31
def Cfg.LANE_CFG_CAPTURE_EN (x : Cfg) (l : Nat) : Nat := x.field (Reg.LANE_CFG l) 0x46080800 30 30
def Cfg.LANE_CFG_CAPTURE_MARGIN (x : Cfg) (l : Nat) : Nat := x.field (Reg.LANE_CFG l) 0x46080800 27 24
def Cfg.LANE_CFG_SYNC_TIMEOUT (x : Cfg) (l : Nat) : Nat := x.field (Reg.LANE_CFG l) 0x46080800 23 14
def Cfg.LANE_CFG_SFD_SET (x : Cfg) (l : Nat) : Nat := x.field (Reg.LANE_CFG l) 0x46080800 13 13
def Cfg.LANE_CFG_FEC_RSC (x : Cfg) (l : Nat) : Nat := x.field (Reg.LANE_CFG l) 0x46080800 12 12
def Cfg.LANE_CFG_DET_LEN (x : Cfg) (l : Nat) : Nat := x.field (Reg.LANE_CFG l) 0x46080800 11 8
def Cfg.LANE_CFG_MODE (x : Cfg) (l : Nat) : Nat := x.field (Reg.LANE_CFG l) 0x46080800 7 0
def Cfg.LANE_FREQ_CHAN_KHZ (x : Cfg) (l : Nat) : Nat := x.field (Reg.LANE_FREQ l) 0x0 31 0
def Cfg.DUTY_RSV_RESERVE (x : Cfg) (p : Nat) (s : Nat) : Nat := x.field (Reg.DUTY_RSV p s) 0x0 15 0
def Cfg.TXC_CFG_EN (x : Cfg) (t : Nat) : Nat := x.field (Reg.TXC_CFG t) 0x45008800 31 31
def Cfg.TXC_CFG_PORT (x : Cfg) (t : Nat) : Nat := x.field (Reg.TXC_CFG t) 0x45008800 30 28
def Cfg.TXC_CFG_RAMP_SHAPE (x : Cfg) (t : Nat) : Nat := x.field (Reg.TXC_CFG t) 0x45008800 27 26
def Cfg.TXC_CFG_RAMP_US (x : Cfg) (t : Nat) : Nat := x.field (Reg.TXC_CFG t) 0x45008800 25 21
def Cfg.TXC_CFG_MIN_PWR (x : Cfg) (t : Nat) : Nat := x.field (Reg.TXC_CFG t) 0x45008800 15 8
def Cfg.TXC_CFG_MODE (x : Cfg) (t : Nat) : Nat := x.field (Reg.TXC_CFG t) 0x45008800 7 0
def Cfg.TXC_FREQ_CHAN_KHZ (x : Cfg) (t : Nat) : Nat := x.field (Reg.TXC_FREQ t) 0x0 31 0
def Cfg.TXC_PWR_LEVEL (x : Cfg) (t : Nat) : Nat := x.field (Reg.TXC_PWR t) 0xff88 15 0
def Cfg.TX_PORT_CTL_BACKOFF (x : Cfg) (p : Nat) : Nat := x.field (Reg.TX_PORT_CTL p) 0x0 5 0
def Cfg.PAN_CFG_EN (x : Cfg) (k : Nat) : Nat := x.field (Reg.PAN_CFG k) 0x1000ffff 31 31
def Cfg.PAN_CFG_ASSOC_PERMIT (x : Cfg) (k : Nat) : Nat := x.field (Reg.PAN_CFG k) 0x1000ffff 30 30
def Cfg.PAN_CFG_POLICY (x : Cfg) (k : Nat) : Nat := x.field (Reg.PAN_CFG k) 0x1000ffff 29 28
def Cfg.PAN_CFG_BCN_SEC (x : Cfg) (k : Nat) : Nat := x.field (Reg.PAN_CFG k) 0x1000ffff 27 27
def Cfg.PAN_CFG_ENH_SEC (x : Cfg) (k : Nat) : Nat := x.field (Reg.PAN_CFG k) 0x1000ffff 26 26
def Cfg.PAN_CFG_DL_V2006 (x : Cfg) (k : Nat) : Nat := x.field (Reg.PAN_CFG k) 0x1000ffff 25 25
def Cfg.PAN_CFG_PAN_ID (x : Cfg) (k : Nat) : Nat := x.field (Reg.PAN_CFG k) 0x1000ffff 15 0
def Cfg.PAN_POOL_HI (x : Cfg) (k : Nat) : Nat := x.field (Reg.PAN_POOL k) 0xffef0000 31 16
def Cfg.PAN_POOL_LO (x : Cfg) (k : Nat) : Nat := x.field (Reg.PAN_POOL k) 0xffef0000 15 0
def Cfg.PAN_HOLD_PERSIST_MS (x : Cfg) (k : Nat) : Nat := x.field (Reg.PAN_HOLD k) 0x1f400010 31 16
def Cfg.PAN_HOLD_RELEASE_HOLD (x : Cfg) (k : Nat) : Nat := x.field (Reg.PAN_HOLD k) 0x1f400010 15 0
def Cfg.ACK_CTL_CARRIERS (x : Cfg) (p : Nat) : Nat := x.field (Reg.ACK_CTL p) 0x64 31 16
def Cfg.ACK_CTL_SLACK_US (x : Cfg) (p : Nat) : Nat := x.field (Reg.ACK_CTL p) 0x64 11 0
def Cfg.CSMA_CTL_CCA_THRESH (x : Cfg) (p : Nat) : Nat := x.field (Reg.CSMA_CTL p) 0xab460453 31 24
def Cfg.CSMA_CTL_MAX_CAF (x : Cfg) (p : Nat) : Nat := x.field (Reg.CSMA_CTL p) 0xab460453 23 20
def Cfg.CSMA_CTL_RETRY_MAX (x : Cfg) (p : Nat) : Nat := x.field (Reg.CSMA_CTL p) 0xab460453 19 17
def Cfg.CSMA_CTL_MAX_BACKOFFS (x : Cfg) (p : Nat) : Nat := x.field (Reg.CSMA_CTL p) 0xab460453 11 8
def Cfg.CSMA_CTL_MAX_BE (x : Cfg) (p : Nat) : Nat := x.field (Reg.CSMA_CTL p) 0xab460453 7 4
def Cfg.CSMA_CTL_MIN_BE (x : Cfg) (p : Nat) : Nat := x.field (Reg.CSMA_CTL p) 0xab460453 3 0
def Cfg.INDIRECT_CTL_GAP_US (x : Cfg) (p : Nat) : Nat := x.field (Reg.INDIRECT_CTL p) 0x3e8 15 0
def Cfg.NBR_CTL_LEARN (x : Cfg) : Nat := x.field Reg.NBR_CTL 0x80140400 31 31
def Cfg.NBR_CTL_TOL (x : Cfg) : Nat := x.field Reg.NBR_CTL 0x80140400 23 16
def Cfg.NBR_CTL_DEFAULT_GAP_MS (x : Cfg) : Nat := x.field Reg.NBR_CTL 0x80140400 15 0
def Cfg.SEQ_FLAGS_FLAG (x : Cfg) (s : Nat) : Nat := x.field (Reg.SEQ_FLAGS s) 0x0 15 0
def Cfg.SEQ_PEEK_IDX_STAGED (x : Cfg) (s : Nat) : Nat := x.field (Reg.SEQ_PEEK_IDX s) 0x0 16 16
def Cfg.SEQ_PEEK_IDX_INDEX (x : Cfg) (s : Nat) : Nat := x.field (Reg.SEQ_PEEK_IDX s) 0x0 13 0
def Cfg.MESH_CTL_TTL_MAX (x : Cfg) : Nat := x.field Reg.MESH_CTL 0xf080220 28 24
def Cfg.MESH_CTL_DEFAULT_TTL (x : Cfg) : Nat := x.field Reg.MESH_CTL 0xf080220 20 16
def Cfg.MESH_CTL_MARGIN (x : Cfg) : Nat := x.field Reg.MESH_CTL 0xf080220 11 8
def Cfg.MESH_CTL_SEEN_LIFE (x : Cfg) : Nat := x.field Reg.MESH_CTL 0xf080220 7 4
def Cfg.MESH_BULK_PORT_MASK (x : Cfg) (k : Nat) : Nat := x.field (Reg.MESH_BULK k) 0x0 31 28
def Cfg.MESH_BULK_REPEAT (x : Cfg) (k : Nat) : Nat := x.field (Reg.MESH_BULK k) 0x0 27 26
def Cfg.MESH_BULK_CLASS (x : Cfg) (k : Nat) : Nat := x.field (Reg.MESH_BULK k) 0x0 23 21
def Cfg.MESH_BULK_TTL_FIXED (x : Cfg) (k : Nat) : Nat := x.field (Reg.MESH_BULK k) 0x0 20 16
def Cfg.TBL_AGE_AGE_LIMIT (x : Cfg) (k : Nat) : Nat := x.field (Reg.TBL_AGE k) 0x0 23 0
def Cfg.TBL_LEARN_UNKNOWN_EVT (x : Cfg) : Nat := x.field Reg.TBL_LEARN 0xc0000010 31 31
def Cfg.TBL_LEARN_AGED_EVT (x : Cfg) : Nat := x.field Reg.TBL_LEARN 0xc0000010 30 30
def Cfg.TBL_LEARN_LEARN_HOLD (x : Cfg) : Nat := x.field Reg.TBL_LEARN 0xc0000010 15 0
def Cfg.VG_CTL_EN (x : Cfg) : Nat := x.field Reg.VG_CTL 0x21000 31 31
def Cfg.VG_CTL_SETTLE (x : Cfg) : Nat := x.field Reg.VG_CTL 0x21000 19 16
def Cfg.VG_CTL_RATE (x : Cfg) : Nat := x.field Reg.VG_CTL 0x21000 15 0
def Cfg.VG_BASE_BASE_4K (x : Cfg) (t : Nat) : Nat := x.field (Reg.VG_BASE t) 0x0 21 0
def Cfg.VG_COUNT_ROUTE_COUNT (x : Cfg) : Nat := x.field Reg.VG_COUNT_ROUTE 0x0 16 0
def Cfg.VG_COUNT_PREFIX_COUNT (x : Cfg) : Nat := x.field Reg.VG_COUNT_PREFIX 0x0 12 0
def Cfg.OWNER_RANGE_HI (x : Cfg) (k : Nat) (n : Nat) : Nat := x.field (Reg.OWNER_RANGE k n) 0x0 31 16
def Cfg.OWNER_RANGE_LO (x : Cfg) (k : Nat) (n : Nat) : Nat := x.field (Reg.OWNER_RANGE k n) 0x0 15 0
def Cfg.OWNER_CHIP_EN (x : Cfg) (k : Nat) (n : Nat) : Nat := x.field (Reg.OWNER_CHIP k n) 0x0 31 31
def Cfg.OWNER_CHIP_CHIP (x : Cfg) (k : Nat) (n : Nat) : Nat := x.field (Reg.OWNER_CHIP k n) 0x0 9 0
def Cfg.PIPE_SRC_MAP_MAP (x : Cfg) : Nat := x.field Reg.PIPE_SRC_MAP 0x3ff0 29 0
def Cfg.PIPE_PAN_MAX_PSDU (x : Cfg) (k : Nat) : Nat := x.field (Reg.PIPE_PAN k) 0x7ff4000 26 16
def Cfg.PIPE_PAN_OVERHEAD (x : Cfg) (k : Nat) : Nat := x.field (Reg.PIPE_PAN k) 0x7ff4000 15 8
def Cfg.REASM_CTL_TIMEOUT_MS (x : Cfg) : Nat := x.field Reg.REASM_CTL 0x7d0 15 0
def Cfg.PIPE_L2_DATA (x : Cfg) (n : Nat) (w : Nat) : Nat := x.field (Reg.PIPE_L2 n w) 0x0 31 0
def Cfg.TM_DEFAULT_DEPTH (x : Cfg) : Nat := x.field Reg.TM_DEFAULT 0x400 15 0
def Cfg.SEC_CTL_FC_SKIP (x : Cfg) : Nat := x.field Reg.SEC_CTL 0x10000 31 0
def Cfg.SEC_PAN_DL_LEVEL (x : Cfg) (k : Nat) : Nat := x.field (Reg.SEC_PAN k) 0x60000 18 16
def Cfg.SEC_PAN_SLOT_EN (x : Cfg) (k : Nat) : Nat := x.field (Reg.SEC_PAN k) 0x60000 15 15
def Cfg.SEC_PAN_KEY_SLOT (x : Cfg) (k : Nat) : Nat := x.field (Reg.SEC_PAN k) 0x60000 9 0
def Cfg.TIME_SRC_SRC_ERR (x : Cfg) : Nat := x.field Reg.TIME_SRC 0xa00e4 31 16
def Cfg.TIME_SRC_PRIO_3 (x : Cfg) : Nat := x.field Reg.TIME_SRC 0xa00e4 7 6
def Cfg.TIME_SRC_PRIO_2 (x : Cfg) : Nat := x.field Reg.TIME_SRC 0xa00e4 5 4
def Cfg.TIME_SRC_PRIO_1 (x : Cfg) : Nat := x.field Reg.TIME_SRC 0xa00e4 3 2
def Cfg.TIME_SRC_PRIO_0 (x : Cfg) : Nat := x.field Reg.TIME_SRC 0xa00e4 1 0
def Cfg.TIME_SERVO_BW (x : Cfg) : Nat := x.field Reg.TIME_SERVO 0x450003e8 31 30
def Cfg.TIME_SERVO_SLEW_PPM (x : Cfg) : Nat := x.field Reg.TIME_SERVO 0x450003e8 29 23
def Cfg.TIME_SERVO_STEP_THRESH (x : Cfg) : Nat := x.field Reg.TIME_SERVO 0x450003e8 15 0
def Cfg.TIME_HOLD_DRIFT_PPB (x : Cfg) : Nat := x.field Reg.TIME_HOLD 0x640bb8 31 16
def Cfg.TIME_HOLD_LOSS_MS (x : Cfg) : Nat := x.field Reg.TIME_HOLD 0x640bb8 15 0
def Cfg.TIME_MESH_UNSECURED (x : Cfg) : Nat := x.field Reg.TIME_MESH 0x0 31 31
def Cfg.TIME_MESH_FLIGHT_NS (x : Cfg) : Nat := x.field Reg.TIME_MESH 0x0 15 0
def Cfg.PTP_CTL_EN (x : Cfg) : Nat := x.field Reg.PTP_CTL 0x0 31 31
def Cfg.PTP_CTL_DOMAIN (x : Cfg) : Nat := x.field Reg.PTP_CTL 0x0 30 24
def Cfg.PTP_CTL_TRANSPORT (x : Cfg) : Nat := x.field Reg.PTP_CTL 0x0 23 22
def Cfg.PTP_CTL_PORT_EN (x : Cfg) : Nat := x.field Reg.PTP_CTL 0x0 21 18
def Cfg.PTP_CTL_P2P (x : Cfg) : Nat := x.field Reg.PTP_CTL 0x0 17 14
def Cfg.PTP_CTL_ONE_STEP (x : Cfg) : Nat := x.field Reg.PTP_CTL 0x0 13 10
def Cfg.PTP_CTL_RX_PORT (x : Cfg) : Nat := x.field Reg.PTP_CTL 0x0 1 0
def Cfg.TS_ETH_LAT_EGRESS_NS (x : Cfg) (e : Nat) : Nat := x.field (Reg.TS_ETH_LAT e) 0x0 31 16
def Cfg.TS_ETH_LAT_INGRESS_NS (x : Cfg) (e : Nat) : Nat := x.field (Reg.TS_ETH_LAT e) 0x0 15 0
def Cfg.TS_ETH_ASYM_ASYM_NS (x : Cfg) (e : Nat) : Nat := x.field (Reg.TS_ETH_ASYM e) 0x0 31 0
def Cfg.TS_RF_ADJ_TX_NS (x : Cfg) (p : Nat) : Nat := x.field (Reg.TS_RF_ADJ p) 0x0 31 16
def Cfg.TS_RF_ADJ_RX_NS (x : Cfg) (p : Nat) : Nat := x.field (Reg.TS_RF_ADJ p) 0x0 15 0
def Cfg.PPS_CTL_WIDTH_US (x : Cfg) : Nat := x.field Reg.PPS_CTL 0x3e80000 31 16
def Cfg.PPS_CTL_TOD_OUT (x : Cfg) : Nat := x.field Reg.PPS_CTL 0x3e80000 5 5
def Cfg.PPS_CTL_TOD_IN (x : Cfg) : Nat := x.field Reg.PPS_CTL 0x3e80000 4 4
def Cfg.PPS_CTL_OUT_FREE (x : Cfg) : Nat := x.field Reg.PPS_CTL 0x3e80000 3 3
def Cfg.PPS_CTL_OUT_EN (x : Cfg) : Nat := x.field Reg.PPS_CTL 0x3e80000 2 2
def Cfg.PPS_CTL_IN_POL (x : Cfg) : Nat := x.field Reg.PPS_CTL 0x3e80000 1 1
def Cfg.PPS_CTL_IN_EN (x : Cfg) : Nat := x.field Reg.PPS_CTL 0x3e80000 0 0
def Cfg.PPS_DELAY_OUT_NS (x : Cfg) : Nat := x.field Reg.PPS_DELAY 0x0 31 16
def Cfg.PPS_DELAY_IN_NS (x : Cfg) : Nat := x.field Reg.PPS_DELAY 0x0 15 0
def Cfg.ETH_CFG_EN (x : Cfg) (e : Nat) : Nat := x.field (Reg.ETH_CFG e) 0x40005f2 31 31
def Cfg.ETH_CFG_SPEED (x : Cfg) (e : Nat) : Nat := x.field (Reg.ETH_CFG e) 0x40005f2 30 28
def Cfg.ETH_CFG_RSFEC (x : Cfg) (e : Nat) : Nat := x.field (Reg.ETH_CFG e) 0x40005f2 27 27
def Cfg.ETH_CFG_AN (x : Cfg) (e : Nat) : Nat := x.field (Reg.ETH_CFG e) 0x40005f2 26 26
def Cfg.ETH_CFG_EEE (x : Cfg) (e : Nat) : Nat := x.field (Reg.ETH_CFG e) 0x40005f2 25 25
def Cfg.ETH_CFG_FLUSH_DOWN (x : Cfg) (e : Nat) : Nat := x.field (Reg.ETH_CFG e) 0x40005f2 24 24
def Cfg.ETH_CFG_MAX_FRAME (x : Cfg) (e : Nat) : Nat := x.field (Reg.ETH_CFG e) 0x40005f2 13 0
def Cfg.ETH_EEE_WAKE_NS (x : Cfg) (e : Nat) : Nat := x.field (Reg.ETH_EEE e) 0x3e800064 31 16
def Cfg.ETH_EEE_IDLE_US (x : Cfg) (e : Nat) : Nat := x.field (Reg.ETH_EEE e) 0x3e800064 15 0
def Cfg.ETH_MACSEC_TX_EN (x : Cfg) (e : Nat) : Nat := x.field (Reg.ETH_MACSEC e) 0x10000000 31 31
def Cfg.ETH_MACSEC_VALIDATE (x : Cfg) (e : Nat) : Nat := x.field (Reg.ETH_MACSEC e) 0x10000000 30 29
def Cfg.ETH_MACSEC_REPLAY_EN (x : Cfg) (e : Nat) : Nat := x.field (Reg.ETH_MACSEC e) 0x10000000 28 28
def Cfg.ETH_MACSEC_TX_AN (x : Cfg) (e : Nat) : Nat := x.field (Reg.ETH_MACSEC e) 0x10000000 27 26
def Cfg.ETH_MACSEC_REPLAY_WIN (x : Cfg) (e : Nat) : Nat := x.field (Reg.ETH_MACSEC e) 0x10000000 15 0
def Cfg.ETH_GATE_BASE_LO_BASE_LO (x : Cfg) : Nat := x.field Reg.ETH_GATE_BASE_LO 0x0 31 0
def Cfg.ETH_GATE_BASE_HI_BASE_HI (x : Cfg) : Nat := x.field Reg.ETH_GATE_BASE_HI 0x0 31 0
def Cfg.QL_CFG_EN (x : Cfg) (q : Nat) : Nat := x.field (Reg.QL_CFG q) 0x45064040 31 31
def Cfg.QL_CFG_MAX_LEVEL (x : Cfg) (q : Nat) : Nat := x.field (Reg.QL_CFG q) 0x45064040 30 29
def Cfg.QL_CFG_MIN_LEVEL (x : Cfg) (q : Nat) : Nat := x.field (Reg.QL_CFG q) 0x45064040 28 27
def Cfg.QL_CFG_UP_PCT (x : Cfg) (q : Nat) : Nat := x.field (Reg.QL_CFG q) 0x45064040 26 20
def Cfg.QL_CFG_DOWN_PCT (x : Cfg) (q : Nat) : Nat := x.field (Reg.QL_CFG q) 0x45064040 19 13
def Cfg.QL_CFG_DOWN_WIN (x : Cfg) (q : Nat) : Nat := x.field (Reg.QL_CFG q) 0x45064040 12 0
def Cfg.QL_ROUTE_VALID (x : Cfg) (i : Nat) : Nat := x.field (Reg.QL_ROUTE i) 0x7 31 31
def Cfg.QL_ROUTE_PORT (x : Cfg) (i : Nat) : Nat := x.field (Reg.QL_ROUTE i) 0x7 2 0
def Cfg.HOST_CTL_RX_STALL_US (x : Cfg) : Nat := x.field Reg.HOST_CTL 0x2710 19 0
def Cfg.HR_BASE_LO_BASE_LO (x : Cfg) (h : Nat) : Nat := x.field (Reg.HR_BASE_LO h) 0x0 31 12
def Cfg.HR_BASE_HI_BASE_HI (x : Cfg) (h : Nat) : Nat := x.field (Reg.HR_BASE_HI h) 0x0 31 0
def Cfg.HR_CTL_EN (x : Cfg) (h : Nat) : Nat := x.field (Reg.HR_CTL h) 0x20000000 31 31
def Cfg.HR_CTL_SIZE_LOG2 (x : Cfg) (h : Nat) : Nat := x.field (Reg.HR_CTL h) 0x20000000 30 27
def Cfg.HR_CTL_IRQ (x : Cfg) (h : Nat) : Nat := x.field (Reg.HR_CTL h) 0x20000000 26 26
def Cfg.HR_CTL_MOD_US (x : Cfg) (h : Nat) : Nat := x.field (Reg.HR_CTL h) 0x20000000 25 16
def Cfg.DISP_CTL_TAKE_TIMEOUT_US (x : Cfg) : Nat := x.field Reg.DISP_CTL 0x0 31 16
def Cfg.DISP_CTL_WATCHDOG_MS (x : Cfg) : Nat := x.field Reg.DISP_CTL 0x0 15 0
def Cfg.DISP_GROUP_WEIGHT (x : Cfg) (g : Nat) : Nat := x.field (Reg.DISP_GROUP g) 0x1001000 31 24
def Cfg.DISP_GROUP_LIMIT (x : Cfg) (g : Nat) : Nat := x.field (Reg.DISP_GROUP g) 0x1001000 12 0
def Cfg.PAIR_CTL_KA_MS (x : Cfg) : Nat := x.field Reg.PAIR_CTL 0x2021 23 16
def Cfg.PAIR_CTL_DUP_EPOCHS (x : Cfg) : Nat := x.field Reg.PAIR_CTL 0x2021 15 12
def Cfg.PAIR_CTL_HB_SLACK_US (x : Cfg) : Nat := x.field Reg.PAIR_CTL 0x2021 6 0
def Cfg.FAULT_CTL_QUAR_THRESH (x : Cfg) : Nat := x.field Reg.FAULT_CTL 0x10 7 0
def Cfg.CNT_CLEAR_SUBSYS (x : Cfg) : Nat := x.field Reg.CNT_CLEAR 0x0 19 0
def Cfg.THERM_CTL_WARN_C (x : Cfg) : Nat := x.field Reg.THERM_CTL 0x64 7 0
def Cfg.PAD_DRIVE_BOOT (x : Cfg) : Nat := x.field Reg.PAD_DRIVE 0x15 5 4
def Cfg.PAD_DRIVE_COEX (x : Cfg) : Nat := x.field Reg.PAD_DRIVE 0x15 3 2
def Cfg.PAD_DRIVE_FEM (x : Cfg) : Nat := x.field Reg.PAD_DRIVE 0x15 1 0

end Sys2Proof.Machine
end

