-- ==== Sys2Proof/Machine/State.lean ====
section
/-! DEFINITION. The state of the block as plain data: every register, FIFO, buffer, counter, mode and pin the spec gives
it, and the queue of the commands that wait. INVENTORY.md lists each piece with its rule and reset value. -/

namespace Sys2Proof.Machine

/-! ## Modes, epochs, staging and the snapshot -/

/-- Control mode (R40). -/
inductive Ctl where
  | standAlone | hosted | shelfMember
  deriving DecidableEq, Repr, Inhabited

/-- Redundancy mode (R40). -/
inductive Redund where
  | solo | active | standby | resync
  deriving DecidableEq, Repr, Inhabited

/-- Mesh phase (R40). -/
inductive Phase where
  | startUp | service | recovery | survey | test
  deriving DecidableEq, Repr, Inhabited

/-- The three mode groups (R40) and the start-up facts of MODE_STATUS (R41). -/
structure Modes where
  control : Ctl := .standAlone
  redund : Redund := .solo
  phase : Phase := .survey
  /-- SYS_RST_N is low, or the supply or thermal reset holds the device. -/
  inReset : Bool := false
  /-- The control-mode decision of R77 has been made. -/
  decided : Bool := false
  /-- The boot procedure of R549 has ended, so that R79 to R81 act at the next boundary. -/
  bootDone : Bool := false
  /-- The ROM image commit of R79, R80 or R81 is due at the first boundary. -/
  romDue : Bool := false
  /-- PCIE counts as in L0 (R504). -/
  link : LinkState := .detect
  /-- A shelf-root announcement was received in the window of R77. -/
  rootHeard : Bool := false
  /-- HOST_LINK_LOSS or SHELF_ROOT_LOSS has made Stand-alone due at the next boundary (R50). -/
  lossDue : Bool := false
  lossFrozen : Bool := false
  /-- Active to Solo is due at the next boundary (R50). -/
  soloDue : Bool := false
  soloFrozen : Bool := false
  /-- Solo to Active is due at the next boundary (R50). -/
  activeDue : Bool := false
  activeFrozen : Bool := false
  /-- Epochs spent in the ROM image's Start-up, for the automatic passage to Service (R50, R80). -/
  romDwell : Nat := 0
  /-- ROM_STARTUP_DWELL_END has made Service due at the next boundary. -/
  dwellDue : Bool := false
  provValid : Bool := false
  deriving DecidableEq, Repr, Inhabited

/-- The clock domains a boundary strobe reaches (R61, R62). -/
abbrev Dom := Domain

/-- The epoch controller (R54 to R59) and each domain's own epoch number (R63). -/
structure Epoch where
  num : Nat := 0
  numDsp : Nat := 0
  numPipe : Nat := 0
  numCore : Nat := 0
  numPcie : Nat := 0
  numSerdes : Nat := 0
  numLpddr : Nat := 0
  lenMs : Nat := 1024
  origin : Nat := 0
  /-- Device time at B of the current epoch, ns. -/
  start : Nat := 0
  frozen : Bool := false
  /-- EPOCH_NUM_HI latch (R59). -/
  numHi : BitVec 16 := 0
  /-- The next boundary instant on the device time scale, ns (R56). -/
  nextB : Nat := 1024000000
  /-- The length in force before a grid change that fell in this epoch (R553). -/
  gridOld : Option Nat := none
  /-- The domains that the strobe of the last boundary has not reached. -/
  strobes : List Domain := []
  deriving DecidableEq, Repr, Inhabited

/-- A command as accepted (R514): header, opcode, the variant of the opcode's row in the table, payload octets. -/
structure Cmd where
  hdr : Hdr
  op : Opcode
  sub : Nat := 0
  p : List Byte := []
  deriving DecidableEq, Repr

/-- Where an output of a step goes or what it is: what the outside world can observe of the last command beside the
state. The model's own record (assumption log). -/
inductive OutKind where
  | console | qlHost | coreReply | msix | spi | eth | ptp | tod | ql | mir | hostDma | ringEntry | ringIndex | air | ramp | symbols | alert | pps | cfgRead | smbus | frameLog
  deriving DecidableEq, Repr, Inhabited

/-- One output of the last command: kind, unit (port, ring, vector, core), octets. -/
structure Output where
  kind : OutKind
  idx : Nat := 0
  data : List Byte := []
  deriving DecidableEq, Repr, Inhabited

/-- A completion entry (R515); `src` says where it goes. -/
structure Completion where
  src : CmdPath
  opcode : Nat
  status : Status
  cmdId : W32
  epoch : Nat
  origin : Nat
  replayed : Bool
  result : List Byte
  deriving DecidableEq, Repr, Inhabited

/-- A staged command (R66): accepted, waiting for its boundary. -/
structure Staged where
  cmd : Cmd
  /-- AT_EPOCH and EFFECTIVE_EPOCH. -/
  atEpoch : Option Nat
  /-- Its freeze has passed: it applies at the next boundary. -/
  frozen : Bool
  deriving DecidableEq, Repr

/-- Staging (R8 to R11, R66 to R69, R620). -/
structure Staging where
  hold : Bool := false
  /-- ST values written and not yet frozen. -/
  regs : SMap W32 := []
  /-- ST values past their freeze: they apply at the strobes of the next boundary. -/
  frozenRegs : SMap W32 := []
  cmds : List Staged := []
  /-- Commands applied at this boundary whose completions the PCIE strobe posts (R68). -/
  done : List Completion := []
  deriving DecidableEq, Repr

/-- One WIN_SNAP buffer (R73): the epoch, PUB_SEQ, the SN values by WIN_CFG offset and the settings in force. -/
structure SnapBuf where
  epoch : Nat := 0
  pubSeq : Nat := 0
  vals : SMap Nat := []
  settings : SMap W32 := []
  /-- The neighbour records (R222), and the driver limit and LBT threshold of each port and sub-band (R119). -/
  nbrs : List Byte := []
  limits : List (Int × Int) := []
  deriving DecidableEq, Repr, Inhabited

/-- The snapshot controller (R72 to R76). -/
structure Snap where
  buf : Bool := false
  pubSeq : Nat := 0
  fill : Bool := false
  /-- The number of the epoch that the last boundary ended. -/
  ended : Nat := 0
  /-- SN values latched at the strobes of the last boundary (R60 step 3). -/
  latch : SMap Nat := []
  /-- The value of CNT_CLEAR that the last boundary applied; 0 where it applied none (R593). -/
  clear : Nat := 0
  /-- The neighbour records and the limits latched at the strobes of the last boundary. -/
  latchNbrs : List Byte := []
  latchLimits : List (Int × Int) := []
  latchTight : List W32 := []
  b0 : SnapBuf := {}
  b1 : SnapBuf := {}
  deriving DecidableEq, Repr, Inhabited

/-! ## Counters, violations, events, faults -/

/-- The live counters by WIN_CFG offset (R591), the SAT flags by subsystem, and the CNT_SAT value last latched. -/
structure Counters where
  live : SMap Nat := []
  /-- The epoch of the received frame whose command runs (R20), and the counts of frames that belong to the epoch whose values
  the next snapshot publishes but came after that epoch's latch. -/
  frame : Option Nat := none
  late : SMap Nat := []
  sat : BitVec 20 := 0
  satLatched : BitVec 20 := 0
  deriving DecidableEq, Repr, Inhabited

/-- A violation log entry (R584); code 1 is LOG_OVERFLOW (R585). -/
structure VioEntry where
  code : Nat
  partner : Nat
  suppressed : Nat
  seq : W32
  epoch : Nat
  time : Nat
  detail : List Byte
  deriving DecidableEq, Repr, Inhabited

/-- The violation log, its sequence number, the rate limiter of R581 and R584 (by code: time of the last logged entry
plus 1, and occurrences suppressed since), and the tally of R582 (by node slot). -/
structure VioState where
  seq : W32 := 0
  log : List VioEntry := []
  lastNs : SMap Nat := []
  suppressed : SMap Nat := []
  tally : SMap Nat := []
  deriving DecidableEq, Repr, Inhabited

/-- An event entry (R524). -/
structure Event where
  code : EvCode
  seq : W32
  epoch : Nat
  time : Nat
  data : List Byte
  /-- The member chip that raised it, where that is another one (R532). -/
  origin : Option Nat := none
  deriving DecidableEq, Repr, Inhabited

/-- Event staging (R525): the entries waiting for ring 2, the sequence number, and the discards since the last
EVT_OVERFLOW. -/
structure EvState where
  seq : W32 := 0
  staging : List Event := []
  lost : Nat := 0
  deriving DecidableEq, Repr, Inhabited

/-- Fatal-fault state (R590) and the keeper's view of it. -/
structure Faults where
  fatal : Bool := false
  cause : Nat := 0
  deriving DecidableEq, Repr, Inhabited

/-! ## Host interface and service cores -/

/-- A ring's live indexes and phase (R510, R513), and its MSI-X moderation (R507). -/
structure Ring where
  hostIdx : BitVec 16 := 0
  devIdx : BitVec 16 := 0
  phase : Bool := true
  inInterval : Bool := false
  deferred : Bool := false
  deriving DecidableEq, Repr, Inhabited

/-- A stored completion of the replay history (R519): source, command, completion. -/
structure Hist where
  src : CmdPath
  cmdId : W32
  cpl : Completion
  deriving DecidableEq, Repr

/-- The host interface: rings (R510), the ring-1 and ring-2 entries the device has written, by slot, each with its PHASE (R513, R515, R524),
command history and commands in flight (R519), reservations in ring 1 (R517). -/
structure HostIf where
  rings : SMap Ring := []
  ring1 : SMap (Completion × Bool) := []
  ring2 : SMap (Event × Bool) := []
  /-- The MSI-X table's words (R505). -/
  msixTable : SMap W32 := []
  hist : List Hist := []
  inflight : List Cmd := []
  /-- Doorbells rung on ring 0 whose commands have not been fetched (R517). -/
  unfetched : Nat := 0
  /-- The head packet of a receive ring waits for descriptors: since when, and its class (R531). -/
  rxWait : SMap (Nat × Nat) := []
  /-- The host DMA's descriptor caches (R33): what the last fetch of a transmit ring read, and buffer lengths of a receive
  ring. -/
  txDescs : SMap (List TxDesc) := []
  rxDescs : SMap (List Nat) := []
  /-- CMD_IDs of ring 0 that were accepted before a function-level reset and have not completed: their completions are
  discarded (R508). -/
  forgotten : List W32 := []
  deriving DecidableEq, Repr

/-- Task states (R535 to R542). -/
inductive TaskSt where
  | free | held | ready | dispatched
  deriving DecidableEq, Repr, Inhabited

/-- A dispatcher task slot: the generation of its handle, its state, descriptor, producer, order of becoming READY and
the core that took it. -/
structure Task where
  st : TaskSt := .free
  gen : Nat := 0
  fn : W32 := 0
  group : Nat := 0
  prio : Nat := 0
  cores : Nat := 0
  arg : W64 := 0
  producer : Nat := 0
  order : Nat := 0
  taker : Nat := 0
  deriving DecidableEq, Repr, Inhabited

/-- One entry of a core's completion queue (R536 CPL). -/
structure TaskCpl where
  handle : Nat
  status : Status
  result : W32
  deriving DecidableEq, Repr, Inhabited

/-- A core's dispatcher port (R536): RESULT, ARG, its completion queue, and whether it waits in TAKE (R540). -/
structure CorePort where
  resHandle : Nat := 0
  resStatus : Nat := 0
  arg : W64 := 0
  cpl : List TaskCpl := []
  waiting : Bool := false
  /-- The value of the last TAKE that returned: handle, FN. -/
  takeHandle : Nat := 0
  takeFn : W32 := 0
  deriving DecidableEq, Repr, Inhabited

/-- The task dispatcher (R535 to R542). -/
structure Disp where
  slots : SMap Task := []
  ports : SMap CorePort := []
  credit : SMap Nat := []
  lastGroup : Nat := 7
  readySeq : Nat := 0
  /-- The service cores' local SRAM, by world (R33, R533), and LPDDR as the cores use it (R34), by octet; an octet that nothing
  has written reads 0 (DESIGN CHOICE, log entry 159). -/
  sram : SMap Byte := []
  dram : SMap Byte := []
  deriving DecidableEq, Repr, Inhabited

/-! ## Radio ports and the Cinnabar block -/

/-- Port states with the codes of R85. -/
inductive PortState where
  | off | stby | idle | rx | tx | cal | retune | txpre
  deriving DecidableEq, Repr, Inhabited

/-- Where a port stands in a transmission's return to RX (R99 steps 4 to 6) or in another multi-step change. -/
inductive PortStep where
  | none
  /-- After E: the lines hold the IDLE map until E + 24 us. -/
  | returning
  /-- STBY to IDLE to RX after the gate has opened again (R547). -/
  | reopening
  /-- STBY to IDLE with coefficients kept (R86): RX waits for its instruction. -/
  | locking
  deriving DecidableEq, Repr, Inhabited

/-- A calibration run (R90): the calibrations left, those already retried, those failed, and whether it is the
start-up run or a host command's. -/
structure CalRun where
  left : List Nat
  retried : Bool
  failed : Nat
  startup : Bool
  host : Option Cmd
  deriving DecidableEq, Repr

/-- A FEM SPI transaction (R100 to R102). -/
structure SpiTxn where
  word : W32
  read : Bool
  host : Option Cmd
  attempt : Nat
  deriving DecidableEq, Repr

/-- A transmit stamp record (R191). -/
structure Stamp where
  time : Nat
  tag : W32
  seq : Nat
  carrier : Nat
  flags : Nat
  deriving DecidableEq, Repr, Inhabited

/-- A receive-log record (R157). -/
structure RxRecord where
  syncTime : Nat := 0
  epoch : Nat := 0
  seq : Nat := 0
  phrLen : Nat := 0
  present : Nat := 0
  rssi : Int := 0
  snr : Int := 0
  lqi : Nat := 0
  foff : Int := 0
  flags : Nat := 0
  lane : Nat := 0
  mode : Nat := 0
  outcome : Nat := 0
  aux : Nat := 0
  deriving DecidableEq, Repr, Inhabited

/-- An instruction that R260 defers until the port is in RX. -/
inductive SeqDeferred where
  | rx
  | retune (home : Bool) (khz : Nat)
  | cal (window sel : Nat)
  deriving DecidableEq, Repr, Inhabited

/-- One radio port (R85 to R115): state, synthesiser, calibration, FEM lines and SPI, coexistence lines, AGC, receive
log and transmit-stamp queue. -/
structure Port where
  st : PortState := .off
  step : PortStep := .none
  locked : Bool := false
  fault : Bool := false
  /-- A start-up calibration failed: held in STBY (R92). -/
  calHold : Bool := false
  calFail : Bool := false
  tempDue : Bool := false
  centre : Nat := 0
  /-- The centre a running RETUNE goes to. -/
  target : Nat := 0
  /-- A RETUNE waits for RX (R260 CENTRE_PENDING). -/
  pendCentre : Option Nat := Option.none
  /-- A RETUNE or CAL deferred until the port is in RX (R260). -/
  deferred : List SeqDeferred := []
  home : Nat := 0
  /-- Temperature of the last measurement (R93), and at the last RX_GAIN calibration (CAL_STATUS.TEMP_C). -/
  tempC : Int := 0
  calTempC : Int := 0
  /-- Temperature at the last TX_GAIN calibration (R93). -/
  calTxTempC : Int := 0
  calDone : Nat := 0
  calFailed : Nat := 0
  coeffs : Bool := false
  cal : Option CalRun := Option.none
  femLines : Byte := 0
  /-- The map of the next step of R99 has come, its lead having begun; and the elapsed ns at which it comes. -/
  femLead : Bool := false
  femLeadAt : Option Nat := Option.none
  spi : Option SpiTxn := Option.none
  /-- Transactions that wait, the sequencer's and those of CMD_FEM_SPI, oldest first (R101). -/
  spiWait : List W32 := []
  spiHost : List SpiTxn := []
  req : Bool := false
  pri : Bool := false
  rxp : Bool := false
  gnt : Bool := false
  driver : Bool := false
  /-- Elapsed ns at which the port last entered RX (R196). -/
  rxSince : Nat := 0
  agcIndex : Nat := 15
  agcPeak : Nat := 0
  agcHeld : Bool := false
  rxlog : SMap RxRecord := []
  /-- The stored PSDU octets of the log's records, by SEQ. -/
  rxData : SMap (List Byte) := []
  /-- Elapsed ns at t0 and at the sync word of the RX_OK records, by SEQ (R204, R209). -/
  rxT0 : SMap Nat := []
  rxSync : SMap Nat := []
  /-- SEQs of the records that RX_RECORD_DECIDE has taken (the model's own). -/
  decided : List Nat := []
  nextSeq : Nat := 0
  txSeq : Nat := 0
  stamps : List Stamp := []
  /-- Lanes and carriers whose exchange ends when the port is back in RX (R64). -/
  exchLanes : List Nat := []
  exchCars : List Nat := []
  /-- The elapsed ns at which these exchanges end while the port stays in TX: carrier c at c, lane l at 16 + l (R64, R199). -/
  exchAt : SMap Nat := []
  /-- Carriers whose grant was denied, with the elapsed ns of their E, S + 40 µs (R105). -/
  denied : SMap Nat := []
  /-- REQ and PRI are held from E until REQ_HOLD has passed (R103 step 5). -/
  reqHold : Bool := false
  deriving DecidableEq, Repr

/-- A sub-band entry in force (R118, R124). -/
structure SubBand where
  fLo : Nat := 0
  fHi : Nat := 0
  maxEirp : Int := 0
  duty : Nat := 0
  lbtThresh : Int := 0
  lbtListen : Nat := 0
  valid : Bool := false
  lbtReq : Bool := false
  disabled : Bool := false
  deriving DecidableEq, Repr, Inhabited

/-- A port entry of the Cinnabar block (R117). -/
structure CinPort where
  aerialGain : Int := 0
  cableLoss : Nat := 0
  femTxGain : Int := 0
  femRxGain : Int := 0
  linear : Bool := false
  txPermitted : Bool := false
  deriving DecidableEq, Repr, Inhabited

/-- The Cinnabar block (R116 to R126): staging words, the limits in force with their tightenings, and which sub-bands
have raised EVT_SUBBAND_DISABLED since reset. The OTP slots are in Otp. -/
structure Cin where
  stage : SMap W32 := []
  locked : Bool := false
  slot : Nat := 0
  region : Nat := 0
  numSb : Nat := 0
  dutyWindow : Nat := 0
  ports : SMap CinPort := []
  sb : SMap SubBand := []
  disabledEvt : List Nat := []
  deriving DecidableEq, Repr, Inhabited

/-! ## Receive lanes -/

/-- Lane states (R141). -/
inductive LaneState where
  | parked | blanked | search | preamble | header | payload | close
  deriving DecidableEq, Repr, Inhabited

/-- The frame a lane is receiving: what it latched at the sync word (R142, R151 to R154, R160) and after. -/
structure RxFrame where
  eRef : Int := 0
  latched : Bool := false
  rssi : Int := 0
  snr : Int := 0
  foff : Int := 0
  syncTime : Nat := 0
  /-- Elapsed ns at the sync word, for the octets received at an abandonment (R619). -/
  syncUp : Nat := 0
  epoch : Nat := 0
  seq : Nat := 0
  port : Nat := 0
  gainIdx : Nat := 0
  tempDue : Bool := false
  captured : Bool := false
  /-- Elapsed ns of the capture that began it (R145). -/
  capUp : Option Nat := none
  gainStepped : Bool := false
  forcedStep : Bool := false
  coded : Bool := false
  fcs2 : Bool := false
  whitened : Bool := false
  len : Nat := 0
  buffered : Bool := false
  psdu : List Byte := []
  deriving DecidableEq, Repr, Inhabited

/-- The settings that a lane keeps until the end of its exchange while others are in force (R64, R132, R256): its port,
LANE_CFG, channel and mode. -/
structure LaneHold where
  port : Option Nat
  cfg : Nat
  khz : Nat
  mode : Nat
  deriving DecidableEq, Repr, Inhabited

/-- One receive lane: state, the values LFREQ and LMODE put in force (R250, R256), the settings it keeps for an exchange
(R64, R132), and the frame under reception. -/
structure Lane where
  st : LaneState := .parked
  outOfWindow : Bool := false
  cfgErr : Bool := false
  freqOv : Option Nat := none
  modeOv : Option Nat := none
  /-- An RX_OK frame's exchange runs: until its decision, or its acknowledgement's end (R64). -/
  exch : Bool := false
  held : Option LaneHold := none
  rx : RxFrame := {}
  /-- The lane spent time in SEARCH this epoch (R155). -/
  searched : Bool := false
  noise : Nat := 0x8000
  /-- Elapsed ns from which the lane has been in SEARCH or in frame without a break on its channel and mode (R223). -/
  liveSince : Nat := 0
  /-- A new preamble came as the frame's last symbol ended: it starts a reception when the record is written (R145). -/
  nextE : Option Int := none
  /-- The last reception past its sync word: elapsed ns at its end, channel and spacing (R196). -/
  lastRx : Option (Nat × Nat × Nat) := none
  deriving DecidableEq, Repr, Inhabited

/-! ## Frames toward nodes -/

/-- What a transmitted frame is (R178, R208, R214, R220). -/
inductive TxKind where
  | data | bulk | assoc | ack | enhAck | beacon | test
  deriving DecidableEq, Repr, Inhabited

/-- The Mesh IE (R287, R288). -/
structure MeshIe where
  kind : Nat := 0
  ttl : Nat := 0
  hops : Nat := 0
  origin : Nat := 0
  target : Nat := 0
  cell : Nat := 0
  floodId : Nat := 0
  hopList : List Nat := []
  deriving DecidableEq, Repr, Inhabited

/-- What the copies of one packet share (R211, R304, R309, R384): sequence number, Mesh IE, FLOOD_ID, frame counter and
ciphertext. -/
structure Shared where
  dsn : Option Nat := none
  mesh : Option MeshIe := none
  floodId : Option Nat := none
  fc : Option Nat := none
  cipher : Option (List Byte) := none
  /-- A flood identifier is reserved (R305). -/
  reserved : Bool := false
  /-- Copies not yet gone. -/
  copies : Nat := 1
  deriving DecidableEq, Repr, Inhabited

/-- A frame bound for an aerial. -/
structure TxFrame where
  /-- Tells the frames of the air queues apart (the model's own). -/
  uid : Nat := 0
  kind : TxKind := .data
  pan : Nat := 0
  /-- LOC of the target node's entry; 0xFFFF for none. -/
  loc : Nat := 0xFFFF
  dst : Nat := 0xFFFF
  eui : W64 := 0
  payload : List Byte := []
  ar : Bool := false
  tsReq : Bool := false
  power : Option Int := none
  tag : W32 := 0
  cls : Nat := 0
  grp : Nat := 0
  /-- What the frame fixed at its first transmission, where it has no copies (grp 0). -/
  sh : Shared := {}
  /-- The target is beyond one hop (R304). -/
  multiHop : Bool := false
  retries : Nat := 0
  caf : Nat := 0
  /-- It has left its queue once: Q_DEQ and the shapers were charged (R394). -/
  dequeued : Bool := false
  /-- The derived key requested at release, and the KEY_EPOCH it belongs to (R24 step 4, R436, R438). -/
  key : List Byte := []
  keyEpoch : Nat := 0
  /-- PSDU octets as it will be sent, set at release. -/
  psduLen : Nat := 0
  seqNo : Nat := 0
  fcs2 : Bool := false
  coded : Bool := false
  chargedAcct : Option Nat := none
  chargedBin : Nat := 0
  chargedUs : Nat := 0
  stampSeq : Option Nat := none
  clamped : Bool := false
  granted : Int := 0
  durUs : Nat := 0
  nextBcn : Nat := 0
  version : Nat := 0
  /-- Frame pending, and what an Enh-Ack carries (R208): security, RSSI, LQI and EPOCH of the acknowledged frame. -/
  pending : Bool := false
  secured : Bool := false
  rssi : Int := 0
  lqi : Nat := 0
  epochLo : Nat := 0
  /-- Requested power, 0.25 dBm, as resolved at admission (R175). -/
  reqPwr : Int := 0
  /-- SIGNAL and LENGTH of a test transmission (R192). -/
  testSig : Nat := 0
  testLen : Nat := 0
  /-- Hit by an uncorrectable error in the packet buffer (R588). -/
  bad : Bool := false
  /-- The epoch in which it found no flood identifier; it waits for the next one (R305). -/
  capEpoch : Option Nat := none
  deriving DecidableEq, Repr, Inhabited

/-- Where a transmission stands. -/
inductive TxPhase where
  | idle
  /-- Waits for synthesiser lock (R95). -/
  | waitLock
  /-- Counts down a backoff (R197). -/
  | backoff
  /-- A CCA runs. -/
  | cca
  /-- An acknowledgement or indirect response waits for its decision instant S (R207, R213). -/
  | sched
  /-- The transition that starts at S runs; G has not come (R24). -/
  | txpre
  /-- G has come; the ramp-up has not started. -/
  | granted
  /-- From ramp-up start to ramp-down end. -/
  | onAir
  /-- The ack wait runs (R209). -/
  | ackWait
  deriving DecidableEq, Repr, Inhabited

/-- A transmission under way on a carrier: the frame, the air queue it came from, its channel access, its power, and the
ack wait. -/
structure Tx where
  phase : TxPhase := .idle
  cur : Option TxFrame := none
  queue : Option Nat := none
  nb : Nat := 0
  be : Nat := 0
  /-- The backoff drawn, µs. -/
  wait : Nat := 0
  /-- Something has made the running CCA busy (R196). -/
  busy : Bool := false
  granted : Int := 0
  /-- Start of the ramp-up and of the ack wait, device time and elapsed ns. -/
  rampNs : Nat := 0
  waitUp : Nat := 0
  /-- The ack wait has ended; SEQs of the receptions that latched within it and still run (R209). -/
  waitOver : Bool := false
  waitFor : List Nat := []
  /-- A revoked grant has begun the ramp-down (R106). -/
  aborted : Bool := false
  /-- The frame has waited for synthesiser lock (R95). -/
  late : Bool := false
  /-- REQ has risen for it at its fire tick (R103 step 1); and elapsed ns at its decision instant S. -/
  early : Bool := false
  decideUp : Nat := 0
  deriving DecidableEq, Repr, Inhabited

/-- A carrier held by an acknowledgement (R206, R213): the lane whose channel and mode it took, its transmission, and the
polling node of an indirect response. -/
structure Hold where
  lane : Nat := 0
  khz : Nat := 0
  mode : Nat := 0
  tx : Tx := {}
  /-- PAN and LOC or EUI-64 of the node whose Data request the acknowledgement answers (R213). -/
  poll : Option (Nat × W64) := none
  /-- The gap before the indirect response runs. -/
  gap : Bool := false
  deriving DecidableEq, Repr, Inhabited

/-- An open slot or contention window (R239, R244). -/
structure Slot where
  win : Bool := false
  classes : Nat := 0
  cca : Bool := false
  multi : Bool := false
  openTick : Nat := 0
  close : Nat := 0
  released : Bool := false
  noMore : Bool := false
  /-- A window's classes whose head frame waits for the next window (R198). -/
  blocked : Nat := 0
  deriving DecidableEq, Repr, Inhabited

/-- The settings that a carrier keeps until the end of its exchange (R64): TXC_CFG, channel, mode and default power. -/
structure CarHold where
  cfg : Nat
  khz : Nat
  mode : Nat
  pwr : Nat
  deriving DecidableEq, Repr, Inhabited

/-- One transmit carrier (R170 to R194): its own transmission, the acknowledgement that holds it, its slot, the values
that CSET and CMODE put in force, and those that wait for the end of its exchange. -/
structure Carrier where
  own : Tx := {}
  hold : Option Hold := none
  slot : Option Slot := none
  freqOv : Option Nat := none
  modeOv : Option Nat := none
  deferFreq : Option Nat := none
  deferMode : Option Nat := none
  held : Option CarHold := none
  /-- A beacon slot's close, tick. -/
  bcnClose : Nat := 0
  /-- The host command of a test transmission, its duration, and its channel. -/
  test : Option Cmd := none
  testKhz : Option Nat := none
  /-- The granted power of a test transmission that has ended, whose port is not yet back in RX (R193). -/
  testPwr : Option Int := none
  /-- The port of a test transmission. -/
  testPort : Nat := 4
  deriving DecidableEq, Repr

/-- Duty accounts (R183 to R188): bins keyed account × 61 + bin, with account 12 p + s, or 48 + n for carrier n of an
unlocked device; the current bin; each account's charge in the current and the last epoch. -/
structure Duty where
  bins : SMap Nat := []
  cur : Nat := 0
  epochCharge : SMap Nat := []
  lastCharge : SMap Nat := []
  /-- Accounts that have raised EVT_DUTY_EXHAUSTED this epoch (R180). -/
  evtDone : List Nat := []
  deriving DecidableEq, Repr, Inhabited

/-! ## Medium access and membership -/

/-- A frame decided under decision 13 whose frame-counter check has not completed (R204). -/
structure InFlightRx where
  pan : Nat
  src : Nat
  seq : Nat
  fc : Nat
  deriving DecidableEq, Repr, Inhabited

/-- A received copy waiting in a copy group (R204). -/
structure Copy where
  port : Nat
  recSeq : Nat
  rssi : Int
  t0 : Nat
  deriving DecidableEq, Repr, Inhabited

/-- A received frame under decision: what the MAC header says and its record (R201, R202, R292). -/
structure RxMac where
  ftype : Nat := 0
  version : Nat := 0
  ar : Bool := false
  secured : Bool := false
  /-- 0 absent, 2 short, 3 extended. -/
  dstMode : Nat := 0
  dstPan : Nat := 0
  dst : Nat := 0
  srcMode : Nat := 0
  srcPan : Nat := 0
  src : Nat := 0
  seq : Nat := 0
  secLevel : Nat := 0
  keyIdMode : Nat := 0
  keyIndex : Nat := 0
  fc : Option Nat := none
  cmd : Nat := 0
  mesh : Option MeshIe := none
  meshBad : Bool := false
  payload : List Byte := []
  aad : List Byte := []
  /-- A PAN ID is carried for the destination (R202). -/
  panHere : Bool := false
  /-- The header IEs: element ID and content. -/
  ies : List (Nat × List Byte) := []
  deriving DecidableEq, Repr, Inhabited

/-- What a derived key is for (R419): node key with direction, beacon key, bulk key. -/
inductive Purpose where
  | up | down | beacon | bulk
  deriving DecidableEq, Repr, Inhabited

/-- The tag of a derived key (R428): parent slot and its GEN, purpose, EUI-64 or PAN_ID, key epoch. -/
structure KeyTag where
  slot : Nat
  gen : Nat
  purpose : Purpose
  ident : Nat
  epoch : Nat
  deriving DecidableEq, Repr, Inhabited

/-- A frame that has entered decision and waits for its group's decision (COPY_GROUP_CLOSE), or for CCM*. -/
structure RxPending where
  mac : RxMac
  pan : Nat
  /-- LOC of the source's entry, where one is found. -/
  loc : Option Nat
  rcd : RxRecord
  port : Nat
  /-- It came over QZ-Link (R203). -/
  shelf : Bool
  copies : List Copy
  /-- The uplink key, and whether its slot was usable, when the key request was accepted (R432 check 3, R438). -/
  key : List Byte := []
  keyOk : Bool := false
  /-- Check 2 of R432 held then, and the tag of that request (R64, R436). -/
  indexOk : Bool := false
  keyTag : Option KeyTag := none
  deriving DecidableEq, Repr

/-- A request pending under POLICY HOST (R215). -/
structure AssocReq where
  pan : Nat
  eui : W64
  fcs2 : Bool
  version : Nat
  deriving DecidableEq, Repr, Inhabited

/-- A frame in the indirect queue (R212). -/
structure Indirect where
  frame : TxFrame
  pan : Nat
  eui : W64
  loc : Nat
  inExch : Bool
  expired : Bool
  deriving DecidableEq, Repr, Inhabited

/-- A neighbour-table entry (R222) with the instant of the next expected beacon (R223). -/
structure Nbr where
  valid : Bool := false
  eui : W64 := 0
  panId : Nat := 0
  chip : Nat := 0
  lost : Bool := false
  timeRef : Bool := false
  learned : Bool := false
  misses : Nat := 0
  rssi : Int := 0
  syncTime : Nat := 0
  theirEpoch : Nat := 0
  lane : Nat := 0
  nextBcnMs : Nat := 0xFFFF
  /-- X of R223, ns. -/
  expect : Nat := 0
  heardInWindow : Bool := false
  /-- Channel and mode of the last beacon (R223). -/
  khz : Nat := 0
  mode : Nat := 0
  /-- SYNC_TIME and TX_TIME of the last counting beacon (R473). -/
  countSync : Nat := 0
  countTx : Nat := 0
  /-- What Network time keeps of the neighbour's last Time IE (R471 to R473). -/
  src : Nat := 3
  hops : Nat := 0xFF
  err : Nat := 0xFFFF
  secured : Bool := false
  holdover : Bool := false
  deriving DecidableEq, Repr, Inhabited

/-- Membership state of one PAN: sequence numbers, the addresses in use or in hold, the cursor (R211, R216, R220). -/
structure Pan where
  dsn : Nat := 0
  bsn : Nat := 0
  /-- Addresses out of the free map because an entry holds them. -/
  used : SMap Bool := []
  /-- Addresses released outside the pool: they never return to the free map (R216). -/
  retired : SMap Bool := []
  /-- Release hold: address to the epoch at which it is free again (R216). -/
  hold : SMap Nat := []
  cursor : Nat := 0xFFFF
  /-- PAN_FREE at the last boundary. -/
  free : Nat := 0
  /-- NEXT_ID, identifiers taken this epoch and reservations open (R305). -/
  nextFlood : Nat := 0
  floodTaken : Nat := 0
  floodRsv : Nat := 0
  maxHop : Nat := 0
  /-- datagram_tag counter (R382). -/
  fragTag : Nat := 0
  /-- PAN frame counter of the PAN's own keys (R434). -/
  fc : Nat := 0
  deriving DecidableEq, Repr, Inhabited

/-- The air-access engine (R195 to R228). -/
structure Air where
  pans : SMap Pan := []
  inflight : List InFlightRx := []
  groups : List RxPending := []
  /-- Frames accepted under decision 13 that wait for their key and CCM* (R19 step 6). -/
  ccm : List RxPending := []
  indirect : List Indirect := []
  assoc : List AssocReq := []
  nbrs : SMap Nbr := []
  /-- The next group number and frame number (the model's own). -/
  nextGrp : Nat := 1
  nextUid : Nat := 1
  shared : SMap Shared := []
  /-- Disassociations that delete their entry at the next boundary (R217): node slots. -/
  leaving : List Nat := []
  /-- Entries whose delete waits for the in-flight list (R333): node slots. -/
  removing : List Nat := []
  /-- Deletes among them whose commands complete with the entry's final fields (R333): slot and command. -/
  deleting : List (Nat × Cmd) := []
  /-- The learning filter (R337): PAN, source, epoch of the last event, oldest first. -/
  learn : List (Nat × Nat × Nat) := []
  deriving DecidableEq, Repr

/-! ## Sequencers -/

/-- One slot sequencer (R229 to R261). -/
structure Seq where
  stopped : Bool := true
  bank : Bool := false
  act : SMap W64 := []
  staged : SMap W64 := []
  pc : Nat := 0
  inTail : Bool := false
  cut : Option Nat := none
  endTick : Nat := 0
  usable : SMap Nat := []
  peekStaged : Bool := false
  peekIndex : Nat := 0
  peekHi : W32 := 0
  /-- A COND chose sequence A (true) or B; pairs left of its block (R253). -/
  condA : Bool := true
  condLeft : Nat := 0
  /-- N of the COND whose block runs. -/
  condN : Nat := 0
  /-- Tick of the instruction issued last in this epoch (R178, R244). -/
  tickNow : Option Nat := none
  deriving DecidableEq, Repr, Inhabited

/-! ## Vat images -/

/-- A parsed Vat image (R262 to R271). -/
structure VatImage where
  /-- The image's octets: the copy that the device keeps in LPDDR (R588). -/
  raw : List Byte := []
  epochLen : Nat := 1024
  phases : Nat := 0
  planId : Nat := 0
  rom : Bool := false
  digest : List Byte := []
  banks : SMap (List Nat) := []
  /-- HOME_KHZ and ENABLE of each port. -/
  homes : SMap (Nat × Nat) := []
  groups : List Nat := []
  lanes : List (Nat × Nat) := []
  carriers : List (Nat × Nat × Nat) := []
  portTx : List (Nat × Nat) := []
  /-- Action programs: PROG_ID to PASSES and words. -/
  progs : SMap (Nat × List Nat) := []
  /-- Gate lists per Ethernet port: CYCLE_8NS, entries of (INTERVAL_8NS, GATES). -/
  gates : List (Nat × List (Nat × Nat)) := []
  queues : List (List Byte) := []
  shapers : List (List Byte) := []
  policers : List (List Byte) := []
  deriving DecidableEq, Repr, Inhabited

/-- Image loading and the image in force (R274 to R283). -/
structure Vat where
  inForce : Option VatImage := none
  staged : Option VatImage := none
  /-- CMD_VAT_LOAD whose copy or verification runs, with the octets copied so far. -/
  loading : Option Cmd := none
  area : List Byte := []
  verifying : Bool := false
  lastCheck : Nat := 0
  lastSection : Nat := 0
  refuse : Nat := 0
  /-- A commit at B waits for the PIPE strobe and for the DSP strobe (R61, R282). -/
  pipeDue : Bool := false
  dspDue : Bool := false
  deriving DecidableEq, Repr

/-! ## Tables -/

/-- A node entry (R317). -/
structure NodeEntry where
  eui : W64 := 0
  short : Nat := 0xFFFE
  loc : Nat := 0
  pan : Nat := 0
  valid : Bool := false
  preplaced : Bool := false
  pinned : Bool := false
  quarantine : Bool := false
  adopted : Bool := false
  hintless : Bool := false
  qreason : Nat := 0
  fcNone : Bool := false
  lastSeq : Nat := 0
  hopDist : Nat := 0
  lastFc : Nat := 0
  dlFc : Nat := 0
  keySlot : Nat := 0
  keyEpoch : Nat := 0
  hopMin : Nat := 0
  airClass : Nat := 0
  policer : Nat := 0
  touch : Nat := 0
  setEpoch : Nat := 0
  user : W64 := 0
  /-- The epoch from whose boundary the entry has aged (R339), until the sweep clears it (R340). -/
  aged : Option Nat := none
  /-- Frames of the entry carry POSSIBLE_DUP until the next boundary (R588). -/
  dup : Bool := false
  deriving DecidableEq, Repr, Inhabited

/-- A hint of the EUI index (R320). -/
structure Hint where
  fp : Nat := 0
  loc : Nat := 0
  pan : Nat := 0
  valid : Bool := false
  deriving DecidableEq, Repr, Inhabited

/-- A route entry (R325). -/
structure RouteEntry where
  pan : Nat := 0
  valid : Bool := false
  quarantine : Bool := false
  mark : Bool := false
  target : Nat := 0
  expires : Nat := 0
  setEpoch : Nat := 0
  hopList : List Nat := []
  deriving DecidableEq, Repr, Inhabited

/-- A prefix entry (R327). -/
structure PrefixEntry where
  pfx : List Byte := []
  len : Nat := 0
  valid : Bool := false
  quarantine : Bool := false
  mark : Bool := false
  kind : Nat := 0
  context : Nat := 0
  target : Nat := 0
  prog : Nat := 0
  cls : Nat := 0
  setEpoch : Nat := 0
  user : List Byte := []
  deriving DecidableEq, Repr, Inhabited

/-- A seen-cache entry (R299). -/
structure SeenEntry where
  panId : Nat := 0
  origin : Nat := 0
  cell : Nat := 0
  floodId : Nat := 0
  kind : Nat := 0
  valid : Bool := false
  accepted : Bool := false
  forwarded : Bool := false
  originated : Bool := false
  lastEpoch : Nat := 0
  minHops : Nat := 0
  ports : Nat := 0
  copies : Nat := 0
  deriving DecidableEq, Repr, Inhabited

/-- One bank of the node table with its EUI index: entries by slot (R316), hints by bucket × 8 + place (R320). -/
structure NodeBank where
  slots : SMap NodeEntry := []
  hints : SMap Hint := []
  seed : W64 := 0
  deriving DecidableEq, Repr, Inhabited

/-- One bank of the route table: entries by bucket × 2 + place. -/
structure RouteBank where
  slots : SMap RouteEntry := []
  seed : W64 := 0
  deriving DecidableEq, Repr, Inhabited

/-- One bank of the prefix table: entries by bucket × 2 + place. -/
structure PrefixBank where
  slots : SMap PrefixEntry := []
  seed : W64 := 0
  deriving DecidableEq, Repr, Inhabited

/-- One bank of the seen-cache: entries by bucket × 4 + place. -/
structure SeenBank where
  slots : SMap SeenEntry := []
  seed : W64 := 0
  deriving DecidableEq, Repr, Inhabited

/-- A rebuild of one table (R341 to R346). -/
inductive Rebuild where
  | idle | copying | ready | swapPending
  deriving DecidableEq, Repr, Inhabited

/-- The rebuild of one table: its state, the slots still to copy, and the second-bank writes that wait (R344). -/
structure RebuildSt where
  st : Rebuild := .idle
  left : List Nat := []
  queue : List Nat := []
  /-- The last rebuild failed (R344). -/
  failed : Bool := false
  deriving DecidableEq, Repr, Inhabited

/-- Verdigris (R349, R350): the table and record it stands at, mismatches of this pass, the last pass's, passes, and
the events raised this epoch. -/
structure Verdigris where
  table : Nat := 0
  index : Nat := 0
  marking : Bool := true
  mismatches : Nat := 0
  lastMismatch : Nat := 0
  passes : Nat := 0
  events : Nat := 0
  /-- The millisecond of the last comparison and the comparisons in it (R352). -/
  ms : Nat := 0
  done : Nat := 0
  deriving DecidableEq, Repr, Inhabited

/-- The table engine (R312 to R357) and the seen-cache (R299). -/
structure Tables where
  node : NodeBank := {}
  nodeStaged : NodeBank := {}
  route : RouteBank := {}
  routeStaged : RouteBank := {}
  pfx : PrefixBank := {}
  pfxStaged : PrefixBank := {}
  /-- The length set in force, descending (R328). -/
  lens : List Nat := []
  seen : SeenBank := {}
  seenOld : SeenBank := {}
  /-- The flushed bank waits to be cleared (R302). -/
  seenClear : Bool := false
  nodeRb : RebuildSt := {}
  routeRb : RebuildSt := {}
  pfxRb : RebuildSt := {}
  seedHi : SMap W32 := []
  vg : Verdigris := {}
  deriving DecidableEq, Repr, Inhabited

/-! ## Packet pipelines -/

/-- A packet in the pipelines (R366 to R368): its source, octets from the start of W, metadata at PARSE. -/
structure Packet where
  src : Nat := 0
  data : List Byte := []
  pan : Nat := 0
  nodeLoc : Nat := 0xFFFF
  l3 : Nat := 2
  rxInfo : Nat := 0
  epoch : Nat := 0
  rxFlags : Nat := 0
  ethInfo : Nat := 0
  extType : Nat := 0
  tag : W32 := 0
  dst : Nat := 0xFFFF
  /-- The receive-log record it holds (port, SEQ), with its copy for a delivery header. -/
  record : Option (Nat × RxRecord) := none
  /-- Ethernet receive stamp (R467). -/
  stamp : Option Nat := none
  tsReq : Bool := false
  /-- Host transmit ring descriptors to write back when the fate is known (R528). -/
  descs : Nat := 0
  /-- Source link-layer address for R378: short (with its PAN) or EUI. -/
  llShort : Option Nat := none
  llEui : W64 := 0
  /-- Hit by an uncorrectable error in the packet buffer (R588). -/
  bad : Bool := false
  deriving DecidableEq, Repr, Inhabited

/-- A lookup in flight: where its result goes (R371, R372). -/
structure LookupReq where
  d : Nat
  rb : Nat
  hit : Bool
  data : List Byte
  /-- 0 node, 1 prefix, 2 route, 3 no table access (R357). -/
  kind : Nat := 0
  deriving DecidableEq, Repr, Inhabited

/-- A pipeline: its ingress queues (by source), the round-robin turn, and the pass under way (R360 to R375). -/
structure PipeSt where
  queues : SMap (List Packet) := []
  turn : Nat := 29
  cur : Option Packet := none
  pass : Nat := 0
  prog : Nat := 0
  pc : Nat := 0
  /-- The pass has ended in RECIRC: the next window runs `prog` as pass 2. -/
  recirc : Bool := false
  /-- The pass began under the programs before the last commit (R64). -/
  oldBank : Bool := false
  /-- The settings under which the pass began, where a boundary has changed them since (R64). -/
  oldCfg : Option Cfg := none
  regs : SMap W32 := []
  w : List Byte := []
  l3 : Nat := 0
  rbs : SMap (List Byte) := []
  md : SMap W32 := []
  lookups : List LookupReq := []
  charged : List (Nat × Nat) := []
  deriving DecidableEq, Repr

/-- A reassembly context (R380, R381). -/
structure Reasm where
  pan : Nat := 0
  /-- The source as R378 gives it: addressing mode × 2^64 + address. -/
  src : Nat := 0
  size : Nat := 0
  tag : Nat := 0
  /-- The compressed header of the first fragment, and the octets of the datagram that it stands for (RFC 4944). -/
  head : Option (List Byte) := none
  hdr : Nat := 0
  /-- Octets held beyond the header, by offset: the octet plus 1. -/
  octets : SMap Nat := []
  dup : Bool := false
  /-- Order of the last fragment. -/
  order : Nat := 0
  deriving DecidableEq, Repr, Inhabited

/-- Programs in force and the reassembly unit. -/
structure Pipes where
  pipes : SMap PipeSt := []
  progs : SMap (Nat × List Nat) := []
  /-- The programs in force before the last commit, for packets in flight at the strobe (R64). -/
  oldProgs : SMap (Nat × List Nat) := []
  reasm : List Reasm := []
  reasmSeq : Nat := 0
  deriving DecidableEq, Repr

/-! ## Traffic manager -/

/-- A packet delivered to a host ring (R530). -/
structure HostPkt where
  kind : Nat := 0
  srcKind : Nat := 0
  srcIndex : Nat := 0
  cls : Nat := 0
  flags : Nat := 0
  epoch : Nat := 0
  nodeLoc : Nat := 0xFFFF
  tag : W32 := 0
  stamp : Nat := 0
  record : RxRecord := {}
  data : List Byte := []
  /-- The chip that delivered it, where that is another one (R532). -/
  origin : Option Nat := none
  deriving DecidableEq, Repr, Inhabited

/-- A QZ-Link frame payload (R492) waiting for a link: TYPE, destination chip and payload. -/
structure QlPkt where
  type : Nat := 0
  dst : Nat := 0
  src : Nat := 0
  ttl : Nat := 0
  cls : Nat := 0
  payload : List Byte := []
  deriving DecidableEq, Repr, Inhabited

/-- An item of a traffic-manager queue. -/
inductive QItem where
  | air (f : TxFrame)
  | eth (frame : List Byte) (tsReq : Bool) (tag : W32)
  | ql (p : QlPkt)
  | host (p : HostPkt)
  /-- A packet hit by an uncorrectable error (R588): it keeps its place and its octets until its egress reads it. -/
  | bad (octets : Nat)
  deriving DecidableEq, Repr

/-- Parameters of a queue in force (R388). -/
structure QRec where
  kind : Nat := 0
  cls : Nat := 0
  target : Nat := 0
  shaper : Nat := 0xFFFF
  maxPkts : Nat := 0
  yellowMax : Nat := 0
  weight : Nat := 1
  deriving DecidableEq, Repr, Inhabited

/-- A shaper (R393, R394) with its staged change (R402). -/
structure Shaper where
  rate : Nat := 0
  burst : Nat := 0
  parent : Nat := 0xFFFF
  bucket : Int := 0
  staged : Option (Nat × Nat) := none
  deriving DecidableEq, Repr, Inhabited

/-- A policer (R398, R399) with its staged change (R402). -/
structure Policer where
  cir : Nat := 0
  pir : Nat := 0
  cbs : Nat := 0
  pbs : Nat := 0
  aware : Bool := false
  c : Nat := 0
  p : Nat := 0
  staged : Option (Nat × Nat × Nat × Nat × Bool) := none
  deriving DecidableEq, Repr, Inhabited

/-- The traffic manager (R386 to R404). -/
structure Tm where
  queues : SMap (List QItem) := []
  recs : SMap QRec := []
  numQueues : Nat := 200
  shapers : SMap Shaper := []
  numShapers : Nat := 0
  policers : SMap Policer := []
  numPolicers : Nat := 0
  /-- QZ-Link round robin: port × 8 + class to last served queue and its count in the turn (R391). -/
  rr : SMap (Nat × Nat) := []
  /-- The PIPE cycle of the last dequeue (R395): its instant, the egress points that dequeued in it, and the buckets at its
  start of the shapers charged in it. -/
  cycAt : Nat := 0
  cycBy : List Nat := []
  cycOld : SMap Int := []
  deriving DecidableEq, Repr
/-! ## Time -/

/-- A raw measurement that waits for the servo (R452, R455): PTP (raw offset before the asymmetry of its port), PPS
(stamp, with the seconds of its ToD message where one names the edge) or mesh (own SYNC_TIME and the TX_TIME received,
with the neighbour's index). -/
inductive Meas where
  | ptp (raw : Int) (port : Nat)
  | pps (stamp : Nat) (secs : Option Nat)
  | mesh (sync : Nat) (tx : Nat) (nbr : Nat)
  deriving DecidableEq, Repr, Inhabited

/-- A PTP message that the engine sends (R464): type, flags, sequence, correctionField, interval octet and body; what goes into
the correctionField of its follow-up, and the receive stamp of the Pdelay_Req that it answers. -/
structure PtpOut where
  type : Nat
  flags : Nat
  seq : Nat
  corr : Nat := 0
  interval : Nat := 0x7F
  body : List Byte
  fuCorr : Nat := 0
  rxAt : Nat := 0
  deriving DecidableEq, Repr, Inhabited

/-- A stamped frame that an Ethernet MAC sends (R468): when it ends, its record, and the PTP message that it is. -/
structure OnWire where
  ends : Nat
  stamp : Stamp
  ptp : Option PtpOut
  deriving DecidableEq, Repr, Inhabited

/-- A PTP message taken before the pipeline (R464): port, receive stamp, octets of the message. -/
structure PtpMsg where
  port : Nat
  stamp : Nat
  msg : List Byte
  deriving DecidableEq, Repr, Inhabited

/-- A ToD message that names the next edge (R475), with its receive instant. -/
structure Tod where
  secs : Nat := 0
  flags : Nat := 0
  utc : Int := 0
  err : Nat := 0
  deriving DecidableEq, Repr, Inhabited

/-- The device time scale and its disciplining (R452 to R477). -/
structure TimeSt where
  /-- Device time scale, ns and 2^-32 ns (R453). -/
  ns : Nat := 0
  frac : Nat := 0
  /-- TIME-domain clock cycles since reset release (R183, R396), and the elapsed ns that intervals are measured in:
  they do not move with the one step of the time scale (R57). -/
  cycles : Nat := 0
  up : Nat := 0
  /-- r, f and s in units of 0.001 ppb (R453, R458). -/
  rate : Int := 0
  freq : Int := 0
  slew : Int := 0
  acquired : Bool := false
  holdover : Bool := false
  locked : Bool := false
  rateLimit : Bool := false
  jumpPending : Bool := false
  slewing : Bool := false
  /-- The source in use (R455). -/
  source : Nat := 3
  /-- Latch of TIME_NOW_HI. -/
  nowHi : W32 := 0
  /-- Measurements that wait for TIME_MEASUREMENT, oldest first. -/
  meas : List Meas := []
  /-- Offset of the last measurement that fed the servo, and its instant; the next has Δt = 0 while none (R458). -/
  lastO : Int := 0
  lastT : Option Nat := none
  /-- The prediction given by a re-step or a jump (R461), while none has fed since. -/
  predict : Option Int := none
  /-- The running candidates (R457), oldest first. -/
  cands : List Int := []
  lockRun : Nat := 0
  /-- |o| of the last 16 measurements that fed the servo, newest first. -/
  lastAbs : List Nat := []
  /-- While LOCKED: the instant of each rate change and the rate, newest first, and when LOCKED began (R460). -/
  lockedAt : Option Nat := none
  rates : List (Nat × Int) := []
  /-- The mean rate of the last 64 s of LOCKED operation that has ended, where it lasted that long (R460). -/
  heldMean : Option Int := none
  /-- Consecutive measurements that showed a source of a higher rank available (R455), by source. -/
  shown : SMap Nat := []
  /-- Instant of the last valid measurement of each source, plus 1. -/
  lastValid : SMap Nat := []
  /-- ERR_EST at entry into holdover and the instant of entry, ns (R463). -/
  holdErr : Nat := 0
  holdSince : Nat := 0
  /-- ERR_NS of CMD_TIME_SET until the first servo measurement (R463). -/
  setErr : Option Nat := none
  /-- A re-step collects (R461): the offsets so far, the source they come from, and the commands that wait. -/
  restep : Option (List Int) := none
  restepSrc : Nat := 3
  restepCmds : List Cmd := []
  /-- HOPS sent in beacons, 0xF when not applicable (TIME_STATUS). -/
  hops : Nat := 0xF
  /-- ERR_EST of the mesh reference and its hops at its last counting beacon. -/
  refErr : Nat := 0
  refHops : Nat := 0
  spread : Nat := 0
  /-- PTP engine: messages taken from the MACs; the last Sync (t1, t2, correction, sequence), two-step Sync waiting for
  its Follow_Up; t3 of the last Delay_Req or t1 of the last Pdelay_Req per port; mean path delay. -/
  ptpIn : List PtpMsg := []
  syncT : Option (Int × Int) := none
  syncWait : Option (Nat × Int × Nat) := none
  reqT : SMap Nat := []
  reqSeq : SMap Nat := []
  pdResp : Option (Nat × Int × Int × Int) := none
  mpd : Option Int := none
  ptpSeq : SMap Nat := []
  /-- ToD input: the messages since the last edge, oldest first, and when each ended; the last PPS edge. -/
  tod : List (Tod × Nat) := []
  ppsHigh : Bool := false
  ppsEdge : Nat := 0
  deriving DecidableEq, Repr, Inhabited

/-! ## OTP, keys and trust -/

/-- One-time-programmable facts, which every reset keeps (R407). -/
structure Otp where
  siliconRoot : List Byte := []
  transportKey : List Byte := []
  /-- Fused life-cycle code (R408). -/
  lc : Nat := 0
  grade : Nat := 1
  baseMac : BitVec 48 := 0
  /-- Burnt bits of SEC_MIN. -/
  secMin : Nat := 0
  baseEui : W64 := 0
  vendorEc : List Byte := []
  vendorMl : List Byte := []
  oemEc : List Byte := []
  oemMl : List Byte := []
  custEc : List Byte := []
  custMl : List Byte := []
  /-- A hash field of CMD_OTP_HASH whose read-back failed is spent (R522): by WHICH. -/
  spent : List Nat := []
  /-- The two Cinnabar slots: octets, spent, committed (R116, R121). -/
  cin0 : List Byte := []
  cin1 : List Byte := []
  cin0Spent : Bool := false
  cin1Spent : Bool := false
  cin0Ok : Bool := false
  cin1Ok : Bool := false
  deriving DecidableEq, Repr, Inhabited

/-- A stored-key slot (R420, R426): its descriptors and, inside the silicon, its key octets. -/
structure KeySlot where
  valid : Bool := false
  pendingInvalid : Bool := false
  pub : Bool := false
  level : Nat := 0
  usage : Nat := 0
  gen : Nat := 0
  callers : Nat := 0
  parent : Nat := 0
  key : List Byte := []
  /-- Invalidated, and not yet removed by a committed record (R425). -/
  unremoved : Bool := false
  /-- Placed by R449: never written to a record. -/
  volatile : Bool := false
  /-- Hit by an uncorrectable error and not yet reloaded (R588). -/
  reloading : Bool := false
  deriving DecidableEq, Repr, Inhabited

/-- A keystore record of boot flash (R440 to R443): what its header says, its entries before their wrapping (`Dev.ksBody`
gives the octets), and the 64 octets of its commit record. -/
structure KsRecord where
  counter : Nat
  lc : Nat
  meas : List Byte
  entries : SMap KeySlot
  commit : List Byte
  deriving DecidableEq, Repr

/-- What a running keystore write does (R444, R446). -/
structure KsWrite where
  rcd : KsRecord
  /-- KS_0 or KS_1. -/
  into : Nat
  retried : Bool
  cmds : List Completion
  migrate : Option Cmd
  deriving DecidableEq, Repr

/-- A MACsec SA (R488 to R490): key, SCI, the slot that wrapped it, next or highest PN, and whether EVT_MACSEC_PN has
been raised. -/
structure Sa where
  sci : W64 := 0
  key : List Byte := []
  slot : Nat := 0
  pn : Nat := 1
  evt : Bool := false
  deriving DecidableEq, Repr, Inhabited

/-- Trust state (R405 to R451). -/
structure Sec where
  /-- Running life-cycle code. -/
  lc : Nat := 0
  bootSlot : Nat := 0
  custWorld : Bool := false
  custRefused : Bool := false
  /-- Record in use: 0, 1, or 3 for none. -/
  ksSlot : Nat := 3
  migrationPending : Bool := false
  trngFail : Bool := false
  trngEvt : Bool := false
  running : Nat := 0
  /-- D2 and D3 of R416, and M. -/
  bootDigest : List Byte := []
  custDigest : List Byte := []
  meas : List Byte := []
  keys : SMap KeySlot := []
  /-- Derived-key cache, most recently used first, and the derivations that run. -/
  cache : List KeyTag := []
  kdfs : List KeyTag := []
  write : Option KsWrite := none
  /-- Changes applied while a write runs, which wait for the next record: their completions (R444). -/
  nextCmds : List Completion := []
  nextDue : Bool := false
  /-- The customer hashes in use: those of the last boot (R407, R522). -/
  custEc : List Byte := []
  custMl : List Byte := []
  /-- EVT_FC_EXHAUSTED raised for these nodes (slot, EUI-64, key epoch) downlink and these PANs (R433, R434). -/
  fcEvt : List (Nat × Nat × Nat) := []
  panEvt : List Nat := []
  /-- The provisioning block's PAN_ID, prefix and operator key as verified at boot (R448). -/
  provPan : Nat := 0
  provPrefix : List Byte := []
  provLen : Nat := 0
  provKey : List Byte := []
  provUsage : Nat := 0
  provCallers : Nat := 0
  /-- The stored slots as commands, image verification and the service cores see them while a boundary has invalidated slots in
  one of the PIPE and CORE domains and not yet in the other (R438). -/
  coreKeys : Option (SMap KeySlot) := none
  deriving DecidableEq, Repr

/-! ## Wired links -/

/-- A gate list (R269, R484): cycle in units of 8 ns, and entries of interval and open gates. -/
structure GateList where
  cycle : Nat := 0
  entries : List (Nat × Nat) := []
  deriving DecidableEq, Repr, Inhabited

/-- An Ethernet port (R479 to R490). -/
structure EthPort where
  link : Bool := false
  rate : Nat := 7
  lpi : Bool := false
  /-- The MAC sends, and the transmitter wakes from low-power idle, until these instants, ns. -/
  busyUntil : Nat := 0
  wakeUntil : Nat := 0
  /-- PTP messages that wait for the MAC, oldest first, and the stamped frame on the wire. -/
  ptpOut : List PtpOut := []
  wire : Option OnWire := none
  /-- Gate list that runs, one that waits for its first cycle start, and the gates open now. -/
  gates : GateList := {}
  gatesNext : Option (GateList × Nat) := none
  open_ : Nat := 0xFF
  /-- After the step of the time scale every gate is closed until this instant (R484). -/
  closedUntil : Nat := 0
  span : List Nat := List.replicate 8 0xFFFFFFFF
  tsSeq : Nat := 0
  stamps : List Stamp := []
  txSa : SMap Sa := []
  /-- Receive SAs by 4 × channel + AN, and the SCIs of the channels. -/
  rxSci : List W64 := []
  rxSa : SMap Sa := []
  deriving DecidableEq, Repr, Inhabited

/-- A QZ-Link frame (R492): header fields and payload. -/
structure QlFrame where
  type : Nat := 0
  cls : Nat := 0
  dst : Nat := 0
  src : Nat := 0
  ttl : Nat := 0
  payload : List Byte := []
  /-- The port whose receive buffer still holds it (R495): a transit frame that waits. -/
  rx : Option Nat := none
  deriving DecidableEq, Repr, Inhabited

/-- A QZ-Link port, and MIR as port 6 (R491 to R497, R551). -/
structure QlPort where
  up : Bool := false
  level : Nat := 0
  stepping : Option Nat := none
  lane1Fail : Bool := false
  dupId : Bool := false
  txSeq : Nat := 0
  /-- Frames sent and not acknowledged, oldest first, with their SEQ. -/
  unacked : List (Nat × QlFrame) := []
  rxSeq : Nat := 0
  /-- A frame has arrived since the last ACK. -/
  ackDue : Bool := false
  resends : Nat := 0
  /-- Credits the partner grants, by class; none listed reads 128 units of 256 octets once the link is up. -/
  credits : SMap Nat := []
  /-- Units of the receive buffer that frames hold, by class (R495), and units to return once the link carries words again. -/
  rxUsed : SMap Nat := []
  credDue : SMap Nat := []
  /-- Instant since when a class has waited for credits, plus 1, and the units that its frame needs. -/
  waitSince : SMap Nat := []
  waitNeed : SMap Nat := []
  creditWait : Bool := false
  /-- Octets sent in the window that runs; requests of both ends; windows below DOWN_PCT; windows at this level since a
  step down. -/
  winOctets : Nat := 0
  reqOwn : Nat := 0
  reqPeer : Nat := 0
  low : Nat := 0
  sinceDown : Option Nat := none
  /-- Transit frames by class (R501). -/
  transit : SMap (List QlFrame) := []
  /-- MIR only: record fragments and control frames that wait. -/
  ctrl : List QlFrame := []
  deriving DecidableEq, Repr, Inhabited

/-- A current root as a device keeps it (R499): the last ANNOUNCE, and HOPS by port with the instant heard. -/
structure RootInfo where
  last : Nat := 0
  hops : SMap (Nat × Nat) := []
  deriving DecidableEq, Repr, Inhabited

/-- Ethernet ports and QZ-Link. -/
structure Links where
  eth : SMap EthPort := []
  ql : SMap QlPort := []
  isRoot : Bool := false
  roots : SMap RootInfo := []
  /-- The root followed and ROOT_PORT (R499). -/
  followed : Option Nat := none
  rootPort : Nat := 7
  rootHops : Nat := 0xFF
  /-- Learned routes: chip to port (R500). -/
  learned : SMap Nat := []
  /-- ANNOUNCE frames and MIR frames received and not yet taken: port and frame. -/
  annIn : List (Nat × QlFrame) := []
  mirIn : List QlFrame := []
  deriving DecidableEq, Repr, Inhabited

/-! ## The pair -/

/-- The Mordant state (R554) as a device sends it or holds it as its Standby image. -/
structure Mord where
  nodes : SMap NodeEntry := []
  hints : SMap Hint := []
  routes : SMap RouteEntry := []
  pfxs : SMap PrefixEntry := []
  seedN : W64 := 0
  seedR : W64 := 0
  seedP : W64 := 0
  pans : SMap Pan := []
  dutyBins : SMap Nat := []
  charges : SMap Nat := []
  nbrs : SMap Nbr := []
  tight : SMap W32 := []
  settings : SMap W32 := []
  phase : Nat := 3
  hist : List Hist := []
  vat : List Byte := []
  kcv : List Byte := []
  cinCrc : Nat := 0
  deriving DecidableEq, Repr

/-- A record under assembly at the receiver (R559). -/
structure RxRec where
  epoch : Nat
  kind : Nat
  octets : List Byte
  deriving DecidableEq, Repr

/-- A committed record that waits for its application (R562). -/
structure CommRec where
  epoch : Nat
  base : Nat
  kind : Nat
  octets : List Byte
  deriving DecidableEq, Repr

/-- A record sent and not acknowledged (R561). -/
structure TxRec where
  epoch : Nat
  kind : Nat
  octets : List Byte
  deriving DecidableEq, Repr

/-- The Ochre tests (R574) and report (R575). -/
structure Ochre where
  pass : BitVec 11 := 0
  fail : BitVec 11 := 0
  cycles : W32 := 0
  sramCe : Nat := 0
  mirReplay : Nat := 0
  /-- MIR replays of the epoch that runs. -/
  mirNow : Nat := 0
  done : BitVec 11 := 0
  ready : Bool := false
  deriving DecidableEq, Repr, Inhabited

/-- What a takeover leaves (R568). -/
structure Takeover where
  ready : Bool
  committed : Nat
  dupEpochs : Nat
  oldChip : Nat
  hbTime : Nat
  ownTime : Nat
  ochre : List Byte
  hist : List Hist
  deriving DecidableEq, Repr

/-- OWN, the mirror and the heartbeat (R544 to R578). -/
structure Pair where
  ownOut : Bool := false
  ownIn : Bool := false
  /-- The instant from which OWN_IN has read released without a break. -/
  ownInSince : Nat := 0
  gateOpen : Bool := false
  contention : Bool := false
  contEvt : Bool := false
  allow : Bool := true
  side : Bool := false
  /-- PAIR_SIDE 1 waits its 100 ms (R549). -/
  bootWait : Bool := false
  misses : Nat := 0
  /-- Last heartbeat received and last generated, ns. -/
  hbLast : Option Nat := none
  hbGen : Option Nat := none
  partnerMode : Nat := 0
  partnerChip : Nat := 0
  /-- A MIR frame of the partner has been received, so that its chip ID is known. -/
  partnerKnown : Bool := false
  partnerReady : Bool := false
  sideBad : Bool := false
  mirrorValid : Bool := false
  chainOk : Bool := false
  keptAlive : Nat := 0
  /-- Last committed or acknowledged epoch, none before any; and the latch of PAIR_COMMIT_HI. -/
  commit : Option Nat := none
  commitHi : BitVec 16 := 0
  /-- Active: mirror of the last record sent, records not acknowledged, the chain was broken since the last record,
  the base of the chain. -/
  mirror : Option Mord := none
  /-- Solo and Active: the Mordant state at which the journal of the open epoch began (R556); none before the first boundary,
  when the journal began with the empty state. -/
  journal : Option Mord := none
  unacked : List TxRec := []
  broken : Bool := false
  /-- The boundary of this record applied a commit (R558 VAT_IMAGE). -/
  vatCommitted : Bool := false
  /-- The epoch whose boundary saw the break: it sends no record (R561). -/
  brokenAt : Option Nat := none
  chainBase : Nat := 0
  /-- Standby and Resync: the record under assembly, committed records not applied, image, the base seen. -/
  rx : Option RxRec := none
  committed : List CommRec := []
  image : Option Mord := none
  rxBase : Option Nat := none
  baseFragment : Bool := false
  baseApplied : Bool := false
  /-- The third miss has come and the device waits for OWN_IN (R565 step 3). -/
  takeoverWait : Bool := false
  /-- OWN is acquired and the restore runs. -/
  restoring : Bool := false
  /-- The first epoch after a takeover and the last that marks POSSIBLE_DUP (R567). -/
  firstEpoch : Nat := 0
  dupUntil : Nat := 0
  /-- The grid instant at which the epoch c + 3 begins is awaited. -/
  takeover : Option Takeover := none
  ochre : Ochre := {}
  ochreOctets : List Byte := []
  partnerOchre : List Byte := []
  deriving DecidableEq, Repr

/-! ## Straps and electrical facts -/

/-- Straps, reset causes and the electrical facts (R36, R498, R597 to R611). -/
structure Elec where
  chipId : Nat := 0
  octal : Bool := false
  testEn : Bool := false
  /-- RST_CAUSE. -/
  por : Bool := true
  causeSys : Bool := false
  causeSupply : Bool := false
  causeThermal : Bool := false
  rail : Nat := 0
  /-- What holds the device in reset. -/
  sysLow : Bool := false
  supplyLow : Bool := false
  thermalHeld : Bool := false
  /-- Boot (R413): begun; held at step 2 with the facts it will use; ended with neither image verifying; stopped by
  the LPDDR population. -/
  booted : Bool := false
  heldBoot : Option BootFacts := none
  /-- ENTRY of the boot image that SC_0 entered (R411, R413), an offset in its payload. -/
  entry : Nat := 0
  bootNone : Bool := false
  ddrFail : Bool := false
  dens0 : Nat := 0
  dens1 : Nat := 0
  trained : Bool := false
  tj : Int := 0
  peak : Int := 0
  deriving DecidableEq, Repr

/-! ## The whole block -/

/-- Everything but the queue of waiting commands. -/
structure Dev where
  out : List Output := []
  freeCtr : Nat := 0
  modes : Modes := {}
  epoch : Epoch := {}
  cfg : Cfg := []
  stg : Staging := {}
  snap : Snap := {}
  cnt : Counters := {}
  vio : VioState := {}
  ev : EvState := {}
  flt : Faults := {}
  host : HostIf := {}
  disp : Disp := {}
  ports : SMap Port := []
  cin : Cin := {}
  lanes : SMap Lane := []
  txc : SMap Carrier := []
  duty : Duty := {}
  air : Air := {}
  seqs : SMap Seq := []
  vat : Vat := {}
  tbl : Tables := {}
  pipe : Pipes := {}
  tm : Tm := {}
  time : TimeSt := {}
  otp : Otp := {}
  /-- Keystore records KS_0 and KS_1 of boot flash, which every reset keeps (R439). -/
  ks0 : Option KsRecord := none
  ks1 : Option KsRecord := none
  pair : Pair := {}
  elec : Elec := {}
  sec : Sec := {}
  links : Links := {}
  deriving DecidableEq, Repr

/-- The block: its units, and the commands that wait, first in, first out. -/
structure State where
  dev : Dev
  pending : List Instr
  deriving DecidableEq, Repr

/-- Why the block could stop with a fault. No command of the table ends in one. -/
inductive Fault where
  /-- Raised by nobody: the spec gives every command an effect in every state. Safe. -/
  | none
  deriving DecidableEq, Repr

/-- Why a command could be refused. -/
inductive Refusal where
  /-- A command whose meaning is not written yet; raised only by arms of exec. Safe. -/
  | notModelled (mnemonic : String)
  deriving DecidableEq, Repr

/-- The block right after reset: every register at its reset value, every unit empty, and no command waiting. -/
def State.reset : State := { dev := {}, pending := [] }

end Sys2Proof.Machine
end

