-- ==== Sys2Proof/Machine/Ops.lean ====
section
/-! DEFINITION. The named operations that every family shares: running a meaning, the units of the state by index, free
values, counters (R591), events (R524, R525), violations (R580 to R585), completions (R515 to R520), staging (R66 to
R69). -/

namespace Sys2Proof.Machine

/-- Run a meaning: the queue of waiting commands is kept, and the outputs of the last command are forgotten first. -/
def State.run (s : State) (f : Dev → Dev) : Host.Outcome State Fault Refusal :=
  .next { s with dev := f { s.dev with out := [] } }

/-- A memory is in its canonical form: addresses strictly rise, and no listed octet is 0, which an unlisted one reads as. -/
def Memory.wf (m : SMap Byte) : Bool := m.wf 0#8

/-- n octets of a memory. -/
def memRead (m : SMap Byte) (a n : Nat) : List Byte := (List.range n).map (fun i => m.get 0#8 (a + i))

/-- Octets written to a memory. -/
def memWrite (m : SMap Byte) (a : Nat) (b : List Byte) : SMap Byte :=
  b.zipIdx.foldl (fun (m : SMap Byte) x => m.set 0#8 (a + x.2) x.1) m

namespace Dev

/-! ### Units by index -/

def port (d : Dev) (p : Nat) : Port := d.ports.get {} p
def setPort (d : Dev) (p : Nat) (x : Port) : Dev := { d with ports := d.ports.set {} p x }
def modPort (d : Dev) (p : Nat) (f : Port → Port) : Dev := d.setPort p (f (d.port p))
def lane (d : Dev) (l : Nat) : Lane := d.lanes.get {} l
def setLane (d : Dev) (l : Nat) (x : Lane) : Dev := { d with lanes := d.lanes.set {} l x }
def modLane (d : Dev) (l : Nat) (f : Lane → Lane) : Dev := d.setLane l (f (d.lane l))
def carrier (d : Dev) (c : Nat) : Carrier := d.txc.get {} c
def setCarrier (d : Dev) (c : Nat) (x : Carrier) : Dev := { d with txc := d.txc.set {} c x }
def modCarrier (d : Dev) (c : Nat) (f : Carrier → Carrier) : Dev := d.setCarrier c (f (d.carrier c))
def seq (d : Dev) (s : Nat) : Seq := d.seqs.get {} s
def setSeq (d : Dev) (s : Nat) (x : Seq) : Dev := { d with seqs := d.seqs.set {} s x }
def modSeq (d : Dev) (s : Nat) (f : Seq → Seq) : Dev := d.setSeq s (f (d.seq s))
def pan (d : Dev) (k : Nat) : Pan := d.air.pans.get {} k
def setPan (d : Dev) (k : Nat) (x : Pan) : Dev := { d with air := { d.air with pans := d.air.pans.set {} k x } }
def modPan (d : Dev) (k : Nat) (f : Pan → Pan) : Dev := d.setPan k (f (d.pan k))
def ring (d : Dev) (n : Nat) : Ring := d.host.rings.get {} n
def setRing (d : Dev) (n : Nat) (x : Ring) : Dev := { d with host := { d.host with rings := d.host.rings.set {} n x } }
def shared (d : Dev) (g : Nat) : Shared := d.air.shared.get {} g
def setShared (d : Dev) (g : Nat) (x : Shared) : Dev :=
  { d with air := { d.air with shared := d.air.shared.set {} g x } }
def qlp (d : Dev) (q : Nat) : QlPort := d.links.ql.get {} q
def modQl (d : Dev) (q : Nat) (f : QlPort → QlPort) : Dev :=
  { d with links := { d.links with ql := d.links.ql.set {} q (f (d.qlp q)) } }
def eth (d : Dev) (e : Nat) : EthPort := d.links.eth.get {} e
def modEth (d : Dev) (e : Nat) (f : EthPort → EthPort) : Dev :=
  { d with links := { d.links with eth := d.links.eth.set {} e (f (d.eth e)) } }
def key (d : Dev) (n : Nat) : KeySlot := d.sec.keys.get {} n
def modKey (d : Dev) (n : Nat) (f : KeySlot → KeySlot) : Dev :=
  { d with sec := { d.sec with keys := d.sec.keys.set {} n (f (d.key n)) } }
def queue (d : Dev) (q : Nat) : List QItem := d.tm.queues.get [] q
def setQueue (d : Dev) (q : Nat) (x : List QItem) : Dev := { d with tm := { d.tm with queues := d.tm.queues.set [] q x } }
def pipeSt (d : Dev) (i : Nat) : PipeSt := d.pipe.pipes.get {} i
def setPipe (d : Dev) (i : Nat) (x : PipeSt) : Dev := { d with pipe := { d.pipe with pipes := d.pipe.pipes.set {} i x } }

/-- Apply a change for every index of a list, in order. -/
def each (d : Dev) (xs : List Nat) (f : Dev → Nat → Dev) : Dev := xs.foldl f d

/-! ### Time -/

/-- The instant on the device time scale, ns. -/
def now (d : Dev) : Nat := d.time.ns

/-- Elapsed ns since reset release. -/
def up (d : Dev) : Nat := d.time.up

/-- The sequencer tick: µs from B of the current epoch (R229), saturating at 24 bits (R230). -/
def tick (d : Dev) : Nat := min ((d.time.ns - d.epoch.start) / 1000) 16777215

/-- The number of the next epoch (R55); after a takeover the first is c + 3 (R58), so that a boundary during the restore
takes the number no further than c + 2 (DEDUCED, log entry 57). -/
def nextNum (d : Dev) : Nat :=
  match d.pair.restoring, d.pair.takeover with
  | true, some t => max d.epoch.num (min (d.epoch.num + 1) (t.committed + 2))
  | _, _ => if d.epoch.num < d.pair.firstEpoch then d.pair.firstEpoch else d.epoch.num + 1

/-- The freeze of the boundary that opens epoch e has passed (R52, R70). -/
def freezePassed (d : Dev) (e : Nat) : Bool := decide (e < d.nextNum) || (decide (e = d.nextNum) && d.epoch.frozen)

/-- TEMP_STATUS.WARN (R609): the hottest sensor is at THERM_CTL.WARN_C or above, values above 120 acting as 120. -/
def tempWarn (d : Dev) : Bool := decide (min (sext 8 d.cfg.THERM_CTL_WARN_C) 120 ≤ d.elec.tj)

/-- MGMT_ALERT_N is low (R609). -/
def alertLow (d : Dev) : Bool := d.tempWarn || d.flt.fatal

/-- The device holds OWN in Solo or Active: it runs its phase (R44). -/
def runs (d : Dev) : Bool := d.modes.redund == .solo || d.modes.redund == .active

/-- The device is in Standby or Resync. -/
def follower (d : Dev) : Bool := !d.runs

/-! ### Free values and outputs -/

/-- A w-bit value the spec leaves open, fresh each time, and the state after drawing it. -/
def draw (d : Dev) (w : Nat) : BitVec w × Dev := (Config.freeValue w d.freeCtr, { d with freeCtr := d.freeCtr + 1 })

/-- A uniform draw over 0 to n (R197): the free value reduced to the range. -/
def drawTo (d : Dev) (n : Nat) : Nat × Dev := ((d.draw 32).1.toNat % (n + 1), (d.draw 32).2)

/-- Record an output. -/
def emit (d : Dev) (k : OutKind) (idx : Nat) (data : List Byte) : Dev := { d with out := d.out ++ [⟨k, idx, data⟩] }

/-- MGMT_ALERT_N follows WARN and FATAL (R609): a level that differs from the one before is an output. -/
def alertFrom (d : Dev) (old : Bool) : Dev := if d.alertLow = old then d else d.emit .alert (ofBool d.alertLow) []

/-! ### Events -/

/-- The clock domain of the subsystem that raises an event (R18); none is the TIME domain. -/
def evDomain : EvCode → Option Domain
  | .EVT_CINNABAR_UNLOCKED | .EVT_TIME_ACQUIRED | .EVT_TIME_SOURCE | .EVT_RATE_LIMIT | .EVT_TIME_JUMP_REFUSED | .EVT_HOLDOVER =>
    none
  | .EVT_CAL_FAIL | .EVT_CAL_DUE | .EVT_SUBBAND_DISABLED | .EVT_DUTY_EXHAUSTED | .EVT_TX_STAMP | .EVT_NODE_JOINED
  | .EVT_NODE_LEFT | .EVT_ASSOC_REQUEST | .EVT_NEIGHBOUR_LOST | .EVT_NEIGHBOUR_FOUND => some .dsp
  | .EVT_TRNG_FAIL | .EVT_CUSTOMER_REFUSED | .EVT_KEYSTORE_EMPTY | .EVT_KEYSTORE_FAIL => some .core
  | .EVT_OVERFLOW | .EVT_DMA_FAULT => some .pcie
  | .EVT_QL_LINK | .EVT_QL_DEGRADED => some .serdes
  | .EVT_EPOCH | .EVT_CNT_SAT | .EVT_NODE_UNKNOWN | .EVT_NODE_AGED | .EVT_HINT_FAIL | .EVT_REBUILD_READY
  | .EVT_REBUILD_FAILED | .EVT_VERDIGRIS_MISMATCH | .EVT_VERDIGRIS_PASS | .EVT_FC_EXHAUSTED | .EVT_ETH_LINK | .EVT_MACSEC_PN
  | .EVT_TAKEOVER | .EVT_PAIR_MODE | .EVT_PARTNER_SILENT | .EVT_CHAIN_BREAK | .EVT_OCHRE | .EVT_OWN_CONTENTION | .EVT_ECC_UE
  | .EVT_FATAL | .EVT_LOG_OVERFLOW | .EVT_NODE_QUARANTINED => some .pipe

/-- The clock domain in which a violation is found (R18); none is the TIME domain. -/
def vioDomain : Vio → Option Domain
  | .VIO_PTP_MSG | .VIO_TOD_TIMING | .VIO_TOD_FORMAT | .VIO_SEQ_FOREIGN | .VIO_PTP_PORT => none
  | .VIO_FRAME_TYPE | .VIO_UNSECURED_DATA | .VIO_MAC_CMD | .VIO_LG_OVERCOMMIT | .VIO_TXC_OVERCOMMIT | .VIO_CIN_LOOSEN
  | .VIO_CIN_LOCKED | .VIO_FEM_READBACK => some .dsp
  | .VIO_MESH_HDR | .VIO_SEC_LEVEL | .VIO_AUTH_FAIL | .VIO_FC_REPLAY | .VIO_FRAG_OVERLAP | .VIO_ETH_HALF_DUPLEX
  | .VIO_PAIR_SIDE | .VIO_OWN_CONTENTION => some .pipe
  | .VIO_QL_WORD | .VIO_QL_FRAME | .VIO_QL_CREDIT | .VIO_QL_DUP_ID | .VIO_QL_TWO_ROOTS | .VIO_MIR_FRAME => some .serdes
  | .VIO_CFG_WIDTH | .VIO_CFG_UNMAPPED | .VIO_RING_DOORBELL | .VIO_RING_BUSY | .VIO_HOST_DESC | .VIO_PCIE_DMA
  | .VIO_LANE_PLAN_OWNED => some .pcie
  | .VIO_CORE_ACCESS => some .core

/-- Room of the event staging (R525). -/
def evCap : Nat := 8192

/-- The epoch number in force in a domain (R63); none is the TIME domain. -/
def domainEpoch (d : Dev) : Option Domain → Nat
  | none => d.epoch.num
  | some .dsp => d.epoch.numDsp
  | some .pipe => d.epoch.numPipe
  | some .core => d.epoch.numCore
  | some .pcie => d.epoch.numPcie
  | some .serdes => d.epoch.numSerdes
  | some .lpddr => d.epoch.numLpddr

/-- The epoch of what occurs in a domain (R63): that of the received frame which causes it (R20), else the domain's. -/
def epochIn (d : Dev) (dom : Option Domain) : Nat :=
  match d.cnt.frame with
  | some e => e
  | none => d.domainEpoch dom

/-- Raise an event in a domain (R63, R524, R525): it takes the next SEQ in every case; Stand-alone has no ring 2 and discards
it; a full staging discards it and EVT_LOST advances. EVT_LOST sticks at its maximum; when it reaches that, the
EVT_CNT_SAT that it raises (R591) is discarded in the same way. -/
def raiseIn (d : Dev) (dom : Option Domain) (c : EvCode) (data : List Byte) : Dev :=
  let e : Event := ⟨c, d.ev.seq, d.epochIn dom, d.time.ns, data, none⟩
  if d.modes.control = .standAlone then
    { d with ev := { d.ev with seq := d.ev.seq + 1 } }
  else if d.ev.staging.length < evCap then
    { d with ev := { d.ev with seq := d.ev.seq + 1, staging := d.ev.staging ++ [e] } }
  else
    let v := d.cnt.live.get 0 Cnt.EVT_LOST.off
    let sat := decide (v + 1 ≥ 0xFFFFFFFF)
    let n := if sat ∧ v < 0xFFFFFFFF then 2 else 1
    { d with
      ev := { d.ev with seq := d.ev.seq + BitVec.ofNat 32 n, lost := d.ev.lost + n }
      cnt := { d.cnt with
        live := d.cnt.live.set 0 Cnt.EVT_LOST.off (min (v + 1) 0xFFFFFFFF)
        sat := if sat then d.cnt.sat ||| (1#20 <<< 15) else d.cnt.sat } }

/-- Raise an event in the domain of what raises it. -/
def raise (d : Dev) (c : EvCode) (data : List Byte) : Dev := d.raiseIn (evDomain c) c data

/-! ### Counters -/

/-- The domain whose strobe applies a register's staged value; none for those that apply at B in the TIME domain (R61). -/
def domainOf (off : Nat) : Option Domain :=
  if off < 0x10000 ∨ off = Reg.CNT_CLEAR then none
  else match subsysOf off with
    | 1 | 2 | 3 | 4 | 5 => some .dsp
    | 6 | 14 => none
    | 9 | 17 => some .core
    | 16 => some .pcie
    | 15 => some .serdes
    | _ => some .pipe

/-- The domain in which a subsystem latches its counters; none for the TIME domain. -/
def counterDomain (off : Nat) : Option Domain := if subsysOf off = 20 then some .pipe else domainOf off

/-- The command that runs handles a received frame of an earlier epoch, whose counter values have been latched and are not
published yet (R20, R63). -/
def lateCount (d : Dev) (off : Nat) : Bool :=
  match d.cnt.frame with
  | none => false
  | some e => decide (e < d.epoch.num) && (d.snap.fill || d.epoch.strobes.contains .pipe) &&
      (match counterDomain off with
       | some x => !d.epoch.strobes.contains x
       | none => true)

/-- A count that the snapshot of the ended epoch is to show beside the values latched at its strobe. -/
def countLate (d : Dev) (off n : Nat) : Dev :=
  if d.lateCount off then { d with cnt := { d.cnt with late := d.cnt.late.put off (d.cnt.late.get 0 off + n) } } else d

/-- What a received frame does counts for the frame's own epoch, that of its sync word (R20). -/
def asFrame (d : Dev) (e : Nat) (f : Dev → Dev) : Dev :=
  let o := d.cnt.frame
  let d := f { d with cnt := { d.cnt with frame := some e } }
  { d with cnt := { d.cnt with frame := o } }

/-- The live value of a counter. -/
def count (d : Dev) (c : Counter) : Nat := d.cnt.live.get 0 c.off

/-- Advance a counter by n (R591): a statistics counter wraps modulo 2^64; an event counter sticks at 0xFFFF_FFFF, and
when it reaches that value it sets the SAT flag of its subsystem and raises EVT_CNT_SAT with its offset. A received frame's
count belongs to the frame's epoch (R20). -/
def bump (d : Dev) (c : Counter) (n : Nat := 1) : Dev :=
  let d := d.countLate c.off n
  let v := d.count c
  if c.wide then
    { d with cnt := { d.cnt with live := d.cnt.live.set 0 c.off ((v + n) % 2 ^ 64) } }
  else
    let d' := { d with cnt := { d.cnt with live := d.cnt.live.set 0 c.off (min (v + n) 0xFFFFFFFF) } }
    if v < 0xFFFFFFFF ∧ 0xFFFFFFFF ≤ v + n then
      ({ d' with cnt := { d'.cnt with sat := d'.cnt.sat ||| (1#20 <<< (subsysOf c.off - 1)) } }).raiseIn
        (counterDomain c.off) .EVT_CNT_SAT (le 4 c.off)
    else d'

/-! ### Violations -/

/-- Entries the log takes before its LOG_OVERFLOW entry (R585). -/
def logCap : Nat := 4095

/-- A LOG_OVERFLOW entry stands in the log (R585). -/
def logOverflowed (d : Dev) : Bool := d.vio.log.any (fun e => e.code == 1)

/-- Write a violation to the log (R585): the entry, or the LOG_OVERFLOW entry with count 1, or a raise of its count. -/
def logEntry (d : Dev) (e : VioEntry) : Dev :=
  if d.logOverflowed then
    { d with vio := { d.vio with log := d.vio.log.map (fun x =>
        if x.code == 1 then { x with detail := le 4 (min (unle x.detail + 1) 0xFFFFFFFF) } else x) } }
  else if d.vio.log.length < logCap then
    { d with vio := { d.vio with log := d.vio.log ++ [e] } }
  else
    ({ d with vio := { d.vio with log := d.vio.log ++
        [{ e with code := 1, partner := 0xFF, suppressed := 0, detail := le 4 1 }] } }).raise
      .EVT_LOG_OVERFLOW (le 4 e.seq.toNat)

/-- The rate limiter lets the code be logged now: it is not rate-limited, or 1 ms has passed since its last entry
(R581, R584). -/
def vioLoggable (d : Dev) (v : Vio) : Bool :=
  !v.rateLimited || (match d.vio.lastNs.find v.code with
    | none => true
    | some t => decide (t + 1000000 ≤ d.time.up))

/-- A violation (R580): VIO_TOTAL and VIO_CNT_c advance, the violation sequence number rises, and the log takes it
under R581, R584 and R585, with the epoch of the domain it occurs in (R63). `items` are the items its rule names,
packed. -/
def violate (d : Dev) (v : Vio) (items : List Byte) : Dev :=
  let d1 := (d.bump Cnt.VIO_TOTAL).bump (Cnt.VIO_CNT v.code)
  let sq := d1.vio.seq
  let sup := if v.rateLimited then min (d1.vio.suppressed.get 0 v.code) 0xFFFF else 0
  let e : VioEntry := ⟨v.code, v.partner, sup, sq, d1.epochIn (vioDomain v), d1.time.ns, items⟩
  let d2 := { d1 with vio := { d1.vio with seq := sq + 1 } }
  if d2.vioLoggable v then
    (if v.rateLimited then
      { d2 with vio := { d2.vio with
          lastNs := d2.vio.lastNs.put v.code d2.time.up
          suppressed := d2.vio.suppressed.del v.code } }
     else d2).logEntry e
  else
    { d2 with vio := { d2.vio with suppressed := d2.vio.suppressed.upd 0 v.code (fun n => min (n + 1) 0xFFFF) } }

/-! ### Rings -/

/-- Entries of ring n (R510): 2^SIZE_LOG2, values outside 4 to 15 acting as the nearer bound. -/
def ringSize (d : Dev) (n : Nat) : Nat := 2 ^ clampN 4 15 (d.cfg.HR_CTL_SIZE_LOG2 n)

/-- HR_CTL_n.EN. -/
def ringOn (d : Dev) (n : Nat) : Bool := d.cfg.HR_CTL_EN n == 1

/-- Entries between the producer's and the consumer's index of a ring the device produces. -/
def ringUsed (d : Dev) (n : Nat) : Nat := ((d.ring n).devIdx - (d.ring n).hostIdx).toNat

/-- Fire MSI-X vector n on an index advance (R507): at most once per MOD_US, an advance inside the interval firing at
its end. -/
def fireMsix (d : Dev) (n : Nat) : Dev :=
  if d.cfg.HR_CTL_IRQ n ≠ 1 then d
  else
    let r := d.ring n
    if r.inInterval then d.setRing n { r with deferred := true }
    else (d.setRing n { r with inInterval := d.cfg.HR_CTL_MOD_US n != 0 }).emit .msix n []

/-- Advance the device index of ring n by k, with the PHASE bit inverting on each wrap, write the index word after the ring's
last entry, and fire its vector (R510, R513). -/
def advanceRing (d : Dev) (n k : Nat) : Dev :=
  let r := d.ring n
  let i := r.devIdx + BitVec.ofNat 16 k
  let wrapped := decide (r.devIdx.toNat % d.ringSize n + k ≥ d.ringSize n)
  ((d.setRing n { r with devIdx := i, phase := if wrapped then !r.phase else r.phase }).emit .ringIndex n (le 8 i.toNat)).fireMsix n

/-- STATUS and DONE of each descriptor of a transmit packet, which the device writes back together, and the ring's index past
the packet (R527, R528): an output has FLAGS with DONE alone set, then STATUS. -/
def writeBack (d : Dev) (n k : Nat) (st : Status) : Dev :=
  ({ d with out := d.out ++ List.replicate k (⟨.ringEntry, n, le 2 0x8000 ++ le 2 st.code⟩ : Output) }).advanceRing n k

/-! ### Completions and commands -/

/-- Output port toward a chip (R501): QL_ROUTE where VALID, else the learned route, else, for a HOST frame to the
followed root, ROOT_PORT. PORT values 6 and 7 name none. -/
def routeTo (d : Dev) (chip : Nat) (host : Bool) : Option Nat :=
  if d.cfg.QL_ROUTE_VALID chip = 1 then
    (if d.cfg.QL_ROUTE_PORT chip < 6 then some (d.cfg.QL_ROUTE_PORT chip) else none)
  else match d.links.learned.find chip with
    | some p => some p
    | none => if host ∧ d.links.followed = some chip ∧ d.links.rootPort < 6 then some d.links.rootPort else none

/-- A HOST frame reaches the chip: a route exists and its port is up (R501, R520). -/
def remoteReachable (d : Dev) (chip : Nat) : Bool :=
  match d.routeTo chip true with
  | some q => (d.qlp q).up
  | none => false

/-- Class of the HOST frames and other frames that no TM queue holds (assumption log). -/
def hostClass : Nat := 7

/-- Queue a frame on a QZ-Link port among the frames that go ahead of the device's own shelf queues. -/
def queueQl (d : Dev) (q : Nat) (f : QlFrame) : Dev :=
  d.modQl q (fun x => { x with transit := x.transit.upd [] f.cls (fun l => l ++ [f]) })

/-- Send a frame toward its chip (R501): with no port, or a port that is down, it is dropped and QL_NO_ROUTE
advances (counted at port 0 where no port is named, a DESIGN CHOICE of the log). -/
def sendQl (d : Dev) (f : QlFrame) : Dev :=
  match d.routeTo f.dst (f.type == 3) with
  | none => d.bump (Cnt.QL_NO_ROUTE 0)
  | some q => if (d.qlp q).up then d.queueQl q f else d.bump (Cnt.QL_NO_ROUTE q)

/-- A HOST frame's payload (R532): its 8-octet header and what follows. -/
def hostPayload (kind ring : Nat) (data : List Byte) : List Byte :=
  le 1 kind ++ le 1 ring ++ le 2 0 ++ le 4 data.length ++ data

/-- Send a HOST frame to a chip (R532). -/
def sendHost (d : Dev) (chip kind ring : Nat) (data : List Byte) : Dev :=
  d.sendQl { type := 3, cls := hostClass, dst := chip, src := d.elec.chipId, ttl := 15, payload := hostPayload kind ring data }

/-- Commands accepted on PCIE whose completions hold a place in ring 1 (R517). -/
def reserved (d : Dev) : Nat :=
  (d.host.inflight.filter (fun c => c.hdr.path == .pcie)).length +
    (d.stg.cmds.filter (fun c => c.cmd.hdr.path == .pcie)).length +
    (d.stg.done.filter (fun c => c.src == .pcie)).length

/-- The device can fetch a command of ring 0: the ring is in use and holds an entry that the host has posted (R510), and ring 1
has a place for the completion (R517). -/
def cmdRoom (d : Dev) : Bool :=
  d.ringOn 0 && decide ((d.ring 0).hostIdx ≠ (d.ring 0).devIdx) && d.ringOn 1 && decide (d.ringUsed 1 + d.reserved < d.ringSize 1)

/-- A command that comes from ring 0 moves the device's index past its slot (R510). -/
def fetchCmd (d : Dev) (p : CmdPath) : Dev := if p = .pcie then d.advanceRing 0 1 else d

/-- The 64 octets of a completion entry (R515), with its PHASE in ring 1 and 0 there on the other paths. -/
def cplOctets (c : Completion) (phase : Bool) : List Byte :=
  le 2 c.opcode ++ le 2 c.status.code ++ le 4 c.cmdId.toNat ++ le 6 c.epoch ++
    le 2 (c.origin + (if c.replayed then 0x4000 else 0) + (if phase then 0x8000 else 0)) ++ slice c.result 0 48

/-- The command executes here, and not on another chip (R514). -/
def isLocal (d : Dev) (c : Cmd) : Bool := !c.hdr.remote || c.hdr.dst.toNat == d.elec.chipId

/-- The chip that executes a command (R514). -/
def execChip (d : Dev) (c : Cmd) : Nat := if d.isLocal c then d.elec.chipId else c.hdr.dst.toNat

/-- The source of a command, numbered as R558 numbers it: the host on every path of R43, or a world of the service cores
(R422, R519). -/
def callerBit : CmdPath → Nat
  | .core .secure => 1
  | .core .vendor => 2
  | .core .customer => 3
  | _ => 0

/-- Post a completion on its source's path (R43, R508, R513, R515, R532): ring 1 while it is in use and otherwise
nowhere, as that of a command accepted before a function-level reset, the console as a frame, the shelf root as a HOST frame, or the core's mailbox. -/
def post (d : Dev) (c : Completion) : Dev :=
  match c.src with
  | .pcie =>
    if d.host.forgotten.contains c.cmdId then
      { d with host := { d.host with forgotten := d.host.forgotten.filter (fun x => x != c.cmdId) } }
    else if d.ringOn 1 then
      let r := d.ring 1
      (({ d with host := { d.host with ring1 := d.host.ring1.put (r.devIdx.toNat % d.ringSize 1) (c, r.phase) } }).emit
        .ringEntry 1 (cplOctets c r.phase)).advanceRing 1 1
    else d
  | .console => d.emit .console 2 (cplOctets c false)
  | .root => match d.links.followed with
    | some r => d.sendHost r 2 0 (cplOctets c false)
    | none => d
  | .otherQl => d.emit .qlHost 2 (cplOctets c false)
  | .core _ => d.emit .coreReply 0 (cplOctets c false)

/-- The device's own chip, or that of the device it took over from, whose history it treats as its own (R570). -/
def ownChip (d : Dev) (chip : Nat) : Bool :=
  decide (chip = d.elec.chipId) || (match d.pair.takeover with | some t => decide (chip = t.oldChip) | none => false)

/-- A history entry is of the same source and executing chip as one with this path and chip (R519). -/
def sameHist (d : Dev) (p : CmdPath) (chip : Nat) (x : Hist) : Bool :=
  decide (callerBit x.src = callerBit p) && (decide (x.cpl.origin = chip) || (d.ownChip chip && d.ownChip x.cpl.origin))

/-- Keep the last 4,096 completions of each source and each executing chip (R519). -/
def remember (d : Dev) (c : Completion) : Dev :=
  let h : List Hist := d.host.hist ++ [⟨c.src, c.cmdId, c⟩]
  let mine := (h.filter (d.sameHist c.src c.origin)).length
  let h' := if mine > 4096 then
      match h.findIdx? (d.sameHist c.src c.origin) with
      | some i => h.eraseIdx i
      | none => h
    else h
  { d with host := { d.host with hist := h' } }

/-- The completion of a command, with the epoch given. -/
def cplOf (d : Dev) (c : Cmd) (st : Status) (result : List Byte) (epoch : Nat) : Completion :=
  ⟨c.hdr.path, c.op.code, st, c.hdr.cmdId, epoch, d.elec.chipId, false, result⟩

/-- Complete a command now (R515): EPOCH is the epoch in which it completed; it leaves the in-flight list and enters the
history. -/
def complete (d : Dev) (c : Cmd) (st : Status) (result : List Byte := []) : Dev :=
  let k := d.cplOf c st result d.epoch.numPcie
  (({ d with host := { d.host with inflight := d.host.inflight.filter (fun x => !decide (x = c)) } }).remember k).post k


/-- Complete a command later, with a completion already formed (R68, R444): it leaves the in-flight list. -/
def finish (d : Dev) (k : Completion) : Dev :=
  (({ d with host := { d.host with inflight := d.host.inflight.filter (fun x =>
    !(d.isLocal x && decide (x.hdr.path = k.src ∧ x.hdr.cmdId = k.cmdId))) } }).remember k).post k

/-- Complete a command with a refusal that R520 gives before acceptance: it enters no history. -/
def refuseCmd (d : Dev) (c : Cmd) (st : Status) : Dev := d.post (d.cplOf c st [] d.epoch.numPcie)

/-- The path that commands of the control mode in force come on (R43, R516). -/
def modePath (d : Dev) : CmdPath :=
  match d.modes.control with
  | .standAlone => .console
  | .hosted => .pcie
  | .shelfMember => .root

/-- R516: the source may give this command in the control mode in force; R53 gives the sources of CMD_HOST_ATTACH. -/
def sourceOk (d : Dev) (c : Cmd) : Bool :=
  match c.op, c.hdr.path with
  | .CMD_NOP, _ => true
  | .CMD_HOST_ATTACH, p => decide (p = .pcie ∨ p = .root)
  | _, .core _ => true
  | _, p => decide (p = d.modePath)

/-- R534: commands that complete with ST_WORLD_DENIED from the customer world. -/
def customerDenied (c : Cmd) : Bool :=
  c.hdr.path == .core .customer &&
    (match c.op with
     | .CMD_LC_ADVANCE | .CMD_OTP_HASH | .CMD_ROLLBACK_COMMIT | .CMD_CINNABAR_LOCK | .CMD_KEY_MIGRATE
     | .CMD_PAIR_SET => true
     | _ => false)

/-- The stored completion of a command of the history of its source and executing chip (R519). ORIGIN is the chip that executed
it; what this device inherited it answers with its own (R570). -/
def replayOf (d : Dev) (c : Cmd) : Option Completion :=
  (d.host.hist.find? (fun x => d.sameHist c.hdr.path (d.execChip c) x && decide (x.cmdId = c.hdr.cmdId))).map
    (fun x => { x.cpl with origin := d.execChip c })

/-- A command of this source and CMD_ID is accepted and not completed on the chip that executes it (R519). -/
def isInFlight (d : Dev) (c : Cmd) : Bool :=
  let b := callerBit c.hdr.path
  d.host.inflight.any (fun x => decide (d.execChip x = d.execChip c ∧ callerBit x.hdr.path = b ∧ x.hdr.cmdId = c.hdr.cmdId)) ||
    (d.isLocal c &&
      (d.stg.cmds.any (fun x => decide (callerBit x.cmd.hdr.path = b ∧ x.cmd.hdr.cmdId = c.hdr.cmdId)) ||
        d.stg.done.any (fun x => decide (callerBit x.src = b ∧ x.cmdId = c.hdr.cmdId))))

/-- The completion that waits answers this command too (R519), also where a function-level reset has discarded it for the first
(R508). -/
def recallCpl (d : Dev) (c : Cmd) : Dev :=
  if c.hdr.path = .pcie then
    { d with host := { d.host with forgotten := d.host.forgotten.filter (fun x => x != c.hdr.cmdId) } }
  else d

/-- The commands of ring 0 accepted and not completed: their completions are discarded from now on (R508). -/
def forgetCmds (d : Dev) : Dev :=
  let ids := (d.host.inflight.filter (fun c => c.hdr.path == .pcie)).map (fun c => c.hdr.cmdId) ++
    (d.stg.cmds.filter (fun c => c.cmd.hdr.path == .pcie)).map (fun c => c.cmd.hdr.cmdId) ++
    (d.stg.done.filter (fun c => c.src == .pcie)).map (fun c => c.cmdId) ++
    (d.sec.nextCmds.filter (fun c => c.src == .pcie)).map (fun c => c.cmdId)
  { d with host := { d.host with forgotten := ids.foldl (fun l i => if l.contains i then l else l ++ [i]) d.host.forgotten } }

/-- Something holds the device in reset. -/
def heldReset (d : Dev) : Bool := d.elec.sysLow || d.elec.supplyLow || d.elec.thermalHeld

/-- The device takes no command: it is held in reset (R599), in manufacturing test (R604), without a boot image (R414), or
without LPDDR, when it enters no control mode (R35). -/
def deaf (d : Dev) : Bool := d.heldReset || d.elec.testEn || d.elec.bootNone || d.elec.ddrFail

/-- A command with REMOTE that this device cannot send on (R520). -/
def remoteLost (d : Dev) (c : Cmd) : Bool :=
  c.hdr.remote && !(d.links.isRoot && (d.isLocal c || d.remoteReachable c.hdr.dst.toNat))

/-- Send a command on to the chip that executes it (R514, R532); it waits for that chip's completion. -/
def forward (d : Dev) (c : Cmd) : Dev :=
  ({ d with host := { d.host with inflight := d.host.inflight ++ [c] } }).sendHost c.hdr.dst.toNat 1 0
    (le 2 c.op.code ++ le 2 0 ++ le 4 c.hdr.cmdId.toNat ++ le 2 c.hdr.dst.toNat ++ List.replicate 54 0#8 ++ slice c.p 0 64)

/-- Take a command from its source (R514 to R520, R534). A ring-0 command that finds no place in ring 1 is not fetched.
CMD_ID 0, an unreachable REMOTE, a replay, a duplicate, a foreign source and a denied world end here, in this order (DESIGN
CHOICE, log entry 200); every other command is accepted, and has the effect `f` or goes on to its chip. -/
def command (d : Dev) (c : Cmd) (f : Dev → Dev) : Dev :=
  if d.deaf = true ∨ (c.hdr.path = .pcie ∧ ¬ d.cmdRoom = true) then d
  else
    let d := d.fetchCmd c.hdr.path
    if c.hdr.cmdId = 0 then d.refuseCmd c .ST_BAD_PARAM
    else if d.remoteLost c then d.refuseCmd c .ST_NOT_FOUND
    else
      match d.replayOf c with
      | some k => (d.bump Cnt.CMD_REPLAYED).post { k with src := c.hdr.path, replayed := true }
      | none =>
        if d.isInFlight c then (d.recallCpl c).bump Cnt.CMD_DUP_INFLIGHT
        else if ¬ d.sourceOk c then d.complete c .ST_MODE_REFUSED
        else if customerDenied c then d.complete c .ST_WORLD_DENIED
        else if d.isLocal c then f (d.bump Cnt.CMD_ACCEPTED)
        else (d.bump Cnt.CMD_ACCEPTED).forward c

/-- Hold a command as accepted and not completed. -/
def holdCmd (d : Dev) (c : Cmd) : Dev := { d with host := { d.host with inflight := d.host.inflight ++ [c] } }

/-- Stage a command (R66): it waits for its boundary, named or the first whose freeze follows. -/
def stageCmd (d : Dev) (c : Cmd) (atEpoch : Option Nat) : Dev :=
  { d with stg := { d.stg with cmds := d.stg.cmds ++ [⟨c, atEpoch, false⟩] } }

/-- Complete a staged command after the boundary that applies it (R68): EPOCH is the first epoch in which it is in force.
The PCIE strobe posts it. -/
def completeStaged (d : Dev) (c : Cmd) (st : Status) (result : List Byte := []) : Dev :=
  { d with stg := { d.stg with done := d.stg.done ++ [d.cplOf c st result d.epoch.num] } }

end Dev

end Sys2Proof.Machine
end

