-- ==== Sys2Proof/Machine/Operands.lean ====
section
/-! DEFINITION. The formats that commands and frames carry: PHY modes (R133, R134), airtime (R181), the constants of
R195, checksums (R116, R135, R139), PHR forms (R139, R140), the MAC header and the Mesh IE (R220 to R222, R286 to R289,
R622), and the codes of the mode groups (R40, R85, R141). -/

namespace Sys2Proof.Machine

/-! ### Codes -/

def Ctl.code : Ctl → Nat
  | .standAlone => 0 | .hosted => 1 | .shelfMember => 2

def Redund.code : Redund → Nat
  | .solo => 0 | .active => 1 | .standby => 2 | .resync => 3

def Phase.code : Phase → Nat
  | .startUp => 0 | .service => 1 | .recovery => 2 | .survey => 3 | .test => 4

/-- The phase of a code of R40. -/
def Phase.ofCode : Nat → Option Phase
  | 0 => some .startUp | 1 => some .service | 2 => some .recovery | 3 => some .survey | 4 => some .test | _ => none

def PortState.code : PortState → Nat
  | .off => 0 | .stby => 1 | .idle => 2 | .rx => 3 | .tx => 4 | .cal => 5 | .retune => 6 | .txpre => 7

def LaneState.code : LaneState → Nat
  | .parked => 0 | .blanked => 1 | .search => 2 | .preamble => 3 | .header => 4 | .payload => 5 | .close => 6

/-! ### PHY modes -/

/-- PHY families (R134). -/
inductive Family where
  | fsk | oqpsk | deep | wide
  deriving DecidableEq, Repr, Inhabited

/-- A PHY mode (R133): family, symbols per second, PSDU bits per symbol of an uncoded frame (b of R181), spacing in kHz,
bands, and the constants of R195 (turnaround in µs, CCA time in µs). -/
structure Mode where
  family : Family
  rate : Nat
  b : Nat
  spacing : Nat
  bandL : Bool
  bandS : Bool
  ta : Nat
  cca : Nat
  deriving DecidableEq, Repr

/-- The delay of the receive path from the RF ball to the match of a sync word, ns (R469); T is the symbol period. -/
def rxDelayNs (m : Mode) : Nat :=
  match m.family with
  | .fsk | .wide => 1210 + 3000000000 / m.rate
  | .deep => 1210 + 4000000000 / m.rate
  | .oqpsk => 4210

/-- The delay of the transmit path from the modulator to the RF ball, ns (R469). -/
def txDelayNs : Option Mode → Nat
  | none => 0
  | some m => match m.family with
    | .oqpsk => 1640
    | _ => 640 + 500000000 / m.rate

/-- R133 and R195. Codes not listed are unused. -/
def modeOf : Nat → Option Mode
  | 0x01 => some ⟨.fsk, 50000, 1, 200, true, false, 1000, 160⟩
  | 0x02 => some ⟨.fsk, 100000, 1, 400, true, false, 1000, 80⟩
  | 0x03 => some ⟨.fsk, 150000, 1, 400, true, false, 1000, 54⟩
  | 0x04 => some ⟨.fsk, 200000, 1, 400, true, false, 1000, 40⟩
  | 0x05 => some ⟨.fsk, 100000, 2, 400, true, false, 1000, 80⟩
  | 0x06 => some ⟨.fsk, 300000, 1, 600, true, false, 1000, 27⟩
  | 0x07 => some ⟨.fsk, 200000, 2, 600, true, false, 1000, 40⟩
  | 0x10 => some ⟨.oqpsk, 62500, 4, 5000, false, true, 192, 128⟩
  | 0x21 => some ⟨.deep, 25000, 1, 50, true, true, 1000, 640⟩
  | 0x22 => some ⟨.deep, 50000, 1, 100, true, true, 1000, 320⟩
  | 0x23 => some ⟨.deep, 100000, 1, 200, true, true, 1000, 160⟩
  | 0x31 => some ⟨.wide, 750000, 2, 2000, true, true, 200, 43⟩
  | 0x32 => some ⟨.wide, 1500000, 2, 4000, true, true, 200, 22⟩
  | _ => none

/-- Tuning band L of R84. -/
def inBandL (khz : Nat) : Bool := decide (150000 ≤ khz ∧ khz ≤ 1050000)
/-- Tuning band S of R84. -/
def inBandS (khz : Nat) : Bool := decide (2300000 ≤ khz ∧ khz ≤ 2500000)
/-- Some tuning band. -/
def inBand (khz : Nat) : Bool := inBandL khz || inBandS khz

/-- A channel suits a mode's Band column, and OQPSK-250 its own range (R130, R172). -/
def bandFits (m : Mode) (khz : Nat) : Bool :=
  ((inBandL khz && m.bandL) || (inBandS khz && m.bandS)) &&
    (m.family != .oqpsk || decide (2400000 ≤ khz ∧ khz ≤ 2483500))

/-- |a − b|. -/
def absDiff (a b : Nat) : Nat := if a ≤ b then b - a else a - b

/-- The in-window test of R130, in half-kHz to keep spacing / 2 exact. -/
def inWindow (m : Mode) (khz centre : Nat) : Bool := decide (2 * absDiff khz centre + m.spacing ≤ 90000)

/-- Default preamble length as sent: octets for SUN-FSK and O-QPSK, symbols for Deep and Wide (R134). -/
def Family.preamble : Family → Nat
  | .fsk => 8 | .oqpsk => 4 | .deep => 64 | .wide => 32

/-- The symbol count N of R181 for a PSDU of `l` octets, with preamble `p`; the SUN-FSK counts are rounded up to a whole
symbol. -/
def symbols (m : Mode) (coded : Bool) (p l : Nat) : Nat :=
  match m.family with
  | .fsk =>
    if coded then ceilDiv (8 * p + 16 + 16 * ceilDiv (8 * l + 19) 8) m.b else ceilDiv (8 * p + 32 + 8 * l) m.b
  | .oqpsk => 2 * (6 + l)
  | .deep => p + 32 + 64 + 256 * ceilDiv (16 * l + 12) 256
  | .wide => p + 16 + 30 + 6 * l + 5

/-- The duration of n symbols in µs, rounded up. -/
def symUs (m : Mode) (n : Nat) : Nat := ceilDiv (n * 1000000) m.rate

/-- The airtime A of R181 in µs: two ramps and N symbols with the default preamble. -/
def airtime (m : Mode) (coded : Bool) (rampUs l : Nat) : Nat :=
  2 * rampUs + symUs m (symbols m coded m.family.preamble l)

/-- The ack wait of R195 in µs. -/
def ackWaitUs (m : Mode) (slack : Nat) : Nat :=
  let sym := match m.family with
    | .fsk => 80 / m.b
    | .oqpsk => 10
    | .deep => 96
    | .wide => 48
  m.ta + symUs m sym + slack

/-- Ramp length: values 0 and 1 act as 2 (R193). -/
def rampUs (v : Nat) : Nat := max v 2

/-! ### Checksums -/

/-- One bit of CRC-8, x^8 + x^2 + x + 1, the register shifting left (R139). -/
def crc8Bit (crc : Nat) (bt : Bool) : Nat :=
  let top := (bit crc 7) != bt
  let s := (crc * 2) % 256
  if top then s ^^^ 0x07 else s

/-- CRC-8 of bits [15:0] in order of transmission, bit 0 first, initial value 0 (R139). -/
def crc8 (v : Nat) : Nat := (List.range 16).foldl (fun c i => crc8Bit c (bit v i)) 0

/-- One octet through a reflected CRC. -/
def crcOctet (poly : Nat) (crc : Nat) (o : Byte) : Nat :=
  (List.range 8).foldl (fun c _ => if c % 2 == 1 then (c / 2) ^^^ poly else c / 2) (crc ^^^ o.toNat)

/-- CRC-32 of IEEE 802.3 clause 3.2.9 (R116, R135). -/
def crc32 (bs : List Byte) : Nat := (bs.foldl (crcOctet 0xEDB88320) 0xFFFFFFFF) ^^^ 0xFFFFFFFF

/-- CRC-16 of IEEE 802.15.4 clause 7.2 (R135): ITU-T polynomial, initial value 0. -/
def crc16 (bs : List Byte) : Nat := bs.foldl (crcOctet 0x8408) 0

/-- The FCS of a PSDU is good: its last 2 or 4 octets are the CRC of those before, the 4-octet FCS of a short frame being
computed as clause 7.2 pads it to 4 octets. -/
def fcsOk (fcs2 : Bool) (psdu : List Byte) : Bool :=
  if fcs2 then
    decide (2 ≤ psdu.length ∧ unle (psdu.drop (psdu.length - 2)) = crc16 (psdu.take (psdu.length - 2)))
  else
    let body := psdu.take (psdu.length - 4)
    let padded := if body.length < 4 then body ++ List.replicate (4 - body.length) 0#8 else body
    decide (4 ≤ psdu.length ∧ unle (psdu.drop (psdu.length - 4)) = crc32 padded)

/-! ### PHR -/

/-- What a PHR says. -/
structure Phr where
  len : Nat
  fcs2 : Bool
  whitened : Bool
  reason : Nat
  deriving DecidableEq, Repr

/-- Decode and check a PHR (R139, R140): bit 0 is the first bit on air. The SUN-FSK form is that of IEEE 802.15.4-2020
clause 19: bit 0 mode switch, bits 1 and 2 reserved, bit 3 FCS type, bit 4 whitening, bits 5 to 15 the length, most
significant bit first. The O-QPSK form is 7 bits of length and 1 reserved bit. -/
def phrOf (m : Mode) (v : Nat) : Phr :=
  match m.family with
  | .fsk =>
    let len := (List.range 11).foldl (fun a i => a * 2 + ofBool (bit v (5 + i))) 0
    let fcs2 := bit v 3
    let min := (if fcs2 then 2 else 4) + 3
    let r := if bits v 2 1 ≠ 0 then 2 else if bit v 0 then 3 else if len < min then 4 else 0
    ⟨len, fcs2, bit v 4, r⟩
  | .oqpsk =>
    let len := bits v 6 0
    let r := if bit v 7 then 2 else if len < 5 then 4 else 0
    ⟨len, true, false, r⟩
  | _ =>
    let len := bits v 10 0
    let fcs2 := bit v 11
    let min := (if fcs2 then 2 else 4) + 3
    let r := if bits v 23 16 ≠ crc8 (bits v 15 0) then 1 else if bits v 15 13 ≠ 0 then 2
      else if len < min then 4 else 0
    ⟨len, fcs2, bit v 12, r⟩

/-! ### MAC frames -/

/-- The Mesh IE's octets without its descriptor (R287). -/
def MeshIe.octets (m : MeshIe) : List Byte :=
  le 1 m.kind ++ le 1 m.ttl ++ le 1 m.hops ++ le 1 m.hopList.length ++ le 2 m.origin ++ le 2 m.target ++ le 2 m.cell ++
    le 2 m.floodId ++ m.hopList.flatMap (fun a => le 2 a)

/-- A Qorzora header IE: descriptor (length in bits [6:0], element ID in bits [14:7]) and content (R221, R286). -/
def headerIe (id : Nat) (content : List Byte) : List Byte := le 2 (content.length + 128 * id) ++ content

/-- The octets of the Mesh IE with its descriptor, element ID 0x0E (R286). -/
def MeshIe.ie (m : MeshIe) : List Byte := headerIe 0x0E m.octets

/-- Parse the content of a Mesh IE; the flag says that it fails the checks of R289 that the IE alone decides. -/
def meshOf (c : List Byte) : MeshIe × Bool :=
  let n := fld c 3 1
  let m : MeshIe := ⟨fld c 0 1 % 4, fld c 1 1, fld c 2 1, fld c 4 2, fld c 6 2, fld c 8 2 % 1024, fld c 10 2,
    (List.range (min n 8)).map (fun i => fld c (12 + 2 * i) 2)⟩
  let bad := decide (fld c 0 1 ≥ 4) || decide (fld c 8 2 ≥ 1024) || decide (m.ttl > 31) || decide (m.hops > 31) ||
    (if m.kind = 3 then decide (n < 1 ∨ 8 < n) else decide (n ≠ 0)) || decide (c.length ≠ 12 + 2 * n) ||
    (m.kind == 0 && (decide (m.target ≠ 0xFFFC) || decide (m.origin ≥ 0xFFF0)))
  (m, bad)

/-- The header IEs of a frame: element ID and content, in order, with the octets they take; it ends at a header
termination IE (0x7E, 0x7F) or at the end of the octets. -/
def headerIes : Nat → List Byte → List (Nat × List Byte) × Nat
  | 0, _ => ([], 0)
  | fuel + 1, bs =>
    if bs.length < 2 then ([], 0)
    else
      let v := fld bs 0 2
      let n := v % 128
      let id := bits v 14 7
      if bit v 15 then ([], 0)
      else if id = 0x7E ∨ id = 0x7F then ([], 2 + n)
      else
        let r := headerIes fuel (bs.drop (2 + n))
        ((id, slice bs 2 n) :: r.1, 2 + n + r.2)

/-- Octets of an address by addressing mode. -/
def addrLen : Nat → Nat
  | 2 => 2 | 3 => 8 | _ => 0

/-- Parse a MAC frame without its FCS (IEEE 802.15.4-2020 clause 7.2; R201, R202, R286). -/
def macOf (f : List Byte) : RxMac :=
  let fc := fld f 0 2
  let ftype := bits fc 2 0
  let sec := bit fc 3
  let comp := bit fc 6
  let noSeq := bit fc 8
  let iePresent := bit fc 9
  let dm := bits fc 11 10
  let ver := bits fc 13 12
  let sm := bits fc 15 14
  let o1 := if ver = 2 ∧ noSeq then 2 else 3
  let dstPanHere :=
    if ver < 2 then decide (dm ≠ 0)
    else if dm = 0 ∧ sm = 0 then comp
    else if dm ≠ 0 ∧ sm = 0 then !comp
    else if dm = 0 then false
    else if dm = 3 ∧ sm = 3 then !comp
    else true
  let srcPanHere :=
    if ver < 2 then decide (sm ≠ 0) && !(comp && decide (dm ≠ 0))
    else if dm = 0 ∧ sm ≠ 0 then !comp
    else if dm ≠ 0 ∧ sm ≠ 0 ∧ ¬ (dm = 3 ∧ sm = 3) then !comp
    else false
  let o2 := o1 + (if dstPanHere then 2 else 0)
  let o3 := o2 + addrLen dm
  let o4 := o3 + (if srcPanHere then 2 else 0)
  let o5 := o4 + addrLen sm
  let dstPan := if dstPanHere then fld f o1 2 else if srcPanHere then fld f o3 2 else 0xFFFF
  let sc := fld f o5 1
  let kim := bits sc 4 3
  let fcAbsent := bit sc 5
  let kil := match kim with | 0 => 0 | 1 => 1 | 2 => 5 | _ => 9
  let secLen := if sec then 1 + (if fcAbsent then 0 else 4) + kil else 0
  let o6 := o5 + secLen
  let ies := if ver = 2 ∧ iePresent then headerIes 32 (f.drop o6) else ([], 0)
  let o7 := o6 + ies.2
  let mesh := match ies.1.head? with
    | some (0x0E, c) => some (meshOf c)
    | _ => none
  let meshLate := (ies.1.drop 1).any (fun x => x.1 == 0x0E)
  { ftype := ftype
    version := ver
    ar := bit fc 5
    secured := sec
    dstMode := dm
    dstPan := dstPan
    dst := fld f o2 (addrLen dm)
    srcMode := sm
    srcPan := if srcPanHere then fld f o3 2 else dstPan
    src := fld f o4 (addrLen sm)
    seq := if o1 = 3 then fld f 2 1 else 0
    secLevel := if sec then bits sc 2 0 else 0
    keyIdMode := if sec then kim else 0
    keyIndex := if sec ∧ kim ≠ 0 then fld f (o6 - 1) 1 else 0
    fc := if sec ∧ ¬ fcAbsent then some (fld f (o5 + 1) 4) else none
    cmd := if ftype = 3 then fld f o7 1 else 0
    mesh := mesh.map (fun x => x.1)
    meshBad := (match mesh with | some x => x.2 | none => false) || meshLate
    panHere := dstPanHere || (decide (dm = 0) && srcPanHere)
    ies := ies.1
    payload := (f.drop o7).take (f.length - o7)
    aad := match mesh, ies.1.head? with
      | some x, some (_, c) =>
        ({ x.1 with ttl := 0, hops := 0 } : MeshIe).ie ++ slice f o5 secLen ++
          slice f (o6 + 2 + c.length) (ies.2 - 2 - c.length)
      | _, _ => f.take o7 }

/-- The octets of a node-bound MAC header (R622): data or Association response, before the payload. `dst` is short unless
`ext`. -/
def macHeader (kind : TxKind) (ver seqNo panId dst : Nat) (dstEui srcEui : Nat) (ar : Bool) (aux mesh : List Byte) :
    List Byte :=
  match kind with
  | .assoc =>
    let comp := if ver = 2 then 0 else 0x40
    le 2 (0x0003 + (if ar then 0x20 else 0) + comp + 0x0C00 + 0x1000 * ver + 0xC000) ++ le 1 seqNo ++ le 2 panId ++
      le 8 dstEui ++ le 8 srcEui
  | _ =>
    le 2 (0x0001 + 0x08 + (if ar then 0x20 else 0) + 0x40 + (if mesh.isEmpty then 0 else 0x200) + 0x0800 +
        0x1000 * ver + 0xC000) ++ le 1 seqNo ++ le 2 panId ++ le 2 dst ++ le 8 srcEui ++ aux ++ mesh

/-- MIC octets of a security level (bits [1:0] of the level: 0, 4, 8, 16). -/
def micOctets (level : Nat) : Nat :=
  match level % 4 with
  | 0 => 0 | 1 => 4 | 2 => 8 | _ => 16

/-- PSDU octets of a node-bound data frame (R309, R622): 15 octets of addressing, the Mesh IE with its descriptor, a
6-octet auxiliary header, the payload, the MIC and the FCS. -/
def dataPsduLen (meshLen payload mic fcs : Nat) : Nat := 15 + meshLen + 6 + payload + mic + fcs

/-- PSDU octets of an Association response: 21 octets of addressing, 4 of command, the FCS (R214, R622). -/
def assocPsduLen (fcs : Nat) : Nat := 21 + 4 + fcs

/-- PSDU octets of a beacon (R220). -/
def beaconPsduLen (secured : Bool) (oqpsk : Bool) : Nat :=
  55 + (if oqpsk then 2 else 4) + (if secured then 14 else 0)

/-- PSDU octets of an Imm-Ack and of an Enh-Ack (R208). -/
def ackPsduLen (enh short secured fcs2 : Bool) : Nat :=
  (if enh then 3 + (if short then 2 else 8) + (if secured then 6 else 0) + 2 + 4 + (if secured then 4 else 0) else 3) +
    (if fcs2 then 2 else 4)

/-- LQI from an SNR in 0.25 dB units (R153): min(255, max(0, round(8 (SNR + 4)))), which is exact in these units. -/
def lqiOf (snr : Int) : Nat := (clampI 0 255 (2 * (snr + 16))).toNat

/-- SNR as reported: 0.25 dB units, saturating at -32.00 and +31.75 dB (R153). -/
def satSnr (snr : Int) : Int := clampI (-128) 127 snr

/-- RSSI in whole dBm, saturated (R208): the 0.25 dB value divided by 4 and floored. -/
def wholeDbm (rssi : Int) : Int := clampI (-128) 127 (rssi / 4)

/-- The 32 octets of a receive-log record (R157). -/
def RxRecord.octets (r : RxRecord) : List Byte :=
  le 8 r.syncTime ++ le 6 r.epoch ++ le 2 r.seq ++ le 2 r.phrLen ++ le 2 r.present ++ le 2 (pat 16 r.rssi) ++
    le 1 (pat 8 r.snr) ++ le 1 r.lqi ++ le 2 (pat 16 r.foff) ++ le 2 r.flags ++ le 1 r.lane ++ le 1 r.mode ++
    le 1 r.outcome ++ le 1 r.aux

/-- The 16 octets of a transmit stamp record (R191). -/
def Stamp.octets (s : Stamp) : List Byte :=
  le 8 s.time ++ le 4 s.tag.toNat ++ le 2 s.seq ++ le 1 s.carrier ++ le 1 s.flags

end Sys2Proof.Machine
end

