-- ==== Sys2Proof/Machine/Phy.lean ====
section
/-! DEFINITION. The line code of each mode family (R134 to R139, R619, R177): preambles, sync words, whitening, forward error
correction, interleaving, and the mapping to symbols. What the rules take from IEEE 802.15.4-2020 clauses 12 and 19 is
PRESUMED from that standard (log entry 147); its two SUN-FSK codes and their interleaver are open functions. -/

namespace Sys2Proof.Machine

/-! ### Bits -/

/-- The n low bits of a value, most significant first. -/
def msbBits (n v : Nat) : List Bool := (List.range n).map (fun i => bit v (n - 1 - i))

/-- The n low bits of a value, bit 0 first. -/
def lsbBits (n v : Nat) : List Bool := (List.range n).map (fun i => bit v i)

/-- The bits of octets in order of transmission, bit 0 of each first. -/
def psduBits (bs : List Byte) : List Bool := bs.flatMap (fun o => lsbBits 8 o.toNat)

/-- The octets of bits in order of transmission. -/
def octetsOfBits (b : List Bool) : List Byte :=
  (List.range (b.length / 8)).map (fun i =>
    BitVec.ofNat 8 (((b.drop (8 * i)).take 8).foldr (fun x n => ofBool x + 2 * n) 0))

/-- The number that bits spell, the first most significant. -/
def bitsVal (b : List Bool) : Nat := b.foldl (fun n x => 2 * n + ofBool x) 0

/-- Bits in groups of n; the last is filled with zeros. -/
def groupsOf (n : Nat) (b : List Bool) : List (List Bool) :=
  (List.range (ceilDiv b.length n)).map (fun i =>
    let g := (b.drop (n * i)).take n
    g ++ List.replicate (n - g.length) false)

/-! ### Whitening (R135, R137) -/

/-- PN9: the nine last bits of the register, newest first, start at ones; each bit is that of four and of nine bits ago. -/
def pn9 : Nat → List Bool → List Bool
  | 0, _ => []
  | n + 1, r =>
    let b := (r.getD 3 true) != (r.getD 8 true)
    b :: pn9 n (b :: r.take 8)

/-- n bits of PN9 from its start. -/
def pn9Bits (n : Nat) : List Bool := pn9 n (List.replicate 9 true)

/-- Whitening of PSDU octets; it undoes itself. -/
def whiten (on : Bool) (bs : List Byte) : List Byte :=
  if on then octetsOfBits (((psduBits bs).zip (pn9Bits (8 * bs.length))).map (fun x => x.1 != x.2)) else bs

/-! ### The code of the Deep and Wide modes (R137, R138) -/

/-- Parity of the taps of a generator over the seven bits in the register, the newest at the generator's top bit. -/
def tapsOf (g : Nat) (r : List Bool) : Bool :=
  (((msbBits 7 g).zip r).filter (fun x => x.1 && x.2)).length % 2 == 1

/-- Rate 1/2, constraint length 7, generators 0o171 and 0o133, g0 first; `r` holds the six last bits, newest first. -/
def convCode : List Bool → List Bool → List Bool
  | [], _ => []
  | b :: l, r => tapsOf 0o171 (b :: r) :: tapsOf 0o133 (b :: r) :: convCode l (b :: r.take 5)

/-- A terminated block: the encoder starts at zero and a tail of 6 zero bits ends it. -/
def convBlock (b : List Bool) : List Bool := convCode (b ++ List.replicate 6 false) (List.replicate 6 false)

/-- An n × n block interleaver, written row by row and read column by column. -/
def interleave (n : Nat) (b : List Bool) : List Bool :=
  (List.range n).flatMap (fun c => (List.range n).map (fun r => b.getD (n * r + c) false))

/-- Blocks of n × n, the last padded with zeros. -/
def interleaved (n : Nat) (b : List Bool) : List Bool := (groupsOf (n * n) b).flatMap (interleave n)

/-- Rate 2/3: of each pair of input bits the outputs A1, B1 and A2 are sent, and one zero bit pads the whole. -/
def punctured (b : List Bool) : List Bool :=
  ((List.range b.length).filter (fun i => i % 4 != 3)).map (fun i => b.getD i false) ++ [false]

/-! ### O-QPSK (R136) -/

/-- The chips of data symbol 0, first chip first. -/
def chip0 : List Bool := msbBits 32 0xD9C3522E

/-- The 32 chips of a data symbol: symbols 1 to 7 turn those of 0 by 4 chips each, and 8 to 15 invert the odd chips. -/
def chipsOf (n : Nat) : List Bool :=
  (List.range 32).map (fun i => (chip0.getD ((i + 32 - 4 * (n % 8)) % 32) false) != (decide (8 ≤ n) && decide (i % 2 = 1)))

/-- The data symbols of octets, the low half first. -/
def nibblesOf (bs : List Byte) : List Nat := bs.flatMap (fun o => [o.toNat % 16, o.toNat / 16])

/-- The centre of channel k, 11 to 26, in kHz. -/
def oqpskKhz (k : Nat) : Nat := 2405000 + 5000 * (k - 11)

/-! ### Preambles and sync words (R134, R135) -/

/-- Shortest and longest preamble accepted: octets for SUN-FSK and O-QPSK, symbols for Deep and Wide. -/
def Family.preambleMin : Family → Nat
  | .fsk => 4 | .oqpsk => 4 | .deep => 32 | .wide => 24
def Family.preambleMax : Family → Nat
  | .fsk => 1000 | .oqpsk => 4 | .deep => 4096 | .wide => 1024

/-- Bits of a sync word. -/
def Family.syncBits : Family → Nat
  | .fsk => 16 | .oqpsk => 8 | .deep => 32 | .wide => 32

/-- The sync word of a family; a SUN-FSK SFD follows its set and whether the frame is coded. -/
def syncWord (f : Family) (set : Nat) (coded : Bool) : Nat :=
  match f with
  | .fsk => if set = 0 then (if coded then 0x6F4E else 0x904E) else (if coded then 0x632D else 0x7A0E)
  | .oqpsk => 0xA7
  | .deep => 0x2D4C91F3
  | .wide => 0xB3E90A5D

/-- Bits in which a received sync word differs from one expected (R143). -/
def syncErrs (f : Family) (a b : Nat) : Nat := ((List.range f.syncBits).filter (fun i => bit a i != bit b i)).length

/-- Bit errors a sync word may hold (R143). -/
def Family.syncErrors : Family → Nat
  | .fsk => 1 | .oqpsk => 0 | .deep => 3 | .wide => 3

/-- What a received sync word means to a lane: none where it does not match, else whether the frame is coded (R135, R143):
the SFD received selects FEC. -/
def syncKind (f : Family) (set word : Nat) : Option Bool :=
  let fits := fun c => decide (syncErrs f word (syncWord f set c) ≤ f.syncErrors)
  match f with
  | .fsk => if fits true then some true else if fits false then some false else none
  | .oqpsk => if fits false then some false else none
  | _ => if fits true then some true else none

/-! ### Bit boundaries (R619) -/

/-- The PHR is checked once this many bits have passed after the sync word: coded bit 64 of a coded SUN-FSK frame, the last
bit of an uncoded PHR, the end of the PHR's block for Deep and Wide. -/
def phrBits (f : Family) (coded : Bool) : Nat :=
  match f with
  | .fsk => if coded then 64 else 16
  | .oqpsk => 8
  | .deep => 64
  | .wide => 60

/-- PSDU octets received when `n` bits have passed since the sync word; none where the code's blocks leave it open (Deep,
Wide). Octet i of a coded SUN-FSK frame counts once coded bit 80 + 16 i has passed. -/
def octetsAt (f : Family) (coded : Bool) (n : Nat) : Option Nat :=
  match f with
  | .fsk => some (if coded then (n - 64) / 16 else (n - 16) / 8)
  | .oqpsk => some ((n - 8) / 8)
  | _ => none

/-! ### Frames -/

/-- The PHR of a frame as sent: unwhitened, with the lengths and the FCS type of its PSDU (R139; clause 19 for SUN-FSK). -/
def phrSent (f : Family) (fcs2 : Bool) (len : Nat) : List Bool :=
  match f with
  | .fsk => [false, false, false, fcs2, false] ++ msbBits 11 len
  | .oqpsk => lsbBits 8 len
  | _ =>
    let v := len % 2048 + (if fcs2 then 2048 else 0)
    lsbBits 24 (v + crc8 v * 65536)

/-- Two bits as a level of the Wide modes, times the inner deviation (R138). -/
def wideLevel (n : Nat) : Int := 2 * (n : Int) - 3

/-- Symbols of bits, b bits each, as octets. -/
def symbolsOf (b : Nat) (l : List Bool) : List Byte := (groupsOf b l).map (fun g => BitVec.ofNat 8 (bitsVal g))

/-- Symbols of a Wide mode: levels as two's complement octets. -/
def wideSymbols (l : List Bool) : List Byte :=
  (groupsOf 2 l).map (fun g => BitVec.ofInt 8 (wideLevel (bitsVal g)))

/-- The parity of four of the SUN-FSK taps, from bit `lo` on, over the bit that enters the encoder and the three before it. -/
def sunTap (lo : Nat) (r : List Bool) : Bool :=
  (((List.range 4).filter (fun i => bit Config.sunTaps.toNat (lo + i) && r.getD i false)).length % 2 == 1)

/-- A SUN-FSK code of rate 1/2 and constraint length 4 (R135), `r` the three last bits, newest first. NRNSC sends two parities of
the input; RSC sends the input and a parity of the fed-back bit. The taps are those of clause 19, which the spec does not
repeat. -/
def sunCode (rsc : Bool) : List Bool → List Bool → List Bool
  | [], _ => []
  | b :: l, r =>
    if rsc then
      let w := b != sunTap 8 (false :: r)
      b :: sunTap 12 (w :: r) :: sunCode rsc l (w :: r.take 2)
    else sunTap 0 (b :: r) :: sunTap 4 (b :: r) :: sunCode rsc l (b :: r.take 2)

/-- The input bits that take an RSC encoder back to its all-zero state, where three zero bits do so for NRNSC. -/
def sunTail (rsc : Bool) : Nat → List Bool → List Bool
  | 0, _ => []
  | n + 1, r => let b := rsc && sunTap 8 (false :: r)
    b :: sunTail rsc n ((b != (rsc && sunTap 8 (false :: r))) :: r.take 2)

/-- The state of an encoder after some bits. -/
def sunState (rsc : Bool) (b : List Bool) : List Bool :=
  b.foldl (fun r x => (if rsc then x != sunTap 8 (false :: r) else x) :: r.take 2) [false, false, false]

/-- A block of 16 coded bits interleaved. -/
def sunInterleave (b : List Bool) : List Bool := (List.range 16).map (fun i => b.getD (Config.sunPerm i % 16) false)

/-- The coded SUN-FSK stream of PHR and PSDU (R135, R181, R619): the bits with a tail of 3 and 5 padding bits, coded at rate
1/2, so that the PHR is the first 32 coded bits; with RSC the interleaver over blocks of 16 coded bits. -/
def sunStream (rsc : Bool) (b : List Bool) : List Bool :=
  let t := b ++ sunTail rsc 3 (sunState rsc b) ++ lsbBits 5 Config.sunPad.toNat
  let c := sunCode rsc t [false, false, false]
  if rsc then (groupsOf 16 c).flatMap sunInterleave else c

/-- The symbols of data bits without framing (R192): chips of O-QPSK, levels of a Wide mode, and else the bits in groups. -/
def rawSymbols (m : Mode) (b : List Bool) : List Byte :=
  match m.family with
  | .oqpsk => ((groupsOf 4 b).flatMap (fun g => chipsOf (bitsVal g.reverse))).map (fun c => BitVec.ofNat 8 (ofBool c))
  | .wide => wideSymbols b
  | _ => symbolsOf m.b b

/-- The symbols of a frame from its preamble's first to its last, one octet each; of O-QPSK the chips. `set` and `rsc` are the
SFD set and the code of a SUN-FSK frame. -/
def airSymbols (m : Mode) (coded : Bool) (set : Nat) (rsc fcs2 : Bool) (psdu : List Byte) : List Byte :=
  let phr := phrSent m.family fcs2 psdu.length
  let body := psduBits psdu
  let sync := msbBits m.family.syncBits (syncWord m.family set coded)
  match m.family with
  | .fsk =>
    symbolsOf m.b ((List.range 8).flatMap (fun _ => msbBits 8 0x55) ++ sync ++
      (if coded then sunStream rsc (phr ++ body) else phr ++ body))
  | .oqpsk =>
    ((nibblesOf ([0, 0, 0, 0, 0xA7#8] ++ octetsOfBits phr ++ psdu)).flatMap chipsOf).map (fun c => BitVec.ofNat 8 (ofBool c))
  | .deep =>
    symbolsOf 1 ((List.range 64).map (fun i => decide (i % 2 = 1)) ++ sync ++
      interleave 8 (convBlock phr ++ List.replicate 4 false) ++ interleaved 16 (convBlock body))
  | .wide =>
    (List.range 32).map (fun i => if i % 2 = 0 then 3#8 else 0xFD#8) ++ wideSymbols (sync ++ convBlock phr ++ punctured (convBlock body))

/-! ### Ramps (R177) -/

/-- sin y for 0 ≤ y ≤ π/2 with y and the result in units of 10^-15: the terms of its series from y^k / k! on. -/
def sinSeries : Nat → Nat → Nat → Int → Int
  | 0, _, _, _ => 0
  | n + 1, k, y, t => t + sinSeries n (k + 2) y (-(t * (y * y / 10 ^ 15 : Nat) / ((k + 1) * (k + 2) : Nat) / 10 ^ 15))

/-- (1 - cos(π i / n)) / 2, the square of sin(π i / 2n), to the nearest 10^-9 (R177). -/
def halfCos (i n : Nat) : Nat :=
  let y := 3141592653589793 * i / (2 * n)
  let s := (sinSeries 12 1 y y).toNat
  min 1000000000 ((s * s + 5 * 10 ^ 20) / 10 ^ 21)

/-- RAMP_SHAPE as it acts. -/
def rampShape (v : Nat) : Nat := if v = 3 then 1 else v

/-- The amplitude at fraction i / n of a ramp, in units of 10^-9 of the full amplitude. -/
def rampAmp (shape i n : Nat) : Nat :=
  let c := halfCos i n
  match rampShape shape with
  | 0 => i * 1000000000 / n
  | 1 => c
  | _ => c * c / 1000000000

/-- A ramp: its shape, its length in µs, the channel of its tone in kHz, and its amplitude at each whole µs. -/
def rampOctets (shape us khz : Nat) (down : Bool) : List Byte :=
  le 1 (rampShape shape) ++ le 1 us ++ le 4 khz ++
    (List.range (us + 1)).flatMap (fun i => le 4 (rampAmp shape (if down then us - i else i) us))

end Sys2Proof.Machine
end

