-- ==== Sys2Proof/Machine/Boot.lean ====
section
/-! DEFINITION. Resets (R548, R590, R597 to R599, R611), secure boot (R410 to R418, R443, R448, R449, R35) and the key
ladder (R418, R419, R424, R427). -/

namespace Sys2Proof.Machine

/-! ### The key ladder -/

/-- ASCII octets of a label (R419). -/
def asc (s : String) : List Byte := s.toList.map (fun c => BitVec.ofNat 8 c.toNat)

/-- n octets, most significant first. -/
def be (n v : Nat) : List Byte := (le n v).reverse

/-- The counter-mode KDF of R419: K(1) for 128 bits, K(1) and K(2) for 256. -/
def kdf (parent label context : List Byte) (bits : Nat) : List Byte :=
  let k := fun i => Config.cmac parent (be 1 i ++ label ++ [0#8] ++ context ++ be 2 bits)
  if bits = 128 then slice (k 1) 0 16 else slice (k 1) 0 16 ++ slice (k 2) 0 16

/-- Check value of a key (R427). -/
def kcvOf (pub : Bool) (key : List Byte) : Nat :=
  if pub then fld (Config.sha384 key) 0 4 else fld (Config.cmac key (List.replicate 16 0#8)) 0 4

namespace Dev

/-- DEVICE_ROOT (R418) for a measurement: the running life-cycle code enters it. -/
def deviceRoot (d : Dev) (m : List Byte) : List Byte :=
  kdf d.otp.siliconRoot (asc "QZ-DEVROOT") (m ++ be 1 d.sec.lc) 256

/-- STORE_KEK and STORE_MAC (R418) for a measurement. -/
def storeKek (d : Dev) (m : List Byte) : List Byte := kdf (d.deviceRoot m) (asc "QZ-STOREKEK") [] 256
def storeMac (d : Dev) (m : List Byte) : List Byte := kdf (d.deviceRoot m) (asc "QZ-STOREMAC") [] 256

end Dev

/-- The chain of R416: M(k) = SHA-384(M(k-1) then D(k)), from 48 zero octets. -/
def measure (ds : List (List Byte)) : List Byte :=
  ds.foldl (fun m x => Config.sha384 (m ++ x)) (List.replicate 48 0#8)

/-! ### Images -/

/-- Octets of a key block (R411): ECDSA public key, 97, and ML-DSA public key, 1,952. -/
def keyBlockEc (kb : List Byte) : List Byte := slice kb 0 97
def keyBlockMl (kb : List Byte) : List Byte := slice kb 100 1952

/-- All octets of a range are zero. -/
def zeros (bs : List Byte) (off n : Nat) : Bool := (slice bs off n).all (fun b => b == 0#8)

/-- A signature block (R265) verifies over a digest under a key block: ALG, the reserved octets, both signatures. -/
def sigOk (kb sig digest : List Byte) : Bool :=
  decide (fld sig 0 2 = 1) && zeros sig 2 6 && zeros sig 3413 3 &&
    Config.ecdsaVerify (keyBlockEc kb) digest (slice sig 8 96) &&
    Config.mldsaVerify (keyBlockMl kb) digest (slice sig 104 3309)

/-- The public keys of a key block have these OTP hashes, and its octets between and after them are 0 (R411, R412). -/
def keysMatch (kb ec ml : List Byte) : Bool :=
  zeros kb 97 3 && zeros kb 2052 4 && decide (Config.sha384 (keyBlockEc kb) = ec) && decide (Config.sha384 (keyBlockMl kb) = ml)

/-- ID_DEVICE.REV (R2). -/
def deviceRev : Nat := 0xB0

/-- D of an image (R411): the digest of its signed body, from offset 0 to the end of the payload. -/
def imageDigest (img : List Byte) : List Byte := Config.sha384 (slice img 0 (fld img 8 4 - 3416))

/-- An image verifies (R412): header (R411), key hashes, both signatures, and for a boot image SEC_VERSION. -/
def imageVerifies (boot : Bool) (region : Nat) (ec ml : List Byte) (fusedMin : Nat) (img : List Byte) : Bool :=
  let len := fld img 8 4
  let v := fld img 12 4
  decide (slice img 0 4 = asc (if boot then "QZBT" else "QZCW")) && decide (fld img 4 2 = 1) &&
    decide (fld img 6 1 = deviceRev) && zeros img 7 1 && zeros img 20 44 &&
    decide (64 + 2056 + 3416 ≤ len ∧ len ≤ region) &&
    (if boot then decide (v ≤ 64 ∧ fusedMin ≤ v) else decide (v = 0)) &&
    keysMatch (slice img 64 2056) ec ml &&
    sigOk (slice img 64 2056) (slice img (len - 3416) 3416) (imageDigest img)

/-! ### The boot flash (R410) -/

/-- Where the regions of the boot flash start. -/
def flashBootA : Nat := 0
def flashBootB : Nat := 0x800000
def flashKs (i : Nat) : Nat := 0x1000000 + 0x20000 * i
def flashProv : Nat := 0x1040000
def flashCust : Nat := 0x1200000

/-- How long they are: a boot image, a keystore record, the provisioning block and the customer-world image. -/
def bootSize : Nat := 0x800000
def ksSize : Nat := 0x20000
def provSize : Nat := 0x10000
def custSize : Nat := 0x400000

/-- Octets of the boot flash; an erased octet reads 0xFF (PRESUMED, log entry 186). -/
def flashRead (f : SMap Byte) (a n : Nat) : List Byte := (List.range n).map (fun i => f.get 0xFF#8 (a + i))

/-- The image of a region: as many octets as its TOTAL_LEN says (R411), and no more than the region. -/
def flashImage (f : SMap Byte) (a size : Nat) : List Byte := flashRead f a (min size (max 64 (fld (flashRead f (a + 8) 4) 0 4)))

/-- A region holds something: an octet of it is not erased. -/
def flashUsed (f : SMap Byte) (a size : Nat) : Bool := f.any (fun x => decide (a ≤ x.1 ∧ x.1 < a + size) && x.2 != 0xFF#8)

namespace Dev

/-! ### Resets -/

/-- The device held in reset: every subsystem at its reset values (R599), which also releases OWN, turns every port off
and stops the sequencers. OTP, boot flash and RST_CAUSE stay, and the level at OWN_IN is the partner's. -/
def resetAll (d : Dev) : Dev :=
  { freeCtr := d.freeCtr, otp := d.otp, ks0 := d.ks0, ks1 := d.ks1
    modes := { inReset := true }
    pair := { ownIn := d.pair.ownIn }
    elec := { por := d.elec.por, causeSys := d.elec.causeSys, causeSupply := d.elec.causeSupply
              causeThermal := d.elec.causeThermal, rail := d.elec.rail, sysLow := d.elec.sysLow
              supplyLow := d.elec.supplyLow, thermalHeld := d.elec.thermalHeld } }

/-! ### Boot -/

/-- R35: both channels populated with equal densities, 2 to 16 GiB in all, and trained. -/
def ddrOk (b : BootFacts) : Bool :=
  b.trained && decide (b.dens0 = b.dens1 ∧ 2 ≤ b.dens0.val + b.dens1.val ∧ b.dens0.val + b.dens1.val ≤ 16)

/-- Load the committed Cinnabar slot with the lower index (R116 to R118): the limits in force. -/
def loadCinnabar (d : Dev) : Dev :=
  let pick := if d.otp.cin0Ok then some (0, d.otp.cin0) else if d.otp.cin1Ok then some (1, d.otp.cin1) else none
  match pick with
  | none => d
  | some (i, b) =>
    let port := fun p => ({ aerialGain := sext 16 (fld b (0x20 + 8 * p) 2), cableLoss := fld b (0x22 + 8 * p) 2
                            femTxGain := sext 16 (fld b (0x24 + 8 * p) 2), femRxGain := sext 8 (fld b (0x26 + 8 * p) 1)
                            linear := bit (fld b (0x27 + 8 * p) 1) 0, txPermitted := bit (fld b (0x27 + 8 * p) 1) 1 }
                          : CinPort)
    let sb := fun n => ({ fLo := fld b (0x40 + 16 * n) 4, fHi := fld b (0x44 + 16 * n) 4
                          maxEirp := sext 16 (fld b (0x48 + 16 * n) 2), duty := fld b (0x4A + 16 * n) 2
                          lbtThresh := sext 8 (fld b (0x4C + 16 * n) 1), lbtListen := fld b (0x4D + 16 * n) 1
                          valid := bit (fld b (0x4E + 16 * n) 1) 0, lbtReq := bit (fld b (0x4E + 16 * n) 1) 1 }
                        : SubBand)
    { d with cin := { d.cin with
        locked := true, slot := i, region := fld b 6 2, numSb := fld b 5 1, dutyWindow := fld b 8 2
        ports := [0, 1, 2, 3].foldl (fun m p => m.set {} p (port p)) []
        sb := (List.range 12).foldl (fun m n => m.set {} n (sb n)) [] } }

/-- An entry of a record (R441): its header, then a PUB_PAIR's key block padded to 2,112 octets, or the R424 plaintext of a
SYM256 key wrapped under STORE_KEK. -/
def ksEntry (kek : List Byte) (n : Nat) (k : KeySlot) : List Byte :=
  let hdr := le 2 n ++ [if k.pub then 1#8 else 0#8] ++ le 1 k.level ++ le 2 k.parent ++ le 2 k.usage ++ le 1 k.callers ++
    le 1 k.gen ++ le 6 0
  if k.pub then hdr ++ slice k.key 0 2056 ++ le 40 0
  else hdr ++ slice (Config.keyWrap kek (k.key ++ le 2 k.usage ++ le 1 k.callers ++ le 5 0)) 0 48

/-- The octets of a record before its commit record: header (R440) and entries (R441), wrapped under the STORE_KEK of its
MEAS. -/
def ksBody (d : Dev) (r : KsRecord) : List Byte :=
  asc "QZKS" ++ le 2 1 ++ le 1 r.lc ++ le 1 0 ++ le 8 r.counter ++ slice r.meas 0 48 ++ le 2 r.entries.length ++ le 62 0 ++
    (r.entries.map (fun x => ksEntry (d.storeKek r.meas) x.1 x.2)).flatten

/-- TAG of a record (R442): CMAC-AES-256 under the STORE_MAC of its MEAS over the header and all entries. -/
def ksTag (d : Dev) (r : KsRecord) : List Byte := slice (Config.cmac (d.storeMac r.meas) (d.ksBody r)) 0 16

/-- A commit record (R442): MAGIC, LENGTH, COUNTER, TAG, 28 zero octets, and the CRC-32 over them. -/
def ksCommitRecord (len counter : Nat) (tag : List Byte) : List Byte :=
  let b := asc "QZKC" ++ le 4 len ++ le 8 counter ++ tag ++ le 28 0
  b ++ le 4 (crc32 b)

/-- A record is committed (R442): MAGIC, LENGTH, COUNTER and CRC of its commit record are consistent. -/
def ksCommitted (d : Dev) (r : KsRecord) : Bool :=
  decide (slice r.commit 0 4 = asc "QZKC" ∧ fld r.commit 4 4 = (d.ksBody r).length ∧ fld r.commit 8 8 = r.counter ∧
    fld r.commit 0x3C 4 = crc32 (slice r.commit 0 0x3C))

/-- A keystore record qualifies under R443: it is committed, its MEAS and LC are the running ones, and its TAG verifies under
the running STORE_MAC. -/
def ksQualifies (d : Dev) (r : Option KsRecord) : Bool :=
  match r with
  | some x =>
    decide (x.meas = d.sec.meas ∧ x.lc = d.sec.lc ∧ (d.sec.lc = 1 ∨ d.sec.lc = 2)) && d.ksCommitted x &&
      decide (slice x.commit 0x10 16 = d.ksTag x)
  | none => false

/-- Select the keystore record (R443): the one with the highest COUNTER that qualifies. -/
def selectKeystore (d : Dev) : Dev :=
  let c := fun (r : Option KsRecord) => match r with | some x => x.counter | none => 0
  let use := if d.ksQualifies d.ks0 ∧ ¬ (d.ksQualifies d.ks1 ∧ c d.ks0 < c d.ks1) then 0
    else if d.ksQualifies d.ks1 then 1 else 3
  let r := if use = 0 then d.ks0 else if use = 1 then d.ks1 else none
  match r with
  | some x => { d with sec := { d.sec with ksSlot := use, keys := x.entries } }
  | none => ({ d with sec := { d.sec with ksSlot := 3, keys := [] } }).raise .EVT_KEYSTORE_EMPTY []

/-- Check the provisioning block (R448, R449). -/
def checkProvisioning (d : Dev) (b : List Byte) : Dev :=
  let kb := slice b 0x88 2056
  let plain := Config.keyUnwrap d.otp.transportKey (slice b 0x28 48)
  match plain with
  | none => d
  | some k =>
    let usage := fld k 32 2
    if (d.sec.lc = 1 ∨ d.sec.lc = 2) ∧ slice b 0 4 = asc "QZPV" ∧ fld b 4 2 = 1 ∧
        unbe (slice b 8 8) = d.otp.baseEui.toNat ∧ fld b 0x20 1 ≤ 128 ∧ zeros b 0x21 3 = true ∧ zeros b 0x58 48 = true ∧
        keysMatch kb d.otp.oemEc d.otp.oemMl = true ∧
        sigOk kb (slice b 0x890 3416) (Config.sha384 (slice b 0 0x888)) = true ∧
        bit usage 2 = true ∧ zeros k 35 5 = true ∧ kcvOf false (slice k 0 32) = fld b 0x24 4 then
      { d with
        modes := { d.modes with provValid := true }
        sec := { d.sec with provPan := fld b 6 2, provPrefix := slice b 0x10 16, provLen := fld b 0x20 1
                            provKey := slice k 0 32, provUsage := usage % 128, provCallers := fld k 34 1 % 16 } }
    else d

/-- Random seeds of the table banks are drawn at reset (R324), and datagram tags (R382). -/
def drawSeeds (d : Dev) : Dev :=
  let a := d.draw 64
  let b := a.2.draw 64
  let c := b.2.draw 64
  let e := c.2.draw 64
  let o := e.2.draw 64
  let d := o.2
  let d := { d with tbl := { d.tbl with
      node := { d.tbl.node with seed := a.1 }, route := { d.tbl.route with seed := b.1 }
      pfx := { d.tbl.pfx with seed := c.1 }, seen := { d.tbl.seen with seed := e.1 }
      seenOld := { d.tbl.seenOld with seed := o.1 } } }
  d.each [0, 1, 2, 3] (fun d k => let t := d.draw 16; t.2.modPan k (fun p => { p with fragTag := t.1.toNat }))

/-- Steps 4 to 8 of R413: the images are verified, one is selected (R414), M is computed (R416), the keystore record is
selected, the provisioning block is checked, SC_0 enters the selected image at ENTRY, the other cores are released, and the
control-mode decision proceeds. The customer-world image is absent where its region is erased (DESIGN CHOICE, log entry 186). -/
def bootImages (d : Dev) (b : BootFacts) : Dev :=
  let ok := imageVerifies true bootSize d.otp.vendorEc d.otp.vendorMl d.otp.secMin
  let bootA := flashImage b.flash flashBootA bootSize
  let bootB := flashImage b.flash flashBootB bootSize
  let cust := flashImage b.flash flashCust custSize
  let a := ok bootA
  let bb := ok bootB
  let va := fld bootA 12 4
  let vb := fld bootB 12 4
  if ¬ a ∧ ¬ bb then { d with elec := { d.elec with bootNone := true } }
  else
    let useA := a ∧ ¬ (bb ∧ va < vb)
    let img := if useA then bootA else bootB
    let custSet := ¬ (d.otp.custEc.all (fun x => x == 0#8) ∧ d.otp.custMl.all (fun x => x == 0#8))
    let custHere := custSet ∧ flashUsed b.flash flashCust custSize = true
    let custOk := custHere ∧ imageVerifies false custSize d.otp.custEc d.otp.custMl 0 cust
    let d2 := imageDigest img
    let d3 := if custOk then imageDigest cust else if custHere then List.replicate 48 0xFF#8
      else List.replicate 48 0#8
    let d := { d with
      sec := { d.sec with custEc := d.otp.custEc, custMl := d.otp.custMl
                          bootSlot := if useA then 0 else 1, running := if useA then va else vb
                          custWorld := custOk, custRefused := decide (custHere ∧ ¬ custOk)
                          bootDigest := d2, custDigest := d3, meas := measure [Config.romDigest, d2, d3] } }
    let d := if custHere ∧ ¬ custOk then d.raise .EVT_CUSTOMER_REFUSED [] else d
    let d := ((d.selectKeystore).checkProvisioning (flashRead b.flash flashProv 0x15E8)).loadCinnabar
    let d := { d.drawSeeds with elec := { d.drawSeeds.elec with booted := true, entry := fld img 16 4 } }
    { d with pair := { d.pair with side := b.pairSide } }

/-- Boot from step 1 of R413: straps (R604), OTP, the health tests of the random source (R415), LPDDR training (R35), and
the images. -/
def bootFrom (d : Dev) (b : BootFacts) : Dev :=
  let d := { d with
    modes := { d.modes with inReset := false }
    elec := { d.elec with chipId := b.chipId.toNat, octal := b.bootOctal, testEn := b.testEn }
    pair := { d.pair with side := b.pairSide }
    sec := { d.sec with lc := d.otp.lc } }
  if b.testEn then d
  else if ¬ b.trngOk then
    ({ d with sec := { d.sec with trngFail := true, trngEvt := true }
              elec := { d.elec with heldBoot := some b } }).raise .EVT_TRNG_FAIL []
  else
    let d := { d with elec := { d.elec with dens0 := b.dens0.val, dens1 := b.dens1.val, trained := ddrOk b } }
    if ddrOk b then d.bootImages b else { d with elec := { d.elec with ddrFail := true } }

/-- Leave reset: boot, where nothing holds the device in reset any more and it has not booted. -/
def leaveReset (d : Dev) (b : BootFacts) : Dev :=
  if d.heldReset ∨ d.elec.booted ∨ d.elec.bootNone ∨ d.elec.ddrFail ∨ d.elec.testEn ∨ d.elec.heldBoot.isSome then d
  else d.bootFrom b

/-! ### The PCIE port -/

/-- A ring's EN cleared. -/
def disableRing (d : Dev) (n : Nat) : Dev :=
  { d with cfg := d.cfg.set 0x20000000#32 (Reg.HR_CTL n) ((d.cfg.get 0x20000000#32 (Reg.HR_CTL n)) &&& 0x7FFFFFFF#32) }

end Dev

/-! ### Meanings -/

/-- SYS_RST_ASSERT (R599, R548): every subsystem is reset and OWN is released. -/
def execSysRstAssert (s : State) : Host.Outcome State Fault Refusal :=
  s.run (fun d => ({ d with elec := { d.elec with sysLow := true, causeSys := true } }).resetAll)

/-- SYS_RST_RELEASE (R413): the straps are sampled and the device boots, unless a supply or thermal reset holds it. -/
def execSysRstRelease (boot : BootFacts) (s : State) : Host.Outcome State Fault Refusal :=
  s.run (fun d => ({ d with elec := { d.elec with sysLow := false } }).leaveReset boot)

/-- SUPPLY_LOSS (R598): an internal reset with RST_CAUSE.SUPPLY and the rail's index. -/
def execSupplyLoss (rail : Fin 11) (s : State) : Host.Outcome State Fault Refusal :=
  s.run (fun d =>
    ({ d with elec := { d.elec with supplyLow := true, causeSupply := true, rail := rail.val } }).resetAll)

/-- SUPPLY_RESET_END (R598): the internal supply reset ends. -/
def execSupplyResetEnd (boot : BootFacts) (s : State) : Host.Outcome State Fault Refusal :=
  s.run (fun d => if d.elec.supplyLow then ({ d with elec := { d.elec with supplyLow := false } }).leaveReset boot else d)

/-- THERMAL_OVERTEMP (R611): an internal reset with RST_CAUSE.THERMAL. -/
def execThermalOvertemp (s : State) : Host.Outcome State Fault Refusal :=
  s.run (fun d => ({ d with elec := { d.elec with thermalHeld := true, causeThermal := true } }).resetAll)

/-- THERMAL_RESET_END (R611): the thermal reset ends. -/
def execThermalResetEnd (boot : BootFacts) (s : State) : Host.Outcome State Fault Refusal :=
  s.run (fun d =>
    if d.elec.thermalHeld then ({ d with elec := { d.elec with thermalHeld := false } }).leaveReset boot else d)

/-- JTAG_TRST (R599): only the test logic is reset, which no subsystem's state shows. -/
def execJtagTrst (s : State) : Host.Outcome State Fault Refusal :=
  s.run (fun d => d)

/-- PCIE_DMA_ERROR (R509): the ring is disabled, and the error is logged, counted and reported. -/
def execPcieDmaError (n : Fin 35) (s : State) : Host.Outcome State Fault Refusal :=
  s.run (fun d => (((d.disableRing n.val).violate .VIO_PCIE_DMA (le 1 n.val)).bump Cnt.DMA_FAULT).raise .EVT_DMA_FAULT
    (le 1 n.val))

/-- TRNG_HEALTH_FAIL (R415): TRNG_FAIL is set, EVT_TRNG_FAIL is raised once, and reseeding stops. -/
def execTrngHealthFail (s : State) : Host.Outcome State Fault Refusal :=
  s.run (fun d =>
    let first := !d.sec.trngFail
    let d := { d with sec := { d.sec with trngFail := true, trngEvt := true } }
    if first then d.raise .EVT_TRNG_FAIL [] else d)

/-- TRNG_HEALTH_PASS (R415): TRNG_FAIL clears, reseeding resumes, and a boot held at step 2 continues. -/
def execTrngHealthPass (s : State) : Host.Outcome State Fault Refusal :=
  s.run (fun d =>
    let held := d.elec.heldBoot
    let d := { d with sec := { d.sec with trngFail := false, trngEvt := false }, elec := { d.elec with heldBoot := none } }
    match held with
    | some b => if d.heldReset then d else d.bootFrom { b with trngOk := true }
    | none => d)

/-- BOOT_NONE_REPORT (R414, R608): the status text goes out on the console once per second. -/
def execBootNoneReport (s : State) : Host.Outcome State Fault Refusal :=
  s.run (fun d => if d.elec.bootNone then d.emit .console 5 (asc "BOOT_NONE") else d)

/-- DDR_TRAIN_FAIL_REPORT (R608, R35). -/
def execDdrTrainFailReport (s : State) : Host.Outcome State Fault Refusal :=
  s.run (fun d => if d.elec.ddrFail then d.emit .console 5 (asc "DDR_TRAIN_FAIL") else d)

end Sys2Proof.Machine
end

