-- ==== Sys2Proof/Machine/Host.lean ====
section
/-! DEFINITION. WIN_CFG accesses (R8 to R14, R66, R69), rings (R506 to R513), events to ring 2 (R524, R525), CMD_NOP and
unlisted opcodes (R520, R521). -/

namespace Sys2Proof.Machine

/-- The index of the core that accesses a register. -/
def coreIndex : CfgSrc → Nat
  | .host => 0
  | .core k => k.val

/-- PAIR_KEEPALIVE is mapped for SC_0 and SC_1 only (R578). -/
def keepsAlive : CfgSrc → Bool
  | .host => false
  | .core k => decide (k.val < 2)

/-- The row of the register map at an offset, every port block's Cinnabar aliases taken to the first (R126). -/
def cfgOffset (off : Nat) : Nat :=
  let r := (off - 0x100000) % 0x40000
  if 0x100000 ≤ off ∧ off < 0x200000 ∧ ((0x100 ≤ r ∧ r < 0x200) ∨ (0x400 ≤ r ∧ r < 0x500)) then 0x100000 + r else off

namespace Dev

/-- The spans of the counters (R591): first offset, stride, instances, octets of each instance; the last is the snapshot
directory, whose extent of 0x100 octets the spec leaves open (R73; DESIGN CHOICE, log entry 138). -/
def counterSpans : List (Nat × Nat × Nat × Nat) :=
  [(0x101000, 0x40000, 4, 0x1C), (0x200100, 0x400, 192, 0x34), (0x230120, 4, 4, 4), (0x240080, 0x100, 16, 0x24),
   (0x246000, 4, 4, 4), (0x281000, 0x100, 4, 0x78), (0x282000, 0x100, 4, 0x20), (0x300100, 0x20000, 4, 0x2C),
   (0x401000, 0x1000, 1, 0x3C), (0x481000, 0x1000, 1, 0x30), (0x501000, 0x100, 2, 0x40), (0x501200, 0x100, 1, 0x1C),
   (0x502000, 8, 1024, 8), (0x581000, 0x1000, 1, 4), (0x581008, 0x1000, 1, 0xC), (0x590000, 0x20, 4096, 0x1C), (0x601000, 0x1000, 1, 0x44),
   (0x680140, 4, 4, 4), (0x681000, 0x1000, 1, 0x28), (0x708000, 0x100, 4, 0x34), (0x782000, 0x40, 6, 0x2C),
   (0x801000, 0x100, 1, 0x24), (0x801100, 0x20, 16, 0x14), (0x880100, 0x100, 1, 0x14), (0x901000, 0x1000, 1, 0x34),
   (0x981000, 0x1000, 1, 0x24), (0x982000, 4, 256, 4), (0xA00040, 4, 1, 4), (0xF00100, 0x100, 1, 0x100)]

/-- The offset is one of a counter or of the snapshot directory: read-only (R591, R73). -/
def isCounter (off : Nat) : Bool :=
  counterSpans.any (fun r => decide (r.1 ≤ off ∧ (off - r.1) / r.2.1 < r.2.2.1 ∧ (off - r.1) % r.2.1 < r.2.2.2))

/-- The tightening words in force: CIN_TIGHT_A_n at 2n, CIN_TIGHT_B_n at 2n + 1 (R124); 0 on an unlocked device (R126). -/
def tightWords (d : Dev) : SMap W32 :=
  if ¬ d.cin.locked then []
  else (List.range 12).foldl (fun (u : SMap W32) n =>
    let s := d.cin.sb.get {} n
    (u.set 0 (2 * n) (BitVec.ofNat 32 (s.duty * 65536 + pat 16 s.maxEirp))).set 0 (2 * n + 1)
      (BitVec.ofNat 32 (ofBool s.disabled * 2 ^ 31 + s.lbtListen * 256 + pat 8 s.lbtThresh))) []

/-- The value that a register holds after reset where a fact of the chip gives it: the tightenings (R126), PAN_EUI_k, which
is BASE_EUI64 + k (R226), and the Ethernet templates with the base MAC address as their source (R358). -/
def chipValue (d : Dev) (off rst : Nat) : Nat :=
  if Reg.CIN_TIGHT_A 0 ≤ off ∧ off < Reg.CIN_TIGHT_A 12 then (d.tightWords.get 0 ((off - Reg.CIN_TIGHT_A 0) / 4)).toNat
  else if Reg.PAN_EUI_LO 0 ≤ off ∧ off < Reg.PAN_EUI_LO 4 ∧ (off - Reg.PAN_EUI_LO 0) % 32 < 8 then
    let e := (d.otp.baseEui.toNat + (off - Reg.PAN_EUI_LO 0) / 32) % 2 ^ 64
    if (off - Reg.PAN_EUI_LO 0) % 32 = 0 then e % 2 ^ 32 else e / 2 ^ 32
  else if Reg.PIPE_L2 0 0 ≤ off ∧ off < Reg.PIPE_L2 16 0 then
    let src := (le 6 d.otp.baseMac.toNat).reverse
    match (off - Reg.PIPE_L2 0 0) % 16 / 4 with
    | 0 => 0x00003333
    | 1 => 0x0200 + unle (src.take 2) * 65536
    | 2 => unle (src.drop 2)
    | _ => 0
  else rst

/-- The value of an ST or RW register in force. -/
def regInForce (d : Dev) (off rst : Nat) : Nat :=
  match d.cfg.find off with
  | some v => v.toNat
  | none => d.chipValue off rst

/-- The value of an ST or RW register staged for the next boundary, else in force (R9): what has passed its freeze stands
before a newer write, which R11 applies at the boundary that follows. -/
def stagedReg (d : Dev) (off rst : Nat) : Nat :=
  match d.stg.frozenRegs.find off with
  | some v => v.toNat
  | none => match d.stg.regs.find off with
    | some v => v.toNat
    | none => d.regInForce off rst

/-- The value that an ST register was last given. -/
def lastReg (d : Dev) (off rst : Nat) : Nat :=
  match d.stg.regs.find off with
  | some v => v.toNat
  | none => d.stagedReg off rst

/-- The other half of a pair of R620. -/
def pairHalf (off : Nat) : Option Nat :=
  if off = Reg.EPOCH_ORIGIN_LO then some Reg.EPOCH_ORIGIN_HI
  else if off = Reg.EPOCH_ORIGIN_HI then some Reg.EPOCH_ORIGIN_LO
  else if off = Reg.ETH_GATE_BASE_LO then some Reg.ETH_GATE_BASE_HI
  else if off = Reg.ETH_GATE_BASE_HI then some Reg.ETH_GATE_BASE_LO
  else if 0x280104 ≤ off ∧ off < 0x280184 ∧ (off - 0x280104) % 0x20 = 0 then some (off + 4)
  else if 0x280108 ≤ off ∧ off < 0x280188 ∧ (off - 0x280108) % 0x20 = 0 then some (off - 4)
  else none

/-- A half of a pair that has passed its freeze waits again; a newer write of it stands (R10, R620). -/
def thawReg (d : Dev) (o : Nat) : Dev :=
  match d.stg.frozenRegs.find o with
  | some w => { d with stg := { d.stg with
      frozenRegs := d.stg.frozenRegs.del o
      regs := if (d.stg.regs.find o).isSome then d.stg.regs else d.stg.regs.put o w } }
  | none => d

/-- Stage a value (R8, R10, R11). A write to a half of a pair makes both halves that have passed their freeze wait for the
boundary that follows the write's own freeze (R620). -/
def stageReg (d : Dev) (off v : Nat) : Dev :=
  let d := match pairHalf off with
    | some o => (d.thawReg o).thawReg off
    | none => d
  { d with stg := { d.stg with regs := d.stg.regs.put off (BitVec.ofNat 32 v) } }

/-- The phase's lane-group plan owns the lane registers (R131). -/
def planOwned (d : Dev) (off : Nat) : Bool :=
  (d.modes.phase == .startUp || d.modes.phase == .service || d.modes.phase == .recovery) &&
    (decide (0x230000 ≤ off ∧ off < 0x230060) || decide (0x200000 ≤ off ∧ off < 0x230000 ∧ off % 0x400 < 8))

/-- A CIN_STAGE word (R120): discarded once locked. -/
def writeCinStage (d : Dev) (w : Nat) (v : W32) : Dev :=
  if d.cin.locked then d.violate .VIO_CIN_LOCKED []
  else { d with cin := { d.cin with stage := d.cin.stage.set 0 w v } }

/-- Packets of a transmit ring that starts afresh write nothing back. -/
def forgetDescs (d : Dev) (src : Nat) : Dev :=
  let f := fun (x : Packet) => if x.src = src then { x with descs := 0 } else x
  { d with pipe := { d.pipe with pipes := d.pipe.pipes.map (fun y =>
      (y.1, { y.2 with cur := y.2.cur.map f, queues := y.2.queues.map (fun z => (z.1, z.2.map f)) })) } }

/-- HR_CTL_n, HR_BASE_LO_n and HR_BASE_HI_n of a ring in use keep base and size (R512), and HR_IDX_n is read-only (R8). -/
def writeRingReg (d : Dev) (n part v : Nat) : Dev :=
  if part = 2 then
    let old := d.cfg.get 0x20000000#32 (Reg.HR_CTL n)
    let on := bit old.toNat 31
    let sizeDiff := decide (bits v 30 27 ≠ bits old.toNat 30 27)
    let v' := if on ∧ sizeDiff then v - bits v 30 27 * 2 ^ 27 + bits old.toNat 30 27 * 2 ^ 27 else v
    let d := if on ∧ sizeDiff then d.violate .VIO_RING_BUSY (le 1 n) else d
    let d := { d with cfg := d.cfg.set 0x20000000#32 (Reg.HR_CTL n) (BitVec.ofNat 32 (v' &&& 0xFFFF0000)) }
    if bit v' 31 ∧ ¬ on then
      let d := d.setRing n {}
      let d := if 19 ≤ n then d.forgetDescs (n - 5) else d
      { d with host := { d.host with
          ring1 := if n = 1 then [] else d.host.ring1
          ring2 := if n = 2 then [] else d.host.ring2
          unfetched := if n = 0 then 0 else d.host.unfetched
          rxWait := d.host.rxWait.del n } }
    else d
  else if part = 3 then d
  else if d.ringOn n then d.violate .VIO_RING_BUSY (le 1 n)
  else if part = 0 then { d with cfg := d.cfg.set 0#32 (Reg.HR_BASE_LO n) (BitVec.ofNat 32 (v &&& 0xFFFFF000)) }
  else { d with cfg := d.cfg.set 0#32 (Reg.HR_BASE_HI n) (BitVec.ofNat 32 v) }

/-- PAIR_KEEPALIVE refreshes the limit of R553. -/
def kick (d : Dev) : Dev := { d with pair := { d.pair with keptAlive := d.up } }

/-- RST_CAUSE: writing 1 clears POR, SYS_RST, SUPPLY and THERMAL (R8). -/
def clearCause (d : Dev) (v : Nat) : Dev :=
  { d with elec := { d.elec with
      por := d.elec.por && !bit v 1, causeSys := d.elec.causeSys && !bit v 2
      causeSupply := d.elec.causeSupply && !bit v 3, causeThermal := d.elec.causeThermal && !bit v 4 } }

/-- PTP_CTL as staged: a RX_PORT that names a port at 10 or 100 Mbit/s keeps the previous RX_PORT (R467). -/
def ptpCtl (d : Dev) (v : Nat) : Nat × Bool :=
  let r := (d.eth (v % 4)).rate
  if r = 4 ∨ r = 5 then (v - v % 4 + d.lastReg Reg.PTP_CTL 0 % 4, true) else (v, false)

/-- World of core k (R533): SC_6 and SC_7 belong to the customer world while it runs, otherwise to the vendor's. -/
def worldOf (d : Dev) (k : Nat) : World :=
  if k < 2 then .secure else if k < 6 then .vendor else if d.sec.custWorld then .customer else .vendor

/-- An access to WIN_CFG of a customer core is outside its world: that world reaches the device only through the task dispatcher
and commands (R534). -/
def cfgDenied (d : Dev) : CfgSrc → Bool
  | .host => false
  | .core k => d.worldOf k.val == .customer

/-- A 32-bit aligned write to WIN_CFG (R8, R11 to R14, R66), from a world that reaches it (R534). R131 discards and logs the host's writes to the lane registers
that the phase's plan owns and names no others: DESIGN CHOICE (log entry 136), those of the service cores are staged. -/
def writeCfg (d : Dev) (src : CfgSrc) (off0 : Nat) (val : W32) : Dev :=
  let off := cfgOffset off0
  let v := val.toNat
  if d.cfgDenied src then (d.emit .coreReply (coreIndex src) []).violate .VIO_CORE_ACCESS (le 1 (coreIndex src))
  else if off % 4 ≠ 0 then d.violate .VIO_CFG_WIDTH (le 4 off0)
  else
    match regAt off with
    | none => if isCounter off then d else d.violate .VIO_CFG_UNMAPPED (le 4 off0)
    | some r =>
      if off = Reg.PAIR_KEEPALIVE then
        (if keepsAlive src then d.kick else d.violate .VIO_CFG_UNMAPPED (le 4 off0))
      else if off = Reg.RST_CAUSE then d.clearCause v
      else if off = Reg.STAGE_CTL then { d with stg := { d.stg with hold := bit v 0 } }
      else if off = Reg.PAD_DRIVE then { d with cfg := d.cfg.set 0x15#32 off (val &&& 0x3F#32) }
      else if Reg.CIN_STAGE 0 ≤ off ∧ off ≤ Reg.CIN_STAGE 63 then d.writeCinStage ((off - Reg.CIN_STAGE 0) / 4) val
      else if Reg.HR_BASE_LO 0 ≤ off ∧ off < Reg.HR_BASE_LO 35 then
        d.writeRingReg ((off - Reg.HR_BASE_LO 0) / 16) ((off - Reg.HR_BASE_LO 0) % 16 / 4) v
      else if r.name = "SEQ_PEEK_IDX" then
        d.modSeq ((off - Reg.SEQ_PEEK_IDX 0) / 0x20000) (fun x => { x with peekStaged := bit v 16, peekIndex := bits v 13 0 })
      else if r.st = 0 then d
      else if src = .host ∧ d.planOwned off then d.violate .VIO_LANE_PLAN_OWNED (le 4 off0)
      else if (r.name = "CIN_TIGHT_A" ∨ r.name = "CIN_TIGHT_B") ∧ ¬ d.cin.locked then d
      else
        let old := d.lastReg off r.reset
        let merged := (old &&& (0xFFFFFFFF - r.st)) + (v &&& r.st)
        if off = Reg.PTP_CTL then
          let p := d.ptpCtl merged
          let d := d.stageReg off p.1
          if p.2 then d.violate .VIO_PTP_PORT (le 1 (merged % 4)) else d
        else d.stageReg off merged

/-- A read that latches: the value goes to the reader. -/
def reply (d : Dev) (v : Nat) : Dev := d.emit .cfgRead 0 (le 4 v)

/-! ### Rings -/

/-- By how much the host index is ahead of the device index (R510): the host produces into every ring but 1 and 2, and follows the
device there. -/
def hostLead (d : Dev) (n : Nat) : Int :=
  let r := d.ring n
  if n = 1 ∨ n = 2 then -((r.devIdx - r.hostIdx).toNat : Int) else ((r.hostIdx - r.devIdx).toNat : Int)

/-- A doorbell (R506, R511): a value backward, or beyond the ring's size ahead of the device index, is ignored. -/
def doorbell (d : Dev) (n : Nat) (idx : W16) : Dev :=
  let r := d.ring n
  let step := (idx - r.hostIdx).toNat
  if 32768 < step ∨ (d.ringSize n : Int) < d.hostLead n + (step : Int) then
    (d.violate .VIO_RING_DOORBELL (le 1 n)).bump Cnt.RING_DB_BAD
  else d.setRing n { r with hostIdx := idx }

/-- Ring 2 has room for another entry. -/
def eventRoom (d : Dev) : Bool := d.ringOn 2 && decide (d.ringUsed 2 < d.ringSize 2)

/-- The 64 octets of an event entry (R524), with its PHASE in ring 2 and 0 there on the way to the root. -/
def eventOctets (d : Dev) (e : Event) (phase : Bool) : List Byte :=
  le 2 e.code.code ++ le 2 (e.origin.getD d.elec.chipId + (if phase then 0x8000 else 0)) ++ le 4 e.seq.toNat ++ le 6 e.epoch ++ le 2 0 ++ le 8 e.time ++ slice e.data 0 40

/-- Write an event entry to ring 2 (R513, R524). -/
def putEvent (d : Dev) (e : Event) : Dev :=
  let r := d.ring 2
  ((({ d with host := { d.host with ring2 := d.host.ring2.put (r.devIdx.toNat % d.ringSize 2) (e, r.phase) } }).emit
    .ringEntry 2 (d.eventOctets e r.phase)).advanceRing 2 1).bump Cnt.EVT_POSTED

/-- Post the oldest staged event (R525): Hosted to ring 2, Shelf-member to the followed root. After discards,
EVT_OVERFLOW follows once with the count. -/
def postEvent (d : Dev) : Dev :=
  match d.ev.staging with
  | [] => d
  | e :: t =>
    let go : Bool := match d.modes.control with
      | .hosted => d.eventRoom
      | .shelfMember => d.links.followed.isSome
      | .standAlone => false
    if !go then d
    else
      let d1 := { d with ev := { d.ev with staging := t } }
      let d2 : Dev := match d.modes.control, d.links.followed with
        | .shelfMember, some r => (d1.sendHost r 3 0 (d1.eventOctets e false)).bump Cnt.EVT_POSTED
        | _, _ => d1.putEvent e
      if d2.ev.lost = 0 then d2
      else ({ d2 with ev := { d2.ev with lost := 0 } }).raise .EVT_OVERFLOW (le 4 d2.ev.lost)

end Dev

/-! ### Meanings -/

/-- REGISTER_WRITE (R8, R66). -/
def execRegisterWrite (src : CfgSrc) (off : BitVec 24) (val : W32) (s : State) : Host.Outcome State Fault Refusal :=
  s.run (fun d => d.writeCfg src off.toNat val)

/-- CFG_BAD_WIDTH_ACCESS (R13): a read returns 0xFFFF_FFFF, a write is discarded, VIO_CFG_WIDTH is logged. -/
def execCfgBadWidthAccess (write : Bool) (off : BitVec 24) (s : State) : Host.Outcome State Fault Refusal :=
  s.run (fun d =>
    let d := d.violate .VIO_CFG_WIDTH (le 4 off.toNat)
    if write then d else d.reply 0xFFFFFFFF)

/-- CFG_UNMAPPED_ACCESS (R14): a read returns 0, a write is discarded, VIO_CFG_UNMAPPED is logged; PAIR_KEEPALIVE is
unassigned to the host (R578). Another offset that the chapters assign is no unmapped access, and nothing happens. -/
def execCfgUnmappedAccess (write : Bool) (off : BitVec 24) (s : State) : Host.Outcome State Fault Refusal :=
  s.run (fun d =>
    let o := cfgOffset off.toNat
    if o ≠ Reg.PAIR_KEEPALIVE ∧ ((regAt o).isSome ∨ Dev.isCounter o) then d
    else
      let d := d.violate .VIO_CFG_UNMAPPED (le 4 off.toNat)
      if write then d else d.reply 0)

/-- WIN_RING_BAD_ACCESS (R506): any access but a doorbell's write and read has no effect but the log. -/
def execWinRingBadAccess (write : Bool) (off : BitVec 20) (s : State) : Host.Outcome State Fault Refusal :=
  s.run (fun d => let _ := write; d.violate .VIO_CFG_WIDTH (le 4 off.toNat))

/-- EPOCH_NUM_LO_READ (R59): the read latches bits [47:32]. -/
def execEpochNumLoRead (s : State) : Host.Outcome State Fault Refusal :=
  s.run (fun d => ({ d with epoch := { d.epoch with numHi := BitVec.ofNat 16 (d.epoch.num / 2 ^ 32) } }).reply
    (d.epoch.num % 2 ^ 32))

/-- SEQ_PEEK_LO_READ (R232): the word at SEQ_PEEK_IDX, its high half latched. -/
def execSeqPeekLoRead (q : Fin 4) (s : State) : Host.Outcome State Fault Refusal :=
  s.run (fun d =>
    let x := d.seq q.val
    let w := (if x.peekStaged then x.staged else x.act).get 0 x.peekIndex
    (d.setSeq q.val { x with peekHi := BitVec.ofNat 32 (w.toNat / 2 ^ 32) }).reply (w.toNat % 2 ^ 32))

/-- TIME_NOW_LO_READ (R453): the read latches bits [63:32]. -/
def execTimeNowLoRead (s : State) : Host.Outcome State Fault Refusal :=
  s.run (fun d => ({ d with time := { d.time with nowHi := BitVec.ofNat 32 (d.time.ns / 2 ^ 32) } }).reply
    (d.time.ns % 2 ^ 32))

/-- TBL_SEED_LO_READ (R324): the active seed of table t, its high half latched. -/
def execTblSeedLoRead (t : Fin 4) (s : State) : Host.Outcome State Fault Refusal :=
  s.run (fun d =>
    let sd := match t.val with
      | 0 => d.tbl.node.seed | 1 => d.tbl.route.seed | 2 => d.tbl.pfx.seed | _ => d.tbl.seen.seed
    ({ d with tbl := { d.tbl with seedHi := d.tbl.seedHi.set 0 t.val (BitVec.ofNat 32 (sd.toNat / 2 ^ 32)) } }).reply
      (sd.toNat % 2 ^ 32))

/-- PAIR_COMMIT_LO_READ (R544): the last committed or acknowledged epoch, its high half latched. -/
def execPairCommitLoRead (s : State) : Host.Outcome State Fault Refusal :=
  s.run (fun d =>
    let c := d.pair.commit.getD 0
    ({ d with pair := { d.pair with commitHi := BitVec.ofNat 16 (c / 2 ^ 32) } }).reply (c % 2 ^ 32))

/-- STAGE_HOLD_WRITE (R69). -/
def execStageHoldWrite (hold : Bool) (s : State) : Host.Outcome State Fault Refusal :=
  s.run (fun d => { d with stg := { d.stg with hold := hold } })

/-- CIN_STAGE_WRITE (R120): a word of the lock staging; once locked it is discarded and logged. -/
def execCinStageWrite (w : Fin 64) (data : W32) (s : State) : Host.Outcome State Fault Refusal :=
  s.run (fun d => d.writeCinStage w.val data)

/-- RING_ENABLE (R512): a write of HR_CTL_n. -/
def execRingEnable (n : Fin 35) (ctl : W32) (s : State) : Host.Outcome State Fault Refusal :=
  s.run (fun d => d.writeRingReg n.val 2 ctl.toNat)

/-- RING_DOORBELL (R510, R511). -/
def execRingDoorbell (n : Fin 35) (idx : W16) (s : State) : Host.Outcome State Fault Refusal :=
  s.run (fun d => d.doorbell n.val idx)

/-- PAIR_KEEPALIVE_WRITE (R553): SC_0 or SC_1 refreshes the keepalive, whatever the value. -/
def execPairKeepaliveWrite (val : W32) (s : State) : Host.Outcome State Fault Refusal :=
  s.run (fun d => let _ := val; d.kick)

/-- EVENT_POST (R524, R525). -/
def execEventPost (s : State) : Host.Outcome State Fault Refusal :=
  s.run (fun d => d.postEvent)

/-- MSIX_MODERATION_END (R507): the interval of vector n ends, and an advance that fell inside it fires now. -/
def execMsixModerationEnd (n : Fin 64) (s : State) : Host.Outcome State Fault Refusal :=
  s.run (fun d =>
    let r := d.ring n.val
    if n.val < 35 ∧ r.inInterval then
      (if r.deferred then
        (d.setRing n.val { r with deferred := false, inInterval := d.cfg.HR_CTL_MOD_US n.val != 0 }).emit .msix n.val []
       else d.setRing n.val { r with inInterval := false })
    else d)

/-- CMD_NOP (R521): it completes with ST_OK from any source. -/
def Dev.cmdNop (d : Dev) (h : Hdr) : Dev := d.command ⟨h, .CMD_NOP, 0, []⟩ (fun d => d.complete ⟨h, .CMD_NOP, 0, []⟩ .ST_OK)

def execCmdNop (h : Hdr) (s : State) : Host.Outcome State Fault Refusal :=
  s.run (fun d => d.cmdNop h)

/-- An opcode that R521 does not list, or one with bits [15:8] set (R520): ST_UNKNOWN_OPCODE and no other effect; CMD_ID
0 gives ST_BAD_PARAM. -/
def Dev.cmdUnknown (d : Dev) (h : Hdr) (opcode : W16) : Dev :=
  if d.deaf = true ∨ (h.path = .pcie ∧ ¬ d.cmdRoom = true) then d
  else
    let d := d.fetchCmd h.path
    d.post ⟨h.path, opcode.toNat, if h.cmdId = 0 then .ST_BAD_PARAM else .ST_UNKNOWN_OPCODE, h.cmdId, d.epoch.numPcie,
      d.elec.chipId, false, []⟩

/-- CMD_UNKNOWN_OPCODE (R520). -/
def execCmdUnknownOpcode (h : Hdr) (opcode : W16) (s : State) : Host.Outcome State Fault Refusal :=
  s.run (fun d => d.cmdUnknown h opcode)

end Sys2Proof.Machine
end

