-- ==== Sys2Proof/Machine/Keys.lean ====
section
/-! DEFINITION. Keys and trust: stored keys (R420 to R427, R438), derived keys (R428, R431), the keystore record (R439 to
R444), migration (R445 to R447), MACsec SAKs (R450), the life cycle and OTP (R409, R417, R522). -/

namespace Sys2Proof.Machine

/-- The TRANSPORT_KEY as PARENT (R423). -/
def transportParent : Nat := 0xFFFF

namespace Dev

/-- Provisioned or Deployed: stored keys may be filled (R408, R425). -/
def keysAllowed (d : Dev) : Bool := d.sec.lc == 1 || d.sec.lc == 2

/-- JTAG reaches core debug, beside boundary scan (R408): in Blank and in Service. -/
def coreDebug (d : Dev) : Bool := d.sec.lc == 0 || d.sec.lc == 3

/-- The device as commands, image verification and the service cores see its stored slots (R438). -/
def commandView (d : Dev) : Dev :=
  match d.sec.coreKeys with
  | some m => { d with sec := { d.sec with keys := m } }
  | none => d

/-- A stored key that may be used for a usage bit (R421, R438, R588). -/
def keyUsable (d : Dev) (n usageBit : Nat) : Bool :=
  (d.key n).valid && !(d.key n).reloading && bit (d.key n).usage usageBit

/-! ### Derived keys (R428) -/

/-- The tag of a node key. -/
def nodeTag (d : Dev) (slot : Nat) (eui : W64) (epoch : Nat) (up : Bool) : KeyTag :=
  ⟨slot, (d.key slot).gen, if up then .up else .down, eui.toNat, epoch⟩

/-- The tag of a beacon or bulk key. -/
def panTag (d : Dev) (slot panId : Nat) (bulk : Bool) : KeyTag :=
  ⟨slot, (d.key slot).gen, if bulk then .bulk else .beacon, panId, 0⟩

/-- The key of a tag (R419). -/
def derivedKey (d : Dev) (t : KeyTag) : List Byte :=
  let k := (d.key t.slot).key
  match t.purpose with
  | .up => kdf k (asc "QZ-NODE") (be 8 t.ident ++ be 2 t.epoch ++ [0x55#8]) 128
  | .down => kdf k (asc "QZ-NODE") (be 8 t.ident ++ be 2 t.epoch ++ [0x44#8]) 128
  | .beacon => kdf k (asc "QZ-BEACON") (be 2 t.ident) 128
  | .bulk => kdf k (asc "QZ-BULK") (be 2 t.ident) 128

/-- Request a derived key (R428): a hit makes it the most recently used; a derivation that runs is joined; otherwise one
starts on one of the four KDF units, or waits behind them, a receive request ahead of the others. -/
def requestKey (d : Dev) (t : KeyTag) : Dev :=
  if t ∈ d.sec.cache then
    ({ d with sec := { d.sec with cache := t :: d.sec.cache.filter (fun x => !decide (x = t)) } }).bump Cnt.KCACHE_HIT
  else if t ∈ d.sec.kdfs then d
  else
    let q := d.sec.kdfs
    let w := q.drop 4
    let up := fun (x : KeyTag) => x.purpose == .up
    { d with sec := { d.sec with
        kdfs := if up t then q.take 4 ++ w.filter up ++ [t] ++ w.filter (fun x => !up x) else q ++ [t] } }

/-- The set of the cache a tag falls into (R428). -/
def kset (t : KeyTag) : Nat := Config.kcacheSet t.slot t.gen (t.ident * 4 + (match t.purpose with
  | .up => 0 | .down => 1 | .beacon => 2 | .bulk => 3)) t.epoch % 4096

/-- Place a derived key in the cache (R428): in a full set of 4 it replaces the least recently used. -/
def cachePlace (d : Dev) (t : KeyTag) : Dev :=
  let mine := d.sec.cache.filter (fun x => decide (kset x = kset t))
  if mine.length < 4 then { d with sec := { d.sec with cache := t :: d.sec.cache } }
  else match mine.getLast? with
    | some v => ({ d with sec := { d.sec with cache := t :: d.sec.cache.filter (fun x => !decide (x = v)) } }).bump
        Cnt.KCACHE_EVICT
    | none => { d with sec := { d.sec with cache := t :: d.sec.cache } }

/-- A derivation completes (R428); a key whose parent's GEN has moved is not placed (R438). -/
def kdfDone (d : Dev) : Dev :=
  match d.sec.kdfs with
  | [] => d
  | t :: rest =>
    let d := ({ d with sec := { d.sec with kdfs := rest } }).bump Cnt.KDF_DERIVE
    if (d.key t.slot).valid ∧ (d.key t.slot).gen = t.gen then d.cachePlace t else d

/-! ### The keystore record (R439 to R444) -/

/-- The slots a record holds: valid, and not placed by R449. -/
def recordEntries (d : Dev) (p : KeySlot → Bool) : SMap KeySlot :=
  (d.sec.keys.filter (fun x => x.2.valid && !x.2.volatile && p x.2)).map (fun x =>
    (x.1, { x.2 with pendingInvalid := false, unremoved := false, reloading := false }))

/-- COUNTER of the record in use, 0 where none is. -/
def ksCounter (d : Dev) : Nat :=
  let r := if d.sec.ksSlot = 0 then d.ks0 else if d.sec.ksSlot = 1 then d.ks1 else none
  match r with
  | some x => x.counter
  | none => 0

/-- The slot a new record goes to: the other one, KS_0 where none is in use. -/
def ksOther (d : Dev) : Nat := if d.sec.ksSlot = 0 then 1 else 0

/-- Boot flash of a keystore slot. -/
def setKs (d : Dev) (i : Nat) (r : Option KsRecord) : Dev := if i = 0 then { d with ks0 := r } else { d with ks1 := r }

/-- A record with its commit record (R442). -/
def sealRecord (d : Dev) (r : KsRecord) : KsRecord :=
  { r with commit := ksCommitRecord (d.ksBody r).length r.counter (d.ksTag r) }

/-- Start a record write (R444): the slot is erased first, and holds no commit record until the write ends. -/
def startWrite (d : Dev) (meas : List Byte) (p : KeySlot → Bool) (cmds : List Completion) (mig : Option Cmd) : Dev :=
  let i := d.ksOther
  let w : KsWrite := ⟨d.sealRecord ⟨d.ksCounter + 1, d.sec.lc, meas, d.recordEntries p, []⟩, i, false, cmds, mig⟩
  ({ d with sec := { d.sec with write := some w } }).setKs i none

/-- Start the write of changes that wait, where none runs; none overwrites a migration record (R447). -/
def writeIfDue (d : Dev) : Dev :=
  if d.sec.write.isNone ∧ d.sec.nextDue ∧ d.sec.migrationPending = false then
    let cs := d.sec.nextCmds
    ({ d with sec := { d.sec with nextCmds := [], nextDue := false } }).startWrite d.sec.meas (fun _ => true) cs none
  else d

/-- Slots invalidated and absent from the record just committed are empty again (R425). -/
def dropUnremoved (d : Dev) (es : SMap KeySlot) : Dev :=
  let keys : SMap KeySlot := SMap.mapAll d.sec.keys ({} : KeySlot) (fun n x =>
    if x.unremoved = true ∧ x.valid = false ∧ (es.find n).isNone = true then { ({} : KeySlot) with gen := x.gen } else x)
  { d with sec := { d.sec with keys := keys } }

/-- A record write ends (R444, R446). Changes that wait for the next record when a migration record is committed get none, and
their commands complete with ST_MIGRATION_PENDING (R447; DESIGN CHOICE, log entry 161). -/
def writeDone (d : Dev) (ok : Bool) : Dev :=
  match d.sec.write with
  | none => d
  | some w =>
    if ok then
      let d := ({ d with sec := { d.sec with write := none } }).setKs w.into (some w.rcd)
      match w.migrate with
      | some c =>
        let cs := d.sec.nextCmds
        let d := ({ d with sec := { d.sec with migrationPending := true, nextCmds := [], nextDue := false } }).complete c .ST_OK
          (slice w.rcd.meas 0 8)
        cs.foldl (fun (d : Dev) (k : Completion) => d.finish { k with status := .ST_MIGRATION_PENDING }) d
      | none =>
        let d := ({ d with sec := { d.sec with ksSlot := w.into } }).dropUnremoved w.rcd.entries
        (w.cmds.foldl (fun d k => d.finish k) d).writeIfDue
    else if ¬ w.retried then { d with sec := { d.sec with write := some { w with retried := true } } }
    else
      let d := (({ d with sec := { d.sec with write := none } }).bump Cnt.KS_WRITE_FAIL).raise .EVT_KEYSTORE_FAIL []
      let d := match w.migrate with
        | some c => d.complete c .ST_KEYSTORE_FAIL
        | none => w.cmds.foldl (fun (d : Dev) (k : Completion) => d.finish { k with status := .ST_KEYSTORE_FAIL }) d
      d.writeIfDue

/-! ### Stored slots (R423 to R425, R438) -/

/-- A slot's parent is in a set. -/
def below (d : Dev) (ns : List Nat) : List Nat :=
  (d.sec.keys.filter (fun x => x.2.valid && decide (x.2.parent ∈ ns) && decide (x.1 ∉ ns))).map (fun x => x.1)

/-- A slot and every stored slot below it: levels 2 to 4, so at most two steps down. -/
def family (d : Dev) (n : Nat) : List Nat :=
  let a := [n]
  let b := a ++ d.below a
  b ++ d.below b

/-- Invalidate a slot and every slot below it (R438): GEN rises modulo 256, the derived keys are purged, and SAs
installed under a MACSEC_KEK slot are erased. -/
def invalidate (d : Dev) (n : Nat) : Dev :=
  let f := d.family n
  let d := d.each f (fun d i => d.modKey i (fun x => { x with
    valid := false, pendingInvalid := false, gen := (x.gen + 1) % 256, unremoved := true, key := [] }))
  let d := { d with sec := { d.sec with cache := d.sec.cache.filter (fun t => decide (t.slot ∉ f)) } }
  d.each [0, 1, 2, 3] (fun d e => d.modEth e (fun x => { x with
    txSa := x.txSa.filter (fun s => decide (s.2.slot ∉ f)), rxSa := x.rxSa.filter (fun s => decide (s.2.slot ∉ f)) }))

/-- Fields of CMD_KEY_SET (R423); the blob follows the 64 payload octets. -/
def ksOp (p : List Byte) : Nat := fld p 0 1
def ksSlotField (p : List Byte) : Nat := fld p 2 2
def ksParent (p : List Byte) : Nat := fld p 4 2
def ksUsage (p : List Byte) : Nat := fld p 6 2
def ksEpoch (p : List Byte) : Nat := fld p 8 6
def ksCallers (p : List Byte) : Nat := fld p 0x0E 1
def ksBlob (p : List Byte) : List Byte := p.drop 64

/-- The unwrapping or deriving key (R423). -/
def parentKey (d : Dev) (parent : Nat) : List Byte :=
  if parent = transportParent then d.otp.transportKey else (d.key parent).key

/-- Level of a new slot (R423). -/
def newLevel (d : Dev) (parent : Nat) : Nat := if parent = transportParent then 2 else (d.key parent).level + 1

/-- The plaintext of an OP 0 blob (R424). -/
def blobKey (d : Dev) (p : List Byte) : Option (List Byte) := Config.keyUnwrap (d.parentKey (ksParent p)) (ksBlob p)

/-- The tag of an OP 1 blob (R424). -/
def pubTagOk (d : Dev) (p : List Byte) : Bool :=
  decide (slice (Config.cmac (d.parentKey (ksParent p)) ([0x50#8] ++ slice (ksBlob p) 0 2056)) 0 16 =
    slice (ksBlob p) 2056 16)

/-- The key a CMD_KEY_SET of OP 0 to 2 puts into its slot. -/
def newKey (d : Dev) (op : Nat) (p : List Byte) : List Byte :=
  match op with
  | 0 => slice ((d.blobKey p).getD []) 0 32
  | 1 => slice (ksBlob p) 0 2056
  | _ => kdf (d.parentKey (ksParent p)) (asc "QZ-SLOT") (slice p 0x20 16) 256

/-- A field of the payload is out of range (R423). -/
def ksBadField (op : Nat) (p : List Byte) : Bool :=
  let par := ksParent p
  decide (ksOp p ≠ op) || decide (3 < fld p 1 1) || decide (1023 < ksSlotField p) || decide (128 ≤ ksUsage p) ||
    decide (16 ≤ ksCallers p) || !zeros p 0x0F 1 || !zeros p 0x30 16 || decide (fld p 0x1C 4 ≠ (match op with
      | 0 => 48 | 1 => 2072 | _ => 0)) ||
    (op != 2 && !zeros p 0x20 16) ||
    (match op with
     | 0 => decide (1023 < par ∧ par ≠ transportParent)
     | 1 => decide (1023 < par ∧ par ≠ transportParent)
     | 2 => decide (1023 < par)
     | _ => decide (par ≠ 0))

/-- The first outcome of R425 that applies before the application, if any; `op` 0 to 3. The blob is present unless its
transfer failed. A USAGE is wider than its parent allows where it has a bit that the parent's USAGE lacks (DEDUCED, log entry
104). -/
def keySetRefusal (d : Dev) (c : Cmd) (op : Nat) : Option Status :=
  let p := c.p
  let par := ksParent p
  let slot := ksSlotField p
  let x := d.key slot
  let px := d.key par
  let caller := Dev.callerBit c.hdr.path
  let named := if op = 3 then x else px
  let transport := op < 2 ∧ par = transportParent
  let blobThere := op ≥ 2 ∨ (ksBlob p).length = fld p 0x1C 4
  let plain := if op = 0 ∧ blobThere then d.blobKey p else none
  if ¬ d.keysAllowed then some .ST_WRONG_LIFECYCLE
  else if d.sec.migrationPending then some .ST_MIGRATION_PENDING
  else if ksBadField op p then some .ST_BAD_PARAM
  else if op < 3 ∧ ¬ transport ∧ px.valid ∧ (ksCallers p &&& px.callers ≠ ksCallers p ∨ ksUsage p &&& px.usage ≠ ksUsage p) then
    some .ST_BAD_PARAM
  else if op = 1 ∧ ksUsage p ≠ 16 then some .ST_BAD_PARAM
  else if (match plain with
      | some k => decide (fld k 32 2 ≠ ksUsage p ∨ fld k 34 1 ≠ ksCallers p) || !zeros k 35 5
      | none => false) then some .ST_BAD_PARAM
  else if ¬ transport ∧ (named.valid ∨ named.unremoved) ∧ ¬ bit named.callers caller then some .ST_KEY_DENIED
  else if op < 3 ∧ (x.valid ∨ x.unremoved) then some .ST_SLOT_IN_USE
  else if op = 3 ∧ ¬ x.valid then some .ST_NOT_FOUND
  else if op < 3 ∧ ¬ transport ∧ ¬ d.keyUsable par (if op = 2 then 2 else 3) then some .ST_KEY_INVALID
  else if op < 3 ∧ 4 < d.newLevel par then some .ST_LEVEL
  else if op = 1 ∧ 16 ≤ (d.sec.keys.filter (fun y => y.2.valid && y.2.pub)).length then some .ST_PUBKEY_FULL
  else if ¬ blobThere then some .ST_TRANSFER_FAIL
  else if op = 0 ∧ plain.isNone then some .ST_UNWRAP_FAIL
  else if op = 1 ∧ ¬ d.pubTagOk p then some .ST_UNWRAP_FAIL
  else if op < 3 ∧ fld p 0x18 4 ≠ 0 ∧ kcvOf (op = 1) (d.newKey op p) ≠ fld p 0x18 4 then some .ST_KCV_MISMATCH
  else none

/-- CMD_KEY_SET at acceptance (R425): the first refusal, ST_EPOCH_PASSED, or it is staged; an invalidation shows
PENDING_INVALID from then on (R426). -/
def keySet (d : Dev) (h : Hdr) (p : List Byte) (op : Nat) : Dev :=
  let c : Cmd := ⟨h, .CMD_KEY_SET, op, p⟩
  d.command c (fun d =>
    match d.commandView.keySetRefusal c op with
    | some st => d.complete c st
    | none =>
      let at_ := bit (fld p 1 1) 0
      if at_ ∧ d.freezePassed (ksEpoch p) then d.complete c .ST_EPOCH_PASSED
      else
        let d := if op = 3 then d.modKey (ksSlotField p) (fun x => { x with pendingInvalid := true }) else d
        d.stageCmd c (if at_ then some (ksEpoch p) else none))

/-- CMD_KEY_SET at its boundary: the checks meet the state as it is then, the change applies, and the completion waits
for the record that holds it (R425, R444). -/
def keySetApply (d : Dev) (c : Cmd) : Dev :=
  let p := c.p
  let slot := ksSlotField p
  let d0 := d.modKey slot (fun x => { x with pendingInvalid := false })
  match d0.keySetRefusal c c.sub with
  | some st => d0.completeStaged c st
  | none =>
    let d1 :=
      if c.sub = 3 then d0.invalidate slot
      else d0.modKey slot (fun x => { x with
        valid := true, pub := c.sub == 1, level := d0.newLevel (ksParent p), usage := ksUsage p
        callers := ksCallers p, parent := ksParent p, key := d0.newKey c.sub p, unremoved := false, volatile := false })
    let k := d1.cplOf c .ST_OK [] d1.epoch.num
    ({ d1 with sec := { d1.sec with nextCmds := d1.sec.nextCmds ++ [k], nextDue := true } }).holdCmd c

/-! ### Migration (R445 to R447) -/

/-- The first bad field of an update manifest, by offset (R445, R446). -/
def manifestBad (d : Dev) (m : List Byte) : Option Nat :=
  let cust := bit (fld m 7 1) 0
  let custSet := !(d.sec.custEc.all (fun x => x == 0#8) && d.sec.custMl.all (fun x => x == 0#8))
  let hash := Config.sha384 (slice m 0 0x888)
  if slice m 0 4 ≠ asc "QZUM" then some 0
  else if fld m 4 2 ≠ 1 then some 4
  else if fld m 6 1 ≠ deviceRev then some 6
  else if 2 ≤ fld m 7 1 ∨ cust ≠ custSet then some 7
  else if 64 < fld m 8 4 then some 8
  else if ¬ zeros m 0x0C 4 then some 0x0C
  else if ¬ cust ∧ ¬ zeros m 0x40 48 then some 0x40
  else if ¬ zeros m 0x70 24 then some 0x70
  else if ¬ keysMatch (slice m 0x88 2056) d.otp.vendorEc d.otp.vendorMl then some 0x88
  else if ¬ sigOk (slice m 0x88 2056) (slice m 0x890 3416) hash then some 0x890
  else if cust ∧ ¬ keysMatch (slice m 0x15E8 2056) d.sec.custEc d.sec.custMl then some 0x15E8
  else if cust ∧ ¬ sigOk (slice m 0x15E8 2056) (slice m 0x1DF0 3416) hash then some 0x1DF0
  else none

/-- CMD_KEY_MIGRATE (R446). LENGTH is out of range where it is shorter than a manifest without its customer part, or longer than
R274 lets an image be (DEDUCED, log entry 183). -/
def keyMigrate (d : Dev) (h : Hdr) (p : List Byte) (manifest : Option (List Byte)) : Dev :=
  let c : Cmd := ⟨h, .CMD_KEY_MIGRATE, 0, p⟩
  d.command c (fun d =>
    if ¬ d.keysAllowed then d.complete c .ST_WRONG_LIFECYCLE
    else if d.sec.migrationPending then d.complete c .ST_MIGRATION_PENDING
    else if d.sec.write.isSome then d.complete c .ST_BUSY
    else if 1 < fld p 0 1 ∨ ¬ zeros p 1 7 ∨ ¬ zeros p 0x14 44 ∨ fld p 0x10 4 < 0x15E8 ∨ 4194304 < fld p 0x10 4 then
      d.complete c .ST_BAD_PARAM
    else match manifest with
      | none => d.complete c .ST_TRANSFER_FAIL
      | some m =>
        match d.manifestBad (slice m 0 (fld p 0x10 4)) with
        | some o => d.complete c .ST_MANIFEST_REFUSED (le 4 o)
        | none =>
          if fld m 8 4 < d.otp.secMin then d.complete c .ST_ROLLBACK
          else
            let m' := measure [Config.romDigest, slice m 0x10 48, slice m 0x40 48]
            (d.holdCmd c).startWrite m' (fun x => bit x.usage 6) [] (some c))

/-! ### MACsec SAKs (R450) -/

/-- The wrapped SAK of OP 0 and 1. -/
def sakOf (d : Dev) (p : List Byte) : Option (List Byte) := Config.keyUnwrap (d.key (fld p 4 2)).key (slice p 0x10 40)

/-- An SA is removed: a receive channel without SAs frees its SCI. -/
def removeSa (x : EthPort) (rx : Bool) (sci : W64) (an : Nat) : EthPort :=
  if rx then
    match x.rxSci.findIdx? (fun s => s == sci) with
    | some i => { x with rxSa := x.rxSa.del (4 * i + an) }
    | none => x
  else { x with txSa := x.txSa.del an }

/-- The receive channel of an SCI: an existing one, one without SAs, or a new one of the four (R488). -/
def rxChannel (x : EthPort) (sci : W64) : Option (Nat × List W64) :=
  match x.rxSci.findIdx? (fun s => s == sci) with
  | some i => some (i, x.rxSci)
  | none =>
    match (List.range x.rxSci.length).find? (fun i => x.rxSa.all (fun s => decide (s.1 / 4 ≠ i))) with
    | some i => some (i, x.rxSci.set i sci)
    | none => if x.rxSci.length < 4 then some (x.rxSci.length, x.rxSci ++ [sci]) else none

/-- CMD_MACSEC_SAK, OP 0 to 3 (R450, R488). -/
def macsecSak (d : Dev) (h : Hdr) (p : List Byte) (op : Nat) : Dev :=
  let c : Cmd := ⟨h, .CMD_MACSEC_SAK, op, p⟩
  d.command c (fun d =>
    let v := d.commandView
    let port := fld p 0 1
    let an := fld p 2 1
    let slot := fld p 4 2
    let sci : W64 := BitVec.ofNat 64 (fld p 8 8)
    let bad := decide (3 < port ∨ fld p 1 1 ≠ op ∨ 3 < an) || !zeros p 6 2 || !zeros p 0x38 8 ||
      (if op = 3 then decide (1 < fld p 3 1 ∨ slot ≠ 0) else decide (fld p 3 1 ≠ 0 ∨ 1023 < slot)) ||
      (decide (2 ≤ op) && !zeros p 0x10 40)
    if ¬ d.keysAllowed then d.complete c .ST_WRONG_LIFECYCLE
    else if op < 3 ∧ slot ≤ 1023 ∧ (v.key slot).valid ∧ ¬ bit (v.key slot).callers (Dev.callerBit h.path) then
      d.complete c .ST_KEY_DENIED
    else if op < 3 ∧ ¬ (slot ≤ 1023 ∧ v.keyUsable slot 5) then d.complete c .ST_KEY_INVALID
    else if bad ∨ (op = 1 ∧ (rxChannel (d.eth port) sci).isNone) then d.complete c .ST_BAD_PARAM
    else if op < 2 ∧ (v.sakOf p).isNone then d.complete c .ST_UNWRAP_FAIL
    else if op = 2 ∧ d.sec.trngFail then d.complete c .ST_TRNG_FAIL
    else
      match op with
      | 0 =>
        (d.modEth port (fun x => { x with
          txSa := x.txSa.put an ⟨sci, (v.sakOf p).getD [], slot, 1, false⟩ })).complete c .ST_OK
      | 1 =>
        (d.modEth port (fun x => match rxChannel x sci with
          | some (i, scis) => { x with
              rxSci := scis, rxSa := x.rxSa.put (4 * i + an) ⟨sci, (v.sakOf p).getD [], slot, 0, false⟩ }
          | none => x)).complete c .ST_OK
      | 2 =>
        let k := d.draw 256
        let sak := le 32 k.1.toNat
        (k.2.modEth port (fun x => { x with txSa := x.txSa.put an ⟨sci, sak, slot, 1, false⟩ })).complete c .ST_OK
          (slice (Config.keyWrap (v.key slot).key sak) 0 40)
      | _ => (d.modEth port (fun x => removeSa x (fld p 3 1 == 1) sci an)).complete c .ST_OK)

/-! ### Life cycle and OTP -/

/-- The target state is reachable from the fused state (R408). -/
def lcReachable (fused target : Nat) : Bool :=
  (fused == 0 && target == 1) || (fused == 1 && target == 2) || ((fused == 1 || fused == 2) && target == 3) ||
    (decide (fused < 4) && target == 4)

/-- What a life-cycle burn does ahead of its LC step (R409): for Provisioned the silicon root is drawn and burnt, unless an
earlier attempt has burnt it; for Retired both hidden fields are burnt to all ones. -/
def burnAhead (d : Dev) (target : Nat) : Dev :=
  if target = 1 ∧ d.otp.siliconRoot.all (fun b => b == 0#8) then
    let r := d.draw 256
    { r.2 with otp := { r.2.otp with siliconRoot := le 32 r.1.toNat } }
  else if target = 4 then
    { d with otp := { d.otp with siliconRoot := List.replicate 32 0xFF#8, transportKey := List.replicate 32 0xFF#8 } }
  else d

/-- Burn a life-cycle step (R409), TRANSPORT_KEY together with the LC step of Provisioned (DESIGN CHOICE, log entry 185). -/
def burnLc (d : Dev) (target : Nat) (key : List Byte) : Dev :=
  let e := d.burnAhead target
  { e with otp := { e.otp with lc := target, transportKey := if target = 1 then key else e.otp.transportKey } }

/-- A life-cycle burn that does not read back, or that a power failure meets: each step is burnt or not, in their order, as a free
value says (R409; DESIGN CHOICE, log entry 185). -/
def burnPart (d : Dev) (target : Nat) (key : List Byte) : Dev :=
  let b := d.draw 2
  if b.1 = 0 then b.2 else if b.1 = 1 then b.2.burnAhead target else b.2.burnLc target key

/-- CMD_LC_ADVANCE (R409). A burn that a power failure ends comes with a read-back that fails, and its SUPPLY_LOSS follows. -/
def lcAdvance (d : Dev) (h : Hdr) (p : List Byte) (readBackOk : Bool) : Dev :=
  let c : Cmd := ⟨h, .CMD_LC_ADVANCE, 0, p⟩
  d.command c (fun d =>
    let t := fld p 0 1
    let key := slice p 0x10 32
    if ¬ lcReachable d.otp.lc t then d.complete c .ST_WRONG_LIFECYCLE
    else if fld p 4 4 ≠ 0x4C435631 ∨ ¬ zeros p 1 3 ∨ ¬ zeros p 8 8 ∨ ¬ zeros p 0x30 16 ∨ (t ≠ 1 ∧ ¬ zeros p 0x10 32) then
      d.complete c .ST_BAD_PARAM
    else if t = 1 ∧ (zeros p 0x10 32 ∨ key.all (fun b => b == 0xFF#8)) then d.complete c .ST_BAD_PARAM
    else if t = 2 ∧ ¬ (d.otp.cin0Ok ∨ d.otp.cin1Ok) then d.complete c .ST_CINNABAR_UNLOCKED
    else if t = 1 ∧ d.sec.trngFail then d.complete c .ST_TRNG_FAIL
    else if ¬ readBackOk then
      (d.burnPart t key).complete c .ST_OTP_FAIL
    else (d.burnLc t key).complete c .ST_OK)

/-- A hash field of R407 by WHICH of R522. -/
def otpHashField (o : Otp) (w : Nat) : List Byte :=
  match w with
  | 0 => o.oemEc | 1 => o.oemMl | 2 => o.custEc | _ => o.custMl

/-- Burn a hash field. -/
def burnHash (o : Otp) (w : Nat) (v : List Byte) : Otp :=
  match w with
  | 0 => { o with oemEc := v } | 1 => { o with oemMl := v } | 2 => { o with custEc := v } | _ => { o with custMl := v }

/-- CMD_OTP_HASH (R522). -/
def otpHash (d : Dev) (h : Hdr) (p : List Byte) (readBackOk : Bool) : Dev :=
  let c : Cmd := ⟨h, .CMD_OTP_HASH, 0, p⟩
  d.command c (fun d =>
    let w := fld p 0 1
    if ¬ (d.sec.lc = 0 ∨ d.sec.lc = 1) then d.complete c .ST_WRONG_LIFECYCLE
    else if Dev.callerBit h.path ≠ 0 then d.complete c .ST_WORLD_DENIED
    else if 3 < w ∨ fld p 4 4 ≠ 0x4F545048 ∨ zeros p 0x10 48 ∨ ¬ zeros p 1 3 ∨ ¬ zeros p 8 8 then
      d.complete c .ST_BAD_PARAM
    else if w ∈ d.otp.spent ∨ ¬ (otpHashField d.otp w).all (fun b => b == 0#8) then d.complete c .ST_ALREADY_SET
    else if ¬ readBackOk then
      let v := d.draw 384
      ({ v.2 with otp := { burnHash v.2.otp w (le 48 v.1.toNat) with spent := w :: v.2.otp.spent } }).complete c .ST_OTP_FAIL
    else ({ d with otp := burnHash d.otp w (slice p 0x10 48) }).complete c .ST_OK)

/-- CMD_ROLLBACK_COMMIT (R417). -/
def rollbackCommit (d : Dev) (h : Hdr) (p : List Byte) : Dev :=
  let c : Cmd := ⟨h, .CMD_ROLLBACK_COMMIT, 0, p⟩
  d.command c (fun d =>
    let v := fld p 0 4
    if v ≠ d.sec.running ∨ ¬ zeros p 4 60 then d.complete c .ST_BAD_PARAM
    else ({ d with otp := { d.otp with secMin := max d.otp.secMin v } }).complete c .ST_OK)

/-- A stored-key slot is reloaded from the record in use (R588). -/
def keyReload (d : Dev) (n : Nat) : Dev :=
  let r := if d.sec.ksSlot = 0 then d.ks0 else if d.sec.ksSlot = 1 then d.ks1 else none
  if ¬ (d.key n).reloading then d
  else match r with
    | some x => match x.entries.find n with
      | some k => (d.modKey n (fun y => { k with gen := y.gen, pendingInvalid := y.pendingInvalid, reloading := false })).bump
          Cnt.ECC_RESTORED
      | none => (d.modKey n (fun y => { y with reloading := false })).bump Cnt.ECC_RESTORED
    | none => d

end Dev

/-! ### Meanings -/

/-- KDF_DONE (R428). -/
def execKdfDone (s : State) : Host.Outcome State Fault Refusal :=
  s.run (fun d => d.kdfDone)

/-- CMD_KEY_SET OP 0 (R423 to R425): import a SYM256 key; `blob` is none where its transfer fails. -/
def Dev.cmdKeySetSym (d : Dev) (h : Hdr) (p : List Byte) (blob : Option (List Byte)) : Dev :=
  d.keySet h (slice p 0 64 ++ blob.getD []) 0

def execCmdKeySetImportSym256 (h : Hdr) (p : List Byte) (blob : Option (List Byte)) (s : State) :
    Host.Outcome State Fault Refusal :=
  s.run (fun d => d.cmdKeySetSym h p blob)

/-- CMD_KEY_SET OP 1 (R423 to R425): import a PUB_PAIR. -/
def Dev.cmdKeySetPub (d : Dev) (h : Hdr) (p : List Byte) (blob : Option (List Byte)) : Dev :=
  d.keySet h (slice p 0 64 ++ blob.getD []) 1

def execCmdKeySetImportPubPair (h : Hdr) (p : List Byte) (blob : Option (List Byte)) (s : State) :
    Host.Outcome State Fault Refusal :=
  s.run (fun d => d.cmdKeySetPub h p blob)

/-- CMD_KEY_SET OP 2 (R419, R423): derive a SYM256 key. -/
def execCmdKeySetDerive (h : Hdr) (p : List Byte) (s : State) : Host.Outcome State Fault Refusal :=
  s.run (fun d => d.keySet h (slice p 0 64) 2)

/-- CMD_KEY_SET OP 3 (R423, R438): invalidate a slot. -/
def execCmdKeySetInvalidate (h : Hdr) (p : List Byte) (s : State) : Host.Outcome State Fault Refusal :=
  s.run (fun d => d.keySet h (slice p 0 64) 3)

/-- KEYSTORE_WRITE_DONE (R444, R446, R447). -/
def execKeystoreWriteDone (ok : Bool) (s : State) : Host.Outcome State Fault Refusal :=
  s.run (fun d => d.writeDone ok)

/-- CMD_KEY_MIGRATE (R446). -/
def execCmdKeyMigrate (h : Hdr) (p : List Byte) (manifest : Option (List Byte)) (s : State) :
    Host.Outcome State Fault Refusal :=
  s.run (fun d => d.keyMigrate h p manifest)

/-- CMD_MACSEC_SAK OP 0 (R450). -/
def execCmdMacsecSakInstallTx (h : Hdr) (p : List Byte) (s : State) : Host.Outcome State Fault Refusal :=
  s.run (fun d => d.macsecSak h p 0)

/-- CMD_MACSEC_SAK OP 1 (R450, R488). -/
def execCmdMacsecSakInstallRx (h : Hdr) (p : List Byte) (s : State) : Host.Outcome State Fault Refusal :=
  s.run (fun d => d.macsecSak h p 1)

/-- CMD_MACSEC_SAK OP 2 (R450). -/
def execCmdMacsecSakGenerateTx (h : Hdr) (p : List Byte) (s : State) : Host.Outcome State Fault Refusal :=
  s.run (fun d => d.macsecSak h p 2)

/-- CMD_MACSEC_SAK OP 3 (R450). -/
def execCmdMacsecSakRemove (h : Hdr) (p : List Byte) (s : State) : Host.Outcome State Fault Refusal :=
  s.run (fun d => d.macsecSak h p 3)

/-- CMD_LC_ADVANCE (R409). -/
def execCmdLcAdvance (h : Hdr) (p : List Byte) (readBackOk : Bool) (s : State) : Host.Outcome State Fault Refusal :=
  s.run (fun d => d.lcAdvance h p readBackOk)

/-- CMD_OTP_HASH (R522). -/
def execCmdOtpHash (h : Hdr) (p : List Byte) (readBackOk : Bool) (s : State) : Host.Outcome State Fault Refusal :=
  s.run (fun d => d.otpHash h p readBackOk)

/-- CMD_ROLLBACK_COMMIT (R417). -/
def execCmdRollbackCommit (h : Hdr) (p : List Byte) (s : State) : Host.Outcome State Fault Refusal :=
  s.run (fun d => d.rollbackCommit h p)

/-- KEY_SLOT_RELOAD (R588). -/
def execKeySlotReload (slot : Fin 1024) (s : State) : Host.Outcome State Fault Refusal :=
  s.run (fun d => d.keyReload slot.val)

end Sys2Proof.Machine
end

