-- ==== Sys2Proof/Machine/Tables.lean ====
section
/-! DEFINITION. The node, route and prefix tables and the seen-cache (R299 to R302, R312 to R352, R436): hashes, lookups,
two-choice insertion with moves, the address pools (R216), ageing, rebuilds, Verdigris, and their commands. -/

namespace Sys2Proof.Machine

/-! ### Hash functions (R323) -/

/-- mix64 of R323. -/
def mix64 (k s : W64) : W64 :=
  let x := k ^^^ s
  let x := x ^^^ (x >>> 33)
  let x := x * 0xFF51AFD7ED558CCD#64
  let x := x ^^^ (x >>> 33)
  let x := x * 0xC4CEB9FE1A85EC53#64
  x ^^^ (x >>> 33)

/-- The two buckets of a hash value: fields of n bits from bits 0 and lo; the second is the first with bit 0 inverted
where they are equal. -/
def twoOf (h n lo : Nat) : Nat × Nat :=
  let a := bits h (n - 1) 0
  let b := bits h (lo + n - 1) lo
  (a, if b = a then a ^^^ 1 else b)

/-- Candidate hint buckets and fingerprint of an EUI-64 on a PAN. -/
def hintHash (seed : W64) (pan : Nat) (eui : W64) : Nat × Nat × Nat :=
  let h := (mix64 eui (seed ^^^ BitVec.ofNat 64 pan)).toNat
  (bits h 15 0, bits h 15 0 ^^^ (bits h 34 19 ||| 1), h / 2 ^ 19)

/-- Candidate buckets of a route. -/
def routeHash (seed : W64) (pan target : Nat) : Nat × Nat :=
  twoOf (mix64 (BitVec.ofNat 64 (pan * 65536 + target)) seed).toNat 15 15

/-- Candidate buckets of a prefix masked to its length. -/
def pfxHash (seed : W64) (pfx : List Byte) (len : Nat) : Nat × Nat :=
  let hi := BitVec.ofNat 64 (unbe (slice pfx 0 8))
  let lo := BitVec.ofNat 64 (unbe (slice pfx 8 8))
  twoOf (mix64 (lo ^^^ mix64 hi seed) (BitVec.ofNat 64 len)).toNat 11 11

/-- Candidate buckets of a seen key. -/
def seenHash (seed : W64) (e : SeenEntry) : Nat × Nat :=
  twoOf (mix64 (BitVec.ofNat 64 (e.panId + e.origin * 2 ^ 16 + e.floodId * 2 ^ 32 + e.cell * 2 ^ 48 + e.kind * 2 ^ 58))
    seed).toNat 14 14

/-- The home slot of a location (R316). -/
def home (pan loc : Nat) : Nat := ((pan * 16384 + loc / 4) * 0x9E3B % 65536) * 4 + loc % 4

/-- The PAN and location whose home a slot is: 35,571 is the inverse of 0x9E3B modulo 65,536. -/
def homeOf (slot : Nat) : Nat × Nat :=
  let x := (slot / 4) * 35571 % 65536
  (x / 16384, (x % 16384) * 4 + slot % 4)

/-! ### Two-choice insertion (R329) -/

/-- The first free place of a bucket. -/
def freeIn (ways : Nat) (occ : Nat → Bool) (b : Nat) : Option Nat :=
  ((List.range ways).map (fun i => b * ways + i)).find? (fun k => !occ k)

/-- Breadth-first search for a bucket with a free place, over chains of at most 32 moves: each queued bucket comes with
the places to move, the farthest first. -/
def chainSearch (ways : Nat) (occ : Nat → Bool) (alt : Nat → Nat) :
    Nat → List (Nat × List Nat) → List Nat → Option (Nat × List Nat)
  | 0, _, _ => none
  | _ + 1, [], _ => none
  | fuel + 1, (b, path) :: q, vis =>
    match freeIn ways occ b with
    | some k => some (k, path)
    | none =>
      if 32 ≤ path.length then chainSearch ways occ alt fuel q vis
      else
        let r := ((List.range ways).map (fun i => b * ways + i)).foldl
          (fun (acc : List (Nat × List Nat) × List Nat) k =>
            if alt k ∈ acc.2 then acc else (acc.1 ++ [(alt k, k :: path)], alt k :: acc.2)) ([], vis)
        chainSearch ways occ alt fuel (q ++ r.1) r.2

/-- The place for a new entry with candidate buckets a and b, and the moves (from, to) that free it, in order. -/
def findPlace (ways : Nat) (occ : Nat → Bool) (alt : Nat → Nat) (a b : Nat) : Option (Nat × List (Nat × Nat)) :=
  match chainSearch ways occ alt 65536 [(a, []), (b, [])] [a, b] with
  | none => none
  | some (k, path) =>
    some (path.foldl (fun (acc : Nat × List (Nat × Nat)) src => (src, acc.2 ++ [(src, acc.1)])) (k, []))

/-- Carry out moves (R330). -/
def moveAll {α : Type} [DecidableEq α] (m : SMap α) (dflt : α) (moves : List (Nat × Nat)) : SMap α :=
  moves.foldl (fun m (x : Nat × Nat) => (m.set dflt x.2 (m.get dflt x.1)).del x.1) m

/-! ### The node table (R316 to R322) -/

namespace NodeBank

/-- The entry of a slot. -/
def at_ (b : NodeBank) (slot : Nat) : NodeEntry := b.slots.get {} slot

/-- Remove the hint of an entry. -/
def unhint (b : NodeBank) (e : NodeEntry) : NodeBank :=
  let h := hintHash b.seed e.pan e.eui
  let ks := ((List.range 8).map (fun i => h.1 * 8 + i)) ++ ((List.range 8).map (fun i => h.2.1 * 8 + i))
  match ks.find? (fun k => decide (b.hints.get {} k = ⟨h.2.2, e.loc, e.pan, true⟩)) with
  | some k => { b with hints := b.hints.del k }
  | none => b

/-- Place the hint of an entry (R320, R329); the flag says that it was placed. -/
def hint (b : NodeBank) (e : NodeEntry) : NodeBank × Bool :=
  let h := hintHash b.seed e.pan e.eui
  let occ := fun k => (b.hints.get {} k).valid
  let alt := fun k => (k / 8) ^^^ ((b.hints.get {} k).fp % 65536 ||| 1)
  match findPlace 8 occ alt h.1 h.2.1 with
  | some (k, moves) =>
    ({ b with hints := (moveAll b.hints {} moves).put k ⟨h.2.2, e.loc, e.pan, true⟩ }, true)
  | none => (b, false)

/-- Clear a slot with its hint. -/
def erase (b : NodeBank) (slot : Nat) : NodeBank :=
  let e := b.at_ slot
  let b := if e.valid ∧ ¬ e.hintless then b.unhint e else b
  { b with slots := b.slots.del slot }

/-- Write an entry into its home slot: an entry of the same EUI-64 keeps its hint, any other gets one. The flag says
that the hint stands. -/
def write (b : NodeBank) (e : NodeEntry) : NodeBank × Bool :=
  let slot := home e.pan e.loc
  let old := b.at_ slot
  if old.valid ∧ old.eui = e.eui ∧ ¬ old.hintless then
    ({ b with slots := b.slots.set {} slot { e with hintless := false } }, true)
  else
    let r := (b.erase slot).hint e
    ({ r.1 with slots := r.1.slots.set {} slot { e with hintless := !r.2 } }, r.2)

/-- The slots that the valid hints of an EUI-64 point to (R321). -/
def hintSlots (b : NodeBank) (pan : Nat) (eui : W64) : List Nat :=
  let h := hintHash b.seed pan eui
  let ks := ((List.range 8).map (fun i => h.1 * 8 + i)) ++ ((List.range 8).map (fun i => h.2.1 * 8 + i))
  (ks.filterMap (fun k =>
    let x := b.hints.get {} k
    if x.valid ∧ x.pan = pan ∧ x.fp = h.2.2 then some (home pan x.loc) else none))

/-- The slot of the valid entry of an EUI-64. -/
def findEui (b : NodeBank) (pan : Nat) (eui : W64) : Option Nat :=
  (b.hintSlots pan eui).find? (fun s => (b.at_ s).valid && decide ((b.at_ s).eui = eui))

end NodeBank

/-! ### Route and prefix tables (R325 to R328) -/

namespace RouteBank

/-- Places of a route's two buckets. -/
def places (b : RouteBank) (pan target : Nat) : List Nat :=
  let h := routeHash b.seed pan target
  [h.1 * 2, h.1 * 2 + 1, h.2 * 2, h.2 * 2 + 1]

/-- The place of the entry of a key. -/
def place (b : RouteBank) (pan target : Nat) : Option Nat :=
  (b.places pan target).find? (fun k =>
    let e := b.slots.get {} k
    e.valid && decide (e.pan = pan ∧ e.target = target))

/-- The entry of a key. -/
def find (b : RouteBank) (pan target : Nat) : Option RouteEntry := (b.place pan target).map (fun k => b.slots.get {} k)

/-- Write an entry: in place of its key, or inserted under R329; none where no place is found. -/
def write (b : RouteBank) (e : RouteEntry) : Option RouteBank :=
  match b.place e.pan e.target with
  | some k => some { b with slots := b.slots.put k e }
  | none =>
    let h := routeHash b.seed e.pan e.target
    let occ := fun k => (b.slots.get {} k).valid
    let alt := fun k =>
      let x := b.slots.get {} k
      let g := routeHash b.seed x.pan x.target
      if g.1 = k / 2 then g.2 else g.1
    match findPlace 2 occ alt h.1 h.2 with
    | some (k, moves) => some { b with slots := (moveAll b.slots {} moves).put k e }
    | none => none

/-- Remove a key. -/
def erase (b : RouteBank) (pan target : Nat) : RouteBank :=
  match b.place pan target with
  | some k => { b with slots := b.slots.del k }
  | none => b

end RouteBank

/-- An address masked to a prefix length, 16 octets in network order (R327, R328). -/
def maskPfx (a : List Byte) (len : Nat) : List Byte :=
  let v := unbe (slice a 0 16)
  be 16 (v - v % 2 ^ (128 - len))

namespace PrefixBank

/-- The place of the entry of a key. -/
def place (b : PrefixBank) (pfx : List Byte) (len : Nat) : Option Nat :=
  let h := pfxHash b.seed pfx len
  [h.1 * 2, h.1 * 2 + 1, h.2 * 2, h.2 * 2 + 1].find? (fun k =>
    let e := b.slots.get {} k
    e.valid && decide (e.len = len ∧ e.pfx = pfx))

/-- The entry of a key. -/
def find (b : PrefixBank) (pfx : List Byte) (len : Nat) : Option PrefixEntry :=
  (b.place pfx len).map (fun k => b.slots.get {} k)

/-- Write an entry: in place of its key, or inserted under R329. -/
def write (b : PrefixBank) (e : PrefixEntry) : Option PrefixBank :=
  match b.place e.pfx e.len with
  | some k => some { b with slots := b.slots.put k e }
  | none =>
    let h := pfxHash b.seed e.pfx e.len
    let occ := fun k => (b.slots.get {} k).valid
    let alt := fun k =>
      let x := b.slots.get {} k
      let g := pfxHash b.seed x.pfx x.len
      if g.1 = k / 2 then g.2 else g.1
    match findPlace 2 occ alt h.1 h.2 with
    | some (k, moves) => some { b with slots := (moveAll b.slots {} moves).put k e }
    | none => none

/-- Remove a key. -/
def erase (b : PrefixBank) (pfx : List Byte) (len : Nat) : PrefixBank :=
  match b.place pfx len with
  | some k => { b with slots := b.slots.del k }
  | none => b

/-- The distinct lengths of the valid entries, descending (R328). -/
def lens (b : PrefixBank) : List Nat :=
  (List.range 129).reverse.filter (fun l => b.slots.any (fun x => x.2.valid && x.2.len == l))

end PrefixBank

namespace Dev

/-! ### Address pools (R216) -/

/-- A released address is still held. -/
def held (d : Dev) (k a : Nat) : Bool :=
  match (d.pan k).hold.find a with
  | some e => decide (d.epoch.numPipe < e)
  | none => false

/-- The address lies in the PAN's pool. -/
def inPool (d : Dev) (k a : Nat) : Bool := decide (d.cfg.PAN_POOL_LO k ≤ a ∧ a ≤ d.cfg.PAN_POOL_HI k ∧ a ≤ 0xFFEF)

/-- The address is free in the PAN's map. -/
def addrFree (d : Dev) (k a : Nat) : Bool :=
  d.inPool k a && !(d.pan k).used.get false a && !(d.pan k).retired.get false a && !d.held k a

/-- The first of n addresses from a, wrapping within lo to hi, that a test takes. -/
def firstFrom (p : Nat → Bool) (lo hi : Nat) : Nat → Nat → Option Nat
  | 0, _ => none
  | n + 1, a => if p a then some a else firstFrom p lo hi n (if a < hi then a + 1 else lo)

/-- The next free address after the last one assigned (R216), that a further test takes. -/
def nextAddr (d : Dev) (k : Nat) (p : Nat → Bool) : Option Nat :=
  let lo := d.cfg.PAN_POOL_LO k
  let hi := min (d.cfg.PAN_POOL_HI k) 0xFFEF
  if hi < lo then none
  else
    let c := (d.pan k).cursor
    firstFrom (fun a => d.addrFree k a && p a) lo hi (hi - lo + 1) (if lo ≤ c ∧ c < hi then c + 1 else lo)

/-- An address leaves the free map. One that the host names does not move the cursor, which stands at the last address that the
device chose (DESIGN CHOICE, log entry 179). -/
def takeAddr (d : Dev) (k a : Nat) : Dev :=
  d.modPan k (fun x => { x with used := x.used.set false a true, hold := x.hold.del a })

/-- Allocate the next free address. -/
def allocAddr (d : Dev) (k : Nat) : Option (Nat × Dev) :=
  (d.nextAddr k (fun _ => true)).map (fun a => (a, (d.takeAddr k a).modPan k (fun x => { x with cursor := a })))

/-- Release an address (R216): it is held for RELEASE_HOLD epochs. One that lies outside the pool in force never returns to the
free map, although the pool grow later (DESIGN CHOICE, log entry 153). -/
def releaseAddr (d : Dev) (k a : Nat) : Dev :=
  if (d.pan k).used.get false a then
    d.modPan k (fun x => { x with
      used := x.used.del a
      retired := if d.inPool k a then x.retired else x.retired.set false a true
      hold := if d.cfg.PAN_HOLD_RELEASE_HOLD k = 0 then x.hold.del a
        else x.hold.put a (d.epoch.numPipe + d.cfg.PAN_HOLD_RELEASE_HOLD k) })
  else d

/-! ### Node lookups (R321, R339) -/

/-- The entry has aged (R339), whether or not the sweep has come to it. -/
def aged (d : Dev) (e : NodeEntry) : Bool :=
  let a := d.cfg.TBL_AGE_AGE_LIMIT e.pan
  e.aged.isSome || (decide (0 < a) && !e.pinned && !e.preplaced &&
    decide (a < (d.epoch.numPipe % 2 ^ 32 + 2 ^ 32 - e.touch) % 2 ^ 32))

/-- The entry at a location, present or not. -/
def nodeAt (d : Dev) (k loc : Nat) : NodeEntry := d.tbl.node.at_ (home k loc)

/-- A lookup sees the entry. -/
def seesNode (d : Dev) (e : NodeEntry) : Bool := e.valid && !d.aged e

/-- Lookup by short address (R321): the location of the entry. -/
def findShort (d : Dev) (k a : Nat) : Option Nat :=
  let e := d.nodeAt k a
  if a ≤ 0xFFEF ∧ d.seesNode e ∧ e.short = a then some a else none

/-- Lookup by EUI-64 (R321). -/
def findEui (d : Dev) (k : Nat) (eui : W64) : Option Nat :=
  ((d.tbl.node.hintSlots k eui).find? (fun s => d.seesNode (d.tbl.node.at_ s) && decide ((d.tbl.node.at_ s).eui = eui))).map
    (fun s => (d.tbl.node.at_ s).loc)

/-! ### Writes, and second-bank copies during a rebuild (R341 to R344) -/

/-- The rebuild of table t: 0 node, 1 route, 2 prefix. -/
def rebuild (d : Dev) (t : Nat) : RebuildSt :=
  match t with
  | 0 => d.tbl.nodeRb | 1 => d.tbl.routeRb | _ => d.tbl.pfxRb

def setRebuild (d : Dev) (t : Nat) (r : RebuildSt) : Dev :=
  match t with
  | 0 => { d with tbl := { d.tbl with nodeRb := r } }
  | 1 => { d with tbl := { d.tbl with routeRb := r } }
  | _ => { d with tbl := { d.tbl with pfxRb := r } }

/-- The staged bank of table t is emptied. -/
def clearStaged (d : Dev) (t : Nat) : Dev :=
  match t with
  | 0 => { d with tbl := { d.tbl with nodeStaged := {} } }
  | 1 => { d with tbl := { d.tbl with routeStaged := {} } }
  | _ => { d with tbl := { d.tbl with pfxStaged := {} } }

/-- A staged swap of table t. -/
def isSwap (t : Nat) (x : Staged) : Bool :=
  decide (x.cmd.op = .CMD_TABLE_REBUILD ∧ x.cmd.sub = 2 ∧ fld x.cmd.p 0 1 = t)

/-- A rebuild fails (R344). -/
def rebuildFail (d : Dev) (t : Nat) : Dev :=
  let swaps := d.stg.cmds.filter (isSwap t)
  let d := ((d.setRebuild t { failed := true }).clearStaged t).bump Cnt.REBUILD_FAIL
  let d := d.raise .EVT_REBUILD_FAILED (le 1 t)
  let d := { d with stg := { d.stg with cmds := d.stg.cmds.filter (fun x => !isSwap t x) } }
  swaps.foldl (fun (d : Dev) (x : Staged) => d.complete x.cmd .ST_REBUILD_INCOMPLETE) d

/-- Key of an entry among a table's second-bank copies: node slot, PAN × 65,536 + TARGET, LEN × 2^128 + PREFIX. -/
def routeKey (pan target : Nat) : Nat := pan * 65536 + target
def pfxKey (pfx : List Byte) (len : Nat) : Nat := len * 2 ^ 128 + unbe pfx

/-- A write of the active bank also goes to the staged bank while a rebuild runs (R342, R344); `upd` marks an update of
device-owned fields. -/
def dual (d : Dev) (t key : Nat) (upd : Bool) : Dev :=
  let r := d.rebuild t
  if r.st = .idle then d
  else if 4096 ≤ r.queue.length then d.rebuildFail t
  else d.setRebuild t { r with queue := r.queue ++ [2 * key + ofBool upd] }

/-- The hint of an entry could not be placed (R320). -/
def hintFail (d : Dev) (e : NodeEntry) : Dev :=
  (d.bump Cnt.HINT_FAIL).raise .EVT_HINT_FAIL (le 1 e.pan ++ le 2 e.loc ++ le 8 e.eui.toNat)

/-- Write a node entry into the active bank. -/
def putNode (d : Dev) (e : NodeEntry) : Dev :=
  let r := d.tbl.node.write e
  let d := ({ d with tbl := { d.tbl with node := r.1 } }).dual 0 (home e.pan e.loc) false
  if r.2 then d else d.hintFail e

/-- Clear a slot of the active bank. -/
def eraseNode (d : Dev) (slot : Nat) : Dev :=
  ({ d with tbl := { d.tbl with node := d.tbl.node.erase slot } }).dual 0 slot false

/-- Update device-owned fields of an entry of the active bank. -/
def modNode (d : Dev) (k loc : Nat) (f : NodeEntry → NodeEntry) : Dev :=
  let s := home k loc
  if (d.tbl.node.at_ s).valid then
    ({ d with tbl := { d.tbl with node := { d.tbl.node with slots := d.tbl.node.slots.upd {} s f } } }).dual 0 s true
  else d

/-- A hit (R338). -/
def hitNode (d : Dev) (k loc : Nat) : Dev :=
  let t := d.epoch.numPipe % 2 ^ 32
  if (d.nodeAt k loc).touch = t then d else d.modNode k loc (fun e => { e with touch := t })

/-- Device-owned fields of one entry carried into another (R319, R332, R342). -/
def carryOwned (src dst : NodeEntry) : NodeEntry :=
  { dst with
    quarantine := src.quarantine, qreason := src.qreason, fcNone := src.fcNone, lastSeq := src.lastSeq
    hopDist := src.hopDist, lastFc := src.lastFc, dlFc := src.dlFc, keyEpoch := src.keyEpoch, hopMin := src.hopMin
    touch := src.touch, aged := src.aged, dup := src.dup }

/-- The staged bank takes the active bank's entry of a slot (R342, R343). -/
def stageNode (d : Dev) (slot : Nat) (upd : Bool) : Dev :=
  let a := d.tbl.node.at_ slot
  let s := d.tbl.nodeStaged.at_ slot
  if upd then
    (if a.valid ∧ s.valid ∧ a.eui = s.eui then
      { d with tbl := { d.tbl with nodeStaged := { d.tbl.nodeStaged with
          slots := d.tbl.nodeStaged.slots.set {} slot (carryOwned a s) } } }
     else d)
  else if a.valid then
    let r := d.tbl.nodeStaged.write a
    let d := { d with tbl := { d.tbl with nodeStaged := r.1 } }
    if r.2 then d else d.hintFail a
  else { d with tbl := { d.tbl with nodeStaged := d.tbl.nodeStaged.erase slot } }

/-- The same for a route. -/
def stageRoute (d : Dev) (pan target : Nat) (upd : Bool) : Dev :=
  match d.tbl.route.find pan target, d.tbl.routeStaged.find pan target with
  | none, _ => if upd then d else { d with tbl := { d.tbl with routeStaged := d.tbl.routeStaged.erase pan target } }
  | some a, s =>
    if upd ∧ s.isNone then d
    else
      let e := if upd then { (s.getD {}) with quarantine := a.quarantine, mark := a.mark } else a
      match d.tbl.routeStaged.write e with
      | some b => { d with tbl := { d.tbl with routeStaged := b } }
      | none => d.bump Cnt.INSERT_FULL

/-- The same for a prefix. A copy that would give the staged bank a ninth length is not written, and counts as a write that
found no place (DESIGN CHOICE, log entry 182): a bank's length set holds at most 8 (R328). -/
def stagePfx (d : Dev) (pfx : List Byte) (len : Nat) (upd : Bool) : Dev :=
  match d.tbl.pfx.find pfx len, d.tbl.pfxStaged.find pfx len with
  | none, _ => if upd then d else { d with tbl := { d.tbl with pfxStaged := d.tbl.pfxStaged.erase pfx len } }
  | some a, s =>
    if upd ∧ s.isNone then d
    else
      let e := if upd then { (s.getD {}) with quarantine := a.quarantine, mark := a.mark } else a
      match d.tbl.pfxStaged.write e with
      | some b => if 8 < b.lens.length then d.bump Cnt.INSERT_FULL else { d with tbl := { d.tbl with pfxStaged := b } }
      | none => d.bump Cnt.INSERT_FULL

/-- One second-bank copy. -/
def stageKey (d : Dev) (t key : Nat) (upd : Bool) : Dev :=
  match t with
  | 0 => d.stageNode key upd
  | 1 => d.stageRoute (key / 65536) (key % 65536) upd
  | _ => d.stagePfx (be 16 (key % 2 ^ 128)) (key / 2 ^ 128) upd

/-- Drain the oldest second-bank copy of table t. -/
def drainDual (d : Dev) (t : Nat) : Dev :=
  match (d.rebuild t).queue with
  | [] => d
  | x :: q => (d.setRebuild t { d.rebuild t with queue := q }).stageKey t (x / 2) (x % 2 == 1)

/-- Drain them all. -/
def drainDuals (d : Dev) (t : Nat) : Dev := ((d.rebuild t).queue).foldl (fun d _ => d.drainDual t) d

/-- Copy the next entry of a COPY rebuild. -/
def copyOne (d : Dev) (t : Nat) : Dev :=
  match (d.rebuild t).left with
  | [] => d
  | k :: l => (d.setRebuild t { d.rebuild t with left := l }).stageKey t k false

/-- The copy ends (R346). -/
def copyDone (d : Dev) (t : Nat) : Dev :=
  if (d.rebuild t).st = .copying then
    let d := ((d.rebuild t).left).foldl (fun d _ => d.copyOne t) d
    let st := if d.stg.cmds.any (isSwap t) then .swapPending else .ready
    (d.setRebuild t { d.rebuild t with st := st }).raise .EVT_REBUILD_READY (le 1 t)
  else d

/-! ### Routes and prefixes in the active bank -/

/-- Write a route of the active bank; none where it is full. -/
def putRoute (d : Dev) (e : RouteEntry) (upd : Bool) : Option Dev :=
  (d.tbl.route.write e).map (fun b =>
    ({ d with tbl := { d.tbl with route := b } }).dual 1 (routeKey e.pan e.target) upd)

def eraseRoute (d : Dev) (pan target : Nat) : Dev :=
  ({ d with tbl := { d.tbl with route := d.tbl.route.erase pan target } }).dual 1 (routeKey pan target) false

def putPfx (d : Dev) (e : PrefixEntry) (upd : Bool) : Option Dev :=
  (d.tbl.pfx.write e).map (fun b => ({ d with tbl := { d.tbl with pfx := b } }).dual 2 (pfxKey e.pfx e.len) upd)

def erasePfx (d : Dev) (pfx : List Byte) (len : Nat) : Dev :=
  ({ d with tbl := { d.tbl with pfx := d.tbl.pfx.erase pfx len } }).dual 2 (pfxKey pfx len) false

/-- A valid route entry of R304 (R326). -/
def validRoute (d : Dev) (pan target : Nat) : Option RouteEntry :=
  match d.tbl.route.find pan target with
  | some e => if ¬ e.quarantine ∧ (e.expires = 0 ∨ d.epoch.numPipe < e.expires) then some e else none
  | none => none

/-- The longest matching prefix (R328). -/
def findPrefix (d : Dev) (a : List Byte) : Option PrefixEntry :=
  (d.tbl.lens.filterMap (fun l =>
    match d.tbl.pfx.find (maskPfx a l) l with
    | some e => if e.quarantine then none else some e
    | none => none)).head?

/-! ### The seen-cache (R299 to R302) -/

/-- SEEN_LIFE; 0 acts as 1. -/
def seenLife (d : Dev) : Nat := max 1 d.cfg.MESH_CTL_SEEN_LIFE

/-- An entry has expired (R300). -/
def seenExpired (d : Dev) (e : SeenEntry) : Bool :=
  decide (d.seenLife ≤ (d.epoch.numPipe % 65536 + 65536 - e.lastEpoch) % 65536)

/-- The places of a key's two buckets. -/
def seenPlaces (d : Dev) (k : SeenEntry) : List Nat :=
  let h := seenHash d.tbl.seen.seed k
  ((List.range 4).map (fun i => h.1 * 4 + i)) ++ ((List.range 4).map (fun i => h.2 * 4 + i))

/-- The place of the unexpired entry of a key. -/
def seenFind (d : Dev) (k : SeenEntry) : Option Nat :=
  (d.seenPlaces k).find? (fun i =>
    let e := d.tbl.seen.slots.get {} i
    e.valid && !d.seenExpired e &&
      decide (e.panId = k.panId ∧ e.origin = k.origin ∧ e.cell = k.cell ∧ e.floodId = k.floodId ∧ e.kind = k.kind))

def setSeen (d : Dev) (i : Nat) (e : SeenEntry) : Dev :=
  { d with tbl := { d.tbl with seen := { d.tbl.seen with slots := d.tbl.seen.slots.set {} i e } } }

/-- The place an insert takes (R301): the first free place, else the place of the oldest LAST_EPOCH, the lower slot index
first. -/
def seenPlace (d : Dev) (k : SeenEntry) : Nat × Bool :=
  let ps := d.seenPlaces k
  let get := fun i => d.tbl.seen.slots.get {} i
  match ps.find? (fun i => !(get i).valid || d.seenExpired (get i)) with
  | some i => (i, false)
  | none =>
    let age := fun i => (d.epoch.numPipe % 65536 + 65536 - (get i).lastEpoch) % 65536
    (ps.foldl (fun best i => if age best < age i ∨ (age best = age i ∧ i < best) then i else best) (ps.headD 0), true)

/-- Insert a key. -/
def seenInsert (d : Dev) (e : SeenEntry) : Dev :=
  let r := d.seenPlace e
  let d := d.setSeen r.1 { e with valid := true, lastEpoch := d.epoch.numPipe % 65536 }
  if r.2 then d.bump Cnt.SEEN_EVICT else d

/-- A copy that hits an entry (R300). -/
def seenTouch (d : Dev) (i hops port : Nat) (accepted : Bool) : Dev :=
  let e := d.tbl.seen.slots.get {} i
  d.setSeen i { e with
    lastEpoch := d.epoch.numPipe % 65536, minHops := min e.minHops hops, ports := e.ports ||| 2 ^ port
    copies := min 255 (e.copies + 1), accepted := e.accepted || accepted }

/-- The flushed seen bank is cleared, with a new seed (R302, R324). -/
def seenClearOld (d : Dev) : Dev :=
  if ¬ d.tbl.seenClear then d
  else
    let r := d.draw 64
    { r.2 with tbl := { r.2.tbl with seenOld := { slots := [], seed := r.1 }, seenClear := false } }

/-- CMD_SEEN_FLUSH at its boundary (R302): the other bank, cleared first where it still waits for that, takes over. -/
def seenFlush (d : Dev) : Dev :=
  let d := d.seenClearOld
  { d with tbl := { d.tbl with seen := d.tbl.seenOld, seenOld := d.tbl.seen, seenClear := true } }

/-! ### Commands on the tables (R331 to R334, R346, R436) -/

/-- Fields of the shared payload of R331. -/
def tOp (p : List Byte) : Nat := fld p 0 1
def tFlags (p : List Byte) : Nat := fld p 1 1
def tEpoch (p : List Byte) : Nat := fld p 2 6
def tImg (p : List Byte) : List Byte := slice p 16 48

/-- Node entry of an image (R317, R332). -/
def nodeOfImage (i : List Byte) : NodeEntry :=
  { eui := BitVec.ofNat 64 (fld i 0 8), short := fld i 8 2, loc := fld i 0x0A 2, pan := fld i 0x0C 1 % 4, valid := true
    preplaced := bit (fld i 0x0C 1) 3, pinned := bit (fld i 0x0C 1) 4, adopted := true, hopDist := fld i 0x0F 1
    lastFc := fld i 0x10 4, dlFc := fld i 0x14 4, keySlot := fld i 0x18 2, keyEpoch := fld i 0x1A 2
    airClass := fld i 0x1D 1, policer := fld i 0x1E 2, user := BitVec.ofNat 64 (fld i 0x28 8) }

/-- A malformed node image (R317, R332). -/
def nodeImageBad (i : List Byte) : Bool :=
  let e := nodeOfImage i
  decide (1024 ≤ e.keySlot) || decide (16 ≤ e.airClass) || decide (2048 ≤ e.policer ∧ e.policer ≠ 0xFFFF) ||
    decide (fld i 0x26 2 ≠ 0) || decide (16 ≤ fld i 0x0D 1) ||
    (if e.preplaced then decide (e.short ≠ 0xFFFE ∨ (0xFFEF < e.loc ∧ e.loc ≠ 0xFFFE))
     else decide (e.loc ≠ e.short ∨ 0xFFEF < e.loc))

/-- Route entry of an image (R325), and whether it is malformed (R334). -/
def routeOfImage (i : List Byte) : RouteEntry :=
  { pan := fld i 0 1, valid := true, target := fld i 2 2, expires := fld i 8 6
    hopList := (List.range (fld i 4 1)).map (fun n => fld i (16 + 2 * n) 2) }

def hasDup : List Nat → Bool
  | [] => false
  | a :: l => decide (a ∈ l) || hasDup l

def routeImageBad (i : List Byte) : Bool :=
  let e := routeOfImage i
  let n := fld i 4 1
  decide (4 ≤ e.pan) || decide (8 ≤ fld i 1 1) || !zeros i 5 3 || decide (n < 1 ∨ 8 < n) || decide (0xFFEF < e.target) ||
    e.hopList.any (fun a => decide (0xFFEF < a ∨ a = e.target)) || hasDup e.hopList ||
    !zeros i (16 + 2 * n) (48 - (16 + 2 * n))

/-- Prefix entry of an image (R327), and whether it is malformed (R334). -/
def pfxOfImage (i : List Byte) : PrefixEntry :=
  { pfx := slice i 0 16, len := fld i 0x10 1, valid := true, kind := fld i 0x12 1, context := fld i 0x13 1
    target := fld i 0x14 2, prog := fld i 0x16 1, cls := fld i 0x17 1, user := slice i 0x1A 6 }

def pfxImageBad (i : List Byte) : Bool :=
  let e := pfxOfImage i
  decide (128 < e.len) || decide (maskPfx e.pfx e.len ≠ e.pfx) || decide (8 ≤ fld i 0x11 1) ||
    decide (bits e.context 6 4 ≠ 0) || !zeros i 0x20 16

/-- A bank of the node table. -/
def nodeBank (d : Dev) (stg : Bool) : NodeBank := if stg then d.tbl.nodeStaged else d.tbl.node

/-- An add would change KEY_EPOCH of an existing entry (R437), of the active bank or, with STAGED_BANK, of either. -/
def nodeEpochBad (d : Dev) (stg : Bool) (i : List Byte) : Bool :=
  let e := nodeOfImage i
  let o := d.nodeAt e.pan e.loc
  let s := d.tbl.nodeStaged.at_ (home e.pan e.loc)
  (d.seesNode o && decide (o.eui = e.eui ∧ o.keyEpoch ≠ e.keyEpoch)) ||
    (stg && s.valid && decide (s.eui = e.eui ∧ s.keyEpoch ≠ e.keyEpoch))

/-- The later of two TOUCH_EPOCH values, whose ages R339 takes modulo 2^32. -/
def laterTouch (a b : Nat) : Nat := if (a + 2 ^ 32 - b) % 2 ^ 32 < 2 ^ 31 then a else b

/-- A node add at its boundary, or into the staged bank (R332, R333, R342, R351). -/
def nodeAdd (d : Dev) (stg : Bool) (p : List Byte) : Dev × Status × List Byte :=
  let i := tImg p
  let e := nodeOfImage i
  let b := d.nodeBank stg
  let alloc := e.loc = 0xFFFE
  let live := fun (o : NodeEntry) => o.valid && (stg || !d.aged o)
  let o := b.at_ (home e.pan e.loc)
  let elsewhere := (b.hintSlots e.pan e.eui).any (fun s =>
    live (b.at_ s) && decide ((b.at_ s).eui = e.eui ∧ (b.at_ s).loc ≠ e.loc))
  if d.nodeEpochBad stg i then (d, .ST_BAD_PARAM, [])
  else if ¬ alloc ∧ ((live o ∧ o.eui ≠ e.eui) ∨ d.held e.pan e.loc) then (d, .ST_ADDR_IN_USE, [])
  else if elsewhere then (d, .ST_EUI_IN_USE, [])
  else
    let place : Option (Nat × Dev) :=
      if ¬ alloc then some (e.loc, if stg then d else d.takeAddr e.pan e.loc)
      else if stg then (d.nextAddr e.pan (fun a => !(b.at_ (home e.pan a)).valid)).map (fun a =>
        (a, d.modPan e.pan (fun x => { x with cursor := a })))
      else d.allocAddr e.pan
    match place with
    | none => (d, .ST_TABLE_FULL, [])
    | some (loc, d) =>
      let old := b.at_ (home e.pan loc)
      let e := { e with loc := loc, setEpoch := d.epoch.numPipe % 65536 }
      let base := if live old ∧ old.eui = e.eui then
          { e with fcNone := old.fcNone, lastSeq := old.lastSeq, hopMin := old.hopMin, touch := old.touch
                   lastFc := max e.lastFc old.lastFc, dlFc := max e.dlFc old.dlFc, dup := old.dup }
        else { e with fcNone := true, hopMin := 0xFF, touch := d.epoch.numPipe % 2 ^ 32 }
      if stg then
        let a := d.tbl.node.at_ (home e.pan loc)
        let base := if a.valid ∧ a.eui = e.eui then
            { base with fcNone := a.fcNone, lastSeq := a.lastSeq, hopDist := a.hopDist, hopMin := a.hopMin
                        lastFc := max base.lastFc a.lastFc, dlFc := max base.dlFc a.dlFc
                        touch := laterTouch base.touch a.touch, dup := a.dup }
          else base
        let r := d.tbl.nodeStaged.write base
        let d := { d with tbl := { d.tbl with nodeStaged := r.1 } }
        (if r.2 then d else d.hintFail base, .ST_OK, [])
      else (d.putNode base, .ST_OK, [])

/-- The final fields of R333. -/
def finalFields (e : NodeEntry) : List Byte :=
  le 4 e.lastFc ++ le 4 e.dlFc ++ le 2 e.keyEpoch ++ le 1 e.lastSeq ++ le 1 e.hopDist

/-- The in-flight list holds a frame of the node (R204, R333). -/
def nodeInFlight (d : Dev) (e : NodeEntry) : Bool :=
  d.air.inflight.any (fun x => decide (x.pan = e.pan ∧ x.src = e.loc))

/-- Remove an entry, once the in-flight list holds no frame of the node. -/
def removeNode (d : Dev) (e : NodeEntry) : Dev :=
  if d.nodeInFlight e then { d with air := { d.air with removing := d.air.removing ++ [home e.pan e.loc] } }
  else d.eraseNode (home e.pan e.loc)

/-- A node delete (R333). One that names an entry lost to an uncorrectable error frees its address (R588). -/
def nodeDelete (d : Dev) (stg : Bool) (p : List Byte) : Dev × Status × List Byte :=
  let k := nodeOfImage (tImg p)
  let o := (d.nodeBank stg).at_ (home k.pan k.loc)
  if ¬ stg ∧ ¬ o.valid ∧ k.loc ≤ 0xFFEF then (d.releaseAddr k.pan k.loc, .ST_NOT_FOUND, [])
  else if ¬ (o.valid ∧ k.loc ≤ 0xFFEF ∧ (stg ∨ ¬ d.aged o)) then (d, .ST_NOT_FOUND, [])
  else if stg then
    ({ d with tbl := { d.tbl with nodeStaged := d.tbl.nodeStaged.erase (home k.pan k.loc) } }, .ST_OK, finalFields o)
  else ((d.releaseAddr o.pan o.loc).removeNode o, .ST_OK, finalFields o)

/-- Clear a node's quarantine (R351). -/
def nodeClear (d : Dev) (stg : Bool) (p : List Byte) : Dev × Status × List Byte :=
  let k := nodeOfImage (tImg p)
  let s := home k.pan k.loc
  let o := (d.nodeBank stg).at_ s
  let f := fun (e : NodeEntry) => { e with quarantine := false, qreason := 0 }
  if ¬ (o.valid ∧ k.loc ≤ 0xFFEF ∧ (stg ∨ ¬ d.aged o)) then (d, .ST_NOT_FOUND, [])
  else if stg then
    ({ d with tbl := { d.tbl with nodeStaged := { d.tbl.nodeStaged with
        slots := d.tbl.nodeStaged.slots.upd {} s f } } }, .ST_OK, [])
  else (d.modNode k.pan k.loc f, .ST_OK, [])

/-- A route add, delete and quarantine clear (R334, R351). -/
def routeAdd (d : Dev) (stg : Bool) (p : List Byte) : Dev × Status × List Byte :=
  let e := { routeOfImage (tImg p) with setEpoch := d.epoch.numPipe % 65536 }
  if stg then
    match d.tbl.routeStaged.write e with
    | some b => ({ d with tbl := { d.tbl with routeStaged := b } }, .ST_OK, [])
    | none => (d.bump Cnt.INSERT_FULL, .ST_TABLE_FULL, [])
  else match d.putRoute e false with
    | some d => (d, .ST_OK, [])
    | none => (d.bump Cnt.INSERT_FULL, .ST_TABLE_FULL, [])

def routeDelete (d : Dev) (stg : Bool) (p : List Byte) : Dev × Status × List Byte :=
  let k := routeOfImage (tImg p)
  let b := if stg then d.tbl.routeStaged else d.tbl.route
  if (b.find k.pan k.target).isNone then (d, .ST_NOT_FOUND, [])
  else if stg then
    ({ d with tbl := { d.tbl with routeStaged := b.erase k.pan k.target } }, .ST_OK, [])
  else (d.eraseRoute k.pan k.target, .ST_OK, [])

def routeClear (d : Dev) (stg : Bool) (p : List Byte) : Dev × Status × List Byte :=
  let k := routeOfImage (tImg p)
  let b := if stg then d.tbl.routeStaged else d.tbl.route
  match b.find k.pan k.target with
  | none => (d, .ST_NOT_FOUND, [])
  | some e =>
    if stg then
      ({ d with tbl := { d.tbl with routeStaged := (b.write { e with quarantine := false }).getD b } }, .ST_OK, [])
    else ((d.putRoute { e with quarantine := false } true).getD d, .ST_OK, [])

/-- A prefix add, delete and quarantine clear (R328, R334, R351). -/
def pfxAdd (d : Dev) (stg : Bool) (p : List Byte) : Dev × Status × List Byte :=
  let e := { pfxOfImage (tImg p) with setEpoch := d.epoch.numPipe % 65536 }
  let b := if stg then d.tbl.pfxStaged else d.tbl.pfx
  if 8 ≤ b.lens.length ∧ e.len ∉ b.lens then (d, .ST_PREFIX_LENGTHS, [])
  else if stg then
    match b.write e with
    | some b => ({ d with tbl := { d.tbl with pfxStaged := b } }, .ST_OK, [])
    | none => (d.bump Cnt.INSERT_FULL, .ST_TABLE_FULL, [])
  else match d.putPfx e false with
    | some d => (d, .ST_OK, [])
    | none => (d.bump Cnt.INSERT_FULL, .ST_TABLE_FULL, [])

def pfxDelete (d : Dev) (stg : Bool) (p : List Byte) : Dev × Status × List Byte :=
  let k := pfxOfImage (tImg p)
  let b := if stg then d.tbl.pfxStaged else d.tbl.pfx
  if (b.find k.pfx k.len).isNone then (d, .ST_NOT_FOUND, [])
  else if stg then ({ d with tbl := { d.tbl with pfxStaged := b.erase k.pfx k.len } }, .ST_OK, [])
  else (d.erasePfx k.pfx k.len, .ST_OK, [])

def pfxClear (d : Dev) (stg : Bool) (p : List Byte) : Dev × Status × List Byte :=
  let k := pfxOfImage (tImg p)
  let b := if stg then d.tbl.pfxStaged else d.tbl.pfx
  match b.find k.pfx k.len with
  | none => (d, .ST_NOT_FOUND, [])
  | some e =>
    if stg then
      ({ d with tbl := { d.tbl with pfxStaged := (b.write { e with quarantine := false }).getD b } }, .ST_OK, [])
    else ((d.putPfx { e with quarantine := false } true).getD d, .ST_OK, [])

/-- The change of a table command, in the active bank or in the staged one. -/
def tblRun (d : Dev) (op : Opcode) (sub : Nat) (stg : Bool) (p : List Byte) : Dev × Status × List Byte :=
  match op, sub with
  | .CMD_NODE_SET, 0 => d.nodeAdd stg p
  | .CMD_NODE_SET, 1 => d.nodeDelete stg p
  | .CMD_NODE_SET, _ => d.nodeClear stg p
  | .CMD_ROUTE_SET, 0 => d.routeAdd stg p
  | .CMD_ROUTE_SET, 1 => d.routeDelete stg p
  | .CMD_ROUTE_SET, _ => d.routeClear stg p
  | _, 0 => d.pfxAdd stg p
  | _, 1 => d.pfxDelete stg p
  | _, _ => d.pfxClear stg p

/-- Table of a command. -/
def tblIndex : Opcode → Nat
  | .CMD_NODE_SET => 0 | .CMD_ROUTE_SET => 1 | _ => 2

/-- A malformed image for an OP (R331 to R334). -/
def tblImageBad (d : Dev) (op : Opcode) (sub : Nat) (p : List Byte) : Bool :=
  let i := tImg p
  match op, sub with
  | .CMD_NODE_SET, 0 => nodeImageBad i || d.nodeEpochBad (bit (tFlags p) 1) i
  | .CMD_ROUTE_SET, 0 => routeImageBad i
  | .CMD_PREFIX_SET, 0 => pfxImageBad i
  | .CMD_ROUTE_SET, _ => decide (4 ≤ fld i 0 1)
  | .CMD_PREFIX_SET, _ => decide (128 < fld i 0x10 1)
  | _, _ => false

/-- CMD_NODE_SET, CMD_ROUTE_SET and CMD_PREFIX_SET at acceptance (R331 to R334). -/
def tblCmd (d : Dev) (h : Hdr) (op : Opcode) (sub : Nat) (p : List Byte) : Dev :=
  let c : Cmd := ⟨h, op, sub, p⟩
  d.command c (fun d =>
    let at_ := bit (tFlags p) 0
    let stg := bit (tFlags p) 1
    if d.follower then d.complete c .ST_MODE_REFUSED
    else if tOp p ≠ sub ∨ 4 ≤ tFlags p ∨ (at_ ∧ stg) ∨ ¬ zeros p 8 8 ∨ d.tblImageBad op sub p then d.complete c .ST_BAD_PARAM
    else if stg then
      (if (d.rebuild (tblIndex op)).st = .idle then d.complete c .ST_NO_REBUILD
       else
        let r := d.tblRun op sub true p
        r.1.complete c r.2.1 r.2.2)
    else if at_ ∧ d.freezePassed (tEpoch p) then d.complete c .ST_EPOCH_PASSED
    else d.stageCmd c (if at_ then some (tEpoch p) else none))

/-- The change of a staged table command at its boundary. A delete whose entry stays for frames in flight completes once the
entry is gone, with its final fields (R333). -/
def tblApply (d : Dev) (c : Cmd) : Dev :=
  let r := d.tblRun c.op c.sub false c.p
  let k := nodeOfImage (tImg c.p)
  let slot := home k.pan k.loc
  if c.op = .CMD_NODE_SET ∧ c.sub = 1 ∧ r.2.1 = Status.ST_OK ∧ slot ∈ r.1.air.removing then
    { r.1 with air := { r.1.air with deleting := r.1.air.deleting ++ [(slot, c)] } }
  else r.1.completeStaged c r.2.1 r.2.2

/-- The keys of a table's active bank. -/
def tblKeys (d : Dev) (t : Nat) : List Nat :=
  match t with
  | 0 => (d.tbl.node.slots.filter (fun x => x.2.valid)).map (fun x => x.1)
  | 1 => (d.tbl.route.slots.filter (fun x => x.2.valid)).map (fun x => routeKey x.2.pan x.2.target)
  | _ => (d.tbl.pfx.slots.filter (fun x => x.2.valid)).map (fun x => pfxKey x.2.pfx x.2.len)

/-- A malformed CMD_TABLE_REBUILD (R346). -/
def rebuildBad (sub : Nat) (p : List Byte) : Bool :=
  decide (2 < fld p 0 1) || decide (fld p 1 1 ≠ sub) || decide (4 ≤ fld p 2 1) || (bit (fld p 2 1) 0 && sub != 2) ||
    !zeros p 3 5 || !zeros p 0x0E 2 || !zeros p 0x18 40

/-- Start of a rebuild (R341, R346). -/
def rebuildStart (d : Dev) (h : Hdr) (p : List Byte) (sub : Nat) : Dev :=
  let c : Cmd := ⟨h, .CMD_TABLE_REBUILD, sub, p⟩
  d.command c (fun d =>
    let t := fld p 0 1
    if d.follower then d.complete c .ST_MODE_REFUSED
    else if rebuildBad sub p then d.complete c .ST_BAD_PARAM
    else if (d.rebuild t).st ≠ .idle then d.complete c .ST_BUSY
    else
      let given := bit (fld p 2 1) 1
      let r := d.draw 64
      let seed := if given then BitVec.ofNat 64 (fld p 0x10 8) else r.1
      let d := if given then d else r.2
      let d : Dev := match t with
        | 0 => { d with tbl := { d.tbl with nodeStaged := { seed := seed } } }
        | 1 => { d with tbl := { d.tbl with routeStaged := { seed := seed } } }
        | _ => { d with tbl := { d.tbl with pfxStaged := { seed := seed } } }
      (d.setRebuild t (if sub = 0 then { st := .copying, left := d.tblKeys t } else { st := .ready })).complete c .ST_OK)

/-- Swap is staged (R346). -/
def rebuildSwap (d : Dev) (h : Hdr) (p : List Byte) : Dev :=
  let c : Cmd := ⟨h, .CMD_TABLE_REBUILD, 2, p⟩
  d.command c (fun d =>
    let t := fld p 0 1
    let at_ := bit (fld p 2 1) 0
    if d.follower then d.complete c .ST_MODE_REFUSED
    else if rebuildBad 2 p then d.complete c .ST_BAD_PARAM
    else if (d.rebuild t).st = .idle then d.complete c .ST_NO_REBUILD
    else if at_ ∧ d.freezePassed (fld p 8 6) then d.complete c .ST_EPOCH_PASSED
    else
      let r := d.rebuild t
      (d.setRebuild t { r with st := if r.st = .ready then .swapPending else r.st }).stageCmd c
        (if at_ then some (fld p 8 6) else none))

/-- Abandon (R346). -/
def rebuildAbandon (d : Dev) (h : Hdr) (p : List Byte) : Dev :=
  let c : Cmd := ⟨h, .CMD_TABLE_REBUILD, 3, p⟩
  d.command c (fun d =>
    let t := fld p 0 1
    if d.follower then d.complete c .ST_MODE_REFUSED
    else if rebuildBad 3 p then d.complete c .ST_BAD_PARAM
    else ((d.setRebuild t {}).clearStaged t).complete c .ST_OK)

/-- A swap at its boundary (R345). A rebuild that has failed since the freeze leaves it incomplete (R344). -/
def swapApply (d : Dev) (c : Cmd) : Dev :=
  let t := fld c.p 0 1
  if (d.rebuild t).st = .idle then
    d.completeStaged c (if (d.rebuild t).failed then .ST_REBUILD_INCOMPLETE else .ST_NO_REBUILD)
  else
    let d := (d.drainDuals t).setRebuild t {}
    let d : Dev := match t with
      | 0 =>
        let old := d.tbl.node
        let d := { d with tbl := { d.tbl with node := d.tbl.nodeStaged, nodeStaged := old } }
        let d := (old.slots.filter (fun x => x.2.valid && !(d.tbl.node.at_ x.1).valid)).foldl
          (fun (d : Dev) (x : Nat × NodeEntry) => d.releaseAddr x.2.pan x.2.loc) d
        (d.tbl.node.slots.filter (fun x => x.2.valid && x.2.aged.isNone)).foldl
          (fun (d : Dev) (x : Nat × NodeEntry) => d.takeAddr x.2.pan x.2.loc) d
      | 1 => { d with tbl := { d.tbl with route := d.tbl.routeStaged, routeStaged := d.tbl.route } }
      | _ => { d with tbl := { d.tbl with pfx := d.tbl.pfxStaged, pfxStaged := d.tbl.pfx } }
    d.completeStaged c .ST_OK

/-- CMD_NODE_REKEY (R436, R437). -/
def rekeyRefusal (d : Dev) (p : List Byte) : Option Status :=
  let k := fld p 0 1
  if 3 < k ∨ 1 < fld p 1 1 ∨ ¬ zeros p 4 4 ∨ ¬ zeros p 0x10 48 then some .ST_BAD_PARAM
  else match d.findShort k (fld p 2 2) with
    | none => some .ST_NOT_FOUND
    | some loc => if fld p 0x0E 2 ≤ (d.nodeAt k loc).keyEpoch then some .ST_BAD_PARAM else none

def nodeRekey (d : Dev) (h : Hdr) (p : List Byte) : Dev :=
  let c : Cmd := ⟨h, .CMD_NODE_REKEY, 0, p⟩
  d.command c (fun d =>
    let at_ := bit (fld p 1 1) 0
    if d.follower then d.complete c .ST_MODE_REFUSED
    else match d.rekeyRefusal p with
      | some st => d.complete c st
      | none =>
        if at_ ∧ d.freezePassed (fld p 8 6) then d.complete c .ST_EPOCH_PASSED
        else d.stageCmd c (if at_ then some (fld p 8 6) else none))

def rekeyApply (d : Dev) (c : Cmd) : Dev :=
  let p := c.p
  match d.rekeyRefusal p with
  | some st => d.completeStaged c st
  | none =>
    let e := d.nodeAt (fld p 0 1) (fld p 2 2)
    (d.modNode (fld p 0 1) (fld p 2 2) (fun e => { e with
      keyEpoch := fld p 0x0E 2, lastFc := 0, dlFc := 0, fcNone := true })).completeStaged c .ST_OK
      (le 4 e.lastFc ++ le 4 e.dlFc)

/-- CMD_SEEN_FLUSH (R302). -/
def seenFlushCmd (d : Dev) (h : Hdr) : Dev :=
  d.command ⟨h, .CMD_SEEN_FLUSH, 0, []⟩ (fun d => d.stageCmd ⟨h, .CMD_SEEN_FLUSH, 0, []⟩ none)

/-! ### Ageing and background work (R315, R339, R340) -/

/-- An entry's age passes AGE_LIMIT at the boundary (R339): its address is released. -/
def ageOut (d : Dev) (slot : Nat) : Dev :=
  let e := d.tbl.node.at_ slot
  if e.valid ∧ e.aged.isNone ∧ d.aged e then
    (d.modNode e.pan e.loc (fun x => { x with aged := some d.epoch.numPipe })).releaseAddr e.pan e.loc
  else d

/-- The sweep clears an aged entry (R340). -/
def sweepNode (d : Dev) (slot : Nat) : Dev :=
  let e := d.tbl.node.at_ slot
  let d := (d.eraseNode slot).bump Cnt.AGED_OUT
  if d.cfg.TBL_LEARN_AGED_EVT = 1 then
    d.raise .EVT_NODE_AGED (le 1 e.pan ++ le 2 e.loc ++ le 8 e.eui.toNat ++ le 6 (e.aged.getD 0) ++ finalFields e)
  else d

/-- A table whose second-bank copies wait; one with a rebuild copy to make (R315). -/
def dualTable (d : Dev) : Option Nat := [0, 1, 2].find? (fun t => !(d.rebuild t).queue.isEmpty)
def copyTable (d : Dev) : Option Nat :=
  [0, 1, 2].find? (fun t => decide ((d.rebuild t).st = .copying) && !(d.rebuild t).left.isEmpty)

/-- What the reclamation sweeps find: an aged node entry, an expired route, an expired seen entry (R315). -/
def agedNode (d : Dev) : Option (Nat × NodeEntry) := d.tbl.node.slots.find? (fun x => x.2.valid && x.2.aged.isSome)
def expiredRoute (d : Dev) : Option (Nat × RouteEntry) :=
  d.tbl.route.slots.find? (fun x => x.2.valid && decide (x.2.expires ≠ 0 ∧ x.2.expires ≤ d.epoch.numPipe))
def expiredSeen (d : Dev) : Option (Nat × SeenEntry) := d.tbl.seen.slots.find? (fun x => d.seenExpired x.2)

/-- Background work stands before Verdigris (R315). -/
def sweepsDue (d : Dev) : Bool :=
  d.dualTable.isSome || d.copyTable.isSome || d.agedNode.isSome || d.expiredRoute.isSome || d.expiredSeen.isSome ||
    d.tbl.seenClear

/-- One unit of background work, of the highest priority that has any (R315): a second-bank copy, a rebuild copy, a
reclamation (aged node, expired route, expired seen entry, the flushed seen bank). -/
def background (d : Dev) : Dev :=
  match d.dualTable, d.copyTable, d.agedNode, d.expiredRoute, d.expiredSeen with
  | some t, _, _, _, _ => d.drainDual t
  | none, some t, _, _, _ => d.copyOne t
  | none, none, some x, _, _ => d.sweepNode x.1
  | none, none, none, some x, _ => (d.eraseRoute x.2.pan x.2.target).bump Cnt.ROUTE_EXPIRED
  | none, none, none, none, some x =>
    { d with tbl := { d.tbl with seen := { d.tbl.seen with slots := d.tbl.seen.slots.del x.1 } } }
  | none, none, none, none, none => d.seenClearOld

/-! ### Verdigris (R348 to R352) -/

/-- SETTLE; 0 acts as 1. -/
def vgSettle (d : Dev) : Nat := max 1 d.cfg.VG_CTL_SETTLE

/-- The entry was set within SETTLE epochs (R349). -/
def settling (d : Dev) (setEpoch : Nat) : Bool :=
  decide ((d.epoch.numPipe % 65536 + 65536 - setEpoch) % 65536 ≤ d.vgSettle)

/-- A difference (R350): counted, and reported at most 64 times per epoch. Kinds: 0 FIELD, 1 EXTRA, 2 MISSING. -/
def vgReport (d : Dev) (t kind : Nat) (key : List Byte) : Dev :=
  let d := { d with tbl := { d.tbl with vg := { d.tbl.vg with mismatches := d.tbl.vg.mismatches + 1 } } }
  let d := d.bump Cnt.VG_MISMATCH
  if d.tbl.vg.events < 64 then
    ({ d with tbl := { d.tbl with vg := { d.tbl.vg with events := d.tbl.vg.events + 1 } } }).raise
      .EVT_VERDIGRIS_MISMATCH (le 1 t ++ key ++ le 1 kind)
  else d

/-- A shadow record of the node table differs from an entry in a host-owned field (R348). -/
def nodeDiffers (e : NodeEntry) (s : List Byte) : Bool :=
  decide (e.eui.toNat ≠ fld s 0 8 ∨ e.short ≠ fld s 8 2 ∨ e.preplaced ≠ bit (fld s 0x0A 1) 1 ∨
    e.pinned ≠ bit (fld s 0x0A 1) 2 ∨ e.airClass ≠ fld s 0x0B 1 ∨ e.keySlot ≠ fld s 0x0C 2 ∨ e.policer ≠ fld s 0x0E 2 ∨
    e.user.toNat ≠ fld s 0x18 8)

/-- Compare one slot of the node table. -/
def vgNode (d : Dev) (slot : Nat) (shadow : List Byte) : Dev :=
  let e := d.tbl.node.at_ slot
  let k := homeOf slot
  let key := le 1 k.1 ++ le 2 k.2
  let sv := bit (fld shadow 0x0A 1) 0
  if d.seesNode e then
    (if ¬ e.adopted ∨ d.settling e.setEpoch ∨ d.held k.1 k.2 then d
     else if ¬ sv then
       (d.modNode e.pan e.loc (fun x => { x with quarantine := true, qreason := 2 })).vgReport 0 1 key
     else if nodeDiffers e shadow then
       (d.modNode e.pan e.loc (fun x => { x with quarantine := true, qreason := 1 })).vgReport 0 0 key
     else d)
  else if sv ∧ ¬ d.held k.1 k.2 then d.vgReport 0 2 key
  else d

/-- Compare one shadow record of the route table: the entry found takes VG_MARK. A record whose address is in release hold is
skipped, and its entry is no extra one. -/
def vgRoute (d : Dev) (s : List Byte) : Dev :=
  let r := routeOfImage s
  let key := le 1 r.pan ++ le 2 r.target
  let hold := d.held r.pan r.target
  if ¬ bit (fld s 1 1) 0 then d
  else match d.tbl.route.find r.pan r.target with
    | none => if hold then d else d.vgReport 1 2 key
    | some e =>
      let bad := decide (e.hopList ≠ r.hopList ∨ e.expires ≠ r.expires) && !d.settling e.setEpoch && !hold
      let d := (d.putRoute { e with mark := true, quarantine := e.quarantine || bad } true).getD d
      if bad then d.vgReport 1 0 key else d

/-- Compare one shadow record of the prefix table. -/
def vgPfx (d : Dev) (s : List Byte) : Dev :=
  let r := pfxOfImage s
  let key := le 1 r.len ++ r.pfx
  if ¬ bit (fld s 0x11 1) 0 then d
  else match d.tbl.pfx.find r.pfx r.len with
    | none => d.vgReport 2 2 key
    | some e =>
      let bad := decide (e.kind ≠ r.kind ∨ e.context ≠ r.context ∨ e.target ≠ r.target ∨ e.prog ≠ r.prog ∨
        e.cls ≠ r.cls ∨ e.user ≠ r.user) && !d.settling e.setEpoch
      let d := (d.putPfx { e with mark := true, quarantine := e.quarantine || bad } true).getD d
      if bad then d.vgReport 2 0 key else d

/-- Walk one place of the route table: an entry without VG_MARK is extra; the mark is cleared. -/
def vgRouteWalk (d : Dev) (i : Nat) : Dev :=
  let e := d.tbl.route.slots.get {} i
  if ¬ e.valid then d
  else
    let bad := !e.mark && !d.settling e.setEpoch
    let d := (d.putRoute { e with mark := false, quarantine := e.quarantine || bad } true).getD d
    if bad then d.vgReport 1 1 (le 1 e.pan ++ le 2 e.target) else d

def vgPfxWalk (d : Dev) (i : Nat) : Dev :=
  let e := d.tbl.pfx.slots.get {} i
  if ¬ e.valid then d
  else
    let bad := !e.mark && !d.settling e.setEpoch
    let d := (d.putPfx { e with mark := false, quarantine := e.quarantine || bad } true).getD d
    if bad then d.vgReport 2 1 (le 1 e.len ++ e.pfx) else d

/-- Records of a stage of the pass: node slots, shadow records, table places. -/
def vgCount (d : Dev) (table : Nat) (marking : Bool) : Nat :=
  match table, marking with
  | 0, _ => 262144
  | 1, true => min d.cfg.VG_COUNT_ROUTE_COUNT 65536
  | 1, false => 65536
  | _, true => min d.cfg.VG_COUNT_PREFIX_COUNT 4096
  | _, false => 4096

/-- The next stage; after the last the pass ends (R350). -/
def vgNextStage (d : Dev) : Dev :=
  let v := d.tbl.vg
  match v.table, v.marking with
  | 0, _ => { d with tbl := { d.tbl with vg := { v with table := 1, index := 0, marking := true } } }
  | 1, true => { d with tbl := { d.tbl with vg := { v with index := 0, marking := false } } }
  | 1, false => { d with tbl := { d.tbl with vg := { v with table := 2, index := 0, marking := true } } }
  | _, true => { d with tbl := { d.tbl with vg := { v with index := 0, marking := false } } }
  | _, false =>
    ({ d with tbl := { d.tbl with vg := { v with
        table := 0, index := 0, marking := true, mismatches := 0, lastMismatch := min 0xFFFF v.mismatches
        passes := v.passes + 1 } } }).raise .EVT_VERDIGRIS_PASS (le 4 v.mismatches)

/-- Step to the next record; stages that have no record are passed over. -/
def vgAdvance (d : Dev) : Dev :=
  let d := { d with tbl := { d.tbl with vg := { d.tbl.vg with index := d.tbl.vg.index + 1 } } }
  [0, 1, 2].foldl (fun (d : Dev) _ =>
    if d.vgCount d.tbl.vg.table d.tbl.vg.marking ≤ d.tbl.vg.index then d.vgNextStage else d) d

/-- The index of a home slot's own shadow record (R348). -/
def shadowOf (slot : Nat) : Nat := (homeOf slot).1 * 65536 + (homeOf slot).2

/-- The shadow record n of table t, as LPDDR holds it (R348). -/
def vgShadow (d : Dev) (t n : Nat) : List Byte := memRead d.disp.dram (d.cfg.VG_BASE_BASE_4K t * 4096 + 32 * n) 32

/-- The comparison of the record at which Verdigris stands, and the step to the next (R349, R350). -/
def vgCompare (d : Dev) : Dev :=
  let v := d.tbl.vg
  let s := d.vgShadow v.table (if v.table = 0 then shadowOf v.index else v.index)
  let d := match v.table, v.marking with
    | 0, _ => d.vgNode v.index s
    | 1, true => d.vgRoute s
    | 1, false => d.vgRouteWalk v.index
    | _, true => d.vgPfx s
    | _, false => d.vgPfxWalk v.index
  d.vgAdvance

/-- Comparisons made in the millisecond that runs (R352). -/
def vgThisMs (d : Dev) : Nat := if d.tbl.vg.ms = d.up / 1000000 then d.tbl.vg.done else 0

/-- VERDIGRIS_COMPARE: one comparison, after all other background work (R315), and at most RATE in a millisecond (R352). -/
def verdigris (d : Dev) : Dev :=
  if ¬ d.runs ∨ d.cfg.VG_CTL_EN = 0 ∨ d.sweepsDue = true ∨ max 1 d.cfg.VG_CTL_RATE ≤ d.vgThisMs then d
  else
    let n := d.vgThisMs + 1
    ({ d with tbl := { d.tbl with vg := { d.tbl.vg with ms := d.up / 1000000, done := n } } }).vgCompare

end Dev

/-! ### Meanings -/

/-- CMD_NODE_SET, OP 0 (R332, R333). -/
def execCmdNodeSetAdd (h : Hdr) (p : List Byte) (s : State) : Host.Outcome State Fault Refusal :=
  s.run (fun d => d.tblCmd h .CMD_NODE_SET 0 p)

/-- CMD_NODE_SET, OP 1 (R333). -/
def execCmdNodeSetDelete (h : Hdr) (p : List Byte) (s : State) : Host.Outcome State Fault Refusal :=
  s.run (fun d => d.tblCmd h .CMD_NODE_SET 1 p)

/-- CMD_NODE_SET, OP 2 (R351). -/
def execCmdNodeSetClearQuarantine (h : Hdr) (p : List Byte) (s : State) : Host.Outcome State Fault Refusal :=
  s.run (fun d => d.tblCmd h .CMD_NODE_SET 2 p)

/-- CMD_ROUTE_SET, OP 0 (R334). -/
def execCmdRouteSetAdd (h : Hdr) (p : List Byte) (s : State) : Host.Outcome State Fault Refusal :=
  s.run (fun d => d.tblCmd h .CMD_ROUTE_SET 0 p)

/-- CMD_ROUTE_SET, OP 1 (R334). -/
def execCmdRouteSetDelete (h : Hdr) (p : List Byte) (s : State) : Host.Outcome State Fault Refusal :=
  s.run (fun d => d.tblCmd h .CMD_ROUTE_SET 1 p)

/-- CMD_ROUTE_SET, OP 2 (R351). -/
def execCmdRouteSetClearQuarantine (h : Hdr) (p : List Byte) (s : State) : Host.Outcome State Fault Refusal :=
  s.run (fun d => d.tblCmd h .CMD_ROUTE_SET 2 p)

/-- CMD_PREFIX_SET, OP 0 (R334). -/
def execCmdPrefixSetAdd (h : Hdr) (p : List Byte) (s : State) : Host.Outcome State Fault Refusal :=
  s.run (fun d => d.tblCmd h .CMD_PREFIX_SET 0 p)

/-- CMD_PREFIX_SET, OP 1 (R334). -/
def execCmdPrefixSetDelete (h : Hdr) (p : List Byte) (s : State) : Host.Outcome State Fault Refusal :=
  s.run (fun d => d.tblCmd h .CMD_PREFIX_SET 1 p)

/-- CMD_PREFIX_SET, OP 2 (R351). -/
def execCmdPrefixSetClearQuarantine (h : Hdr) (p : List Byte) (s : State) : Host.Outcome State Fault Refusal :=
  s.run (fun d => d.tblCmd h .CMD_PREFIX_SET 2 p)

/-- CMD_TABLE_REBUILD, OP 0 (R346). -/
def execCmdTableRebuildCopy (h : Hdr) (p : List Byte) (s : State) : Host.Outcome State Fault Refusal :=
  s.run (fun d => d.rebuildStart h p 0)

/-- CMD_TABLE_REBUILD, OP 1 (R346). -/
def execCmdTableRebuildEmpty (h : Hdr) (p : List Byte) (s : State) : Host.Outcome State Fault Refusal :=
  s.run (fun d => d.rebuildStart h p 1)

/-- CMD_TABLE_REBUILD, OP 2 (R345, R346). -/
def execCmdTableRebuildSwap (h : Hdr) (p : List Byte) (s : State) : Host.Outcome State Fault Refusal :=
  s.run (fun d => d.rebuildSwap h p)

/-- CMD_TABLE_REBUILD, OP 3 (R346). -/
def execCmdTableRebuildAbandon (h : Hdr) (p : List Byte) (s : State) : Host.Outcome State Fault Refusal :=
  s.run (fun d => d.rebuildAbandon h p)

/-- REBUILD_COPY_DONE (R346). -/
def execRebuildCopyDone (t : Fin 3) (s : State) : Host.Outcome State Fault Refusal :=
  s.run (fun d => d.copyDone t.val)

/-- CMD_NODE_REKEY (R436). -/
def execCmdNodeRekey (h : Hdr) (p : List Byte) (s : State) : Host.Outcome State Fault Refusal :=
  s.run (fun d => d.nodeRekey h p)

/-- CMD_SEEN_FLUSH (R302). -/
def execCmdSeenFlush (h : Hdr) (s : State) : Host.Outcome State Fault Refusal :=
  s.run (fun d => d.seenFlushCmd h)

/-- NODE_AGE_OUT (R339). -/
def execNodeAgeOut (slot : BitVec 18) (s : State) : Host.Outcome State Fault Refusal :=
  s.run (fun d => d.ageOut slot.toNat)

/-- ADDRESS_RELEASE_HOLD_END (R216): an address held for RELEASE_HOLD epochs is free again. -/
def execAddressReleaseHoldEnd (k : Fin 4) (addr : W16) (s : State) : Host.Outcome State Fault Refusal :=
  s.run (fun d =>
    if d.held k.val addr.toNat then d else d.modPan k.val (fun x => { x with hold := x.hold.del addr.toNat }))

/-- BACKGROUND_TABLE_WORK (R315). -/
def execBackgroundTableWork (s : State) : Host.Outcome State Fault Refusal :=
  s.run (fun d => d.background)

/-- VERDIGRIS_COMPARE (R349, R350). -/
def execVerdigrisCompare (s : State) : Host.Outcome State Fault Refusal :=
  s.run (fun d => d.verdigris)

end Sys2Proof.Machine
end

