-- ==== Sys2Proof/Machine/Tm.lean ====
section
/-! DEFINITION. The traffic manager (R386 to R404): queues and their admission, shapers, policers, the tree of a Vat
image, CMD_TM_SET and the refill. -/

namespace Sys2Proof.Machine

/-! ### Records (R388, R389, R393, R398) -/

/-- The fixed queue of a key (R386): kind, class, target. -/
def fixedQueue (kind cls target : Nat) : Option Nat :=
  if 7 < cls then none
  else match kind with
    | 0 => if target < 4 then some (8 * target + cls) else none
    | 1 => if target < 4 then some (32 + 8 * target + cls) else none
    | 2 => if target = 0xFFFF then some (64 + cls) else none
    | 3 => if target < 16 then some (72 + 8 * target + cls) else none
    | _ => none

/-- Kind, class and target of a fixed queue. -/
def fixedKey (q : Nat) : Nat × Nat × Nat :=
  if q < 32 then (0, q % 8, q / 8) else if q < 64 then (1, q % 8, (q - 32) / 8)
  else if q < 72 then (2, q % 8, 0xFFFF) else (3, q % 8, (q - 72) / 8)

/-- A queue record (R388), and whether a field of its own is out of range (R389). -/
def queueRec (r : List Byte) : QRec :=
  { kind := fld r 0 1, cls := fld r 1 1, target := fld r 2 2, shaper := fld r 4 2, maxPkts := fld r 6 2
    yellowMax := fld r 8 2, weight := fld r 0x0A 1 }

def queueRecBad (r : List Byte) : Bool :=
  let x := queueRec r
  decide (3 < x.kind) || decide (7 < x.cls) || decide (x.maxPkts = 0) || decide (x.maxPkts < x.yellowMax) ||
    !zeros r 0x0B 5 || (if x.kind = 2 then decide (x.weight = 0) || decide (1023 < x.target ∧ x.target ≠ 0xFFFF)
      else decide (x.weight ≠ 0) || (fixedQueue x.kind x.cls x.target).isNone)

/-- A shaper record (R393): rate, burst, parent. -/
def shaperRec (r : List Byte) : Nat × Nat × Nat := (fld r 0 4, fld r 4 2, fld r 6 2)
def shaperRecBad (r : List Byte) : Bool :=
  decide (0x00FFFFFF < fld r 0 4) || decide (fld r 4 2 = 0) || !zeros r 8 8

/-- A policer record (R398). -/
def policerRec (r : List Byte) : Nat × Nat × Nat × Nat × Bool := (fld r 0 4, fld r 4 4, fld r 8 2, fld r 0x0A 2, bit (fld r 0x0C 1) 0)
def policerRecBad (r : List Byte) : Bool :=
  let c := fld r 0 4
  let p := fld r 4 4
  decide (0x00FFFFFF < c) || decide (0x00FFFFFF < p) || decide (p < c) || decide (fld r 8 2 = 0) ||
    decide (fld r 0x0A 2 < fld r 8 2) || decide (1 < fld r 0x0C 1) || !zeros r 0x0D 3

/-- POL of R399 on buckets C and P (1/256 packet): the colour (0 green, 1 yellow, 2 red) and the buckets after. -/
def police (aware : Bool) (c p colour : Nat) : Nat × Nat × Nat :=
  if aware ∧ 2 ≤ colour then (2, c, p)
  else if p < 256 then (2, c, p)
  else if (aware ∧ colour = 1) ∨ c < 256 then (1, c, p - 256)
  else (0, c - 256, p - 256)

/-- Octets a queue item holds in the packet buffer. -/
def QItem.octets : QItem → Nat
  | .air f => f.payload.length
  | .eth frame _ _ => frame.length
  | .ql p => p.payload.length
  | .host p => p.data.length
  | .bad n => n

/-- The packet was hit by an uncorrectable error (R588). -/
def QItem.isBad : QItem → Bool
  | .bad _ => true
  | .air f => f.bad
  | _ => false

namespace Dev

/-- Parameters of a queue in force (R388). -/
def qrec (d : Dev) (q : Nat) : QRec :=
  match d.tm.recs.find q with
  | some r => r
  | none =>
    let k := fixedKey q
    let n := max 1 d.cfg.TM_DEFAULT_DEPTH
    { kind := k.1, cls := k.2.1, target := k.2.2, shaper := 0xFFFF, maxPkts := n, yellowMax := n, weight := 1 }

/-- The queue exists. -/
def queueExists (d : Dev) (q : Nat) : Bool := decide (q < d.tm.numQueues)

def shaper (d : Dev) (s : Nat) : Shaper := d.tm.shapers.get {} s

/-- A chain of shapers upward (R393). -/
def chainFrom (d : Dev) : Nat → Nat → List Nat
  | 0, _ => []
  | n + 1, s => if s < d.tm.numShapers then s :: d.chainFrom n (d.shaper s).parent else []

/-- The chain of a queue, at most 3 shapers. -/
def chain (d : Dev) (q : Nat) : List Nat := d.chainFrom 3 (d.qrec q).shaper

/-- The egress point that serves a queue (R386): ports 0 to 3, ETH_e 4 + e, QZ-Link port q 8 + q, host ring r 16 + r. A shelf
queue has a QZ-Link port for each packet, which its caller names. -/
def egressOf (q : Nat) : Nat := if q < 32 then q / 8 else if q < 64 then 4 + (q - 32) / 8 else 16 + (q - 72) / 8

/-- The PIPE cycle under way took other egress points' dequeues, and none of this one (R395). -/
def sameCycle (d : Dev) (pt : Nat) : Bool := d.tm.cycAt == d.time.up && !d.tm.cycBy.contains pt

/-- The bucket of a shaper that an egress point sees (R395): as it stood at the start of the cycle. -/
def level (d : Dev) (pt s : Nat) : Int :=
  if d.sameCycle pt then (d.tm.cycOld.find s).getD (d.shaper s).bucket else (d.shaper s).bucket

/-- Every bucket on the chain is above 0 (R394). -/
def conforms (d : Dev) (pt q : Nat) : Bool := (d.chain q).all (fun s => decide (0 < d.level pt s))

/-- A queue is eligible at an egress point (R394, R395). -/
def eligibleAt (d : Dev) (pt q : Nat) : Bool := !(d.queue q).isEmpty && d.conforms pt q

/-- A queue with one egress point is eligible. -/
def eligible (d : Dev) (q : Nat) : Bool := d.eligibleAt (egressOf q) q

/-- A packet's dequeue at an egress point (R394, R395): 256 units from every bucket of the chain, and Q_DEQ. -/
def chargeAt (d : Dev) (pt q : Nat) : Dev :=
  let same := d.sameCycle pt
  let t := d.tm
  let old := (d.chain q).foldl (fun (m : SMap Int) s =>
    if (m.find s).isSome then m else m.put s (d.shaper s).bucket) (if same then t.cycOld else [])
  let d := (d.chain q).foldl (fun (d : Dev) s =>
    { d with tm := { d.tm with shapers := d.tm.shapers.put s { d.shaper s with bucket := (d.shaper s).bucket - 256 } } }) d
  let d := { d with tm := { d.tm with cycAt := d.time.up, cycBy := if same then pt :: t.cycBy else [pt], cycOld := old } }
  d.bump (Cnt.Q_DEQ q)

/-- A dequeue from a queue with one egress point. -/
def chargeDequeue (d : Dev) (q : Nat) : Dev := d.chargeAt (egressOf q) q

/-- Octets in the packet buffer (R33): queued packets, the pipelines' source queues, the receptions under way that
reserved room (R162), and the stored octets of the receive logs. -/
def bufUsed (d : Dev) : Nat :=
  (d.tm.queues.foldl (fun n (x : Nat × List QItem) => x.2.foldl (fun n i => n + i.octets) n) 0) +
    (d.pipe.pipes.foldl (fun n (x : Nat × PipeSt) => x.2.queues.foldl (fun n (y : Nat × List Packet) =>
      y.2.foldl (fun n (p : Packet) => n + p.data.length) n) n) 0) +
    (d.lanes.foldl (fun n (x : Nat × Lane) => if x.2.st == .payload && x.2.rx.buffered then n + x.2.rx.len else n) 0) +
    (d.ports.foldl (fun n (x : Nat × Port) => x.2.rxData.foldl (fun n (y : Nat × List Byte) => n + y.2.length) n) 0)

/-- The packet buffer has room. -/
def bufRoom (d : Dev) (n : Nat) : Bool := decide (d.bufUsed + n ≤ 16777216)

/-- Duration of a frame on ETH_e at its current rate, ns (R485): `len` counts it without FCS; MACsec adds 32 octets where the
frame is protected. None while the link is down. -/
def ethDuration (d : Dev) (e : Nat) (frame : List Byte) : Option Nat :=
  let o := if d.cfg.ETH_MACSEC_TX_EN e = 1 ∧ slice frame 12 2 ≠ be 2 0x888E then 32 else 0
  let bitTimes := (max 60 frame.length + 4 + 20 + o) * 8
  match (d.eth e).rate with
  | 0 => some (8 * ceilDiv bitTimes 200)
  | 1 => some (8 * ceilDiv bitTimes 80)
  | 2 => some (8 * ceilDiv bitTimes 20)
  | 3 => some (8 * ceilDiv bitTimes 8)
  | 4 => some (8 * ceilDiv (bitTimes * 10) 8)
  | 5 => some (8 * ceilDiv (bitTimes * 100) 8)
  | _ => none

/-- A frame never fits the span of its queue (R487). -/
def neverFits (d : Dev) (q : Nat) (i : QItem) : Bool :=
  match i with
  | .eth frame _ _ =>
    decide (32 ≤ q ∧ q < 64) && (match d.ethDuration ((q - 32) / 8) frame with
      | some n => decide ((d.eth ((q - 32) / 8)).span.getD (q % 8) 0xFFFFFFFF < n)
      | none => false)
  | _ => false

/-- Offer a packet, or the fragments of one, to a queue (R390); `long` says that an air frame's need exceeds USABLE_US. -/
def offer (d : Dev) (q : Nat) (xs : List QItem) (colour : Nat) (long : Bool) : Dev × Status :=
  let n := xs.length
  let depth := (d.queue q).length
  let r := d.qrec q
  if q < 32 ∧ d.modes.phase = .survey then (d.bump Cnt.AIRQ_FLUSH_SURVEY n, .ST_DROPPED)
  else if q < 32 ∧ long then (d.bump (Cnt.Q_TOO_LONG q) n, .ST_TOO_LONG_FOR_SLOT)
  else if xs.any (fun i => d.neverFits q i) then (d.bump (Cnt.ETH_TX_NEVER_FITS ((q - 32) / 8)) n, .ST_NEVER_FITS)
  else if colour ≠ 0 ∧ r.yellowMax ≤ depth then (d.bump (Cnt.Q_DROP_COLOUR q) n, .ST_DROPPED)
  else if r.maxPkts < depth + n then (d.bump (Cnt.Q_DROP_FULL q) n, .ST_DROPPED)
  else if ¬ d.bufRoom (xs.foldl (fun n i => n + i.octets) 0) then (d.bump Cnt.TM_BUF_FULL n, .ST_DROPPED)
  else ((d.setQueue q (d.queue q ++ xs)).bump (Cnt.Q_ENQ q) n, .ST_OK)

/-- The queue for a shelf chip and class (R387): a created one, else the class queue. -/
def shelfQueue (d : Dev) (chip cls : Nat) : Nat :=
  match d.tm.recs.find? (fun x => decide (200 ≤ x.1 ∧ x.2.kind = 2 ∧ x.2.target = chip ∧ x.2.cls = cls)) with
  | some x => x.1
  | none => 64 + cls

/-- The head of an air queue that R239 and R244 see: the queue is eligible (R394). -/
def airHead (d : Dev) (p cls : Nat) : Option TxFrame :=
  if d.eligible (8 * p + cls) then
    match (d.queue (8 * p + cls)).head? with
    | some (.air f) => some f
    | _ => none
  else none

/-- The frame was queued before the one numbered u: frames are numbered as they are offered. -/
def queuedBefore (u : Nat) : QItem → Bool
  | .air f => decide (f.uid < u)
  | _ => false

/-- A frame returns to the head of its queue (R392): ahead of every later arrival, and behind an earlier one that has also
come back. -/
def pushFront (d : Dev) (q : Nat) (f : TxFrame) : Dev :=
  d.setQueue q ((d.queue q).takeWhile (queuedBefore f.uid) ++ QItem.air f :: (d.queue q).dropWhile (queuedBefore f.uid))

/-! ### The tree of an image (R401) -/

/-- Install the tree of an image: queues, shapers and policers. -/
def installTree (d : Dev) (queues shapers policers : List (List Byte)) : Dev :=
  let t := d.tm
  let old := t.recs.filter (fun x => decide (200 ≤ x.1))
  let step := fun (acc : SMap QRec × Nat) (r : List Byte) =>
    let x := queueRec r
    match fixedQueue x.kind x.cls x.target with
    | some i => (acc.1.put i x, acc.2)
    | none => (acc.1.put acc.2 x, acc.2 + 1)
  let new := queues.foldl step (([] : SMap QRec), 200)
  let shp : SMap Shaper := (shapers.zipIdx).map (fun (r, i) =>
    let s := shaperRec r
    (i, ({ rate := s.1, burst := s.2.1, parent := s.2.2
           bucket := if i < t.numShapers then (t.shapers.get {} i).bucket else ((s.2.1 * 256 : Nat) : Int) } : Shaper)))
  let pol : SMap Policer := (policers.zipIdx).map (fun (r, i) =>
    let s := policerRec r
    let o := t.policers.get {} i
    (i, ({ cir := s.1, pir := s.2.1, cbs := s.2.2.1, pbs := s.2.2.2.1, aware := s.2.2.2.2
           c := if i < t.numPolicers then o.c else s.2.2.1 * 256
           p := if i < t.numPolicers then o.p else s.2.2.2.1 * 256 } : Policer)))
  let fixed := t.queues.filter (fun x => decide (x.1 < 200))
  let moved := old.foldl (fun (m : SMap (List QItem)) (x : Nat × QRec) =>
    let items := t.queues.get [] x.1
    let dest := match new.1.find? (fun y => decide (200 ≤ y.1 ∧ y.2.target = x.2.target ∧ y.2.cls = x.2.cls)) with
      | some y => y.1
      | none => 64 + x.2.cls
    m.set [] dest (m.get [] dest ++ items)) fixed
  { d with tm := { t with
      queues := moved, recs := new.1, numQueues := new.2, shapers := shp, numShapers := shapers.length
      policers := pol, numPolicers := policers.length, rr := [], cycBy := [], cycOld := [] } }

/-! ### CMD_TM_SET (R402) -/

/-- The record of a CMD_TM_SET is refused (R402). -/
def tmSetBad (d : Dev) (p : List Byte) : Bool :=
  let i := fld p 2 2
  let r := slice p 0x10 16
  decide (1 < fld p 1 1) || !zeros p 4 4 || !zeros p 0x0E 2 || !zeros p 0x20 32 ||
    (match fld p 0 1 with
     | 0 => decide (d.tm.numShapers ≤ i) || shaperRecBad r || decide ((shaperRec r).2.2 ≠ (d.shaper i).parent)
     | 1 => decide (d.tm.numPolicers ≤ i) || policerRecBad r
     | 2 =>
       let x := queueRec r
       let o := d.qrec i
       !d.queueExists i || queueRecBad r || decide (x.kind ≠ o.kind ∨ x.cls ≠ o.cls ∨ x.target ≠ o.target ∨
         x.shaper ≠ o.shaper)
     | _ => true)

/-- CMD_TM_SET at acceptance. -/
def tmSet (d : Dev) (h : Hdr) (p : List Byte) : Dev :=
  let c : Cmd := ⟨h, .CMD_TM_SET, 0, p⟩
  d.command c (fun d =>
    let at_ := bit (fld p 1 1) 0
    if d.follower then d.complete c .ST_MODE_REFUSED
    else if d.tmSetBad p then d.complete c .ST_BAD_PARAM
    else if at_ ∧ d.freezePassed (fld p 8 6) then d.complete c .ST_EPOCH_PASSED
    else d.stageCmd c (if at_ then some (fld p 8 6) else none))

/-- CMD_TM_SET at its boundary: a queue changes at the strobe, a shaper or policer at the first refill after it. -/
def tmSetApply (d : Dev) (c : Cmd) : Dev :=
  let p := c.p
  if d.tmSetBad p then d.completeStaged c .ST_BAD_PARAM
  else
    let i := fld p 2 2
    let r := slice p 0x10 16
    let d : Dev := match fld p 0 1 with
      | 0 => { d with tm := { d.tm with shapers := d.tm.shapers.put i { d.shaper i with
          staged := some ((shaperRec r).1, (shaperRec r).2.1) } } }
      | 1 => { d with tm := { d.tm with policers := d.tm.policers.put i { d.tm.policers.get {} i with
          staged := some (policerRec r) } } }
      | _ => { d with tm := { d.tm with recs := d.tm.recs.put i (queueRec r) } }
    d.completeStaged c .ST_OK

/-! ### Refill (R396) -/

/-- One shaper's refill. -/
def refillShaper (s : Shaper) : Shaper :=
  let s := match s.staged with
    | some (r, b) => { s with rate := r, burst := b, staged := none }
    | none => s
  let b := s.bucket + (s.rate : Int)
  let top : Int := ((s.burst * 256 : Nat) : Int)
  { s with bucket := if b ≤ top then b else top }

/-- One policer's refill. -/
def refillPolicer (p : Policer) : Policer :=
  let p := match p.staged with
    | some (a, b, c, e, w) => { p with cir := a, pir := b, cbs := c, pbs := e, aware := w, staged := none }
    | none => p
  { p with c := min (p.c + p.cir) (p.cbs * 256), p := min (p.p + p.pir) (p.pbs * 256) }

/-- The refill of all shapers and policers. -/
def refill (d : Dev) : Dev :=
  let sh : SMap Shaper := d.tm.shapers.map (fun x => (x.1, refillShaper x.2))
  let po : SMap Policer := d.tm.policers.map (fun x => (x.1, refillPolicer x.2))
  ({ d with tm := { d.tm with shapers := sh, policers := po, cycBy := [], cycOld := [] } }).bump Cnt.TM_REFILLS

end Dev

/-! ### Meanings -/

/-- CMD_TM_SET (R402). -/
def execCmdTmSet (h : Hdr) (p : List Byte) (s : State) : Host.Outcome State Fault Refusal :=
  s.run (fun d => d.tmSet h p)

/-- TOKEN_REFILL (R396). -/
def execTokenRefill (s : State) : Host.Outcome State Fault Refusal :=
  s.run (fun d => d.refill)

end Sys2Proof.Machine
end

