-- ==== Sys2Proof/Machine/Lanes.lean ====
section
/-! DEFINITION. Receive lanes (R127 to R166): the settings in force, parking, the lane state machine, capture, the receive
log and the delivery of records that do not take the uplink path (R79, R81, R163). Levels are in 0.25 dBm. -/

namespace Sys2Proof.Machine

/-- A lane is in frame (R109). -/
def LaneState.inFrame (s : LaneState) : Bool := s == .preamble || s == .header || s == .payload

/-- A reception whose sync word has matched runs. -/
def LaneState.latched (s : LaneState) : Bool := s == .header || s == .payload

/-- PSDU octets received when `ns` have passed since the sync word (R619). -/
def octetsIn (m : Mode) (coded : Bool) (ns : Nat) : Option Nat :=
  octetsAt m.family coded (ns * m.rate / 1000000000 * m.b)

/-- Symbols of the sync word and the default preamble (R134). -/
def leadSymbols (m : Mode) : Nat :=
  match m.family with
  | .fsk => (8 * m.family.preamble + 16) / m.b
  | .oqpsk => 10
  | .deep => m.family.preamble + 32
  | .wide => m.family.preamble + 16

/-- The last symbol of a frame of `len` octets has passed when `ns` have passed since its sync word (R142, R181). -/
def lastPassed (m : Mode) (coded : Bool) (len ns : Nat) : Bool :=
  decide ((symbols m coded m.family.preamble len - leadSymbols m) * 1000000000 ≤ ns * m.rate)

/-- Two channels' occupied bandwidths overlap (R173, R196); spacings in kHz. -/
def bandsOverlap (f1 s1 f2 s2 : Nat) : Bool := decide (2 * absDiff f1 f2 < s1 + s2)

/-- Spacing of a mode code, 0 for an unused one. -/
def spacingOf (mode : Nat) : Nat := match modeOf mode with | some m => m.spacing | none => 0

/-- The ones' complement sum of 16-bit words in network order, folded (RFC 1071). -/
def csum16 (bs : List Byte) : Nat :=
  let s := (List.range ((bs.length + 1) / 2)).foldl (fun a i => a + unbe (slice bs (2 * i) 2)) 0
  let f := fun v => v % 65536 + v / 65536
  65535 - f (f (f s))

/-- The FLAGS of a record (R159). -/
def rxFlags (x : RxFrame) (len present : Nat) : Nat :=
  x.port * 16384 + 256 * ofBool (present == 0) + 128 * ofBool (decide (present < len)) + 64 * ofBool x.tempDue +
    32 * ofBool x.captured + 16 * ofBool x.fcs2 + 8 * ofBool x.whitened + 4 * ofBool x.coded +
    2 * ofBool x.forcedStep + ofBool x.gainStepped

namespace Dev

/-! ### Settings in force -/

/-- The lane groups assigned to a port: the 12 lowest that name it (R128). -/
def lgOf (d : Dev) (p : Nat) : List Nat := ((List.range 24).filter (fun g => d.cfg.LG_CFG_PORT g == p)).take 12

/-- The port a lane group is assigned to (R128). -/
def lgPort (d : Dev) (g : Nat) : Option Nat :=
  let p := d.cfg.LG_CFG_PORT g
  if p < 4 ∧ (d.lgOf p).contains g = true then some p else none

/-- The port a lane listens on. -/
def lanePort (d : Dev) (l : Nat) : Option Nat :=
  match (d.lane l).held with
  | some h => h.port
  | none => d.lgPort (l / 8)

/-- LANE_CFG of a lane as it acts. -/
def laneWord (d : Dev) (l : Nat) : Nat :=
  match (d.lane l).held with
  | some h => h.cfg
  | none => (d.cfg.get 0x46080800#32 (Reg.LANE_CFG l)).toNat

/-- The channel of a lane (R250). -/
def laneKhz (d : Dev) (l : Nat) : Nat :=
  match (d.lane l).held, (d.lane l).freqOv with
  | some h, _ => h.khz
  | none, some f => f
  | none, none => d.cfg.LANE_FREQ_CHAN_KHZ l

/-- The mode code of a lane (R250). -/
def laneMode (d : Dev) (l : Nat) : Nat :=
  match (d.lane l).held, (d.lane l).modeOv with
  | some h, _ => h.mode
  | none, some m => m
  | none, none => d.cfg.LANE_CFG_MODE l

/-- The carriers assigned to a port: the 4 lowest that name it (R171). -/
def carOf (d : Dev) (p : Nat) : List Nat := ((List.range 16).filter (fun c => d.cfg.TXC_CFG_PORT c == p)).take 4

/-- TXC_CFG of a carrier as it acts. -/
def carWord (d : Dev) (c : Nat) : Nat :=
  match (d.carrier c).held with
  | some h => h.cfg
  | none => (d.cfg.get 0x45008800#32 (Reg.TXC_CFG c)).toNat

/-- The port a carrier transmits on (R171). -/
def carPort (d : Dev) (c : Nat) : Option Nat :=
  match (d.carrier c).held with
  | some h => if bits h.cfg 30 28 < 4 then some (bits h.cfg 30 28) else none
  | none =>
    let p := d.cfg.TXC_CFG_PORT c
    if p < 4 ∧ (d.carOf p).contains c = true then some p else none

/-- The channel of a carrier's own frames (R250). -/
def carKhz (d : Dev) (c : Nat) : Nat :=
  let x := d.carrier c
  match x.testKhz, x.held, x.freqOv with
  | some f, _, _ => f
  | none, some h, _ => h.khz
  | none, none, some f => f
  | none, none, none => d.cfg.TXC_FREQ_CHAN_KHZ c

/-- The mode code of a carrier's own frames. -/
def carMode (d : Dev) (c : Nat) : Nat :=
  let x := d.carrier c
  match x.held, x.modeOv with
  | some h, _ => h.mode
  | none, some m => m
  | none, none => d.cfg.TXC_CFG_MODE c

/-- RF_CENTRE of a port (R89). -/
def centre (d : Dev) (p : Nat) : Nat := (d.port p).centre

/-! ### Parking (R130) -/

/-- Parked without a word of its own: unassigned, EN 0 or MODE 0. -/
def laneOff (d : Dev) (l : Nat) : Bool :=
  (d.lanePort l).isNone || !bit (d.laneWord l) 31 || d.laneMode l == 0

/-- An unused mode code, or a channel outside the mode's bands. -/
def laneBad (d : Dev) (l : Nat) : Bool :=
  match modeOf (d.laneMode l) with
  | none => true
  | some m => !bandFits m (d.laneKhz l)

/-- The channel is out of window. -/
def laneOut (d : Dev) (l : Nat) : Bool :=
  match modeOf (d.laneMode l), d.lanePort l with
  | some m, some p => !inWindow m (d.laneKhz l) (d.centre p)
  | _, _ => false

/-- Parked for a reason other than a duplicate. -/
def lanePark (d : Dev) (l : Nat) : Bool := d.laneOff l || d.laneBad l || d.laneOut l

/-- A lower lane of the same port has the channel and mode and is not parked for another reason. -/
def laneDup (d : Dev) (l : Nat) : Bool :=
  (List.range l).any (fun k => decide (d.lanePort k = d.lanePort l ∧ d.laneKhz k = d.laneKhz l ∧
    d.laneMode k = d.laneMode l) && !d.lanePark k)

/-- Lanes that are assigned, not parked, or shown as parked for a reason that LANE_STATUS gives. -/
def activeLanes (d : Dev) : List Nat :=
  let gs := (List.range 24).filter (fun g => (d.lgPort g).isSome)
  gs.flatMap (fun g => (List.range 8).map (fun i => 8 * g + i)) ++
    (d.lanes.filter (fun x => (x.2.st != .parked || x.2.outOfWindow || x.2.cfgErr) && !gs.contains (x.1 / 8))).map (fun x => x.1)

/-- Lanes of a port. -/
def portLanes (d : Dev) (p : Nat) : List Nat := d.activeLanes.filter (fun l => decide (d.lanePort l = some p))

/-- A lane of the port is in frame (R109). -/
def anyInFrame (d : Dev) (p : Nat) : Bool := (d.portLanes p).any (fun l => (d.lane l).st.inFrame)

/-! ### Delivery of records (R79, R81, R163) -/

/-- An air record for a host ring (R530). -/
def airRecord (d : Dev) (r : RxRecord) (data : List Byte) : HostPkt × Dev :=
  let i := d.draw 8
  ({ kind := 1, srcKind := 0, srcIndex := i.1.toNat, cls := 0, flags := 16, epoch := r.epoch, record := r, data := data }, i.2)

/-- The delivery header and data of a host packet (R530). -/
def hostPktOctets (d : Dev) (h : HostPkt) : List Byte :=
  le 1 h.kind ++ le 1 h.srcKind ++ le 1 h.srcIndex ++ le 1 h.cls ++ le 2 h.flags ++ le 2 (h.origin.getD d.elec.chipId) ++ le 6 h.epoch ++
    le 2 h.nodeLoc ++ le 4 h.tag.toNat ++ le 4 h.data.length ++ le 8 h.stamp ++ h.record.octets ++ h.data

/-- The UDP datagram of R81 to port 51920 at ff02::1, from the Ethernet header on. The spec states no source address,
source port, hop limit, flow label or traffic class: they are free. -/
def surveyFrame (d : Dev) (payload : List Byte) : List Byte × Dev :=
  let iid := d.draw 64
  let sp := iid.2.draw 16
  let hl := sp.2.draw 8
  let fl := hl.2.draw 28
  let src := be 2 0xFE80 ++ be 6 0 ++ be 8 iid.1.toNat
  let dst := be 2 0xFF02 ++ be 12 0 ++ be 2 1
  let len := 8 + payload.length
  let udp := fun c => be 2 sp.1.toNat ++ be 2 51920 ++ be 2 len ++ be 2 c ++ payload
  let c := csum16 (src ++ dst ++ be 4 len ++ be 4 17 ++ udp 0)
  (be 6 0x333300000001 ++ be 6 fl.2.otp.baseMac.toNat ++ be 2 0x86DD ++ be 4 (0x60000000 + fl.1.toNat) ++ be 2 len ++
    be 1 17 ++ be 1 hl.1.toNat ++ src ++ dst ++ udp (if c = 0 then 65535 else c), fl.2)

/-- Deliver an air record to the destination of R79, R81 or R43: host ring 0, or in Stand-alone a datagram on ETH_0, by its TQ_0
(DESIGN CHOICE, log entry 145). -/
def deliverAir (d : Dev) (r : RxRecord) (data : List Byte) : Dev :=
  let h := d.airRecord r data
  if d.modes.control = .standAlone then
    let f := h.2.surveyFrame (h.2.hostPktOctets h.1)
    (f.2.offer 32 [.eth f.1 false 0] 0 false).1
  else (h.2.offer 72 [.host h.1] 0 false).1

/-- R163: a record other than RX_OK is delivered. -/
def deliversFailed (d : Dev) (p : Nat) : Bool :=
  d.modes.phase == .survey || (d.modes.control != .standAlone && bit d.cfg.RXLOG_CTL_DELIVER_FAILED p)

/-! ### The receive log (R156 to R161) -/

/-- A record and its octets leave the log. -/
def dropRecord (d : Dev) (p seq : Nat) : Dev :=
  d.modPort p (fun x => { x with
    rxlog := x.rxlog.del seq, rxData := x.rxData.del seq, rxT0 := x.rxT0.del seq, rxSync := x.rxSync.del seq
    decided := x.decided.filter (fun s => s != seq) })

/-- A reception that latched within an ack wait has ended (R209). -/
def endWaitFor (d : Dev) (p seq : Nat) : Dev :=
  d.each (List.range 16) (fun d c =>
    if d.carPort c = some p then
      d.modCarrier c (fun x => { x with
        own := { x.own with waitFor := x.own.waitFor.filter (fun s => s != seq) }
        hold := x.hold.map (fun h => { h with tx := { h.tx with waitFor := h.tx.waitFor.filter (fun s => s != seq) } }) })
    else d)

/-- The counter of an outcome (R166). -/
def outcomeCnt (l outcome : Nat) : Counter :=
  match outcome with
  | 0 => Cnt.RX_OK l
  | 1 => Cnt.BAD_FCS l
  | 2 => Cnt.BAD_PHR l
  | 3 => Cnt.PREEMPTED l
  | 4 => Cnt.BLANKED l
  | 5 => Cnt.RETUNED l
  | _ => Cnt.NO_BUFFER l

/-- Write the record of the frame a lane has latched (R156, R157, R160, R161). An RX_OK record stays in the log; a record of
another outcome leaves it at once, delivered or not (R163). With a full log only RXLOG_FULL advances, whatever the outcome
(DESIGN CHOICE, log entry 173). -/
def closeRx (d : Dev) (l outcome reason len : Nat) (psdu : List Byte) : Dev :=
  let x := (d.lane l).rx
  let r : RxRecord :=
    { syncTime := x.syncTime, epoch := x.epoch, seq := x.seq, phrLen := len, present := psdu.length, rssi := x.rssi
      snr := satSnr x.snr, lqi := lqiOf x.snr, foff := x.foff, flags := rxFlags x len psdu.length, lane := l
      mode := d.laneMode l, outcome := outcome, aux := 16 * x.gainIdx + reason }
  let d := d.modLane l (fun y => { y with
    rx := {}, nextE := none, lastRx := some (d.up, d.laneKhz l, spacingOf (d.laneMode l)) })
  if 4096 ≤ (d.port x.port).rxlog.length then
    (d.asFrame x.epoch (fun d => d.bump (Cnt.RXLOG_FULL x.port))).endWaitFor x.port x.seq
  else
    let d := d.asFrame x.epoch (fun d => d.bump (outcomeCnt l outcome))
    if outcome = 0 then
      (d.modPort x.port (fun y => { y with
        rxlog := y.rxlog.put x.seq r, rxData := y.rxData.put x.seq psdu, rxT0 := y.rxT0.put x.seq d.up
        rxSync := y.rxSync.put x.seq x.syncUp })).modLane l
        (fun y => { y with exch := true })
    else
      let d := d.endWaitFor x.port x.seq
      if d.deliversFailed x.port then d.deliverAir r psdu else d

/-- n octets that the spec leaves open. -/
def freeOctets (d : Dev) (n : Nat) : List Byte × Dev := (le n (d.draw (8 * n)).1.toNat, (d.draw (8 * n)).2)

/-- Abandon the frame of a lane with an outcome (R87, R132, R148): a frame in PREAMBLE leaves no record. The octets received
so far follow R619; their values are free. A frame abandoned before its PHR is decoded has an open PHR_LEN, and WHITENED 0 and
FCS_2 only on O-QPSK (DESIGN CHOICE, log entry 148); one without buffer space keeps the outcome of its abandonment, with no
octets (DESIGN CHOICE, log entry 149). -/
def abandon (d : Dev) (l outcome : Nat) : Dev :=
  let x := (d.lane l).rx
  match (d.lane l).st, modeOf (d.laneMode l) with
  | .header, _ =>
    let n := d.draw 11
    n.2.closeRx l outcome 0 n.1.toNat []
  | .payload, some m =>
    let free := d.drawTo x.len
    let n := if ¬ x.buffered then 0
      else match octetsIn m x.coded (d.up - x.syncUp) with
        | some k => min k x.len
        | none => free.1
    let o := free.2.freeOctets n
    o.2.closeRx l outcome 0 x.len o.1
  | _, _ => d.modLane l (fun y => { y with rx := {}, nextE := none })

/-! ### Transitions -/

/-- Where a lane that is not parked stands when it is not in frame: SEARCH while its port is in RX, else BLANKED. -/
def laneRest (d : Dev) (l : Nat) : LaneState :=
  match d.lanePort l with
  | some p => if (d.port p).st == .rx then .search else .blanked
  | none => .blanked

/-- Put a lane into SEARCH or BLANKED. -/
def restLane (d : Dev) (l : Nat) : Dev :=
  let s := d.laneRest l
  d.modLane l (fun x => { x with
    st := s, searched := x.searched || s == .search
    liveSince := if x.st == .parked || x.st == .blanked then d.up else x.liveSince })

/-- Evaluate the parking of a lane (R130, R142): a frame that parking ends is logged RX_RETUNED. A lane out of frame stands as
its port does, which may be another one than before. A lane parked for a configuration error that is also out of window shows
CFG_ERR alone (DESIGN CHOICE, log entry 172). -/
def evalLane (d : Dev) (l : Nat) : Dev :=
  let off := d.laneOff l
  let bad := d.laneBad l
  let out := d.laneOut l
  let dup := !(off || bad || out) && d.laneDup l
  let oow := !off && !bad && out
  let err := !off && (bad || dup)
  if off || bad || out || dup then
    (d.abandon l 5).modLane l (fun x => { x with st := .parked, outOfWindow := oow, cfgErr := err })
  else
    let d := d.modLane l (fun x => { x with outOfWindow := false, cfgErr := false })
    if (d.lane l).st.inFrame || (d.lane l).st == .close || (d.lane l).st == d.laneRest l then d else d.restLane l

/-- A lane keeps old settings without reason: its reception and its exchange have ended. -/
def laneFree (x : Lane) : Bool := x.held.isSome && !x.exch && !x.st.inFrame

/-- Evaluate every lane that is assigned, not parked, or marked as parked. Parking may end a reception, and with it the hold of
its lane's settings (R132), so that the lanes are evaluated again. -/
def evalTimes : Nat → Dev → Dev
  | 0, d => d
  | n + 1, d =>
    let d := d.each d.activeLanes (fun d l => d.evalLane l)
    let q := (d.lanes.filter (fun x => laneFree x.2)).map (fun x => x.1)
    if q.isEmpty then d else evalTimes n (d.each q (fun d l => d.modLane l (fun y => { y with held := none })))

def evalLanes (d : Dev) : Dev := evalTimes 192 d

/-- A lane whose reception and exchange have ended takes the settings in force (R64, R132). -/
def releaseLane (d : Dev) (l : Nat) : Dev :=
  if laneFree (d.lane l) then (d.modLane l (fun y => { y with held := none })).evalLanes else d

/-- The exchange of a received frame ends (R64). -/
def laneExchEnd (d : Dev) (l : Nat) : Dev := (d.modLane l (fun y => { y with exch := false })).releaseLane l

/-- Blank a lane (R87): a frame in HEADER or PAYLOAD is logged RX_BLANKED. -/
def blankLane (d : Dev) (l : Nat) : Dev :=
  if (d.lane l).st == .parked then d
  else ((d.abandon l 4).modLane l (fun x => { x with st := .blanked })).releaseLane l

/-- Blank the lanes of a port. -/
def blankPort (d : Dev) (p : Nat) : Dev := d.each (d.portLanes p) (fun d l => d.blankLane l)

/-- The port enters RX: its lanes search. -/
def searchPort (d : Dev) (p : Nat) : Dev :=
  d.each (d.portLanes p) (fun d l => if (d.lane l).st == .blanked then d.restLane l else d)

/-- CAPTURE_MARGIN in 0.25 dB: values 0 to 2 act as 3 dB. -/
def captureMargin (d : Dev) (l : Nat) : Int := ((4 * max 3 (bits (d.laneWord l) 27 24) : Nat) : Int)

/-- The last symbol of a lane's frame has passed, and its record is not yet written (R145). -/
def frameEnded (d : Dev) (l : Nat) : Bool :=
  let x := d.lane l
  x.st == .payload && (match modeOf (d.laneMode l) with
    | some m => lastPassed m x.rx.coded x.rx.len (d.up - x.rx.syncUp)
    | none => false)

/-- A lane's correlator detects a preamble of strength e (R142, R146 to R149); at the end of a frame's last symbol the frame
completes first and the preamble starts afresh (R145). -/
def detect (d : Dev) (l : Nat) (e : Int) : Dev :=
  let x := d.lane l
  if x.st == .search then
    (d.modLane l (fun y => { y with st := .preamble, rx := { eRef := e } })).bump (Cnt.PREAMBLE_DET l)
  else if d.frameEnded l then d.modLane l (fun y => { y with nextE := some e })
  else if x.st.inFrame then
    if bit (d.laneWord l) 30 ∧ d.captureMargin l ≤ e - x.rx.eRef then
      let d := if x.st == .preamble then d.bump (Cnt.PRESYNC_PREEMPT l) else d.abandon l 3
      d.modLane l (fun y => { y with st := .preamble, rx := { eRef := e, captured := true, capUp := some d.up } })
    else d.bump (Cnt.CAPTURE_MISSED l)
  else d

/-- A lane's channel makes the CCAs that overlap it busy (R196). -/
def markBusy (d : Dev) (p khz spacing : Nat) : Dev :=
  d.each (List.range 16) (fun d c =>
    if d.carPort c = some p ∧ bandsOverlap khz spacing (d.carKhz c) (spacingOf (d.carMode c)) = true then
      d.modCarrier c (fun x => { x with own := { x.own with busy := true } })
    else d)

/-- Every CCA of a port is busy: the port is not in RX (R196). -/
def markAllBusy (d : Dev) (p : Nat) : Dev :=
  d.each (List.range 16) (fun d c =>
    if d.carPort c = some p then d.modCarrier c (fun x => { x with own := { x.own with busy := true } }) else d)

/-- The sync word that a lane receives matches (R142, R143, R151 to R154, R161): RSSI, SNR, epoch (R20) and SEQ are latched, and
SYNC_TIME, the instant of the match less the fixed receive delay (R469; DEDUCED, log entry 60). The SNR of the record is this one (R160), whatever the PHR adds to the estimate of R153 (DESIGN CHOICE, log
entry 150). -/
def syncMatch (d : Dev) (l word : Nat) (rssi snr foff : Int) : Dev :=
  match (d.lane l).st, modeOf (d.laneMode l), d.lanePort l with
  | .preamble, some m, some p =>
    match syncKind m.family (bits (d.laneWord l) 13 13) word with
    | none => d
    | some coded =>
      let q := d.port p
      let rx : RxFrame := { (d.lane l).rx with
        latched := true, eRef := rssi, rssi := clampI (-32768) 32767 rssi, snr := snr, foff := clampI (-32768) 32767 foff
        syncTime := ((d.now : Int) - ((rxDelayNs m : Nat) : Int) - sext 16 (d.cfg.TS_RF_ADJ_RX_NS p)).toNat, syncUp := d.up, epoch := d.epoch.numDsp
        seq := q.nextSeq, port := p, gainIdx := q.agcIndex, tempDue := q.tempDue
        coded := coded, fcs2 := m.family == .oqpsk }
      ((d.modPort p (fun y => { y with nextSeq := (y.nextSeq + 1) % 65536 })).modLane l
        (fun y => { y with st := .header, rx := rx })).markBusy p (d.laneKhz l) m.spacing
  | _, _, _ => d

/-- The sync timeout ends a preamble (R142, R144), but not at the symbol of a capture, which goes before it (R145). -/
def syncTimeout (d : Dev) (l : Nat) : Dev :=
  if (d.lane l).st == .preamble && (d.lane l).rx.capUp != some d.up then
    (((d.modLane l (fun y => { y with rx := {} })).restLane l).bump (Cnt.SYNC_TIMEOUT l)).releaseLane l
  else d

/-- The PHR is complete, phrBits after the sync word (R139, R140, R142, R162, R619). A PHR that fails shows FCS_2 only on
O-QPSK, and WHITENED 0 (DESIGN CHOICE, log entry 148). -/
def phrCheck (d : Dev) (l phr : Nat) : Dev :=
  match (d.lane l).st, modeOf (d.laneMode l) with
  | .header, some m =>
    let h := phrOf m phr
    let room := d.bufRoom h.len
    if h.reason ≠ 0 then ((d.closeRx l 2 h.reason 0 []).restLane l).releaseLane l
    else d.modLane l (fun y => { y with st := .payload, rx := { y.rx with
        fcs2 := h.fcs2, whitened := h.whitened, len := h.len, buffered := room } })
  | _, _ => d

/-- The last PSDU symbol passes (R142): the lane takes the octets as decoded, undoes the whitening that the PHR selects (R135,
R137), checks the FCS and writes the record; a preamble that came at that symbol starts a reception (R145). -/
def psduEnd (d : Dev) (l : Nat) (psdu : List Byte) : Dev :=
  if (d.lane l).st == .payload then
    let x := (d.lane l).rx
    let o := whiten x.whitened (slice psdu 0 x.len)
    let again := (d.lane l).nextE
    let d := d.modLane l (fun y => { y with st := .close, nextE := none })
    let d := if ¬ x.buffered then d.closeRx l 6 0 x.len []
      else d.closeRx l (if fcsOk x.fcs2 o then 0 else 1) 0 x.len o
    let d := (d.restLane l).releaseLane l
    match again, (d.lane l).st with
    | some e, .search => d.detect l e
    | _, _ => d
  else d

/-- Keep the settings of a lane in an exchange through a change (R64, R132). -/
def holdLane (d : Dev) (l : Nat) : Dev :=
  let x := d.lane l
  if (x.exch || x.st.inFrame) && x.held.isNone then
    d.modLane l (fun y => { y with held := some ⟨d.lanePort l, d.laneWord l, d.laneKhz l, d.laneMode l⟩ })
  else d

/-- The noise that a lane publishes at the strobe (R155). -/
def latchNoise (d : Dev) (l : Nat) : Dev :=
  d.modLane l (fun x => { x with
    noise := if x.searched then (Config.laneNoise l d.epoch.numDsp).toNat else 0x8000
    searched := x.st == .search })

end Dev

end Sys2Proof.Machine
end

