-- ==== Sys2Proof/Machine/Radio.lean ====
section
/-! DEFINITION. Radio ports (R83 to R115): states and the FEM lines that follow them, calibration, FEM SPI, coexistence
lines, the AGC, and the instructions that change a port's state (R247 to R249, R260). -/

namespace Sys2Proof.Machine

/-- The largest on-request duration of a calibration in µs (R90). -/
def calMaxUs : Nat → Nat
  | 0 => 400 | 1 => 200 | 2 => 2000 | 3 => 3000 | 4 => 1000 | 5 => 1500 | 6 => 800 | _ => 0

/-- The calibrations that a SEL names, lowest bit first (R90). -/
def selBits (sel : Nat) : List Nat := (List.range 7).filter (fun i => bit sel i)

/-- The sum of the on-request maxima of a SEL. -/
def selUs (sel : Nat) : Nat := (selBits sel).foldl (fun n i => n + calMaxUs i) 0

/-- A set of calibrations as SEL bits. -/
def bitsOf (l : List Nat) : Nat := l.foldl (fun n i => n ||| 2 ^ i) 0

namespace Dev

/-! ### FEM lines and state changes -/

/-- The RX or RX_BYPASS map for the gain index (R108). -/
def rxMap (d : Dev) (p : Nat) : Nat :=
  if (d.port p).agcIndex ≤ 2 then d.cfg.FEM_MAP_HI_RX_BYPASS p else d.cfg.FEM_MAP_LO_RX p

/-- The map of the FEM state that a port state gives (R97, R89), and within a transmission its step of R99. -/
def femMap (d : Dev) (p : Nat) : Nat :=
  let x := d.port p
  if ¬ d.pair.gateOpen then d.cfg.FEM_MAP_LO_STBY p
  else match x.st with
    | .off => d.cfg.FEM_MAP_LO_OFF p
    | .stby => d.cfg.FEM_MAP_LO_STBY p
    | .idle => d.cfg.FEM_MAP_LO_IDLE p
    | .retune => d.cfg.FEM_MAP_LO_IDLE p
    | .rx => d.rxMap p
    | .tx => if x.step == .returning then (if x.femLead then d.rxMap p else d.cfg.FEM_MAP_LO_IDLE p) else d.cfg.FEM_MAP_HI_TX p
    | .txpre =>
      if x.step == .returning then (if x.femLead then d.rxMap p else d.cfg.FEM_MAP_LO_IDLE p)
      else if x.femLead then d.cfg.FEM_MAP_HI_TX p else d.cfg.FEM_MAP_HI_TXPRE p
    | .cal => d.cfg.FEM_MAP_HI_CAL p

/-- The lines and the driver follow the port's state and the transmit gate (R89, R97). -/
def refreshFem (d : Dev) (p : Nat) : Dev :=
  let m := BitVec.ofNat 8 (d.femMap p)
  let g := d.pair.gateOpen
  d.modPort p (fun x => { x with
    femLines := m, driver := g && (x.st == .tx || x.st == .txpre) && x.step != .returning })

/-- Converter samples of 8.138 ns as ns (R99). -/
def sampleNs (n : Nat) : Nat := n * 1000000 / 122880

/-- The elapsed instant at which the lines take the map of the next step of R99: TX_LEAD before S + 40 µs, or RX_LEAD before
E + 24 µs. -/
def leadAt (d : Dev) (p : Nat) (st : PortState) (step : PortStep) : Option Nat :=
  if step == .returning then some (d.up + 24000 - sampleNs (d.cfg.FEM_TIMING_RX_LEAD p))
  else if st == .txpre then some (d.up + 40000 - sampleNs (d.cfg.FEM_TIMING_TX_LEAD p))
  else none

/-- Time has moved: a port whose lead has begun takes its next map (R99 steps 2 and 5). -/
def femLeads (d : Dev) : Dev :=
  d.each [0, 1, 2, 3] (fun d p => match (d.port p).femLeadAt with
    | some t =>
      if t ≤ d.up then (d.modPort p (fun x => { x with femLead := true, femLeadAt := none })).refreshFem p else d
    | none => d)

/-- A port enters a state (R85, R87, R114): lanes blank on leaving RX and search on entering it. -/
def setSt (d : Dev) (p : Nat) (st : PortState) (step : PortStep := .none) : Dev :=
  let old := (d.port p).st
  let d := d.modPort p (fun x => { x with
    st := st, step := step
    locked := match st with
      | .off | .stby | .retune => false
      | .cal => x.locked
      | _ => true
    femLead := false, femLeadAt := d.leadAt p st step
    agcHeld := st == .tx || st == .txpre })
  let d := if old == .rx && st != .rx then (d.blankPort p).markAllBusy p
    else if old != .rx && st == .rx then (d.modPort p (fun x => { x with rxSince := d.up })).searchPort p else d
  d.refreshFem p

/-! ### Calibration -/

/-- Begin a calibration run (R90). -/
def startCal (d : Dev) (p : Nat) (left : List Nat) (startup : Bool) (host : Option Cmd) : Dev :=
  (d.modPort p (fun x => { x with cal := some ⟨left, false, 0, startup, host⟩ })).setSt p .cal

/-- A port that ENABLE keeps on leaves STBY (R86, R547): with coefficients its synthesiser locks, by the step given and one
that runs goes on; otherwise it runs the start-up calibration. -/
def portStart (d : Dev) (p : Nat) (how : PortStep) : Dev :=
  let x := d.port p
  if x.st ≠ .stby ∨ x.fault ∨ x.calHold ∨ ¬ d.pair.gateOpen ∨ d.cfg.RF_CTL_ENABLE p = 0 then d
  else if x.coeffs then d.modPort p (fun y => { y with step := if y.step == .none then how else y.step })
  else d.startCal p [0, 1, 2, 3, 4, 5, 6] true none

/-! ### Instructions that change the port's state -/

/-- RETUNE from RX (R247): the centre already in force causes no change. -/
def retuneTo (d : Dev) (p khz : Nat) : Dev :=
  if (d.port p).centre = khz then d
  else (d.modPort p (fun x => { x with target := khz })).setSt p .retune

/-- CAL from RX or IDLE (R248, R93). -/
def seqCal (d : Dev) (p window sel : Nat) : Dev :=
  let extra : List Nat := if (d.port p).tempDue ∧ selUs sel + 3800 ≤ window then [3, 6] else []
  let run := selBits sel ++ extra
  if run.isEmpty then d else d.startCal p run false none

/-- A deferred instruction runs from the instant at which the port is in RX (R260). -/
def runDeferred (d : Dev) (p : Nat) : SeqDeferred → Dev
  | .rx => d
  | .retune home khz => d.retuneTo p (if home then (d.port p).home else khz)
  | .cal window sel => d.seqCal p window sel

/-- The port enters RX: a pending centre (R260) and then the deferred instructions run. -/
def enterRx (d : Dev) (p : Nat) : Dev :=
  let d := d.setSt p .rx
  let d := match (d.port p).pendCentre with
    | some k => if (d.port p).centre = k then d.modPort p (fun x => { x with pendCentre := none }) else d.retuneTo p k
    | none => d
  let q := (d.port p).deferred
  q.foldl (fun (d : Dev) i =>
    if (d.port p).st == .rx then d.runDeferred p i
    else d.modPort p (fun x => { x with deferred := x.deferred ++ [i] }))
    (d.modPort p (fun x => { x with deferred := [] }))

/-- The synthesiser locks (R86, R247): an enabled port goes from STBY to IDLE, and on to RX where its gate has opened again
(R547). -/
def synthLock (d : Dev) (p : Nat) : Dev :=
  let x := d.port p
  match x.st with
  | .stby =>
    if ¬ d.pair.gateOpen ∨ d.cfg.RF_CTL_ENABLE p = 0 then d
    else match x.step with
      | .reopening => (d.setSt p .idle).enterRx p
      | .locking => d.setSt p .idle
      | _ => d
  | .retune =>
    let d := d.modPort p (fun y => { y with
      centre := y.target, pendCentre := if y.pendCentre = some y.target then none else y.pendCentre })
    (d.evalLanes).enterRx p
  | _ => d

/-- A calibration run ends (R92): `miss1` and `miss2` are the calibrations that miss their target at the first and at the
second attempt, by SEL bit. -/
def calDone (d : Dev) (p : Nat) (miss1 miss2 : Nat) (temp : Int) : Dev :=
  match (d.port p).st, (d.port p).cal with
  | .cal, some r =>
    let failed := r.left.filter (fun i => bit miss1 i && bit miss2 i)
    let passed := r.left.filter (fun i => !(bit miss1 i && bit miss2 i))
    let d := (d.modPort p (fun x => { x with
      cal := none
      calFail := !failed.isEmpty
      calFailed := bitsOf failed
      calDone := x.calDone ||| bitsOf passed
      coeffs := if r.startup then failed.isEmpty else x.coeffs
      calTempC := if passed.contains 3 then temp else x.calTempC
      calTxTempC := if passed.contains 6 then temp else x.calTxTempC
      tempC := if passed.contains 3 then temp else x.tempC
      tempDue := x.tempDue && !(passed.contains 3 && passed.contains 6)
      calHold := r.startup && !failed.isEmpty })).bump (Cnt.CAL_RUNS p)
    let d := failed.foldl (fun (d : Dev) i => d.raise .EVT_CAL_FAIL (le 1 p ++ le 1 i)) d
    if r.startup then (if failed.isEmpty then d.setSt p .idle else d.setSt p .stby)
    else
      let d := d.enterRx p
      match r.host with
      | some c => d.complete c .ST_OK
      | none => d
  | _, _ => d

/-- A temperature lies 10 °C or more from that of a calibration that has run (R93). -/
def tempFar (x : Port) (sel : Nat) (temp at_ : Int) : Bool := bit x.calDone sel && decide (10 ≤ (temp - at_).natAbs)

/-- The per-epoch temperature measurement of a port (R93), in °C, against the last RX_GAIN and the last TX_GAIN
calibration. -/
def tempMeasure (d : Dev) (p : Nat) (temp : Int) : Dev :=
  let x := d.port p
  let due := tempFar x 3 temp x.calTempC || tempFar x 6 temp x.calTxTempC
  let d := d.modPort p (fun y => { y with tempC := temp, tempDue := y.tempDue || due })
  if due && !x.tempDue then d.raise .EVT_CAL_DUE (le 1 p) else d

/-! ### FEM SPI (R100 to R102) -/

/-- Bits of a write, WLEN, and of an address phase, RADDR16 (R100, R102). -/
def spiBits (d : Dev) (p : Nat) : Nat := match d.cfg.FEM_SPI_CTL_WLEN p with | 0 => 16 | 1 => 24 | _ => 32
def spiAddrBits (d : Dev) (p : Nat) : Nat := if d.cfg.FEM_SPI_CTL_RADDR16 p = 1 then 16 else 8

/-- The address that a write carries: its leading bits, as many as an address phase has (DEDUCED, log entry 146). -/
def spiWriteAddr (d : Dev) (p : Nat) (w : Nat) : Nat := (w % 2 ^ d.spiBits p) / 2 ^ (d.spiBits p - d.spiAddrBits p)

/-- What the device drives on SDIO, most significant bit first (R100): whether it is a read, and the octets of the write or of
the address phase. -/
def spiShift (d : Dev) (p : Nat) (read : Bool) (w : Nat) : Dev :=
  d.emit .spi p (le 1 (ofBool read) ++ be ((if read then d.spiAddrBits p else d.spiBits p) / 8) w)

/-- Begin a transaction: chip select falls. A write under VERIFY is followed by a read of its address (R102). -/
def spiBegin (d : Dev) (p : Nat) (t : SpiTxn) : Dev :=
  let d := (d.modPort p (fun x => { x with spi := some t })).spiShift p t.read t.word.toNat
  if ¬ t.read ∧ d.cfg.FEM_SPI_CTL_VERIFY p = 1 then d.spiShift p true (d.spiWriteAddr p t.word.toNat) else d

/-- The next waiting transaction starts when one ends, the sequencer's before the host's (R101, R251). -/
def spiNext (d : Dev) (p : Nat) : Dev :=
  match (d.port p).spiWait, (d.port p).spiHost with
  | w :: l, _ => (d.modPort p (fun x => { x with spiWait := l })).spiBegin p ⟨w, false, none, 0⟩
  | [], t :: l => (d.modPort p (fun x => { x with spiHost := l })).spiBegin p t
  | [], [] => d

/-- A transaction begins, or waits behind the one that runs. -/
def spiHostBegin (d : Dev) (p : Nat) (t : SpiTxn) : Dev :=
  match (d.port p).spi with
  | some _ => d.modPort p (fun x => { x with spiHost := x.spiHost ++ [t] })
  | none => d.spiBegin p t

/-- CMD_FEM_SPI (R101, R91). -/
def femSpi (d : Dev) (h : Hdr) (p : List Byte) (read : Bool) : Dev :=
  let c : Cmd := ⟨h, .CMD_FEM_SPI, ofBool read, p⟩
  d.command c (fun d =>
    let q := fld p 0 1
    if 3 < q ∨ fld p 1 1 ≠ ofBool read ∨ zeros p 2 2 = false ∨ zeros p 8 56 = false then d.complete c .ST_BAD_PARAM
    else if (d.port q).st = .cal then d.complete c .ST_CAL_BUSY
    else if ((d.port q).st = .off ∨ (d.port q).st = .stby ∨ (d.port q).st = .idle) ∧ (d.port q).spiWait.isEmpty = true then
      (d.holdCmd c).spiHostBegin q ⟨BitVec.ofNat 32 (fld p 4 4), read, some c, 0⟩
    else d.complete c .ST_PORT_BUSY)

/-- The SPI instruction (R251). -/
def seqSpi (d : Dev) (p : Nat) (word : W32) : Dev :=
  match (d.port p).spi with
  | some _ => (d.modPort p (fun x => { x with spiWait := x.spiWait ++ [word] })).bump (Cnt.SPI_WAIT p)
  | none => d.spiBegin p ⟨word, false, none, 0⟩

/-! ### Coexistence lines (R103, R104, R107) -/

/-- COEX_x_REQ as driven. -/
def reqPin (d : Dev) (p : Nat) : Bool := (d.port p).req || (d.port p).rxp

/-- The PRI_MASK bit of a frame (R104). -/
def priBit : TxKind → Nat
  | .beacon => 0 | .ack => 1 | .enhAck => 1 | .assoc => 2 | _ => 3

/-- The frame's class drives PRI (R104). -/
def priOf (d : Dev) (p : Nat) (k : TxKind) : Bool := bit (d.cfg.COEX_CTL_PRI_MASK p) (priBit k)

/-- REQ rises, with PRI for the frames in progress (R103). -/
def coexRaise (d : Dev) (p : Nat) (pri : Bool) : Dev :=
  if d.cfg.COEX_CTL_EN p = 1 then d.modPort p (fun x => { x with req := true, pri := pri }) else d

/-- REQ and PRI fall (R103). -/
def coexFall (d : Dev) (p : Nat) : Dev := d.modPort p (fun x => { x with req := false, pri := false })

/-! ### AGC (R108 to R114) -/

/-- The index range in use. -/
def agcMax (d : Dev) (p : Nat) : Nat := d.cfg.AGC_CTL_MAX_INDEX p
def agcMin (d : Dev) (p : Nat) : Nat := min (d.cfg.AGC_CTL_MIN_INDEX p) (d.cfg.AGC_CTL_MAX_INDEX p)

/-- HI_THRESH as it acts: a value not below LO_THRESH acts as LO_THRESH - 4. -/
def agcHi (d : Dev) (p : Nat) : Nat :=
  if d.cfg.AGC_CTL_HI_THRESH p < d.cfg.AGC_CTL_LO_THRESH p then d.cfg.AGC_CTL_HI_THRESH p
  else d.cfg.AGC_CTL_LO_THRESH p - 4

/-- The index moves; the FEM map follows it (R108). -/
def setIndex (d : Dev) (p i : Nat) : Dev := (d.modPort p (fun x => { x with agcIndex := i })).refreshFem p

/-- The AGC may not step: the port is not in RX, the index is held (R114), or a lane is in frame (R109). -/
def agcStill (d : Dev) (p : Nat) : Bool :=
  (d.port p).st != .rx || (d.port p).agcHeld || d.cfg.AGC_CTL_FREEZE p == 1 || d.anyInFrame p

/-- An index outside a new range is moved into it, uncounted, as soon as the AGC may step (DESIGN CHOICE, log entry 140). -/
def agcClamp (d : Dev) (p : Nat) : Dev :=
  if d.agcStill p then d else d.setIndex p (clampN (d.agcMin p) (d.agcMax p) (d.port p).agcIndex)

/-- A step of R109, with the composite RMS and the peak in dB below full scale. -/
def agcStep (d : Dev) (p rms peak : Nat) : Dev :=
  let d := d.modPort p (fun x => { x with agcPeak := peak })
  let d := d.agcClamp p
  let x := d.port p
  if d.agcStill p then d
  else if rms < d.agcHi p then
    (if d.agcMin p < x.agcIndex then (d.setIndex p (x.agcIndex - 1)).bump (Cnt.AGC_STEPS p) else d)
  else if d.cfg.AGC_CTL_LO_THRESH p < rms then
    (if x.agcIndex < d.agcMax p then (d.setIndex p (x.agcIndex + 1)).bump (Cnt.AGC_STEPS p) else d)
  else d

/-- A forced step (R110, R112): two indices down, marking the frames that lanes of the port receive. One index above
MIN_INDEX it moves one, and at MIN_INDEX none is made or counted (DESIGN CHOICE, log entry 141). -/
def agcForced (d : Dev) (p peak : Nat) : Dev :=
  let d := d.modPort p (fun x => { x with agcPeak := peak })
  let x := d.port p
  if x.st ≠ .rx ∨ x.agcHeld ∨ x.agcIndex ≤ d.agcMin p then d
  else
    let d := (d.setIndex p (max (d.agcMin p) (x.agcIndex - 2))).bump (Cnt.AGC_FORCED_STEPS p)
    d.each (d.portLanes p) (fun d l =>
      if (d.lane l).st.inFrame then
        d.modLane l (fun y => { y with rx := { y.rx with gainStepped := true, forcedStep := true } })
      else d)

/-! ### The next instruction of a port (R246) -/

/-- Words of the active or staged bank of a sequencer, by index. -/
def bankWords (d : Dev) (s : Nat) (staged : Bool) : List (Nat × Nat) :=
  (if staged then (d.seq s).staged else (d.seq s).act).map (fun x => (x.1, x.2.toNat))

/-- A sequencer's program as its bank holds it, from index 0 to its END. -/
def bankProg (d : Dev) (s : Nat) (staged : Bool) : List Nat :=
  let m := if staged then (d.seq s).staged else (d.seq s).act
  (List.range (m.foldl (fun n x => max n (x.1 + 1)) 0)).map (fun i => (m.get 0 i).toNat)

/-- The instruction word of an opcode, a tick and operands (R234). -/
def seqWord (op tick args : Nat) : Nat := op * 2 ^ 56 + tick * 2 ^ 32 + args

/-- Opcode and fire tick of an instruction word (R234). -/
def seqOpc (w : Nat) : Nat := bits w 63 56
def seqTick (w : Nat) : Nat := bits w 55 32

/-- An instruction is port-bound: RETUNE, CAL, TX, BCN, or LFREQ or LMODE on a lane of the port (R246); `lanes` gives the
lanes their ports. -/
def portBound (p : Nat) (lanes : Nat → Option Nat) (w : Nat) : Bool :=
  [0x11, 0x12, 0x30, 0x32].contains (seqOpc w) ||
    ([0x20, 0x21].contains (seqOpc w) && decide (lanes (bits w 31 24) = some p))

/-- An instruction uses the port: it is none of NOP, END, COND, RXP and SPI. -/
def usesPort (_ : Nat → Option Nat) (w : Nat) : Bool := !([0x00, 0x01, 0x02, 0x40, 0x41] : List Nat).contains (seqOpc w)

/-- The least of a list. -/
def least : List Nat → Option Nat
  | [] => none
  | a :: l => match least l with
    | none => some a
    | some b => some (min a b)

/-- The instruction at an index may still issue in this epoch: it is not behind the sequencer, nor in the sequence that a
COND has not chosen, nor cut. -/
def stillIssues (q : Seq) (i tick : Nat) : Bool :=
  decide (q.pc ≤ i) && !(q.condA && decide (0 < q.condLeft ∧ q.pc + q.condLeft ≤ i ∧ i < q.pc + q.condLeft + q.condN)) &&
    (match q.cut with | some k => decide (tick < k) | none => true)

/-- The port of a lane in the next epoch (R128, R282): by the settings past their freeze, the plan of a commit that is due,
and the registers in force. -/
def nextLanePort (d : Dev) (commit : Bool) (l : Nat) : Option Nat :=
  let plan := fun (g : Nat) => match d.stg.frozenRegs.find (Reg.LG_CFG g), commit, d.vat.staged with
    | some w, _, _ => bits w.toNat 2 0
    | none, true, some v => v.groups.getD g 0xFF
    | none, _, _ => d.cfg.LG_CFG_PORT g
  let p := plan (l / 8)
  if p < 4 ∧ (((List.range 24).filter (fun g => plan g == p)).take 12).contains (l / 8) = true then some p else none

/-- The effect time, on the device time scale in ns, of the next instruction of a port that bounds a frame outside slots
and windows (R246): in the rest of the epoch, or after the freeze in the next, where a home retune (R257) comes first.
While both sequences of a block may still be chosen, the earlier bounds. -/
def nextUse (d : Dev) (p : Nat) (counts : (Nat → Option Nat) → Nat → Bool) : Option Nat :=
  let q := d.seq p
  let here := if q.stopped then none else
    least (((d.bankWords p false).filter (fun x => counts d.lanePort x.2 && stillIssues q x.1 (seqTick x.2))).map
      (fun x => seqTick x.2))
  match here with
  | some t => some (d.epoch.start + t * 1000 + 40)
  | none =>
    if ¬ d.epoch.frozen then none
    else
      let commit := d.stg.cmds.any (fun x => x.cmd.op == .CMD_COMMIT && x.frozen)
      let home := match commit, d.vat.staged with
        | true, some v => (v.homes.get (0, 0) p).1
        | _, _ => (d.port p).home
      if (d.port p).centre ≠ home then some (d.epoch.nextB + 40)
      else (least (((d.bankWords p commit).filter (fun x => counts (d.nextLanePort commit) x.2)).map (fun x => seqTick x.2))).map
        (fun t => d.epoch.nextB + t * 1000 + 40)

/-- A use of the port that lasts `us` from now, with `tail` µs of return, ends before the bound. -/
def fitsBound (d : Dev) (p : Nat) (counts : (Nat → Option Nat) → Nat → Bool) (endNs : Nat) : Bool :=
  match d.nextUse p counts with
  | some t => decide (endNs ≤ t)
  | none => true

end Dev

/-! ### Meanings -/

/-- PORT_TEMP_MEASURE (R93). -/
def execPortTempMeasure (p : Fin 4) (temp : Int) (s : State) : Host.Outcome State Fault Refusal :=
  s.run (fun d => d.tempMeasure p.val temp)

/-- PORT_POWER_UP (R86): an enabled port completes OFF to STBY and goes on; every port stays off until the control-mode
decision (R42). -/
def execPortPowerUp (p : Fin 4) (s : State) : Host.Outcome State Fault Refusal :=
  s.run (fun d =>
    if (d.port p.val).st = .off ∧ d.cfg.RF_CTL_ENABLE p.val = 1 ∧ d.runs ∧ d.modes.decided then
      (d.setSt p.val .stby).portStart p.val .locking
    else d)

/-- PORT_POWER_DOWN (R86): STBY to OFF with ENABLE at 0; the coefficients are lost. -/
def execPortPowerDown (p : Fin 4) (s : State) : Host.Outcome State Fault Refusal :=
  s.run (fun d =>
    if (d.port p.val).st = .stby ∧ (d.cfg.RF_CTL_ENABLE p.val = 0 ∨ ¬ d.runs) then
      (d.modPort p.val (fun x => { x with coeffs := false, calDone := 0 })).setSt p.val .off
    else d)

/-- AGC_STEP (R109). -/
def execAgcStep (p : Fin 4) (rms peak : Byte) (s : State) : Host.Outcome State Fault Refusal :=
  s.run (fun d => d.agcStep p.val rms.toNat peak.toNat)

/-- AGC_FORCED_STEP (R110). -/
def execAgcForcedStep (p : Fin 4) (peak : Byte) (s : State) : Host.Outcome State Fault Refusal :=
  s.run (fun d => d.agcForced p.val peak.toNat)

/-- CMD_FEM_SPI, OP 0 (R101). -/
def execCmdFemSpiWrite (h : Hdr) (p : List Byte) (s : State) : Host.Outcome State Fault Refusal :=
  s.run (fun d => d.femSpi h p false)

/-- CMD_FEM_SPI, OP 1 (R101). -/
def execCmdFemSpiRead (h : Hdr) (p : List Byte) (s : State) : Host.Outcome State Fault Refusal :=
  s.run (fun d => d.femSpi h p true)

end Sys2Proof.Machine
end

