-- ==== Sys2Proof/Machine/Time.lean ====
section
/-! DEFINITION. Network time (R452 to R477): the scale, sources and servo, jumps, holdover and re-step, PTP messages, PPS
and ToD, stamps to the event ring. -/

namespace Sys2Proof.Machine

/-- |x| of an integer. -/
def absI (x : Int) : Nat := x.natAbs

namespace Dev

/-! ### The grid (R56, R258) -/

/-- The first grid instant at least 64 ms after now (R56). -/
def gridAfter (d : Dev) : Nat :=
  let x : Int := (d.time.ns : Int) + 64000000
  let l : Int := ((d.epoch.lenMs * 1000000 : Nat) : Int)
  (x + (((d.epoch.origin : Int) - x) % l)).toNat

/-- The first grid instant after the epoch's start (R56, a grid that has not changed). -/
def gridNext (d : Dev) : Nat :=
  let x : Int := (d.epoch.start : Int) + 1
  let l : Int := ((d.epoch.lenMs * 1000000 : Nat) : Int)
  (x + (((d.epoch.origin : Int) - x) % l)).toNat

/-- The grid changes (R56): the epoch in progress gets its new end, and where that shortens it every sequencer gets its cut
tick, the tick of that end minus 2,000 us; a longer epoch has no cut (R258). `oldLen` is the length in force before. -/
def regrid (d : Dev) (oldLen : Nat) : Dev :=
  let b := d.gridAfter
  let d := { d with epoch := { d.epoch with nextB := b, frozen := false, gridOld := some oldLen } }
  let shorter : Bool := decide (b < d.epoch.start + d.epoch.lenMs * 1000000)
  d.each [0, 1, 2, 3] (fun d s => d.modSeq s (fun x =>
    { x with cut := if shorter then some ((b - d.epoch.start) / 1000 - 2000) else none }))

/-- What one clock adds to the device time scale, in units of 2^-32 ns: 4 ns × (1 + r), r in units of 0.001 ppb (R453). -/
def clockStep (r : Int) : Nat := ((4 * 2 ^ 32 : Int) + 4 * 2 ^ 32 * r / 10 ^ 12).toNat

/-- Time reaches an instant of the device time scale, where it lies ahead: so many clocks have run as the rate in force needs
for it (R453). -/
def advanceTo (d : Dev) (t : Nat) : Dev :=
  let n := t - d.now
  let k := ceilDiv (n * 2 ^ 32) (clockStep d.time.rate)
  { d with time := { d.time with ns := d.time.ns + n, up := d.time.up + 4 * k, cycles := d.time.cycles + k } }

/-- The step of the time scale (R57), a count of 64 bits (R453): what is kept as an instant on the scale moves with it. -/
def stepScale (d : Dev) (step : Int) : Dev :=
  let mv := fun (t : Nat) => (((t : Int) + step) % 2 ^ 64).toNat
  let d := { d with
    time := { d.time with ns := mv d.time.ns }
    epoch := { d.epoch with start := mv d.epoch.start } }
  d.each [0, 1, 2, 3] (fun d e => d.modEth e (fun x => { x with
    busyUntil := mv x.busyUntil, wakeUntil := mv x.wakeUntil
    gatesNext := x.gatesNext.map (fun g => (g.1, mv g.2))
    wire := x.wire.map (fun w => { w with ends := mv w.ends }) }))

/-- What was stamped before first acquisition stays on the earlier scale (R454), and pairs with nothing after it. -/
def dropStamped (d : Dev) : Dev :=
  let d := { d with time := { d.time with
    meas := [], ptpIn := [], syncT := none, syncWait := none, reqT := [], reqSeq := [], pdResp := none } }
  d.each [0, 1, 2, 3] (fun d e => d.modEth e (fun x => { x with
    wire := match x.wire with
      | some w => (match w.ptp with
        | some m => if m.type = 1 ∨ m.type = 2 then none else some w
        | none => some w)
      | none => none }))

/-! ### Sources (R455) -/

/-- Code of the source of a measurement. -/
def measSource : Meas → Nat
  | .ptp _ _ => 0
  | .pps _ _ => 1
  | .mesh _ _ _ => 2

/-- It carries whole seconds (R456). -/
def measSecs : Meas → Bool
  | .pps _ s => s.isSome
  | _ => true

/-- Rank of a source: its place in PRIO_0 to PRIO_3, 4 where none names it. -/
def rankOf (d : Dev) (s : Nat) : Nat :=
  let c := d.cfg
  if c.TIME_SRC_PRIO_0 = s then 0 else if c.TIME_SRC_PRIO_1 = s then 1 else if c.TIME_SRC_PRIO_2 = s then 2
  else if c.TIME_SRC_PRIO_3 = s then 3 else 4

/-- The order of TIME_SRC lets a source be used: it names the source ahead of free-running, which is always available. -/
def sourceUsed (d : Dev) (s : Nat) : Bool := decide (d.rankOf s < d.rankOf 3)

/-- LOSS_MS in ns; 0 acts as 1 ms. -/
def lossNs (d : Dev) : Nat := max 1 d.cfg.TIME_HOLD_LOSS_MS * 1000000

/-- A source other than free-running has given a valid measurement within LOSS_MS. -/
def sourceSeen (d : Dev) (s : Nat) : Bool :=
  match d.time.lastValid.find s with
  | some t => decide (d.up < t + d.lossNs)
  | none => false

/-- STEP_THRESH, lower values acting as 100; SLEW_PPM, 1 to 100, in 0.001 ppb. -/
def stepThresh (d : Dev) : Nat := max 100 d.cfg.TIME_SERVO_STEP_THRESH
def slewLimit (d : Dev) : Int := ((clampN 1 100 d.cfg.TIME_SERVO_SLEW_PPM * 1000000 : Nat) : Int)

/-- SRC_ERR in ns. -/
def srcErr (d : Dev) : Nat := d.cfg.TIME_SRC_SRC_ERR * 10

/-- The source changes (R455), and the hops that beacons carry with it (R473). -/
def setSource (d : Dev) (s : Nat) : Dev :=
  if d.time.source = s then d
  else
    let hops := match s with
      | 0 => 0 | 1 => 0 | 2 => min (d.time.refHops + 1) 0xF | _ => 0xF
    ({ d with time := { d.time with source := s, hops := hops, shown := [] } }).raise .EVT_TIME_SOURCE (le 1 s)

/-! ### Error estimate (R463) -/

/-- Mean of |o| over the last 16 measurements, at least 10 ns. -/
def meanAbs (d : Dev) : Nat :=
  let l := d.time.lastAbs
  if l.isEmpty then 10 else max 10 (l.foldl (fun a b => a + b) 0 / l.length)

/-- ERR_EST in ns before the scale is acquired counts as unknown. -/
def errNs (d : Dev) : Nat :=
  if d.time.holdover then d.time.holdErr + d.cfg.TIME_HOLD_DRIFT_PPB * (d.up - d.time.holdSince) / 1000000000
  else if d.time.slewing then absI d.time.lastO + d.srcErr
  else match d.time.setErr with
    | some e => e
    | none => if d.time.source = 2 then d.time.refErr * 10 + d.meanAbs + 100 * d.time.hops else d.srcErr + d.meanAbs

/-- ERR_EST in units of 10 ns, saturating (R463). -/
def errEst (d : Dev) : Nat := if d.time.acquired then min 0xFFFF (d.errNs / 10) else 0xFFFF

/-! ### The servo (R456 to R461) -/

/-- The offset of a measurement in ns, with the compensation in force now (R452, R465, R473, R474). -/
def offsetOf (d : Dev) : Meas → Int
  | .ptp raw port => raw - sext 32 (d.cfg.TS_ETH_ASYM_ASYM_NS port)
  | .pps stamp (some secs) => (stamp : Int) - ((secs * 1000000000 : Nat) : Int) - sext 16 d.cfg.PPS_DELAY_IN_NS
  | .pps stamp none =>
    let x := (((stamp % 1000000000 : Nat) : Int) - sext 16 d.cfg.PPS_DELAY_IN_NS) % 1000000000
    if 500000000 < x then x - 1000000000 else x
  | .mesh sync tx _ => (sync : Int) - (tx : Int) - (d.cfg.TIME_MESH_FLIGHT_NS : Int)

/-- First acquisition (R456): the one step of the scale, EVT_TIME_ACQUIRED with the step, and R56. On every Ethernet port
the gate cycle in progress ends at once (R484). Measurements that still wait were taken on the earlier scale and are dropped
(DESIGN CHOICE, log entry 192). -/
def acquire (d : Dev) (o : Int) : Dev :=
  let d := (d.stepScale (-o)).dropStamped
  let d := ({ d with time := { d.time with
    acquired := true, freq := 0, lastT := none, lastO := 0, predict := none, cands := [] } }).raise .EVT_TIME_ACQUIRED
      (le 8 (pat 64 (-o)))
  let d := d.each [0, 1, 2, 3] (fun d e =>
    let g := (d.eth e).gates
    let base : Nat := d.cfg.ETH_GATE_BASE_LO_BASE_LO + d.cfg.ETH_GATE_BASE_HI_BASE_HI * 2 ^ 32
    if g.entries.isEmpty then d
    else
      let c : Int := ((max 1 g.cycle * 8 : Nat) : Int)
      let x : Int := (d.time.ns : Int)
      d.modEth e (fun y => { y with closedUntil := (x + (((base : Int) - x) % c)).toNat, open_ := 0 }))
  d.regrid d.epoch.lenMs

/-- The loop bandwidth of TIME_SERVO.BW, in 0.01 Hz. -/
def servoBw : Nat → Int
  | 0 => 1
  | 1 => 5
  | 2 => 20
  | _ => 100

/-- The nearest integer to a quotient. -/
def roundDiv (a b : Int) : Int := (2 * a + b) / (2 * b)

/-- kp * o of R458 in units of 0.001 ppb, o in ns: kp = 2 × 0.707 × 2π × BW. The 15 decimals of 2π and the rounding to the unit
are the model's (DESIGN CHOICE, log entry 188). -/
def servoKp (bw : Nat) (o : Int) : Int := roundDiv (1414 * 6283185307179586 * servoBw bw * o) (10 ^ 17)

/-- ki * o * dt of R458 in units of 0.001 ppb, o and dt in ns: ki = (2π × BW)². -/
def servoKi (bw : Nat) (o : Int) (dt : Nat) : Int :=
  roundDiv (6283185307179586 ^ 2 * servoBw bw ^ 2 * o * (dt : Int)) (10 ^ 40)

/-- Mean of r over the last 64 s of LOCKED operation, time-weighted, where LOCKED has lasted that long (R460). -/
def lockMean (d : Dev) : Option Int :=
  match d.time.lockedAt with
  | some t0 =>
    if t0 + 64000000000 ≤ d.up then
      let lo := d.up - 64000000000
      let r := d.time.rates.foldl (fun (acc : Int × Nat) (x : Nat × Int) =>
        let from_ := max lo x.1
        if from_ < acc.2 then (acc.1 + x.2 * ((acc.2 - from_ : Nat) : Int), from_) else acc) ((0 : Int), d.up)
      some (r.1 / 64000000000)
    else none
  | none => none

/-- LOCKED at a measurement (R458): 16 in a run below 100 ns set it, the first above 400 ns clears it. -/
def lockStep (d : Dev) (o : Int) : Dev :=
  let t := d.time
  let run := if absI o < 100 then t.lockRun + 1 else 0
  if t.locked ∧ 400 < absI o then
    { d with time := { t with locked := false, lockRun := 0, heldMean := d.lockMean, lockedAt := none, rates := [] } }
  else if ¬ t.locked ∧ 16 ≤ run then
    { d with time := { t with locked := true, lockRun := run, heldMean := none, lockedAt := some d.up, rates := [(d.up, t.rate)] } }
  else { d with time := { t with lockRun := run } }

/-- A measurement feeds the servo (R458). -/
def feed (d : Dev) (o : Int) : Dev :=
  let d := d.lockStep o
  let t := d.time
  let dt := match t.lastT with
    | some x => d.up - x
    | none => 0
  let bw := d.cfg.TIME_SERVO_BW
  let f := if t.slewing then t.freq else t.freq - servoKi bw o dt
  let s := clampI (-d.slewLimit) d.slewLimit (-servoKp bw o)
  let r := clampI (-100000000) 100000000 (f + s)
  let sat := decide (r ≠ f + s)
  let d1 := { d with time := { t with
    freq := f, slew := s, rate := r, rateLimit := sat
    lastO := o, lastT := some d.up, predict := none
    rates := if t.locked then (d.up, r) :: t.rates else []
    lastAbs := (absI o :: t.lastAbs).take 16, setErr := none
    slewing := t.slewing && decide (d.stepThresh < absI o) } }
  let d2 := d1.bump Cnt.TIME_MEAS
  if sat ∧ ¬ t.rateLimit then (d2.bump Cnt.RATE_LIMIT_HIT).raise .EVT_RATE_LIMIT [] else d2

/-- The rate that holdover holds (R460): the mean over the last 64 s of LOCKED operation, be it over before the entry; r itself
where LOCKED lasted less. -/
def holdRate (d : Dev) : Int := (if d.time.locked then d.lockMean else d.time.heldMean).getD d.time.rate

/-- Enter holdover (R460). -/
def enterHoldover (d : Dev) : Dev :=
  if d.time.holdover then d
  else
    let e := d.errNs
    let r := d.holdRate
    (({ d with time := { d.time with
      holdover := true, rate := r, holdErr := e, holdSince := d.up, cands := []
      rates := if d.time.locked then (d.up, r) :: d.time.rates else [] } }).bump
        Cnt.HOLDOVER_ENTRY).raise .EVT_HOLDOVER (le 1 1)

/-- Leave holdover (R460): the servo resumes without a step, f starting from the r that holdover held. -/
def exitHoldover (d : Dev) : Dev :=
  ({ d with time := { d.time with
    holdover := false, jumpPending := false, freq := d.time.rate, lastT := none, cands := [] } }).raise .EVT_HOLDOVER
      (le 1 0)

/-- The prediction p of R457: the re-step's, or o + s × Δt. -/
def prediction (d : Dev) : Int :=
  match d.time.predict with
  | some p => p
  | none =>
    if d.time.holdover then d.time.lastO
    else match d.time.lastT with
      | some t => d.time.lastO + d.time.slew * ((d.up - t : Nat) : Int) / 1000000000000
      | none => d.time.lastO

/-- Mean of a list of offsets. -/
def meanI (l : List Int) : Int := if l.isEmpty then 0 else l.foldl (fun a b => a + b) 0 / (l.length : Int)

/-- A run of candidates ends with a measurement within the threshold: each counts as an outlier (R457). -/
def endCands (d : Dev) : Dev :=
  let n := d.time.cands.length
  let d := { d with time := { d.time with cands := [] } }
  if n = 0 then d else d.bump Cnt.TIME_OUTLIER n

/-- A measurement of the source in use meets R457: it feeds the servo, or is a candidate; four in sequence confirm a
jump, which is refused (R459). -/
def judge (d : Dev) (src : Nat) (o : Int) : Dev :=
  if absI (o - d.prediction) ≤ d.stepThresh then d.endCands.feed o
  else
    let c := d.time.cands ++ [o]
    let d := d.lockStep o
    if c.length < 4 then { d with time := { d.time with cands := c } }
    else
      let d := (({ d with time := { d.time with cands := [], jumpPending := true } }).bump Cnt.TIME_JUMP).raise
        .EVT_TIME_JUMP_REFUSED (le 1 src ++ le 8 (pat 64 (meanI c)))
      d.enterHoldover

/-- A re-step has its four measurements (R461): their mean becomes the prediction, the slew starts, and the commands that
wait complete. -/
def endRestep (d : Dev) (l : List Int) : Dev :=
  let cs := d.time.restepCmds
  let d := { d with time := { d.time with
    restep := none, restepCmds := [], predict := some (meanI l), lastO := meanI l, jumpPending := false, slewing := true
    cands := [], lastT := none } }
  let d := if d.time.holdover then
      ({ d with time := { d.time with holdover := false, freq := d.time.rate } }).raise .EVT_HOLDOVER (le 1 0)
    else d
  cs.foldl (fun (d : Dev) (c : Cmd) => d.complete c .ST_OK) d

/-- The oldest measurement that waits is processed (R455 to R461). In holdover one of the source in use beyond the threshold is
a candidate as ever, while no jump waits (R457; DEDUCED, log entry 187). A re-step takes the measurements of the source it began
with (DESIGN CHOICE, log entry 190), and a source has shown itself available only while it does not lapse between two of the
16. -/
def measure1 (d : Dev) : Dev :=
  match d.time.meas with
  | [] => d
  | m :: rest =>
    let d := { d with time := { d.time with meas := rest } }
    let src := measSource m
    let o := d.offsetOf m
    if ¬ d.time.acquired then
      if measSecs m then
        let d := ({ d with time := { d.time with lastValid := d.time.lastValid.put src d.up } }).acquire o
        if d.sourceUsed src then d.setSource src else d
      else d
    else
      let seen := d.sourceSeen src
      let d := { d with time := { d.time with lastValid := d.time.lastValid.put src d.up } }
      if d.time.restep.isSome ∧ src = d.time.restepSrc then
        let l := d.time.restep.getD [] ++ [o]
        if l.length < 4 then { d with time := { d.time with restep := some l } } else d.endRestep l
      else if d.time.holdover then
        (if d.sourceUsed src ∧ absI (o - d.prediction) ≤ d.stepThresh then (d.endCands.exitHoldover.setSource src).feed o
         else if src = d.time.source ∧ d.time.jumpPending = false then d.judge src o else d)
      else if src = d.time.source then d.judge src o
      else if d.sourceUsed src ∧ d.rankOf src < d.rankOf d.time.source then
        let n := if seen then d.time.shown.get 0 src + 1 else 1
        if 16 ≤ n then d.setSource src else { d with time := { d.time with shown := d.time.shown.put src n } }
      else d

/-- The source in use has given nothing for LOSS_MS (R460): the first other source that is available, in the order of
TIME_SRC, replaces it (R455), else holdover. -/
def sourceLost (d : Dev) : Dev :=
  if d.time.source = 3 ∨ d.time.holdover ∨ d.sourceSeen d.time.source ∨ ¬ d.time.acquired then d
  else
    let c := d.cfg
    let order := [c.TIME_SRC_PRIO_0, c.TIME_SRC_PRIO_1, c.TIME_SRC_PRIO_2, c.TIME_SRC_PRIO_3]
    match order.find? (fun s => decide (s < 3 ∧ s ≠ d.time.source) && d.sourceUsed s && d.sourceSeen s) with
    | some s => d.setSource s
    | none => d.enterHoldover

/-- CMD_TIME_SET (R462). -/
def timeSet (d : Dev) (h : Hdr) (p : List Byte) : Dev :=
  let c : Cmd := ⟨h, .CMD_TIME_SET, 0, p⟩
  d.command c (fun d =>
    if d.time.acquired then d.complete c .ST_ALREADY_ACQUIRED
    else
      let d := d.acquire ((d.time.ns : Int) - (fld p 0 8 : Int))
      ({ d with time := { d.time with setErr := some (fld p 8 4) } }).complete c .ST_OK)

/-- CMD_TIME_RESTEP (R461). -/
def timeRestep (d : Dev) (h : Hdr) (p : List Byte) : Dev :=
  let c : Cmd := ⟨h, .CMD_TIME_RESTEP, 0, p⟩
  d.command c (fun d =>
    if ¬ zeros p 0 64 then d.complete c .ST_BAD_PARAM
    else if ¬ d.time.jumpPending then d.complete c .ST_NO_JUMP
    else
      let d := d.holdCmd c
      { d with time := { d.time with
          restep := some (d.time.restep.getD [])
          restepSrc := if d.time.restep.isSome then d.time.restepSrc else d.time.source
          restepCmds := d.time.restepCmds ++ [c] } })

/-! ### Stamps (R467, R468) -/

/-- Ingress and egress latency constants in 0.1 ns by rate code and RS-FEC (R467); none is stated at 10 and 100 Mbit/s. -/
def ethLatency (rate : Nat) (fec : Bool) : Option (Nat × Nat) :=
  match rate with
  | 0 => some (if fec then (2465, 960) else (582, 376))
  | 1 => some (913, 554)
  | 2 => some (1760, 1128)
  | 3 => some (4120, 2320)
  | _ => none

/-- The receive stamp of a frame on ETH_e now (R467); at 10 and 100 Mbit/s it has no stated bound and is a free value. -/
def rxStamp (d : Dev) (e : Nat) : Nat × Dev :=
  match ethLatency (d.eth e).rate (d.cfg.ETH_CFG_RSFEC e == 1) with
  | some (i, _) => (((d.time.ns : Int) - ((i / 10 : Nat) : Int) - sext 16 (d.cfg.TS_ETH_LAT_INGRESS_NS e)).toNat, d)
  | none => ((d.draw 64).1.toNat, (d.draw 64).2)

/-- The transmit stamp of a frame that the MAC of ETH_e starts at instant t. -/
def txStamp (d : Dev) (e t : Nat) : Nat × Dev :=
  match ethLatency (d.eth e).rate (d.cfg.ETH_CFG_RSFEC e == 1) with
  | some (_, g) => (((t : Int) + ((g / 10 : Nat) : Int) + sext 16 (d.cfg.TS_ETH_LAT_EGRESS_NS e)).toNat, d)
  | none => ((d.draw 64).1.toNat, (d.draw 64).2)

/-- A stamped frame is taken (R468): it takes the next stamp sequence number. -/
def takeStampSeq (d : Dev) (e : Nat) : Nat × Dev :=
  ((d.eth e).tsSeq, d.modEth e (fun x => { x with tsSeq := (x.tsSeq + 1) % 65536 }))

/-- Its record enters the port's queue of 64 at frame end; a full queue discards it (R468). The flag says it was kept. -/
def putEthStamp (d : Dev) (e : Nat) (s : Stamp) : Dev × Bool :=
  if (d.eth e).stamps.length < 64 then (d.modEth e (fun x => { x with stamps := x.stamps ++ [s] }), true)
  else (d.bump (Cnt.ETH_TS_OVF e), false)

/-- Drain one stamp record to the event ring (R470): it takes the next event SEQ and waits for no staging. -/
def drainStamp (d : Dev) (s : Stamp) : Dev :=
  let e : Event := ⟨.EVT_TX_STAMP, d.ev.seq, d.epoch.numPipe, d.time.ns, s.octets, none⟩
  let d := { d with ev := { d.ev with seq := d.ev.seq + 1 } }
  match d.modes.control with
  | .standAlone => d
  | .hosted => d.putEvent e
  | .shelfMember => match d.links.followed with
    | some r => (d.sendHost r 3 0 (d.eventOctets e false)).bump Cnt.EVT_POSTED
    | none => d

/-- The event ring can take a record now. -/
def stampRoom (d : Dev) : Bool :=
  match d.modes.control with
  | .standAlone => true
  | .hosted => d.eventRoom
  | .shelfMember => d.links.followed.isSome

/-! ### PTP (R464 to R466) -/

/-- Fields of a PTP message (IEEE 1588-2019 clause 13). -/
def ptpType (m : List Byte) : Nat := fld m 0 1 % 16
def ptpSeqId (m : List Byte) : Nat := unbe (slice m 30 2)
def ptpTwoStep (m : List Byte) : Bool := bit (fld m 6 1) 1
/-- correctionField in ns, rounded down. -/
def ptpCorr (m : List Byte) : Int := sext 64 (unbe (slice m 8 8)) / 65536
/-- A timestamp field at an offset, in ns. -/
def ptpTime (m : List Byte) (off : Nat) : Int :=
  ((unbe (slice m off 6) * 1000000000 + unbe (slice m (off + 6) 4) : Nat) : Int)
/-- Ten octets of a timestamp. -/
def ptpTimeOctets (t : Nat) : List Byte := be 6 (t / 1000000000) ++ be 4 (t % 1000000000)

/-- A PTP message of this device (IEEE 1588-2019 clause 13.3). The clock identity is BASE_EUI64, the port number 1 + e. -/
def ptpMessage (d : Dev) (e : Nat) (x : PtpOut) : List Byte :=
  be 1 x.type ++ be 1 0x12 ++ be 2 (34 + x.body.length) ++ be 1 d.cfg.PTP_CTL_DOMAIN ++ be 1 0 ++ be 2 x.flags ++
    be 8 x.corr ++ be 4 0 ++ be 8 d.otp.baseEui.toNat ++ be 2 (e + 1) ++ be 2 x.seq ++ be 1 0 ++ be 1 x.interval ++ x.body

/-- The identity that a response must name (IEEE 1588-2019 clause 13.8): this device and its port. -/
def ptpForUs (d : Dev) (e : Nat) (m : List Byte) : Bool :=
  decide (slice m 44 10 = be 8 d.otp.baseEui.toNat ++ be 2 (e + 1))

/-- PTP runs on ETH_e. -/
def ptpOn (d : Dev) (e : Nat) : Bool := d.cfg.PTP_CTL_EN == 1 && bit d.cfg.PTP_CTL_PORT_EN e && (d.eth e).link
/-- Peer delay on ETH_e; one-step on ETH_e, which a MACsec transmit SA in use overrides (R466). -/
def ptpP2p (d : Dev) (e : Nat) : Bool := bit d.cfg.PTP_CTL_P2P e
def ptpOneStep (d : Dev) (e : Nat) : Bool :=
  bit d.cfg.PTP_CTL_ONE_STEP e &&
    !(d.cfg.ETH_MACSEC_TX_EN e == 1 && ((d.eth e).txSa.find (d.cfg.ETH_MACSEC_TX_AN e)).isSome)

/-- A PTP message waits for the MAC. -/
def ptpQueue (d : Dev) (e : Nat) (x : PtpOut) : Dev := d.modEth e (fun y => { y with ptpOut := y.ptpOut ++ [x] })

/-- The engine takes the stamp record of an event message that it has sent (R464, R468): the Follow_Up of a two-step Sync, t3 of
a Delay_Req, t1 of a Pdelay_Req, the follow-up of a Pdelay_Resp. -/
def ptpSent (d : Dev) (e : Nat) (x : PtpOut) (t : Nat) : Dev :=
  match x.type, x.flags with
  | 0, 0x0200 => d.ptpQueue e { type := 8, flags := 0, seq := x.seq, interval := x.interval, body := ptpTimeOctets t }
  | 3, 0x0200 =>
    d.ptpQueue e { type := 10, flags := 0, seq := x.seq, corr := x.fuCorr, body := ptpTimeOctets t ++ x.body.drop 10 }
  | 1, _ | 2, _ => { d with time := { d.time with reqT := d.time.reqT.put e t, reqSeq := d.time.reqSeq.put e x.seq } }
  | _, _ => d

/-- A stamped frame on the wire of ETH_e ends (R468): its record enters the queue, or goes to the PTP engine; a full queue loses
it, and a two-step Sync has no Follow_Up then. -/
def frameEnd (d : Dev) (e : Nat) : Dev :=
  match (d.eth e).wire with
  | none => d
  | some w =>
    if d.now < w.ends then d
    else
      let d := d.modEth e (fun x => { x with wire := none })
      match w.ptp with
      | none => (d.putEthStamp e w.stamp).1
      | some m =>
        if (d.eth e).stamps.length < 64 then d.ptpSent e m w.stamp.time
        else
          let d := d.bump (Cnt.ETH_TS_OVF e)
          if m.type = 0 ∧ m.flags = 0x0200 then d.bump Cnt.PTP_STAMP_LOST else d

/-- The stamped frames that have ended. -/
def frameEnds (d : Dev) : Dev := d.each [0, 1, 2, 3] (fun d e => d.frameEnd e)

/-- t1 and t2 of a Sync are complete (R465): paired with the latest delay measurement they give an offset. -/
def syncDone (d : Dev) (port : Nat) (t1 t2 : Int) : Dev :=
  let d := { d with time := { d.time with syncT := some (t1, t2) } }
  match d.time.mpd with
  | some mpd => { d with time := { d.time with meas := d.time.meas ++ [.ptp (t2 - t1 - mpd) port] } }
  | none => d

/-- The first Sync or Follow_Up that waits is taken (R465): one of another sender than the parent gives no offset. -/
def syncRx (d : Dev) (parent : Bool) : Dev :=
  match d.time.ptpIn.find? (fun m => ptpType m.msg == 0 || ptpType m.msg == 8) with
  | none => d
  | some m =>
    let d := { d with time := { d.time with ptpIn := d.time.ptpIn.erase m } }
    if m.port ≠ d.cfg.PTP_CTL_RX_PORT then d
    else if ptpType m.msg = 0 then
      let d := d.bump Cnt.PTP_SYNC_RX
      if ¬ parent then d
      else if ptpTwoStep m.msg then
        { d with time := { d.time with syncWait := some (ptpSeqId m.msg, (m.stamp : Int) - ptpCorr m.msg, m.port) } }
      else d.syncDone m.port (ptpTime m.msg 34) ((m.stamp : Int) - ptpCorr m.msg)
    else if ¬ parent then d
    else match d.time.syncWait with
      | some (sq, t2, port) =>
        if sq = ptpSeqId m.msg then
          ({ d with time := { d.time with syncWait := none } }).syncDone port (ptpTime m.msg 34) (t2 - ptpCorr m.msg)
        else d
      | none => d

/-! ### PPS and ToD (R474 to R476) -/

/-- CRC of R475: x^16 + x^12 + x^5 + 1, initial value 0xFFFF, not reflected. -/
def crcCcitt (bs : List Byte) : Nat :=
  bs.foldl (fun c o => (List.range 8).foldl (fun c _ =>
    if bit c 15 then ((c * 2) % 65536) ^^^ 0x1021 else (c * 2) % 65536) (c ^^^ (o.toNat * 256))) 0xFFFF

/-- A ToD message is checked (R475): SYNC, TYPE, CRC and reserved bits; one with VALID = 0 is ignored. -/
def todRx (d : Dev) (m : List Byte) : Dev :=
  if d.cfg.PPS_CTL_TOD_IN = 0 then d
  else if m.length ≠ 16 ∨ slice m 0 2 ≠ [0x51#8, 0x54#8] ∨ fld m 2 1 ≠ 1 ∨ 16 ≤ fld m 3 1 ∨
      fld m 14 2 ≠ crcCcitt (slice m 0 14) then
    (d.violate .VIO_TOD_FORMAT []).bump Cnt.TOD_REJECT
  else if ¬ bit (fld m 3 1) 0 then d
  else { d with time := { d.time with
      tod := d.time.tod ++ [(⟨fld m 4 6, fld m 3 1, sext 16 (fld m 10 2), fld m 12 2⟩, d.up)] } }

/-- An edge of PPS_IN (R474): the active edge is stamped; the last ToD message that ended 900 ms to 50 ms before names it, and
every other that ended outside of that is ignored and logged (R475). -/
def ppsEdge (d : Dev) (rising : Bool) : Dev :=
  if d.cfg.PPS_CTL_IN_EN = 0 ∨ rising = (d.cfg.PPS_CTL_IN_POL == 1) then d
  else
    let ok := fun (t : Nat) => decide (50000000 ≤ d.up - t ∧ d.up - t ≤ 900000000)
    let named : Option Nat := ((d.time.tod.filter (fun x => ok x.2)).getLast?).map (fun x => x.1.secs)
    let d1 := (d.time.tod.filter (fun x => !ok x.2)).foldl (fun (d : Dev) _ =>
      (d.violate .VIO_TOD_TIMING []).bump Cnt.TOD_REJECT) d
    let d2 : Dev := { d1 with time := { d1.time with ppsEdge := d1.up, tod := [] } }
    if named.isSome ∨ d2.time.acquired then
      { d2 with time := { d2.time with meas := d2.time.meas ++ [.pps d2.time.ns named] } }
    else d2

/-- PPS_OUT drives edges (R476). -/
def ppsRuns (d : Dev) : Bool := d.cfg.PPS_CTL_OUT_EN == 1 && (d.time.acquired || d.cfg.PPS_CTL_OUT_FREE == 1)

/-- The ToD message for the next edge, 500 ms before it (R475, R476). UTC_OFFSET is free. -/
def todOut (d : Dev) : Dev :=
  if d.cfg.PPS_CTL_TOD_OUT = 0 ∨ ¬ d.ppsRuns then d
  else
    let u := d.draw 16
    let d := u.2
    let secs := (((d.time.ns + 500000000 : Nat) : Int) - sext 16 d.cfg.PPS_DELAY_OUT_NS).toNat / 1000000000
    let b := [0x51#8, 0x54#8, 0x01#8] ++ le 1 (ofBool d.time.acquired + 8 * ofBool d.time.holdover) ++ le 6 secs ++
      le 2 u.1.toNat ++ le 2 d.errEst
    d.emit .tod 0 (b ++ le 2 (crcCcitt b))

end Dev

/-! ### Meanings -/

/-- TIME_MEASUREMENT (R455 to R461). -/
def execTimeMeasurement (s : State) : Host.Outcome State Fault Refusal :=
  s.run (fun d => d.measure1)

/-- HOLDOVER_LOSS_TIMEOUT (R460). -/
def execHoldoverLossTimeout (s : State) : Host.Outcome State Fault Refusal :=
  s.run (fun d => d.sourceLost)

/-- CMD_TIME_SET (R462). -/
def execCmdTimeSet (h : Hdr) (p : List Byte) (s : State) : Host.Outcome State Fault Refusal :=
  s.run (fun d => d.timeSet h p)

/-- CMD_TIME_RESTEP (R461). -/
def execCmdTimeRestep (h : Hdr) (p : List Byte) (s : State) : Host.Outcome State Fault Refusal :=
  s.run (fun d => d.timeRestep h p)

/-- PTP_SYNC_RX (R465); `parent` says that the firmware's best-master algorithm holds the sender as the parent (R464). -/
def execPtpSyncRx (parent : Bool) (s : State) : Host.Outcome State Fault Refusal :=
  s.run (fun d => d.syncRx parent)

/-- PPS_EDGE (R474). -/
def execPpsEdge (rising : Bool) (s : State) : Host.Outcome State Fault Refusal :=
  s.run (fun d => d.ppsEdge rising)

/-- TOD_MESSAGE_RX (R475). -/
def execTodMessageRx (msg : List Byte) (s : State) : Host.Outcome State Fault Refusal :=
  s.run (fun d => d.todRx msg)

/-- PPS_OUT_EDGE (R476). -/
def execPpsOutEdge (s : State) : Host.Outcome State Fault Refusal :=
  s.run (fun d => if d.ppsRuns then ({ d with time := { d.time with ppsHigh := true } }).emit .pps 0 [] else d)

/-- PPS_OUT_PULSE_END (R476): WIDTH_US after the edge the output returns to its idle level. -/
def execPpsOutPulseEnd (s : State) : Host.Outcome State Fault Refusal :=
  s.run (fun d => { d with time := { d.time with ppsHigh := false } })

/-- TOD_OUT_SEND (R476). -/
def execTodOutSend (s : State) : Host.Outcome State Fault Refusal :=
  s.run (fun d => d.todOut)

end Sys2Proof.Machine
end

