-- ==== Sys2Proof/Machine/Mesh.lean ====
section
/-! DEFINITION. What a frame toward a node takes at its release and at its grant instant (R24, R25): the frame-counter
tests (R433, R434), the relaying method and the Mesh IE (R304 to R309), the flood identifier (R305), the MAC header
(R622), CCM* (R430, R431), and the measure of an enqueue (R243, R308). -/

namespace Sys2Proof.Machine

/-- The FCS of a mode is 2 octets on OQPSK-250 and 4 otherwise (R622). -/
def modeFcs2 (mode : Nat) : Bool := mode == 0x10

/-- What a release comes to (R24 step 1). -/
inductive RelRes where
  /-- The frame goes on to its checks. -/
  | go (f : TxFrame)
  /-- It is discarded with a status. -/
  | drop (st : Status)
  /-- It waits at the head of its queue until the next epoch (R305). -/
  | wait
  deriving DecidableEq, Repr

namespace Dev

/-- A frame is logged with a status. -/
def logFrame (d : Dev) (c : Nat) (st : Status) : Dev := d.emit .frameLog c (le 2 st.code)

/-- PAN_EUI_k: the value of OTP, BASE_EUI64 + k, until a half is written (R226). -/
def panEui (d : Dev) (k : Nat) : Nat :=
  d.regInForce (Reg.PAN_EUI_HI k) 0 * 2 ^ 32 + d.regInForce (Reg.PAN_EUI_LO k) 0

/-- SEC_PAN_k.DL_LEVEL; values outside 5 to 7 act as 6. -/
def dlLevel (d : Dev) (k : Nat) : Nat :=
  let v := d.cfg.SEC_PAN_DL_LEVEL k
  if 5 ≤ v ∧ v ≤ 7 then v else 6

/-- What the copies of a frame share. -/
def sharedOf (d : Dev) (f : TxFrame) : Shared := if f.grp = 0 then f.sh else d.shared f.grp

/-- Change what the copies of a frame share. -/
def setSharedOf (d : Dev) (f : TxFrame) (x : Shared) : Dev × TxFrame :=
  if f.grp = 0 then (d, { f with sh := x }) else (d.setShared f.grp x, f)

/-- Transmissions under way: of carriers themselves, and of the acknowledgements that hold them. -/
def txs (d : Dev) : List Tx :=
  d.txc.flatMap (fun x => x.2.own :: (match x.2.hold with | some h => [h.tx] | none => []))

/-- Another copy of a frame is released. -/
def siblingOut (d : Dev) (f : TxFrame) : Bool :=
  f.grp != 0 && d.txs.any (fun t => t.phase != .idle && t.phase != .waitLock &&
    (match t.cur with | some g => g.grp == f.grp && g.uid != f.uid | none => false))

/-- TTL_MAX and DEFAULT_TTL; 0 acts as 1. -/
def ttlMax (d : Dev) : Nat := max 1 d.cfg.MESH_CTL_TTL_MAX
def defaultTtl (d : Dev) : Nat := max 1 d.cfg.MESH_CTL_DEFAULT_TTL

/-- EVT_FC_EXHAUSTED: PAN, location or 0xFFFF for the PAN's own counter, direction (0 downlink, 1 uplink). -/
def fcEvent (d : Dev) (k loc dir : Nat) : Dev := d.raise .EVT_FC_EXHAUSTED (le 1 k ++ le 2 loc ++ le 1 dir)

/-- A node's downlink counter is exhausted (R433): the event comes once per node and key epoch. -/
def fcExhausted (d : Dev) (k loc : Nat) : Dev :=
  let d := d.bump Cnt.FC_EXHAUSTED
  let e := d.nodeAt k loc
  let s := (home k loc, e.eui.toNat, e.keyEpoch)
  if s ∈ d.sec.fcEvt then d
  else ({ d with sec := { d.sec with fcEvt := d.sec.fcEvt ++ [s] } }).fcEvent k loc 0

/-- A PAN's counter is exhausted (R434). -/
def panFcExhausted (d : Dev) (k : Nat) : Dev :=
  let d := d.bump Cnt.PAN_FC_EXHAUSTED
  if k ∈ d.sec.panEvt then d
  else ({ d with sec := { d.sec with panEvt := d.sec.panEvt ++ [k] } }).fcEvent k 0xFFFF 0

/-- The key slot of a PAN's beacon and bulk keys is usable. -/
def panKeyOk (d : Dev) (k : Nat) : Bool :=
  d.cfg.SEC_PAN_SLOT_EN k == 1 && d.keyUsable (d.cfg.SEC_PAN_KEY_SLOT k) 1

/-- The need of a frame in a mode (R243): its airtime and, with AR, the ack wait. -/
def needUs (d : Dev) (p c : Nat) (m : Mode) (coded : Bool) (len : Nat) (ar : Bool) : Nat :=
  airtime m coded (rampUs (d.cfg.TXC_CFG_RAMP_US c)) len +
    (if ar then ackWaitUs m (d.cfg.ACK_CTL_SLACK_US p) else 0)

/-- A frame of a family without coding (assumption log): Deep and Wide frames are always coded. -/
def codedIn (m : Mode) : Bool := m.family == .deep || m.family == .wide

/-! ### The Mesh IE at release (R304 to R309) -/

/-- The Mesh IE of a DOWN frame (R306), and whether its TTL was clamped. -/
def downIe (d : Dev) (e : NodeEntry) : MeshIe × Bool :=
  let want := e.hopDist + d.cfg.MESH_CTL_MARGIN
  let ttl := if e.hopDist = 0xFF then d.defaultTtl else min d.ttlMax want
  (⟨1, ttl, 0, 0xFFFC, e.loc, d.elec.chipId, 0, []⟩, decide (e.hopDist ≠ 0xFF ∧ d.ttlMax < want))

/-- The Mesh IE of a ROUTE frame (R306). -/
def routeIe (d : Dev) (e : NodeEntry) (r : RouteEntry) : MeshIe :=
  ⟨3, r.hopList.length, 0, 0xFFFC, e.loc, d.elec.chipId, 0, r.hopList⟩

/-- The Mesh IE of a BULK frame (R309). -/
def bulkIe (d : Dev) (k : Nat) : MeshIe :=
  let fixed := d.cfg.MESH_BULK_TTL_FIXED k
  let ttl := if fixed ≠ 0 then min fixed d.ttlMax else min d.ttlMax ((d.pan k).maxHop + d.cfg.MESH_CTL_MARGIN)
  ⟨2, ttl, 0, 0xFFFC, 0xFFFF, d.elec.chipId, 0, []⟩

/-- The method of a multi-hop frame by the phase (R304): its Mesh IE, none where it is discarded for want of a route. -/
def meshMethod (d : Dev) (f : TxFrame) (e : NodeEntry) : Option (MeshIe × Bool) :=
  match d.modes.phase, d.validRoute f.pan e.loc with
  | .service, _ => some (d.downIe e)
  | .recovery, some r => some (d.routeIe e r, false)
  | .recovery, none => some (d.downIe e)
  | _, some r => some (d.routeIe e r, false)
  | _, none => none

/-- Reserve a flood identifier for a frame (R305): none where 16,384 are taken or reserved this epoch. -/
def reserveFlood (d : Dev) (f : TxFrame) : Option (Dev × TxFrame) :=
  let s := d.sharedOf f
  if s.reserved ∨ s.floodId.isSome then some (d, f)
  else if 16384 ≤ (d.pan f.pan).floodTaken + (d.pan f.pan).floodRsv then none
  else some ((d.modPan f.pan (fun x => { x with floodRsv := x.floodRsv + 1 })).setSharedOf f { s with reserved := true })

/-- A frame that is refused before its grant instant gives its reservation back and forms its Mesh IE afresh (R304,
R305), unless another copy is under way. -/
def giveBack (d : Dev) (f : TxFrame) : Dev × TxFrame :=
  let s := d.sharedOf f
  if s.fc.isSome ∨ d.siblingOut f = true then (d, f)
  else
    let d := if s.reserved then d.modPan f.pan (fun x => { x with floodRsv := x.floodRsv - 1 }) else d
    d.setSharedOf f { s with reserved := false, mesh := none }

/-- AR as it goes out (R214, R307, R384): a ROUTE frame asks for its relay's acknowledgement, a flood never. -/
def arOf (f : TxFrame) (mesh : Option MeshIe) : Bool :=
  match f.kind, mesh with
  | .assoc, _ => true
  | .bulk, _ => false
  | .ack, _ => false
  | .enhAck, _ => false
  | .beacon, _ => false
  | .test, _ => false
  | .data, some m => m.kind == 3
  | .data, none => if f.multiHop then false else f.ar

/-- The frame as its mode sends it: PSDU length and coding. -/
def sized (d : Dev) (f : TxFrame) (mode : Nat) : TxFrame :=
  let fcs2 := modeFcs2 mode
  let meshLen := match (d.sharedOf f).mesh with | some m => m.ie.length | none => 0
  let len := dataPsduLen meshLen f.payload.length (micOctets (d.dlLevel f.pan)) (if fcs2 then 2 else 4)
  { f with fcs2 := fcs2, psduLen := len, coded := match modeOf mode with | some m => codedIn m | none => false }

/-- The frame's need exceeds USABLE_US of its class (R308); class 8 stands for an indirect response, which no slot or window
holds (R213). -/
def tooLong (d : Dev) (p c cls : Nat) (f : TxFrame) (mode : Nat) : Bool :=
  match modeOf mode with
  | some m => decide (cls < 8) && decide ((d.seq p).usable.get 0 cls < d.needUs p c m f.coded f.psduLen (arOf f (d.sharedOf f).mesh))
  | none => false

/-- Size a released frame and test its need (R308). -/
def measured (d : Dev) (p c cls : Nat) (f : TxFrame) (mode : Nat) : Dev × RelRes :=
  let f := d.sized f mode
  if d.tooLong p c cls f mode then ((d.giveBack f).1, .drop .ST_TOO_LONG_FOR_SLOT) else (d, .go f)

/-- A Mesh IE joins a frame, with its flood reservation, and the frame is measured. -/
def withMesh (d : Dev) (p c cls : Nat) (f : TxFrame) (mode : Nat) (ie : MeshIe) (clamped : Bool) : Dev × RelRes :=
  match d.reserveFlood f with
  | none => (d.bump Cnt.FLOOD_CAP, .wait)
  | some (d, f) =>
    let d := if clamped then d.bump Cnt.TTL_CLAMPED else d
    let s := d.sharedOf f
    let r := if s.mesh.isSome then (d, f) else d.setSharedOf f { s with mesh := some ie }
    r.1.measured p c cls r.2 mode

/-- The frame itself has passed its grant instant, and keeps everything (R304, R310): a retransmission, or a frame without
copies. A copy of a frame that was granted elsewhere shares what it fixed and takes the method of the phase all the same. -/
def ownGrant (d : Dev) (f : TxFrame) : Bool := (d.sharedOf f).fc.isSome && (f.grp == 0 || f.retries != 0)

/-- The phase discards a multi-hop or BULK frame at its release (R304, R310). -/
def phaseDrops (d : Dev) (f : TxFrame) : Option (Counter × Status) :=
  if f.kind = .bulk then
    (if d.modes.phase = .startUp ∨ d.modes.phase = .test then some (Cnt.MESH_BULK_PHASE, .ST_BULK_PHASE) else none)
  else if f.multiHop ∧ (d.meshMethod f (d.nodeAt f.pan f.loc)).isNone then some (Cnt.MESH_NO_ROUTE, .ST_NO_ROUTE) else none

/-- The entry of a node can be sent to: in the table, not quarantined (R351), its key usable (R438). -/
def nodeUsable (d : Dev) (e : NodeEntry) : Bool := e.valid && !e.quarantine && d.keyUsable e.keySlot 0

/-- The release of a frame of an air queue (R24 step 1). A frame that found no flood identifier waits for the next epoch
(R305). A node that was quarantined after the enqueue counts as one without a usable key (DESIGN CHOICE, log entry 157). -/
def release (d : Dev) (p c cls : Nat) (f : TxFrame) (mode : Nat) : Dev × RelRes :=
  if d.ownGrant f then d.measured p c cls f mode
  else if f.capEpoch = some d.epoch.num then (d, .wait)
  else if (d.sharedOf f).fc.isSome then
    match d.phaseDrops f with
    | some x => (d.bump x.1, .drop x.2)
    | none => d.measured p c cls f mode
  else if f.kind = .bulk then
    if d.modes.phase = .startUp ∨ d.modes.phase = .test then (d.bump Cnt.MESH_BULK_PHASE, .drop .ST_BULK_PHASE)
    else if 0xFFFFFFFF ≤ (d.pan f.pan).fc then (d.panFcExhausted f.pan, .drop .ST_FC_EXHAUSTED)
    else if ¬ d.panKeyOk f.pan then (d.bump Cnt.KEY_INVALID, .drop .ST_KEY_INVALID)
    else
      let t := d.panTag (d.cfg.SEC_PAN_KEY_SLOT f.pan) (d.cfg.PAN_CFG_PAN_ID f.pan) true
      (d.requestKey t).withMesh p c cls { f with key := d.derivedKey t } mode (d.bulkIe f.pan) false
  else
    let e := d.nodeAt f.pan f.loc
    if e.dlFc = 0xFFFFFFFF then (d.fcExhausted f.pan f.loc, .drop .ST_FC_EXHAUSTED)
    else if ¬ d.nodeUsable e then (d.bump Cnt.KEY_INVALID, .drop .ST_KEY_INVALID)
    else
      let t := d.nodeTag e.keySlot e.eui e.keyEpoch false
      let f := { f with key := d.derivedKey t, keyEpoch := e.keyEpoch }
      if f.multiHop then
        match d.meshMethod f e with
        | none => (d.bump Cnt.MESH_NO_ROUTE, .drop .ST_NO_ROUTE)
        | some (ie, cl) => (d.requestKey t).withMesh p c cls f mode ie cl
      else (d.requestKey t).measured p c cls f mode

/-- A frame takes PAN_DSN at its first admission (R211). -/
def takeDsn (d : Dev) (f : TxFrame) : Dev × TxFrame :=
  let s := d.sharedOf f
  match s.dsn with
  | some n => (d, { f with seqNo := n })
  | none =>
    let n := (d.pan f.pan).dsn
    let r := (d.modPan f.pan (fun x => { x with dsn := (x.dsn + 1) % 256 })).setSharedOf f { s with dsn := some n }
    (r.1, { r.2 with seqNo := n })

/-! ### The MAC header, CCM* and the PSDU -/

/-- The frame version of a node-bound data frame (R622). -/
def dataVersion (d : Dev) (f : TxFrame) (mesh : Option MeshIe) : Nat :=
  if mesh.isSome then 2 else if d.cfg.PAN_CFG_DL_V2006 f.pan = 1 then 1 else 2

/-- The auxiliary security header: level with key identifier mode 1, counter, key index (R430). -/
def auxOf (level fc keyIndex : Nat) : List Byte := le 1 (level + 8) ++ le 4 fc ++ le 1 keyIndex

/-- Key index of a data or BULK frame (R430). -/
def keyIndexOf (f : TxFrame) : Nat := if f.kind = .bulk then 3 else 0x80 + f.keyEpoch % 128

/-- The MAC header of a data or BULK frame (R622). -/
def dataHeader (d : Dev) (f : TxFrame) (s : Shared) (fc : Nat) : List Byte :=
  let dst := match s.mesh with
    | some m => if m.kind = 3 then m.hopList.headD 0xFFFF else 0xFFFF
    | none => f.dst
  macHeader .data (d.dataVersion f s.mesh) f.seqNo (d.cfg.PAN_CFG_PAN_ID f.pan) dst 0 (d.panEui f.pan)
    (arOf f s.mesh) (auxOf (d.dlLevel f.pan) fc (keyIndexOf f)) (match s.mesh with | some m => m.ie | none => [])

/-- The nonce of R431. -/
def nonceOf (eui fc level : Nat) : List Byte := be 8 eui ++ be 4 fc ++ be 1 level

/-- The ciphertext with its MIC of a data or BULK frame (R430, R431). -/
def sealFrame (d : Dev) (f : TxFrame) (s : Shared) (fc : Nat) : List Byte :=
  let level := d.dlLevel f.pan
  let aad := match s.mesh with
    | some m => ({ m with ttl := 0, hops := 0 } : MeshIe).ie ++ auxOf level fc (keyIndexOf f)
    | none => d.dataHeader f s fc
  Config.ccmSeal f.key (nonceOf (if f.kind = .bulk then d.panEui f.pan else f.eui.toNat) fc level) aad (micOctets level)
    f.payload

/-- An origination of a DOWN, ROUTE or BULK frame (R309, R311): its key enters the seen-cache. -/
def originate (d : Dev) (k : Nat) (m : MeshIe) (id : Nat) : Dev :=
  (d.bump (match m.kind with | 1 => Cnt.FLOOD_ORIG | 3 => Cnt.ROUTE_ORIG | _ => Cnt.BULK_ORIG)).seenInsert
    { panId := d.cfg.PAN_CFG_PAN_ID k, origin := m.origin, cell := m.cell, floodId := id, kind := m.kind, originated := true }

/-- The flood identifier is taken at the grant instant (R305). -/
def takeFlood (d : Dev) (f : TxFrame) : Dev × TxFrame :=
  let s := d.sharedOf f
  match s.mesh, s.floodId with
  | some m, none =>
    let n := (d.pan f.pan).nextFlood
    let d := d.modPan f.pan (fun x => { x with
      nextFlood := (n + 1) % 65536, floodTaken := x.floodTaken + 1
      floodRsv := if s.reserved then x.floodRsv - 1 else x.floodRsv })
    (d.originate f.pan m n).setSharedOf f { s with floodId := some n, reserved := false, mesh := some { m with floodId := n } }
  | _, _ => (d, f)

/-- The grant instant of a data or BULK frame (R24 step 4, R430): the frame counter, the flood identifier and CCM*. A frame
that finds no counter left answers none (R433, R434). -/
def grantData (d : Dev) (f : TxFrame) : Option (Dev × TxFrame) :=
  let s := d.sharedOf f
  match s.fc with
  | some _ => some (d, f)
  | none =>
    let fc := if f.kind = .bulk then (d.pan f.pan).fc else (d.nodeAt f.pan f.loc).dlFc
    if 0xFFFFFFFF ≤ fc then none
    else
      let d := if f.kind = .bulk then d.modPan f.pan (fun x => { x with fc := fc + 1 })
        else d.modNode f.pan f.loc (fun e => { e with dlFc := fc + 1 })
      let r := d.takeFlood f
      let s := r.1.sharedOf r.2
      some ((r.1.bump Cnt.CCM_DN).setSharedOf r.2 { s with fc := some fc, cipher := some (r.1.sealFrame r.2 s fc) })

/-- A PSDU: header, body and FCS (R622). -/
def withFcs (fcs2 : Bool) (body : List Byte) : List Byte :=
  if fcs2 then body ++ le 2 (crc16 body)
  else body ++ le 4 (crc32 (if body.length < 4 then body ++ List.replicate (4 - body.length) 0#8 else body))

/-- The PSDU of a data or BULK frame. -/
def dataPsdu (d : Dev) (f : TxFrame) : List Byte :=
  let s := d.sharedOf f
  withFcs f.fcs2 (d.dataHeader f s (s.fc.getD 0) ++ s.cipher.getD [])

/-- The PSDU of an Association response (R214, R622). -/
def assocPsdu (d : Dev) (f : TxFrame) : List Byte :=
  withFcs f.fcs2 (macHeader .assoc f.version f.seqNo (d.cfg.PAN_CFG_PAN_ID f.pan) 0 f.eui.toNat (d.panEui f.pan) true [] [] ++
    f.payload)

/-! ### Acknowledgements (R208) -/

/-- The header of an Enh-Ack from its frame control through its IE, with the auxiliary header of counter `fc`. -/
def enhAckHeader (_ : Dev) (f : TxFrame) (fc : Nat) : List Byte :=
  let short := f.dst ≠ 0xFFFF ∧ f.dst ≠ 0xFFFE
  le 2 (0x2242 + (if f.secured then 8 else 0) + (if f.pending then 0x10 else 0) + (if short then 0x0800 else 0x0C00)) ++
    le 1 f.seqNo ++ (if short then le 2 f.dst else le 8 f.eui.toNat) ++
    (if f.secured then auxOf 1 fc 1 else []) ++
    headerIe 0x0D (le 1 (pat 8 (wholeDbm f.rssi)) ++ le 1 f.lqi ++ le 2 f.epochLo)

/-- The grant instant of an acknowledgement: a secured Enh-Ack takes a downlink frame counter (R208, R433). -/
def grantAck (d : Dev) (f : TxFrame) : Option (Dev × TxFrame) :=
  if ¬ f.secured then some (d, f)
  else
    let fc := (d.nodeAt f.pan f.loc).dlFc
    if 0xFFFFFFFF ≤ fc then none
    else
      let d := d.modNode f.pan f.loc (fun e => { e with dlFc := fc + 1 })
      let mic := Config.ccmSeal f.key (nonceOf f.eui.toNat fc 1) (d.enhAckHeader f fc) 4 []
      some (d.bump Cnt.CCM_DN, { f with sh := { f.sh with fc := some fc, cipher := some mic } })

/-- The PSDU of an acknowledgement (R208). -/
def ackPsdu (d : Dev) (f : TxFrame) : List Byte :=
  if f.kind = .enhAck then withFcs f.fcs2 (d.enhAckHeader f (f.sh.fc.getD 0) ++ f.sh.cipher.getD [])
  else withFcs f.fcs2 (le 2 (0x0002 + (if f.pending then 0x10 else 0)) ++ le 1 f.seqNo)

/-! ### Beacons (R219 to R221) -/

/-- The free-address class of the Cell IE. -/
def freeClass (d : Dev) (k : Nat) : Nat :=
  let lo := d.cfg.PAN_POOL_LO k
  let hi := min (d.cfg.PAN_POOL_HI k) 0xFFEF
  if hi < lo then 3
  else
    let size := hi - lo + 1
    let f := (d.pan k).free * 100
    if 25 * size < f then 0 else if 10 * size ≤ f then 1 else if size ≤ f then 2 else 3

/-- The IEs of a beacon sent at `txTime` on the device time scale (R221). -/
def beaconIes (d : Dev) (f : TxFrame) (txTime : Nat) : List Byte :=
  let src := d.time.source
  let off := (txTime - d.epoch.start) / 1000
  headerIe 0x0A (le 6 d.epoch.num ++ le 2 d.epoch.lenMs ++ le 4 off) ++
    headerIe 0x0B (le 8 txTime ++ le 1 (src + (if d.time.holdover then 4 else 0)) ++ le 1 d.time.hops ++
      le 2 d.errEst) ++
    headerIe 0x0C (le 2 d.elec.chipId ++
      le 1 (d.modes.phase.code + (if d.modes.redund = .active then 8 else 0) + 16 * d.cfg.PAN_CFG_ASSOC_PERMIT f.pan +
        32 * d.freeClass f.pan) ++
      le 1 f.pan ++ le 4 (match d.vat.inForce with | some v => v.planId | none => 0) ++ le 2 f.nextBcn ++ le 2 0)

end Dev

end Sys2Proof.Machine
end

