-- ==== Sys2Proof/Machine/Carrier.lean ====
section
/-! DEFINITION. Transmit carriers (R170 to R194): limits, power, duty accounts, the checks of R178 and their outcomes, the
decision instant (R621), the course of a transmission (R24, R99, R103 to R106), channel access (R195 to R200),
retransmission (R209, R210), and the release of frames by open slots and windows (R239 to R244, R623). A carrier has its
own transmission and, while an acknowledgement holds it, that of the acknowledgement or of the indirect response after it;
`hold` selects between the two. Powers are in 0.25 dBm. -/

namespace Sys2Proof.Machine

/-- 10^(i/40) for i = 0 to 39, in units of 10^-18, rounded down. -/
def powMant : List Nat :=
  [1000000000000000000, 1059253725177288878, 1122018454301963435, 1188502227437018437, 1258925411794167210,
   1333521432163324025, 1412537544622754302, 1496235656094433411, 1584893192461113485, 1678804018122560313,
   1778279410038922801, 1883649089489800535, 1995262314968879601, 2113489039836646795, 2238721138568339611,
   2371373705661655261, 2511886431509580111, 2660725059798809634, 2818382931264453819, 2985382618917959617] ++
  [3162277660168379331, 3349654391578276595, 3548133892335754584, 3758374042884441673, 3981071705534972507,
   4216965034285822485, 4466835921509631185, 4731512589614804789, 5011872336272722850, 5308844442309883522,
   5623413251903490803, 5956621435290104605, 6309573444801932494, 6683439175686146083, 7079457843841379108,
   7498942093324558273, 7943282347242815020, 8413951416451950911, 8912509381337455299, 9440608762859233803]

/-- A level in 0.25 dBm as a linear power (R176); below -250 dBm it counts as nothing. -/
def linear (q : Int) : Nat :=
  let n := (q + 1000).toNat
  if q < -1000 then 0 else powMant.getD (n % 40) 0 * 10 ^ (n / 40)

/-- The highest level of the grid, from `q` down, that fits into the linear power `room`. -/
def gridDown (room : Nat) : Nat → Int → Option Int
  | 0, _ => none
  | n + 1, q => if linear q ≤ room then some q else gridDown room n (q - 1)

/-- Symbols of the preamble and the sync word (R195). -/
def syncSyms (m : Mode) : Nat :=
  match m.family with
  | .fsk => 80 / m.b
  | .oqpsk => 10
  | .deep => 96
  | .wide => 48

/-- A transmission is between its decision instant and its ramp-down's end. -/
def Tx.active (t : Tx) : Bool := t.phase == .txpre || t.phase == .granted || t.phase == .onAir

/-- A frame of an air queue is released and not yet admitted. -/
def Tx.waiting (t : Tx) : Bool := t.phase == .waitLock || t.phase == .backoff || t.phase == .cca

namespace Dev

/-! ### A carrier's transmissions -/

def tx (d : Dev) (c : Nat) (hold : Bool) : Tx :=
  if hold then (match (d.carrier c).hold with | some h => h.tx | none => {}) else (d.carrier c).own

def modTx (d : Dev) (c : Nat) (hold : Bool) (f : Tx → Tx) : Dev :=
  d.modCarrier c (fun x =>
    if hold then { x with hold := x.hold.map (fun h => { h with tx := f h.tx }) } else { x with own := f x.own })

/-- Channel and mode of a transmission (R206, R250). -/
def txKhz (d : Dev) (c : Nat) (hold : Bool) : Nat :=
  if hold then (match (d.carrier c).hold with | some h => h.khz | none => 0) else d.carKhz c

def txMode (d : Dev) (c : Nat) (hold : Bool) : Nat :=
  if hold then (match (d.carrier c).hold with | some h => h.mode | none => 0) else d.carMode c

/-- The port a carrier transmits on, or 4. -/
def portOf (d : Dev) (c : Nat) : Nat := (d.carPort c).getD 4

/-- Transmissions in progress on a port: carrier and side. -/
def activeOn (d : Dev) (p : Nat) : List (Nat × Bool) :=
  (d.txc.filter (fun x => decide (d.carPort x.1 = some p))).flatMap (fun x =>
    (if x.2.own.active then [(x.1, false)] else []) ++
      (match x.2.hold with | some h => if h.tx.active then [(x.1, true)] else [] | none => []))

/-- Ramp length of a carrier in µs (R193). -/
def rampOf (d : Dev) (c : Nat) : Nat := rampUs (bits (d.carWord c) 25 21)

/-- The side of a carrier whose transmission satisfies a test, its own first. -/
def sideWith (d : Dev) (c : Nat) (f : Tx → Bool) : Option Bool :=
  if f (d.tx c false) then some false else if (d.carrier c).hold.isSome && f (d.tx c true) then some true else none

/-! ### Limits (R119, R123) -/

/-- The occupied bandwidth lies in a range of kHz. -/
def within (khz spacing lo hi : Nat) : Bool := decide (2 * lo + spacing ≤ 2 * khz ∧ 2 * khz + spacing ≤ 2 * hi)

/-- The valid sub-band that holds the occupied bandwidth. -/
def sbOf (d : Dev) (khz mode : Nat) : Option Nat :=
  (List.range 12).find? (fun n =>
    let s := d.cin.sb.get {} n
    s.valid && within khz (spacingOf mode) s.fLo s.fHi)

/-- Check 2 of R178. -/
def sbPermits (d : Dev) (p khz mode : Nat) : Bool :=
  if d.cin.locked then
    (match d.sbOf khz mode with
     | some n => !(d.cin.sb.get {} n).disabled && (d.cin.ports.get {} p).txPermitted
     | none => false)
  else within khz (spacingOf mode) 150000 1050000 || within khz (spacingOf mode) 2300000 2500000

/-- The driver limit of a carrier (R119, R123). -/
def driverLimit (d : Dev) (p khz mode : Nat) : Int :=
  if d.cin.locked then
    let e := d.cin.ports.get {} p
    let s := d.cin.sb.get {} ((d.sbOf khz mode).getD 12)
    min 32 (s.maxEirp - e.aerialGain + (e.cableLoss : Int) - e.femTxGain)
  else -80

/-- LBT is demanded for the sub-band (R123). -/
def lbtReq (d : Dev) (khz mode : Nat) : Bool :=
  if d.cin.locked then (d.cin.sb.get {} ((d.sbOf khz mode).getD 12)).lbtReq else true

/-- The CCA threshold at the ball (R196). -/
def ccaThresh (d : Dev) (p khz mode : Nat) : Int :=
  let own := 4 * sext 8 (d.cfg.CSMA_CTL_CCA_THRESH p)
  if d.cin.locked && d.lbtReq khz mode then
    let e := d.cin.ports.get {} p
    let s := d.cin.sb.get {} ((d.sbOf khz mode).getD 12)
    min own (4 * s.lbtThresh + e.aerialGain - (e.cableLoss : Int) + 4 * e.femRxGain)
  else own

/-- The CCA time in µs (R196). -/
def ccaUs (d : Dev) (khz mode : Nat) : Nat :=
  let t := match modeOf mode with | some m => m.cca | none => 0
  if d.cin.locked && d.lbtReq khz mode then max t (10 * (d.cin.sb.get {} ((d.sbOf khz mode).getD 12)).lbtListen) else t

/-- LINEAR of a port (R117, R123). -/
def linearPort (d : Dev) (p : Nat) : Bool := d.cin.locked && (d.cin.ports.get {} p).linear

/-! ### Duty (R183 to R188) -/

/-- The duty account of a transmission. -/
def accountOf (d : Dev) (p c khz mode : Nat) : Nat :=
  if d.cin.locked then 12 * p + (d.sbOf khz mode).getD 0 else 48 + c

/-- The used value of an account. -/
def dutyUsed (d : Dev) (a : Nat) : Nat := (List.range 61).foldl (fun n b => n + d.duty.bins.get 0 (a * 61 + b)) 0

/-- The budget of an account and its reserve in µs (R184, R187). -/
def dutyBudget (d : Dev) (a : Nat) : Nat × Nat :=
  if a < 48 then
    let duty := (d.cin.sb.get {} (a % 12)).duty
    (duty * d.cin.dutyWindow * 100, min (d.cfg.DUTY_RSV_RESERVE (a / 12) (a % 12)) duty * d.cin.dutyWindow * 100)
  else (600000, 0)

/-- Check 6 of R178. -/
def dutyFits (d : Dev) (a us : Nat) (reserved : Bool) : Bool :=
  let b := d.dutyBudget a
  decide (d.dutyUsed a + us ≤ if reserved then b.1 else b.1 - b.2)

/-- Charge an account. -/
def dutyCharge (d : Dev) (a us : Nat) : Dev :=
  { d with duty := { d.duty with
      bins := d.duty.bins.upd 0 (a * 61 + d.duty.cur) (fun n => n + us)
      epochCharge := d.duty.epochCharge.upd 0 a (fun n => n + us) } }

/-- Withdraw a frame's charge (R184, R185). -/
def dutyWithdraw (d : Dev) (f : TxFrame) : Dev :=
  match f.chargedAcct with
  | none => d
  | some a =>
    { d with duty := { d.duty with
        bins := d.duty.bins.upd 0 (a * 61 + f.chargedBin) (fun n => n - f.chargedUs)
        epochCharge := d.duty.epochCharge.upd 0 a (fun n => n - f.chargedUs) } }

/-- EVT_DUTY_EXHAUSTED at the first refusal of an account in an epoch (R180): an unlocked device's accounts are those of its
carriers, which belong to no sub-band, so that each has its own event, with 0xFF for the sub-band (DESIGN CHOICE, log entry
174). -/
def dutyEvent (d : Dev) (p a : Nat) : Dev :=
  if a ∈ d.duty.evtDone then d
  else ({ d with duty := { d.duty with evtDone := d.duty.evtDone ++ [a] } }).raise .EVT_DUTY_EXHAUSTED
    (le 1 p ++ le 1 (if a < 48 then a % 12 else 0xFF) ++ le 4 (d.dutyUsed a))

/-- EVT_SUBBAND_DISABLED, once per sub-band per reset (R126): also where TX_PERMITTED is 0 and the sub-band is enabled; DATA is
port and sub-band, one octet each (DESIGN CHOICE, log entry 144). -/
def subbandEvent (d : Dev) (p khz mode : Nat) : Dev :=
  match d.sbOf khz mode with
  | some n =>
    if ¬ d.cin.locked ∨ n ∈ d.cin.disabledEvt then d
    else ({ d with cin := { d.cin with disabledEvt := d.cin.disabledEvt ++ [n] } }).raise .EVT_SUBBAND_DISABLED
      (le 1 p ++ le 1 n)
  | none => d

/-- The bin interval in ms (R183); 60 s windows on an unlocked device. -/
def binMs (d : Dev) : Nat := ceilDiv ((if d.cin.locked then d.cin.dutyWindow else 60) * 1000) 60

/-- A bin interval elapses (R183): the oldest bin of every account is cleared. -/
def dutyAdvance (d : Dev) : Dev :=
  let cur := (d.duty.cur + 1) % 61
  { d with duty := { d.duty with cur := cur, bins := d.duty.bins.filter (fun x => decide (x.1 % 61 ≠ cur)) } }

/-! ### Power (R175, R176) -/

/-- The composite headroom of a port for a new carrier; none where no level of the grid fits. -/
def headroom (d : Dev) (p : Nat) : Option Int :=
  let top : Int := 32 - ((bits (d.cfg.get 0#32 (Reg.TX_PORT_CTL p)).toNat 5 0 : Nat) : Int)
  let used := ((d.activeOn p).map (fun x => linear (d.tx x.1 x.2).granted)).foldl (fun n v => n + v) 0
  if used = 0 then some top else gridDown (linear top - used) 200 top

/-- The requested power of a frame (R175). -/
def requested (d : Dev) (c : Nat) (f : TxFrame) : Int :=
  match f.power, (d.carrier c).held with
  | some v, _ => v
  | none, some h => sext 16 h.pwr
  | none, none => sext 16 (d.cfg.TXC_PWR_LEVEL c)

/-- TXC_CFG.MIN_PWR. -/
def minPwr (d : Dev) (c : Nat) : Int := sext 8 (bits (d.carWord c) 15 8)

/-! ### The checks of R178 -/

/-- Check 1: the carrier is parked (R172). -/
def carParked (d : Dev) (c : Nat) (hold : Bool) : Bool :=
  match d.carPort c, modeOf (d.txMode c hold) with
  | some p, some m =>
    !bit (d.carWord c) 31 || !bandFits m (d.txKhz c hold) || !inWindow m (d.txKhz c hold) (d.centre p)
  | _, _ => true

/-- Check 3: an overlapping carrier is on air, or another carrier is and the port is not LINEAR (R173, R174). -/
def carBusy (d : Dev) (c : Nat) (hold : Bool) : Bool :=
  let p := d.portOf c
  let others := (d.activeOn p).filter (fun x => x.1 != c)
  others.any (fun x => bandsOverlap (d.txKhz c hold) (spacingOf (d.txMode c hold)) (d.txKhz x.1 x.2)
    (spacingOf (d.txMode x.1 x.2))) || (!others.isEmpty && !d.linearPort p) ||
    (!hold && (d.carrier c).hold.isSome)

/-- The airtime of a frame on a carrier, µs (R181, R193). -/
def durOf (d : Dev) (c : Nat) (hold : Bool) (f : TxFrame) : Nat :=
  if f.kind = .test then f.durUs
  else match modeOf (d.txMode c hold) with
    | some m => airtime m f.coded (d.rampOf c) f.psduLen
    | none => 0

/-- AR of a frame as it goes out. -/
def frameAr (d : Dev) (f : TxFrame) : Bool := arOf f (d.sharedOf f).mesh

/-- A close as the cut of an epoch leaves it (R258). -/
def cutClose (d : Dev) (p close : Nat) : Nat :=
  match (d.seq p).cut with | some k => min close k | none => close

/-- The instant of a close, ns: a slot runs from its effect time, 40 ns after its tick (R233, R239), and a cut at its tick
(R258). -/
def closeNs (d : Dev) (p close : Nat) : Nat :=
  match (d.seq p).cut with
  | some k => if k < close then d.epoch.start + k * 1000 else d.epoch.start + close * 1000 + 40
  | none => d.epoch.start + close * 1000 + 40

/-- Check 4 with `extra` µs before the decision instant: the frame ends by its effective close (R26, R241), or by the bound of
R246. -/
def endsInTime (d : Dev) (c : Nat) (hold : Bool) (f : TxFrame) (extra : Nat) : Bool :=
  let p := d.portOf c
  let a := d.durOf c hold f
  let endNs := d.now + (extra + 40 + a + 24) * 1000
  match f.kind, hold with
  | .ack, _ => d.fitsBound p (portBound p) endNs
  | .enhAck, _ => d.fitsBound p (portBound p) endNs
  | .test, _ => d.fitsBound p usesPort endNs
  | _, true => d.fitsBound p usesPort endNs
  | .beacon, false => decide (d.now + (extra + 40 + a) * 1000 ≤ d.closeNs p (d.carrier c).bcnClose)
  | _, false =>
    match (d.carrier c).slot, modeOf (d.txMode c hold) with
    | some s, some m =>
      decide (d.now + (extra + 40 + a + (if d.frameAr f then ackWaitUs m (d.cfg.ACK_CTL_SLACK_US p) else 0)) * 1000 ≤
        d.closeNs p s.close)
    | _, _ => false

/-- Checks 1 to 4: the status of the first that fails. -/
def earlyCheck (d : Dev) (c : Nat) (hold : Bool) (f : TxFrame) : Option Status :=
  let p := d.portOf c
  if d.carParked c hold then some .ST_CARRIER_PARKED
  else if ¬ d.sbPermits p (d.txKhz c hold) (d.txMode c hold) then some .ST_SUBBAND_OFF
  else if d.carBusy c hold then some .ST_CARRIER_BUSY
  else if ¬ d.endsInTime c hold f 0 then some .ST_NEXT_WINDOW
  else none

/-- The frame is of the class that the duty reserve is kept for. -/
def dutyReserved (f : TxFrame) : Bool := f.kind == .ack || f.kind == .enhAck || f.kind == .beacon

/-- The granted power, unless the headroom is below MIN_PWR (check 7). -/
def powerOf (d : Dev) (c : Nat) (hold : Bool) (f : TxFrame) : Option Int :=
  match d.headroom (d.portOf c) with
  | some h =>
    if h < d.minPwr c then none
    else some (min (d.requested c f) (min (d.driverLimit (d.portOf c) (d.txKhz c hold) (d.txMode c hold)) h))
  | none => none

/-- R621: the port may leave RX at S: it is in RX, or in TXPRE or TX for another carrier, and not on its way back (R242). -/
def mayLeaveRx (d : Dev) (p : Nat) : Bool :=
  d.pair.gateOpen && d.cfg.RF_CTL_TX_INHIBIT p == 0 && d.modes.phase != .survey &&
    ((d.port p).st == .rx || (((d.port p).st == .txpre || (d.port p).st == .tx) && (d.port p).step != .returning))

/-- Checks 1 to 4, 6 and 7 and R621 at the decision instant: the status of the first that fails. -/
def decideCheck (d : Dev) (c : Nat) (hold : Bool) (f : TxFrame) : Option Status :=
  match d.earlyCheck c hold f with
  | some st => some st
  | none =>
    let p := d.portOf c
    let a := d.accountOf p c (d.txKhz c hold) (d.txMode c hold)
    if ¬ d.dutyFits a (d.durOf c hold f) (dutyReserved f) then some .ST_DUTY_DEFERRED
    else if (d.powerOf c hold f).isNone then some .ST_COMPOSITE_FULL
    else if ¬ d.mayLeaveRx p then some .ST_PORT_BUSY
    else none

/-! ### Coexistence lines -/

/-- Carriers of a port with a frame that waits and for which REQ has risen early (R103 step 1). -/
def earlyOn (d : Dev) (p : Nat) : List Nat :=
  (d.txc.filter (fun x => decide (d.carPort x.1 = some p) && x.2.own.waiting && x.2.own.early)).map (fun x => x.1)

/-- The class of a transmission's frame drives PRI (R104). -/
def txPri (d : Dev) (p c : Nat) (hold : Bool) : Bool :=
  match (d.tx c hold).cur with | some f => d.priOf p f.kind | none => false

/-- REQ and PRI for the frames in progress on a port, those requested early among them (R103, R104). -/
def coexUpdate (d : Dev) (p : Nat) : Dev :=
  d.coexRaise p ((d.activeOn p).any (fun x => d.txPri p x.1 x.2) || (d.earlyOn p).any (fun c => d.txPri p c false))

/-- No transmission of the port is in TXPRE, on air, or denied and not yet at its E (R103, R105). -/
def portQuiet (d : Dev) (p : Nat) : Bool := (d.activeOn p).isEmpty && (d.port p).denied.isEmpty

/-- An early request has ended without a decision instant (R103 step 1): REQ falls unless another frame of the port or the
hold of step 5 keeps it. -/
def earlyFall (d : Dev) (p : Nat) : Dev :=
  if d.portQuiet p && (d.earlyOn p).isEmpty then (if (d.port p).reqHold then d else d.coexFall p)
  else if (d.activeOn p).isEmpty && (d.earlyOn p).isEmpty then d
  else d.coexUpdate p

/-! ### Ends of a transmission -/

/-- A copy of a packet is gone. -/
def dropCopy (d : Dev) (f : TxFrame) : Dev :=
  if f.grp = 0 then d
  else
    let s := d.shared f.grp
    if s.copies ≤ 1 then { d with air := { d.air with shared := d.air.shared.del f.grp } }
    else d.setShared f.grp { s with copies := s.copies - 1 }

/-- The carrier has sent a frame without acknowledgement whose exchange has not ended: E to E + 24 µs (R64). -/
def exchanging (d : Dev) (c : Nat) : Bool := [0, 1, 2, 3].any (fun p => (d.port p).exchCars.contains c)

/-- The carrier's settings in force apply, its exchange having ended (R64, R250). -/
def releaseCar (d : Dev) (c : Nat) : Dev :=
  let x := d.carrier c
  if x.own.phase == .idle && x.hold.isNone && !d.exchanging c then
    d.modCarrier c (fun y => { y with
      held := none
      freqOv := match y.deferFreq with | some v => some v | none => y.freqOv
      modeOv := match y.deferMode with | some v => some v | none => y.modeOv
      deferFreq := none, deferMode := none })
  else d

/-- Keep the settings of a carrier in an exchange through a change (R64). -/
def holdCarrier (d : Dev) (c : Nat) : Dev :=
  let x := d.carrier c
  if (x.own.active || x.own.phase == .ackWait || x.hold.isSome || d.exchanging c) && x.held.isNone then
    d.modCarrier c (fun y => { y with held := some ⟨d.carWord c, d.carKhz c, d.carMode c,
      (d.cfg.get 0xFF88#32 (Reg.TXC_PWR c)).toNat⟩ })
  else d

/-- The carrier's own transmission is over. -/
def clearOwn (d : Dev) (c : Nat) : Dev := (d.modCarrier c (fun x => { x with own := {} })).releaseCar c

/-- The acknowledgement's hold of a carrier is over (R206). -/
def clearHold (d : Dev) (c : Nat) : Dev := (d.modCarrier c (fun x => { x with hold := none })).releaseCar c

/-- The slot or window makes no further release, or a window none of the frame's class (R179, R198, R209, R240): a frame left
at the head with ST_CHANNEL_BUSY is not tried again in the same window (DESIGN CHOICE, log entry 175). -/
def noMore (d : Dev) (c cls : Nat) (ends : Bool) : Dev :=
  d.modCarrier c (fun x => { x with slot := x.slot.map (fun s =>
    if s.win && !ends then { s with blocked := s.blocked ||| 2 ^ cls } else { s with noMore := true }) })

/-- An item is the air frame `u`. -/
def isFrame (u : Nat) : QItem → Bool
  | .air f => f.uid == u
  | _ => false

/-- Replace a frame where it stands in its queue. -/
def setHead (d : Dev) (q : Nat) (f : TxFrame) : Dev :=
  d.setQueue q ((d.queue q).map (fun x => if isFrame f.uid x then .air f else x))

/-- Take a frame out of its queue. -/
def takeFrame (d : Dev) (q u : Nat) : Dev := d.setQueue q ((d.queue q).filter (fun x => !isFrame u x))

/-- Frames of the indirect queue: change or remove the one of a node that is in an exchange (R213). -/
def modIndirect (d : Dev) (poll : Option (Nat × W64)) (g : Indirect → Option Indirect) : Dev :=
  match poll with
  | none => d
  | some (k, e) =>
    let r := d.air.indirect.foldl (fun (acc : List Indirect × Bool) x =>
      if ¬ acc.2 ∧ x.pan = k ∧ x.eui = e ∧ x.inExch = true then
        (acc.1 ++ (match g x with | some y => [y] | none => []), true)
      else (acc.1 ++ [x], acc.2)) (([] : List Indirect), false)
    { d with air := { d.air with indirect := r.1 } }

/-- The polling node of a held carrier. -/
def pollOf (d : Dev) (c : Nat) : Option (Nat × W64) :=
  match (d.carrier c).hold with | some h => h.poll | none => none

/-- An exchange of an indirect frame ended without an acknowledgement (R212, R213). -/
def indirectUnsent (d : Dev) (c : Nat) : Dev :=
  let poll := d.pollOf c
  let d := match d.air.indirect.find? (fun x => decide (some (x.pan, x.eui) = poll) && x.inExch) with
    | some x =>
      let r := d.giveBack x.frame
      r.1.modIndirect poll (fun y => some { y with frame := r.2 })
    | none => d
  let gone := d.air.indirect.any (fun x => decide (some (x.pan, x.eui) = poll) && x.inExch && x.expired)
  let d := d.modIndirect poll (fun x => if x.expired then none else some { x with inExch := false })
  let d := match gone, poll with
    | true, some (k, _) => d.bump (Cnt.INDIRECT_EXPIRED k)
    | _, _ => d
  d.clearHold c

/-- Count a refusal of check 1 or 2 (R172, R126). -/
def countParked (d : Dev) (c : Nat) (hold : Bool) (st : Status) : Dev :=
  match st with
  | .ST_CARRIER_PARKED => d.bump (Cnt.TX_CARRIER_PARKED c)
  | .ST_SUBBAND_OFF => (d.bump (Cnt.TX_SUBBAND_OFF c)).subbandEvent (d.portOf c) (d.txKhz c hold) (d.txMode c hold)
  | _ => d

/-- An acknowledgement is dropped (R179, R205, R206, R621). -/
def dropAck (d : Dev) (c : Nat) (st : Status) : Dev :=
  let p := d.portOf c
  let l := match (d.carrier c).hold with | some h => h.lane | none => 192
  let d := match st with
    | .ST_CARRIER_BUSY => d.bump (Cnt.ACK_CARRIER_BUSY p)
    | .ST_NEXT_WINDOW => d.bump (Cnt.ACK_SLOT_CLOSED p)
    | .ST_DUTY_DEFERRED => d.bump (Cnt.ACK_DUTY_DENIED p)
    | .ST_COMPOSITE_FULL => d.bump (Cnt.ACK_COMPOSITE_FULL p)
    | .ST_COEX_DENIED => d.bump (Cnt.ACK_COEX_DENIED p)
    | .ST_PORT_BUSY => d.bump (Cnt.ACK_PORT_BUSY p)
    | s => d.countParked c true s
  let d := if st = .ST_CARRIER_PARKED ∨ st = .ST_SUBBAND_OFF then d.logFrame c st else d
  let d := d.indirectUnsent c
  if l < 192 then d.laneExchEnd l else d

/-- A beacon is skipped (R179, R219, R245); REQ raised early for it falls (R103). -/
def skipBeacon (d : Dev) (c : Nat) (st : Status) : Dev :=
  let p := d.portOf c
  let early := (d.tx c false).early
  let d := if st = .ST_CARRIER_PARKED ∨ st = .ST_SUBBAND_OFF then d.logFrame c st else d
  let d := (match st with
    | .ST_CARRIER_BUSY => d.bump (Cnt.BEACON_CARRIER_BUSY p)
    | .ST_NEXT_WINDOW => d.bump (Cnt.BCN_SKIPPED p)
    | .ST_PORT_BUSY => d.bump (Cnt.BCN_SKIPPED p)
    | .ST_DUTY_DEFERRED => d.bump (Cnt.BEACON_DUTY_DENIED p)
    | .ST_COMPOSITE_FULL => d.bump (Cnt.BEACON_COMPOSITE_FULL p)
    | .ST_COEX_DENIED => d.bump (Cnt.BEACON_COEX_DENIED p)
    | .ST_CHANNEL_BUSY => d.bump (Cnt.BEACON_LBT_BUSY p)
    | s => d.countParked c false s).clearOwn c
  if early then d.earlyFall p else d

/-- The status a test transmission completes with (R193). -/
def testStatus : Status → Status
  | .ST_CARRIER_PARKED => .ST_SUBBAND_OFF
  | .ST_SUBBAND_OFF => .ST_SUBBAND_OFF
  | .ST_CHANNEL_BUSY => .ST_CHANNEL_BUSY
  | .ST_DUTY_DEFERRED => .ST_DUTY_EXHAUSTED
  | _ => .ST_PORT_BUSY

/-- A test transmission ends with a status. -/
def testDone (d : Dev) (c : Nat) (st : Status) (result : List Byte) : Dev :=
  let cmd := (d.carrier c).test
  let d := (d.modCarrier c (fun x => { x with test := none, testKhz := none, testPwr := none })).clearOwn c
  match cmd with
  | some k => d.complete k st result
  | none => d

/-- Count a refusal by its status (R194), check 1 or 2 included. -/
def countRefused (d : Dev) (c : Nat) (hold : Bool) (st : Status) : Dev :=
  match st with
  | .ST_CARRIER_BUSY => d.bump (Cnt.CARRIER_BUSY c)
  | .ST_DUTY_DEFERRED => d.bump (Cnt.DUTY_DEFER c)
  | .ST_COMPOSITE_FULL => d.bump (Cnt.COMPOSITE_FULL c)
  | s => d.countParked c hold s

/-- A queued frame is refused before its admission and stays at the head (R179, R198, R95). `ends` says that the
instruction ends. -/
def refuseQueued (d : Dev) (c : Nat) (st : Status) (ends : Bool) : Dev :=
  let t := d.tx c false
  match t.cur, t.queue with
  | some f, some q =>
    let d := d.countRefused c false st
    let r := d.giveBack f
    (((((r.1.setHead q r.2).logFrame c st).noMore c f.cls ends).clearOwn c)).earlyFall (d.portOf c)
  | _, _ => d

/-- A queued frame is discarded before its admission. -/
def discardQueued (d : Dev) (c : Nat) (st : Status) : Dev :=
  let t := d.tx c false
  match t.cur, t.queue with
  | some f, some q =>
    let d := d.countParked c false st
    let r := d.giveBack f
    ((((r.1.takeFrame q f.uid).dropCopy r.2).logFrame c st).clearOwn c).earlyFall (d.portOf c)
  | _, _ => d

/-- A frame that has waited for lock no longer fits (R95): LATE_LOCK. -/
def refuseLate (d : Dev) (c : Nat) : Dev :=
  (d.bump (Cnt.LATE_LOCK (d.portOf c))).refuseQueued c .ST_LATE_LOCK false

/-- The outcome of a frame that a check refuses (R179, R193, R213). -/
def refuse (d : Dev) (c : Nat) (hold : Bool) (st : Status) : Dev :=
  let p := d.portOf c
  match (d.tx c hold).cur with
  | none => d
  | some f =>
    let d := if st = .ST_DUTY_DEFERRED then d.dutyEvent p (d.accountOf p c (d.txKhz c hold) (d.txMode c hold)) else d
    match f.kind, hold with
    | .ack, _ => d.dropAck c st
    | .enhAck, _ => d.dropAck c st
    | .beacon, _ => d.skipBeacon c st
    | .test, _ =>
      let d := if st = .ST_CHANNEL_BUSY then d.bump (Cnt.CHANNEL_BUSY p) else d.countParked c false st
      d.testDone c (testStatus st) []
    | _, true => ((d.countRefused c true st).logFrame c st).indirectUnsent c
    | _, false =>
      if st = .ST_NEXT_WINDOW ∧ (d.tx c false).late then d.refuseLate c
      else if st = .ST_CARRIER_PARKED ∨ st = .ST_SUBBAND_OFF then d.discardQueued c st else d.refuseQueued c st true

/-! ### The decision instant (R178, R621, R103) -/

/-- Admit a frame at S: charge, power, sequence numbers, TXPRE. -/
def admitTx (d : Dev) (c : Nat) (hold : Bool) (f : TxFrame) (pwr : Int) : Dev :=
  let p := d.portOf c
  let khz := d.txKhz c hold
  let mode := d.txMode c hold
  let a := d.accountOf p c khz mode
  let us := d.durOf c hold f
  let req := d.requested c f
  let d := d.dutyCharge a us
  let d := if pwr < req ∧ pwr = d.driverLimit p khz mode then d.bump (Cnt.PWR_CLAMPED c) else d
  let d := if pwr < req ∧ some pwr = d.headroom p then d.bump (Cnt.PWR_CLAMPED_COMP c) else d
  let stamped := f.kind == .beacon || (f.tsReq && (f.kind == .data || f.kind == .bulk || f.kind == .assoc))
  let sn := (d.port p).txSeq
  let d := if stamped then d.modPort p (fun x => { x with txSeq := (x.txSeq + 1) % 65536 }) else d
  let r := match f.kind with
    | .data => d.takeDsn f
    | .bulk => d.takeDsn f
    | .assoc => d.takeDsn f
    | _ => (d, f)
  let q := (d.tx c hold).queue
  let d := match q with
    | some n =>
      let d := r.1.takeFrame n f.uid
      if f.dequeued then d else d.chargeDequeue n
    | none => r.1
  let g : TxFrame := { r.2 with
    dequeued := true, chargedAcct := some a, chargedBin := d.duty.cur, chargedUs := us, granted := pwr, reqPwr := req
    clamped := decide (pwr < req), stampSeq := if stamped then some sn else none, durUs := us }
  let d := d.modTx c hold (fun t => { t with phase := .txpre, cur := some g, granted := pwr, decideUp := d.up })
  let d := if (d.port p).st == .rx then d.setSt p .txpre else d
  d.coexUpdate p

/-- The decision instant of a transmission. -/
def decideS (d : Dev) (c : Nat) (hold : Bool) : Dev :=
  match (d.tx c hold).cur with
  | none => d
  | some f =>
    match d.decideCheck c hold f with
    | some st => d.refuse c hold st
    | none =>
      match d.powerOf c hold f with
      | some pwr => d.admitTx c hold f pwr
      | none => d

/-! ### Channel access (R196 to R198) -/

/-- CSMA parameters as they act. -/
def maxBe (d : Dev) (p : Nat) : Nat := clampN 3 8 (d.cfg.CSMA_CTL_MAX_BE p)
def minBe (d : Dev) (p : Nat) : Nat := min (d.cfg.CSMA_CTL_MIN_BE p) (d.maxBe p)
def maxBackoffs (d : Dev) (p : Nat) : Nat := min 5 (d.cfg.CSMA_CTL_MAX_BACKOFFS p)

/-- A lane of the port whose channel overlaps the carrier's bandwidth receives (R196). -/
def laneOver (d : Dev) (c : Nat) (hold : Bool) : Bool :=
  (d.portLanes (d.portOf c)).any (fun l => (d.lane l).st.latched &&
    bandsOverlap (d.laneKhz l) (spacingOf (d.laneMode l)) (d.txKhz c hold) (spacingOf (d.txMode c hold)))

/-- A CCA of `us` that ends now has found its channel in use by a lane, or its port out of RX, at some moment of its time
(R196). -/
def ccaSpanBusy (d : Dev) (c : Nat) (hold : Bool) (us : Nat) : Bool :=
  let p := d.portOf c
  let t0 := d.up - us * 1000
  (d.port p).st != .rx || decide (t0 < (d.port p).rxSince) || d.laneOver c hold ||
    (d.portLanes p).any (fun l => match (d.lane l).lastRx with
      | some (t, khz, sp) => decide (t0 < t) && bandsOverlap khz sp (d.txKhz c hold) (spacingOf (d.txMode c hold))
      | none => false)

/-- A CCA begins. -/
def ccaStart (d : Dev) (c : Nat) : Dev :=
  let busy := (d.port (d.portOf c)).st != .rx || d.laneOver c false
  d.modTx c false (fun t => { t with phase := .cca, busy := busy })

/-- What a CCA finds at its end, with the highest level measured. -/
def ccaBusy (d : Dev) (c : Nat) (hold : Bool) (level : Int) : Bool :=
  (d.tx c hold).busy || d.ccaSpanBusy c hold (d.ccaUs (d.txKhz c hold) (d.txMode c hold)) ||
    decide (d.ccaThresh (d.portOf c) (d.txKhz c hold) (d.txMode c hold) ≤ level)

/-- The next CCA of R197 would begin after `wait` µs: it is prepared, or the frame waits for the next window. -/
def csmaNext (d : Dev) (c wait : Nat) : Dev :=
  match (d.tx c false).cur with
  | none => d
  | some f =>
    if ¬ d.endsInTime c false f (wait + d.ccaUs (d.carKhz c) (d.carMode c)) then
      if (d.tx c false).late then d.refuseLate c
      else (d.bump (Cnt.CSMA_WINDOW_END (d.portOf c))).refuseQueued c .ST_NEXT_WINDOW false
    else if wait = 0 then d.ccaStart c
    else d.modTx c false (fun t => { t with phase := .backoff, wait := wait })

/-- A backoff of R197: random(2^BE - 1) unit periods of the mode (R195). -/
def backoff (d : Dev) (c be : Nat) : Dev :=
  let r := d.drawTo (2 ^ be - 1)
  let u := match modeOf (d.carMode c) with
    | some m => m.ta + m.cca
    | none => 0
  (r.2.modTx c false (fun t => { t with be := be })).csmaNext c (r.1 * u)

/-- Channel access of a released frame (R197). -/
def access (d : Dev) (c : Nat) : Dev :=
  let p := d.portOf c
  let d := d.modTx c false (fun t => { t with nb := 0, be := d.minBe p })
  match (d.carrier c).slot with
  | some s =>
    if s.win then d.backoff c (d.minBe p)
    else if s.cca || d.lbtReq (d.carKhz c) (d.carMode c) then d.csmaNext c 0
    else d.decideS c false
  | none => d

/-- The channel-access failure of R198. -/
def accessFailure (d : Dev) (c : Nat) : Dev :=
  let p := d.portOf c
  let t := d.tx c false
  match t.cur with
  | none => d
  | some f =>
    let d := d.bump (Cnt.CHANNEL_BUSY p)
    if f.caf + 1 < max 1 (d.cfg.CSMA_CTL_MAX_CAF p) then
      (d.modTx c false (fun t => { t with cur := some { f with caf := f.caf + 1 } })).refuseQueued c .ST_CHANNEL_BUSY false
    else (d.bump (Cnt.CHANNEL_ACCESS_FAIL p)).discardQueued c .ST_CHANNEL_ACCESS_FAILURE

/-- An acknowledgement that the port must send, or waits for, on another carrier: it takes precedence over channel access
(R200). A CCA that ends before it is done finds the channel busy (DESIGN CHOICE, log entry 152). -/
def ackPrecedes (d : Dev) (c : Nat) : Bool :=
  (d.carOf (d.portOf c)).any (fun x => x != c && ((d.carrier x).own.phase == .ackWait ||
    (match (d.carrier x).hold with
     | some h => !h.gap && (h.tx.phase == .sched || h.tx.phase == .ackWait)
     | none => false)))

/-- A CCA of a carrier's own frame ends. -/
def ccaEnd (d : Dev) (c : Nat) (level : Int) : Dev :=
  let t := d.tx c false
  match t.phase, t.cur with
  | .cca, some f =>
    let first := f.kind != .beacon && f.kind != .test && d.ackPrecedes c
    if ¬ d.ccaBusy c false level ∧ ¬ first = true then d.decideS c false
    else if f.kind = .beacon then d.skipBeacon c .ST_CHANNEL_BUSY
    else if f.kind = .test then d.refuse c false .ST_CHANNEL_BUSY
    else if d.maxBackoffs (d.portOf c) < t.nb + 1 then d.accessFailure c
    else
      ((d.modTx c false (fun t => { t with nb := t.nb + 1, early := false })).earlyFall (d.portOf c)).backoff c
        (min (t.be + 1) (d.maxBe (d.portOf c)))
  | _, _ => d

/-! ### The indirect queue (R212) -/

/-- The indirect queue can take a frame of a node. -/
def indirectRoom (d : Dev) (k : Nat) (eui : W64) : Bool :=
  decide (d.air.indirect.length < 4096 ∧
    (d.air.indirect.filter (fun x => decide (x.pan = k ∧ x.eui = eui))).length < 4)

/-- A frame joins the indirect queue, or is refused. -/
def offerIndirect (d : Dev) (f : TxFrame) (k loc : Nat) (eui : W64) : Dev × Status :=
  if d.indirectRoom k eui then
    let f := { f with uid := d.air.nextUid }
    ({ d with air := { d.air with nextUid := d.air.nextUid + 1, indirect := d.air.indirect ++ [⟨f, k, eui, loc, false, false⟩] } },
      .ST_OK)
  else (d, .ST_INDIRECT_FULL)

/-! ### Release from an air queue (R239, R240, R244, R623) -/

/-- A queue's head frame is released to some carrier and not yet admitted. -/
def headBound (d : Dev) (q : Nat) : Bool :=
  match (d.queue q).head? with
  | some (.air f) => d.txc.any (fun x => x.2.own.waiting && decide (x.2.own.queue = some q) &&
      (match x.2.own.cur with | some g => g.uid == f.uid | none => false))
  | _ => false

/-- The port can take a release: it is in RX, or a carrier of it is on air (R242, R623). -/
def portReady (d : Dev) (p : Nat) : Bool :=
  (d.port p).st == .rx || (((d.port p).st == .tx || (d.port p).st == .txpre) && (d.port p).step != .returning &&
    !(d.activeOn p).isEmpty)

/-- The class whose head frame an open slot or window would release now. -/
def slotClass (d : Dev) (p : Nat) (s : Slot) : Option Nat :=
  (List.range 8).find? (fun k => bit s.classes k && !bit s.blocked k && (d.airHead p k).isSome && !d.headBound (8 * p + k))

/-- A carrier's slot or window may release now. -/
def mayRelease (d : Dev) (c : Nat) : Bool :=
  let x := d.carrier c
  match x.slot, d.carPort c with
  | some s, some p =>
    !s.noMore && (s.win || s.multi || !s.released) && x.own.phase == .idle && x.hold.isNone && x.test.isNone &&
      decide (d.tick < d.cutClose p s.close) && (d.slotClass p s).isSome
  | _, _ => false

/-- AIR_CLASS bit 3 of the node's entry makes a frame indirect at its release (R384). -/
def turnsIndirect (d : Dev) (f : TxFrame) : Bool :=
  f.kind == .data && !d.ownGrant f && bit (d.nodeAt f.pan f.loc).airClass 3

/-- REQ rises early for a frame that is released at the fire tick and not yet admitted, its class joining those in progress
(R103 step 1, R104). -/
def earlyReq (d : Dev) (p c : Nat) : Dev :=
  if d.cfg.COEX_CTL_EARLY_REQ p = 1 ∧ (d.tx c false).waiting = true ∧ (d.tx c false).cur.isSome = true then
    (d.modTx c false (fun t => { t with early := true })).coexUpdate p
  else d

/-- The frame is released by its slot or window at the fire tick. -/
def atFire (d : Dev) (c : Nat) : Bool := match (d.carrier c).slot with | some s => decide (s.openTick = d.tick) | none => false

/-- Release the head frame of a class to a carrier (R24 step 1), and take it through checks 1 to 4 and channel access; `late`
says that it has waited for lock (R95). -/
def startTx (d : Dev) (p c cls : Nat) (late : Bool := false) : Dev :=
  match d.airHead p cls with
  | none => d
  | some f =>
    let q := 8 * p + cls
    if d.turnsIndirect f then
      let d := d.modCarrier c (fun x => { x with slot := x.slot.map (fun s => { s with released := true }) })
      let o := (d.takeFrame q f.uid).offerIndirect f f.pan f.loc f.eui
      if o.2 = .ST_OK then o.1 else (o.1.dropCopy f).logFrame c o.2
    else
    let r := d.release p c cls f (d.carMode c)
    let d := r.1.modCarrier c (fun x => { x with slot := x.slot.map (fun s => { s with released := true }) })
    match r.2 with
    | .wait => (d.setHead q { f with capEpoch := some d.epoch.num }).noMore c cls false
    | .drop st => ((d.takeFrame q f.uid).dropCopy f).logFrame c st
    | .go g =>
      let d := d.modCarrier c (fun x => { x with own := { phase := .backoff, cur := some g, queue := some q, late := late } })
      match d.earlyCheck c false g with
      | some st => d.refuse c false st
      | none => if d.atFire c && !late then (d.access c).earlyReq p c else d.access c

/-- A frame that has waited for lock is released again (R95); REQ raised for it at its fire tick stays while it waits (R103). -/
def restartTx (d : Dev) (p c cls : Nat) : Dev :=
  let early := (d.tx c false).early
  let d := (d.modCarrier c (fun x => { x with own := {} })).startTx p c cls true
  if early then (if (d.tx c false).waiting then d.modTx c false (fun t => { t with early := true }) else d).earlyFall p else d

/-- A window leaves the head frame that it asks for to a slot of another carrier that asks for it too (R244). -/
def yields (d : Dev) (p c : Nat) : Bool :=
  match (d.carrier c).slot with
  | some s => s.win && (d.carOf p).any (fun x => x != c && d.mayRelease x &&
      (match (d.carrier x).slot with
       | some y => !y.win && decide (d.slotClass p y = d.slotClass p s)
       | none => false))
  | none => false

/-- A frame of a carrier has waited for lock, and its port is in RX (R95, R185). -/
def lockCome (d : Dev) (p c : Nat) : Bool := (d.port p).st == .rx && (d.tx c false).phase == .waitLock

/-- Instructions of this tick are still to issue on the port, so that what they ask for is not yet known (R178, R244). -/
def tickOpen (d : Dev) (p : Nat) : Bool :=
  let q := d.seq p
  match q.tickNow with
  | some t => !q.stopped && !q.inTail && decide (t = d.tick) && decide (q.pc ≤ (q.act.getLast?.map (fun x => x.1)).getD 0) &&
      decide (seqTick (q.act.get 0 q.pc).toNat = t) && (match q.cut with | some k => decide (t < k) | none => true)
  | none => false

/-- One release by the first carrier that may, in ascending order (R178), a frame that has waited for lock among them (R95). A
window leaves a frame that a slot asks for to the slot, and lower indexes go first between windows (R244). Nothing is released
before every instruction of the tick has issued. -/
def pumpOne (d : Dev) (p : Nat) : Option Dev :=
  if ¬ d.portReady p ∨ d.tickOpen p = true then none
  else
    match (d.carOf p).find? (fun c => d.lockCome p c || (d.mayRelease c && !d.yields p c)) with
    | none => none
    | some c =>
      if d.lockCome p c then
        (d.tx c false).queue.map (fun q => d.restartTx p c (q % 8))
      else match (d.carrier c).slot with
        | some s => (d.slotClass p s).map (fun k => d.startTx p c k)
        | none => none

/-- Releases of a port until none is due. -/
def pumpPort (d : Dev) (p : Nat) : Nat → Dev
  | 0 => d
  | n + 1 => match d.pumpOne p with
    | some d' => d'.pumpPort p n
    | none => d

/-- Every release that is due. -/
def pump (d : Dev) : Dev :=
  d.each [0, 1, 2, 3] (fun d p =>
    d.pumpPort p (16 + ((List.range 8).map (fun k => (d.queue (8 * p + k)).length)).foldl (fun a b => a + b) 0))

/-- A TX or WIN that fires while the synthesiser is unlocked (R95, R260): its head frame is released when lock comes. -/
def waitForLock (d : Dev) (p c cls : Nat) : Dev :=
  match d.airHead p cls with
  | none => d
  | some f =>
    d.modCarrier c (fun x => { x with
      own := { phase := .waitLock, cur := some f, queue := some (8 * p + cls) }
      slot := x.slot.map (fun s => { s with released := true }) })

/-- The wait for lock ends without it (R95). -/
def lateLock (d : Dev) (c : Nat) : Dev :=
  if (d.tx c false).phase == .waitLock then d.refuseLate c else d

/-! ### Grant, ramp-up, end (R24, R99, R105, R106) -/

/-- E of a transmission. With the last carrier of a port done, the lines take the IDLE map until the port is back in RX (R99
step 4), and REQ_HOLD runs (R103 step 5). -/
def startReturn (d : Dev) (p : Nat) : Dev :=
  if d.portQuiet p then
    (if (d.port p).st = .tx ∨ (d.port p).st = .txpre then
      (d.modPort p (fun x => { x with reqHold := x.req })).setSt p (d.port p).st .returning
     else d)
  else if (d.activeOn p).isEmpty then d
  else d.coexUpdate p

/-- E of a denied frame, S + 40 µs, at which its ramp-up would have begun (R105). -/
def deniedEnd (d : Dev) (p c : Nat) : Dev :=
  if (d.port p).denied.any (fun x => x.1 == c) then
    (d.modPort p (fun x => { x with denied := x.denied.del c })).startReturn p
  else d

/-- A frame in TXPRE is not sent: its E comes 40 µs after S (R105). -/
def deny (d : Dev) (p c : Nat) (t : Tx) : Dev :=
  if t.phase == .txpre || t.phase == .granted then
    d.modPort p (fun x => { x with denied := x.denied.put c (t.decideUp + 40000) })
  else d

/-- Time has moved: denied frames reach their E (R105), and exchanges of a port that stays in TX reach theirs (R64). -/
def exchDue (d : Dev) : Dev :=
  d.each [0, 1, 2, 3] (fun d p =>
    let x := d.port p
    if x.denied.isEmpty && x.exchAt.isEmpty then d
    else
      let d := (x.denied.filter (fun y => decide (y.2 ≤ d.up))).foldl (fun (d : Dev) y => d.deniedEnd p y.1) d
      if (d.port p).step == .returning then d
      else
        let due := ((d.port p).exchAt.filter (fun y => decide (y.2 ≤ d.up))).map (fun y => y.1)
        due.foldl (fun (d : Dev) k =>
          let d := d.modPort p (fun y => { y with
            exchAt := y.exchAt.del k
            exchCars := y.exchCars.filter (fun c => c != k), exchLanes := y.exchLanes.filter (fun l => 16 + l != k) })
          if k < 16 then d.releaseCar k else d.laneExchEnd (k - 16)) d)

/-- A frame whose grant does not come (R105, R433): its charge is withdrawn, and the port returns from E on. A test
transmission without its grant completes with ST_PORT_BUSY (DESIGN CHOICE, log entry 176). -/
def ungranted (d : Dev) (c : Nat) (hold : Bool) (f : TxFrame) (st : Status) : Dev :=
  let p := d.portOf c
  let q := (d.tx c hold).queue
  let d := (d.deny p c (d.tx c hold)).dutyWithdraw f
  let f : TxFrame := { f with chargedAcct := none, stampSeq := none }
  let d := match f.kind, hold with
    | .ack, _ => if st = Status.ST_FC_EXHAUSTED then d.dropAck c .ST_OK else d.dropAck c st
    | .enhAck, _ => if st = Status.ST_FC_EXHAUSTED then d.dropAck c .ST_OK else d.dropAck c st
    | .beacon, _ => d.skipBeacon c (if st = Status.ST_FC_EXHAUSTED then .ST_OK else st)
    | .test, _ => d.testDone c .ST_PORT_BUSY []
    | _, true =>
      if st = Status.ST_FC_EXHAUSTED then
        (((d.modIndirect (d.pollOf c) (fun _ => none)).dropCopy f).logFrame c st).clearHold c
      else ((d.modIndirect (d.pollOf c) (fun x => some { x with frame := { x.frame with seqNo := f.seqNo, sh := f.sh } })).logFrame
        c st).indirectUnsent c
    | _, false =>
      match q with
      | none => d.clearOwn c
      | some n =>
        let r := d.giveBack f
        if f.bad then (r.1.dropCopy r.2).clearOwn c
        else if st = Status.ST_FC_EXHAUSTED then ((r.1.dropCopy r.2).logFrame c st).clearOwn c
        else (((r.1.pushFront n r.2).logFrame c st).noMore c f.cls false).clearOwn c
  d.startReturn p

/-- A beacon's PSDU without its FCS: header, IEs and, secured, the auxiliary header before the IEs. -/
def beaconHeader (d : Dev) (f : TxFrame) (txTime : Nat) : List Byte :=
  le 2 (0xE200 + (if f.secured then 8 else 0)) ++ le 1 f.seqNo ++ le 2 (d.cfg.PAN_CFG_PAN_ID f.pan) ++
    le 8 (d.panEui f.pan) ++ (if f.secured then auxOf 2 (f.sh.fc.getD 0) 2 else []) ++ d.beaconIes f txTime

/-- The instant at which the last symbol of the sync word leaves the modulator: the fixed transmit delay ahead of the RF ball
(R469). -/
def modulatorNs (d : Dev) (c : Nat) (hold : Bool) : Int :=
  let m := modeOf (d.txMode c hold)
  let sym := match m with | some m => syncSyms m * 1000000000 / m.rate | none => 0
  (((d.tx c hold).rampNs + d.rampOf c * 1000 + sym : Nat) : Int) - ((txDelayNs m : Nat) : Int)

/-- The stamp of a transmission (R189, R469): the last symbol of its sync word at the RF ball, the fixed delay and TX_NS taken in.
-/
def stampTime (d : Dev) (c : Nat) (hold : Bool) : Nat :=
  (d.modulatorNs c hold + ((txDelayNs (modeOf (d.txMode c hold)) : Nat) : Int) +
    sext 16 (d.cfg.TS_RF_ADJ_TX_NS (d.portOf c))).toNat

/-- The grant instant G (R24 step 4), with GNT as sampled; it is ignored with EN 0 and in a receive-protect interval
(R107). A frame to a node that has been quarantined takes no counter (R351) and returns as if it were not granted. -/
def grant (d : Dev) (c : Nat) (gnt : Bool) : Dev :=
  match d.sideWith c (fun t => t.phase == .txpre) with
  | none => d
  | some hold =>
    let p := d.portOf c
    let en : Bool := d.cfg.COEX_CTL_EN p == 1 && !(d.port p).rxp
    let ok := gnt != (d.cfg.COEX_CTL_GNT_ACTIVE_LOW p == 1)
    let d := if en then d.modPort p (fun x => { x with gnt := gnt }) else d
    match (d.tx c hold).cur with
    | none => d
    | some f =>
      let barred := (f.kind == .data || (f.kind == .enhAck && f.secured)) && (d.sharedOf f).fc.isNone &&
        (d.nodeAt f.pan f.loc).valid && (d.nodeAt f.pan f.loc).quarantine
      if f.bad then d.ungranted c hold f .ST_DROPPED
      else if barred then d.ungranted c hold f .ST_KEY_INVALID
      else if en ∧ ¬ ok then d.ungranted c hold f .ST_COEX_DENIED
      else
        let r : Option (Dev × TxFrame) := match f.kind with
          | .data => d.grantData f
          | .bulk => d.grantData f
          | .enhAck => d.grantAck f
          | .beacon =>
            if ¬ f.secured then some (d, f)
            else if 0xFFFFFFFF ≤ (d.pan f.pan).fc then none
            else some ((d.bump Cnt.CCM_DN).modPan f.pan (fun x => { x with fc := x.fc + 1 }),
              { f with sh := { f.sh with fc := some (d.pan f.pan).fc } })
          | _ => some (d, f)
        match r with
        | some (d, g) => d.modTx c hold (fun t => { t with phase := .granted, cur := some g })
        | none =>
          let d := if f.kind = .bulk ∨ f.kind = .beacon then d.panFcExhausted f.pan else d.fcExhausted f.pan f.loc
          d.ungranted c hold f .ST_FC_EXHAUSTED

/-- The PSDU that leaves the aerial. -/
def psduOf (d : Dev) (c : Nat) (hold : Bool) (f : TxFrame) : List Byte :=
  match f.kind with
  | .data => d.dataPsdu f
  | .bulk => d.dataPsdu f
  | .assoc => d.assocPsdu f
  | .ack => d.ackPsdu f
  | .enhAck => d.ackPsdu f
  | .beacon =>
    let h := d.beaconHeader f (d.stampTime c hold)
    withFcs f.fcs2 (if f.secured then h ++ Config.ccmSeal f.key (nonceOf (d.panEui f.pan) (f.sh.fc.getD 0) 2) h 8 [] else h)
  | .test => []

/-- SFD set and SUN-FSK code of a transmission: an acknowledgement's are its lane's; other frames use set 0 and NRNSC (DESIGN
CHOICE, log entry 151). -/
def sfdOf (d : Dev) (c : Nat) (hold : Bool) : Nat × Bool :=
  match hold, (d.carrier c).hold with
  | true, some h => (bits (d.laneWord h.lane) 13 13, bit (d.laneWord h.lane) 12)
  | _, _ => (0, false)

/-- The signal of a test transmission for `n` symbols (R192): a tone has no symbols, PN9 data fills them without framing, and
frames repeat until they end. On O-QPSK a data symbol is 32 chips. -/
def testSymbols (m : Mode) (f : TxFrame) (n : Nat) : List Byte :=
  match f.testSig with
  | 0 => []
  | 1 => rawSymbols m (pn9Bits (n * m.b))
  | _ =>
    let n := if m.family = .oqpsk then 32 * n else n
    let one := airSymbols m (codedIn m) 0 false (m.family == .oqpsk) (f.payload.take f.testLen)
    (List.replicate (n / max 1 one.length + 1) one).flatten.take n

/-- What the aerial carries between the ramps: the symbols of the frame. -/
def symbolsSent (d : Dev) (c : Nat) (hold : Bool) (f : TxFrame) (psdu : List Byte) : List Byte :=
  match modeOf (d.txMode c hold) with
  | none => []
  | some m =>
    if f.kind = .test then testSymbols m f ((f.durUs - 2 * d.rampOf c) * m.rate / 1000000)
    else airSymbols m f.coded (d.sfdOf c hold).1 (d.sfdOf c hold).2 f.fcs2 psdu

/-- A ramp's tone (R177). -/
def rampOut (d : Dev) (c : Nat) (hold down : Bool) : Dev :=
  d.emit .ramp c (rampOctets (bits (d.carWord c) 27 26) (d.rampOf c) (d.txKhz c hold) down)

/-- Ramp-up starts at S + 40 µs (R99 step 3, R177): the ramp's tone, the PSDU and its symbols. A denied frame has its E there
(R105). A beacon takes the number of its PAN here, so that the number advances with every beacon sent (R219). -/
def rampUp (d : Dev) (c : Nat) : Dev :=
  match d.sideWith c (fun t => t.phase == .granted) with
  | none => d.each [0, 1, 2, 3] (fun d p => d.deniedEnd p c)
  | some hold =>
    let p := d.portOf c
    match (d.tx c hold).cur with
    | none => d
    | some f0 =>
      let f : TxFrame := if f0.kind = .beacon then { f0 with seqNo := (d.pan f0.pan).bsn } else f0
      let d := d.modPort p (fun x => { x with denied := x.denied.del c })
      let d := d.modTx c hold (fun t => { t with phase := .onAir, rampNs := d.now, cur := some f })
      let d := (if (d.port p).st == .txpre then d.setSt p .tx else d).bump (Cnt.TX_FRAMES c)
      let psdu := d.psduOf c hold f
      let d := ((d.rampOut c hold false).emit .air c psdu).emit .symbols c (d.symbolsSent c hold f psdu)
      match f.kind with
      | .ack => d.bump (Cnt.ACK_SENT p)
      | .enhAck => (d.bump (Cnt.ACK_SENT p)).bump (Cnt.ENH_ACK_SENT p)
      | .beacon => (d.bump (Cnt.BEACON_SENT p)).modPan f.pan (fun x => { x with bsn := (x.bsn + 1) % 256 })
      | _ => d

/-- The stamp record of a frame enters the port's queue (R190). -/
def pushStamp (d : Dev) (c : Nat) (hold : Bool) (f : TxFrame) (aborted : Bool) : Dev :=
  match f.stampSeq with
  | none => d
  | some n =>
    let p := d.portOf c
    let s : Stamp := { time := d.stampTime c hold, tag := if f.kind = .beacon then 0 else f.tag, seq := n, carrier := c
                       flags := ofBool (f.kind == .beacon) + 2 * ofBool aborted + 4 * ofBool f.clamped }
    if 256 ≤ (d.port p).stamps.length then d.bump (Cnt.TXTS_OVF p)
    else d.modPort p (fun x => { x with stamps := x.stamps ++ [s] })

/-- A frame goes without its acknowledgement (R209, R210): back to the head of its queue with one retry more, or dropped. -/
def noAck (d : Dev) (c : Nat) (hold : Bool) : Dev :=
  let p := d.portOf c
  match (d.tx c hold).cur with
  | none => if hold then d.clearHold c else d.clearOwn c
  | some f =>
    let spent := decide (d.cfg.CSMA_CTL_RETRY_MAX p < f.retries + 1)
    let g : TxFrame := { f with retries := f.retries + 1, chargedAcct := none, stampSeq := none }
    let d := d.bump (Cnt.NO_ACK_RETRY p)
    let d := if spent then (d.bump (Cnt.NO_ACK_DROP p)).logFrame c .ST_NO_ACK else d
    if hold then
      let poll := d.pollOf c
      if spent then (d.modIndirect poll (fun _ => none)).clearHold c
      else (d.modIndirect poll (fun x => some { x with frame := g })).indirectUnsent c
    else match (d.tx c hold).queue with
      | none => d.clearOwn c
      | some q =>
        if spent then (d.dropCopy f).clearOwn c
        else ((d.pushFront q g).noMore c f.cls false).clearOwn c

/-- A frame of a carrier's own or an indirect response is complete. -/
def frameDone (d : Dev) (c : Nat) (hold : Bool) : Dev :=
  match (d.tx c hold).cur with
  | none => if hold then d.clearHold c else d.clearOwn c
  | some f =>
    if hold then (d.modIndirect (d.pollOf c) (fun _ => none)).clearHold c else (d.dropCopy f).clearOwn c

/-- The exchange of a frame without acknowledgement ends 24 µs after its E (R64). -/
def exchFor (d : Dev) (p c : Nat) : Dev :=
  d.modPort p (fun x => { x with exchCars := x.exchCars ++ [c], exchAt := x.exchAt.put c (d.up + 24000) })

/-- The ramp-down of a transmission ends (R99 step 4): the stamp, the contribution, the ack wait. -/
def txEnd (d : Dev) (c : Nat) : Dev :=
  match d.sideWith c (fun t => t.phase == .onAir) with
  | none => d
  | some hold =>
    let p := d.portOf c
    let t := d.tx c hold
    match t.cur with
    | none => d
    | some f =>
      if f.kind = .test then d
      else
        let d := (d.rampOut c hold true).pushStamp c hold f t.aborted
        let d := d.modTx c hold (fun t => { t with
          phase := .ackWait, waitUp := d.up - d.rampOf c * 1000, waitOver := false, waitFor := [] })
        let d := match f.kind with
          | .ack | .enhAck =>
            let l := match (d.carrier c).hold with | some h => h.lane | none => 192
            let d := d.modPort p (fun x => { x with
              exchLanes := x.exchLanes ++ [l], exchAt := x.exchAt.put (16 + l) (d.up + 24000) })
            if (d.pollOf c).isSome then
              d.modCarrier c (fun x => { x with hold := x.hold.map (fun (h : Hold) => { h with tx := ({} : Tx), gap := true }) })
            else d.clearHold c
          | .beacon => (d.exchFor p c).clearOwn c
          | _ =>
            if d.frameAr f then (if t.aborted then d.noAck c hold else d)
            else (d.exchFor p c).frameDone c hold
        d.startReturn p

/-- The exchanges of a port end (R64); a test transmission that has ended completes with the status and result given (R193). -/
def endExch (d : Dev) (p : Nat) (ok : Bool) : Dev :=
  let x := d.port p
  let d := d.modPort p (fun y => { y with exchLanes := [], exchCars := [], exchAt := [] })
  let d := d.each x.exchLanes (fun d l => d.laneExchEnd l)
  (List.range 16).foldl (fun (d : Dev) c => match (d.carrier c).testPwr with
    | some g =>
      if (d.carrier c).testPort = p then
        (if ok then d.testDone c .ST_OK (le 2 (pat 16 g)) else d.testDone c .ST_PORT_BUSY [])
      else d
    | none => d) (d.each x.exchCars (fun d c => d.releaseCar c))

/-- The port is back in RX 24 µs after E (R99 step 6): exchanges that end then (R64), lanes search. -/
def rxReturn (d : Dev) (p : Nat) : Dev :=
  if (d.port p).step ≠ .returning then d else (d.enterRx p).endExch p true

/-- GNT falls (R106); a receive-protect interval ignores it (R107). -/
def gntFall (d : Dev) (p : Nat) : Dev :=
  let d := d.modPort p (fun x => { x with gnt := d.cfg.COEX_CTL_GNT_ACTIVE_LOW p == 1 })
  if d.cfg.COEX_CTL_EN p ≠ 1 ∨ (d.port p).rxp then d
  else (d.activeOn p).foldl (fun (d : Dev) x =>
    let t := d.tx x.1 x.2
    if t.phase != .onAir || t.aborted then d
    else if d.cfg.COEX_CTL_REVOKE_ABORT p = 0 then d.bump (Cnt.COEX_REVOKE_IGNORED p)
    else
      let past := decide (d.stampTime x.1 x.2 ≤ d.now)
      (d.bump (Cnt.TX_ABORT_COEX p)).modTx x.1 x.2 (fun t => { t with
        aborted := true
        cur := t.cur.map (fun f => if past then f else { f with stampSeq := none }) })) d

/-- The ack wait has ended (R209): receptions on the frame's channel and mode whose sync word latched within it decide, those
that have ended RX_OK and are not yet decided among them. -/
def ackWaitEnd (d : Dev) (c : Nat) : Dev :=
  match d.sideWith c (fun t => t.phase == .ackWait && !t.waitOver) with
  | none => d
  | some hold =>
    let t := d.tx c hold
    let q := d.port (d.portOf c)
    let done := q.rxlog.filter (fun x => x.2.outcome == 0 && !q.decided.contains x.1 && decide (t.waitUp ≤ q.rxSync.get 0 x.1) &&
      d.laneKhz x.2.lane == d.txKhz c hold && x.2.mode == d.txMode c hold)
    let ls := (d.portLanes (d.portOf c)).filter (fun l =>
      (d.lane l).st.latched && d.laneKhz l == d.txKhz c hold && d.laneMode l == d.txMode c hold &&
        decide (t.waitUp ≤ (d.lane l).rx.syncUp))
    d.modTx c hold (fun t => { t with waitOver := true, waitFor := ls.map (fun l => (d.lane l).rx.seq) ++ done.map (fun x => x.1) })

/-- Ack waits that are over and have no reception left are judged (R209). -/
def settle (d : Dev) : Dev :=
  d.each (List.range 16) (fun d c =>
    match d.sideWith c (fun t => t.phase == .ackWait && t.waitOver && t.waitFor.isEmpty) with
    | some hold => d.noAck c hold
    | none => d)

/-! ### Ports that fall to STBY (R86, R102, R547) -/

/-- A transmission that is cut when its port falls to STBY: one that is on air counts as sent without acknowledgement; one
that is not yet on air returns as if it had not been granted. -/
def cutTx (d : Dev) (c : Nat) (hold : Bool) : Dev :=
  let t := d.tx c hold
  match t.cur with
  | none => d
  | some f =>
    if t.phase != .onAir then d.ungranted c hold f .ST_PORT_BUSY
    else match f.kind with
      | .ack | .enhAck => d.dropAck c .ST_OK
      | .beacon => d.clearOwn c
      | .test => d.testDone c .ST_PORT_BUSY []
      | _ => if d.frameAr f then d.noAck c hold else d.frameDone c hold

/-- A port falls to STBY: its transmissions are cut, a calibration ends without result, and its exchanges end. A CMD_RF_CAL
that this cuts completes with ST_PORT_BUSY, and CAL_RUNS does not count its run (DESIGN CHOICE, log entry 143); so does a test
transmission (DESIGN CHOICE, log entry 176). -/
def fall (d : Dev) (p : Nat) : Dev :=
  let x := d.port p
  if x.st == .off then d
  else
    let d := (d.activeOn p).foldl (fun (d : Dev) y => d.cutTx y.1 y.2) d
    let d := d.modPort p (fun y => { y with cal := none, denied := [], reqHold := false, req := false, pri := false })
    let d := (d.setSt p .stby).endExch p false
    match x.cal with
    | some r => (match r.host with | some c => d.complete c .ST_PORT_BUSY | none => d)
    | none => d

/-- The transmit gate closes (R547): every port falls to STBY. -/
def gateClose (d : Dev) : Dev :=
  if ¬ d.pair.gateOpen then d
  else
    let d := { d with pair := { d.pair with gateOpen := false } }
    d.each [0, 1, 2, 3] (fun d p => (d.fall p).refreshFem p)

/-- The transmit gate opens (R547): each enabled port leaves STBY. -/
def gateOpens (d : Dev) : Dev :=
  if d.pair.gateOpen then d
  else
    let d := { d with pair := { d.pair with gateOpen := true } }
    d.each [0, 1, 2, 3] (fun d p => (d.refreshFem p).portStart p .reopening)

/-- The device releases OWN (R548): the gate closes, the sequencers stop (R259), and a contention ends (R550). -/
def releaseOwn (d : Dev) : Dev :=
  let d := { d with pair := { d.pair with ownOut := false, contention := false } }
  (d.gateClose).each [0, 1, 2, 3] (fun d p => d.modSeq p (fun x => { x with stopped := true }))

/-! ### Stamp records to the event ring (R470) -/

/-- How long ago a port gave a stamp sequence number: 1 for the last (R190). -/
def stampAge (d : Dev) (p n : Nat) : Nat := ((d.port p).txSeq + 65536 - n) % 65536

/-- The record of a radio port that drains next (R470): the oldest number of its queue, once no frame with an older one is still
on its way. -/
def nextStamp (d : Dev) (p : Nat) : Option Stamp :=
  let best := (d.port p).stamps.foldl (fun (b : Option Stamp) s => match b with
    | none => some s
    | some x => if d.stampAge p x.seq < d.stampAge p s.seq then some s else b) none
  best.bind (fun s =>
    if (d.activeOn p).any (fun x => match (d.tx x.1 x.2).cur.bind (fun f => f.stampSeq) with
      | some n => decide (d.stampAge p s.seq < d.stampAge p n)
      | none => false) then none else some s)

end Dev

/-- TX_STAMP_DRAIN (R470): the next stamp record of a radio or Ethernet port, in sequence order, goes to the event ring once it
has room. -/
def execTxStampDrain (eth : Bool) (p : Fin 4) (s : State) : Host.Outcome State Fault Refusal :=
  s.run (fun d =>
    if ¬ d.stampRoom then d
    else if eth then
      let d := d.frameEnd p.val
      match (d.eth p.val).stamps with
      | [] => d
      | r :: t => (d.modEth p.val (fun x => { x with stamps := t })).drainStamp r
    else
      match d.nextStamp p.val with
      | none => d
      | some r => (d.modPort p.val (fun x => { x with stamps := x.stamps.erase r })).drainStamp r)

end Sys2Proof.Machine
end

