-- ==== Sys2Proof/Machine/Lowpan.lean ====
section
/-! DEFINITION. 6LoWPAN header compression (R376 to R379) after RFC 6282: decompression and compression of the octets of a
packet, contexts and link-layer addresses. A status is a code of R379. -/

namespace Sys2Proof.Machine

/-- A context: the prefix's 16 octets and its length. -/
abbrev Ctx := List Byte × Nat

/-- The first n octets and the rest; the header ends early otherwise (status 5). -/
def takeN (n : Nat) (bs : List Byte) : Except Nat (List Byte × List Byte) :=
  if bs.length < n then .error 5 else .ok (bs.take n, bs.drop n)

/-- The interface identifier of a short address (R378). -/
def iidShort (a : Nat) : List Byte := be 2 0 ++ be 2 0x00FF ++ be 2 0xFE00 ++ be 2 a

/-- The interface identifier of an EUI-64 (RFC 4291): its universal/local bit is inverted. -/
def iidEui (e : Nat) : List Byte := be 8 (e ^^^ 2 ^ 57)

/-- fe80::/64. -/
def linkLocal : List Byte := be 8 0xFE80000000000000

/-- An address from a context and an interface identifier: the context's bits are always used. -/
def withCtx (c : Ctx) (iid : List Byte) : List Byte :=
  let m := 128 - min c.2 128
  let p := unbe c.1 >>> m <<< m
  let i := unbe iid % 2 ^ m
  be 16 (p ||| i)

/-! ### Decompression -/

/-- A source or unicast destination (RFC 6282 section 3.1.1): stateful, mode, context, interface identifier of the link
layer. Mode 0 of a stateful source is the unspecified address; of a stateful destination it is reserved. -/
def unAddr (stateful isDst : Bool) (mode : Nat) (ctx : Option Ctx) (ll bs : List Byte) : Except Nat (List Byte × List Byte) :=
  if stateful then
    if mode = 0 then (if isDst then .error 5 else .ok (List.replicate 16 0#8, bs))
    else match ctx with
      | none => .error 3
      | some c =>
        match mode with
        | 1 => (takeN 8 bs).map (fun r => (withCtx c r.1, r.2))
        | 2 => (takeN 2 bs).map (fun r => (withCtx c (iidShort (unbe r.1)), r.2))
        | _ => .ok (withCtx c ll, bs)
  else match mode with
    | 0 => takeN 16 bs
    | 1 => (takeN 8 bs).map (fun r => (linkLocal ++ r.1, r.2))
    | 2 => (takeN 2 bs).map (fun r => (linkLocal ++ iidShort (unbe r.1), r.2))
    | _ => .ok (linkLocal ++ ll, bs)

/-- A multicast destination. -/
def unMulticast (stateful : Bool) (mode : Nat) (ctx : Option Ctx) (bs : List Byte) : Except Nat (List Byte × List Byte) :=
  if stateful then
    if mode ≠ 0 then .error 5
    else match ctx with
      | none => .error 3
      | some c => (takeN 6 bs).map (fun r =>
          (be 1 0xFF ++ r.1.take 2 ++ be 1 c.2 ++ c.1.take 8 ++ r.1.drop 2, r.2))
  else match mode with
    | 0 => takeN 16 bs
    | 1 => (takeN 6 bs).map (fun r => (be 1 0xFF ++ r.1.take 1 ++ be 9 0 ++ r.1.drop 1, r.2))
    | 2 => (takeN 4 bs).map (fun r => (be 1 0xFF ++ r.1.take 1 ++ be 11 0 ++ r.1.drop 1, r.2))
    | _ => (takeN 1 bs).map (fun r => (be 2 0xFF02 ++ be 13 0 ++ r.1, r.2))

/-- The UDP header of an NHC: ports, checksum, then the payload. -/
def unUdp (src dst : List Byte) (b : Nat) (bs : List Byte) : Except Nat (Nat × List Byte × Nat) := do
  let p ← (match bits b 1 0 with
    | 0 => (takeN 4 bs).map (fun r => (unbe (r.1.take 2), unbe (r.1.drop 2), r.2))
    | 1 => (takeN 3 bs).map (fun r => (unbe (r.1.take 2), 0xF000 + unbe (r.1.drop 2), r.2))
    | 2 => (takeN 3 bs).map (fun r => (0xF000 + unbe (r.1.take 1), unbe (r.1.drop 1), r.2))
    | _ => (takeN 1 bs).map (fun r => (0xF0B0 + unbe r.1 / 16, 0xF0B0 + unbe r.1 % 16, r.2)))
  let c ← (if bit b 2 then .ok (none, p.2.2) else (takeN 2 p.2.2).map (fun r => (some (unbe r.1), r.2)))
  let len := 8 + c.2.length
  let udp := fun (x : Nat) => be 2 p.1 ++ be 2 p.2.1 ++ be 2 len ++ be 2 x ++ c.2
  let sum := csum16 (src ++ dst ++ be 4 len ++ be 4 17 ++ udp 0)
  pure (17, udp (c.1.getD (if sum = 0 then 0xFFFF else sum)), 8)

/-- Header number of an extension header's EID. -/
def eidCode : Nat → Option Nat
  | 0 => some 0 | 1 => some 43 | 3 => some 60 | _ => none

/-- Padding of n octets in an options header (RFC 8200). -/
def padOpt : Nat → List Byte
  | 0 => []
  | 1 => [0#8]
  | n + 2 => be 1 1 ++ be 1 n ++ List.replicate n 0#8

/-- The next headers of an NHC chain: the header number, the decompressed octets with everything after them, and how many
of them are headers. `inner` decompresses an encapsulated IPv6 header (EID 7). -/
def unNhc (inner : List Byte → List Byte → List Byte → Except Nat (List Byte × Nat)) (src dst : List Byte) :
    Nat → List Byte → Except Nat (Nat × List Byte × Nat)
  | 0, _ => .error 4
  | n + 1, bs => do
    let r ← takeN 1 bs
    let b := unbe r.1
    if b / 8 = 0x1E then unUdp src dst b r.2
    else if b / 16 = 0xE then
      let eid := bits b 3 1
      if eid = 7 then
        let i ← inner src dst r.2
        pure (41, i.1, i.2)
      else match eidCode eid with
        | none => .error 2
        | some code =>
          let nhHere := !bit b 0
          let h ← (if nhHere then (takeN 1 r.2).map (fun x => (unbe x.1, x.2)) else .ok (0, r.2))
          let l ← takeN 1 h.2
          let body ← takeN (unbe l.1) l.2
          let gap := (8 - (2 + body.1.length) % 8) % 8
          if eid = 1 ∧ gap ≠ 0 then .error 5
          else
            let pad := padOpt gap
            let m ← (if nhHere then .ok (h.1, body.2, 0) else unNhc inner src dst n body.2)
            let len := 2 + body.1.length + pad.length
            pure (code, be 1 m.1 ++ be 1 (len / 8 - 1) ++ body.1 ++ pad ++ m.2.1, len + m.2.2)
    else .error 2

/-- Decompress LOWPAN_IPHC: the IPv6 packet and the length of its header chain. The dispatch is judged before anything that the
encoding needs (R379). -/
def unIphc (nhc : List Byte → List Byte → List Byte → Except Nat (Nat × List Byte × Nat)) (ctx : Nat → Option Ctx)
    (llSrc llDst bs : List Byte) : Except Nat (List Byte × Nat) := do
  if !bs.isEmpty && unbe (bs.take 1) / 32 != 3 then .error 1
  else
    let r ← takeN 2 bs
    let a := unbe (r.1.take 1)
    let b := unbe (r.1.drop 1)
    let cid ← (if bit b 7 then (takeN 1 r.2).map (fun x => (unbe x.1, x.2)) else .ok (0, r.2))
    let tf ← (match bits a 4 3 with
      | 0 => (takeN 4 cid.2).map (fun x => (unbe (x.1.take 1), unbe (x.1.drop 1) % 2 ^ 20, x.2))
      | 1 => (takeN 3 cid.2).map (fun x => (unbe (x.1.take 1) / 64 * 64, unbe x.1 % 2 ^ 20, x.2))
      | 2 => (takeN 1 cid.2).map (fun x => (unbe x.1, 0, x.2))
      | _ => .ok (0, 0, cid.2))
    -- ECN comes first on air and last in the IPv6 traffic class.
    let tc := tf.1 % 64 * 4 + tf.1 / 64
    let nh ← (if bit a 2 then .ok (0, tf.2.2) else (takeN 1 tf.2.2).map (fun x => (unbe x.1, x.2)))
    let hl ← (match bits a 1 0 with
      | 0 => (takeN 1 nh.2).map (fun x => (unbe x.1, x.2))
      | 1 => .ok (1, nh.2)
      | 2 => .ok (64, nh.2)
      | _ => .ok (255, nh.2))
    let src ← unAddr (bit b 6) false (bits b 5 4) (ctx (cid.1 / 16)) llSrc hl.2
    let dst ← (if bit b 3 then unMulticast (bit b 2) (bits b 1 0) (ctx (cid.1 % 16)) src.2
      else unAddr (bit b 2) true (bits b 1 0) (ctx (cid.1 % 16)) llDst src.2)
    let m ← (if bit a 2 then nhc src.1 dst.1 dst.2 else .ok (nh.1, dst.2, 0))
    pure (be 4 (0x60000000 + tc * 2 ^ 20 + tf.2.1) ++ be 2 m.2.1.length ++ be 1 m.1 ++ be 1 hl.1 ++ src.1 ++ dst.1 ++ m.2.1,
      40 + m.2.2)

/-- Decompress with at most one level of encapsulation. -/
def unLowpan (ctx : Nat → Option Ctx) (llSrc llDst bs : List Byte) : Except Nat (List Byte × Nat) :=
  let none1 := fun (_ _ _ : List Byte) => (Except.error 2 : Except Nat (List Byte × Nat))
  let inner := fun (s d b : List Byte) => unIphc (fun s d => unNhc none1 s d 16) ctx (s.drop 8) (d.drop 8) b
  match bs with
  | [] => .error 5
  | o :: rest =>
    if o = 0x41#8 then .ok (rest, 0)
    else unIphc (fun s d => unNhc inner s d 16) ctx llSrc llDst bs

/-- The octets of compressed header and of the header it stands for, for a first fragment (RFC 4944 section 5.3); contexts do
not matter to lengths. -/
def headerSpan (bs : List Byte) : Option (Nat × Nat) :=
  match bs with
  | [] => none
  | o :: _ =>
    if o = 0x41#8 then some (1, 0)
    else match unLowpan (fun _ => some (List.replicate 16 0#8, 64)) (be 8 0) (be 8 0) bs with
      | .ok (full, hdr) => some (bs.length - (full.length - hdr), hdr)
      | .error _ => none

/-! ### Compression -/

/-- The shortest form of a unicast address: stateful, mode, context, octets. -/
def packAddr (ctxs : List (Nat × Ctx)) (ll a : List Byte) : Bool × Nat × Nat × List Byte :=
  let iid := a.drop 8
  let short := unbe (iid.drop 6)
  let form := fun (build : List Byte → List Byte) =>
    if build ll = a then some (3, ([] : List Byte))
    else if build (iidShort short) = a then some (2, iid.drop 6)
    else if build iid = a then some (1, iid) else none
  let local_ := form (fun i => linkLocal ++ i)
  -- The context with the longest prefix that matches (R377).
  let best := ctxs.foldl (fun (acc : Option (Nat × Ctx)) x =>
    if maskPfx a x.2.2 = maskPfx x.2.1 x.2.2 then
      (match acc with | some y => if y.2.2 < x.2.2 then some x else acc | none => some x) else acc) none
  let viaCtx := match best with
    | some x => (form (fun i => withCtx x.2 i)).map (fun f => (x.1, f))
    | none => none
  match local_, viaCtx with
  | some f, some (n, g) => if g.1 ≤ f.1 then (false, f.1, 0, f.2) else (true, g.1, n, g.2)
  | some f, none => (false, f.1, 0, f.2)
  | none, some (n, g) => (true, g.1, n, g.2)
  | none, none => (false, 0, 0, a)

/-- The shortest form of a multicast address. -/
def packMulticast (ctxs : List (Nat × Ctx)) (a : List Byte) : Bool × Nat × Nat × List Byte :=
  let z := fun (from_ n : Nat) => (slice a from_ n).all (fun o => o == 0#8)
  if slice a 1 1 = be 1 2 ∧ z 2 13 then (false, 3, 0, a.drop 15)
  else if z 2 11 then (false, 2, 0, slice a 1 1 ++ a.drop 13)
  else if z 2 9 then (false, 1, 0, slice a 1 1 ++ a.drop 11)
  else match ctxs.find? (fun x => decide (fld a 3 1 = x.2.2 ∧ x.2.2 ≤ 64 ∧ slice a 4 8 = (maskPfx x.2.1 x.2.2).take 8)) with
    | some x => (true, 0, x.1, slice a 1 2 ++ a.drop 12)
    | none => (false, 0, 0, a)

/-- The NHC form of a UDP header. -/
def packUdp (u : List Byte) : List Byte :=
  let s := unbe (slice u 0 2)
  let d := unbe (slice u 2 2)
  let c := slice u 6 2
  if s / 16 = 0xF0B ∧ d / 16 = 0xF0B then be 1 0xF3 ++ be 1 (s % 16 * 16 + d % 16) ++ c
  else if s / 256 = 0xF0 then be 1 0xF2 ++ be 1 (s % 256) ++ be 2 d ++ c
  else if d / 256 = 0xF0 then be 1 0xF1 ++ be 2 s ++ be 1 (d % 256) ++ c
  else be 1 0xF0 ++ be 2 s ++ be 2 d ++ c

/-- Compress an IPv6 packet (R376). -/
def packLowpan (ctxs : List (Nat × Ctx)) (llSrc llDst bs : List Byte) : Except Nat (List Byte) :=
  if bs.length < 40 ∨ unbe (slice bs 0 1) / 16 ≠ 6 then .error 5
  else
    let v := unbe (slice bs 0 4)
    let tc := bits v 27 20
    let fl := v % 2 ^ 20
    let ecn := tc % 4
    let dscp := tc / 4
    let nh := unbe (slice bs 6 1)
    let hl := unbe (slice bs 7 1)
    let src := slice bs 8 16
    let dst := slice bs 24 16
    let rest := bs.drop 40
    let udp : Bool := decide (nh = 17 ∧ 8 ≤ rest.length ∧ unbe (slice rest 4 2) = rest.length)
    let tf := if fl = 0 ∧ tc = 0 then (3, ([] : List Byte)) else if fl = 0 then (2, be 1 (ecn * 64 + dscp))
      else if dscp = 0 then (1, be 3 (ecn * 2 ^ 22 + fl)) else (0, be 1 (ecn * 64 + dscp) ++ be 3 fl)
    let hm := if hl = 1 then 1 else if hl = 64 then 2 else if hl = 255 then 3 else 0
    let s := if src.all (fun o => o == 0#8) then (true, 0, 0, ([] : List Byte)) else packAddr ctxs llSrc src
    let mc : Bool := slice dst 0 1 = be 1 0xFF
    let d := if mc then packMulticast ctxs dst else packAddr ctxs llDst dst
    let cid : Bool := decide (s.2.2.1 ≠ 0 ∨ d.2.2.1 ≠ 0)
    .ok (be 1 (0x60 + tf.1 * 8 + (if udp then 4 else 0) + hm) ++
      be 1 ((if cid then 0x80 else 0) + (if s.1 then 0x40 else 0) + s.2.1 * 16 + (if mc then 8 else 0) +
        (if d.1 then 4 else 0) + d.2.1) ++
      (if cid then be 1 (s.2.2.1 * 16 + d.2.2.1) else []) ++ tf.2 ++ (if udp then [] else be 1 nh) ++
      (if hm = 0 then be 1 hl else []) ++ s.2.2.2 ++ d.2.2.2 ++
      (if udp then packUdp rest ++ rest.drop 8 else rest))

namespace Dev

/-- The contexts of PAN_k by identifier (R377). -/
def contexts (d : Dev) (k : Nat) : List (Nat × Ctx) :=
  let es := d.tbl.pfx.slots.filter (fun x => x.2.valid && !x.2.quarantine && decide (x.2.kind = 0 ∧ x.2.target = k) &&
    bit x.2.context 7)
  (List.range 16).filterMap (fun n =>
    (es.foldl (fun (acc : Option PrefixEntry) x =>
      if x.2.context % 16 ≠ n then acc
      else match acc with
        | none => some x.2
        | some y => if y.len < x.2.len ∨ (y.len = x.2.len ∧ unbe x.2.pfx < unbe y.pfx) then some x.2 else acc) none).map
      (fun e => (n, (e.pfx, e.len))))

/-- The context of an identifier. -/
def contextOf (d : Dev) (k n : Nat) : Option Ctx := ((d.contexts k).find? (fun x => x.1 == n)).map (fun x => x.2)

end Dev

end Sys2Proof.Machine
end

