-- ==== Sys2Proof/Machine/Ingress.lean ====
section
/-! DEFINITION. The way into the pipelines (R359, R362 to R365): the source queues, and the reassembly unit that uplink
fragments pass first (R380, R381). -/

namespace Sys2Proof.Machine

/-- L3 of an air packet (R367): 6LoWPAN, or other for a dispatch that RFC 4944 reserves for what is not 6LoWPAN. -/
def airL3 (data : List Byte) : Nat := if unbe (slice data 0 1) < 64 then 2 else 1

/-- L3 of a packet of the host or of QZ-Link, by what W holds (R367): IPv6 where the first four bits are 6, 6LoWPAN where the first
octet is another IPHC dispatch or that of uncompressed IPv6, other where it is neither (DESIGN CHOICE, log entry 122). -/
def wiredL3 (w : List Byte) : Nat :=
  let b := unbe (slice w 0 1)
  if w.isEmpty then 2 else if b / 16 = 6 then 0 else if b / 16 = 7 ∨ b = 0x41 then 1 else 2

/-- Add octets from an offset to those held: none where one differs from what is held (R381). -/
def addOctets : Nat → List Byte → SMap Nat → Option (SMap Nat)
  | _, [], m => some m
  | i, b :: bs, m =>
    match m.find i with
    | some v => if v = b.toNat + 1 then addOctets (i + 1) bs m else none
    | none => addOctets (i + 1) bs (m.put i (b.toNat + 1))

/-- A fragment of RFC 4944: datagram_size, datagram_tag, offset in octets (none for the first), content. -/
def fragOf (data : List Byte) : Option (Nat × Nat × Option Nat × List Byte) :=
  let v := unbe (slice data 0 2)
  if v / 2048 = 0x18 then some (v % 2048, unbe (slice data 2 2), none, data.drop 4)
  else if v / 2048 = 0x1C then some (v % 2048, unbe (slice data 2 2), some (8 * unbe (slice data 4 1)), data.drop 5)
  else none

/-- A fragment joins a context: none where it overlaps with other content or ends beyond datagram_size. -/
def Reasm.add (r : Reasm) (off : Option Nat) (c : List Byte) : Option Reasm :=
  match off with
  | some o =>
    if r.size < o + c.length ∨ (r.head.isSome ∧ o < r.hdr) then none
    else (addOctets o c r.octets).map (fun m => { r with octets := m })
  | none =>
    let sp := (headerSpan c).getD (0, 0)
    let head := c.take sp.1
    let body := c.drop sp.1
    if r.size < sp.2 + body.length ∨ r.octets.any (fun x => decide (x.1 < sp.2)) then none
    else if r.head.isSome ∧ (r.head ≠ some head ∨ r.hdr ≠ sp.2) then none
    else (addOctets sp.2 body r.octets).map (fun m => { r with head := some head, hdr := sp.2, octets := m })

/-- The datagram is complete. -/
def Reasm.complete (r : Reasm) : Bool := r.head.isSome && decide (r.octets.length + r.hdr = r.size)

/-- The datagram's octets as it enters the pipeline, its header as the first fragment carried it. -/
def Reasm.data (r : Reasm) : List Byte := r.head.getD [] ++ r.octets.map (fun x => BitVec.ofNat 8 (x.2 - 1))

namespace Dev

/-- The pipeline a source runs on (R362). -/
def pipeOf (d : Dev) (src : Nat) : Nat := ofBool (bit d.cfg.PIPE_SRC_MAP_MAP src)

/-- A packet joins the queue of its source (R363). -/
def ingress (d : Dev) (x : Packet) : Dev :=
  let i := d.pipeOf x.src
  let s := d.pipeSt i
  let q := s.queues.get [] x.src
  if 4 ≤ x.src ∧ x.src < 14 ∧ (1024 ≤ q.length ∨ ¬ d.bufRoom x.data.length) then d.bump (Cnt.PIPE_IN_FULL i)
  else d.setPipe i { s with queues := s.queues.put x.src (q ++ [x]) }

/-- A packet's receive-log record leaves the log (R156). -/
def freeRecord (d : Dev) (x : Packet) : Dev :=
  match x.record with
  | some (p, r) => if p < 4 then d.dropRecord p r.seq else d
  | none => d

/-- The packet's octets move from the record to the packet. -/
def takeOctets (d : Dev) (x : Packet) : Dev :=
  match x.record with
  | some (p, r) => if p < 4 then d.modPort p (fun y => { y with rxData := y.rxData.del r.seq }) else d
  | none => d

/-- The source that a reassembly context is keyed by (R378, R380). -/
def reasmSrc (x : Packet) : Nat :=
  match x.llShort with | some a => 2 * 2 ^ 64 + a | none => 3 * 2 ^ 64 + x.llEui.toNat

/-- A fragment at the reassembly unit (R380, R381). -/
def reassemble (d : Dev) (x : Packet) (size tag : Nat) (off : Option Nat) (c : List Byte) : Dev :=
  let mine := fun (r : Reasm) => decide (r.pan = x.pan ∧ r.src = reasmSrc x ∧ r.size = size ∧ r.tag = tag)
  let old := d.pipe.reasm.find? mine
  let n := d.pipe.reasmSeq
  let dup := bit x.rxFlags 0
  let base : Reasm := old.getD { pan := x.pan, src := reasmSrc x, size := size, tag := tag }
  let rest := d.pipe.reasm.filter (fun r => !mine r)
  match base.add off c with
  | none => ((({ d with pipe := { d.pipe with reasm := rest } }).violate .VIO_FRAG_OVERLAP []).bump Cnt.REASM_OVERLAP).freeRecord x
  | some r =>
    let r := { r with dup := r.dup || dup, order := n }
    if r.complete then
      let y : Packet := { x with
        data := r.data, l3 := airL3 r.data, rxFlags := x.rxFlags - ofBool dup + ofBool r.dup + 8 }
      ((({ d with pipe := { d.pipe with reasm := rest } }).bump Cnt.REASM_DONE).takeOctets y).ingress y
    else
      let full : Bool := old.isNone && decide (2048 ≤ d.pipe.reasm.length)
      -- The context with the oldest last fragment goes (R381).
      let oldest := d.pipe.reasm.foldl (fun (a : Option Reasm) y =>
        match a with | some z => if y.order < z.order then some y else a | none => some y) none
      let kept := if full then (match oldest with | some z => rest.filter (fun y => y.order != z.order) | none => rest) else rest
      let d := { d with pipe := { d.pipe with reasm := kept ++ [r], reasmSeq := n + 1 } }
      (if full then d.bump Cnt.REASM_EVICT else d).freeRecord x

/-- An accepted uplink packet goes on (R19 step 8): a fragment to the reassembly unit, any other to its source queue. -/
def uplink (d : Dev) (x : Packet) : Dev :=
  match fragOf x.data with
  | some (size, tag, off, c) => d.reassemble x size tag off c
  | none => (d.takeOctets x).ingress x

end Dev

/-! ### Meanings -/

/-- REASM_TIMEOUT (R381). -/
def execReasmTimeout (j : Fin 2048) (s : State) : Host.Outcome State Fault Refusal :=
  s.run (fun d =>
    if j.val < d.pipe.reasm.length then
      ({ d with pipe := { d.pipe with reasm := d.pipe.reasm.eraseIdx j.val } }).bump Cnt.REASM_TIMEOUT
    else d)

end Sys2Proof.Machine
end

