-- ==== Sys2Proof/Machine/Air.lean ====
section
/-! DEFINITION. The air-access engine: the decisions of R201 on received frames, copy groups (R204), acknowledgements (R205
to R208), the uplink checks (R432) and the seen-cache (R295, R296), indirect frames (R212, R213), association (R214 to R218),
beacons and neighbours (R222 to R226, R471), and the duty bins (R183). -/

namespace Sys2Proof.Machine

/-- The source of a frame (R292): the origin of a Mesh IE, else the MAC source; addressing mode and address. -/
def RxMac.source (m : RxMac) : Nat × Nat :=
  match m.mesh with
  | some i => (2, i.origin)
  | none => (m.srcMode, m.src)

/-- The source as one number. -/
def RxMac.srcKey (m : RxMac) : Nat := m.source.1 * 2 ^ 64 + m.source.2

/-- The sequence number of the duplicate checks (R292). -/
def RxMac.dupSeq (m : RxMac) : Nat := match m.mesh with | some i => i.floodId % 256 | none => m.seq

/-- The frame counter: a secured frame that suppresses it is taken as carrying 0 and fails R432. -/
def RxMac.counter (m : RxMac) : Option Nat := if m.secured then some (m.fc.getD 0) else none

/-- Hop count of a frame (R297). -/
def RxMac.hopCount (m : RxMac) : Nat :=
  match m.mesh with
  | some i => if i.kind = 3 then i.hopList.length else i.hops
  | none => 0

/-- An Association request (R214). -/
def RxMac.isAssoc (m : RxMac) : Bool := m.ftype == 3 && m.cmd == 1

/-- A Mesh IE fails its check (R289, R294). -/
def RxMac.meshFails (m : RxMac) : Bool :=
  m.meshBad || (match m.mesh with
    | some i => (i.kind == 3 && m.dstMode == 0 && i.hops != i.hopList.length) || m.isAssoc
    | none => false)

/-- Two received frames are copies of one (R204). -/
def RxMac.copyOf (a b : RxMac) : Bool :=
  decide (a.srcKey = b.srcKey ∧ a.dupSeq = b.dupSeq ∧ a.counter = b.counter ∧ a.ftype = b.ftype)

/-- The frame asks for an acknowledgement that the device may send (R202, R293). -/
def RxMac.acked (m : RxMac) : Bool :=
  m.ar && !(m.dstMode == 2 && m.dst == 0xFFFF) && (match m.mesh with | some i => i.kind != 0 | none => true)

namespace Dev

/-! ### Helpers -/

/-- A record leaves the log, and its lane's exchange ends with the decision (R64). -/
def endRecord (d : Dev) (p : Nat) (r : RxRecord) : Dev := (d.dropRecord p r.seq).laneExchEnd r.lane

/-- The MAC header of a record of the log. -/
def recMac (d : Dev) (p : Nat) (r : RxRecord) : RxMac :=
  let o := (d.port p).rxData.get [] r.seq
  macOf (o.take (o.length - if bit r.flags 4 then 2 else 4))

/-- The PAN a frame is for (R202). -/
def matchPan (d : Dev) (m : RxMac) : Option Nat :=
  (List.range 4).find? (fun k =>
    let id := d.cfg.PAN_CFG_PAN_ID k
    d.cfg.PAN_CFG_EN k == 1 && m.panHere &&
      ((m.dstMode == 0 && m.dstPan == id) || (m.dstMode == 3 && m.dst == d.panEui k && m.dstPan == id) ||
        (m.dstMode == 2 && m.dst == 0xFFFF && m.ftype == 3 && (m.dstPan == id || m.dstPan == 0xFFFF))))

/-- A node lookup by source address (R321, R322), counted in NODE_LOOKUP. -/
def lookupSource (d : Dev) (k : Nat) (s : Nat × Nat) : Option Nat × Dev :=
  (match s.1 with
    | 2 => d.findShort k s.2
    | 3 => d.findEui k (BitVec.ofNat 64 s.2)
    | _ => none, d.bump Cnt.NODE_LOOKUP)

/-- HOP_MIN takes a lower hop count (R297). -/
def lowerHop (d : Dev) (k loc hops : Nat) : Dev :=
  if hops < (d.nodeAt k loc).hopMin then d.modNode k loc (fun e => { e with hopMin := hops }) else d

/-- The tally of a node's violations, and the quarantine it brings (R582). -/
def tallyNode (d : Dev) (k loc : Nat) : Dev :=
  let s := home k loc
  let n := d.vio.tally.get 0 s
  if n = 0 ∧ 1024 ≤ d.vio.tally.length then d.bump Cnt.TALLY_FULL
  else
    let d := { d with vio := { d.vio with tally := d.vio.tally.put s (n + 1) } }
    let th := d.cfg.FAULT_CTL_QUAR_THRESH
    let e := d.nodeAt k loc
    if th ≠ 0 ∧ th ≤ n + 1 ∧ ¬ e.quarantine = true then
      ((d.modNode k loc (fun e => { e with quarantine := true, qreason := 3 })).bump Cnt.NODE_QUARANTINE).raise
        .EVT_NODE_QUARANTINED (le 1 k ++ le 2 loc ++ le 8 e.eui.toNat)
    else d

/-! ### The indirect queue (R212) -/

/-- Frame pending for a node (R208): the oldest indirect frame is not in an exchange. -/
def framePending (d : Dev) (k : Nat) (eui : W64) : Bool :=
  match d.air.indirect.find? (fun x => decide (x.pan = k ∧ x.eui = eui)) with
  | some x => !x.inExch
  | none => false

/-! ### Acknowledgements (R205 to R208) -/

/-- The carrier of an acknowledgement (R206). -/
def ackCarrier (d : Dev) (p : Nat) : Option Nat :=
  (List.range 16).find? (fun c => bit (d.cfg.ACK_CTL_CARRIERS p) c && decide (d.carPort c = some p) &&
    !(d.carrier c).own.active && (d.carrier c).hold.isNone)

/-- The acknowledgement of a received frame is prepared at step 3 of R207; `loc` is the entry of the node it answers, none
for an Association request. A frame with a Mesh IE is answered to its last relay (R293); a relay without an entry here has no
node key, and its Enh-Ack goes unsecured (DESIGN CHOICE, log entry 180). A secured Enh-Ack is dropped before the carrier is
chosen where the node's counter is exhausted (R433) or its key slot is not usable (R421, R438). -/
def sendAck (d : Dev) (k p : Nat) (r : RxRecord) (m : RxMac) (loc : Option Nat) : Dev :=
  let look := if m.mesh.isSome then d.lookupSource k (m.srcMode, m.src) else (loc, d)
  let node := look.1
  let d := look.2
  let e := match node with | some a => d.nodeAt k a | none => {}
  let eui := if node.isSome then e.eui else BitVec.ofNat 64 m.src
  let enh := m.version = 2
  let sec : Bool := decide (enh ∧ d.cfg.PAN_CFG_ENH_SEC k = 1) && node.isSome
  if sec ∧ e.dlFc = 0xFFFFFFFF then (d.fcExhausted k e.loc).laneExchEnd r.lane
  else if sec ∧ ¬ d.keyUsable e.keySlot 0 = true then (d.bump Cnt.KEY_INVALID).laneExchEnd r.lane
  else match d.ackCarrier p with
    | none => (d.bump (Cnt.ACK_CARRIER_BUSY p)).laneExchEnd r.lane
    | some c =>
      let t := d.nodeTag e.keySlot e.eui e.keyEpoch false
      let d := if sec then d.requestKey t else d
      let dst := if node.isSome ∧ e.short ≤ 0xFFEF then e.short
        else if m.mesh.isSome ∧ m.srcMode = 2 then m.src else 0xFFFF
      let pend := d.framePending k eui
      let f : TxFrame :=
        { kind := if enh then .enhAck else .ack, pan := k, loc := node.getD 0xFFFF, dst := dst, eui := eui
          key := if sec then d.derivedKey t else [], keyEpoch := e.keyEpoch, seqNo := m.seq, fcs2 := bit r.flags 4
          coded := bit r.flags 2, version := m.version, pending := pend, secured := sec, rssi := r.rssi, lqi := r.lqi
          epochLo := r.epoch % 65536
          psduLen := ackPsduLen enh (decide (dst ≠ 0xFFFF)) sec (bit r.flags 4) }
      let poll := if pend ∧ m.ftype = 3 ∧ m.cmd = 4 then some (k, eui) else none
      let hold : Hold :=
        { lane := r.lane, khz := d.laneKhz r.lane, mode := r.mode, tx := { phase := .sched, cur := some f }, poll := poll }
      d.modCarrier c (fun x => { x with hold := some hold })

/-- The acknowledgement of a frame, or the end of its lane's exchange without one. -/
def maybeAck (d : Dev) (k p : Nat) (r : RxRecord) (m : RxMac) (loc : Option Nat) (shelf : Bool) : Dev :=
  if shelf then d else if m.acked then d.sendAck k p r m loc else d.laneExchEnd r.lane

/-! ### Association (R214 to R218) -/

/-- Queue an Association response (R214): the address and a status. -/
def assocRespond (d : Dev) (q : AssocReq) (addr status : Nat) : Dev × Status :=
  let f : TxFrame := { kind := .assoc, pan := q.pan, eui := q.eui, payload := le 1 2 ++ le 2 addr ++ le 1 status, ar := true
                       fcs2 := q.fcs2, version := q.version }
  d.offerIndirect f q.pan 0xFFFF q.eui

/-- Steps 3 to 5 of R214 for a request whose admission check has looked its EUI-64 up; `fixed` is an address the host
names. -/
def assocAdmit (d : Dev) (q : AssocReq) (fixed : Option Nat) : Dev × Status :=
  let k := q.pan
  let pre := (d.findEui k q.eui).map (fun a => d.nodeAt k a)
  let pre := match pre with | some e => if e.preplaced then some e else none | none => none
  if pre.isNone ∧ d.cfg.SEC_PAN_SLOT_EN k = 0 then (d.bump (Cnt.ASSOC_DENIED k)).assocRespond q 0xFFFF 2
  else if ¬ d.indirectRoom k q.eui then (d.bump (Cnt.ASSOC_CAPACITY k), .ST_INDIRECT_FULL)
  else
    let place : Option (Nat × Dev) := match pre, fixed with
      | some e, _ => some (e.loc, d)
      | none, some a => some (a, d.takeAddr k a)
      | none, none => d.allocAddr k
    match place with
    | none => (d.bump (Cnt.ASSOC_CAPACITY k)).assocRespond q 0xFFFF 1
    | some (a, d) =>
      let t := d.epoch.numPipe
      let e : NodeEntry := match pre with
        | some o => { o with short := o.loc, preplaced := false, hopDist := 0, touch := t % 2 ^ 32 }
        | none => { eui := q.eui, short := a, loc := a, pan := k, valid := true, fcNone := true, hopDist := 0, hopMin := 0xFF
                    keySlot := d.cfg.SEC_PAN_KEY_SLOT k, policer := 0xFFFF, touch := t % 2 ^ 32, setEpoch := t % 65536 }
      let r := (d.putNode e).assocRespond q a 0
      ((r.1.bump (Cnt.ASSOC_OK k)).raise .EVT_NODE_JOINED [], r.2)

/-- An Association request with an extended source (R214, R215). -/
def assocRequest (d : Dev) (q : AssocReq) : Dev :=
  let k := q.pan
  if d.cfg.PAN_CFG_ASSOC_PERMIT k = 0 then d.bump (Cnt.ASSOC_IGNORED k)
  else
    let d := d.bump Cnt.NODE_LOOKUP
    let e := (d.findEui k q.eui).map (fun a => d.nodeAt k a)
    let short := match e with | some x => if x.short ≤ 0xFFEF then some x.short else none | none => none
    let placed := match e with | some x => x.preplaced | none => false
    match short with
    | some a =>
      let d := d.bump (Cnt.ASSOC_REPEAT k)
      if d.air.indirect.any (fun x => decide (x.pan = k ∧ x.eui = q.eui ∧ x.frame.kind = .assoc)) then d
      else (d.assocRespond q a 0).1
    | none =>
      let d := d.bump Cnt.NODE_LOOKUP
      let pol := d.cfg.PAN_CFG_POLICY k
      if ¬ placed = true ∧ d.cfg.SEC_PAN_SLOT_EN k = 0 then ((d.bump (Cnt.ASSOC_DENIED k)).assocRespond q 0xFFFF 2).1
      else if pol = 2 ∧ d.modes.control ≠ .standAlone then
        (if d.air.assoc.any (fun x => decide (x.pan = k ∧ x.eui = q.eui)) then d
         else ({ d with air := { d.air with assoc := d.air.assoc ++ [q] } }).raise .EVT_ASSOC_REQUEST [])
      else if pol ≠ 0 ∧ ¬ placed = true then ((d.bump (Cnt.ASSOC_DENIED k)).assocRespond q 0xFFFF 2).1
      else (d.assocAdmit q none).1

/-- CMD_ASSOC_DECIDE (R218, R573). -/
def assocDecide (d : Dev) (h : Hdr) (p : List Byte) (sub : Nat) : Dev :=
  let c : Cmd := ⟨h, .CMD_ASSOC_DECIDE, sub, p⟩
  d.command c (fun d =>
    let k := fld p 0 1
    let addr := fld p 2 2
    let eui := BitVec.ofNat 64 (fld p 8 8)
    if d.follower then d.complete c .ST_MODE_REFUSED
    else if 3 < k ∨ fld p 1 1 ≠ sub ∨ ¬ zeros p 4 4 ∨ ¬ zeros p 0x10 48 then d.complete c .ST_BAD_PARAM
    else match d.air.assoc.find? (fun x => decide (x.pan = k ∧ x.eui = eui)) with
      | none => d.complete c .ST_NOT_FOUND
      | some q =>
        let fixed := if addr = 0xFFFE then none else some addr
        let inUse := (d.nodeAt k addr).valid || (d.pan k).used.get false addr || d.held k addr
        if sub = 0 ∧ fixed.isSome ∧ (0xFFEF < addr ∨ inUse = true) then d.complete c .ST_BAD_PARAM
        else if ¬ d.indirectRoom k eui then d.complete c .ST_INDIRECT_FULL
        else
          let d := { d with air := { d.air with assoc := d.air.assoc.filter (fun x => !decide (x.pan = k ∧ x.eui = eui)) } }
          let r := if sub = 0 then (d.bump Cnt.NODE_LOOKUP).assocAdmit q fixed else (d.bump (Cnt.ASSOC_DENIED k)).assocRespond q 0xFFFF 2
          r.1.complete c r.2)

/-- PERSIST_MS of a request under POLICY HOST has passed (R215). -/
def assocTimeout (d : Dev) (k : Nat) (eui : W64) : Dev :=
  if d.air.assoc.any (fun x => decide (x.pan = k ∧ x.eui = eui)) then
    ({ d with air := { d.air with assoc := d.air.assoc.filter (fun x => !decide (x.pan = k ∧ x.eui = eui)) } }).bump
      (Cnt.ASSOC_TIMEOUT k)
  else d

/-- The disassociations of an epoch delete their entries at its end (R217). -/
def applyLeaving (d : Dev) : Dev :=
  let l := d.air.leaving
  ({ d with air := { d.air with leaving := [] } }).each l (fun d s =>
    let e := d.tbl.node.at_ s
    if e.valid then (((d.releaseAddr e.pan e.loc).removeNode e).bump (Cnt.NODE_LEFT e.pan)).raise .EVT_NODE_LEFT [] else d)

/-- A MAC command that decision 13 has taken (R213, R217). -/
def macCommand (d : Dev) (k : Nat) (m : RxMac) (loc : Nat) : Dev :=
  match m.cmd with
  | 3 => { d with air := { d.air with leaving := d.air.leaving.filter (fun s => s != home k loc) ++ [home k loc] } }
  | 4 => d
  | _ => d.violate .VIO_MAC_CMD []

/-! ### Unknown sources (R295, R336, R337) -/

/-- EVT_NODE_UNKNOWN through the learning filter (R337). -/
def learnSource (d : Dev) (k : Nat) (m : RxMac) (r : RxRecord) : Dev :=
  if d.cfg.TBL_LEARN_UNKNOWN_EVT ≠ 1 then d
  else
    let key := m.srcKey
    let e := d.epoch.numPipe
    let seen := d.air.learn.find? (fun x => decide (x.1 = k ∧ x.2.1 = key))
    let fresh : Bool := match seen with | some x => decide (x.2.2 + max 1 d.cfg.TBL_LEARN_LEARN_HOLD ≤ e) | none => true
    if ¬ fresh then d
    else
      let l := d.air.learn.filter (fun x => !decide (x.1 = k ∧ x.2.1 = key))
      let l := if 4096 ≤ l.length then l.drop 1 else l
      let n := if m.source.1 = 3 then 8 else 2
      ({ d with air := { d.air with learn := l ++ [(k, key, e)] } }).raise .EVT_NODE_UNKNOWN
        (le 1 k ++ le n m.source.2 ++ le 1 m.source.1 ++ le 1 (bits r.flags 15 14) ++ le 1 r.lane ++ le 2 (pat 16 r.rssi) ++
          le 1 m.ftype)

/-- A frame with its record goes over QZ-Link to the device that owns its node (R22, R492). -/
def forwardAir (d : Dev) (chip p : Nat) (r : RxRecord) : Dev :=
  d.sendQl { type := 2, cls := hostClass, dst := chip, src := d.elec.chipId, ttl := 15
             payload := r.octets ++ (d.port p).rxData.get [] r.seq }

/-- The key of a Mesh IE in the seen-cache (R299). -/
def seenKey (d : Dev) (k : Nat) (i : MeshIe) : SeenEntry :=
  { panId := d.cfg.PAN_CFG_PAN_ID k, origin := i.origin, cell := i.cell, floodId := i.floodId, kind := i.kind }

/-- A copy with a Mesh IE whose origin this device does not own (R295, R336). -/
def meshUnowned (d : Dev) (k p : Nat) (r : RxRecord) (m : RxMac) (i : MeshIe) (shelf : Bool) : Dev :=
  if shelf then (d.bump Cnt.MESH_NO_OWNER).learnSource k m r
  else if i.cell = d.elec.chipId ∨ (d.routeTo i.cell false).isNone then d.bump Cnt.MESH_NO_OWNER
  else
    let key := d.seenKey k i
    match d.seenFind key with
    | some n => (d.seenTouch n m.hopCount p false).bump Cnt.SEEN_DROP
    | none =>
      ((d.seenInsert { key with forwarded := true, minHops := m.hopCount, ports := 2 ^ p, copies := 1 }).bump
        Cnt.SHELF_FWD).forwardAir i.cell p r

/-- The chip that the lowest enabled OWNER_RANGE of the PAN names for an address (OWNR). -/
def ownerChip (d : Dev) (k a : Nat) : Option Nat :=
  ((List.range 16).find? (fun n => d.cfg.OWNER_CHIP_EN k n == 1 &&
    decide (d.cfg.OWNER_RANGE_LO k n ≤ a ∧ a ≤ d.cfg.OWNER_RANGE_HI k n))).map (fun n => d.cfg.OWNER_CHIP_CHIP k n)

/-- The first enabled OWNER_RANGE of the PAN that covers an address and names another chip of the system (R336). -/
def otherOwner (d : Dev) (k a : Nat) : Option Nat :=
  ((List.range 16).find? (fun n => d.cfg.OWNER_CHIP_EN k n == 1 &&
    decide (d.cfg.OWNER_RANGE_LO k n ≤ a ∧ a ≤ d.cfg.OWNER_RANGE_HI k n ∧ d.cfg.OWNER_CHIP_CHIP k n ≠ d.elec.chipId) &&
    (d.routeTo (d.cfg.OWNER_CHIP_CHIP k n) false).isSome)).map (fun n => d.cfg.OWNER_CHIP_CHIP k n)

/-- A frame without a Mesh IE of an unknown source (R336). -/
def unknownSource (d : Dev) (k p : Nat) (r : RxRecord) (m : RxMac) (shelf : Bool) : Dev :=
  let drop := fun (d : Dev) => (d.bump Cnt.UNKNOWN_SRC).learnSource k m r
  if shelf ∨ m.srcMode ≠ 2 then drop d
  else match d.otherOwner k m.src with
    | some c => (d.bump Cnt.OWNER_FWD).forwardAir c p r
    | none => drop d

/-! ### The uplink path after decision 13 (R19 steps 6 to 8, R432) -/

/-- The packet of an accepted frame at the pipeline (R366 to R368, R567, R588). -/
def uplinkPacket (d : Dev) (x : RxPending) (plain : List Byte) (loc : Nat) : Packet × Dev :=
  let e := d.epoch.numPipe
  let after : Bool := decide (d.pair.firstEpoch ≠ 0 ∧ d.pair.firstEpoch ≤ e ∧ e ≤ d.pair.dupUntil)
  let dup := after || (d.nodeAt x.pan loc).dup
  ({ src := x.pan, data := plain, pan := x.pan, nodeLoc := loc, l3 := airL3 plain
     rxInfo := pat 16 x.rcd.rssi + x.rcd.lqi * 2 ^ 16 + x.rcd.lane * 2 ^ 24, epoch := x.rcd.epoch
     rxFlags := ofBool dup + 2 * ofBool x.mac.mesh.isSome + 4 * ofBool x.shelf
     record := some (if x.shelf then 4 else x.port, x.rcd)
     llShort := if x.mac.source.1 = 2 then some x.mac.source.2 else none
     llEui := BitVec.ofNat 64 x.mac.source.2 },
   if after then d.bump Cnt.POSSIBLE_DUP_MARKED else d)

/-- An accepted frame is dropped: its record leaves the log. -/
def dropPending (d : Dev) (x : RxPending) : Dev := if x.shelf then d else d.dropRecord x.port x.rcd.seq

/-- Entries whose delete waited for the in-flight list (R333). -/
def removeWaiting (d : Dev) : Dev :=
  let go := d.air.removing.filter (fun s => !d.nodeInFlight (d.tbl.node.at_ s))
  let done := d.air.deleting.filter (fun x => go.contains x.1)
  ({ d with air := { d.air with
      removing := d.air.removing.filter (fun s => !go.contains s)
      deleting := d.air.deleting.filter (fun x => !go.contains x.1) } }).each go (fun d s =>
    let e := d.tbl.node.at_ s
    (done.filter (fun (x : Nat × Cmd) => x.1 == s)).foldl (fun (d : Dev) (x : Nat × Cmd) => d.complete x.2 .ST_OK (finalFields e)) (d.eraseNode s))

/-- The frame passes the seen-cache (R296): a key with ACCEPTED drops it. -/
def seenAccept (d : Dev) (k p : Nat) (m : RxMac) : Bool × Dev :=
  match m.mesh with
  | none => (true, d)
  | some i =>
    let key := d.seenKey k i
    match d.seenFind key with
    | some n =>
      if (d.tbl.seen.slots.get {} n).accepted then (false, (d.seenTouch n m.hopCount p true).bump Cnt.SEEN_DROP)
      else (true, d.seenTouch n m.hopCount p true)
    | none => (true, d.seenInsert { key with accepted := true, minHops := m.hopCount, ports := 2 ^ p, copies := 1 })

/-- The checks of R432 on an accepted frame: the plain payload, or the state after the drop. -/
def uplinkChecks (d : Dev) (x : RxPending) (e : NodeEntry) : Except Dev (List Byte) :=
  let m := x.mac
  let fc := m.counter.getD 0
  if m.secLevel < 5 ∨ m.keyIdMode ≠ 1 ∨ m.fc.isNone then
    .error (((d.violate .VIO_SEC_LEVEL []).bump Cnt.SEC_LEVEL_BAD).tallyNode e.pan e.loc)
  else if ¬ x.indexOk then .error (d.bump Cnt.KEY_EPOCH_MISMATCH)
  else if ¬ x.keyOk then .error (d.bump Cnt.KEY_INVALID)
  else match Config.ccmOpen x.key (nonceOf e.eui.toNat fc m.secLevel) m.aad (micOctets m.secLevel) m.payload with
    | none => .error (((d.violate .VIO_AUTH_FAIL []).bump Cnt.AUTH_FAIL).tallyNode e.pan e.loc)
    | some plain =>
      if e.fcNone ∨ e.lastFc < fc then .ok plain
      else
        let d := if x.shelf then d else d.lowerHop e.pan e.loc m.hopCount
        .error ((d.violate .VIO_FC_REPLAY []).bump Cnt.FC_OVERTAKEN)

/-- A frame stands in one of the eight engines (R429): the oldest frames whose keys are there take them, in order of arrival
(DESIGN CHOICE, log entry 184). A downlink frame is secured within its grant and holds none of them. -/
def inEngine (d : Dev) (x : RxPending) : Bool :=
  ((d.air.ccm.filter (fun y => match y.keyTag with | some t => !decide (t ∈ d.sec.kdfs) | none => true)).take 8).contains x

/-- Node-traffic crypto completes on a frame (R19 steps 6 to 8). It waits while its key is derived, and for an engine. -/
def ccmDone (d : Dev) (p seq : Nat) : Dev :=
  match d.air.ccm.find? (fun x => decide (bits x.rcd.flags 15 14 = p ∧ x.rcd.seq = seq)) with
  | none => d
  | some x =>
    let k := x.pan
    let loc := x.loc.getD 0xFFFF
    let e := d.nodeAt k loc
    if ¬ d.inEngine x then d
    else
      let fc := x.mac.counter.getD 0
      let i := d.air.ccm.findIdx? (fun x => decide (bits x.rcd.flags 15 14 = p ∧ x.rcd.seq = seq))
      let out := d.air.inflight.findIdx? (fun y => decide (y = (⟨k, loc, x.mac.dupSeq, fc⟩ : InFlightRx)))
      let d := { d with air := { d.air with
        ccm := match i with | some n => d.air.ccm.eraseIdx n | none => d.air.ccm
        inflight := match out with | some n => d.air.inflight.eraseIdx n | none => d.air.inflight } }
      d.asFrame x.rcd.epoch (fun d => match d.uplinkChecks x e with
      | .error d => (d.dropPending x).removeWaiting
      | .ok plain =>
        let d := d.modNode k loc (fun e => { e with lastFc := fc, lastSeq := x.mac.dupSeq, fcNone := false })
        let d := (if x.shelf then d else d.lowerHop k loc x.mac.hopCount).bump Cnt.CCM_UP_OK
        let d := if fc = 0xFFFFFFFF then d.fcEvent k loc 1 else d
        let s := d.seenAccept k x.port x.mac
        let d := s.2
        let d := if ¬ s.1 then d.dropPending x
          else if x.mac.ftype = 3 then (d.macCommand k x.mac loc).dropPending x
          else
            let y := d.uplinkPacket x plain loc
            y.2.uplink y.1
        d.removeWaiting)

/-- Decision 13 for a frame with a frame counter: in-flight list, key request, CCM*. -/
def startCcm (d : Dev) (x : RxPending) (e : NodeEntry) : Dev :=
  let t := d.nodeTag e.keySlot e.eui e.keyEpoch true
  let ok := e.valid && d.keyUsable e.keySlot 0
  let want := ok && decide (5 ≤ x.mac.secLevel ∧ x.mac.keyIdMode = 1 ∧ x.mac.keyIndex = 0x80 + e.keyEpoch % 128)
  let d := if want then d.requestKey t else d
  { d with air := { d.air with
      inflight := d.air.inflight ++ [⟨x.pan, e.loc, x.mac.dupSeq, x.mac.counter.getD 0⟩]
      ccm := d.air.ccm ++ [{ x with
        loc := some e.loc, key := d.derivedKey t, keyOk := ok, keyTag := some t
        indexOk := decide (x.mac.keyIndex = 0x80 + e.keyEpoch % 128) }] } }

/-! ### Decisions 7 to 13 -/

/-- A copy falls under decision 10 (R203, R204, R297). -/
def dropMulti (d : Dev) (k p : Nat) (r : RxRecord) (m : RxMac) (loc : Option Nat) (shelf : Bool) : Dev :=
  if shelf then d.bump (Cnt.SHELF_COPY p)
  else
    let d := (d.asFrame r.epoch (fun d => d.bump (Cnt.MULTI_COPY p))).endRecord p r
    match loc with | some a => d.lowerHop k a m.hopCount | none => d

/-- Decisions 7 to 13 on the copy that stands for its group; `others` are the group's other copies. A copy from a shelf peer
that decisions 10 to 12 end advances SHELF_COPY in place of their counters (R298). -/
def decideGroup (d : Dev) (x : RxPending) (others : List (Nat × RxRecord × RxMac)) : Dev :=
  let k := x.pan
  let p := x.port
  let m := x.mac
  let r := x.rcd
  let dropOthers := fun (d : Dev) (loc : Option Nat) =>
    others.foldl (fun (d : Dev) o => d.dropMulti k o.1 o.2.1 o.2.2 loc false) d
  let fin := fun (d : Dev) => if x.shelf then d else d.dropRecord p r.seq
  let finE := fun (d : Dev) => if x.shelf then d else d.endRecord p r
  if m.isAssoc then
    let d := (dropOthers d none).maybeAck k p r m none x.shelf
    fin (if m.srcMode = 3 then d.assocRequest ⟨k, BitVec.ofNat 64 m.src, bit r.flags 4, m.version⟩
      else d.violate .VIO_MAC_CMD [])
  else
    let l := d.lookupSource k m.source
    let d := l.2
    match l.1 with
    | none =>
      match m.mesh with
      | some _ =>
        let all := (p, r, m) :: others
        all.foldl (fun (d : Dev) o =>
          let d := match o.2.2.mesh with | some i => d.meshUnowned k o.1 o.2.1 o.2.2 i x.shelf | none => d
          if x.shelf then d else d.endRecord o.1 o.2.1) d
      | none => dropOthers (finE (d.unknownSource k p r m x.shelf)) none
    | some loc =>
      let d := d.hitNode k loc
      let e := d.nodeAt k loc
      let flight := (⟨k, loc, m.dupSeq, m.counter.getD 0⟩ : InFlightRx)
      if e.quarantine ∨ e.lastFc = 0xFFFFFFFF then
        dropOthers (finE d) (some loc)
      else if m.counter.isSome ∧ flight ∈ d.air.inflight then (dropOthers d (some loc)).dropMulti k p r m (some loc) x.shelf
      else
        let d := dropOthers d (some loc)
        match m.counter with
        | none => fin ((d.maybeAck k p r m (some loc) x.shelf).macCommand k m loc)
        | some fc =>
          if ¬ e.fcNone ∧ fc = e.lastFc ∧ m.dupSeq = e.lastSeq then
            (if x.shelf then d.bump (Cnt.SHELF_COPY p)
             else ((((d.maybeAck k p r m (some loc) false).bump (Cnt.DUP_ACKED p)).lowerHop k loc m.hopCount).dropRecord p r.seq))
          else if ¬ e.fcNone ∧ fc ≤ e.lastFc then
            finE ((d.bump (if x.shelf then Cnt.SHELF_COPY p else Cnt.FC_STALE p)).violate .VIO_FC_REPLAY [])
          else (d.maybeAck k p r m (some loc) x.shelf).startCcm x e

/-- The oldest copy group closes (R204): it is decided on the copy of the highest RSSI, the lower port at a tie. -/
def closeGroup (d : Dev) : Dev :=
  match d.air.groups with
  | [] => d
  | g :: rest =>
    let d := { d with air := { d.air with groups := rest } }
    let cs := g.copies.filterMap (fun c => ((d.port c.port).rxlog.find c.recSeq).map (fun r => (c.port, r, d.recMac c.port r)))
    let best := cs.foldl (fun (a : Option (Nat × RxRecord × RxMac)) c =>
      match a with
      | none => some c
      | some b => if b.2.1.rssi < c.2.1.rssi ∨ (b.2.1.rssi = c.2.1.rssi ∧ c.1 < b.1) then some c else a) none
    match best with
    | none => d
    | some b =>
      d.asFrame b.2.1.epoch (fun d => d.decideGroup { g with mac := b.2.2, rcd := b.2.1, port := b.1, copies := [] }
        (cs.filter (fun c => !decide (c.1 = b.1 ∧ c.2.1.seq = b.2.1.seq))))

/-! ### Neighbours (R222 to R226, R471 to R473) -/

/-- The content of a Qorzora IE of a frame, of 12 octets. -/
def qzIe (m : RxMac) (id : Nat) : Option (List Byte) :=
  (m.ies.find? (fun x => x.1 == id && decide (x.2.length = 12))).map (fun x => x.2)

/-- The index of a neighbour. -/
def nbrFind (d : Dev) (panId : Nat) (eui : W64) : Option Nat :=
  (d.air.nbrs.find? (fun x => x.2.valid && decide (x.2.panId = panId ∧ x.2.eui = eui))).map (fun x => x.1)

def setNbr (d : Dev) (i : Nat) (n : Nbr) : Dev := { d with air := { d.air with nbrs := d.air.nbrs.set {} i n } }
def nbr (d : Dev) (i : Nat) : Nbr := d.air.nbrs.get {} i

/-- The lowest free index of the neighbour table. -/
def nbrFree (d : Dev) : Option Nat := (List.range 64).find? (fun i => !(d.nbr i).valid)

/-- The beacon keys that a secured beacon is verified under (R428, R471). -/
def beaconTags (d : Dev) (m : RxMac) : List KeyTag :=
  if d.cfg.TIME_MESH_UNSECURED = 1 ∨ ¬ (m.secured && m.secLevel == 2 && m.keyIndex == 2) then []
  else ((List.range 4).filter (fun k => d.cfg.PAN_CFG_EN k == 1 && d.cfg.PAN_CFG_PAN_ID k == m.srcPan &&
    d.cfg.PAN_CFG_BCN_SEC k == 1 && d.panKeyOk k)).map (fun k => d.panTag (d.cfg.SEC_PAN_KEY_SLOT k) m.srcPan false)

/-- A beacon counts for mesh time (R471). -/
def beaconCounts (d : Dev) (m : RxMac) : Bool :=
  d.cfg.TIME_MESH_UNSECURED == 1 || (List.range 4).any (fun k =>
    d.cfg.PAN_CFG_EN k == 1 && d.cfg.PAN_CFG_PAN_ID k == m.srcPan && d.cfg.PAN_CFG_BCN_SEC k == 1 && d.panKeyOk k &&
      m.secured && m.secLevel == 2 && m.keyIndex == 2 &&
      (Config.ccmOpen (d.derivedKey (d.panTag (d.cfg.SEC_PAN_KEY_SLOT k) m.srcPan false))
        (nonceOf m.src (m.fc.getD 0) 2) m.aad 8 m.payload).isSome)

/-- When the next beacon of a neighbour is expected (R223). -/
def nbrGap (d : Dev) (ms : Nat) : Nat := (if ms = 0xFFFF then d.cfg.NBR_CTL_DEFAULT_GAP_MS else ms) * 1000000

/-- A beacon's effect on its neighbour's entry (R222 to R224, R472, R473). -/
def nbrBeacon (d : Dev) (i : Nat) (m : RxMac) (r : RxRecord) : Dev :=
  let n := d.nbr i
  let cell := qzIe m 0x0C
  let next := match cell with | some c => fld c 8 2 | none => n.nextBcnMs
  let tol := d.cfg.NBR_CTL_TOL * 100000
  let near := decide (n.expect ≤ r.syncTime + tol ∧ r.syncTime ≤ n.expect + tol)
  let inWin := near || n.heardInWindow
  let lost := n.lost
  let clear := lost || near || n.nextBcnMs == 0xFFFF
  let n := { n with
    chip := match cell with | some c => fld c 0 2 % 1024 | none => n.chip
    theirEpoch := match qzIe m 0x0A with | some c => fld c 0 6 | none => n.theirEpoch
    rssi := r.rssi, syncTime := r.syncTime, lane := r.lane, khz := d.laneKhz r.lane, mode := r.mode, nextBcnMs := next
    lost := false, misses := if clear then 0 else n.misses, heardInWindow := inWin
    expect := r.syncTime + d.nbrGap next }
  let counts := d.beaconCounts m
  let d := (d.beaconTags m).foldl (fun (d : Dev) t => d.requestKey t) d
  let d := if lost then (d.setNbr i n).raise .EVT_NEIGHBOUR_FOUND [] else d.setNbr i n
  match counts, qzIe m 0x0B with
  | true, some t =>
    let n := { n with src := fld t 8 1 % 4, holdover := bit (fld t 8 1) 2, hops := fld t 9 1, err := fld t 0x0A 2
                      secured := m.secured, countSync := r.syncTime, countTx := fld t 0 8 }
    let d := d.setNbr i n
    if n.timeRef then
      let hops := if d.time.source = 2 then min (n.hops + 1) 0xF else d.time.hops
      { d with time := { d.time with
          refErr := n.err, refHops := n.hops, hops := hops, meas := d.time.meas ++ [.mesh r.syncTime (fld t 0 8) i] } }
    else d
  | _, _ => d

/-- A beacon is heard (R222). -/
def beaconRx (d : Dev) (p : Nat) (m : RxMac) (r : RxRecord) : Dev :=
  if m.srcMode ≠ 3 then d
  else
    let eui := BitVec.ofNat 64 m.src
    match d.nbrFind m.srcPan eui with
    | some i => d.nbrBeacon i m r
    | none =>
      match qzIe m 0x0C with
      | none => d
      | some c =>
        if d.cfg.NBR_CTL_LEARN ≠ 1 ∨ fld c 0 2 % 1024 = d.elec.chipId then d
        else match d.nbrFree with
          | none => d.bump (Cnt.NBR_TABLE_FULL p)
          | some i =>
            (d.setNbr i { valid := true, eui := eui, panId := m.srcPan, learned := true, expect := r.syncTime }).nbrBeacon i m r

/-- A beacon window is judged (R223, R224). -/
def nbrJudge (d : Dev) (i : Nat) : Dev :=
  let n := d.nbr i
  if ¬ n.valid then d
  else if n.heardInWindow then d.setNbr i { n with misses := 0, heardInWindow := false }
  else
    let tol := d.cfg.NBR_CTL_TOL * 100000
    let ears := d.activeLanes.filter (fun l => decide (d.laneKhz l = n.khz ∧ d.laneMode l = n.mode))
    let open_ := ears.any (fun l => ((d.lane l).st == .search || (d.lane l).st.inFrame) &&
      decide ((d.lane l).liveSince + 2 * tol ≤ d.up))
    let n1 := { n with expect := n.expect + d.nbrGap n.nextBcnMs }
    if n.nextBcnMs = 0xFFFF ∨ open_ = true then
      let n2 := { n1 with misses := min 3 (n.misses + 1) }
      if 3 ≤ n.misses + 1 ∧ ¬ n.lost = true then
        let d := (d.setNbr i { n2 with lost := true, timeRef := false }).raise .EVT_NEIGHBOUR_LOST
          (le 1 i ++ le 4 n.panId ++ le 8 n.eui.toNat)
        if n.timeRef then d.enterHoldover else d
      else d.setNbr i n2
    else (d.setNbr i n1).bump (Cnt.NBR_UNHEARD ((d.lanePort n.lane).getD 0))

/-- CMD_NBR_SET at acceptance (R226, R573). -/
def nbrSet (d : Dev) (h : Hdr) (p : List Byte) (sub : Nat) : Dev :=
  let c : Cmd := ⟨h, .CMD_NBR_SET, sub, p⟩
  d.command c (fun d =>
    if d.follower then d.complete c .ST_MODE_REFUSED
    else if fld p 0 1 ≠ sub ∨ ¬ zeros p 1 1 ∨ ¬ zeros p 4 4 ∨ ¬ zeros p 0x10 48 then d.complete c .ST_BAD_PARAM
    else d.stageCmd c none)

/-- CMD_NBR_SET at its boundary. -/
def nbrSetApply (d : Dev) (c : Cmd) : Dev :=
  let panId := fld c.p 2 2
  let eui := BitVec.ofNat 64 (fld c.p 8 8)
  match d.nbrFind panId eui, c.sub with
  | some i, 0 => (d.setNbr i { d.nbr i with learned := false }).completeStaged c .ST_OK
  | none, 0 => (match d.nbrFree with
    | some i => (d.setNbr i { valid := true, eui := eui, panId := panId, expect := d.now + d.nbrGap 0xFFFF }).completeStaged c .ST_OK
    | none => d.completeStaged c .ST_FULL)
  | some i, _ => ({ d with air := { d.air with nbrs := d.air.nbrs.del i } }).completeStaged c .ST_OK
  | none, _ => d.completeStaged c .ST_NOT_FOUND

/-! ### Acknowledgements received (R209) -/

/-- A received acknowledgement completes the frame that waits for it. -/
def ackRx (d : Dev) (p : Nat) (m : RxMac) (r : RxRecord) : Dev :=
  let sync := (d.port p).rxSync.get 0 r.seq
  let hit := fun (c : Nat) (hold : Bool) =>
    let t := d.tx c hold
    t.phase == .ackWait && decide (d.carPort c = some p ∧ d.txKhz c hold = d.laneKhz r.lane ∧ d.txMode c hold = r.mode) &&
      (match t.cur with
       | some f => decide (f.seqNo = m.seq) && (m.version != 2 || (m.dstMode == 3 && m.dst == d.panEui f.pan))
       | none => false) &&
      (if t.waitOver then t.waitFor.contains r.seq else decide (t.waitUp ≤ sync))
  match (List.range 16).find? (fun c => hit c false || ((d.carrier c).hold.isSome && hit c true)) with
  | some c => d.frameDone c (!hit c false)
  | none => d

/-! ### Decisions 1 to 6 (R201) -/

/-- A frame that decisions 1 to 6 leave joins an open copy group within 16 µs of its earliest copy, or opens one (R204). -/
def joinGroup (d : Dev) (k p : Nat) (r : RxRecord) (m : RxMac) : Dev :=
  let t0 := (d.port p).rxT0.get 0 r.seq
  let c : Copy := ⟨p, r.seq, r.rssi, t0⟩
  match d.air.groups.findIdx? (fun g => decide (g.pan = k) && g.mac.copyOf m &&
      g.copies.all (fun y => decide (absDiff y.t0 t0 ≤ 16000))) with
  | some i => { d with air := { d.air with groups := d.air.groups.modify i (fun g => { g with copies := g.copies ++ [c] }) } }
  | none =>
    { d with air := { d.air with groups := d.air.groups ++ [{ mac := m, pan := k, loc := none, rcd := r, port := p, shelf := false, copies := [c] }] } }

/-- What decisions 4 to 6 say of a frame: the PAN it goes on with, or the state after its drop. -/
def early (d : Dev) (p : Nat) (m : RxMac) : Except Dev Nat :=
  if (m.ftype ≠ 1 ∧ m.ftype ≠ 3) ∨ m.version = 3 then .error (d.violate .VIO_FRAME_TYPE [])
  else if m.meshFails then .error ((d.violate .VIO_MESH_HDR []).bump Cnt.MESH_HDR_BAD)
  else match d.matchPan m with
    | none => .error (d.bump (Cnt.NOT_FOR_US p))
    | some k =>
      if m.ftype = 1 ∧ ¬ m.secured = true then .error (d.violate .VIO_UNSECURED_DATA [])
      else if m.ftype = 3 ∧ m.cmd = 7 then .error (d.bump (Cnt.BCN_REQ_IGNORED p))
      else .ok k

/-- The decisions of R201 on an RX_OK record of the device's own lanes. -/
def decideRecord (d : Dev) (p seq : Nat) : Dev :=
  match (d.port p).rxlog.find seq with
  | none => d
  | some r =>
    if r.outcome ≠ 0 ∨ (d.port p).decided.contains seq = true then d
    else
      let d := d.modPort p (fun x => { x with decided := x.decided ++ [seq] })
      let m := d.recMac p r
      let d := d.asFrame r.epoch (fun d =>
        if d.modes.phase = .survey ∨ d.follower then
          let d := if d.modes.phase = .survey ∧ m.ftype = 0 then d.beaconRx p m r else d
          let d := if d.modes.phase = .survey ∧ d.runs then d.deliverAir r ((d.port p).rxData.get [] seq) else d
          d.endRecord p r
        else if m.ftype = 0 then (d.beaconRx p m r).endRecord p r
        else if m.ftype = 2 then (d.ackRx p m r).endRecord p r
        else match d.early p m with
          | .error d => d.endRecord p r
          | .ok k => d.joinGroup k p r m)
      ((d.endWaitFor p seq).settle).pump

/-- A receive-log record from its octets (R157). -/
def recordOf (o : List Byte) : RxRecord :=
  { syncTime := fld o 0 8, epoch := fld o 8 6, seq := fld o 0x0E 2, phrLen := fld o 0x10 2, present := fld o 0x12 2
    rssi := sext 16 (fld o 0x14 2), snr := sext 8 (fld o 0x16 1), lqi := fld o 0x17 1, foff := sext 16 (fld o 0x18 2)
    flags := fld o 0x1A 2, lane := fld o 0x1C 1, mode := fld o 0x1D 1, outcome := fld o 0x1E 1, aux := fld o 0x1F 1 }

/-- A frame that a shelf peer has forwarded (R203): it meets the decisions at once, and nobody acknowledges it. -/
def shelfFrame (d : Dev) (payload : List Byte) : Dev :=
  let r := recordOf payload
  let o := (payload.drop 32).take r.present
  let m := macOf (o.take (o.length - if bit r.flags 4 then 2 else 4))
  let p := bits r.flags 15 14
  if d.modes.phase = .survey ∨ d.follower ∨ m.ftype = 0 ∨ m.ftype = 2 then d
  else match d.early p m with
    | .error d => d
    | .ok k => d.decideGroup { mac := m, pan := k, loc := none, rcd := r, port := p, shelf := true, copies := [] } []

/-! ### Indirect responses (R213) -/

/-- The response's decision instant: the checks, with the CCA in its place where LBT is demanded (R178). -/
def indirectStart (d : Dev) (c : Nat) (level : Int) : Dev :=
  match (d.carrier c).hold with
  | none => d
  | some h =>
    if ¬ h.gap then d
    else match h.poll with
      | none => d.clearHold c
      | some (k, eui) =>
        match d.air.indirect.findIdx? (fun x => decide (x.pan = k ∧ x.eui = eui)) with
        | none => d.clearHold c
        | some i =>
          match d.air.indirect[i]? with
          | none => d.clearHold c
          | some x =>
            if x.inExch then d.clearHold c
            else
              let p := d.portOf c
              let fr := x.frame
              let r : Dev × RelRes := if fr.kind = .assoc then
                  (d, .go { fr with coded := match modeOf h.mode with | some m => codedIn m | none => false
                                    psduLen := assocPsduLen (if fr.fcs2 then 2 else 4) })
                else d.release p c 8 fr h.mode
              let d := { r.1 with air := { r.1.air with indirect := r.1.air.indirect.modify i (fun y => { y with inExch := true }) } }
              match r.2 with
              | .wait =>
                (d.modIndirect (some (k, eui)) (fun y => some { y with frame := { y.frame with capEpoch := some d.epoch.num } })).indirectUnsent c
              | .drop st => (((d.modIndirect (some (k, eui)) (fun _ => none)).dropCopy fr).logFrame c st).clearHold c
              | .go g =>
                let d := { d with air := { d.air with indirect := d.air.indirect.modify i (fun y => { y with frame := g }) } }
                let held : Hold := { h with gap := false, tx := { phase := .sched, cur := some g } }
                let d : Dev := d.modCarrier c (fun y => { y with hold := some held })
                match d.earlyCheck c true g with
                | some st => d.refuse c true st
                | none => if d.lbtReq h.khz h.mode ∧ d.ccaBusy c true level then d.indirectUnsent c else d.decideS c true

/-- An indirect frame reaches PERSIST_MS (R212). -/
def indirectExpire (d : Dev) (i : Nat) : Dev :=
  match d.air.indirect[i]? with
  | none => d
  | some x =>
    if x.inExch then { d with air := { d.air with indirect := d.air.indirect.modify i (fun y => { y with expired := true }) } }
    else
      (({ d with air := { d.air with indirect := d.air.indirect.eraseIdx i } }).bump (Cnt.INDIRECT_EXPIRED x.pan)).dropCopy x.frame

end Dev

/-! ### Meanings -/

/-- RX_RECORD_DECIDE (R201). -/
def execRxRecordDecide (p : Fin 4) (seq : W16) (s : State) : Host.Outcome State Fault Refusal :=
  s.run (fun d => d.decideRecord p.val seq.toNat)

/-- COPY_GROUP_CLOSE (R204). -/
def execCopyGroupClose (s : State) : Host.Outcome State Fault Refusal := s.run (fun d => d.closeGroup)

/-- CCM_UPLINK_DONE (R432). -/
def execCcmUplinkDone (p : Fin 4) (seq : W16) (s : State) : Host.Outcome State Fault Refusal :=
  s.run (fun d => d.ccmDone p.val seq.toNat)

/-- INDIRECT_RESPONSE_START (R213). -/
def execIndirectResponseStart (c : Fin 16) (level : Int) (s : State) : Host.Outcome State Fault Refusal :=
  s.run (fun d => (d.indirectStart c.val level).pump)

/-- INDIRECT_EXPIRE (R212). -/
def execIndirectExpire (i : Fin 4096) (s : State) : Host.Outcome State Fault Refusal :=
  s.run (fun d => d.indirectExpire i.val)

/-- ASSOC_DECIDE_TIMEOUT (R215). -/
def execAssocDecideTimeout (k : Fin 4) (eui : W64) (s : State) : Host.Outcome State Fault Refusal :=
  s.run (fun d => d.assocTimeout k.val eui)

/-- CMD_ASSOC_DECIDE, OP 0 (R218). -/
def execCmdAssocDecideAdmit (h : Hdr) (p : List Byte) (s : State) : Host.Outcome State Fault Refusal :=
  s.run (fun d => d.assocDecide h p 0)

/-- CMD_ASSOC_DECIDE, deny (R218). -/
def execCmdAssocDecideDeny (h : Hdr) (p : List Byte) (s : State) : Host.Outcome State Fault Refusal :=
  s.run (fun d => d.assocDecide h p 1)

/-- CMD_NBR_SET, add (R226). -/
def execCmdNbrSetAdd (h : Hdr) (p : List Byte) (s : State) : Host.Outcome State Fault Refusal :=
  s.run (fun d => d.nbrSet h p 0)

/-- CMD_NBR_SET, remove (R226). -/
def execCmdNbrSetRemove (h : Hdr) (p : List Byte) (s : State) : Host.Outcome State Fault Refusal :=
  s.run (fun d => d.nbrSet h p 1)

/-- NBR_WINDOW_JUDGE (R223). -/
def execNbrWindowJudge (i : Fin 64) (s : State) : Host.Outcome State Fault Refusal :=
  s.run (fun d => d.nbrJudge i.val)

/-- DUTY_BIN_ADVANCE (R183). -/
def execDutyBinAdvance (s : State) : Host.Outcome State Fault Refusal := s.run (fun d => d.dutyAdvance)

end Sys2Proof.Machine
end

