-- ==== Sys2Proof/Machine/Banks.lean ====
section
/-! DEFINITION. Sequencer banks as the words of a program: the operand layouts (R235, R236), conditional blocks (R253),
footprints (R237, R238), the load-time rules of a bank (R254), the Cinnabar check (R276) and the usable span of a class
(R243). Times within a bank are in units of 1/49,152 µs, in which one SCLK period of the FEM SPI is 200 × DIV. -/

namespace Sys2Proof.Machine

/-- An instruction of a bank: its index, its word, and the COND and sequence (A: true) that it belongs to. -/
structure Ins where
  idx : Nat
  w : Nat
  blk : Option (Nat × Bool)
  deriving DecidableEq, Repr, Inhabited

namespace Ins

def op (x : Ins) : Nat := Dev.seqOpc x.w
def tick (x : Ins) : Nat := Dev.seqTick x.w
/-- LANE of LFREQ and LMODE; CARRIER of the carrier instructions. -/
def lane (x : Ins) : Nat := bits x.w 31 24
def car (x : Ins) : Nat := bits x.w 31 28
def offset (x : Ins) : Int := sext 24 (bits x.w 23 0)
/-- N of a COND. -/
def num (x : Ins) : Nat := bits x.w 15 8
def inB (x : Ins) : Bool := match x.blk with | some (_, a) => !a | none => false
def isLaneOp (x : Ins) : Bool := x.op == 0x20 || x.op == 0x21
def isSetOp (x : Ins) : Bool := x.op == 0x28 || x.op == 0x29
def isSlotOp (x : Ins) : Bool := x.op == 0x30 || x.op == 0x31 || x.op == 0x32

end Ins

/-- The instructions of a bank with their blocks: `c` is the COND under way, `a` and `b` what is left of its sequences. -/
def insOf (i c a b : Nat) : List Nat → List Ins
  | [] => []
  | w :: t =>
    if 0 < a then ⟨i, w, some (c, true)⟩ :: insOf (i + 1) c (a - 1) b t
    else if 0 < b then ⟨i, w, some (c, false)⟩ :: insOf (i + 1) c 0 (b - 1) t
    else if Dev.seqOpc w = 2 then ⟨i, w, none⟩ :: insOf (i + 1) i (bits w 15 8) (bits w 15 8) t
    else ⟨i, w, none⟩ :: insOf (i + 1) c 0 0 t

/-- A mode code of R133, or 0. -/
def modeOr0 (m : Nat) : Bool := m == 0 || (modeOf m).isSome

/-- R235: the opcode is listed. -/
def Ins.known (x : Ins) : Bool :=
  [0x00, 0x01, 0x02, 0x10, 0x11, 0x12, 0x20, 0x21, 0x28, 0x29, 0x30, 0x31, 0x32, 0x40, 0x41].contains x.op

/-- R236 and R252: reserved bits are 0 and operands are in range. -/
def Ins.operandsOk (x : Ins) : Bool :=
  let w := x.w
  match x.op with
  | 0x02 =>
    let c := bits w 31 24
    let a := bits w 23 16
    decide (bits w 7 0 = 0) && decide (1 ≤ c ∧ c ≤ 5) && decide (1 ≤ x.num ∧ x.num ≤ 64) && (c != 1 || decide (a ≤ 47)) &&
      (c != 2 || decide (a ≤ 15))
  | 0x11 => decide (bits w 30 22 = 0)
  | 0x12 => decide (bits w 15 7 = 0)
  | 0x20 => decide (x.lane ≤ 191)
  | 0x21 => decide (x.lane ≤ 191) && decide (bits w 23 8 = 0) && modeOr0 (bits w 7 0)
  | 0x28 => decide (bits w 27 24 = 0)
  | 0x29 => decide (bits w 27 8 = 0) && modeOr0 (bits w 7 0)
  | 0x30 => decide (1 ≤ bits w 22 0)
  | 0x31 => decide (1 ≤ bits w 19 0)
  | 0x32 => decide (1 ≤ bits w 9 0)
  | 0x40 => decide (bits w 31 20 = 0) && decide (1 ≤ bits w 19 0)
  | 0x41 => true
  | _ => decide (bits w 31 0 = 0)

/-- The values a program holds before each instruction and at its end, following `step` in bank order with both sequences of
a block taken one by one. `s0` are the values at the block's start, `sa` those after sequence A. -/
def track {σ : Type} [DecidableEq σ] (step : Ins → σ → σ) : List Ins → Nat → Nat → List σ → List σ → List σ →
    List (List σ) × List σ
  | [], _, _, _, _, cur => ([], cur)
  | x :: t, a, b, s0, sa, cur =>
    let nxt := cur.map (step x)
    let r :=
      if 1 < a then track step t (a - 1) b s0 sa nxt
      else if a = 1 then track step t 0 b s0 nxt s0
      else if 1 < b then track step t 0 (b - 1) s0 sa nxt
      else if b = 1 then track step t 0 0 s0 sa (sa ++ nxt.filter (fun v => !sa.contains v))
      else if x.op = 2 then track step t x.num x.num nxt nxt nxt
      else track step t 0 0 s0 sa nxt
    (cur :: r.1, r.2)

/-- The centre a RETUNE goes to. -/
def Ins.centre (x : Ins) (home : Nat) : Nat := if bit x.w 31 then home else bits x.w 21 0

/-- How a port's centre follows a bank. -/
def centreStep (home : Nat) (x : Ins) (c : Nat) : Nat := if x.op = 0x11 then x.centre home else c

/-- The largest time of a RETUNE in µs (R86). -/
def retuneUs (old new : Nat) : Nat :=
  if (inBandL old && inBandL new) || (inBandS old && inBandS new) then (if absDiff old new ≤ 10000 then 60 else 150) else 250

/-- A resource with the interval over which an instruction holds it (R237). Resources: 0 PORT-X, 1 + c PORT-T of carrier c,
32 + l lane l, 300 + c carrier c, 400 COEX, 401 FEM SPI. -/
structure Foot where
  res : Nat
  from_ : Nat
  until_ : Nat
  deriving DecidableEq, Repr, Inhabited

/-- An instruction's footprints, with the centres the program may hold before it and the length of a FEM SPI transaction. -/
def Ins.foots (x : Ins) (home spi : Nat) (centres : List Nat) : List Foot :=
  let t := x.tick * 49152
  let f := fun res us => (⟨res, t, t + us * 49152⟩ : Foot)
  match x.op with
  | 0x10 => [f 0 3]
  | 0x11 => [f 0 ((centres.map (fun c => retuneUs c (x.centre home))).foldl max 0)]
  | 0x12 => [f 0 (bits x.w 31 16)]
  | 0x20 => [f (32 + x.lane) 1]
  | 0x21 => [f (32 + x.lane) 1]
  | 0x28 => [f (300 + x.car) 1]
  | 0x29 => [f (300 + x.car) 1]
  | 0x30 => [f (300 + x.car) (bits x.w 22 0), f (1 + x.car) (bits x.w 22 0)]
  | 0x31 => [f (300 + x.car) (bits x.w 19 0), f (1 + x.car) (bits x.w 19 0)]
  | 0x32 => [f (300 + x.car) (100 * bits x.w 9 0), f (1 + x.car) (100 * bits x.w 9 0)]
  | 0x40 => [f 400 (bits x.w 19 0)]
  | 0x41 => [⟨401, t, t + spi⟩]
  | _ => []

/-- Two footprints meet in time. -/
def Foot.meets (a b : Foot) : Bool := decide (a.from_ < b.until_ ∧ b.from_ < a.until_)

/-- Two instructions stand in different sequences of one block. -/
def exclusive (x y : Ins) : Bool :=
  match x.blk, y.blk with
  | some (c, a), some (e, b) => c == e && a != b
  | _, _ => false

/-- Two resources exclude each other (R238): the same one, or PORT-X and anything on the port. -/
def resClash (a b : Nat) : Bool := a == b || (a == 0 && decide (b ≤ 16)) || (b == 0 && decide (a ≤ 16))

/-- The exception of R238: an LFREQ and an LMODE, or a CSET and a CMODE, of one tick. -/
def mates (x y : Ins) : Bool :=
  x.tick == y.tick && ((x.isLaneOp && y.isLaneOp && x.op != y.op) || (x.isSetOp && y.isSetOp && x.op != y.op))

/-- The lowest of the later instructions whose footprints break R238, among instructions with their footprints. -/
def footClash (clash : Nat → Nat → Bool) : List (Ins × List Foot) → Option Nat
  | [] => none
  | (x, fx) :: t =>
    let here := (t.filter (fun y => !exclusive x y.1 && !mates x y.1 &&
      fx.any (fun a => y.2.any (fun b => a.meets b && clash a.res b.res)))).map (fun y => y.1.idx)
    Dev.least ((here.take 1) ++ (footClash clash t).toList)

/-- A block breaks R253: the index reported. A COND or an END inside the block is reported at its own index, any other
disagreement of a pair at that of the pair's second member. -/
def blockFault (xs : List (Ins × List Foot)) (c : Ins) : Option Nat :=
  let n := c.num
  let a := xs.filter (fun y => decide (y.1.blk = some (c.idx, true)))
  let b := xs.filter (fun y => decide (y.1.blk = some (c.idx, false)))
  if a.length < n ∨ b.length < n then some c.idx
  else
    let stray := (a ++ b).find? (fun y => y.1.op == 1 || y.1.op == 2)
    let bad := (a.zip b).find? (fun p => p.1.1.tick != p.2.1.tick || !decide (p.1.2 = p.2.2))
    let ticks := a.map (fun y => y.1.tick)
    let falls := (a.zip (a.drop 1)).find? (fun p => decide (p.2.1.tick < p.1.1.tick))
    let after := xs.find? (fun y => decide (c.idx + 2 * n < y.1.idx ∧ y.1.tick < ticks.getLastD 0))
    (stray.map (fun y => y.1.idx))
    <|> (bad.map (fun p => p.2.1.idx))
    <|> (if ticks.headD 0 < c.tick then some c.idx else none)
    <|> (falls.map (fun p => p.2.1.idx))
    <|> (after.map (fun y => y.1.idx))

/-- The first instruction of a list whose tick is below that of the one before. -/
def tickFalls (l : List Ins) : Option Nat :=
  ((l.zip (l.drop 1)).find? (fun p => decide (p.2.tick < p.1.tick))).map (fun p => p.2.idx)

/-- Issues at a tick (R231): sequence B is not counted. -/
def issuesAt (xs : List Ins) (t : Nat) : Nat := (xs.filter (fun x => !x.inB && x.tick == t)).length

/-- The largest number of issues at any tick (R271). -/
def maxIssue (xs : List Ins) : Nat := (xs.map (fun x => issuesAt xs x.tick)).foldl max 0

/-- What the checks of a bank take from the image and the device. -/
structure BankCtx where
  epochUs : Nat
  home : Nat
  spi : Nat
  lanes : List Nat
  cars : List Nat
  deriving DecidableEq, Repr, Inhabited

/-- Check 9 of R275 on one bank: the index of the first instruction that fails, in the order R235, R236, R238, R253 and
R254. -/
def bankFault (k : BankCtx) (ws : List Nat) : Option Nat :=
  let xs := insOf 0 0 0 0 ws
  let idxOf := fun (o : Option Ins) => o.map (fun x => x.idx)
  let tr := track (centreStep k.home) xs 0 0 [] [] [k.home]
  let fs := (xs.zip tr.1).map (fun p => (p.1, p.1.foots k.home k.spi p.2))
  let conds := xs.filter (fun x => x.op == 2 && x.blk.isNone)
  let fourth := xs.find? (fun x => !x.inB &&
    decide (4 ≤ (xs.filter (fun y => !y.inB && y.tick == x.tick && decide (y.idx < x.idx))).length))
  let last := ws.length - 1
  let ends := xs.filter (fun x => x.op == 1)
  let endTick := match xs.getLast? with | some x => x.tick | none => 0
  (idxOf (xs.find? (fun x => !x.known)))
  <|> (idxOf (xs.find? (fun x => !x.operandsOk)))
  <|> (footClash resClash fs)
  <|> ((conds.filterMap (blockFault fs)).head?)
  <|> (tickFalls (xs.filter (fun x => !x.inB)))
  <|> (idxOf (xs.find? (fun x => decide (k.epochUs ≤ x.tick))))
  <|> (idxOf fourth)
  <|> (match ends with
      | [] => some last
      | e :: _ => if e.idx ≠ last ∨ k.epochUs < e.tick + 2000 then some e.idx else none)
  <|> (idxOf ((fs.find? (fun p => p.2.any (fun f => decide (endTick * 49152 < f.until_)))).map (fun p => p.1)))
  <|> (idxOf (xs.find? (fun x => (x.isLaneOp && !k.lanes.contains x.lane) ||
      ((x.isSetOp || x.isSlotOp) && !k.cars.contains x.car))))
  <|> (idxOf (xs.find? (fun x => (x.op == 0x11 && !inBand (x.centre k.home)) ||
      ((x.op == 0x20 || x.op == 0x28) && !inBand ((k.home : Int) + x.offset).toNat))))
  <|> (idxOf (xs.find? (fun x => x.op == 0x12 && decide (bits x.w 31 16 < selUs (bits x.w 6 0)))))
  <|> (if tr.2.all (fun c => c == k.home) then none else some last)

/-- How a carrier's channel and mode follow a bank. -/
def carStep (home c : Nat) (x : Ins) (v : Nat × Nat) : Nat × Nat :=
  if x.car ≠ c then v
  else if x.op = 0x28 then (((home : Int) + x.offset).toNat, v.2)
  else if x.op = 0x29 then (v.1, bits x.w 7 0)
  else v

/-- Check 10 of R275 on one bank (R276): `carriers` are the words of the carrier plan, `permits` says that a channel in a
mode lies inside a valid, enabled sub-band of a port that may transmit. An instruction of a carrier that is parked there is not
checked. The index is the instruction's, or carrier + 16,384 where the channel and mode that fail are those of the carrier plan
(DESIGN CHOICE, log entry 155). -/
def cinFault (home : Nat) (carriers : List (Nat × Nat × Nat)) (linear : Bool) (permits : Nat → Nat → Bool) (ws : List Nat) :
    Option Nat :=
  let xs := insOf 0 0 0 0 ws
  let plan := fun (c : Nat) => let p := carriers.getD c (0, 0, 0); (p.2.1, bits p.1 7 0)
  -- The instructions that name a carrier not parked, with the channels and modes it may then have.
  let live := carriers.zipIdx.flatMap (fun p =>
    if ¬ bit p.1.1 31 then []
    else (xs.zip (track (carStep home p.2) xs 0 0 [] [] [plan p.2]).1).filter (fun y =>
      y.1.isSlotOp && y.1.car == p.2 && y.2.any (fun v => v.2 != 0)))
  let bad := fun (y : Ins × List (Nat × Nat)) => y.2.filter (fun v => v.2 != 0 && !permits v.1 v.2)
  let band := (live.filter (fun y => !(bad y).isEmpty)).map (fun y =>
    (y.1.idx, if bad y = [plan y.1.car] then 16384 + y.1.car else y.1.idx))
  let clash := if linear then none
    else footClash (fun a b => decide (1 ≤ a ∧ a ≤ 16 ∧ 1 ≤ b ∧ b ≤ 16 ∧ a ≠ b))
      ((xs.filter (fun x => live.any (fun y => y.1.idx == x.idx))).map (fun x => (x, x.foots home 0 [])))
  (Dev.least (band.map (fun y => y.1) ++ clash.toList)).map (fun i =>
    match band.find? (fun y => y.1 == i) with
    | some y => y.2
    | none => i)

namespace Dev

/-- The length of a FEM SPI transaction in the units of this file (R237): T_SPI periods of 2 DIV cycles. -/
def spiLen (d : Dev) (p : Nat) : Nat :=
  let w := match d.cfg.FEM_SPI_CTL_WLEN p with | 0 => 16 | 1 => 24 | _ => 32
  let a := if d.cfg.FEM_SPI_CTL_RADDR16 p = 1 then 16 else 8
  let r := if d.cfg.FEM_SPI_CTL_RDATA16 p = 1 then 16 else 8
  let n := if d.cfg.FEM_SPI_CTL_VERIFY p = 1 then 2 * (w + a + r + 9) else w + 4
  n * 200 * max 10 (d.cfg.FEM_SPI_CTL_DIV p)

/-- USABLE_US of a class from a bank (R243), with the limits in force: the largest span over the TX and WIN instructions that
serve it. `home` and `car` are the home centre and the carriers' channels and modes as the bank starts. -/
def usableOf (ws : List Nat) (home : Nat) (car : Nat → Nat × Nat) (cca : Nat → Nat → Nat) (lbt : Nat → Nat → Bool)
    (cls : Nat) : Nat :=
  let xs := insOf 0 0 0 0 ws
  let one := fun (c : Nat) =>
    let tr := track (carStep home c) xs 0 0 [] [] [car c]
    (xs.zip tr.1).map (fun y =>
      let x := y.1
      if x.car ≠ c then 0
      else
        let win := x.op == 0x31 && bit (bits x.w 27 20) cls
        let tx := x.op == 0x30 && bits x.w 27 25 == cls
        let len := if win then bits x.w 19 0 else bits x.w 22 0
        if ¬ (win || tx) then 0
        else (y.2.map (fun v => len - 40 - (if win || bit x.w 24 || lbt v.1 v.2 then cca v.1 v.2 else 0))).foldl max 0)
  ((List.range 16).flatMap one).foldl max 0

end Dev

end Sys2Proof.Machine
end

