-- ==== Sys2Proof/Machine/Seqr.lean ====
section
/-! DEFINITION. The slot sequencers (R229 to R261): issue, the instructions and their outcomes, slots and windows; the
timed events of ports, lanes and carriers that their slots, frames and acknowledgements bring; CMD_RF_CAL (R94) and
CMD_RF_TEST_TX (R192, R193). -/

namespace Sys2Proof.Machine

namespace Dev

/-- What follows from a change of the radio side at once: ack waits that are over, and releases, of frames that waited for
lock among them. -/
def after (d : Dev) : Dev := d.settle.pump

/-! ### Issue (R231, R253, R258, R259) -/

/-- The sequencer stands at this instruction of its active bank, at its tick or later, with the boundary's settings applied: it
runs, has not passed its END, the DSP strobe has come (R231, R233, R255, R259). -/
def seqAt (d : Dev) (s op tick args : Nat) : Bool :=
  let q := d.seq s
  !q.stopped && !q.inTail && !d.epoch.strobes.contains .dsp && decide (tick ≤ d.tick) &&
    q.act.any (fun x => decide (q.pc ≤ x.1)) && decide ((q.act.get 0 q.pc).toNat = seqWord op tick args)

/-- Issue the instruction that the active bank holds next, at its fire tick; a command that names another one does nothing. An
instruction at or after the cut tick is not issued (R258). Past the last pair of a block of sequence A the index skips
sequence B (R253). -/
def issue (d : Dev) (s op tick args : Nat) (f : Dev → Dev) : Dev :=
  if ¬ d.seqAt s op tick args then d
  else
    let late : Bool := match (d.seq s).cut with | some k => decide (k ≤ tick) | none => false
    let d := d.modSeq s (fun x => { x with
      pc := x.pc + 1 + (if x.condA && x.condLeft == 1 then x.condN else 0), condLeft := x.condLeft - 1, tickNow := some tick })
    if late then d.bump (Cnt.SEQ_TRUNCATED s) else (f (d.bump (Cnt.SEQ_ISSUED s))).after

/-- The port is in OFF or STBY. -/
def portDown (d : Dev) (p : Nat) : Bool := (d.port p).st == .off || (d.port p).st == .stby

/-- The port is in TXPRE, TX, RETUNE or CAL. -/
def portEngaged (d : Dev) (p : Nat) : Bool :=
  (d.port p).st == .txpre || (d.port p).st == .tx || (d.port p).st == .retune || (d.port p).st == .cal

/-- Defer an instruction until the port is in RX (R260). -/
def deferInstr (d : Dev) (p : Nat) (i : SeqDeferred) : Dev :=
  (d.modPort p (fun x => { x with deferred := x.deferred ++ [i] })).bump (Cnt.SEQ_DEFERRED p)

/-- Skip an instruction (R260). -/
def skipInstr (d : Dev) (s : Nat) : Dev := d.bump (Cnt.SEQ_SKIPPED s)

/-- END (R255). -/
def seqEnd (d : Dev) (s : Nat) : Dev := d.modSeq s (fun x => { x with inTail := true })

/-- The condition of a COND (R252). -/
def condHolds (d : Dev) (s cond arg : Nat) : Bool :=
  match cond with
  | 1 => bit d.epoch.num arg
  | 2 => bit (d.cfg.SEQ_FLAGS_FLAG s) arg
  | 3 => d.modes.phase.code == arg % 8
  | 4 => d.time.acquired
  | _ => d.time.holdover

/-- COND (R253): the choice, and the pairs that follow; sequence B is entered behind the N instructions of A. -/
def seqCond (d : Dev) (s cond arg n : Nat) : Dev :=
  let a := d.condHolds s cond arg
  d.modSeq s (fun x => { x with condA := a, condLeft := n, condN := n, pc := if a then x.pc else x.pc + n })

/-- RX (R249, R260). -/
def seqRx (d : Dev) (s : Nat) : Dev :=
  if d.portDown s then d.skipInstr s
  else if d.portEngaged s then d.deferInstr s .rx
  else if (d.port s).st == .idle then d.enterRx s
  else d

/-- RETUNE (R247, R260). -/
def seqRetune (d : Dev) (s : Nat) (home : Bool) (khz : Nat) : Dev :=
  let target := if home then (d.port s).home else khz
  if d.portDown s ∨ (d.port s).st = .idle then
    (d.modPort s (fun x => { x with pendCentre := some target })).bump (Cnt.SEQ_DEFERRED s)
  else if d.portEngaged s then d.deferInstr s (.retune home khz)
  else d.retuneTo s target

/-- CAL (R248, R260). -/
def seqCalOp (d : Dev) (s window sel : Nat) : Dev :=
  if d.portDown s then d.skipInstr s
  else if d.portEngaged s then d.deferInstr s (.cal window sel)
  else d.seqCal s window sel

/-- An instruction on a lane or carrier that is not of the port (R260). -/
def seqForeign (d : Dev) (s unit : Nat) : Dev := (d.violate .VIO_SEQ_FOREIGN (le 1 s ++ le 1 unit)).skipInstr s

/-- A channel of the port's plan (R236). -/
def offsetKhz (d : Dev) (s : Nat) (off : BitVec 24) : Nat := (((d.port s).home : Int) + off.toInt).toNat

/-- The instruction that completes this one at its tick (R250): a later word of the active bank that still issues, with the
other opcode and the same unit. -/
def pairedLater (d : Dev) (s tick op unit shift : Nat) : Bool :=
  (d.bankWords s false).any (fun x => stillIssues (d.seq s) x.1 tick && seqTick x.2 == tick && seqOpc x.2 == op &&
    bits x.2 31 shift == unit)

/-- A lane's value in force changes (R250, R132): a frame that it receives is abandoned. LFREQ and LMODE of one tick take
effect together. A lane in PREAMBLE goes back to SEARCH, and neither RETUNED nor SYNC_TIMEOUT advances (DESIGN CHOICE, log
entry 177). -/
def seqLane (d : Dev) (s tick l op : Nat) (f : Lane → Lane) : Dev :=
  if d.lanePort l ≠ some s then d.seqForeign s l
  else
    let d := if (d.lane l).st.inFrame then (d.abandon l 5).restLane l else d
    let d := d.modLane l (fun x => { f x with held := if x.exch then x.held else none, liveSince := d.up })
    if d.pairedLater s tick op l 24 then d else d.evalLanes

/-- A carrier's value in force changes (R250), after the exchange that it is in. -/
def seqCarrier (d : Dev) (s c : Nat) (now late : Carrier → Carrier) : Dev :=
  if d.carPort c ≠ some s then d.seqForeign s c
  else
    let x := d.carrier c
    if x.own.active || x.own.phase == .ackWait || x.hold.isSome || x.held.isSome || d.exchanging c then
      d.modCarrier c late
    else d.modCarrier c now

/-! ### Slots, windows and beacons -/

/-- No slot opens: the port is down, or nothing may be released (R260). -/
def slotBarred (d : Dev) (s : Nat) : Option Counter :=
  if d.portDown s then some (Cnt.SEQ_SKIPPED s)
  else if d.modes.phase = .survey ∨ d.cfg.RF_CTL_TX_INHIBIT s = 1 then some (Cnt.SLOT_INHIBITED s)
  else none

/-- The classes that a window leaves to slots which open later at its own tick (R244). -/
def claimed (d : Dev) (s : Nat) (x : Slot) : Nat :=
  if ¬ x.win then 0
  else ((d.bankWords s false).filter (fun w => seqOpc w.2 == 0x30 && seqTick w.2 == x.openTick &&
    stillIssues (d.seq s) w.1 x.openTick)).foldl (fun n w => n ||| 2 ^ bits w.2 27 25) 0

/-- Open a slot or window (R239, R244, R260): on a locked port its release follows once the tick's instructions have issued. -/
def openSlot (d : Dev) (s c : Nat) (x : Slot) : Dev :=
  match d.slotBarred s with
  | some k => d.bump k
  | none =>
    match d.carPort c with
    | none =>
      let d := d.modCarrier c (fun y => { y with slot := some { x with noMore := true } })
      match (d.slotClass s x), (d.carrier c).own.phase with
      | some k, .idle => d.startTx s c k
      | _, _ => d
    | some p =>
      if p ≠ s then d.bump (Cnt.TX_CARRIER_PARKED c)
      else
        let d := d.modCarrier c (fun y => { y with slot := some x })
        if (d.port s).locked then d
        else match d.slotClass s { x with blocked := x.blocked ||| d.claimed s x }, (d.carrier c).own.phase with
          | some k, .idle => (d.waitForLock s c k).earlyReq s c
          | _, _ => d

/-- The beacon frame of a PAN on a carrier (R220, R430). -/
def beaconFrame (d : Dev) (k c nextBcn : Nat) : TxFrame :=
  let mode := d.carMode c
  let sec := d.cfg.PAN_CFG_BCN_SEC k = 1
  { kind := .beacon, pan := k, seqNo := (d.pan k).bsn, fcs2 := modeFcs2 mode, version := 2, secured := sec, nextBcn := nextBcn
    coded := match modeOf mode with | some m => codedIn m | none => false
    psduLen := beaconPsduLen sec (mode == 0x10)
    key := if sec then d.derivedKey (d.panTag (d.cfg.SEC_PAN_KEY_SLOT k) (d.cfg.PAN_CFG_PAN_ID k) false) else [] }

/-- BCN (R245, R219, R260). -/
def seqBcn (d : Dev) (s tick c k nextBcn len : Nat) : Dev :=
  match d.slotBarred s with
  | some n => d.bump n
  | none =>
    if d.carPort c ≠ some s ∨ d.carParked c false then (d.bump (Cnt.TX_CARRIER_PARKED c)).logFrame c .ST_CARRIER_PARKED
    else if d.cfg.PAN_CFG_EN k = 0 ∨ (d.carrier c).hold.isSome then d.bump (Cnt.BCN_SKIPPED s)
    else if ¬ d.sbPermits s (d.carKhz c) (d.carMode c) then
      (((d.bump (Cnt.TX_SUBBAND_OFF c)).subbandEvent s (d.carKhz c) (d.carMode c))).logFrame c .ST_SUBBAND_OFF
    else if (d.carrier c).own.phase ≠ .idle then d.bump (Cnt.BEACON_CARRIER_BUSY s)
    else
      let f := d.beaconFrame k c nextBcn
      if f.secured ∧ 0xFFFFFFFF ≤ (d.pan k).fc then d.panFcExhausted k
      else if f.secured ∧ ¬ d.panKeyOk k then d.bump Cnt.KEY_INVALID
      else
        let d := if f.secured then d.requestKey (d.panTag (d.cfg.SEC_PAN_KEY_SLOT k) (d.cfg.PAN_CFG_PAN_ID k) false) else d
        let d := d.modCarrier c (fun x => { x with own := { phase := .backoff, cur := some f }, bcnClose := tick + 100 * len })
        match d.earlyCheck c false f with
        | some st => d.refuse c false st
        | none =>
          if d.lbtReq (d.carKhz c) (d.carMode c) then
            if d.endsInTime c false f (d.ccaUs (d.carKhz c) (d.carMode c)) then (d.ccaStart c).earlyReq s c
            else d.refuse c false .ST_NEXT_WINDOW
          else d.decideS c false

/-- A slot or window closes (R239, R623): a frame that still waits stays queued; a slot without a release counts. -/
def slotClose (d : Dev) (c : Nat) : Dev :=
  match (d.carrier c).slot with
  | none => d
  | some s =>
    let p := d.portOf c
    let d := if (d.tx c false).phase == .waitLock then d.lateLock c
      else if (d.tx c false).waiting ∧ (d.tx c false).late then d.refuseLate c
      else if (d.tx c false).waiting ∧ (d.tx c false).queue.isSome then d.refuseQueued c .ST_NEXT_WINDOW true
      else if ¬ s.noMore ∧ (s.win ∨ s.multi ∨ ¬ s.released) ∧ (d.slotClass p s).isSome ∧ p < 4 ∧ ¬ d.portReady p ∧ (d.port p).st ≠ .tx ∧
          (d.port p).st ≠ .txpre then d.logFrame c .ST_PORT_BUSY
      else d
    let d := if ¬ s.win ∧ ¬ s.released ∧ p < 4 then d.bump (Cnt.SLOT_EMPTY p) else d
    d.modCarrier c (fun x => { x with slot := none })

/-! ### FEM SPI and coexistence events -/

/-- A FEM SPI transaction ends (R101, R102): `ok` says that the read-back matched. -/
def femSpiDone (d : Dev) (p rdata : Nat) (ok : Bool) : Dev :=
  match (d.port p).spi with
  | none => d
  | some t =>
    let fin := fun (d : Dev) (r : List Byte) =>
      let d := d.modPort p (fun x => { x with spi := none })
      (match t.host with | some c => d.complete c .ST_OK r | none => d).spiNext p
    if t.read then
      fin d (le 4 (if d.cfg.FEM_SPI_CTL_RDATA16 p = 1 then rdata % 65536 else rdata % 256))
    else if d.cfg.FEM_SPI_CTL_VERIFY p = 0 ∨ ok then fin d []
    else if t.attempt = 0 then d.spiBegin p { t with attempt := 1 }
    else
      let d := (d.violate .VIO_FEM_READBACK (le 1 p)).modPort p (fun x => { x with fault := true })
      fin (d.fall p) []

/-- RXP (R107, R251). -/
def seqRxp (d : Dev) (p : Nat) : Dev :=
  if d.cfg.COEX_CTL_EN p = 1 ∧ d.cfg.COEX_CTL_RX_REQ p = 1 then d.modPort p (fun x => { x with rxp := true }) else d

/-! ### Host commands -/

/-- CMD_RF_CAL (R94). -/
def rfCal (d : Dev) (h : Hdr) (p : List Byte) : Dev :=
  let c : Cmd := ⟨h, .CMD_RF_CAL, 0, p⟩
  d.command c (fun d =>
    let q := fld p 0 1
    let sel := fld p 1 1
    if (d.modes.phase ≠ .survey ∧ d.modes.phase ≠ .test) ∨ d.follower then d.complete c .ST_MODE_REFUSED
    else if 3 < q ∨ bit sel 7 ∨ ¬ zeros p 2 62 then d.complete c .ST_BAD_PARAM
    else if sel = 0 then d.complete c .ST_OK
    else if (d.port q).st = .cal then d.complete c .ST_CAL_BUSY
    else if (d.port q).st ≠ .rx ∧ (d.port q).st ≠ .idle then d.complete c .ST_PORT_BUSY
    else if (match d.nextUse q usesPort with
        | some t => decide (t ≤ d.now + (selUs sel + 1) * 1000)
        | none => false) then d.complete c .ST_PORT_BUSY
    else (d.holdCmd c).startCal q (selBits sel) false (some c))

/-- The payload of CMD_RF_TEST_TX is malformed (R192). -/
def testBad (d : Dev) (p : List Byte) : Bool :=
  let q := fld p 0 1
  let len := fld p 6 2
  let us := fld p 8 4
  decide (3 < q) || decide (15 < fld p 1 1) || decide (2 < fld p 2 1) || !zeros p 3 1 || !zeros p 0x10 48 ||
    (fld p 2 1 == 2 && (decide (len < 5) || decide (2047 < len))) || decide (us < 100) || decide (10000000 < us) ||
    decide (d.carPort (fld p 1 1) ≠ some q)

/-- The channel that a test transmission names, if any (R192). -/
def testChan (p : List Byte) : Option Nat := if fld p 0x0C 4 = 0 then none else some (fld p 0x0C 4)

/-- A test transmission whose carrier is engaged fails check 1, 2 or 3 (R193). -/
def testLater (d : Dev) (k : Cmd) (c : Nat) (p : List Byte) : Dev :=
  let own := (d.carrier c).testKhz
  let d := d.modCarrier c (fun x => { x with testKhz := if (testChan p).isSome then testChan p else x.testKhz })
  let st : Option Status := if d.carParked c false then some .ST_CARRIER_PARKED
    else if ¬ d.sbPermits (fld p 0 1) (d.carKhz c) (d.carMode c) then some .ST_SUBBAND_OFF else none
  let d := match st with | some s => d.countParked c false s | none => d
  (d.modCarrier c (fun x => { x with testKhz := own })).complete k (if st.isSome then .ST_SUBBAND_OFF else .ST_PORT_BUSY)

/-- CMD_RF_TEST_TX (R192, R193, R96); `level` is what the CCA measures, where one is demanded. The octets of repeated frames are
free. In OFF, STBY and IDLE the checks decide; a command that passes them ends with ST_PORT_BUSY by R621 (DESIGN CHOICE, log
entry 178). -/
def rfTestTx (d : Dev) (h : Hdr) (p : List Byte) (level : Int) : Dev :=
  let k : Cmd := ⟨h, .CMD_RF_TEST_TX, 0, p⟩
  d.command k (fun d =>
    let q := fld p 0 1
    let c := fld p 1 1
    let x := d.carrier c
    if d.modes.phase ≠ .test ∨ d.follower then d.complete k .ST_MODE_REFUSED
    else if d.testBad p then d.complete k .ST_BAD_PARAM
    else if (d.port q).st = .cal then d.complete k .ST_CAL_BUSY
    else if (d.port q).st = .retune ∨ (d.port q).st = .txpre ∨ (d.port q).st = .tx then d.complete k .ST_PORT_BUSY
    else if x.own.phase ≠ .idle ∨ x.hold.isSome = true ∨ x.test.isSome = true then d.testLater k c p
    else
      let sig := fld p 2 1
      let o := if sig = 2 then d.freeOctets (fld p 6 2) else ([], d)
      let d := o.2
      let f : TxFrame := { kind := .test, durUs := fld p 8 4, power := some (sext 16 (fld p 4 2)), testSig := sig
                           testLen := fld p 6 2, payload := o.1 }
      let d := (d.holdCmd k).modCarrier c (fun y => { y with
        test := some k, testKhz := testChan p
        own := { phase := .cca, cur := some f } })
      match d.earlyCheck c false f with
      | some st => d.refuse c false st
      | none =>
        if d.lbtReq (d.carKhz c) (d.carMode c) ∧ d.ccaBusy c false level then d.refuse c false .ST_CHANNEL_BUSY
        else d.decideS c false)

/-- A test transmission ends (R193): E of its port comes (R99 step 4), and once the port is back in RX the command completes with
the granted power. -/
def testEnd (d : Dev) (c : Nat) : Dev :=
  let t := (d.carrier c).own
  match t.phase, t.cur, (d.carrier c).test with
  | .onAir, some f, some _ =>
    let p := d.portOf c
    let d := (d.rampOut c false true).modCarrier c (fun x => { x with own := {}, testPwr := some f.granted, testPort := p })
    (d.exchFor p c).startReturn p
  | _, _, _ => d

end Dev

/-! ### Meanings: sequencer instructions -/

/-- SEQ_NOP (R237). -/
def execSeqNop (q : Fin 4) (tick : BitVec 24) (s : State) : Host.Outcome State Fault Refusal :=
  s.run (fun d => d.issue q.val 0x00 tick.toNat 0 id)

/-- SEQ_END (R255). -/
def execSeqEnd (q : Fin 4) (tick : BitVec 24) (s : State) : Host.Outcome State Fault Refusal :=
  s.run (fun d => d.issue q.val 0x01 tick.toNat 0 (fun d => d.seqEnd q.val))

/-- SEQ_COND (R252, R253). -/
def execSeqCond (q : Fin 4) (tick : BitVec 24) (cond arg n : Byte) (s : State) : Host.Outcome State Fault Refusal :=
  s.run (fun d => d.issue q.val 0x02 tick.toNat (cond.toNat * 2 ^ 24 + arg.toNat * 2 ^ 16 + n.toNat * 2 ^ 8) (fun d => d.seqCond q.val cond.toNat arg.toNat n.toNat))

/-- SEQ_RX (R249). -/
def execSeqRx (q : Fin 4) (tick : BitVec 24) (s : State) : Host.Outcome State Fault Refusal :=
  s.run (fun d => d.issue q.val 0x10 tick.toNat 0 (fun d => d.seqRx q.val))

/-- SEQ_RETUNE (R247). -/
def execSeqRetune (q : Fin 4) (tick : BitVec 24) (home : Bool) (khz : BitVec 22) (s : State) :
    Host.Outcome State Fault Refusal :=
  s.run (fun d => d.issue q.val 0x11 tick.toNat (ofBool home * 2 ^ 31 + khz.toNat) (fun d => d.seqRetune q.val home khz.toNat))

/-- SEQ_CAL (R248). -/
def execSeqCal (q : Fin 4) (tick : BitVec 24) (window : W16) (sel : BitVec 7) (s : State) :
    Host.Outcome State Fault Refusal :=
  s.run (fun d => d.issue q.val 0x12 tick.toNat (window.toNat * 2 ^ 16 + sel.toNat) (fun d => d.seqCalOp q.val window.toNat sel.toNat))

/-- SEQ_LFREQ (R250). -/
def execSeqLfreq (q : Fin 4) (tick : BitVec 24) (lane : Fin 192) (offset : BitVec 24) (s : State) :
    Host.Outcome State Fault Refusal :=
  s.run (fun d => d.issue q.val 0x20 tick.toNat (lane.val * 2 ^ 24 + offset.toNat) (fun d =>
    d.seqLane q.val tick.toNat lane.val 0x21 (fun x => { x with freqOv := some (d.offsetKhz q.val offset) })))

/-- SEQ_LMODE (R250). -/
def execSeqLmode (q : Fin 4) (tick : BitVec 24) (lane : Fin 192) (mode : Byte) (s : State) :
    Host.Outcome State Fault Refusal :=
  s.run (fun d => d.issue q.val 0x21 tick.toNat (lane.val * 2 ^ 24 + mode.toNat) (fun d =>
    d.seqLane q.val tick.toNat lane.val 0x20 (fun x => { x with modeOv := some mode.toNat })))

/-- SEQ_CSET (R250). -/
def execSeqCset (q : Fin 4) (tick : BitVec 24) (c : Fin 16) (offset : BitVec 24) (s : State) :
    Host.Outcome State Fault Refusal :=
  s.run (fun d => d.issue q.val 0x28 tick.toNat (c.val * 2 ^ 28 + offset.toNat) (fun d =>
    d.seqCarrier q.val c.val (fun x => { x with freqOv := some (d.offsetKhz q.val offset) })
      (fun x => { x with deferFreq := some (d.offsetKhz q.val offset) })))

/-- SEQ_CMODE (R250). -/
def execSeqCmode (q : Fin 4) (tick : BitVec 24) (c : Fin 16) (mode : Byte) (s : State) :
    Host.Outcome State Fault Refusal :=
  s.run (fun d => d.issue q.val 0x29 tick.toNat (c.val * 2 ^ 28 + mode.toNat) (fun d =>
    d.seqCarrier q.val c.val (fun x => { x with modeOv := some mode.toNat })
      (fun x => { x with deferMode := some mode.toNat })))

/-- SEQ_TX (R239, R240). -/
def execSeqTx (q : Fin 4) (tick : BitVec 24) (c : Fin 16) (cls : Fin 8) (cca multi : Bool) (len : BitVec 23) (s : State) :
    Host.Outcome State Fault Refusal :=
  s.run (fun d => d.issue q.val 0x30 tick.toNat (c.val * 2 ^ 28 + cls.val * 2 ^ 25 + ofBool cca * 2 ^ 24 + ofBool multi * 2 ^ 23 + len.toNat) (fun d => d.openSlot q.val c.val
    { win := false, classes := 2 ^ cls.val, cca := cca, multi := multi, openTick := tick.toNat, close := tick.toNat + len.toNat }))

/-- SEQ_WIN (R244). -/
def execSeqWin (q : Fin 4) (tick : BitVec 24) (c : Fin 16) (classes : Byte) (len : BitVec 20) (s : State) :
    Host.Outcome State Fault Refusal :=
  s.run (fun d => d.issue q.val 0x31 tick.toNat (c.val * 2 ^ 28 + classes.toNat * 2 ^ 20 + len.toNat) (fun d => d.openSlot q.val c.val
    { win := true, classes := classes.toNat, multi := true, openTick := tick.toNat, close := tick.toNat + len.toNat }))

/-- SEQ_BCN (R245). -/
def execSeqBcn (q : Fin 4) (tick : BitVec 24) (c : Fin 16) (pan : Fin 4) (nextBcn : W16) (len : BitVec 10) (s : State) :
    Host.Outcome State Fault Refusal :=
  s.run (fun d => d.issue q.val 0x32 tick.toNat (c.val * 2 ^ 28 + pan.val * 2 ^ 26 + nextBcn.toNat * 2 ^ 10 + len.toNat) (fun d =>
    d.seqBcn q.val tick.toNat c.val pan.val nextBcn.toNat len.toNat))

/-- SEQ_RXP (R251): its end is RXP_END. -/
def execSeqRxp (q : Fin 4) (tick : BitVec 24) (dur : BitVec 20) (s : State) : Host.Outcome State Fault Refusal :=
  s.run (fun d => d.issue q.val 0x40 tick.toNat dur.toNat (fun d => d.seqRxp q.val))

/-- SEQ_SPI (R251). -/
def execSeqSpi (q : Fin 4) (tick : BitVec 24) (word : W32) (s : State) : Host.Outcome State Fault Refusal :=
  s.run (fun d => d.issue q.val 0x41 tick.toNat word.toNat (fun d => d.seqSpi q.val word))

/-! ### Meanings: slots, channel access, ports -/

/-- SLOT_CLOSE (R239, R258). -/
def execSlotClose (c : Fin 16) (s : State) : Host.Outcome State Fault Refusal :=
  s.run (fun d => (d.slotClose c.val).after)

/-- AIR_QUEUE_HEAD_ARRIVAL (R239, R244): every release that is due takes place. -/
def execAirQueueHeadArrival (_ : Fin 4) (_ : Fin 8) (s : State) : Host.Outcome State Fault Refusal :=
  s.run (fun d => d.after)

/-- CSMA_BACKOFF_EXPIRY (R197). -/
def execCsmaBackoffExpiry (c : Fin 16) (s : State) : Host.Outcome State Fault Refusal :=
  s.run (fun d => if (d.tx c.val false).phase = .backoff then d.ccaStart c.val else d)

/-- CCA_END (R196 to R198). -/
def execCcaEnd (c : Fin 16) (level : Int) (s : State) : Host.Outcome State Fault Refusal :=
  s.run (fun d => (d.ccaEnd c.val level).after)

/-- PORT_RX_RETURN (R99 step 6). -/
def execPortRxReturn (p : Fin 4) (s : State) : Host.Outcome State Fault Refusal :=
  s.run (fun d => (d.rxReturn p.val).after)

/-- COEX_GNT_REVOKE (R106). -/
def execCoexGntRevoke (p : Fin 4) (s : State) : Host.Outcome State Fault Refusal := s.run (fun d => d.gntFall p.val)

/-- COEX_REQ_HOLD_END (R103 step 5). -/
def execCoexReqHoldEnd (p : Fin 4) (s : State) : Host.Outcome State Fault Refusal :=
  s.run (fun d =>
    let d := d.modPort p.val (fun x => { x with reqHold := false })
    if d.portQuiet p.val then d.coexFall p.val else d)

/-- RXP_END (R107). -/
def execRxpEnd (p : Fin 4) (s : State) : Host.Outcome State Fault Refusal :=
  s.run (fun d => d.modPort p.val (fun x => { x with rxp := false }))

/-- ACK_WAIT_END (R209). -/
def execAckWaitEnd (c : Fin 16) (s : State) : Host.Outcome State Fault Refusal :=
  s.run (fun d => (d.ackWaitEnd c.val).after)

/-- SYNTH_LOCK (R86, R247, R95). -/
def execSynthLock (p : Fin 4) (s : State) : Host.Outcome State Fault Refusal :=
  s.run (fun d => (d.synthLock p.val).after)

/-- CAL_DONE (R92). -/
def execCalDone (p : Fin 4) (miss1 miss2 : BitVec 7) (temp : Int) (s : State) : Host.Outcome State Fault Refusal :=
  s.run (fun d => (d.calDone p.val miss1.toNat miss2.toNat temp).after)

/-- FEM_SPI_DONE (R101, R102). -/
def execFemSpiDone (p : Fin 4) (rdata : W32) (isMatch : Bool) (s : State) : Host.Outcome State Fault Refusal :=
  s.run (fun d => (d.femSpiDone p.val rdata.toNat isMatch).after)

/-! ### Meanings: receive lanes -/

/-- PREAMBLE_DETECT (R142). -/
def execPreambleDetect (l : Fin 192) (e : Int) (s : State) : Host.Outcome State Fault Refusal :=
  s.run (fun d => if (d.lane l.val).st = .search then d.detect l.val e else d)

/-- SYNC_MATCH (R143, R161): the word received, its first bit at the top. -/
def execSyncMatch (l : Fin 192) (word : W32) (rssi snr foff : Int) (s : State) : Host.Outcome State Fault Refusal :=
  s.run (fun d => d.syncMatch l.val word.toNat rssi snr foff)

/-- SYNC_TIMEOUT (R144). -/
def execSyncTimeout (l : Fin 192) (s : State) : Host.Outcome State Fault Refusal := s.run (fun d => d.syncTimeout l.val)

/-- PHR_CHECK (R139, R140, R162). -/
def execPhrCheck (l : Fin 192) (phr : BitVec 24) (s : State) : Host.Outcome State Fault Refusal :=
  s.run (fun d => (d.phrCheck l.val phr.toNat).after)

/-- PSDU_END (R142, R156). -/
def execPsduEnd (l : Fin 192) (psdu : List Byte) (s : State) : Host.Outcome State Fault Refusal :=
  s.run (fun d => (d.psduEnd l.val psdu).after)

/-- CAPTURE (R146 to R149); on a lane that has just gone back to SEARCH the preamble starts afresh (R145). -/
def execCapture (l : Fin 192) (e : Int) (s : State) : Host.Outcome State Fault Refusal :=
  s.run (fun d => if (d.lane l.val).st.inFrame || (d.lane l.val).st == .search then (d.detect l.val e).after else d)

/-! ### Meanings: transmissions -/

/-- TX_GRANT (R24 step 4, R103, R105). -/
def execTxGrant (c : Fin 16) (gnt : Bool) (s : State) : Host.Outcome State Fault Refusal :=
  s.run (fun d => (d.grant c.val gnt).after)

/-- TX_RAMP_UP (R99 step 3). -/
def execTxRampUp (c : Fin 16) (s : State) : Host.Outcome State Fault Refusal := s.run (fun d => d.rampUp c.val)

/-- TX_END (R99 step 4). -/
def execTxEnd (c : Fin 16) (s : State) : Host.Outcome State Fault Refusal := s.run (fun d => (d.txEnd c.val).after)

/-- TEST_TX_END (R193). -/
def execTestTxEnd (c : Fin 16) (s : State) : Host.Outcome State Fault Refusal := s.run (fun d => (d.testEnd c.val).after)

/-- ACK_TX_START (R207): the acknowledgement's decision instant. -/
def execAckTxStart (c : Fin 16) (s : State) : Host.Outcome State Fault Refusal :=
  s.run (fun d => if (d.tx c.val true).phase = .sched then (d.decideS c.val true).after else d)

/-- LATE_LOCK_TIMEOUT (R95). -/
def execLateLockTimeout (c : Fin 16) (s : State) : Host.Outcome State Fault Refusal :=
  s.run (fun d => (d.lateLock c.val).after)

/-- CMD_RF_CAL (R94). -/
def execCmdRfCal (h : Hdr) (p : List Byte) (s : State) : Host.Outcome State Fault Refusal := s.run (fun d => d.rfCal h p)

/-- CMD_RF_TEST_TX (R192, R193). -/
def execCmdRfTestTx (h : Hdr) (p : List Byte) (level : Int) (s : State) : Host.Outcome State Fault Refusal :=
  s.run (fun d => (d.rfTestTx h p level).after)

end Sys2Proof.Machine
end

