-- ==== Sys2Proof/Machine/Vat.lean ====
section
/-! DEFINITION. Vat images (R262 to R283): the format, the checks of a load, loading, discarding and committing, the
image in force, and the built-in ROM image. -/

namespace Sys2Proof.Machine

/-! ### The format (R262 to R271) -/

/-- Directory entries (R264): offset, length and count of the n-th section, whose type stands in `sectTypes`. -/
def sectTypes : List Nat := [0x01, 0x02, 0x03, 0x04, 0x10, 0x11, 0x20, 0x21, 0x22, 0x30]
def sectType (raw : List Byte) (n : Nat) : Nat := fld raw (64 + 16 * n) 1
def sectOff (raw : List Byte) (n : Nat) : Nat := fld raw (68 + 16 * n) 4
def sectLen (raw : List Byte) (n : Nat) : Nat := fld raw (72 + 16 * n) 4
def sectCount (raw : List Byte) (n : Nat) : Nat := fld raw (76 + 16 * n) 4

/-- The signed body's length (R265). -/
def vatBody (raw : List Byte) : Nat := fld raw 8 4 - 3416

/-- n words of `size` octets from an offset. -/
def wordsAt (raw : List Byte) (off size n : Nat) : List Nat := (List.range n).map (fun i => fld raw (off + size * i) size)

/-- An action program of an image (R268). -/
structure VatProg where
  id : Nat := 0
  decl : Nat := 0
  passes : Nat := 0
  words : List Nat := []
  zerosOk : Bool := true
  deriving DecidableEq, Repr, Inhabited

/-- Octets of a program of n instructions. -/
def progSize (n : Nat) : Nat := 8 + 8 * ((n + 1) / 2)

/-- The programs of a section, and the octets they take. -/
def progsAt : Nat → List Byte → List VatProg × Nat
  | 0, _ => ([], 0)
  | n + 1, bs =>
    let len := fld bs 1 1
    let r := progsAt n (bs.drop (progSize len))
    (⟨fld bs 0 1, fld bs 2 1, fld bs 3 1, wordsAt bs 8 4 len, zeros bs 4 4 && (len % 2 == 0 || zeros bs (8 + 4 * len) 4)⟩ :: r.1,
      progSize len + r.2)

/-- A gate list of an image: cycle, entries (interval, gates), and whether its reserved octets are 0. -/
structure VatGate where
  cycle : Nat := 0
  entries : List (Nat × Nat) := []
  zerosOk : Bool := true
  reserved : List Nat := []
  deriving DecidableEq, Repr, Inhabited

/-- The gate lists of a section, and the octets they take. -/
def gatesAt : Nat → List Byte → List VatGate × Nat
  | 0, _ => ([], 0)
  | n + 1, bs =>
    let k := fld bs 4 2
    let r := gatesAt n (bs.drop (8 + 8 * k))
    (⟨fld bs 0 4, (List.range k).map (fun i => (fld bs (8 + 8 * i) 4, fld bs (12 + 8 * i) 1)),
      zeros bs 6 2, (List.range k).filter (fun i => !zeros bs (13 + 8 * i) 3)⟩ :: r.1, 8 + 8 * k + r.2)

/-- The sections of an image from an offset. -/
def vatProgs (raw : List Byte) : List VatProg × Nat := progsAt (sectCount raw 6) (raw.drop (sectOff raw 6))
def vatGates (raw : List Byte) : List VatGate × Nat := gatesAt 4 (raw.drop (sectOff raw 7))

/-- 16-octet records of the tree from the n-th. -/
def treeRecs (raw : List Byte) (first n : Nat) : List (List Byte) :=
  (List.range n).map (fun i => slice raw (sectOff raw 8 + 16 + 16 * (first + i)) 16)

/-- Counts of the tree (R270). -/
def treeNum (raw : List Byte) (i : Nat) : Nat := fld raw (sectOff raw 8 + 2 * i) 2

/-- The words of a sequencer's bank. -/
def vatBank (raw : List Byte) (s : Nat) : List Nat := wordsAt raw (sectOff raw s) 8 (sectCount raw s)

/-- The image that octets spell. -/
def parseVat (raw : List Byte) : VatImage :=
  let lp := sectOff raw 4
  let cp := sectOff raw 5
  { raw := raw, epochLen := fld raw 0x0C 2, phases := fld raw 0x0E 1, planId := fld raw 0x10 4
    rom := false, digest := Config.sha384 (raw.take (vatBody raw))
    banks := (List.range 4).map (fun s => (s, vatBank raw s))
    homes := (List.range 4).map (fun p => (p, (fld raw (lp + 8 * p) 4, fld raw (lp + 8 * p + 4) 1)))
    groups := (List.range 24).map (fun g => fld raw (lp + 32 + 4 * g) 1)
    lanes := (List.range 192).map (fun l => (fld raw (lp + 128 + 8 * l) 4, fld raw (lp + 132 + 8 * l) 4))
    carriers := (List.range 16).map (fun c => (fld raw (cp + 16 * c) 4, fld raw (cp + 16 * c + 4) 4, fld raw (cp + 16 * c + 8) 4))
    portTx := (List.range 4).map (fun p => (fld raw (cp + 256 + 8 * p) 2, fld raw (cp + 258 + 8 * p) 1))
    progs := (vatProgs raw).1.foldl (fun (m : SMap (Nat × List Nat)) x => m.put x.id (x.passes, x.words)) []
    gates := (vatGates raw).1.map (fun g => (g.cycle, g.entries))
    queues := treeRecs raw 0 (treeNum raw 0)
    shapers := treeRecs raw (treeNum raw 0) (treeNum raw 1)
    policers := treeRecs raw (treeNum raw 0 + treeNum raw 1) (treeNum raw 2) }

/-! ### The checks of R275 -/

/-- The first octet of a range that is not 0. -/
def firstNonzero (raw : List Byte) (off n : Nat) : Option Nat := (List.range n).find? (fun i => fld raw (off + i) 1 != 0) |>.map (off + ·)

/-- Check 1. -/
def check1 (raw : List Byte) (length : Nat) : Option Nat :=
  let sig := vatBody raw
  if slice raw 0 4 ≠ [0x51#8, 0x5A#8, 0x56#8, 0x54#8] then some 0
  else if fld raw 4 2 ≠ 1 then some 4
  else if fld raw 0x0F 1 ≠ 10 then some 0x0F
  else if fld raw 7 1 ≠ 0 then some 7
  else if fld raw 8 4 ≠ length then some 8
  else (firstNonzero raw 0x1A 38)
    <|> ((List.range 10).findSome? (fun n => firstNonzero raw (65 + 16 * n) 3))
    <|> (firstNonzero raw (sig + 2) 6)
    <|> (firstNonzero raw (sig + 3413) 3)

/-- LENGTH of a section agrees with its COUNT and the record sizes (check 5). -/
def sectSized (raw : List Byte) (n : Nat) : Bool :=
  let len := sectLen raw n
  let c := sectCount raw n
  if n < 4 then decide (1 ≤ c ∧ c ≤ 16384 ∧ len = 8 * c)
  else if n = 4 then decide (c = 220 ∧ len = 1664)
  else if n = 5 then decide (c = 20 ∧ len = 288)
  else if n = 6 then decide (c ≤ 256 ∧ len = (vatProgs raw).2)
  else if n = 7 then decide (c = 4 ∧ len = (vatGates raw).2)
  else if n = 8 then decide (c = treeNum raw 0 + treeNum raw 1 + treeNum raw 2 ∧ len = 16 + 16 * c)
  else decide (c = 1 ∧ len = 128)

/-- Check 5: the first directory entry at fault. -/
def check5 (raw : List Byte) : Option Nat :=
  (List.range 10).find? (fun n =>
    let prev := if n = 0 then 224 else sectOff raw (n - 1) + sectLen raw (n - 1)
    decide (sectType raw n ≠ sectTypes.getD n 0 ∨ sectOff raw n % 8 ≠ 0 ∨ sectOff raw n < prev ∨
      vatBody raw < sectOff raw n + sectLen raw n) || !sectSized raw n)

/-- A lane of the plan passes check 7. -/
def laneOk (v : VatImage) (n : Nat) : Bool :=
  let x := v.lanes.getD n (0, 0)
  let p := v.groups.getD (n / 8) 0xFF
  let mode := bits x.1 7 0
  if ¬ bit x.1 31 ∨ mode = 0 then true
  else match modeOf mode with
    | none => false
    | some m => decide (p < 4) && inWindow m x.2 (v.homes.get (0, 0) p).1 && bandFits m x.2 &&
        decide (3 ≤ bits x.1 27 24 ∧ 8 ≤ bits x.1 23 14 ∧ 4 ≤ bits x.1 11 8 ∧ bits x.1 29 28 = 0) &&
        !((List.range n).any (fun k =>
          let y := v.lanes.getD k (0, 0)
          bit y.1 31 && decide (v.groups.getD (k / 8) 0xFF = p ∧ y.2 = x.2 ∧ bits y.1 7 0 = mode)))

/-- Check 7. -/
def check7 (v : VatImage) : Option Nat :=
  let lp := sectOff v.raw 4
  let crowded := (List.range 24).find? (fun g =>
    let p := v.groups.getD g 0xFF
    decide ((3 < p ∧ p ≠ 0xFF) ∨ (p < 4 ∧ 12 ≤ ((v.groups.take g).filter (fun q => q == p)).length)) ||
      !zeros v.raw (lp + 33 + 4 * g) 3)
  let home := (List.range 4).find? (fun p =>
    let h := v.homes.get (0, 0) p
    decide (1 < h.2) || (h.2 == 1 && !inBand h.1) || decide (2 ^ 22 ≤ h.1) || !zeros v.raw (lp + 8 * p + 5) 3)
  (crowded.map (· + 192)) <|> (home.map (· + 216)) <|> ((List.range 192).find? (fun n => !laneOk v n))

/-- A carrier of the plan passes check 8. -/
def carrierOk (v : VatImage) (c : Nat) : Bool :=
  let x := v.carriers.getD c (0, 0, 0)
  let p := bits x.1 30 28
  let before := ((v.carriers.take c).filter (fun y => bits y.1 30 28 == p)).length
  decide (p < 4 → before < 4) && decide (bits x.1 20 16 = 0 ∧ x.2.2 < 65536 ∧ 2 ≤ bits x.1 25 21) && zeros v.raw (sectOff v.raw 5 + 16 * c + 12) 4 &&
    (!bit x.1 31 || (match modeOf (bits x.1 7 0) with
      | some m => decide (p < 4) && inWindow m x.2.1 (v.homes.get (0, 0) p).1
      | none => false))

/-- Check 8. -/
def check8 (v : VatImage) : Option Nat :=
  let ack := (List.range 4).find? (fun p =>
    let y := v.portTx.getD p (0, 0)
    (List.range 16).any (fun c => bit y.1 c && bits (v.carriers.getD c (0, 0, 0)).1 30 28 != p) || decide (63 < y.2) ||
      !zeros v.raw (sectOff v.raw 5 + 259 + 8 * p) 5)
  ((List.range 16).find? (fun c => !carrierOk v c)) <|> (ack.map (· + 16))

/-- Check 11: the PROG_ID of the first program at fault. -/
def check11 (ps : List VatProg) : Option Nat :=
  (ps.zipIdx.find? (fun y =>
    let x := y.1
    (ps.take y.2).any (fun z => z.id == x.id) || decide (x.words.length < 1 ∨ 64 < x.words.length) || !x.zerosOk ||
      !x.words.all actDefined || !forwardOnly x.words || decide (80 < x.decl ∨ x.decl < progCost x.words) ||
      decide (x.passes ≠ 1 ∧ x.passes ≠ 2) ||
      (recirculates x.words && (decide (x.passes ≠ 2) || x.words.any (fun w => actOp w == 58 &&
        !(ps.any (fun z => z.id == bits w 7 0 && !recirculates z.words))))))).map (fun y => y.1.id)

/-- Check 12. -/
def check12 (gs : List VatGate) : Option Nat :=
  gs.zipIdx.findSome? (fun y =>
    let g := y.1
    let bad := Dev.least (((g.entries.findIdx? (fun x => x.1 == 0)).toList) ++ g.reserved)
    if 125000000 < g.cycle ∨ 1024 < g.entries.length ∨ ¬ g.zerosOk then some (y.2 * 1024)
    else match bad with
      | some k => some (y.2 * 1024 + k)
      | none => if (g.entries.foldl (fun n x => n + x.1) 0) ≠ g.cycle then some (y.2 * 1024) else none)

/-- The chain of a shaper ends within `n` more shapers (R393). -/
def chainEnds (shapers : List (List Byte)) : Nat → Nat → Bool
  | n, i =>
    if i = 0xFFFF then true
    else match n, shapers[i]? with
      | n + 1, some r => chainEnds shapers n (shaperRec r).2.2
      | _, _ => false

/-- Check 13: the index of the first record at fault. -/
def check13 (raw : List Byte) (v : VatImage) : Option Nat :=
  let q := v.queues.length
  let s := v.shapers.length
  let keys := v.queues.map (fun r => ((queueRec r).kind, (queueRec r).cls, (queueRec r).target))
  let created := fun (l : List (Nat × Nat × Nat)) => (l.filter (fun k => (fixedQueue k.1 k.2.1 k.2.2).isNone)).length
  if 4096 < q ∨ 1024 < s ∨ 2048 < v.policers.length ∨ ¬ zeros raw (sectOff raw 8 + 6) 10 then some 0
  else
    ((List.range q).find? (fun i =>
      let r := v.queues.getD i []
      let x := queueRec r
      queueRecBad r || (keys.take i).contains (x.kind, x.cls, x.target) ||
        (x.shaper != 0xFFFF && decide (s ≤ x.shaper)) || decide (3896 < created (keys.take (i + 1)))))
    <|> (((List.range s).find? (fun i => shaperRecBad (v.shapers.getD i []) || !chainEnds v.shapers 3 i)).map (q + ·))
    <|> (((List.range v.policers.length).find? (fun i => policerRecBad (v.policers.getD i []))).map (q + s + ·))

/-- Check 14: the first certificate field at fault. -/
def check14 (raw : List Byte) (v : VatImage) : Option Nat :=
  let c := slice raw (sectOff raw 9) 128
  let ps := (vatProgs raw).1
  let bank := fun s => insOf 0 0 0 0 (v.banks.get [] s)
  let want : List (Nat × Nat × Nat) :=
    (List.range 4).map (fun s => (2 * s, 2, (v.banks.get [] s).length)) ++
    (List.range 4).map (fun s => (8 + 4 * s, 4, match (bank s).getLast? with | some x => x.tick | none => 0)) ++
    (List.range 4).map (fun s => (0x18 + s, 1, maxIssue (bank s))) ++
    [(0x1C, 2, ps.length), (0x1E, 1, (ps.map (fun x => x.passes)).foldl max 0), (0x1F, 1, 0),
      (0x20, 2, (ps.map (fun x => x.decl)).foldl max 0)] ++
    (List.range 4).map (fun e => (0x28 + 2 * e, 2, (v.gates.getD e (0, [])).2.length)) ++
    (List.range 3).map (fun i => (0x30 + 2 * i, 2, treeNum raw i)) ++ [(0x36, 2, 0)] ++
    (List.range 4).map (fun p => (0x38 + p, 1, (v.groups.filter (fun g => g == p)).length)) ++
    (List.range 4).map (fun p => (0x3C + p, 1, (v.carriers.filter (fun x => bits x.1 30 28 == p)).length))
  ((want.find? (fun w => fld c w.1 w.2.1 != w.2.2)).map (fun w => w.1))
  <|> (if 80 < fld c 0x20 2 then some 0x20 else none)
  <|> (if 2 < fld c 0x1E 1 then some 0x1E else none)
  <|> (if fld c 0x22 2 < 200 ∨ 1000 < fld c 0x22 2 + fld c 0x24 2 + fld c 0x26 2 then some 0x22 else none)
  <|> (firstNonzero c 0x40 64)

namespace Dev

/-- Check 4 (R265): 0 where the ECDSA signature fails, 1 where the ML-DSA signature does. -/
def check4 (d : Dev) (raw : List Byte) : Option Nat :=
  let sig := raw.drop (vatBody raw)
  let kb := (d.key (fld raw 0x18 2)).key
  let dg := Config.sha384 (raw.take (vatBody raw))
  if fld sig 0 2 ≠ 1 ∨ ¬ Config.ecdsaVerify (keyBlockEc kb) dg (slice sig 8 96) then some 0
  else if ¬ Config.mldsaVerify (keyBlockMl kb) dg (slice sig 104 3309) then some 1
  else none

/-- Check 9 over the four banks: section and index. -/
def check9 (d : Dev) (v : VatImage) : Option (Nat × Nat) :=
  (List.range 4).findSome? (fun s =>
    let k : BankCtx :=
      { epochUs := v.epochLen * 1000, home := (v.homes.get (0, 0) s).1, spi := d.spiLen s
        lanes := (List.range 192).filter (fun l => v.groups.getD (l / 8) 0xFF == s)
        cars := (List.range 16).filter (fun c => bits (v.carriers.getD c (0, 0, 0)).1 30 28 == s) }
    (bankFault k (v.banks.get [] s)).map (fun i => (s + 1, i)))

/-- A channel in a mode lies inside a valid, enabled sub-band of a port that may transmit (R276). -/
def cinPermits (d : Dev) (p khz mode : Nat) : Bool :=
  match d.sbOf khz mode with
  | some n => !(d.cin.sb.get {} n).disabled && (d.cin.ports.get {} p).txPermitted
  | none => false

/-- Check 10 over the four banks: section and index, the carrier plan's where the index names a carrier. -/
def check10 (d : Dev) (v : VatImage) : Option (Nat × Nat) :=
  if ¬ d.cin.locked then none
  else (List.range 4).findSome? (fun s =>
    (cinFault (v.homes.get (0, 0) s).1 v.carriers (d.linearPort s) (d.cinPermits s) (v.banks.get [] s)).map
      (fun i => (if 16384 ≤ i then 0x11 else s + 1, i)))

/-- The checks of R275 in order: check number, section and index of the first that fails. -/
def vatFault (d : Dev) (raw : List Byte) (length : Nat) : Option (Nat × Nat × Nat) :=
  let v := parseVat raw
  let ks := fld raw 0x18 2
  let ph := v.phases
  let at_ := fun (c s : Nat) (o : Option Nat) => o.map (fun i => (c, s, i))
  (at_ 1 0 (check1 raw length))
  <|> (if fld raw 6 1 ≠ deviceRev then some (2, 0, 0) else none)
  <|> (if ks < 1024 ∧ d.keyUsable ks 4 then none else some (3, 0, ks))
  <|> (at_ 4 0 (d.check4 raw))
  <|> (at_ 5 0 (check5 raw))
  <|> (if v.epochLen < 64 ∨ 16384 < v.epochLen ∨ ph = 0 ∨ 32 ≤ ph ∨ (¬ d.cin.locked ∧ ph % 8 ≠ 0) then some (6, 0, 0) else none)
  <|> (at_ 7 0x10 (check7 v))
  <|> (at_ 8 0x11 (check8 v))
  <|> ((d.check9 v).map (fun x => (9, x.1, x.2)))
  <|> ((d.check10 v).map (fun x => (10, x.1, x.2)))
  <|> (at_ 11 0x20 (check11 (vatProgs raw).1))
  <|> (at_ 12 0x21 (check12 (vatGates raw).1))
  <|> (at_ 13 0x22 (check13 raw v))
  <|> (at_ 14 0x30 (check14 raw v))

/-! ### Loading and discarding (R274, R277, R278) -/

/-- The CMD_COMMIT that waits for its boundary. -/
def pendingCommit (d : Dev) : Option Staged := d.stg.cmds.find? (fun x => x.cmd.op == .CMD_COMMIT)

/-- CMD_VAT_LOAD at acceptance. -/
def vatLoad (d : Dev) (h : Hdr) (p : List Byte) : Dev :=
  let c : Cmd := ⟨h, .CMD_VAT_LOAD, 0, p⟩
  d.command c (fun d =>
    let len := fld p 0x10 4
    if d.follower then d.complete c .ST_MODE_REFUSED
    else if 1 < fld p 0 1 ∨ ¬ zeros p 1 7 ∨ ¬ zeros p 0x14 44 ∨ len < 5800 ∨ 4194304 < len then d.complete c .ST_BAD_PARAM
    else if d.vat.loading.isSome then d.complete c .ST_BUSY
    else if d.pendingCommit.isSome then d.complete c .ST_COMMIT_PENDING
    else ({ d with vat := { d.vat with staged := none, loading := some c, area := [], verifying := false } }).holdCmd c)

/-- The copy of an image ends (R274, R277). -/
def vatCopyDone (d : Dev) (ok : Bool) (image : List Byte) : Dev :=
  match d.vat.loading with
  | none => d
  | some c =>
    if d.vat.verifying then d
    else if ok then { d with vat := { d.vat with area := slice image 0 (fld c.p 0x10 4), verifying := true } }
    else ({ d with vat := { d.vat with loading := none } }).complete c .ST_TRANSFER_FAIL

/-- A bank's words as a sequencer holds them. -/
def bankMap (ws : List Nat) : SMap W64 := ws.zipIdx.foldl (fun (m : SMap W64) x => m.set 0 x.2 (BitVec.ofNat 64 x.1)) []

/-- A verified image takes its place: the sequencers' staged banks hold its programs (R232). -/
def stageImage (d : Dev) (v : VatImage) : Dev :=
  let d := { d with vat := { d.vat with staged := some v } }
  d.each [0, 1, 2, 3] (fun d s => d.modSeq s (fun x => { x with staged := bankMap (v.banks.get [] s) }))

/-- The verification ends (R275, R277). -/
def vatVerifyDone (d : Dev) : Dev :=
  match d.vat.loading with
  | none => d
  | some c =>
    if ¬ d.vat.verifying then d
    else
      let raw := d.vat.area
      let d1 := { d with vat := { d.vat with loading := none, area := [], verifying := false } }
      match d.commandView.vatFault raw (fld c.p 0x10 4) with
      | some (k, s, i) =>
        ({ d1 with vat := { d1.vat with lastCheck := k, lastSection := s, refuse := i } }).complete c .ST_IMAGE_REFUSED
          (le 1 k ++ le 1 s ++ le 2 0 ++ le 4 i)
      | none =>
        let v := parseVat raw
        (d1.stageImage v).complete c .ST_OK (le 4 v.planId ++ v.digest.take 8)

/-- CMD_VAT_DISCARD (R278). -/
def vatDiscard (d : Dev) (h : Hdr) : Dev :=
  let c : Cmd := ⟨h, .CMD_VAT_DISCARD, 0, []⟩
  d.command c (fun d =>
    let drop := fun (d : Dev) => ({ d with vat := { d.vat with staged := none } }).complete c .ST_OK
    match d.pendingCommit with
    | some x =>
      if x.frozen then d.complete c .ST_EPOCH_PASSED
      else
        let d := { d with stg := { d.stg with cmds := d.stg.cmds.filter (fun y => !decide (y.cmd = x.cmd)) } }
        (drop d).complete x.cmd .ST_NOTHING_STAGED
    | none => drop d)

/-! ### Commit (R279 to R282) -/

/-- EFFECTIVE_EPOCH of CMD_COMMIT. -/
def commitEpoch (p : List Byte) : Option Nat := if bit (fld p 0 1) 0 then some (fld p 8 6) else none

/-- CMD_COMMIT at acceptance (R280, R70). -/
def commitCmd (d : Dev) (h : Hdr) (p : List Byte) : Dev :=
  let c : Cmd := ⟨h, .CMD_COMMIT, 0, p⟩
  d.command c (fun d =>
    if d.follower then d.complete c .ST_MODE_REFUSED
    else if 1 < fld p 0 1 ∨ ¬ zeros p 1 7 ∨ ¬ zeros p 0x0E 2 ∨ ¬ zeros p 0x18 40 then d.complete c .ST_BAD_PARAM
    else match d.vat.staged with
      | none => d.complete c .ST_NOTHING_STAGED
      | some v =>
        if slice p 0x10 8 ≠ v.digest.take 8 then d.complete c .ST_DIGEST_MISMATCH
        else if d.pendingCommit.isSome then d.complete c .ST_COMMIT_PENDING
        else match commitEpoch p with
          | some e => if d.freezePassed e then d.complete c .ST_EPOCH_PASSED else d.stageCmd c (some e)
          | none => d.stageCmd c none)

/-- An image declares a phase (R263). -/
def declares (v : VatImage) (ph : Phase) : Bool := bit v.phases ph.code

/-- Write a register in force. -/
def setCfg (d : Dev) (off v : Nat) : Dev :=
  match regAt off with
  | some r => { d with cfg := d.cfg.set (BitVec.ofNat 32 r.reset) off (BitVec.ofNat 32 v) }
  | none => d

/-- Put an image in force at B: the sequencers' banks, home centres and ends, and the image itself (R232, R282). -/
def commitTime (d : Dev) (v : VatImage) : Dev :=
  let d := { d with vat := { d.vat with inForce := some v, staged := none } }
  d.each [0, 1, 2, 3] (fun d s =>
    let ws := v.banks.get [] s
    (d.modSeq s (fun x => { x with
      bank := !x.bank, act := bankMap ws, staged := x.act
      endTick := match ws.getLast? with | some w => seqTick w | none => 0 })).modPort s
      (fun x => { x with home := (v.homes.get (0, 0) s).1 % 2 ^ 22 }))

/-- Load an image's lane-group and carrier plans into their registers (R282). -/
def loadPlans (d : Dev) (v : VatImage) : Dev :=
  let d := d.each (List.range 4) (fun d p =>
    let rf := d.cfg.RF_CTL_TX_INHIBIT p
    let y := v.portTx.getD p (0, 0)
    ((d.setCfg (Reg.RF_CTL p) (2 * rf + (v.homes.get (0, 0) p).2 % 2)).setCfg (Reg.ACK_CTL p)
      (y.1 * 65536 + d.cfg.ACK_CTL_SLACK_US p)).setCfg (Reg.TX_PORT_CTL p) (y.2 % 64))
  let d := d.each (List.range 24) (fun d g => d.setCfg (Reg.LG_CFG g) (let p := v.groups.getD g 0xFF; if p < 4 then p else 4))
  let d := d.each (List.range 192) (fun d l =>
    let x := v.lanes.getD l (0, 0)
    (d.setCfg (Reg.LANE_CFG l) x.1).setCfg (Reg.LANE_FREQ l) x.2)
  d.each (List.range 16) (fun d c =>
    let x := v.carriers.getD c (0, 0, 0)
    ((d.setCfg (Reg.TXC_CFG c) x.1).setCfg (Reg.TXC_FREQ c) x.2.1).setCfg (Reg.TXC_PWR c) (x.2.2 % 65536))

/-- The programs, gate lists and traffic-manager tree of an image come into force at the PIPE strobe (R282, R401); gate lists
wait for their first cycle start (R61). -/
def commitPipe (d : Dev) (v : VatImage) : Dev :=
  let d := { d with pipe := { d.pipe with oldProgs := d.pipe.progs, progs := v.progs } }
  -- A packet inside a pass, and its recirculation, runs the old programs (R64).
  let d := d.each [0, 1] (fun d i => let s := d.pipeSt i; d.setPipe i { s with oldBank := s.cur.isSome })
  let d := d.installTree v.queues v.shapers v.policers
  d.each [0, 1, 2, 3] (fun d e =>
    let g := v.gates.getD e (0, [])
    d.modEth e (fun x => { x with gatesNext := some (⟨g.1, g.2⟩, d.now) }))

/-- Refresh SEQ_CLASS_MAX (R243), from the active bank and the settings in force, and from the staged bank of a commit that
waits, which runs from its image's plans. -/
def refreshUsable (d : Dev) : Dev :=
  d.each [0, 1, 2, 3] (fun d s =>
    let here := usableOf (d.bankProg s false) (d.port s).home (fun c => (d.cfg.TXC_FREQ_CHAN_KHZ c, d.cfg.TXC_CFG_MODE c))
      d.ccaUs d.lbtReq
    let next := fun (k : Nat) => match d.pendingCommit, d.vat.staged with
      | some _, some v =>
        usableOf (v.banks.get [] s) (v.homes.get (0, 0) s).1
          (fun c => let y := v.carriers.getD c (0, 0, 0); (y.2.1, bits y.1 7 0)) d.ccaUs d.lbtReq k
      | _, _ => 0
    d.modSeq s (fun x => { x with usable := (List.range 8).foldl (fun (m : SMap Nat) k =>
      m.set 0 k (min (max (here k) (next k)) 8388607)) [] }))

/-! ### The built-in image (R283) -/

/-- The first worked program of the sequencer chapter, with the CSET offset of R283. -/
def romBank : List Nat :=
  [0x1000000000000000, 0x2800000000FFDB48, 0x2900000000000002, 0x320003E80010003C,
   0x3000271004830D40, 0x31035B60008927C0, 0x120DBBA017700006, 0x010F424000000000]

/-- The uplink program of R283, PAN_0 to ETH_0 at a cost of 31 cycles (R273). The rule gives what it does and its cost, not
its words (DESIGN CHOICE, log entry 156): the node of NODE_LOC must be found, the header is decompressed, and the packet goes to
ETH_0 with header template 0. -/
def romUplink : List Nat :=
  [wordA 11 1 0 0 0x03, wordA 32 5 1 0 0x1000, wordI 1 15 1, wordA 12 0 15 0 0x10, wordJ 24 5 0 0 7, wordA 48 9 0 0 0,
   wordA 56 0 0 0 0, wordA 57 0 0 0 0]

/-- The downlink program of R283, ETH_0 to PAN_0 at a cost of 31 cycles (DESIGN CHOICE, log entry 156): the node of the short
address that the destination's interface identifier holds, on RF_A, on the class of its AIR_CLASS, with AR; other destinations
are dropped. -/
def romDownlink : List Nat :=
  [wordA 13 2 0 0 0x1320, wordA 32 5 2 0 0x1000, wordA 13 3 0 0 0x1140, wordI 1 4 0x3E00, wordI 2 4 0x3FF, wordA 12 0 2 0 0x14,
   wordA 12 0 0 0 0x10, wordI 1 15 1, wordA 12 0 15 0 0x11] ++
  [wordA 12 0 15 0 0x13, wordJ 21 3 4 0 17, wordA 15 10 0 0 0x1720, wordA 49 9 0 0 0, wordJ 24 5 0 0 17, wordA 9 14 10 0 0x1020,
   wordA 12 0 14 0 0x12, wordA 56 0 0 0 0, wordA 57 0 0 0 0]

/-- F_LO and F_HI of R283. -/
def romEdge (d : Dev) : Nat × Option Nat :=
  match (List.range 12).find? (fun n =>
      let s := d.cin.sb.get {} n
      d.cin.locked && s.valid && !s.disabled && inBandL s.fLo && inBandL s.fHi) with
  | some n => ((d.cin.sb.get {} n).fLo, some (d.cin.sb.get {} n).fHi)
  | none => (890400, none)

/-- The ROM image as it comes into force now. -/
def romImage (d : Dev) : VatImage :=
  let e := d.romEdge
  { raw := [], epochLen := 1024, phases := 0b01011, planId := 1, rom := true, digest := Config.romVatDigest
    banks := [(0, romBank), (1, [0x0100000000000000]), (2, [0x0100000000000000]), (3, [0x0100000000000000])]
    homes := [(0, (e.1 + 9600, 1))]
    groups := (List.range 24).map (fun g => if g < 6 then 0 else 0xFF)
    lanes := (List.range 192).map (fun k =>
      let f := e.1 + 200 + 400 * k
      let on : Bool := match e.2 with | some hi => decide (f + 200 ≤ hi) | none => true
      if k < 48 then (0x46080802 + (if on then 2 ^ 31 else 0), f) else (0x46080800, 0))
    carriers := (List.range 16).map (fun c =>
      if c = 0 then (0x85008802, e.1 + 200, Config.romCarrierPwr.toNat) else (0x45008800, 0, 0xFF88))
    portTx := [(Config.romAckCarriers.toNat &&& 1, Config.romBackoff.toNat)]
    progs := [(0, (1, romUplink)), (4, (1, romDownlink))]
    gates := [(0, []), (0, []), (0, []), (0, [])] }

end Dev

/-! ### Meanings -/

/-- CMD_VAT_LOAD (R274, R277). -/
def execCmdVatLoad (h : Hdr) (p : List Byte) (s : State) : Host.Outcome State Fault Refusal := s.run (fun d => d.vatLoad h p)

/-- VAT_COPY_DONE (R274). -/
def execVatCopyDone (ok : Bool) (image : List Byte) (s : State) : Host.Outcome State Fault Refusal :=
  s.run (fun d => d.vatCopyDone ok image)

/-- VAT_VERIFY_DONE (R275, R277). -/
def execVatVerifyDone (s : State) : Host.Outcome State Fault Refusal := s.run (fun d => d.vatVerifyDone)

/-- CMD_VAT_DISCARD (R278). -/
def execCmdVatDiscard (h : Hdr) (s : State) : Host.Outcome State Fault Refusal := s.run (fun d => d.vatDiscard h)

/-- CMD_COMMIT (R279, R280). -/
def execCmdCommit (h : Hdr) (p : List Byte) (s : State) : Host.Outcome State Fault Refusal := s.run (fun d => d.commitCmd h p)

end Sys2Proof.Machine
end

