-- ==== Sys2Proof/Machine/Pipe.lean ====
section
/-! DEFINITION. The packet pipelines (R358 to R375, R379, R382 to R384): windows, the action instructions, lookups, and what
FWD does with a packet. An instruction's command is its issue in the pass under way; it issues only when every operand it
reads is ready (R371). -/

namespace Sys2Proof.Machine

/-- SRC_KIND and SRC_INDEX of a source (R362, R367). -/
def srcKind (s : Nat) : Nat := if s < 4 then 0 else if s < 8 then 1 else if s < 14 then 2 else 3
def srcIndex (s : Nat) : Nat := if s < 4 then s else if s < 8 then s - 4 else if s < 14 then s - 8 else s - 14

/-- The 48 octets of a node entry (R317). -/
def NodeEntry.octets (e : NodeEntry) : List Byte :=
  le 8 e.eui.toNat ++ le 2 e.short ++ le 2 e.loc ++
    le 1 (e.pan % 4 + 4 * ofBool e.valid + 8 * ofBool e.preplaced + 16 * ofBool e.pinned + 32 * ofBool e.quarantine +
      64 * ofBool e.adopted + 128 * ofBool e.hintless) ++
    le 1 (e.qreason % 8 + 8 * ofBool e.fcNone) ++ le 1 e.lastSeq ++ le 1 e.hopDist ++ le 4 e.lastFc ++ le 4 e.dlFc ++
    le 2 e.keySlot ++ le 2 e.keyEpoch ++ le 1 e.hopMin ++ le 1 e.airClass ++ le 2 e.policer ++ le 4 e.touch ++
    le 2 e.setEpoch ++ le 2 0 ++ le 8 e.user.toNat

/-- The 32 octets of a route entry (R325). -/
def RouteEntry.octets (e : RouteEntry) : List Byte :=
  le 1 e.pan ++ le 1 (ofBool e.valid + 2 * ofBool e.quarantine + 4 * ofBool e.mark) ++ le 2 e.target ++
    le 1 e.hopList.length ++ le 3 0 ++ le 6 e.expires ++ le 2 e.setEpoch ++
    slice ((e.hopList.map (fun h => le 2 h)).flatten) 0 16

/-- The 32 octets of a prefix entry (R327). -/
def PrefixEntry.octets (e : PrefixEntry) : List Byte :=
  slice e.pfx 0 16 ++ le 1 e.len ++ le 1 (ofBool e.valid + 2 * ofBool e.quarantine + 4 * ofBool e.mark) ++ le 1 e.kind ++
    le 1 e.context ++ le 2 e.target ++ le 1 e.prog ++ le 1 e.cls ++ le 2 e.setEpoch ++ slice e.user 0 6

/-! ### Registers, metadata and the header window (R366 to R368) -/

namespace PipeSt

/-- Register Gr: G0 reads as 0. -/
def g (s : PipeSt) (r : Nat) : W32 := if r = 0 then 0 else s.regs.get 0 r

/-- Write Gr: a write to G0 is discarded. -/
def setG (s : PipeSt) (r : Nat) (v : W32) : PipeSt := if r = 0 then s else { s with regs := s.regs.set 0 r v }

/-- The RW metadata fields of R367. -/
def rwField (f : Nat) : Bool := f == 2 || decide (0x10 ≤ f ∧ f ≤ 0x18)

/-- A metadata field as held: OUT_KIND starts at 4, OUT_DST at 0xFFFF, OUT_POWER at 0x8000. -/
def meta0 (f : Nat) : W32 := if f = 0x10 then 4 else if f = 0x14 then 0xFFFF else if f = 0x15 then 0x8000 else 0
def rw (s : PipeSt) (f : Nat) : Nat := (s.md.get (meta0 f) f).toNat

/-- The PAN that LKE, OWNR, CMPR and FWD use. -/
def pan (s : PipeSt) : Nat := s.rw 2 % 4

/-- Write an RW field: OUT_FLAGS keeps its four flags. -/
def setMd (s : PipeSt) (f : Nat) (v : W32) : PipeSt :=
  if rwField f then { s with md := s.md.set (meta0 f) f (if f = 0x13 then v &&& 0xF else v) } else s

/-- A metadata field as LDM reads it, none for an index without a field. -/
def field (s : PipeSt) (x : Packet) (f : Nat) : Option Nat :=
  if rwField f then some (s.rw f)
  else match f with
    | 0 => some (srcKind x.src)
    | 1 => some (srcIndex x.src)
    | 3 => some x.nodeLoc
    | 4 => some s.w.length
    | 5 => some s.l3
    | 6 => some x.rxInfo
    | 7 => some (x.epoch % 2 ^ 32)
    | 8 => some x.rxFlags
    | 9 => some x.ethInfo
    | 10 => some x.extType
    | _ => none

/-- Octets of a WID (R370). -/
def width (wid : Nat) : Nat := if wid = 0 then 1 else if wid = 1 then 2 else 4

/-- n octets of W at an offset: 0 beyond the packet and beyond the window. -/
def win (s : PipeSt) (off n : Nat) : List Byte := slice (s.w.take 128) off n

/-- Write octets of W: those beyond the packet or the window are lost. -/
def setWin (s : PipeSt) (off : Nat) (v : List Byte) : PipeSt := { s with w := patch s.w off (v.take (128 - off)) }

/-- The operands are ready (R371): no lookup in flight writes one of them. -/
def ready (s : PipeSt) (reads : List Nat) : Bool :=
  s.lookups.all (fun l => !(l.d != 0 && reads.contains l.d) && !reads.contains (17 + l.rb))

/-- The pipeline with no pass under way. -/
def idle (s : PipeSt) : PipeSt := { queues := s.queues, turn := s.turn }

end PipeSt

namespace Dev

/-! ### Passes -/

/-- The program that a pass may run (R64). -/
def progOf (d : Dev) (old : Bool) (id : Nat) : Option (Nat × List Nat) := (if old then d.pipe.oldProgs else d.pipe.progs).find id

/-- Write-back of a host packet's descriptors with the packet's fate (R528), and the end of its receive-log record. -/
def packetFate (d : Dev) (x : Packet) (st : Status) : Dev :=
  let d := d.freeRecord x
  let r := 19 + srcIndex x.src
  if srcKind x.src = 3 ∧ x.descs ≠ 0 ∧ d.ringOn r then
    let st := match st with
      | .ST_OK => Status.ST_OK
      | .ST_NEVER_FITS => Status.ST_NEVER_FITS
      | .ST_TOO_LONG_FOR_SLOT => Status.ST_TOO_LONG_FOR_SLOT
      | _ => Status.ST_DROPPED
    d.writeBack r x.descs st
  else d

/-- A lookup has completed in the table engine (R357). -/
def countLookup (d : Dev) (l : LookupReq) : Dev :=
  if l.kind = 0 then d.bump Cnt.NODE_LOOKUP else if l.kind = 1 then d.bump Cnt.PREFIX_LOOKUP else d

/-- The pass ends with its packet's fate; results not yet returned are discarded (R374). -/
def endPass (d : Dev) (i : Nat) (st : Status) : Dev :=
  let s := d.pipeSt i
  let d := s.lookups.foldl countLookup d
  let d := d.setPipe i s.idle
  match s.cur with
  | some x => d.packetFate x st
  | none => d

/-- What a packet does counts in the epoch of the received frame that it carries (R20). -/
def asPacket (d : Dev) (x : Packet) (f : Dev → Dev) : Dev := if srcKind x.src = 0 then d.asFrame x.epoch f else f d

/-- The next source whose queue holds a packet, after the last one served (R363). -/
def nextSource (s : PipeSt) : Option Nat :=
  ((List.range 30).map (fun k => (s.turn + 1 + k) % 30)).find? (fun x => !(s.queues.get [] x).isEmpty)

/-- The next packet with a program: packets of a source without one are dropped at PARSE (R362). The fuel is the number of
packets that wait. -/
def takePacket (i : Nat) : Nat → Dev → Option Packet × Dev
  | 0, d => (none, d)
  | n + 1, d =>
    let s := d.pipeSt i
    match nextSource s with
    | none => (none, d)
    | some src =>
      match s.queues.get [] src with
      | [] => (none, d)
      | x :: rest =>
        let d := d.setPipe i { s with queues := s.queues.set [] src rest, turn := src }
        let x := if srcKind src = 0 then x else { x with epoch := d.epoch.numPipe }
        if x.bad then takePacket i n (d.packetFate x .ST_DROPPED)
        else if (d.pipe.progs.find src).isSome then (some x, d)
        else takePacket i n (d.asPacket x (fun d => (d.bump (Cnt.PIPE_NO_PROG i)).packetFate x .ST_DROPPED))

/-- PIPE_WINDOW_START (R360, R366): a recirculated packet takes the window, else the next packet that waits. A pass that
has not ended holds the window grid (R361). -/
def windowStart (d : Dev) (i : Nat) : Dev :=
  let s := d.pipeSt i
  match s.cur with
  | some x =>
    if s.recirc then
      (d.setPipe i { s with recirc := false, pass := 2, pc := 0, rbs := [], charged := [], lookups := [] }).asPacket x
        (fun d => (d.bump (Cnt.PIPE_PASSES i)).bump (Cnt.PIPE_RECIRC i))
    else d
  | none =>
    let r := takePacket i (s.queues.foldl (fun n (y : Nat × List Packet) => n + y.2.length) 0) d
    match r.1 with
    | none => r.2
    | some x =>
      let t : PipeSt := (r.2.pipeSt i).idle
      let t : PipeSt := { t with cur := some x, pass := 1, prog := x.src, w := x.data, l3 := x.l3 }
      let t := (t.setMd 2 (BitVec.ofNat 32 x.pan)).setMd 0x16 x.tag
      (r.2.setPipe i t).asPacket x (fun d => d.bump (Cnt.PIPE_PASSES i))

/-- A path that reaches the end of the program without an EMIT drops the packet (R374). -/
def noEmit (d : Dev) (i : Nat) : Dev :=
  let s := d.pipeSt i
  let n := match d.progOf s.oldBank s.prog with | some p => p.2.length | none => 0
  if s.cur.isSome ∧ n ≤ s.pc then (d.bump (Cnt.PIPE_NO_EMIT i)).endPass i .ST_DROPPED else d

/-- The packet of a pass that can issue the instruction word w now: the program holds w at the program counter (R369), and its
operands are ready (R371). -/
def issuing (d : Dev) (i w : Nat) : Option Packet :=
  let s := d.pipeSt i
  let here := match d.progOf s.oldBank s.prog with | some p => p.2[s.pc]? | none => none
  if s.recirc || here != some w || !s.ready (actReads w) then none else s.cur

/-- Work of a pass goes on under the settings with which the pass began (R64), and counts in the epoch of a received frame
(R20). -/
def inPass (d : Dev) (i : Nat) (x : Packet) (f : Dev → Dev) : Dev :=
  let now := d.cfg
  let d := { d with cfg := (d.pipeSt i).oldCfg.getD now }
  { d.asPacket x f with cfg := now }

/-- Issue an instruction of the pass under way that does not end it. `f` sees the pipeline with the program counter past the
instruction. -/
def act (d : Dev) (i w : Nat) (f : Dev → Packet → PipeSt → Dev × PipeSt) : Dev :=
  match d.issuing i w with
  | none => d
  | some x => d.inPass i x (fun d =>
      let s := d.pipeSt i
      let r := f d x { s with pc := s.pc + 1 }
      (r.1.setPipe i r.2).noEmit i)

/-- An instruction that changes only the pipeline. -/
def actP (d : Dev) (i w : Nat) (f : PipeSt → PipeSt) : Dev := d.act i w (fun d _ s => (d, f s))

/-- A branch. -/
def actBr (d : Dev) (i w target : Nat) (c : PipeSt → Bool) : Dev :=
  d.actP i w (fun s => if c s then { s with pc := target } else s)

/-- Issue an EMIT (R374). -/
def actEmit (d : Dev) (i w : Nat) (f : Dev → Packet → PipeSt → Dev) : Dev :=
  match d.issuing i w with
  | none => d
  | some x => d.inPass i x (fun d => f d x (d.pipeSt i))

/-! ### Lookups (R371, R372) -/

/-- A lookup is issued: at most four are in flight (R273). It reads the tables as they stand now (R64). -/
def lookup (d : Dev) (i w rd rb kind : Nat) (f : Dev → PipeSt → Option (List Byte)) : Dev :=
  if 4 ≤ (d.pipeSt i).lookups.length then d
  else d.act i w (fun d _ s =>
    let r := f d s
    (d, { s with lookups := s.lookups ++ [⟨rd, rb, r.isSome, slice (r.getD []) 0 64, kind⟩] }))

/-- The node entry that LKN hits (R321, R372). -/
def lkn (d : Dev) (k a : Nat) : Option NodeEntry :=
  match d.findShort k a with
  | some loc =>
    let e := d.nodeAt k loc
    if e.quarantine || e.preplaced then none else some e
  | none => none

/-- The node entry that LKE hits. -/
def lke (d : Dev) (k : Nat) (eui : W64) : Option NodeEntry :=
  match d.findEui k eui with
  | some loc =>
    let e := d.nodeAt k loc
    if e.quarantine || e.hintless then none else some e
  | none => none

/-- LOOKUP_RETURN (R361, R371): the oldest lookup in flight writes its result buffer and destination register. -/
def lookupReturn (d : Dev) (i : Nat) (late : Bool) : Dev :=
  let s := d.pipeSt i
  match s.lookups with
  | [] => d
  | l :: rest =>
    let s := ({ s with lookups := rest, rbs := s.rbs.set [] l.rb l.data } : PipeSt).setG l.d (if l.hit then 1 else 0)
    let f := fun (d : Dev) =>
      let d := d.countLookup l
      if late then d.bump (Cnt.PIPE_LATE i) else d
    match s.cur with
    | some x => (d.setPipe i s).asPacket x f
    | none => f (d.setPipe i s)

/-! ### POL (R373) -/

/-- Charge a policer for the packet of a pass, at most once for each policer. -/
def pol (d : Dev) (i n : Nat) (s : PipeSt) : Nat × Dev × PipeSt :=
  if 2048 ≤ n then (0, if n = 0xFFFF then d else d.bump (Cnt.PIPE_NO_POLICER i), s)
  else match s.charged.find? (fun x => x.1 == n) with
    | some x => (x.2, d, s)
    | none =>
      let p : Policer := d.tm.policers.get {} n
      let r := police p.aware p.c p.p (s.rw 0x17)
      (r.1, { d with tm := { d.tm with policers := d.tm.policers.put n { p with c := r.2.1, p := r.2.2 } } },
        { s with charged := s.charged ++ [(n, r.1)] })

/-! ### DCMP and CMPR (R376 to R379) -/

/-- The link-layer interface identifiers of a packet (R378): those of the uplink for a packet from the air, and of the
downlink otherwise. -/
def llOf (d : Dev) (x : Packet) (s : PipeSt) : List Byte × List Byte :=
  if srcKind x.src = 0 then
    (match x.llShort with | some a => iidShort a | none => iidEui x.llEui.toNat, iidEui (d.panEui x.pan))
  else (iidEui (d.panEui x.pan), iidShort (s.rw 0x14 % 65536))

/-- DCMP: the status and the pipeline after. With L3 = 2 the spec names no status: it is a free value. -/
def dcmp (d : Dev) (x : Packet) (s : PipeSt) : W32 × Dev × PipeSt :=
  if s.l3 = 0 then (7, d, s)
  else if s.l3 ≠ 1 then ((d.draw 32).1, (d.draw 32).2, s)
  else
    let ll := d.llOf x s
    match unLowpan (d.contextOf x.pan) ll.1 ll.2 s.w with
    | .error e => (BitVec.ofNat 32 e, d, s)
    | .ok (w, hdr) => if 128 < hdr then (4, d, s) else (0, d, { s with w := w, l3 := 0 })

/-- CMPR: the status and the pipeline after. -/
def cmpr (d : Dev) (s : PipeSt) : W32 × PipeSt :=
  if s.l3 = 1 then (7, s)
  else if s.l3 ≠ 0 then (6, s)
  else match packLowpan (d.contexts s.pan) (iidEui (d.panEui s.pan)) (iidShort (s.rw 0x14 % 65536)) s.w with
    | .error e => (BitVec.ofNat 32 e, s)
    | .ok w => (0, { s with w := w, l3 := 1 })

/-! ### FWD (R382 to R384) -/

/-- Blocks of n octets, the last one shorter. -/
def blocksOf (n : Nat) : Nat → List Byte → List (List Byte)
  | 0, _ => []
  | fuel + 1, bs => if bs.isEmpty then [] else bs.take n :: blocksOf n fuel (bs.drop n)

/-- The fragments of a packet (RFC 4944 section 5.3): the first holds the whole header, offsets count the datagram before
compression, and none answers where they cannot hold it. -/
def fragments (limit tag : Nat) (w : List Byte) : Option (List (List Byte)) :=
  let sp := (headerSpan w).getD (0, 0)
  let body := w.drop sp.1
  let size := sp.2 + body.length
  let room := limit - 4 - sp.1
  let cut := (sp.2 + room) % 8
  if 2047 < size ∨ limit < 4 + sp.1 ∨ room < cut then none
  else
    let k := room - cut
    let m := (limit - 5) / 8 * 8
    let rest := blocksOf m (body.length + 1) (body.drop k)
    some ((be 2 (0xC000 + size) ++ be 2 tag ++ w.take (sp.1 + k)) ::
      rest.zipIdx.map (fun b => be 2 (0xE000 + size) ++ be 2 tag ++ be 1 ((sp.2 + k + m * b.2) / 8) ++ b.1))

/-- The carriers and modes in which an instruction of a bank serves a class; `home` and `car` are the home centre and the
carriers' channels and modes as the bank starts. -/
def serversOf (ws : List Nat) (home : Nat) (car : Nat → Nat × Nat) (cls : Nat) : List (Nat × Nat) :=
  let xs := insOf 0 0 0 0 ws
  (List.range 16).flatMap (fun c =>
    let tr := track (carStep home c) xs 0 0 [] [] [car c]
    (xs.zip tr.1).flatMap (fun y =>
      let x := y.1
      if x.car = c ∧ ((x.op = 0x31 ∧ bit (bits x.w 27 20) cls) ∨ (x.op = 0x30 ∧ bits x.w 27 25 = cls)) then
        y.2.map (fun v => (c, v.2))
      else []))

/-- The carriers and modes in which an instruction of the active bank, or of the staged bank of a commit that waits, serves a
class (R243). -/
def servers (d : Dev) (p cls : Nat) : List (Nat × Nat) :=
  serversOf ((d.bankWords p false).map (fun x => x.2)) (d.port p).home
    (fun c => (d.cfg.TXC_FREQ_CHAN_KHZ c, d.cfg.TXC_CFG_MODE c)) cls ++
  (match d.pendingCommit, d.vat.staged with
    | some _, some v => serversOf (v.banks.get [] p) (v.homes.get (0, 0) p).1
        (fun c => let y := v.carriers.getD c (0, 0, 0); (y.2.1, bits y.1 7 0)) cls
    | _, _ => [])

/-- The need of a frame exceeds USABLE_US of its port and class at its enqueue (R243, R308): in every carrier and mode that
serves the class. -/
def longAt (d : Dev) (p cls : Nat) (f : TxFrame) : Bool :=
  let ie := if f.kind = .bulk then 14 else if f.multiHop then 30 else 0
  (d.servers p cls).all (fun x =>
    match modeOf x.2 with
    | none => true
    | some m =>
      let len := dataPsduLen ie f.payload.length (micOctets (d.dlLevel f.pan)) (if modeFcs2 x.2 then 2 else 4)
      decide ((d.seq p).usable.get 0 cls < d.needUs p x.1 m (codedIn m) len (arOf f none)))

/-- Offer the frames of a packet to air queues, one unit for each copy (R390): the copies share what R384 and R309 say. -/
def offerAir (d : Dev) (targets : List (Nat × Nat)) (frames : List TxFrame) (colour : Nat) : Dev × Status :=
  let many : Bool := 1 < targets.length
  let g := d.air.nextGrp
  let d := if many then { d with air := { d.air with nextGrp := g + frames.length } } else d
  let frames := if many then frames.zipIdx.map (fun y => { y.1 with grp := g + y.2 }) else frames
  let r := targets.foldl (fun (acc : Dev × List Status) (t : Nat × Nat) =>
    let d := acc.1
    let u := d.air.nextUid
    let fs := frames.zipIdx.map (fun y => { y.1 with uid := u + y.2, cls := t.2 })
    let d := { d with air := { d.air with nextUid := u + frames.length } }
    let o := d.offer (8 * t.1 + t.2) (fs.map QItem.air) colour (fs.any (fun f => d.longAt t.1 t.2 f))
    (o.1, acc.2 ++ [o.2])) (d, [])
  let n := (r.2.filter (fun s => s == Status.ST_OK)).length
  let d := if many then r.1.each (List.range frames.length) (fun d j => d.setShared (g + j) { copies := n }) else r.1
  (d, if 0 < n then .ST_OK else r.2.headD .ST_DROPPED)

/-- Forward a packet to the air (R383, R384, R309). -/
def fwdAir (d : Dev) (i : Nat) (x : Packet) (s : PipeSt) : Dev × Status :=
  let k := s.pan
  let flags := s.rw 0x13
  let bulk := bit flags 3
  let dst := s.rw 0x14 % 65536
  let mask := s.rw 0x11 % 16
  let cls := s.rw 0x12 % 8
  let node := if bulk then none else d.lkn k dst
  -- The check reads the node table through the table engine, like LKN (R357; DEDUCED, log entry 171).
  let look := fun (d : Dev) => if bulk then d else d.bump Cnt.NODE_LOOKUP
  if d.cfg.PAN_CFG_EN k = 0 ∨ mask = 0 then (d.bump (Cnt.PIPE_FWD_INVALID i), .ST_DROPPED)
  else if s.l3 = 2 then (d.bump (Cnt.PIPE_L3_MISMATCH i), .ST_DROPPED)
  else if ¬ bulk ∧ node.isNone then ((look d).bump (Cnt.PIPE_NO_NODE i), .ST_DROPPED)
  else if 2047 < s.w.length then ((look d).bump (Cnt.PIPE_TOO_BIG i), .ST_DROPPED)
  else
    let d := look d
    let w := if s.l3 = 0 then 0x41#8 :: s.w else s.w
    let ovh := d.cfg.PIPE_PAN_OVERHEAD k
    let limit := max (d.cfg.PIPE_PAN_MAX_PSDU k) (ovh + 16) - ovh
    let parts : Option (List (List Byte)) := if limit < w.length then fragments limit (d.pan k).fragTag w else some [w]
    match parts with
    | none => (d.bump (Cnt.PIPE_TOO_BIG i), .ST_DROPPED)
    | some ps =>
      let d := if limit < w.length then (d.modPan k (fun x => { x with fragTag := (x.fragTag + 1) % 65536 })).bump Cnt.FRAG_SENT else d
      let e : NodeEntry := node.getD {}
      let pw := s.rw 0x15 % 65536
      let f : TxFrame := {
        kind := if bulk then .bulk else .data, pan := k, loc := if bulk then 0xFFFF else e.loc
        dst := if bulk then 0xFFFF else dst, eui := e.eui, ar := bit flags 0 && !bulk, tsReq := bit flags 1 || x.tsReq
        power := if pw = 0x8000 then none else some (sext 16 pw), tag := BitVec.ofNat 32 (s.rw 0x16), cls := cls
        multiHop := !bulk && e.hopDist != 0 }
      let fs := ps.map (fun b => { f with payload := b })
      let colour := s.rw 0x17
      if bulk then
        let ports := (List.range 4).filter (fun p => bit (d.cfg.MESH_BULK_PORT_MASK k) p)
        let c := d.cfg.MESH_BULK_CLASS k
        if ports.isEmpty then ((d.bump Cnt.MESH_BULK_PHASE).logFrame 0 .ST_BULK_PHASE, .ST_BULK_PHASE)
        else d.offerAir (ports.flatMap (fun p => List.replicate (d.cfg.MESH_BULK_REPEAT k + 1) (p, c))) fs colour
      else if bit flags 2 then
        -- The indirect queue takes all fragments or none (R212, R382).
        if 4096 < d.air.indirect.length + fs.length ∨
            4 < (d.air.indirect.filter (fun x => decide (x.pan = k ∧ x.eui = e.eui))).length + fs.length then (d, .ST_INDIRECT_FULL)
        else (fs.foldl (fun d y => (d.offerIndirect y k e.loc e.eui).1) d, .ST_OK)
      else
        let ports := (List.range 4).filter (fun p => bit mask p)
        d.offerAir ((if f.multiHop then ports else ports.take 1).map (fun p => (p, cls))) fs colour

/-- A word of an Ethernet template, with its reset value (PIPE_L2). -/
def l2Word (d : Dev) (n w : Nat) : Nat :=
  d.regInForce (Reg.PIPE_L2 n w) 0

/-- The Ethernet header of a template (R383). -/
def l2Header (d : Dev) (n etherType : Nat) : List Byte :=
  let tag := d.l2Word n 3
  le 4 (d.l2Word n 0) ++ le 4 (d.l2Word n 1) ++ le 4 (d.l2Word n 2) ++
    (if bit tag 31 then be 2 0x8100 ++ be 2 (tag % 65536) else []) ++ be 2 etherType

/-- Forward a packet to an Ethernet port. -/
def fwdEth (d : Dev) (i : Nat) (x : Packet) (s : PipeSt) : Dev × Status :=
  let e := s.rw 0x11
  if 3 < e then (d.bump (Cnt.PIPE_FWD_INVALID i), .ST_DROPPED)
  else if ¬ (s.l3 = 0 ∨ (s.l3 = 2 ∧ srcKind x.src = 1)) then (d.bump (Cnt.PIPE_L3_MISMATCH i), .ST_DROPPED)
  else
    let frame := d.l2Header (s.rw 0x18 % 16) (if s.l3 = 0 then 0x86DD else x.extType) ++ s.w
    d.offer (32 + 8 * e + s.rw 0x12 % 8) [.eth frame (bit (s.rw 0x13) 1 || x.tsReq) (BitVec.ofNat 32 (s.rw 0x16))] (s.rw 0x17) false

/-- Forward a packet to another chip of the system (R383, R492). -/
def fwdShelf (d : Dev) (i : Nat) (x : Packet) (s : PipeSt) : Dev × Status :=
  let chip := s.rw 0x11
  if 1023 < chip ∨ chip = d.elec.chipId ∨ (d.routeTo chip false).isNone then (d.bump (Cnt.PIPE_FWD_INVALID i), .ST_DROPPED)
  else if srcKind x.src = 2 then (d.bump (Cnt.PIPE_QL_TRANSIT i), .ST_DROPPED)
  else if 9712 < s.w.length then (d.bump (Cnt.PIPE_TOO_BIG i), .ST_DROPPED)
  else
    let cls := s.rw 0x12 % 8
    let p : QlPkt := {
      type := 1, dst := chip, src := d.elec.chipId, ttl := 15, cls := cls
      payload := le 1 (s.rw 2) ++ le 1 x.rxFlags ++ le 2 (s.rw 0x14) ++ le 4 x.epoch ++ le 4 (s.rw 0x16) ++ le 4 0 ++ s.w }
    d.offer (d.shelfQueue chip cls) [.ql p] (s.rw 0x17) false

/-- Forward a packet to a host ring (R383, R530). -/
def fwdHost (d : Dev) (i : Nat) (x : Packet) (s : PipeSt) : Dev × Status :=
  let r := s.rw 0x11
  let cls := s.rw 0x12 % 8
  if 15 < r then (d.bump (Cnt.PIPE_FWD_INVALID i), .ST_DROPPED)
  else if d.modes.control = .standAlone then (d.bump (Cnt.HOST_ABSENT_DROP i), .ST_DROPPED)
  else
    let h : HostPkt := {
      kind := 0, srcKind := srcKind x.src, srcIndex := srcIndex x.src, cls := cls
      flags := x.rxFlags % 16 + 16 * ofBool x.record.isSome + 32 * ofBool x.stamp.isSome, epoch := x.epoch, nodeLoc := x.nodeLoc
      tag := BitVec.ofNat 32 (s.rw 0x16), stamp := x.stamp.getD 0, record := match x.record with | some y => y.2 | none => {}
      data := s.w }
    d.offer (72 + 8 * r + cls) [.host h] (s.rw 0x17) false

/-- FWD (R383): OUT_KIND 4 and above drop the packet as DROP does, with no ACT counter. -/
def fwd (d : Dev) (i : Nat) (x : Packet) (s : PipeSt) : Dev :=
  let r : Dev × Status := match s.rw 0x10 with
    | 0 => d.fwdAir i x s
    | 1 => d.fwdEth i x s
    | 2 => d.fwdShelf i x s
    | 3 => d.fwdHost i x s
    | _ => (d, .ST_DROPPED)
  r.1.endPass i r.2

/-- RECIRC and RECIRCP (R375). -/
def recirc (d : Dev) (i prog : Nat) (s : PipeSt) : Dev :=
  let ok : Bool := s.pass == 1 && (match d.progOf s.oldBank prog with
    | some p => !recirculates p.2
    | none => false)
  if ok then
    (s.lookups.foldl countLookup d).setPipe i { s with recirc := true, prog := prog, lookups := [] }
  else (d.bump (Cnt.PIPE_BAD_TARGET i)).endPass i .ST_DROPPED

end Dev

/-! ### Meanings -/

/-- PIPE_WINDOW_START (R360). -/
def execPipeWindowStart (i : Fin 2) (s : State) : Host.Outcome State Fault Refusal := s.run (fun d => d.windowStart i.val)

/-- NOP. -/
def execActNop (i : Fin 2) (s : State) : Host.Outcome State Fault Refusal := s.run (fun d => d.actP i.val (wordA 0 0 0 0 0) (fun t => t))

/-- MOVI. -/
def execActMovi (i : Fin 2) (rd : Fin 16) (imm : BitVec 18) (s : State) : Host.Outcome State Fault Refusal :=
  s.run (fun d => d.actP i.val (wordI 1 rd.val imm.toNat) (fun t => t.setG rd.val (imm.setWidth 32)))

/-- LUI. -/
def execActLui (i : Fin 2) (rd : Fin 16) (imm : BitVec 18) (s : State) : Host.Outcome State Fault Refusal :=
  s.run (fun d => d.actP i.val (wordI 2 rd.val imm.toNat) (fun t =>
    t.setG rd.val ((imm.setWidth 32 <<< 14) ||| (t.g rd.val &&& 0x3FFF))))

/-- ADD. -/
def execActAdd (i : Fin 2) (rd ra rb : Fin 16) (s : State) : Host.Outcome State Fault Refusal :=
  s.run (fun d => d.actP i.val (wordA 3 rd.val ra.val rb.val 0) (fun t => t.setG rd.val (t.g ra.val + t.g rb.val)))

/-- ADDI: AUX is sign-extended. -/
def execActAddi (i : Fin 2) (rd ra : Fin 16) (aux : BitVec 14) (s : State) : Host.Outcome State Fault Refusal :=
  s.run (fun d => d.actP i.val (wordA 4 rd.val ra.val 0 aux.toNat) (fun t => t.setG rd.val (t.g ra.val + aux.signExtend 32)))

/-- SUB. -/
def execActSub (i : Fin 2) (rd ra rb : Fin 16) (s : State) : Host.Outcome State Fault Refusal :=
  s.run (fun d => d.actP i.val (wordA 5 rd.val ra.val rb.val 0) (fun t => t.setG rd.val (t.g ra.val - t.g rb.val)))

/-- AND. -/
def execActAnd (i : Fin 2) (rd ra rb : Fin 16) (s : State) : Host.Outcome State Fault Refusal :=
  s.run (fun d => d.actP i.val (wordA 6 rd.val ra.val rb.val 0) (fun t => t.setG rd.val (t.g ra.val &&& t.g rb.val)))

/-- OR. -/
def execActOr (i : Fin 2) (rd ra rb : Fin 16) (s : State) : Host.Outcome State Fault Refusal :=
  s.run (fun d => d.actP i.val (wordA 7 rd.val ra.val rb.val 0) (fun t => t.setG rd.val (t.g ra.val ||| t.g rb.val)))

/-- XOR. -/
def execActXor (i : Fin 2) (rd ra rb : Fin 16) (s : State) : Host.Outcome State Fault Refusal :=
  s.run (fun d => d.actP i.val (wordA 8 rd.val ra.val rb.val 0) (fun t => t.setG rd.val (t.g ra.val ^^^ t.g rb.val)))

/-- The mask of WM1 + 1 bits. -/
def lowMask (wm1 : Nat) : W32 := BitVec.ofNat 32 (2 ^ (wm1 + 1) - 1)

/-- EXT: bits beyond bit 31 are not there. -/
def execActExt (i : Fin 2) (rd ra : Fin 16) (pos wm1 : Fin 32) (s : State) : Host.Outcome State Fault Refusal :=
  s.run (fun d => d.actP i.val (wordA 9 rd.val ra.val 0 (pos.val * 512 + wm1.val * 16)) (fun t => t.setG rd.val ((t.g ra.val >>> pos.val) &&& lowMask wm1.val)))

/-- INS: bits beyond bit 31 are not there. -/
def execActIns (i : Fin 2) (rd ra : Fin 16) (pos wm1 : Fin 32) (s : State) : Host.Outcome State Fault Refusal :=
  s.run (fun d => d.actP i.val (wordA 10 rd.val ra.val 0 (pos.val * 512 + wm1.val * 16)) (fun t =>
    let m := lowMask wm1.val <<< pos.val
    t.setG rd.val ((t.g rd.val &&& ~~~m) ||| ((t.g ra.val <<< pos.val) &&& m))))

/-- LDM (R367): an index without a field reads a free value. -/
def execActLdm (i : Fin 2) (rd : Fin 16) (field : Byte) (s : State) : Host.Outcome State Fault Refusal :=
  s.run (fun d => d.act i.val (wordA 11 rd.val 0 0 field.toNat) (fun d x t =>
    match t.field x field.toNat with
    | some v => (d, t.setG rd.val (BitVec.ofNat 32 v))
    | none => ((d.draw 32).2, t.setG rd.val (d.draw 32).1)))

/-- STM (R367): a write to an RO field is discarded. -/
def execActStm (i : Fin 2) (ra : Fin 16) (field : Byte) (s : State) : Host.Outcome State Fault Refusal :=
  s.run (fun d => d.actP i.val (wordA 12 0 ra.val 0 field.toNat) (fun t => t.setMd field.toNat (t.g ra.val)))

/-- LDH: the first octet is the most significant. -/
def execActLdh (i : Fin 2) (rd : Fin 16) (off : Fin 128) (wid : Fin 4) (s : State) : Host.Outcome State Fault Refusal :=
  s.run (fun d => d.actP i.val (wordA 13 rd.val 0 0 (off.val * 128 + wid.val * 32)) (fun t =>
    t.setG rd.val (BitVec.ofNat 32 (unbe (t.win off.val (PipeSt.width wid.val))))))

/-- STH: in the same order. -/
def execActSth (i : Fin 2) (ra : Fin 16) (off : Fin 128) (wid : Fin 4) (s : State) : Host.Outcome State Fault Refusal :=
  s.run (fun d => d.actP i.val (wordA 14 0 ra.val 0 (off.val * 128 + wid.val * 32)) (fun t => t.setWin off.val (be (PipeSt.width wid.val) (t.g ra.val).toNat)))

/-- LDR: little-endian, 0 past octet 63. -/
def execActLdr (i : Fin 2) (rd : Fin 16) (rb : Fin 4) (off : Fin 64) (wid : Fin 4) (s : State) :
    Host.Outcome State Fault Refusal :=
  s.run (fun d => d.actP i.val (wordA 15 rd.val 0 0 (rb.val * 4096 + off.val * 64 + wid.val * 16)) (fun t =>
    t.setG rd.val (BitVec.ofNat 32 (fld ((t.rbs.get [] rb.val).take 64) off.val (PipeSt.width wid.val)))))

/-- CNT. -/
def execActCnt (i : Fin 2) (k : Fin 1024) (s : State) : Host.Outcome State Fault Refusal :=
  s.run (fun d => d.act i.val (wordA 16 0 0 0 k.val) (fun d _ t => (d.bump (Cnt.ACT_CNT k.val), t)))

/-- OWNR: 0xFFFF_FFFF when no range covers the address. -/
def execActOwnr (i : Fin 2) (rd ra : Fin 16) (s : State) : Host.Outcome State Fault Refusal :=
  s.run (fun d => d.act i.val (wordA 17 rd.val ra.val 0 0) (fun d _ t =>
    (d, t.setG rd.val (match d.ownerChip t.pan ((t.g ra.val).toNat % 65536) with
      | some c => BitVec.ofNat 32 c
      | none => 0xFFFFFFFF))))

/-- BEQ. -/
def execActBeq (i : Fin 2) (ra rb : Fin 16) (target : Fin 64) (s : State) : Host.Outcome State Fault Refusal :=
  s.run (fun d => d.actBr i.val (wordJ 20 ra.val rb.val 0 target.val) target.val (fun t => t.g ra.val == t.g rb.val))

/-- BNE. -/
def execActBne (i : Fin 2) (ra rb : Fin 16) (target : Fin 64) (s : State) : Host.Outcome State Fault Refusal :=
  s.run (fun d => d.actBr i.val (wordJ 21 ra.val rb.val 0 target.val) target.val (fun t => t.g ra.val != t.g rb.val))

/-- BLTU. -/
def execActBltu (i : Fin 2) (ra rb : Fin 16) (target : Fin 64) (s : State) : Host.Outcome State Fault Refusal :=
  s.run (fun d => d.actBr i.val (wordJ 22 ra.val rb.val 0 target.val) target.val (fun t => decide ((t.g ra.val).toNat < (t.g rb.val).toNat)))

/-- BGEU. -/
def execActBgeu (i : Fin 2) (ra rb : Fin 16) (target : Fin 64) (s : State) : Host.Outcome State Fault Refusal :=
  s.run (fun d => d.actBr i.val (wordJ 23 ra.val rb.val 0 target.val) target.val (fun t => decide ((t.g rb.val).toNat ≤ (t.g ra.val).toNat)))

/-- BEQI. -/
def execActBeqi (i : Fin 2) (ra : Fin 16) (imm : Byte) (target : Fin 64) (s : State) : Host.Outcome State Fault Refusal :=
  s.run (fun d => d.actBr i.val (wordJ 24 ra.val 0 imm.toNat target.val) target.val (fun t => decide ((t.g ra.val).toNat = imm.toNat)))

/-- BNEI. -/
def execActBnei (i : Fin 2) (ra : Fin 16) (imm : Byte) (target : Fin 64) (s : State) : Host.Outcome State Fault Refusal :=
  s.run (fun d => d.actBr i.val (wordJ 25 ra.val 0 imm.toNat target.val) target.val (fun t => decide ((t.g ra.val).toNat ≠ imm.toNat)))

/-- BBS: the bit that IMM8[4:0] names is 1. -/
def execActBbs (i : Fin 2) (ra : Fin 16) (imm : Byte) (target : Fin 64) (s : State) : Host.Outcome State Fault Refusal :=
  s.run (fun d => d.actBr i.val (wordJ 26 ra.val 0 imm.toNat target.val) target.val (fun t => bit (t.g ra.val).toNat (imm.toNat % 32)))

/-- BBC: the bit that IMM8[4:0] names is 0. -/
def execActBbc (i : Fin 2) (ra : Fin 16) (imm : Byte) (target : Fin 64) (s : State) : Host.Outcome State Fault Refusal :=
  s.run (fun d => d.actBr i.val (wordJ 27 ra.val 0 imm.toNat target.val) target.val (fun t => !bit (t.g ra.val).toNat (imm.toNat % 32)))

/-- JMP. -/
def execActJmp (i : Fin 2) (target : Fin 64) (s : State) : Host.Outcome State Fault Refusal :=
  s.run (fun d => d.actBr i.val (wordJ 28 0 0 0 target.val) target.val (fun _ => true))

/-- LKN: A[15:0] on PAN B[1:0]. -/
def execActLkn (i : Fin 2) (rd ra rb : Fin 16) (res : Fin 4) (s : State) : Host.Outcome State Fault Refusal :=
  s.run (fun d => d.lookup i.val (wordA 32 rd.val ra.val rb.val (res.val * 4096)) rd.val res.val 0 (fun d t =>
    (d.lkn ((t.g rb.val).toNat % 4) ((t.g ra.val).toNat % 65536)).map NodeEntry.octets))

/-- LKE: A holds bits [63:32] and B bits [31:0], on the PAN field. -/
def execActLke (i : Fin 2) (rd ra rb : Fin 16) (res : Fin 4) (s : State) : Host.Outcome State Fault Refusal :=
  s.run (fun d => d.lookup i.val (wordA 33 rd.val ra.val rb.val (res.val * 4096)) rd.val res.val 0 (fun d t =>
    (d.lke t.pan (t.g ra.val ++ t.g rb.val)).map NodeEntry.octets))

/-- LKR: A[15:0] on PAN B[1:0]. -/
def execActLkr (i : Fin 2) (rd ra rb : Fin 16) (res : Fin 4) (s : State) : Host.Outcome State Fault Refusal :=
  s.run (fun d => d.lookup i.val (wordA 34 rd.val ra.val rb.val (res.val * 4096)) rd.val res.val 2 (fun d t =>
    (d.validRoute ((t.g rb.val).toNat % 4) ((t.g ra.val).toNat % 65536)).map RouteEntry.octets))

/-- LKP: the destination or source address of the IPv6 header in W; with L3 ≠ 0 it misses without a table access. -/
def execActLkp (i : Fin 2) (rd : Fin 16) (res : Fin 4) (source : Bool) (s : State) : Host.Outcome State Fault Refusal :=
  s.run (fun d => d.lookup i.val (wordA 35 rd.val 0 0 (res.val * 4096 + ofBool source)) rd.val res.val (if (d.pipeSt i.val).l3 = 0 then 1 else 3) (fun d t =>
    if t.l3 = 0 then (d.findPrefix (t.win (if source then 8 else 24) 16)).map PrefixEntry.octets else none))

/-- LOOKUP_RETURN. -/
def execLookupReturn (i : Fin 2) (late : Bool) (s : State) : Host.Outcome State Fault Refusal :=
  s.run (fun d => d.lookupReturn i.val late)

/-- POL. -/
def execActPol (i : Fin 2) (rd ra : Fin 16) (s : State) : Host.Outcome State Fault Refusal :=
  s.run (fun d => d.act i.val (wordA 40 rd.val ra.val 0 0) (fun d _ t =>
    let r := d.pol i.val ((t.g ra.val).toNat % 65536) t
    (r.2.1, r.2.2.setG rd.val (BitVec.ofNat 32 r.1))))

/-- DCMP. -/
def execActDcmp (i : Fin 2) (rd : Fin 16) (s : State) : Host.Outcome State Fault Refusal :=
  s.run (fun d => d.act i.val (wordA 48 rd.val 0 0 0) (fun d x t =>
    let r := d.dcmp x t
    (r.2.1, r.2.2.setG rd.val r.1)))

/-- CMPR. -/
def execActCmpr (i : Fin 2) (rd : Fin 16) (s : State) : Host.Outcome State Fault Refusal :=
  s.run (fun d => d.act i.val (wordA 49 rd.val 0 0 0) (fun d _ t =>
    let r := d.cmpr t
    (d, r.2.setG rd.val r.1)))

/-- FWD. -/
def execActFwd (i : Fin 2) (s : State) : Host.Outcome State Fault Refusal :=
  s.run (fun d => d.actEmit i.val (wordA 56 0 0 0 0) (fun d x t => d.fwd i.val x t))

/-- DROP. -/
def execActDrop (i : Fin 2) (k : Fin 1024) (s : State) : Host.Outcome State Fault Refusal :=
  s.run (fun d => d.actEmit i.val (wordA 57 0 0 0 k.val) (fun d _ _ => (d.bump (Cnt.ACT_CNT k.val)).endPass i.val .ST_DROPPED))

/-- RECIRC. -/
def execActRecirc (i : Fin 2) (prog : Byte) (s : State) : Host.Outcome State Fault Refusal :=
  s.run (fun d => d.actEmit i.val (wordA 58 0 0 0 prog.toNat) (fun d _ t => d.recirc i.val prog.toNat t))

/-- RECIRCP: PROG is octet 0x16 of the prefix entry in the result buffer. -/
def execActRecircp (i : Fin 2) (res : Fin 4) (s : State) : Host.Outcome State Fault Refusal :=
  s.run (fun d => d.actEmit i.val (wordA 59 0 0 0 (res.val * 4096)) (fun d _ t => d.recirc i.val (fld (t.rbs.get [] res.val) 0x16 1) t))

end Sys2Proof.Machine
end

