-- ==== Sys2Proof/Machine/Eth.lean ====
section
/-! DEFINITION. The Ethernet ports (R479 to R490): reception, MACsec, the PTP messages taken before the pipeline (R464), gates
and spans (R484, R487), transmit selection (R486), low-power idle (R483), link changes. -/

namespace Sys2Proof.Machine

/-! ### Gate lists (R484 to R487) -/

/-- Leading time for which a gate stays open; none where it never closes. -/
def openRun (c : Nat) : List (Nat × Nat) → Nat → Option Nat
  | [], _ => none
  | (n, g) :: t, acc => if bit g c then openRun c t (acc + n) else some acc

/-- The intervals from a place in the cycle to that place in the next cycle: an entry cut in two. -/
def turnList : List (Nat × Nat) → Nat → List (Nat × Nat) → List (Nat × Nat)
  | [], _, done => done
  | (n, g) :: t, x, done =>
    if x < n then (n - x, g) :: t ++ done ++ [(x, g)] else turnList t (x - n) (done ++ [(n, g)])

/-- The longest unbroken open run of a gate in a list of intervals. -/
def longestRun (c : Nat) : List (Nat × Nat) → Nat → Nat → Nat
  | [], cur, best => max cur best
  | (n, g) :: t, cur, best => if bit g c then longestRun c t (cur + n) best else longestRun c t 0 (max cur best)

/-- The span of a gate in ns (R487): 0xFFFF_FFFF always open, 0 never open. -/
def spanOf (g : GateList) (c : Nat) : Nat :=
  if g.entries.all (fun e => bit e.2 c) then 0xFFFFFFFF else min 0xFFFFFFFE (8 * longestRun c (g.entries ++ g.entries) 0 0)

namespace Dev

/-- ETH_GATE_BASE. -/
def gateBase (d : Dev) : Nat := d.cfg.ETH_GATE_BASE_LO_BASE_LO + d.cfg.ETH_GATE_BASE_HI_BASE_HI * 2 ^ 32

/-- Place of an instant in a list's cycle, in ns; 0 for a list without a cycle. -/
def gatePhase (d : Dev) (g : GateList) (t : Nat) : Nat :=
  if g.cycle = 0 then 0 else (((t : Int) - (d.gateBase : Int)) % ((8 * g.cycle : Nat) : Int)).toNat

/-- Gates open at an instant: all, for a list without entries. -/
def gatesAtNow (d : Dev) (g : GateList) (t : Nat) : Nat :=
  if g.entries.isEmpty then 0xFF
  else match turnList (g.entries.map (fun e => (8 * e.1, e.2))) (d.gatePhase g t) [] with
    | e :: _ => e.2
    | [] => 0

/-- The first cycle start of a list that follows an instant. -/
def nextCycle (d : Dev) (g : GateList) (t : Nat) : Nat := if g.cycle = 0 then t else t + (8 * g.cycle - d.gatePhase g t)

/-- The ns from now to the close of a gate (R486), none for a gate that never closes. A list that waits takes over at its
first cycle start. -/
def closeIn (d : Dev) (e c : Nat) : Option Nat :=
  let x := d.eth e
  let run := fun (g : GateList) (ph : Nat) =>
    if g.entries.isEmpty then none else openRun c (turnList (g.entries.map (fun e => (8 * e.1, e.2))) ph []) 0
  let old := run x.gates (d.gatePhase x.gates d.now)
  match x.gatesNext with
  | none => old
  | some (g, since) =>
    let w := d.nextCycle g since - d.now
    match old with
    | some n => if n < w then some n else (run g 0).map (fun m => w + m)
    | none => (run g 0).map (fun m => w + m)

/-- GATE_CHANGE (R484): the list that waits starts at its first cycle start; the gates of the interval that holds now apply. -/
def gateChange (d : Dev) (e : Nat) : Dev :=
  d.modEth e (fun x =>
    let due : Bool := match x.gatesNext with
      | some (g, since) => decide (d.nextCycle g since ≤ d.now)
      | none => false
    let x : EthPort := if due then { x with gates := (match x.gatesNext with | some y => y.1 | none => x.gates), gatesNext := none } else x
    { x with open_ := if d.now < x.closedUntil then 0 else d.gatesAtNow x.gates d.now })

/-- The spans of a port at a boundary: of the list in force, and of a list that waits where that is lower (R487). -/
def refreshSpans (d : Dev) : Dev :=
  d.each [0, 1, 2, 3] (fun d e => d.modEth e (fun x =>
    { x with span := (List.range 8).map (fun c =>
        match x.gatesNext with
        | some y => min (spanOf x.gates c) (spanOf y.1 c)
        | none => spanOf x.gates c) }))

/-! ### MACsec (R488 to R490) -/

/-- EtherType of a frame. -/
def etherType (f : List Byte) : Nat := unbe (slice f 12 2)

/-- Protect a frame with an SA: SecTAG with its SCI, GCM-AES-256, ICV. -/
def protect (sa : Sa) (an : Nat) (f : List Byte) : List Byte :=
  let body := f.drop 12
  let hdr := slice f 0 12 ++ be 2 0x88E5 ++ be 1 (0x2C + an) ++ be 1 (if body.length < 48 then body.length else 0) ++
    be 4 sa.pn ++ be 8 sa.sci.toNat
  hdr ++ Config.gcmSeal sa.key (be 8 sa.sci.toNat ++ be 4 sa.pn) hdr body

/-- What the transmit side makes of a frame taken (R489): none where it is discarded. -/
def macsecTx (d : Dev) (e : Nat) (f : List Byte) : Option (List Byte) × Dev :=
  if d.cfg.ETH_MACSEC_TX_EN e ≠ 1 ∨ etherType f = 0x888E then (some f, d)
  else
    let an := d.cfg.ETH_MACSEC_TX_AN e
    match (d.eth e).txSa.find an with
    | none => (none, d.bump (Cnt.ETH_MACSEC_TX_NO_SA e))
    | some sa =>
      if 0xFFFFFFFF < sa.pn then (none, d.bump (Cnt.ETH_MACSEC_PN_EXHAUSTED e))
      else
        let ev : Bool := !sa.evt && decide (0xC0000000 < sa.pn + 1)
        let d := d.modEth e (fun x => { x with txSa := x.txSa.put an { sa with pn := sa.pn + 1, evt := sa.evt || ev } })
        (some (protect sa an f), if ev then d.raise .EVT_MACSEC_PN [] else d)

/-- A frame with a SecTAG taken apart: AN, PN, SCI, SecTAG octets, whether encrypted, secure data, ICV. None for a SecTAG that IEEE
802.1AE-2018 clause 9.12 calls invalid (R488): V set; SC with ES or SCB; the two spare bits beside SL set, or SL 48 and more; PN
0; E and C that differ; a length other than SL gives, but for padding to 60 octets, or fewer than 48 octets of secure data with
SL 0. -/
def secTag (f : List Byte) : Option (Nat × Nat × W64 × Nat × Bool × List Byte × List Byte) :=
  let tci := unbe (slice f 14 1)
  let sl := unbe (slice f 15 1)
  let sc := bit tci 5
  let n := if sc then 16 else 8
  let rest := f.drop (12 + n)
  let len := if sl = 0 then rest.length - 16 else sl
  if bit tci 7 ∨ rest.length < len + 16 ∨ bit tci 3 ≠ bit tci 2 ∨ (sc ∧ (bit tci 6 ∨ bit tci 4)) ∨ 48 ≤ sl ∨
      unbe (slice f 16 4) = 0 ∨ (sl = 0 ∧ len < 48) ∨
      (sl ≠ 0 ∧ rest.length ≠ len + 16 ∧ f.length ≠ 60) then none
  else
    let sci := if sc then unbe (slice f 20 8) else unbe (slice f 6 6) * 65536 + 1
    some (tci % 4, unbe (slice f 16 4), BitVec.ofNat 64 sci, n, bit tci 3, rest.take len, (rest.drop len).take 16)

/-- Verification of a frame with a SecTAG: the frame without it and whether it is a replay, or none on a failure, an unknown SCI
or an AN without an SA. The highest PN accepted is that of frames that are no replay (R490). -/
def macsecOpen (d : Dev) (e : Nat) (f : List Byte) : Option (List Byte × Bool × Dev) :=
  match secTag f with
  | none => none
  | some (an, pn, sci, n, enc, data, icv) =>
    match (d.eth e).rxSci.findIdx? (fun s => s == sci) with
    | none => none
    | some i =>
      match (d.eth e).rxSa.find (4 * i + an) with
      | none => none
      | some sa =>
        let win := d.cfg.ETH_MACSEC_REPLAY_WIN e
        let replay : Bool := d.cfg.ETH_MACSEC_REPLAY_EN e == 1 && (if win = 0 then decide (pn ≤ sa.pn) else decide (pn + win < sa.pn))
        let hdr := slice f 0 (12 + n)
        let iv := be 8 sci.toNat ++ be 4 pn
        let body := if enc then Config.gcmOpen sa.key iv hdr (data ++ icv)
          else (Config.gcmOpen sa.key iv (hdr ++ data) icv).map (fun _ => data)
        body.map (fun b =>
          (slice f 0 12 ++ b, replay, if replay then d
            else d.modEth e (fun x => { x with rxSa := x.rxSa.put (4 * i + an) { sa with pn := max sa.pn pn } })))

/-- The receive side (R490): the frame that goes on, and whether it goes on unverified with its SecTAG. -/
def macsecRx (d : Dev) (e : Nat) (f : List Byte) : Option (List Byte × Bool) × Dev :=
  let mode := d.cfg.ETH_MACSEC_VALIDATE e
  if etherType f ≠ 0x88E5 then
    (if mode < 2 ∨ etherType f = 0x888E then some (f, false) else none, d)
  else if mode = 0 then (some (f, true), d)
  else match d.macsecOpen e f with
    | some (g, replay, d) =>
      if replay then (if mode = 1 then some (g, false) else none, d.bump (Cnt.ETH_MACSEC_RX_DROP e)) else (some (g, false), d)
    | none =>
      let d := d.bump (Cnt.ETH_MACSEC_RX_DROP e)
      if mode = 1 then
        -- Passed with its SecTAG and ICV removed, its secure data as received.
        (match secTag f with
          | some x => some (slice f 0 12 ++ x.2.2.2.2.2.1, false)
          | none => some (slice f 0 12 ++ (f.drop 20).take (f.length - 36), false), d)
      else (none, d)

/-! ### Reception (R481, R464, R367, R368) -/

/-- The PTP message that a frame carries in the configured transport, none where it carries none (R464). -/
def ptpIn (transport : Nat) (et : Nat) (w : List Byte) : Option (List Byte) :=
  let port := fun (u : List Byte) => unbe (slice u 2 2) == 319 || unbe (slice u 2 2) == 320
  match transport with
  | 1 =>
    let h := unbe (slice w 0 1) % 16 * 4
    let u := w.drop h
    if et = 0x0800 ∧ unbe (slice w 9 1) = 17 ∧ port u then some (u.drop 8) else none
  | 2 =>
    let u := w.drop 40
    if et = 0x86DD ∧ unbe (slice w 6 1) = 17 ∧ port u then some (u.drop 8) else none
  | _ => if et = 0x88F7 then some w else none

/-- A PTP message of version 2 with a whole header (IEEE 1588-2019 clause 13). -/
def ptpFormed (m : List Byte) : Bool :=
  decide (34 ≤ m.length) && decide (unbe (slice m 1 1) % 16 = 2) && decide (34 ≤ unbe (slice m 2 2) ∧ unbe (slice m 2 2) ≤ m.length)

/-- A frame without its FCS at the pipeline: header fields, and the source queue of the port. -/
def ethIngress (d : Dev) (e : Nat) (f : List Byte) (raw : Bool) (stamp : Nat) : Dev :=
  let tagged : Bool := !raw && etherType f == 0x8100
  let et := if tagged then unbe (slice f 16 2) else etherType f
  let w := f.drop (if tagged then 18 else 14)
  let pm := if d.ptpOn e then ptpIn d.cfg.PTP_CTL_TRANSPORT et w else none
  let bad : Bool := match pm with | some m => !ptpFormed m | none => false
  let mine : Bool := match pm with | some m => !bad && unbe (slice m 4 1) == d.cfg.PTP_CTL_DOMAIN | none => false
  if mine then
    let m := pm.getD []
    if [0, 1, 2, 3, 8, 9, 10].contains (ptpType m) then
      { d with time := { d.time with ptpIn := d.time.ptpIn ++ [⟨e, stamp, m⟩] } }
    else d.emit .coreReply e m
  else
    let d := if bad then d.violate .VIO_PTP_MSG [] else d
    let x : Packet := {
      src := 4 + e, data := w, l3 := if et = 0x86DD then 0 else 2, extType := if et = 0x86DD then 0 else et
      ethInfo := if tagged then 65536 + unbe (slice f 14 2) else 0, stamp := some stamp }
    (d.bump (Cnt.ETH_RX_FRAMES e)).ingress x

/-- ETH_FRAME_RX (R481): `frame` runs from the destination address through the FCS. -/
def ethRx (d : Dev) (e : Nat) (frame : List Byte) : Dev :=
  if ¬ (d.eth e).link then d
  else
    let body := frame.take (frame.length - 4)
    if frame.length < 4 ∨ frame.drop (frame.length - 4) ≠ le 4 (crc32 body) then d.bump (Cnt.ETH_RX_FCS_ERR e)
    else if frame.length < 64 ∨ clampN 64 9216 (d.cfg.ETH_CFG_MAX_FRAME e) < frame.length then d.bump (Cnt.ETH_RX_SIZE_ERR e)
    else if etherType body = 0x8808 then d.bump (Cnt.ETH_RX_PAUSE e)
    else
      let s := d.rxStamp e
      let r := s.2.macsecRx e body
      match r.1 with
      | some (f, raw) => r.2.ethIngress e f raw s.1
      | none => r.2

/-! ### Transmission (R482, R486, R487, R489, R468) -/

/-- The TX queue of a port. -/
def tq (e c : Nat) : Nat := 32 + 8 * e + c

/-- The head of a TQ. -/
def tqHead (d : Dev) (e c : Nat) : Option (List Byte × Bool × W32) :=
  match (d.queue (tq e c)).head? with
  | some (.eth f t g) => some (f, t, g)
  | _ => none

/-- Frames that no longer fit their span are discarded at the head (R487), and heads hit by an uncorrectable error (R588). The
STATUS of their descriptors was written when they were admitted (R528), so that only the counter shows the discard (DEDUCED, log
entry 191). -/
def dropUnfit (e c : Nat) : Nat → Dev → Dev
  | 0, d => d
  | n + 1, d =>
    match d.queue (tq e c) with
    | i :: rest =>
      if i.isBad then dropUnfit e c n (d.setQueue (tq e c) rest)
      else if d.neverFits (tq e c) i then dropUnfit e c n ((d.setQueue (tq e c) rest).bump (Cnt.ETH_TX_NEVER_FITS e)) else d
    | [] => d

/-- What is left of the wake time of the transmitter: all of it in low-power idle (R483, R486). -/
def wakeNs (d : Dev) (e : Nat) : Nat := if (d.eth e).lpi then d.cfg.ETH_EEE_WAKE_NS e else (d.eth e).wakeUntil - d.now

/-- A head qualifies (R486). -/
def tqFits (d : Dev) (e c : Nat) : Bool :=
  match d.tqHead e c with
  | none => false
  | some (f, _, _) =>
    d.eligible (tq e c) && bit (d.eth e).open_ c &&
      (match d.ethDuration e f, d.closeIn e c with
        | some n, some k => decide (d.wakeNs e + n ≤ k)
        | some _, none => true
        | none, _ => false)

/-- The MAC sends a frame of the given duration, once the transmitter is awake (R483, R489): it is protected or discarded, goes
out with its FCS, and is on the wire with its stamp record, which takes the next number (R468). -/
def macSend (d : Dev) (e : Nat) (f : List Byte) (dur : Nat) (stamp : Option (Nat × W32)) (ptp : Option PtpOut) : Dev :=
  let r := d.macsecTx e (f ++ List.replicate (60 - f.length) 0#8)
  match r.1 with
  | none => r.2
  | some g =>
    let ends := d.now + d.wakeNs e + dur
    let d := ((r.2.modEth e (fun x => { x with lpi := false, busyUntil := ends })).emit .eth e (g ++ le 4 (crc32 g))).bump
      (Cnt.ETH_TX_FRAMES e)
    match stamp with
    | none => d
    | some t =>
      let n := d.takeStampSeq e
      n.2.modEth e (fun x => { x with wire := some ⟨ends, ⟨t.1, t.2, n.1, e, 8⟩, ptp⟩ })

/-- The MAC takes the head of a TQ (R394, R486, R489). -/
def macTake (d : Dev) (e c : Nat) : Dev :=
  match d.tqHead e c with
  | none => d
  | some (f, ts, tag) =>
    let s := if ts then d.txStamp e (d.now + d.wakeNs e) else (0, d)
    ((s.2.setQueue (tq e c) ((s.2.queue (tq e c)).drop 1)).chargeDequeue (tq e c)).macSend e f ((d.ethDuration e f).getD 0)
      (if ts then some (s.1, tag) else none) none

/-! ### PTP messages on their way out (R464, R468) -/

/-- The frame of a PTP message in the configured transport (R464, IEEE 1588-2019 Annexes C to E), without its FCS. The device has
one MAC address (R358) and, as the spec states, no IP address: its source address and what the annexes leave to the sender are
free (PRESUMED, log entry 108). -/
def ptpFrame (d : Dev) (type : Nat) (m : List Byte) : List Byte × Dev :=
  let peer : Bool := type == 2 || type == 3 || type == 10
  let src := be 6 d.otp.baseMac.toNat
  let port := if type < 4 then 319 else 320
  let a := d.draw 64
  let b := a.2.draw 64
  let v := b.1.toNat
  let udp := fun (pl : List Byte) (c : Nat) => be 2 port ++ be 2 port ++ be 2 (8 + pl.length) ++ be 2 c ++ pl
  let sum := fun (c : Nat) => if c = 0 then 65535 else c
  match d.cfg.PTP_CTL_TRANSPORT with
  | 1 =>
    let ips := be 4 a.1.toNat ++ be 4 (if peer then 0xE000006B else 0xE0000181)
    let hdr := fun (c : Nat) => be 1 0x45 ++ be 1 (v % 256) ++ be 2 (28 + m.length) ++ be 2 (v / 256) ++ be 2 0 ++
      be 1 (if peer then 1 else v / 2 ^ 24) ++ be 1 17 ++ be 2 c ++ ips
    let c := csum16 (ips ++ be 2 17 ++ be 2 (8 + m.length) ++ udp m 0)
    (be 6 (if peer then 0x01005E00006B else 0x01005E000181) ++ src ++ be 2 0x0800 ++ hdr (csum16 (hdr 0)) ++ udp m (sum c), b.2)
  | 2 =>
    let pl := m ++ be 2 0
    let ips := be 2 0xFE80 ++ be 6 0 ++ be 8 a.1.toNat ++ be 2 (if peer then 0xFF02 else 0xFF0E) ++ be 12 0 ++
      be 2 (if peer then 0x6B else 0x181)
    let c := csum16 (ips ++ be 4 (8 + pl.length) ++ be 4 17 ++ udp pl 0)
    (be 6 (if peer then 0x33330000006B else 0x333300000181) ++ src ++ be 2 0x86DD ++ be 4 (0x60000000 + v % 2 ^ 28) ++
      be 2 (8 + pl.length) ++ be 1 17 ++ be 1 (v / 2 ^ 32) ++ ips ++ udp pl (sum c), b.2)
  | _ => (be 6 (if peer then 0x0180C200000E else 0x011B19000000) ++ src ++ be 2 0x88F7 ++ m, d)

/-- A message as it goes out with this transmit stamp: a one-step Sync carries it, a one-step Pdelay_Resp its turnaround. -/
def ptpStamped (x : PtpOut) (t : Nat) : PtpOut :=
  match x.type, x.flags with
  | 0, 0 => { x with body := ptpTimeOctets t }
  | 3, 0 => { x with corr := (x.corr + (t - x.rxAt) * 65536) % 2 ^ 64 }
  | _, _ => x

/-- The MAC takes the oldest PTP message that waits; event messages are stamped (R468). -/
def ptpTake (d : Dev) (e : Nat) : Dev :=
  match (d.eth e).ptpOut with
  | [] => d
  | x :: rest =>
    let s := d.txStamp e (d.now + d.wakeNs e)
    let f := s.2.ptpFrame x.type (s.2.ptpMessage e (ptpStamped x s.1))
    (f.2.modEth e (fun y => { y with ptpOut := rest })).macSend e f.1 ((d.ethDuration e f.1).getD 0)
      (if x.type < 4 then some (s.1, 0) else none) (some x)

/-- What waits of PTP goes out where the MAC is idle, ahead of the TQs (DESIGN CHOICE, log entry 193). -/
def ptpKick (d : Dev) (e : Nat) : Dev :=
  let d := d.frameEnd e
  if (d.eth e).link ∧ (d.eth e).busyUntil ≤ d.now then d.ptpTake e else d

/-- Sync on a time-transmitter port, Delay_Req or Pdelay_Req as the delay mechanism requires (R464, R466). logSyncInterval,
−7 to +1, has no register: it is free (log entry 110). -/
def ptpSend (d : Dev) (e : Nat) : Dev :=
  if ¬ d.ptpOn e then d
  else
    let seq := d.time.ptpSeq.get 0 e
    let d := { d with time := { d.time with ptpSeq := d.time.ptpSeq.set 0 e ((seq + 1) % 65536) } }
    let i := d.draw 8
    let d :=
      if e = d.cfg.PTP_CTL_RX_PORT then d
      else i.2.ptpQueue e { type := 0, flags := if d.ptpOneStep e then 0 else 0x0200, seq := seq
                            interval := (i.1.toNat % 9 + 249) % 256, body := List.replicate 10 0#8 }
    let d :=
      if d.ptpP2p e then d.ptpQueue e { type := 2, flags := 0, seq := seq, body := List.replicate 20 0#8 }
      else if e = d.cfg.PTP_CTL_RX_PORT then d.ptpQueue e { type := 1, flags := 0, seq := seq, body := List.replicate 10 0#8 }
      else d
    d.ptpKick e

/-- A measured mean path delay. -/
def setMpd (d : Dev) (v : Int) : Dev := { d with time := { d.time with mpd := some v } }

/-- A request is answered with its correctionField (R464, IEEE 1588-2019 clause 11): a Delay_Req by a Delay_Resp, whose interval
octet is free (log entry 110), a Pdelay_Req by a Pdelay_Resp in one step or two. -/
def ptpAnswer (d : Dev) (m : PtpMsg) : Dev :=
  let e := m.port
  let sq := ptpSeqId m.msg
  let corr := unbe (slice m.msg 8 8)
  if ptpType m.msg = 1 then
    let i := d.draw 8
    i.2.ptpQueue e { type := 9, flags := 0, seq := sq, corr := corr, interval := i.1.toNat
                     body := ptpTimeOctets m.stamp ++ slice m.msg 20 10 }
  else if d.ptpOneStep e then
    d.ptpQueue e { type := 3, flags := 0, seq := sq, corr := corr, body := be 10 0 ++ slice m.msg 20 10, rxAt := m.stamp }
  else
    d.ptpQueue e { type := 3, flags := 0x0200, seq := sq, fuCorr := corr, body := ptpTimeOctets m.stamp ++ slice m.msg 20 10 }

/-- A response to this port gives the mean path delay (R465); a two-step Pdelay_Resp waits for its follow-up. -/
def ptpResponse (d : Dev) (m : PtpMsg) : Dev :=
  let e := m.port
  let sq := ptpSeqId m.msg
  if e ≠ d.cfg.PTP_CTL_RX_PORT ∨ ¬ d.ptpForUs e m.msg then d
  else match ptpType m.msg with
    | 9 =>
      (match d.time.syncT, d.time.reqT.find e with
      | some (t1, t2), some t3 =>
        if d.time.reqSeq.find e = some sq ∧ ¬ d.ptpP2p e then
          d.setMpd (((t2 - t1) + (ptpTime m.msg 34 - (t3 : Int) - ptpCorr m.msg)) / 2)
        else d
      | _, _ => d)
    | 3 =>
      (match d.time.reqT.find e with
      | some t1 =>
        if d.time.reqSeq.find e ≠ some sq then d
        else if ptpTwoStep m.msg then
          { d with time := { d.time with
              pdResp := some (sq, (t1 : Int), ptpTime m.msg 34, (m.stamp : Int) - ptpCorr m.msg) } }
        else d.setMpd (((m.stamp : Int) - (t1 : Int) - ptpCorr m.msg) / 2)
      | none => d)
    | _ =>
      match d.time.pdResp with
      | some (q, t1, t2, t4) =>
        if q = sq then
          ({ d with time := { d.time with pdResp := none } }).setMpd
            ((t4 - t1 - (ptpTime m.msg 34 - t2) - ptpCorr m.msg) / 2)
        else d
      | none => d

/-- The first delay or peer-delay message that waits is taken (R464, R465): requests are answered, responses give the mean
path delay. -/
def delayRx (d : Dev) : Dev :=
  match d.time.ptpIn.find? (fun m => [1, 2, 3, 9, 10].contains (ptpType m.msg)) with
  | none => d
  | some m =>
    let d := { d with time := { d.time with ptpIn := d.time.ptpIn.erase m } }
    let e := m.port
    match ptpType m.msg with
    | 1 => if e = d.cfg.PTP_CTL_RX_PORT then d else (d.ptpAnswer m).ptpKick e
    | 2 => if d.ptpP2p e then (d.ptpAnswer m).ptpKick e else d
    | _ => (d.frameEnd e).ptpResponse m

/-! ### The MAC -/

/-- A transmitter in low-power idle leaves it for a frame that is eligible and does not qualify yet (R483). -/
def lpiExit (d : Dev) (e : Nat) : Dev :=
  if (d.eth e).lpi ∧ (List.range 8).any (fun c => (d.tqHead e c).isSome && d.eligible (tq e c)) = true then
    d.modEth e (fun x => { x with lpi := false, wakeUntil := d.now + d.cfg.ETH_EEE_WAKE_NS e })
  else d

/-- ETH_TX_TAKE (R482, R486). -/
def ethTake (d : Dev) (e : Nat) : Dev :=
  let cs := (List.range 8).map (fun c => 7 - c)
  let d := d.frameEnd e
  if (d.eth e).link then
    let d := d.each cs (fun d c => dropUnfit e c (d.queue (tq e c)).length d)
    if d.now < (d.eth e).busyUntil then d
    else if ¬ (d.eth e).ptpOut.isEmpty then d.ptpTake e
    else match cs.find? (fun c => d.tqFits e c) with
      | some c => d.macTake e c
      | none => d.lpiExit e
  else if d.cfg.ETH_CFG_FLUSH_DOWN e = 1 then
    match cs.find? (fun c => d.eligible (tq e c)) with
    | some c => ((d.setQueue (tq e c) ((d.queue (tq e c)).drop 1)).chargeDequeue (tq e c)).bump (Cnt.ETH_TX_FLUSH_DOWN e)
    | none => d
  else d

/-- EEE_LPI_ENTRY (R483): the eight TQs have been empty, and no PTP message has waited, for IDLE_US. -/
def lpiEntry (d : Dev) (e : Nat) : Dev :=
  let x := d.eth e
  if x.link && !x.lpi && decide (d.cfg.ETH_CFG_EEE e = 1 ∧ x.rate ≠ 2 ∧ x.busyUntil ≤ d.now) && x.ptpOut.isEmpty &&
      (List.range 8).all (fun c => (d.queue (tq e c)).isEmpty) then
    (d.modEth e (fun y => { y with lpi := true })).bump (Cnt.ETH_LPI_ENTRY e)
  else d

/-- The port can run at a rate: it is in use in a mode of R480 that gives the rate. -/
def rateFits (d : Dev) (e rate : Nat) : Bool :=
  d.cfg.ETH_CFG_EN e == 1 && (match d.cfg.ETH_CFG_SPEED e with
    | 0 => rate == 0
    | 1 => rate == 1
    | 2 => rate == 2
    | 3 => rate == 3
    | 4 => decide (3 ≤ rate ∧ rate ≤ 5)
    | _ => false)

/-- The link of a port takes a state, with EVT_ETH_LINK on a change (R482). -/
def setLink (d : Dev) (e : Nat) (up : Bool) (rate : Nat) : Dev :=
  let x := d.eth e
  if x.link = up ∧ x.rate = rate then d
  else (d.modEth e (fun y => { y with link := up, rate := rate, lpi := false, ptpOut := if up then y.ptpOut else [] })).raise .EVT_ETH_LINK (le 1 e ++ le 1 rate)

/-- ETH_LINK_CHANGE (R480, R482): a partner in half duplex leaves the link down, logged on a port in use (R39). -/
def ethLink (d : Dev) (e : Nat) (up : Bool) (rate : Nat) (half : Bool) : Dev :=
  if up ∧ half ∧ d.cfg.ETH_CFG_EN e = 1 then (d.violate .VIO_ETH_HALF_DUPLEX []).setLink e false 7
  else if up ∧ d.rateFits e rate then d.setLink e true rate
  else d.setLink e false 7

end Dev

/-! ### Meanings -/

/-- ETH_FRAME_RX (R481). -/
def execEthFrameRx (e : Fin 4) (frame : List Byte) (s : State) : Host.Outcome State Fault Refusal :=
  s.run (fun d => d.ethRx e.val frame)

/-- ETH_LINK_CHANGE (R482). -/
def execEthLinkChange (e : Fin 4) (up : Bool) (rate : Fin 6) (half : Bool) (s : State) : Host.Outcome State Fault Refusal :=
  s.run (fun d => d.ethLink e.val up rate.val half)

/-- ETH_TX_TAKE (R486). -/
def execEthTxTake (e : Fin 4) (s : State) : Host.Outcome State Fault Refusal := s.run (fun d => d.ethTake e.val)

/-- GATE_CHANGE (R484). -/
def execGateChange (e : Fin 4) (s : State) : Host.Outcome State Fault Refusal := s.run (fun d => d.gateChange e.val)

/-- EEE_LPI_ENTRY (R483). -/
def execEeeLpiEntry (e : Fin 4) (s : State) : Host.Outcome State Fault Refusal := s.run (fun d => d.lpiEntry e.val)

/-- PTP_DELAY_MSG_RX (R464, R465). -/
def execPtpDelayMsgRx (s : State) : Host.Outcome State Fault Refusal :=
  s.run (fun d => d.delayRx)

/-- PTP_MESSAGE_SEND (R464, R466). -/
def execPtpMessageSend (e : Fin 4) (s : State) : Host.Outcome State Fault Refusal :=
  s.run (fun d => d.ptpSend e.val)

end Sys2Proof.Machine
end

