-- ==== Sys2Proof/Machine/QlLink.lean ====
section
/-! DEFINITION. QZ-Link and MIR as links (R491 to R501, R551): frames, acknowledgement and resending, credits, levels, the
transmit scheduler (R391), ANNOUNCE and root following. Port 6 is MIR. A word sent is an output of 3 octets, a frame an
output of its octets with the CRC. -/

namespace Sys2Proof.Machine

/-- A frame's octets with its CRC (R492). -/
def QlFrame.octets (f : QlFrame) (sq : Nat) : List Byte :=
  let b := le 1 f.type ++ le 1 f.cls ++ le 2 f.dst ++ le 2 f.src ++ le 2 f.payload.length ++ le 2 sq ++ le 1 f.ttl ++ le 5 0 ++ f.payload
  b ++ le 4 (crc32 b)

/-- Credits of a frame (R495): header, payload and CRC in units of 256 octets. -/
def QlFrame.units (f : QlFrame) : Nat := ceilDiv (f.payload.length + 20) 256

/-- Data rate of a level in octets per 100 µs (R496). -/
def levelOctets (l : Nat) : Nat := if l = 0 then 125000 else if l = 1 then 312500 else 625000

/-! ### Line coding (R491)

What the lanes carry below frames and words: 66-bit blocks of IEEE 802.3-2022 clause 49. A block is its 2-bit header, 1 for data
and 2 for control, and 8 octets. The commands of the model carry frames and words (log entry 194). -/

/-- The ordered-set block of a link word: type 0x4B, D1 to D3, O code 0xA, four idle characters. -/
def wordBlock (d1 v : Nat) : Nat × List Byte := (2, le 1 0x4B ++ le 1 d1 ++ le 2 v ++ le 1 0x0A ++ le 3 0)

/-- The type octet of a terminate block with k data octets. -/
def termType (k : Nat) : Nat := [0x87, 0x99, 0xAA, 0xB4, 0xCC, 0xD2, 0xE1, 0xFF].getD k 0xFF

/-- The blocks of a frame's octets: a start block with the first seven, data blocks, a terminate block with the rest. -/
def frameBlocks (bs : List Byte) : List (Nat × List Byte) :=
  let rest := bs.drop 7
  let n := rest.length / 8
  [(2, le 1 0x78 ++ slice bs 0 7)] ++ (List.range n).map (fun i => (1, slice rest (8 * i) 8)) ++
    [(2, le 1 (termType (rest.length % 8)) ++ slice (rest.drop (8 * n)) 0 7)]

/-- The scrambler of clause 49 on payload bits, least significant first: x^58 + x^39 + 1, from a state of 58 bits. -/
def scramble : List Bool → Nat → List Bool × Nat
  | [], s => ([], s)
  | b :: t, s =>
    let y := b != (bit s 38 != bit s 57)
    let r := scramble t (s * 2 % 2 ^ 58 + ofBool y)
    (y :: r.1, r.2)

/-- Blocks dealt to lanes 0 and 1 in turn, an alignment block at the same place in both every 16,384 blocks of a lane. -/
def dealLanes (align : Nat × List Byte) (blocks : List (Nat × List Byte)) (lane : Nat) : List (Nat × List Byte) :=
  let own := (blocks.zipIdx.filter (fun x => x.2 % 2 == lane)).map (fun x => x.1)
  own.zipIdx.flatMap (fun x => if x.2 % 16383 = 0 then [align, x.1] else [x.1])

namespace Dev

/-- The link carries frames and words: not while it steps between L1 and L0 (R497). -/
def carries (x : QlPort) : Bool :=
  x.up && (match x.stepping with | some t => x.level != 0 && t != 0 | none => true)

/-- A link word goes out (R491). -/
def sendWord (d : Dev) (q d1 v : Nat) : Dev := d.emit (if q = 6 then .mir else .ql) q (le 1 d1 ++ le 2 v)

/-- A frame goes out. -/
def sendFrame (d : Dev) (q : Nat) (f : QlFrame) (sq : Nat) : Dev := d.emit (if q = 6 then .mir else .ql) q (f.octets sq)

/-- Advance a counter of a QZ-Link port; MIR has none. -/
def bumpQl (d : Dev) (q : Nat) (c : Nat → Counter) (n : Nat := 1) : Dev := if q < 6 then d.bump (c q) n else d

/-- The roots that are current now (R499). -/
def currentRoots (d : Dev) : List (Nat × RootInfo) := d.links.roots.filter (fun r => decide (d.up < r.2.last + 300000000))

/-- The port kept for a root: the lowest HOPS heard within 300 ms, ties to the lower port. -/
def keptPort (d : Dev) (r : RootInfo) : Option (Nat × Nat) :=
  r.hops.foldl (fun (acc : Option (Nat × Nat)) (h : Nat × (Nat × Nat)) =>
    if h.2.2 + 300000000 ≤ d.up then acc
    else match acc with | some a => if h.2.1 < a.2 then some (h.1, h.2.1) else acc | none => some (h.1, h.2.1)) none

/-- Follow the current root with the lowest ROOT_CHIP; a root follows none. -/
def follow (d : Dev) : Dev :=
  let best := if d.links.isRoot then none else d.currentRoots.head?
  match best with
  | some (c, r) => match d.keptPort r with
    | some (p, h) => { d with links := { d.links with followed := some c, rootPort := p, rootHops := h } }
    | none => { d with links := { d.links with followed := some c, rootPort := 7, rootHops := 0xFF } }
  | none => { d with links := { d.links with followed := none, rootPort := 7, rootHops := 0xFF } }

/-- Whether the device is a shelf root, and whom it follows (R499). -/
def refreshRoot (d : Dev) : Dev :=
  let root : Bool := d.modes.control == .hosted && (List.range 6).any (fun q => (d.qlp q).up)
  ({ d with links := { d.links with isRoot := root } }).follow

/-! ### MIR frames (R551, R552) -/

/-- A MIR frame waits for the link: fragments in class 0, everything else in class 7. The partner's chip ID is open until a
frame of it has been received. -/
def queueMir (d : Dev) (type : Nat) (payload : List Byte) : Dev :=
  let dst : Nat × Dev := if d.pair.partnerKnown then (d.pair.partnerChip, d) else ((d.draw 10).1.toNat, (d.draw 10).2)
  let f : QlFrame := { type := type, cls := if type = 0x10 then 0 else 7, dst := dst.1, src := d.elec.chipId, ttl := 1
                       payload := payload }
  dst.2.modQl 6 (fun x => { x with ctrl := x.ctrl ++ [f] })

/-- The fragments of a record, in order (R552). -/
def sendRecord (d : Dev) (r : TxRec) : Dev :=
  let bs := blocksOf 4080 (r.octets.length / 4080 + 1) r.octets
  bs.zipIdx.foldl (fun (d : Dev) b => d.queueMir 0x10 (le 6 r.epoch ++ le 1 r.kind ++ le 1 0 ++ le 8 (4080 * b.2) ++ b.1)) d

/-! ### Acknowledgement and resending (R493, R494) -/

/-- Resend every unacknowledged frame in order, while the link carries anything (R497); the eighth resend without progress is the last before the link goes down. -/
def resend (d : Dev) (q : Nat) : Dev :=
  let x := d.qlp q
  if x.unacked.isEmpty ∨ 8 ≤ x.resends ∨ ¬ carries x then d
  else
    let d := (d.modQl q (fun x => { x with resends := x.resends + 1 })).bumpQl q Cnt.QL_REPLAY
    let d := if q = 6 then { d with pair := { d.pair with ochre := { d.pair.ochre with mirNow := d.pair.ochre.mirNow + 1 } } } else d
    x.unacked.foldl (fun (d : Dev) y => d.sendFrame q y.2 y.1) d

/-- An ACK frees the frames up to the SEQ it names. -/
def qlAckRx (d : Dev) (q val : Nat) : Dev :=
  let sq := val % 4096
  d.modQl q (fun x =>
    if x.unacked.any (fun y => y.1 == sq) then
      { x with unacked := (x.unacked.dropWhile (fun y => y.1 != sq)).drop 1, resends := 0 }
    else x)

/-- A NAK makes the sender resend. -/
def nakRx (d : Dev) (q : Nat) : Dev := d.resend q

/-- CREDIT (R495): bits [15:13] name the class. A wait ends once the credits suffice for the frame that waits; one of more than
20 µs counts for R496. -/
def creditRx (d : Dev) (q val : Nat) : Dev :=
  let c := bits val 15 13
  d.modQl q (fun x =>
    let n := x.credits.get 128 c + val % 8192
    let late : Bool := match x.waitSince.find c with | some t => decide (t + 20000 < d.up + 1) | none => false
    let x := { x with credits := x.credits.set 128 c n, creditWait := x.creditWait || late }
    if n < x.waitNeed.get 0 c then x else { x with waitSince := x.waitSince.del c, waitNeed := x.waitNeed.del c })

/-- A frame has left the receive buffer: its credits go back (R495), at once or when the link carries words again (R497). -/
def returnCredits (d : Dev) (q : Nat) (f : QlFrame) : Dev :=
  if carries (d.qlp q) then d.sendWord q 3 (f.cls % 8 * 8192 + f.units)
  else d.modQl q (fun x => { x with credDue := x.credDue.upd 0 f.cls (fun n => n + f.units) })

/-- A transit frame leaves the receive buffer that holds it. -/
def leaveBuffer (d : Dev) (f : QlFrame) : Dev :=
  match f.rx with
  | none => d
  | some q => (d.modQl q (fun x => { x with rxUsed := x.rxUsed.upd 0 f.cls (fun n => n - f.units) })).returnCredits q f

/-! ### Levels (R496, R497) -/

/-- Highest and lowest level; lane 1 that failed leaves L1 as the highest. -/
def maxLevel (d : Dev) (q : Nat) : Nat := if (d.qlp q).lane1Fail then min 1 (d.cfg.QL_CFG_MAX_LEVEL q) else min 2 (d.cfg.QL_CFG_MAX_LEVEL q)
def minLevel (d : Dev) (q : Nat) : Nat := min (d.cfg.QL_CFG_MIN_LEVEL q) (d.maxLevel q)

/-- The level that both requests give; a step goes to the next level. The partner's MIN_LEVEL and MAX_LEVEL are known only through
its requests, which keep to them (DEDUCED, log entry 195). -/
def levelStep (d : Dev) (q : Nat) : Dev :=
  let x := d.qlp q
  let want := clampN (d.minLevel q) (d.maxLevel q) (max x.reqOwn x.reqPeer)
  if ¬ x.up ∨ x.stepping.isSome ∨ want = x.level then d
  else (d.modQl q (fun x => { x with stepping := some (if x.level < want then x.level + 1 else x.level - 1) })).bump (Cnt.QL_STEPS q)

/-- The end of a 100 µs window: the end's own request, sent in every window. -/
def levelWindow (d : Dev) (q : Nat) : Dev :=
  let x := d.qlp q
  if ¬ x.up then d
  else
    let upPct := min 100 (d.cfg.QL_CFG_UP_PCT q)
    let downPct := min upPct (d.cfg.QL_CFG_DOWN_PCT q)
    let busy : Bool := decide (upPct * levelOctets x.level < 100 * x.winOctets)
    let waits : Bool := x.creditWait || x.waitSince.any (fun y => decide (y.2 + 20000 < d.up + 1))
    let quiet : Bool := decide (0 < x.level ∧ 100 * x.winOctets < downPct * levelOctets (x.level - 1))
    let low := if quiet then x.low + 1 else 0
    let want := if busy || (waits && x.sinceDown.isNone) then x.level + 1
      else if max 1 (d.cfg.QL_CFG_DOWN_WIN q) ≤ low then x.level - 1 else x.level
    let since := match x.sinceDown with | some n => if 9 ≤ n then none else some (n + 1) | none => none
    let d := d.modQl q (fun x => { x with
      reqOwn := clampN (d.minLevel q) (d.maxLevel q) want, low := low, winOctets := 0, creditWait := false, sinceDown := since })
    (if carries (d.qlp q) then d.sendWord q 4 (d.qlp q).reqOwn else d).levelStep q

/-- LEVEL from the partner. -/
def levelRx (d : Dev) (q val : Nat) : Dev := (d.modQl q (fun x => { x with reqPeer := min 2 (val % 4) })).levelStep q

/-- Lane 1 has failed to train or to wake (R497). -/
def laneFail (d : Dev) (q : Nat) : Dev :=
  if (d.qlp q).lane1Fail then d
  else (d.modQl q (fun x => { x with lane1Fail := true })).raise .EVT_QL_DEGRADED []

/-- A step completes. -/
def stepDone (d : Dev) (q : Nat) (lane1 : Bool) : Dev :=
  let x := d.qlp q
  match x.stepping with
  | none => d
  | some t =>
    let due := x.credDue
    let d := d.modQl q (fun x => { x with stepping := none, low := 0, winOctets := 0, credDue := [] })
    let d := due.foldl (fun (d : Dev) (y : Nat × Nat) => d.sendWord q 3 (y.1 % 8 * 8192 + y.2)) d
    if t = 2 ∧ ¬ lane1 then d.laneFail q
    else d.modQl q (fun x => { x with level := t, sinceDown := if t < x.level then some 0 else none })

/-! ### The transmit scheduler (R391, R493, R495) -/

/-- The shelf queues of a class: the class queue and the chip queues. -/
def shelfQueues (d : Dev) (c : Nat) : List Nat :=
  (64 + c) :: (d.tm.recs.filter (fun x => decide (200 ≤ x.1 ∧ x.2.kind = 2 ∧ x.2.cls = c))).map (fun x => x.1)

/-- The head of a shelf queue. -/
def shelfHead (d : Dev) (n : Nat) : Option QlPkt := match (d.queue n).head? with | some (.ql p) => some p | _ => none

/-- Heads without a port, or whose port is down, are dropped (R501), and heads hit by an uncorrectable error (R588). -/
def dropUnrouted (n : Nat) : Nat → Dev → Dev
  | 0, d => d
  | k + 1, d =>
    match d.shelfHead n with
    | none => if (match (d.queue n).head? with | some i => i.isBad | none => false) then dropUnrouted n k (d.setQueue n ((d.queue n).drop 1)) else d
    | some p =>
      match d.routeTo p.dst (p.type == 3) with
      | none => dropUnrouted n k ((d.setQueue n ((d.queue n).drop 1)).bump (Cnt.QL_NO_ROUTE 0))
      | some q => if (d.qlp q).up then d else dropUnrouted n k ((d.setQueue n ((d.queue n).drop 1)).bump (Cnt.QL_NO_ROUTE q))

/-- The shelf queue of a class that port q serves next (R391): each port keeps its own turn, WEIGHT packets of a queue. -/
def nextShelf (d : Dev) (q c : Nat) : Option (Nat × Nat) :=
  let qs := d.shelfQueues c
  let ok := fun n => d.eligibleAt (8 + q) n && (match d.shelfHead n with | some p => d.routeTo p.dst (p.type == 3) == some q | none => false)
  let last := d.tm.rr.get (64 + c, 0) (8 * q + c)
  if ok last.1 ∧ 0 < last.2 ∧ last.2 < max 1 (d.qrec last.1).weight ∧ qs.contains last.1 then some (last.1, last.2 + 1)
  else
    let later := qs.filter (fun n => decide (last.1 < n))
    let order := later ++ qs.filter (fun n => decide (n ≤ last.1))
    (order.find? ok).map (fun n => (n, 1))

/-- The next frame of a class for a port: a transit frame first (R501), then the device's own, with the state that takes it. -/
def classNext (d : Dev) (q c : Nat) : Option (QlFrame × Dev) :=
  match (d.qlp q).transit.get [] c with
  | f :: rest =>
    some ({ f with rx := none }, (d.modQl q (fun x => { x with transit := x.transit.set [] c rest })).leaveBuffer f)
  | [] =>
    match d.nextShelf q c with
    | none => none
    | some (n, k) =>
      (d.shelfHead n).map (fun p =>
        ({ type := p.type, cls := p.cls, dst := p.dst, src := p.src, ttl := p.ttl, payload := p.payload },
          let d := (d.setQueue n ((d.queue n).drop 1)).chargeAt (8 + q) n
          { d with tm := { d.tm with rr := d.tm.rr.put (8 * q + c) (n, k) } }))

/-- The next frame of MIR of a class (R551). -/
def mirNext (c : Nat) (d : Dev) : Option (QlFrame × Dev) :=
  let l := (d.qlp 6).ctrl
  match l.findIdx? (fun f => f.cls == c) with
  | some i => (l[i]?).map (fun f => (f, d.modQl 6 (fun x => { x with ctrl := x.ctrl.eraseIdx i })))
  | none => none

/-- A frame is sent for the first time (R493). -/
def transmit (d : Dev) (q : Nat) (f : QlFrame) : Dev :=
  let sq := (d.qlp q).txSeq
  let d := d.modQl q (fun x => { x with
    txSeq := (sq + 1) % 4096, unacked := x.unacked ++ [(sq, f)], winOctets := x.winOctets + f.payload.length + 20
    credits := x.credits.set 128 f.cls (x.credits.get 128 f.cls - f.units), waitSince := x.waitSince.del f.cls
    waitNeed := x.waitNeed.del f.cls })
  (d.bumpQl q Cnt.QL_TX_FRAMES).sendFrame q f sq

/-- Try the classes in order: one without credits waits, and the next is tried (R495). -/
def tryClasses (q : Nat) : List (Dev → Option (QlFrame × Dev)) → Dev → Dev
  | [], d => d
  | g :: gs, d =>
    match g d with
    | none => tryClasses q gs d
    | some (f, d1) =>
      if f.units ≤ (d.qlp q).credits.get 128 f.cls then d1.transmit q f
      else tryClasses q gs (d.modQl q (fun x =>
        { x with
          waitSince := if (x.waitSince.find f.cls).isSome then x.waitSince else x.waitSince.put f.cls (d.up + 1)
          waitNeed := x.waitNeed.put f.cls f.units }))

/-- QL_TX_SCHEDULE. -/
def schedule (d : Dev) (q : Nat) : Dev :=
  let x := d.qlp q
  if ¬ carries x ∨ 2048 ≤ x.unacked.length then d
  else if q = 6 then tryClasses 6 [mirNext 7, mirNext 0] d
  else
    let cs := (List.range 8).map (fun c => 7 - c)
    let d := d.each cs (fun d c => d.each (d.shelfQueues c) (fun d n => dropUnrouted n (d.queue n).length d))
    tryClasses q (cs.map (fun c => fun (d : Dev) => d.classNext q c)) d

/-! ### Link state (R494) -/

/-- EVT_QL_LINK. -/
def linkEvent (d : Dev) : Dev := (d.raise .EVT_QL_LINK []).refreshRoot

/-- Frames that came in on a link which is gone hold none of its credits any more. -/
def forgetRx (d : Dev) (q : Nat) : Dev :=
  d.each (List.range 6) (fun d p => d.modQl p (fun x => { x with
    transit := x.transit.mapAll [] (fun _ l => l.map (fun f => if f.rx = some q then { f with rx := none } else f)) }))

/-- QL_LINK_DOWN: held frames are lost, waiting transit frames have a port that is down. -/
def linkDown (d : Dev) (q : Nat) : Dev :=
  let x := d.qlp q
  if ¬ x.up then d
  else
    let d := d.bumpQl q Cnt.QL_LOST x.unacked.length
    let n := x.transit.foldl (fun n (y : Nat × List QlFrame) => n + y.2.length) 0
    let d := if n = 0 then d else d.bumpQl q Cnt.QL_NO_ROUTE n
    let d := (x.transit.flatMap (fun (y : Nat × List QlFrame) => y.2)).foldl (fun (d : Dev) f => d.leaveBuffer f) d
    let d := d.forgetRx q
    ((d.modQl q (fun x => { x with
      up := false, level := 0, stepping := none, unacked := [], resends := 0, transit := [], ctrl := [], ackDue := false
      waitSince := [], waitNeed := [], creditWait := false, rxUsed := [], credDue := [] })).bumpQl q Cnt.QL_RETRAIN).linkEvent

/-- The port is in use: QL_CFG_n.EN, or pairing allowed for MIR (R577). -/
def linkWanted (d : Dev) (q : Nat) : Bool := if q = 6 then d.pair.allow else d.cfg.QL_CFG_EN q == 1

/-- QL_LINK_UP: training completes at L0, SEQ numbers and credits start afresh, and an Active device resends its
unacknowledged records (R561). -/
def linkUp (d : Dev) (q : Nat) (lane1 : Bool) : Dev :=
  if (d.qlp q).up ∨ ¬ d.linkWanted q then d
  else
    let d := d.modQl q (fun _ => { up := true })
    let d := if lane1 then d else d.laneFail q
    let d := d.linkEvent
    if q = 6 ∧ d.modes.redund = .active then
      d.pair.unacked.foldl (fun (d : Dev) r => (d.sendRecord r).bump Cnt.RECORD_RESEND) d
    else d

/-! ### ANNOUNCE (R498 to R500) -/

/-- An ANNOUNCE frame. DST_CHIP is ROOT_CHIP in a root's and the followed root in a member's: it tells them apart
(assumption log). -/
def announceFrame (dst src root hops : Nat) : QlFrame :=
  { type := 4, cls := hostClass, dst := dst, src := src, ttl := 15, payload := le 2 root ++ le 1 hops ++ le 5 0 }

/-- Send a frame on every port of a list that is up. -/
def announceOn (d : Dev) (qs : List Nat) (f : QlFrame) : Dev := d.each qs (fun d q => if (d.qlp q).up then d.queueQl q f else d)

/-- ANNOUNCE of a root on port q. -/
def rootAnnounce (d : Dev) (q : Nat) (f : QlFrame) : Dev :=
  let r := fld f.payload 0 2 % 1024
  let h := fld f.payload 2 1
  let d := if d.links.isRoot then d.violate .VIO_QL_TWO_ROOTS [] else d
  if 63 ≤ h then d
  else
    let i := d.links.roots.get {} r
    let i : RootInfo := { last := d.up, hops := i.hops.put q (h, d.up) }
    let d := ({ d with links := { d.links with roots := d.links.roots.put r i } }).follow
    let d := if d.modes.decided then d else { d with modes := { d.modes with rootHeard := true } }
    match d.keptPort i with
    | some (p, _) =>
      if p = q then d.announceOn ((List.range 6).filter (fun y => y != q)) (announceFrame f.dst f.src r (h + 1)) else d
    | none => d

/-- ANNOUNCE of a member on port q (R500). -/
def memberAnnounce (d : Dev) (q : Nat) (f : QlFrame) : Dev :=
  let d := { d with links := { d.links with learned := d.links.learned.put f.src q } }
  if d.links.isRoot ∨ 6 ≤ d.links.rootPort ∨ d.links.rootPort = q then d else d.announceOn [d.links.rootPort] f

/-- ANNOUNCE_RX: the oldest ANNOUNCE received is taken. A root hears its own ANNOUNCE come round with HOPS above 0. -/
def announceRx (d : Dev) : Dev :=
  match d.links.annIn with
  | [] => d
  | (q, f) :: rest =>
    let d := { d with links := { d.links with annIn := rest } }
    let own := d.elec.chipId
    let named := fld f.payload 0 2 % 1024
    if named = own then
      if d.links.isRoot ∧ f.dst = own ∧ fld f.payload 2 1 ≠ 0 then d
      else (d.modQl q (fun x => { x with dupId := true })).violate .VIO_QL_DUP_ID []
    else if f.dst = named then d.rootAnnounce q f
    else d.memberAnnounce q f

/-- ANNOUNCE_SEND. -/
def announceSend (d : Dev) : Dev :=
  let own := d.elec.chipId
  if d.links.isRoot then d.announceOn (List.range 6) (announceFrame own own own 0) else d

/-- MEMBER_ANNOUNCE_SEND. -/
def memberAnnounceSend (d : Dev) : Dev :=
  match d.modes.control, d.links.followed with
  | .shelfMember, some r => if d.links.rootPort < 6 then d.announceOn [d.links.rootPort] (announceFrame r d.elec.chipId d.elec.chipId 0) else d
  | _, _ => d

/-- ROOT_EXPIRY: a root not heard for 300 ms is no longer current. -/
def rootExpiry (d : Dev) (r : Nat) : Dev :=
  match d.links.roots.find r with
  | some i => if i.last + 300000000 ≤ d.up then ({ d with links := { d.links with roots := d.links.roots.del r } }).follow else d
  | none => d

/-- SHELF_ROOT_LOSS (R50): a Shelf-member without an ANNOUNCE for 2 s is due for Stand-alone. -/
def shelfRootLoss (d : Dev) : Dev :=
  if d.modes.control = .shelfMember ∧ d.currentRoots.isEmpty then { d with modes := { d.modes with lossDue := true } } else d

end Dev

/-! ### Meanings -/

/-- QL_NAK_RX (R493). -/
def execQlNakRx (q : Fin 7) (val : W16) (s : State) : Host.Outcome State Fault Refusal :=
  let _ := val
  s.run (fun d => if Dev.carries (d.qlp q.val) then d.nakRx q.val else d)

/-- QL_CREDIT_RX (R495). -/
def execQlCreditRx (q : Fin 7) (val : W16) (s : State) : Host.Outcome State Fault Refusal :=
  s.run (fun d => if Dev.carries (d.qlp q.val) then d.creditRx q.val val.toNat else d)

/-- QL_LEVEL_RX (R496). -/
def execQlLevelRx (q : Fin 6) (val : W16) (s : State) : Host.Outcome State Fault Refusal :=
  s.run (fun d => if Dev.carries (d.qlp q.val) then d.levelRx q.val val.toNat else d)

/-- QL_ACK_SEND (R493): the highest SEQ received in order. -/
def execQlAckSend (q : Fin 7) (s : State) : Host.Outcome State Fault Refusal :=
  s.run (fun d => if (d.qlp q.val).ackDue && Dev.carries (d.qlp q.val) then
    (d.modQl q.val (fun x => { x with ackDue := false })).sendWord q.val 1 (((d.qlp q.val).rxSeq + 4095) % 4096) else d)

/-- QL_REPLAY_TIMEOUT (R493). -/
def execQlReplayTimeout (q : Fin 7) (s : State) : Host.Outcome State Fault Refusal := s.run (fun d => d.resend q.val)

/-- QL_LINK_DOWN (R494). -/
def execQlLinkDown (q : Fin 7) (s : State) : Host.Outcome State Fault Refusal := s.run (fun d => d.linkDown q.val)

/-- QL_LINK_UP (R494). -/
def execQlLinkUp (q : Fin 7) (lane1 : Bool) (s : State) : Host.Outcome State Fault Refusal := s.run (fun d => d.linkUp q.val lane1)

/-- QL_LEVEL_WINDOW (R496). -/
def execQlLevelWindow (q : Fin 6) (s : State) : Host.Outcome State Fault Refusal := s.run (fun d => d.levelWindow q.val)

/-- QL_STEP_DONE (R497). -/
def execQlStepDone (q : Fin 6) (lane1 : Bool) (s : State) : Host.Outcome State Fault Refusal :=
  s.run (fun d => d.stepDone q.val lane1)

/-- QL_TX_SCHEDULE (R391). -/
def execQlTxSchedule (q : Fin 7) (s : State) : Host.Outcome State Fault Refusal := s.run (fun d => d.schedule q.val)

/-- ANNOUNCE_RX (R499). -/
def execAnnounceRx (s : State) : Host.Outcome State Fault Refusal := s.run (fun d => d.announceRx)

/-- ANNOUNCE_SEND (R499). -/
def execAnnounceSend (s : State) : Host.Outcome State Fault Refusal := s.run (fun d => d.announceSend)

/-- MEMBER_ANNOUNCE_SEND (R500). -/
def execMemberAnnounceSend (s : State) : Host.Outcome State Fault Refusal := s.run (fun d => d.memberAnnounceSend)

/-- ROOT_EXPIRY (R499). -/
def execRootExpiry (root : BitVec 10) (s : State) : Host.Outcome State Fault Refusal := s.run (fun d => d.rootExpiry root.toNat)

/-- SHELF_ROOT_LOSS (R50). -/
def execShelfRootLoss (s : State) : Host.Outcome State Fault Refusal := s.run (fun d => d.shelfRootLoss)

end Sys2Proof.Machine
end

