-- ==== Sys2Proof/Machine/Modes.lean ====
section
/-! DEFINITION. Modes and the OWN keeper: the control-mode decision and the boot procedure (R77, R549), OWN_IN and
contention (R545 to R550), CMD_HOST_ATTACH, CMD_SET_PHASE, CMD_PAIR_SET (R50 to R53, R577), and CMD_CINNABAR_LOCK (R120,
R121). -/

namespace Sys2Proof.Machine

namespace Dev

/-! ### Redundancy mode and OWN -/

/-- The redundancy mode changes: MODE_STATUS shows it and EVT_PAIR_MODE tells it (R41, R578). A device that leaves Active
sends no records any more, so that its mirror is no longer that of the last record. -/
def setRedund (d : Dev) (r : Redund) : Dev :=
  let old := d.modes.redund
  if old = r then d
  else
    let d := { d with modes := { d.modes with redund := r } }
    let d : Dev := if old = .active then
        { d with pair := { d.pair with
            mirrorValid := false, mirror := none, unacked := [], broken := false, chainOk := false } }
      else d
    d.raise .EVT_PAIR_MODE (le 1 old.code ++ le 1 r.code)

/-- Entry into Resync (R50, R571): the chain is lost, and a base is asked for. -/
def enterResync (d : Dev) : Dev :=
  ({ d with pair := { d.pair with
      chainOk := false, baseFragment := false, baseApplied := false, rxBase := none, takeoverWait := false
      bootWait := false } }).setRedund .resync

/-- OWN_OUT is asserted and OWN_IN reads released: the gate is open (R547). -/
def gateWanted (d : Dev) : Bool := d.pair.ownOut && !d.pair.ownIn && !d.flt.fatal

/-- OWN_IN has read released without a break for 50 us (R546). -/
def ownReleased (d : Dev) : Bool := !d.pair.ownIn && decide (d.pair.ownInSince + 50000 ≤ d.up)

/-- The keeper asserts OWN_OUT (R546); the interval of R548 runs from here where no heartbeat was generated before. -/
def acquireOwn (d : Dev) : Dev :=
  let d := { d with pair := { d.pair with ownOut := true } }
  if d.gateWanted then d.gateOpens else d

/-- The boot procedure of R549 ends with OWN acquired; R79 to R81 act at the first boundary whose freeze follows. -/
def bootAcquire (d : Dev) : Dev :=
  ({ d with
    pair := { d.pair with bootWait := false }
    modes := { d.modes with bootDone := true } }).acquireOwn

/-- The boot procedure of R549. A PAIR_SIDE 0 device whose OWN_IN has read released for less than 50 us waits as a
PAIR_SIDE 1 device does. -/
def bootProcedure (d : Dev) : Dev :=
  if d.pair.ownIn then d.enterResync
  else if d.pair.side = false ∧ d.ownReleased then d.bootAcquire
  else { d with pair := { d.pair with bootWait := true } }

/-- The control-mode decision of R77, which shows at once (R41), and the boot procedure (R549). -/
def decideMode (d : Dev) (c : Ctl) : Dev :=
  (({ d with modes := { d.modes with control := c, decided := true } }).refreshRoot).bootProcedure

/-- The link counts as in L0 (R504). -/
def linkL0 (d : Dev) : Bool := d.modes.link.inL0

/-- PCIE_LINK_CHANGE. The port trains from the end of secure boot (R601). -/
def pcieLink (d : Dev) (link : LinkState) : Dev :=
  if ¬ d.elec.booted then d
  else
    let d := { d with modes := { d.modes with link := link } }
    if link.inL0 ∧ ¬ d.modes.decided then d.decideMode .hosted else d

/-- CONTROL_MODE_WINDOW_END. -/
def windowEnd (d : Dev) : Dev :=
  if ¬ d.elec.booted ∨ d.modes.decided then d
  else d.decideMode (if d.linkL0 then .hosted else if d.modes.rootHeard then .shelfMember else .standAlone)

/-- HOST_LINK_LOSS_TIMEOUT. -/
def hostLinkLoss (d : Dev) : Dev :=
  if d.modes.control = .hosted ∧ ¬ d.linkL0 then { d with modes := { d.modes with lossDue := true } } else d

/-- OWN_BOOT_DELAY_END. -/
def ownBootDelayEnd (d : Dev) : Dev :=
  if d.pair.bootWait ∧ ¬ d.pair.ownIn then d.bootAcquire else d

/-- VIO_OWN_CONTENTION, at most once per ms (R550, R581). -/
def contentionLog (d : Dev) : Dev :=
  if d.pair.contention ∧ d.vioLoggable .VIO_OWN_CONTENTION then d.violate .VIO_OWN_CONTENTION [] else d

/-- OWN_IN_ASSERT. -/
def ownInAssert (d : Dev) : Dev :=
  if d.pair.ownIn then d
  else
    let d := { d with pair := { d.pair with ownIn := true } }
    if d.pair.bootWait then d.enterResync
    else if d.pair.ownOut then
      let d := (d.gateClose).bump Cnt.OWN_CONTENTION
      let first := !d.pair.contEvt
      let d := ({ d with pair := { d.pair with contention := true, contEvt := true } }).contentionLog
      if first then d.raise .EVT_OWN_CONTENTION [] else d
    else d

/-- OWN_IN_RELEASE. -/
def ownInRelease (d : Dev) : Dev :=
  if ¬ d.pair.ownIn then d
  else
    let d := { d with pair := { d.pair with
        ownIn := false, ownInSince := d.up, contention := false, contEvt := false } }
    if d.gateWanted then d.gateOpens else d

/-! ### Settings in force -/

/-- Registers whose reset value a chip fact gives: PAN_EUI and PIPE_L2. -/
def chipReset (off : Nat) : Bool :=
  (decide (0x280104 ≤ off ∧ off < 0x280184) && (off % 0x20 == 4 || off % 0x20 == 8)) ||
    decide (0x500400 ≤ off ∧ off < 0x500500)

/-- Put a register's value in force. -/
def putReg (d : Dev) (off : Nat) (v : W32) : Dev :=
  if chipReset off then { d with cfg := d.cfg.put off v } else d.setCfg off v.toNat

/-! ### CMD_HOST_ATTACH -/

/-- The control mode that a CMD_HOST_ATTACH asks for. -/
def attachTarget : CmdPath → Option Ctl
  | .pcie => some .hosted
  | .root => some .shelfMember
  | _ => none

/-- CMD_HOST_ATTACH at acceptance (R53). -/
def hostAttach (d : Dev) (h : Hdr) : Dev :=
  let c : Cmd := ⟨h, .CMD_HOST_ATTACH, 0, []⟩
  d.command c (fun d =>
    match attachTarget h.path with
    | none => d.complete c .ST_MODE_REFUSED
    | some t =>
      if d.modes.control = t then d.complete c .ST_OK
      else if d.modes.control ≠ .standAlone then d.complete c .ST_MODE_REFUSED
      else d.stageCmd c none)

/-- The control mode changes at the boundary (R50). -/
def setControl (d : Dev) (c : Ctl) : Dev :=
  if d.modes.control = c then d else (({ d with modes := { d.modes with control := c } }).refreshRoot)

/-- CMD_HOST_ATTACH at its boundary. Two attachments of one boundary never change Hosted into Shelf-member or the reverse
(R50): the later one is refused. -/
def hostAttachApply (d : Dev) (c : Cmd) : Dev :=
  match attachTarget c.hdr.path with
  | none => d
  | some t =>
    if d.modes.control ≠ .standAlone ∧ d.modes.control ≠ t then d.completeStaged c .ST_MODE_REFUSED
    else (d.setControl t).completeStaged c .ST_OK

/-! ### CMD_SET_PHASE -/

/-- The running life-cycle state allows a phase (R408). -/
def lcAllows (d : Dev) (p : Phase) : Bool :=
  match d.sec.lc, p with
  | 1, _ | 2, _ => true
  | 0, .survey | 0, .test | 3, .survey | 3, .test => true
  | _, .survey => true
  | _, _ => false

/-- The phase that a CMD_SET_PHASE names. -/
def phaseTarget (p : List Byte) : Option Phase := if fld p 0 1 < 8 then Phase.ofCode (fld p 0 1) else none

/-- CMD_SET_PHASE at acceptance (R52 outcomes 1 to 5). -/
def setPhaseCmd (d : Dev) (h : Hdr) (p : List Byte) : Dev :=
  let c : Cmd := ⟨h, .CMD_SET_PHASE, 0, p⟩
  d.command c (fun d =>
    match phaseTarget p with
    | none => d.complete c .ST_BAD_PARAM
    | some t =>
      if 1 < fld p 1 1 ∨ ¬ zeros p 2 6 ∨ ¬ zeros p 0x0E 50 then d.complete c .ST_BAD_PARAM
      else if d.follower then d.complete c .ST_MODE_REFUSED
      else if t = .test ∧ d.modes.control = .standAlone ∧ h.path ≠ .console then d.complete c .ST_MODE_REFUSED
      else if ¬ d.lcAllows t then d.complete c .ST_WRONG_LIFECYCLE
      else if (t = .startUp ∨ t = .service ∨ t = .recovery) ∧ ¬ d.cin.locked then d.complete c .ST_CINNABAR_UNLOCKED
      else if bit (fld p 1 1) 0 then
        (if d.freezePassed (fld p 8 6) then d.complete c .ST_EPOCH_PASSED else d.stageCmd c (some (fld p 8 6)))
      else d.stageCmd c none)

/-- Survey takes effect: the frames in the air queues are discarded (R46). -/
def flushAir (d : Dev) : Dev :=
  let d := d.each (List.range 16) (fun d c =>
    if (d.carrier c).own.waiting then
      (match (d.carrier c).own.cur with | some f => (d.giveBack f).1 | none => d).clearOwn c
    else d)
  d.each (List.range 32) (fun d q =>
    let l := d.queue q
    if l.isEmpty then d
    else
      let d := l.foldl (fun (d : Dev) x => match x with | .air f => d.dropCopy f | _ => d) d
      (d.setQueue q []).bump Cnt.AIRQ_FLUSH_SURVEY l.length)

/-- The phase changes at a boundary. -/
def setPhase (d : Dev) (p : Phase) : Dev :=
  if d.modes.phase = p then d
  else
    let d := { d with modes := { d.modes with phase := p, romDwell := 0 } }
    if p = .survey then d.flushAir else d

/-! ### CMD_PAIR_SET -/

/-- CMD_PAIR_SET at acceptance (R577); `op` is the row's OP. -/
def pairSet (d : Dev) (h : Hdr) (p : List Byte) (op : Nat) : Dev :=
  let c : Cmd := ⟨h, .CMD_PAIR_SET, op, p⟩
  d.command c (fun d =>
    if fld p 0 1 ≠ op ∨ 1 < fld p 1 1 ∨ ¬ zeros p 2 6 ∨ ¬ zeros p 0x0E 50 then d.complete c .ST_BAD_PARAM
    else if bit (fld p 1 1) 0 then
      (if d.freezePassed (fld p 8 6) then d.complete c .ST_EPOCH_PASSED else d.stageCmd c (some (fld p 8 6)))
    else d.stageCmd c none)

/-- CMD_PAIR_SET at its boundary: forbidding takes MIR down. -/
def pairSetApply (d : Dev) (c : Cmd) : Dev :=
  let d := { d with pair := { d.pair with allow := c.sub == 1 } }
  (if c.sub = 1 then d else d.linkDown 6).completeStaged c .ST_OK

/-! ### CMD_CINNABAR_LOCK -/

/-- The octets of the staged block. -/
def cinBlock (d : Dev) : List Byte := (List.range 64).flatMap (fun w => le 4 (d.cin.stage.get 0 w).toNat)

/-- One tuning band holds both edges (R84, R121). -/
def oneBand (lo hi : Nat) : Bool := (inBandL lo && inBandL hi) || (inBandS lo && inBandS hi)

/-- The number of the first check of R121 that a block fails, with the command's payload; a wrong CONFIRM and reserved octets
of the payload that are not 0 count as check 3 (DESIGN CHOICE, log entry 142). -/
def cinCheck (b p : List Byte) : Option Nat :=
  let at_ := fun (n o k : Nat) => fld b (0x40 + 16 * n + o) k
  let valid := fun n => bit (at_ n 0x0E 1) 0
  let sbs := (List.range 12).filter valid
  if slice b 0 4 ≠ asc "CNBR" ∨ fld b 4 1 ≠ 1 ∨ ¬ zeros b 0x0A 2 ∨ ¬ zeros b 0x10 12 ∨
      (List.range 4).any (fun q => decide (4 ≤ fld b (0x27 + 8 * q) 1)) ∨
      (List.range 12).any (fun n => decide (4 ≤ at_ n 0x0E 1 ∨ at_ n 0x0F 1 ≠ 0)) then some 1
  else if crc32 (patch b 0x1C (le 4 0)) ≠ fld b 0x1C 4 then some 2
  else if fld p 0 4 ≠ fld b 0x1C 4 ∨ fld p 4 4 ≠ fld b 0x0C 4 ∨ fld p 8 4 ≠ 0x4B434F4C ∨ ¬ zeros p 0x0C 52 then some 3
  else if fld b 5 1 < 1 ∨ 12 < fld b 5 1 ∨ (List.range 12).any (fun n => valid n != decide (n < fld b 5 1)) then
    some 4
  else if sbs.any (fun n => decide (at_ n 4 4 ≤ at_ n 0 4) || !oneBand (at_ n 0 4) (at_ n 4 4)) then some 5
  else if sbs.any (fun n => sbs.any (fun m =>
      decide (m < n ∧ at_ n 0 4 < at_ m 4 4 ∧ at_ m 0 4 < at_ n 4 4))) then some 6
  else if sbs.any (fun n => decide (at_ n 0x0A 2 < 1 ∨ 10000 < at_ n 0x0A 2 ∨ 144 < sext 16 (at_ n 8 2)) ||
        (bit (at_ n 0x0E 1) 1 && at_ n 0x0D 1 == 0)) ∨ fld b 8 2 < 60 ∨ 3600 < fld b 8 2 then some 7
  else none

/-- The slot a block is burnt into: the lower one that is neither committed nor spent. -/
def cinSlot (o : Otp) : Option Nat :=
  if ¬ o.cin0Spent ∧ ¬ o.cin0Ok then some 0 else if ¬ o.cin1Spent ∧ ¬ o.cin1Ok then some 1 else none

/-- Burn a block into a slot; the commit word is written last, where the read-back agrees. -/
def cinBurn (o : Otp) (slot : Nat) (b : List Byte) (ok : Bool) : Otp :=
  if slot = 0 then { o with cin0 := b, cin0Spent := true, cin0Ok := ok }
  else { o with cin1 := b, cin1Spent := true, cin1Ok := ok }

/-- CMD_CINNABAR_LOCK (R120, R121). With both slots spent no slot is left to burn, and the read-back fails. -/
def cinLock (d : Dev) (h : Hdr) (p : List Byte) (readBackOk : Bool) : Dev :=
  let c : Cmd := ⟨h, .CMD_CINNABAR_LOCK, 0, p⟩
  d.command c (fun d =>
    if d.otp.cin0Ok ∨ d.otp.cin1Ok then d.complete c .ST_CINNABAR_LOCKED
    else if d.sec.lc ≠ 0 ∧ d.sec.lc ≠ 1 then d.complete c .ST_WRONG_LIFECYCLE
    else match cinCheck d.cinBlock p with
      | some n => d.complete c .ST_CINNABAR_INVALID (le 1 n)
      | none => match cinSlot d.otp with
        | none => d.complete c .ST_OTP_FAIL
        | some s =>
          let d := { d with otp := cinBurn d.otp s d.cinBlock readBackOk }
          if readBackOk then (d.loadCinnabar).complete c .ST_OK else d.complete c .ST_OTP_FAIL)

end Dev

/-! ### Meanings -/

/-- PCIE_LINK_CHANGE (R504, R77). -/
def execPcieLinkChange (link : LinkState) (s : State) : Host.Outcome State Fault Refusal :=
  s.run (fun d => d.pcieLink link)

/-- HOST_LINK_LOSS_TIMEOUT (R50): Stand-alone is due at the first boundary whose freeze follows. -/
def execHostLinkLossTimeout (s : State) : Host.Outcome State Fault Refusal := s.run (fun d => d.hostLinkLoss)

/-- CONTROL_MODE_WINDOW_END (R77). -/
def execControlModeWindowEnd (s : State) : Host.Outcome State Fault Refusal := s.run (fun d => d.windowEnd)

/-- OWN_BOOT_DELAY_END (R549). -/
def execOwnBootDelayEnd (s : State) : Host.Outcome State Fault Refusal := s.run (fun d => d.ownBootDelayEnd)

/-- OWN_IN_ASSERT (R550, R549). -/
def execOwnInAssert (s : State) : Host.Outcome State Fault Refusal := s.run (fun d => d.ownInAssert)

/-- OWN_IN_RELEASE (R547). -/
def execOwnInRelease (s : State) : Host.Outcome State Fault Refusal := s.run (fun d => d.ownInRelease)

/-- CMD_HOST_ATTACH (R53). -/
def execCmdHostAttach (h : Hdr) (s : State) : Host.Outcome State Fault Refusal := s.run (fun d => d.hostAttach h)

/-- CMD_SET_PHASE (R51, R52). -/
def execCmdSetPhase (h : Hdr) (p : List Byte) (s : State) : Host.Outcome State Fault Refusal :=
  s.run (fun d => d.setPhaseCmd h p)

/-- CMD_PAIR_SET with OP 0 (R577). -/
def execCmdPairSetForbid (h : Hdr) (p : List Byte) (s : State) : Host.Outcome State Fault Refusal :=
  s.run (fun d => d.pairSet h p 0)

/-- CMD_PAIR_SET with OP 1 (R577). -/
def execCmdPairSetAllow (h : Hdr) (p : List Byte) (s : State) : Host.Outcome State Fault Refusal :=
  s.run (fun d => d.pairSet h p 1)

/-- CMD_CINNABAR_LOCK (R121). -/
def execCmdCinnabarLock (h : Hdr) (p : List Byte) (readBackOk : Bool) (s : State) : Host.Outcome State Fault Refusal :=
  s.run (fun d => d.cinLock h p readBackOk)

end Sys2Proof.Machine
end

