-- ==== Sys2Proof/Machine/Mordant.lean ====
section
/-! DEFINITION. Mordant state and records (R554 to R559): taking the state, writing a record and reading one. R558 leaves the
layout inside PAN_STATE and AIR_STATE open; the one here is the model's (assumption log). -/

namespace Sys2Proof.Machine

/-! ### Rows -/

/-- A hint's 64-bit value (R320). -/
def Hint.word (h : Hint) : Nat := h.fp % 2 ^ 45 * 2 ^ 19 + h.loc % 65536 * 8 + h.pan % 4 * 2 + ofBool h.valid
def Hint.ofWord (w : Nat) : Hint := ⟨w / 2 ^ 19, bits w 18 3, bits w 2 1, bit w 0⟩

/-- A node entry from its octets (R317). -/
def NodeEntry.ofOctets (b : List Byte) : NodeEntry :=
  let c := fld b 0x0C 1
  { eui := BitVec.ofNat 64 (fld b 0 8), short := fld b 8 2, loc := fld b 0x0A 2, pan := c % 4, valid := bit c 2
    preplaced := bit c 3, pinned := bit c 4, quarantine := bit c 5, adopted := bit c 6, hintless := bit c 7
    qreason := fld b 0x0D 1 % 8, fcNone := bit (fld b 0x0D 1) 3, lastSeq := fld b 0x0E 1, hopDist := fld b 0x0F 1
    lastFc := fld b 0x10 4, dlFc := fld b 0x14 4, keySlot := fld b 0x18 2, keyEpoch := fld b 0x1A 2
    hopMin := fld b 0x1C 1, airClass := fld b 0x1D 1, policer := fld b 0x1E 2, touch := fld b 0x20 4
    setEpoch := fld b 0x24 2, user := BitVec.ofNat 64 (fld b 0x28 8) }

/-- A route entry from its octets (R325). -/
def RouteEntry.ofOctets (b : List Byte) : RouteEntry :=
  let f := fld b 1 1
  { pan := fld b 0 1, valid := bit f 0, quarantine := bit f 1, mark := bit f 2, target := fld b 2 2, expires := fld b 8 6
    setEpoch := fld b 0x0E 2, hopList := (List.range (min 8 (fld b 4 1))).map (fun i => fld b (0x10 + 2 * i) 2) }

/-- A prefix entry from its octets (R327). -/
def PrefixEntry.ofOctets (b : List Byte) : PrefixEntry :=
  let f := fld b 0x11 1
  { pfx := slice b 0 16, len := fld b 0x10 1, valid := bit f 0, quarantine := bit f 1, mark := bit f 2, kind := fld b 0x12 1
    context := fld b 0x13 1, target := fld b 0x14 2, prog := fld b 0x16 1, cls := fld b 0x17 1, setEpoch := fld b 0x18 2
    user := slice b 0x1A 6 }

/-- A neighbour's record (R222). -/
def Nbr.octets (n : Nbr) : List Byte :=
  le 8 n.eui.toNat ++ le 2 n.panId ++ le 2 n.chip ++
    le 1 (ofBool n.valid + 2 * ofBool n.lost + 4 * ofBool n.timeRef + 8 * ofBool n.learned) ++ le 1 n.misses ++
    le 2 (pat 16 n.rssi) ++ le 8 n.syncTime ++ le 6 n.theirEpoch ++ le 1 n.lane ++ le 1 0

def Nbr.ofOctets (b : List Byte) : Nbr :=
  let s := fld b 0x0C 1
  { eui := BitVec.ofNat 64 (fld b 0 8), panId := fld b 8 2, chip := fld b 0x0A 2, valid := bit s 0, lost := bit s 1
    timeRef := bit s 2, learned := bit s 3, misses := fld b 0x0D 1, rssi := sext 16 (fld b 0x0E 2)
    syncTime := fld b 0x10 8, theirEpoch := fld b 0x18 6, lane := fld b 0x1E 1 }

/-- Row r of a node bank: 4 slots of an entry and two hints (R316, R317). -/
def Mord.nodeRow (m : Mord) (r : Nat) : List Byte :=
  (List.range 4).flatMap (fun w =>
    (m.nodes.get {} (4 * r + w)).octets ++ le 8 (m.hints.get {} (8 * r + 2 * w)).word ++
      le 8 (m.hints.get {} (8 * r + 2 * w + 1)).word)

/-- Rows of two entries. -/
def Mord.routeRow (m : Mord) (r : Nat) : List Byte := (m.routes.get {} (2 * r)).octets ++ (m.routes.get {} (2 * r + 1)).octets
def Mord.pfxRow (m : Mord) (r : Nat) : List Byte := (m.pfxs.get {} (2 * r)).octets ++ (m.pfxs.get {} (2 * r + 1)).octets

/-- Put a row into the state; an entry that is not valid is no entry. -/
def Mord.setNodeRow (m : Mord) (r : Nat) (b : List Byte) : Mord :=
  (List.range 4).foldl (fun (m : Mord) w =>
    let e := NodeEntry.ofOctets (slice b (64 * w) 48)
    let h := fun i => Hint.ofWord (fld b (64 * w + 48 + 8 * i) 8)
    { m with
      nodes := m.nodes.set {} (4 * r + w) (if e.valid then e else {})
      hints := (m.hints.set {} (8 * r + 2 * w) (if (h 0).valid then h 0 else {})).set {} (8 * r + 2 * w + 1)
        (if (h 1).valid then h 1 else {}) }) m

def Mord.setRouteRow (m : Mord) (r : Nat) (b : List Byte) : Mord :=
  [0, 1].foldl (fun (m : Mord) w =>
    let e := RouteEntry.ofOctets (slice b (32 * w) 32)
    { m with routes := m.routes.set {} (2 * r + w) (if e.valid then e else {}) }) m

def Mord.setPfxRow (m : Mord) (r : Nat) (b : List Byte) : Mord :=
  [0, 1].foldl (fun (m : Mord) w =>
    let e := PrefixEntry.ofOctets (slice b (32 * w) 32)
    { m with pfxs := m.pfxs.set {} (2 * r + w) (if e.valid then e else {}) }) m

/-- Keys at which two maps differ. -/
def changedKeys {α : Type} [DecidableEq α] (a b : SMap α) (dflt : α) : List Nat :=
  ((a ++ b).map (fun x => x.1)).filter (fun k => !decide (a.get dflt k = b.get dflt k))

/-- Rows at which two states differ, each once. -/
def changedNodeRows (a b : Mord) : List Nat :=
  ((changedKeys a.nodes b.nodes {}).map (· / 4) ++ (changedKeys a.hints b.hints {}).map (· / 8)).eraseDups
def changedRouteRows (a b : Mord) : List Nat := ((changedKeys a.routes b.routes {}).map (· / 2)).eraseDups
def changedPfxRows (a b : Mord) : List Nat := ((changedKeys a.pfxs b.pfxs {}).map (· / 2)).eraseDups

/-! ### The other sections -/

/-- The free map of a PAN: bit a is 1 while address a is not used, held or retired (R216). -/
def freeMap (p : Pan) : List Byte :=
  (List.range 8190).map (fun i => BitVec.ofNat 8 ((List.range 8).foldl (fun n b =>
    n + (if (p.used.get false (8 * i + b)) || (p.hold.find (8 * i + b)).isSome || p.retired.get false (8 * i + b) then 0
      else 2 ^ b)) 0))

/-- The hold list of a record: address, last epoch of the hold, and 0 or 1 in its place for a retired address without and with an
entry; 2^47 is added to the epoch of a retired address in hold (DESIGN CHOICE, log entry 153). -/
def holdList (p : Pan) : List (Nat × Nat) :=
  p.hold.map (fun h => (h.1, if p.retired.get false h.1 then h.2 % 2 ^ 47 + 2 ^ 47 else max 2 (h.2 % 2 ^ 47))) ++
    ((p.retired.filter (fun x => x.2 && (p.hold.find x.1).isNone)).map (fun x => (x.1, ofBool (p.used.get false x.1))))

/-- PAN_STATE of one PAN. -/
def panOctets (p : Pan) : List Byte :=
  let l := holdList p
  freeMap p ++ le 4 l.length ++ (l.flatMap (fun h => le 2 h.1 ++ le 6 h.2)) ++ le 2 p.cursor ++ le 4 p.fc ++ le 2 p.nextFlood

/-- PAN_STATE of the PANs from k on. -/
def readPans : Nat → Nat → List Byte → SMap Pan → SMap Pan
  | 0, _, _, m => m
  | n + 1, k, b, m =>
    let c := fld b 8190 4
    let list := (List.range c).map (fun i => (fld b (8194 + 8 * i) 2, fld b (8196 + 8 * i) 6))
    let hold := (list.filter (fun x => decide (1 < x.2))).foldl (fun (h : SMap Nat) x => h.put x.1 (x.2 % 2 ^ 47)) []
    let retired := (list.filter (fun x => decide (x.2 ≤ 1 ∨ 2 ^ 47 ≤ x.2))).foldl (fun (u : SMap Bool) x => u.put x.1 true) []
    let idle := (list.filter (fun x => x.2 != 1)).map (fun x => x.1)
    let at_ := 8194 + 8 * c
    let used := (List.range 65520).foldl (fun (u : SMap Bool) a =>
      if bit (fld b (a / 8) 1) (a % 8) || idle.contains a then u else u.put a true) []
    readPans n (k + 1) (b.drop (at_ + 8))
      (m.set {} k { used := used, hold := hold, retired := retired, cursor := fld b at_ 2, fc := fld b (at_ + 2) 4
                    nextFlood := fld b (at_ + 6) 2 })

/-- The word of a tightening that limits nothing: CIN_TIGHT_A at even places, CIN_TIGHT_B at odd ones. -/
def looseWord (n : Nat) : W32 := if n % 2 = 0 then 0xFFFF7FFF#32 else 0x7F#32

/-- AIR_STATE: 48 accounts of 61 bins and a charge, the 64 neighbour records without MISSES, 24 tightening words. -/
def airOctets (m : Mord) : List Byte :=
  ((List.range 48).flatMap (fun a => (List.range 61).flatMap (fun b => le 4 (m.dutyBins.get 0 (61 * a + b))) ++
    le 4 (m.charges.get 0 a))) ++
  ((List.range 64).flatMap (fun n => ({ m.nbrs.get {} n with misses := 0 } : Nbr).octets)) ++
  ((List.range 24).flatMap (fun n => le 4 (m.tight.get (looseWord n) n).toNat))

def readAir (m : Mord) (b : List Byte) : Mord :=
  { m with
    dutyBins := (List.range 48).foldl (fun (u : SMap Nat) a =>
      (List.range 61).foldl (fun (u : SMap Nat) i => u.set 0 (61 * a + i) (fld b (248 * a + 4 * i) 4)) u) []
    charges := (List.range 48).foldl (fun (u : SMap Nat) a => u.set 0 a (fld b (248 * a + 244) 4)) []
    nbrs := (List.range 64).foldl (fun (u : SMap Nbr) n =>
      let x := Nbr.ofOctets (slice b (11904 + 32 * n) 32)
      if x.valid then u.set {} n x else u) []
    tight := (List.range 24).foldl (fun (u : SMap W32) n => u.put n (BitVec.ofNat 32 (fld b (13952 + 4 * n) 4))) [] }

/-- One entry of CMD_HISTORY (R558). -/
def histOctets (h : Hist) : List Byte :=
  le 1 (Dev.callerBit h.src) ++ le 1 0 ++ le 2 h.cpl.origin ++ le 4 h.cmdId.toNat ++ Dev.cplOctets h.cpl false

/-- The path that stands for a source of R558. -/
def pathOf : Nat → CmdPath
  | 1 => .core .secure
  | 2 => .core .vendor
  | 3 => .core .customer
  | _ => .pcie

def histOf (b : List Byte) : Hist :=
  let s := pathOf (fld b 0 1)
  let id := BitVec.ofNat 32 (fld b 4 4)
  let c := b.drop 8
  ⟨s, id, ⟨s, fld c 0 2, (Status.ofCode (fld c 2 2)).getD .ST_OK, id, fld c 8 6, fld b 2 2, false, slice c 16 48⟩⟩

/-- Two entries of a history are of one source and one executing chip. -/
def sameSource (x y : Hist) : Bool := decide (Dev.callerBit x.src = Dev.callerBit y.src ∧ x.cpl.origin = y.cpl.origin)

/-- The last 4,096 entries of each source and executing chip of a history (R519). -/
def trimHist (same : Hist → Hist → Bool) (l : List Hist) : List Hist :=
  l.foldr (fun x acc => if (acc.filter (same x)).length < 4096 then x :: acc else acc) []

/-- Equal pieces of a list of octets. -/
def pieces (n : Nat) (b : List Byte) : List (List Byte) := (List.range (b.length / n)).map (fun i => slice b (n * i) n)

/-- A section: TYPE, LENGTH and its content, padded to a multiple of 8 octets (R558). -/
def sect (type : Nat) (c : List Byte) : List Byte :=
  le 1 type ++ le 3 0 ++ le 4 c.length ++ c ++ List.replicate ((8 - c.length % 8) % 8) 0#8

/-- Rows of a section. -/
def rowsOctets (row : Nat → List Byte) (rs : List Nat) : List Byte := rs.flatMap (fun r => le 4 r ++ row r)

/-- The sections of a record. -/
def sections (base vat : Bool) (prev cur : Mord) : List (List Byte) :=
  [sect 1 (rowsOctets cur.nodeRow (if base then List.range 65536 else changedNodeRows prev cur)),
   sect 2 (rowsOctets cur.routeRow (if base then List.range 32768 else changedRouteRows prev cur)),
   sect 3 (rowsOctets cur.pfxRow (if base then List.range 2048 else changedPfxRows prev cur)),
   sect 4 (le 8 cur.seedN.toNat ++ le 8 cur.seedR.toNat ++ le 8 cur.seedP.toNat),
   sect 5 ((List.range 4).flatMap (fun k => panOctets (cur.pans.get {} k))),
   sect 6 (airOctets cur),
   sect 7 ((cur.settings.flatMap (fun x => le 4 x.1 ++ le 4 x.2.toNat)) ++ le 1 cur.phase),
   sect 8 ((if base then cur.hist else cur.hist.filter (fun h => !prev.hist.contains h)).flatMap histOctets)] ++
  (if base || vat then [sect 9 cur.vat] else []) ++ [sect 10 (cur.kcv ++ le 4 cur.cinCrc)]

/-- A record: header, sections, commit record (R557 to R559). -/
def recordOctets (chip epoch baseEpoch : Nat) (base vat : Bool) (prev cur : Mord) : List Byte :=
  let ss := sections base vat prev cur
  let body := ss.flatten
  let len := 64 + body.length
  let rcd := asc "QZMD" ++ le 2 1 ++ le 1 (if base then 1 else 2) ++ le 1 0 ++ le 6 epoch ++ le 2 0 ++ le 6 baseEpoch ++
    le 2 ss.length ++ le 8 len ++ le 2 chip ++ List.replicate 30 0#8 ++ body
  let tail := asc "QZMC" ++ le 4 0 ++ le 6 epoch ++ le 2 0 ++ le 8 len ++ le 4 0
  rcd ++ tail ++ le 4 (crc32 (rcd ++ tail))

/-- A record with every octet present, whose commit record agrees with its header (R559). -/
def recordCommitted (b : List Byte) : Bool :=
  let len := fld b 0x18 8
  let t := slice b len 32
  decide (64 ≤ b.length ∧ len + 32 ≤ b.length ∧ slice b 0 4 = asc "QZMD" ∧ slice t 0 4 = asc "QZMC" ∧
    fld t 8 6 = fld b 8 6 ∧ fld t 0x10 8 = len ∧ fld t 0x1C 4 = crc32 (b.take (len + 0x1C)))

/-- The sections of a record's body: type and content. -/
def sectsAt : Nat → List Byte → List (Nat × List Byte)
  | 0, _ => []
  | n + 1, b =>
    let l := fld b 4 4
    (fld b 0 1, slice b 8 l) :: sectsAt n (b.drop (8 + l + (8 - l % 8) % 8))

/-- Pairs of SETTINGS and the phase that follows them. -/
def readSettings (m : Mord) (c : List Byte) : Mord :=
  { m with
    settings := (pieces 8 c).foldl (fun (u : SMap W32) x => u.put (fld x 0 4) (BitVec.ofNat 32 (fld x 4 4))) []
    phase := fld c (c.length - 1) 1 }

/-- Apply one section to an image. -/
def Mord.applySect (m : Mord) (s : Nat × List Byte) : Mord :=
  let c := s.2
  match s.1 with
  | 1 => (pieces 260 c).foldl (fun (m : Mord) x => m.setNodeRow (fld x 0 4 % 65536) (x.drop 4)) m
  | 2 => (pieces 68 c).foldl (fun (m : Mord) x => m.setRouteRow (fld x 0 4) (x.drop 4)) m
  | 3 => (pieces 68 c).foldl (fun (m : Mord) x => m.setPfxRow (fld x 0 4) (x.drop 4)) m
  | 4 => { m with seedN := BitVec.ofNat 64 (fld c 0 8), seedR := BitVec.ofNat 64 (fld c 8 8), seedP := BitVec.ofNat 64 (fld c 16 8) }
  | 5 => { m with pans := readPans 4 0 c [] }
  | 6 => readAir m c
  | 7 => readSettings m c
  | 8 => { m with hist := trimHist sameSource (m.hist ++ (pieces 72 c).map histOf) }
  | 9 => { m with vat := c }
  | 10 => { m with kcv := slice c 0 48, cinCrc := fld c 48 4 }
  | _ => m

/-- Apply a record to the image: a base replaces it (R562). -/
def Mord.applyRecord (m : Mord) (b : List Byte) : Mord :=
  (sectsAt (fld b 0x16 2) (b.drop 64)).foldl Mord.applySect (if fld b 6 1 = 1 then {} else m)

namespace Dev

/-! ### The state taken (R554, R555) -/

/-- The digest of the KCVs, SHA-384 of KEY_KCV_0 to KEY_KCV_1023 (R558); KEY_KCV of an empty slot reads 0. -/
def kcvDigest (d : Dev) : List Byte :=
  Config.sha384 ((List.range 1024).flatMap (fun n =>
    let k := d.key n
    le 4 (if k.valid then kcvOf k.pub k.key else 0)))

/-- The CRC of the committed Cinnabar block. -/
def cinCrc (d : Dev) : Nat :=
  if ¬ d.cin.locked then 0 else fld (if d.cin.slot = 0 then d.otp.cin0 else d.otp.cin1) 0x1C 4

/-- ST fields in force that differ from their reset values (R558). -/
def settingsInForce (d : Dev) : SMap W32 :=
  d.cfg.filter (fun x => match regAt x.1 with | some r => r.st != 0 && !(r.name == "CIN_TIGHT_A") && !(r.name == "CIN_TIGHT_B") | none => false)

/-- The key of a duty bin by its age, the current bin first, where the ring stands at `cur`; and back (R188). -/
def ageKey (cur k : Nat) : Nat := 61 * (k / 61) + (cur + 61 - k % 61) % 61

/-- Duty bins keyed by their ages, or back by their places (R188). -/
def ageBins (cur : Nat) (m : SMap Nat) : SMap Nat :=
  m.foldl (fun (u : SMap Nat) x => u.set 0 (ageKey cur x.1) x.2) []

/-- The tightenings of a record (R125): the words in force of the sub-bands that the committed block has; every other word
limits nothing (DESIGN CHOICE, log entry 170). -/
def tightSent (d : Dev) : SMap W32 :=
  if ¬ d.cin.locked then []
  else (List.range (2 * min 12 d.cin.numSb)).map (fun n => (n, d.tightWords.get 0 n))

/-- The charges of the epoch that ended last: those still counted where the boundary has not reached the DSP domain (R188). -/
def endedCharges (d : Dev) : SMap Nat := if d.epoch.strobes.contains .dsp then d.duty.epochCharge else d.duty.lastCharge

/-- The command history with the commands that the boundary in progress has applied, whose completions wait for their post
(R555). -/
def histNow (d : Dev) : List Hist :=
  trimHist (fun x => d.sameHist x.src x.cpl.origin) (d.host.hist ++ d.stg.done.map (fun c => ⟨c.src, c.cmdId, c⟩))

/-- The Mordant state in force (R554). The duty bins of a record stand by age, the current one first (DESIGN CHOICE, log entry
154). -/
def mordant (d : Dev) : Mord :=
  { nodes := d.tbl.node.slots, hints := d.tbl.node.hints, routes := d.tbl.route.slots, pfxs := d.tbl.pfx.slots
    seedN := d.tbl.node.seed, seedR := d.tbl.route.seed, seedP := d.tbl.pfx.seed
    pans := d.air.pans, dutyBins := ageBins d.duty.cur d.duty.bins, charges := d.endedCharges, nbrs := d.air.nbrs
    tight := d.tightSent, settings := d.settingsInForce, phase := d.modes.phase.code, hist := d.histNow
    vat := match d.vat.inForce with | some v => v.raw | none => []
    kcv := d.kcvDigest, cinCrc := d.cinCrc }

end Dev

end Sys2Proof.Machine
end

