-- ==== Sys2Proof/Machine/Redund.lean ====
section
/-! DEFINITION. The redundancy unit (R551 to R577): heartbeats and misses, records sent and received, the chain, takeover,
Resync, and the Ochre tests and report. -/

namespace Sys2Proof.Machine

namespace Dev

/-! ### Heartbeats (R548, R553, R563, R564) -/

/-- The longest duration R56 allows for the epoch in progress, ns (R553). -/
def longestEpoch (d : Dev) : Nat :=
  1000000 * (match d.epoch.gridOld with
    | some old => old + d.epoch.lenMs + 64
    | none => d.epoch.lenMs)

/-- The conditions of heartbeat generation (R553). Both pipelines open windows whatever they carry. -/
def mayHeartbeat (d : Dev) : Bool :=
  !d.flt.fatal && !d.modes.inReset && decide (d.now ≤ d.epoch.start + d.longestEpoch + 10000000) &&
    (d.cfg.PAIR_CTL_KA_MS == 0 || decide (d.up ≤ d.pair.keptAlive + d.cfg.PAIR_CTL_KA_MS * 1000000))

/-- HEARTBEAT_SEND. -/
def heartbeatSend (d : Dev) : Dev :=
  if ¬ d.mayHeartbeat then d
  else
    let d := { d with pair := { d.pair with hbGen := some d.up } }
    if (d.qlp 6).up then
      d.sendWord 6 0x10 (d.modes.redund.code + 4 * ofBool d.pair.side + 8 * (d.epoch.num % 8192))
    else d

/-- HEARTBEAT_STALL: the keeper releases OWN. -/
def heartbeatStall (d : Dev) : Dev := if d.pair.ownOut then d.releaseOwn else d

/-- EPOCH of the last committed or acknowledged record; all ones where there is none (as R575 shows it). -/
def lastCommit (d : Dev) : Nat := d.pair.commit.getD 0xFFFFFFFFFFFF

/-- A heartbeat word (R553, R562). -/
def heartbeatRx (d : Dev) (v : Nat) : Dev :=
  if ¬ (d.qlp 6).up then d
  else
    let bad : Bool := bit v 2 == d.pair.side
    let d := { d with pair := { d.pair with
        hbLast := some d.up, misses := 0, partnerMode := v % 4, sideBad := bad, takeoverWait := false } }
    let d := if bad then d.violate .VIO_PAIR_SIDE [] else d
    match d.pair.commit with
    | some c => if d.modes.redund = .standby ∧ 3 ≤ (bits v 15 3 + 8192 - c % 8192) % 8192 then d.enterResync else d
    | none => d

/-- HEARTBEAT_MISS (R563, R564). -/
def heartbeatMiss (d : Dev) : Dev :=
  if d.pair.hbLast.isNone then d
  else
    let third := d.pair.misses == 2
    let d := ({ d with pair := { d.pair with misses := min 3 (d.pair.misses + 1) } }).bump Cnt.HB_MISSED
    if ¬ third then d
    else match d.modes.redund with
      | .active => { d with modes := { d.modes with soloDue := true } }
      | .standby => { d with pair := { d.pair with takeoverWait := true } }
      | .resync => d.raise .EVT_PARTNER_SILENT (le 6 d.lastCommit)
      | .solo => d

/-- OWN_WAIT_DEADLINE (R564). -/
def ownWaitDeadline (d : Dev) : Dev :=
  if d.modes.redund = .standby ∧ d.pair.takeoverWait ∧ ¬ d.ownReleased then
    (d.raise .EVT_PARTNER_SILENT (le 6 d.lastCommit)).enterResync
  else d

/-! ### Sending records (R560, R561, R572) -/

/-- Send the record of the ended epoch e. -/
def sendEpochRecord (d : Dev) (e : Nat) : Dev :=
  let cur := d.mordant
  let base := d.pair.mirrorValid && (e % 256 == 0 || d.pair.broken)
  let bEpoch := if base then e else d.pair.chainBase
  let r : TxRec := ⟨e, if base then 1 else 2,
    recordOctets d.elec.chipId e bEpoch base d.pair.vatCommitted (d.pair.mirror.getD {}) cur⟩
  let d := { d with pair := { d.pair with
      mirror := some cur, chainBase := bEpoch, unacked := d.pair.unacked ++ [r], vatCommitted := false
      broken := if base then false else d.pair.broken
      chainOk := if base then true else d.pair.chainOk } }
  (d.sendRecord r).bump Cnt.MORDANT_OCTETS r.octets.length

/-- The record of an epoch is overdue at the boundary that opens n (R561). -/
def overdue (d : Dev) (n : Nat) : Bool := d.pair.unacked.any (fun r => decide (r.epoch + 2 ≤ n))

/-- Break the chain (R561). -/
def breakChain (d : Dev) (e : Nat) : Dev :=
  let d := d.queueMir 0x13 (le 6 e ++ le 2 0)
  (({ d with pair := { d.pair with
      unacked := [], broken := true, chainOk := false, brokenAt := some d.epoch.num } }).raise .EVT_CHAIN_BREAK
    (le 6 e)).bump Cnt.CHAIN_BREAK

/-- RECORD_ACK_TIMEOUT. -/
def recordAckTimeout (d : Dev) : Dev :=
  if d.modes.redund = .active ∧ d.overdue d.epoch.num then
    d.breakChain (match d.pair.unacked with | r :: _ => r.epoch | [] => 0)
  else d

/-- The PIPE strobe that opens n at an Active device (R60 step 4): the record of n - 1 goes out, unless this boundary breaks
the chain. -/
def recordStrobe (d : Dev) (n : Nat) : Dev :=
  if d.modes.redund ≠ .active ∨ d.pair.restoring ∨ d.overdue n ∨ d.pair.brokenAt = some n ∨ n = 0 then d
  else d.sendEpochRecord (n - 1)

/-- Solo becomes Active (R50, R571): the chain starts, and the mirror is to be filled (R572). -/
def enterActive (d : Dev) : Dev :=
  ({ d with pair := { d.pair with
      mirror := some d.mordant, mirrorValid := false, unacked := [], broken := false, brokenAt := none, chainOk := true
      chainBase := d.epoch.num } }).setRedund .active

/-- MIRROR_FILL_DONE. -/
def mirrorFillDone (d : Dev) : Dev :=
  if d.modes.redund = .active ∧ ¬ d.pair.restoring then { d with pair := { d.pair with mirrorValid := true } } else d

/-! ### READY (R576) -/

/-- LAST_COMMIT lies within 2 of the epoch number. -/
def commitNear (d : Dev) : Bool :=
  match d.pair.commit with
  | some c => decide (c ≤ d.epoch.num + 2 ∧ d.epoch.num ≤ c + 2)
  | none => false

/-- READY (R576). -/
def ochreReady (d : Dev) : Bool :=
  decide (d.pair.ochre.pass &&& 0x5FF#11 = 0x5FF#11) && decide (d.pair.ochre.fail &&& 0x5FF#11 = 0#11) &&
    d.pair.chainOk && d.commitNear

/-- READY as it is now; a change raises EVT_OCHRE. -/
def refreshReady (d : Dev) : Dev :=
  let r := d.ochreReady
  if r = d.pair.ochre.ready then d
  else
    let o := d.pair.ochre
    ({ d with pair := { d.pair with ochre := { o with ready := r } } }).raise .EVT_OCHRE (le 1 (ofBool r) ++ le 4 o.fail.toNat)

/-! ### Receiving (R551, R552, R559, R562, R571) -/

/-- Take the oldest MIR frame where it has the type. -/
def takeMir (d : Dev) (type : Nat) : Option (QlFrame × Dev) :=
  match d.links.mirIn with
  | f :: rest => if f.type = type then some (f, { d with links := { d.links with mirIn := rest } }) else none
  | [] => none

/-- Discard the record under assembly (R559). -/
def discardRx (d : Dev) : Dev :=
  match d.pair.rx with
  | some _ => ({ d with pair := { d.pair with rx := none } }).bump Cnt.RECORD_DISCARDED
  | none => d

/-- A committed record is queued for the device's next boundary. -/
def queueCommitted (d : Dev) (e base kind : Nat) (b : List Byte) : Dev :=
  { d with pair := { d.pair with committed := d.pair.committed ++ [⟨e, base, kind, b⟩] } }

/-- A record commits (R559, R562, R571). -/
def commitRecord (d : Dev) (b : List Byte) : Dev :=
  let e := fld b 8 6
  let kind := fld b 6 1
  let base := fld b 0x10 6
  let last := d.pair.commit
  let follows : Bool := decide (last = some (e - 1) ∧ 0 < e ∧ d.pair.rxBase = some base)
  let d := ({ d with pair := { d.pair with rx := none, commit := some e } }).queueMir 0x11 (le 6 e ++ le 1 kind ++ le 1 0)
  let d := (d.bump Cnt.MORDANT_RECORDS).bump Cnt.MORDANT_OCTETS b.length
  let d :=
    if kind = 1 then
      let o := d.pair.ochre
      ({ d with pair := { d.pair with rxBase := some e, ochre := { o with fail := 0 } } }).queueCommitted e base kind b
    else if follows then d.queueCommitted e base kind b
    else if d.modes.redund = .standby then d.enterResync
    else { d with pair := { d.pair with rxBase := none, baseApplied := false } }
  d.refreshReady

/-- A fragment of a record joins the record under assembly, which another record's first fragment discards (R559). -/
def fragmentInto (d : Dev) (f : QlFrame) : Dev :=
  let e := fld f.payload 0 6
  let k := fld f.payload 6 1
  let off := fld f.payload 8 8
  let x := f.payload.drop 16
  let d := if k = 1 then { d with pair := { d.pair with baseFragment := true } } else d
  let same : Bool := match d.pair.rx with | some r => decide (r.epoch = e ∧ r.kind = k) | none => false
  let d := if same then d else d.discardRx
  let old := match d.pair.rx with | some r => r.octets | none => []
  if old.length < off ∧ off ≠ 0 then d
  else
    let b := if off = 0 then x else old.take off ++ x
    let d := { d with pair := { d.pair with rx := some ⟨e, k, b⟩ } }
    if recordCommitted b then d.commitRecord (b.take (fld b 0x18 8 + 32)) else d

/-- MIR_FRAGMENT_RX. Fragments of one record come in order; a record sent again starts at its first octet. -/
def fragmentRx (d : Dev) : Dev :=
  match d.takeMir 0x10 with
  | none => d
  | some (f, d) => if ¬ d.follower then d else d.fragmentInto f

/-- MIR_RECORD_ACK_RX. -/
def recordAckRx (d : Dev) : Dev :=
  match d.takeMir 0x11 with
  | none => d
  | some (f, d) =>
    let e := fld f.payload 0 6
    let k := fld f.payload 6 1
    if d.modes.redund = .active ∧ d.pair.unacked.any (fun r => decide (r.epoch = e ∧ r.kind = k)) then
      ({ d with pair := { d.pair with
          unacked := d.pair.unacked.filter (fun r => !decide (r.epoch = e ∧ r.kind = k)), commit := some e } }).bump
        Cnt.MORDANT_RECORDS
    else d

/-- MIR_REQ_BASE_RX (R571 step 3, R553). -/
def reqBaseRx (d : Dev) : Dev :=
  match d.takeMir 0x12 with
  | none => d
  | some (_, d) =>
    if d.pair.sideBad ∨ ¬ d.pair.allow ∨ d.modes.redund ≠ .solo ∨ ¬ (d.qlp 6).up then d
    else { d with modes := { d.modes with activeDue := true } }

/-- MIR_BREAK_RX. -/
def breakRx (d : Dev) : Dev :=
  match d.takeMir 0x13 with
  | none => d
  | some (_, d) => if d.follower then (d.discardRx).enterResync else d

/-- MIR_OCHRE_RX. -/
def ochreRx (d : Dev) : Dev :=
  match d.takeMir 0x14 with
  | none => d
  | some (f, d) => { d with pair := { d.pair with
      partnerOchre := slice f.payload 0 64, partnerReady := bit (fld f.payload 6 1) 2 } }

/-- REQ_BASE_SEND. -/
def reqBaseSend (d : Dev) : Dev :=
  if d.modes.redund = .resync ∧ ¬ d.pair.baseFragment ∧ (d.qlp 6).up then d.queueMir 0x12 (List.replicate 8 0#8) else d

/-! ### Ochre (R574 to R576) -/

/-- The report (R575). PLAN_ID is 0 while nothing has been inherited. -/
def ochreReport (d : Dev) : List Byte :=
  let o := d.pair.ochre
  le 6 d.lastCommit ++ le 1 (d.modes.redund.code + 4 * ofBool o.ready + 8 * ofBool d.pair.chainOk) ++
    le 1 (pat 8 (clampI (-128) 127 d.elec.tj)) ++ le 4 o.pass.toNat ++ le 4 o.fail.toNat ++ le 4 o.cycles.toNat ++
    le 4 o.sramCe ++ le 4 o.mirReplay ++ d.kcvDigest.take 4 ++ le 4 d.cinCrc ++
    le 4 (match d.vat.inForce with | some v => if d.follower ∧ d.pair.image.isNone then 0 else v.planId | none => 0) ++
    List.replicate 24 0#8

/-- The report is published at every boundary and sent to the partner (R576). -/
def ochreStrobe (d : Dev) : Dev :=
  let o := d.pair.ochre
  let d := ({ d with pair := { d.pair with ochre := { o with mirReplay := o.mirNow, mirNow := 0 } } }).refreshReady
  let d := { d with pair := { d.pair with ochreOctets := d.ochreReport } }
  if (d.qlp 6).up then d.queueMir 0x14 d.pair.ochreOctets else d

/-- Whether a test passes: the state's own word where R574 gives the condition in it, else what the hardware measures. -/
def testPasses (d : Dev) (test : Nat) (pass : Bool) : Bool :=
  match test with
  | 3 => !d.sec.trngFail
  | 4 => (match d.pair.image with | some m => decide (m.kcv = d.kcvDigest) | none => false)
  | 5 => (match d.pair.image with | some m => d.cin.locked && m.cinCrc == d.cinCrc | none => false)
  | 6 => (match d.pair.image with
    | some m => m.vat.isEmpty || (d.commandView.vatFault m.vat m.vat.length).isNone
    | none => false)
  | 8 => !d.pair.ownOut && d.pair.ownIn
  | 10 => (d.qlp 6).up && d.pair.misses == 0
  | _ => pass

/-- OCHRE_TEST_RUN; ce counts the correctable errors that the SRAM test found. -/
def ochreTest (d : Dev) (test : Nat) (pass : Bool) (ce : Nat) : Dev :=
  let may : Bool := d.modes.redund == .standby || (d.modes.redund == .resync && d.pair.rxBase.isSome)
  if ¬ may then d
  else
    let o := d.pair.ochre
    let m : BitVec 11 := 1#11 <<< test
    let ok := d.testPasses test pass
    let done := o.done ||| m
    let o' : Ochre := { o with
      pass := if ok then o.pass ||| m else o.pass
      fail := if ok then o.fail else o.fail ||| m
      sramCe := if test = 0 then min 0xFFFFFFFF (o.sramCe + ce) else o.sramCe
      done := if done = 0x7FF#11 then 0 else done
      cycles := if done = 0x7FF#11 then o.cycles + 1 else o.cycles }
    let d := { d with pair := { d.pair with ochre := o' } }
    let d := if ¬ ok ∧ o.fail &&& m = 0#11 then d.bump Cnt.OCHRE_FAIL else d
    let d := if ¬ ok ∧ test = 1 ∧ d.modes.redund = .standby then d.enterResync else d
    d.refreshReady

/-! ### Application and takeover (R562, R565, R566) -/

/-- The settings, image and phase that an applied record brings come into force (R45, R78). A change of the grid gives the
epoch in progress its new end (R56). -/
def inherit (d : Dev) (m : Mord) : Dev :=
  let d := { d with cfg := d.cfg.filter (fun x => match regAt x.1 with | some r => r.st == 0 | none => false) }
  let d := m.settings.foldl (fun (d : Dev) x => d.putReg x.1 x.2) d
  let v := if m.vat.isEmpty then d.romImage else parseVat m.vat
  let old := d.epoch
  let d := { d with
    vat := { d.vat with inForce := some v }
    modes := { d.modes with phase := (Phase.ofCode m.phase).getD d.modes.phase }
    epoch := { d.epoch with
      lenMs := v.epochLen, origin := d.cfg.EPOCH_ORIGIN_LO_ORIGIN_LO + d.cfg.EPOCH_ORIGIN_HI_ORIGIN_HI * 2 ^ 32 } }
  if d.epoch.lenMs = old.lenMs ∧ d.epoch.origin = old.origin then d else d.regrid old.lenMs

/-- Apply one committed record. -/
def applyCommitted (d : Dev) (r : CommRec) : Dev :=
  let m := ((d.pair.image).getD {}).applyRecord r.octets
  let d := ({ d with pair := { d.pair with image := some m } }).inherit m
  let n := r.epoch + 1
  let d := { d with epoch := { d.epoch with
      num := n, numDsp := n, numPipe := n, numCore := n, numPcie := n, numSerdes := n, numLpddr := n } }
  if d.modes.redund = .resync ∧ r.kind = 1 then { d with pair := { d.pair with baseApplied := true } }
  else if d.modes.redund = .resync ∧ d.pair.baseApplied then
    ({ d with pair := { d.pair with chainOk := true } }).setRedund .standby
  else d

/-- Apply the committed records that wait, in epoch order (R562). -/
def applyAll (d : Dev) : Dev :=
  let l := d.pair.committed
  l.foldl (fun d r => d.applyCommitted r) { d with pair := { d.pair with committed := [] } }

/-- A sub-band takes an inherited tightening field by field, where it is tighter (R125). -/
def tighten (s : SubBand) (a b : W32) : SubBand :=
  let duty := bits a.toNat 31 16
  let eirp := sext 16 (bits a.toNat 15 0)
  let listen := bits b.toNat 15 8
  let thr := sext 8 (bits b.toNat 7 0)
  { s with
    duty := min s.duty duty, maxEirp := if eirp < s.maxEirp then eirp else s.maxEirp
    lbtListen := max s.lbtListen listen, lbtThresh := if thr < s.lbtThresh then thr else s.lbtThresh
    disabled := s.disabled || bit b.toNat 31 }

/-- The limits in force with the inherited tightenings (R125). -/
def tightened (c : Cin) (m : Mord) : Cin :=
  if ¬ c.locked then c
  else { c with sb := (List.range 12).foldl (fun (u : SMap SubBand) n =>
    u.set {} n (tighten (c.sb.get {} n) (m.tight.get (looseWord 0) (2 * n)) (m.tight.get (looseWord 1) (2 * n + 1)))) c.sb }

/-- R566 on one PAN. -/
def resumePan (skip : Nat) (p : Pan) : Pan :=
  { p with fc := min 0xFFFFFFFF (p.fc + skip), nextFlood := (p.nextFlood + 32768) % 65536, floodTaken := 0, floodRsv := 0 }

/-- R566 on one node entry. -/
def resumeNode (skip : Nat) (e : NodeEntry) : NodeEntry := { e with dlFc := min 0xFFFFFFFF (e.dlFc + skip) }

/-- The duty bins, by age, with twice the charge of the last committed epoch in the current bin (R188). -/
def resumeBins (m : Mord) (cur : Nat) : SMap Nat :=
  m.charges.foldl (fun (u : SMap Nat) c => u.upd 0 (61 * c.1 + cur) (fun n => n + 2 * c.2)) (ageBins cur m.dutyBins)

/-- The image is restored into the active banks, and R566 is applied (R565 step 5). -/
def restore (d : Dev) (m : Mord) : Dev :=
  let skip := d.cfg.SEC_CTL_FC_SKIP
  let nodes : NodeBank := ⟨m.nodes.mapAll {} (fun _ e => resumeNode skip e), m.hints, m.seedN⟩
  let pfx : PrefixBank := ⟨m.pfxs, m.seedP⟩
  let d := { d with
    tbl := { node := nodes, route := ⟨m.routes, m.seedR⟩, pfx := pfx, lens := pfx.lens
             seen := { seed := d.tbl.seen.seed }, seenOld := { seed := d.tbl.seenOld.seed }, seedHi := d.tbl.seedHi, vg := d.tbl.vg }
    air := { pans := [0, 1, 2, 3].foldl (fun (u : SMap Pan) k => u.set {} k (resumePan skip (m.pans.get {} k))) []
             nbrs := m.nbrs.mapAll {} (fun _ n => { n with misses := 0 })
             nextGrp := d.air.nextGrp, nextUid := d.air.nextUid }
    duty := { bins := resumeBins m d.duty.cur, cur := d.duty.cur }
    cin := tightened d.cin m
    host := { d.host with hist := trimHist (fun x => d.sameHist x.src x.cpl.origin) (m.hist ++ d.host.hist) }
    sec := { d.sec with keys := SMap.mapAll d.sec.keys ({} : KeySlot) (fun _ x => { x with pendingInvalid := false }) }
    stg := { hold := d.stg.hold }
    vat := { d.vat with staged := none } }
  let d := d.each [0, 1, 2, 3] (fun d k =>
    let t := d.draw 24
    t.2.modPan k (fun p => { p with fragTag := t.1.toNat % 65536, dsn := t.1.toNat / 65536 }))
  let d := match d.vat.inForce with
    | some v => (d.commitTime v).commitPipe v
    | none => d
  { d with tm := { d.tm with
      queues := [], cycBy := [], cycOld := []
      shapers := d.tm.shapers.map (fun x => (x.1, { x.2 with bucket := ((x.2.burst * 256 : Nat) : Int) }))
      policers := d.tm.policers.map (fun x => (x.1, { x.2 with c := x.2.cbs * 256, p := x.2.pbs * 256 })) } }

/-- The journal of an epoch opens: what is written from here on differs from this state (R556). -/
def openJournal (d : Dev) : Dev :=
  { d with pair := { d.pair with journal := if d.runs then some d.mordant else none } }

/-- TAKEOVER_OWN_ACQUIRE (R565 steps 3 to 5): OWN is asserted, the device is Active, and the image is restored. -/
def takeOwn (d : Dev) : Dev :=
  if d.modes.redund ≠ .standby ∨ ¬ d.pair.takeoverWait ∨ ¬ d.ownReleased then d
  else
    let c := d.pair.commit.getD 0
    let d := ((d.discardRx).applyAll).bump Cnt.TAKEOVERS
    let h := match d.pair.hbLast with | some t => d.now - (d.up - t) | none => d.now
    let dup := max 1 d.cfg.PAIR_CTL_DUP_EPOCHS
    let img := d.pair.image.getD {}
    let t : Takeover := ⟨d.pair.ochre.ready, c, dup, d.pair.partnerChip, h, d.now, d.ochreReport, img.hist⟩
    let d := { d with pair := { d.pair with
        takeoverWait := false, restoring := true, takeover := some t, firstEpoch := 0, dupUntil := 0
        mirrorValid := false, mirror := none, unacked := [], broken := false, brokenAt := none, chainOk := true } }
    ((((d.setRedund .active).restore img).openJournal).acquireOwn).evalLanes

/-- TAKEOVER_RESTORE_DONE (R565 step 7): the takeover record forms, EVT_TAKEOVER is posted, and epoch c + 3 follows at the
next grid instant. -/
def restoreDone (d : Dev) : Dev :=
  match d.pair.takeover with
  | none => d
  | some t =>
    if ¬ d.pair.restoring then d
    else
      ({ d with
        pair := { d.pair with
          restoring := false, firstEpoch := t.committed + 3, dupUntil := t.committed + 2 + t.dupEpochs
          mirror := some d.mordant, chainBase := t.committed + 3 } }).raise .EVT_TAKEOVER
        (le 6 t.committed ++ le 6 (t.committed + 3) ++ le 2 t.oldChip)

/-! ### The takeover record (R568, R569) -/

/-- The sources of the inherited history, in order of first appearance: source and chip. -/
def takeSources (t : Takeover) : List (Nat × Nat) := (t.hist.map (fun h => (callerBit h.src, h.cpl.origin))).eraseDups

/-- The CMD_IDs of a source. -/
def idsOf (t : Takeover) (s : Nat × Nat) : List Nat :=
  (t.hist.filter (fun h => decide ((callerBit h.src, h.cpl.origin) = s))).map (fun h => h.cmdId.toNat)

/-- The source entries, with the index of each source's first CMD_ID. -/
def sourceEntries (t : Takeover) : Nat → List (Nat × Nat) → List Byte
  | _, [] => []
  | i, s :: ss =>
    let ids := idsOf t s
    le 1 s.1 ++ le 1 0 ++ le 2 s.2 ++ le 4 (ids.foldl max 0) ++ le 4 ids.length ++ le 4 i ++ sourceEntries t (i + ids.length) ss

/-- The takeover record. -/
def takeoverOctets (t : Takeover) : List Byte :=
  let ss := takeSources t
  asc "QZTR" ++ le 2 1 ++ le 2 (ofBool t.ready) ++ le 6 t.committed ++ le 2 0 ++ le 6 (t.committed + 1) ++ le 2 0 ++
    le 6 (t.committed + 2) ++ le 2 t.dupEpochs ++ le 6 (t.committed + 3) ++ le 2 t.oldChip ++ le 8 t.hbTime ++
    le 8 t.ownTime ++ le 4 ss.length ++ le 4 t.hist.length ++ slice t.ochre 0 64 ++ sourceEntries t 0 ss ++
    ss.flatMap (fun s => (idsOf t s).flatMap (fun i => le 4 i))

/-- Octets written to host memory, on the host path of the control mode. -/
def toHost (d : Dev) (c : Cmd) (b : List Byte) : Dev :=
  match c.hdr.path with
  | .console => d.emit .console 6 b
  | .root | .otherQl => d.emit .qlHost 6 b
  | _ => d.emit .hostDma 1000 (slice c.p 0 8 ++ b)

/-- CMD_TAKEOVER_READ (R569). -/
def takeoverRead (d : Dev) (h : Hdr) (p : List Byte) (dmaOk : Bool) : Dev :=
  let c : Cmd := ⟨h, .CMD_TAKEOVER_READ, 0, p⟩
  d.command c (fun d =>
    match d.pair.takeover with
    | none => d.complete c .ST_NO_TAKEOVER
    | some t =>
      let b := takeoverOctets t
      if d.pair.restoring then d.complete c .ST_NO_TAKEOVER
      else if fld p 8 4 < b.length ∨ ¬ zeros p 0x0C 52 then d.complete c .ST_BAD_PARAM
      else if ¬ dmaOk then d.complete c .ST_TRANSFER_FAIL
      else
        let mine := (t.hist.filter (fun x => callerBit x.src == callerBit h.path)).map (fun x => x.cmdId.toNat)
        (d.toHost c b).complete c .ST_OK
          (le 6 t.committed ++ le 2 0 ++ le 6 (t.committed + 3) ++ le 2 0 ++ le 4 (mine.foldl max 0) ++ le 4 b.length))

end Dev

/-! ### Meanings -/

/-- HEARTBEAT_SEND (R553). -/
def execHeartbeatSend (s : State) : Host.Outcome State Fault Refusal := s.run (fun d => d.heartbeatSend)

/-- HEARTBEAT_STALL (R548). -/
def execHeartbeatStall (s : State) : Host.Outcome State Fault Refusal := s.run (fun d => d.heartbeatStall)

/-- HEARTBEAT_RX (R553, R562). -/
def execHeartbeatRx (val : W16) (s : State) : Host.Outcome State Fault Refusal := s.run (fun d => d.heartbeatRx val.toNat)

/-- HEARTBEAT_MISS (R563, R564). -/
def execHeartbeatMiss (s : State) : Host.Outcome State Fault Refusal := s.run (fun d => d.heartbeatMiss)

/-- OWN_WAIT_DEADLINE (R564). -/
def execOwnWaitDeadline (s : State) : Host.Outcome State Fault Refusal := s.run (fun d => d.ownWaitDeadline)

/-- RECORD_ACK_TIMEOUT (R561). -/
def execRecordAckTimeout (s : State) : Host.Outcome State Fault Refusal := s.run (fun d => d.recordAckTimeout)

/-- MIRROR_FILL_DONE (R572). -/
def execMirrorFillDone (s : State) : Host.Outcome State Fault Refusal := s.run (fun d => d.mirrorFillDone)

/-- MIR_FRAGMENT_RX (R559, R562). -/
def execMirFragmentRx (s : State) : Host.Outcome State Fault Refusal := s.run (fun d => d.fragmentRx)

/-- MIR_RECORD_ACK_RX (R561). -/
def execMirRecordAckRx (s : State) : Host.Outcome State Fault Refusal := s.run (fun d => d.recordAckRx)

/-- MIR_REQ_BASE_RX (R571, R553). -/
def execMirReqBaseRx (s : State) : Host.Outcome State Fault Refusal := s.run (fun d => d.reqBaseRx)

/-- MIR_BREAK_RX (R562). -/
def execMirBreakRx (s : State) : Host.Outcome State Fault Refusal := s.run (fun d => d.breakRx)

/-- MIR_OCHRE_RX (R576). -/
def execMirOchreRx (s : State) : Host.Outcome State Fault Refusal := s.run (fun d => d.ochreRx)

/-- REQ_BASE_SEND (R571). -/
def execReqBaseSend (s : State) : Host.Outcome State Fault Refusal := s.run (fun d => d.reqBaseSend)

/-- OCHRE_TEST_RUN (R574). -/
def execOchreTestRun (test : Fin 11) (pass : Bool) (ce : W32) (s : State) : Host.Outcome State Fault Refusal :=
  s.run (fun d => d.ochreTest test.val pass ce.toNat)

/-- TAKEOVER_OWN_ACQUIRE (R565). -/
def execTakeoverOwnAcquire (s : State) : Host.Outcome State Fault Refusal := s.run (fun d => d.takeOwn)

/-- TAKEOVER_RESTORE_DONE (R565). -/
def execTakeoverRestoreDone (s : State) : Host.Outcome State Fault Refusal := s.run (fun d => d.restoreDone)

/-- CMD_TAKEOVER_READ (R569). -/
def execCmdTakeoverRead (h : Hdr) (p : List Byte) (dmaOk : Bool) (s : State) : Host.Outcome State Fault Refusal :=
  s.run (fun d => d.takeoverRead h p dmaOk)

end Sys2Proof.Machine
end

