-- ==== Sys2Proof/Machine/Epoch.lean ====
section
/-! DEFINITION. The epoch (R54 to R82): the staging freeze, the boundary at B, the boundary strobe in each domain, the
snapshot, and the commit of the built-in image (R79 to R81). -/

namespace Sys2Proof.Machine

namespace Dev

/-- Time reaches an instant of the device time scale, with what falls due on the way. -/
def passTo (d : Dev) (t : Nat) : Dev := (d.advanceTo t).frameEnds.femLeads.exchDue

/-! ### The staging freeze (R60 step 1, R52, R69, R281) -/

/-- The staged commands that a Standby or Resync device refuses. -/
def followerRefuses : Opcode → Bool
  | .CMD_COMMIT | .CMD_SET_PHASE | .CMD_NODE_SET | .CMD_ROUTE_SET | .CMD_PREFIX_SET | .CMD_TABLE_REBUILD | .CMD_NODE_REKEY
  | .CMD_TM_SET | .CMD_NBR_SET => true
  | _ => false

/-- A staged command ends before its boundary, with what it marked undone. A CMD_COMMIT that ends with ST_EPOCH_PASSED under HOLD
(R69) leaves the staged Vat image where it is: R280 discards an image for ST_PHASE_UNSUPPORTED alone (DESIGN CHOICE, log entry
135). -/
def unstage (d : Dev) (x : Staged) (st : Status) : Dev :=
  let c := x.cmd
  let d := { d with stg := { d.stg with cmds := d.stg.cmds.filter (fun y => !decide (y.cmd = c)) } }
  let d : Dev := match c.op, c.sub with
    | .CMD_KEY_SET, 3 => d.modKey (ksSlotField c.p) (fun k => { k with pendingInvalid := false })
    | .CMD_TABLE_REBUILD, 2 =>
      let r := d.rebuild (fld c.p 0 1)
      if r.st = .swapPending then d.setRebuild (fld c.p 0 1) { r with st := .ready } else d
    | _, _ => d
  d.complete c st

/-- The target of a CMD_SET_PHASE among staged commands, the last where there are several. -/
def lastTarget (due : List Staged) : Option Phase :=
  ((due.filter (fun x => x.cmd.op == .CMD_SET_PHASE)).getLast?).bind (fun x => phaseTarget x.cmd.p)

/-- The commit of these staged commands succeeds (R281). -/
def commitGoes (d : Dev) (due : List Staged) : Bool :=
  due.any (fun x => x.cmd.op == .CMD_COMMIT) && (match d.vat.staged with
    | some v =>
      let ph := match lastTarget due with
        | some t => if declares v t then t else d.modes.phase
        | none => d.modes.phase
      declares v ph
    | none => false)

/-- The outcome that the freeze fixes for a command of the boundary, if it fails there (R52, R281, R346). -/
def freezeOutcome (d : Dev) (due : List Staged) (x : Staged) : Option Status :=
  let img := if d.commitGoes due then d.vat.staged
    else if d.modes.romDue ∧ d.modes.redund = .solo then some d.romImage else d.vat.inForce
  if d.follower ∧ followerRefuses x.cmd.op then some .ST_MODE_REFUSED
  else match x.cmd.op, x.cmd.sub with
    | .CMD_COMMIT, _ => if d.commitGoes due then none else some .ST_PHASE_UNSUPPORTED
    | .CMD_SET_PHASE, _ =>
      (match img, phaseTarget x.cmd.p with
       | some v, some t => if declares v t then none else some .ST_PHASE_UNSUPPORTED
       | _, _ => some .ST_PHASE_UNSUPPORTED)
    | .CMD_TABLE_REBUILD, 2 =>
      if (d.rebuild (fld x.cmd.p 0 1)).st = .copying then some .ST_REBUILD_INCOMPLETE else none
    | _, _ => none

/-- The command's epoch lies before the next one (−1), is the next one or the next boundary (0), or lies behind it (1). -/
def dueSign (d : Dev) (x : Staged) : Int :=
  match x.atEpoch with
  | none => 0
  | some e => if e < d.nextNum then -1 else if e = d.nextNum then 0 else 1

/-- An Active device whose MIR is down (R50, R577), and which has had no heartbeat for 3 ms, or none ever (DEDUCED, log entry
40). -/
def mirSilent (d : Dev) : Bool :=
  d.modes.redund == .active && !(d.qlp 6).up &&
    (match d.pair.hbLast with
     | none => true
     | some t => decide (t + 3000000 ≤ d.up))

/-- What the device has decided by itself goes with the freeze (R50, R79): it is no staged setting, and HOLD does not stop
it. -/
def freezeModes (d : Dev) : Dev :=
  let m := d.modes
  let silent : Bool := decide (d.epoch.num < d.pair.firstEpoch) && !d.pair.restoring && decide (3 ≤ d.pair.misses)
  { d with modes := { m with
      lossFrozen := m.lossDue, activeFrozen := m.activeDue, soloFrozen := m.soloDue || silent || d.mirSilent
      romDue := m.bootDone } }

/-- STAGING_FREEZE. -/
def stagingFreeze (d : Dev) : Dev :=
  if d.modes.inReset then d
  else
    let d := d.passTo (d.epoch.nextB - 1000000)
    let d := ({ d with epoch := { d.epoch with frozen := true } }).freezeModes
    let late := d.stg.cmds.filter (fun x => d.dueSign x < 0 || (d.stg.hold && x.atEpoch.isSome && d.dueSign x == 0))
    let d := late.foldl (fun (d : Dev) x => d.unstage x .ST_EPOCH_PASSED) d
    if d.stg.hold then d
    else
      let due := d.stg.cmds.filter (fun x => d.dueSign x == 0)
      let bad := due.filterMap (fun x => (d.freezeOutcome due x).map (fun st => (x, st)))
      let d := bad.foldl (fun (d : Dev) y => d.unstage y.1 y.2) d
      let next := d.nextNum
      let isDue := fun (x : Staged) => match x.atEpoch with | none => true | some e => decide (e ≤ next)
      { d with stg := { d.stg with
          frozenRegs := d.stg.regs.foldl (fun (m : SMap W32) x => m.put x.1 x.2) d.stg.frozenRegs
          regs := []
          cmds := d.stg.cmds.map (fun x => if isDue x then { x with frozen := true } else x) } }

/-! ### Applying staged settings (R60 step 3, R67) -/

/-- A field of a tightening: the value taken, and whether the write was looser than what is in force (R124). -/
def tighter (strict : Bool) (new old : Int) : Int × Bool := if strict then (new, false) else (old, decide (new ≠ old))

/-- A staged CIN_TIGHT word meets the sub-band in force, field by field (R124). -/
def applyTight (d : Dev) (n : Nat) (second : Bool) (v : Nat) : Dev :=
  let s := d.cin.sb.get {} n
  let r : SubBand × List Bool :=
    if second then
      let l := tighter (decide (s.lbtListen ≤ bits v 15 8)) (bits v 15 8) s.lbtListen
      let t := tighter (decide (sext 8 (bits v 7 0) ≤ s.lbtThresh)) (sext 8 (bits v 7 0)) s.lbtThresh
      ({ s with lbtListen := l.1.toNat, lbtThresh := t.1, disabled := s.disabled || bit v 31 },
        [s.disabled && !bit v 31, l.2, t.2])
    else
      let u := tighter (decide (bits v 31 16 ≤ s.duty)) (bits v 31 16) s.duty
      let e := tighter (decide (sext 16 (bits v 15 0) ≤ s.maxEirp)) (sext 16 (bits v 15 0)) s.maxEirp
      ({ s with duty := u.1.toNat, maxEirp := e.1 }, [u.2, e.2])
  let d := { d with cin := { d.cin with sb := d.cin.sb.set {} n r.1 } }
  (r.2.filter (fun b => b)).foldl (fun (d : Dev) _ => d.violate .VIO_CIN_LOOSEN (le 1 n)) d

/-- One staged register value comes into force. -/
def applyReg (d : Dev) (off : Nat) (v : W32) : Dev :=
  if Reg.CIN_TIGHT_A 0 ≤ off ∧ off < Reg.CIN_TIGHT_A 12 then
    d.applyTight ((off - Reg.CIN_TIGHT_A 0) / 8) (off % 8 == 4) v.toNat
  else d.putReg off v

/-- The frozen register values that a domain applies. -/
def applyRegs (d : Dev) (p : Nat → Bool) : Dev :=
  let l := d.stg.frozenRegs.filter (fun x => p x.1)
  l.foldl (fun (d : Dev) x => d.applyReg x.1 x.2)
    { d with stg := { d.stg with frozenRegs := d.stg.frozenRegs.filter (fun x => !p x.1) } }

/-- Take the frozen commands that a predicate names, in order of acceptance. -/
def takeFrozen (d : Dev) (p : Cmd → Bool) : List Cmd × Dev :=
  let q := fun (x : Staged) => x.frozen && p x.cmd
  ((d.stg.cmds.filter q).map (fun x => x.cmd), { d with stg := { d.stg with cmds := d.stg.cmds.filter (fun x => !q x) } })

/-! ### Counters and SN values (R60 step 3, R592, R593) -/

/-- The statistics counters (R591): first offset, stride, instances, octets of each instance that hold them. -/
def wideSpans : List (Nat × Nat × Nat × Nat) :=
  [(0x101000, 0x40000, 4, 0x10), (0x200100, 0x400, 192, 0x10), (0x240080, 0x100, 16, 8), (0x281000, 0x100, 4, 0x18),
   (0x300100, 0x20000, 4, 8), (0x401000, 0x1000, 1, 0x18), (0x481000, 0x1000, 1, 0x10), (0x501000, 0x100, 2, 0x10),
   (0x501200, 0x100, 1, 0x10), (0x502000, 8, 1024, 8), (0x581008, 8, 1, 8), (0x590000, 0x20, 4096, 0x10),
   (0x601000, 0x1000, 1, 0x20), (0x681000, 0x1000, 1, 0x10), (0x708000, 0x100, 4, 0x10), (0x782000, 0x40, 6, 0x10),
   (0x801000, 0x1000, 1, 0x10), (0x801100, 0x20, 16, 8), (0x880100, 0x100, 1, 8), (0x901000, 0x1000, 1, 0x18),
   (0x981000, 0x1000, 1, 0x10)]

/-- The offset is that of a statistics counter. -/
def isWide (off : Nat) : Bool :=
  wideSpans.any (fun r => decide (r.1 ≤ off ∧ (off - r.1) / r.2.1 < r.2.2.1 ∧ (off - r.1) % r.2.1 < r.2.2.2))

/-- The offset is one of the traffic manager's level values, which are latched for the queues, shapers and policers that
exist: every other reads 0 (R402, R404). -/
def levelAt (off : Nat) : Bool := subsysOf off == 12

/-- Latch the counters and SN values of a domain, then clear the event counters that CNT_CLEAR names (R593). -/
def latchDomain (d : Dev) (dom : Option Domain) (sn : List (Nat × Nat)) : Dev :=
  let here := d.cnt.live.filter (fun x => decide (counterDomain x.1 = dom))
  let named := fun (off : Nat) => bit d.snap.clear (subsysOf off - 1)
  let others := d.snap.latch.filter (fun x => !((isCounter x.1 || levelAt x.1) && decide (counterDomain x.1 = dom)))
  let latch := (here ++ sn).foldl (fun (m : SMap Nat) x => m.put x.1 x.2) others
  let live := d.cnt.live.filter (fun x => !(decide (counterDomain x.1 = dom) && named x.1 && !isWide x.1))
  let subs := (List.range 20).filter (fun i =>
    bit d.snap.clear i && decide ((match i + 1 with
      | 1 | 2 | 3 | 4 | 5 => some Domain.dsp
      | 6 | 14 => none
      | 9 | 17 => some .core
      | 16 => some .pcie
      | 15 => some .serdes
      | _ => some .pipe) = dom))
  { d with
    snap := { d.snap with latch := latch }
    cnt := { d.cnt with live := live, sat := subs.foldl (fun (b : BitVec 20) i => b &&& ~~~(1#20 <<< i)) d.cnt.sat } }

/-- The state that a snapshot shows: a Standby or Resync device shows the state it has inherited (R76). -/
def snapView (d : Dev) : Dev :=
  match d.follower, d.pair.image with
  | true, some m => { d with
      tbl := { d.tbl with
        node := ⟨m.nodes, m.hints, m.seedN⟩, route := ⟨m.routes, m.seedR⟩, pfx := ⟨m.pfxs, m.seedP⟩ }
      cin := tightened d.cin m
      air := { d.air with pans := m.pans, nbrs := m.nbrs }
      duty := { d.duty with bins := m.dutyBins } }
  | _, _ => d

/-- The driver limit and LBT threshold in force of each port and sub-band (R119, R126), on an unlocked device those of R123. -/
def limitsInForce (d : Dev) : List (Int × Int) :=
  (List.range 4).flatMap (fun p => (List.range 12).map (fun n =>
    if d.cin.locked then
      let s := d.cin.sb.get {} n
      let q := d.cin.ports.get {} p
      (min 32 (s.maxEirp - q.aerialGain + (q.cableLoss : Int) - q.femTxGain),
        4 * s.lbtThresh + q.aerialGain - (q.cableLoss : Int) + 4 * q.femRxGain)
    else (-80, 4 * sext 8 (d.cfg.CSMA_CTL_CCA_THRESH p))))

/-- SN values of the TIME domain. -/
def timeSn (d : Dev) : List (Nat × Nat) := [(Reg.TIME_ERR, d.time.spread * 65536 + d.errEst)]

/-- Addresses free in the pool of PAN_k (R216). -/
def freeAddrs (d : Dev) (k : Nat) : Nat :=
  let lo := d.cfg.PAN_POOL_LO k
  let hi := min 0xFFEF (d.cfg.PAN_POOL_HI k)
  let inPool := fun (a : Nat) => decide (lo ≤ a ∧ a ≤ hi)
  let p := d.pan k
  let used := (p.used.filter (fun x => x.2 && inPool x.1)).length
  let gone := (p.retired.filter (fun x => x.2 && inPool x.1 && !p.used.get false x.1)).length
  let held := (p.hold.filter (fun x => inPool x.1 && d.held k x.1 && !p.used.get false x.1 && !p.retired.get false x.1)).length
  hi + 1 - lo - used - gone - held

/-- SN values of the air state: used airtime and free addresses. -/
def airSn (d : Dev) : List (Nat × Nat) :=
  (List.range 48).map (fun a => (Reg.DUTY_USED (a / 12) (a % 12), d.dutyUsed a)) ++
    (List.range 4).map (fun k => (Reg.PAN_FREE k, d.freeAddrs k))

/-- SN values of the DSP domain: noise and the air state. -/
def dspSn (d : Dev) : List (Nat × Nat) :=
  (List.range 192).map (fun l => (Reg.LANE_NOISE l, (d.lane l).noise)) ++ d.airSn

/-- The neighbour records, the limits and the tightenings are latched with the DSP domain's values (R72, R76). -/
def latchAir (d : Dev) : Dev :=
  let v := d.snapView
  { d with snap := { d.snap with
      latchNbrs := (List.range 64).flatMap (fun i => (v.nbr i).octets), latchLimits := v.limitsInForce
      latchTight := (List.range 24).map (fun n => v.tightWords.get 0 n) } }

/-- The inherited air state joins the values latched, once this boundary's record is applied (R76). -/
def latchInherited (d : Dev) : Dev :=
  let latch := d.snapView.airSn.foldl (fun (m : SMap Nat) x => m.put x.1 x.2) d.snap.latch
  ({ d with snap := { d.snap with latch := latch } }).latchAir

/-- MAX_HOP of PAN_k (R309). -/
def maxHopOf (d : Dev) (k : Nat) : Nat :=
  let l := (d.tbl.node.slots.filter (fun x => decide (x.2.pan = k ∧ x.2.hopDist ≠ 0xFF) && d.seesNode x.2)).map
    (fun x => x.2.hopDist)
  if l.isEmpty then d.defaultTtl - d.cfg.MESH_CTL_MARGIN else l.foldl max 0

/-- SN values of the PIPE domain; the state is that of snapView. -/
def pipeSn (d : Dev) (power : Nat) : List (Nat × Nat) :=
  (List.range 4).map (fun k => (Reg.MESH_FLOOD k, min 31 (d.maxHopOf k) * 2 ^ 24)) ++
    [(Reg.MESH_SEEN_USED, (d.tbl.seen.slots.filter (fun x => x.2.valid && !d.seenExpired x.2)).length)] ++
    (List.range 4).map (fun k =>
      (Reg.NODE_COUNT k, (d.tbl.node.slots.filter (fun x => decide (x.2.pan = k) && d.seesNode x.2)).length)) ++
    [(Reg.VG_STATUS, d.tbl.vg.passes % 65536 * 65536 + min 0xFFFF d.tbl.vg.lastMismatch),
     (Reg.TM_BUF_USED, d.bufUsed / 1024)] ++
    d.tm.shapers.map (fun x => (Reg.SHP_LEVEL x.1, pat 32 x.2.bucket)) ++
    d.tm.policers.map (fun x => (Reg.POL_LEVEL x.1, x.2.c)) ++
    d.tm.policers.map (fun x => (Reg.POL_LEVEL x.1 + 4, x.2.p)) ++
    d.tm.queues.map (fun x => (Reg.Q_DEPTH x.1, min 0xFFFF x.2.length)) ++
    (List.range 4).map (fun k => (Reg.SEC_PAN_FC k, (d.pan k).fc)) ++
    (List.range 16).map (fun w => (Reg.OCHRE w, fld d.pair.ochreOctets (4 * w) 4)) ++
    (List.range 16).map (fun w => (Reg.PARTNER_OCHRE w, fld d.pair.partnerOchre (4 * w) 4)) ++
    [(Reg.CNT_SAT, d.cnt.sat.toNat), (Reg.POWER_EST, power),
     (Reg.TEMP_STATUS, pat 8 d.elec.tj * 2 ^ 24 + pat 8 d.elec.peak * 2 ^ 16 + ofBool d.tempWarn)]

/-! ### The built-in image (R79 to R81, R283, R449) -/

/-- The settings of the one-PAN border router (R80): PAN_0 in service under the block's PAN ID, open to association under
slot 1,023, its prefix with context 0, and the two keys (R449). -/
def provision (d : Dev) : Dev :=
  let ctx := be 2 d.sec.provPan ++ List.replicate 14 0#8
  let d := d.modKey 1022 (fun k => { k with
    valid := true, pub := false, level := 2, usage := d.sec.provUsage, callers := d.sec.provCallers
    parent := transportParent, key := d.sec.provKey, volatile := true })
  let d := d.modKey 1023 (fun k => { k with
    valid := true, pub := false, level := 3, usage := 3, callers := d.sec.provCallers, parent := 1022
    key := kdf d.sec.provKey (asc "QZ-SLOT") ctx 256, volatile := true })
  let d := (d.setCfg (Reg.PAN_CFG 0) (0xC0000000 + d.sec.provPan)).setCfg (Reg.SEC_PAN 0) (0x68000 + 1023)
  let e : PrefixEntry := { pfx := maskPfx d.sec.provPrefix d.sec.provLen, len := d.sec.provLen, valid := true, context := 0x80
                           prog := 4, setEpoch := d.epoch.num % 65536 }
  (d.putPfx e false).getD d

/-- The ROM image comes into force at B on a Solo device, with the phase of R79 to R81. An image that is staged stays so. A
Stand-alone device routes to ETH_0 (R80) or sends its datagrams there (R81), so that the port is in use: ETH_CFG_0.EN is
set (DEDUCED, log entry 137). -/
def romCommit (d : Dev) : Dev :=
  let kept := d.vat.staged
  let d := d.commitTime d.romImage
  let d := { d with vat := { d.vat with pipeDue := true, dspDue := true } }
  let d := match kept with | some v => d.stageImage v | none => d
  let d := if d.modes.control = .standAlone then
      d.setCfg (Reg.ETH_CFG 0) (d.regInForce (Reg.ETH_CFG 0) 0x40005F2 % 2 ^ 31 + 2 ^ 31) else d
  if d.modes.control = .standAlone ∧ d.modes.provValid then
    (if d.cin.locked then d.provision.setPhase .startUp else (d.raise .EVT_CINNABAR_UNLOCKED []).setPhase .survey)
  else d.setPhase .survey

/-! ### The boundary at B (R60 step 2, R67) -/

/-- The image commits of a boundary. -/
def applyCommits (d : Dev) : Dev :=
  let rom : Bool := d.modes.romDue && d.modes.redund == .solo
  let clear := d.modes.romDue
  let d := { d with modes := { d.modes with romDue := false, bootDone := d.modes.bootDone && !clear } }
  let d := if rom then d.romCommit else d
  let q := d.takeFrozen (fun c => c.op == .CMD_COMMIT)
  q.1.foldl (fun (d : Dev) c =>
    match d.vat.staged with
    | some v =>
      let d := d.commitTime v
      ({ d with vat := { d.vat with pipeDue := true, dspDue := true } }).completeStaged c .ST_OK
    | none => d.completeStaged c .ST_NOTHING_STAGED) q.2

/-- A staged mode command at its boundary. -/
def applyModeCmd (d : Dev) (c : Cmd) : Dev :=
  match c.op with
  | .CMD_HOST_ATTACH => d.hostAttachApply c
  | _ => match phaseTarget c.p with
    | some t => (d.setPhase t).completeStaged c .ST_OK
    | none => d

/-- The mode changes of a boundary (R50, R52, R53); `old` is the phase of the epoch that ends. -/
def applyModes (d : Dev) (old : Phase) : Dev :=
  let m := d.modes
  let d := { d with modes := { m with
      lossFrozen := false, lossDue := m.lossDue && !m.lossFrozen, soloFrozen := false, soloDue := m.soloDue && !m.soloFrozen
      activeFrozen := false, activeDue := m.activeDue && !m.activeFrozen } }
  let d := if m.lossFrozen then d.setControl .standAlone else d
  let d := if m.soloFrozen ∧ d.modes.redund = .active ∧ ¬ d.pair.restoring then d.setRedund .solo else d
  let d := if m.activeFrozen ∧ d.modes.redund = .solo ∧ (d.qlp 6).up ∧ d.pair.allow ∧ ¬ d.pair.sideBad then d.enterActive else d
  let q := d.takeFrozen (fun c => c.op == .CMD_HOST_ATTACH || c.op == .CMD_SET_PHASE)
  let d := q.1.foldl (fun (d : Dev) c => d.applyModeCmd c) q.2
  let rom : Bool := (match d.vat.inForce with | some v => v.rom | none => false) && d.modes.phase == .startUp && d.runs
  if ¬ rom then { d with modes := { d.modes with dwellDue := false, romDwell := 0 } }
  else if m.dwellDue then ({ d with modes := { d.modes with dwellDue := false } }).setPhase .service
  else if old = .startUp then { d with modes := { d.modes with romDwell := d.modes.romDwell + 1 } }
  else d

/-- A neighbour is a candidate for the time reference (R472). -/
def timeCandidate (n : Nbr) : Bool := n.valid && !n.lost && n.src != 3 && !n.holdover && decide (n.hops ≤ 14)

/-- One candidate is chosen before another: fewer hops, then a smaller error, then a lower chip ID. -/
def nbrBefore (a b : Nbr) : Bool :=
  decide (a.hops < b.hops ∨ (a.hops = b.hops ∧ (a.err < b.err ∨ (a.err = b.err ∧ a.chip < b.chip))))

/-- The time reference and TIME_MESH_SPREAD at a boundary (R472, R473). -/
def selectTimeRef (d : Dev) : Dev :=
  let cs := (List.range 64).filter (fun i => timeCandidate (d.nbr i))
  let has := cs.any (fun i => (d.nbr i).timeRef)
  let best := cs.foldl (fun (b : Option Nat) i => match b with
    | none => some i
    | some j => if nbrBefore (d.nbr i) (d.nbr j) then some i else some j) none
  let d := if has then d
    else d.each (List.range 64) (fun d i =>
      let want : Bool := decide (best = some i)
      if (d.nbr i).valid ∧ (d.nbr i).timeRef ≠ want then d.setNbr i { d.nbr i with timeRef := want } else d)
  let offs := (cs.filter (fun i => !(d.nbr i).timeRef)).map (fun i =>
    absI (((d.nbr i).countSync : Int) - (d.nbr i).countTx - d.cfg.TIME_MESH_FLIGHT_NS))
  { d with time := { d.time with spread := min 0xFFFF (offs.foldl max 0 / 10) } }

/-- The instructions that a cut epoch has left behind its end: none of them issues, and each counts (R258). -/
def truncRest (d : Dev) : Dev :=
  d.each [0, 1, 2, 3] (fun d s =>
    let q := d.seq s
    if q.stopped || q.inTail || q.cut.isNone then d
    else d.bump (Cnt.SEQ_TRUNCATED s)
      ((d.bankWords s false).filter (fun x => stillIssues { q with cut := none } x.1 (seqTick x.2))).length)

/-- The sequencers at B (R229, R259): tick 0 of the bank in force where the device runs, else stopped. -/
def startSeqs (d : Dev) : Dev :=
  let go : Bool := d.runs && d.pair.ownOut && !d.pair.restoring && !d.flt.fatal && d.vat.inForce.isSome
  d.each [0, 1, 2, 3] (fun d s => d.modSeq s (fun x =>
    if go then { x with
      stopped := false, pc := 0, inTail := false, cut := none, condA := true, condLeft := 0, condN := 0, tickNow := none }
    else { x with stopped := true, inTail := false, cut := none }))

/-- The next boundary instant (R56). A change of length or origin at this boundary gives the epoch that opens a new grid, a
cut tick (R258), and the duration of at most the new length and 64 ms (R553). -/
def setNextB (d : Dev) (changed : Bool) : Dev :=
  if changed then d.regrid 0
  else { d with epoch := { d.epoch with nextB := d.gridNext } }

/-- EPOCH_BOUNDARY. -/
def epochBoundary (d : Dev) : Dev :=
  if d.modes.inReset then d
  else
    let d := d.passTo d.epoch.nextB
    let d := d.truncRest
    let oldLen := d.epoch.lenMs
    let oldPhase := d.modes.phase
    let oldOrigin := d.epoch.origin
    let d := { d with
      epoch := { d.epoch with
        num := d.nextNum, start := d.now, frozen := false, gridOld := none
        strobes := [.dsp, .pipe, .core, .pcie, .serdes, .lpddr] }
      snap := { d.snap with ended := d.epoch.num, clear := match d.stg.frozenRegs.find Reg.CNT_CLEAR with | some v => v.toNat | none => 0 } }
    let d := d.applyCommits
    let d := d.applyRegs (fun off => off == Reg.EPOCH_ORIGIN_LO || off == Reg.EPOCH_ORIGIN_HI)
    let d := { d with epoch := { d.epoch with
        origin := d.cfg.EPOCH_ORIGIN_LO_ORIGIN_LO + d.cfg.EPOCH_ORIGIN_HI_ORIGIN_HI * 2 ^ 32
        lenMs := match d.vat.inForce with | some v => v.epochLen | none => d.epoch.lenMs } }
    let d := d.applyModes oldPhase
    let d := d.applyRegs (fun off => decide (domainOf off = none))
    let d := (d.startSeqs).setNextB (decide (d.epoch.lenMs ≠ oldLen ∨ d.epoch.origin ≠ oldOrigin))
    let d := d.selectTimeRef
    d.latchDomain none d.timeSn

/-! ### The strobe in each domain (R60 step 3, R61) -/

/-- More units than a port takes name it (R128, R171). -/
def overcommit (d : Dev) (v : Vio) (n most : Nat) (port : Nat → Nat) : Dev :=
  d.each [0, 1, 2, 3] (fun d p =>
    if most < ((List.range n).filter (fun i => port i == p)).length then d.violate v (le 1 p) else d)

/-- A port at the DSP strobe: ENABLE, the coexistence lines, the AGC range and the line maps in force (R86, R97, R107,
R114). -/
def portStrobe (d : Dev) (p : Nat) : Dev :=
  let st := (d.port p).st
  let d := if d.cfg.RF_CTL_ENABLE p = 1 then d.portStart p .locking
    else
      let d := if st ≠ .off ∧ st ≠ .stby then d.fall p else d
      d.modPort p (fun x => { x with fault := false, calHold := false, step := .none })
  let d := if d.cfg.COEX_CTL_EN p = 0 then (d.coexFall p).modPort p (fun x => { x with rxp := false }) else d
  (d.agcClamp p).refreshFem p

/-- The home retune of R257, which a sequencer issues ahead of its bank's instructions. -/
def homeRetune (d : Dev) (s : Nat) : Dev :=
  if (d.seq s).stopped ∨ (d.port s).centre = (d.port s).home then d
  else (d.bump (Cnt.HOME_RETUNE s)).seqRetune s true 0

/-- The settings of the lanes and carriers change (R64, R256): those in an exchange keep theirs until it ends, the values
that sequencer instructions put in force end, and a lane that comes to another channel or mode hears it from now on. -/
def changeAir (d : Dev) (f : Dev → Dev) : Dev :=
  let d := (d.each (List.range 192) (fun d l => d.holdLane l)).each (List.range 16) (fun d c => d.holdCarrier c)
  let old := (List.range 192).map (fun l => (d.lanePort l, d.laneKhz l, d.laneMode l))
  let d := f d
  let d := d.each (List.range 192) (fun d l =>
    if (d.lane l).freqOv.isSome ∨ (d.lane l).modeOv.isSome then d.modLane l (fun x => { x with freqOv := none, modeOv := none })
    else d)
  let d := d.each (List.range 16) (fun d c =>
    let x := d.carrier c
    if x.freqOv.isSome ∨ x.modeOv.isSome ∨ x.deferFreq.isSome ∨ x.deferMode.isSome then
      d.modCarrier c (fun x => { x with freqOv := none, modeOv := none, deferFreq := none, deferMode := none })
    else d)
  d.each (List.range 192) (fun d l =>
    if old.getD l (none, 0, 0) = (d.lanePort l, d.laneKhz l, d.laneMode l) then d
    else d.modLane l (fun x => { x with liveSince := d.up }))

/-- The DSP strobe. Lanes are parked before ports blank theirs (R145). -/
def dspStrobe (d : Dev) : Dev :=
  let d := { d with epoch := { d.epoch with numDsp := d.epoch.num } }
  let d := (List.range 192).foldl (fun (d : Dev) l => d.latchNoise l) d
  let q := d.takeFrozen (fun c => c.op == .CMD_NBR_SET)
  let d := q.1.foldl (fun (d : Dev) c => d.nbrSetApply c) q.2
  let d := d.changeAir (fun d =>
    let d := match d.vat.dspDue, d.vat.inForce with
      | true, some v => d.loadPlans v
      | _, _ => d
    ({ d with vat := { d.vat with dspDue := false } }).applyRegs (fun off => decide (domainOf off = some Domain.dsp)))
  let d := d.overcommit .VIO_LG_OVERCOMMIT 24 12 (fun g => d.cfg.LG_CFG_PORT g)
  let d := (d.overcommit .VIO_TXC_OVERCOMMIT 16 4 (fun c => d.cfg.TXC_CFG_PORT c)).evalLanes
  let d := d.each [0, 1, 2, 3] (fun d p => d.portStrobe p)
  let d := d.each [0, 1, 2, 3] (fun d s => d.homeRetune s)
  let d := { d with duty := { d.duty with lastCharge := d.duty.epochCharge, epochCharge := [], evtDone := [] } }
  let d := d.each [0, 1, 2, 3] (fun d k => d.modPan k (fun x => { x with free := d.freeAddrs k }))
  let d := ((d.latchDomain (some .dsp) d.snapView.dspSn).latchAir).refreshUsable
  d.after

/-- A staged command of the PIPE domain at its boundary. -/
def applyPipeCmd (d : Dev) (c : Cmd) : Dev :=
  match c.op with
  | .CMD_NODE_SET | .CMD_ROUTE_SET | .CMD_PREFIX_SET => d.tblApply c
  | .CMD_TABLE_REBUILD => d.swapApply c
  | .CMD_NODE_REKEY => d.rekeyApply c
  | .CMD_TM_SET => d.tmSetApply c
  | .CMD_KEY_SET => d.keySetApply c
  | .CMD_PAIR_SET => d.pairSetApply c
  | .CMD_SEEN_FLUSH => (d.seenFlush).completeStaged c .ST_OK
  | _ => d

/-- A node entry at a boundary (R297, R588): HOP_DIST takes HOP_MIN, and the mark of an uncertain counter ends. -/
def settled (e : NodeEntry) : NodeEntry :=
  if e.valid then { e with hopDist := if e.hopMin = 0xFF then e.hopDist else e.hopMin, hopMin := 0xFF, dup := false } else e

/-- The node entries at a boundary. The same change reaches the entries of a staged bank (R342) at once and takes no place in
the queue of second-bank copies (DESIGN CHOICE, log entry 160). -/
def settleNodes (d : Dev) : Dev :=
  let act := d.tbl.node
  let both := fun (s : Nat) (e : NodeEntry) =>
    let a := act.at_ s
    if e.valid ∧ a.valid ∧ a.eui = e.eui ∧ a.hopMin ≠ 0xFF then { e with hopDist := a.hopMin, hopMin := 0xFF } else e
  { d with tbl := { d.tbl with
      node := { act with slots := act.slots.mapAll {} (fun _ e => settled e) }
      nodeStaged := if (d.rebuild 0).st = .idle then d.tbl.nodeStaged
        else { d.tbl.nodeStaged with slots := d.tbl.nodeStaged.slots.mapAll {} both } } }

/-- The PAN counters start again where the boundary changed the PAN's key slot (R434). -/
def resetPanFc (d : Dev) (old : List Nat) : Dev :=
  d.each [0, 1, 2, 3] (fun d k =>
    if old.getD k 0 = d.cfg.SEC_PAN_KEY_SLOT k then d
    else
      let d := d.modPan k (fun x => { x with fc := 0 })
      { d with sec := { d.sec with panEvt := d.sec.panEvt.filter (fun x => x != k) } })

/-- The PIPE domain takes the settings of the boundary; a pass under way keeps those it began with (R64). -/
def pipeSettings (d : Dev) : Dev :=
  let d := { d with epoch := { d.epoch with numPipe := d.epoch.num } }
  let slots := (List.range 4).map (fun k => d.cfg.SEC_PAN_KEY_SLOT k)
  let d := d.each [0, 1] (fun d i =>
    let s := d.pipeSt i
    if s.cur.isSome ∧ s.oldCfg.isNone then d.setPipe i { s with oldCfg := some d.cfg } else d)
  let d : Dev := match d.vat.pipeDue, d.vat.inForce with
    | true, some v =>
      let d := d.commitPipe v
      { d with vat := { d.vat with pipeDue := false }, pair := { d.pair with vatCommitted := true } }
    | _, _ => d
  (d.applyRegs (fun off => decide (domainOf off = some Domain.pipe))).resetPanFc slots

/-- Commands keep the slots of before the PIPE strobe until their own strobe, where that is still to come and a slot has become
invalid (R438). -/
def keepCoreKeys (d : Dev) (old : SMap KeySlot) : Dev :=
  let gone := d.epoch.strobes.contains .core && old.any (fun x => x.2.valid && !(d.key x.1).valid)
  { d with sec := { d.sec with coreKeys := if gone then some old else none } }

/-- The staged commands of the PIPE domain apply (R60 step 3), and entries age (R339). -/
def pipeCommands (d : Dev) : Dev :=
  let d := { d with sec := { d.sec with coreKeys := none } }
  let q := d.settleNodes.takeFrozen (fun c => !(c.op == .CMD_NBR_SET))
  let d := ((q.1.foldl (fun (d : Dev) c => d.applyPipeCmd c) q.2).applyLeaving).keepCoreKeys d.sec.keys
  (d.tbl.node.slots.map (fun x => x.1)).foldl (fun (d : Dev) s => d.ageOut s) d

/-- What each epoch begins anew: the prefix lengths, Verdigris events, the tally, flood counts, and links whose rate no longer
fits. -/
def pipeAnew (d : Dev) : Dev :=
  let d := { d with
    tbl := { d.tbl with lens := d.tbl.pfx.lens, vg := { d.tbl.vg with events := 0 } }
    vio := { d.vio with tally := [] } }
  let d := d.each [0, 1, 2, 3] (fun d k => d.modPan k (fun x => { x with maxHop := d.maxHopOf k, floodTaken := 0 }))
  d.each [0, 1, 2, 3] (fun d e =>
    if (d.eth e).link ∧ ¬ d.rateFits e (d.eth e).rate then d.setLink e false 7 else d)

/-- The PIPE domain latches its counters and SN values, and the snapshot may fill. -/
def pipeLatch (d : Dev) : Dev :=
  let w := d.draw 16
  let d := w.2.latchDomain (some .pipe) (w.2.snapView.pipeSn w.1.toNat)
  let d := if d.follower then d.latchInherited else d
  { d with elec := { d.elec with peak := d.elec.tj }, snap := { d.snap with fill := true } }

/-- The PIPE strobe (R60 steps 3 and 4). A Standby or Resync device applies the committed records that wait (R562). The record
of the ended epoch goes out, and the journal of the new one opens (R556). -/
def pipeStrobe (d : Dev) : Dev :=
  let e := d.pipeSettings.pipeCommands.pipeAnew
  let e := if e.follower then e.applyAll else e
  let e := (e.refreshSpans).ochreStrobe.pipeLatch
  ((e.recordStrobe e.epoch.num).openJournal.writeIfDue).alertFrom d.alertLow

/-- The SERDES strobe: a link that is out of use goes down. -/
def serdesStrobe (d : Dev) : Dev :=
  let d := { d with epoch := { d.epoch with numSerdes := d.epoch.num } }
  let d := d.applyRegs (fun off => decide (domainOf off = some Domain.serdes))
  let d := d.each [0, 1, 2, 3, 4, 5] (fun d q => if (d.qlp q).up ∧ ¬ d.linkWanted q then d.linkDown q else d)
  d.latchDomain (some .serdes) []

/-- The slots that commands see at the CORE strobe (R438): where the PIPE strobe is still to come, without those that the
invalidations of the boundary will end. -/
def coreInvalid (d : Dev) : Dev :=
  let due := if d.epoch.strobes.contains .pipe then
      (d.stg.cmds.filter (fun x => x.frozen && x.cmd.op == .CMD_KEY_SET && x.cmd.sub == 3)).map (fun x => x.cmd)
    else []
  let e := due.foldl (fun (e : Dev) c =>
    if (e.keySetRefusal c 3).isNone then e.invalidate (ksSlotField c.p) else e) d
  { d with sec := { d.sec with coreKeys := if due.isEmpty then none else some e.sec.keys } }

/-- The CORE strobe. -/
def coreStrobe (d : Dev) : Dev :=
  let d := ({ d with epoch := { d.epoch with numCore := d.epoch.num } }).coreInvalid
  (d.applyRegs (fun off => decide (domainOf off = some Domain.core))).latchDomain (some .core) []

/-- The PCIE strobe posts the completions of the commands that the boundary applied (R68). -/
def pcieStrobe (d : Dev) : Dev :=
  let d := { d with epoch := { d.epoch with numPcie := d.epoch.num } }
  let d := (d.applyRegs (fun off => decide (domainOf off = some Domain.pcie))).latchDomain (some .pcie) []
  let done := d.stg.done
  done.foldl (fun (d : Dev) k => d.finish k) { d with stg := { d.stg with done := [] } }

/-- BOUNDARY_STROBE_ARRIVAL: once in each domain after each B. -/
def strobe (d : Dev) (dom : Domain) : Dev :=
  if ¬ d.epoch.strobes.contains dom then d
  else
    let d := { d with epoch := { d.epoch with strobes := d.epoch.strobes.filter (fun x => x != dom) } }
    match dom with
    | .dsp => d.dspStrobe
    | .pipe => d.pipeStrobe
    | .core => d.coreStrobe
    | .pcie => d.pcieStrobe
    | .serdes => d.serdesStrobe
    | .lpddr => { d with epoch := { d.epoch with numLpddr := d.epoch.num } }

/-! ### The snapshot (R72 to R76) -/

/-- A counter's value n counts further (R591). -/
def addCount (off v n : Nat) : Nat := if isWide off then (v + n) % 2 ^ 64 else min (v + n) 0xFFFFFFFF

/-- SNAPSHOT_PUBLISH: the buffer that is not published takes the values of the ended epoch, with what its frames counted after
the latch (R20), and the settings in force, the tightenings among them (R124), and is published. -/
def publish (d : Dev) : Dev :=
  if ¬ d.snap.fill then d
  else
    let sq := (d.snap.pubSeq + 1) % 65536
    let b : SnapBuf := {
      epoch := d.snap.ended, pubSeq := sq
      vals := d.cnt.late.foldl (fun (m : SMap Nat) x => m.put x.1 (addCount x.1 (m.get 0 x.1) x.2)) d.snap.latch
      settings := d.snap.latchTight.zipIdx.foldl (fun (m : SMap W32) x => m.put (Reg.CIN_TIGHT_A 0 + 4 * x.2) x.1)
        d.settingsInForce
      nbrs := d.snap.latchNbrs, limits := d.snap.latchLimits }
    let s := d.snap
    let s : Snap := if s.buf then { s with b0 := b } else { s with b1 := b }
    let d := { d with cnt := { d.cnt with late := [] } }
    ({ d with snap := { s with buf := !s.buf, pubSeq := sq, fill := false } }).raise .EVT_EPOCH []

/-- ROM_STARTUP_DWELL_END (R50): in the last epoch of the dwell Service is due at the boundary, and past it the phase
changes now. -/
def dwellEnd (d : Dev) : Dev :=
  let rom : Bool := (match d.vat.inForce with | some v => v.rom | none => false) && d.modes.phase == .startUp && d.runs
  if ¬ rom then d
  else if 64 ≤ d.modes.romDwell then d.setPhase .service
  else if d.modes.romDwell = 63 then { d with modes := { d.modes with dwellDue := true } }
  else d

end Dev

/-! ### Meanings -/

/-- STAGING_FREEZE (R60 step 1). -/
def execStagingFreeze (s : State) : Host.Outcome State Fault Refusal := s.run (fun d => d.stagingFreeze)

/-- EPOCH_BOUNDARY (R60 step 2). -/
def execEpochBoundary (s : State) : Host.Outcome State Fault Refusal := s.run (fun d => d.epochBoundary)

/-- BOUNDARY_STROBE_ARRIVAL (R60 steps 3 to 5). -/
def execBoundaryStrobeArrival (dom : Domain) (s : State) : Host.Outcome State Fault Refusal := s.run (fun d => d.strobe dom)

/-- SNAPSHOT_PUBLISH (R60 steps 6 and 7). -/
def execSnapshotPublish (s : State) : Host.Outcome State Fault Refusal := s.run (fun d => d.publish)

/-- ROM_STARTUP_DWELL_END (R50). -/
def execRomStartupDwellEnd (s : State) : Host.Outcome State Fault Refusal := s.run (fun d => d.dwellEnd)

end Sys2Proof.Machine
end

