-- ==== Sys2Proof/Machine/Tasks.lean ====
section
/-! DEFINITION. The service cores and the task dispatcher (R533 to R543). -/

namespace Sys2Proof.Machine

/-- The cores of a world as a mask of bits. -/
def Dev.worldMask (d : Dev) (w : World) : Nat :=
  (List.range 8).foldl (fun m k => if d.worldOf k = w then m + 2 ^ k else m) 0

namespace Dev

def slotOf (d : Dev) (i : Nat) : Task := d.disp.slots.get {} i
def setSlot (d : Dev) (i : Nat) (t : Task) : Dev := { d with disp := { d.disp with slots := d.disp.slots.set {} i t } }
def corePort (d : Dev) (k : Nat) : CorePort := d.disp.ports.get {} k
def setCorePort (d : Dev) (k : Nat) (p : CorePort) : Dev :=
  { d with disp := { d.disp with ports := d.disp.ports.set {} k p } }

/-! ### The memory of the service cores (R33, R34, R533, R534) -/

/-- Octets of a world's local SRAM. -/
def sramSize (d : Dev) (w : World) : Nat :=
  match w with
  | .secure => 2 ^ 20
  | .vendor => if d.sec.custWorld then 2 ^ 20 else 3 * 2 ^ 19
  | .customer => if d.sec.custWorld then 2 ^ 19 else 0

/-- Where a world's local SRAM starts among the 2.5 MiB. -/
def sramBase : World → Nat
  | .secure => 0
  | .vendor => 2 ^ 20
  | .customer => 2 ^ 21

/-- An access of a core: to memory of a world, or to a part of R33 and R34 that belongs to none. -/
def coreAccess (d : Dev) (k : Nat) (owner : Option World) (dram write : Bool) (off : Nat) (data : List Byte) : Dev :=
  let n := data.length
  let w := d.worldOf k
  if owner ≠ some w ∨ (¬ dram = true ∧ d.sramSize w < off + n) then
    (d.emit .coreReply k []).violate .VIO_CORE_ACCESS (le 1 k)
  else
    let a := if dram then off else sramBase w + off
    if ¬ write = true then d.emit .coreReply k (memRead (if dram then d.disp.dram else d.disp.sram) a n)
    else if dram then { d with disp := { d.disp with dram := memWrite d.disp.dram a data } }
    else { d with disp := { d.disp with sram := memWrite d.disp.sram a data } }

/-- The handle of a slot (R535). -/
def handleOf (d : Dev) (i : Nat) : Nat := i + 4096 * ((d.slotOf i).gen % 2 ^ 20)

/-- The slot a handle names, if it is not stale (R539). -/
def slotOfHandle (d : Dev) (h : W32) : Option Nat :=
  let i := h.toNat % 4096
  if (d.slotOf i).st ≠ .free ∧ d.handleOf i = h.toNat then some i else none

/-- What a core's 64-bit read of RESULT (0x10) or ARG (0x30) of its port returns; none where the port has neither (R536). -/
def portRead (d : Dev) (k off : Nat) : Option Nat :=
  let p := d.corePort k
  if off = 0x10 then some (p.resHandle + 2 ^ 32 * p.resStatus)
  else if off = 0x30 then some p.arg.toNat
  else none

/-- RESULT of a core's port (R536). -/
def setResult (d : Dev) (k handle : Nat) (st : Status) : Dev :=
  d.setCorePort k { d.corePort k with resHandle := handle, resStatus := st.code }

/-- Post to a producer's completion queue (R536 CPL). -/
def cplTo (d : Dev) (k : Nat) (c : TaskCpl) : Dev := d.setCorePort k { d.corePort k with cpl := (d.corePort k).cpl ++ [c] }

/-- Free a slot: its generation rises when it is used again (R535). -/
def freeSlot (d : Dev) (i : Nat) : Dev := d.setSlot i { gen := (d.slotOf i).gen }

/-- The slots in use. -/
def busySlots (d : Dev) : SMap Task := d.disp.slots.filter (fun p => p.2.st != .free)

/-- Tasks of a producer that its completion queue has not reported yet (R537): those not finished and those queued. -/
def unreported (d : Dev) (k : Nat) : Nat :=
  (d.busySlots.filter (fun p => decide (p.2.producer = k))).length + (d.corePort k).cpl.length

/-- DISP_GROUP_g.LIMIT: 0 acts as 1, larger values as 4,096. -/
def groupLimit (d : Dev) (g : Nat) : Nat := clampN 1 4096 (d.cfg.DISP_GROUP_LIMIT g)

/-- A READY task that a core may take. -/
def taskEligible (d : Dev) (k : Nat) (i : Nat) : Bool := (d.slotOf i).st == .ready && bit (d.slotOf i).cores k

/-- The best of the eligible tasks of a group (R538): highest PRIO, then earliest READY. -/
def bestOf (d : Dev) (k g : Nat) : Option Nat :=
  (d.busySlots.filter (fun p => d.taskEligible k p.1 && decide (p.2.group = g))).foldl
    (fun b p => match b with
      | none => some p.1
      | some j =>
        let t := d.slotOf j
        if t.prio < p.2.prio ∨ (t.prio = p.2.prio ∧ p.2.order < t.order) then some p.1 else some j) none

/-- The group the dispatcher serves next for a core, and the credits it works with (R538): round robin from the group
after the last one served, over groups with an eligible task and credit above 0; where every such group has credit 0,
each credit is reset to its WEIGHT, 0 acting as 1. -/
def pickGroup (d : Dev) (k : Nat) : Option (Nat × SMap Nat) :=
  let order := (List.range 8).map (fun i => (d.disp.lastGroup + 1 + i) % 8)
  let has := order.filter (fun g => (d.bestOf k g).isSome)
  if has.isEmpty then none
  else
    let w := fun g => max 1 (d.cfg.DISP_GROUP_WEIGHT g)
    let cr := if has.any (fun g => decide (0 < d.disp.credit.get 0 g)) then d.disp.credit
      else (List.range 8).foldl (fun m g => m.set 0 g (w g)) d.disp.credit
    (has.find? (fun g => decide (0 < cr.get 0 g))).map (fun g => (g, cr))

/-- Hand a core the task of R538, where one is eligible. -/
def dispatchTo (d : Dev) (k : Nat) : Option Dev :=
  match d.pickGroup k with
  | none => none
  | some (g, cr) =>
    match d.bestOf k g with
    | none => none
    | some i =>
      let t := d.slotOf i
      let d := d.setSlot i { t with st := .dispatched, taker := k }
      let d := { d with disp := { d.disp with credit := cr.set 0 g (cr.get 0 g - 1), lastGroup := g } }
      let d := d.setCorePort k { d.corePort k with
        waiting := false, arg := t.arg, takeHandle := d.handleOf i, takeFn := t.fn }
      some ((d.bump Cnt.TASK_DISPATCHED).emit .coreReply k (le 4 (d.handleOf i) ++ le 4 t.fn.toNat))

/-- Offer READY tasks to the cores that wait in TAKE, the lower core index first (R539, R541). -/
def serveWaiting (d : Dev) : Dev :=
  d.each (List.range 8) (fun d k => if (d.corePort k).waiting then (d.dispatchTo k).getD d else d)

/-- End a TAKE without a task: the handle is 0 (R540). -/
def endTake (d : Dev) (k : Nat) : Dev :=
  if (d.corePort k).waiting then
    (d.setCorePort k { d.corePort k with waiting := false, takeHandle := 0, takeFn := 0 }).emit .coreReply k (le 8 0)
  else d

/-- Make a HELD task READY (R536), or count a new one. -/
def makeReady (d : Dev) (i : Nat) : Dev :=
  let d := d.setSlot i { d.slotOf i with st := .ready, order := d.disp.readySeq }
  { d with disp := { d.disp with readySeq := d.disp.readySeq + 1 } }

end Dev

/-! ### Operations of one CORE cycle (R541) -/

/-- The rank of an operation among those that meet in one CORE cycle: a CANCEL wins over the READY and the TAKE of its task, and of
two TAKEs the lower core index goes first (R541). -/
def meetRank : Instr → Nat
  | .taskCancel _ _ => 0
  | .taskReady _ _ => 2
  | .taskTake k => 3 + k.val
  | _ => 1

/-- Put an operation among those of its cycle, after those of its rank. -/
def meetInsert (c : Instr) : List Instr → List Instr
  | [] => [c]
  | x :: l => if meetRank c < meetRank x then c :: x :: l else x :: meetInsert c l

/-- The order in which the dispatcher takes the operations that meet in one CORE cycle, and in which they stand in the queue
(R541; DEDUCED, log entry 201). -/
def cycleOrder (l : List Instr) : List Instr := l.foldl (fun a c => meetInsert c a) []

/-! ### Meanings -/

/-- TASK_SUBMIT (R535 to R537): ST_BAD_PARAM for a core outside the producer's world or none; ST_FULL when no slot is
free, the group holds LIMIT tasks, or the producer has 512 tasks not reported; else a slot, HELD or READY. -/
def execTaskSubmit (k : Fin 8) (desc : TaskDesc) (s : State) : Host.Outcome State Fault Refusal :=
  s.run (fun d =>
    let mask := d.worldMask (d.worldOf k.val)
    let cores := desc.cores.toNat
    if cores = 0 ∨ cores &&& mask ≠ cores then d.setResult k.val 0 .ST_BAD_PARAM
    else
      let free := (List.range 4096).find? (fun i => (d.slotOf i).st == .free)
      let inGroup := (d.busySlots.filter (fun p => decide (p.2.group = desc.group.val))).length
      match free with
      | none => (d.setResult k.val 0 .ST_FULL).bump Cnt.TASK_FULL
      | some i =>
        if d.groupLimit desc.group.val ≤ inGroup ∨ 512 ≤ d.unreported k.val then
          (d.setResult k.val 0 .ST_FULL).bump Cnt.TASK_FULL
        else
          let g := (d.slotOf i).gen + 1
          let d := d.setSlot i { st := .held, gen := g, fn := desc.fn, group := desc.group.val, prio := desc.prio.val
                                 cores := cores, arg := desc.arg, producer := k.val }
          let d := d.setResult k.val (d.handleOf i) .ST_OK
          if desc.hold then d else (d.makeReady i).serveWaiting)

/-- TASK_READY (R536, R539): HELD to READY; a stale handle, or a task that is not HELD, gives ST_NOT_FOUND. -/
def execTaskReady (k : Fin 8) (handle : W32) (s : State) : Host.Outcome State Fault Refusal :=
  s.run (fun d =>
    match d.slotOfHandle handle with
    | some i =>
      if (d.slotOf i).st = .held then ((d.makeReady i).setResult k.val handle.toNat .ST_OK).serveWaiting
      else d.setResult k.val handle.toNat .ST_NOT_FOUND
    | none => d.setResult k.val handle.toNat .ST_NOT_FOUND)

/-- TASK_CANCEL (R536, R539, R541). -/
def execTaskCancel (k : Fin 8) (handle : W32) (s : State) : Host.Outcome State Fault Refusal :=
  s.run (fun d =>
    match d.slotOfHandle handle with
    | some i =>
      if (d.slotOf i).st = .dispatched then d.setResult k.val handle.toNat .ST_ALREADY_DISPATCHED
      else
        let t := d.slotOf i
        let d := (d.freeSlot i).setResult k.val handle.toNat .ST_CANCELLED_BEFORE_DISPATCH
        (d.cplTo t.producer ⟨handle.toNat, .ST_CANCELLED_BEFORE_DISPATCH, 0⟩).bump Cnt.TASK_CANCELLED
    | none => d.setResult k.val handle.toNat .ST_NOT_FOUND)

/-- TASK_TAKE (R538, R540): the next eligible task, or the core waits. -/
def execTaskTake (k : Fin 8) (s : State) : Host.Outcome State Fault Refusal :=
  s.run (fun d =>
    match d.dispatchTo k.val with
    | some d' => d'
    | none => d.setCorePort k.val { d.corePort k.val with waiting := true })

/-- TASK_TAKE_TIMEOUT (R540): TAKE_TIMEOUT_US elapses, a value of 0 meaning never. -/
def execTaskTakeTimeout (k : Fin 8) (s : State) : Host.Outcome State Fault Refusal :=
  s.run (fun d => if d.cfg.DISP_CTL_TAKE_TIMEOUT_US = 0 then d else d.endTake k.val)

/-- CORE_INTERRUPT_PENDING (R540): a TAKE that the core holds returns a handle of 0. -/
def execCoreInterruptPending (k : Fin 8) (s : State) : Host.Outcome State Fault Refusal :=
  s.run (fun d => d.endTake k.val)

/-- TASK_DONE (R536, R539): the task completes to its producer and frees its slot. A stale or unknown handle gives ST_NOT_FOUND
and has no effect; RESULT keeps what the last SUBMIT, READY or CANCEL left there, so that the status is the write's own answer
(DESIGN CHOICE, log entry 199). -/
def execTaskDone (k : Fin 8) (handle result : W32) (s : State) : Host.Outcome State Fault Refusal :=
  s.run (fun d =>
    match d.slotOfHandle handle with
    | some i =>
      let t := d.slotOf i
      if t.st = .dispatched ∧ t.taker = k.val then
        (d.freeSlot i).cplTo t.producer ⟨handle.toNat, .ST_OK, result⟩
      else d.emit .coreReply k.val (le 1 Status.ST_NOT_FOUND.code)
    | none => d.emit .coreReply k.val (le 1 Status.ST_NOT_FOUND.code))

/-- TASK_CPL_READ (R536): the oldest entry of the core's completion queue, all zeros when it is empty. -/
def execTaskCplRead (k : Fin 8) (s : State) : Host.Outcome State Fault Refusal :=
  s.run (fun d =>
    match (d.corePort k.val).cpl with
    | [] => d.emit .coreReply k.val (le 16 0)
    | c :: t =>
      (d.setCorePort k.val { d.corePort k.val with cpl := t }).emit .coreReply k.val
        (le 4 c.handle ++ le 4 c.status.code ++ le 8 c.result.toNat))

/-- TASK_WATCHDOG_EXPIRY (R542): a DISPATCHED task completes with ST_TASK_TIMEOUT; a WATCHDOG_MS of 0 disables it. -/
def execTaskWatchdogExpiry (slot : Fin 4096) (s : State) : Host.Outcome State Fault Refusal :=
  s.run (fun d =>
    let t := d.slotOf slot.val
    if t.st = .dispatched ∧ d.cfg.DISP_CTL_WATCHDOG_MS ≠ 0 then
      ((d.freeSlot slot.val).cplTo t.producer ⟨d.handleOf slot.val, .ST_TASK_TIMEOUT, 0⟩).bump Cnt.TASK_TIMEOUT
    else d)

/-- CORE_MEMORY_ACCESS (R534): core k reads, or writes `data` to, the octets from `off` of the memory of a world, its local SRAM or
LPDDR, or of a part of R33 or R34 that belongs to no world; the spec gives no addresses, so that offsets count within each (DESIGN CHOICE, log entry 159). An access outside the
core's world raises an access fault on the core and logs VIO_CORE_ACCESS. -/
def execCoreMemoryAccess (k : Fin 8) (owner : Option World) (dram write : Bool) (off : BitVec 34) (data : List Byte) (s : State) :
    Host.Outcome State Fault Refusal :=
  s.run (fun d => d.coreAccess k.val owner dram write off.toNat data)

end Sys2Proof.Machine
end

