-- ==== Sys2Proof/Machine/Faults.lean ====
section
/-! DEFINITION. Faults in storage and logic (R587 to R590): fatal faults, what answers an uncorrectable error in each
occupant of memory, crossing parity, and the drain of the violation log (R586). -/

namespace Sys2Proof.Machine

/-- The 32 octets of a violation log entry (R584). -/
def VioEntry.octets (e : VioEntry) : List Byte :=
  le 1 e.code ++ le 1 e.partner ++ le 2 e.suppressed ++ le 4 e.seq.toNat ++ le 6 e.epoch ++ le 2 0 ++ le 8 e.time ++ slice e.detail 0 8

namespace Dev

/-- A fatal fault (R590): OWN is released, so that every port falls to what R89 gives and the sequencers stop; FATAL is set
with the first cause, EVT_FATAL is raised once, and MGMT_ALERT_N is low (R609). Heartbeats stop because each needs FATAL clear
(R553). -/
def fatalFault (d : Dev) (cause : Nat) : Dev :=
  if d.flt.fatal then d
  else (({ d with flt := ⟨true, cause⟩ }).releaseOwn.raise .EVT_FATAL (le 1 cause)).alertFrom d.alertLow

/-- An answer that restored data (R588). -/
def restored (d : Dev) : Dev := d.bump Cnt.ECC_RESTORED

/-! ### Table rows -/

/-- The active bank's row has a source: the mirror, or its image in the open epoch's journal, which a Solo device keeps too
(R556). -/
def rowSource (d : Dev) (changed : Mord → Mord → List Nat) (r : Nat) : Bool :=
  d.runs && (d.pair.mirrorValid || (changed ((d.pair.journal).getD {}) d.mordant).contains r)

/-- An active row of the node table: its entries are restored with DL_FC raised and marked as possible duplicates, or are
absent while their addresses stay out of the free map. -/
def eccNodeRow (d : Dev) (r : Nat) : Dev :=
  let slots := (List.range 4).map (fun i => 4 * r + i)
  if d.rowSource changedNodeRows r then
    (d.each slots (fun d s =>
      let e := d.tbl.node.at_ s
      if e.valid then
        d.modNode e.pan e.loc (fun x => { x with dlFc := min 0xFFFFFFFF (x.dlFc + d.cfg.SEC_CTL_FC_SKIP), dup := true })
      else d)).restored
  else d.each slots (fun d s => if (d.tbl.node.at_ s).valid then d.eraseNode s else d)

/-- An active row of the route table. -/
def eccRouteRow (d : Dev) (r : Nat) : Dev :=
  if d.rowSource changedRouteRows r then d.restored
  else d.each [2 * r, 2 * r + 1] (fun d s =>
    let e := d.tbl.route.slots.get {} s
    if e.valid then d.eraseRoute e.pan e.target else d)

/-- An active row of the prefix table. -/
def eccPfxRow (d : Dev) (r : Nat) : Dev :=
  if d.rowSource changedPfxRows r then d.restored
  else d.each [2 * r, 2 * r + 1] (fun d s =>
    let e := d.tbl.pfx.slots.get {} s
    if e.valid then d.erasePfx e.pfx e.len else d)

/-- A staged row: the rebuild of its table fails (R344). -/
def eccStaged (d : Dev) (t : Nat) : Dev := if (d.rebuild t).st = .idle then d else d.rebuildFail t

/-- A row of the seen-cache is cleared. -/
def eccSeenRow (d : Dev) (r : Nat) : Dev :=
  d.each ((List.range 4).map (fun i => 4 * r + i)) (fun d s =>
    { d with tbl := { d.tbl with seen := { d.tbl.seen with slots := d.tbl.seen.slots.del s } } })

/-! ### Words of the image in force -/

/-- A sequencer's bank word: the instruction that it stands at is not issued. -/
def eccSeqWord (d : Dev) (i : Nat) : Dev :=
  let s := i / 16384
  if 4 ≤ s then d
  else (d.modSeq s (fun x => if !x.stopped && x.pc == i % 16384 then { x with pc := x.pc + 1 } else x)).restored

/-- A word of an action program: a packet whose pass stands at it is dropped. -/
def eccActionWord (d : Dev) (i : Nat) : Dev :=
  (d.each [0, 1] (fun d p =>
    let s := d.pipeSt p
    if s.cur.isSome && !s.recirc && decide (s.prog = i / 64 ∧ s.pc = i % 64) then d.endPass p .ST_DROPPED else d)).restored

/-- An entry of a gate list: its gates stay closed for the cycle. -/
def eccGateWord (d : Dev) (i : Nat) : Dev :=
  let e := i / 1024
  if 4 ≤ e then d
  else match (d.eth e).gates.entries[i % 1024]? with
    | some g => (d.modEth e (fun x => { x with closedUntil := d.now + 8 * g.1, open_ := 0 })).restored
    | none => d

/-! ### Packets -/

/-- A queue whose pointers fail discards its packets. -/
def eccQueue (d : Dev) (q : Nat) : Dev :=
  ((d.queue q).foldl (fun (d : Dev) x => match x with | .air f => d.dropCopy f | _ => d) d).setQueue q []

/-- The queue and place of the n-th packet of the traffic manager, queues in ascending order. -/
def nthQueued (n : Nat) : SMap (List QItem) → Option (Nat × Nat) × Nat
  | [] => (none, n)
  | (q, l) :: rest => if n < l.length then (some (q, n), n) else nthQueued (n - l.length) rest

/-- Mark the n-th packet of a pipeline's source queues. -/
def markSource (n : Nat) : SMap (List Packet) → SMap (List Packet) × Nat × Bool
  | [] => ([], n, false)
  | (q, l) :: rest =>
    if n < l.length then ((q, l.modify n (fun p => { p with bad := true })) :: rest, n, true)
    else
      let r := markSource (n - l.length) rest
      ((q, l) :: r.1, r.2)

/-- An item hit by an error. -/
def badItem : QItem → QItem
  | .air f => .air { f with bad := true }
  | x => .bad x.octets

/-- A packet in the packet buffer is marked: it is dropped when its egress reads it. Packets count through the traffic
manager's queues, then through the source queues of pipeline 0 and 1. -/
def eccPacket (d : Dev) (n : Nat) : Dev :=
  match nthQueued n d.tm.queues with
  | (some (q, i), _) =>
    let x := (d.queue q)[i]?
    let d := d.setQueue q ((d.queue q).modify i badItem)
    match x with
    | some (.air f) => { d with txc := d.txc.map (fun c =>
        (c.1, if c.2.own.cur.any (fun g => g.uid == f.uid) && c.2.own.queue == some q then
          { c.2 with own := { c.2.own with cur := c.2.own.cur.map (fun g => { g with bad := true }) } } else c.2)) }
    | _ => d
  | (none, m) =>
    let a := markSource m (d.pipeSt 0).queues
    if a.2.2 then d.setPipe 0 { d.pipeSt 0 with queues := a.1 }
    else
      let b := markSource a.2.1 (d.pipeSt 1).queues
      d.setPipe 1 { d.pipeSt 1 with queues := b.1 }

/-- A time-stamp queue's record: queues 0 to 3 of the RF ports, 4 to 7 of the Ethernet ports. -/
def eccStamp (d : Dev) (i : Nat) : Dev :=
  let q := i / 65536
  if q < 4 then d.modPort q (fun x => { x with stamps := x.stamps.eraseIdx (i % 65536) })
  else if q < 8 then d.modEth (q - 4) (fun x => { x with stamps := x.stamps.eraseIdx (i % 65536) })
  else d

/-! ### Keys and the Mordant state -/

/-- What a slot holds, beside the marks that no record keeps. -/
def slotContent (k : KeySlot) : KeySlot :=
  { k with gen := 0, pendingInvalid := false, unremoved := false, reloading := false }

/-- A stored-key slot: reloaded where the record in use holds its current content, else a fatal fault. -/
def eccStoredKey (d : Dev) (n : Nat) : Dev :=
  let r := if d.sec.ksSlot = 0 then d.ks0 else if d.sec.ksSlot = 1 then d.ks1 else none
  let held : Bool := match r with
    | some x => decide (slotContent (x.entries.get {} n) = slotContent (d.key n))
    | none => false
  if held ∧ n < 1022 then d.modKey n (fun k => { k with reloading := true }) else d.fatalFault 2

/-- The Mordant journal, staging or mirror. -/
def eccMordant (d : Dev) : Dev :=
  match d.modes.redund with
  | .active =>
    let d := if d.pair.chainOk then
        d.breakChain (match d.pair.unacked with | r :: _ => r.epoch | [] => d.epoch.num) else d
    { d with pair := { d.pair with mirrorValid := false } }
  | .solo => d
  | _ => d.discardRx

/-- The Standby image: the IMAGE test fails, and the device enters Resync. -/
def eccStandbyImage (d : Dev) : Dev :=
  if d.runs ∨ d.pair.image.isNone then d
  else
    let o := d.pair.ochre
    let d := if o.fail.getLsbD 1 then d else d.bump Cnt.OCHRE_FAIL
    let d := { d with pair := { d.pair with ochre := { o with fail := o.fail ||| 2#11 } } }
    (if d.modes.redund = .standby then d.enterResync else d).refreshReady

/-- The staged Vat image is discarded, and a pending commit has nothing to commit. -/
def eccStagedImage (d : Dev) : Dev :=
  let d := { d with vat := { d.vat with staged := none } }
  match d.pendingCommit with
  | some x => d.unstage x .ST_NOTHING_STAGED
  | none => d

/-- A counter restarts at 0 with the SAT flag of its subsystem set. -/
def eccCounter (d : Dev) (off : Nat) : Dev :=
  if isCounter off then
    { d with cnt := { d.cnt with live := d.cnt.live.del off, sat := d.cnt.sat ||| (1#20 <<< (subsysOf off - 1)) } }
  else d

/-- A dispatcher task slot: its task completes to the producer with ST_DROPPED. -/
def eccTask (d : Dev) (i : Nat) : Dev :=
  let t := d.slotOf i
  if t.st = .free then d else (d.freeSlot i).cplTo t.producer ⟨d.handleOf i, .ST_DROPPED, 0⟩

/-- The answer of an occupant to an uncorrectable error at an index (R588). A WIN_SNAP read that meets one completes with a
poisoned TLP, which carries no value. -/
def eccAnswer (d : Dev) (o : Occupant) (i : Nat) : Dev :=
  match o with
  | .nodeRow => d.eccNodeRow i
  | .routeRow => d.eccRouteRow i
  | .prefixRow => d.eccPfxRow i
  | .stagedNodeRow => d.eccStaged 0
  | .stagedRouteRow => d.eccStaged 1
  | .stagedPrefixRow => d.eccStaged 2
  | .seenRow => d.eccSeenRow i
  | .seqWord => d.eccSeqWord i
  | .actionWord => d.eccActionWord i
  | .gateWord => d.eccGateWord i
  | .shaperState =>
    if i < d.tm.numShapers then
      { d with tm := { d.tm with
          shapers := d.tm.shapers.upd {} i (fun s => { s with bucket := ((s.burst * 256 : Nat) : Int) })
          cycOld := d.tm.cycOld.del i } }
    else d
  | .policerState =>
    if i < d.tm.numPolicers then
      { d with tm := { d.tm with policers := d.tm.policers.upd {} i (fun s => { s with c := s.cbs * 256, p := s.pbs * 256 }) } }
    else d
  | .queueState => d.eccQueue i
  | .packetBuffer => d.eccPacket i
  | .rxLog =>
    let p := i / 65536
    match (d.port p).rxlog.find (i % 65536) with
    | some r => if p < 4 then d.endRecord p r else d
    | none => d
  | .stampQueue => d.eccStamp i
  | .derivedKey => { d with sec := { d.sec with cache := d.sec.cache.eraseIdx i } }
  | .storedKey => if i < 1024 then d.eccStoredKey i else d
  | .mordant => d.eccMordant
  | .standbyImage => d.eccStandbyImage
  | .snapshotBuffer => d.emit .cfgRead 1 []
  | .shadowRecord => if i = d.tbl.vg.index then d.vgAdvance else d
  | .imageCopy => d.restored
  | .stagedImage => d.eccStagedImage
  | .counter => d.eccCounter i
  | .violationLog => { d with vio := { d.vio with log := d.vio.log.eraseIdx i } }
  | .eventStaging => { d with ev := { d.ev with staging := d.ev.staging.eraseIdx i } }
  | .descriptorCache => { d with host := { d.host with txDescs := [], rxDescs := [] } }
  | .taskSlot => d.eccTask i
  | .coreMemory => d.emit .coreReply 0 []
  | .secureMemory => d.fatalFault 1

/-- An uncorrectable error (R587): ECC_UE, EVT_ECC_UE with the occupant, whose number the spec leaves open, and the index;
then the occupant's answer. -/
def eccUncorrectable (d : Dev) (o : Occupant) (i : Nat) : Dev :=
  let c := (d.bump Cnt.ECC_UE).draw 8
  (c.2.raise .EVT_ECC_UE ([c.1] ++ le 4 i)).eccAnswer o i

/-- A crossing item that fails parity (R589). -/
def crossingParity (d : Dev) : CrossItem → Dev
  | .frame => d.bump Cnt.PARITY_DROP
  | _ => d.fatalFault 3

/-! ### Draining the violation log (R586) -/

/-- Groups of at most n of a list; the fuel is its length. -/
def groupsOf (n : Nat) : Nat → List VioEntry → List (List VioEntry)
  | 0, _ => []
  | k + 1, l => if l.isEmpty then [] else l.take n :: groupsOf n k (l.drop n)

/-- The copy of log entries leaves the device: console frames of TYPE 0x04 in Stand-alone, else host memory. -/
def sendLog (d : Dev) (c : Cmd) (l : List VioEntry) : Dev :=
  if d.modes.control = .standAlone then
    (groupsOf 1024 l.length l).foldl (fun (d : Dev) g => d.emit .console 4 (g.flatMap VioEntry.octets)) d
  else d.toHost c (l.flatMap VioEntry.octets)

/-- CMD_LOG_DRAIN; `dmaOk` is the outcome of the copy to host memory. -/
def logDrain (d : Dev) (h : Hdr) (p : List Byte) (dmaOk : Bool) : Dev :=
  let c : Cmd := ⟨h, .CMD_LOG_DRAIN, 0, p⟩
  d.command c (fun d =>
    let m := fld p 8 4
    if m = 0 ∨ 4096 < m ∨ ¬ zeros p 12 52 then d.complete c .ST_BAD_PARAM
    else if ¬ dmaOk ∧ d.modes.control ≠ .standAlone then d.complete c .ST_TRANSFER_FAIL
    else
      let l := d.vio.log.take m
      let first := match l with | e :: _ => e.seq.toNat | [] => 0
      let d := d.sendLog c l
      ({ d with vio := { d.vio with log := d.vio.log.drop m } }).complete c .ST_OK
        (le 4 l.length ++ le 4 first ++ le 1 (ofBool (l.any (fun e => e.code == 1)))))

end Dev

/-! ### Meanings -/

/-- CLOCK_LOSS (R548, R590, R600): OWN is released and a fatal fault with cause 4 follows. -/
def execClockLoss (s : State) : Host.Outcome State Fault Refusal := s.run (fun d => d.fatalFault 4)

/-- PATROL_SCRUB (R587): the read of a good word changes nothing; an error it finds is a command of its own. -/
def execPatrolScrub (s : State) : Host.Outcome State Fault Refusal := s.run (fun d => d)

/-- ECC_CORRECTABLE (R587): corrected and written back, whatever the occupant. -/
def execEccCorrectable (occ : Occupant) (index : W32) (s : State) : Host.Outcome State Fault Refusal :=
  s.run (fun d => let _ := occ; let _ := index; d.bump Cnt.ECC_CE)

/-- ECC_UNCORRECTABLE (R587, R588). -/
def execEccUncorrectable (occ : Occupant) (index : W32) (s : State) : Host.Outcome State Fault Refusal :=
  s.run (fun d => d.eccUncorrectable occ index.toNat)

/-- CROSSING_PARITY_ERROR (R589). -/
def execCrossingParityError (item : CrossItem) (s : State) : Host.Outcome State Fault Refusal :=
  s.run (fun d => d.crossingParity item)

/-- CMD_LOG_DRAIN (R586). -/
def execCmdLogDrain (h : Hdr) (p : List Byte) (dmaOk : Bool) (s : State) : Host.Outcome State Fault Refusal :=
  s.run (fun d => d.logDrain h p dmaOk)

end Sys2Proof.Machine
end

