-- ==== Sys2Proof/Machine/HostDma.lean ====
section
/-! DEFINITION. Packet rings (R527 to R532): deliveries to receive rings, the stall limit, and the fetch of transmit
rings. -/

namespace Sys2Proof.Machine

/-- The fields of a delivery header and its data (R530), as a root reads a member's delivery (R532). -/
def hostPktOf (b : List Byte) : HostPkt :=
  { kind := fld b 0 1, srcKind := fld b 1 1, srcIndex := fld b 2 1, cls := fld b 3 1 % 8, flags := fld b 4 2
    epoch := fld b 8 6, nodeLoc := fld b 0x0E 2, tag := BitVec.ofNat 32 (fld b 0x10 4), stamp := fld b 0x18 8
    record := Dev.recordOf (slice b 0x20 32)
    data := slice b 64 (fld b 0x14 4), origin := some (fld b 6 2 % 1024) }

/-- The descriptors a frame needs (R531), each buffer taken as its own length: none while those posted do not reach. -/
def descsFor : List Nat → Nat → Option Nat
  | [], n => if n = 0 then some 0 else none
  | b :: rest, n => if n = 0 then some 0 else (descsFor rest (n - b)).map (· + 1)

/-- The chain of descriptors at the head of a transmit ring (R527, R528). -/
inductive Chain where
  /-- Not all of it is posted yet. -/
  | short
  /-- Malformed, over this many descriptors. -/
  | bad (n : Nat)
  | good (n : Nat)
  deriving DecidableEq, Repr

/-- Read on from a descriptor: `n` have been passed. -/
def chainFrom : List TxDesc → Nat → Chain
  | [], n => if 32 ≤ n then .bad n else .short
  | d :: rest, n =>
    if 32 ≤ n ∨ (d.sop ∧ n ≠ 0) then .bad n
    else if d.eop then .good (n + 1)
    else chainFrom rest (n + 1)

/-- A chain that does not start with SOP is malformed up to the next SOP. -/
def chainOf (l : List TxDesc) : Chain :=
  match l with
  | [] => .short
  | d :: rest => if d.sop then chainFrom l 0 else .bad (1 + min 31 (rest.takeWhile (fun x => !x.sop)).length)

/-- The 32 octets of a descriptor as the device read it (R527). -/
def sopOctets (x : TxDesc) : List Byte :=
  le 8 x.addr.toNat ++ le 4 x.len.toNat ++
    le 2 (ofBool x.sop + 2 * ofBool x.eop + 4 * ofBool x.tsReq + 8 * ofBool x.remote) ++ [x.wOffset, 0#8] ++
    le 4 x.tag.toNat ++ le 2 x.dstChip.toNat ++ le 10 0

/-- What the device writes from offset 0x0C of each descriptor of a frame (R529): DATA_LEN and FLAGS, and in the first DESC_COUNT
and FRAME_LEN; `k` descriptors are to come, `rest` octets are left of `total`. -/
def rxDescOctets (n total : Nat) : List Nat → Nat → Nat → List (List Byte)
  | _, 0, _ => []
  | [], _, _ => []
  | b :: bs, k + 1, rest =>
    let sop : Bool := k + 1 == n
    let flags := ofBool sop + 2 * ofBool (k == 0) + 0x8000
    (le 4 (min b rest) ++ le 2 flags ++ le 2 (if sop then n else 0) ++ le 4 (if sop then total else 0)) ::
      rxDescOctets n total bs k (rest - b)

namespace Dev

/-! ### The PCIE port (R504, R508) -/

/-- A packet that waits at the head of its queue for a receive ring is dropped (R508). -/
def dropWaiting (d : Dev) : Dev :=
  let w := d.host.rxWait
  let d := { d with host := { d.host with rxWait := [] } }
  w.foldl (fun (d : Dev) x =>
    let q := 72 + 8 * (x.1 - 3) + x.2.2
    (d.setQueue q ((d.queue q).drop 1)).bump (Cnt.RX_STALL_DROP (x.1 - 3))) d

/-- R508: EN of every ring clears, completions of accepted commands are discarded, and the packets that the receive rings have
taken from their queues' heads and not delivered are dropped (DEDUCED, log entry 120). -/
def clearRings (d : Dev) : Dev :=
  let d := d.each (List.range 35) (fun d n =>
    { d with cfg := d.cfg.set 0x20000000#32 (Reg.HR_CTL n) ((d.cfg.get 0x20000000#32 (Reg.HR_CTL n)) &&& 0x7FFFFFFF#32) })
  d.forgetCmds.dropWaiting

/-! ### Receive rings (R531) -/

/-- The class whose head a receive ring serves: one that waits, else the highest eligible one (R386). -/
def rxClass (d : Dev) (r : Nat) : Option Nat :=
  match d.host.rxWait.find (3 + r) with
  | some w => some w.2
  | none => ((List.range 8).map (fun c => 7 - c)).find? (fun c => d.eligible (72 + 8 * r + c))

/-- Heads hit by an uncorrectable error are dropped when the DMA reads them (R588). -/
def dropBadHost (q : Nat) : Nat → Dev → Dev
  | 0, d => d
  | n + 1, d =>
    match d.queue q with
    | .bad _ :: rest => dropBadHost q n (d.setQueue q rest)
    | _ => d

/-- The head packet leaves its queue, and nothing waits. -/
def popHost (d : Dev) (r c : Nat) : Dev :=
  let d := d.setQueue (72 + 8 * r + c) ((d.queue (72 + 8 * r + c)).drop 1)
  { d with host := { d.host with rxWait := d.host.rxWait.del (3 + r) } }

/-- Write a frame's descriptors in ring order, after its data (R529, R531), and advance the ring. -/
def giveDescs (d : Dev) (n k total : Nat) (bufs : List Nat) : Dev :=
  ({ d with out := d.out ++ (rxDescOctets k total bufs k total).map (fun x => (⟨.ringEntry, n, x⟩ : Output)) }).advanceRing n k

/-- Deliver or hold the head packet of a ring; `bufs` are the lengths of the posted buffers, in ring order. -/
def rxDeliver (d : Dev) (r : Nat) (bufs : List Nat) : Dev :=
  let n := 3 + r
  let d := { d with host := { d.host with rxDescs := d.host.rxDescs.set [] r bufs } }
  let d := d.each (List.range 8) (fun d c => dropBadHost (72 + 8 * r + c) (d.queue (72 + 8 * r + c)).length d)
  match d.rxClass r with
  | none => d
  | some c =>
    let q := 72 + 8 * r + c
    match (d.queue q).head? with
    | some (.host h) =>
      let b := d.hostPktOctets h
      match d.modes.control, d.links.followed with
      | .shelfMember, some root => ((d.popHost r c).chargeDequeue q).sendHost root 4 r b
      | _, _ =>
        if ¬ d.ringOn n then (d.popHost r c).bump (Cnt.RX_RING_OFF r)
        else
          let posted := min ((d.ring n).hostIdx - (d.ring n).devIdx).toNat (d.ringSize n)
          let most := min 32 (d.ringSize n - 1)
          match descsFor (bufs.take posted) b.length with
          | some k =>
            if most < k then (d.popHost r c).bump (Cnt.RX_TOO_BIG r)
            else ((((d.popHost r c).chargeDequeue q).emit .hostDma n b).giveDescs n k b.length bufs).bump (Cnt.RX_DELIVERED r)
          | none =>
            if most ≤ min posted bufs.length then (d.popHost r c).bump (Cnt.RX_TOO_BIG r)
            else if (d.host.rxWait.find n).isSome then d
            else { d with host := { d.host with rxWait := d.host.rxWait.put n (d.up, c) } }
    | _ => { d with host := { d.host with rxWait := d.host.rxWait.del n } }

/-- RX_STALL_TIMEOUT: the packet that waits is dropped whole. -/
def rxStall (d : Dev) (r : Nat) : Dev :=
  match d.host.rxWait.find (3 + r) with
  | some w => (d.popHost r w.2).bump (Cnt.RX_STALL_DROP r)
  | none => d

/-! ### Transmit rings (R528) -/

/-- Descriptors of a source's packets whose fate is not known. -/
def descsOut (d : Dev) (src : Nat) : Nat :=
  [0, 1].foldl (fun n i =>
    let s := d.pipeSt i
    ((s.queues.get [] src).foldl (fun n x => n + x.descs) n) +
      (match s.cur with | some x => if x.src = src then x.descs else 0 | none => 0)) 0

/-- A packet of the host enters the pipeline: its source queue, or a full one drops it. -/
def hostIngress (d : Dev) (r : Nat) (sop : TxDesc) (data : List Byte) (descs : Nat) : Dev :=
  let w := data.drop sop.wOffset.toNat
  d.ingress { src := 14 + r, data := w, l3 := wiredL3 w, tag := sop.tag, tsReq := sop.tsReq, descs := descs }

/-- A packet of a shelf root's ring goes to another chip as a HOST frame of KIND 5; ST_OK says that QZ-Link has it. -/
def remoteTx (d : Dev) (r : Nat) (sop : TxDesc) (data : List Byte) (k : Nat) : Dev :=
  let chip := sop.dstChip.toNat
  let body := sopOctets sop ++ data
  let up : Bool := match d.routeTo chip true with | some q => (d.qlp q).up | none => false
  let ok : Bool := up && decide (body.length + 8 ≤ 9728)
  let d := if ok ∨ ¬ up then d.sendHost chip 5 r body else d
  d.writeBack (19 + r) k (if ok then .ST_OK else .ST_DROPPED)

/-- TX_RING_FETCH: the next packet of a ring, in ring order, while its source queue holds fewer than 256. -/
def txFetch (d : Dev) (r : Nat) (descs : List TxDesc) (data : List Byte) : Dev :=
  let n := 19 + r
  let src := 14 + r
  let out := d.descsOut src
  let posted := min ((d.ring n).hostIdx - (d.ring n).devIdx).toNat (d.ringSize n) - out
  if ¬ d.ringOn n ∨ d.modes.control ≠ .hosted ∨
      256 ≤ ((d.pipeSt (d.pipeOf src)).queues.get [] src).length then d
  else
    let d := { d with host := { d.host with txDescs := d.host.txDescs.set [] r (descs.take posted) } }
    match chainOf (descs.take posted) with
    | .short => d
    | .bad k =>
      if out ≠ 0 then d
      else ((d.writeBack n k .ST_BAD_PARAM).violate .VIO_HOST_DESC [])
    | .good k =>
      let x := data.take (((descs.take k).map (fun y => y.len.toNat)).foldl (· + ·) 0)
      match descs with
      | [] => d
      | sop :: _ =>
        if sop.remote ∧ d.links.isRoot ∧ sop.dstChip.toNat ≠ d.elec.chipId then
          (if out ≠ 0 then d else d.remoteTx r sop x k)
        else if ¬ d.bufRoom x.length then d
        else d.hostIngress r sop x k

end Dev

/-! ### Meanings -/

/-- PERST_N_ASSERT (R599, R508): only the PCIE port is reset, and its link starts again from Detect. -/
def execPerstNAssert (s : State) : Host.Outcome State Fault Refusal := s.run (fun d => d.clearRings.pcieLink .detect)

/-- FUNCTION_LEVEL_RESET (R508). -/
def execFunctionLevelReset (s : State) : Host.Outcome State Fault Refusal := s.run (fun d => d.clearRings)

/-- D3HOT_ENTRY (R508): the link goes to L1 for a function in D3hot, which counts as out of L0 (R504). -/
def execD3hotEntry (s : State) : Host.Outcome State Fault Refusal := s.run (fun d => d.clearRings.pcieLink .l1D3hot)

/-- RX_DMA_DELIVER (R531, R532). -/
def execRxDmaDeliver (r : Fin 16) (bufLens : List Nat) (s : State) : Host.Outcome State Fault Refusal :=
  s.run (fun d => d.rxDeliver r.val bufLens)

/-- RX_STALL_TIMEOUT (R531). -/
def execRxStallTimeout (r : Fin 16) (s : State) : Host.Outcome State Fault Refusal := s.run (fun d => d.rxStall r.val)

/-- TX_RING_FETCH (R528). -/
def execTxRingFetch (r : Fin 16) (descs : List TxDesc) (data : List Byte) (s : State) : Host.Outcome State Fault Refusal :=
  s.run (fun d => d.txFetch r.val descs data)

end Sys2Proof.Machine
end

