-- ==== Sys2Proof/Machine/Mgmt.lean ====
section
/-! DEFINITION. The SMBus registers and the temperature warning (R609, R611). -/

namespace Sys2Proof.Machine

namespace Dev

/-- The snapshot buffer that is published (R72). -/
def published (d : Dev) : SnapBuf := if d.snap.buf then d.snap.b1 else d.snap.b0

/-- ID_DEVICE (R2). -/
def idDevice (d : Dev) : Nat := 0x1920 * 65536 + deviceRev * 256 + d.otp.grade % 16 * 16

/-- MODE_STATUS (R41). -/
def modeStatus (d : Dev) : Nat :=
  ofBool d.modes.provValid * 2 ^ 13 + ofBool (match d.vat.inForce with | some v => v.rom | none => false) * 2 ^ 12 +
    ofBool d.time.acquired * 2 ^ 11 + d.modes.control.code * 256 + d.modes.redund.code * 16 + d.modes.phase.code

/-- FAULT_STATUS (R594). -/
def faultStatus (d : Dev) : Nat :=
  ofBool d.flt.fatal * 2 ^ 31 + d.flt.cause % 128 * 2 ^ 24 + ofBool d.logOverflowed * 2 ^ 13 + d.vio.log.length % 8192

/-- TEMP_STATUS (R618): PEAK_C as published. -/
def tempStatus (d : Dev) : Nat :=
  pat 8 d.elec.tj * 2 ^ 24 + bits (d.published.vals.get 0 Reg.TEMP_STATUS) 23 16 * 2 ^ 16 + ofBool d.tempWarn

/-- RST_CAUSE (R618). -/
def rstCause (d : Dev) : Nat :=
  d.elec.rail % 16 * 2 ^ 20 + ofBool d.elec.causeThermal * 16 + ofBool d.elec.causeSupply * 8 + ofBool d.elec.causeSys * 4 +
    ofBool d.elec.por * 2

/-- DDR_STATUS (R618): inline ECC is in force once the channels are trained (R587). -/
def ddrStatus (d : Dev) : Nat :=
  d.elec.dens1 % 16 * 4096 + d.elec.dens0 % 16 * 256 + ofBool d.elec.trained * 2 + ofBool d.elec.trained

/-- SEC_STATUS (R450). -/
def secStatus (d : Dev) : Nat :=
  ofBool d.sec.trngFail * 2 ^ 15 + ofBool d.sec.migrationPending * 2 ^ 14 + ofBool d.sec.write.isSome * 2 ^ 13 +
    ofBool d.sec.custRefused * 2 ^ 12 + d.sec.ksSlot % 4 * 2 ^ 10 + d.sec.bootSlot % 2 * 2 ^ 9 + ofBool d.sec.custWorld * 2 ^ 8 +
    d.otp.lc % 8 * 16 + d.sec.lc % 8

/-- The register of an SMBus command code (R609). -/
def smbusReg (d : Dev) : Nat → Option Nat
  | 0 => some d.idDevice
  | 1 => some d.modeStatus
  | 2 => some d.faultStatus
  | 3 => some d.tempStatus
  | 4 => some (d.published.vals.get 0 Reg.POWER_EST % 65536)
  | 5 => some d.rstCause
  | 6 => some d.ddrStatus
  | 7 => some d.secStatus
  | _ => none

/-- The port's own address, which PAIR_SIDE sets. -/
def smbusAddr (d : Dev) : Nat := if d.pair.side then 0x5D else 0x5C

/-- An answer on SMBus: an acknowledged read with its octets (unit 1), or a NACK (unit 0). The port of a device in reset or
in manufacturing test answers nothing. -/
def smbusAnswer (d : Dev) (b : Option (List Byte)) : Dev :=
  if d.heldReset ∨ d.elec.testEn then d
  else match b with
    | some x => d.emit .smbus 1 x
    | none => d.emit .smbus 0 []

/-- A new reading of the hottest sensor: WARN follows it, and MGMT_ALERT_N follows WARN. -/
def thermal (d : Dev) (tj : Int) : Dev :=
  ({ d with elec := { d.elec with tj := tj, peak := max d.elec.peak tj } }).alertFrom d.alertLow

end Dev

/-! ### Meanings -/

/-- SMBUS_BLOCK_READ (R609): 4 octets, little-endian; an unknown code is NACKed. -/
def execSmbusBlockRead (code : Byte) (s : State) : Host.Outcome State Fault Refusal :=
  s.run (fun d => d.smbusAnswer ((d.smbusReg code.toNat).map (le 4)))

/-- SMBUS_WRITE (R609): the port is read-only. -/
def execSmbusWrite (s : State) : Host.Outcome State Fault Refusal := s.run (fun d => d.smbusAnswer none)

/-- SMBUS_ALERT_RESPONSE (R609). -/
def execSmbusAlertResponse (s : State) : Host.Outcome State Fault Refusal :=
  s.run (fun d => d.smbusAnswer (some (le 1 d.smbusAddr)))

/-- THERMAL_WARNING (R609). -/
def execThermalWarning (tj : Int) (s : State) : Host.Outcome State Fault Refusal := s.run (fun d => d.thermal tj)

end Sys2Proof.Machine
end

