-- ==== Sys2Proof/Machine/Wire.lean ====
section
/-! DEFINITION. What arrives in frames: command slots from the console and from QZ-Link (R514, R532, R608), QZ-Link and MIR
frames (R492 to R501, R551), and link words (R491). -/

namespace Sys2Proof.Machine

/-- Every event code, for reading one back. -/
def allEvents : List EvCode :=
  [.EVT_EPOCH, .EVT_OVERFLOW, .EVT_DMA_FAULT, .EVT_CNT_SAT, .EVT_CAL_FAIL, .EVT_CAL_DUE, .EVT_CINNABAR_UNLOCKED,
   .EVT_SUBBAND_DISABLED, .EVT_DUTY_EXHAUSTED, .EVT_TX_STAMP, .EVT_NODE_JOINED, .EVT_NODE_LEFT, .EVT_ASSOC_REQUEST,
   .EVT_NEIGHBOUR_LOST, .EVT_NEIGHBOUR_FOUND, .EVT_NODE_UNKNOWN, .EVT_NODE_AGED, .EVT_HINT_FAIL, .EVT_REBUILD_READY,
   .EVT_REBUILD_FAILED, .EVT_VERDIGRIS_MISMATCH, .EVT_VERDIGRIS_PASS, .EVT_TRNG_FAIL, .EVT_CUSTOMER_REFUSED,
   .EVT_FC_EXHAUSTED, .EVT_KEYSTORE_EMPTY, .EVT_KEYSTORE_FAIL, .EVT_TIME_ACQUIRED, .EVT_TIME_SOURCE, .EVT_RATE_LIMIT,
   .EVT_TIME_JUMP_REFUSED, .EVT_HOLDOVER, .EVT_ETH_LINK, .EVT_MACSEC_PN, .EVT_QL_LINK, .EVT_QL_DEGRADED, .EVT_TAKEOVER,
   .EVT_PAIR_MODE, .EVT_PARTNER_SILENT, .EVT_CHAIN_BREAK, .EVT_OCHRE, .EVT_OWN_CONTENTION, .EVT_ECC_UE, .EVT_FATAL,
   .EVT_LOG_OVERFLOW, .EVT_NODE_QUARANTINED]

/-- Every command opcode. -/
def allOpcodes : List Opcode :=
  [.CMD_NOP, .CMD_HOST_ATTACH, .CMD_SET_PHASE, .CMD_COMMIT, .CMD_VAT_LOAD, .CMD_VAT_DISCARD, .CMD_RF_CAL, .CMD_RF_TEST_TX,
   .CMD_FEM_SPI, .CMD_CINNABAR_LOCK, .CMD_ASSOC_DECIDE, .CMD_NBR_SET, .CMD_SEEN_FLUSH, .CMD_NODE_SET, .CMD_ROUTE_SET,
   .CMD_PREFIX_SET, .CMD_TABLE_REBUILD, .CMD_NODE_REKEY, .CMD_TM_SET, .CMD_KEY_SET, .CMD_KEY_MIGRATE, .CMD_MACSEC_SAK,
   .CMD_LC_ADVANCE, .CMD_OTP_HASH, .CMD_ROLLBACK_COMMIT, .CMD_TIME_SET, .CMD_TIME_RESTEP, .CMD_PAIR_SET,
   .CMD_TAKEOVER_READ, .CMD_LOG_DRAIN]

namespace Dev

/-! ### Command slots (R514) -/

/-- Execute a command by its opcode and, where the opcode has several rows, its OP. -/
def runCommand (d : Dev) (h : Hdr) (op : Opcode) (p : List Byte) (env : CmdEnv) : Dev :=
  let o0 := fld p 0 1
  let o1 := fld p 1 1
  match op with
  | .CMD_NOP => d.cmdNop h
  | .CMD_HOST_ATTACH => d.hostAttach h
  | .CMD_SET_PHASE => d.setPhaseCmd h p
  | .CMD_COMMIT => d.commitCmd h p
  | .CMD_VAT_LOAD => d.vatLoad h p
  | .CMD_VAT_DISCARD => d.vatDiscard h
  | .CMD_RF_CAL => d.rfCal h p
  | .CMD_RF_TEST_TX => (d.rfTestTx h p env.level).after
  | .CMD_FEM_SPI => d.femSpi h p (o1 == 1)
  | .CMD_CINNABAR_LOCK => d.cinLock h p env.ok
  | .CMD_ASSOC_DECIDE => d.assocDecide h p (if o1 = 1 then 1 else 0)
  | .CMD_NBR_SET => d.nbrSet h p (if o0 = 1 then 1 else 0)
  | .CMD_SEEN_FLUSH => d.seenFlushCmd h
  | .CMD_NODE_SET => d.tblCmd h .CMD_NODE_SET (if o0 ≤ 2 then o0 else 0) p
  | .CMD_ROUTE_SET => d.tblCmd h .CMD_ROUTE_SET (if o0 ≤ 2 then o0 else 0) p
  | .CMD_PREFIX_SET => d.tblCmd h .CMD_PREFIX_SET (if o0 ≤ 2 then o0 else 0) p
  | .CMD_TABLE_REBUILD =>
    if o1 = 3 then d.rebuildAbandon h p
    else if o1 = 2 then d.rebuildSwap h p
    else d.rebuildStart h p (if o1 = 1 then 1 else 0)
  | .CMD_NODE_REKEY => d.nodeRekey h p
  | .CMD_TM_SET => d.tmSet h p
  | .CMD_KEY_SET =>
    if o0 = 1 then d.cmdKeySetPub h p env.blob
    else if o0 = 2 ∨ o0 = 3 then d.keySet h p o0
    else d.cmdKeySetSym h p env.blob
  | .CMD_KEY_MIGRATE => d.keyMigrate h p env.blob
  | .CMD_MACSEC_SAK => d.macsecSak h p (if o1 ≤ 3 then o1 else 0)
  | .CMD_LC_ADVANCE => d.lcAdvance h p env.ok
  | .CMD_OTP_HASH => d.otpHash h p env.ok
  | .CMD_ROLLBACK_COMMIT => d.rollbackCommit h p
  | .CMD_TIME_SET => d.timeSet h p
  | .CMD_TIME_RESTEP => d.timeRestep h p
  | .CMD_PAIR_SET => d.pairSet h p (if o0 = 1 then 1 else 0)
  | .CMD_TAKEOVER_READ => d.takeoverRead h p env.ok
  | .CMD_LOG_DRAIN => d.logDrain h p env.ok

/-- A slot of 128 octets (R514) that arrives on a path. -/
def runSlot (d : Dev) (path : CmdPath) (b : List Byte) (env : CmdEnv) : Dev :=
  let h : Hdr := ⟨path, BitVec.ofNat 32 (fld b 4 4), bit (fld b 2 2) 0, BitVec.ofNat 10 (fld b 8 2)⟩
  match allOpcodes.find? (fun o => o.code == fld b 0 2) with
  | some o => d.runCommand h o (slice b 64 64) env
  | none => d.cmdUnknown h (BitVec.ofNat 16 (fld b 0 2))

/-! ### The console (R608) -/

/-- CONSOLE_FRAME_RX: a command slot is executed, and a bad frame is discarded. -/
def consoleRx (d : Dev) (f : List Byte) (env : CmdEnv) : Dev :=
  let n := fld f 4 2
  if d.heldReset ∨ d.elec.testEn then d
  else if slice f 0 2 ≠ [0x51#8, 0x4D#8] ∨ fld f 2 1 ≠ 1 ∨ n ≠ 128 ∨ f.length ≠ 8 + n ∨
      fld f (6 + n) 2 ≠ crcCcitt (f.take (6 + n)) then d.bump Cnt.MGMT_FRAME_ERR
  else d.runSlot .console (slice f 6 128) env

/-! ### HOST frames (R532) -/

/-- A member's completion at its root: the command that waits for it ends, and the history of its source and of that chip keeps
it (R519). -/
def memberCompletion (d : Dev) (src : Nat) (b : List Byte) : Dev :=
  let id := BitVec.ofNat 32 (fld b 4 4)
  let mine := fun (x : Cmd) => decide (x.hdr.remote = true ∧ x.hdr.dst.toNat = src ∧ x.hdr.cmdId = id)
  match d.host.inflight.find? mine with
  | none => d
  | some x =>
    let k : Completion := ⟨x.hdr.path, fld b 0 2, (Status.ofCode (fld b 2 2)).getD .ST_OK, id, fld b 8 6, src,
      bit (fld b 14 2) 14, slice b 16 48⟩
    (({ d with host := { d.host with inflight := d.host.inflight.filter (fun y => !mine y) } }).remember
      { k with replayed := false }).post k

/-- A member's event at its root: it waits for ring 2 among the root's own. -/
def memberEvent (d : Dev) (src : Nat) (b : List Byte) : Dev :=
  match allEvents.find? (fun e => e.code == fld b 0 2) with
  | none => d
  | some c =>
    if d.ev.staging.length < evCap then
      let e : Event := ⟨c, BitVec.ofNat 32 (fld b 4 4), fld b 8 6, fld b 16 8, slice b 24 40, some src⟩
      { d with ev := { d.ev with staging := d.ev.staging ++ [e] } }
    else ({ d with ev := { d.ev with lost := d.ev.lost + 1 } }).bump Cnt.EVT_LOST

/-- A member's delivery at its root waits for the ring it names. -/
def memberDelivery (d : Dev) (src ring : Nat) (b : List Byte) : Dev :=
  let h : HostPkt := { hostPktOf b with origin := some src }
  if 15 < ring then d else (d.offer (72 + 8 * ring + h.cls) [.host h] 0 false).1

/-- A root's packet for a member (KIND 5): the SOP descriptor, then the packet. -/
def memberTx (d : Dev) (ring : Nat) (b : List Byte) : Dev :=
  if 15 < ring then d
  else
    let i := d.pipeOf (14 + ring)
    let fl := fld b 0x0C 2
    let sop : TxDesc := ⟨BitVec.ofNat 64 (fld b 0 8), BitVec.ofNat 32 (fld b 8 4), bit fl 0, bit fl 1, bit fl 2, bit fl 3, BitVec.ofNat 8 (fld b 0x0E 1),
      BitVec.ofNat 32 (fld b 0x10 4), BitVec.ofNat 10 (fld b 0x14 2)⟩
    if 1024 ≤ ((d.pipeSt i).queues.get [] (14 + ring)).length ∨ ¬ d.bufRoom (b.length - 32) then d.bump (Cnt.PIPE_IN_FULL i)
    else d.hostIngress ring sop (b.drop 32) 0

/-- A HOST frame for this device. -/
def hostFrame (d : Dev) (f : QlFrame) (env : CmdEnv) : Dev :=
  let ring := fld f.payload 1 1
  let b := (f.payload.drop 8).take (fld f.payload 4 4)
  let fromRoot : Bool := d.links.followed == some f.src
  match fld f.payload 0 1 with
  | 1 => d.runSlot (if fromRoot then .root else .otherQl) (slice b 0 128) env
  | 2 => if d.links.isRoot then d.memberCompletion f.src b else d
  | 3 => if d.links.isRoot then d.memberEvent f.src b else d
  | 4 => if d.links.isRoot then d.memberDelivery f.src ring b else d
  | 5 => if fromRoot ∧ d.modes.control = .shelfMember then d.memberTx ring b else d
  | _ => d

/-! ### QZ-Link frames (R492 to R501) -/

/-- A DATA frame for this device enters the pipeline (R363, R367, R368), with the L3 that W shows. -/
def qlData (d : Dev) (q : Nat) (f : QlFrame) : Dev :=
  let p := f.payload
  d.ingress {
    src := 8 + q, data := p.drop 16, pan := fld p 0 1 % 4, rxFlags := fld p 1 1 % 16 ||| 4, dst := fld p 2 2
    tag := BitVec.ofNat 32 (fld p 8 4), l3 := wiredL3 (p.drop 16) }

/-- A frame that waits for its port stays in the receive buffer of port q, and holds its credits there (R495; DEDUCED, log entry
196). -/
def holdBuffer (d : Dev) (q : Nat) (f : QlFrame) : Dev :=
  d.modQl q (fun x => { x with rxUsed := x.rxUsed.upd 0 f.cls (fun n => n + f.units) })

/-- A frame passes on (R501): it waits for its port, or is dropped and leaves the receive buffer. -/
def qlTransit (d : Dev) (q : Nat) (f : QlFrame) : Dev :=
  if f.ttl ≤ 1 then (d.returnCredits q f).bump (Cnt.QL_TTL_DROP q)
  else match d.routeTo f.dst (f.type == 3) with
    | none => (d.returnCredits q f).bump (Cnt.QL_NO_ROUTE 0)
    | some p =>
      if (d.qlp p).up then (d.holdBuffer q f).queueQl p { f with ttl := f.ttl - 1, rx := some q }
      else (d.returnCredits q f).bump (Cnt.QL_NO_ROUTE p)

/-- An accepted frame of MIR (R551): types other than a record's fragments wait for their own command. -/
def mirFrame (d : Dev) (f : QlFrame) : Dev :=
  if f.dst ≠ d.elec.chipId then d.violate .VIO_MIR_FRAME []
  else { d with
    links := { d.links with mirIn := d.links.mirIn ++ [f] }
    pair := { d.pair with partnerChip := f.src, partnerKnown := true } }

/-- An accepted frame of a QZ-Link port: what this device takes leaves the receive buffer at once. -/
def qlFrame (d : Dev) (q : Nat) (f : QlFrame) (env : CmdEnv) : Dev :=
  if f.type ≠ 4 ∧ (d.qlp q).dupId = false ∧ f.dst ≠ d.elec.chipId then d.qlTransit q f
  else
    let d := d.returnCredits q f
    if f.type = 4 then { d with links := { d.links with annIn := d.links.annIn ++ [(q, f)] } }
    else if (d.qlp q).dupId then d
    else match f.type with
      | 1 => d.qlData q f
      | 2 => d.shelfFrame f.payload
      | _ => d.hostFrame f env

/-- A frame that R492 discards: a NAK answers it. -/
def qlBad (d : Dev) (q : Nat) : Dev := (d.bumpQl q Cnt.QL_CRC_ERR).sendWord q 2 ((d.qlp q).rxSeq)

/-- QL_FRAME_RX: the octets from the header through the CRC. Nothing arrives while the link carries nothing (R497). An ACK is due
after every whole frame, a resent one among them (R493); a frame beyond the credits of its class is discarded (R495). -/
def qlFrameRx (d : Dev) (q : Nat) (b : List Byte) (env : CmdEnv) : Dev :=
  if ¬ carries (d.qlp q) then d
  else
    let n := b.length - 4
    let body := b.take n
    if b.length < 20 ∨ b.drop n ≠ le 4 (crc32 body) then d.qlBad q
    else
      let t := fld b 0 1
      let len := fld b 6 2
      let known : Bool := if q = 6 then decide (0x10 ≤ t ∧ t ≤ 0x14) else decide (1 ≤ t ∧ t ≤ 4)
      let most := if q = 6 then 4096 else 9728
      if ¬ known ∨ 8 ≤ fld b 1 1 ∨ 1024 ≤ fld b 2 2 ∨ 1024 ≤ fld b 4 2 ∨ 4096 ≤ fld b 8 2 ∨ ¬ zeros b 0x0B 5 ∨ len ≠ n - 16 ∨
          most < len then
        (d.qlBad q).violate .VIO_QL_FRAME []
      else
        let x := d.qlp q
        let ahead := (fld b 8 2 + 4096 - x.rxSeq) % 4096
        let f : QlFrame := { type := t, cls := fld b 1 1, dst := fld b 2 2, src := fld b 4 2, ttl := fld b 0x0A 1
                             payload := body.drop 16 }
        let due := d.modQl q (fun y => { y with ackDue := true })
        if ahead ≠ 0 then (if 2048 ≤ ahead then due else due.sendWord q 2 x.rxSeq)
        else if 128 < x.rxUsed.get 0 f.cls + f.units then (d.qlBad q).violate .VIO_QL_CREDIT []
        else
          let d := (due.modQl q (fun y => { y with rxSeq := (y.rxSeq + 1) % 4096 })).bumpQl q Cnt.QL_RX_FRAMES
          if q = 6 then (d.returnCredits q f).mirFrame f else d.qlFrame q f env

/-- A link word (R491, R551, R553), QL_ACK_RX's own being the ACK. -/
def linkWord (d : Dev) (q d1 v : Nat) : Dev :=
  if ¬ carries (d.qlp q) then d
  else match d1 with
    | 1 => d.qlAckRx q v
    | 2 => d.nakRx q
    | 3 => d.creditRx q v
    | 4 => if q = 6 then d else d.levelRx q v
    | _ => if q = 6 ∧ d1 = 0x10 then d.heartbeatRx v else d.violate .VIO_QL_WORD []

end Dev

/-! ### Meanings -/

/-- QL_FRAME_RX (R492, R493, R501, R551). -/
def execQlFrameRx (q : Fin 7) (frame : List Byte) (env : CmdEnv) (s : State) : Host.Outcome State Fault Refusal :=
  s.run (fun d => d.qlFrameRx q.val frame env)

/-- QL_ACK_RX (R491, R493). -/
def execQlAckRx (q : Fin 7) (d1 : Byte) (val : W16) (s : State) : Host.Outcome State Fault Refusal :=
  s.run (fun d => d.linkWord q.val d1.toNat val.toNat)

/-- CONSOLE_FRAME_RX (R608). -/
def execConsoleFrameRx (frame : List Byte) (env : CmdEnv) (s : State) : Host.Outcome State Fault Refusal :=
  s.run (fun d => d.consoleRx frame env)

end Sys2Proof.Machine
end

