-- ==== Sys2Proof/Machine/Tick.lean ====
section
/-! DEFINITION. What time does while no command waits: one TIME-domain clock (R183, R453, R550). -/

namespace Sys2Proof.Machine

namespace Dev

/-- One TIME-domain clock: the time scale, the elapsed time and the cycle count move on, and a contention of OWN is logged as
often as the rate limiter lets it (R550). A device held in reset has no clock. -/
def tickClock (d : Dev) : Dev :=
  if d.heldReset then d
  else
    let t := d.time.frac + clockStep d.time.rate
    ({ d with time := { d.time with
        ns := (d.time.ns + t / 2 ^ 32) % 2 ^ 64, frac := t % 2 ^ 32, up := d.time.up + 4
        cycles := d.time.cycles + 1 } }).frameEnds.femLeads.exchDue.contentionLog

end Dev

end Sys2Proof.Machine
end

