-- ==== Sys2Proof/Machine/Views.lean ====
section
/-! DEFINITION. What a read of a WIN_CFG register returns (R8, R9, R13, R14, R72): ST fields as staged, RW fields and status
fields as they stand, SN fields and counters as last published. A read that latches is a command of its own; this is the
value it returns. -/

namespace Sys2Proof.Machine

/-- A field's value placed at its low bit. -/
def atBit (lo v : Nat) : Nat := v * 2 ^ lo

/-- A flag placed at its bit. -/
def flagAt (lo : Nat) (b : Bool) : Nat := ofBool b * 2 ^ lo

namespace Dev

/-- RF_STATUS, RF_CENTRE, CAL_STATUS and AGC_STATUS of port p. -/
def rfStatus (d : Dev) (p : Nat) : Nat :=
  let x := d.port p
  flagAt 6 x.tempDue + flagAt 5 x.fault + flagAt 4 x.calFail + flagAt 3 x.locked + x.st.code
def calStatus (d : Dev) (p : Nat) : Nat :=
  atBit 24 (pat 8 (d.port p).calTempC) + atBit 8 ((d.port p).calFailed % 128) + (d.port p).calDone % 128
def agcStatus (d : Dev) (p : Nat) : Nat := atBit 8 ((d.port p).agcPeak % 256) + (d.port p).agcIndex % 16

/-- CIN_STATUS (R126), and CIN_STAGE, which reads as the committed block once locked. -/
def cinStatus (d : Dev) : Nat :=
  atBit 16 (d.cin.region % 65536) + atBit 8 (d.cin.numSb % 16) + flagAt 4 d.otp.cin1Spent + flagAt 3 d.otp.cin0Spent +
    atBit 2 (d.cin.slot % 2) + ofBool d.cin.locked
def cinStageWord (d : Dev) (w : Nat) : Nat :=
  if d.cin.locked then fld (if d.cin.slot = 0 then d.otp.cin0 else d.otp.cin1) (4 * w) 4 else (d.cin.stage.get 0 w).toNat

/-- LANE_STATUS and TXC_STATUS. -/
def laneStatus (d : Dev) (l : Nat) : Nat :=
  let x := d.lane l
  flagAt 5 x.outOfWindow + flagAt 4 x.cfgErr + flagAt 3 (x.st == .preamble || x.st == .header || x.st == .payload) + x.st.code
def txcStatus (d : Dev) (c : Nat) : Nat :=
  let x := d.carrier c
  let side := match x.hold with | some h => if h.tx.phase == TxPhase.onAir then h.tx else x.own | none => x.own
  let air := side.phase == TxPhase.onAir
  atBit 16 (if air then pat 16 side.granted else 0) + flagAt 2 air + flagAt 1 (d.carParked c false) + ofBool (d.carPort c).isSome

/-- SEQ_STATUS, and the word at SEQ_PEEK_IDX. -/
def seqStatus (d : Dev) (s : Nat) : Nat :=
  let x := d.seq s
  let pending : Bool := (d.port s).pendCentre.isSome ||
    (d.port s).deferred.any (fun y => match y with | .retune _ _ => true | _ => false)
  atBit 16 (x.pc % 16384) + flagAt 4 pending + flagAt 3 x.cut.isSome + flagAt 2 x.inTail + flagAt 1 x.stopped + ofBool x.bank
def seqPeek (d : Dev) (s : Nat) : Nat :=
  let x := d.seq s
  ((if x.peekStaged then x.staged else x.act).get 0 x.peekIndex).toNat

/-- VAT_STATUS (R283). -/
def vatStatus (d : Dev) : Nat :=
  atBit 24 (d.vat.lastCheck % 256) + atBit 16 (d.vat.lastSection % 256) + flagAt 5 d.pendingCommit.isSome +
    flagAt 4 d.vat.staged.isSome + flagAt 3 d.vat.verifying

/-- TBL_STATUS. -/
def rebuildCode : Rebuild → Nat
  | .idle => 0 | .copying => 1 | .ready => 2 | .swapPending => 3
def tblStatus (d : Dev) : Nat :=
  atBit 4 (rebuildCode d.tbl.pfxRb.st) + atBit 2 (rebuildCode d.tbl.routeRb.st) + rebuildCode d.tbl.nodeRb.st

/-- The seed of table t (R324). -/
def seedOf (d : Dev) (t : Nat) : W64 :=
  match t with
  | 0 => d.tbl.node.seed | 1 => d.tbl.route.seed | 2 => d.tbl.pfx.seed | _ => d.tbl.seen.seed

/-- Octet n of the prefix length set in force, 0xFF where unused (R328). -/
def lenOctet (d : Dev) (n : Nat) : Byte := BitVec.ofNat 8 (d.tbl.lens.getD n 0xFF)

/-- KEY_DESC_A, KEY_DESC_B and KEY_KCV of a slot (R426, R427). -/
def keyDescA (d : Dev) (n : Nat) : Nat :=
  let k := d.key n
  flagAt 31 k.valid + flagAt 30 k.pendingInvalid + atBit 26 (ofBool k.pub) + atBit 21 (k.level % 8) + k.usage % 128
def keyDescB (d : Dev) (n : Nat) : Nat :=
  let k := d.key n
  atBit 24 (k.gen % 256) + atBit 16 (k.callers % 16) + k.parent % 65536

/-- TIME_STATUS (R477). -/
def timeStatus (d : Dev) : Nat :=
  let t := d.time
  atBit 8 (t.hops % 16) + flagAt 7 t.slewing + flagAt 6 t.rateLimit + flagAt 5 t.jumpPending + flagAt 4 t.holdover +
    flagAt 3 t.locked + t.source % 4

/-- ETH_STATUS, QL_ID, QL_ROOT, QL_STATUS and the learned half of QL_ROUTE. -/
def ethStatus (d : Dev) (e : Nat) : Nat := flagAt 4 (d.eth e).lpi + flagAt 3 (d.eth e).link + (d.eth e).rate % 8
def qlRoot (d : Dev) : Nat :=
  atBit 16 (d.links.followed.getD 0 % 1024) + atBit 8 (d.links.rootHops % 256) + d.links.rootPort % 8
def qlStatus (d : Dev) (q : Nat) : Nat :=
  let x := d.qlp q
  flagAt 7 x.dupId + flagAt 6 x.lane1Fail + flagAt 5 x.stepping.isSome + flagAt 4 x.up + x.level % 4
def qlLearned (d : Dev) (i : Nat) : Nat :=
  match d.links.learned.find i with
  | some p => 0x80 + atBit 4 (p % 8)
  | none => 0

/-- PAIR_STATUS (R544). -/
def pairStatus (d : Dev) : Nat :=
  let x := d.pair
  atBit 16 (x.partnerChip % 1024) + atBit 14 (x.partnerMode % 4) + atBit 12 (min 3 x.misses) + flagAt 11 x.partnerReady +
    flagAt 10 x.mirrorValid + flagAt 9 x.chainOk + flagAt 8 (d.qlp 6).up + flagAt 7 x.gateOpen + flagAt 6 x.contention +
    flagAt 5 x.side + flagAt 4 x.ownIn + flagAt 3 x.ownOut

/-- STAGE_CTL: FROZEN, PENDING and HOLD (R69). -/
def stageCtl (d : Dev) : Nat :=
  flagAt 2 d.epoch.frozen + flagAt 1 (!d.stg.regs.isEmpty || !d.stg.frozenRegs.isEmpty || !d.stg.cmds.isEmpty) +
    ofBool d.stg.hold

/-- STRAP_STATUS (R604). -/
def strapStatus (d : Dev) : Nat :=
  flagAt 12 d.elec.testEn + flagAt 11 d.elec.octal + flagAt 10 d.pair.side + d.elec.chipId % 1024

/-- The read-only bits of a register by name and instance, but for SN fields. -/
def statusBits (d : Dev) (name : String) (i j : Nat) : Nat :=
  match name with
  | "ID_DEVICE" => d.idDevice
  | "MODE_STATUS" => d.modeStatus
  | "EPOCH_NUM_LO" => d.epoch.num % 2 ^ 32
  | "EPOCH_NUM_HI" => d.epoch.numHi.toNat
  | "EPOCH_LEN" => d.epoch.lenMs
  | "STAGE_CTL" => d.stageCtl
  | "SNAP_INDEX" => atBit 16 (d.snap.pubSeq % 65536) + flagAt 1 d.snap.fill + ofBool d.snap.buf
  | "RF_STATUS" => d.rfStatus i
  | "RF_CENTRE" => (d.port i).centre
  | "CAL_STATUS" => d.calStatus i
  | "AGC_STATUS" => d.agcStatus i
  | "CIN_STATUS" => d.cinStatus
  | "CIN_STAGE" => d.cinStageWord i
  | "LG_CFG" => flagAt 8 (d.lgPort i).isSome
  | "RXLOG_SEQ" => (d.port i).nextSeq % 65536
  | "LANE_STATUS" => d.laneStatus i
  | "TXC_STATUS" => d.txcStatus i
  | "SEQ_STATUS" => d.seqStatus i
  | "SEQ_HOME" => (d.port i).home
  | "SEQ_END" => (d.seq i).endTick
  | "SEQ_PEEK_IDX" => flagAt 16 (d.seq i).peekStaged + (d.seq i).peekIndex % 16384
  | "SEQ_PEEK_LO" => d.seqPeek i % 2 ^ 32
  | "SEQ_PEEK_HI" => (d.seq i).peekHi.toNat
  | "SEQ_CLASS_MAX" => (d.seq i).usable.get 0 j % 2 ^ 23
  | "VAT_STATUS" => d.vatStatus
  | "VAT_PLAN_ID" => match d.vat.inForce with | some v => v.planId | none => 0
  | "VAT_STAGED_PLAN" => match d.vat.staged with | some v => v.planId | none => 0
  | "VAT_REFUSE" => d.vat.refuse
  | "VAT_DIGEST" => match d.vat.inForce with | some v => fld v.digest (4 * i) 4 | none => 0
  | "MESH_FLOOD" => (d.pan i).nextFlood % 65536
  | "TBL_STATUS" => d.tblStatus
  | "TBL_SEED_LO" => (d.seedOf i).toNat % 2 ^ 32
  | "TBL_SEED_HI" => (d.tbl.seedHi.get 0 i).toNat
  | "PFX_LEN_LO" => unle ((List.range 4).map (fun n => d.lenOctet n))
  | "PFX_LEN_HI" => unle ((List.range 4).map (fun n => d.lenOctet (4 + n)))
  | "SEC_STATUS" => d.secStatus
  | "SEC_VERSION" => atBit 24 (d.sec.running % 256) + d.otp.secMin % 256
  | "MEAS" => fld d.sec.meas (4 * i) 4
  | "KEY_DESC_A" => d.keyDescA i
  | "KEY_DESC_B" => d.keyDescB i
  | "KEY_KCV" => if (d.key i).valid then kcvOf (d.key i).pub (d.key i).key else 0
  | "TIME_STATUS" => d.timeStatus
  | "TIME_NOW_LO" => d.time.ns % 2 ^ 32
  | "TIME_NOW_HI" => d.time.nowHi.toNat
  | "TIME_RATE" => pat 32 d.time.rate
  | "TIME_ERR" => d.errEst % 65536
  | "ETH_STATUS" => d.ethStatus i
  | "ETH_TQ_SPAN" => (d.eth i).span.getD j 0xFFFFFFFF
  | "QL_ID" => flagAt 10 d.links.isRoot + d.elec.chipId % 1024
  | "QL_ROOT" => d.qlRoot
  | "QL_STATUS" => d.qlStatus i
  | "QL_ROUTE" => d.qlLearned i
  | "HR_IDX" => atBit 16 (d.ring i).devIdx.toNat + (d.ring i).hostIdx.toNat
  | "DISP_STATUS" => 4096 - (d.disp.slots.filter (fun x => x.2.st != .free)).length
  | "PAIR_CTL" => flagAt 31 d.pair.allow
  | "PAIR_STATUS" => d.pairStatus
  | "PAIR_COMMIT_LO" => d.pair.commit.getD 0 % 2 ^ 32
  | "PAIR_COMMIT_HI" => d.pair.commitHi.toNat
  | "FAULT_STATUS" => d.faultStatus
  | "RST_CAUSE" => d.rstCause
  | "STRAP_STATUS" => d.strapStatus
  | "TEMP_STATUS" => d.tempStatus
  | "DDR_STATUS" => d.ddrStatus
  | _ => 0

/-- The SN bits of a register. -/
def snBits (d : Dev) (name : String) (off : Nat) : Nat :=
  let v := d.published.vals.get 0 off
  match name with
  | "LANE_NOISE" | "RXLOG_FULL" | "DUTY_USED" | "TXTS_OVF" | "PAN_FREE" | "MESH_SEEN_USED" | "NODE_COUNT" | "VG_STATUS"
  | "TM_BUF_USED" | "SHP_LEVEL" | "POL_LEVEL" | "Q_DEPTH" | "SEC_PAN_FC" | "ETH_TS_OVF" | "OCHRE" | "PARTNER_OCHRE" | "CNT_SAT"
  | "POWER_EST" | "MGMT_FRAME_ERR" => v
  | "MESH_FLOOD" => v - v % 65536
  | "TIME_ERR" => v - v % 65536
  | _ => 0

/-- A counter's octets as published (R592): a statistics counter has its low half first. -/
def counterHalf (d : Dev) (off : Nat) : Nat :=
  if isWide off then
    (if off % 8 = 0 then d.published.vals.get 0 off % 2 ^ 32 else d.published.vals.get 0 (off - 4) / 2 ^ 32)
  else d.published.vals.get 0 off

/-- A naturally aligned 32-bit read of WIN_CFG: the host sees PAIR_KEEPALIVE as unassigned, and an unassigned offset reads 0
(R14). -/
def readReg (d : Dev) (off0 : Nat) : Nat :=
  let off := cfgOffset off0
  match regAt off with
  | some r =>
    let i := r.idx1 off
    let j := r.idx2 off
    let held := if r.name = "PAD_DRIVE" ∨ r.name = "HR_BASE_LO" ∨ r.name = "HR_BASE_HI" ∨ r.name = "HR_CTL" then
        (d.cfg.get (BitVec.ofNat 32 r.reset) off).toNat else d.stagedReg off r.reset &&& r.st
    held + d.statusBits r.name i j + d.snBits r.name off
  | none =>
    if 0xF00100 ≤ off ∧ off < 0xF00200 then (Config.snapDir ((off - 0xF00100) / 4)).toNat
    else if isCounter off then d.counterHalf off else 0

/-- MSI-X vectors whose message waits for the end of their interval, as the pending-bit array shows them (R505, R507; PRESUMED,
log entry 198). -/
def msixPending (d : Dev) (w : Nat) : Nat :=
  (List.range 32).foldl (fun m i => m + ofBool (d.ring (32 * w + i)).deferred * 2 ^ i) 0

/-- A naturally aligned 32-bit read of WIN_RING (R505, R506): a doorbell at 8n returns HR_IDX_n, the MSI-X table its words, the
pending-bit array its bits; none for an access that is not one of these. -/
def readRing (d : Dev) (off : Nat) : Option Nat :=
  if off % 4 ≠ 0 then none
  else if off < 8 * 35 then (if off % 8 = 0 then some (d.readReg (Reg.HR_IDX (off / 8))) else none)
  else if 0x80000 ≤ off ∧ off < 0x80400 then some (d.host.msixTable.get 0 ((off - 0x80000) / 4)).toNat
  else if 0x90000 ≤ off ∧ off < 0x90008 then some (d.msixPending ((off - 0x90000) / 4))
  else none

/-- The 32-bit word of a snapshot buffer at offset o (R73): EPOCH, PUB_SEQ and the reserved octets of the header, and past it
what the region there holds. The spec does not give the regions' places, so that Config.snapItem says, as an open
function, which item stands at each word. -/
def snapWord (d : Dev) (b : SnapBuf) (o : Nat) : Nat :=
  if o = 0 then b.epoch % 2 ^ 32
  else if o = 4 then b.epoch / 2 ^ 32 % 65536
  else if o = 8 then b.pubSeq % 65536
  else if o = 0xC then 0
  else
    let i := (Config.snapItem o).2
    match (Config.snapItem o).1 with
    | 1 => b.vals.get 0 i % 2 ^ 32
    | 2 => b.vals.get 0 i / 2 ^ 32
    | 3 => match b.settings.find i with
      | some v => v.toNat
      | none => if Reg.CIN_TIGHT_A 0 ≤ i ∧ i < Reg.CIN_TIGHT_A 12 then 0 else match regAt i with
        | some r => d.chipValue i r.reset
        | none => 0
    | 4 => fld b.nbrs (4 * i) 4
    | 5 => pat 32 (b.limits.getD i (0, 0)).1
    | 6 => pat 32 (b.limits.getD i (0, 0)).2
    | _ => 0

/-- A read of WIN_SNAP (R15, R72 to R75): a naturally aligned 32-bit read, or a 64-bit read, whose halves come from the same
buffer; none for an access that R15 does not allow. -/
def readSnap (d : Dev) (off : Nat) (wide : Bool) : Option Nat :=
  let b := if off < 0x2000000 then d.snap.b0 else d.snap.b1
  let o := off % 0x2000000
  if 0x4000000 ≤ off ∨ off % (if wide then 8 else 4) ≠ 0 then none
  else some (d.snapWord b o + (if wide then d.snapWord b (o + 4) * 2 ^ 32 else 0))

end Dev

end Sys2Proof.Machine
end

