-- ==== Sys2Proof/Machine/Dispatch.lean ====
section
/-! DEFINITION. The dispatcher: one arm per command, each a direct call of its meaning. -/

namespace Sys2Proof.Machine

def exec (i : Instr) (s : State) : Host.Outcome State Fault Refusal :=
  match i with
  | .sysRstAssert => Sys2Proof.Machine.execSysRstAssert s
  | .sysRstRelease boot => Sys2Proof.Machine.execSysRstRelease boot s
  | .supplyLoss rail => Sys2Proof.Machine.execSupplyLoss rail s
  | .supplyResetEnd boot => Sys2Proof.Machine.execSupplyResetEnd boot s
  | .thermalOvertemp => Sys2Proof.Machine.execThermalOvertemp s
  | .thermalResetEnd boot => Sys2Proof.Machine.execThermalResetEnd boot s
  | .clockLoss => Sys2Proof.Machine.execClockLoss s
  | .perstNAssert => Sys2Proof.Machine.execPerstNAssert s
  | .jtagTrst => Sys2Proof.Machine.execJtagTrst s
  | .pcieLinkChange link => Sys2Proof.Machine.execPcieLinkChange link s
  | .hostLinkLossTimeout => Sys2Proof.Machine.execHostLinkLossTimeout s
  | .controlModeWindowEnd => Sys2Proof.Machine.execControlModeWindowEnd s
  | .ownBootDelayEnd => Sys2Proof.Machine.execOwnBootDelayEnd s
  | .functionLevelReset => Sys2Proof.Machine.execFunctionLevelReset s
  | .d3hotEntry => Sys2Proof.Machine.execD3hotEntry s
  | .pcieDmaError n => Sys2Proof.Machine.execPcieDmaError n s
  | .registerWrite src off val => Sys2Proof.Machine.execRegisterWrite src off val s
  | .cfgBadWidthAccess write off => Sys2Proof.Machine.execCfgBadWidthAccess write off s
  | .cfgUnmappedAccess write off => Sys2Proof.Machine.execCfgUnmappedAccess write off s
  | .winRingBadAccess write off => Sys2Proof.Machine.execWinRingBadAccess write off s
  | .epochNumLoRead => Sys2Proof.Machine.execEpochNumLoRead s
  | .seqPeekLoRead q => Sys2Proof.Machine.execSeqPeekLoRead q s
  | .timeNowLoRead => Sys2Proof.Machine.execTimeNowLoRead s
  | .tblSeedLoRead t => Sys2Proof.Machine.execTblSeedLoRead t s
  | .pairCommitLoRead => Sys2Proof.Machine.execPairCommitLoRead s
  | .stageHoldWrite hold => Sys2Proof.Machine.execStageHoldWrite hold s
  | .cinStageWrite w data => Sys2Proof.Machine.execCinStageWrite w data s
  | .ringEnable n ctl => Sys2Proof.Machine.execRingEnable n ctl s
  | .ringDoorbell n idx => Sys2Proof.Machine.execRingDoorbell n idx s
  | .pairKeepaliveWrite val => Sys2Proof.Machine.execPairKeepaliveWrite val s
  | .cmdNop h => Sys2Proof.Machine.execCmdNop h s
  | .cmdHostAttach h => Sys2Proof.Machine.execCmdHostAttach h s
  | .cmdSetPhase h p => Sys2Proof.Machine.execCmdSetPhase h p s
  | .cmdCommit h p => Sys2Proof.Machine.execCmdCommit h p s
  | .cmdVatLoad h p => Sys2Proof.Machine.execCmdVatLoad h p s
  | .vatCopyDone ok image => Sys2Proof.Machine.execVatCopyDone ok image s
  | .vatVerifyDone => Sys2Proof.Machine.execVatVerifyDone s
  | .cmdVatDiscard h => Sys2Proof.Machine.execCmdVatDiscard h s
  | .cmdRfCal h p => Sys2Proof.Machine.execCmdRfCal h p s
  | .cmdRfTestTx h p level => Sys2Proof.Machine.execCmdRfTestTx h p level s
  | .testTxEnd c => Sys2Proof.Machine.execTestTxEnd c s
  | .cmdFemSpiWrite h p => Sys2Proof.Machine.execCmdFemSpiWrite h p s
  | .cmdFemSpiRead h p => Sys2Proof.Machine.execCmdFemSpiRead h p s
  | .cmdCinnabarLock h p readBackOk => Sys2Proof.Machine.execCmdCinnabarLock h p readBackOk s
  | .cmdAssocDecideAdmit h p => Sys2Proof.Machine.execCmdAssocDecideAdmit h p s
  | .cmdAssocDecideDeny h p => Sys2Proof.Machine.execCmdAssocDecideDeny h p s
  | .cmdNbrSetAdd h p => Sys2Proof.Machine.execCmdNbrSetAdd h p s
  | .cmdNbrSetRemove h p => Sys2Proof.Machine.execCmdNbrSetRemove h p s
  | .cmdSeenFlush h => Sys2Proof.Machine.execCmdSeenFlush h s
  | .cmdNodeSetAdd h p => Sys2Proof.Machine.execCmdNodeSetAdd h p s
  | .cmdNodeSetDelete h p => Sys2Proof.Machine.execCmdNodeSetDelete h p s
  | .cmdNodeSetClearQuarantine h p => Sys2Proof.Machine.execCmdNodeSetClearQuarantine h p s
  | .cmdRouteSetAdd h p => Sys2Proof.Machine.execCmdRouteSetAdd h p s
  | .cmdRouteSetDelete h p => Sys2Proof.Machine.execCmdRouteSetDelete h p s
  | .cmdRouteSetClearQuarantine h p => Sys2Proof.Machine.execCmdRouteSetClearQuarantine h p s
  | .cmdPrefixSetAdd h p => Sys2Proof.Machine.execCmdPrefixSetAdd h p s
  | .cmdPrefixSetDelete h p => Sys2Proof.Machine.execCmdPrefixSetDelete h p s
  | .cmdPrefixSetClearQuarantine h p => Sys2Proof.Machine.execCmdPrefixSetClearQuarantine h p s
  | .cmdTableRebuildCopy h p => Sys2Proof.Machine.execCmdTableRebuildCopy h p s
  | .cmdTableRebuildEmpty h p => Sys2Proof.Machine.execCmdTableRebuildEmpty h p s
  | .cmdTableRebuildSwap h p => Sys2Proof.Machine.execCmdTableRebuildSwap h p s
  | .cmdTableRebuildAbandon h p => Sys2Proof.Machine.execCmdTableRebuildAbandon h p s
  | .rebuildCopyDone t => Sys2Proof.Machine.execRebuildCopyDone t s
  | .cmdNodeRekey h p => Sys2Proof.Machine.execCmdNodeRekey h p s
  | .cmdTmSet h p => Sys2Proof.Machine.execCmdTmSet h p s
  | .cmdKeySetImportSym256 h p blob => Sys2Proof.Machine.execCmdKeySetImportSym256 h p blob s
  | .cmdKeySetImportPubPair h p blob => Sys2Proof.Machine.execCmdKeySetImportPubPair h p blob s
  | .cmdKeySetDerive h p => Sys2Proof.Machine.execCmdKeySetDerive h p s
  | .cmdKeySetInvalidate h p => Sys2Proof.Machine.execCmdKeySetInvalidate h p s
  | .keystoreWriteDone ok => Sys2Proof.Machine.execKeystoreWriteDone ok s
  | .cmdKeyMigrate h p manifest => Sys2Proof.Machine.execCmdKeyMigrate h p manifest s
  | .cmdMacsecSakInstallTx h p => Sys2Proof.Machine.execCmdMacsecSakInstallTx h p s
  | .cmdMacsecSakInstallRx h p => Sys2Proof.Machine.execCmdMacsecSakInstallRx h p s
  | .cmdMacsecSakGenerateTx h p => Sys2Proof.Machine.execCmdMacsecSakGenerateTx h p s
  | .cmdMacsecSakRemove h p => Sys2Proof.Machine.execCmdMacsecSakRemove h p s
  | .cmdLcAdvance h p readBackOk => Sys2Proof.Machine.execCmdLcAdvance h p readBackOk s
  | .cmdOtpHash h p readBackOk => Sys2Proof.Machine.execCmdOtpHash h p readBackOk s
  | .cmdRollbackCommit h p => Sys2Proof.Machine.execCmdRollbackCommit h p s
  | .cmdTimeSet h p => Sys2Proof.Machine.execCmdTimeSet h p s
  | .cmdTimeRestep h p => Sys2Proof.Machine.execCmdTimeRestep h p s
  | .cmdPairSetForbid h p => Sys2Proof.Machine.execCmdPairSetForbid h p s
  | .cmdPairSetAllow h p => Sys2Proof.Machine.execCmdPairSetAllow h p s
  | .cmdTakeoverRead h p dmaOk => Sys2Proof.Machine.execCmdTakeoverRead h p dmaOk s
  | .cmdLogDrain h p dmaOk => Sys2Proof.Machine.execCmdLogDrain h p dmaOk s
  | .stagingFreeze => Sys2Proof.Machine.execStagingFreeze s
  | .epochBoundary => Sys2Proof.Machine.execEpochBoundary s
  | .boundaryStrobeArrival dom => Sys2Proof.Machine.execBoundaryStrobeArrival dom s
  | .nodeAgeOut slot => Sys2Proof.Machine.execNodeAgeOut slot s
  | .addressReleaseHoldEnd k addr => Sys2Proof.Machine.execAddressReleaseHoldEnd k addr s
  | .romStartupDwellEnd => Sys2Proof.Machine.execRomStartupDwellEnd s
  | .recordAckTimeout => Sys2Proof.Machine.execRecordAckTimeout s
  | .snapshotPublish => Sys2Proof.Machine.execSnapshotPublish s
  | .portTempMeasure p temp => Sys2Proof.Machine.execPortTempMeasure p temp s
  | .seqNop sq tick => Sys2Proof.Machine.execSeqNop sq tick s
  | .seqEnd sq tick => Sys2Proof.Machine.execSeqEnd sq tick s
  | .seqCond sq tick cond arg n => Sys2Proof.Machine.execSeqCond sq tick cond arg n s
  | .seqRx sq tick => Sys2Proof.Machine.execSeqRx sq tick s
  | .seqRetune sq tick home khz => Sys2Proof.Machine.execSeqRetune sq tick home khz s
  | .seqCal sq tick window sel => Sys2Proof.Machine.execSeqCal sq tick window sel s
  | .seqLfreq sq tick lane offset => Sys2Proof.Machine.execSeqLfreq sq tick lane offset s
  | .seqLmode sq tick lane mode => Sys2Proof.Machine.execSeqLmode sq tick lane mode s
  | .seqCset sq tick c offset => Sys2Proof.Machine.execSeqCset sq tick c offset s
  | .seqCmode sq tick c mode => Sys2Proof.Machine.execSeqCmode sq tick c mode s
  | .seqTx sq tick c cls cca multi len => Sys2Proof.Machine.execSeqTx sq tick c cls cca multi len s
  | .seqWin sq tick c classes len => Sys2Proof.Machine.execSeqWin sq tick c classes len s
  | .seqBcn sq tick c pan nextBcn len => Sys2Proof.Machine.execSeqBcn sq tick c pan nextBcn len s
  | .seqRxp sq tick dur => Sys2Proof.Machine.execSeqRxp sq tick dur s
  | .seqSpi sq tick word => Sys2Proof.Machine.execSeqSpi sq tick word s
  | .slotClose c => Sys2Proof.Machine.execSlotClose c s
  | .airQueueHeadArrival p cls => Sys2Proof.Machine.execAirQueueHeadArrival p cls s
  | .csmaBackoffExpiry c => Sys2Proof.Machine.execCsmaBackoffExpiry c s
  | .ccaEnd c level => Sys2Proof.Machine.execCcaEnd c level s
  | .portRxReturn p => Sys2Proof.Machine.execPortRxReturn p s
  | .coexGntRevoke p => Sys2Proof.Machine.execCoexGntRevoke p s
  | .coexReqHoldEnd p => Sys2Proof.Machine.execCoexReqHoldEnd p s
  | .rxpEnd p => Sys2Proof.Machine.execRxpEnd p s
  | .ackWaitEnd c => Sys2Proof.Machine.execAckWaitEnd c s
  | .portPowerUp p => Sys2Proof.Machine.execPortPowerUp p s
  | .synthLock p => Sys2Proof.Machine.execSynthLock p s
  | .calDone p miss1 miss2 temp => Sys2Proof.Machine.execCalDone p miss1 miss2 temp s
  | .portPowerDown p => Sys2Proof.Machine.execPortPowerDown p s
  | .femSpiDone p rdata isMatch => Sys2Proof.Machine.execFemSpiDone p rdata isMatch s
  | .agcStep p rms peak => Sys2Proof.Machine.execAgcStep p rms peak s
  | .agcForcedStep p peak => Sys2Proof.Machine.execAgcForcedStep p peak s
  | .preambleDetect l e => Sys2Proof.Machine.execPreambleDetect l e s
  | .syncMatch l word rssi snr foff => Sys2Proof.Machine.execSyncMatch l word rssi snr foff s
  | .syncTimeout l => Sys2Proof.Machine.execSyncTimeout l s
  | .phrCheck l phr => Sys2Proof.Machine.execPhrCheck l phr s
  | .psduEnd l psdu => Sys2Proof.Machine.execPsduEnd l psdu s
  | .capture l e => Sys2Proof.Machine.execCapture l e s
  | .rxRecordDecide p seq => Sys2Proof.Machine.execRxRecordDecide p seq s
  | .copyGroupClose => Sys2Proof.Machine.execCopyGroupClose s
  | .ccmUplinkDone p seq => Sys2Proof.Machine.execCcmUplinkDone p seq s
  | .kdfDone => Sys2Proof.Machine.execKdfDone s
  | .indirectResponseStart c level => Sys2Proof.Machine.execIndirectResponseStart c level s
  | .indirectExpire ix => Sys2Proof.Machine.execIndirectExpire ix s
  | .assocDecideTimeout k eui => Sys2Proof.Machine.execAssocDecideTimeout k eui s
  | .nbrWindowJudge ix => Sys2Proof.Machine.execNbrWindowJudge ix s
  | .dutyBinAdvance => Sys2Proof.Machine.execDutyBinAdvance s
  | .tokenRefill => Sys2Proof.Machine.execTokenRefill s
  | .pipeWindowStart ix => Sys2Proof.Machine.execPipeWindowStart ix s
  | .actNop ix => Sys2Proof.Machine.execActNop ix s
  | .actMovi ix rd imm => Sys2Proof.Machine.execActMovi ix rd imm s
  | .actLui ix rd imm => Sys2Proof.Machine.execActLui ix rd imm s
  | .actAdd ix rd ra rb => Sys2Proof.Machine.execActAdd ix rd ra rb s
  | .actAddi ix rd ra aux => Sys2Proof.Machine.execActAddi ix rd ra aux s
  | .actSub ix rd ra rb => Sys2Proof.Machine.execActSub ix rd ra rb s
  | .actAnd ix rd ra rb => Sys2Proof.Machine.execActAnd ix rd ra rb s
  | .actOr ix rd ra rb => Sys2Proof.Machine.execActOr ix rd ra rb s
  | .actXor ix rd ra rb => Sys2Proof.Machine.execActXor ix rd ra rb s
  | .actExt ix rd ra pos wm1 => Sys2Proof.Machine.execActExt ix rd ra pos wm1 s
  | .actIns ix rd ra pos wm1 => Sys2Proof.Machine.execActIns ix rd ra pos wm1 s
  | .actLdm ix rd field => Sys2Proof.Machine.execActLdm ix rd field s
  | .actStm ix ra field => Sys2Proof.Machine.execActStm ix ra field s
  | .actLdh ix rd off wid => Sys2Proof.Machine.execActLdh ix rd off wid s
  | .actSth ix ra off wid => Sys2Proof.Machine.execActSth ix ra off wid s
  | .actLdr ix rd rb off wid => Sys2Proof.Machine.execActLdr ix rd rb off wid s
  | .actCnt ix k => Sys2Proof.Machine.execActCnt ix k s
  | .actOwnr ix rd ra => Sys2Proof.Machine.execActOwnr ix rd ra s
  | .actBeq ix ra rb target => Sys2Proof.Machine.execActBeq ix ra rb target s
  | .actBne ix ra rb target => Sys2Proof.Machine.execActBne ix ra rb target s
  | .actBltu ix ra rb target => Sys2Proof.Machine.execActBltu ix ra rb target s
  | .actBgeu ix ra rb target => Sys2Proof.Machine.execActBgeu ix ra rb target s
  | .actBeqi ix ra imm target => Sys2Proof.Machine.execActBeqi ix ra imm target s
  | .actBnei ix ra imm target => Sys2Proof.Machine.execActBnei ix ra imm target s
  | .actBbs ix ra imm target => Sys2Proof.Machine.execActBbs ix ra imm target s
  | .actBbc ix ra imm target => Sys2Proof.Machine.execActBbc ix ra imm target s
  | .actJmp ix target => Sys2Proof.Machine.execActJmp ix target s
  | .actLkn ix rd ra rb res => Sys2Proof.Machine.execActLkn ix rd ra rb res s
  | .actLke ix rd ra rb res => Sys2Proof.Machine.execActLke ix rd ra rb res s
  | .actLkr ix rd ra rb res => Sys2Proof.Machine.execActLkr ix rd ra rb res s
  | .actLkp ix rd res source => Sys2Proof.Machine.execActLkp ix rd res source s
  | .lookupReturn ix late => Sys2Proof.Machine.execLookupReturn ix late s
  | .actPol ix rd ra => Sys2Proof.Machine.execActPol ix rd ra s
  | .actDcmp ix rd => Sys2Proof.Machine.execActDcmp ix rd s
  | .actCmpr ix rd => Sys2Proof.Machine.execActCmpr ix rd s
  | .actFwd ix => Sys2Proof.Machine.execActFwd ix s
  | .actDrop ix k => Sys2Proof.Machine.execActDrop ix k s
  | .actRecirc ix prog => Sys2Proof.Machine.execActRecirc ix prog s
  | .actRecircp ix res => Sys2Proof.Machine.execActRecircp ix res s
  | .reasmTimeout j => Sys2Proof.Machine.execReasmTimeout j s
  | .ethFrameRx e frame => Sys2Proof.Machine.execEthFrameRx e frame s
  | .ethLinkChange e up rate half => Sys2Proof.Machine.execEthLinkChange e up rate half s
  | .ethTxTake e => Sys2Proof.Machine.execEthTxTake e s
  | .gateChange e => Sys2Proof.Machine.execGateChange e s
  | .eeeLpiEntry e => Sys2Proof.Machine.execEeeLpiEntry e s
  | .ptpSyncRx parent => Sys2Proof.Machine.execPtpSyncRx parent s
  | .ptpDelayMsgRx => Sys2Proof.Machine.execPtpDelayMsgRx s
  | .ppsEdge rising => Sys2Proof.Machine.execPpsEdge rising s
  | .todMessageRx msg => Sys2Proof.Machine.execTodMessageRx msg s
  | .timeMeasurement => Sys2Proof.Machine.execTimeMeasurement s
  | .holdoverLossTimeout => Sys2Proof.Machine.execHoldoverLossTimeout s
  | .ppsOutEdge => Sys2Proof.Machine.execPpsOutEdge s
  | .todOutSend => Sys2Proof.Machine.execTodOutSend s
  | .txStampDrain eth p => Sys2Proof.Machine.execTxStampDrain eth p s
  | .qlFrameRx q frame env => Sys2Proof.Machine.execQlFrameRx q frame env s
  | .qlAckRx q d1 val => Sys2Proof.Machine.execQlAckRx q d1 val s
  | .qlNakRx q val => Sys2Proof.Machine.execQlNakRx q val s
  | .qlCreditRx q val => Sys2Proof.Machine.execQlCreditRx q val s
  | .qlLevelRx q val => Sys2Proof.Machine.execQlLevelRx q val s
  | .qlAckSend q => Sys2Proof.Machine.execQlAckSend q s
  | .qlReplayTimeout q => Sys2Proof.Machine.execQlReplayTimeout q s
  | .qlLinkDown q => Sys2Proof.Machine.execQlLinkDown q s
  | .qlLinkUp q lane1 => Sys2Proof.Machine.execQlLinkUp q lane1 s
  | .qlLevelWindow q => Sys2Proof.Machine.execQlLevelWindow q s
  | .qlStepDone q lane1 => Sys2Proof.Machine.execQlStepDone q lane1 s
  | .qlTxSchedule q => Sys2Proof.Machine.execQlTxSchedule q s
  | .announceRx => Sys2Proof.Machine.execAnnounceRx s
  | .announceSend => Sys2Proof.Machine.execAnnounceSend s
  | .memberAnnounceSend => Sys2Proof.Machine.execMemberAnnounceSend s
  | .rootExpiry root => Sys2Proof.Machine.execRootExpiry root s
  | .shelfRootLoss => Sys2Proof.Machine.execShelfRootLoss s
  | .heartbeatSend => Sys2Proof.Machine.execHeartbeatSend s
  | .heartbeatStall => Sys2Proof.Machine.execHeartbeatStall s
  | .heartbeatRx val => Sys2Proof.Machine.execHeartbeatRx val s
  | .heartbeatMiss => Sys2Proof.Machine.execHeartbeatMiss s
  | .takeoverOwnAcquire => Sys2Proof.Machine.execTakeoverOwnAcquire s
  | .takeoverRestoreDone => Sys2Proof.Machine.execTakeoverRestoreDone s
  | .ownInAssert => Sys2Proof.Machine.execOwnInAssert s
  | .ownInRelease => Sys2Proof.Machine.execOwnInRelease s
  | .mirFragmentRx => Sys2Proof.Machine.execMirFragmentRx s
  | .mirRecordAckRx => Sys2Proof.Machine.execMirRecordAckRx s
  | .mirReqBaseRx => Sys2Proof.Machine.execMirReqBaseRx s
  | .mirBreakRx => Sys2Proof.Machine.execMirBreakRx s
  | .mirOchreRx => Sys2Proof.Machine.execMirOchreRx s
  | .reqBaseSend => Sys2Proof.Machine.execReqBaseSend s
  | .mirrorFillDone => Sys2Proof.Machine.execMirrorFillDone s
  | .ochreTestRun test pass ce => Sys2Proof.Machine.execOchreTestRun test pass ce s
  | .rxDmaDeliver r bufLens => Sys2Proof.Machine.execRxDmaDeliver r bufLens s
  | .rxStallTimeout r => Sys2Proof.Machine.execRxStallTimeout r s
  | .txRingFetch r descs data => Sys2Proof.Machine.execTxRingFetch r descs data s
  | .eventPost => Sys2Proof.Machine.execEventPost s
  | .msixModerationEnd n => Sys2Proof.Machine.execMsixModerationEnd n s
  | .taskSubmit k desc => Sys2Proof.Machine.execTaskSubmit k desc s
  | .taskReady k handle => Sys2Proof.Machine.execTaskReady k handle s
  | .taskCancel k handle => Sys2Proof.Machine.execTaskCancel k handle s
  | .taskTake k => Sys2Proof.Machine.execTaskTake k s
  | .taskTakeTimeout k => Sys2Proof.Machine.execTaskTakeTimeout k s
  | .taskDone k handle result => Sys2Proof.Machine.execTaskDone k handle result s
  | .taskCplRead k => Sys2Proof.Machine.execTaskCplRead k s
  | .taskWatchdogExpiry slot => Sys2Proof.Machine.execTaskWatchdogExpiry slot s
  | .backgroundTableWork => Sys2Proof.Machine.execBackgroundTableWork s
  | .verdigrisCompare => Sys2Proof.Machine.execVerdigrisCompare s
  | .patrolScrub => Sys2Proof.Machine.execPatrolScrub s
  | .eccCorrectable occ index => Sys2Proof.Machine.execEccCorrectable occ index s
  | .eccUncorrectable occ index => Sys2Proof.Machine.execEccUncorrectable occ index s
  | .crossingParityError item => Sys2Proof.Machine.execCrossingParityError item s
  | .trngHealthFail => Sys2Proof.Machine.execTrngHealthFail s
  | .consoleFrameRx frame env => Sys2Proof.Machine.execConsoleFrameRx frame env s
  | .bootNoneReport => Sys2Proof.Machine.execBootNoneReport s
  | .ddrTrainFailReport => Sys2Proof.Machine.execDdrTrainFailReport s
  | .smbusBlockRead code => Sys2Proof.Machine.execSmbusBlockRead code s
  | .smbusWrite => Sys2Proof.Machine.execSmbusWrite s
  | .smbusAlertResponse => Sys2Proof.Machine.execSmbusAlertResponse s
  | .txGrant c gnt => Sys2Proof.Machine.execTxGrant c gnt s
  | .txRampUp c => Sys2Proof.Machine.execTxRampUp c s
  | .txEnd c => Sys2Proof.Machine.execTxEnd c s
  | .ackTxStart c => Sys2Proof.Machine.execAckTxStart c s
  | .lateLockTimeout c => Sys2Proof.Machine.execLateLockTimeout c s
  | .ownWaitDeadline => Sys2Proof.Machine.execOwnWaitDeadline s
  | .trngHealthPass => Sys2Proof.Machine.execTrngHealthPass s
  | .keySlotReload slot => Sys2Proof.Machine.execKeySlotReload slot s
  | .ptpMessageSend e => Sys2Proof.Machine.execPtpMessageSend e s
  | .ppsOutPulseEnd => Sys2Proof.Machine.execPpsOutPulseEnd s
  | .coreMemoryAccess k owner dram write off data => Sys2Proof.Machine.execCoreMemoryAccess k owner dram write off data s
  | .coreInterruptPending k => Sys2Proof.Machine.execCoreInterruptPending k s
  | .thermalWarning tj => Sys2Proof.Machine.execThermalWarning tj s
  | .cmdUnknownOpcode h opcode => Sys2Proof.Machine.execCmdUnknownOpcode h opcode s

end Sys2Proof.Machine
end

