-- ==== Sys2Proof/WellFormed.lean ====
section
/-! DEFINITION. What a command must be beside its type: whole payloads, buffer and descriptor lengths that R527 and R529
give, register offsets that are naturally aligned (R13), an opcode that R521 does not
list. The meanings are total: they also answer for a command that is not well formed. -/

namespace Sys2Proof

/-- A command's payload area is 64 octets (R514). -/
def payloadWhole (p : List Byte) : Bool := decide (p.length = 64)

/-- A naturally aligned 32-bit access (R13). -/
def wordAligned (off : Nat) : Bool := decide (off % 4 = 0)

/-- BUF_LEN of a transmit descriptor is 1 to 65,535, and the packet fills its buffers (R527). -/
def descsWhole (descs : List TxDesc) (data : List Byte) : Bool :=
  descs.all (fun d => decide (1 ≤ d.len.toNat ∧ d.len.toNat ≤ 65535)) &&
    decide (data.length ≤ (descs.map (fun d => d.len.toNat)).foldl (· + ·) 0)

/-- BUF_LEN of a receive descriptor is 256 to 65,536, a multiple of 64 (R529). -/
def bufsWhole (bufs : List Nat) : Bool := bufs.all (fun n => decide (256 ≤ n ∧ n ≤ 65536 ∧ n % 64 = 0))

/-- The opcodes that R521 lists. -/
def listedOpcodes : List Nat :=
  [0x01, 0x02, 0x03, 0x04, 0x05, 0x06, 0x10, 0x11, 0x12, 0x13, 0x20, 0x21, 0x30, 0x31, 0x32, 0x33, 0x34, 0x35, 0x40,
   0x50, 0x51, 0x52, 0x53, 0x54, 0x55, 0x60, 0x61, 0x70, 0x71, 0x80]

def opcodeUnlisted (op : Nat) : Bool := !listedOpcodes.contains op

/-- The command is well formed. -/
def Instr.wf : Instr → Bool
  | .sysRstAssert => true
  | .sysRstRelease _ => true
  | .supplyLoss _ => true
  | .supplyResetEnd _ => true
  | .thermalOvertemp => true
  | .thermalResetEnd _ => true
  | .clockLoss => true
  | .perstNAssert => true
  | .jtagTrst => true
  | .pcieLinkChange _ => true
  | .hostLinkLossTimeout => true
  | .controlModeWindowEnd => true
  | .ownBootDelayEnd => true
  | .functionLevelReset => true
  | .d3hotEntry => true
  | .pcieDmaError _ => true
  | .registerWrite _ off _ => wordAligned off.toNat
  | .cfgBadWidthAccess _ _ => true
  | .cfgUnmappedAccess _ _ => true
  | .winRingBadAccess _ _ => true
  | .epochNumLoRead => true
  | .seqPeekLoRead _ => true
  | .timeNowLoRead => true
  | .tblSeedLoRead _ => true
  | .pairCommitLoRead => true
  | .stageHoldWrite _ => true
  | .cinStageWrite _ _ => true
  | .ringEnable _ _ => true
  | .ringDoorbell _ _ => true
  | .pairKeepaliveWrite _ => true
  | .cmdNop _ => true
  | .cmdHostAttach _ => true
  | .cmdSetPhase _ p => payloadWhole p
  | .cmdCommit _ p => payloadWhole p
  | .cmdVatLoad _ p => payloadWhole p
  | .vatCopyDone _ _ => true
  | .vatVerifyDone => true
  | .cmdVatDiscard _ => true
  | .cmdRfCal _ p => payloadWhole p
  | .cmdRfTestTx _ p _ => payloadWhole p
  | .testTxEnd _ => true
  | .cmdFemSpiWrite _ p => payloadWhole p
  | .cmdFemSpiRead _ p => payloadWhole p
  | .cmdCinnabarLock _ p _ => payloadWhole p
  | .cmdAssocDecideAdmit _ p => payloadWhole p
  | .cmdAssocDecideDeny _ p => payloadWhole p
  | .cmdNbrSetAdd _ p => payloadWhole p
  | .cmdNbrSetRemove _ p => payloadWhole p
  | .cmdSeenFlush _ => true
  | .cmdNodeSetAdd _ p => payloadWhole p
  | .cmdNodeSetDelete _ p => payloadWhole p
  | .cmdNodeSetClearQuarantine _ p => payloadWhole p
  | .cmdRouteSetAdd _ p => payloadWhole p
  | .cmdRouteSetDelete _ p => payloadWhole p
  | .cmdRouteSetClearQuarantine _ p => payloadWhole p
  | .cmdPrefixSetAdd _ p => payloadWhole p
  | .cmdPrefixSetDelete _ p => payloadWhole p
  | .cmdPrefixSetClearQuarantine _ p => payloadWhole p
  | .cmdTableRebuildCopy _ p => payloadWhole p
  | .cmdTableRebuildEmpty _ p => payloadWhole p
  | .cmdTableRebuildSwap _ p => payloadWhole p
  | .cmdTableRebuildAbandon _ p => payloadWhole p
  | .rebuildCopyDone _ => true
  | .cmdNodeRekey _ p => payloadWhole p
  | .cmdTmSet _ p => payloadWhole p
  | .cmdKeySetImportSym256 _ p _ => payloadWhole p
  | .cmdKeySetImportPubPair _ p _ => payloadWhole p
  | .cmdKeySetDerive _ p => payloadWhole p
  | .cmdKeySetInvalidate _ p => payloadWhole p
  | .keystoreWriteDone _ => true
  | .cmdKeyMigrate _ p _ => payloadWhole p
  | .cmdMacsecSakInstallTx _ p => payloadWhole p
  | .cmdMacsecSakInstallRx _ p => payloadWhole p
  | .cmdMacsecSakGenerateTx _ p => payloadWhole p
  | .cmdMacsecSakRemove _ p => payloadWhole p
  | .cmdLcAdvance _ p _ => payloadWhole p
  | .cmdOtpHash _ p _ => payloadWhole p
  | .cmdRollbackCommit _ p => payloadWhole p
  | .cmdTimeSet _ p => payloadWhole p
  | .cmdTimeRestep _ p => payloadWhole p
  | .cmdPairSetForbid _ p => payloadWhole p
  | .cmdPairSetAllow _ p => payloadWhole p
  | .cmdTakeoverRead _ p _ => payloadWhole p
  | .cmdLogDrain _ p _ => payloadWhole p
  | .stagingFreeze => true
  | .epochBoundary => true
  | .boundaryStrobeArrival _ => true
  | .nodeAgeOut _ => true
  | .addressReleaseHoldEnd _ _ => true
  | .romStartupDwellEnd => true
  | .recordAckTimeout => true
  | .snapshotPublish => true
  | .portTempMeasure _ _ => true
  | .seqNop _ _ => true
  | .seqEnd _ _ => true
  | .seqCond _ _ _ _ _ => true
  | .seqRx _ _ => true
  | .seqRetune _ _ _ _ => true
  | .seqCal _ _ _ _ => true
  | .seqLfreq _ _ _ _ => true
  | .seqLmode _ _ _ _ => true
  | .seqCset _ _ _ _ => true
  | .seqCmode _ _ _ _ => true
  | .seqTx _ _ _ _ _ _ _ => true
  | .seqWin _ _ _ _ _ => true
  | .seqBcn _ _ _ _ _ _ => true
  | .seqRxp _ _ _ => true
  | .seqSpi _ _ _ => true
  | .slotClose _ => true
  | .airQueueHeadArrival _ _ => true
  | .csmaBackoffExpiry _ => true
  | .ccaEnd _ _ => true
  | .portRxReturn _ => true
  | .coexGntRevoke _ => true
  | .coexReqHoldEnd _ => true
  | .rxpEnd _ => true
  | .ackWaitEnd _ => true
  | .portPowerUp _ => true
  | .synthLock _ => true
  | .calDone _ _ _ _ => true
  | .portPowerDown _ => true
  | .femSpiDone _ _ _ => true
  | .agcStep _ _ _ => true
  | .agcForcedStep _ _ => true
  | .preambleDetect _ _ => true
  | .syncMatch _ _ _ _ _ => true
  | .syncTimeout _ => true
  | .phrCheck _ _ => true
  | .psduEnd _ psdu => decide (psdu.length ≤ 2047)
  | .capture _ _ => true
  | .rxRecordDecide _ _ => true
  | .copyGroupClose => true
  | .ccmUplinkDone _ _ => true
  | .kdfDone => true
  | .indirectResponseStart _ _ => true
  | .indirectExpire _ => true
  | .assocDecideTimeout _ _ => true
  | .nbrWindowJudge _ => true
  | .dutyBinAdvance => true
  | .tokenRefill => true
  | .pipeWindowStart _ => true
  | .actNop _ => true
  | .actMovi _ _ _ => true
  | .actLui _ _ _ => true
  | .actAdd _ _ _ _ => true
  | .actAddi _ _ _ _ => true
  | .actSub _ _ _ _ => true
  | .actAnd _ _ _ _ => true
  | .actOr _ _ _ _ => true
  | .actXor _ _ _ _ => true
  | .actExt _ _ _ _ _ => true
  | .actIns _ _ _ _ _ => true
  | .actLdm _ _ _ => true
  | .actStm _ _ _ => true
  | .actLdh _ _ _ _ => true
  | .actSth _ _ _ _ => true
  | .actLdr _ _ _ _ _ => true
  | .actCnt _ _ => true
  | .actOwnr _ _ _ => true
  | .actBeq _ _ _ _ => true
  | .actBne _ _ _ _ => true
  | .actBltu _ _ _ _ => true
  | .actBgeu _ _ _ _ => true
  | .actBeqi _ _ _ _ => true
  | .actBnei _ _ _ _ => true
  | .actBbs _ _ _ _ => true
  | .actBbc _ _ _ _ => true
  | .actJmp _ _ => true
  | .actLkn _ _ _ _ _ => true
  | .actLke _ _ _ _ _ => true
  | .actLkr _ _ _ _ _ => true
  | .actLkp _ _ _ _ => true
  | .lookupReturn _ _ => true
  | .actPol _ _ _ => true
  | .actDcmp _ _ => true
  | .actCmpr _ _ => true
  | .actFwd _ => true
  | .actDrop _ _ => true
  | .actRecirc _ _ => true
  | .actRecircp _ _ => true
  | .reasmTimeout _ => true
  | .ethFrameRx _ _ => true
  | .ethLinkChange _ _ _ _ => true
  | .ethTxTake _ => true
  | .gateChange _ => true
  | .eeeLpiEntry _ => true
  | .ptpSyncRx _ => true
  | .ptpDelayMsgRx => true
  | .ppsEdge _ => true
  | .todMessageRx _ => true
  | .timeMeasurement => true
  | .holdoverLossTimeout => true
  | .ppsOutEdge => true
  | .todOutSend => true
  | .txStampDrain _ _ => true
  | .qlFrameRx _ _ _ => true
  | .qlAckRx _ _ _ => true
  | .qlNakRx _ _ => true
  | .qlCreditRx _ _ => true
  | .qlLevelRx _ _ => true
  | .qlAckSend _ => true
  | .qlReplayTimeout _ => true
  | .qlLinkDown _ => true
  | .qlLinkUp _ _ => true
  | .qlLevelWindow _ => true
  | .qlStepDone _ _ => true
  | .qlTxSchedule _ => true
  | .announceRx => true
  | .announceSend => true
  | .memberAnnounceSend => true
  | .rootExpiry _ => true
  | .shelfRootLoss => true
  | .heartbeatSend => true
  | .heartbeatStall => true
  | .heartbeatRx _ => true
  | .heartbeatMiss => true
  | .takeoverOwnAcquire => true
  | .takeoverRestoreDone => true
  | .ownInAssert => true
  | .ownInRelease => true
  | .mirFragmentRx => true
  | .mirRecordAckRx => true
  | .mirReqBaseRx => true
  | .mirBreakRx => true
  | .mirOchreRx => true
  | .reqBaseSend => true
  | .mirrorFillDone => true
  | .ochreTestRun _ _ _ => true
  | .rxDmaDeliver _ bufLens => bufsWhole bufLens
  | .rxStallTimeout _ => true
  | .txRingFetch _ descs data => descsWhole descs data
  | .eventPost => true
  | .msixModerationEnd _ => true
  | .taskSubmit _ _ => true
  | .taskReady _ _ => true
  | .taskCancel _ _ => true
  | .taskTake _ => true
  | .taskTakeTimeout _ => true
  | .taskDone _ _ _ => true
  | .taskCplRead _ => true
  | .taskWatchdogExpiry _ => true
  | .backgroundTableWork => true
  | .verdigrisCompare => true
  | .patrolScrub => true
  | .eccCorrectable _ _ => true
  | .eccUncorrectable _ _ => true
  | .crossingParityError _ => true
  | .trngHealthFail => true
  | .consoleFrameRx _ _ => true
  | .bootNoneReport => true
  | .ddrTrainFailReport => true
  | .smbusBlockRead _ => true
  | .smbusWrite => true
  | .smbusAlertResponse => true
  | .txGrant _ _ => true
  | .txRampUp _ => true
  | .txEnd _ => true
  | .ackTxStart _ => true
  | .lateLockTimeout _ => true
  | .ownWaitDeadline => true
  | .trngHealthPass => true
  | .keySlotReload _ => true
  | .ptpMessageSend _ => true
  | .ppsOutPulseEnd => true
  | .coreMemoryAccess _ _ _ _ _ _ => true
  | .coreInterruptPending _ => true
  | .thermalWarning _ => true
  | .cmdUnknownOpcode _ opcode => opcodeUnlisted opcode.toNat

end Sys2Proof
end

