-- ==== Sys2Proof/Safety.lean ====
section
/-! DEFINITION. What counts as a safe run, in the terms the claims use. -/

namespace Sys2Proof.Machine

/-- Every command that waits is well formed. -/
def State.queueOk (s : State) : Prop := s.pending.all Instr.wf = true

/-- The units of the state from which a command's effect starts: the outputs of the command before it are forgotten. -/
def State.fresh (s : State) : Dev := { s.dev with out := [] }

/-- The state with other units and the same waiting commands. -/
def State.goes (s : State) (d : Dev) : State := { s with dev := d }

/-- A command is taken from its source and accepted, so that it has its effect here (R514 to R520, R534). -/
def Dev.accepts (d : Dev) (c : Cmd) : Prop :=
  d.deaf = false ∧ (c.hdr.path = .pcie → d.cmdRoom = true) ∧ c.hdr.cmdId ≠ 0 ∧
    (c.hdr.remote = true → c.hdr.dst.toNat = d.elec.chipId ∧ d.links.isRoot = true) ∧
    d.replayOf c = none ∧ d.isInFlight c = false ∧ d.sourceOk c = true ∧ Dev.customerDenied c = false

/-- The state in which an accepted command has its effect: ring 0 has advanced over its entry, and CMD_ACCEPTED counts it. -/
def Dev.taken (d : Dev) (c : Cmd) : Dev := (d.fetchCmd c.hdr.path).bump Cnt.CMD_ACCEPTED

/-- The newest completion of the history of R519. -/
def Dev.newest (d : Dev) : Option Completion := d.host.hist.getLast?.map (fun x => x.cpl)

/-- The newest completion is the command's, with this status and result (R515). -/
def Dev.answered (d : Dev) (c : Cmd) (st : Status) (result : List Byte := []) : Prop :=
  d.newest = some (d.cplOf c st result d.epoch.numPcie)

/-- The step answers a next state: no fault and no refusal. -/
def answersNext (o : Host.Outcome State Fault Refusal) : Prop := ∃ t, o = .next t

/-- The aerials are safe: the device drives no aerial while it does not own them, or while a fatal fault stands (R44, R547,
R590). -/
def State.aerialsSafe (s : State) : Prop :=
  (s.dev.pair.ownOut = false ∨ s.dev.flt.fatal = true) → s.dev.pair.gateOpen = false

/-- What FATAL shows stays until a reset (R590). -/
def sameFatal (s t : State) : Prop := s.dev.flt.fatal = true → t.dev.flt = s.dev.flt

/-- One-time-programmable storage only grows: the life cycle and the version floor never fall, a spent Cinnabar slot stays
spent, and a committed one stays committed with its octets (R116, R408, R417). -/
structure Otp.Grows (a b : Otp) : Prop where
  lc : a.lc ≤ b.lc
  secMin : a.secMin ≤ b.secMin
  spent0 : a.cin0Spent = true → b.cin0Spent = true
  spent1 : a.cin1Spent = true → b.cin1Spent = true
  slot0 : a.cin0Ok = true → b.cin0Ok = true ∧ b.cin0 = a.cin0
  slot1 : a.cin1Ok = true → b.cin1Ok = true ∧ b.cin1 = a.cin1

/-- The violation log holds at most 4,096 entries, and its last place is a LOG_OVERFLOW entry's (R585). -/
def VioState.fits (v : VioState) : Prop :=
  v.log.length ≤ 4096 ∧ (v.log.length = 4096 → v.log.any (fun e => e.code == 1) = true)

/-- The event staging holds at most 8,192 events (R525). -/
def EvState.fits (e : EvState) : Prop := e.staging.length ≤ 8192

end Sys2Proof.Machine
end

