-- ==== Sys2Proof/Touches.lean ====
section
/-! DEFINITION. The units of the state by name, and for each command the units it may change: the frames of the claims. -/

namespace Sys2Proof.Machine

/-- The units of the state, one per field of Dev. -/
inductive DevUnit where
  | out | freeCtr | modes | epoch | cfg | stg | snap | cnt | vio | ev | flt
  | host | disp | ports | cin | lanes | txc | duty | air | seqs | vat | tbl
  | pipe | tm | time | otp | ks0 | ks1 | pair | elec | sec | links
  deriving DecidableEq, Repr

/-- Two states agree in a unit. -/
def Dev.sameUnit (u : DevUnit) (a b : Dev) : Prop :=
  match u with
  | .out => a.out = b.out
  | .freeCtr => a.freeCtr = b.freeCtr
  | .modes => a.modes = b.modes
  | .epoch => a.epoch = b.epoch
  | .cfg => a.cfg = b.cfg
  | .stg => a.stg = b.stg
  | .snap => a.snap = b.snap
  | .cnt => a.cnt = b.cnt
  | .vio => a.vio = b.vio
  | .ev => a.ev = b.ev
  | .flt => a.flt = b.flt
  | .host => a.host = b.host
  | .disp => a.disp = b.disp
  | .ports => a.ports = b.ports
  | .cin => a.cin = b.cin
  | .lanes => a.lanes = b.lanes
  | .txc => a.txc = b.txc
  | .duty => a.duty = b.duty
  | .air => a.air = b.air
  | .seqs => a.seqs = b.seqs
  | .vat => a.vat = b.vat
  | .tbl => a.tbl = b.tbl
  | .pipe => a.pipe = b.pipe
  | .tm => a.tm = b.tm
  | .time => a.time = b.time
  | .otp => a.otp = b.otp
  | .ks0 => a.ks0 = b.ks0
  | .ks1 => a.ks1 = b.ks1
  | .pair => a.pair = b.pair
  | .elec => a.elec = b.elec
  | .sec => a.sec = b.sec
  | .links => a.links = b.links

/-- Every unit outside the list is the same in both states. -/
def Dev.sameBut (us : List DevUnit) (a b : Dev) : Prop := ∀ u, us.contains u = false → a.sameUnit u b

/-- The units that a command may change; every other unit it leaves as it was (`out` holds the outputs of the last command
alone). -/
def touches : Instr → List DevUnit
  | .sysRstAssert | .supplyLoss _ | .thermalOvertemp =>
    [.out, .modes, .epoch, .cfg, .stg, .snap, .cnt, .vio, .ev, .flt, .host, .disp, .ports, .cin, .lanes, .txc,
     .duty, .air, .seqs, .vat, .tbl, .pipe, .tm, .time, .pair, .elec, .sec, .links]
  | .sysRstRelease _ | .supplyResetEnd _ | .thermalResetEnd _ | .trngHealthPass =>
    [.out, .freeCtr, .modes, .cnt, .ev, .cin, .air, .tbl, .pair, .elec, .sec]
  | .clockLoss | .crossingParityError _ =>
    [.out, .freeCtr, .cnt, .ev, .flt, .host, .ports, .cin, .lanes, .txc, .duty, .air, .seqs, .tm, .pair, .links]
  | .perstNAssert | .d3hotEntry =>
    [.out, .freeCtr, .modes, .cfg, .cnt, .ev, .host, .ports, .lanes, .txc, .tm, .pair, .links]
  | .jtagTrst | .patrolScrub | .bootNoneReport | .ddrTrainFailReport | .smbusBlockRead _ | .smbusWrite
  | .smbusAlertResponse =>
    [.out]
  | .pcieLinkChange _ | .controlModeWindowEnd =>
    [.out, .freeCtr, .modes, .cnt, .ev, .ports, .lanes, .txc, .tm, .pair, .links]
  | .hostLinkLossTimeout | .shelfRootLoss =>
    [.out, .modes]
  | .ownBootDelayEnd =>
    [.out, .freeCtr, .modes, .cnt, .ev, .ports, .lanes, .txc, .tm, .pair]
  | .functionLevelReset =>
    [.out, .cfg, .cnt, .ev, .host, .tm]
  | .pcieDmaError _ =>
    [.out, .cfg, .cnt, .vio, .ev]
  | .registerWrite _ _ _ =>
    [.out, .cfg, .stg, .cnt, .vio, .ev, .host, .cin, .seqs, .pipe, .pair, .elec]
  | .cfgBadWidthAccess _ _ | .cfgUnmappedAccess _ _ | .winRingBadAccess _ _ =>
    [.out, .cnt, .vio, .ev]
  | .epochNumLoRead =>
    [.out, .epoch]
  | .seqPeekLoRead _ =>
    [.out, .seqs]
  | .timeNowLoRead | .ppsOutEdge | .ppsOutPulseEnd =>
    [.out, .time]
  | .tblSeedLoRead _ =>
    [.out, .tbl]
  | .pairCommitLoRead | .pairKeepaliveWrite _ | .heartbeatSend | .mirrorFillDone =>
    [.out, .pair]
  | .stageHoldWrite _ =>
    [.out, .stg]
  | .cinStageWrite _ _ =>
    [.out, .cnt, .vio, .ev, .cin]
  | .ringEnable _ _ =>
    [.out, .cfg, .cnt, .vio, .ev, .host, .pipe]
  | .ringDoorbell _ _ =>
    [.out, .cnt, .vio, .ev, .host]
  | .cmdNop _ | .cmdTakeoverRead _ _ _ | .eventPost | .cmdUnknownOpcode _ _ =>
    [.out, .cnt, .ev, .host, .links]
  | .cmdHostAttach _ | .cmdSetPhase _ _ | .cmdCommit _ _ | .cmdNbrSetAdd _ _ | .cmdNbrSetRemove _ _
  | .cmdSeenFlush _ | .cmdNodeRekey _ _ | .cmdTmSet _ _ | .cmdPairSetForbid _ _ | .cmdPairSetAllow _ _ =>
    [.out, .stg, .cnt, .ev, .host, .links]
  | .cmdVatLoad _ _ | .vatCopyDone _ _ =>
    [.out, .cnt, .ev, .host, .vat, .links]
  | .vatVerifyDone =>
    [.out, .cnt, .ev, .host, .seqs, .vat, .sec, .links]
  | .cmdVatDiscard _ =>
    [.out, .stg, .cnt, .ev, .host, .vat, .links]
  | .cmdRfCal _ _ =>
    [.out, .freeCtr, .cnt, .ev, .host, .ports, .lanes, .txc, .tm, .links]
  | .cmdRfTestTx _ _ _ | .testTxEnd _ | .slotClose _ | .airQueueHeadArrival _ _ | .ccaEnd _ _ | .portRxReturn _
  | .ackWaitEnd _ | .synthLock _ | .calDone _ _ _ _ | .phrCheck _ _ | .psduEnd _ _ | .capture _ _
  | .indirectResponseStart _ _ | .txEnd _ | .ackTxStart _ | .lateLockTimeout _ =>
    [.out, .freeCtr, .cnt, .ev, .host, .ports, .cin, .lanes, .txc, .duty, .air, .tm, .sec, .links]
  | .cmdFemSpiWrite _ _ | .cmdFemSpiRead _ _ =>
    [.out, .cnt, .ev, .host, .ports, .links]
  | .cmdCinnabarLock _ _ _ =>
    [.out, .cnt, .ev, .host, .cin, .otp, .links]
  | .cmdAssocDecideAdmit _ _ | .cmdAssocDecideDeny _ _ | .cmdNodeSetAdd _ _ | .cmdNodeSetDelete _ _
  | .cmdNodeSetClearQuarantine _ _ | .cmdRouteSetAdd _ _ | .cmdRouteSetDelete _ _ | .cmdRouteSetClearQuarantine _ _ | .cmdPrefixSetAdd _ _ | .cmdPrefixSetDelete _ _ | .cmdPrefixSetClearQuarantine _ _ | .nodeAgeOut _ =>
    [.out, .stg, .cnt, .ev, .host, .air, .tbl, .links]
  | .cmdTableRebuildCopy _ _ | .cmdTableRebuildEmpty _ _ =>
    [.out, .freeCtr, .cnt, .ev, .host, .tbl, .links]
  | .cmdTableRebuildSwap _ _ | .verdigrisCompare =>
    [.out, .stg, .cnt, .ev, .host, .tbl, .links]
  | .cmdTableRebuildAbandon _ _ =>
    [.out, .cnt, .ev, .host, .tbl, .links]
  | .rebuildCopyDone _ =>
    [.out, .cnt, .ev, .tbl]
  | .cmdKeySetImportSym256 _ _ _ | .cmdKeySetImportPubPair _ _ _ | .cmdKeySetDerive _ _ | .cmdKeySetInvalidate _ _ =>
    [.out, .stg, .cnt, .ev, .host, .sec, .links]
  | .keystoreWriteDone _ | .cmdKeyMigrate _ _ _ =>
    [.out, .cnt, .ev, .host, .ks0, .ks1, .sec, .links]
  | .cmdMacsecSakInstallTx _ _ | .cmdMacsecSakInstallRx _ _ | .cmdMacsecSakGenerateTx _ _ | .cmdMacsecSakRemove _ _ =>
    [.out, .freeCtr, .cnt, .ev, .host, .sec, .links]
  | .cmdLcAdvance _ _ _ | .cmdOtpHash _ _ _ =>
    [.out, .freeCtr, .cnt, .ev, .host, .otp, .links]
  | .cmdRollbackCommit _ _ =>
    [.out, .cnt, .ev, .host, .otp, .links]
  | .cmdTimeSet _ _ | .timeMeasurement =>
    [.out, .epoch, .cnt, .ev, .host, .seqs, .time, .links]
  | .cmdTimeRestep _ _ =>
    [.out, .cnt, .ev, .host, .time, .links]
  | .cmdLogDrain _ _ _ =>
    [.out, .cnt, .vio, .ev, .host, .links]
  | .stagingFreeze =>
    [.out, .freeCtr, .modes, .epoch, .stg, .cnt, .ev, .host, .ports, .lanes, .txc, .tbl, .tm, .time, .sec,
     .links]
  | .epochBoundary =>
    [.out, .freeCtr, .modes, .epoch, .cfg, .stg, .snap, .cnt, .vio, .ev, .host, .ports, .cin, .lanes, .txc,
     .air, .seqs, .vat, .tbl, .tm, .time, .pair, .sec, .links]
  | .boundaryStrobeArrival _ =>
    [.out, .freeCtr, .modes, .epoch, .cfg, .stg, .snap, .cnt, .vio, .ev, .host, .ports, .cin, .lanes, .txc,
     .duty, .air, .seqs, .vat, .tbl, .pipe, .tm, .ks0, .ks1, .pair, .elec, .sec, .links]
  | .addressReleaseHoldEnd _ _ =>
    [.out, .air]
  | .romStartupDwellEnd =>
    [.out, .modes, .cnt, .ev, .txc, .air, .tm]
  | .recordAckTimeout =>
    [.out, .freeCtr, .cnt, .ev, .pair, .links]
  | .snapshotPublish =>
    [.out, .snap, .cnt, .ev]
  | .portTempMeasure _ _ | .agcStep _ _ _ =>
    [.out, .cnt, .ev, .ports]
  | .seqNop _ _ | .seqEnd _ _ | .seqCond _ _ _ _ _ | .seqRx _ _ | .seqRetune _ _ _ _ | .seqCal _ _ _ _ | .seqTx _ _ _ _ _ _ _ | .seqWin _ _ _ _ _ | .seqBcn _ _ _ _ _ _ | .seqRxp _ _ _ | .seqSpi _ _ _ =>
    [.out, .freeCtr, .cnt, .ev, .host, .ports, .cin, .lanes, .txc, .duty, .air, .seqs, .tm, .sec, .links]
  | .seqLfreq _ _ _ _ | .seqLmode _ _ _ _ | .seqCset _ _ _ _ | .seqCmode _ _ _ _ =>
    [.out, .freeCtr, .cnt, .vio, .ev, .host, .ports, .cin, .lanes, .txc, .duty, .air, .seqs, .tm, .sec, .links]
  | .csmaBackoffExpiry _ =>
    [.out, .txc]
  | .coexGntRevoke _ =>
    [.out, .cnt, .ev, .ports, .txc]
  | .coexReqHoldEnd _ | .rxpEnd _ =>
    [.out, .ports]
  | .portPowerUp _ | .portPowerDown _ | .preambleDetect _ _ | .syncTimeout _ =>
    [.out, .freeCtr, .cnt, .ev, .ports, .lanes, .txc, .tm]
  | .femSpiDone _ _ _ =>
    [.out, .freeCtr, .cnt, .vio, .ev, .host, .ports, .cin, .lanes, .txc, .duty, .air, .tm, .sec, .links]
  | .agcForcedStep _ _ =>
    [.out, .cnt, .ev, .ports, .lanes]
  | .syncMatch _ _ _ _ _ =>
    [.out, .ports, .lanes, .txc]
  | .rxRecordDecide _ _ =>
    [.out, .freeCtr, .cnt, .vio, .ev, .host, .ports, .cin, .lanes, .txc, .duty, .air, .tm, .time, .sec, .links]
  | .copyGroupClose =>
    [.out, .freeCtr, .stg, .cnt, .vio, .ev, .host, .ports, .lanes, .txc, .air, .tbl, .tm, .sec, .links]
  | .ccmUplinkDone _ _ =>
    [.out, .stg, .cnt, .vio, .ev, .host, .ports, .air, .tbl, .pipe, .links]
  | .kdfDone | .trngHealthFail | .keySlotReload _ =>
    [.out, .cnt, .ev, .sec]
  | .indirectExpire _ | .assocDecideTimeout _ _ =>
    [.out, .cnt, .ev, .air]
  | .nbrWindowJudge _ =>
    [.out, .cnt, .ev, .air, .time]
  | .dutyBinAdvance =>
    [.out, .duty]
  | .tokenRefill =>
    [.out, .cnt, .ev, .tm]
  | .pipeWindowStart _ =>
    [.out, .cnt, .ev, .host, .ports, .pipe]
  | .actNop _ | .actMovi _ _ _ | .actLui _ _ _ | .actAdd _ _ _ _ | .actAddi _ _ _ _ | .actSub _ _ _ _ | .actAnd _ _ _ _ | .actOr _ _ _ _ | .actXor _ _ _ _ | .actExt _ _ _ _ _ | .actIns _ _ _ _ _ | .actStm _ _ _ | .actLdh _ _ _ _ | .actSth _ _ _ _ | .actLdr _ _ _ _ _ | .actCnt _ _ | .actOwnr _ _ _ | .actBeq _ _ _ _ | .actBne _ _ _ _
  | .actBltu _ _ _ _ | .actBgeu _ _ _ _ | .actBeqi _ _ _ _ | .actBnei _ _ _ _ | .actBbs _ _ _ _ | .actBbc _ _ _ _ | .actJmp _ _ | .actLkn _ _ _ _ _ | .actLke _ _ _ _ _ | .actLkr _ _ _ _ _ | .actLkp _ _ _ _ | .actCmpr _ _
  | .actDrop _ _ | .actRecirc _ _ | .actRecircp _ _ =>
    [.out, .cfg, .cnt, .ev, .host, .ports, .pipe]
  | .actLdm _ _ _ | .actDcmp _ _ =>
    [.out, .freeCtr, .cfg, .cnt, .ev, .host, .ports, .pipe]
  | .lookupReturn _ _ | .reasmTimeout _ =>
    [.out, .cnt, .ev, .pipe]
  | .actPol _ _ _ =>
    [.out, .cfg, .cnt, .ev, .host, .ports, .pipe, .tm]
  | .actFwd _ =>
    [.out, .cfg, .cnt, .ev, .host, .ports, .air, .pipe, .tm]
  | .ethFrameRx _ _ =>
    [.out, .freeCtr, .cnt, .vio, .ev, .pipe, .time, .links]
  | .ethLinkChange _ _ _ _ =>
    [.out, .cnt, .vio, .ev, .links]
  | .ethTxTake _ =>
    [.out, .freeCtr, .cnt, .ev, .tm, .time, .links]
  | .gateChange _ | .qlCreditRx _ _ | .qlAckSend _ | .announceSend | .memberAnnounceSend | .rootExpiry _ =>
    [.out, .links]
  | .eeeLpiEntry _ | .qlLevelRx _ _ | .qlLinkDown _ | .qlLevelWindow _ | .qlStepDone _ _ =>
    [.out, .cnt, .ev, .links]
  | .ptpSyncRx _ | .holdoverLossTimeout =>
    [.out, .cnt, .ev, .time]
  | .ptpDelayMsgRx | .ptpMessageSend _ =>
    [.out, .freeCtr, .cnt, .ev, .time, .links]
  | .ppsEdge _ | .todMessageRx _ =>
    [.out, .cnt, .vio, .ev, .time]
  | .todOutSend =>
    [.out, .freeCtr]
  | .txStampDrain _ _ =>
    [.out, .cnt, .ev, .host, .ports, .time, .links]
  | .qlFrameRx _ _ _ =>
    [.out, .freeCtr, .epoch, .stg, .cnt, .vio, .ev, .host, .ports, .cin, .lanes, .txc, .duty, .air, .seqs, .vat,
     .tbl, .pipe, .tm, .time, .otp, .ks0, .ks1, .pair, .sec, .links]
  | .qlAckRx _ _ _ =>
    [.out, .modes, .cnt, .vio, .ev, .pair, .links]
  | .qlNakRx _ _ | .qlReplayTimeout _ | .mirRecordAckRx =>
    [.out, .cnt, .ev, .pair, .links]
  | .qlLinkUp _ _ =>
    [.out, .freeCtr, .cnt, .ev, .links]
  | .qlTxSchedule _ =>
    [.out, .cnt, .ev, .tm, .links]
  | .announceRx =>
    [.out, .modes, .cnt, .vio, .ev, .links]
  | .heartbeatStall =>
    [.out, .freeCtr, .cnt, .ev, .host, .ports, .cin, .lanes, .txc, .duty, .air, .seqs, .tm, .pair, .links]
  | .heartbeatRx _ =>
    [.out, .modes, .cnt, .vio, .ev, .pair]
  | .heartbeatMiss | .ownWaitDeadline =>
    [.out, .modes, .cnt, .ev, .pair]
  | .takeoverOwnAcquire =>
    [.out, .freeCtr, .modes, .epoch, .cfg, .stg, .cnt, .ev, .host, .ports, .cin, .lanes, .txc, .duty, .air,
     .seqs, .vat, .tbl, .pipe, .tm, .pair, .sec, .links]
  | .takeoverRestoreDone =>
    [.out, .cnt, .ev, .pair]
  | .ownInAssert =>
    [.out, .freeCtr, .modes, .cnt, .vio, .ev, .host, .ports, .cin, .lanes, .txc, .duty, .air, .tm, .pair,
     .links]
  | .ownInRelease =>
    [.out, .freeCtr, .cnt, .ev, .ports, .lanes, .txc, .tm, .pair]
  | .mirFragmentRx =>
    [.out, .freeCtr, .modes, .cnt, .ev, .pair, .links]
  | .mirReqBaseRx =>
    [.out, .modes, .links]
  | .mirBreakRx =>
    [.out, .modes, .cnt, .ev, .pair, .links]
  | .mirOchreRx =>
    [.out, .pair, .links]
  | .reqBaseSend =>
    [.out, .freeCtr, .links]
  | .ochreTestRun _ _ _ =>
    [.out, .modes, .cnt, .ev, .pair, .sec]
  | .rxDmaDeliver _ _ =>
    [.out, .cnt, .ev, .host, .tm, .links]
  | .rxStallTimeout _ =>
    [.out, .cnt, .ev, .host, .tm]
  | .txRingFetch _ _ _ =>
    [.out, .cnt, .vio, .ev, .host, .pipe, .links]
  | .msixModerationEnd _ =>
    [.out, .host]
  | .taskSubmit _ _ | .taskReady _ _ | .taskCancel _ _ | .taskTake _ | .taskWatchdogExpiry _ =>
    [.out, .cnt, .ev, .disp]
  | .taskTakeTimeout _ | .taskDone _ _ _ | .taskCplRead _ | .coreInterruptPending _ =>
    [.out, .disp]
  | .backgroundTableWork =>
    [.out, .freeCtr, .stg, .cnt, .ev, .host, .tbl, .links]
  | .eccCorrectable _ _ =>
    [.out, .cnt, .ev]
  | .eccUncorrectable _ _ =>
    [.out, .freeCtr, .modes, .stg, .cnt, .vio, .ev, .flt, .host, .disp, .ports, .cin, .lanes, .txc, .duty, .air,
     .seqs, .vat, .tbl, .pipe, .tm, .pair, .sec, .links]
  | .consoleFrameRx _ _ =>
    [.out, .freeCtr, .epoch, .stg, .cnt, .vio, .ev, .host, .ports, .cin, .lanes, .txc, .duty, .air, .seqs, .vat,
     .tbl, .tm, .time, .otp, .ks0, .ks1, .sec, .links]
  | .txGrant _ _ =>
    [.out, .freeCtr, .stg, .cnt, .ev, .host, .ports, .cin, .lanes, .txc, .duty, .air, .tbl, .tm, .sec, .links]
  | .txRampUp _ =>
    [.out, .freeCtr, .cnt, .ev, .ports, .lanes, .txc, .air, .tm]
  | .coreMemoryAccess _ _ _ _ _ _ =>
    [.out, .cnt, .vio, .ev, .disp]
  | .thermalWarning _ =>
    [.out, .elec]

end Sys2Proof.Machine
end

