-- ==== Sys2Proof/Claims.lean ====
section
/-! DEFINITION. The words in which the claims say what a command does to the state: an answer that changes nothing else, a
staged command that waits for its boundary, an instruction that a sequencer issues, a radio side with nothing under way. -/

namespace Sys2Proof.Machine

/-- The command is answered with this status and result, and has no other effect: only the completion, the counters and
events that taking it moves, and the frames that carry the completion change. -/
def Dev.replies (a : Dev) (c : Cmd) (st : Status) (t : Dev) (result : List Byte := []) : Prop :=
  t.answered c st result ∧ t.host.ring2 = a.host.ring2 ∧ a.sameBut [.out, .cnt, .ev, .host, .links] t

/-- The command waits for the boundary `at_` (none: the first whose freeze follows), after those staged before it, and is
not answered yet; nothing else changes but the counters and events that taking it moves. -/
def Dev.stages (a : Dev) (c : Cmd) (at_ : Option Nat) (t : Dev) : Prop :=
  t.stg = { a.stg with cmds := a.stg.cmds ++ [⟨c, at_, false⟩] } ∧ t.host.hist = a.host.hist ∧
    t.host.inflight = a.host.inflight ∧ t.host.ring1 = a.host.ring1 ∧ a.sameBut [.out, .stg, .cnt, .ev, .host] t

/-- The end of the last reset (R413 to R415, R604, R35) with the facts b, from a: the straps are sampled; in manufacturing
test nothing more happens; a failed health test holds the boot, an unfit LPDDR population stops it; else the device has booted
the image that verifies, the newer one of two, and SC_0 stands at its ENTRY, or it has booted none. -/
def Dev.bootsTo (a : Dev) (b : BootFacts) (t : Dev) : Prop :=
  let ok := imageVerifies true bootSize a.otp.vendorEc a.otp.vendorMl a.otp.secMin
  let imgA := flashImage b.flash flashBootA bootSize
  let imgB := flashImage b.flash flashBootB bootSize
  let first := ok imgA && !(ok imgB && decide (fld imgA 12 4 < fld imgB 12 4))
  t.heldReset = false ∧ t.modes.inReset = false ∧ t.elec.chipId = b.chipId.toNat ∧ t.elec.octal = b.bootOctal ∧
    t.elec.testEn = b.testEn ∧ t.pair.side = b.pairSide ∧ t.otp = a.otp ∧ t.sec.lc = a.otp.lc ∧
    if b.testEn = true then t.elec.booted = false ∧ t.elec.heldBoot = none
    else if b.trngOk = false then
      t.elec.booted = false ∧ t.elec.heldBoot = some b ∧ t.sec.trngFail = true
    else
      t.elec.heldBoot = none ∧ t.elec.trained = ddrOk b ∧ t.elec.ddrFail = !ddrOk b ∧
        t.elec.bootNone = (ddrOk b && !(ok imgA || ok imgB)) ∧
        t.elec.booted = (ddrOk b && (ok imgA || ok imgB)) ∧
        (t.elec.booted = true → t.sec.bootSlot = (if first = true then 0 else 1) ∧
          t.sec.running = fld (if first = true then imgA else imgB) 12 4 ∧
          t.elec.entry = fld (if first = true then imgA else imgB) 16 4)

/-- A sequencer moves past an instruction that it issues (R231, R253): the next index, the pairs left of a COND's block, the
tick, and SEQ_ISSUED. -/
def Dev.issued (a : Dev) (q tick : Nat) : Dev :=
  (a.modSeq q (fun x => { x with
    pc := x.pc + 1 + (if x.condA && x.condLeft == 1 then x.condN else 0), condLeft := x.condLeft - 1
    tickNow := some tick })).bump
    (Cnt.SEQ_ISSUED q)

/-- The sequencer moves past an instruction at or after the cut tick without issuing it (R258). -/
def Dev.truncated (a : Dev) (q tick : Nat) : Dev :=
  (a.modSeq q (fun x => { x with
    pc := x.pc + 1 + (if x.condA && x.condLeft == 1 then x.condN else 0), condLeft := x.condLeft - 1
    tickNow := some tick })).bump
    (Cnt.SEQ_TRUNCATED q)

/-- The sequencer issues this instruction: it stands at it in its active bank, at its fire tick, and the tick lies before its
cut (R231, R233, R255, R258, R259). -/
def Dev.issues (a : Dev) (q tick op args : Nat) : Prop :=
  a.seqAt q op tick args = true ∧ ∀ k, (a.seq q).cut = some k → tick < k

/-- A pass of the pipeline is under way on the packet x, in the pipeline state y, and has not ended in RECIRC. -/
def Dev.passes (a : Dev) (i : Nat) (x : Packet) (y : PipeSt) : Prop :=
  a.pipeSt i = y ∧ y.cur = some x ∧ y.recirc = false

/-- The pass of packet x goes on in the pipeline state y, after what f does; past the end of its program the packet is
dropped (R374). The settings are those with which the pass began (R64), and a received frame's counts are its epoch's (R20). -/
def Dev.goesOn (a : Dev) (i : Nat) (x : Packet) (y : PipeSt) (f : Dev → Dev := id) : Dev :=
  a.inPass i x (fun d => ((f d).setPipe i y).noEmit i)

/-- The state as the pass of pipeline i sees it: under the settings with which the pass began (R64). -/
def Dev.seen (a : Dev) (i : Nat) : Dev := { a with cfg := (a.pipeSt i).oldCfg.getD a.cfg }

/-- No carrier transmits, is held, has a slot or window open, or has a test transmission to complete. -/
def Dev.still (a : Dev) : Prop :=
  ∀ c, (a.carrier c).slot = none ∧ (a.carrier c).hold = none ∧ (a.carrier c).own.phase = .idle ∧
    (a.carrier c).testPwr = none

/-- How far SEQ goes on with one event (R524): by one, and by two where the loss of the event brings EVT_LOST to its maximum and
the EVT_CNT_SAT of that is lost with it (R591). -/
def Dev.evStep (a : Dev) : W32 :=
  if a.modes.control ≠ .standAlone ∧ evCap ≤ a.ev.staging.length ∧ a.count Cnt.EVT_LOST = 0xFFFFFFFE then 2 else 1

/-- Nothing is due at once: no frame is to be released, no ack wait is over with nothing to wait for, no frame waits for lock,
and no test transmission has ended (R185, R193, R209, R244). -/
def Dev.quiet (a : Dev) : Prop :=
  ∀ c, ((a.carrier c).slot = none ∨ (a.carrier c).own.phase ≠ .idle ∨ (a.carrier c).hold ≠ none) ∧
    (a.carrier c).testPwr = none ∧ (a.carrier c).own.phase ≠ .waitLock ∧
    ¬ ((a.carrier c).own.phase = .ackWait ∧ (a.carrier c).own.waitOver = true ∧ (a.carrier c).own.waitFor = []) ∧
    ∀ h, (a.carrier c).hold = some h → ¬ (h.tx.phase = .ackWait ∧ h.tx.waitOver = true ∧ h.tx.waitFor = [])

/-- A string of octets is a whole QZ-Link frame: header, payload and a CRC that agrees (R492). -/
def qlWhole (b : List Byte) : Prop := 20 ≤ b.length ∧ b.drop (b.length - 4) = le 4 (crc32 (b.take (b.length - 4)))

/-- A frame's header is one that port q accepts (R492, R551): its type, class, chips, SEQ, reserved octets and LEN. -/
def qlHeader (q : Nat) (b : List Byte) : Prop :=
  (if q = 6 then 0x10 ≤ fld b 0 1 ∧ fld b 0 1 ≤ 0x14 else 1 ≤ fld b 0 1 ∧ fld b 0 1 ≤ 4) ∧ fld b 1 1 < 8 ∧
    fld b 2 2 < 1024 ∧ fld b 4 2 < 1024 ∧ fld b 8 2 < 4096 ∧ zeros b 0x0B 5 = true ∧ fld b 6 2 = b.length - 20 ∧
    fld b 6 2 ≤ (if q = 6 then 4096 else 9728)

/-- The frame that octets hold (R492). -/
def qlFrameOf (b : List Byte) : QlFrame :=
  { type := fld b 0 1, cls := fld b 1 1, dst := fld b 2 2, src := fld b 4 2, ttl := fld b 0x0A 1
    payload := (b.take (b.length - 4)).drop 16 }

/-- Port q has accepted a frame in sequence: SEQ moves on and an ACK is due (R493). -/
def Dev.qlAccepted (a : Dev) (q : Nat) : Dev :=
  ((a.modQl q (fun y => { y with ackDue := true })).modQl q (fun y => { y with rxSeq := (y.rxSeq + 1) % 4096 })).bumpQl q
    Cnt.QL_RX_FRAMES

/-- The accepted frame has left the receive buffer: its credits go back (R495). -/
def Dev.qlTaken (a : Dev) (q : Nat) (f : QlFrame) : Dev := (a.qlAccepted q).sendWord q 3 (f.cls % 8 * 8192 + f.units)

/-- The output of a QZ-Link port, or of MIR at 6. -/
def qlOut (q : Nat) (b : List Byte) : Output := ⟨if q = 6 then .mir else .ql, q, b⟩

end Sys2Proof.Machine

/-- Sequencer, opcode, fire tick and operands of a sequencer's instruction, as its word holds them (R235, R236). -/
def Sys2Proof.seqRow : Instr → Option (Nat × Nat × Nat × Nat)
  | .seqNop q tick => some (q.val, 0x00, tick.toNat, 0)
  | .seqEnd q tick => some (q.val, 0x01, tick.toNat, 0)
  | .seqCond q tick cond arg n =>
    some (q.val, 0x02, tick.toNat, cond.toNat * 2 ^ 24 + arg.toNat * 2 ^ 16 + n.toNat * 2 ^ 8)
  | .seqRx q tick => some (q.val, 0x10, tick.toNat, 0)
  | .seqRetune q tick home khz => some (q.val, 0x11, tick.toNat, Machine.ofBool home * 2 ^ 31 + khz.toNat)
  | .seqCal q tick window sel => some (q.val, 0x12, tick.toNat, window.toNat * 2 ^ 16 + sel.toNat)
  | .seqLfreq q tick lane offset => some (q.val, 0x20, tick.toNat, lane.val * 2 ^ 24 + offset.toNat)
  | .seqLmode q tick lane mode => some (q.val, 0x21, tick.toNat, lane.val * 2 ^ 24 + mode.toNat)
  | .seqCset q tick c offset => some (q.val, 0x28, tick.toNat, c.val * 2 ^ 28 + offset.toNat)
  | .seqCmode q tick c mode => some (q.val, 0x29, tick.toNat, c.val * 2 ^ 28 + mode.toNat)
  | .seqTx q tick c cls cca multi len =>
    some (q.val, 0x30, tick.toNat, c.val * 2 ^ 28 + cls.val * 2 ^ 25 + Machine.ofBool cca * 2 ^ 24 +
      Machine.ofBool multi * 2 ^ 23 + len.toNat)
  | .seqWin q tick c classes len =>
    some (q.val, 0x31, tick.toNat, c.val * 2 ^ 28 + classes.toNat * 2 ^ 20 + len.toNat)
  | .seqBcn q tick c pan nextBcn len =>
    some (q.val, 0x32, tick.toNat, c.val * 2 ^ 28 + pan.val * 2 ^ 26 + nextBcn.toNat * 2 ^ 10 + len.toNat)
  | .seqRxp q tick dur => some (q.val, 0x40, tick.toNat, dur.toNat)
  | .seqSpi q tick word => some (q.val, 0x41, tick.toNat, word.toNat)
  | _ => none

/-- Pipeline and word of an action instruction (R369, R370). -/
def Sys2Proof.actRow : Instr → Option (Nat × Nat)
  | .actNop i => some (i.val, 0)
  | .actMovi i rd imm => some (i.val, 0x01 * 2 ^ 26 + rd.val * 2 ^ 22 + imm.toNat)
  | .actLui i rd imm => some (i.val, 0x02 * 2 ^ 26 + rd.val * 2 ^ 22 + imm.toNat)
  | .actAdd i rd ra rb => some (i.val, 0x03 * 2 ^ 26 + rd.val * 2 ^ 22 + ra.val * 2 ^ 18 + rb.val * 2 ^ 14)
  | .actAddi i rd ra aux => some (i.val, 0x04 * 2 ^ 26 + rd.val * 2 ^ 22 + ra.val * 2 ^ 18 + aux.toNat)
  | .actSub i rd ra rb => some (i.val, 0x05 * 2 ^ 26 + rd.val * 2 ^ 22 + ra.val * 2 ^ 18 + rb.val * 2 ^ 14)
  | .actAnd i rd ra rb => some (i.val, 0x06 * 2 ^ 26 + rd.val * 2 ^ 22 + ra.val * 2 ^ 18 + rb.val * 2 ^ 14)
  | .actOr i rd ra rb => some (i.val, 0x07 * 2 ^ 26 + rd.val * 2 ^ 22 + ra.val * 2 ^ 18 + rb.val * 2 ^ 14)
  | .actXor i rd ra rb => some (i.val, 0x08 * 2 ^ 26 + rd.val * 2 ^ 22 + ra.val * 2 ^ 18 + rb.val * 2 ^ 14)
  | .actExt i rd ra pos wm1 =>
    some (i.val, 0x09 * 2 ^ 26 + rd.val * 2 ^ 22 + ra.val * 2 ^ 18 + pos.val * 2 ^ 9 + wm1.val * 2 ^ 4)
  | .actIns i rd ra pos wm1 =>
    some (i.val, 0x0A * 2 ^ 26 + rd.val * 2 ^ 22 + ra.val * 2 ^ 18 + pos.val * 2 ^ 9 + wm1.val * 2 ^ 4)
  | .actLdm i rd f => some (i.val, 0x0B * 2 ^ 26 + rd.val * 2 ^ 22 + f.toNat)
  | .actStm i ra f => some (i.val, 0x0C * 2 ^ 26 + ra.val * 2 ^ 18 + f.toNat)
  | .actLdh i rd off wid => some (i.val, 0x0D * 2 ^ 26 + rd.val * 2 ^ 22 + off.val * 2 ^ 7 + wid.val * 2 ^ 5)
  | .actSth i ra off wid => some (i.val, 0x0E * 2 ^ 26 + ra.val * 2 ^ 18 + off.val * 2 ^ 7 + wid.val * 2 ^ 5)
  | .actLdr i rd res off wid =>
    some (i.val, 0x0F * 2 ^ 26 + rd.val * 2 ^ 22 + res.val * 2 ^ 12 + off.val * 2 ^ 6 + wid.val * 2 ^ 4)
  | .actCnt i k => some (i.val, 0x10 * 2 ^ 26 + k.val)
  | .actOwnr i rd ra => some (i.val, 0x11 * 2 ^ 26 + rd.val * 2 ^ 22 + ra.val * 2 ^ 18)
  | .actBeq i ra rb target => some (i.val, 0x14 * 2 ^ 26 + ra.val * 2 ^ 22 + rb.val * 2 ^ 18 + target.val)
  | .actBne i ra rb target => some (i.val, 0x15 * 2 ^ 26 + ra.val * 2 ^ 22 + rb.val * 2 ^ 18 + target.val)
  | .actBltu i ra rb target => some (i.val, 0x16 * 2 ^ 26 + ra.val * 2 ^ 22 + rb.val * 2 ^ 18 + target.val)
  | .actBgeu i ra rb target => some (i.val, 0x17 * 2 ^ 26 + ra.val * 2 ^ 22 + rb.val * 2 ^ 18 + target.val)
  | .actBeqi i ra imm target => some (i.val, 0x18 * 2 ^ 26 + ra.val * 2 ^ 22 + imm.toNat * 2 ^ 10 + target.val)
  | .actBnei i ra imm target => some (i.val, 0x19 * 2 ^ 26 + ra.val * 2 ^ 22 + imm.toNat * 2 ^ 10 + target.val)
  | .actBbs i ra imm target => some (i.val, 0x1A * 2 ^ 26 + ra.val * 2 ^ 22 + imm.toNat * 2 ^ 10 + target.val)
  | .actBbc i ra imm target => some (i.val, 0x1B * 2 ^ 26 + ra.val * 2 ^ 22 + imm.toNat * 2 ^ 10 + target.val)
  | .actJmp i target => some (i.val, 0x1C * 2 ^ 26 + target.val)
  | .actLkn i rd ra rb res =>
    some (i.val, 0x20 * 2 ^ 26 + rd.val * 2 ^ 22 + ra.val * 2 ^ 18 + rb.val * 2 ^ 14 + res.val * 2 ^ 12)
  | .actLke i rd ra rb res =>
    some (i.val, 0x21 * 2 ^ 26 + rd.val * 2 ^ 22 + ra.val * 2 ^ 18 + rb.val * 2 ^ 14 + res.val * 2 ^ 12)
  | .actLkr i rd ra rb res =>
    some (i.val, 0x22 * 2 ^ 26 + rd.val * 2 ^ 22 + ra.val * 2 ^ 18 + rb.val * 2 ^ 14 + res.val * 2 ^ 12)
  | .actLkp i rd res source =>
    some (i.val, 0x23 * 2 ^ 26 + rd.val * 2 ^ 22 + res.val * 2 ^ 12 + Machine.ofBool source)
  | .actPol i rd ra => some (i.val, 0x28 * 2 ^ 26 + rd.val * 2 ^ 22 + ra.val * 2 ^ 18)
  | .actDcmp i rd => some (i.val, 0x30 * 2 ^ 26 + rd.val * 2 ^ 22)
  | .actCmpr i rd => some (i.val, 0x31 * 2 ^ 26 + rd.val * 2 ^ 22)
  | .actFwd i => some (i.val, 0x38 * 2 ^ 26)
  | .actDrop i k => some (i.val, 0x39 * 2 ^ 26 + k.val)
  | .actRecirc i prog => some (i.val, 0x3A * 2 ^ 26 + prog.toNat)
  | .actRecircp i res => some (i.val, 0x3B * 2 ^ 26 + res.val * 2 ^ 12)
  | _ => none

namespace Sys2Proof.Machine

/-- A pass on the packet x, in the pipeline state y, stands at this instruction of its program (R369). -/
def Dev.actAt (a : Dev) (j : Instr) (x : Packet) (y : PipeSt) : Prop :=
  ∃ i w p, actRow j = some (i, w) ∧ a.passes i x y ∧ a.progOf y.oldBank y.prog = some p ∧ p.2[y.pc]? = some w

/-- The pass can issue the instruction: it stands at it, and the operands it reads are ready (R371). -/
def Dev.acts (a : Dev) (j : Instr) (reads : List Nat) (x : Packet) (y : PipeSt) : Prop :=
  a.actAt j x y ∧ y.ready reads = true

/-- A sequencer issues this instruction. -/
def Dev.takes (a : Dev) (i : Instr) : Prop :=
  ∃ q op tick args, seqRow i = some (q, op, tick, args) ∧ a.issues q tick op args

end Sys2Proof.Machine
end

