-- ==== Sys2Proof/Certificates/Slice0/Obligations.lean ====
section
/-! DEFINITION. The statements for the provers. Each docstring says what its statement claims and the rules of the spec it
rests on. -/

section

open Sys2Proof Sys2Proof.Machine

/-- Right after reset the registers hold the reset values the spec states. Rests on R41, R59, spec/17_redundancy.md,
spec/18_faults_and_counters.md, spec/04_receive_lanes.md, spec/03_radio_ports.md, spec/07_sequencer_isa.md. Model
choices it rests on: log entry 5. -/
def Obligations.ResetGivesSpecValues : Prop :=
  State.reset.pending = [] ∧ State.reset.dev.modes.phase = .survey ∧ State.reset.dev.modes.control = .standAlone ∧
  State.reset.dev.modes.redund = .solo ∧ State.reset.dev.epoch.num = 0 ∧ State.reset.dev.pair.allow = true ∧
  State.reset.dev.pair.ownOut = false ∧ State.reset.dev.flt.fatal = false ∧ State.reset.dev.vio.log = [] ∧
  State.reset.dev.ev.staging = [] ∧ (∀ n, (State.reset.dev.seq n).stopped = true) ∧
  (∀ p, (State.reset.dev.port p).agcIndex = 15) ∧ (∀ p, (State.reset.dev.port p).st = .off) ∧
  (∀ n, State.reset.dev.ringOn n = false) ∧ (∀ c, State.reset.dev.count c = 0)

/-- At reset the log and the staging fit and no fatal fault stands. Rests on R585, R525, R33. Model choices it rests
on: log entry 159. -/
def Obligations.ResetFits : Prop :=
  State.reset.dev.vio.fits ∧ State.reset.dev.ev.fits ∧ State.reset.dev.flt.fatal = false ∧
  Memory.wf State.reset.dev.disp.sram = true ∧ Memory.wf State.reset.dev.disp.dram = true

/-- A step takes the oldest waiting command and runs it with the rest of the queue. Rests on spec/00_scope.md,
spec/01_architecture.md. Model choices it rests on: log entries 3, 7. -/
def Obligations.StepRunsTheFrontCommand : Prop :=
  ∀ (c : Instr) (s : State) (rest : List Instr),
    step { s with pending := c :: rest } = exec c { s with pending := rest } ∧
    (∃ t, exec c s = .next t ∧ t.pending = s.pending)

/-- With no command waiting a step is one TIME-domain clock of 4 ns times (1 + r) (the queue and the idle clock are
the model's). Rests on R453, R183, R99. Model choices it rests on: log entries 1, 7. -/
def Obligations.IdleStepIsOneClock : Prop :=
  ∀ (s : State), s.pending = [] →
    (s.fresh.heldReset = true → step s = .next (s.goes s.fresh)) ∧
    (s.fresh.heldReset = false → ∃ t, step s = .next t ∧ t.pending = [] ∧
      t.dev.time.ns * 2 ^ 32 + t.dev.time.frac =
        (s.dev.time.ns * 2 ^ 32 + s.dev.time.frac + (4 * 2 ^ 32 + 4 * 2 ^ 32 * s.dev.time.rate / 10 ^ 12).toNat) % 2 ^ 96 ∧
      t.dev.time.up = s.dev.time.up + 4 ∧ t.dev.time.cycles = s.dev.time.cycles + 1 ∧
      s.dev.sameBut [.out, .freeCtr, .cnt, .vio, .ev, .ports, .lanes, .txc, .tm, .time, .links] t.dev ∧
      ((∀ p, p < 4 → (∀ y ∈ (s.dev.port p).denied, s.dev.time.up + 4 < y.2) ∧
          ∀ y ∈ (s.dev.port p).exchAt, s.dev.time.up + 4 < y.2) →
        (∀ p, (t.dev.port p).st = (s.dev.port p).st) ∧
        s.dev.sameBut [.out, .cnt, .vio, .ev, .ports, .time, .links] t.dev ∧
        ∀ p, p < 4 →
          ((∀ u, (s.dev.port p).femLeadAt = some u → s.dev.time.up + 4 < u) → t.dev.port p = s.dev.port p) ∧
          (∀ u, (s.dev.port p).femLeadAt = some u → u ≤ s.dev.time.up + 4 →
            (t.dev.port p).femLead = true ∧ (t.dev.port p).femLeadAt = none)))

/-- Every step keeps the violation log within 4,096 entries with its overflow entry last-placed, and the staging
within 8,192 events. Rests on R585, R525. -/
def Obligations.EveryStepKeepsLogAndStagingWithinBounds : Prop :=
  ∀ (s t : State), s.dev.vio.fits → s.dev.ev.fits → step s = .next t → t.dev.vio.fits ∧ t.dev.ev.fits

/-- A fatal fault and its first cause stay whatever command comes, until a reset. Rests on R590. -/
def Obligations.FatalFaultStaysUntilReset : Prop :=
  (∀ (c : Instr) (s t : State), c ≠ .sysRstAssert → (∀ r, c ≠ .supplyLoss r) → c ≠ .thermalOvertemp →
    exec c s = .next t → s.dev.flt.fatal = true → t.dev.flt.fatal = true ∧ t.dev.flt.cause = s.dev.flt.cause) ∧
  (∀ (s t : State), s.pending = [] → step s = .next t → s.dev.flt.fatal = true → t.dev.flt = s.dev.flt)

/-- No command, and no reset, lowers the life cycle or the version floor or undoes a burnt Cinnabar slot. Rests on
R408, R417, R116, R121, R599. Model choices it rests on: log entry 185. -/
def Obligations.OneTimeProgrammableStorageOnlyGrows : Prop :=
  ∀ (c : Instr) (s t : State), exec c s = .next t → s.dev.otp.Grows t.dev.otp

/-- SYS_RST_ASSERT, SUPPLY_LOSS and THERMAL_OVERTEMP reset every subsystem but OTP, boot flash and RST_CAUSE, and
release OWN. Rests on R599, R598, R611, R548. Model choices it rests on: log entries 4, 6, 132. -/
def Obligations.ResetsLeaveOnlyWhatSurvives : Prop :=
  ∀ (s : State),
    exec .sysRstAssert s = .next (s.goes { ({} : Dev) with
      freeCtr := s.dev.freeCtr, otp := s.dev.otp, ks0 := s.dev.ks0, ks1 := s.dev.ks1, modes := { inReset := true }
      pair := { ownIn := s.dev.pair.ownIn }
      elec := { ({} : Elec) with
        por := s.dev.elec.por, causeSys := true, causeSupply := s.dev.elec.causeSupply
        causeThermal := s.dev.elec.causeThermal, rail := s.dev.elec.rail, sysLow := true
        supplyLow := s.dev.elec.supplyLow, thermalHeld := s.dev.elec.thermalHeld } }) ∧
    (∀ rail : Fin 11, exec (.supplyLoss rail) s = .next (s.goes { ({} : Dev) with
      freeCtr := s.dev.freeCtr, otp := s.dev.otp, ks0 := s.dev.ks0, ks1 := s.dev.ks1, modes := { inReset := true }
      pair := { ownIn := s.dev.pair.ownIn }
      elec := { ({} : Elec) with
        por := s.dev.elec.por, causeSys := s.dev.elec.causeSys, causeSupply := true
        causeThermal := s.dev.elec.causeThermal, rail := rail.val, sysLow := s.dev.elec.sysLow
        supplyLow := true, thermalHeld := s.dev.elec.thermalHeld } })) ∧
    exec .thermalOvertemp s = .next (s.goes { ({} : Dev) with
      freeCtr := s.dev.freeCtr, otp := s.dev.otp, ks0 := s.dev.ks0, ks1 := s.dev.ks1, modes := { inReset := true }
      pair := { ownIn := s.dev.pair.ownIn }
      elec := { ({} : Elec) with
        por := s.dev.elec.por, causeSys := s.dev.elec.causeSys, causeSupply := s.dev.elec.causeSupply
        causeThermal := true, rail := s.dev.elec.rail, sysLow := s.dev.elec.sysLow
        supplyLow := s.dev.elec.supplyLow, thermalHeld := true } }) ∧
    ({} : Pair).ownOut = false ∧ ({} : Pair).gateOpen = false

/-- The end of the last reset samples the straps and boots; a reset that another cause still holds does not. Rests on
R413, R598, R611, R604, R415, R35, R414. Model choices it rests on: log entries 4, 6, 42, 107, 168, 186. -/
def Obligations.EndOfResetBootsTheDevice : Prop :=
  ∀ (s : State) (b : BootFacts),
    let e := s.dev.elec
    let fresh := e.booted = false ∧ e.bootNone = false ∧ e.ddrFail = false ∧ e.testEn = false ∧ e.heldBoot = none
    let made := e.booted = true ∨ e.bootNone = true ∨ e.ddrFail = true ∨ e.testEn = true ∨ e.heldBoot.isSome = true
    (fresh → e.supplyLow = false → e.thermalHeld = false →
      ∃ t, exec (.sysRstRelease b) s = .next t ∧ t.pending = s.pending ∧ s.dev.bootsTo b t.dev) ∧
    (fresh → e.supplyLow = true → e.sysLow = false → e.thermalHeld = false →
      ∃ t, exec (.supplyResetEnd b) s = .next t ∧ t.pending = s.pending ∧ s.dev.bootsTo b t.dev) ∧
    (fresh → e.thermalHeld = true → e.sysLow = false → e.supplyLow = false →
      ∃ t, exec (.thermalResetEnd b) s = .next t ∧ t.pending = s.pending ∧ s.dev.bootsTo b t.dev) ∧
    ((e.supplyLow = true ∨ e.thermalHeld = true ∨ made) →
      exec (.sysRstRelease b) s = .next (s.goes { s.fresh with elec := { e with sysLow := false } })) ∧
    (e.supplyLow = true → (e.sysLow = true ∨ e.thermalHeld = true ∨ made) →
      exec (.supplyResetEnd b) s = .next (s.goes { s.fresh with elec := { e with supplyLow := false } })) ∧
    (e.thermalHeld = true → (e.sysLow = true ∨ e.supplyLow = true ∨ made) →
      exec (.thermalResetEnd b) s = .next (s.goes { s.fresh with elec := { e with thermalHeld := false } })) ∧
    (e.supplyLow = false → exec (.supplyResetEnd b) s = .next (s.goes s.fresh)) ∧
    (e.thermalHeld = false → exec (.thermalResetEnd b) s = .next (s.goes s.fresh))

/-- CLOCK_LOSS and a parity error of anything but a frame are fatal: FATAL, its cause, OWN released; a bad frame is
dropped. Rests on R590, R589, R548, R600. Model choices it rests on: log entry 59. -/
def Obligations.FatalCausesSetFatalAndReleaseOwn : Prop :=
  ∀ (s : State),
    (s.dev.flt.fatal = false →
      (∃ t, exec .clockLoss s = .next t ∧ t.dev.flt = ⟨true, 4⟩ ∧ t.dev.pair.ownOut = false ∧ t.dev.pair.gateOpen = false ∧
        t.dev.cfg = s.dev.cfg ∧ t.dev.time = s.dev.time) ∧
      (∀ x, x ≠ .frame → ∃ t, exec (.crossingParityError x) s = .next t ∧ t.dev.flt = ⟨true, 3⟩ ∧
        t.dev.pair.ownOut = false ∧ t.dev.pair.gateOpen = false ∧ t.dev.cfg = s.dev.cfg)) ∧
    (s.dev.flt.fatal = true →
      exec .clockLoss s = .next (s.goes s.fresh) ∧
      ∀ x, x ≠ .frame → exec (.crossingParityError x) s = .next (s.goes s.fresh)) ∧
    exec (.crossingParityError .frame) s = .next (s.goes (s.fresh.bump Cnt.PARITY_DROP))

/-- A patrol read changes nothing, and a corrected error only counts in ECC_CE, whatever its place. Rests on R587,
R591, R599. Model choices it rests on: log entry 131. -/
def Obligations.ScrubAndCorrectableErrorsAreTransparent : Prop :=
  ∀ (s : State),
    exec .patrolScrub s = .next (s.goes s.fresh) ∧
    (∀ o i, exec (.eccCorrectable o i) s = .next (s.goes (s.fresh.bump Cnt.ECC_CE)) ∧
      (s.dev.count Cnt.ECC_CE < 0xFFFFFFFF →
        ∀ t, exec (.eccCorrectable o i) s = .next t → t.dev.count Cnt.ECC_CE = s.dev.count Cnt.ECC_CE + 1)) ∧
    exec .jtagTrst s = .next (s.goes s.fresh)

/-- A function-level reset, D3hot and PERST clear EN of every ring and nothing else of the other subsystems. Rests on
R508, R599, R509. Model choices it rests on: log entries 120, 198. -/
def Obligations.PcieResetsDisableEveryRing : Prop :=
  ∀ (s : State),
    (∀ r ∈ [(Instr.functionLevelReset, s.dev.modes.link), (Instr.d3hotEntry, LinkState.l1D3hot),
        (Instr.perstNAssert, LinkState.detect)], ∃ t, exec r.1 s = .next t ∧ (∀ n, n < 35 → t.dev.ringOn n = false) ∧
      t.dev.modes = (if s.dev.elec.booted = true then { s.dev.modes with link := r.2 } else s.dev.modes) ∧
      t.dev.snap = s.dev.snap ∧ t.dev.host.inflight = s.dev.host.inflight ∧ t.dev.host.rxWait = [] ∧
      t.dev.stg = s.dev.stg ∧ t.dev.tbl = s.dev.tbl ∧ t.dev.ports = s.dev.ports ∧
      (s.dev.host.rxWait = [] → t.dev.tm = s.dev.tm) ∧
      ∀ q, t.dev.queue q =
        (s.dev.queue q).drop (s.dev.host.rxWait.countP (fun x => 72 + 8 * (x.1 - 3) + x.2.2 == q))) ∧
    LinkState.l1D3hot.inL0 = false ∧ LinkState.detect.inL0 = false ∧
    (∀ n : Fin 35, ∃ t, exec (.pcieDmaError n) s = .next t ∧ t.dev.ringOn n.val = false ∧
      (∀ m, m < 35 → m ≠ n.val → t.dev.ringOn m = s.dev.ringOn m) ∧ t.dev.host = s.dev.host ∧ t.dev.modes = s.dev.modes ∧
      t.dev.tbl = s.dev.tbl ∧ t.dev.stg = s.dev.stg)

/-- L0 decides Hosted at once; the end of the window decides Hosted, Shelf-member or Stand-alone; a decision is never
made again. Rests on R77, R504, R41. Model choices it rests on: log entries 43, 137, 197. -/
def Obligations.ControlModeIsDecidedOnce : Prop :=
  ∀ (s : State),
    (s.dev.elec.booted = true → s.dev.modes.decided = false →
      (∀ l : LinkState, (l.inL0 = true ↔ l = .l0 ∨ l = .l1Aspm ∨ l = .recovery true)) ∧
      (∀ l : LinkState, l.inL0 = true → ∃ t, exec (.pcieLinkChange l) s = .next t ∧ t.dev.modes.control = .hosted ∧
        t.dev.modes.decided = true ∧ t.dev.modes.link = l) ∧
      (∀ l : LinkState, l.inL0 = false →
        exec (.pcieLinkChange l) s = .next (s.goes { s.fresh with modes := { s.dev.modes with link := l } })) ∧
      (∃ t, exec .controlModeWindowEnd s = .next t ∧ t.dev.modes.decided = true ∧
        t.dev.modes.control =
          if s.dev.modes.link.inL0 then .hosted else if s.dev.modes.rootHeard then .shelfMember else .standAlone)) ∧
    (s.dev.elec.booted = true → s.dev.modes.decided = true → ∀ l,
      exec (.pcieLinkChange l) s = .next (s.goes { s.fresh with modes := { s.dev.modes with link := l } }) ∧
      exec .controlModeWindowEnd s = .next (s.goes s.fresh)) ∧
    (s.dev.elec.booted = false → ∀ l, exec (.pcieLinkChange l) s = .next (s.goes s.fresh))

/-- A Hosted device whose link stayed out of L0 has Stand-alone due; the boot procedure of side 1 acquires OWN after
its wait. Rests on R50, R549, R547. Model choices it rests on: log entries 2, 197. -/
def Obligations.LostHostLinkMakesStandAloneDue : Prop :=
  ∀ (s : State),
    (s.dev.modes.control = .hosted → s.dev.linkL0 = false →
      exec .hostLinkLossTimeout s = .next (s.goes { s.fresh with modes := { s.dev.modes with lossDue := true } })) ∧
    ((s.dev.modes.control ≠ .hosted ∨ s.dev.linkL0 = true) →
      exec .hostLinkLossTimeout s = .next (s.goes s.fresh)) ∧
    (s.dev.pair.bootWait = true → s.dev.pair.ownIn = false →
      ∃ t, exec .ownBootDelayEnd s = .next t ∧ t.dev.pair.ownOut = true ∧ t.dev.pair.bootWait = false ∧
        t.dev.modes.bootDone = true ∧ (s.dev.flt.fatal = false → t.dev.pair.gateOpen = true)) ∧
    ((s.dev.pair.bootWait = false ∨ s.dev.pair.ownIn = true) → exec .ownBootDelayEnd s = .next (s.goes s.fresh))

/-- OWN_IN asserted against OWN_OUT closes the gate and counts, keeping OWN_OUT and the modes; its release opens the
gate again. Rests on R550, R547, R549. Model choices it rests on: log entry 44. -/
def Obligations.OwnContentionClosesTheGate : Prop :=
  ∀ (s : State),
    (s.dev.pair.ownIn = false → s.dev.pair.ownOut = true → s.dev.pair.bootWait = false →
      ∃ t, exec .ownInAssert s = .next t ∧ t.dev.pair.ownIn = true ∧ t.dev.pair.gateOpen = false ∧
        t.dev.pair.contention = true ∧ t.dev.pair.ownOut = true ∧ t.dev.modes = s.dev.modes ∧ t.dev.cfg = s.dev.cfg) ∧
    (s.dev.pair.ownIn = false → s.dev.pair.ownOut = false → s.dev.pair.bootWait = false →
      exec .ownInAssert s = .next (s.goes { s.fresh with pair := { s.dev.pair with ownIn := true } })) ∧
    (s.dev.pair.ownIn = false → s.dev.pair.bootWait = true →
      ∃ t, exec .ownInAssert s = .next t ∧ t.dev.modes.redund = .resync ∧ t.dev.pair.bootWait = false) ∧
    (s.dev.pair.ownIn = true →
      exec .ownInAssert s = .next (s.goes s.fresh) ∧
      ∃ t, exec .ownInRelease s = .next t ∧ t.dev.pair.ownIn = false ∧ t.dev.pair.contention = false ∧
        t.dev.modes = s.dev.modes ∧ t.dev.cfg = s.dev.cfg ∧
        (s.dev.pair.ownOut = true → s.dev.flt.fatal = false → t.dev.pair.gateOpen = true)) ∧
    (s.dev.pair.ownIn = false → exec .ownInRelease s = .next (s.goes s.fresh))

/-- An Ethernet port counts a bad frame, passes a good one on, follows its link, gates and idle rule, and sends the
highest head that fits. Rests on R464, R468, R470, R481, R482, R483, R484, R486, R490. Model choices it rests on: log
entries 14, 112, 113, 114, 191, 193. -/
def Obligations.EthernetPortsReceiveAndSend : Prop :=
  ∀ (s : State) (e : Fin 4),
    (∀ f : List Byte, ((s.dev.eth e.val).link = false → exec (.ethFrameRx e f) s = .next (s.goes s.fresh)) ∧
      ((s.dev.eth e.val).link = true →
        ((f.length < 4 ∨ f.drop (f.length - 4) ≠ le 4 (crc32 (f.take (f.length - 4)))) →
          exec (.ethFrameRx e f) s = .next (s.goes (s.fresh.bump (Cnt.ETH_RX_FCS_ERR e.val)))) ∧
        (4 ≤ f.length → f.drop (f.length - 4) = le 4 (crc32 (f.take (f.length - 4))) →
          ((f.length < 64 ∨ clampN 64 9216 (s.dev.cfg.ETH_CFG_MAX_FRAME e.val) < f.length) →
            exec (.ethFrameRx e f) s = .next (s.goes (s.fresh.bump (Cnt.ETH_RX_SIZE_ERR e.val)))) ∧
          (64 ≤ f.length → f.length ≤ clampN 64 9216 (s.dev.cfg.ETH_CFG_MAX_FRAME e.val) →
            (Dev.etherType (f.take (f.length - 4)) = 0x8808 →
              exec (.ethFrameRx e f) s = .next (s.goes (s.fresh.bump (Cnt.ETH_RX_PAUSE e.val)))) ∧
            (∀ et, Dev.etherType (f.take (f.length - 4)) = et → et ≠ 0x8808 → et ≠ 0x8100 → et ≠ 0x88E5 →
              s.dev.cfg.ETH_MACSEC_VALIDATE e.val < 2 → s.dev.ptpOn e.val = false →
              exec (.ethFrameRx e f) s = .next (s.goes (((s.fresh.rxStamp e.val).2.bump (Cnt.ETH_RX_FRAMES e.val)).ingress
                { src := 4 + e.val, data := (f.take (f.length - 4)).drop 14, l3 := if et = 0x86DD then 0 else 2
                  extType := if et = 0x86DD then 0 else et, ethInfo := 0
                  stamp := some (s.fresh.rxStamp e.val).1 })))))) ) ∧
    (∀ (up : Bool) (rate : Fin 6) (half : Bool), ∃ t, exec (.ethLinkChange e up rate half) s = .next t ∧
      (t.dev.eth e.val).link = (up && !half && s.dev.rateFits e.val rate.val) ∧
      (t.dev.eth e.val).rate = (if up && !half && s.dev.rateFits e.val rate.val then rate.val else 7) ∧
      (∀ x, x ≠ e.val → t.dev.eth x = s.dev.eth x) ∧
      s.dev.sameBut [.out, .cnt, .vio, .ev, .links] t.dev) ∧
    ((∀ w, (s.dev.eth e.val).wire = some w → s.dev.time.ns < w.ends) →
      ((s.dev.eth e.val).link = false → s.dev.cfg.ETH_CFG_FLUSH_DOWN e.val ≠ 1 →
        exec (.ethTxTake e) s = .next (s.goes s.fresh)) ∧
      ((s.dev.eth e.val).link = true →
        (∀ k, k < 8 → ∀ i, (s.dev.queue (32 + 8 * e.val + k)).head? = some i →
          i.isBad = false ∧ s.dev.neverFits (32 + 8 * e.val + k) i = false) →
        (s.dev.time.ns < (s.dev.eth e.val).busyUntil → exec (.ethTxTake e) s = .next (s.goes s.fresh)) ∧
        ((s.dev.eth e.val).busyUntil ≤ s.dev.time.ns →
          (∀ x rest, (s.dev.eth e.val).ptpOut = x :: rest → ∃ t, exec (.ethTxTake e) s = .next t ∧
            (t.dev.eth e.val).ptpOut = rest ∧ ∀ q, t.dev.queue q = s.dev.queue q) ∧
          ((s.dev.eth e.val).ptpOut = [] →
            (∀ c f tag, c < 8 → (∀ k, k < 8 → c < k → s.dev.tqFits e.val k = false) → s.dev.tqFits e.val c = true →
              s.dev.tqHead e.val c = some (f, false, tag) → s.dev.cfg.ETH_MACSEC_TX_EN e.val ≠ 1 →
              ∃ t, exec (.ethTxTake e) s = .next t ∧
                t.dev.queue (32 + 8 * e.val + c) = (s.dev.queue (32 + 8 * e.val + c)).drop 1 ∧
                t.dev.out = [⟨.eth, e.val, (f ++ List.replicate (60 - f.length) 0#8) ++
                  le 4 (crc32 (f ++ List.replicate (60 - f.length) 0#8))⟩] ∧
                (t.dev.eth e.val).lpi = false ∧
                (t.dev.eth e.val).busyUntil =
                  s.dev.time.ns + s.dev.wakeNs e.val + (s.dev.ethDuration e.val f).getD 0 ∧
                (∀ q, q ≠ 32 + 8 * e.val + c → t.dev.queue q = s.dev.queue q)) ∧
            ((∀ k, k < 8 → s.dev.tqFits e.val k = false) →
              (((s.dev.eth e.val).lpi = false ∨
                  ∀ c, c < 8 → s.dev.tqHead e.val c = none ∨ s.dev.eligible (32 + 8 * e.val + c) = false) →
                exec (.ethTxTake e) s = .next (s.goes s.fresh)) ∧
              (∀ c, (s.dev.eth e.val).lpi = true → c < 8 → (s.dev.tqHead e.val c).isSome = true →
                s.dev.eligible (32 + 8 * e.val + c) = true →
                exec (.ethTxTake e) s = .next (s.goes (s.fresh.modEth e.val (fun x => { x with
                  lpi := false, wakeUntil := s.dev.time.ns + s.dev.cfg.ETH_EEE_WAKE_NS e.val }))))))))) ∧
    (∀ w, (s.dev.eth e.val).wire = some w → w.ends ≤ s.dev.time.ns → w.ptp = none → (s.dev.eth e.val).stamps.length < 64 →
      (s.dev.eth e.val).link = false → s.dev.cfg.ETH_CFG_FLUSH_DOWN e.val ≠ 1 →
      ∃ t, exec (.ethTxTake e) s = .next t ∧ (t.dev.eth e.val).wire = none ∧
        (t.dev.eth e.val).stamps = (s.dev.eth e.val).stamps ++ [w.stamp] ∧ ∀ q, t.dev.queue q = s.dev.queue q) ∧
    (∃ t, exec (.gateChange e) s = .next t ∧
      ((s.dev.eth e.val).gatesNext = none → (t.dev.eth e.val).gates = (s.dev.eth e.val).gates ∧
        ((s.dev.eth e.val).gates.entries = [] → (t.dev.eth e.val).open_ =
          if s.dev.time.ns < (s.dev.eth e.val).closedUntil then 0 else 0xFF)) ∧
      (∀ g since, (s.dev.eth e.val).gatesNext = some (g, since) → s.dev.nextCycle g since ≤ s.dev.time.ns →
        (t.dev.eth e.val).gates = g ∧ (t.dev.eth e.val).gatesNext = none) ∧
      (∀ g since, (s.dev.eth e.val).gatesNext = some (g, since) → s.dev.time.ns < s.dev.nextCycle g since →
        (t.dev.eth e.val).gates = (s.dev.eth e.val).gates ∧ (t.dev.eth e.val).gatesNext = some (g, since)) ∧
      s.dev.sameBut [.out, .links] t.dev) ∧
    ((s.dev.eth e.val).link = true → (s.dev.eth e.val).lpi = false → s.dev.cfg.ETH_CFG_EEE e.val = 1 →
      (s.dev.eth e.val).rate ≠ 2 → (s.dev.eth e.val).busyUntil ≤ s.dev.time.ns →
      (s.dev.eth e.val).ptpOut = [] →
      (∀ c, c < 8 → s.dev.queue (32 + 8 * e.val + c) = []) → ∃ t, exec (.eeeLpiEntry e) s = .next t ∧
        t.dev.eth e.val = { s.dev.eth e.val with lpi := true }) ∧
    (((s.dev.eth e.val).link = false ∨ s.dev.cfg.ETH_CFG_EEE e.val ≠ 1 ∨ (s.dev.eth e.val).rate = 2 ∨
        (s.dev.eth e.val).ptpOut ≠ []) → exec (.eeeLpiEntry e) s = .next (s.goes s.fresh)) ∧
    (∀ eth : Bool, s.dev.stampRoom = false → exec (.txStampDrain eth e) s = .next (s.goes s.fresh)) ∧
    (s.dev.nextStamp e.val = none → exec (.txStampDrain false e) s = .next (s.goes s.fresh)) ∧
    ((s.dev.port e.val).stamps = [] → s.dev.nextStamp e.val = none) ∧
    (∀ r, r ∈ (s.dev.port e.val).stamps →
      (∀ x ∈ (s.dev.port e.val).stamps, x ≠ r → s.dev.stampAge e.val x.seq < s.dev.stampAge e.val r.seq) →
      (∀ x ∈ s.dev.activeOn e.val, ∀ f n, (s.dev.tx x.1 x.2).cur = some f → f.stampSeq = some n →
        s.dev.stampAge e.val n ≤ s.dev.stampAge e.val r.seq) → s.dev.nextStamp e.val = some r) ∧
    (s.dev.modes.control = .hosted → s.dev.stampRoom = true → ∀ r, s.dev.nextStamp e.val = some r →
      ∃ t v, exec (.txStampDrain false e) s = .next t ∧
        (t.dev.port e.val).stamps = (s.dev.port e.val).stamps.erase r ∧
        t.dev.host.ring2.find ((s.dev.ring 2).devIdx.toNat % s.dev.ringSize 2) = some (v, (s.dev.ring 2).phase) ∧
        v.code = .EVT_TX_STAMP ∧ v.data = r.octets ∧ v.seq = s.dev.ev.seq) ∧
    ((∀ w, (s.dev.eth e.val).wire = some w → s.dev.time.ns < w.ends) →
      ((s.dev.eth e.val).stamps = [] → exec (.txStampDrain true e) s = .next (s.goes s.fresh)) ∧
      (∀ r l, s.dev.modes.control = .hosted → s.dev.stampRoom = true → (s.dev.eth e.val).stamps = r :: l →
        ∃ t v, exec (.txStampDrain true e) s = .next t ∧ (t.dev.eth e.val).stamps = l ∧
        t.dev.host.ring2.find ((s.dev.ring 2).devIdx.toNat % s.dev.ringSize 2) = some (v, (s.dev.ring 2).phase) ∧
        v.code = .EVT_TX_STAMP ∧ v.data = r.octets ∧ v.seq = s.dev.ev.seq))

/-- Measurements, their loss, PTP, PPS and ToD move the time scale and its servo as the rules say. Rests on R455,
R456, R457, R458, R459, R460, R464, R465, R474, R475, R476. Model choices it rests on: log entries 11, 14, 108, 109,
110, 111, 167, 187, 188, 189, 190, 191, 192, 193. -/
def Obligations.TimeFollowsItsMeasurements : Prop :=
  ∀ (s : State),
    (s.dev.time.meas = [] → exec .timeMeasurement s = .next (s.goes s.fresh)) ∧
    (∀ m l, s.dev.time.meas = m :: l → ∃ t, exec .timeMeasurement s = .next t ∧
      t.dev.time.meas = (if s.dev.time.acquired = false ∧ Dev.measSecs m = true then [] else l) ∧
      (s.dev.time.acquired = false → Dev.measSecs m = true → t.dev.time.acquired = true ∧
        t.dev.time.source = (if s.dev.sourceUsed (Dev.measSource m) then Dev.measSource m else s.dev.time.source) ∧
        t.dev.time.ns = (((s.dev.time.ns : Int) - s.dev.offsetOf m) % 2 ^ 64).toNat ∧
        t.dev.time.up = s.dev.time.up ∧ t.dev.time.freq = 0) ∧
      (s.dev.time.acquired = false → Dev.measSecs m = false → t.dev.time = { s.dev.time with meas := l }) ∧
      (s.dev.time.acquired = true → Dev.measSource m = s.dev.time.source → s.dev.time.restep = none →
        s.dev.time.holdover = false → t.dev.time.ns = s.dev.time.ns ∧
        (absI (s.dev.offsetOf m - s.dev.prediction) ≤ s.dev.stepThresh → t.dev.time.lastO = s.dev.offsetOf m ∧
          t.dev.time.cands = [] ∧ t.dev.time.holdover = false ∧ -100000000 ≤ t.dev.time.rate ∧
          t.dev.time.rate ≤ 100000000) ∧
        (s.dev.stepThresh < absI (s.dev.offsetOf m - s.dev.prediction) → s.dev.time.cands.length < 3 →
          t.dev.time.cands = s.dev.time.cands ++ [s.dev.offsetOf m] ∧ t.dev.time.rate = s.dev.time.rate ∧
          t.dev.time.holdover = false) ∧
        (s.dev.stepThresh < absI (s.dev.offsetOf m - s.dev.prediction) → 3 ≤ s.dev.time.cands.length →
          t.dev.time.cands = [] ∧ t.dev.time.jumpPending = true ∧ t.dev.time.holdover = true))) ∧
    ((s.dev.time.source = 3 ∨ s.dev.time.holdover = true ∨ s.dev.sourceSeen s.dev.time.source = true ∨
        s.dev.time.acquired = false) → exec .holdoverLossTimeout s = .next (s.goes s.fresh)) ∧
    (s.dev.time.source ≠ 3 → s.dev.time.holdover = false → s.dev.time.acquired = true →
      (∀ x, x < 3 → s.dev.sourceSeen x = false) → s.dev.time.source < 3 →
      ∃ t, exec .holdoverLossTimeout s = .next t ∧ t.dev.time.holdover = true ∧ t.dev.time.rate = s.dev.holdRate ∧
        t.dev.time.ns = s.dev.time.ns ∧ t.dev.time.source = s.dev.time.source) ∧
    ((∀ m ∈ s.dev.time.ptpIn, Dev.ptpType m.msg ≠ 0 ∧ Dev.ptpType m.msg ≠ 8) →
      ∀ parent, exec (.ptpSyncRx parent) s = .next (s.goes s.fresh)) ∧
    (∀ m l mpd, s.dev.time.ptpIn = m :: l → Dev.ptpType m.msg = 0 → m.port = s.dev.cfg.PTP_CTL_RX_PORT →
      Dev.ptpTwoStep m.msg = false → s.dev.time.mpd = some mpd → ∃ t, exec (.ptpSyncRx true) s = .next t ∧
        t.dev.time.ptpIn = l ∧ t.dev.time.meas = s.dev.time.meas ++
          [.ptp (((m.stamp : Int) - Dev.ptpCorr m.msg) - Dev.ptpTime m.msg 34 - mpd) m.port]) ∧
    ((∀ m ∈ s.dev.time.ptpIn, Dev.ptpType m.msg ∉ [1, 2, 3, 9, 10]) → exec .ptpDelayMsgRx s = .next (s.goes s.fresh)) ∧
    (∀ m l, s.dev.time.ptpIn = m :: l → (∀ w, (s.dev.eth m.port).wire = some w → s.dev.time.ns < w.ends) →
      (Dev.ptpType m.msg = 1 → m.port ≠ s.dev.cfg.PTP_CTL_RX_PORT → ∃ t i x, exec .ptpDelayMsgRx s = .next t ∧
        t.dev.time.ptpIn = l ∧ x = (
          { type := 9, flags := 0, seq := Dev.ptpSeqId m.msg, corr := unbe (slice m.msg 8 8), interval := i
            body := Dev.ptpTimeOctets m.stamp ++ slice m.msg 20 10 } : PtpOut) ∧
        (((s.dev.eth m.port).link = false ∨ s.dev.time.ns < (s.dev.eth m.port).busyUntil) →
          (t.dev.eth m.port).ptpOut = (s.dev.eth m.port).ptpOut ++ [x]) ∧
        ((s.dev.eth m.port).link = true → (s.dev.eth m.port).busyUntil ≤ s.dev.time.ns → (s.dev.eth m.port).ptpOut = [] →
          s.dev.cfg.ETH_MACSEC_TX_EN m.port ≠ 1 → s.dev.cfg.PTP_CTL_TRANSPORT ≠ 1 → s.dev.cfg.PTP_CTL_TRANSPORT ≠ 2 →
          ∀ f, f = be 6 0x011B19000000 ++ be 6 s.dev.otp.baseMac.toNat ++ be 2 0x88F7 ++ s.dev.ptpMessage m.port x →
            t.dev.out = [⟨.eth, m.port, (f ++ List.replicate (60 - f.length) 0#8) ++
              le 4 (crc32 (f ++ List.replicate (60 - f.length) 0#8))⟩] ∧ (t.dev.eth m.port).ptpOut = [])) ∧
      (Dev.ptpType m.msg = 2 → s.dev.ptpP2p m.port = true →
        ((s.dev.eth m.port).link = false ∨ s.dev.time.ns < (s.dev.eth m.port).busyUntil) →
        ∃ t, exec .ptpDelayMsgRx s = .next t ∧ t.dev.time.ptpIn = l ∧
          (t.dev.eth m.port).ptpOut = (s.dev.eth m.port).ptpOut ++ [if s.dev.ptpOneStep m.port = true then
            ({ type := 3, flags := 0, seq := Dev.ptpSeqId m.msg, corr := unbe (slice m.msg 8 8)
               body := be 10 0 ++ slice m.msg 20 10, rxAt := m.stamp } : PtpOut) else
            { type := 3, flags := 0x0200, seq := Dev.ptpSeqId m.msg, fuCorr := unbe (slice m.msg 8 8)
              body := Dev.ptpTimeOctets m.stamp ++ slice m.msg 20 10 }])) ∧
    (∀ e : Fin 4, (s.dev.ptpOn e.val = false → exec (.ptpMessageSend e) s = .next (s.goes s.fresh)) ∧
      (s.dev.ptpOn e.val = true → ∃ t, exec (.ptpMessageSend e) s = .next t ∧
        t.dev.time.ptpSeq.get 0 e.val = (s.dev.time.ptpSeq.get 0 e.val + 1) % 65536 ∧ t.dev.time.ns = s.dev.time.ns ∧
        (s.dev.time.ns < (s.dev.eth e.val).busyUntil →
          (∀ w, (s.dev.eth e.val).wire = some w → s.dev.time.ns < w.ends) → s.dev.ptpP2p e.val = false →
          (e.val ≠ s.dev.cfg.PTP_CTL_RX_PORT → ∃ i, (t.dev.eth e.val).ptpOut = (s.dev.eth e.val).ptpOut ++
            [{ type := 0, flags := if s.dev.ptpOneStep e.val = true then 0 else 0x0200
               seq := s.dev.time.ptpSeq.get 0 e.val, interval := i, body := List.replicate 10 0#8 }]) ∧
          (e.val = s.dev.cfg.PTP_CTL_RX_PORT → (t.dev.eth e.val).ptpOut = (s.dev.eth e.val).ptpOut ++
            [{ type := 1, flags := 0, seq := s.dev.time.ptpSeq.get 0 e.val, body := List.replicate 10 0#8 }])))) ∧
    (∀ rising : Bool, ((s.dev.cfg.PPS_CTL_IN_EN = 0 ∨ rising = (s.dev.cfg.PPS_CTL_IN_POL == 1)) →
        exec (.ppsEdge rising) s = .next (s.goes s.fresh)) ∧
      (s.dev.cfg.PPS_CTL_IN_EN ≠ 0 → rising ≠ (s.dev.cfg.PPS_CTL_IN_POL == 1) →
        ∃ t, exec (.ppsEdge rising) s = .next t ∧ t.dev.time.ppsEdge = s.dev.time.up ∧ t.dev.time.tod = [] ∧
          (s.dev.time.tod = [] → t.dev.time.meas =
            (if s.dev.time.acquired then s.dev.time.meas ++ [.pps s.dev.time.ns none] else s.dev.time.meas)) ∧
          (∀ x at_, s.dev.time.tod = [(x, at_)] → 50000000 ≤ s.dev.time.up - at_ → s.dev.time.up - at_ ≤ 900000000 →
            t.dev.time.meas = s.dev.time.meas ++ [.pps s.dev.time.ns (some x.secs)] ∧ t.dev.vio = s.dev.vio))) ∧
    (∀ m : List Byte, (s.dev.cfg.PPS_CTL_TOD_IN = 0 → exec (.todMessageRx m) s = .next (s.goes s.fresh)) ∧
      (s.dev.cfg.PPS_CTL_TOD_IN ≠ 0 →
        (m.length ≠ 16 → exec (.todMessageRx m) s =
          .next (s.goes ((s.fresh.violate .VIO_TOD_FORMAT []).bump Cnt.TOD_REJECT))) ∧
        (m.length = 16 → slice m 0 2 = [0x51#8, 0x54#8] → fld m 2 1 = 1 → fld m 3 1 < 16 →
          fld m 14 2 = Dev.crcCcitt (slice m 0 14) →
          (bit (fld m 3 1) 0 = false → exec (.todMessageRx m) s = .next (s.goes s.fresh)) ∧
          (bit (fld m 3 1) 0 = true → exec (.todMessageRx m) s = .next (s.goes { s.fresh with time := { s.dev.time with
            tod := s.dev.time.tod ++
              [(⟨fld m 4 6, fld m 3 1, sext 16 (fld m 10 2), fld m 12 2⟩, s.dev.time.up)] } }))))) ∧
    exec .ppsOutPulseEnd s = .next (s.goes { s.fresh with time := { s.dev.time with ppsHigh := false } }) ∧
    (s.dev.ppsRuns = true → ∃ t, exec .ppsOutEdge s = .next t ∧ t.dev.time = { s.dev.time with ppsHigh := true } ∧
      t.dev.out = [⟨.pps, 0, []⟩] ∧ s.dev.sameBut [.out, .time] t.dev) ∧
    (s.dev.ppsRuns = false → exec .ppsOutEdge s = .next (s.goes s.fresh) ∧ exec .todOutSend s = .next (s.goes s.fresh)) ∧
    (s.dev.ppsRuns = true → s.dev.cfg.PPS_CTL_TOD_OUT ≠ 0 → ∃ t m, exec .todOutSend s = .next t ∧
      t.dev.out = [⟨.tod, 0, m⟩] ∧ m.length = 16 ∧ m.take 3 = [0x51#8, 0x54#8, 0x01#8])

/-- QZ-Link and MIR frames are checked, acknowledged, resent, credited and sent as the rules say, and links come up
and go down. Rests on R391, R491, R492, R493, R494, R495, R496, R497, R501, R551. Model choices it rests on: log
entries 103, 115, 116, 117, 194, 195, 196. -/
def Obligations.QlFramesAndWordsMoveTheirPort : Prop :=
  ∀ (s : State) (q : Fin 7),
    ((s.dev.qlp q.val).up = false → exec (.qlLinkDown q) s = .next (s.goes s.fresh)) ∧
    (Dev.carries (s.dev.qlp q.val) = false →
      (∀ b env, exec (.qlFrameRx q b env) s = .next (s.goes s.fresh)) ∧
      (∀ d1 v, exec (.qlAckRx q d1 v) s = .next (s.goes s.fresh)) ∧
      (∀ v, exec (.qlNakRx q v) s = .next (s.goes s.fresh)) ∧ (∀ v, exec (.qlCreditRx q v) s = .next (s.goes s.fresh)) ∧
      exec (.qlTxSchedule q) s = .next (s.goes s.fresh)) ∧
    (Dev.carries (s.dev.qlp q.val) = true →
      (∀ b env, ¬ qlWhole b → exec (.qlFrameRx q b env) s =
        .next (s.goes ((s.fresh.bumpQl q.val Cnt.QL_CRC_ERR).sendWord q.val 2 (s.dev.qlp q.val).rxSeq))) ∧
      (∀ b env, qlWhole b → ¬ qlHeader q.val b → exec (.qlFrameRx q b env) s = .next (s.goes
        (((s.fresh.bumpQl q.val Cnt.QL_CRC_ERR).sendWord q.val 2 (s.dev.qlp q.val).rxSeq).violate .VIO_QL_FRAME []))) ∧
      (∀ b env ahead, qlWhole b → qlHeader q.val b → (fld b 8 2 + 4096 - (s.dev.qlp q.val).rxSeq) % 4096 = ahead →
        (0 < ahead → ahead < 2048 → exec (.qlFrameRx q b env) s =
          .next (s.goes ((s.fresh.modQl q.val (fun y => { y with ackDue := true })).sendWord q.val 2
            (s.dev.qlp q.val).rxSeq))) ∧
        (2048 ≤ ahead → exec (.qlFrameRx q b env) s =
          .next (s.goes (s.fresh.modQl q.val (fun y => { y with ackDue := true }))))) ∧
      (∀ b env f, qlWhole b → qlHeader q.val b → fld b 8 2 = (s.dev.qlp q.val).rxSeq →
        qlFrameOf b = f → 128 < (s.dev.qlp q.val).rxUsed.get 0 f.cls + f.units → exec (.qlFrameRx q b env) s = .next (s.goes
          (((s.fresh.bumpQl q.val Cnt.QL_CRC_ERR).sendWord q.val 2 (s.dev.qlp q.val).rxSeq).violate .VIO_QL_CREDIT []))) ∧
      (∀ b env f a, qlWhole b → qlHeader q.val b → fld b 8 2 = (s.dev.qlp q.val).rxSeq → qlFrameOf b = f →
        (s.dev.qlp q.val).rxUsed.get 0 f.cls + f.units ≤ 128 → s.fresh.qlTaken q.val f = a →
        (q.val = 6 → f.dst = s.dev.elec.chipId → exec (.qlFrameRx q b env) s = .next (s.goes { a with
          links := { a.links with mirIn := a.links.mirIn ++ [f] }
          pair := { a.pair with partnerChip := f.src, partnerKnown := true } })) ∧
        (q.val = 6 → f.dst ≠ s.dev.elec.chipId →
          exec (.qlFrameRx q b env) s = .next (s.goes (a.violate .VIO_MIR_FRAME []))) ∧
        (q.val ≠ 6 → f.type = 4 → exec (.qlFrameRx q b env) s = .next (s.goes { a with
          links := { a.links with annIn := a.links.annIn ++ [(q.val, f)] } })) ∧
        (q.val ≠ 6 → f.type ≠ 4 → (s.dev.qlp q.val).dupId = true → exec (.qlFrameRx q b env) s = .next (s.goes a)) ∧
        (q.val ≠ 6 → f.type ≠ 4 → (s.dev.qlp q.val).dupId = false → f.dst ≠ s.dev.elec.chipId →
          (f.ttl ≤ 1 → exec (.qlFrameRx q b env) s = .next (s.goes (a.bump (Cnt.QL_TTL_DROP q.val)))) ∧
          (∀ p, 1 < f.ttl → s.dev.routeTo f.dst (f.type == 3) = some p → (s.dev.qlp p).up = true →
            exec (.qlFrameRx q b env) s = .next (s.goes (((s.fresh.qlAccepted q.val).holdBuffer q.val f).queueQl p
              { f with ttl := f.ttl - 1, rx := some q.val })))) ∧
        (q.val ≠ 6 → f.type = 1 → (s.dev.qlp q.val).dupId = false → f.dst = s.dev.elec.chipId →
          exec (.qlFrameRx q b env) s = .next (s.goes (a.ingress {
            src := 8 + q.val, data := f.payload.drop 16, pan := fld f.payload 0 1 % 4
            rxFlags := fld f.payload 1 1 % 16 ||| 4, dst := fld f.payload 2 2
            tag := BitVec.ofNat 32 (fld f.payload 8 4), l3 := wiredL3 (f.payload.drop 16) })))) ∧
      (∀ v : W16, ∃ t, exec (.qlAckRx q 1 v) s = .next t ∧
        ((∀ y ∈ (s.dev.qlp q.val).unacked, y.1 ≠ v.toNat % 4096) → t.dev.qlp q.val = s.dev.qlp q.val) ∧
        (∀ l f r, (s.dev.qlp q.val).unacked = l ++ (v.toNat % 4096, f) :: r → (∀ y ∈ l, y.1 ≠ v.toNat % 4096) →
          t.dev.qlp q.val = { s.dev.qlp q.val with unacked := r, resends := 0 }) ∧
        (∀ p, p ≠ q.val → t.dev.qlp p = s.dev.qlp p)) ∧
      (∀ d1 v, 4 < d1.toNat ∨ d1 = 0 → (q.val ≠ 6 ∨ d1 ≠ 0x10) →
        exec (.qlAckRx q d1 v) s = .next (s.goes (s.fresh.violate .VIO_QL_WORD []))) ∧
      (∀ v : W16, ∃ t, exec (.qlCreditRx q v) s = .next t ∧
        (t.dev.qlp q.val).credits.get 128 (bits v.toNat 15 13) =
          (s.dev.qlp q.val).credits.get 128 (bits v.toNat 15 13) + v.toNat % 8192 ∧
        ((s.dev.qlp q.val).waitNeed.get 0 (bits v.toNat 15 13) ≤ (t.dev.qlp q.val).credits.get 128 (bits v.toNat 15 13) →
          (t.dev.qlp q.val).waitSince.find (bits v.toNat 15 13) = none) ∧
        ((t.dev.qlp q.val).credits.get 128 (bits v.toNat 15 13) < (s.dev.qlp q.val).waitNeed.get 0 (bits v.toNat 15 13) →
          (t.dev.qlp q.val).waitSince = (s.dev.qlp q.val).waitSince) ∧
        (∀ c, c ≠ bits v.toNat 15 13 → (t.dev.qlp q.val).credits.get 128 c = (s.dev.qlp q.val).credits.get 128 c) ∧
        (t.dev.qlp q.val).unacked = (s.dev.qlp q.val).unacked ∧ s.dev.sameBut [.out, .links] t.dev)) ∧
    ((s.dev.qlp q.val).up = true →
      (∃ t, exec (.qlLinkDown q) s = .next t ∧ (t.dev.qlp q.val).up = false ∧ (t.dev.qlp q.val).unacked = [] ∧
        (t.dev.qlp q.val).transit = [] ∧ (t.dev.qlp q.val).ctrl = [] ∧ (t.dev.qlp q.val).level = 0 ∧
        (t.dev.qlp q.val).rxUsed = [] ∧
        (∀ p, p ≠ q.val → t.dev.qlp p = { s.dev.qlp p with
          transit := (t.dev.qlp p).transit, rxUsed := (t.dev.qlp p).rxUsed, credDue := (t.dev.qlp p).credDue }) ∧
        s.dev.sameBut [.out, .freeCtr, .cnt, .ev, .links] t.dev)) ∧
    (((s.dev.qlp q.val).unacked = [] ∨ 8 ≤ (s.dev.qlp q.val).resends ∨ Dev.carries (s.dev.qlp q.val) = false) →
      exec (.qlReplayTimeout q) s = .next (s.goes s.fresh) ∧ ∀ v, exec (.qlNakRx q v) s = .next (s.goes s.fresh)) ∧
    ((s.dev.qlp q.val).unacked ≠ [] → (s.dev.qlp q.val).resends < 8 → Dev.carries (s.dev.qlp q.val) = true →
      ∃ t, exec (.qlReplayTimeout q) s = .next t ∧
      t.dev.out = (s.dev.qlp q.val).unacked.map (fun y => qlOut q.val (y.2.octets y.1)) ∧
      t.dev.qlp q.val = { s.dev.qlp q.val with resends := (s.dev.qlp q.val).resends + 1 } ∧
      ∀ v, exec (.qlNakRx q v) s = .next t) ∧
    (((s.dev.qlp q.val).ackDue = false ∨ Dev.carries (s.dev.qlp q.val) = false) → exec (.qlAckSend q) s = .next (s.goes s.fresh)) ∧
    ((s.dev.qlp q.val).ackDue = true → Dev.carries (s.dev.qlp q.val) = true → ∃ t, exec (.qlAckSend q) s = .next t ∧ (t.dev.qlp q.val).ackDue = false ∧
      t.dev.out = [qlOut q.val (le 1 1 ++ le 2 (((s.dev.qlp q.val).rxSeq + 4095) % 4096))] ∧
      s.dev.sameBut [.out, .links] t.dev) ∧
    (∀ lane1 : Bool, ((s.dev.qlp q.val).up = true ∨ s.dev.linkWanted q.val = false →
        exec (.qlLinkUp q lane1) s = .next (s.goes s.fresh)) ∧
      ((s.dev.qlp q.val).up = false → s.dev.linkWanted q.val = true → ∃ t, exec (.qlLinkUp q lane1) s = .next t ∧
        (t.dev.qlp q.val).up = true ∧ (t.dev.qlp q.val).txSeq = 0 ∧ (t.dev.qlp q.val).rxSeq = 0 ∧
        (t.dev.qlp q.val).credits = [] ∧ (t.dev.qlp q.val).lane1Fail = !lane1 ∧
        ∀ p, p ≠ q.val → t.dev.qlp p = s.dev.qlp p)) ∧
    ((Dev.carries (s.dev.qlp q.val) = false ∨ 2048 ≤ (s.dev.qlp q.val).unacked.length) →
      exec (.qlTxSchedule q) s = .next (s.goes s.fresh)) ∧
    (∀ f l, Dev.carries (s.dev.qlp q.val) = true → (s.dev.qlp q.val).unacked.length < 2048 →
      (q.val = 6 → (s.dev.qlp q.val).ctrl = f :: l ∧ f.cls = 7) →
      (q.val ≠ 6 → (s.dev.qlp q.val).transit.get [] 7 = f :: l) →
      f.units ≤ (s.dev.qlp q.val).credits.get 128 f.cls → ∃ t, exec (.qlTxSchedule q) s = .next t ∧
        (f.rx = none ∨ q.val = 6 → t.dev.out = [qlOut q.val (f.octets (s.dev.qlp q.val).txSeq)]) ∧
        (∀ r, f.rx = some r → q.val ≠ 6 → Dev.carries (s.dev.qlp r) = true → t.dev.out =
          [qlOut r (le 1 3 ++ le 2 (f.cls % 8 * 8192 + f.units)), qlOut q.val (f.octets (s.dev.qlp q.val).txSeq)]) ∧
        (t.dev.qlp q.val).txSeq = ((s.dev.qlp q.val).txSeq + 1) % 4096 ∧
        (t.dev.qlp q.val).unacked = (s.dev.qlp q.val).unacked ++
          [((s.dev.qlp q.val).txSeq, if q.val = 6 then f else { f with rx := none })] ∧
        (t.dev.qlp q.val).credits.get 128 f.cls = (s.dev.qlp q.val).credits.get 128 f.cls - f.units) ∧
    (∀ (l : Fin 6) (v : W16) (want : Nat),
      (Dev.carries (s.dev.qlp l.val) = false → exec (.qlLevelRx l v) s = .next (s.goes s.fresh)) ∧
      ((s.dev.qlp l.val).up = false → exec (.qlLevelWindow l) s = .next (s.goes s.fresh)) ∧
      (Dev.carries (s.dev.qlp l.val) = true →
        clampN (s.dev.minLevel l.val) (s.dev.maxLevel l.val) (max (s.dev.qlp l.val).reqOwn (min 2 (v.toNat % 4))) = want →
        ∃ t, exec (.qlLevelRx l v) s = .next t ∧ (t.dev.qlp l.val).reqPeer = min 2 (v.toNat % 4) ∧
          (t.dev.qlp l.val).level = (s.dev.qlp l.val).level ∧
          (∀ x, (s.dev.qlp l.val).stepping = some x → (t.dev.qlp l.val).stepping = some x) ∧
          ((s.dev.qlp l.val).stepping = none → (t.dev.qlp l.val).stepping =
            if want = (s.dev.qlp l.val).level then none
            else some (if (s.dev.qlp l.val).level < want then (s.dev.qlp l.val).level + 1
              else (s.dev.qlp l.val).level - 1))) ∧
      ((s.dev.qlp l.val).up = true → ∃ t, exec (.qlLevelWindow l) s = .next t ∧ (t.dev.qlp l.val).winOctets = 0 ∧
        (t.dev.qlp l.val).creditWait = false ∧ (t.dev.qlp l.val).level = (s.dev.qlp l.val).level ∧
        t.dev.out = (if Dev.carries (s.dev.qlp l.val) = true then [qlOut l.val (le 1 4 ++ le 2 (t.dev.qlp l.val).reqOwn)]
          else []) ∧
        (min 100 (s.dev.cfg.QL_CFG_UP_PCT l.val) * levelOctets (s.dev.qlp l.val).level < 100 * (s.dev.qlp l.val).winOctets →
          (t.dev.qlp l.val).reqOwn =
            clampN (s.dev.minLevel l.val) (s.dev.maxLevel l.val) ((s.dev.qlp l.val).level + 1))) ∧
      (∀ lane1 : Bool, ((s.dev.qlp l.val).stepping = none → exec (.qlStepDone l lane1) s = .next (s.goes s.fresh)) ∧
        (∀ x, (s.dev.qlp l.val).stepping = some x → ∃ t, exec (.qlStepDone l lane1) s = .next t ∧
          (t.dev.qlp l.val).stepping = none ∧ (t.dev.qlp l.val).credDue = [] ∧
          t.dev.out = (s.dev.qlp l.val).credDue.map (fun y => qlOut l.val (le 1 3 ++ le 2 (y.1 % 8 * 8192 + y.2))) ∧
          (x ≠ 2 ∨ lane1 = true → (t.dev.qlp l.val).level = x) ∧
          (x = 2 → lane1 = false → (t.dev.qlp l.val).level = (s.dev.qlp l.val).level ∧
            (t.dev.qlp l.val).lane1Fail = true))))

/-- ANNOUNCE frames build and age the list of roots, the followed root and the learned routes, and are passed on.
Rests on R50, R498, R499, R500. Model choices it rests on: log entry 118. -/
def Obligations.AnnouncesBuildTheTreeAndItsRoutes : Prop :=
  ∀ (s : State),
    (s.dev.links.annIn = [] → exec .announceRx s = .next (s.goes s.fresh)) ∧
    (∀ q f l, s.dev.links.annIn = (q, f) :: l → ∃ t, exec .announceRx s = .next t ∧ t.dev.links.annIn = l ∧
      (fld f.payload 0 2 % 1024 = s.dev.elec.chipId →
        (s.dev.links.isRoot = false ∨ f.dst ≠ s.dev.elec.chipId ∨ fld f.payload 2 1 = 0) →
        (t.dev.qlp q).dupId = true ∧ t.dev.vio.seq = s.dev.vio.seq + 1 ∧ t.dev.links.roots = s.dev.links.roots) ∧
      (∀ r, fld f.payload 0 2 % 1024 = r → r ≠ s.dev.elec.chipId → f.dst = r → fld f.payload 2 1 < 63 →
        ∃ x, t.dev.links.roots.find r = some x ∧ x.last = s.dev.time.up ∧
          x.hops.find q = some (fld f.payload 2 1, s.dev.time.up) ∧
          (∀ y, y ≠ r → t.dev.links.roots.find y = s.dev.links.roots.find y) ∧
          t.dev.vio.seq = s.dev.vio.seq + (if s.dev.links.isRoot then 1 else 0)) ∧
      (∀ r, fld f.payload 0 2 % 1024 = r → r ≠ s.dev.elec.chipId → f.dst = r → 63 ≤ fld f.payload 2 1 →
        t.dev.links.roots = s.dev.links.roots ∧ t.dev.links.followed = s.dev.links.followed ∧
        t.dev.links.ql = s.dev.links.ql) ∧
      (∀ r, fld f.payload 0 2 % 1024 = r → r ≠ s.dev.elec.chipId → f.dst ≠ r →
        t.dev.links.learned.find f.src = some q ∧
        (∀ y, y ≠ f.src → t.dev.links.learned.find y = s.dev.links.learned.find y) ∧
        t.dev.links.roots = s.dev.links.roots)) ∧
    (s.dev.links.isRoot = false → exec .announceSend s = .next (s.goes s.fresh)) ∧
    (s.dev.links.isRoot = true → ∃ t, exec .announceSend s = .next t ∧
      (∀ q, q < 6 → (s.dev.qlp q).up = true → (t.dev.qlp q).transit.get [] 7 = (s.dev.qlp q).transit.get [] 7 ++
        [Dev.announceFrame s.dev.elec.chipId s.dev.elec.chipId s.dev.elec.chipId 0]) ∧
      (∀ q, (6 ≤ q ∨ (s.dev.qlp q).up = false) → t.dev.qlp q = s.dev.qlp q) ∧ s.dev.sameBut [.out, .links] t.dev) ∧
    ((s.dev.modes.control ≠ .shelfMember ∨ s.dev.links.followed = none ∨ 6 ≤ s.dev.links.rootPort) →
      exec .memberAnnounceSend s = .next (s.goes s.fresh)) ∧
    (∀ r, s.dev.modes.control = .shelfMember → s.dev.links.followed = some r → s.dev.links.rootPort < 6 →
      (s.dev.qlp s.dev.links.rootPort).up = true → exec .memberAnnounceSend s = .next (s.goes (s.fresh.queueQl
        s.dev.links.rootPort (Dev.announceFrame r s.dev.elec.chipId s.dev.elec.chipId 0)))) ∧
    (∀ r : BitVec 10, ((∀ x, s.dev.links.roots.find r.toNat = some x → s.dev.time.up < x.last + 300000000) →
        exec (.rootExpiry r) s = .next (s.goes s.fresh)) ∧
      (∀ x, s.dev.links.roots.find r.toNat = some x → x.last + 300000000 ≤ s.dev.time.up →
        ∃ t, exec (.rootExpiry r) s = .next t ∧ t.dev.links.roots.find r.toNat = none ∧
          (∀ y, y ≠ r.toNat → t.dev.links.roots.find y = s.dev.links.roots.find y) ∧
          t.dev.links.ql = s.dev.links.ql ∧ s.dev.sameBut [.out, .links] t.dev)) ∧
    ((s.dev.modes.control ≠ .shelfMember ∨ s.dev.currentRoots ≠ []) →
      exec .shelfRootLoss s = .next (s.goes s.fresh)) ∧
    (s.dev.modes.control = .shelfMember → s.dev.currentRoots = [] → exec .shelfRootLoss s =
      .next (s.goes { s.fresh with modes := { s.dev.modes with lossDue := true } }))

/-- Heartbeats keep the partner informed, misses lead to Solo or a takeover, and a takeover acquires OWN and restores
the image. Rests on R50, R58, R435, R548, R553, R562, R563, R564, R565, R566, R567, R568. Model choices it rests on:
log entries 40, 45, 49, 50, 57, 170, 203. -/
def Obligations.HeartbeatsAndTakeoverMoveThePair : Prop :=
  ∀ (s : State),
    (s.dev.mayHeartbeat = false → exec .heartbeatSend s = .next (s.goes s.fresh)) ∧
    ((s.dev.flt.fatal = true ∨ s.dev.modes.inReset = true) → s.dev.mayHeartbeat = false) ∧
    (s.dev.mayHeartbeat = true → ∃ t, exec .heartbeatSend s = .next t ∧
      t.dev.pair = { s.dev.pair with hbGen := some s.dev.time.up } ∧
      t.dev.out = (if (s.dev.qlp 6).up then [qlOut 6 (le 1 0x10 ++ le 2 (s.dev.modes.redund.code +
        4 * ofBool s.dev.pair.side + 8 * (s.dev.epoch.num % 8192)))] else []) ∧ s.dev.sameBut [.out, .pair] t.dev) ∧
    (s.dev.pair.ownOut = false → exec .heartbeatStall s = .next (s.goes s.fresh)) ∧
    (s.dev.pair.ownOut = true → ∃ t, exec .heartbeatStall s = .next t ∧ t.dev.pair.ownOut = false ∧
      t.dev.pair.gateOpen = false ∧ (∀ q, q < 4 → (t.dev.seq q).stopped = true) ∧ t.dev.tbl = s.dev.tbl) ∧
    (∀ v : W16, ((s.dev.qlp 6).up = false → exec (.heartbeatRx v) s = .next (s.goes s.fresh)) ∧
      ((s.dev.qlp 6).up = true → ∃ t, exec (.heartbeatRx v) s = .next t ∧ t.dev.pair.hbLast = some s.dev.time.up ∧
        t.dev.pair.misses = 0 ∧ t.dev.pair.partnerMode = v.toNat % 4 ∧ t.dev.pair.takeoverWait = false ∧
        t.dev.pair.sideBad = (bit v.toNat 2 == s.dev.pair.side) ∧
        t.dev.vio.seq = s.dev.vio.seq + (if bit v.toNat 2 == s.dev.pair.side then 1 else 0) ∧
        (∀ c, s.dev.pair.commit = some c → s.dev.modes.redund = .standby →
          3 ≤ (bits v.toNat 15 3 + 8192 - c % 8192) % 8192 → t.dev.modes.redund = .resync ∧ t.dev.pair.rxBase = none) ∧
        ((s.dev.pair.commit = none ∨ s.dev.modes.redund ≠ .standby ∨
          ∃ c, s.dev.pair.commit = some c ∧ (bits v.toNat 15 3 + 8192 - c % 8192) % 8192 < 3) →
          t.dev.modes = s.dev.modes ∧ t.dev.pair.rxBase = s.dev.pair.rxBase))) ∧
    (s.dev.pair.hbLast = none → exec .heartbeatMiss s = .next (s.goes s.fresh)) ∧
    (∀ h, s.dev.pair.hbLast = some h → ∃ t, exec .heartbeatMiss s = .next t ∧
      t.dev.pair.misses = min 3 (s.dev.pair.misses + 1) ∧
      (s.dev.pair.misses ≠ 2 → t.dev.modes = s.dev.modes ∧ t.dev.pair.takeoverWait = s.dev.pair.takeoverWait) ∧
      (s.dev.pair.misses = 2 →
        t.dev.modes = { s.dev.modes with soloDue := s.dev.modes.soloDue || s.dev.modes.redund == .active } ∧
        t.dev.pair.takeoverWait = (s.dev.pair.takeoverWait || s.dev.modes.redund == .standby))) ∧
    ((s.dev.modes.redund ≠ .standby ∨ s.dev.pair.takeoverWait = false) →
      exec .ownWaitDeadline s = .next (s.goes s.fresh) ∧ exec .takeoverOwnAcquire s = .next (s.goes s.fresh)) ∧
    (s.dev.modes.redund = .standby → s.dev.pair.takeoverWait = true →
      (s.dev.ownReleased = true → exec .ownWaitDeadline s = .next (s.goes s.fresh)) ∧
      (s.dev.ownReleased = false → exec .takeoverOwnAcquire s = .next (s.goes s.fresh) ∧
        ∃ t, exec .ownWaitDeadline s = .next t ∧ t.dev.modes.redund = .resync ∧ t.dev.pair.takeoverWait = false ∧
          t.dev.pair.chainOk = false ∧ t.dev.pair.rxBase = none ∧ t.dev.pair.image = s.dev.pair.image) ∧
      (s.dev.ownReleased = true → ∃ t, exec .takeoverOwnAcquire s = .next t ∧ t.dev.modes.redund = .active ∧
        t.dev.pair.ownOut = true ∧ t.dev.pair.restoring = true ∧ t.dev.pair.takeoverWait = false ∧
        t.dev.pair.mirrorValid = false ∧ t.dev.pair.rx = none ∧ t.dev.pair.committed = [] ∧
        (∃ x, t.dev.pair.takeover = some x ∧ x.committed = s.dev.pair.commit.getD 0 ∧
          x.oldChip = s.dev.pair.partnerChip ∧ x.ownTime = s.dev.time.ns ∧ x.ready = s.dev.pair.ochre.ready) ∧
        (∀ m, s.dev.pair.committed = [] → s.dev.pair.image = some m →
          t.dev.tbl.node.slots =
            m.nodes.mapAll {} (fun _ e => { e with dlFc := min 0xFFFFFFFF (e.dlFc + s.dev.cfg.SEC_CTL_FC_SKIP) }) ∧
          t.dev.tbl.route.slots = m.routes ∧ t.dev.tbl.pfx.slots = m.pfxs ∧ t.dev.tbl.seen.slots = [] ∧
          (∀ k, k < 4 → (t.dev.pan k).fc = min 0xFFFFFFFF ((m.pans.get {} k).fc + s.dev.cfg.SEC_CTL_FC_SKIP) ∧
            (t.dev.pan k).nextFlood = ((m.pans.get {} k).nextFlood + 32768) % 65536) ∧
          t.dev.stg.cmds = [] ∧ t.dev.stg.regs = []))) ∧
    ((s.dev.pair.takeover = none ∨ s.dev.pair.restoring = false) →
      exec .takeoverRestoreDone s = .next (s.goes s.fresh)) ∧
    (∀ x, s.dev.pair.takeover = some x → s.dev.pair.restoring = true → ∃ t, exec .takeoverRestoreDone s = .next t ∧
      t.dev.pair.restoring = false ∧ t.dev.pair.firstEpoch = x.committed + 3 ∧
      t.dev.pair.dupUntil = x.committed + 2 + x.dupEpochs ∧ t.dev.pair.takeover = some x ∧
      t.dev.ev.seq = s.dev.ev.seq + s.dev.evStep ∧ t.dev.modes = s.dev.modes ∧ s.dev.sameBut [.out, .cnt, .ev, .pair] t.dev)

/-- Records are sent until acknowledged, assembled, committed and asked for, and the Ochre tests and report follow the
mirror. Rests on R551, R552, R553, R559, R561, R562, R571, R572, R574, R576. Model choices it rests on: log entries
51, 52, 53, 54, 55, 56, 58, 153, 170, 203. -/
def Obligations.RecordsMirrorTheActiveDevice : Prop :=
  ∀ (s : State),
    (∀ i type, (i = .mirFragmentRx ∧ type = 0x10) ∨ (i = .mirRecordAckRx ∧ type = 0x11) ∨ (i = .mirReqBaseRx ∧ type = 0x12) ∨
        (i = .mirBreakRx ∧ type = 0x13) ∨ (i = .mirOchreRx ∧ type = 0x14) →
      ((s.dev.links.mirIn = [] ∨ ∃ f l, s.dev.links.mirIn = f :: l ∧ f.type ≠ type) →
        exec i s = .next (s.goes s.fresh)) ∧
      (∀ f l, s.dev.links.mirIn = f :: l → f.type = type → ∃ t, exec i s = .next t ∧ t.dev.links.mirIn = l ∧
        ((i = .mirFragmentRx ∨ i = .mirBreakRx) → s.dev.runs = true →
          t = s.goes { s.fresh with links := { s.dev.links with mirIn := l } }))) ∧
    (∀ f l e k off x old, s.dev.links.mirIn = f :: l → f.type = 0x10 → s.dev.runs = false →
      fld f.payload 0 6 = e → fld f.payload 6 1 = k → fld f.payload 8 8 = off → f.payload.drop 16 = x →
      (match s.dev.pair.rx with | some r => if r.epoch = e ∧ r.kind = k then r.octets else [] | none => []) = old →
      ∃ t, exec .mirFragmentRx s = .next t ∧
      (∀ b, (off = 0 ∧ b = x) ∨ (0 < off ∧ off ≤ old.length ∧ b = old.take off ++ x) →
        (recordCommitted b = false → t.dev.pair.rx = some ⟨e, k, b⟩ ∧ t.dev.pair.commit = s.dev.pair.commit ∧
          t.dev.modes = s.dev.modes) ∧
        (∀ c, recordCommitted b = true → b.take (fld b 0x18 8 + 32) = c → t.dev.pair.rx = none ∧
          t.dev.pair.commit = some (fld c 8 6) ∧
          (∃ a, (t.dev.qlp 6).ctrl = (s.dev.qlp 6).ctrl ++ [a] ∧ a.type = 0x11 ∧
            a.payload = le 6 (fld c 8 6) ++ le 1 (fld c 6 1) ++ le 1 0) ∧
          (fld c 6 1 = 1 → t.dev.pair.rxBase = some (fld c 8 6) ∧ t.dev.modes = s.dev.modes ∧
            t.dev.pair.committed = s.dev.pair.committed ++ [⟨fld c 8 6, fld c 0x10 6, 1, c⟩]) ∧
          (fld c 6 1 ≠ 1 → s.dev.pair.commit = some (fld c 8 6 - 1) → 0 < fld c 8 6 →
            s.dev.pair.rxBase = some (fld c 0x10 6) → t.dev.modes = s.dev.modes ∧
            t.dev.pair.committed = s.dev.pair.committed ++ [⟨fld c 8 6, fld c 0x10 6, fld c 6 1, c⟩]) ∧
          (fld c 6 1 ≠ 1 → (s.dev.pair.commit ≠ some (fld c 8 6 - 1) ∨ fld c 8 6 = 0 ∨
              s.dev.pair.rxBase ≠ some (fld c 0x10 6)) →
            t.dev.pair.committed = s.dev.pair.committed ∧ t.dev.pair.rxBase = none ∧ t.dev.modes.redund = .resync)))) ∧
    (∀ f l e k, s.dev.links.mirIn = f :: l → f.type = 0x11 → fld f.payload 0 6 = e → fld f.payload 6 1 = k →
      ∃ t, exec .mirRecordAckRx s = .next t ∧
        (s.dev.modes.redund = .active → (∃ r ∈ s.dev.pair.unacked, r.epoch = e ∧ r.kind = k) →
          t.dev.pair.unacked = s.dev.pair.unacked.filter (fun r => !decide (r.epoch = e ∧ r.kind = k)) ∧
          t.dev.pair.commit = some e) ∧
        ((s.dev.modes.redund ≠ .active ∨ ∀ r ∈ s.dev.pair.unacked, r.epoch ≠ e ∨ r.kind ≠ k) →
          t.dev.pair = s.dev.pair)) ∧
    (∀ f l, s.dev.links.mirIn = f :: l →
      (f.type = 0x12 → ∃ t, exec .mirReqBaseRx s = .next t ∧ t.dev.modes = { s.dev.modes with
        activeDue := s.dev.modes.activeDue || (!s.dev.pair.sideBad && s.dev.pair.allow &&
          s.dev.modes.redund == .solo && (s.dev.qlp 6).up) }) ∧
      (f.type = 0x13 → s.dev.runs = false → ∃ t, exec .mirBreakRx s = .next t ∧ t.dev.pair.rx = none ∧
        t.dev.modes.redund = .resync ∧ t.dev.pair.rxBase = none ∧ t.dev.pair.chainOk = false ∧
        t.dev.pair.image = s.dev.pair.image) ∧
      (f.type = 0x14 → exec .mirOchreRx s = .next (s.goes { s.fresh with
        links := { s.dev.links with mirIn := l }
        pair := { s.dev.pair with partnerOchre := slice f.payload 0 64, partnerReady := bit (fld f.payload 6 1) 2 } }))) ∧
    ((s.dev.modes.redund ≠ .active ∨ ∀ r ∈ s.dev.pair.unacked, s.dev.epoch.num < r.epoch + 2) →
      exec .recordAckTimeout s = .next (s.goes s.fresh)) ∧
    (∀ r l, s.dev.modes.redund = .active → s.dev.pair.unacked = r :: l →
      (∃ y ∈ s.dev.pair.unacked, y.epoch + 2 ≤ s.dev.epoch.num) → ∃ t a, exec .recordAckTimeout s = .next t ∧
        t.dev.pair.unacked = [] ∧ t.dev.pair.broken = true ∧ t.dev.pair.chainOk = false ∧
        t.dev.pair.brokenAt = some s.dev.epoch.num ∧ t.dev.modes = s.dev.modes ∧
        (t.dev.qlp 6).ctrl = (s.dev.qlp 6).ctrl ++ [a] ∧ a.type = 0x13 ∧ a.payload = le 6 r.epoch ++ le 2 0) ∧
    ((s.dev.modes.redund ≠ .resync ∨ s.dev.pair.baseFragment = true ∨ (s.dev.qlp 6).up = false) →
      exec .reqBaseSend s = .next (s.goes s.fresh)) ∧
    (s.dev.modes.redund = .resync → s.dev.pair.baseFragment = false → (s.dev.qlp 6).up = true →
      ∃ t a, exec .reqBaseSend s = .next t ∧ (t.dev.qlp 6).ctrl = (s.dev.qlp 6).ctrl ++ [a] ∧ a.type = 0x12 ∧
        a.payload = List.replicate 8 0#8 ∧ s.dev.sameBut [.out, .freeCtr, .links] t.dev) ∧
    ((s.dev.modes.redund ≠ .active ∨ s.dev.pair.restoring = true) →
      exec .mirrorFillDone s = .next (s.goes s.fresh)) ∧
    (s.dev.modes.redund = .active → s.dev.pair.restoring = false → exec .mirrorFillDone s =
      .next (s.goes { s.fresh with pair := { s.dev.pair with mirrorValid := true } })) ∧
    (∀ (x : Fin 11) (pass : Bool) (ce : W32) (m : BitVec 11), 1#11 <<< x.val = m →
      (s.dev.runs = true → exec (.ochreTestRun x pass ce) s = .next (s.goes s.fresh)) ∧
      (x.val ∈ [0, 1, 2, 7, 9] → s.dev.testPasses x.val pass = pass) ∧
      ((s.dev.modes.redund = .standby ∨ (s.dev.modes.redund = .resync ∧ s.dev.pair.rxBase ≠ none)) →
        ∃ t, exec (.ochreTestRun x pass ce) s = .next t ∧
          (s.dev.testPasses x.val pass = true → t.dev.pair.ochre.pass = s.dev.pair.ochre.pass ||| m ∧
            t.dev.pair.ochre.fail = s.dev.pair.ochre.fail ∧ t.dev.modes = s.dev.modes) ∧
          (s.dev.testPasses x.val pass = false → t.dev.pair.ochre.fail = s.dev.pair.ochre.fail ||| m ∧
            t.dev.pair.ochre.pass = s.dev.pair.ochre.pass ∧
            t.dev.modes.redund = (if x.val = 1 then .resync else s.dev.modes.redund)) ∧
          (x.val = 0 → t.dev.pair.ochre.sramCe = min 0xFFFFFFFF (s.dev.pair.ochre.sramCe + ce.toNat)) ∧
          t.dev.tbl = s.dev.tbl))

/-- A receive ring delivers, holds or drops its head packet, and a transmit ring fetches its next chain. Rests on
R386, R527, R528, R530, R531, R532. Model choices it rests on: log entries 120, 121, 122, 123, 198. -/
def Obligations.PacketRingsDeliverAndFetch : Prop :=
  ∀ (s : State) (r : Fin 16),
    (∀ (bufs : List Nat) (a : Dev), (∀ c, c < 8 → ∀ n, (s.dev.queue (72 + 8 * r.val + c)).head? ≠ some (.bad n)) →
      { s.fresh with host := { s.dev.host with rxDescs := s.dev.host.rxDescs.set [] r.val bufs } } = a →
      (s.dev.rxClass r.val = none → exec (.rxDmaDeliver r bufs) s = .next (s.goes a)) ∧
      (∀ c h q b, s.dev.rxClass r.val = some c → 72 + 8 * r.val + c = q → (s.dev.queue q).head? = some (.host h) →
        s.dev.hostPktOctets h = b → ∃ t, exec (.rxDmaDeliver r bufs) s = .next t ∧
        (s.dev.modes.control = .shelfMember → s.dev.links.followed ≠ none →
          t.dev.queue q = (s.dev.queue q).drop 1 ∧ t.dev.host.rxWait.find (3 + r.val) = none ∧ t.dev.out = []) ∧
        (s.dev.modes.control ≠ .shelfMember → s.dev.ringOn (3 + r.val) = false →
          t = s.goes ((a.popHost r.val c).bump (Cnt.RX_RING_OFF r.val))) ∧
        (∀ posted most, s.dev.modes.control ≠ .shelfMember → s.dev.ringOn (3 + r.val) = true →
          min ((s.dev.ring (3 + r.val)).hostIdx - (s.dev.ring (3 + r.val)).devIdx).toNat (s.dev.ringSize (3 + r.val)) = posted →
          min 32 (s.dev.ringSize (3 + r.val) - 1) = most →
          (∀ k, descsFor (bufs.take posted) b.length = some k → k ≤ most →
            t.dev.queue q = (s.dev.queue q).drop 1 ∧ t.dev.host.rxWait.find (3 + r.val) = none ∧
            (∃ m, (m = [] ∨ m = [⟨.msix, 3 + r.val, []⟩]) ∧ t.dev.out = ⟨.hostDma, 3 + r.val, b⟩ ::
              ((rxDescOctets k b.length bufs k b.length).map (fun x => ⟨.ringEntry, 3 + r.val, x⟩) ++
                ⟨.ringIndex, 3 + r.val, le 8 ((s.dev.ring (3 + r.val)).devIdx + BitVec.ofNat 16 k).toNat⟩ :: m)) ∧
            (t.dev.ring (3 + r.val)).devIdx = (s.dev.ring (3 + r.val)).devIdx + BitVec.ofNat 16 k) ∧
          ((∃ k, descsFor (bufs.take posted) b.length = some k ∧ most < k) ∨
              (descsFor (bufs.take posted) b.length = none ∧ most ≤ min posted bufs.length) →
            t = s.goes ((a.popHost r.val c).bump (Cnt.RX_TOO_BIG r.val))) ∧
          (descsFor (bufs.take posted) b.length = none → min posted bufs.length < most →
            t.dev.queue q = s.dev.queue q ∧ t.dev.out = [] ∧
            (s.dev.host.rxWait.find (3 + r.val) = none →
              t.dev.host.rxWait.find (3 + r.val) = some (s.dev.time.up, c)) ∧
            (s.dev.host.rxWait.find (3 + r.val) ≠ none → t = s.goes a))))) ∧
    (s.dev.host.rxWait.find (3 + r.val) = none → exec (.rxStallTimeout r) s = .next (s.goes s.fresh)) ∧
    (∀ w, s.dev.host.rxWait.find (3 + r.val) = some w → ∃ t, exec (.rxStallTimeout r) s = .next t ∧
      t.dev.host.rxWait.find (3 + r.val) = none ∧
      t.dev.queue (72 + 8 * r.val + w.2) = (s.dev.queue (72 + 8 * r.val + w.2)).drop 1 ∧
      (∀ x, x ≠ 72 + 8 * r.val + w.2 → t.dev.queue x = s.dev.queue x) ∧
      s.dev.sameBut [.out, .host, .tm, .cnt, .ev] t.dev) ∧
    (∀ (descs : List TxDesc) (data : List Byte),
      ((s.dev.ringOn (19 + r.val) = false ∨ s.dev.modes.control ≠ .hosted ∨
          256 ≤ ((s.dev.pipeSt (s.dev.pipeOf (14 + r.val))).queues.get [] (14 + r.val)).length) →
        exec (.txRingFetch r descs data) s = .next (s.goes s.fresh)) ∧
      (∀ posted out a, s.dev.ringOn (19 + r.val) = true → s.dev.modes.control = .hosted →
        ((s.dev.pipeSt (s.dev.pipeOf (14 + r.val))).queues.get [] (14 + r.val)).length < 256 →
        s.dev.descsOut (14 + r.val) = out →
        min ((s.dev.ring (19 + r.val)).hostIdx - (s.dev.ring (19 + r.val)).devIdx).toNat (s.dev.ringSize (19 + r.val)) - out =
          posted →
        { s.fresh with host := { s.dev.host with
          txDescs := s.dev.host.txDescs.set [] r.val (descs.take posted) } } = a →
        (chainOf (descs.take posted) = .short → exec (.txRingFetch r descs data) s = .next (s.goes a)) ∧
        (∀ k, chainOf (descs.take posted) = .bad k →
          (out ≠ 0 → exec (.txRingFetch r descs data) s = .next (s.goes a)) ∧
          (out = 0 → ∃ t, exec (.txRingFetch r descs data) s = .next t ∧
            (∃ m, (m = [] ∨ m = [⟨.msix, 19 + r.val, []⟩]) ∧ t.dev.out = List.replicate k
              ⟨.ringEntry, 19 + r.val, le 2 0x8000 ++ le 2 Status.ST_BAD_PARAM.code⟩ ++ ⟨.ringIndex, 19 + r.val,
                le 8 ((s.dev.ring (19 + r.val)).devIdx + BitVec.ofNat 16 k).toNat⟩ :: m) ∧
            (t.dev.ring (19 + r.val)).devIdx = (s.dev.ring (19 + r.val)).devIdx + BitVec.ofNat 16 k ∧
            t.dev.vio.seq = s.dev.vio.seq + 1)) ∧
        (∀ k sop l x, chainOf (descs.take posted) = .good k → descs = sop :: l →
          data.take (((descs.take k).map (fun y => y.len.toNat)).foldl (· + ·) 0) = x →
          ((sop.remote = false ∨ s.dev.links.isRoot = false ∨ sop.dstChip.toNat = s.dev.elec.chipId) →
            (s.dev.bufRoom x.length = false → exec (.txRingFetch r descs data) s = .next (s.goes a)) ∧
            (s.dev.bufRoom x.length = true → exec (.txRingFetch r descs data) s = .next (s.goes (a.ingress {
                src := 14 + r.val, data := x.drop sop.wOffset.toNat, l3 := wiredL3 (x.drop sop.wOffset.toNat)
                tag := sop.tag, tsReq := sop.tsReq, descs := k })))) ∧
          (sop.remote = true → s.dev.links.isRoot = true → sop.dstChip.toNat ≠ s.dev.elec.chipId →
            (out ≠ 0 → exec (.txRingFetch r descs data) s = .next (s.goes a)) ∧
            (∀ p, out = 0 → s.dev.routeTo sop.dstChip.toNat true = some p → (s.dev.qlp p).up = true →
              x.length + 40 ≤ 9728 → ∃ t, exec (.txRingFetch r descs data) s = .next t ∧
                (∃ m, (m = [] ∨ m = [⟨.msix, 19 + r.val, []⟩]) ∧ t.dev.out = List.replicate k
                  ⟨.ringEntry, 19 + r.val, le 2 0x8000 ++ le 2 Status.ST_OK.code⟩ ++ ⟨.ringIndex, 19 + r.val,
                    le 8 ((s.dev.ring (19 + r.val)).devIdx + BitVec.ofNat 16 k).toNat⟩ :: m) ∧
                (t.dev.ring (19 + r.val)).devIdx = (s.dev.ring (19 + r.val)).devIdx + BitVec.ofNat 16 k ∧
                ((t.dev.qlp p).transit.get [] 7).length = ((s.dev.qlp p).transit.get [] 7).length + 1)))))

/-- The dispatcher takes tasks, hands each to a core once, and reports each to its producer. Rests on R33, R34, R534,
R535, R536, R537, R538, R539, R540, R541, R542. Model choices it rests on: log entries 159, 166, 199, 201. -/
def Obligations.TasksPassFromProducerToCore : Prop :=
  (∀ l : List Instr, (cycleOrder l).Perm l ∧ (cycleOrder l).Pairwise (fun x y => meetRank x ≤ meetRank y)) ∧
  (∀ (a b k1 k2 : Fin 8) (h1 h2 : W32), meetRank (.taskCancel a h1) < meetRank (.taskReady b h2) ∧
    meetRank (.taskReady b h2) < meetRank (.taskTake k1) ∧ (k1 < k2 → meetRank (.taskTake k1) < meetRank (.taskTake k2))) ∧
  ∀ (s : State) (k : Fin 8),
    (∀ desc : TaskDesc,
      ((desc.cores.toNat = 0 ∨
          desc.cores.toNat &&& s.dev.worldMask (s.dev.worldOf k.val) ≠ desc.cores.toNat) →
        exec (.taskSubmit k desc) s = .next (s.goes (s.fresh.setResult k.val 0 .ST_BAD_PARAM))) ∧
      (desc.cores.toNat ≠ 0 → desc.cores.toNat &&& s.dev.worldMask (s.dev.worldOf k.val) = desc.cores.toNat →
        (((∀ i, i < 4096 → (s.dev.slotOf i).st ≠ .free) ∨
            s.dev.groupLimit desc.group.val ≤ (s.dev.busySlots.filter (fun p => decide (p.2.group = desc.group.val))).length ∨
            512 ≤ s.dev.unreported k.val) →
          exec (.taskSubmit k desc) s = .next (s.goes ((s.fresh.setResult k.val 0 .ST_FULL).bump Cnt.TASK_FULL))) ∧
        (∀ i, i < 4096 → (s.dev.slotOf i).st = .free → (∀ j, j < i → (s.dev.slotOf j).st ≠ .free) →
          (s.dev.busySlots.filter (fun p => decide (p.2.group = desc.group.val))).length < s.dev.groupLimit desc.group.val →
          s.dev.unreported k.val < 512 → (∀ c, c < 8 → (s.dev.corePort c).waiting = false) →
          ∃ t, exec (.taskSubmit k desc) s = .next t ∧ (∀ j, j ≠ i → t.dev.slotOf j = s.dev.slotOf j) ∧
            t.dev.slotOf i = { st := if desc.hold then .held else .ready, gen := (s.dev.slotOf i).gen + 1, fn := desc.fn
                               group := desc.group.val, prio := desc.prio.val, cores := desc.cores.toNat
                               arg := desc.arg, producer := k.val
                               order := if desc.hold then 0 else s.dev.disp.readySeq } ∧
            (t.dev.corePort k.val).resHandle = i + 4096 * (((s.dev.slotOf i).gen + 1) % 2 ^ 20) ∧
            (t.dev.corePort k.val).resStatus = Status.ST_OK.code ∧ s.dev.sameBut [.out, .disp] t.dev))) ∧
    (∀ h : W32, s.dev.slotOfHandle h = none →
      exec (.taskReady k h) s = .next (s.goes (s.fresh.setResult k.val h.toNat .ST_NOT_FOUND)) ∧
      exec (.taskCancel k h) s = .next (s.goes (s.fresh.setResult k.val h.toNat .ST_NOT_FOUND)) ∧
      ∀ res, exec (.taskDone k h res) s = .next (s.goes { s.fresh with
        out := [⟨.coreReply, k.val, le 1 Status.ST_NOT_FOUND.code⟩] })) ∧
    (∀ (h : W32) i, s.dev.slotOfHandle h = some i →
      ((s.dev.slotOf i).st ≠ .held →
        exec (.taskReady k h) s = .next (s.goes (s.fresh.setResult k.val h.toNat .ST_NOT_FOUND))) ∧
      ((s.dev.slotOf i).st = .held → (∀ c, c < 8 → (s.dev.corePort c).waiting = false) →
        ∃ t, exec (.taskReady k h) s = .next t ∧
          t.dev.slotOf i = { s.dev.slotOf i with st := .ready, order := s.dev.disp.readySeq } ∧
          (t.dev.corePort k.val).resStatus = Status.ST_OK.code ∧ t.dev.disp.readySeq = s.dev.disp.readySeq + 1) ∧
      ((s.dev.slotOf i).st = .dispatched →
        exec (.taskCancel k h) s = .next (s.goes (s.fresh.setResult k.val h.toNat .ST_ALREADY_DISPATCHED))) ∧
      ((s.dev.slotOf i).st ≠ .dispatched → ∃ t, exec (.taskCancel k h) s = .next t ∧
        t.dev.slotOf i = { gen := (s.dev.slotOf i).gen } ∧
        (t.dev.corePort k.val).resStatus = Status.ST_CANCELLED_BEFORE_DISPATCH.code ∧
        (t.dev.corePort (s.dev.slotOf i).producer).cpl = (s.dev.corePort (s.dev.slotOf i).producer).cpl ++
          [⟨h.toNat, .ST_CANCELLED_BEFORE_DISPATCH, 0⟩]) ∧
      (∀ res, ((s.dev.slotOf i).st ≠ .dispatched ∨ (s.dev.slotOf i).taker ≠ k.val →
          exec (.taskDone k h res) s = .next (s.goes { s.fresh with
            out := [⟨.coreReply, k.val, le 1 Status.ST_NOT_FOUND.code⟩] })) ∧
        ((s.dev.slotOf i).st = .dispatched → (s.dev.slotOf i).taker = k.val → ∃ t, exec (.taskDone k h res) s = .next t ∧
          t.dev.slotOf i = { gen := (s.dev.slotOf i).gen } ∧ (∀ j, j ≠ i → t.dev.slotOf j = s.dev.slotOf j) ∧
          (t.dev.corePort (s.dev.slotOf i).producer).cpl = (s.dev.corePort (s.dev.slotOf i).producer).cpl ++
            [⟨h.toNat, .ST_OK, res⟩] ∧ s.dev.sameBut [.out, .disp] t.dev))) ∧
    (s.dev.pickGroup k.val = none → exec (.taskTake k) s =
      .next (s.goes (s.fresh.setCorePort k.val { s.dev.corePort k.val with waiting := true }))) ∧
    (∀ g cr i, s.dev.pickGroup k.val = some (g, cr) → s.dev.bestOf k.val g = some i → ∃ t, exec (.taskTake k) s = .next t ∧
      t.dev.slotOf i = { s.dev.slotOf i with st := .dispatched, taker := k.val } ∧
      t.dev.corePort k.val = { s.dev.corePort k.val with
        waiting := false, arg := (s.dev.slotOf i).arg, takeHandle := s.dev.handleOf i, takeFn := (s.dev.slotOf i).fn } ∧
      t.dev.disp.credit = cr.set 0 g (cr.get 0 g - 1) ∧ t.dev.disp.lastGroup = g ∧
      t.dev.out = [⟨.coreReply, k.val, le 4 (s.dev.handleOf i) ++ le 4 (s.dev.slotOf i).fn.toNat⟩]) ∧
    (s.dev.cfg.DISP_CTL_TAKE_TIMEOUT_US = 0 → exec (.taskTakeTimeout k) s = .next (s.goes s.fresh)) ∧
    ((s.dev.corePort k.val).waiting = false → exec (.coreInterruptPending k) s = .next (s.goes s.fresh) ∧
      exec (.taskTakeTimeout k) s = .next (s.goes s.fresh)) ∧
    ((s.dev.corePort k.val).waiting = true → ∃ t, exec (.coreInterruptPending k) s = .next t ∧
      t.dev.corePort k.val = { s.dev.corePort k.val with waiting := false, takeHandle := 0, takeFn := 0 } ∧
      t.dev.out = [⟨.coreReply, k.val, le 8 0⟩] ∧ s.dev.sameBut [.out, .disp] t.dev ∧
      (s.dev.cfg.DISP_CTL_TAKE_TIMEOUT_US ≠ 0 → exec (.taskTakeTimeout k) s = .next t)) ∧
    (∃ t, exec (.taskCplRead k) s = .next t ∧ (t.dev.corePort k.val).cpl = (s.dev.corePort k.val).cpl.drop 1 ∧
      ((s.dev.corePort k.val).cpl = [] → t.dev.out = [⟨.coreReply, k.val, le 16 0⟩]) ∧
      (∀ c l, (s.dev.corePort k.val).cpl = c :: l →
        t.dev.out = [⟨.coreReply, k.val, le 4 c.handle ++ le 4 c.status.code ++ le 8 c.result.toNat⟩]) ∧
      t.dev.disp.slots = s.dev.disp.slots ∧ s.dev.sameBut [.out, .disp] t.dev) ∧
    (∀ i : Fin 4096, ((s.dev.slotOf i.val).st ≠ .dispatched ∨ s.dev.cfg.DISP_CTL_WATCHDOG_MS = 0 →
        exec (.taskWatchdogExpiry i) s = .next (s.goes s.fresh)) ∧
      ((s.dev.slotOf i.val).st = .dispatched → s.dev.cfg.DISP_CTL_WATCHDOG_MS ≠ 0 →
        ∃ t, exec (.taskWatchdogExpiry i) s = .next t ∧ t.dev.slotOf i.val = { gen := (s.dev.slotOf i.val).gen } ∧
          (t.dev.corePort (s.dev.slotOf i.val).producer).cpl = (s.dev.corePort (s.dev.slotOf i.val).producer).cpl ++
            [⟨s.dev.handleOf i.val, .ST_TASK_TIMEOUT, 0⟩] ∧ s.dev.sameBut [.out, .disp, .cnt, .ev] t.dev)) ∧
    (∀ (w : World) (dram : Bool) (off : BitVec 34) (data : List Byte), s.dev.worldOf k.val = w →
      (dram = true ∨ off.toNat + data.length ≤ s.dev.sramSize w) →
      exec (.coreMemoryAccess k (some w) dram false off data) s = .next (s.goes { s.fresh with
        out := [⟨.coreReply, k.val, if dram = true then memRead s.dev.disp.dram off.toNat data.length
          else memRead s.dev.disp.sram (Dev.sramBase w + off.toNat) data.length⟩] }) ∧
      exec (.coreMemoryAccess k (some w) dram true off data) s = .next (s.goes { s.fresh with
        disp := if dram = true then { s.dev.disp with dram := memWrite s.dev.disp.dram off.toNat data }
          else { s.dev.disp with sram := memWrite s.dev.disp.sram (Dev.sramBase w + off.toNat) data } }) ∧
      ∀ (m : SMap Byte) (a i : Nat), (memWrite m a data).get 0#8 i =
        if a ≤ i ∧ i < a + data.length then data.getD (i - a) 0#8 else m.get 0#8 i)

/-- An uncorrectable error is counted and answered by its occupant; the random generator, the console, SMBus and the
reports answer as stated. Rests on R35, R414, R415, R587, R588, R590, R594, R608, R609, R618. Model choices it rests
on: log entries 8, 106, 125, 126, 128, 129, 130, 138. -/
def Obligations.StorageErrorsAndManagementAnswer : Prop :=
  ∀ (s : State),
    (∀ (o : Occupant) (n : W32), ∃ t, exec (.eccUncorrectable o n) s = .next t ∧
      (o ≠ .storedKey → t.dev.flt.fatal = (s.dev.flt.fatal || o == .secureMemory)) ∧
      (o = .storedKey → (n.toNat = 1022 ∨ n.toNat = 1023) → t.dev.flt.fatal = true) ∧
      (o = .snapshotBuffer → t.dev.out = [⟨.cfgRead, 1, []⟩] ∧ s.dev.sameBut [.out, .freeCtr, .cnt, .ev] t.dev) ∧
      (o = .descriptorCache → t.dev.host = { s.dev.host with txDescs := [], rxDescs := [] } ∧
        s.dev.sameBut [.out, .freeCtr, .cnt, .ev, .host] t.dev) ∧
      (o = .seenRow → ∀ w, w < 4 → t.dev.tbl.seen.slots.find (4 * n.toNat + w) = none) ∧
      (o = .seenRow → ∀ x, (∀ w, w < 4 → x ≠ 4 * n.toNat + w) →
        t.dev.tbl.seen.slots.find x = s.dev.tbl.seen.slots.find x) ∧
      (o = .derivedKey → t.dev.sec = { s.dev.sec with cache := s.dev.sec.cache.eraseIdx n.toNat }) ∧
      (o = .violationLog → t.dev.vio = { s.dev.vio with log := s.dev.vio.log.eraseIdx n.toNat }) ∧
      (o = .counter → Dev.isCounter n.toNat = true → t.dev.cnt.live.find n.toNat = none) ∧
      (o = .shaperState → n.toNat < s.dev.tm.numShapers →
        (t.dev.shaper n.toNat).bucket = (((s.dev.shaper n.toNat).burst * 256 : Nat) : Int)) ∧
      (o = .queueState → t.dev.queue n.toNat = [] ∧ ∀ x, x ≠ n.toNat → t.dev.queue x = s.dev.queue x) ∧
      (o = .stagedImage → t.dev.vat = { s.dev.vat with staged := none }) ∧
      (o = .taskSlot → (s.dev.slotOf n.toNat).st ≠ .free → t.dev.slotOf n.toNat = { gen := (s.dev.slotOf n.toNat).gen } ∧
        (t.dev.corePort (s.dev.slotOf n.toNat).producer).cpl = (s.dev.corePort (s.dev.slotOf n.toNat).producer).cpl ++
          [⟨s.dev.handleOf n.toNat, .ST_DROPPED, 0⟩]) ∧
      (o = .coreMemory → t.dev.out = [⟨.coreReply, 0, []⟩])) ∧
    (∃ t, exec .trngHealthFail s = .next t ∧ t.dev.sec = { s.dev.sec with trngFail := true, trngEvt := true } ∧
      t.dev.ev.seq = s.dev.ev.seq + (if s.dev.sec.trngFail then 0 else s.dev.evStep)) ∧
    ((s.dev.elec.heldBoot = none ∨ s.dev.heldReset = true) → exec .trngHealthPass s = .next (s.goes { s.fresh with
      sec := { s.dev.sec with trngFail := false, trngEvt := false }, elec := { s.dev.elec with heldBoot := none } })) ∧
    (∀ b, s.dev.elec.heldBoot = some b → s.dev.heldReset = false → exec .trngHealthPass s = .next (s.goes
      (Dev.bootFrom { s.fresh with sec := { s.dev.sec with trngFail := false, trngEvt := false }
                                   elec := { s.dev.elec with heldBoot := none } } { b with trngOk := true }))) ∧
    (∀ (f : List Byte) (env : CmdEnv),
      (s.dev.heldReset = true ∨ s.dev.elec.testEn = true → exec (.consoleFrameRx f env) s = .next (s.goes s.fresh)) ∧
      (s.dev.heldReset = false → s.dev.elec.testEn = false →
        ((slice f 0 2 ≠ [0x51#8, 0x4D#8] ∨ fld f 2 1 ≠ 1 ∨ fld f 4 2 ≠ 128 ∨ f.length ≠ 136 ∨
            fld f 134 2 ≠ Dev.crcCcitt (f.take 134)) →
          exec (.consoleFrameRx f env) s = .next (s.goes (s.fresh.bump Cnt.MGMT_FRAME_ERR))) ∧
        (slice f 0 2 = [0x51#8, 0x4D#8] → fld f 2 1 = 1 → fld f 4 2 = 128 → f.length = 136 →
          fld f 134 2 = Dev.crcCcitt (f.take 134) →
          exec (.consoleFrameRx f env) s = .next (s.goes (s.fresh.runSlot .console (slice f 6 128) env)) ∧
          (∀ h : Hdr, fld (slice f 6 128) 0 2 = Opcode.CMD_NOP.code →
            h = ⟨.console, BitVec.ofNat 32 (fld (slice f 6 128) 4 4), bit (fld (slice f 6 128) 2 2) 0,
              BitVec.ofNat 10 (fld (slice f 6 128) 8 2)⟩ →
            exec (.consoleFrameRx f env) s = exec (.cmdNop h) s)))) ∧
    ((s.dev.heldReset = true ∨ s.dev.elec.testEn = true) → exec .smbusWrite s = .next (s.goes s.fresh) ∧
      exec .smbusAlertResponse s = .next (s.goes s.fresh) ∧ ∀ c, exec (.smbusBlockRead c) s = .next (s.goes s.fresh)) ∧
    (s.dev.heldReset = false → s.dev.elec.testEn = false →
      exec .smbusWrite s = .next (s.goes { s.fresh with out := [⟨.smbus, 0, []⟩] }) ∧
      exec .smbusAlertResponse s = .next (s.goes { s.fresh with
        out := [⟨.smbus, 1, le 1 (if s.dev.pair.side then 0x5D else 0x5C)⟩] }) ∧
      (∀ c : Byte, 7 < c.toNat → exec (.smbusBlockRead c) s = .next (s.goes { s.fresh with out := [⟨.smbus, 0, []⟩] })) ∧
      (∀ (c : Byte) (v : Nat), (c = 0 ∧ v = s.dev.idDevice) ∨ (c = 1 ∧ v = s.dev.modeStatus) ∨ (c = 2 ∧ v = s.dev.faultStatus) ∨
          (c = 3 ∧ v = s.dev.tempStatus) ∨ (c = 4 ∧ v = s.dev.published.vals.get 0 Reg.POWER_EST % 65536) ∨
          (c = 5 ∧ v = s.dev.rstCause) ∨ (c = 6 ∧ v = s.dev.ddrStatus) ∨ (c = 7 ∧ v = s.dev.secStatus) →
        exec (.smbusBlockRead c) s = .next (s.goes { s.fresh with out := [⟨.smbus, 1, le 4 v⟩] }))) ∧
    (∀ tj : Int, ∃ t, exec (.thermalWarning tj) s = .next t ∧ t.dev.elec.tj = tj ∧
      t.dev.elec.peak = max s.dev.elec.peak tj ∧
      t.dev.tempWarn = decide (min (sext 8 s.dev.cfg.THERM_CTL_WARN_C) 120 ≤ tj) ∧
      t.dev.out = (if (t.dev.tempWarn || s.dev.flt.fatal) = (s.dev.tempWarn || s.dev.flt.fatal) then []
        else [⟨.alert, ofBool (t.dev.tempWarn || s.dev.flt.fatal), []⟩]) ∧ s.dev.sameBut [.out, .elec] t.dev) ∧
    exec .bootNoneReport s = .next (s.goes { s.fresh with
      out := if s.dev.elec.bootNone then [⟨.console, 5, asc "BOOT_NONE"⟩] else [] }) ∧
    exec .ddrTrainFailReport s = .next (s.goes { s.fresh with
      out := if s.dev.elec.ddrFail then [⟨.console, 5, asc "DDR_TRAIN_FAIL"⟩] else [] })

/-- Every command leaves the waiting commands, and every unit of the state it has no business with, as they were.
Rests on spec/01_architecture.md, spec/95_what_each_step_holds.md. Model choices it rests on: log entries 7, 8. -/
def Obligations.EveryCommandLeavesTheOtherUnitsAlone : Prop :=
  ∀ (c : Instr) (s t : State), exec c s = .next t → t.pending = s.pending ∧ s.dev.sameBut (touches c) t.dev

/-- A read of a low half returns it and latches the high half, and nothing else changes. Rests on R59, R453, R544,
R232, R324. Model choices it rests on: log entry 50. -/
def Obligations.LatchingReadsReturnTheLowHalf : Prop :=
  ∀ (s : State),
    exec .epochNumLoRead s = .next (s.goes (({ s.fresh with
      epoch := { s.dev.epoch with numHi := BitVec.ofNat 16 (s.dev.epoch.num / 2 ^ 32) } }).reply
        (s.dev.epoch.num % 2 ^ 32))) ∧
    exec .timeNowLoRead s = .next (s.goes (({ s.fresh with
      time := { s.dev.time with nowHi := BitVec.ofNat 32 (s.dev.time.ns / 2 ^ 32) } }).reply (s.dev.time.ns % 2 ^ 32))) ∧
    (∀ c, s.dev.pair.commit = some c → exec .pairCommitLoRead s = .next (s.goes (({ s.fresh with
      pair := { s.dev.pair with commitHi := BitVec.ofNat 16 (c / 2 ^ 32) } }).reply (c % 2 ^ 32)))) ∧
    (s.dev.pair.commit = none → exec .pairCommitLoRead s =
      .next (s.goes (({ s.fresh with pair := { s.dev.pair with commitHi := 0 } }).reply 0))) ∧
    (∀ (q : Fin 4) (w : W64),
      (if (s.dev.seq q.val).peekStaged then (s.dev.seq q.val).staged else (s.dev.seq q.val).act).get 0
        (s.dev.seq q.val).peekIndex = w →
      ∃ t, exec (.seqPeekLoRead q) s = .next t ∧ t.dev.out = [⟨.cfgRead, 0, le 4 (w.toNat % 2 ^ 32)⟩] ∧
        (t.dev.seq q.val) = { s.dev.seq q.val with peekHi := BitVec.ofNat 32 (w.toNat / 2 ^ 32) } ∧
        (∀ r, r ≠ q.val → t.dev.seq r = s.dev.seq r) ∧ s.dev.sameBut [.out, .seqs] t.dev) ∧
    (∀ (k : Fin 4) (w : W64),
      w = [s.dev.tbl.node.seed, s.dev.tbl.route.seed, s.dev.tbl.pfx.seed, s.dev.tbl.seen.seed].getD k.val 0 →
      ∃ t, exec (.tblSeedLoRead k) s = .next t ∧ t.dev.out = [⟨.cfgRead, 0, le 4 (w.toNat % 2 ^ 32)⟩] ∧
        t.dev.tbl.seedHi.get 0 k.val = BitVec.ofNat 32 (w.toNat / 2 ^ 32) ∧ t.dev.tbl.node = s.dev.tbl.node ∧
        t.dev.tbl.route = s.dev.tbl.route ∧ t.dev.tbl.pfx = s.dev.tbl.pfx ∧ t.dev.tbl.seen = s.dev.tbl.seen ∧
        s.dev.sameBut [.out, .tbl] t.dev)

/-- A misaligned, unassigned or wild access has no effect but its violation, and a read of one returns all ones or
zero. Rests on R14. Model choices it rests on: log entries 138, 198. -/
def Obligations.BadAccessesHaveNoEffectButTheLog : Prop :=
  ∀ (s : State) (off : BitVec 24) (o2 : BitVec 20),
    exec (.cfgBadWidthAccess true off) s = .next (s.goes (s.fresh.violate .VIO_CFG_WIDTH (le 4 off.toNat))) ∧
    exec (.cfgBadWidthAccess false off) s =
      .next (s.goes ((s.fresh.violate .VIO_CFG_WIDTH (le 4 off.toNat)).reply 0xFFFFFFFF)) ∧
    (regAt (cfgOffset off.toNat) = none → Dev.isCounter (cfgOffset off.toNat) = false →
      exec (.cfgUnmappedAccess true off) s = .next (s.goes (s.fresh.violate .VIO_CFG_UNMAPPED (le 4 off.toNat))) ∧
      exec (.cfgUnmappedAccess false off) s =
        .next (s.goes ((s.fresh.violate .VIO_CFG_UNMAPPED (le 4 off.toNat)).reply 0))) ∧
    (cfgOffset off.toNat = Reg.PAIR_KEEPALIVE →
      exec (.cfgUnmappedAccess true off) s = .next (s.goes (s.fresh.violate .VIO_CFG_UNMAPPED (le 4 off.toNat))) ∧
      exec (.cfgUnmappedAccess false off) s =
        .next (s.goes ((s.fresh.violate .VIO_CFG_UNMAPPED (le 4 off.toNat)).reply 0))) ∧
    (∀ w, cfgOffset off.toNat ≠ Reg.PAIR_KEEPALIVE →
      ((regAt (cfgOffset off.toNat)).isSome = true ∨ Dev.isCounter (cfgOffset off.toNat) = true) →
      exec (.cfgUnmappedAccess w off) s = .next (s.goes s.fresh)) ∧
    (∀ w, exec (.winRingBadAccess w o2) s = .next (s.goes (s.fresh.violate .VIO_CFG_WIDTH (le 4 o2.toNat)))) ∧
    (∀ (k : Fin 8) (o : Option World) (dram write : Bool) (at_ : BitVec 34) (data : List Byte),
      (o ≠ some (s.dev.worldOf k.val) ∨ (dram = false ∧ s.dev.sramSize (s.dev.worldOf k.val) < at_.toNat + data.length)) →
      exec (.coreMemoryAccess k o dram write at_ data) s =
        .next (s.goes ((s.fresh.emit .coreReply k.val []).violate .VIO_CORE_ACCESS (le 1 k.val))))

/-- A violation that is not rate-limited is counted, numbered and, while the log has room, appended with its number,
epoch and time. Rests on R580, R581, R584, R585. Model choices it rests on: log entries 19, 164. -/
def Obligations.AViolationCountsAndIsLogged : Prop :=
  ∀ (d : Dev) (v : Vio) (items : List Byte),
    ((d.violate v items).vio.seq = d.vio.seq + 1) ∧
    (d.count Cnt.VIO_TOTAL < 0xFFFFFFFF → (d.violate v items).count Cnt.VIO_TOTAL = d.count Cnt.VIO_TOTAL + 1) ∧
    ((d.violate v items).count (Cnt.VIO_CNT v.code) = min (d.count (Cnt.VIO_CNT v.code) + 1) 0xFFFFFFFF) ∧
    (d.logOverflowed = false → d.vio.log.length < 4095 →
      (v.rateLimited = false ∨ ∀ t, d.vio.lastNs.find v.code = some t → t + 1000000 ≤ d.time.up) →
      ∃ e, (d.violate v items).vio.log = d.vio.log ++ [e] ∧ e.code = v.code ∧ e.seq = d.vio.seq ∧
        e.epoch = d.epochIn (Dev.vioDomain v) ∧ e.time = d.time.ns ∧ e.detail = items) ∧
    (d.logOverflowed = true → ((d.violate v items).vio.log.length = d.vio.log.length))

/-- A write of a staged field is kept for the next boundary and leaves the value in force as it is. Rests on R8, R66,
R9. Model choices it rests on: log entry 136. -/
def Obligations.AStagedRegisterWriteWaitsForItsBoundary : Prop :=
  ∀ (s : State) (src : CfgSrc) (off : BitVec 24) (val : W32) (o : Nat) (r : RegDef),
    o = cfgOffset off.toNat → o % 4 = 0 → regAt o = some r → r.st ≠ 0 → o ≠ Reg.PTP_CTL → Dev.pairHalf o = none →
    s.dev.cfgDenied src = false → (src ≠ .host ∨ s.dev.planOwned o = false) →
    (r.name ≠ "CIN_TIGHT_A" ∧ r.name ≠ "CIN_TIGHT_B" ∨ s.dev.cin.locked = true) →
    ∃ t, exec (.registerWrite src off val) s = .next t ∧
      (∃ v, t.dev.stg.regs.find o = some v ∧
        (s.dev.lastReg o r.reset < 2 ^ 32 →
          v = (BitVec.ofNat 32 (s.dev.lastReg o r.reset) &&& ~~~ BitVec.ofNat 32 r.st) ||| (val &&& BitVec.ofNat 32 r.st))) ∧
      (∀ v, s.dev.stg.regs.find o = some v → s.dev.lastReg o r.reset = v.toNat) ∧
      (∀ v, s.dev.stg.frozenRegs.find o = some v → s.dev.stagedReg o r.reset = v.toNat ∧ t.dev.stagedReg o r.reset = v.toNat) ∧
      (∀ o', o' ≠ o → t.dev.stg.regs.find o' = s.dev.stg.regs.find o') ∧
      t.dev.stg.frozenRegs = s.dev.stg.frozenRegs ∧ t.dev.stg.hold = s.dev.stg.hold ∧ t.dev.stg.cmds = s.dev.stg.cmds ∧
      s.dev.sameBut [.out, .stg] t.dev

/-- RST_CAUSE, STAGE_CTL, PAIR_KEEPALIVE and CIN_STAGE act at once; a locked CIN_STAGE discards and logs. Rests on R8,
R13, R69, R120, R553, R599. Model choices it rests on: log entry 124. -/
def Obligations.ImmediateWritesActAtOnce : Prop :=
  ∀ (s : State),
    (∀ src, s.dev.cfgDenied src = true ↔ ∃ k : Fin 8, src = .core k ∧ 6 ≤ k.val ∧ s.dev.sec.custWorld = true) ∧
    (∀ (k : Fin 8) off v, s.dev.cfgDenied (.core k) = true → exec (.registerWrite (.core k) off v) s =
      .next (s.goes ((s.fresh.emit .coreReply k.val []).violate .VIO_CORE_ACCESS (le 1 k.val)))) ∧
    (∀ src (v : W32), s.dev.cfgDenied src = false → ∃ t, exec (.registerWrite src 0xA00000#24 v) s = .next t ∧
      t.dev.elec.por = (s.dev.elec.por && !v[1]) ∧ t.dev.elec.causeSys = (s.dev.elec.causeSys && !v[2]) ∧
      t.dev.elec.causeSupply = (s.dev.elec.causeSupply && !v[3]) ∧
      t.dev.elec.causeThermal = (s.dev.elec.causeThermal && !v[4]) ∧ t.dev.elec.tj = s.dev.elec.tj ∧
      s.dev.sameBut [.out, .elec] t.dev) ∧
    (∀ h, exec (.stageHoldWrite h) s = .next (s.goes { s.fresh with stg := { s.dev.stg with hold := h } })) ∧
    (∀ src (v : W32), s.dev.cfgDenied src = false →
      exec (.registerWrite src 0x38#24 v) s = .next (s.goes { s.fresh with stg := { s.dev.stg with hold := v[0] } })) ∧
    (∀ v, exec (.pairKeepaliveWrite v) s =
      .next (s.goes { s.fresh with pair := { s.dev.pair with keptAlive := s.dev.time.up } })) ∧
    (∀ src v, (src = .host ∨ ∃ k : Fin 8, src = .core k ∧ 2 ≤ k.val) → s.dev.cfgDenied src = false →
      exec (.registerWrite src 0x900010#24 v) s =
        .next (s.goes (s.fresh.violate .VIO_CFG_UNMAPPED (le 4 0x900010)))) ∧
    (∀ (k : Fin 8) v, k.val < 2 → exec (.registerWrite (.core k) 0x900010#24 v) s =
      .next (s.goes { s.fresh with pair := { s.dev.pair with keptAlive := s.dev.time.up } })) ∧
    (∀ (w : Fin 64) v, s.dev.cin.locked = false → ∃ t, exec (.cinStageWrite w v) s = .next t ∧
      t.dev.cin.stage.get 0 w.val = v ∧ (∀ x, x ≠ w.val → t.dev.cin.stage.get 0 x = s.dev.cin.stage.get 0 x) ∧
      t.dev.cin.locked = false ∧ s.dev.sameBut [.out, .cin] t.dev) ∧
    (∀ (w : Fin 64) v, s.dev.cin.locked = true →
      exec (.cinStageWrite w v) s = .next (s.goes (s.fresh.violate .VIO_CIN_LOCKED []))) ∧
    (∀ src (off : BitVec 24) v, s.dev.cfgDenied src = false → cfgOffset off.toNat % 4 ≠ 0 →
      exec (.registerWrite src off v) s = .next (s.goes (s.fresh.violate .VIO_CFG_WIDTH (le 4 off.toNat))))

/-- RING_ENABLE, RING_DOORBELL and MSIX_MODERATION_END complete: rings start empty, a doorbell moves the host index, a
deferred vector fires. Rests on R511. Model choices it rests on: log entries 124, 198. -/
def Obligations.RingsStartEmptyAndRefuseBadDoorbells : Prop :=
  ∀ (s : State) (n : Fin 35),
    (∀ ctl : W32, s.dev.ringOn n.val = false → ctl[31] = true → ∃ t, exec (.ringEnable n ctl) s = .next t ∧
      t.dev.ringOn n.val = true ∧ t.dev.ring n.val = { hostIdx := 0, devIdx := 0, phase := true } ∧
      t.dev.cfg.get 0x20000000#32 (Reg.HR_CTL n.val) = ctl &&& 0xFFFF0000#32 ∧
      t.dev.ringSize n.val = 2 ^ clampN 4 15 (bits ctl.toNat 30 27) ∧
      (∀ m, m ≠ n.val → t.dev.ring m = s.dev.ring m) ∧ t.dev.host.hist = s.dev.host.hist ∧
      t.dev.host.inflight = s.dev.host.inflight ∧ t.dev.vio = s.dev.vio) ∧
    (∀ ctl : W32, s.dev.ringOn n.val = false → ctl[31] = false → ∃ t, exec (.ringEnable n ctl) s = .next t ∧
      t.dev.ringOn n.val = false ∧ t.dev.cfg.get 0x20000000#32 (Reg.HR_CTL n.val) = ctl &&& 0xFFFF0000#32 ∧
      s.dev.sameBut [.out, .cfg] t.dev) ∧
    (∀ ctl : W32, s.dev.ringOn n.val = true → ∃ t, exec (.ringEnable n ctl) s = .next t ∧
      t.dev.ringOn n.val = ctl[31] ∧ t.dev.ringSize n.val = s.dev.ringSize n.val ∧ t.dev.host = s.dev.host ∧
      t.dev.vio.seq = s.dev.vio.seq + (if bits ctl.toNat 30 27 = s.dev.cfg.HR_CTL_SIZE_LOG2 n.val then 0 else 1)) ∧
    (∀ (idx : W16) (lead : Int), lead = (if n.val = 1 ∨ n.val = 2 then
          -(((s.dev.ring n.val).devIdx - (s.dev.ring n.val).hostIdx).toNat : Int)
        else (((s.dev.ring n.val).hostIdx - (s.dev.ring n.val).devIdx).toNat : Int)) →
      ((idx - (s.dev.ring n.val).hostIdx).toNat ≤ 32768 →
        lead + ((idx - (s.dev.ring n.val).hostIdx).toNat : Int) ≤ (s.dev.ringSize n.val : Int) →
        ∃ t, exec (.ringDoorbell n idx) s = .next t ∧ t.dev.ring n.val = { s.dev.ring n.val with hostIdx := idx } ∧
          (∀ m, m ≠ n.val → t.dev.ring m = s.dev.ring m) ∧ s.dev.sameBut [.out, .host] t.dev) ∧
      ((32768 < (idx - (s.dev.ring n.val).hostIdx).toNat ∨
          (s.dev.ringSize n.val : Int) < lead + ((idx - (s.dev.ring n.val).hostIdx).toNat : Int)) →
        exec (.ringDoorbell n idx) s =
          .next (s.goes ((s.fresh.violate .VIO_RING_DOORBELL (le 1 n.val)).bump Cnt.RING_DB_BAD)))) ∧
    (∀ k : Fin 64, k.val = n.val → (s.dev.ring n.val).inInterval = true →
      ∃ t, exec (.msixModerationEnd k) s = .next t ∧
        t.dev.ring n.val = { s.dev.ring n.val with
          deferred := false, inInterval := (s.dev.ring n.val).deferred && s.dev.cfg.HR_CTL_MOD_US n.val != 0 } ∧
        (∀ m, m ≠ n.val → t.dev.ring m = s.dev.ring m) ∧
        t.dev.out = (if (s.dev.ring n.val).deferred then [⟨.msix, n.val, []⟩] else []) ∧
        s.dev.sameBut [.out, .host] t.dev) ∧
    (∀ k : Fin 64, (35 ≤ k.val ∨ (s.dev.ring k.val).inInterval = false) →
      exec (.msixModerationEnd k) s = .next (s.goes s.fresh))

/-- EVENT_POST takes the oldest staged event to ring 2, and after discards reports their count. Rests on R524, R525,
R513. Model choices it rests on: log entry 20. -/
def Obligations.EventsArePostedOldestFirst : Prop :=
  ∀ (s : State),
    (∀ e t0, s.dev.modes.control = .hosted → s.dev.ev.staging = e :: t0 → s.dev.ev.lost = 0 → s.dev.ringOn 2 = true →
      s.dev.ringUsed 2 < s.dev.ringSize 2 → s.dev.count Cnt.EVT_POSTED < 0xFFFFFFFE →
      ∃ t, exec .eventPost s = .next t ∧ t.dev.ev.staging = t0 ∧ t.dev.ev.lost = 0 ∧
        t.dev.host.ring2.find ((s.dev.ring 2).devIdx.toNat % s.dev.ringSize 2) =
          some (e, (s.dev.ring 2).phase) ∧
        (∃ m, (m = [] ∨ m = [⟨.msix, 2, []⟩]) ∧ t.dev.out = ⟨.ringEntry, 2, s.dev.eventOctets e (s.dev.ring 2).phase⟩ ::
          ⟨.ringIndex, 2, le 8 ((s.dev.ring 2).devIdx + 1).toNat⟩ :: m) ∧
        (t.dev.ring 2).devIdx = (s.dev.ring 2).devIdx + 1 ∧ (t.dev.ring 2).hostIdx = (s.dev.ring 2).hostIdx ∧
        (∀ m, m ≠ 2 → t.dev.ring m = s.dev.ring m) ∧ t.dev.host.ring1 = s.dev.host.ring1 ∧
        t.dev.count Cnt.EVT_POSTED = s.dev.count Cnt.EVT_POSTED + 1) ∧
    ((s.dev.ev.staging = [] ∨ s.dev.modes.control = .standAlone ∨
        (s.dev.modes.control = .hosted ∧ (s.dev.ringOn 2 = false ∨ s.dev.ringSize 2 ≤ s.dev.ringUsed 2))) →
      exec .eventPost s = .next (s.goes s.fresh)) ∧
    (∀ e t0, s.dev.modes.control = .hosted → s.dev.ev.staging = e :: t0 → s.dev.ev.lost ≠ 0 → s.dev.ringOn 2 = true →
      s.dev.ringUsed 2 < s.dev.ringSize 2 → s.dev.count Cnt.EVT_POSTED < 0xFFFFFFFE → t0.length < 8192 →
      ∃ t e', exec .eventPost s = .next t ∧ t.dev.ev.staging = t0 ++ [e'] ∧ e'.code = .EVT_OVERFLOW ∧
        e'.data = le 4 s.dev.ev.lost ∧ t.dev.ev.lost = 0)

/-- A command is taken once: CMD_ID 0, a replay, a duplicate, a foreign source and an unlisted opcode end by rule, and
CMD_NOP answers ST_OK. Rests on R514, R515, R516, R519, R520. Model choices it rests on: log entries 15, 16, 17, 18,
165, 169, 200. -/
def Obligations.CommandsAreTakenOnceAndRefusedByRule : Prop :=
  ∀ (s : State) (h : Hdr),
    (s.fresh.accepts ⟨h, .CMD_NOP, 0, []⟩ → ∃ t, exec (.cmdNop h) s = .next t ∧
      t.dev.answered ⟨h, .CMD_NOP, 0, []⟩ .ST_OK ∧ s.dev.sameBut [.out, .cnt, .ev, .host, .links] t.dev) ∧
    (s.dev.deaf = true → ∀ o, exec (.cmdNop h) s = .next (s.goes s.fresh) ∧
      exec (.cmdUnknownOpcode h o) s = .next (s.goes s.fresh)) ∧
    (∀ d : Dev, s.dev.deaf = false → (h.path = .pcie → s.dev.cmdRoom = true) →
      d = s.fresh.fetchCmd h.path →
      (h.path ≠ .pcie → d = s.fresh) ∧
      (h.path = .pcie → (d.ring 0).devIdx = (s.dev.ring 0).devIdx + 1 ∧ (d.ring 0).hostIdx = (s.dev.ring 0).hostIdx ∧
        d.out.head? = some ⟨.ringIndex, 0, le 8 ((s.dev.ring 0).devIdx + 1).toNat⟩ ∧ s.dev.sameBut [.out, .host] d ∧
        ∀ m, m ≠ 0 → d.ring m = s.dev.ring m) ∧
      (h.cmdId = 0 → exec (.cmdNop h) s =
        .next (s.goes (d.post ⟨h.path, Opcode.CMD_NOP.code, .ST_BAD_PARAM, 0, s.dev.epoch.numPcie,
          s.dev.elec.chipId, false, []⟩))) ∧
      (h.cmdId ≠ 0 → h.remote = false →
        (∀ k, s.dev.replayOf ⟨h, .CMD_NOP, 0, []⟩ = some k → exec (.cmdNop h) s =
          .next (s.goes ((d.bump Cnt.CMD_REPLAYED).post { k with src := h.path, replayed := true })) ∧
            k.origin = s.dev.elec.chipId) ∧
        (s.dev.replayOf ⟨h, .CMD_NOP, 0, []⟩ = none →
          (s.dev.isInFlight ⟨h, .CMD_NOP, 0, []⟩ = true → s.dev.host.forgotten = [] →
            exec (.cmdNop h) s = .next (s.goes (d.bump Cnt.CMD_DUP_INFLIGHT))) ∧
          (s.dev.isInFlight ⟨h, .CMD_NOP, 0, []⟩ = false → s.dev.sourceOk ⟨h, .CMD_SEEN_FLUSH, 0, []⟩ = false →
            exec (.cmdSeenFlush h) s = .next (s.goes (d.complete ⟨h, .CMD_SEEN_FLUSH, 0, []⟩ .ST_MODE_REFUSED))))) ∧
      (∀ o : W16, exec (.cmdUnknownOpcode h o) s =
        .next (s.goes (d.post ⟨h.path, o.toNat, if h.cmdId = 0 then .ST_BAD_PARAM else .ST_UNKNOWN_OPCODE, h.cmdId,
          s.dev.epoch.numPcie, s.dev.elec.chipId, false, []⟩))))

/-- CMD_SET_PHASE is refused by the first of its rules that applies, and otherwise waits for its boundary. Rests on
R52, R408, R70. Model choices it rests on: log entries 15, 25, 26. -/
def Obligations.SetPhaseIsRefusedOrStaged : Prop :=
  ∀ (s : State) (h : Hdr) (p : List Byte), s.fresh.accepts ⟨h, .CMD_SET_PHASE, 0, p⟩ →
    (∀ ph, Dev.phaseTarget p = some ph → fld p 1 1 ≤ 1 → zeros p 2 6 = true → zeros p 0x0E 50 = true →
      ∃ t, exec (.cmdSetPhase h p) s = .next t ∧
        (if s.dev.follower = true then s.dev.replies ⟨h, .CMD_SET_PHASE, 0, p⟩ .ST_MODE_REFUSED t.dev
         else if ph = .test ∧ s.dev.modes.control = .standAlone ∧ h.path ≠ .console then
           s.dev.replies ⟨h, .CMD_SET_PHASE, 0, p⟩ .ST_MODE_REFUSED t.dev
         else if s.dev.lcAllows ph = false then s.dev.replies ⟨h, .CMD_SET_PHASE, 0, p⟩ .ST_WRONG_LIFECYCLE t.dev
         else if (ph = .startUp ∨ ph = .service ∨ ph = .recovery) ∧ s.dev.cin.locked = false then
           s.dev.replies ⟨h, .CMD_SET_PHASE, 0, p⟩ .ST_CINNABAR_UNLOCKED t.dev
         else if fld p 1 1 = 0 then s.dev.stages ⟨h, .CMD_SET_PHASE, 0, p⟩ none t.dev
         else if s.dev.freezePassed (fld p 8 6) = true then s.dev.replies ⟨h, .CMD_SET_PHASE, 0, p⟩ .ST_EPOCH_PASSED t.dev
         else s.dev.stages ⟨h, .CMD_SET_PHASE, 0, p⟩ (some (fld p 8 6)) t.dev)) ∧
    ((Dev.phaseTarget p = none ∨ 1 < fld p 1 1 ∨ zeros p 2 6 = false ∨ zeros p 0x0E 50 = false) →
      ∃ t, exec (.cmdSetPhase h p) s = .next t ∧ s.dev.replies ⟨h, .CMD_SET_PHASE, 0, p⟩ .ST_BAD_PARAM t.dev)

/-- CMD_HOST_ATTACH and CMD_PAIR_SET are answered at once or wait for a boundary. Rests on R53, R577, R66. Model
choices it rests on: log entries 15, 43. -/
def Obligations.AttachAndPairSetAreStaged : Prop :=
  ∀ (s : State) (h : Hdr),
    (s.fresh.accepts ⟨h, .CMD_HOST_ATTACH, 0, []⟩ → ∃ t, exec (.cmdHostAttach h) s = .next t ∧
      (∀ m, Dev.attachTarget h.path = some m →
        (if s.dev.modes.control = m then s.dev.replies ⟨h, .CMD_HOST_ATTACH, 0, []⟩ .ST_OK t.dev
         else if s.dev.modes.control = .standAlone then s.dev.stages ⟨h, .CMD_HOST_ATTACH, 0, []⟩ none t.dev
         else s.dev.replies ⟨h, .CMD_HOST_ATTACH, 0, []⟩ .ST_MODE_REFUSED t.dev)) ∧
      (Dev.attachTarget h.path = none → s.dev.replies ⟨h, .CMD_HOST_ATTACH, 0, []⟩ .ST_MODE_REFUSED t.dev)) ∧
    (∀ r ∈ [(Instr.cmdPairSetForbid, 0), (Instr.cmdPairSetAllow, 1)], ∀ p : List Byte,
      s.fresh.accepts ⟨h, .CMD_PAIR_SET, r.2, p⟩ → ∃ t, exec (r.1 h p) s = .next t ∧
        (if fld p 0 1 ≠ r.2 ∨ 1 < fld p 1 1 ∨ zeros p 2 6 = false ∨ zeros p 0x0E 50 = false then
           s.dev.replies ⟨h, .CMD_PAIR_SET, r.2, p⟩ .ST_BAD_PARAM t.dev
         else if fld p 1 1 = 0 then s.dev.stages ⟨h, .CMD_PAIR_SET, r.2, p⟩ none t.dev
         else if s.dev.freezePassed (fld p 8 6) = true then s.dev.replies ⟨h, .CMD_PAIR_SET, r.2, p⟩ .ST_EPOCH_PASSED t.dev
         else s.dev.stages ⟨h, .CMD_PAIR_SET, r.2, p⟩ (some (fld p 8 6)) t.dev))

/-- Every node, route and prefix command is refused by rule, staged for its boundary, or refused for want of a
rebuild. Rests on R331, R332, R333, R334, R342, R351. Model choices it rests on: log entries 15, 25, 86, 87, 153, 160,
179, 182. -/
def Obligations.TableCommandsAreRefusedOrStaged : Prop :=
  ∀ r ∈ [(Instr.cmdNodeSetAdd, Opcode.CMD_NODE_SET, 0), (Instr.cmdNodeSetDelete, Opcode.CMD_NODE_SET, 1),
      (Instr.cmdNodeSetClearQuarantine, Opcode.CMD_NODE_SET, 2), (Instr.cmdRouteSetAdd, Opcode.CMD_ROUTE_SET, 0),
      (Instr.cmdRouteSetDelete, Opcode.CMD_ROUTE_SET, 1), (Instr.cmdRouteSetClearQuarantine, Opcode.CMD_ROUTE_SET, 2),
      (Instr.cmdPrefixSetAdd, Opcode.CMD_PREFIX_SET, 0), (Instr.cmdPrefixSetDelete, Opcode.CMD_PREFIX_SET, 1),
      (Instr.cmdPrefixSetClearQuarantine, Opcode.CMD_PREFIX_SET, 2)],
    ∀ (s : State) (h : Hdr) (p : List Byte), s.fresh.accepts ⟨h, r.2.1, r.2.2, p⟩ →
      ∃ t, exec (r.1 h p) s = .next t ∧
        (if s.dev.follower = true then s.dev.replies ⟨h, r.2.1, r.2.2, p⟩ .ST_MODE_REFUSED t.dev
         else if Dev.tOp p ≠ r.2.2 ∨ 3 ≤ Dev.tFlags p ∨ zeros p 8 8 = false ∨
             s.dev.tblImageBad r.2.1 r.2.2 p = true then
           s.dev.replies ⟨h, r.2.1, r.2.2, p⟩ .ST_BAD_PARAM t.dev
         else if Dev.tFlags p = 2 then
           ((s.dev.rebuild (Dev.tblIndex r.2.1)).st = .idle →
             s.dev.replies ⟨h, r.2.1, r.2.2, p⟩ .ST_NO_REBUILD t.dev) ∧
           t.dev.tbl.node = s.dev.tbl.node ∧ t.dev.tbl.route = s.dev.tbl.route ∧ t.dev.tbl.pfx = s.dev.tbl.pfx
         else if Dev.tFlags p = 0 then s.dev.stages ⟨h, r.2.1, r.2.2, p⟩ none t.dev
         else if s.dev.freezePassed (Dev.tEpoch p) = true then
           s.dev.replies ⟨h, r.2.1, r.2.2, p⟩ .ST_EPOCH_PASSED t.dev
         else s.dev.stages ⟨h, r.2.1, r.2.2, p⟩ (some (Dev.tEpoch p)) t.dev)

/-- CMD_NODE_REKEY, CMD_TM_SET, CMD_NBR_SET and CMD_SEEN_FLUSH change nothing before their boundary. Rests on R302,
R226, R402, R436, R437. Model choices it rests on: log entries 15, 25. -/
def Obligations.RekeyTmNeighbourAndFlushAreStaged : Prop :=
  ∀ (s : State) (h : Hdr) (p : List Byte),
    (s.fresh.accepts ⟨h, .CMD_SEEN_FLUSH, 0, []⟩ → ∃ t, exec (.cmdSeenFlush h) s = .next t ∧
      s.dev.stages ⟨h, .CMD_SEEN_FLUSH, 0, []⟩ none t.dev) ∧
    (∀ r ∈ [(Instr.cmdNbrSetAdd, 0), (Instr.cmdNbrSetRemove, 1)], s.fresh.accepts ⟨h, .CMD_NBR_SET, r.2, p⟩ →
      ∃ t, exec (r.1 h p) s = .next t ∧
        (if s.dev.follower = true then s.dev.replies ⟨h, .CMD_NBR_SET, r.2, p⟩ .ST_MODE_REFUSED t.dev
         else if fld p 0 1 ≠ r.2 ∨ zeros p 1 1 = false ∨ zeros p 4 4 = false ∨ zeros p 0x10 48 = false then
           s.dev.replies ⟨h, .CMD_NBR_SET, r.2, p⟩ .ST_BAD_PARAM t.dev
         else s.dev.stages ⟨h, .CMD_NBR_SET, r.2, p⟩ none t.dev)) ∧
    (s.fresh.accepts ⟨h, .CMD_TM_SET, 0, p⟩ → ∃ t, exec (.cmdTmSet h p) s = .next t ∧
      (if s.dev.follower = true then s.dev.replies ⟨h, .CMD_TM_SET, 0, p⟩ .ST_MODE_REFUSED t.dev
       else if s.dev.tmSetBad p = true then s.dev.replies ⟨h, .CMD_TM_SET, 0, p⟩ .ST_BAD_PARAM t.dev
       else if fld p 1 1 = 0 then s.dev.stages ⟨h, .CMD_TM_SET, 0, p⟩ none t.dev
       else if s.dev.freezePassed (fld p 8 6) = true then s.dev.replies ⟨h, .CMD_TM_SET, 0, p⟩ .ST_EPOCH_PASSED t.dev
       else s.dev.stages ⟨h, .CMD_TM_SET, 0, p⟩ (some (fld p 8 6)) t.dev)) ∧
    (s.fresh.accepts ⟨h, .CMD_NODE_REKEY, 0, p⟩ → ∃ t, exec (.cmdNodeRekey h p) s = .next t ∧
      (if s.dev.follower = true then s.dev.replies ⟨h, .CMD_NODE_REKEY, 0, p⟩ .ST_MODE_REFUSED t.dev
       else if 3 < fld p 0 1 ∨ 1 < fld p 1 1 ∨ zeros p 4 4 = false ∨ zeros p 0x10 48 = false then
         s.dev.replies ⟨h, .CMD_NODE_REKEY, 0, p⟩ .ST_BAD_PARAM t.dev
       else ∀ loc, s.dev.findShort (fld p 0 1) (fld p 2 2) = some loc →
         (if fld p 0x0E 2 ≤ (s.dev.nodeAt (fld p 0 1) loc).keyEpoch then
            s.dev.replies ⟨h, .CMD_NODE_REKEY, 0, p⟩ .ST_BAD_PARAM t.dev
          else if fld p 1 1 = 0 then s.dev.stages ⟨h, .CMD_NODE_REKEY, 0, p⟩ none t.dev
          else if s.dev.freezePassed (fld p 8 6) = true then
            s.dev.replies ⟨h, .CMD_NODE_REKEY, 0, p⟩ .ST_EPOCH_PASSED t.dev
          else s.dev.stages ⟨h, .CMD_NODE_REKEY, 0, p⟩ (some (fld p 8 6)) t.dev)) ∧
      (s.dev.follower = false → fld p 0 1 ≤ 3 → fld p 1 1 ≤ 1 → zeros p 4 4 = true → zeros p 0x10 48 = true →
        s.dev.findShort (fld p 0 1) (fld p 2 2) = none →
        s.dev.replies ⟨h, .CMD_NODE_REKEY, 0, p⟩ .ST_NOT_FOUND t.dev))

/-- CMD_TABLE_REBUILD starts a rebuild with a fresh staged bank, stages its swap, and abandons it; the end of a copy
makes it ready. Rests on R341, R345, R346. Model choices it rests on: log entries 90, 160, 182. -/
def Obligations.RebuildsStartSwapAndEnd : Prop :=
  ∀ (s : State) (h : Hdr) (p : List Byte),
    (∀ r ∈ [(Instr.cmdTableRebuildCopy, 0), (Instr.cmdTableRebuildEmpty, 1)],
      s.fresh.accepts ⟨h, .CMD_TABLE_REBUILD, r.2, p⟩ → s.dev.follower = false → ∃ t, exec (r.1 h p) s = .next t ∧
        (if Dev.rebuildBad r.2 p = true then s.dev.replies ⟨h, .CMD_TABLE_REBUILD, r.2, p⟩ .ST_BAD_PARAM t.dev
         else if (s.dev.rebuild (fld p 0 1)).st ≠ .idle then s.dev.replies ⟨h, .CMD_TABLE_REBUILD, r.2, p⟩ .ST_BUSY t.dev
         else t.dev.answered ⟨h, .CMD_TABLE_REBUILD, r.2, p⟩ .ST_OK ∧
           (t.dev.rebuild (fld p 0 1)).st = (if r.2 = 0 then .copying else .ready) ∧
           (fld p 0 1 = 1 → t.dev.tbl.routeStaged.slots = [] ∧
             (bit (fld p 2 1) 1 = true → t.dev.tbl.routeStaged.seed = BitVec.ofNat 64 (fld p 0x10 8))) ∧
           (fld p 0 1 = 0 → t.dev.tbl.nodeStaged.slots = [] ∧ t.dev.tbl.nodeStaged.hints = []) ∧
           t.dev.tbl.node = s.dev.tbl.node ∧ t.dev.tbl.route = s.dev.tbl.route ∧ t.dev.tbl.pfx = s.dev.tbl.pfx)) ∧
    (s.fresh.accepts ⟨h, .CMD_TABLE_REBUILD, 2, p⟩ → s.dev.follower = false → Dev.rebuildBad 2 p = false →
      ∃ t, exec (.cmdTableRebuildSwap h p) s = .next t ∧
        (if (s.dev.rebuild (fld p 0 1)).st = .idle then
           s.dev.replies ⟨h, .CMD_TABLE_REBUILD, 2, p⟩ .ST_NO_REBUILD t.dev
         else if bit (fld p 2 1) 0 = true ∧ s.dev.freezePassed (fld p 8 6) = true then
           s.dev.replies ⟨h, .CMD_TABLE_REBUILD, 2, p⟩ .ST_EPOCH_PASSED t.dev
         else t.dev.stg.cmds = s.dev.stg.cmds ++
             [⟨⟨h, .CMD_TABLE_REBUILD, 2, p⟩, if bit (fld p 2 1) 0 = true then some (fld p 8 6) else none, false⟩] ∧
           t.dev.tbl.node = s.dev.tbl.node ∧ t.dev.tbl.route = s.dev.tbl.route ∧ t.dev.tbl.pfx = s.dev.tbl.pfx)) ∧
    (s.fresh.accepts ⟨h, .CMD_TABLE_REBUILD, 3, p⟩ → s.dev.follower = false → Dev.rebuildBad 3 p = false →
      ∃ t, exec (.cmdTableRebuildAbandon h p) s = .next t ∧ t.dev.answered ⟨h, .CMD_TABLE_REBUILD, 3, p⟩ .ST_OK ∧
        (t.dev.rebuild (fld p 0 1)).st = .idle ∧ t.dev.tbl.node = s.dev.tbl.node ∧ t.dev.tbl.route = s.dev.tbl.route ∧
        t.dev.tbl.pfx = s.dev.tbl.pfx) ∧
    (∀ k : Fin 3,
      ((s.dev.rebuild k.val).st ≠ .copying → exec (.rebuildCopyDone k) s = .next (s.goes s.fresh)) ∧
      ((s.dev.rebuild k.val).st = .copying → (s.dev.rebuild k.val).left = [] →
        s.dev.stg.cmds.any (Dev.isSwap k.val) = false →
        ∃ t, exec (.rebuildCopyDone k) s = .next t ∧ (t.dev.rebuild k.val).st = .ready ∧ t.dev.tbl.node = s.dev.tbl.node ∧
          t.dev.tbl.route = s.dev.tbl.route ∧ t.dev.tbl.pfx = s.dev.tbl.pfx ∧
          t.dev.ev.seq = s.dev.ev.seq + s.dev.evStep))

/-- A Vat image is copied, verified, staged, committed at a boundary or discarded, and the banks in force change at no
other time. Rests on R274, R275, R277, R278, R280, R232. Model choices it rests on: log entries 26, 83, 84, 135, 155,
156. -/
def Obligations.ImagesLoadVerifyCommitAndDiscard : Prop :=
  ∀ (s : State) (h : Hdr) (p : List Byte), s.dev.follower = false →
    (s.fresh.accepts ⟨h, .CMD_VAT_LOAD, 0, p⟩ → fld p 0 1 ≤ 1 → zeros p 1 7 = true → zeros p 0x14 44 = true →
      5800 ≤ fld p 0x10 4 → fld p 0x10 4 ≤ 4194304 → ∃ t, exec (.cmdVatLoad h p) s = .next t ∧
        (if s.dev.vat.loading.isSome = true then s.dev.replies ⟨h, .CMD_VAT_LOAD, 0, p⟩ .ST_BUSY t.dev
         else if s.dev.pendingCommit.isSome = true then s.dev.replies ⟨h, .CMD_VAT_LOAD, 0, p⟩ .ST_COMMIT_PENDING t.dev
         else t.dev.vat.staged = none ∧ t.dev.vat.loading = some ⟨h, .CMD_VAT_LOAD, 0, p⟩ ∧ t.dev.vat.verifying = false ∧
           t.dev.vat.inForce = s.dev.vat.inForce ∧ t.dev.host.hist = s.dev.host.hist ∧
           t.dev.host.inflight = s.dev.host.inflight ++ [⟨h, .CMD_VAT_LOAD, 0, p⟩])) ∧
    (∀ c image, s.dev.vat.loading = some c → s.dev.vat.verifying = false →
      (∃ t, exec (.vatCopyDone false image) s = .next t ∧ t.dev.answered c .ST_TRANSFER_FAIL ∧ t.dev.vat.loading = none ∧
        t.dev.vat.inForce = s.dev.vat.inForce) ∧
      (∃ t, exec (.vatCopyDone true image) s = .next t ∧ t.dev.vat.verifying = true ∧
        t.dev.vat.area = slice image 0 (fld c.p 0x10 4) ∧ t.dev.host = s.dev.host ∧
        t.dev.vat.inForce = s.dev.vat.inForce)) ∧
    (∀ c, s.dev.vat.loading = some c → s.dev.vat.verifying = true →
      ∃ t, exec .vatVerifyDone s = .next t ∧ t.dev.vat.loading = none ∧ t.dev.vat.inForce = s.dev.vat.inForce ∧
        (∀ k x i, s.dev.commandView.vatFault s.dev.vat.area (fld c.p 0x10 4) = some (k, x, i) →
          t.dev.answered c .ST_IMAGE_REFUSED (le 1 k ++ le 1 x ++ le 2 0 ++ le 4 i) ∧
          t.dev.vat.staged = s.dev.vat.staged ∧ t.dev.seqs = s.dev.seqs) ∧
        (s.dev.commandView.vatFault s.dev.vat.area (fld c.p 0x10 4) = none →
          t.dev.vat.staged = some (parseVat s.dev.vat.area) ∧
          t.dev.answered c .ST_OK (le 4 (parseVat s.dev.vat.area).planId ++ (parseVat s.dev.vat.area).digest.take 8) ∧
          ∀ q, (t.dev.seq q).act = (s.dev.seq q).act)) ∧
    (s.fresh.accepts ⟨h, .CMD_VAT_DISCARD, 0, []⟩ → s.dev.pendingCommit = none →
      ∃ t, exec (.cmdVatDiscard h) s = .next t ∧ t.dev.answered ⟨h, .CMD_VAT_DISCARD, 0, []⟩ .ST_OK ∧
        t.dev.vat = { s.dev.vat with staged := none } ∧ t.dev.seqs = s.dev.seqs) ∧
    (s.fresh.accepts ⟨h, .CMD_COMMIT, 0, p⟩ → fld p 0 1 ≤ 1 → zeros p 1 7 = true → zeros p 0x0E 2 = true →
      zeros p 0x18 40 = true → ∃ t, exec (.cmdCommit h p) s = .next t ∧
        (s.dev.vat.staged = none → s.dev.replies ⟨h, .CMD_COMMIT, 0, p⟩ .ST_NOTHING_STAGED t.dev) ∧
        (∀ v, s.dev.vat.staged = some v →
          (if slice p 0x10 8 ≠ v.digest.take 8 then s.dev.replies ⟨h, .CMD_COMMIT, 0, p⟩ .ST_DIGEST_MISMATCH t.dev
           else if s.dev.pendingCommit.isSome = true then
             s.dev.replies ⟨h, .CMD_COMMIT, 0, p⟩ .ST_COMMIT_PENDING t.dev
           else if fld p 0 1 = 0 then s.dev.stages ⟨h, .CMD_COMMIT, 0, p⟩ none t.dev
           else if s.dev.freezePassed (fld p 8 6) = true then
             s.dev.replies ⟨h, .CMD_COMMIT, 0, p⟩ .ST_EPOCH_PASSED t.dev
           else s.dev.stages ⟨h, .CMD_COMMIT, 0, p⟩ (some (fld p 8 6)) t.dev)))

/-- CMD_KEY_SET is refused by the first outcome of its order, and otherwise staged; an invalidation shows at once that
it is pending. Rests on R423, R425, R426, R408. Model choices it rests on: log entries 15, 104. -/
def Obligations.KeySetIsRefusedOrStaged : Prop :=
  ∀ (s : State) (h : Hdr) (p : List Byte) (blob : Option (List Byte)),
    ∀ r ∈ [(Instr.cmdKeySetImportSym256 h p blob, 0, slice p 0 64 ++ blob.getD []),
        (Instr.cmdKeySetImportPubPair h p blob, 1, slice p 0 64 ++ blob.getD []),
        (Instr.cmdKeySetDerive h p, 2, slice p 0 64), (Instr.cmdKeySetInvalidate h p, 3, slice p 0 64)],
      s.fresh.accepts ⟨h, .CMD_KEY_SET, r.2.1, r.2.2⟩ → ∃ t, exec r.1 s = .next t ∧
        (s.dev.sec.lc ≠ 1 → s.dev.sec.lc ≠ 2 →
          s.dev.replies ⟨h, .CMD_KEY_SET, r.2.1, r.2.2⟩ .ST_WRONG_LIFECYCLE t.dev) ∧
        ((s.dev.sec.lc = 1 ∨ s.dev.sec.lc = 2) → s.dev.sec.migrationPending = true →
          s.dev.replies ⟨h, .CMD_KEY_SET, r.2.1, r.2.2⟩ .ST_MIGRATION_PENDING t.dev) ∧
        (∀ st, s.dev.commandView.keySetRefusal ⟨h, .CMD_KEY_SET, r.2.1, r.2.2⟩ r.2.1 = some st →
          s.dev.replies ⟨h, .CMD_KEY_SET, r.2.1, r.2.2⟩ st t.dev) ∧
        (s.dev.commandView.keySetRefusal ⟨h, .CMD_KEY_SET, r.2.1, r.2.2⟩ r.2.1 = none →
          (if bit (fld r.2.2 1 1) 0 = true ∧ s.dev.freezePassed (Dev.ksEpoch r.2.2) = true then
             s.dev.replies ⟨h, .CMD_KEY_SET, r.2.1, r.2.2⟩ .ST_EPOCH_PASSED t.dev
           else
             t.dev.stg.cmds = s.dev.stg.cmds ++ [⟨⟨h, .CMD_KEY_SET, r.2.1, r.2.2⟩,
               if bit (fld r.2.2 1 1) 0 = true then some (Dev.ksEpoch r.2.2) else none, false⟩] ∧
             t.dev.host.hist = s.dev.host.hist ∧
             (r.2.1 ≠ 3 → t.dev.sec = s.dev.sec) ∧
             (r.2.1 = 3 → t.dev.key (Dev.ksSlotField r.2.2) =
                 { s.dev.key (Dev.ksSlotField r.2.2) with pendingInvalid := true } ∧
               ∀ n, n ≠ Dev.ksSlotField r.2.2 → t.dev.key n = s.dev.key n)))

/-- A record write that succeeds replaces the record in use, one that fails is tried once more, then KS_WRITE_FAIL; a
reload restores a slot. Rests on R444, R588, R428, R438. Model choices it rests on: log entries 105, 106, 161, 185. -/
def Obligations.KeystoreRecordsAreWrittenTwiceThenGivenUp : Prop :=
  ∀ (s : State),
    (s.dev.sec.write = none → ∀ ok, exec (.keystoreWriteDone ok) s = .next (s.goes s.fresh)) ∧
    (∀ w, s.dev.sec.write = some w →
      (w.migrate = none → w.cmds = [] → s.dev.sec.nextDue = false → ∃ t, exec (.keystoreWriteDone true) s = .next t ∧
        t.dev.sec.ksSlot = w.into ∧ t.dev.sec.write = none ∧ t.dev.otp = s.dev.otp ∧ t.dev.host = s.dev.host ∧
        (if w.into = 0 then t.dev.ks0 = some w.rcd ∧ t.dev.ks1 = s.dev.ks1
         else t.dev.ks1 = some w.rcd ∧ t.dev.ks0 = s.dev.ks0)) ∧
      (w.retried = false → exec (.keystoreWriteDone false) s =
        .next (s.goes { s.fresh with sec := { s.dev.sec with write := some { w with retried := true } } })) ∧
      (w.retried = true → w.migrate = none → w.cmds = [] → s.dev.sec.nextDue = false →
        s.dev.count Cnt.KS_WRITE_FAIL < 0xFFFFFFFF → ∃ t, exec (.keystoreWriteDone false) s = .next t ∧
          t.dev.sec = { s.dev.sec with write := none } ∧ t.dev.ks0 = s.dev.ks0 ∧ t.dev.ks1 = s.dev.ks1 ∧
          t.dev.count Cnt.KS_WRITE_FAIL = s.dev.count Cnt.KS_WRITE_FAIL + 1)) ∧
    (∀ n : Fin 1024, (s.dev.key n.val).reloading = false → exec (.keySlotReload n) s = .next (s.goes s.fresh)) ∧
    (∀ (n : Fin 1024) (x : KsRecord) (k : KeySlot), (s.dev.key n.val).reloading = true → s.dev.sec.ksSlot = 0 →
      s.dev.ks0 = some x → x.entries.find n.val = some k → ∃ t, exec (.keySlotReload n) s = .next t ∧
        t.dev.key n.val = { k with
          gen := (s.dev.key n.val).gen, pendingInvalid := (s.dev.key n.val).pendingInvalid, reloading := false } ∧
        (∀ m, m ≠ n.val → t.dev.key m = s.dev.key m) ∧ t.dev.ks0 = s.dev.ks0) ∧
    (s.dev.sec.kdfs = [] → exec .kdfDone s = .next (s.goes s.fresh)) ∧
    (∀ k rest, s.dev.sec.kdfs = k :: rest → ∃ t, exec .kdfDone s = .next t ∧ t.dev.sec.kdfs = rest ∧
      t.dev.sec.keys = s.dev.sec.keys ∧
      ((s.dev.key k.slot).valid = true → (s.dev.key k.slot).gen = k.gen → t.dev.sec.cache.head? = some k) ∧
      (((s.dev.key k.slot).valid = false ∨ (s.dev.key k.slot).gen ≠ k.gen) → t.dev.sec.cache = s.dev.sec.cache))

/-- CMD_KEY_MIGRATE is refused in the order of its outcomes, or starts a record for the new measurement. Rests on
R445, R446, R447. Model choices it rests on: log entries 104, 107, 161, 183. -/
def Obligations.MigrationIsRefusedInOrderOrStarts : Prop :=
  ∀ (s : State) (h : Hdr) (p : List Byte) (m : Option (List Byte)), s.fresh.accepts ⟨h, .CMD_KEY_MIGRATE, 0, p⟩ →
    ∃ t, exec (.cmdKeyMigrate h p m) s = .next t ∧
      (if s.dev.keysAllowed = false then s.dev.replies ⟨h, .CMD_KEY_MIGRATE, 0, p⟩ .ST_WRONG_LIFECYCLE t.dev
       else if s.dev.sec.migrationPending = true then s.dev.replies ⟨h, .CMD_KEY_MIGRATE, 0, p⟩ .ST_MIGRATION_PENDING t.dev
       else if s.dev.sec.write.isSome = true then s.dev.replies ⟨h, .CMD_KEY_MIGRATE, 0, p⟩ .ST_BUSY t.dev
       else if 1 < fld p 0 1 ∨ zeros p 1 7 = false ∨ zeros p 0x14 44 = false ∨ fld p 0x10 4 < 0x15E8 ∨
           4194304 < fld p 0x10 4 then
         s.dev.replies ⟨h, .CMD_KEY_MIGRATE, 0, p⟩ .ST_BAD_PARAM t.dev
       else (m = none → s.dev.replies ⟨h, .CMD_KEY_MIGRATE, 0, p⟩ .ST_TRANSFER_FAIL t.dev) ∧
         (∀ x, m = some x →
           (∀ o, s.dev.manifestBad (slice x 0 (fld p 0x10 4)) = some o →
             s.dev.replies ⟨h, .CMD_KEY_MIGRATE, 0, p⟩ .ST_MANIFEST_REFUSED t.dev (le 4 o)) ∧
           (s.dev.manifestBad (slice x 0 (fld p 0x10 4)) = none →
             (if fld x 8 4 < s.dev.otp.secMin then s.dev.replies ⟨h, .CMD_KEY_MIGRATE, 0, p⟩ .ST_ROLLBACK t.dev
              else t.dev.host.hist = s.dev.host.hist ∧ t.dev.sec.keys = s.dev.sec.keys ∧
                ∃ w, t.dev.sec.write = some w ∧ w.into = s.dev.ksOther ∧ w.retried = false ∧
                  w.migrate = some ⟨h, .CMD_KEY_MIGRATE, 0, p⟩ ∧ w.rcd.counter = s.dev.ksCounter + 1 ∧
                  w.rcd.meas = measure [Config.romDigest, slice x 0x10 48, slice x 0x40 48] ∧
                  (∀ n k, (n, k) ∈ w.rcd.entries → k.valid = true ∧ k.volatile = false ∧ bit k.usage 6 = true)))))

/-- CMD_MACSEC_SAK installs, generates and removes the SA of its port and AN, and leaves every other port alone. Rests
on R450, R488. Model choices it rests on: log entries 8, 14. -/
def Obligations.MacsecKeysAreInstalledAndRemoved : Prop :=
  ∀ (s : State) (h : Hdr) (p : List Byte),
    (∀ r ∈ [(Instr.cmdMacsecSakInstallTx, 0), (Instr.cmdMacsecSakInstallRx, 1), (Instr.cmdMacsecSakGenerateTx, 2),
        (Instr.cmdMacsecSakRemove, 3)],
      s.fresh.accepts ⟨h, .CMD_MACSEC_SAK, r.2, p⟩ → s.dev.keysAllowed = false →
        ∃ t, exec (r.1 h p) s = .next t ∧ s.dev.replies ⟨h, .CMD_MACSEC_SAK, r.2, p⟩ .ST_WRONG_LIFECYCLE t.dev) ∧
    (s.dev.keysAllowed = true → fld p 0 1 ≤ 3 → fld p 2 1 ≤ 3 → zeros p 6 2 = true → zeros p 0x38 8 = true →
      (fld p 3 1 = 0 → fld p 4 2 ≤ 1023 → s.dev.commandView.keyUsable (fld p 4 2) 5 = true →
        bit (s.dev.commandView.key (fld p 4 2)).callers (Dev.callerBit h.path) = true →
        (∀ k, s.fresh.accepts ⟨h, .CMD_MACSEC_SAK, 0, p⟩ → fld p 1 1 = 0 → s.dev.commandView.sakOf p = some k →
          ∃ t, exec (.cmdMacsecSakInstallTx h p) s = .next t ∧ t.dev.answered ⟨h, .CMD_MACSEC_SAK, 0, p⟩ .ST_OK ∧
            (t.dev.eth (fld p 0 1)).txSa.find (fld p 2 1) = some ⟨BitVec.ofNat 64 (fld p 8 8), k, fld p 4 2, 1, false⟩ ∧
            (∀ a, a ≠ fld p 2 1 → (t.dev.eth (fld p 0 1)).txSa.find a = (s.dev.eth (fld p 0 1)).txSa.find a) ∧
            (t.dev.eth (fld p 0 1)).rxSa = (s.dev.eth (fld p 0 1)).rxSa ∧
            (∀ e, e ≠ fld p 0 1 → t.dev.eth e = s.dev.eth e) ∧ t.dev.sec = s.dev.sec) ∧
        (∀ k, s.fresh.accepts ⟨h, .CMD_MACSEC_SAK, 1, p⟩ → fld p 1 1 = 1 → s.dev.commandView.sakOf p = some k →
          ∀ i scis, Dev.rxChannel (s.dev.eth (fld p 0 1)) (BitVec.ofNat 64 (fld p 8 8)) = some (i, scis) →
          ∃ t, exec (.cmdMacsecSakInstallRx h p) s = .next t ∧ t.dev.answered ⟨h, .CMD_MACSEC_SAK, 1, p⟩ .ST_OK ∧
            (t.dev.eth (fld p 0 1)).rxSci = scis ∧
            (t.dev.eth (fld p 0 1)).rxSa.find (4 * i + fld p 2 1) =
              some ⟨BitVec.ofNat 64 (fld p 8 8), k, fld p 4 2, 0, false⟩ ∧
            (t.dev.eth (fld p 0 1)).txSa = (s.dev.eth (fld p 0 1)).txSa ∧
            (∀ e, e ≠ fld p 0 1 → t.dev.eth e = s.dev.eth e) ∧ t.dev.sec = s.dev.sec) ∧
        (s.fresh.accepts ⟨h, .CMD_MACSEC_SAK, 2, p⟩ → fld p 1 1 = 2 → zeros p 0x10 40 = true →
          s.dev.sec.trngFail = false → ∃ t, exec (.cmdMacsecSakGenerateTx h p) s = .next t ∧
            (∃ sak, t.dev.answered ⟨h, .CMD_MACSEC_SAK, 2, p⟩ .ST_OK
                (slice (Config.keyWrap (s.dev.commandView.key (fld p 4 2)).key sak) 0 40) ∧
              (t.dev.eth (fld p 0 1)).txSa.find (fld p 2 1) =
                some ⟨BitVec.ofNat 64 (fld p 8 8), sak, fld p 4 2, 1, false⟩) ∧
            (∀ e, e ≠ fld p 0 1 → t.dev.eth e = s.dev.eth e) ∧ t.dev.sec = s.dev.sec)) ∧
      (s.fresh.accepts ⟨h, .CMD_MACSEC_SAK, 3, p⟩ → fld p 1 1 = 3 → fld p 3 1 = 0 → fld p 4 2 = 0 →
        zeros p 0x10 40 = true → ∃ t, exec (.cmdMacsecSakRemove h p) s = .next t ∧
          t.dev.answered ⟨h, .CMD_MACSEC_SAK, 3, p⟩ .ST_OK ∧
          (t.dev.eth (fld p 0 1)).txSa = (s.dev.eth (fld p 0 1)).txSa.del (fld p 2 1) ∧
          (t.dev.eth (fld p 0 1)).rxSa = (s.dev.eth (fld p 0 1)).rxSa ∧
          (∀ e, e ≠ fld p 0 1 → t.dev.eth e = s.dev.eth e) ∧ t.dev.sec = s.dev.sec))

/-- CMD_LC_ADVANCE, CMD_OTP_HASH, CMD_ROLLBACK_COMMIT and CMD_CINNABAR_LOCK burn what they name, once, and refuse by
rule. Rests on R408, R409, R417, R522, R121. Model choices it rests on: log entries 46, 48, 185. -/
def Obligations.OneTimeCommandsBurnWhatTheyName : Prop :=
  ∀ (s : State) (h : Hdr) (p : List Byte) (ok : Bool),
    (s.fresh.accepts ⟨h, .CMD_LC_ADVANCE, 0, p⟩ →
      (Dev.lcReachable s.dev.otp.lc (fld p 0 1) = false → ∃ t, exec (.cmdLcAdvance h p ok) s = .next t ∧
        s.dev.replies ⟨h, .CMD_LC_ADVANCE, 0, p⟩ .ST_WRONG_LIFECYCLE t.dev) ∧
      (Dev.lcReachable s.dev.otp.lc (fld p 0 1) = true → fld p 4 4 = 0x4C435631 → zeros p 1 3 = true →
        zeros p 8 8 = true → zeros p 0x10 32 = true → zeros p 0x30 16 = true →
        (fld p 0 1 = 3 ∨ fld p 0 1 = 2 ∧ (s.dev.otp.cin0Ok = true ∨ s.dev.otp.cin1Ok = true)) →
        ∃ t, exec (.cmdLcAdvance h p true) s = .next t ∧ t.dev.answered ⟨h, .CMD_LC_ADVANCE, 0, p⟩ .ST_OK ∧
          t.dev.otp = { s.dev.otp with lc := fld p 0 1 } ∧ t.dev.sec = s.dev.sec ∧ t.dev.ks0 = s.dev.ks0 ∧
          ∃ u, exec (.cmdLcAdvance h p false) s = .next u ∧ u.dev.answered ⟨h, .CMD_LC_ADVANCE, 0, p⟩ .ST_OTP_FAIL ∧
            (u.dev.otp = s.dev.otp ∨ u.dev.otp = { s.dev.otp with lc := fld p 0 1 }) ∧ u.dev.sec = s.dev.sec) ∧
      (s.dev.otp.lc < 4 → fld p 0 1 = 4 → fld p 4 4 = 0x4C435631 → zeros p 1 3 = true → zeros p 8 8 = true →
        zeros p 0x10 32 = true → zeros p 0x30 16 = true →
        ∃ t, exec (.cmdLcAdvance h p true) s = .next t ∧ t.dev.answered ⟨h, .CMD_LC_ADVANCE, 0, p⟩ .ST_OK ∧
          t.dev.otp = { s.dev.otp with siliconRoot := List.replicate 32 0xFF#8, transportKey := List.replicate 32 0xFF#8,
                                       lc := 4 } ∧
          ∃ u, exec (.cmdLcAdvance h p false) s = .next u ∧ u.dev.answered ⟨h, .CMD_LC_ADVANCE, 0, p⟩ .ST_OTP_FAIL ∧
            (u.dev.otp = s.dev.otp ∨ u.dev.otp = t.dev.otp ∨ u.dev.otp = { t.dev.otp with lc := s.dev.otp.lc })) ∧
      (s.dev.otp.lc = 0 → fld p 0 1 = 1 → fld p 4 4 = 0x4C435631 → zeros p 1 3 = true → zeros p 8 8 = true →
        zeros p 0x10 32 = false → (slice p 0x10 32).all (fun b => b == 0xFF#8) = false → zeros p 0x30 16 = true →
        s.dev.sec.trngFail = false →
        ∃ t root, exec (.cmdLcAdvance h p true) s = .next t ∧ t.dev.answered ⟨h, .CMD_LC_ADVANCE, 0, p⟩ .ST_OK ∧
          t.dev.otp = { s.dev.otp with siliconRoot := root, transportKey := slice p 0x10 32, lc := 1 })) ∧
    (s.fresh.accepts ⟨h, .CMD_OTP_HASH, 0, p⟩ → (s.dev.sec.lc = 0 ∨ s.dev.sec.lc = 1) → Dev.callerBit h.path = 0 →
      fld p 0 1 ≤ 3 → fld p 4 4 = 0x4F545048 → zeros p 0x10 48 = false → zeros p 1 3 = true → zeros p 8 8 = true →
      (fld p 0 1 ∈ s.dev.otp.spent → ∃ t, exec (.cmdOtpHash h p ok) s = .next t ∧
        s.dev.replies ⟨h, .CMD_OTP_HASH, 0, p⟩ .ST_ALREADY_SET t.dev) ∧
      (fld p 0 1 ∉ s.dev.otp.spent → (Dev.otpHashField s.dev.otp (fld p 0 1)).all (fun b => b == 0#8) = true →
        ∃ t, exec (.cmdOtpHash h p true) s = .next t ∧ t.dev.answered ⟨h, .CMD_OTP_HASH, 0, p⟩ .ST_OK ∧
          Dev.otpHashField t.dev.otp (fld p 0 1) = slice p 0x10 48 ∧
          (∀ w, w ≤ 3 → w ≠ fld p 0 1 → Dev.otpHashField t.dev.otp w = Dev.otpHashField s.dev.otp w) ∧
          t.dev.otp.lc = s.dev.otp.lc ∧ t.dev.otp.secMin = s.dev.otp.secMin)) ∧
    (s.fresh.accepts ⟨h, .CMD_ROLLBACK_COMMIT, 0, p⟩ → ∃ t, exec (.cmdRollbackCommit h p) s = .next t ∧
      (if fld p 0 4 = s.dev.sec.running ∧ zeros p 4 60 = true then
         t.dev.answered ⟨h, .CMD_ROLLBACK_COMMIT, 0, p⟩ .ST_OK ∧
         t.dev.otp = { s.dev.otp with secMin := max s.dev.otp.secMin s.dev.sec.running }
       else s.dev.replies ⟨h, .CMD_ROLLBACK_COMMIT, 0, p⟩ .ST_BAD_PARAM t.dev)) ∧
    (s.fresh.accepts ⟨h, .CMD_CINNABAR_LOCK, 0, p⟩ → ∃ t, exec (.cmdCinnabarLock h p ok) s = .next t ∧
      (if s.dev.otp.cin0Ok = true ∨ s.dev.otp.cin1Ok = true then
         s.dev.replies ⟨h, .CMD_CINNABAR_LOCK, 0, p⟩ .ST_CINNABAR_LOCKED t.dev
       else if s.dev.sec.lc ≠ 0 ∧ s.dev.sec.lc ≠ 1 then
         s.dev.replies ⟨h, .CMD_CINNABAR_LOCK, 0, p⟩ .ST_WRONG_LIFECYCLE t.dev
       else (∀ n, Dev.cinCheck s.dev.cinBlock p = some n →
           s.dev.replies ⟨h, .CMD_CINNABAR_LOCK, 0, p⟩ .ST_CINNABAR_INVALID t.dev (le 1 n)) ∧
         (Dev.cinCheck s.dev.cinBlock p = none → s.dev.otp.cin0Spent = false → ok = true →
           t.dev.answered ⟨h, .CMD_CINNABAR_LOCK, 0, p⟩ .ST_OK ∧ t.dev.otp.cin0Ok = true ∧
           t.dev.otp.cin0 = s.dev.cinBlock ∧ t.dev.otp.cin1 = s.dev.otp.cin1 ∧ t.dev.cin.locked = true)))

/-- CMD_TIME_SET acquires the scale once, CMD_TIME_RESTEP waits for a jump, CMD_TAKEOVER_READ and CMD_LOG_DRAIN hand
over what they hold. Rests on R462, R461, R569, R586, R456. Model choices it rests on: log entries 15, 57, 111, 127.
-/
def Obligations.TimeTakeoverAndLogCommands : Prop :=
  ∀ (s : State) (h : Hdr) (p : List Byte) (ok : Bool),
    (s.fresh.accepts ⟨h, .CMD_TIME_SET, 0, p⟩ → ∃ t, exec (.cmdTimeSet h p) s = .next t ∧
      (if s.dev.time.acquired = true then s.dev.replies ⟨h, .CMD_TIME_SET, 0, p⟩ .ST_ALREADY_ACQUIRED t.dev
       else t.dev.answered ⟨h, .CMD_TIME_SET, 0, p⟩ .ST_OK ∧ t.dev.time.acquired = true ∧ t.dev.time.ns = fld p 0 8 ∧
         t.dev.time.setErr = some (fld p 8 4) ∧ t.dev.time.freq = 0 ∧ t.dev.time.up = s.dev.time.up ∧
         t.dev.epoch.num = s.dev.epoch.num ∧ t.dev.epoch.gridOld = some s.dev.epoch.lenMs)) ∧
    (s.fresh.accepts ⟨h, .CMD_TIME_RESTEP, 0, p⟩ → ∃ t, exec (.cmdTimeRestep h p) s = .next t ∧
      (if zeros p 0 64 = false then s.dev.replies ⟨h, .CMD_TIME_RESTEP, 0, p⟩ .ST_BAD_PARAM t.dev
       else if s.dev.time.jumpPending = false then s.dev.replies ⟨h, .CMD_TIME_RESTEP, 0, p⟩ .ST_NO_JUMP t.dev
       else t.dev.time = { s.dev.time with
           restep := some (s.dev.time.restep.getD [])
           restepSrc := if s.dev.time.restep.isSome then s.dev.time.restepSrc else s.dev.time.source
           restepCmds := s.dev.time.restepCmds ++ [⟨h, .CMD_TIME_RESTEP, 0, p⟩] } ∧
         t.dev.host.hist = s.dev.host.hist)) ∧
    (s.fresh.accepts ⟨h, .CMD_TAKEOVER_READ, 0, p⟩ → ∃ t, exec (.cmdTakeoverRead h p ok) s = .next t ∧
      (s.dev.pair.takeover = none → s.dev.replies ⟨h, .CMD_TAKEOVER_READ, 0, p⟩ .ST_NO_TAKEOVER t.dev) ∧
      (∀ k, s.dev.pair.takeover = some k → s.dev.pair.restoring = false →
        (fld p 8 4 < (Dev.takeoverOctets k).length → s.dev.replies ⟨h, .CMD_TAKEOVER_READ, 0, p⟩ .ST_BAD_PARAM t.dev) ∧
        ((Dev.takeoverOctets k).length ≤ fld p 8 4 → zeros p 0x0C 52 = true → ok = true →
          ∃ r, t.dev.answered ⟨h, .CMD_TAKEOVER_READ, 0, p⟩ .ST_OK r ∧ fld r 0 6 = k.committed % 2 ^ 48 ∧
            s.dev.sameBut [.out, .cnt, .ev, .host, .links] t.dev))) ∧
    (s.fresh.accepts ⟨h, .CMD_LOG_DRAIN, 0, p⟩ → ∃ t, exec (.cmdLogDrain h p ok) s = .next t ∧
      (if fld p 8 4 = 0 ∨ 4096 < fld p 8 4 ∨ zeros p 12 52 = false then
         s.dev.replies ⟨h, .CMD_LOG_DRAIN, 0, p⟩ .ST_BAD_PARAM t.dev
       else if ok = false ∧ s.dev.modes.control ≠ .standAlone then
         s.dev.replies ⟨h, .CMD_LOG_DRAIN, 0, p⟩ .ST_TRANSFER_FAIL t.dev
       else t.dev.vio.log = s.dev.vio.log.drop (fld p 8 4) ∧ t.dev.vio.seq = s.dev.vio.seq ∧
         t.dev.answered ⟨h, .CMD_LOG_DRAIN, 0, p⟩ .ST_OK
           (le 4 (s.dev.vio.log.take (fld p 8 4)).length ++
             le 4 (match s.dev.vio.log.take (fld p 8 4) with | e :: _ => e.seq.toNat | [] => 0) ++
             le 1 (ofBool ((s.dev.vio.log.take (fld p 8 4)).any (fun e => e.code == 1))))))

/-- CMD_ASSOC_DECIDE answers ST_NOT_FOUND without a request, and otherwise ends the request with a response; a timed-
out request is dropped. Rests on R214, R215, R218. Model choices it rests on: log entries 74, 76, 153, 179. -/
def Obligations.AssociationIsDecidedOnce : Prop :=
  ∀ (s : State) (h : Hdr) (p : List Byte), s.dev.follower = false →
    (∀ r ∈ [(Instr.cmdAssocDecideAdmit, 0), (Instr.cmdAssocDecideDeny, 1)],
      s.fresh.accepts ⟨h, .CMD_ASSOC_DECIDE, r.2, p⟩ → fld p 0 1 ≤ 3 → fld p 1 1 = r.2 → zeros p 4 4 = true →
      zeros p 0x10 48 = true → ∃ t, exec (r.1 h p) s = .next t ∧
        (s.dev.air.assoc.find? (fun x => decide (x.pan = fld p 0 1 ∧ x.eui = BitVec.ofNat 64 (fld p 8 8))) = none →
          s.dev.replies ⟨h, .CMD_ASSOC_DECIDE, r.2, p⟩ .ST_NOT_FOUND t.dev) ∧
        (∀ q, s.dev.air.assoc.find? (fun x => decide (x.pan = fld p 0 1 ∧ x.eui = BitVec.ofNat 64 (fld p 8 8))) = some q →
          (r.2 = 0 → fld p 2 2 ≠ 0xFFFE → 0xFFEF < fld p 2 2 →
            s.dev.replies ⟨h, .CMD_ASSOC_DECIDE, r.2, p⟩ .ST_BAD_PARAM t.dev) ∧
          (r.2 = 1 → s.dev.indirectRoom (fld p 0 1) (BitVec.ofNat 64 (fld p 8 8)) = false →
            s.dev.replies ⟨h, .CMD_ASSOC_DECIDE, r.2, p⟩ .ST_INDIRECT_FULL t.dev) ∧
          (s.dev.indirectRoom (fld p 0 1) (BitVec.ofNat 64 (fld p 8 8)) = true →
            (r.2 = 1 ∨ fld p 2 2 = 0xFFFE) →
            (t.dev.air.assoc.all (fun x => !decide (x.pan = fld p 0 1 ∧ x.eui = BitVec.ofNat 64 (fld p 8 8)))) = true) ∧
          (r.2 = 1 → s.dev.indirectRoom (fld p 0 1) (BitVec.ofNat 64 (fld p 8 8)) = true →
            t.dev.answered ⟨h, .CMD_ASSOC_DECIDE, r.2, p⟩ .ST_OK ∧
            t.dev.air.indirect.length = s.dev.air.indirect.length + 1 ∧ t.dev.tbl = s.dev.tbl) ∧
          (r.2 = 0 → fld p 2 2 ≤ 0xFFEF → (s.dev.nodeAt (fld p 0 1) (fld p 2 2)).valid = false →
            (s.dev.pan (fld p 0 1)).used.get false (fld p 2 2) = false → s.dev.held (fld p 0 1) (fld p 2 2) = false →
            s.dev.findEui (fld p 0 1) (BitVec.ofNat 64 (fld p 8 8)) = none → s.dev.cfg.SEC_PAN_SLOT_EN (fld p 0 1) ≠ 0 →
            s.dev.indirectRoom (fld p 0 1) (BitVec.ofNat 64 (fld p 8 8)) = true →
            t.dev.answered ⟨h, .CMD_ASSOC_DECIDE, r.2, p⟩ .ST_OK ∧
            (t.dev.nodeAt (fld p 0 1) (fld p 2 2)).valid = true ∧
            (t.dev.nodeAt (fld p 0 1) (fld p 2 2)).eui = BitVec.ofNat 64 (fld p 8 8) ∧
            (t.dev.nodeAt (fld p 0 1) (fld p 2 2)).short = fld p 2 2 ∧
            (t.dev.nodeAt (fld p 0 1) (fld p 2 2)).keySlot = s.dev.cfg.SEC_PAN_KEY_SLOT (fld p 0 1) ∧
            (t.dev.pan (fld p 0 1)).used.get false (fld p 2 2) = true ∧
            t.dev.air.indirect.length = s.dev.air.indirect.length + 1 ∧
            (t.dev.air.assoc.all (fun x => !decide (x.pan = fld p 0 1 ∧ x.eui = BitVec.ofNat 64 (fld p 8 8)))) = true))) ∧
    (∀ (k : Fin 4) (eui : W64), ∃ t, exec (.assocDecideTimeout k eui) s = .next t ∧
      t.dev.air.assoc = s.dev.air.assoc.filter (fun x => !decide (x.pan = k.val ∧ x.eui = eui)) ∧
      t.dev.air.indirect = s.dev.air.indirect ∧ t.dev.tbl = s.dev.tbl)

/-- A sequencer issues the instruction at its index at its tick and no other; one at or behind the cut counts
SEQ_TRUNCATED. Rests on R231, R233, R234, R235, R253, R255, R258, R259. Model choices it rests on: log entries 80,
181. -/
def Obligations.SequencersIssueInOrderOrNotAtAll : Prop :=
  ∀ (s : State) (i : Instr) (q op tick args : Nat), seqRow i = some (q, op, tick, args) →
    (s.dev.seqAt q op tick args = true ↔ (s.dev.seq q).stopped = false ∧ (s.dev.seq q).inTail = false ∧
      Domain.dsp ∉ s.dev.epoch.strobes ∧ tick ≤ s.dev.tick ∧ (∃ x ∈ (s.dev.seq q).act, (s.dev.seq q).pc ≤ x.1) ∧
      ((s.dev.seq q).act.get 0 (s.dev.seq q).pc).toNat = Dev.seqWord op tick args) ∧
    (s.dev.seqAt q op tick args = false → exec i s = .next (s.goes s.fresh)) ∧
    (s.dev.seqAt q op tick args = true → (∃ k, (s.dev.seq q).cut = some k ∧ k ≤ tick) →
      exec i s = .next (s.goes (s.fresh.truncated q tick))) ∧
    (s.dev.issues q tick op args → ∃ t, exec i s = .next t ∧
      (t.dev.seq q).stopped = false ∧ (t.dev.seq q).act = (s.dev.seq q).act ∧
      (t.dev.seq q).staged = (s.dev.seq q).staged ∧ (t.dev.seq q).cut = (s.dev.seq q).cut ∧
      (∀ r, r ≠ q → t.dev.seq r = s.dev.seq r) ∧
      ((∃ x y a b n, i = .seqCond x y a b n) ∨ (t.dev.seq q).pc = (s.dev.seq q).pc + 1 +
        (if (s.dev.seq q).condA && (s.dev.seq q).condLeft == 1 then (s.dev.seq q).condN else 0)))

/-- NOP, END, COND, RX, RETUNE, CAL, RXP and SPI have their effect, are deferred or are skipped by the port's state.
Rests on R93, R100, R247, R248, R249, R251, R252, R253, R255, R260. Model choices it rests on: log entries 61, 80, 81,
177, 178. -/
def Obligations.SequencerControlAndTuning : Prop :=
  ∀ (s : State) (q : Fin 4) (tick : BitVec 24) (a : Dev), s.fresh.issued q.val tick.toNat = a →
    (∀ d : Dev, d.still → d.after = d) ∧ (s.dev.still → a.still) ∧
    (s.dev.takes (.seqNop q tick) → exec (.seqNop q tick) s = .next (s.goes a.after)) ∧
    (s.dev.takes (.seqEnd q tick) → ∃ d : Dev, exec (.seqEnd q tick) s = .next (s.goes d.after) ∧
      (s.dev.still → d.after = d) ∧ d.seq q.val = { a.seq q.val with inTail := true } ∧ a.sameBut [.seqs] d) ∧
    (∀ cond arg n : Byte, s.dev.takes (.seqCond q tick cond arg n) → ∃ (d : Dev) (c : Bool),
      exec (.seqCond q tick cond arg n) s = .next (s.goes d.after) ∧ (s.dev.still → d.after = d) ∧
      (cond = 1 → c = bit s.dev.epoch.num arg.toNat) ∧ (cond = 2 → c = bit (s.dev.cfg.SEQ_FLAGS_FLAG q.val) arg.toNat) ∧
      (cond = 3 → c = decide (s.dev.modes.phase.code = arg.toNat % 8)) ∧ (cond = 4 → c = s.dev.time.acquired) ∧
      (cond = 5 → c = s.dev.time.holdover) ∧ (d.seq q.val).condA = c ∧ (d.seq q.val).condLeft = n.toNat ∧
      (d.seq q.val).condN = n.toNat ∧ (d.seq q.val).pc = (a.seq q.val).pc + (if c then 0 else n.toNat) ∧
      a.sameBut [.seqs] d) ∧
    (s.dev.takes (.seqRx q tick) →
      (((s.dev.port q.val).st = .off ∨ (s.dev.port q.val).st = .stby) →
        exec (.seqRx q tick) s = .next (s.goes (a.bump (Cnt.SEQ_SKIPPED q.val)).after)) ∧
      ((s.dev.port q.val).st = .rx → exec (.seqRx q tick) s = .next (s.goes a.after)) ∧
      ((s.dev.port q.val).st = .idle → (s.dev.port q.val).pendCentre = none → (s.dev.port q.val).deferred = [] →
        ∃ d : Dev, exec (.seqRx q tick) s = .next (s.goes d.after) ∧ (s.dev.still → d.after = d) ∧
          (d.port q.val).st = .rx ∧ (d.port q.val).centre = (s.dev.port q.val).centre) ∧
      (a.portEngaged q.val = true → ∃ d : Dev, exec (.seqRx q tick) s = .next (s.goes d.after) ∧
        (s.dev.still → d.after = d) ∧
        d.port q.val = { s.dev.port q.val with deferred := (s.dev.port q.val).deferred ++ [.rx] })) ∧
    (∀ (home : Bool) (khz : BitVec 22) (goal : Nat), s.dev.takes (.seqRetune q tick home khz) →
      (if home then (s.dev.port q.val).home else khz.toNat) = goal →
      (((s.dev.port q.val).st = .off ∨ (s.dev.port q.val).st = .stby ∨ (s.dev.port q.val).st = .idle) →
        ∃ d : Dev, exec (.seqRetune q tick home khz) s = .next (s.goes d.after) ∧ (s.dev.still → d.after = d) ∧
          d.port q.val = { s.dev.port q.val with pendCentre := some goal }) ∧
      ((s.dev.port q.val).st = .rx → ∃ d : Dev, exec (.seqRetune q tick home khz) s = .next (s.goes d.after) ∧
        (s.dev.still → d.after = d) ∧
        (if (s.dev.port q.val).centre = goal then d = a
         else (d.port q.val).st = .retune ∧ (d.port q.val).target = goal ∧
           (d.port q.val).centre = (s.dev.port q.val).centre)) ∧
      (a.portEngaged q.val = true → ∃ d : Dev, exec (.seqRetune q tick home khz) s = .next (s.goes d.after) ∧
        (s.dev.still → d.after = d) ∧ d.port q.val =
          { s.dev.port q.val with deferred := (s.dev.port q.val).deferred ++ [.retune home khz.toNat] })) ∧
    (∀ (w : W16) (sel : BitVec 7) (run : List Nat), s.dev.takes (.seqCal q tick w sel) →
      selBits sel.toNat ++ (if (s.dev.port q.val).tempDue = true ∧ selUs sel.toNat + 3800 ≤ w.toNat then [3, 6] else []) =
        run →
      (((s.dev.port q.val).st = .off ∨ (s.dev.port q.val).st = .stby) →
        exec (.seqCal q tick w sel) s = .next (s.goes (a.bump (Cnt.SEQ_SKIPPED q.val)).after)) ∧
      (((s.dev.port q.val).st = .rx ∨ (s.dev.port q.val).st = .idle) → run = [] →
        exec (.seqCal q tick w sel) s = .next (s.goes a.after)) ∧
      (((s.dev.port q.val).st = .rx ∨ (s.dev.port q.val).st = .idle) → run ≠ [] →
        ∃ d : Dev, exec (.seqCal q tick w sel) s = .next (s.goes d.after) ∧ (s.dev.still → d.after = d) ∧
          (d.port q.val).st = .cal ∧ (d.port q.val).cal = some ⟨run, false, 0, false, none⟩) ∧
      (a.portEngaged q.val = true → ∃ d : Dev, exec (.seqCal q tick w sel) s = .next (s.goes d.after) ∧
        (s.dev.still → d.after = d) ∧ d.port q.val =
          { s.dev.port q.val with deferred := (s.dev.port q.val).deferred ++ [.cal w.toNat sel.toNat] })) ∧
    (∀ dur, s.dev.takes (.seqRxp q tick dur) → ∃ d : Dev, exec (.seqRxp q tick dur) s = .next (s.goes d.after) ∧
      (s.dev.still → d.after = d) ∧ (d.port q.val).rxp = ((s.dev.port q.val).rxp ||
        (s.dev.cfg.COEX_CTL_EN q.val == 1 && s.dev.cfg.COEX_CTL_RX_REQ q.val == 1))) ∧
    (∀ word : W32, s.dev.takes (.seqSpi q tick word) → ∃ d : Dev, exec (.seqSpi q tick word) s = .next (s.goes d.after) ∧
      (s.dev.still → d.after = d) ∧
      ((s.dev.port q.val).spi = none → (d.port q.val).spi = some ⟨word, false, none, 0⟩ ∧
        d.out.head? = some ⟨.spi, q.val, 0#8 :: be (s.dev.spiBits q.val / 8) word.toNat⟩) ∧
      (∀ x, (s.dev.port q.val).spi = some x → (d.port q.val).spi = some x ∧
        (d.port q.val).spiWait = (s.dev.port q.val).spiWait ++ [word] ∧ d.out = []))

/-- LFREQ, LMODE, CSET and CMODE set the value of a unit of their port; TX, WIN and BCN open, send, skip or count.
Rests on R172, R178, R219, R239, R240, R244, R245, R250, R260. Model choices it rests on: log entries 69, 80, 81, 177,
181. -/
def Obligations.SequencerChannelsAndSlots : Prop :=
  ∀ (s : State) (q : Fin 4) (tick : BitVec 24) (a : Dev), s.fresh.issued q.val tick.toNat = a →
    (∀ (l : Fin 192) (off : BitVec 24) (mode : Byte),
      (s.dev.lanePort l.val = some q.val →
        (s.dev.takes (.seqLfreq q tick l off) → ∃ d : Dev, exec (.seqLfreq q tick l off) s = .next (s.goes d.after) ∧
          (s.dev.still → d.after = d) ∧
          (d.lane l.val).freqOv = some (s.dev.offsetKhz q.val off) ∧ (d.lane l.val).modeOv = (s.dev.lane l.val).modeOv) ∧
        (s.dev.takes (.seqLmode q tick l mode) → ∃ d : Dev, exec (.seqLmode q tick l mode) s = .next (s.goes d.after) ∧
          (s.dev.still → d.after = d) ∧
          (d.lane l.val).modeOv = some mode.toNat ∧ (d.lane l.val).freqOv = (s.dev.lane l.val).freqOv)) ∧
      (s.dev.lanePort l.val ≠ some q.val → ∀ i ∈ [Instr.seqLfreq q tick l off, .seqLmode q tick l mode], s.dev.takes i →
        exec i s = .next (s.goes ((a.violate .VIO_SEQ_FOREIGN (le 1 q.val ++ le 1 l.val)).bump
          (Cnt.SEQ_SKIPPED q.val)).after))) ∧
    (∀ (c : Fin 16) (off : BitVec 24) (mode : Byte),
      (s.dev.carPort c.val = some q.val → (s.dev.carrier c.val).own.phase = .idle → (s.dev.carrier c.val).hold = none →
        (s.dev.carrier c.val).held = none → s.dev.exchanging c.val = false →
        (s.dev.takes (.seqCset q tick c off) → ∃ d : Dev, exec (.seqCset q tick c off) s = .next (s.goes d.after) ∧
          (s.dev.still → d.after = d) ∧
          d.carrier c.val = { s.dev.carrier c.val with freqOv := some (s.dev.offsetKhz q.val off) }) ∧
        (s.dev.takes (.seqCmode q tick c mode) → ∃ d : Dev, exec (.seqCmode q tick c mode) s = .next (s.goes d.after) ∧
          (s.dev.still → d.after = d) ∧
          d.carrier c.val = { s.dev.carrier c.val with modeOv := some mode.toNat })) ∧
      (s.dev.carPort c.val = some q.val → (s.dev.carrier c.val).own.active = true →
        (s.dev.takes (.seqCset q tick c off) → ∃ d : Dev, exec (.seqCset q tick c off) s = .next (s.goes d.after) ∧
          d.carrier c.val = { s.dev.carrier c.val with deferFreq := some (s.dev.offsetKhz q.val off) }) ∧
        (s.dev.takes (.seqCmode q tick c mode) → ∃ d : Dev, exec (.seqCmode q tick c mode) s = .next (s.goes d.after) ∧
          d.carrier c.val = { s.dev.carrier c.val with deferMode := some mode.toNat })) ∧
      (s.dev.carPort c.val ≠ some q.val → ∀ i ∈ [Instr.seqCset q tick c off, .seqCmode q tick c mode], s.dev.takes i →
        exec i s = .next (s.goes ((a.violate .VIO_SEQ_FOREIGN (le 1 q.val ++ le 1 c.val)).bump
          (Cnt.SEQ_SKIPPED q.val)).after))) ∧
    (∀ (c : Fin 16) (cls : Fin 8) (classes : Byte) (cca multi : Bool) (len : BitVec 23) (wlen : BitVec 20) (k : Fin 4)
      (nb : W16) (blen : BitVec 10),
      (∀ i ∈ [Instr.seqTx q tick c cls cca multi len, .seqWin q tick c classes wlen, .seqBcn q tick c k nb blen],
        s.dev.takes i →
        (((s.dev.port q.val).st = .off ∨ (s.dev.port q.val).st = .stby) →
          exec i s = .next (s.goes (a.bump (Cnt.SEQ_SKIPPED q.val)).after)) ∧
        ((s.dev.port q.val).st ≠ .off → (s.dev.port q.val).st ≠ .stby →
          (s.dev.modes.phase = .survey ∨ s.dev.cfg.RF_CTL_TX_INHIBIT q.val = 1) →
          exec i s = .next (s.goes (a.bump (Cnt.SLOT_INHIBITED q.val)).after))) ∧
      (s.fresh.slotBarred q.val = none → (∃ p, s.dev.carPort c.val = some p ∧ p ≠ q.val) →
        (∀ i ∈ [Instr.seqTx q tick c cls cca multi len, .seqWin q tick c classes wlen], s.dev.takes i →
          exec i s = .next (s.goes (a.bump (Cnt.TX_CARRIER_PARKED c.val)).after)) ∧
        (s.dev.takes (.seqBcn q tick c k nb blen) → exec (.seqBcn q tick c k nb blen) s =
          .next (s.goes ((a.bump (Cnt.TX_CARRIER_PARKED c.val)).logFrame c.val .ST_CARRIER_PARKED).after))) ∧
      (s.fresh.slotBarred q.val = none → s.dev.carPort c.val = some q.val → s.dev.still →
        (∀ m, s.dev.queue m = []) →
        (s.dev.takes (.seqTx q tick c cls cca multi len) →
          ∃ t, exec (.seqTx q tick c cls cca multi len) s = .next t ∧ (t.dev.carrier c.val).slot = some
            { win := false, classes := 2 ^ cls.val, cca := cca, multi := multi, openTick := tick.toNat
              close := tick.toNat + len.toNat }) ∧
        (s.dev.takes (.seqWin q tick c classes wlen) →
          ∃ t, exec (.seqWin q tick c classes wlen) s = .next t ∧ (t.dev.carrier c.val).slot = some
            { win := true, classes := classes.toNat, multi := true, openTick := tick.toNat
              close := tick.toNat + wlen.toNat })) ∧
      (s.dev.takes (.seqBcn q tick c k nb blen) → s.fresh.slotBarred q.val = none → s.dev.carPort c.val = some q.val →
        s.dev.carParked c.val false = false →
        (s.dev.cfg.PAN_CFG_EN k.val = 0 →
          exec (.seqBcn q tick c k nb blen) s = .next (s.goes (a.bump (Cnt.BCN_SKIPPED q.val)).after)) ∧
        (∀ f x pwr, s.dev.cfg.PAN_CFG_EN k.val ≠ 0 → s.dev.cfg.PAN_CFG_BCN_SEC k.val ≠ 1 →
          (s.dev.carrier c.val).hold = none → (s.dev.carrier c.val).own.phase = .idle →
          (s.dev.port q.val).st = .rx → (s.dev.port q.val).step ≠ .returning →
          s.dev.sbPermits q.val (s.dev.carKhz c.val) (s.dev.carMode c.val) = true →
          s.dev.lbtReq (s.dev.carKhz c.val) (s.dev.carMode c.val) = false → a.beaconFrame k.val c.val nb.toNat = f →
          a.modCarrier c.val (fun y => { y with
            own := { phase := .backoff, cur := some f }, bcnClose := tick.toNat + 100 * blen.toNat }) = x →
          x.decideCheck c.val false f = none → x.powerOf c.val false f = some pwr →
          ∃ (d : Dev) (g : TxFrame), exec (.seqBcn q tick c k nb blen) s = .next (s.goes d.after) ∧
            (d.carrier c.val).own.phase = .txpre ∧ (d.carrier c.val).own.cur = some g ∧ g.kind = .beacon ∧
            g.pan = k.val ∧ g.seqNo = (s.dev.pan k.val).bsn ∧ g.nextBcn = nb.toNat ∧ g.granted = pwr ∧
            (d.port q.val).st = .txpre)))

/-- CMD_FEM_SPI, CMD_RF_CAL and CMD_RF_TEST_TX are refused by the first rule that applies, or start what they name.
Rests on R91, R92, R94, R101, R102, R192, R193. Model choices it rests on: log entries 62, 63, 64, 143, 146, 176, 178.
-/
def Obligations.RfCommandsAreRefusedOrRun : Prop :=
  ∀ (s : State) (h : Hdr) (p : List Byte),
    (∀ d : Dev, d.still → d.after = d) ∧
    (∀ r ∈ [(Instr.cmdFemSpiWrite, false), (Instr.cmdFemSpiRead, true)], ∀ c : Cmd, c = ⟨h, .CMD_FEM_SPI, ofBool r.2, p⟩ →
      s.fresh.accepts c → ∃ t, exec (r.1 h p) s = .next t ∧
        (if 3 < fld p 0 1 ∨ fld p 1 1 ≠ ofBool r.2 ∨ zeros p 2 2 = false ∨ zeros p 8 56 = false then
           s.dev.replies c .ST_BAD_PARAM t.dev
         else if (s.dev.port (fld p 0 1)).st = .cal then s.dev.replies c .ST_CAL_BUSY t.dev
         else if ((s.dev.port (fld p 0 1)).st = .off ∨ (s.dev.port (fld p 0 1)).st = .stby ∨
             (s.dev.port (fld p 0 1)).st = .idle) ∧ (s.dev.port (fld p 0 1)).spiWait = [] then
           ((s.dev.port (fld p 0 1)).spi = none → t.dev.port (fld p 0 1) = { s.dev.port (fld p 0 1) with
             spi := some ⟨BitVec.ofNat 32 (fld p 4 4), r.2, some c, 0⟩ }) ∧
           ((s.dev.port (fld p 0 1)).spi ≠ none → t.dev.port (fld p 0 1) = { s.dev.port (fld p 0 1) with
             spiHost := (s.dev.port (fld p 0 1)).spiHost ++ [⟨BitVec.ofNat 32 (fld p 4 4), r.2, some c, 0⟩] }) ∧
           (∀ q, q ≠ fld p 0 1 → t.dev.port q = s.dev.port q) ∧
           t.dev.host.inflight = s.dev.host.inflight ++ [c] ∧ t.dev.host.hist = s.dev.host.hist ∧
           s.dev.sameBut [.out, .cnt, .ev, .host, .ports] t.dev
         else s.dev.replies c .ST_PORT_BUSY t.dev)) ∧
    (∀ (q : Fin 4) (rdata : W32) (ok : Bool),
      ((s.dev.port q.val).spi = none → exec (.femSpiDone q rdata ok) s = .next (s.goes s.fresh.after)) ∧
      (∀ x, (s.dev.port q.val).spi = some x → ∃ d : Dev, exec (.femSpiDone q rdata ok) s = .next (s.goes d.after) ∧
        (s.dev.still → SMap.rising s.dev.txc = true → d.after = d) ∧
        ((x.read = true ∨ s.dev.cfg.FEM_SPI_CTL_VERIFY q.val = 0 ∨ ok = true) →
          (∀ c, x.host = some c → d.answered c .ST_OK (if x.read = true then
            le 4 (if s.dev.cfg.FEM_SPI_CTL_RDATA16 q.val = 1 then rdata.toNat % 65536 else rdata.toNat % 256) else [])) ∧
          ((s.dev.port q.val).spiWait = [] → (s.dev.port q.val).spiHost = [] → (d.port q.val).spi = none) ∧
          (∀ w l, (s.dev.port q.val).spiWait = w :: l →
            (d.port q.val).spi = some ⟨w, false, none, 0⟩ ∧ (d.port q.val).spiWait = l) ∧
          (∀ y l, (s.dev.port q.val).spiWait = [] → (s.dev.port q.val).spiHost = y :: l →
            (d.port q.val).spi = some y ∧ (d.port q.val).spiHost = l)) ∧
        (x.read = false → s.dev.cfg.FEM_SPI_CTL_VERIFY q.val ≠ 0 → ok = false → x.attempt = 0 →
          d.port q.val = { s.dev.port q.val with spi := some { x with attempt := 1 } }) ∧
        (x.read = false → s.dev.cfg.FEM_SPI_CTL_VERIFY q.val ≠ 0 → ok = false → x.attempt ≠ 0 →
          (d.port q.val).fault = true ∧ ((d.port q.val).st = .off ∨ (d.port q.val).st = .stby)))) ∧
    (∀ c : Cmd, c = ⟨h, .CMD_RF_CAL, 0, p⟩ → s.fresh.accepts c → ∃ t, exec (.cmdRfCal h p) s = .next t ∧
      (if (s.dev.modes.phase ≠ .survey ∧ s.dev.modes.phase ≠ .test) ∨ s.dev.follower = true then
         s.dev.replies c .ST_MODE_REFUSED t.dev
       else if 3 < fld p 0 1 ∨ bit (fld p 1 1) 7 = true ∨ zeros p 2 62 = false then s.dev.replies c .ST_BAD_PARAM t.dev
       else if fld p 1 1 = 0 then s.dev.replies c .ST_OK t.dev
       else if (s.dev.port (fld p 0 1)).st = .cal then s.dev.replies c .ST_CAL_BUSY t.dev
       else if ((s.dev.port (fld p 0 1)).st ≠ .rx ∧ (s.dev.port (fld p 0 1)).st ≠ .idle) ∨
           (∃ b, s.dev.nextUse (fld p 0 1) Dev.usesPort = some b ∧ b ≤ s.dev.now + (selUs (fld p 1 1) + 1) * 1000) then
         s.dev.replies c .ST_PORT_BUSY t.dev
       else (t.dev.port (fld p 0 1)).st = .cal ∧
         (t.dev.port (fld p 0 1)).cal = some ⟨selBits (fld p 1 1), false, 0, false, some c⟩ ∧
         t.dev.host.inflight = s.dev.host.inflight ++ [c] ∧ t.dev.host.hist = s.dev.host.hist)) ∧
    (∀ (q : Fin 4) (m1 m2 : BitVec 7) (temp : Int),
      ((s.dev.port q.val).st ≠ .cal → exec (.calDone q m1 m2 temp) s = .next (s.goes s.fresh.after)) ∧
      (∀ x failed, (s.dev.port q.val).st = .cal → (s.dev.port q.val).cal = some x →
        failed = x.left.filter (fun i => bit m1.toNat i && bit m2.toNat i) →
        ∃ d : Dev, exec (.calDone q m1 m2 temp) s = .next (s.goes d.after) ∧ (s.dev.still → d.after = d) ∧
          (d.port q.val).calTempC = (if 3 ∈ x.left ∧ 3 ∉ failed then temp else (s.dev.port q.val).calTempC) ∧
          (d.port q.val).calTxTempC = (if 6 ∈ x.left ∧ 6 ∉ failed then temp else (s.dev.port q.val).calTxTempC) ∧
          (d.port q.val).calFail = !failed.isEmpty ∧ (d.port q.val).calFailed = bitsOf failed ∧
          (x.startup = true → (d.port q.val).coeffs = failed.isEmpty ∧ (d.port q.val).calHold = !failed.isEmpty ∧
            (d.port q.val).st = if failed.isEmpty then .idle else .stby) ∧
          (x.startup = false → (d.port q.val).coeffs = (s.dev.port q.val).coeffs ∧
            ∀ c, x.host = some c → d.answered c .ST_OK))) ∧
    (∀ (level : Int) (k : Cmd) (q c : Nat), k = ⟨h, .CMD_RF_TEST_TX, 0, p⟩ → q = fld p 0 1 → c = fld p 1 1 →
      s.fresh.accepts k → ∃ d : Dev, exec (.cmdRfTestTx h p level) s = .next (s.goes d.after) ∧ (s.dev.still → d.after = d) ∧
        (if s.dev.modes.phase ≠ .test ∨ s.dev.follower = true then s.dev.replies k .ST_MODE_REFUSED d
         else if s.dev.testBad p = true then s.dev.replies k .ST_BAD_PARAM d
         else if (s.dev.port q).st = .cal then s.dev.replies k .ST_CAL_BUSY d
         else if (s.dev.port q).st = .retune ∨ (s.dev.port q).st = .txpre ∨ (s.dev.port q).st = .tx then
           s.dev.replies k .ST_PORT_BUSY d
         else if (s.dev.carrier c).own.phase ≠ .idle ∨ (s.dev.carrier c).hold ≠ none ∨ (s.dev.carrier c).test ≠ none then
           (∀ x, d.carrier x = s.dev.carrier x) ∧ ∀ e : Dev,
             e = s.dev.modCarrier c (fun y => { y with
               testKhz := if fld p 0x0C 4 = 0 then y.testKhz else some (fld p 0x0C 4) }) →
             d.answered k (if e.carParked c false = true ∨ e.sbPermits q (e.carKhz c) (e.carMode c) = false then
               .ST_SUBBAND_OFF else .ST_PORT_BUSY)
         else ∀ (o : List Byte × Dev) (f : TxFrame) (e : Dev) (v : Int),
           o = (if fld p 2 1 = 2 then (s.fresh.taken k).freeOctets (fld p 6 2) else ([], s.fresh.taken k)) →
           f = { kind := .test, durUs := fld p 8 4, power := some (sext 16 (fld p 4 2)), testSig := fld p 2 1
                 testLen := fld p 6 2, payload := o.1 } →
           e = (o.2.holdCmd k).modCarrier c (fun y => { y with
             test := some k, testKhz := if fld p 0x0C 4 = 0 then none else some (fld p 0x0C 4)
             own := { phase := .cca, cur := some f } }) →
           e.lbtReq (e.carKhz c) (e.carMode c) = false → e.decideCheck c false f = none → e.powerOf c false f = some v →
           (d.carrier c).own.phase = .txpre ∧ (d.carrier c).own.granted = v ∧ (d.port q).st = .txpre)) ∧
    (∀ c : Fin 16,
      (∀ f k, (s.dev.carrier c.val).own.phase = .onAir → (s.dev.carrier c.val).own.cur = some f →
        (s.dev.carrier c.val).test = some k →
        (∃ d : Dev, exec (.testTxEnd c) s = .next (s.goes d.after) ∧ (d.carrier c.val).own.phase = .idle ∧
          (d.carrier c.val).test = some k ∧ (d.carrier c.val).testPwr = some f.granted) ∧
        (∀ q : Fin 4, s.dev.carPort c.val = some q.val →
          ((s.dev.port q.val).st = .tx ∨ (s.dev.port q.val).st = .txpre) → (s.dev.port q.val).denied = [] →
          SMap.rising s.dev.txc = true → (s.dev.carrier c.val).hold = none →
          (∀ x, x ≠ c.val → (s.dev.carrier x).hold = none ∧ (s.dev.carrier x).own.phase = .idle) →
          ∃ d : Dev, exec (.testTxEnd c) s = .next (s.goes d.after) ∧ (d.carrier c.val).testPort = q.val ∧
            d.host = s.dev.host ∧ (d.port q.val).st = (s.dev.port q.val).st ∧ (d.port q.val).step = .returning)) ∧
      ((s.dev.carrier c.val).own.phase ≠ .onAir ∨ (s.dev.carrier c.val).test = none →
        exec (.testTxEnd c) s = .next (s.goes s.fresh.after)))

/-- Power-up, power-down, lock, temperature, AGC, the return to RX and the coexistence lines move a port as the rules
say. Rests on R86, R93, R99, R103, R106, R107, R109, R110, R247, R547. Model choices it rests on: log entries 60, 61,
140, 141, 176. -/
def Obligations.PortsMoveAsTheirEventsSay : Prop :=
  ∀ (s : State) (p : Fin 4),
    ((s.dev.port p.val).st = .off → s.dev.cfg.RF_CTL_ENABLE p.val = 1 → s.dev.runs = true → s.dev.modes.decided = true →
      ∃ t, exec (.portPowerUp p) s = .next t ∧
        (s.dev.pair.gateOpen = true → (s.dev.port p.val).fault = false → (s.dev.port p.val).calHold = false →
          (s.dev.port p.val).coeffs = true → (t.dev.port p.val).st = .stby ∧ (t.dev.port p.val).step = .locking) ∧
        (s.dev.pair.gateOpen = false → (t.dev.port p.val).st = .stby) ∧
        (s.dev.pair.gateOpen = true → (s.dev.port p.val).fault = false → (s.dev.port p.val).calHold = false →
          (s.dev.port p.val).coeffs = false →
          (t.dev.port p.val).st = .cal ∧ (t.dev.port p.val).cal = some ⟨[0, 1, 2, 3, 4, 5, 6], false, 0, true, none⟩)) ∧
    (((s.dev.port p.val).st ≠ .off ∨ s.dev.cfg.RF_CTL_ENABLE p.val ≠ 1 ∨ s.dev.runs = false ∨
        s.dev.modes.decided = false) →
      exec (.portPowerUp p) s = .next (s.goes s.fresh)) ∧
    ((s.dev.port p.val).st = .stby → (s.dev.cfg.RF_CTL_ENABLE p.val = 0 ∨ s.dev.runs = false) →
      ∃ t, exec (.portPowerDown p) s = .next t ∧ (t.dev.port p.val).st = .off ∧ (t.dev.port p.val).coeffs = false ∧
        (t.dev.port p.val).calDone = 0) ∧
    (((s.dev.port p.val).st ≠ .stby ∨ (s.dev.cfg.RF_CTL_ENABLE p.val ≠ 0 ∧ s.dev.runs = true)) →
      exec (.portPowerDown p) s = .next (s.goes s.fresh)) ∧
    ((s.dev.port p.val).deferred = [] → (s.dev.port p.val).pendCentre = none →
      ((s.dev.port p.val).st = .retune ∨
        ((s.dev.port p.val).st = .stby ∧ (s.dev.port p.val).step = .reopening ∧ s.dev.pair.gateOpen = true ∧
          s.dev.cfg.RF_CTL_ENABLE p.val ≠ 0)) →
      ∃ d : Dev, exec (.synthLock p) s = .next (s.goes d.after) ∧ (s.dev.still → d.after = d) ∧ (d.port p.val).st = .rx ∧ (d.port p.val).locked = true ∧
        (d.port p.val).centre = (if (s.dev.port p.val).st = .retune then (s.dev.port p.val).target
          else (s.dev.port p.val).centre)) ∧
    ((s.dev.port p.val).st = .stby → (s.dev.port p.val).step = .locking → s.dev.pair.gateOpen = true →
      s.dev.cfg.RF_CTL_ENABLE p.val ≠ 0 → ∃ d : Dev, exec (.synthLock p) s = .next (s.goes d.after) ∧
        (s.dev.still → d.after = d) ∧ (d.port p.val).st = .idle ∧ (d.port p.val).locked = true) ∧
    ((s.dev.port p.val).st = .stby → (s.dev.pair.gateOpen = false ∨ s.dev.cfg.RF_CTL_ENABLE p.val = 0) →
      exec (.synthLock p) s = .next (s.goes s.fresh.after)) ∧
    (∀ temp : Int, ∃ t due, exec (.portTempMeasure p temp) s = .next t ∧
      due = ((bit (s.dev.port p.val).calDone 3 && (decide (10 ≤ temp - (s.dev.port p.val).calTempC) ||
        decide (temp - (s.dev.port p.val).calTempC ≤ -10))) ||
        (bit (s.dev.port p.val).calDone 6 && (decide (10 ≤ temp - (s.dev.port p.val).calTxTempC) ||
          decide (temp - (s.dev.port p.val).calTxTempC ≤ -10)))) ∧
      t.dev.port p.val = { s.dev.port p.val with tempC := temp, tempDue := (s.dev.port p.val).tempDue || due } ∧
      t.dev.ev.seq = s.dev.ev.seq + (if due && !(s.dev.port p.val).tempDue then s.dev.evStep else 0) ∧
      s.dev.sameBut [.out, .cnt, .ev, .ports] t.dev) ∧
    (∀ (rms peak : Byte) (x : Nat), clampN (s.dev.agcMin p.val) (s.dev.agcMax p.val) (s.dev.port p.val).agcIndex = x →
      ∃ t, exec (.agcStep p rms peak) s = .next t ∧ (t.dev.port p.val).agcPeak = peak.toNat ∧
      (t.dev.port p.val).agcIndex =
        (if (s.dev.port p.val).st ≠ .rx ∨ (s.dev.port p.val).agcHeld = true ∨ s.dev.cfg.AGC_CTL_FREEZE p.val = 1 ∨
            s.dev.anyInFrame p.val = true then (s.dev.port p.val).agcIndex
         else if rms.toNat < s.dev.agcHi p.val then (if s.dev.agcMin p.val < x then x - 1 else x)
         else if s.dev.cfg.AGC_CTL_LO_THRESH p.val < rms.toNat then (if x < s.dev.agcMax p.val then x + 1 else x)
         else x) ∧
      s.dev.sameBut [.out, .cnt, .ev, .ports] t.dev) ∧
    (∀ peak : Byte, ∃ t, exec (.agcForcedStep p peak) s = .next t ∧ (t.dev.port p.val).agcPeak = peak.toNat ∧
      (t.dev.port p.val).agcIndex =
        (if (s.dev.port p.val).st = .rx ∧ (s.dev.port p.val).agcHeld = false ∧
            s.dev.agcMin p.val < (s.dev.port p.val).agcIndex then
           max (s.dev.agcMin p.val) ((s.dev.port p.val).agcIndex - 2)
         else (s.dev.port p.val).agcIndex)) ∧
    ((s.dev.port p.val).step = .returning → (s.dev.port p.val).deferred = [] → (s.dev.port p.val).pendCentre = none →
      ∃ d : Dev, exec (.portRxReturn p) s = .next (s.goes d.after) ∧ (s.dev.still → d.after = d) ∧ (d.port p.val).st = .rx ∧
        (d.port p.val).exchLanes = [] ∧ (d.port p.val).exchCars = []) ∧
    (∀ (c : Fin 16) (g : Int) (k : Cmd), (s.dev.port p.val).step = .returning → (s.dev.port p.val).deferred = [] →
      (s.dev.port p.val).pendCentre = none → (s.dev.carrier c.val).testPwr = some g →
      (s.dev.carrier c.val).testPort = p.val → (s.dev.carrier c.val).test = some k →
      (∀ x, x ≠ c.val → (s.dev.carrier x).testPwr = none) →
      ∃ d : Dev, exec (.portRxReturn p) s = .next (s.goes d.after) ∧ d.answered k .ST_OK (le 2 (pat 16 g)) ∧
        (d.carrier c.val).test = none ∧ (d.carrier c.val).testPwr = none) ∧
    ((s.dev.port p.val).step ≠ .returning → exec (.portRxReturn p) s = .next (s.goes s.fresh.after)) ∧
    (∃ t, exec (.rxpEnd p) s = .next t ∧ t.dev.port p.val = { s.dev.port p.val with rxp := false } ∧
      s.dev.sameBut [.out, .ports] t.dev) ∧
    (∃ t, exec (.coexReqHoldEnd p) s = .next t ∧ t.dev.port p.val =
      (if (s.dev.activeOn p.val).isEmpty = true ∧ (s.dev.port p.val).denied = [] then
         { s.dev.port p.val with reqHold := false, req := false, pri := false }
       else { s.dev.port p.val with reqHold := false }) ∧ s.dev.sameBut [.out, .ports] t.dev) ∧
    (∃ t, exec (.coexGntRevoke p) s = .next t ∧
      (t.dev.port p.val).gnt = (s.dev.cfg.COEX_CTL_GNT_ACTIVE_LOW p.val == 1) ∧
      ((s.dev.cfg.COEX_CTL_EN p.val ≠ 1 ∨ (s.dev.port p.val).rxp = true ∨ s.dev.cfg.COEX_CTL_REVOKE_ABORT p.val = 0) →
        t.dev.txc = s.dev.txc) ∧
      (s.dev.cfg.COEX_CTL_EN p.val = 1 → (s.dev.port p.val).rxp = false → s.dev.cfg.COEX_CTL_REVOKE_ABORT p.val ≠ 0 → ∀ c, s.dev.carPort c = some p.val →
        (s.dev.carrier c).own.phase = .onAir → (t.dev.carrier c).own.aborted = true))

/-- A lane detects, synchronises, times out, checks its PHR, closes and captures as its state says. Rests on R139,
R140, R142, R143, R144, R146, R156, R161, R162. Model choices it rests on: log entries 65, 66, 67, 68, 147, 148, 149,
150, 172, 173, 174. -/
def Obligations.LanesReceiveStepByStep : Prop :=
  ∀ (s : State) (l : Fin 192),
    (∀ d : Dev, d.still → d.after = d) ∧
    (∀ e : Int, ((s.dev.lane l.val).st = .search → ∃ t, exec (.preambleDetect l e) s = .next t ∧
        t.dev.lane l.val = { s.dev.lane l.val with st := .preamble, rx := { eRef := e } } ∧
        (∀ k, k ≠ l.val → t.dev.lane k = s.dev.lane k) ∧ s.dev.sameBut [.out, .cnt, .ev, .lanes] t.dev) ∧
      ((s.dev.lane l.val).st ≠ .search → exec (.preambleDetect l e) s = .next (s.goes s.fresh))) ∧
    (∀ (word : W32) (rssi snr foff : Int), (s.dev.lane l.val).st ≠ .preamble →
      exec (.syncMatch l word rssi snr foff) s = .next (s.goes s.fresh)) ∧
    (∀ (word : W32) (rssi snr foff : Int) (m : Mode) (p : Nat), (s.dev.lane l.val).st = .preamble →
      modeOf (s.dev.laneMode l.val) = some m → s.dev.lanePort l.val = some p →
      (∀ coded, syncKind m.family (bits (s.dev.laneWord l.val) 13 13) word.toNat = some coded →
        ∃ t, exec (.syncMatch l word rssi snr foff) s = .next t ∧ (t.dev.lane l.val).rx.coded = coded ∧
        (t.dev.lane l.val).rx.fcs2 = (m.family == .oqpsk) ∧
        (t.dev.lane l.val).st = .header ∧ (t.dev.lane l.val).rx.rssi = clampI (-32768) 32767 rssi ∧
        (t.dev.lane l.val).rx.snr = snr ∧ (t.dev.lane l.val).rx.foff = clampI (-32768) 32767 foff ∧
        (t.dev.lane l.val).rx.seq = (s.dev.port p).nextSeq ∧ (t.dev.lane l.val).rx.gainIdx = (s.dev.port p).agcIndex ∧
        (t.dev.lane l.val).rx.epoch = s.dev.epoch.numDsp ∧ (t.dev.lane l.val).rx.port = p ∧
        (t.dev.port p).nextSeq = ((s.dev.port p).nextSeq + 1) % 65536 ∧
        s.dev.sameBut [.out, .ports, .lanes, .txc] t.dev) ∧
      (syncKind m.family (bits (s.dev.laneWord l.val) 13 13) word.toNat = none →
        exec (.syncMatch l word rssi snr foff) s = .next (s.goes s.fresh))) ∧
    ((s.dev.lane l.val).st = .preamble → (s.dev.lane l.val).rx.capUp ≠ some s.dev.up → (s.dev.lane l.val).held = none →
      ∃ t, exec (.syncTimeout l) s = .next t ∧
      (t.dev.lane l.val).st = s.dev.laneRest l.val ∧ (t.dev.lane l.val).rx = {} ∧
      (∀ k, k ≠ l.val → t.dev.lane k = s.dev.lane k) ∧ s.dev.sameBut [.out, .cnt, .ev, .lanes] t.dev) ∧
    (((s.dev.lane l.val).st ≠ .preamble ∨ (s.dev.lane l.val).rx.capUp = some s.dev.up) →
      exec (.syncTimeout l) s = .next (s.goes s.fresh)) ∧
    (∀ (phr : BitVec 24) (m : Mode), (s.dev.lane l.val).st = .header → modeOf (s.dev.laneMode l.val) = some m →
      ∃ d : Dev, exec (.phrCheck l phr) s = .next (s.goes d.after) ∧ (s.dev.still → d.after = d) ∧
        ((phrOf m phr.toNat).reason = 0 → (d.lane l.val).st = .payload ∧
          (d.lane l.val).rx.len = (phrOf m phr.toNat).len ∧ (d.lane l.val).rx.fcs2 = (phrOf m phr.toNat).fcs2 ∧
          (d.lane l.val).rx.whitened = (phrOf m phr.toNat).whitened ∧ (d.lane l.val).rx.snr = (s.dev.lane l.val).rx.snr ∧
          (d.lane l.val).rx.buffered = s.dev.bufRoom (phrOf m phr.toNat).len) ∧
        ((phrOf m phr.toNat).reason ≠ 0 → (s.dev.lane l.val).held = none →
          (d.lane l.val).st = s.dev.laneRest l.val)) ∧
    ((s.dev.lane l.val).st ≠ .header → ∀ phr, exec (.phrCheck l phr) s = .next (s.goes s.fresh.after)) ∧
    (∀ (psdu o : List Byte), (s.dev.lane l.val).st = .payload → (s.dev.lane l.val).rx.buffered = true →
      whiten (s.dev.lane l.val).rx.whitened (slice psdu 0 (s.dev.lane l.val).rx.len) = o →
      fcsOk (s.dev.lane l.val).rx.fcs2 o = true →
      (s.dev.port (s.dev.lane l.val).rx.port).rxlog.length < 4096 →
      ∃ (d : Dev) (r : RxRecord), exec (.psduEnd l psdu) s = .next (s.goes d.after) ∧ (s.dev.still → d.after = d) ∧
        (d.port (s.dev.lane l.val).rx.port).rxlog.find (s.dev.lane l.val).rx.seq = some r ∧ r.outcome = 0 ∧
        r.lane = l.val ∧ r.seq = (s.dev.lane l.val).rx.seq ∧ r.rssi = (s.dev.lane l.val).rx.rssi ∧
        r.epoch = (s.dev.lane l.val).rx.epoch ∧ r.foff = (s.dev.lane l.val).rx.foff ∧
        (d.port (s.dev.lane l.val).rx.port).rxData.find (s.dev.lane l.val).rx.seq = some o ∧
        (d.lane l.val).exch = true ∧
        ((s.dev.lane l.val).nextE = none → (d.lane l.val).st = s.dev.laneRest l.val) ∧
        (∀ e, (s.dev.lane l.val).nextE = some e → s.dev.laneRest l.val = .search →
          (d.lane l.val).st = .preamble ∧ (d.lane l.val).rx = { eRef := e })) ∧
    ((s.dev.lane l.val).st ≠ .payload → ∀ psdu, exec (.psduEnd l psdu) s = .next (s.goes s.fresh.after)) ∧
    (∀ e : Int, ((s.dev.lane l.val).st.inFrame = false → (s.dev.lane l.val).st ≠ .search →
        exec (.capture l e) s = .next (s.goes s.fresh)) ∧
      ((s.dev.lane l.val).st = .search → ∃ d : Dev, exec (.capture l e) s = .next (s.goes d.after) ∧
        (s.dev.still → d.after = d) ∧
        d.lane l.val = { s.dev.lane l.val with st := .preamble, rx := { eRef := e } }) ∧
      (s.dev.frameEnded l.val = true → ∃ d : Dev, exec (.capture l e) s = .next (s.goes d.after) ∧
        (s.dev.still → d.after = d) ∧ d.lane l.val = { s.dev.lane l.val with nextE := some e }) ∧
      ((s.dev.lane l.val).st.inFrame = true → s.dev.frameEnded l.val = false →
        (bit (s.dev.laneWord l.val) 30 = false ∨ e - (s.dev.lane l.val).rx.eRef < s.dev.captureMargin l.val) →
        exec (.capture l e) s = .next (s.goes (s.fresh.bump (Cnt.CAPTURE_MISSED l.val)).after)) ∧
      ((s.dev.lane l.val).st.inFrame = true → s.dev.frameEnded l.val = false → bit (s.dev.laneWord l.val) 30 = true →
        s.dev.captureMargin l.val ≤ e - (s.dev.lane l.val).rx.eRef →
        ∃ d : Dev, exec (.capture l e) s = .next (s.goes d.after) ∧ (s.dev.still → d.after = d) ∧
          (d.lane l.val).st = .preamble ∧ (d.lane l.val).rx = { eRef := e, captured := true, capUp := some s.dev.up }))

/-- Channel access, the decision, the grant, the ramp-up, the end and the ack wait take a carrier through its phases.
Rests on R24, R95, R99, R105, R178, R190, R197, R209, R239, R244, R621. Model choices it rests on: log entries 59, 69,
70, 71, 72, 82, 151, 152, 163, 175, 176, 181. -/
def Obligations.TransmissionsRunFromAccessToTheirEnd : Prop :=
  ∀ (s : State) (c : Fin 16),
    (∀ d : Dev, d.quiet → d.after = d) ∧
    (∀ (p : Fin 4) (cls : Fin 8), exec (.airQueueHeadArrival p cls) s = .next (s.goes s.fresh.after)) ∧
    (∀ (d : Dev) (p x : Nat) (r : List Nat), d.portReady p = true → d.tickOpen p = false →
      (d.carOf p).filter (fun y => d.lockCome p y || (d.mayRelease y && !d.yields p y)) = x :: r →
      (∀ sl k, d.lockCome p x = false → (d.carrier x).slot = some sl → d.slotClass p sl = some k →
        d.pumpOne p = some (d.startTx p x k)) ∧
      (∀ q, d.lockCome p x = true → (d.carrier x).own.queue = some q → d.pumpOne p = some (d.restartTx p x (q % 8)))) ∧
    (∀ (d : Dev) (p : Nat), (d.portReady p = false ∨ d.tickOpen p = true) → d.pumpOne p = none) ∧
    (∀ (p : Fin 4) (cls k : Fin 8) (x : Nat) (sl : Slot) (r : List Nat) (d : Dev),
      (∀ y, (s.dev.carrier y).testPwr = none ∧ (s.dev.carrier y).own.phase ≠ .waitLock ∧
        (s.dev.carrier y).own.phase ≠ .ackWait ∧ (s.dev.carrier y).hold = none) →
      (∀ q, q < 4 → q ≠ p.val → s.fresh.pumpOne q = none) → s.dev.portReady p.val = true →
      s.dev.tickOpen p.val = false → (s.dev.carrier x).slot = some sl → s.dev.slotClass p.val sl = some k.val →
      (s.dev.carOf p.val).filter (fun y => s.dev.mayRelease y && !s.dev.yields p.val y) = x :: r →
      s.fresh.startTx p.val x k.val = d → d.quiet → exec (.airQueueHeadArrival p cls) s = .next (s.goes d)) ∧
    ((s.dev.carrier c.val).slot = none → exec (.slotClose c) s = .next (s.goes s.fresh.after)) ∧
    (∀ sl, (s.dev.carrier c.val).slot = some sl → ∃ d : Dev, exec (.slotClose c) s = .next (s.goes d.after) ∧
      (d.carrier c.val).slot = none ∧
      ((s.dev.carrier c.val).own.phase = .idle → s.dev.slotClass (s.dev.portOf c.val) sl = none →
        d = (if sl.win = false ∧ sl.released = false ∧ s.dev.portOf c.val < 4 then
          s.fresh.bump (Cnt.SLOT_EMPTY (s.dev.portOf c.val)) else s.fresh).modCarrier c.val (fun x => { x with slot := none }))) ∧
    ((s.dev.carrier c.val).own.phase = .backoff → ∃ t, exec (.csmaBackoffExpiry c) s = .next t ∧
      t.dev.carrier c.val = { s.dev.carrier c.val with own := { (s.dev.carrier c.val).own with
        phase := .cca, busy := ((s.dev.port (s.dev.portOf c.val)).st != .rx || s.dev.laneOver c.val false) } } ∧
      s.dev.sameBut [.out, .txc] t.dev) ∧
    ((s.dev.carrier c.val).own.phase ≠ .backoff → exec (.csmaBackoffExpiry c) s = .next (s.goes s.fresh)) ∧
    (∀ (level : Int) (f : TxFrame),
      ((s.dev.carrier c.val).own.phase ≠ .cca → exec (.ccaEnd c level) s = .next (s.goes s.fresh.after)) ∧
      (∀ v, (s.dev.carrier c.val).own.phase = .cca → (s.dev.carrier c.val).own.cur = some f →
        s.dev.ccaBusy c.val false level = false → (f.kind = .beacon ∨ f.kind = .test ∨ s.dev.ackPrecedes c.val = false) →
        s.dev.decideCheck c.val false f = none →
        s.dev.powerOf c.val false f = some v → ∃ d : Dev, exec (.ccaEnd c level) s = .next (s.goes d.after) ∧
          (d.carrier c.val).own.phase = .txpre ∧ (d.carrier c.val).own.granted = v) ∧
      ((s.dev.carrier c.val).own.phase = .cca → (s.dev.carrier c.val).own.cur = some f → f.kind = .beacon →
        s.dev.ccaBusy c.val false level = true → ∃ d : Dev, exec (.ccaEnd c level) s = .next (s.goes d.after) ∧
          (d.carrier c.val).own = {})) ∧
    (∀ (gnt : Bool) (f : TxFrame),
      ((s.dev.carrier c.val).own.phase ≠ .txpre → (s.dev.carrier c.val).hold = none →
        exec (.txGrant c gnt) s = .next (s.goes s.fresh.after)) ∧
      ((s.dev.carrier c.val).own.phase = .txpre → (s.dev.carrier c.val).own.cur = some f → f.bad = false →
        s.dev.cfg.COEX_CTL_EN (s.dev.portOf c.val) ≠ 1 → ∃ d : Dev, exec (.txGrant c gnt) s = .next (s.goes d.after) ∧
          ((f.kind = .assoc ∨ f.kind = .test ∨ (f.kind = .beacon ∧ f.secured = false)) → (s.dev.quiet → d.after = d) ∧
            d.carrier c.val = { s.dev.carrier c.val with own := { (s.dev.carrier c.val).own with phase := .granted } }) ∧
          (∀ e g, (f.kind = .bulk ∨ (f.kind = .data ∧ ((s.dev.sharedOf f).fc ≠ none ∨
              (s.dev.nodeAt f.pan f.loc).valid = false ∨ (s.dev.nodeAt f.pan f.loc).quarantine = false))) →
            s.fresh.grantData f = some (e, g) →
            (s.dev.quiet → d.after = d) ∧ (d.carrier c.val).own.phase = .granted ∧ (d.carrier c.val).own.cur = some g)) ∧
      (∀ n, (s.dev.carrier c.val).own.phase = .txpre → (s.dev.carrier c.val).own.cur = some f → f.bad = false →
        f.kind = .data → (s.dev.carrier c.val).own.queue = some n → s.dev.cfg.COEX_CTL_EN (s.dev.portOf c.val) = 1 →
        (s.dev.port (s.dev.portOf c.val)).rxp = false →
        gnt = (s.dev.cfg.COEX_CTL_GNT_ACTIVE_LOW (s.dev.portOf c.val) == 1) →
        ∃ d : Dev, exec (.txGrant c gnt) s = .next (s.goes d.after) ∧ (d.carrier c.val).own = {} ∧
          ∃ g, d.queue n = (s.dev.queue n).takeWhile (Dev.queuedBefore f.uid) ++
              .air g :: (s.dev.queue n).dropWhile (Dev.queuedBefore f.uid) ∧ g.uid = f.uid ∧ g.chargedAcct = none)) ∧
    (∀ f, (s.dev.carrier c.val).own.phase = .granted → (s.dev.carrier c.val).own.cur = some f →
      ∃ t ramp psdu sym, exec (.txRampUp c) s = .next t ∧ (t.dev.carrier c.val).own.phase = .onAir ∧
        (t.dev.carrier c.val).own.rampNs = s.dev.time.ns ∧ (t.dev.carrier c.val).own.cur =
          some (if f.kind = .beacon then { f with seqNo := (s.dev.pan f.pan).bsn } else f) ∧
        t.dev.out = [⟨.ramp, c.val, ramp⟩, ⟨.air, c.val, psdu⟩, ⟨.symbols, c.val, sym⟩] ∧
        ((s.dev.port (s.dev.portOf c.val)).st = .txpre → (t.dev.port (s.dev.portOf c.val)).st = .tx) ∧
        (f.kind = .beacon → (t.dev.pan f.pan).bsn = ((s.dev.pan f.pan).bsn + 1) % 256)) ∧
    ((s.dev.carrier c.val).own.phase ≠ .granted → (s.dev.carrier c.val).hold = none →
      ((∀ q : Fin 4, (s.dev.port q.val).denied.any (fun x => x.1 == c.val) = false) →
        exec (.txRampUp c) s = .next (s.goes s.fresh)) ∧
      (∀ q : Fin 4, (s.dev.port q.val).denied.any (fun x => x.1 == c.val) = true → ∃ t, exec (.txRampUp c) s = .next t ∧
        (t.dev.port q.val).denied = (s.dev.port q.val).denied.del c.val ∧
        (t.dev.port q.val).st = (s.dev.port q.val).st ∧
        (((s.dev.port q.val).st = .tx ∨ (s.dev.port q.val).st = .txpre) → (s.dev.activeOn q.val).isEmpty = true →
          (s.dev.port q.val).denied.del c.val = [] → (t.dev.port q.val).step = .returning))) ∧
    (∀ f, (s.dev.carrier c.val).own.phase = .onAir → (s.dev.carrier c.val).own.cur = some f → f.kind ≠ .test →
      ∃ d : Dev, exec (.txEnd c) s = .next (s.goes d.after) ∧
        (∀ n, f.stampSeq = some n → (s.dev.port (s.dev.portOf c.val)).stamps.length < 256 →
          ∃ x, (d.port (s.dev.portOf c.val)).stamps = (s.dev.port (s.dev.portOf c.val)).stamps ++ [x] ∧ x.seq = n ∧
            x.carrier = c.val) ∧
        (f.kind = .data → s.dev.frameAr f = true → (s.dev.carrier c.val).own.aborted = false →
          (d.carrier c.val).own.phase = .ackWait ∧ (d.carrier c.val).own.cur = some f ∧
          (d.carrier c.val).own.waitOver = false) ∧
        ((f.kind = .beacon ∨ f.kind = .bulk ∨ (f.kind = .data ∧ s.dev.frameAr f = false)) →
          (d.carrier c.val).own = {})) ∧
    ((s.dev.carrier c.val).own.phase ≠ .onAir → (s.dev.carrier c.val).hold = none →
      exec (.txEnd c) s = .next (s.goes s.fresh.after)) ∧
    (∀ h f, (s.dev.carrier c.val).hold = some h → h.tx.phase = .sched → h.tx.cur = some f → f.kind = .ack →
      ∃ d : Dev, exec (.ackTxStart c) s = .next (s.goes d.after) ∧
        (∀ st, s.dev.decideCheck c.val true f = some st → (d.carrier c.val).hold = none) ∧
        (∀ v, s.dev.decideCheck c.val true f = none → s.dev.powerOf c.val true f = some v →
          ∃ h', (d.carrier c.val).hold = some h' ∧ h'.tx.phase = .txpre ∧ h'.tx.granted = v)) ∧
    ((s.dev.carrier c.val).hold = none → exec (.ackTxStart c) s = .next (s.goes s.fresh)) ∧
    (∀ f n, (s.dev.carrier c.val).own.phase = .waitLock → (s.dev.carrier c.val).own.cur = some f →
      (s.dev.carrier c.val).own.queue = some n → ∃ d : Dev, exec (.lateLockTimeout c) s = .next (s.goes d.after) ∧
        (d.carrier c.val).own = {} ∧ (d.queue n).length = (s.dev.queue n).length) ∧
    ((s.dev.carrier c.val).own.phase ≠ .waitLock → exec (.lateLockTimeout c) s = .next (s.goes s.fresh.after)) ∧
    ((s.dev.carrier c.val).own.phase = .ackWait → (s.dev.carrier c.val).own.waitOver = false →
      ∃ d : Dev, exec (.ackWaitEnd c) s = .next (s.goes d.after) ∧ (d.carrier c.val).own.waitOver = true ∧
        (d.carrier c.val).own.phase = .ackWait ∧ s.dev.sameBut [.out, .txc] d) ∧
    ((s.dev.carrier c.val).own.phase ≠ .ackWait → (s.dev.carrier c.val).hold = none →
      exec (.ackWaitEnd c) s = .next (s.goes s.fresh.after))

/-- Records, copy groups, crypto ends, indirect frames, neighbours and duty bins follow their rules. Rests on R183,
R201, R204, R212, R213, R222, R223, R432. Model choices it rests on: log entries 73, 74, 75, 79, 145, 162, 180, 184,
202. -/
def Obligations.ReceivedFramesAreDecidedInOrder : Prop :=
  ∀ (s : State),
    (∀ (p : Fin 4) (sq : W16),
      (((s.dev.port p.val).rxlog.find sq.toNat = none ∨ (s.dev.port p.val).decided.contains sq.toNat = true ∨
          (∃ r, (s.dev.port p.val).rxlog.find sq.toNat = some r ∧ r.outcome ≠ 0)) →
        exec (.rxRecordDecide p sq) s = .next (s.goes s.fresh)) ∧
      (∀ r, (s.dev.port p.val).rxlog.find sq.toNat = some r → r.outcome = 0 → r.seq = sq.toNat →
        (s.dev.port p.val).decided.contains sq.toNat = false →
        ∃ d : Dev, exec (.rxRecordDecide p sq) s = .next (s.goes ((d.endWaitFor p.val sq.toNat).settle).pump) ∧
          ((s.dev.modes.phase = .survey ∨ s.dev.follower = true ∨ (s.dev.recMac p.val r).ftype = 0 ∨
              (s.dev.recMac p.val r).ftype = 2 ∨ (∃ e, s.fresh.early p.val (s.dev.recMac p.val r) = .error e)) →
            (d.port p.val).rxlog.find sq.toNat = none) ∧
          (∀ k, s.dev.modes.phase ≠ .survey → s.dev.runs = true → s.fresh.early p.val (s.dev.recMac p.val r) = .ok k →
            (∀ g ∈ s.dev.air.groups, g.pan ≠ k) →
            ∃ g, d.air.groups = s.dev.air.groups ++ [g] ∧ g.pan = k ∧ g.rcd = r ∧ g.port = p.val ∧
              g.copies.map (fun y => (y.port, y.recSeq)) = [(p.val, sq.toNat)] ∧
              (d.port p.val).rxlog = (s.dev.port p.val).rxlog))) ∧
    (s.dev.air.groups = [] → exec .copyGroupClose s = .next (s.goes s.fresh)) ∧
    (∀ g rest, s.dev.air.groups = g :: rest → ∃ t, exec .copyGroupClose s = .next t ∧ t.dev.air.groups = rest ∧
      ((∀ c ∈ g.copies, (s.dev.port c.port).rxlog.find c.recSeq = none) →
        t = s.goes { s.fresh with air := { s.dev.air with groups := rest } })) ∧
    (∀ (p : Fin 4) (sq : W16),
      (s.dev.air.ccm.findIdx? (fun x => decide (bits x.rcd.flags 15 14 = p.val ∧ x.rcd.seq = sq.toNat)) = none →
        exec (.ccmUplinkDone p sq) s = .next (s.goes s.fresh)) ∧
      (∀ x, s.dev.air.ccm.find? (fun x => decide (bits x.rcd.flags 15 14 = p.val ∧ x.rcd.seq = sq.toNat)) = some x →
        s.dev.inEngine x = false → exec (.ccmUplinkDone p sq) s = .next (s.goes s.fresh)) ∧
      (∀ i x e plain,
        s.dev.air.ccm.findIdx? (fun x => decide (bits x.rcd.flags 15 14 = p.val ∧ x.rcd.seq = sq.toNat)) = some i →
        s.dev.air.ccm[i]? = some x → e = s.dev.nodeAt x.pan (x.loc.getD 0xFFFF) → e.valid = true →
        s.dev.inEngine x = true → s.fresh.uplinkChecks x e = .ok plain →
        x.mac.mesh = none → x.mac.ftype = 1 → s.dev.air.removing = [] →
        ∃ t, exec (.ccmUplinkDone p sq) s = .next t ∧ t.dev.air.ccm = s.dev.air.ccm.eraseIdx i ∧
          (t.dev.nodeAt x.pan (x.loc.getD 0xFFFF)).lastFc = x.mac.counter.getD 0 ∧
          (t.dev.nodeAt x.pan (x.loc.getD 0xFFFF)).lastSeq = x.mac.dupSeq ∧
          (t.dev.nodeAt x.pan (x.loc.getD 0xFFFF)).fcNone = false)) ∧
    (∀ i : Fin 4096,
      (s.dev.air.indirect[i.val]? = none → exec (.indirectExpire i) s = .next (s.goes s.fresh)) ∧
      (∀ x, s.dev.air.indirect[i.val]? = some x → ∃ t, exec (.indirectExpire i) s = .next t ∧
        t.dev.air.indirect = (if x.inExch then s.dev.air.indirect.modify i.val (fun y => { y with expired := true })
          else s.dev.air.indirect.eraseIdx i.val))) ∧
    (∀ (c : Fin 16) (level : Int),
      (((s.dev.carrier c.val).hold = none ∨ ∃ h, (s.dev.carrier c.val).hold = some h ∧ h.gap = false) →
        exec (.indirectResponseStart c level) s = .next (s.goes s.fresh.pump)) ∧
      (∀ h k eui, (s.dev.carrier c.val).hold = some h → h.gap = true → h.poll = some (k, eui) →
        s.dev.air.indirect.findIdx? (fun x => decide (x.pan = k ∧ x.eui = eui)) = none →
        ∃ d : Dev, exec (.indirectResponseStart c level) s = .next (s.goes d.pump) ∧ (d.carrier c.val).hold = none) ∧
      (∀ h k eui i x g e v, (s.dev.carrier c.val).hold = some h → h.gap = true → h.poll = some (k, eui) →
        s.dev.air.indirect.findIdx? (fun x => decide (x.pan = k ∧ x.eui = eui)) = some i →
        s.dev.air.indirect[i]? = some x → x.inExch = false → x.frame.kind = .assoc → s.dev.lbtReq h.khz h.mode = false →
        g = { x.frame with
          coded := match modeOf h.mode with | some m => Dev.codedIn m | none => false
          psduLen := assocPsduLen (if x.frame.fcs2 then 2 else 4) } →
        e = ({ s.fresh with air := { s.dev.air with
            indirect := (s.dev.air.indirect.modify i (fun y => { y with inExch := true })).modify i
              (fun y => { y with frame := g }) } }).modCarrier c.val
          (fun y => { y with hold := some { h with gap := false, tx := { phase := .sched, cur := some g } } }) →
        e.decideCheck c.val true g = none → e.powerOf c.val true g = some v →
        ∃ (d : Dev) (h' : Hold), exec (.indirectResponseStart c level) s = .next (s.goes d.pump) ∧
          (d.carrier c.val).hold = some h' ∧ h'.tx.phase = .txpre ∧ h'.tx.granted = v ∧ h'.gap = false)) ∧
    (∀ i : Fin 64,
      ((s.dev.nbr i.val).valid = false → exec (.nbrWindowJudge i) s = .next (s.goes s.fresh)) ∧
      ((s.dev.nbr i.val).valid = true → (s.dev.nbr i.val).heardInWindow = true →
        ∃ t, exec (.nbrWindowJudge i) s = .next t ∧
          t.dev.nbr i.val = { s.dev.nbr i.val with misses := 0, heardInWindow := false } ∧
          s.dev.sameBut [.out, .air] t.dev) ∧
      ((s.dev.nbr i.val).valid = true → (s.dev.nbr i.val).heardInWindow = false → (s.dev.nbr i.val).nextBcnMs = 0xFFFF →
        (s.dev.nbr i.val).lost = false → ∃ t, exec (.nbrWindowJudge i) s = .next t ∧
          (t.dev.nbr i.val).misses = min 3 ((s.dev.nbr i.val).misses + 1) ∧
          (t.dev.nbr i.val).expect = (s.dev.nbr i.val).expect + s.dev.nbrGap 0xFFFF ∧
          (t.dev.nbr i.val).lost = decide (2 ≤ (s.dev.nbr i.val).misses) ∧
          (2 ≤ (s.dev.nbr i.val).misses → (t.dev.nbr i.val).timeRef = false))) ∧
    (∃ t, exec .dutyBinAdvance s = .next t ∧ t.dev.duty.cur = (s.dev.duty.cur + 1) % 61 ∧
      (∀ a, t.dev.duty.bins.get 0 (a * 61 + t.dev.duty.cur) = 0) ∧
      (∀ a b, b < 61 → b ≠ t.dev.duty.cur → t.dev.duty.bins.get 0 (a * 61 + b) = s.dev.duty.bins.get 0 (a * 61 + b)) ∧
      s.dev.sameBut [.out, .duty] t.dev)

/-- Each arithmetic instruction writes its register from its operands, each branch its program counter, when the
operands are ready. Rests on R366, R369, R370, R371, R374. Model choices it rests on: log entry 92. -/
def Obligations.ActionArithmeticAndBranches : Prop :=
  ∀ (s : State) (i : Fin 2) (rd ra rb : Fin 16) (imm : BitVec 18) (aux : BitVec 14) (pos wm1 : Fin 32) (imm8 : Byte)
    (target : Fin 64) (x : Packet) (y : PipeSt),
    (s.dev.acts (.actNop i) [] x y →
      exec (.actNop i) s = .next (s.goes (s.fresh.goesOn i.val x { y with pc := y.pc + 1 }))) ∧
    (∀ r ∈ [(Instr.actMovi i rd imm, ([] : List Nat), BitVec.ofNat 32 imm.toNat),
          (.actLui i rd imm, [rd.val], BitVec.ofNat 32 (imm.toNat * 2 ^ 14 + (y.g rd.val).toNat % 2 ^ 14)),
          (.actAdd i rd ra rb, [ra.val, rb.val], y.g ra.val + y.g rb.val),
          (.actAddi i rd ra aux, [ra.val], y.g ra.val + BitVec.ofInt 32 aux.toInt),
          (.actSub i rd ra rb, [ra.val, rb.val], y.g ra.val - y.g rb.val),
          (.actAnd i rd ra rb, [ra.val, rb.val], y.g ra.val &&& y.g rb.val),
          (.actOr i rd ra rb, [ra.val, rb.val], y.g ra.val ||| y.g rb.val),
          (.actXor i rd ra rb, [ra.val, rb.val], y.g ra.val ^^^ y.g rb.val),
          (.actExt i rd ra pos wm1, [ra.val],
            BitVec.ofNat 32 ((y.g ra.val).toNat / 2 ^ pos.val % 2 ^ (wm1.val + 1)))],
        (s.dev.acts r.1 r.2.1 x y → exec r.1 s =
          .next (s.goes (s.fresh.goesOn i.val x (PipeSt.setG { y with pc := y.pc + 1 } rd.val r.2.2)))) ∧
        (s.dev.actAt r.1 x y → y.ready r.2.1 = false → exec r.1 s = .next (s.goes s.fresh))) ∧
      (s.dev.acts (.actIns i rd ra pos wm1) [rd.val, ra.val] x y → ∃ v : W32, exec (.actIns i rd ra pos wm1) s =
          .next (s.goes (s.fresh.goesOn i.val x (PipeSt.setG { y with pc := y.pc + 1 } rd.val v))) ∧
        ∀ j, j < 32 → v.getLsbD j = (if pos.val ≤ j ∧ j ≤ pos.val + wm1.val then (y.g ra.val).getLsbD (j - pos.val)
          else (y.g rd.val).getLsbD j)) ∧
      (∀ r ∈ [(Instr.actBeq i ra rb target, [ra.val, rb.val], decide (y.g ra.val = y.g rb.val)),
          (.actBne i ra rb target, [ra.val, rb.val], decide (y.g ra.val ≠ y.g rb.val)),
          (.actBltu i ra rb target, [ra.val, rb.val], decide ((y.g ra.val).toNat < (y.g rb.val).toNat)),
          (.actBgeu i ra rb target, [ra.val, rb.val], decide ((y.g rb.val).toNat ≤ (y.g ra.val).toNat)),
          (.actBeqi i ra imm8 target, [ra.val], decide ((y.g ra.val).toNat = imm8.toNat)),
          (.actBnei i ra imm8 target, [ra.val], decide ((y.g ra.val).toNat ≠ imm8.toNat)),
          (.actBbs i ra imm8 target, [ra.val], (y.g ra.val).getLsbD (imm8.toNat % 32)),
          (.actBbc i ra imm8 target, [ra.val], !(y.g ra.val).getLsbD (imm8.toNat % 32)),
          (.actJmp i target, ([] : List Nat), true)],
        (s.dev.acts r.1 r.2.1 x y → exec r.1 s =
          .next (s.goes (s.fresh.goesOn i.val x { y with pc := if r.2.2 then target.val else y.pc + 1 }))) ∧
        (s.dev.actAt r.1 x y → y.ready r.2.1 = false → exec r.1 s = .next (s.goes s.fresh))) ∧
    (∀ j k w, actRow j = some (k, w) → (∀ x y, ¬ s.dev.actAt j x y) → exec j s = .next (s.goes s.fresh)) ∧
    (∀ (v : W32), (y.setG 0 v).g 0 = 0 ∧ (rd.val ≠ 0 → (y.setG rd.val v).g rd.val = v) ∧
      (∀ q, q ≠ rd.val → (y.setG rd.val v).g q = y.g q)) ∧
    (∀ (d : Dev) (p : Nat × List Nat), d.progOf y.oldBank y.prog = some p → y.cur = some x →
      (y.pc < p.2.length → d.goesOn i.val x y = d.setPipe i.val y) ∧
      (p.2.length ≤ y.pc → ((d.goesOn i.val x y).pipeSt i.val).cur = none))

/-- The loads and stores of metadata, window and result buffers, CNT, OWNR, POL, DCMP and CMPR do what R370 says.
Rests on R366, R367, R370, R373, R376, R377, R378, R379. Model choices it rests on: log entries 92, 94, 95, 96, 97. -/
def Obligations.ActionLoadsStoresAndServices : Prop :=
  ∀ (s : State) (i : Fin 2) (rd ra : Fin 16) (f : Byte) (off : Fin 128) (roff : Fin 64) (wid rb : Fin 4) (k : Fin 1024)
    (x : Packet) (y z : PipeSt), z = { y with pc := y.pc + 1 } →
    (s.dev.acts (.actLdm i rd f) [32 + f.toNat] x y →
      (∀ v, y.field x f.toNat = some v → exec (.actLdm i rd f) s =
        .next (s.goes (s.fresh.goesOn i.val x (z.setG rd.val (BitVec.ofNat 32 v))))) ∧
      (y.field x f.toNat = none → ∃ t, exec (.actLdm i rd f) s = .next t ∧ t.dev.freeCtr = s.dev.freeCtr + 1 ∧
        t.dev.tm = s.dev.tm ∧ t.dev.tbl = s.dev.tbl ∧ t.dev.vio = s.dev.vio)) ∧
    (s.dev.acts (.actStm i ra f) [ra.val] x y →
      exec (.actStm i ra f) s = .next (s.goes (s.fresh.goesOn i.val x (z.setMd f.toNat (y.g ra.val)))) ∧
      (PipeSt.rwField f.toNat = true → (z.setMd f.toNat (y.g ra.val)).field x f.toNat =
        some (if f.toNat = 0x13 then (y.g ra.val).toNat % 16 else (y.g ra.val).toNat)) ∧
      (PipeSt.rwField f.toNat = false → z.setMd f.toNat (y.g ra.val) = z)) ∧
    (s.dev.acts (.actSth i ra off wid) [ra.val] x y → exec (.actSth i ra off wid) s = .next (s.goes (s.fresh.goesOn i.val x
        (z.setWin off.val (be (PipeSt.width wid.val) (y.g ra.val).toNat))))) ∧
    (s.dev.acts (.actOwnr i rd ra) [ra.val, 34] x y →
      ((s.dev.seen i.val).ownerChip y.pan ((y.g ra.val).toNat % 65536) = none → exec (.actOwnr i rd ra) s =
        .next (s.goes (s.fresh.goesOn i.val x (z.setG rd.val 0xFFFFFFFF)))) ∧
      (∀ c, (s.dev.seen i.val).ownerChip y.pan ((y.g ra.val).toNat % 65536) = some c → exec (.actOwnr i rd ra) s =
        .next (s.goes (s.fresh.goesOn i.val x (z.setG rd.val (BitVec.ofNat 32 c)))))) ∧
    (∀ n, n = (y.g ra.val).toNat % 65536 → s.dev.acts (.actPol i rd ra) [ra.val, 55] x y →
      (n = 0xFFFF → exec (.actPol i rd ra) s = .next (s.goes (s.fresh.goesOn i.val x (z.setG rd.val 0)))) ∧
      (2048 ≤ n → n < 0xFFFF → exec (.actPol i rd ra) s = .next (s.goes (s.fresh.goesOn i.val x (z.setG rd.val 0)
        (fun d => d.bump (Cnt.PIPE_NO_POLICER i.val))))) ∧
      (∀ c, n < 2048 → y.charged.find? (fun w => w.1 == n) = some (n, c) →
        exec (.actPol i rd ra) s = .next (s.goes (s.fresh.goesOn i.val x (z.setG rd.val (BitVec.ofNat 32 c))))) ∧
      (∀ p c, n < 2048 → y.charged.find? (fun w => w.1 == n) = none → s.dev.tm.policers.get {} n = p →
        (police p.aware p.c p.p (y.rw 0x17)).1 = c → ∃ tm : Tm, exec (.actPol i rd ra) s =
          .next (s.goes (s.fresh.goesOn i.val x (PipeSt.setG { z with charged := y.charged ++ [(n, c)] } rd.val
            (BitVec.ofNat 32 c)) (fun d => { d with tm := tm }))) ∧
          (∀ m, m ≠ n → tm.policers.get {} m = s.dev.tm.policers.get {} m) ∧
          { tm with policers := s.dev.tm.policers } = s.dev.tm)) ∧
    (s.dev.acts (.actLdh i rd off wid) [16] x y →
      exec (.actLdh i rd off wid) s = .next (s.goes (s.fresh.goesOn i.val x
        (z.setG rd.val (BitVec.ofNat 32 (unbe (y.win off.val (PipeSt.width wid.val)))))))) ∧
    (s.dev.acts (.actDcmp i rd) [16] x y →
      (y.l3 = 0 → exec (.actDcmp i rd) s = .next (s.goes (s.fresh.goesOn i.val x (z.setG rd.val 7)))) ∧
      (∀ w hdr, y.l3 = 1 → unLowpan (s.dev.contextOf x.pan) ((s.dev.seen i.val).llOf x y).1 ((s.dev.seen i.val).llOf x y).2 y.w =
          .ok (w, hdr) → exec (.actDcmp i rd) s = .next (s.goes (s.fresh.goesOn i.val x
            (if hdr ≤ 128 then PipeSt.setG { z with w := w, l3 := 0 } rd.val 0 else z.setG rd.val 4)))) ∧
      (∀ e, y.l3 = 1 → unLowpan (s.dev.contextOf x.pan) ((s.dev.seen i.val).llOf x y).1 ((s.dev.seen i.val).llOf x y).2 y.w =
          .error e → exec (.actDcmp i rd) s =
            .next (s.goes (s.fresh.goesOn i.val x (z.setG rd.val (BitVec.ofNat 32 e)))))) ∧
    (s.dev.acts (.actCmpr i rd) [16, 34, 52] x y →
      (y.l3 = 1 → exec (.actCmpr i rd) s = .next (s.goes (s.fresh.goesOn i.val x (z.setG rd.val 7)))) ∧
      (1 < y.l3 → exec (.actCmpr i rd) s = .next (s.goes (s.fresh.goesOn i.val x (z.setG rd.val 6)))) ∧
      (∀ w, y.l3 = 0 → packLowpan (s.dev.contexts y.pan) (iidEui ((s.dev.seen i.val).panEui y.pan))
          (iidShort (y.rw 0x14 % 65536)) y.w = .ok w → exec (.actCmpr i rd) s =
            .next (s.goes (s.fresh.goesOn i.val x (PipeSt.setG { z with w := w, l3 := 1 } rd.val 0)))) ∧
      (∀ e, y.l3 = 0 → packLowpan (s.dev.contexts y.pan) (iidEui ((s.dev.seen i.val).panEui y.pan))
          (iidShort (y.rw 0x14 % 65536)) y.w = .error e → exec (.actCmpr i rd) s =
            .next (s.goes (s.fresh.goesOn i.val x (z.setG rd.val (BitVec.ofNat 32 e)))))) ∧
    (s.dev.acts (.actLdr i rd rb roff wid) [17 + rb.val] x y →
      exec (.actLdr i rd rb roff wid) s = .next (s.goes (s.fresh.goesOn i.val x
        (z.setG rd.val (BitVec.ofNat 32 (fld ((y.rbs.get [] rb.val).take 64) roff.val (PipeSt.width wid.val))))))) ∧
    (s.dev.acts (.actCnt i k) [] x y →
      exec (.actCnt i k) s = .next (s.goes (s.fresh.goesOn i.val x z (fun d => d.bump (Cnt.ACT_CNT k.val)))))

/-- Lookups go out four at a time and return oldest first; a window takes a packet; FWD, DROP, RECIRC and RECIRCP end
the pass. Rests on R360, R361, R362, R363, R371, R372, R374, R375, R381, R382. Model choices it rests on: log entries
92, 93, 94, 98, 99, 100, 101, 171. -/
def Obligations.LookupsWindowsAndEmits : Prop :=
  ∀ (s : State) (i : Fin 2),
    (∀ (x : Packet) (y z : PipeSt) (rd ra rb : Fin 16) (res : Fin 4) (src : Bool),
      z = { y with pc := y.pc + 1 } →
      (4 ≤ (s.dev.pipeSt i.val).lookups.length → ∀ j ∈ [Instr.actLkn i rd ra rb res, .actLke i rd ra rb res, .actLkr i rd ra rb res,
          .actLkp i rd res src], exec j s = .next (s.goes s.fresh)) ∧
      (y.lookups.length < 4 →
        (∀ e, s.dev.acts (.actLkn i rd ra rb res) [ra.val, rb.val] x y → (s.dev.seen i.val).lkn ((y.g rb.val).toNat % 4) ((y.g ra.val).toNat % 65536) = e → exec (.actLkn i rd ra rb res) s =
          .next (s.goes (s.fresh.goesOn i.val x { z with
            lookups := y.lookups ++ [⟨rd.val, res.val, e.isSome, slice ((e.map NodeEntry.octets).getD []) 0 64, 0⟩] }))) ∧
        (∀ e, s.dev.acts (.actLke i rd ra rb res) [ra.val, rb.val, 34] x y → (s.dev.seen i.val).lke y.pan (y.g ra.val ++ y.g rb.val) = e → exec (.actLke i rd ra rb res) s =
          .next (s.goes (s.fresh.goesOn i.val x { z with
            lookups := y.lookups ++ [⟨rd.val, res.val, e.isSome, slice ((e.map NodeEntry.octets).getD []) 0 64, 0⟩] }))) ∧
        (∀ e, s.dev.acts (.actLkr i rd ra rb res) [ra.val, rb.val] x y → s.dev.validRoute ((y.g rb.val).toNat % 4) ((y.g ra.val).toNat % 65536) = e → exec (.actLkr i rd ra rb res) s =
          .next (s.goes (s.fresh.goesOn i.val x { z with
            lookups := y.lookups ++ [⟨rd.val, res.val, e.isSome, slice ((e.map RouteEntry.octets).getD []) 0 64, 2⟩] })))) ∧
      (y.lookups.length < 4 → s.dev.acts (.actLkp i rd res src) [16] x y →
        (y.l3 ≠ 0 → exec (.actLkp i rd res src) s = .next (s.goes (s.fresh.goesOn i.val x { z with
          lookups := y.lookups ++ [⟨rd.val, res.val, false, slice [] 0 64, 3⟩] }))) ∧
        (∀ e, y.l3 = 0 → s.dev.findPrefix (y.win (if src then 8 else 24) 16) = e → exec (.actLkp i rd res src) s =
          .next (s.goes (s.fresh.goesOn i.val x { z with
            lookups := y.lookups ++ [⟨rd.val, res.val, e.isSome, slice ((e.map PrefixEntry.octets).getD []) 0 64, 1⟩] })))) ∧
      (s.dev.acts (.actFwd i) [16, 48, 49, 50, 51, 52, 53, 56] x y → ∃ t, exec (.actFwd i) s = .next t ∧ (t.dev.pipeSt i.val).cur = none ∧
        (t.dev.pipeSt i.val).queues = y.queues ∧ (t.dev.pipeSt i.val).turn = y.turn ∧ (4 ≤ y.rw 0x10 → t.dev.tm = s.dev.tm)) ∧
      (∀ k, s.dev.acts (.actDrop i k) [] x y → ∃ t, exec (.actDrop i k) s = .next t ∧ (t.dev.pipeSt i.val).cur = none ∧
        (t.dev.pipeSt i.val).queues = y.queues ∧ (t.dev.pipeSt i.val).turn = y.turn ∧ t.dev.tm = s.dev.tm ∧
        (y.lookups = [] → x.descs = 0 →
          t.dev.count (Cnt.ACT_CNT k.val) = (s.dev.count (Cnt.ACT_CNT k.val) + 1) % 2 ^ 64)) ∧
      (∀ (prog : Byte) (r : Instr × Nat × List Nat), r ∈ [(Instr.actRecirc i prog, prog.toNat, ([] : List Nat)),
          (.actRecircp i res, fld (y.rbs.get [] res.val) 0x16 1, [17 + res.val])] → s.dev.acts r.1 r.2.2 x y →
        (∀ p, y.pass = 1 → s.dev.progOf y.oldBank r.2.1 = some p → recirculates p.2 = false → ∃ t, exec r.1 s = .next t ∧
          t.dev.pipeSt i.val = { y with recirc := true, prog := r.2.1, lookups := [] }) ∧
        ((y.pass ≠ 1 ∨ s.dev.progOf y.oldBank r.2.1 = none ∨
            ∃ p, s.dev.progOf y.oldBank r.2.1 = some p ∧ recirculates p.2 = true) →
          ∃ t, exec r.1 s = .next t ∧ (t.dev.pipeSt i.val).cur = none ∧ (t.dev.pipeSt i.val).queues = y.queues))) ∧
    ((s.dev.pipeSt i.val).lookups = [] → ∀ late, exec (.lookupReturn i late) s = .next (s.goes s.fresh)) ∧
    (∀ l rest late, (s.dev.pipeSt i.val).lookups = l :: rest → ∃ t, exec (.lookupReturn i late) s = .next t ∧
      (t.dev.pipeSt i.val).lookups = rest ∧ (t.dev.pipeSt i.val).rbs.get [] l.rb = l.data ∧
      (l.d ≠ 0 → (t.dev.pipeSt i.val).g l.d = if l.hit then 1 else 0) ∧ (t.dev.pipeSt i.val).pc = (s.dev.pipeSt i.val).pc ∧
      (t.dev.pipeSt i.val).cur = (s.dev.pipeSt i.val).cur ∧ s.dev.sameBut [.out, .cnt, .ev, .pipe] t.dev) ∧
    ((s.dev.pipeSt i.val).cur ≠ none → (s.dev.pipeSt i.val).recirc = false →
      exec (.pipeWindowStart i) s = .next (s.goes s.fresh)) ∧
    ((s.dev.pipeSt i.val).cur ≠ none → (s.dev.pipeSt i.val).recirc = true → ∃ t, exec (.pipeWindowStart i) s = .next t ∧
      t.dev.pipeSt i.val = { s.dev.pipeSt i.val with recirc := false, pass := 2, pc := 0, rbs := [], charged := [], lookups := [] } ∧
      s.dev.sameBut [.out, .cnt, .ev, .pipe] t.dev) ∧
    (∀ src x rest p, (s.dev.pipeSt i.val).cur = none → Dev.nextSource (s.dev.pipeSt i.val) = some src →
      (s.dev.pipeSt i.val).queues.get [] src = x :: rest → x.bad = false → x.src = src →
      s.dev.pipe.progs.find src = some p → ∃ t y, exec (.pipeWindowStart i) s = .next t ∧
        (t.dev.pipeSt i.val).cur = some y ∧ y = (if srcKind src = 0 then x else { x with epoch := s.dev.epoch.numPipe }) ∧
        (t.dev.pipeSt i.val).pass = 1 ∧ (t.dev.pipeSt i.val).pc = 0 ∧ (t.dev.pipeSt i.val).prog = src ∧
        (t.dev.pipeSt i.val).w = x.data ∧ (t.dev.pipeSt i.val).l3 = x.l3 ∧ (t.dev.pipeSt i.val).turn = src ∧
        (t.dev.pipeSt i.val).rw 0x10 = 4 ∧ (t.dev.pipeSt i.val).rw 0x14 = 0xFFFF ∧ (t.dev.pipeSt i.val).rw 2 = x.pan % 2 ^ 32 ∧
        (t.dev.pipeSt i.val).queues.get [] src = rest ∧ s.dev.sameBut [.out, .cnt, .ev, .pipe] t.dev) ∧
    (∀ j : Fin 2048, (s.dev.pipe.reasm.length ≤ j.val → exec (.reasmTimeout j) s = .next (s.goes s.fresh)) ∧
      (j.val < s.dev.pipe.reasm.length → exec (.reasmTimeout j) s = .next (s.goes
        (({ s.fresh with pipe := { s.dev.pipe with reasm := s.dev.pipe.reasm.eraseIdx j.val } }).bump Cnt.REASM_TIMEOUT))))

/-- The freeze fixes what a boundary applies, the boundary opens the next epoch, each domain takes it at its strobe,
and the snapshot follows. Rests on R50, R52, R54, R60, R67, R68, R69, R72, R73. Model choices it rests on: log entries
24, 25, 26, 27, 28, 29, 35, 135, 138, 139, 160. -/
def Obligations.EpochsFreezeBeginAndReachEachDomain : Prop :=
  ∀ (s : State),
    (s.dev.modes.inReset = true → exec .stagingFreeze s = .next (s.goes s.fresh) ∧
      exec .epochBoundary s = .next (s.goes s.fresh)) ∧
    (s.dev.modes.inReset = false →
      (∃ t, exec .stagingFreeze s = .next t ∧ t.dev.epoch.frozen = true ∧
        t.dev.time.ns = max s.dev.time.ns (s.dev.epoch.nextB - 1000000) ∧ t.dev.epoch.num = s.dev.epoch.num ∧
        t.dev.stg.hold = s.dev.stg.hold ∧ t.dev.cfg = s.dev.cfg ∧
        (s.dev.stg.hold = true → t.dev.stg.regs = s.dev.stg.regs ∧ t.dev.stg.frozenRegs = s.dev.stg.frozenRegs) ∧
        (s.dev.stg.hold = false → t.dev.stg.regs = [] ∧
          (∀ off, s.dev.stg.regs.find off = none → t.dev.stg.frozenRegs.find off = s.dev.stg.frozenRegs.find off) ∧
          (∀ off v, (s.dev.stg.regs.map Prod.fst).Nodup → s.dev.stg.regs.find off = some v →
            t.dev.stg.frozenRegs.find off = some v) ∧
          (∀ x ∈ t.dev.stg.cmds, (x.atEpoch = none ∨ ∃ e, x.atEpoch = some e ∧ e ≤ s.dev.nextNum) → x.frozen = true))) ∧
      (∃ t, exec .epochBoundary s = .next t ∧ t.dev.epoch.num = s.dev.nextNum ∧
        t.dev.epoch.start = max s.dev.time.ns s.dev.epoch.nextB ∧ t.dev.epoch.frozen = false ∧
        t.dev.epoch.strobes = [.dsp, .pipe, .core, .pcie, .serdes, .lpddr] ∧
        t.dev.epoch.numDsp = s.dev.epoch.numDsp ∧ t.dev.epoch.numPipe = s.dev.epoch.numPipe ∧
        (∀ x ph, s.dev.stg.cmds = [x] → x.frozen = true → x.cmd.op = .CMD_SET_PHASE → Dev.phaseTarget x.cmd.p = some ph →
          s.dev.modes.romDue = false → s.dev.modes.lossFrozen = false → s.dev.modes.soloFrozen = false →
          s.dev.modes.activeFrozen = false → (∀ v, s.dev.vat.inForce = some v → v.rom = false) →
          t.dev.modes.phase = ph ∧ t.dev.stg.cmds = [] ∧
          t.dev.stg.done = s.dev.stg.done ++ [s.dev.cplOf x.cmd .ST_OK [] s.dev.nextNum]))) ∧
    (∀ dom, dom ∉ s.dev.epoch.strobes → exec (.boundaryStrobeArrival dom) s = .next (s.goes s.fresh)) ∧
    (∀ dom, dom ∈ s.dev.epoch.strobes → (dom = .pipe → s.dev.runs = true) →
      ∃ t, exec (.boundaryStrobeArrival dom) s = .next t ∧ t.dev.epoch.num = s.dev.epoch.num ∧
        t.dev.epoch.strobes = s.dev.epoch.strobes.filter (fun x => x != dom) ∧
        (dom = .dsp → t.dev.epoch.numDsp = s.dev.epoch.num) ∧
        (dom = .pipe → t.dev.epoch.numPipe = s.dev.epoch.num ∧ t.dev.snap.fill = true) ∧
        (dom = .core → t.dev.epoch.numCore = s.dev.epoch.num) ∧
        (dom = .pcie → t.dev.epoch.numPcie = s.dev.epoch.num ∧ t.dev.stg.done = []) ∧
        (dom = .serdes → t.dev.epoch.numSerdes = s.dev.epoch.num) ∧
        (dom = .lpddr → t.dev.epoch.numLpddr = s.dev.epoch.num)) ∧
    (s.dev.snap.fill = false → exec .snapshotPublish s = .next (s.goes s.fresh)) ∧
    (s.dev.snap.fill = true → ∃ t, exec .snapshotPublish s = .next t ∧ t.dev.snap.fill = false ∧
      t.dev.snap.buf = !s.dev.snap.buf ∧ t.dev.snap.pubSeq = (s.dev.snap.pubSeq + 1) % 65536 ∧
      (if s.dev.snap.buf then t.dev.snap.b1 = s.dev.snap.b1 else t.dev.snap.b0 = s.dev.snap.b0) ∧
      (∀ b, (if s.dev.snap.buf then t.dev.snap.b0 else t.dev.snap.b1) = b →
        (s.dev.cnt.late = [] → b.vals = s.dev.snap.latch) ∧ b.epoch = s.dev.snap.ended ∧
        b.pubSeq = (s.dev.snap.pubSeq + 1) % 65536 ∧ b.nbrs = s.dev.snap.latchNbrs ∧ b.limits = s.dev.snap.latchLimits) ∧
      t.dev.ev.seq = s.dev.ev.seq + s.dev.evStep ∧ s.dev.sameBut [.out, .freeCtr, .snap, .cnt, .ev] t.dev) ∧
    (∀ v, s.dev.vat.inForce = some v → v.rom = true → s.dev.modes.phase = .startUp → s.dev.runs = true →
      ∃ t, exec .romStartupDwellEnd s = .next t ∧
        (64 ≤ s.dev.modes.romDwell → t.dev.modes.phase = .service) ∧
        (s.dev.modes.romDwell = 63 → t.dev.modes = { s.dev.modes with dwellDue := true }) ∧
        (s.dev.modes.romDwell < 63 → t = s.goes s.fresh)) ∧
    (((∀ v, s.dev.vat.inForce = some v → v.rom = false) ∨ s.dev.modes.phase ≠ .startUp ∨ s.dev.runs = false) →
      exec .romStartupDwellEnd s = .next (s.goes s.fresh))

/-- Aging, address holds, background work, Verdigris and the token refill touch only what their rules name. Rests on
R216, R315, R339, R340, R348, R349, R350, R352, R396. Model choices it rests on: log entries 86, 88, 89, 102, 153,
160, 171. -/
def Obligations.TablesAgeAndRefillInTheBackground : Prop :=
  ∀ (s : State),
    (∀ slot : BitVec 18,
      (∀ e, s.dev.tbl.node.at_ slot.toNat = e → e.valid = true → e.aged = none → s.dev.aged e = true →
        home e.pan e.loc = slot.toNat → ∃ t, exec (.nodeAgeOut slot) s = .next t ∧
          t.dev.tbl.node.at_ slot.toNat = { e with aged := some s.dev.epoch.numPipe } ∧
          (∀ k, k ≠ slot.toNat → t.dev.tbl.node.at_ k = s.dev.tbl.node.at_ k) ∧
          (s.dev.inPool e.pan e.loc = true → (t.dev.pan e.pan).used.get false e.loc = false)) ∧
      (((s.dev.tbl.node.at_ slot.toNat).valid = false ∨ (s.dev.tbl.node.at_ slot.toNat).aged ≠ none ∨
          s.dev.aged (s.dev.tbl.node.at_ slot.toNat) = false) →
        exec (.nodeAgeOut slot) s = .next (s.goes s.fresh))) ∧
    (∀ (k : Fin 4) (a : W16),
      (s.dev.held k.val a.toNat = true → exec (.addressReleaseHoldEnd k a) s = .next (s.goes s.fresh)) ∧
      (s.dev.held k.val a.toNat = false → ∃ t, exec (.addressReleaseHoldEnd k a) s = .next t ∧
        (t.dev.pan k.val).hold.find a.toNat = none ∧
        (∀ b, b ≠ a.toNat → (t.dev.pan k.val).hold.find b = (s.dev.pan k.val).hold.find b) ∧
        (t.dev.pan k.val).used = (s.dev.pan k.val).used ∧ s.dev.sameBut [.out, .air] t.dev)) ∧
    (∀ x q, (s.dev.rebuild 0).queue = x :: q → ∃ t, exec .backgroundTableWork s = .next t ∧
      (t.dev.rebuild 0).queue = q ∧ t.dev.tbl.node = s.dev.tbl.node ∧ t.dev.tbl.route = s.dev.tbl.route ∧
      t.dev.tbl.pfx = s.dev.tbl.pfx) ∧
    ((∀ n ∈ [0, 1, 2], (s.dev.rebuild n).queue = [] ∧ ((s.dev.rebuild n).st ≠ .copying ∨ (s.dev.rebuild n).left = [])) →
      (∀ x, s.dev.tbl.node.slots.find? (fun y => y.2.valid && y.2.aged.isSome) = some x →
        ∃ t, exec .backgroundTableWork s = .next t ∧ (t.dev.tbl.node.at_ x.1).valid = false ∧
          (∀ k, k ≠ x.1 → t.dev.tbl.node.at_ k = s.dev.tbl.node.at_ k)) ∧
      (∀ x, (∀ y ∈ s.dev.tbl.node.slots, y.2.valid = true → y.2.aged = none) →
        s.dev.tbl.route.slots.find? (fun y => y.2.valid && decide (y.2.expires ≠ 0 ∧ y.2.expires ≤ s.dev.epoch.numPipe)) = some x →
        exec .backgroundTableWork s = .next (s.goes ((s.fresh.eraseRoute x.2.pan x.2.target).bump Cnt.ROUTE_EXPIRED))) ∧
      ((∀ y ∈ s.dev.tbl.node.slots, y.2.valid = true → y.2.aged = none) → s.dev.tbl.route.slots = [] →
        s.dev.tbl.seen.slots = [] → s.dev.tbl.seenClear = false →
        exec .backgroundTableWork s = .next (s.goes s.fresh))) ∧
    ((s.dev.runs = false ∨ s.dev.cfg.VG_CTL_EN = 0 ∨ s.dev.sweepsDue = true ∨ max 1 s.dev.cfg.VG_CTL_RATE ≤ s.dev.vgThisMs) →
      exec .verdigrisCompare s = .next (s.goes s.fresh)) ∧
    (∀ e o, s.dev.runs = true → s.dev.cfg.VG_CTL_EN ≠ 0 → s.dev.sweepsDue = false → s.dev.vgThisMs < max 1 s.dev.cfg.VG_CTL_RATE →
      s.dev.tbl.vg.table = 0 → s.dev.tbl.vg.index + 1 < 262144 → s.dev.tbl.node.at_ s.dev.tbl.vg.index = e →
      home e.pan e.loc = s.dev.tbl.vg.index → s.dev.seesNode e = true → e.adopted = true → s.dev.settling e.setEpoch = false →
      s.dev.held (homeOf s.dev.tbl.vg.index).1 (homeOf s.dev.tbl.vg.index).2 = false →
      memRead s.dev.disp.dram (s.dev.cfg.VG_BASE_BASE_4K 0 * 4096 + 32 * Dev.shadowOf s.dev.tbl.vg.index) 32 = o →
      ∃ t, exec .verdigrisCompare s = .next t ∧ t.dev.tbl.vg.index = s.dev.tbl.vg.index + 1 ∧ t.dev.tbl.vg.table = 0 ∧
        t.dev.tbl.vg.done = s.dev.vgThisMs + 1 ∧
        (bit (fld o 0x0A 1) 0 = false → t.dev.tbl.node.at_ s.dev.tbl.vg.index = { e with quarantine := true, qreason := 2 } ∧
          t.dev.tbl.vg.mismatches = s.dev.tbl.vg.mismatches + 1) ∧
        (bit (fld o 0x0A 1) 0 = true → Dev.nodeDiffers e o = true →
          t.dev.tbl.node.at_ s.dev.tbl.vg.index = { e with quarantine := true, qreason := 1 } ∧
          t.dev.tbl.vg.mismatches = s.dev.tbl.vg.mismatches + 1) ∧
        (bit (fld o 0x0A 1) 0 = true → Dev.nodeDiffers e o = false →
          t.dev.tbl.node = s.dev.tbl.node ∧ t.dev.tbl.vg.mismatches = s.dev.tbl.vg.mismatches)) ∧
    (∃ t, exec .tokenRefill s = .next t ∧
      (∀ n x, s.dev.tm.shapers.find n = some x → x.staged = none → t.dev.tm.shapers.find n =
        some { x with bucket := min (x.bucket + (x.rate : Int)) ((x.burst * 256 : Nat) : Int) }) ∧
      (∀ n x, s.dev.tm.policers.find n = some x → x.staged = none → t.dev.tm.policers.find n =
        some { x with c := min (x.c + x.cir) (x.cbs * 256), p := min (x.p + x.pir) (x.pbs * 256) }) ∧
      t.dev.tm.queues = s.dev.tm.queues ∧ s.dev.sameBut [.out, .tm, .cnt, .ev] t.dev)

/-- A keystore record is committed by its commit record and verifies under it; a WIN_SNAP read takes both its halves
from one snapshot. Rests on R15, R60, R72, R73, R440, R442, R443, R444, R446. Model choices it rests on: log entries
106, 138, 161, 168, 183, 203. -/
def Obligations.RecordsCarryTheirCommitAndSnapshotsAreReadWhole : Prop :=
  ∀ (s : State),
    (∀ (r x : KsRecord) (c : List Byte), s.dev.sealRecord r = x → x.commit = c →
      x = { r with commit := c } ∧ c.length = 64 ∧ slice c 0 4 = asc "QZKC" ∧
      fld c 4 4 = (s.dev.ksBody r).length % 2 ^ 32 ∧ fld c 8 8 = r.counter % 2 ^ 64 ∧ slice c 0x10 16 = s.dev.ksTag r ∧
      zeros c 0x20 28 = true ∧ fld c 0x3C 4 = crc32 (slice c 0 0x3C) ∧
      ((s.dev.ksBody r).length < 2 ^ 32 → r.counter < 2 ^ 64 → s.dev.ksCommitted x = true ∧
        (r.meas = s.dev.sec.meas → r.lc = s.dev.sec.lc → (r.lc = 1 ∨ r.lc = 2) → s.dev.ksQualifies (some x) = true)) ∧
      s.dev.ksCommitted { r with commit := [] } = false) ∧
    (∀ (h : Hdr) (p b : List Byte), s.fresh.accepts ⟨h, .CMD_KEY_MIGRATE, 0, p⟩ → s.dev.keysAllowed = true →
      s.dev.sec.migrationPending = false → s.dev.sec.write = none → fld p 0 1 ≤ 1 → zeros p 1 7 = true →
      zeros p 0x14 44 = true → 0x15E8 ≤ fld p 0x10 4 → fld p 0x10 4 ≤ 4194304 → s.dev.manifestBad (slice b 0 (fld p 0x10 4)) = none → s.dev.otp.secMin ≤ fld b 8 4 →
      ∃ t w, exec (.cmdKeyMigrate h p (some b)) s = .next t ∧ t.dev.sec.write = some w ∧
        w.rcd = s.dev.sealRecord { w.rcd with commit := [] } ∧
        (if s.dev.ksOther = 0 then t.dev.ks0 = none ∧ t.dev.ks1 = s.dev.ks1
         else t.dev.ks1 = none ∧ t.dev.ks0 = s.dev.ks0)) ∧
    (∀ off, off < 0x4000000 →
      (off % 4 = 0 → (s.dev.readSnap off false).isSome = true) ∧ (off % 4 ≠ 0 → s.dev.readSnap off false = none) ∧
      (off % 8 ≠ 0 → s.dev.readSnap off true = none) ∧
      (∀ lo hi, off % 8 = 0 → s.dev.readSnap off false = some lo → s.dev.readSnap (off + 4) false = some hi →
        s.dev.readSnap off true = some (lo + hi * 2 ^ 32))) ∧
    (∀ off w, 0x4000000 ≤ off → s.dev.readSnap off w = none) ∧
    (s.dev.snap.fill = true → ∃ t at_, exec .snapshotPublish s = .next t ∧
      at_ = (if t.dev.snap.buf then 0x2000000 else 0) ∧ t.dev.readSnap at_ true = some (s.dev.snap.ended % 2 ^ 48) ∧
      t.dev.readSnap (at_ + 8) true = some ((s.dev.snap.pubSeq + 1) % 65536))

end
end

