-- ==== Sys2Proof/Laws/State.lean ====
section
/-! SUPPORT. One lemma per unit of the state and per elementary update: the update leaves every other unit alone. -/

-- One proof at a time: the package compiles as one text, and proofs elaborated side by side each take a thread's stack.
set_option Elab.async false

namespace Sys2Proof.Machine

/-! ### setPort -/

@[simp] theorem Dev.setPort_out (d : Dev) (p : Nat) (x : Port) : (d.setPort p x).out = d.out := rfl
@[simp] theorem Dev.setPort_freeCtr (d : Dev) (p : Nat) (x : Port) : (d.setPort p x).freeCtr = d.freeCtr := rfl
@[simp] theorem Dev.setPort_modes (d : Dev) (p : Nat) (x : Port) : (d.setPort p x).modes = d.modes := rfl
@[simp] theorem Dev.setPort_epoch (d : Dev) (p : Nat) (x : Port) : (d.setPort p x).epoch = d.epoch := rfl
@[simp] theorem Dev.setPort_cfg (d : Dev) (p : Nat) (x : Port) : (d.setPort p x).cfg = d.cfg := rfl
@[simp] theorem Dev.setPort_stg (d : Dev) (p : Nat) (x : Port) : (d.setPort p x).stg = d.stg := rfl
@[simp] theorem Dev.setPort_snap (d : Dev) (p : Nat) (x : Port) : (d.setPort p x).snap = d.snap := rfl
@[simp] theorem Dev.setPort_cnt (d : Dev) (p : Nat) (x : Port) : (d.setPort p x).cnt = d.cnt := rfl
@[simp] theorem Dev.setPort_vio (d : Dev) (p : Nat) (x : Port) : (d.setPort p x).vio = d.vio := rfl
@[simp] theorem Dev.setPort_ev (d : Dev) (p : Nat) (x : Port) : (d.setPort p x).ev = d.ev := rfl
@[simp] theorem Dev.setPort_flt (d : Dev) (p : Nat) (x : Port) : (d.setPort p x).flt = d.flt := rfl
@[simp] theorem Dev.setPort_host (d : Dev) (p : Nat) (x : Port) : (d.setPort p x).host = d.host := rfl
@[simp] theorem Dev.setPort_disp (d : Dev) (p : Nat) (x : Port) : (d.setPort p x).disp = d.disp := rfl
@[simp] theorem Dev.setPort_cin (d : Dev) (p : Nat) (x : Port) : (d.setPort p x).cin = d.cin := rfl
@[simp] theorem Dev.setPort_lanes (d : Dev) (p : Nat) (x : Port) : (d.setPort p x).lanes = d.lanes := rfl
@[simp] theorem Dev.setPort_txc (d : Dev) (p : Nat) (x : Port) : (d.setPort p x).txc = d.txc := rfl
@[simp] theorem Dev.setPort_duty (d : Dev) (p : Nat) (x : Port) : (d.setPort p x).duty = d.duty := rfl
@[simp] theorem Dev.setPort_air (d : Dev) (p : Nat) (x : Port) : (d.setPort p x).air = d.air := rfl
@[simp] theorem Dev.setPort_seqs (d : Dev) (p : Nat) (x : Port) : (d.setPort p x).seqs = d.seqs := rfl
@[simp] theorem Dev.setPort_vat (d : Dev) (p : Nat) (x : Port) : (d.setPort p x).vat = d.vat := rfl
@[simp] theorem Dev.setPort_tbl (d : Dev) (p : Nat) (x : Port) : (d.setPort p x).tbl = d.tbl := rfl
@[simp] theorem Dev.setPort_pipe (d : Dev) (p : Nat) (x : Port) : (d.setPort p x).pipe = d.pipe := rfl
@[simp] theorem Dev.setPort_tm (d : Dev) (p : Nat) (x : Port) : (d.setPort p x).tm = d.tm := rfl
@[simp] theorem Dev.setPort_time (d : Dev) (p : Nat) (x : Port) : (d.setPort p x).time = d.time := rfl
@[simp] theorem Dev.setPort_otp (d : Dev) (p : Nat) (x : Port) : (d.setPort p x).otp = d.otp := rfl
@[simp] theorem Dev.setPort_ks0 (d : Dev) (p : Nat) (x : Port) : (d.setPort p x).ks0 = d.ks0 := rfl
@[simp] theorem Dev.setPort_ks1 (d : Dev) (p : Nat) (x : Port) : (d.setPort p x).ks1 = d.ks1 := rfl
@[simp] theorem Dev.setPort_pair (d : Dev) (p : Nat) (x : Port) : (d.setPort p x).pair = d.pair := rfl
@[simp] theorem Dev.setPort_elec (d : Dev) (p : Nat) (x : Port) : (d.setPort p x).elec = d.elec := rfl
@[simp] theorem Dev.setPort_sec (d : Dev) (p : Nat) (x : Port) : (d.setPort p x).sec = d.sec := rfl
@[simp] theorem Dev.setPort_links (d : Dev) (p : Nat) (x : Port) : (d.setPort p x).links = d.links := rfl

/-! ### setLane -/

@[simp] theorem Dev.setLane_out (d : Dev) (l : Nat) (x : Lane) : (d.setLane l x).out = d.out := rfl
@[simp] theorem Dev.setLane_freeCtr (d : Dev) (l : Nat) (x : Lane) : (d.setLane l x).freeCtr = d.freeCtr := rfl
@[simp] theorem Dev.setLane_modes (d : Dev) (l : Nat) (x : Lane) : (d.setLane l x).modes = d.modes := rfl
@[simp] theorem Dev.setLane_epoch (d : Dev) (l : Nat) (x : Lane) : (d.setLane l x).epoch = d.epoch := rfl
@[simp] theorem Dev.setLane_cfg (d : Dev) (l : Nat) (x : Lane) : (d.setLane l x).cfg = d.cfg := rfl
@[simp] theorem Dev.setLane_stg (d : Dev) (l : Nat) (x : Lane) : (d.setLane l x).stg = d.stg := rfl
@[simp] theorem Dev.setLane_snap (d : Dev) (l : Nat) (x : Lane) : (d.setLane l x).snap = d.snap := rfl
@[simp] theorem Dev.setLane_cnt (d : Dev) (l : Nat) (x : Lane) : (d.setLane l x).cnt = d.cnt := rfl
@[simp] theorem Dev.setLane_vio (d : Dev) (l : Nat) (x : Lane) : (d.setLane l x).vio = d.vio := rfl
@[simp] theorem Dev.setLane_ev (d : Dev) (l : Nat) (x : Lane) : (d.setLane l x).ev = d.ev := rfl
@[simp] theorem Dev.setLane_flt (d : Dev) (l : Nat) (x : Lane) : (d.setLane l x).flt = d.flt := rfl
@[simp] theorem Dev.setLane_host (d : Dev) (l : Nat) (x : Lane) : (d.setLane l x).host = d.host := rfl
@[simp] theorem Dev.setLane_disp (d : Dev) (l : Nat) (x : Lane) : (d.setLane l x).disp = d.disp := rfl
@[simp] theorem Dev.setLane_ports (d : Dev) (l : Nat) (x : Lane) : (d.setLane l x).ports = d.ports := rfl
@[simp] theorem Dev.setLane_cin (d : Dev) (l : Nat) (x : Lane) : (d.setLane l x).cin = d.cin := rfl
@[simp] theorem Dev.setLane_txc (d : Dev) (l : Nat) (x : Lane) : (d.setLane l x).txc = d.txc := rfl
@[simp] theorem Dev.setLane_duty (d : Dev) (l : Nat) (x : Lane) : (d.setLane l x).duty = d.duty := rfl
@[simp] theorem Dev.setLane_air (d : Dev) (l : Nat) (x : Lane) : (d.setLane l x).air = d.air := rfl
@[simp] theorem Dev.setLane_seqs (d : Dev) (l : Nat) (x : Lane) : (d.setLane l x).seqs = d.seqs := rfl
@[simp] theorem Dev.setLane_vat (d : Dev) (l : Nat) (x : Lane) : (d.setLane l x).vat = d.vat := rfl
@[simp] theorem Dev.setLane_tbl (d : Dev) (l : Nat) (x : Lane) : (d.setLane l x).tbl = d.tbl := rfl
@[simp] theorem Dev.setLane_pipe (d : Dev) (l : Nat) (x : Lane) : (d.setLane l x).pipe = d.pipe := rfl
@[simp] theorem Dev.setLane_tm (d : Dev) (l : Nat) (x : Lane) : (d.setLane l x).tm = d.tm := rfl
@[simp] theorem Dev.setLane_time (d : Dev) (l : Nat) (x : Lane) : (d.setLane l x).time = d.time := rfl
@[simp] theorem Dev.setLane_otp (d : Dev) (l : Nat) (x : Lane) : (d.setLane l x).otp = d.otp := rfl
@[simp] theorem Dev.setLane_ks0 (d : Dev) (l : Nat) (x : Lane) : (d.setLane l x).ks0 = d.ks0 := rfl
@[simp] theorem Dev.setLane_ks1 (d : Dev) (l : Nat) (x : Lane) : (d.setLane l x).ks1 = d.ks1 := rfl
@[simp] theorem Dev.setLane_pair (d : Dev) (l : Nat) (x : Lane) : (d.setLane l x).pair = d.pair := rfl
@[simp] theorem Dev.setLane_elec (d : Dev) (l : Nat) (x : Lane) : (d.setLane l x).elec = d.elec := rfl
@[simp] theorem Dev.setLane_sec (d : Dev) (l : Nat) (x : Lane) : (d.setLane l x).sec = d.sec := rfl
@[simp] theorem Dev.setLane_links (d : Dev) (l : Nat) (x : Lane) : (d.setLane l x).links = d.links := rfl

/-! ### setCarrier -/

@[simp] theorem Dev.setCarrier_out (d : Dev) (c : Nat) (x : Carrier) : (d.setCarrier c x).out = d.out := rfl
@[simp] theorem Dev.setCarrier_freeCtr (d : Dev) (c : Nat) (x : Carrier) : (d.setCarrier c x).freeCtr = d.freeCtr := rfl
@[simp] theorem Dev.setCarrier_modes (d : Dev) (c : Nat) (x : Carrier) : (d.setCarrier c x).modes = d.modes := rfl
@[simp] theorem Dev.setCarrier_epoch (d : Dev) (c : Nat) (x : Carrier) : (d.setCarrier c x).epoch = d.epoch := rfl
@[simp] theorem Dev.setCarrier_cfg (d : Dev) (c : Nat) (x : Carrier) : (d.setCarrier c x).cfg = d.cfg := rfl
@[simp] theorem Dev.setCarrier_stg (d : Dev) (c : Nat) (x : Carrier) : (d.setCarrier c x).stg = d.stg := rfl
@[simp] theorem Dev.setCarrier_snap (d : Dev) (c : Nat) (x : Carrier) : (d.setCarrier c x).snap = d.snap := rfl
@[simp] theorem Dev.setCarrier_cnt (d : Dev) (c : Nat) (x : Carrier) : (d.setCarrier c x).cnt = d.cnt := rfl
@[simp] theorem Dev.setCarrier_vio (d : Dev) (c : Nat) (x : Carrier) : (d.setCarrier c x).vio = d.vio := rfl
@[simp] theorem Dev.setCarrier_ev (d : Dev) (c : Nat) (x : Carrier) : (d.setCarrier c x).ev = d.ev := rfl
@[simp] theorem Dev.setCarrier_flt (d : Dev) (c : Nat) (x : Carrier) : (d.setCarrier c x).flt = d.flt := rfl
@[simp] theorem Dev.setCarrier_host (d : Dev) (c : Nat) (x : Carrier) : (d.setCarrier c x).host = d.host := rfl
@[simp] theorem Dev.setCarrier_disp (d : Dev) (c : Nat) (x : Carrier) : (d.setCarrier c x).disp = d.disp := rfl
@[simp] theorem Dev.setCarrier_ports (d : Dev) (c : Nat) (x : Carrier) : (d.setCarrier c x).ports = d.ports := rfl
@[simp] theorem Dev.setCarrier_cin (d : Dev) (c : Nat) (x : Carrier) : (d.setCarrier c x).cin = d.cin := rfl
@[simp] theorem Dev.setCarrier_lanes (d : Dev) (c : Nat) (x : Carrier) : (d.setCarrier c x).lanes = d.lanes := rfl
@[simp] theorem Dev.setCarrier_duty (d : Dev) (c : Nat) (x : Carrier) : (d.setCarrier c x).duty = d.duty := rfl
@[simp] theorem Dev.setCarrier_air (d : Dev) (c : Nat) (x : Carrier) : (d.setCarrier c x).air = d.air := rfl
@[simp] theorem Dev.setCarrier_seqs (d : Dev) (c : Nat) (x : Carrier) : (d.setCarrier c x).seqs = d.seqs := rfl
@[simp] theorem Dev.setCarrier_vat (d : Dev) (c : Nat) (x : Carrier) : (d.setCarrier c x).vat = d.vat := rfl
@[simp] theorem Dev.setCarrier_tbl (d : Dev) (c : Nat) (x : Carrier) : (d.setCarrier c x).tbl = d.tbl := rfl
@[simp] theorem Dev.setCarrier_pipe (d : Dev) (c : Nat) (x : Carrier) : (d.setCarrier c x).pipe = d.pipe := rfl
@[simp] theorem Dev.setCarrier_tm (d : Dev) (c : Nat) (x : Carrier) : (d.setCarrier c x).tm = d.tm := rfl
@[simp] theorem Dev.setCarrier_time (d : Dev) (c : Nat) (x : Carrier) : (d.setCarrier c x).time = d.time := rfl
@[simp] theorem Dev.setCarrier_otp (d : Dev) (c : Nat) (x : Carrier) : (d.setCarrier c x).otp = d.otp := rfl
@[simp] theorem Dev.setCarrier_ks0 (d : Dev) (c : Nat) (x : Carrier) : (d.setCarrier c x).ks0 = d.ks0 := rfl
@[simp] theorem Dev.setCarrier_ks1 (d : Dev) (c : Nat) (x : Carrier) : (d.setCarrier c x).ks1 = d.ks1 := rfl
@[simp] theorem Dev.setCarrier_pair (d : Dev) (c : Nat) (x : Carrier) : (d.setCarrier c x).pair = d.pair := rfl
@[simp] theorem Dev.setCarrier_elec (d : Dev) (c : Nat) (x : Carrier) : (d.setCarrier c x).elec = d.elec := rfl
@[simp] theorem Dev.setCarrier_sec (d : Dev) (c : Nat) (x : Carrier) : (d.setCarrier c x).sec = d.sec := rfl
@[simp] theorem Dev.setCarrier_links (d : Dev) (c : Nat) (x : Carrier) : (d.setCarrier c x).links = d.links := rfl

/-! ### setSeq -/

@[simp] theorem Dev.setSeq_out (d : Dev) (n : Nat) (x : Seq) : (d.setSeq n x).out = d.out := rfl
@[simp] theorem Dev.setSeq_freeCtr (d : Dev) (n : Nat) (x : Seq) : (d.setSeq n x).freeCtr = d.freeCtr := rfl
@[simp] theorem Dev.setSeq_modes (d : Dev) (n : Nat) (x : Seq) : (d.setSeq n x).modes = d.modes := rfl
@[simp] theorem Dev.setSeq_epoch (d : Dev) (n : Nat) (x : Seq) : (d.setSeq n x).epoch = d.epoch := rfl
@[simp] theorem Dev.setSeq_cfg (d : Dev) (n : Nat) (x : Seq) : (d.setSeq n x).cfg = d.cfg := rfl
@[simp] theorem Dev.setSeq_stg (d : Dev) (n : Nat) (x : Seq) : (d.setSeq n x).stg = d.stg := rfl
@[simp] theorem Dev.setSeq_snap (d : Dev) (n : Nat) (x : Seq) : (d.setSeq n x).snap = d.snap := rfl
@[simp] theorem Dev.setSeq_cnt (d : Dev) (n : Nat) (x : Seq) : (d.setSeq n x).cnt = d.cnt := rfl
@[simp] theorem Dev.setSeq_vio (d : Dev) (n : Nat) (x : Seq) : (d.setSeq n x).vio = d.vio := rfl
@[simp] theorem Dev.setSeq_ev (d : Dev) (n : Nat) (x : Seq) : (d.setSeq n x).ev = d.ev := rfl
@[simp] theorem Dev.setSeq_flt (d : Dev) (n : Nat) (x : Seq) : (d.setSeq n x).flt = d.flt := rfl
@[simp] theorem Dev.setSeq_host (d : Dev) (n : Nat) (x : Seq) : (d.setSeq n x).host = d.host := rfl
@[simp] theorem Dev.setSeq_disp (d : Dev) (n : Nat) (x : Seq) : (d.setSeq n x).disp = d.disp := rfl
@[simp] theorem Dev.setSeq_ports (d : Dev) (n : Nat) (x : Seq) : (d.setSeq n x).ports = d.ports := rfl
@[simp] theorem Dev.setSeq_cin (d : Dev) (n : Nat) (x : Seq) : (d.setSeq n x).cin = d.cin := rfl
@[simp] theorem Dev.setSeq_lanes (d : Dev) (n : Nat) (x : Seq) : (d.setSeq n x).lanes = d.lanes := rfl
@[simp] theorem Dev.setSeq_txc (d : Dev) (n : Nat) (x : Seq) : (d.setSeq n x).txc = d.txc := rfl
@[simp] theorem Dev.setSeq_duty (d : Dev) (n : Nat) (x : Seq) : (d.setSeq n x).duty = d.duty := rfl
@[simp] theorem Dev.setSeq_air (d : Dev) (n : Nat) (x : Seq) : (d.setSeq n x).air = d.air := rfl
@[simp] theorem Dev.setSeq_vat (d : Dev) (n : Nat) (x : Seq) : (d.setSeq n x).vat = d.vat := rfl
@[simp] theorem Dev.setSeq_tbl (d : Dev) (n : Nat) (x : Seq) : (d.setSeq n x).tbl = d.tbl := rfl
@[simp] theorem Dev.setSeq_pipe (d : Dev) (n : Nat) (x : Seq) : (d.setSeq n x).pipe = d.pipe := rfl
@[simp] theorem Dev.setSeq_tm (d : Dev) (n : Nat) (x : Seq) : (d.setSeq n x).tm = d.tm := rfl
@[simp] theorem Dev.setSeq_time (d : Dev) (n : Nat) (x : Seq) : (d.setSeq n x).time = d.time := rfl
@[simp] theorem Dev.setSeq_otp (d : Dev) (n : Nat) (x : Seq) : (d.setSeq n x).otp = d.otp := rfl
@[simp] theorem Dev.setSeq_ks0 (d : Dev) (n : Nat) (x : Seq) : (d.setSeq n x).ks0 = d.ks0 := rfl
@[simp] theorem Dev.setSeq_ks1 (d : Dev) (n : Nat) (x : Seq) : (d.setSeq n x).ks1 = d.ks1 := rfl
@[simp] theorem Dev.setSeq_pair (d : Dev) (n : Nat) (x : Seq) : (d.setSeq n x).pair = d.pair := rfl
@[simp] theorem Dev.setSeq_elec (d : Dev) (n : Nat) (x : Seq) : (d.setSeq n x).elec = d.elec := rfl
@[simp] theorem Dev.setSeq_sec (d : Dev) (n : Nat) (x : Seq) : (d.setSeq n x).sec = d.sec := rfl
@[simp] theorem Dev.setSeq_links (d : Dev) (n : Nat) (x : Seq) : (d.setSeq n x).links = d.links := rfl

/-! ### setPan -/

@[simp] theorem Dev.setPan_out (d : Dev) (k : Nat) (x : Pan) : (d.setPan k x).out = d.out := rfl
@[simp] theorem Dev.setPan_freeCtr (d : Dev) (k : Nat) (x : Pan) : (d.setPan k x).freeCtr = d.freeCtr := rfl
@[simp] theorem Dev.setPan_modes (d : Dev) (k : Nat) (x : Pan) : (d.setPan k x).modes = d.modes := rfl
@[simp] theorem Dev.setPan_epoch (d : Dev) (k : Nat) (x : Pan) : (d.setPan k x).epoch = d.epoch := rfl
@[simp] theorem Dev.setPan_cfg (d : Dev) (k : Nat) (x : Pan) : (d.setPan k x).cfg = d.cfg := rfl
@[simp] theorem Dev.setPan_stg (d : Dev) (k : Nat) (x : Pan) : (d.setPan k x).stg = d.stg := rfl
@[simp] theorem Dev.setPan_snap (d : Dev) (k : Nat) (x : Pan) : (d.setPan k x).snap = d.snap := rfl
@[simp] theorem Dev.setPan_cnt (d : Dev) (k : Nat) (x : Pan) : (d.setPan k x).cnt = d.cnt := rfl
@[simp] theorem Dev.setPan_vio (d : Dev) (k : Nat) (x : Pan) : (d.setPan k x).vio = d.vio := rfl
@[simp] theorem Dev.setPan_ev (d : Dev) (k : Nat) (x : Pan) : (d.setPan k x).ev = d.ev := rfl
@[simp] theorem Dev.setPan_flt (d : Dev) (k : Nat) (x : Pan) : (d.setPan k x).flt = d.flt := rfl
@[simp] theorem Dev.setPan_host (d : Dev) (k : Nat) (x : Pan) : (d.setPan k x).host = d.host := rfl
@[simp] theorem Dev.setPan_disp (d : Dev) (k : Nat) (x : Pan) : (d.setPan k x).disp = d.disp := rfl
@[simp] theorem Dev.setPan_ports (d : Dev) (k : Nat) (x : Pan) : (d.setPan k x).ports = d.ports := rfl
@[simp] theorem Dev.setPan_cin (d : Dev) (k : Nat) (x : Pan) : (d.setPan k x).cin = d.cin := rfl
@[simp] theorem Dev.setPan_lanes (d : Dev) (k : Nat) (x : Pan) : (d.setPan k x).lanes = d.lanes := rfl
@[simp] theorem Dev.setPan_txc (d : Dev) (k : Nat) (x : Pan) : (d.setPan k x).txc = d.txc := rfl
@[simp] theorem Dev.setPan_duty (d : Dev) (k : Nat) (x : Pan) : (d.setPan k x).duty = d.duty := rfl
@[simp] theorem Dev.setPan_seqs (d : Dev) (k : Nat) (x : Pan) : (d.setPan k x).seqs = d.seqs := rfl
@[simp] theorem Dev.setPan_vat (d : Dev) (k : Nat) (x : Pan) : (d.setPan k x).vat = d.vat := rfl
@[simp] theorem Dev.setPan_tbl (d : Dev) (k : Nat) (x : Pan) : (d.setPan k x).tbl = d.tbl := rfl
@[simp] theorem Dev.setPan_pipe (d : Dev) (k : Nat) (x : Pan) : (d.setPan k x).pipe = d.pipe := rfl
@[simp] theorem Dev.setPan_tm (d : Dev) (k : Nat) (x : Pan) : (d.setPan k x).tm = d.tm := rfl
@[simp] theorem Dev.setPan_time (d : Dev) (k : Nat) (x : Pan) : (d.setPan k x).time = d.time := rfl
@[simp] theorem Dev.setPan_otp (d : Dev) (k : Nat) (x : Pan) : (d.setPan k x).otp = d.otp := rfl
@[simp] theorem Dev.setPan_ks0 (d : Dev) (k : Nat) (x : Pan) : (d.setPan k x).ks0 = d.ks0 := rfl
@[simp] theorem Dev.setPan_ks1 (d : Dev) (k : Nat) (x : Pan) : (d.setPan k x).ks1 = d.ks1 := rfl
@[simp] theorem Dev.setPan_pair (d : Dev) (k : Nat) (x : Pan) : (d.setPan k x).pair = d.pair := rfl
@[simp] theorem Dev.setPan_elec (d : Dev) (k : Nat) (x : Pan) : (d.setPan k x).elec = d.elec := rfl
@[simp] theorem Dev.setPan_sec (d : Dev) (k : Nat) (x : Pan) : (d.setPan k x).sec = d.sec := rfl
@[simp] theorem Dev.setPan_links (d : Dev) (k : Nat) (x : Pan) : (d.setPan k x).links = d.links := rfl

/-! ### setRing -/

@[simp] theorem Dev.setRing_out (d : Dev) (n : Nat) (x : Ring) : (d.setRing n x).out = d.out := rfl
@[simp] theorem Dev.setRing_freeCtr (d : Dev) (n : Nat) (x : Ring) : (d.setRing n x).freeCtr = d.freeCtr := rfl
@[simp] theorem Dev.setRing_modes (d : Dev) (n : Nat) (x : Ring) : (d.setRing n x).modes = d.modes := rfl
@[simp] theorem Dev.setRing_epoch (d : Dev) (n : Nat) (x : Ring) : (d.setRing n x).epoch = d.epoch := rfl
@[simp] theorem Dev.setRing_cfg (d : Dev) (n : Nat) (x : Ring) : (d.setRing n x).cfg = d.cfg := rfl
@[simp] theorem Dev.setRing_stg (d : Dev) (n : Nat) (x : Ring) : (d.setRing n x).stg = d.stg := rfl
@[simp] theorem Dev.setRing_snap (d : Dev) (n : Nat) (x : Ring) : (d.setRing n x).snap = d.snap := rfl
@[simp] theorem Dev.setRing_cnt (d : Dev) (n : Nat) (x : Ring) : (d.setRing n x).cnt = d.cnt := rfl
@[simp] theorem Dev.setRing_vio (d : Dev) (n : Nat) (x : Ring) : (d.setRing n x).vio = d.vio := rfl
@[simp] theorem Dev.setRing_ev (d : Dev) (n : Nat) (x : Ring) : (d.setRing n x).ev = d.ev := rfl
@[simp] theorem Dev.setRing_flt (d : Dev) (n : Nat) (x : Ring) : (d.setRing n x).flt = d.flt := rfl
@[simp] theorem Dev.setRing_disp (d : Dev) (n : Nat) (x : Ring) : (d.setRing n x).disp = d.disp := rfl
@[simp] theorem Dev.setRing_ports (d : Dev) (n : Nat) (x : Ring) : (d.setRing n x).ports = d.ports := rfl
@[simp] theorem Dev.setRing_cin (d : Dev) (n : Nat) (x : Ring) : (d.setRing n x).cin = d.cin := rfl
@[simp] theorem Dev.setRing_lanes (d : Dev) (n : Nat) (x : Ring) : (d.setRing n x).lanes = d.lanes := rfl
@[simp] theorem Dev.setRing_txc (d : Dev) (n : Nat) (x : Ring) : (d.setRing n x).txc = d.txc := rfl
@[simp] theorem Dev.setRing_duty (d : Dev) (n : Nat) (x : Ring) : (d.setRing n x).duty = d.duty := rfl
@[simp] theorem Dev.setRing_air (d : Dev) (n : Nat) (x : Ring) : (d.setRing n x).air = d.air := rfl
@[simp] theorem Dev.setRing_seqs (d : Dev) (n : Nat) (x : Ring) : (d.setRing n x).seqs = d.seqs := rfl
@[simp] theorem Dev.setRing_vat (d : Dev) (n : Nat) (x : Ring) : (d.setRing n x).vat = d.vat := rfl
@[simp] theorem Dev.setRing_tbl (d : Dev) (n : Nat) (x : Ring) : (d.setRing n x).tbl = d.tbl := rfl
@[simp] theorem Dev.setRing_pipe (d : Dev) (n : Nat) (x : Ring) : (d.setRing n x).pipe = d.pipe := rfl
@[simp] theorem Dev.setRing_tm (d : Dev) (n : Nat) (x : Ring) : (d.setRing n x).tm = d.tm := rfl
@[simp] theorem Dev.setRing_time (d : Dev) (n : Nat) (x : Ring) : (d.setRing n x).time = d.time := rfl
@[simp] theorem Dev.setRing_otp (d : Dev) (n : Nat) (x : Ring) : (d.setRing n x).otp = d.otp := rfl
@[simp] theorem Dev.setRing_ks0 (d : Dev) (n : Nat) (x : Ring) : (d.setRing n x).ks0 = d.ks0 := rfl
@[simp] theorem Dev.setRing_ks1 (d : Dev) (n : Nat) (x : Ring) : (d.setRing n x).ks1 = d.ks1 := rfl
@[simp] theorem Dev.setRing_pair (d : Dev) (n : Nat) (x : Ring) : (d.setRing n x).pair = d.pair := rfl
@[simp] theorem Dev.setRing_elec (d : Dev) (n : Nat) (x : Ring) : (d.setRing n x).elec = d.elec := rfl
@[simp] theorem Dev.setRing_sec (d : Dev) (n : Nat) (x : Ring) : (d.setRing n x).sec = d.sec := rfl
@[simp] theorem Dev.setRing_links (d : Dev) (n : Nat) (x : Ring) : (d.setRing n x).links = d.links := rfl

/-! ### setShared -/

@[simp] theorem Dev.setShared_out (d : Dev) (g : Nat) (x : Shared) : (d.setShared g x).out = d.out := rfl
@[simp] theorem Dev.setShared_freeCtr (d : Dev) (g : Nat) (x : Shared) : (d.setShared g x).freeCtr = d.freeCtr := rfl
@[simp] theorem Dev.setShared_modes (d : Dev) (g : Nat) (x : Shared) : (d.setShared g x).modes = d.modes := rfl
@[simp] theorem Dev.setShared_epoch (d : Dev) (g : Nat) (x : Shared) : (d.setShared g x).epoch = d.epoch := rfl
@[simp] theorem Dev.setShared_cfg (d : Dev) (g : Nat) (x : Shared) : (d.setShared g x).cfg = d.cfg := rfl
@[simp] theorem Dev.setShared_stg (d : Dev) (g : Nat) (x : Shared) : (d.setShared g x).stg = d.stg := rfl
@[simp] theorem Dev.setShared_snap (d : Dev) (g : Nat) (x : Shared) : (d.setShared g x).snap = d.snap := rfl
@[simp] theorem Dev.setShared_cnt (d : Dev) (g : Nat) (x : Shared) : (d.setShared g x).cnt = d.cnt := rfl
@[simp] theorem Dev.setShared_vio (d : Dev) (g : Nat) (x : Shared) : (d.setShared g x).vio = d.vio := rfl
@[simp] theorem Dev.setShared_ev (d : Dev) (g : Nat) (x : Shared) : (d.setShared g x).ev = d.ev := rfl
@[simp] theorem Dev.setShared_flt (d : Dev) (g : Nat) (x : Shared) : (d.setShared g x).flt = d.flt := rfl
@[simp] theorem Dev.setShared_host (d : Dev) (g : Nat) (x : Shared) : (d.setShared g x).host = d.host := rfl
@[simp] theorem Dev.setShared_disp (d : Dev) (g : Nat) (x : Shared) : (d.setShared g x).disp = d.disp := rfl
@[simp] theorem Dev.setShared_ports (d : Dev) (g : Nat) (x : Shared) : (d.setShared g x).ports = d.ports := rfl
@[simp] theorem Dev.setShared_cin (d : Dev) (g : Nat) (x : Shared) : (d.setShared g x).cin = d.cin := rfl
@[simp] theorem Dev.setShared_lanes (d : Dev) (g : Nat) (x : Shared) : (d.setShared g x).lanes = d.lanes := rfl
@[simp] theorem Dev.setShared_txc (d : Dev) (g : Nat) (x : Shared) : (d.setShared g x).txc = d.txc := rfl
@[simp] theorem Dev.setShared_duty (d : Dev) (g : Nat) (x : Shared) : (d.setShared g x).duty = d.duty := rfl
@[simp] theorem Dev.setShared_seqs (d : Dev) (g : Nat) (x : Shared) : (d.setShared g x).seqs = d.seqs := rfl
@[simp] theorem Dev.setShared_vat (d : Dev) (g : Nat) (x : Shared) : (d.setShared g x).vat = d.vat := rfl
@[simp] theorem Dev.setShared_tbl (d : Dev) (g : Nat) (x : Shared) : (d.setShared g x).tbl = d.tbl := rfl
@[simp] theorem Dev.setShared_pipe (d : Dev) (g : Nat) (x : Shared) : (d.setShared g x).pipe = d.pipe := rfl
@[simp] theorem Dev.setShared_tm (d : Dev) (g : Nat) (x : Shared) : (d.setShared g x).tm = d.tm := rfl
@[simp] theorem Dev.setShared_time (d : Dev) (g : Nat) (x : Shared) : (d.setShared g x).time = d.time := rfl
@[simp] theorem Dev.setShared_otp (d : Dev) (g : Nat) (x : Shared) : (d.setShared g x).otp = d.otp := rfl
@[simp] theorem Dev.setShared_ks0 (d : Dev) (g : Nat) (x : Shared) : (d.setShared g x).ks0 = d.ks0 := rfl
@[simp] theorem Dev.setShared_ks1 (d : Dev) (g : Nat) (x : Shared) : (d.setShared g x).ks1 = d.ks1 := rfl
@[simp] theorem Dev.setShared_pair (d : Dev) (g : Nat) (x : Shared) : (d.setShared g x).pair = d.pair := rfl
@[simp] theorem Dev.setShared_elec (d : Dev) (g : Nat) (x : Shared) : (d.setShared g x).elec = d.elec := rfl
@[simp] theorem Dev.setShared_sec (d : Dev) (g : Nat) (x : Shared) : (d.setShared g x).sec = d.sec := rfl
@[simp] theorem Dev.setShared_links (d : Dev) (g : Nat) (x : Shared) : (d.setShared g x).links = d.links := rfl

/-! ### modQl -/

@[simp] theorem Dev.modQl_out (d : Dev) (q : Nat) (f : QlPort → QlPort) : (d.modQl q f).out = d.out := rfl
@[simp] theorem Dev.modQl_freeCtr (d : Dev) (q : Nat) (f : QlPort → QlPort) : (d.modQl q f).freeCtr = d.freeCtr := rfl
@[simp] theorem Dev.modQl_modes (d : Dev) (q : Nat) (f : QlPort → QlPort) : (d.modQl q f).modes = d.modes := rfl
@[simp] theorem Dev.modQl_epoch (d : Dev) (q : Nat) (f : QlPort → QlPort) : (d.modQl q f).epoch = d.epoch := rfl
@[simp] theorem Dev.modQl_cfg (d : Dev) (q : Nat) (f : QlPort → QlPort) : (d.modQl q f).cfg = d.cfg := rfl
@[simp] theorem Dev.modQl_stg (d : Dev) (q : Nat) (f : QlPort → QlPort) : (d.modQl q f).stg = d.stg := rfl
@[simp] theorem Dev.modQl_snap (d : Dev) (q : Nat) (f : QlPort → QlPort) : (d.modQl q f).snap = d.snap := rfl
@[simp] theorem Dev.modQl_cnt (d : Dev) (q : Nat) (f : QlPort → QlPort) : (d.modQl q f).cnt = d.cnt := rfl
@[simp] theorem Dev.modQl_vio (d : Dev) (q : Nat) (f : QlPort → QlPort) : (d.modQl q f).vio = d.vio := rfl
@[simp] theorem Dev.modQl_ev (d : Dev) (q : Nat) (f : QlPort → QlPort) : (d.modQl q f).ev = d.ev := rfl
@[simp] theorem Dev.modQl_flt (d : Dev) (q : Nat) (f : QlPort → QlPort) : (d.modQl q f).flt = d.flt := rfl
@[simp] theorem Dev.modQl_host (d : Dev) (q : Nat) (f : QlPort → QlPort) : (d.modQl q f).host = d.host := rfl
@[simp] theorem Dev.modQl_disp (d : Dev) (q : Nat) (f : QlPort → QlPort) : (d.modQl q f).disp = d.disp := rfl
@[simp] theorem Dev.modQl_ports (d : Dev) (q : Nat) (f : QlPort → QlPort) : (d.modQl q f).ports = d.ports := rfl
@[simp] theorem Dev.modQl_cin (d : Dev) (q : Nat) (f : QlPort → QlPort) : (d.modQl q f).cin = d.cin := rfl
@[simp] theorem Dev.modQl_lanes (d : Dev) (q : Nat) (f : QlPort → QlPort) : (d.modQl q f).lanes = d.lanes := rfl
@[simp] theorem Dev.modQl_txc (d : Dev) (q : Nat) (f : QlPort → QlPort) : (d.modQl q f).txc = d.txc := rfl
@[simp] theorem Dev.modQl_duty (d : Dev) (q : Nat) (f : QlPort → QlPort) : (d.modQl q f).duty = d.duty := rfl
@[simp] theorem Dev.modQl_air (d : Dev) (q : Nat) (f : QlPort → QlPort) : (d.modQl q f).air = d.air := rfl
@[simp] theorem Dev.modQl_seqs (d : Dev) (q : Nat) (f : QlPort → QlPort) : (d.modQl q f).seqs = d.seqs := rfl
@[simp] theorem Dev.modQl_vat (d : Dev) (q : Nat) (f : QlPort → QlPort) : (d.modQl q f).vat = d.vat := rfl
@[simp] theorem Dev.modQl_tbl (d : Dev) (q : Nat) (f : QlPort → QlPort) : (d.modQl q f).tbl = d.tbl := rfl
@[simp] theorem Dev.modQl_pipe (d : Dev) (q : Nat) (f : QlPort → QlPort) : (d.modQl q f).pipe = d.pipe := rfl
@[simp] theorem Dev.modQl_tm (d : Dev) (q : Nat) (f : QlPort → QlPort) : (d.modQl q f).tm = d.tm := rfl
@[simp] theorem Dev.modQl_time (d : Dev) (q : Nat) (f : QlPort → QlPort) : (d.modQl q f).time = d.time := rfl
@[simp] theorem Dev.modQl_otp (d : Dev) (q : Nat) (f : QlPort → QlPort) : (d.modQl q f).otp = d.otp := rfl
@[simp] theorem Dev.modQl_ks0 (d : Dev) (q : Nat) (f : QlPort → QlPort) : (d.modQl q f).ks0 = d.ks0 := rfl
@[simp] theorem Dev.modQl_ks1 (d : Dev) (q : Nat) (f : QlPort → QlPort) : (d.modQl q f).ks1 = d.ks1 := rfl
@[simp] theorem Dev.modQl_pair (d : Dev) (q : Nat) (f : QlPort → QlPort) : (d.modQl q f).pair = d.pair := rfl
@[simp] theorem Dev.modQl_elec (d : Dev) (q : Nat) (f : QlPort → QlPort) : (d.modQl q f).elec = d.elec := rfl
@[simp] theorem Dev.modQl_sec (d : Dev) (q : Nat) (f : QlPort → QlPort) : (d.modQl q f).sec = d.sec := rfl

/-! ### modEth -/

@[simp] theorem Dev.modEth_out (d : Dev) (e : Nat) (f : EthPort → EthPort) : (d.modEth e f).out = d.out := rfl
@[simp] theorem Dev.modEth_freeCtr (d : Dev) (e : Nat) (f : EthPort → EthPort) : (d.modEth e f).freeCtr = d.freeCtr := rfl
@[simp] theorem Dev.modEth_modes (d : Dev) (e : Nat) (f : EthPort → EthPort) : (d.modEth e f).modes = d.modes := rfl
@[simp] theorem Dev.modEth_epoch (d : Dev) (e : Nat) (f : EthPort → EthPort) : (d.modEth e f).epoch = d.epoch := rfl
@[simp] theorem Dev.modEth_cfg (d : Dev) (e : Nat) (f : EthPort → EthPort) : (d.modEth e f).cfg = d.cfg := rfl
@[simp] theorem Dev.modEth_stg (d : Dev) (e : Nat) (f : EthPort → EthPort) : (d.modEth e f).stg = d.stg := rfl
@[simp] theorem Dev.modEth_snap (d : Dev) (e : Nat) (f : EthPort → EthPort) : (d.modEth e f).snap = d.snap := rfl
@[simp] theorem Dev.modEth_cnt (d : Dev) (e : Nat) (f : EthPort → EthPort) : (d.modEth e f).cnt = d.cnt := rfl
@[simp] theorem Dev.modEth_vio (d : Dev) (e : Nat) (f : EthPort → EthPort) : (d.modEth e f).vio = d.vio := rfl
@[simp] theorem Dev.modEth_ev (d : Dev) (e : Nat) (f : EthPort → EthPort) : (d.modEth e f).ev = d.ev := rfl
@[simp] theorem Dev.modEth_flt (d : Dev) (e : Nat) (f : EthPort → EthPort) : (d.modEth e f).flt = d.flt := rfl
@[simp] theorem Dev.modEth_host (d : Dev) (e : Nat) (f : EthPort → EthPort) : (d.modEth e f).host = d.host := rfl
@[simp] theorem Dev.modEth_disp (d : Dev) (e : Nat) (f : EthPort → EthPort) : (d.modEth e f).disp = d.disp := rfl
@[simp] theorem Dev.modEth_ports (d : Dev) (e : Nat) (f : EthPort → EthPort) : (d.modEth e f).ports = d.ports := rfl
@[simp] theorem Dev.modEth_cin (d : Dev) (e : Nat) (f : EthPort → EthPort) : (d.modEth e f).cin = d.cin := rfl
@[simp] theorem Dev.modEth_lanes (d : Dev) (e : Nat) (f : EthPort → EthPort) : (d.modEth e f).lanes = d.lanes := rfl
@[simp] theorem Dev.modEth_txc (d : Dev) (e : Nat) (f : EthPort → EthPort) : (d.modEth e f).txc = d.txc := rfl
@[simp] theorem Dev.modEth_duty (d : Dev) (e : Nat) (f : EthPort → EthPort) : (d.modEth e f).duty = d.duty := rfl
@[simp] theorem Dev.modEth_air (d : Dev) (e : Nat) (f : EthPort → EthPort) : (d.modEth e f).air = d.air := rfl
@[simp] theorem Dev.modEth_seqs (d : Dev) (e : Nat) (f : EthPort → EthPort) : (d.modEth e f).seqs = d.seqs := rfl
@[simp] theorem Dev.modEth_vat (d : Dev) (e : Nat) (f : EthPort → EthPort) : (d.modEth e f).vat = d.vat := rfl
@[simp] theorem Dev.modEth_tbl (d : Dev) (e : Nat) (f : EthPort → EthPort) : (d.modEth e f).tbl = d.tbl := rfl
@[simp] theorem Dev.modEth_pipe (d : Dev) (e : Nat) (f : EthPort → EthPort) : (d.modEth e f).pipe = d.pipe := rfl
@[simp] theorem Dev.modEth_tm (d : Dev) (e : Nat) (f : EthPort → EthPort) : (d.modEth e f).tm = d.tm := rfl
@[simp] theorem Dev.modEth_time (d : Dev) (e : Nat) (f : EthPort → EthPort) : (d.modEth e f).time = d.time := rfl
@[simp] theorem Dev.modEth_otp (d : Dev) (e : Nat) (f : EthPort → EthPort) : (d.modEth e f).otp = d.otp := rfl
@[simp] theorem Dev.modEth_ks0 (d : Dev) (e : Nat) (f : EthPort → EthPort) : (d.modEth e f).ks0 = d.ks0 := rfl
@[simp] theorem Dev.modEth_ks1 (d : Dev) (e : Nat) (f : EthPort → EthPort) : (d.modEth e f).ks1 = d.ks1 := rfl
@[simp] theorem Dev.modEth_pair (d : Dev) (e : Nat) (f : EthPort → EthPort) : (d.modEth e f).pair = d.pair := rfl
@[simp] theorem Dev.modEth_elec (d : Dev) (e : Nat) (f : EthPort → EthPort) : (d.modEth e f).elec = d.elec := rfl
@[simp] theorem Dev.modEth_sec (d : Dev) (e : Nat) (f : EthPort → EthPort) : (d.modEth e f).sec = d.sec := rfl

/-! ### modKey -/

@[simp] theorem Dev.modKey_out (d : Dev) (n : Nat) (f : KeySlot → KeySlot) : (d.modKey n f).out = d.out := rfl
@[simp] theorem Dev.modKey_freeCtr (d : Dev) (n : Nat) (f : KeySlot → KeySlot) : (d.modKey n f).freeCtr = d.freeCtr := rfl
@[simp] theorem Dev.modKey_modes (d : Dev) (n : Nat) (f : KeySlot → KeySlot) : (d.modKey n f).modes = d.modes := rfl
@[simp] theorem Dev.modKey_epoch (d : Dev) (n : Nat) (f : KeySlot → KeySlot) : (d.modKey n f).epoch = d.epoch := rfl
@[simp] theorem Dev.modKey_cfg (d : Dev) (n : Nat) (f : KeySlot → KeySlot) : (d.modKey n f).cfg = d.cfg := rfl
@[simp] theorem Dev.modKey_stg (d : Dev) (n : Nat) (f : KeySlot → KeySlot) : (d.modKey n f).stg = d.stg := rfl
@[simp] theorem Dev.modKey_snap (d : Dev) (n : Nat) (f : KeySlot → KeySlot) : (d.modKey n f).snap = d.snap := rfl
@[simp] theorem Dev.modKey_cnt (d : Dev) (n : Nat) (f : KeySlot → KeySlot) : (d.modKey n f).cnt = d.cnt := rfl
@[simp] theorem Dev.modKey_vio (d : Dev) (n : Nat) (f : KeySlot → KeySlot) : (d.modKey n f).vio = d.vio := rfl
@[simp] theorem Dev.modKey_ev (d : Dev) (n : Nat) (f : KeySlot → KeySlot) : (d.modKey n f).ev = d.ev := rfl
@[simp] theorem Dev.modKey_flt (d : Dev) (n : Nat) (f : KeySlot → KeySlot) : (d.modKey n f).flt = d.flt := rfl
@[simp] theorem Dev.modKey_host (d : Dev) (n : Nat) (f : KeySlot → KeySlot) : (d.modKey n f).host = d.host := rfl
@[simp] theorem Dev.modKey_disp (d : Dev) (n : Nat) (f : KeySlot → KeySlot) : (d.modKey n f).disp = d.disp := rfl
@[simp] theorem Dev.modKey_ports (d : Dev) (n : Nat) (f : KeySlot → KeySlot) : (d.modKey n f).ports = d.ports := rfl
@[simp] theorem Dev.modKey_cin (d : Dev) (n : Nat) (f : KeySlot → KeySlot) : (d.modKey n f).cin = d.cin := rfl
@[simp] theorem Dev.modKey_lanes (d : Dev) (n : Nat) (f : KeySlot → KeySlot) : (d.modKey n f).lanes = d.lanes := rfl
@[simp] theorem Dev.modKey_txc (d : Dev) (n : Nat) (f : KeySlot → KeySlot) : (d.modKey n f).txc = d.txc := rfl
@[simp] theorem Dev.modKey_duty (d : Dev) (n : Nat) (f : KeySlot → KeySlot) : (d.modKey n f).duty = d.duty := rfl
@[simp] theorem Dev.modKey_air (d : Dev) (n : Nat) (f : KeySlot → KeySlot) : (d.modKey n f).air = d.air := rfl
@[simp] theorem Dev.modKey_seqs (d : Dev) (n : Nat) (f : KeySlot → KeySlot) : (d.modKey n f).seqs = d.seqs := rfl
@[simp] theorem Dev.modKey_vat (d : Dev) (n : Nat) (f : KeySlot → KeySlot) : (d.modKey n f).vat = d.vat := rfl
@[simp] theorem Dev.modKey_tbl (d : Dev) (n : Nat) (f : KeySlot → KeySlot) : (d.modKey n f).tbl = d.tbl := rfl
@[simp] theorem Dev.modKey_pipe (d : Dev) (n : Nat) (f : KeySlot → KeySlot) : (d.modKey n f).pipe = d.pipe := rfl
@[simp] theorem Dev.modKey_tm (d : Dev) (n : Nat) (f : KeySlot → KeySlot) : (d.modKey n f).tm = d.tm := rfl
@[simp] theorem Dev.modKey_time (d : Dev) (n : Nat) (f : KeySlot → KeySlot) : (d.modKey n f).time = d.time := rfl
@[simp] theorem Dev.modKey_otp (d : Dev) (n : Nat) (f : KeySlot → KeySlot) : (d.modKey n f).otp = d.otp := rfl
@[simp] theorem Dev.modKey_ks0 (d : Dev) (n : Nat) (f : KeySlot → KeySlot) : (d.modKey n f).ks0 = d.ks0 := rfl
@[simp] theorem Dev.modKey_ks1 (d : Dev) (n : Nat) (f : KeySlot → KeySlot) : (d.modKey n f).ks1 = d.ks1 := rfl
@[simp] theorem Dev.modKey_pair (d : Dev) (n : Nat) (f : KeySlot → KeySlot) : (d.modKey n f).pair = d.pair := rfl
@[simp] theorem Dev.modKey_elec (d : Dev) (n : Nat) (f : KeySlot → KeySlot) : (d.modKey n f).elec = d.elec := rfl
@[simp] theorem Dev.modKey_links (d : Dev) (n : Nat) (f : KeySlot → KeySlot) : (d.modKey n f).links = d.links := rfl

/-! ### setQueue -/

@[simp] theorem Dev.setQueue_out (d : Dev) (q : Nat) (x : List QItem) : (d.setQueue q x).out = d.out := rfl
@[simp] theorem Dev.setQueue_freeCtr (d : Dev) (q : Nat) (x : List QItem) : (d.setQueue q x).freeCtr = d.freeCtr := rfl
@[simp] theorem Dev.setQueue_modes (d : Dev) (q : Nat) (x : List QItem) : (d.setQueue q x).modes = d.modes := rfl
@[simp] theorem Dev.setQueue_epoch (d : Dev) (q : Nat) (x : List QItem) : (d.setQueue q x).epoch = d.epoch := rfl
@[simp] theorem Dev.setQueue_cfg (d : Dev) (q : Nat) (x : List QItem) : (d.setQueue q x).cfg = d.cfg := rfl
@[simp] theorem Dev.setQueue_stg (d : Dev) (q : Nat) (x : List QItem) : (d.setQueue q x).stg = d.stg := rfl
@[simp] theorem Dev.setQueue_snap (d : Dev) (q : Nat) (x : List QItem) : (d.setQueue q x).snap = d.snap := rfl
@[simp] theorem Dev.setQueue_cnt (d : Dev) (q : Nat) (x : List QItem) : (d.setQueue q x).cnt = d.cnt := rfl
@[simp] theorem Dev.setQueue_vio (d : Dev) (q : Nat) (x : List QItem) : (d.setQueue q x).vio = d.vio := rfl
@[simp] theorem Dev.setQueue_ev (d : Dev) (q : Nat) (x : List QItem) : (d.setQueue q x).ev = d.ev := rfl
@[simp] theorem Dev.setQueue_flt (d : Dev) (q : Nat) (x : List QItem) : (d.setQueue q x).flt = d.flt := rfl
@[simp] theorem Dev.setQueue_host (d : Dev) (q : Nat) (x : List QItem) : (d.setQueue q x).host = d.host := rfl
@[simp] theorem Dev.setQueue_disp (d : Dev) (q : Nat) (x : List QItem) : (d.setQueue q x).disp = d.disp := rfl
@[simp] theorem Dev.setQueue_ports (d : Dev) (q : Nat) (x : List QItem) : (d.setQueue q x).ports = d.ports := rfl
@[simp] theorem Dev.setQueue_cin (d : Dev) (q : Nat) (x : List QItem) : (d.setQueue q x).cin = d.cin := rfl
@[simp] theorem Dev.setQueue_lanes (d : Dev) (q : Nat) (x : List QItem) : (d.setQueue q x).lanes = d.lanes := rfl
@[simp] theorem Dev.setQueue_txc (d : Dev) (q : Nat) (x : List QItem) : (d.setQueue q x).txc = d.txc := rfl
@[simp] theorem Dev.setQueue_duty (d : Dev) (q : Nat) (x : List QItem) : (d.setQueue q x).duty = d.duty := rfl
@[simp] theorem Dev.setQueue_air (d : Dev) (q : Nat) (x : List QItem) : (d.setQueue q x).air = d.air := rfl
@[simp] theorem Dev.setQueue_seqs (d : Dev) (q : Nat) (x : List QItem) : (d.setQueue q x).seqs = d.seqs := rfl
@[simp] theorem Dev.setQueue_vat (d : Dev) (q : Nat) (x : List QItem) : (d.setQueue q x).vat = d.vat := rfl
@[simp] theorem Dev.setQueue_tbl (d : Dev) (q : Nat) (x : List QItem) : (d.setQueue q x).tbl = d.tbl := rfl
@[simp] theorem Dev.setQueue_pipe (d : Dev) (q : Nat) (x : List QItem) : (d.setQueue q x).pipe = d.pipe := rfl
@[simp] theorem Dev.setQueue_time (d : Dev) (q : Nat) (x : List QItem) : (d.setQueue q x).time = d.time := rfl
@[simp] theorem Dev.setQueue_otp (d : Dev) (q : Nat) (x : List QItem) : (d.setQueue q x).otp = d.otp := rfl
@[simp] theorem Dev.setQueue_ks0 (d : Dev) (q : Nat) (x : List QItem) : (d.setQueue q x).ks0 = d.ks0 := rfl
@[simp] theorem Dev.setQueue_ks1 (d : Dev) (q : Nat) (x : List QItem) : (d.setQueue q x).ks1 = d.ks1 := rfl
@[simp] theorem Dev.setQueue_pair (d : Dev) (q : Nat) (x : List QItem) : (d.setQueue q x).pair = d.pair := rfl
@[simp] theorem Dev.setQueue_elec (d : Dev) (q : Nat) (x : List QItem) : (d.setQueue q x).elec = d.elec := rfl
@[simp] theorem Dev.setQueue_sec (d : Dev) (q : Nat) (x : List QItem) : (d.setQueue q x).sec = d.sec := rfl
@[simp] theorem Dev.setQueue_links (d : Dev) (q : Nat) (x : List QItem) : (d.setQueue q x).links = d.links := rfl

/-! ### setPipe -/

@[simp] theorem Dev.setPipe_out (d : Dev) (i : Nat) (x : PipeSt) : (d.setPipe i x).out = d.out := rfl
@[simp] theorem Dev.setPipe_freeCtr (d : Dev) (i : Nat) (x : PipeSt) : (d.setPipe i x).freeCtr = d.freeCtr := rfl
@[simp] theorem Dev.setPipe_modes (d : Dev) (i : Nat) (x : PipeSt) : (d.setPipe i x).modes = d.modes := rfl
@[simp] theorem Dev.setPipe_epoch (d : Dev) (i : Nat) (x : PipeSt) : (d.setPipe i x).epoch = d.epoch := rfl
@[simp] theorem Dev.setPipe_cfg (d : Dev) (i : Nat) (x : PipeSt) : (d.setPipe i x).cfg = d.cfg := rfl
@[simp] theorem Dev.setPipe_stg (d : Dev) (i : Nat) (x : PipeSt) : (d.setPipe i x).stg = d.stg := rfl
@[simp] theorem Dev.setPipe_snap (d : Dev) (i : Nat) (x : PipeSt) : (d.setPipe i x).snap = d.snap := rfl
@[simp] theorem Dev.setPipe_cnt (d : Dev) (i : Nat) (x : PipeSt) : (d.setPipe i x).cnt = d.cnt := rfl
@[simp] theorem Dev.setPipe_vio (d : Dev) (i : Nat) (x : PipeSt) : (d.setPipe i x).vio = d.vio := rfl
@[simp] theorem Dev.setPipe_ev (d : Dev) (i : Nat) (x : PipeSt) : (d.setPipe i x).ev = d.ev := rfl
@[simp] theorem Dev.setPipe_flt (d : Dev) (i : Nat) (x : PipeSt) : (d.setPipe i x).flt = d.flt := rfl
@[simp] theorem Dev.setPipe_host (d : Dev) (i : Nat) (x : PipeSt) : (d.setPipe i x).host = d.host := rfl
@[simp] theorem Dev.setPipe_disp (d : Dev) (i : Nat) (x : PipeSt) : (d.setPipe i x).disp = d.disp := rfl
@[simp] theorem Dev.setPipe_ports (d : Dev) (i : Nat) (x : PipeSt) : (d.setPipe i x).ports = d.ports := rfl
@[simp] theorem Dev.setPipe_cin (d : Dev) (i : Nat) (x : PipeSt) : (d.setPipe i x).cin = d.cin := rfl
@[simp] theorem Dev.setPipe_lanes (d : Dev) (i : Nat) (x : PipeSt) : (d.setPipe i x).lanes = d.lanes := rfl
@[simp] theorem Dev.setPipe_txc (d : Dev) (i : Nat) (x : PipeSt) : (d.setPipe i x).txc = d.txc := rfl
@[simp] theorem Dev.setPipe_duty (d : Dev) (i : Nat) (x : PipeSt) : (d.setPipe i x).duty = d.duty := rfl
@[simp] theorem Dev.setPipe_air (d : Dev) (i : Nat) (x : PipeSt) : (d.setPipe i x).air = d.air := rfl
@[simp] theorem Dev.setPipe_seqs (d : Dev) (i : Nat) (x : PipeSt) : (d.setPipe i x).seqs = d.seqs := rfl
@[simp] theorem Dev.setPipe_vat (d : Dev) (i : Nat) (x : PipeSt) : (d.setPipe i x).vat = d.vat := rfl
@[simp] theorem Dev.setPipe_tbl (d : Dev) (i : Nat) (x : PipeSt) : (d.setPipe i x).tbl = d.tbl := rfl
@[simp] theorem Dev.setPipe_tm (d : Dev) (i : Nat) (x : PipeSt) : (d.setPipe i x).tm = d.tm := rfl
@[simp] theorem Dev.setPipe_time (d : Dev) (i : Nat) (x : PipeSt) : (d.setPipe i x).time = d.time := rfl
@[simp] theorem Dev.setPipe_otp (d : Dev) (i : Nat) (x : PipeSt) : (d.setPipe i x).otp = d.otp := rfl
@[simp] theorem Dev.setPipe_ks0 (d : Dev) (i : Nat) (x : PipeSt) : (d.setPipe i x).ks0 = d.ks0 := rfl
@[simp] theorem Dev.setPipe_ks1 (d : Dev) (i : Nat) (x : PipeSt) : (d.setPipe i x).ks1 = d.ks1 := rfl
@[simp] theorem Dev.setPipe_pair (d : Dev) (i : Nat) (x : PipeSt) : (d.setPipe i x).pair = d.pair := rfl
@[simp] theorem Dev.setPipe_elec (d : Dev) (i : Nat) (x : PipeSt) : (d.setPipe i x).elec = d.elec := rfl
@[simp] theorem Dev.setPipe_sec (d : Dev) (i : Nat) (x : PipeSt) : (d.setPipe i x).sec = d.sec := rfl
@[simp] theorem Dev.setPipe_links (d : Dev) (i : Nat) (x : PipeSt) : (d.setPipe i x).links = d.links := rfl

/-! ### modPort -/

@[simp] theorem Dev.modPort_out (d : Dev) (p : Nat) (f : Port → Port) : (d.modPort p f).out = d.out := rfl
@[simp] theorem Dev.modPort_freeCtr (d : Dev) (p : Nat) (f : Port → Port) : (d.modPort p f).freeCtr = d.freeCtr := rfl
@[simp] theorem Dev.modPort_modes (d : Dev) (p : Nat) (f : Port → Port) : (d.modPort p f).modes = d.modes := rfl
@[simp] theorem Dev.modPort_epoch (d : Dev) (p : Nat) (f : Port → Port) : (d.modPort p f).epoch = d.epoch := rfl
@[simp] theorem Dev.modPort_cfg (d : Dev) (p : Nat) (f : Port → Port) : (d.modPort p f).cfg = d.cfg := rfl
@[simp] theorem Dev.modPort_stg (d : Dev) (p : Nat) (f : Port → Port) : (d.modPort p f).stg = d.stg := rfl
@[simp] theorem Dev.modPort_snap (d : Dev) (p : Nat) (f : Port → Port) : (d.modPort p f).snap = d.snap := rfl
@[simp] theorem Dev.modPort_cnt (d : Dev) (p : Nat) (f : Port → Port) : (d.modPort p f).cnt = d.cnt := rfl
@[simp] theorem Dev.modPort_vio (d : Dev) (p : Nat) (f : Port → Port) : (d.modPort p f).vio = d.vio := rfl
@[simp] theorem Dev.modPort_ev (d : Dev) (p : Nat) (f : Port → Port) : (d.modPort p f).ev = d.ev := rfl
@[simp] theorem Dev.modPort_flt (d : Dev) (p : Nat) (f : Port → Port) : (d.modPort p f).flt = d.flt := rfl
@[simp] theorem Dev.modPort_host (d : Dev) (p : Nat) (f : Port → Port) : (d.modPort p f).host = d.host := rfl
@[simp] theorem Dev.modPort_disp (d : Dev) (p : Nat) (f : Port → Port) : (d.modPort p f).disp = d.disp := rfl
@[simp] theorem Dev.modPort_cin (d : Dev) (p : Nat) (f : Port → Port) : (d.modPort p f).cin = d.cin := rfl
@[simp] theorem Dev.modPort_lanes (d : Dev) (p : Nat) (f : Port → Port) : (d.modPort p f).lanes = d.lanes := rfl
@[simp] theorem Dev.modPort_txc (d : Dev) (p : Nat) (f : Port → Port) : (d.modPort p f).txc = d.txc := rfl
@[simp] theorem Dev.modPort_duty (d : Dev) (p : Nat) (f : Port → Port) : (d.modPort p f).duty = d.duty := rfl
@[simp] theorem Dev.modPort_air (d : Dev) (p : Nat) (f : Port → Port) : (d.modPort p f).air = d.air := rfl
@[simp] theorem Dev.modPort_seqs (d : Dev) (p : Nat) (f : Port → Port) : (d.modPort p f).seqs = d.seqs := rfl
@[simp] theorem Dev.modPort_vat (d : Dev) (p : Nat) (f : Port → Port) : (d.modPort p f).vat = d.vat := rfl
@[simp] theorem Dev.modPort_tbl (d : Dev) (p : Nat) (f : Port → Port) : (d.modPort p f).tbl = d.tbl := rfl
@[simp] theorem Dev.modPort_pipe (d : Dev) (p : Nat) (f : Port → Port) : (d.modPort p f).pipe = d.pipe := rfl
@[simp] theorem Dev.modPort_tm (d : Dev) (p : Nat) (f : Port → Port) : (d.modPort p f).tm = d.tm := rfl
@[simp] theorem Dev.modPort_time (d : Dev) (p : Nat) (f : Port → Port) : (d.modPort p f).time = d.time := rfl
@[simp] theorem Dev.modPort_otp (d : Dev) (p : Nat) (f : Port → Port) : (d.modPort p f).otp = d.otp := rfl
@[simp] theorem Dev.modPort_ks0 (d : Dev) (p : Nat) (f : Port → Port) : (d.modPort p f).ks0 = d.ks0 := rfl
@[simp] theorem Dev.modPort_ks1 (d : Dev) (p : Nat) (f : Port → Port) : (d.modPort p f).ks1 = d.ks1 := rfl
@[simp] theorem Dev.modPort_pair (d : Dev) (p : Nat) (f : Port → Port) : (d.modPort p f).pair = d.pair := rfl
@[simp] theorem Dev.modPort_elec (d : Dev) (p : Nat) (f : Port → Port) : (d.modPort p f).elec = d.elec := rfl
@[simp] theorem Dev.modPort_sec (d : Dev) (p : Nat) (f : Port → Port) : (d.modPort p f).sec = d.sec := rfl
@[simp] theorem Dev.modPort_links (d : Dev) (p : Nat) (f : Port → Port) : (d.modPort p f).links = d.links := rfl

/-! ### modLane -/

@[simp] theorem Dev.modLane_out (d : Dev) (l : Nat) (f : Lane → Lane) : (d.modLane l f).out = d.out := rfl
@[simp] theorem Dev.modLane_freeCtr (d : Dev) (l : Nat) (f : Lane → Lane) : (d.modLane l f).freeCtr = d.freeCtr := rfl
@[simp] theorem Dev.modLane_modes (d : Dev) (l : Nat) (f : Lane → Lane) : (d.modLane l f).modes = d.modes := rfl
@[simp] theorem Dev.modLane_epoch (d : Dev) (l : Nat) (f : Lane → Lane) : (d.modLane l f).epoch = d.epoch := rfl
@[simp] theorem Dev.modLane_cfg (d : Dev) (l : Nat) (f : Lane → Lane) : (d.modLane l f).cfg = d.cfg := rfl
@[simp] theorem Dev.modLane_stg (d : Dev) (l : Nat) (f : Lane → Lane) : (d.modLane l f).stg = d.stg := rfl
@[simp] theorem Dev.modLane_snap (d : Dev) (l : Nat) (f : Lane → Lane) : (d.modLane l f).snap = d.snap := rfl
@[simp] theorem Dev.modLane_cnt (d : Dev) (l : Nat) (f : Lane → Lane) : (d.modLane l f).cnt = d.cnt := rfl
@[simp] theorem Dev.modLane_vio (d : Dev) (l : Nat) (f : Lane → Lane) : (d.modLane l f).vio = d.vio := rfl
@[simp] theorem Dev.modLane_ev (d : Dev) (l : Nat) (f : Lane → Lane) : (d.modLane l f).ev = d.ev := rfl
@[simp] theorem Dev.modLane_flt (d : Dev) (l : Nat) (f : Lane → Lane) : (d.modLane l f).flt = d.flt := rfl
@[simp] theorem Dev.modLane_host (d : Dev) (l : Nat) (f : Lane → Lane) : (d.modLane l f).host = d.host := rfl
@[simp] theorem Dev.modLane_disp (d : Dev) (l : Nat) (f : Lane → Lane) : (d.modLane l f).disp = d.disp := rfl
@[simp] theorem Dev.modLane_ports (d : Dev) (l : Nat) (f : Lane → Lane) : (d.modLane l f).ports = d.ports := rfl
@[simp] theorem Dev.modLane_cin (d : Dev) (l : Nat) (f : Lane → Lane) : (d.modLane l f).cin = d.cin := rfl
@[simp] theorem Dev.modLane_txc (d : Dev) (l : Nat) (f : Lane → Lane) : (d.modLane l f).txc = d.txc := rfl
@[simp] theorem Dev.modLane_duty (d : Dev) (l : Nat) (f : Lane → Lane) : (d.modLane l f).duty = d.duty := rfl
@[simp] theorem Dev.modLane_air (d : Dev) (l : Nat) (f : Lane → Lane) : (d.modLane l f).air = d.air := rfl
@[simp] theorem Dev.modLane_seqs (d : Dev) (l : Nat) (f : Lane → Lane) : (d.modLane l f).seqs = d.seqs := rfl
@[simp] theorem Dev.modLane_vat (d : Dev) (l : Nat) (f : Lane → Lane) : (d.modLane l f).vat = d.vat := rfl
@[simp] theorem Dev.modLane_tbl (d : Dev) (l : Nat) (f : Lane → Lane) : (d.modLane l f).tbl = d.tbl := rfl
@[simp] theorem Dev.modLane_pipe (d : Dev) (l : Nat) (f : Lane → Lane) : (d.modLane l f).pipe = d.pipe := rfl
@[simp] theorem Dev.modLane_tm (d : Dev) (l : Nat) (f : Lane → Lane) : (d.modLane l f).tm = d.tm := rfl
@[simp] theorem Dev.modLane_time (d : Dev) (l : Nat) (f : Lane → Lane) : (d.modLane l f).time = d.time := rfl
@[simp] theorem Dev.modLane_otp (d : Dev) (l : Nat) (f : Lane → Lane) : (d.modLane l f).otp = d.otp := rfl
@[simp] theorem Dev.modLane_ks0 (d : Dev) (l : Nat) (f : Lane → Lane) : (d.modLane l f).ks0 = d.ks0 := rfl
@[simp] theorem Dev.modLane_ks1 (d : Dev) (l : Nat) (f : Lane → Lane) : (d.modLane l f).ks1 = d.ks1 := rfl
@[simp] theorem Dev.modLane_pair (d : Dev) (l : Nat) (f : Lane → Lane) : (d.modLane l f).pair = d.pair := rfl
@[simp] theorem Dev.modLane_elec (d : Dev) (l : Nat) (f : Lane → Lane) : (d.modLane l f).elec = d.elec := rfl
@[simp] theorem Dev.modLane_sec (d : Dev) (l : Nat) (f : Lane → Lane) : (d.modLane l f).sec = d.sec := rfl
@[simp] theorem Dev.modLane_links (d : Dev) (l : Nat) (f : Lane → Lane) : (d.modLane l f).links = d.links := rfl

/-! ### modCarrier -/

@[simp] theorem Dev.modCarrier_out (d : Dev) (c : Nat) (f : Carrier → Carrier) : (d.modCarrier c f).out = d.out := rfl
@[simp] theorem Dev.modCarrier_freeCtr (d : Dev) (c : Nat) (f : Carrier → Carrier) : (d.modCarrier c f).freeCtr = d.freeCtr := rfl
@[simp] theorem Dev.modCarrier_modes (d : Dev) (c : Nat) (f : Carrier → Carrier) : (d.modCarrier c f).modes = d.modes := rfl
@[simp] theorem Dev.modCarrier_epoch (d : Dev) (c : Nat) (f : Carrier → Carrier) : (d.modCarrier c f).epoch = d.epoch := rfl
@[simp] theorem Dev.modCarrier_cfg (d : Dev) (c : Nat) (f : Carrier → Carrier) : (d.modCarrier c f).cfg = d.cfg := rfl
@[simp] theorem Dev.modCarrier_stg (d : Dev) (c : Nat) (f : Carrier → Carrier) : (d.modCarrier c f).stg = d.stg := rfl
@[simp] theorem Dev.modCarrier_snap (d : Dev) (c : Nat) (f : Carrier → Carrier) : (d.modCarrier c f).snap = d.snap := rfl
@[simp] theorem Dev.modCarrier_cnt (d : Dev) (c : Nat) (f : Carrier → Carrier) : (d.modCarrier c f).cnt = d.cnt := rfl
@[simp] theorem Dev.modCarrier_vio (d : Dev) (c : Nat) (f : Carrier → Carrier) : (d.modCarrier c f).vio = d.vio := rfl
@[simp] theorem Dev.modCarrier_ev (d : Dev) (c : Nat) (f : Carrier → Carrier) : (d.modCarrier c f).ev = d.ev := rfl
@[simp] theorem Dev.modCarrier_flt (d : Dev) (c : Nat) (f : Carrier → Carrier) : (d.modCarrier c f).flt = d.flt := rfl
@[simp] theorem Dev.modCarrier_host (d : Dev) (c : Nat) (f : Carrier → Carrier) : (d.modCarrier c f).host = d.host := rfl
@[simp] theorem Dev.modCarrier_disp (d : Dev) (c : Nat) (f : Carrier → Carrier) : (d.modCarrier c f).disp = d.disp := rfl
@[simp] theorem Dev.modCarrier_ports (d : Dev) (c : Nat) (f : Carrier → Carrier) : (d.modCarrier c f).ports = d.ports := rfl
@[simp] theorem Dev.modCarrier_cin (d : Dev) (c : Nat) (f : Carrier → Carrier) : (d.modCarrier c f).cin = d.cin := rfl
@[simp] theorem Dev.modCarrier_lanes (d : Dev) (c : Nat) (f : Carrier → Carrier) : (d.modCarrier c f).lanes = d.lanes := rfl
@[simp] theorem Dev.modCarrier_duty (d : Dev) (c : Nat) (f : Carrier → Carrier) : (d.modCarrier c f).duty = d.duty := rfl
@[simp] theorem Dev.modCarrier_air (d : Dev) (c : Nat) (f : Carrier → Carrier) : (d.modCarrier c f).air = d.air := rfl
@[simp] theorem Dev.modCarrier_seqs (d : Dev) (c : Nat) (f : Carrier → Carrier) : (d.modCarrier c f).seqs = d.seqs := rfl
@[simp] theorem Dev.modCarrier_vat (d : Dev) (c : Nat) (f : Carrier → Carrier) : (d.modCarrier c f).vat = d.vat := rfl
@[simp] theorem Dev.modCarrier_tbl (d : Dev) (c : Nat) (f : Carrier → Carrier) : (d.modCarrier c f).tbl = d.tbl := rfl
@[simp] theorem Dev.modCarrier_pipe (d : Dev) (c : Nat) (f : Carrier → Carrier) : (d.modCarrier c f).pipe = d.pipe := rfl
@[simp] theorem Dev.modCarrier_tm (d : Dev) (c : Nat) (f : Carrier → Carrier) : (d.modCarrier c f).tm = d.tm := rfl
@[simp] theorem Dev.modCarrier_time (d : Dev) (c : Nat) (f : Carrier → Carrier) : (d.modCarrier c f).time = d.time := rfl
@[simp] theorem Dev.modCarrier_otp (d : Dev) (c : Nat) (f : Carrier → Carrier) : (d.modCarrier c f).otp = d.otp := rfl
@[simp] theorem Dev.modCarrier_ks0 (d : Dev) (c : Nat) (f : Carrier → Carrier) : (d.modCarrier c f).ks0 = d.ks0 := rfl
@[simp] theorem Dev.modCarrier_ks1 (d : Dev) (c : Nat) (f : Carrier → Carrier) : (d.modCarrier c f).ks1 = d.ks1 := rfl
@[simp] theorem Dev.modCarrier_pair (d : Dev) (c : Nat) (f : Carrier → Carrier) : (d.modCarrier c f).pair = d.pair := rfl
@[simp] theorem Dev.modCarrier_elec (d : Dev) (c : Nat) (f : Carrier → Carrier) : (d.modCarrier c f).elec = d.elec := rfl
@[simp] theorem Dev.modCarrier_sec (d : Dev) (c : Nat) (f : Carrier → Carrier) : (d.modCarrier c f).sec = d.sec := rfl
@[simp] theorem Dev.modCarrier_links (d : Dev) (c : Nat) (f : Carrier → Carrier) : (d.modCarrier c f).links = d.links := rfl

/-! ### modSeq -/

@[simp] theorem Dev.modSeq_out (d : Dev) (n : Nat) (f : Seq → Seq) : (d.modSeq n f).out = d.out := rfl
@[simp] theorem Dev.modSeq_freeCtr (d : Dev) (n : Nat) (f : Seq → Seq) : (d.modSeq n f).freeCtr = d.freeCtr := rfl
@[simp] theorem Dev.modSeq_modes (d : Dev) (n : Nat) (f : Seq → Seq) : (d.modSeq n f).modes = d.modes := rfl
@[simp] theorem Dev.modSeq_epoch (d : Dev) (n : Nat) (f : Seq → Seq) : (d.modSeq n f).epoch = d.epoch := rfl
@[simp] theorem Dev.modSeq_cfg (d : Dev) (n : Nat) (f : Seq → Seq) : (d.modSeq n f).cfg = d.cfg := rfl
@[simp] theorem Dev.modSeq_stg (d : Dev) (n : Nat) (f : Seq → Seq) : (d.modSeq n f).stg = d.stg := rfl
@[simp] theorem Dev.modSeq_snap (d : Dev) (n : Nat) (f : Seq → Seq) : (d.modSeq n f).snap = d.snap := rfl
@[simp] theorem Dev.modSeq_cnt (d : Dev) (n : Nat) (f : Seq → Seq) : (d.modSeq n f).cnt = d.cnt := rfl
@[simp] theorem Dev.modSeq_vio (d : Dev) (n : Nat) (f : Seq → Seq) : (d.modSeq n f).vio = d.vio := rfl
@[simp] theorem Dev.modSeq_ev (d : Dev) (n : Nat) (f : Seq → Seq) : (d.modSeq n f).ev = d.ev := rfl
@[simp] theorem Dev.modSeq_flt (d : Dev) (n : Nat) (f : Seq → Seq) : (d.modSeq n f).flt = d.flt := rfl
@[simp] theorem Dev.modSeq_host (d : Dev) (n : Nat) (f : Seq → Seq) : (d.modSeq n f).host = d.host := rfl
@[simp] theorem Dev.modSeq_disp (d : Dev) (n : Nat) (f : Seq → Seq) : (d.modSeq n f).disp = d.disp := rfl
@[simp] theorem Dev.modSeq_ports (d : Dev) (n : Nat) (f : Seq → Seq) : (d.modSeq n f).ports = d.ports := rfl
@[simp] theorem Dev.modSeq_cin (d : Dev) (n : Nat) (f : Seq → Seq) : (d.modSeq n f).cin = d.cin := rfl
@[simp] theorem Dev.modSeq_lanes (d : Dev) (n : Nat) (f : Seq → Seq) : (d.modSeq n f).lanes = d.lanes := rfl
@[simp] theorem Dev.modSeq_txc (d : Dev) (n : Nat) (f : Seq → Seq) : (d.modSeq n f).txc = d.txc := rfl
@[simp] theorem Dev.modSeq_duty (d : Dev) (n : Nat) (f : Seq → Seq) : (d.modSeq n f).duty = d.duty := rfl
@[simp] theorem Dev.modSeq_air (d : Dev) (n : Nat) (f : Seq → Seq) : (d.modSeq n f).air = d.air := rfl
@[simp] theorem Dev.modSeq_vat (d : Dev) (n : Nat) (f : Seq → Seq) : (d.modSeq n f).vat = d.vat := rfl
@[simp] theorem Dev.modSeq_tbl (d : Dev) (n : Nat) (f : Seq → Seq) : (d.modSeq n f).tbl = d.tbl := rfl
@[simp] theorem Dev.modSeq_pipe (d : Dev) (n : Nat) (f : Seq → Seq) : (d.modSeq n f).pipe = d.pipe := rfl
@[simp] theorem Dev.modSeq_tm (d : Dev) (n : Nat) (f : Seq → Seq) : (d.modSeq n f).tm = d.tm := rfl
@[simp] theorem Dev.modSeq_time (d : Dev) (n : Nat) (f : Seq → Seq) : (d.modSeq n f).time = d.time := rfl
@[simp] theorem Dev.modSeq_otp (d : Dev) (n : Nat) (f : Seq → Seq) : (d.modSeq n f).otp = d.otp := rfl
@[simp] theorem Dev.modSeq_ks0 (d : Dev) (n : Nat) (f : Seq → Seq) : (d.modSeq n f).ks0 = d.ks0 := rfl
@[simp] theorem Dev.modSeq_ks1 (d : Dev) (n : Nat) (f : Seq → Seq) : (d.modSeq n f).ks1 = d.ks1 := rfl
@[simp] theorem Dev.modSeq_pair (d : Dev) (n : Nat) (f : Seq → Seq) : (d.modSeq n f).pair = d.pair := rfl
@[simp] theorem Dev.modSeq_elec (d : Dev) (n : Nat) (f : Seq → Seq) : (d.modSeq n f).elec = d.elec := rfl
@[simp] theorem Dev.modSeq_sec (d : Dev) (n : Nat) (f : Seq → Seq) : (d.modSeq n f).sec = d.sec := rfl
@[simp] theorem Dev.modSeq_links (d : Dev) (n : Nat) (f : Seq → Seq) : (d.modSeq n f).links = d.links := rfl

/-! ### modPan -/

@[simp] theorem Dev.modPan_out (d : Dev) (k : Nat) (f : Pan → Pan) : (d.modPan k f).out = d.out := rfl
@[simp] theorem Dev.modPan_freeCtr (d : Dev) (k : Nat) (f : Pan → Pan) : (d.modPan k f).freeCtr = d.freeCtr := rfl
@[simp] theorem Dev.modPan_modes (d : Dev) (k : Nat) (f : Pan → Pan) : (d.modPan k f).modes = d.modes := rfl
@[simp] theorem Dev.modPan_epoch (d : Dev) (k : Nat) (f : Pan → Pan) : (d.modPan k f).epoch = d.epoch := rfl
@[simp] theorem Dev.modPan_cfg (d : Dev) (k : Nat) (f : Pan → Pan) : (d.modPan k f).cfg = d.cfg := rfl
@[simp] theorem Dev.modPan_stg (d : Dev) (k : Nat) (f : Pan → Pan) : (d.modPan k f).stg = d.stg := rfl
@[simp] theorem Dev.modPan_snap (d : Dev) (k : Nat) (f : Pan → Pan) : (d.modPan k f).snap = d.snap := rfl
@[simp] theorem Dev.modPan_cnt (d : Dev) (k : Nat) (f : Pan → Pan) : (d.modPan k f).cnt = d.cnt := rfl
@[simp] theorem Dev.modPan_vio (d : Dev) (k : Nat) (f : Pan → Pan) : (d.modPan k f).vio = d.vio := rfl
@[simp] theorem Dev.modPan_ev (d : Dev) (k : Nat) (f : Pan → Pan) : (d.modPan k f).ev = d.ev := rfl
@[simp] theorem Dev.modPan_flt (d : Dev) (k : Nat) (f : Pan → Pan) : (d.modPan k f).flt = d.flt := rfl
@[simp] theorem Dev.modPan_host (d : Dev) (k : Nat) (f : Pan → Pan) : (d.modPan k f).host = d.host := rfl
@[simp] theorem Dev.modPan_disp (d : Dev) (k : Nat) (f : Pan → Pan) : (d.modPan k f).disp = d.disp := rfl
@[simp] theorem Dev.modPan_ports (d : Dev) (k : Nat) (f : Pan → Pan) : (d.modPan k f).ports = d.ports := rfl
@[simp] theorem Dev.modPan_cin (d : Dev) (k : Nat) (f : Pan → Pan) : (d.modPan k f).cin = d.cin := rfl
@[simp] theorem Dev.modPan_lanes (d : Dev) (k : Nat) (f : Pan → Pan) : (d.modPan k f).lanes = d.lanes := rfl
@[simp] theorem Dev.modPan_txc (d : Dev) (k : Nat) (f : Pan → Pan) : (d.modPan k f).txc = d.txc := rfl
@[simp] theorem Dev.modPan_duty (d : Dev) (k : Nat) (f : Pan → Pan) : (d.modPan k f).duty = d.duty := rfl
@[simp] theorem Dev.modPan_seqs (d : Dev) (k : Nat) (f : Pan → Pan) : (d.modPan k f).seqs = d.seqs := rfl
@[simp] theorem Dev.modPan_vat (d : Dev) (k : Nat) (f : Pan → Pan) : (d.modPan k f).vat = d.vat := rfl
@[simp] theorem Dev.modPan_tbl (d : Dev) (k : Nat) (f : Pan → Pan) : (d.modPan k f).tbl = d.tbl := rfl
@[simp] theorem Dev.modPan_pipe (d : Dev) (k : Nat) (f : Pan → Pan) : (d.modPan k f).pipe = d.pipe := rfl
@[simp] theorem Dev.modPan_tm (d : Dev) (k : Nat) (f : Pan → Pan) : (d.modPan k f).tm = d.tm := rfl
@[simp] theorem Dev.modPan_time (d : Dev) (k : Nat) (f : Pan → Pan) : (d.modPan k f).time = d.time := rfl
@[simp] theorem Dev.modPan_otp (d : Dev) (k : Nat) (f : Pan → Pan) : (d.modPan k f).otp = d.otp := rfl
@[simp] theorem Dev.modPan_ks0 (d : Dev) (k : Nat) (f : Pan → Pan) : (d.modPan k f).ks0 = d.ks0 := rfl
@[simp] theorem Dev.modPan_ks1 (d : Dev) (k : Nat) (f : Pan → Pan) : (d.modPan k f).ks1 = d.ks1 := rfl
@[simp] theorem Dev.modPan_pair (d : Dev) (k : Nat) (f : Pan → Pan) : (d.modPan k f).pair = d.pair := rfl
@[simp] theorem Dev.modPan_elec (d : Dev) (k : Nat) (f : Pan → Pan) : (d.modPan k f).elec = d.elec := rfl
@[simp] theorem Dev.modPan_sec (d : Dev) (k : Nat) (f : Pan → Pan) : (d.modPan k f).sec = d.sec := rfl
@[simp] theorem Dev.modPan_links (d : Dev) (k : Nat) (f : Pan → Pan) : (d.modPan k f).links = d.links := rfl

/-! ### emit -/

@[simp] theorem Dev.emit_freeCtr (d : Dev) (k : OutKind) (n : Nat) (x : List Byte) : (d.emit k n x).freeCtr = d.freeCtr := rfl
@[simp] theorem Dev.emit_modes (d : Dev) (k : OutKind) (n : Nat) (x : List Byte) : (d.emit k n x).modes = d.modes := rfl
@[simp] theorem Dev.emit_epoch (d : Dev) (k : OutKind) (n : Nat) (x : List Byte) : (d.emit k n x).epoch = d.epoch := rfl
@[simp] theorem Dev.emit_cfg (d : Dev) (k : OutKind) (n : Nat) (x : List Byte) : (d.emit k n x).cfg = d.cfg := rfl
@[simp] theorem Dev.emit_stg (d : Dev) (k : OutKind) (n : Nat) (x : List Byte) : (d.emit k n x).stg = d.stg := rfl
@[simp] theorem Dev.emit_snap (d : Dev) (k : OutKind) (n : Nat) (x : List Byte) : (d.emit k n x).snap = d.snap := rfl
@[simp] theorem Dev.emit_cnt (d : Dev) (k : OutKind) (n : Nat) (x : List Byte) : (d.emit k n x).cnt = d.cnt := rfl
@[simp] theorem Dev.emit_vio (d : Dev) (k : OutKind) (n : Nat) (x : List Byte) : (d.emit k n x).vio = d.vio := rfl
@[simp] theorem Dev.emit_ev (d : Dev) (k : OutKind) (n : Nat) (x : List Byte) : (d.emit k n x).ev = d.ev := rfl
@[simp] theorem Dev.emit_flt (d : Dev) (k : OutKind) (n : Nat) (x : List Byte) : (d.emit k n x).flt = d.flt := rfl
@[simp] theorem Dev.emit_host (d : Dev) (k : OutKind) (n : Nat) (x : List Byte) : (d.emit k n x).host = d.host := rfl
@[simp] theorem Dev.emit_disp (d : Dev) (k : OutKind) (n : Nat) (x : List Byte) : (d.emit k n x).disp = d.disp := rfl
@[simp] theorem Dev.emit_ports (d : Dev) (k : OutKind) (n : Nat) (x : List Byte) : (d.emit k n x).ports = d.ports := rfl
@[simp] theorem Dev.emit_cin (d : Dev) (k : OutKind) (n : Nat) (x : List Byte) : (d.emit k n x).cin = d.cin := rfl
@[simp] theorem Dev.emit_lanes (d : Dev) (k : OutKind) (n : Nat) (x : List Byte) : (d.emit k n x).lanes = d.lanes := rfl
@[simp] theorem Dev.emit_txc (d : Dev) (k : OutKind) (n : Nat) (x : List Byte) : (d.emit k n x).txc = d.txc := rfl
@[simp] theorem Dev.emit_duty (d : Dev) (k : OutKind) (n : Nat) (x : List Byte) : (d.emit k n x).duty = d.duty := rfl
@[simp] theorem Dev.emit_air (d : Dev) (k : OutKind) (n : Nat) (x : List Byte) : (d.emit k n x).air = d.air := rfl
@[simp] theorem Dev.emit_seqs (d : Dev) (k : OutKind) (n : Nat) (x : List Byte) : (d.emit k n x).seqs = d.seqs := rfl
@[simp] theorem Dev.emit_vat (d : Dev) (k : OutKind) (n : Nat) (x : List Byte) : (d.emit k n x).vat = d.vat := rfl
@[simp] theorem Dev.emit_tbl (d : Dev) (k : OutKind) (n : Nat) (x : List Byte) : (d.emit k n x).tbl = d.tbl := rfl
@[simp] theorem Dev.emit_pipe (d : Dev) (k : OutKind) (n : Nat) (x : List Byte) : (d.emit k n x).pipe = d.pipe := rfl
@[simp] theorem Dev.emit_tm (d : Dev) (k : OutKind) (n : Nat) (x : List Byte) : (d.emit k n x).tm = d.tm := rfl
@[simp] theorem Dev.emit_time (d : Dev) (k : OutKind) (n : Nat) (x : List Byte) : (d.emit k n x).time = d.time := rfl
@[simp] theorem Dev.emit_otp (d : Dev) (k : OutKind) (n : Nat) (x : List Byte) : (d.emit k n x).otp = d.otp := rfl
@[simp] theorem Dev.emit_ks0 (d : Dev) (k : OutKind) (n : Nat) (x : List Byte) : (d.emit k n x).ks0 = d.ks0 := rfl
@[simp] theorem Dev.emit_ks1 (d : Dev) (k : OutKind) (n : Nat) (x : List Byte) : (d.emit k n x).ks1 = d.ks1 := rfl
@[simp] theorem Dev.emit_pair (d : Dev) (k : OutKind) (n : Nat) (x : List Byte) : (d.emit k n x).pair = d.pair := rfl
@[simp] theorem Dev.emit_elec (d : Dev) (k : OutKind) (n : Nat) (x : List Byte) : (d.emit k n x).elec = d.elec := rfl
@[simp] theorem Dev.emit_sec (d : Dev) (k : OutKind) (n : Nat) (x : List Byte) : (d.emit k n x).sec = d.sec := rfl
@[simp] theorem Dev.emit_links (d : Dev) (k : OutKind) (n : Nat) (x : List Byte) : (d.emit k n x).links = d.links := rfl

/-! ### holdCmd -/

@[simp] theorem Dev.holdCmd_out (d : Dev) (c : Cmd) : (d.holdCmd c).out = d.out := rfl
@[simp] theorem Dev.holdCmd_freeCtr (d : Dev) (c : Cmd) : (d.holdCmd c).freeCtr = d.freeCtr := rfl
@[simp] theorem Dev.holdCmd_modes (d : Dev) (c : Cmd) : (d.holdCmd c).modes = d.modes := rfl
@[simp] theorem Dev.holdCmd_epoch (d : Dev) (c : Cmd) : (d.holdCmd c).epoch = d.epoch := rfl
@[simp] theorem Dev.holdCmd_cfg (d : Dev) (c : Cmd) : (d.holdCmd c).cfg = d.cfg := rfl
@[simp] theorem Dev.holdCmd_stg (d : Dev) (c : Cmd) : (d.holdCmd c).stg = d.stg := rfl
@[simp] theorem Dev.holdCmd_snap (d : Dev) (c : Cmd) : (d.holdCmd c).snap = d.snap := rfl
@[simp] theorem Dev.holdCmd_cnt (d : Dev) (c : Cmd) : (d.holdCmd c).cnt = d.cnt := rfl
@[simp] theorem Dev.holdCmd_vio (d : Dev) (c : Cmd) : (d.holdCmd c).vio = d.vio := rfl
@[simp] theorem Dev.holdCmd_ev (d : Dev) (c : Cmd) : (d.holdCmd c).ev = d.ev := rfl
@[simp] theorem Dev.holdCmd_flt (d : Dev) (c : Cmd) : (d.holdCmd c).flt = d.flt := rfl
@[simp] theorem Dev.holdCmd_disp (d : Dev) (c : Cmd) : (d.holdCmd c).disp = d.disp := rfl
@[simp] theorem Dev.holdCmd_ports (d : Dev) (c : Cmd) : (d.holdCmd c).ports = d.ports := rfl
@[simp] theorem Dev.holdCmd_cin (d : Dev) (c : Cmd) : (d.holdCmd c).cin = d.cin := rfl
@[simp] theorem Dev.holdCmd_lanes (d : Dev) (c : Cmd) : (d.holdCmd c).lanes = d.lanes := rfl
@[simp] theorem Dev.holdCmd_txc (d : Dev) (c : Cmd) : (d.holdCmd c).txc = d.txc := rfl
@[simp] theorem Dev.holdCmd_duty (d : Dev) (c : Cmd) : (d.holdCmd c).duty = d.duty := rfl
@[simp] theorem Dev.holdCmd_air (d : Dev) (c : Cmd) : (d.holdCmd c).air = d.air := rfl
@[simp] theorem Dev.holdCmd_seqs (d : Dev) (c : Cmd) : (d.holdCmd c).seqs = d.seqs := rfl
@[simp] theorem Dev.holdCmd_vat (d : Dev) (c : Cmd) : (d.holdCmd c).vat = d.vat := rfl
@[simp] theorem Dev.holdCmd_tbl (d : Dev) (c : Cmd) : (d.holdCmd c).tbl = d.tbl := rfl
@[simp] theorem Dev.holdCmd_pipe (d : Dev) (c : Cmd) : (d.holdCmd c).pipe = d.pipe := rfl
@[simp] theorem Dev.holdCmd_tm (d : Dev) (c : Cmd) : (d.holdCmd c).tm = d.tm := rfl
@[simp] theorem Dev.holdCmd_time (d : Dev) (c : Cmd) : (d.holdCmd c).time = d.time := rfl
@[simp] theorem Dev.holdCmd_otp (d : Dev) (c : Cmd) : (d.holdCmd c).otp = d.otp := rfl
@[simp] theorem Dev.holdCmd_ks0 (d : Dev) (c : Cmd) : (d.holdCmd c).ks0 = d.ks0 := rfl
@[simp] theorem Dev.holdCmd_ks1 (d : Dev) (c : Cmd) : (d.holdCmd c).ks1 = d.ks1 := rfl
@[simp] theorem Dev.holdCmd_pair (d : Dev) (c : Cmd) : (d.holdCmd c).pair = d.pair := rfl
@[simp] theorem Dev.holdCmd_elec (d : Dev) (c : Cmd) : (d.holdCmd c).elec = d.elec := rfl
@[simp] theorem Dev.holdCmd_sec (d : Dev) (c : Cmd) : (d.holdCmd c).sec = d.sec := rfl
@[simp] theorem Dev.holdCmd_links (d : Dev) (c : Cmd) : (d.holdCmd c).links = d.links := rfl

/-! ### stageCmd -/

@[simp] theorem Dev.stageCmd_out (d : Dev) (c : Cmd) (e : Option Nat) : (d.stageCmd c e).out = d.out := rfl
@[simp] theorem Dev.stageCmd_freeCtr (d : Dev) (c : Cmd) (e : Option Nat) : (d.stageCmd c e).freeCtr = d.freeCtr := rfl
@[simp] theorem Dev.stageCmd_modes (d : Dev) (c : Cmd) (e : Option Nat) : (d.stageCmd c e).modes = d.modes := rfl
@[simp] theorem Dev.stageCmd_epoch (d : Dev) (c : Cmd) (e : Option Nat) : (d.stageCmd c e).epoch = d.epoch := rfl
@[simp] theorem Dev.stageCmd_cfg (d : Dev) (c : Cmd) (e : Option Nat) : (d.stageCmd c e).cfg = d.cfg := rfl
@[simp] theorem Dev.stageCmd_snap (d : Dev) (c : Cmd) (e : Option Nat) : (d.stageCmd c e).snap = d.snap := rfl
@[simp] theorem Dev.stageCmd_cnt (d : Dev) (c : Cmd) (e : Option Nat) : (d.stageCmd c e).cnt = d.cnt := rfl
@[simp] theorem Dev.stageCmd_vio (d : Dev) (c : Cmd) (e : Option Nat) : (d.stageCmd c e).vio = d.vio := rfl
@[simp] theorem Dev.stageCmd_ev (d : Dev) (c : Cmd) (e : Option Nat) : (d.stageCmd c e).ev = d.ev := rfl
@[simp] theorem Dev.stageCmd_flt (d : Dev) (c : Cmd) (e : Option Nat) : (d.stageCmd c e).flt = d.flt := rfl
@[simp] theorem Dev.stageCmd_host (d : Dev) (c : Cmd) (e : Option Nat) : (d.stageCmd c e).host = d.host := rfl
@[simp] theorem Dev.stageCmd_disp (d : Dev) (c : Cmd) (e : Option Nat) : (d.stageCmd c e).disp = d.disp := rfl
@[simp] theorem Dev.stageCmd_ports (d : Dev) (c : Cmd) (e : Option Nat) : (d.stageCmd c e).ports = d.ports := rfl
@[simp] theorem Dev.stageCmd_cin (d : Dev) (c : Cmd) (e : Option Nat) : (d.stageCmd c e).cin = d.cin := rfl
@[simp] theorem Dev.stageCmd_lanes (d : Dev) (c : Cmd) (e : Option Nat) : (d.stageCmd c e).lanes = d.lanes := rfl
@[simp] theorem Dev.stageCmd_txc (d : Dev) (c : Cmd) (e : Option Nat) : (d.stageCmd c e).txc = d.txc := rfl
@[simp] theorem Dev.stageCmd_duty (d : Dev) (c : Cmd) (e : Option Nat) : (d.stageCmd c e).duty = d.duty := rfl
@[simp] theorem Dev.stageCmd_air (d : Dev) (c : Cmd) (e : Option Nat) : (d.stageCmd c e).air = d.air := rfl
@[simp] theorem Dev.stageCmd_seqs (d : Dev) (c : Cmd) (e : Option Nat) : (d.stageCmd c e).seqs = d.seqs := rfl
@[simp] theorem Dev.stageCmd_vat (d : Dev) (c : Cmd) (e : Option Nat) : (d.stageCmd c e).vat = d.vat := rfl
@[simp] theorem Dev.stageCmd_tbl (d : Dev) (c : Cmd) (e : Option Nat) : (d.stageCmd c e).tbl = d.tbl := rfl
@[simp] theorem Dev.stageCmd_pipe (d : Dev) (c : Cmd) (e : Option Nat) : (d.stageCmd c e).pipe = d.pipe := rfl
@[simp] theorem Dev.stageCmd_tm (d : Dev) (c : Cmd) (e : Option Nat) : (d.stageCmd c e).tm = d.tm := rfl
@[simp] theorem Dev.stageCmd_time (d : Dev) (c : Cmd) (e : Option Nat) : (d.stageCmd c e).time = d.time := rfl
@[simp] theorem Dev.stageCmd_otp (d : Dev) (c : Cmd) (e : Option Nat) : (d.stageCmd c e).otp = d.otp := rfl
@[simp] theorem Dev.stageCmd_ks0 (d : Dev) (c : Cmd) (e : Option Nat) : (d.stageCmd c e).ks0 = d.ks0 := rfl
@[simp] theorem Dev.stageCmd_ks1 (d : Dev) (c : Cmd) (e : Option Nat) : (d.stageCmd c e).ks1 = d.ks1 := rfl
@[simp] theorem Dev.stageCmd_pair (d : Dev) (c : Cmd) (e : Option Nat) : (d.stageCmd c e).pair = d.pair := rfl
@[simp] theorem Dev.stageCmd_elec (d : Dev) (c : Cmd) (e : Option Nat) : (d.stageCmd c e).elec = d.elec := rfl
@[simp] theorem Dev.stageCmd_sec (d : Dev) (c : Cmd) (e : Option Nat) : (d.stageCmd c e).sec = d.sec := rfl
@[simp] theorem Dev.stageCmd_links (d : Dev) (c : Cmd) (e : Option Nat) : (d.stageCmd c e).links = d.links := rfl

/-! ### completeStaged -/

@[simp] theorem Dev.completeStaged_out (d : Dev) (c : Cmd) (st : Status) (r : List Byte) : (d.completeStaged c st r).out = d.out := rfl
@[simp] theorem Dev.completeStaged_freeCtr (d : Dev) (c : Cmd) (st : Status) (r : List Byte) : (d.completeStaged c st r).freeCtr = d.freeCtr := rfl
@[simp] theorem Dev.completeStaged_modes (d : Dev) (c : Cmd) (st : Status) (r : List Byte) : (d.completeStaged c st r).modes = d.modes := rfl
@[simp] theorem Dev.completeStaged_epoch (d : Dev) (c : Cmd) (st : Status) (r : List Byte) : (d.completeStaged c st r).epoch = d.epoch := rfl
@[simp] theorem Dev.completeStaged_cfg (d : Dev) (c : Cmd) (st : Status) (r : List Byte) : (d.completeStaged c st r).cfg = d.cfg := rfl
@[simp] theorem Dev.completeStaged_snap (d : Dev) (c : Cmd) (st : Status) (r : List Byte) : (d.completeStaged c st r).snap = d.snap := rfl
@[simp] theorem Dev.completeStaged_cnt (d : Dev) (c : Cmd) (st : Status) (r : List Byte) : (d.completeStaged c st r).cnt = d.cnt := rfl
@[simp] theorem Dev.completeStaged_vio (d : Dev) (c : Cmd) (st : Status) (r : List Byte) : (d.completeStaged c st r).vio = d.vio := rfl
@[simp] theorem Dev.completeStaged_ev (d : Dev) (c : Cmd) (st : Status) (r : List Byte) : (d.completeStaged c st r).ev = d.ev := rfl
@[simp] theorem Dev.completeStaged_flt (d : Dev) (c : Cmd) (st : Status) (r : List Byte) : (d.completeStaged c st r).flt = d.flt := rfl
@[simp] theorem Dev.completeStaged_host (d : Dev) (c : Cmd) (st : Status) (r : List Byte) : (d.completeStaged c st r).host = d.host := rfl
@[simp] theorem Dev.completeStaged_disp (d : Dev) (c : Cmd) (st : Status) (r : List Byte) : (d.completeStaged c st r).disp = d.disp := rfl
@[simp] theorem Dev.completeStaged_ports (d : Dev) (c : Cmd) (st : Status) (r : List Byte) : (d.completeStaged c st r).ports = d.ports := rfl
@[simp] theorem Dev.completeStaged_cin (d : Dev) (c : Cmd) (st : Status) (r : List Byte) : (d.completeStaged c st r).cin = d.cin := rfl
@[simp] theorem Dev.completeStaged_lanes (d : Dev) (c : Cmd) (st : Status) (r : List Byte) : (d.completeStaged c st r).lanes = d.lanes := rfl
@[simp] theorem Dev.completeStaged_txc (d : Dev) (c : Cmd) (st : Status) (r : List Byte) : (d.completeStaged c st r).txc = d.txc := rfl
@[simp] theorem Dev.completeStaged_duty (d : Dev) (c : Cmd) (st : Status) (r : List Byte) : (d.completeStaged c st r).duty = d.duty := rfl
@[simp] theorem Dev.completeStaged_air (d : Dev) (c : Cmd) (st : Status) (r : List Byte) : (d.completeStaged c st r).air = d.air := rfl
@[simp] theorem Dev.completeStaged_seqs (d : Dev) (c : Cmd) (st : Status) (r : List Byte) : (d.completeStaged c st r).seqs = d.seqs := rfl
@[simp] theorem Dev.completeStaged_vat (d : Dev) (c : Cmd) (st : Status) (r : List Byte) : (d.completeStaged c st r).vat = d.vat := rfl
@[simp] theorem Dev.completeStaged_tbl (d : Dev) (c : Cmd) (st : Status) (r : List Byte) : (d.completeStaged c st r).tbl = d.tbl := rfl
@[simp] theorem Dev.completeStaged_pipe (d : Dev) (c : Cmd) (st : Status) (r : List Byte) : (d.completeStaged c st r).pipe = d.pipe := rfl
@[simp] theorem Dev.completeStaged_tm (d : Dev) (c : Cmd) (st : Status) (r : List Byte) : (d.completeStaged c st r).tm = d.tm := rfl
@[simp] theorem Dev.completeStaged_time (d : Dev) (c : Cmd) (st : Status) (r : List Byte) : (d.completeStaged c st r).time = d.time := rfl
@[simp] theorem Dev.completeStaged_otp (d : Dev) (c : Cmd) (st : Status) (r : List Byte) : (d.completeStaged c st r).otp = d.otp := rfl
@[simp] theorem Dev.completeStaged_ks0 (d : Dev) (c : Cmd) (st : Status) (r : List Byte) : (d.completeStaged c st r).ks0 = d.ks0 := rfl
@[simp] theorem Dev.completeStaged_ks1 (d : Dev) (c : Cmd) (st : Status) (r : List Byte) : (d.completeStaged c st r).ks1 = d.ks1 := rfl
@[simp] theorem Dev.completeStaged_pair (d : Dev) (c : Cmd) (st : Status) (r : List Byte) : (d.completeStaged c st r).pair = d.pair := rfl
@[simp] theorem Dev.completeStaged_elec (d : Dev) (c : Cmd) (st : Status) (r : List Byte) : (d.completeStaged c st r).elec = d.elec := rfl
@[simp] theorem Dev.completeStaged_sec (d : Dev) (c : Cmd) (st : Status) (r : List Byte) : (d.completeStaged c st r).sec = d.sec := rfl
@[simp] theorem Dev.completeStaged_links (d : Dev) (c : Cmd) (st : Status) (r : List Byte) : (d.completeStaged c st r).links = d.links := rfl

/-! ### draw -/

@[simp] theorem Dev.draw_out (d : Dev) (w : Nat) : (d.draw w).2.out = d.out := rfl
@[simp] theorem Dev.draw_modes (d : Dev) (w : Nat) : (d.draw w).2.modes = d.modes := rfl
@[simp] theorem Dev.draw_epoch (d : Dev) (w : Nat) : (d.draw w).2.epoch = d.epoch := rfl
@[simp] theorem Dev.draw_cfg (d : Dev) (w : Nat) : (d.draw w).2.cfg = d.cfg := rfl
@[simp] theorem Dev.draw_stg (d : Dev) (w : Nat) : (d.draw w).2.stg = d.stg := rfl
@[simp] theorem Dev.draw_snap (d : Dev) (w : Nat) : (d.draw w).2.snap = d.snap := rfl
@[simp] theorem Dev.draw_cnt (d : Dev) (w : Nat) : (d.draw w).2.cnt = d.cnt := rfl
@[simp] theorem Dev.draw_vio (d : Dev) (w : Nat) : (d.draw w).2.vio = d.vio := rfl
@[simp] theorem Dev.draw_ev (d : Dev) (w : Nat) : (d.draw w).2.ev = d.ev := rfl
@[simp] theorem Dev.draw_flt (d : Dev) (w : Nat) : (d.draw w).2.flt = d.flt := rfl
@[simp] theorem Dev.draw_host (d : Dev) (w : Nat) : (d.draw w).2.host = d.host := rfl
@[simp] theorem Dev.draw_disp (d : Dev) (w : Nat) : (d.draw w).2.disp = d.disp := rfl
@[simp] theorem Dev.draw_ports (d : Dev) (w : Nat) : (d.draw w).2.ports = d.ports := rfl
@[simp] theorem Dev.draw_cin (d : Dev) (w : Nat) : (d.draw w).2.cin = d.cin := rfl
@[simp] theorem Dev.draw_lanes (d : Dev) (w : Nat) : (d.draw w).2.lanes = d.lanes := rfl
@[simp] theorem Dev.draw_txc (d : Dev) (w : Nat) : (d.draw w).2.txc = d.txc := rfl
@[simp] theorem Dev.draw_duty (d : Dev) (w : Nat) : (d.draw w).2.duty = d.duty := rfl
@[simp] theorem Dev.draw_air (d : Dev) (w : Nat) : (d.draw w).2.air = d.air := rfl
@[simp] theorem Dev.draw_seqs (d : Dev) (w : Nat) : (d.draw w).2.seqs = d.seqs := rfl
@[simp] theorem Dev.draw_vat (d : Dev) (w : Nat) : (d.draw w).2.vat = d.vat := rfl
@[simp] theorem Dev.draw_tbl (d : Dev) (w : Nat) : (d.draw w).2.tbl = d.tbl := rfl
@[simp] theorem Dev.draw_pipe (d : Dev) (w : Nat) : (d.draw w).2.pipe = d.pipe := rfl
@[simp] theorem Dev.draw_tm (d : Dev) (w : Nat) : (d.draw w).2.tm = d.tm := rfl
@[simp] theorem Dev.draw_time (d : Dev) (w : Nat) : (d.draw w).2.time = d.time := rfl
@[simp] theorem Dev.draw_otp (d : Dev) (w : Nat) : (d.draw w).2.otp = d.otp := rfl
@[simp] theorem Dev.draw_ks0 (d : Dev) (w : Nat) : (d.draw w).2.ks0 = d.ks0 := rfl
@[simp] theorem Dev.draw_ks1 (d : Dev) (w : Nat) : (d.draw w).2.ks1 = d.ks1 := rfl
@[simp] theorem Dev.draw_pair (d : Dev) (w : Nat) : (d.draw w).2.pair = d.pair := rfl
@[simp] theorem Dev.draw_elec (d : Dev) (w : Nat) : (d.draw w).2.elec = d.elec := rfl
@[simp] theorem Dev.draw_sec (d : Dev) (w : Nat) : (d.draw w).2.sec = d.sec := rfl
@[simp] theorem Dev.draw_links (d : Dev) (w : Nat) : (d.draw w).2.links = d.links := rfl

/-! ### Running a meaning -/

/-- Every meaning answers a next state; the waiting commands stay. -/
theorem State.run_eq (s : State) (f : Dev → Dev) :
    s.run f = .next { s with dev := f { s.dev with out := [] } } := rfl

end Sys2Proof.Machine
end

