-- ==== Sys2Proof/Laws/Frames.lean ====
section
/-! SUPPORT. What raising an event, advancing a counter, logging a violation and posting a completion leave alone. -/

-- One proof at a time: the package compiles as one text, and proofs elaborated side by side each take a thread's stack.
set_option Elab.async false

namespace Sys2Proof.Machine

/-! ### raiseIn and raise -/

@[simp] theorem Dev.raiseIn_out (d : Dev) (o : Option Domain) (c : EvCode) (x : List Byte) :
    (d.raiseIn o c x).out = d.out := by
  unfold Dev.raiseIn
  simp only []
  repeat' split
  all_goals rfl
@[simp] theorem Dev.raiseIn_freeCtr (d : Dev) (o : Option Domain) (c : EvCode) (x : List Byte) :
    (d.raiseIn o c x).freeCtr = d.freeCtr := by
  unfold Dev.raiseIn
  simp only []
  repeat' split
  all_goals rfl
@[simp] theorem Dev.raiseIn_modes (d : Dev) (o : Option Domain) (c : EvCode) (x : List Byte) :
    (d.raiseIn o c x).modes = d.modes := by
  unfold Dev.raiseIn
  simp only []
  repeat' split
  all_goals rfl
@[simp] theorem Dev.raiseIn_epoch (d : Dev) (o : Option Domain) (c : EvCode) (x : List Byte) :
    (d.raiseIn o c x).epoch = d.epoch := by
  unfold Dev.raiseIn
  simp only []
  repeat' split
  all_goals rfl
@[simp] theorem Dev.raiseIn_cfg (d : Dev) (o : Option Domain) (c : EvCode) (x : List Byte) :
    (d.raiseIn o c x).cfg = d.cfg := by
  unfold Dev.raiseIn
  simp only []
  repeat' split
  all_goals rfl
@[simp] theorem Dev.raiseIn_stg (d : Dev) (o : Option Domain) (c : EvCode) (x : List Byte) :
    (d.raiseIn o c x).stg = d.stg := by
  unfold Dev.raiseIn
  simp only []
  repeat' split
  all_goals rfl
@[simp] theorem Dev.raiseIn_snap (d : Dev) (o : Option Domain) (c : EvCode) (x : List Byte) :
    (d.raiseIn o c x).snap = d.snap := by
  unfold Dev.raiseIn
  simp only []
  repeat' split
  all_goals rfl
@[simp] theorem Dev.raiseIn_vio (d : Dev) (o : Option Domain) (c : EvCode) (x : List Byte) :
    (d.raiseIn o c x).vio = d.vio := by
  unfold Dev.raiseIn
  simp only []
  repeat' split
  all_goals rfl
@[simp] theorem Dev.raiseIn_flt (d : Dev) (o : Option Domain) (c : EvCode) (x : List Byte) :
    (d.raiseIn o c x).flt = d.flt := by
  unfold Dev.raiseIn
  simp only []
  repeat' split
  all_goals rfl
@[simp] theorem Dev.raiseIn_host (d : Dev) (o : Option Domain) (c : EvCode) (x : List Byte) :
    (d.raiseIn o c x).host = d.host := by
  unfold Dev.raiseIn
  simp only []
  repeat' split
  all_goals rfl
@[simp] theorem Dev.raiseIn_disp (d : Dev) (o : Option Domain) (c : EvCode) (x : List Byte) :
    (d.raiseIn o c x).disp = d.disp := by
  unfold Dev.raiseIn
  simp only []
  repeat' split
  all_goals rfl
@[simp] theorem Dev.raiseIn_ports (d : Dev) (o : Option Domain) (c : EvCode) (x : List Byte) :
    (d.raiseIn o c x).ports = d.ports := by
  unfold Dev.raiseIn
  simp only []
  repeat' split
  all_goals rfl
@[simp] theorem Dev.raiseIn_cin (d : Dev) (o : Option Domain) (c : EvCode) (x : List Byte) :
    (d.raiseIn o c x).cin = d.cin := by
  unfold Dev.raiseIn
  simp only []
  repeat' split
  all_goals rfl
@[simp] theorem Dev.raiseIn_lanes (d : Dev) (o : Option Domain) (c : EvCode) (x : List Byte) :
    (d.raiseIn o c x).lanes = d.lanes := by
  unfold Dev.raiseIn
  simp only []
  repeat' split
  all_goals rfl
@[simp] theorem Dev.raiseIn_txc (d : Dev) (o : Option Domain) (c : EvCode) (x : List Byte) :
    (d.raiseIn o c x).txc = d.txc := by
  unfold Dev.raiseIn
  simp only []
  repeat' split
  all_goals rfl
@[simp] theorem Dev.raiseIn_duty (d : Dev) (o : Option Domain) (c : EvCode) (x : List Byte) :
    (d.raiseIn o c x).duty = d.duty := by
  unfold Dev.raiseIn
  simp only []
  repeat' split
  all_goals rfl
@[simp] theorem Dev.raiseIn_air (d : Dev) (o : Option Domain) (c : EvCode) (x : List Byte) :
    (d.raiseIn o c x).air = d.air := by
  unfold Dev.raiseIn
  simp only []
  repeat' split
  all_goals rfl
@[simp] theorem Dev.raiseIn_seqs (d : Dev) (o : Option Domain) (c : EvCode) (x : List Byte) :
    (d.raiseIn o c x).seqs = d.seqs := by
  unfold Dev.raiseIn
  simp only []
  repeat' split
  all_goals rfl
@[simp] theorem Dev.raiseIn_vat (d : Dev) (o : Option Domain) (c : EvCode) (x : List Byte) :
    (d.raiseIn o c x).vat = d.vat := by
  unfold Dev.raiseIn
  simp only []
  repeat' split
  all_goals rfl
@[simp] theorem Dev.raiseIn_tbl (d : Dev) (o : Option Domain) (c : EvCode) (x : List Byte) :
    (d.raiseIn o c x).tbl = d.tbl := by
  unfold Dev.raiseIn
  simp only []
  repeat' split
  all_goals rfl
@[simp] theorem Dev.raiseIn_pipe (d : Dev) (o : Option Domain) (c : EvCode) (x : List Byte) :
    (d.raiseIn o c x).pipe = d.pipe := by
  unfold Dev.raiseIn
  simp only []
  repeat' split
  all_goals rfl
@[simp] theorem Dev.raiseIn_tm (d : Dev) (o : Option Domain) (c : EvCode) (x : List Byte) :
    (d.raiseIn o c x).tm = d.tm := by
  unfold Dev.raiseIn
  simp only []
  repeat' split
  all_goals rfl
@[simp] theorem Dev.raiseIn_time (d : Dev) (o : Option Domain) (c : EvCode) (x : List Byte) :
    (d.raiseIn o c x).time = d.time := by
  unfold Dev.raiseIn
  simp only []
  repeat' split
  all_goals rfl
@[simp] theorem Dev.raiseIn_otp (d : Dev) (o : Option Domain) (c : EvCode) (x : List Byte) :
    (d.raiseIn o c x).otp = d.otp := by
  unfold Dev.raiseIn
  simp only []
  repeat' split
  all_goals rfl
@[simp] theorem Dev.raiseIn_ks0 (d : Dev) (o : Option Domain) (c : EvCode) (x : List Byte) :
    (d.raiseIn o c x).ks0 = d.ks0 := by
  unfold Dev.raiseIn
  simp only []
  repeat' split
  all_goals rfl
@[simp] theorem Dev.raiseIn_ks1 (d : Dev) (o : Option Domain) (c : EvCode) (x : List Byte) :
    (d.raiseIn o c x).ks1 = d.ks1 := by
  unfold Dev.raiseIn
  simp only []
  repeat' split
  all_goals rfl
@[simp] theorem Dev.raiseIn_pair (d : Dev) (o : Option Domain) (c : EvCode) (x : List Byte) :
    (d.raiseIn o c x).pair = d.pair := by
  unfold Dev.raiseIn
  simp only []
  repeat' split
  all_goals rfl
@[simp] theorem Dev.raiseIn_elec (d : Dev) (o : Option Domain) (c : EvCode) (x : List Byte) :
    (d.raiseIn o c x).elec = d.elec := by
  unfold Dev.raiseIn
  simp only []
  repeat' split
  all_goals rfl
@[simp] theorem Dev.raiseIn_sec (d : Dev) (o : Option Domain) (c : EvCode) (x : List Byte) :
    (d.raiseIn o c x).sec = d.sec := by
  unfold Dev.raiseIn
  simp only []
  repeat' split
  all_goals rfl
@[simp] theorem Dev.raiseIn_links (d : Dev) (o : Option Domain) (c : EvCode) (x : List Byte) :
    (d.raiseIn o c x).links = d.links := by
  unfold Dev.raiseIn
  simp only []
  repeat' split
  all_goals rfl
@[simp] theorem Dev.raise_out (d : Dev) (c : EvCode) (x : List Byte) : (d.raise c x).out = d.out := Dev.raiseIn_out ..
@[simp] theorem Dev.raise_freeCtr (d : Dev) (c : EvCode) (x : List Byte) : (d.raise c x).freeCtr = d.freeCtr := Dev.raiseIn_freeCtr ..
@[simp] theorem Dev.raise_modes (d : Dev) (c : EvCode) (x : List Byte) : (d.raise c x).modes = d.modes := Dev.raiseIn_modes ..
@[simp] theorem Dev.raise_epoch (d : Dev) (c : EvCode) (x : List Byte) : (d.raise c x).epoch = d.epoch := Dev.raiseIn_epoch ..
@[simp] theorem Dev.raise_cfg (d : Dev) (c : EvCode) (x : List Byte) : (d.raise c x).cfg = d.cfg := Dev.raiseIn_cfg ..
@[simp] theorem Dev.raise_stg (d : Dev) (c : EvCode) (x : List Byte) : (d.raise c x).stg = d.stg := Dev.raiseIn_stg ..
@[simp] theorem Dev.raise_snap (d : Dev) (c : EvCode) (x : List Byte) : (d.raise c x).snap = d.snap := Dev.raiseIn_snap ..
@[simp] theorem Dev.raise_vio (d : Dev) (c : EvCode) (x : List Byte) : (d.raise c x).vio = d.vio := Dev.raiseIn_vio ..
@[simp] theorem Dev.raise_flt (d : Dev) (c : EvCode) (x : List Byte) : (d.raise c x).flt = d.flt := Dev.raiseIn_flt ..
@[simp] theorem Dev.raise_host (d : Dev) (c : EvCode) (x : List Byte) : (d.raise c x).host = d.host := Dev.raiseIn_host ..
@[simp] theorem Dev.raise_disp (d : Dev) (c : EvCode) (x : List Byte) : (d.raise c x).disp = d.disp := Dev.raiseIn_disp ..
@[simp] theorem Dev.raise_ports (d : Dev) (c : EvCode) (x : List Byte) : (d.raise c x).ports = d.ports := Dev.raiseIn_ports ..
@[simp] theorem Dev.raise_cin (d : Dev) (c : EvCode) (x : List Byte) : (d.raise c x).cin = d.cin := Dev.raiseIn_cin ..
@[simp] theorem Dev.raise_lanes (d : Dev) (c : EvCode) (x : List Byte) : (d.raise c x).lanes = d.lanes := Dev.raiseIn_lanes ..
@[simp] theorem Dev.raise_txc (d : Dev) (c : EvCode) (x : List Byte) : (d.raise c x).txc = d.txc := Dev.raiseIn_txc ..
@[simp] theorem Dev.raise_duty (d : Dev) (c : EvCode) (x : List Byte) : (d.raise c x).duty = d.duty := Dev.raiseIn_duty ..
@[simp] theorem Dev.raise_air (d : Dev) (c : EvCode) (x : List Byte) : (d.raise c x).air = d.air := Dev.raiseIn_air ..
@[simp] theorem Dev.raise_seqs (d : Dev) (c : EvCode) (x : List Byte) : (d.raise c x).seqs = d.seqs := Dev.raiseIn_seqs ..
@[simp] theorem Dev.raise_vat (d : Dev) (c : EvCode) (x : List Byte) : (d.raise c x).vat = d.vat := Dev.raiseIn_vat ..
@[simp] theorem Dev.raise_tbl (d : Dev) (c : EvCode) (x : List Byte) : (d.raise c x).tbl = d.tbl := Dev.raiseIn_tbl ..
@[simp] theorem Dev.raise_pipe (d : Dev) (c : EvCode) (x : List Byte) : (d.raise c x).pipe = d.pipe := Dev.raiseIn_pipe ..
@[simp] theorem Dev.raise_tm (d : Dev) (c : EvCode) (x : List Byte) : (d.raise c x).tm = d.tm := Dev.raiseIn_tm ..
@[simp] theorem Dev.raise_time (d : Dev) (c : EvCode) (x : List Byte) : (d.raise c x).time = d.time := Dev.raiseIn_time ..
@[simp] theorem Dev.raise_otp (d : Dev) (c : EvCode) (x : List Byte) : (d.raise c x).otp = d.otp := Dev.raiseIn_otp ..
@[simp] theorem Dev.raise_ks0 (d : Dev) (c : EvCode) (x : List Byte) : (d.raise c x).ks0 = d.ks0 := Dev.raiseIn_ks0 ..
@[simp] theorem Dev.raise_ks1 (d : Dev) (c : EvCode) (x : List Byte) : (d.raise c x).ks1 = d.ks1 := Dev.raiseIn_ks1 ..
@[simp] theorem Dev.raise_pair (d : Dev) (c : EvCode) (x : List Byte) : (d.raise c x).pair = d.pair := Dev.raiseIn_pair ..
@[simp] theorem Dev.raise_elec (d : Dev) (c : EvCode) (x : List Byte) : (d.raise c x).elec = d.elec := Dev.raiseIn_elec ..
@[simp] theorem Dev.raise_sec (d : Dev) (c : EvCode) (x : List Byte) : (d.raise c x).sec = d.sec := Dev.raiseIn_sec ..
@[simp] theorem Dev.raise_links (d : Dev) (c : EvCode) (x : List Byte) : (d.raise c x).links = d.links := Dev.raiseIn_links ..

/-! ### countLate -/

@[simp] theorem Dev.countLate_out (d : Dev) (off n : Nat) : (d.countLate off n).out = d.out := by
  unfold Dev.countLate; split <;> rfl
@[simp] theorem Dev.countLate_freeCtr (d : Dev) (off n : Nat) : (d.countLate off n).freeCtr = d.freeCtr := by
  unfold Dev.countLate; split <;> rfl
@[simp] theorem Dev.countLate_modes (d : Dev) (off n : Nat) : (d.countLate off n).modes = d.modes := by
  unfold Dev.countLate; split <;> rfl
@[simp] theorem Dev.countLate_epoch (d : Dev) (off n : Nat) : (d.countLate off n).epoch = d.epoch := by
  unfold Dev.countLate; split <;> rfl
@[simp] theorem Dev.countLate_cfg (d : Dev) (off n : Nat) : (d.countLate off n).cfg = d.cfg := by
  unfold Dev.countLate; split <;> rfl
@[simp] theorem Dev.countLate_stg (d : Dev) (off n : Nat) : (d.countLate off n).stg = d.stg := by
  unfold Dev.countLate; split <;> rfl
@[simp] theorem Dev.countLate_snap (d : Dev) (off n : Nat) : (d.countLate off n).snap = d.snap := by
  unfold Dev.countLate; split <;> rfl
@[simp] theorem Dev.countLate_vio (d : Dev) (off n : Nat) : (d.countLate off n).vio = d.vio := by
  unfold Dev.countLate; split <;> rfl
@[simp] theorem Dev.countLate_ev (d : Dev) (off n : Nat) : (d.countLate off n).ev = d.ev := by
  unfold Dev.countLate; split <;> rfl
@[simp] theorem Dev.countLate_flt (d : Dev) (off n : Nat) : (d.countLate off n).flt = d.flt := by
  unfold Dev.countLate; split <;> rfl
@[simp] theorem Dev.countLate_host (d : Dev) (off n : Nat) : (d.countLate off n).host = d.host := by
  unfold Dev.countLate; split <;> rfl
@[simp] theorem Dev.countLate_disp (d : Dev) (off n : Nat) : (d.countLate off n).disp = d.disp := by
  unfold Dev.countLate; split <;> rfl
@[simp] theorem Dev.countLate_ports (d : Dev) (off n : Nat) : (d.countLate off n).ports = d.ports := by
  unfold Dev.countLate; split <;> rfl
@[simp] theorem Dev.countLate_cin (d : Dev) (off n : Nat) : (d.countLate off n).cin = d.cin := by
  unfold Dev.countLate; split <;> rfl
@[simp] theorem Dev.countLate_lanes (d : Dev) (off n : Nat) : (d.countLate off n).lanes = d.lanes := by
  unfold Dev.countLate; split <;> rfl
@[simp] theorem Dev.countLate_txc (d : Dev) (off n : Nat) : (d.countLate off n).txc = d.txc := by
  unfold Dev.countLate; split <;> rfl
@[simp] theorem Dev.countLate_duty (d : Dev) (off n : Nat) : (d.countLate off n).duty = d.duty := by
  unfold Dev.countLate; split <;> rfl
@[simp] theorem Dev.countLate_air (d : Dev) (off n : Nat) : (d.countLate off n).air = d.air := by
  unfold Dev.countLate; split <;> rfl
@[simp] theorem Dev.countLate_seqs (d : Dev) (off n : Nat) : (d.countLate off n).seqs = d.seqs := by
  unfold Dev.countLate; split <;> rfl
@[simp] theorem Dev.countLate_vat (d : Dev) (off n : Nat) : (d.countLate off n).vat = d.vat := by
  unfold Dev.countLate; split <;> rfl
@[simp] theorem Dev.countLate_tbl (d : Dev) (off n : Nat) : (d.countLate off n).tbl = d.tbl := by
  unfold Dev.countLate; split <;> rfl
@[simp] theorem Dev.countLate_pipe (d : Dev) (off n : Nat) : (d.countLate off n).pipe = d.pipe := by
  unfold Dev.countLate; split <;> rfl
@[simp] theorem Dev.countLate_tm (d : Dev) (off n : Nat) : (d.countLate off n).tm = d.tm := by
  unfold Dev.countLate; split <;> rfl
@[simp] theorem Dev.countLate_time (d : Dev) (off n : Nat) : (d.countLate off n).time = d.time := by
  unfold Dev.countLate; split <;> rfl
@[simp] theorem Dev.countLate_otp (d : Dev) (off n : Nat) : (d.countLate off n).otp = d.otp := by
  unfold Dev.countLate; split <;> rfl
@[simp] theorem Dev.countLate_ks0 (d : Dev) (off n : Nat) : (d.countLate off n).ks0 = d.ks0 := by
  unfold Dev.countLate; split <;> rfl
@[simp] theorem Dev.countLate_ks1 (d : Dev) (off n : Nat) : (d.countLate off n).ks1 = d.ks1 := by
  unfold Dev.countLate; split <;> rfl
@[simp] theorem Dev.countLate_pair (d : Dev) (off n : Nat) : (d.countLate off n).pair = d.pair := by
  unfold Dev.countLate; split <;> rfl
@[simp] theorem Dev.countLate_elec (d : Dev) (off n : Nat) : (d.countLate off n).elec = d.elec := by
  unfold Dev.countLate; split <;> rfl
@[simp] theorem Dev.countLate_sec (d : Dev) (off n : Nat) : (d.countLate off n).sec = d.sec := by
  unfold Dev.countLate; split <;> rfl
@[simp] theorem Dev.countLate_links (d : Dev) (off n : Nat) : (d.countLate off n).links = d.links := by
  unfold Dev.countLate; split <;> rfl

/-! ### bump -/

@[simp] theorem Dev.bump_out (d : Dev) (c : Counter) (n : Nat) : (d.bump c n).out = d.out := by
  unfold Dev.bump
  simp only []
  repeat' split
  all_goals simp
@[simp] theorem Dev.bump_freeCtr (d : Dev) (c : Counter) (n : Nat) : (d.bump c n).freeCtr = d.freeCtr := by
  unfold Dev.bump
  simp only []
  repeat' split
  all_goals simp
@[simp] theorem Dev.bump_modes (d : Dev) (c : Counter) (n : Nat) : (d.bump c n).modes = d.modes := by
  unfold Dev.bump
  simp only []
  repeat' split
  all_goals simp
@[simp] theorem Dev.bump_epoch (d : Dev) (c : Counter) (n : Nat) : (d.bump c n).epoch = d.epoch := by
  unfold Dev.bump
  simp only []
  repeat' split
  all_goals simp
@[simp] theorem Dev.bump_cfg (d : Dev) (c : Counter) (n : Nat) : (d.bump c n).cfg = d.cfg := by
  unfold Dev.bump
  simp only []
  repeat' split
  all_goals simp
@[simp] theorem Dev.bump_stg (d : Dev) (c : Counter) (n : Nat) : (d.bump c n).stg = d.stg := by
  unfold Dev.bump
  simp only []
  repeat' split
  all_goals simp
@[simp] theorem Dev.bump_snap (d : Dev) (c : Counter) (n : Nat) : (d.bump c n).snap = d.snap := by
  unfold Dev.bump
  simp only []
  repeat' split
  all_goals simp
@[simp] theorem Dev.bump_vio (d : Dev) (c : Counter) (n : Nat) : (d.bump c n).vio = d.vio := by
  unfold Dev.bump
  simp only []
  repeat' split
  all_goals simp
@[simp] theorem Dev.bump_flt (d : Dev) (c : Counter) (n : Nat) : (d.bump c n).flt = d.flt := by
  unfold Dev.bump
  simp only []
  repeat' split
  all_goals simp
@[simp] theorem Dev.bump_host (d : Dev) (c : Counter) (n : Nat) : (d.bump c n).host = d.host := by
  unfold Dev.bump
  simp only []
  repeat' split
  all_goals simp
@[simp] theorem Dev.bump_disp (d : Dev) (c : Counter) (n : Nat) : (d.bump c n).disp = d.disp := by
  unfold Dev.bump
  simp only []
  repeat' split
  all_goals simp
@[simp] theorem Dev.bump_ports (d : Dev) (c : Counter) (n : Nat) : (d.bump c n).ports = d.ports := by
  unfold Dev.bump
  simp only []
  repeat' split
  all_goals simp
@[simp] theorem Dev.bump_cin (d : Dev) (c : Counter) (n : Nat) : (d.bump c n).cin = d.cin := by
  unfold Dev.bump
  simp only []
  repeat' split
  all_goals simp
@[simp] theorem Dev.bump_lanes (d : Dev) (c : Counter) (n : Nat) : (d.bump c n).lanes = d.lanes := by
  unfold Dev.bump
  simp only []
  repeat' split
  all_goals simp
@[simp] theorem Dev.bump_txc (d : Dev) (c : Counter) (n : Nat) : (d.bump c n).txc = d.txc := by
  unfold Dev.bump
  simp only []
  repeat' split
  all_goals simp
@[simp] theorem Dev.bump_duty (d : Dev) (c : Counter) (n : Nat) : (d.bump c n).duty = d.duty := by
  unfold Dev.bump
  simp only []
  repeat' split
  all_goals simp
@[simp] theorem Dev.bump_air (d : Dev) (c : Counter) (n : Nat) : (d.bump c n).air = d.air := by
  unfold Dev.bump
  simp only []
  repeat' split
  all_goals simp
@[simp] theorem Dev.bump_seqs (d : Dev) (c : Counter) (n : Nat) : (d.bump c n).seqs = d.seqs := by
  unfold Dev.bump
  simp only []
  repeat' split
  all_goals simp
@[simp] theorem Dev.bump_vat (d : Dev) (c : Counter) (n : Nat) : (d.bump c n).vat = d.vat := by
  unfold Dev.bump
  simp only []
  repeat' split
  all_goals simp
@[simp] theorem Dev.bump_tbl (d : Dev) (c : Counter) (n : Nat) : (d.bump c n).tbl = d.tbl := by
  unfold Dev.bump
  simp only []
  repeat' split
  all_goals simp
@[simp] theorem Dev.bump_pipe (d : Dev) (c : Counter) (n : Nat) : (d.bump c n).pipe = d.pipe := by
  unfold Dev.bump
  simp only []
  repeat' split
  all_goals simp
@[simp] theorem Dev.bump_tm (d : Dev) (c : Counter) (n : Nat) : (d.bump c n).tm = d.tm := by
  unfold Dev.bump
  simp only []
  repeat' split
  all_goals simp
@[simp] theorem Dev.bump_time (d : Dev) (c : Counter) (n : Nat) : (d.bump c n).time = d.time := by
  unfold Dev.bump
  simp only []
  repeat' split
  all_goals simp
@[simp] theorem Dev.bump_otp (d : Dev) (c : Counter) (n : Nat) : (d.bump c n).otp = d.otp := by
  unfold Dev.bump
  simp only []
  repeat' split
  all_goals simp
@[simp] theorem Dev.bump_ks0 (d : Dev) (c : Counter) (n : Nat) : (d.bump c n).ks0 = d.ks0 := by
  unfold Dev.bump
  simp only []
  repeat' split
  all_goals simp
@[simp] theorem Dev.bump_ks1 (d : Dev) (c : Counter) (n : Nat) : (d.bump c n).ks1 = d.ks1 := by
  unfold Dev.bump
  simp only []
  repeat' split
  all_goals simp
@[simp] theorem Dev.bump_pair (d : Dev) (c : Counter) (n : Nat) : (d.bump c n).pair = d.pair := by
  unfold Dev.bump
  simp only []
  repeat' split
  all_goals simp
@[simp] theorem Dev.bump_elec (d : Dev) (c : Counter) (n : Nat) : (d.bump c n).elec = d.elec := by
  unfold Dev.bump
  simp only []
  repeat' split
  all_goals simp
@[simp] theorem Dev.bump_sec (d : Dev) (c : Counter) (n : Nat) : (d.bump c n).sec = d.sec := by
  unfold Dev.bump
  simp only []
  repeat' split
  all_goals simp
@[simp] theorem Dev.bump_links (d : Dev) (c : Counter) (n : Nat) : (d.bump c n).links = d.links := by
  unfold Dev.bump
  simp only []
  repeat' split
  all_goals simp

/-! ### logEntry -/

@[simp] theorem Dev.logEntry_out (d : Dev) (e : VioEntry) : (d.logEntry e).out = d.out := by
  unfold Dev.logEntry
  repeat' split
  all_goals simp
@[simp] theorem Dev.logEntry_freeCtr (d : Dev) (e : VioEntry) : (d.logEntry e).freeCtr = d.freeCtr := by
  unfold Dev.logEntry
  repeat' split
  all_goals simp
@[simp] theorem Dev.logEntry_modes (d : Dev) (e : VioEntry) : (d.logEntry e).modes = d.modes := by
  unfold Dev.logEntry
  repeat' split
  all_goals simp
@[simp] theorem Dev.logEntry_epoch (d : Dev) (e : VioEntry) : (d.logEntry e).epoch = d.epoch := by
  unfold Dev.logEntry
  repeat' split
  all_goals simp
@[simp] theorem Dev.logEntry_cfg (d : Dev) (e : VioEntry) : (d.logEntry e).cfg = d.cfg := by
  unfold Dev.logEntry
  repeat' split
  all_goals simp
@[simp] theorem Dev.logEntry_stg (d : Dev) (e : VioEntry) : (d.logEntry e).stg = d.stg := by
  unfold Dev.logEntry
  repeat' split
  all_goals simp
@[simp] theorem Dev.logEntry_snap (d : Dev) (e : VioEntry) : (d.logEntry e).snap = d.snap := by
  unfold Dev.logEntry
  repeat' split
  all_goals simp
@[simp] theorem Dev.logEntry_flt (d : Dev) (e : VioEntry) : (d.logEntry e).flt = d.flt := by
  unfold Dev.logEntry
  repeat' split
  all_goals simp
@[simp] theorem Dev.logEntry_host (d : Dev) (e : VioEntry) : (d.logEntry e).host = d.host := by
  unfold Dev.logEntry
  repeat' split
  all_goals simp
@[simp] theorem Dev.logEntry_disp (d : Dev) (e : VioEntry) : (d.logEntry e).disp = d.disp := by
  unfold Dev.logEntry
  repeat' split
  all_goals simp
@[simp] theorem Dev.logEntry_ports (d : Dev) (e : VioEntry) : (d.logEntry e).ports = d.ports := by
  unfold Dev.logEntry
  repeat' split
  all_goals simp
@[simp] theorem Dev.logEntry_cin (d : Dev) (e : VioEntry) : (d.logEntry e).cin = d.cin := by
  unfold Dev.logEntry
  repeat' split
  all_goals simp
@[simp] theorem Dev.logEntry_lanes (d : Dev) (e : VioEntry) : (d.logEntry e).lanes = d.lanes := by
  unfold Dev.logEntry
  repeat' split
  all_goals simp
@[simp] theorem Dev.logEntry_txc (d : Dev) (e : VioEntry) : (d.logEntry e).txc = d.txc := by
  unfold Dev.logEntry
  repeat' split
  all_goals simp
@[simp] theorem Dev.logEntry_duty (d : Dev) (e : VioEntry) : (d.logEntry e).duty = d.duty := by
  unfold Dev.logEntry
  repeat' split
  all_goals simp
@[simp] theorem Dev.logEntry_air (d : Dev) (e : VioEntry) : (d.logEntry e).air = d.air := by
  unfold Dev.logEntry
  repeat' split
  all_goals simp
@[simp] theorem Dev.logEntry_seqs (d : Dev) (e : VioEntry) : (d.logEntry e).seqs = d.seqs := by
  unfold Dev.logEntry
  repeat' split
  all_goals simp
@[simp] theorem Dev.logEntry_vat (d : Dev) (e : VioEntry) : (d.logEntry e).vat = d.vat := by
  unfold Dev.logEntry
  repeat' split
  all_goals simp
@[simp] theorem Dev.logEntry_tbl (d : Dev) (e : VioEntry) : (d.logEntry e).tbl = d.tbl := by
  unfold Dev.logEntry
  repeat' split
  all_goals simp
@[simp] theorem Dev.logEntry_pipe (d : Dev) (e : VioEntry) : (d.logEntry e).pipe = d.pipe := by
  unfold Dev.logEntry
  repeat' split
  all_goals simp
@[simp] theorem Dev.logEntry_tm (d : Dev) (e : VioEntry) : (d.logEntry e).tm = d.tm := by
  unfold Dev.logEntry
  repeat' split
  all_goals simp
@[simp] theorem Dev.logEntry_time (d : Dev) (e : VioEntry) : (d.logEntry e).time = d.time := by
  unfold Dev.logEntry
  repeat' split
  all_goals simp
@[simp] theorem Dev.logEntry_otp (d : Dev) (e : VioEntry) : (d.logEntry e).otp = d.otp := by
  unfold Dev.logEntry
  repeat' split
  all_goals simp
@[simp] theorem Dev.logEntry_ks0 (d : Dev) (e : VioEntry) : (d.logEntry e).ks0 = d.ks0 := by
  unfold Dev.logEntry
  repeat' split
  all_goals simp
@[simp] theorem Dev.logEntry_ks1 (d : Dev) (e : VioEntry) : (d.logEntry e).ks1 = d.ks1 := by
  unfold Dev.logEntry
  repeat' split
  all_goals simp
@[simp] theorem Dev.logEntry_pair (d : Dev) (e : VioEntry) : (d.logEntry e).pair = d.pair := by
  unfold Dev.logEntry
  repeat' split
  all_goals simp
@[simp] theorem Dev.logEntry_elec (d : Dev) (e : VioEntry) : (d.logEntry e).elec = d.elec := by
  unfold Dev.logEntry
  repeat' split
  all_goals simp
@[simp] theorem Dev.logEntry_sec (d : Dev) (e : VioEntry) : (d.logEntry e).sec = d.sec := by
  unfold Dev.logEntry
  repeat' split
  all_goals simp
@[simp] theorem Dev.logEntry_links (d : Dev) (e : VioEntry) : (d.logEntry e).links = d.links := by
  unfold Dev.logEntry
  repeat' split
  all_goals simp

/-! ### violate -/

@[simp] theorem Dev.violate_out (d : Dev) (v : Vio) (x : List Byte) : (d.violate v x).out = d.out := by
  unfold Dev.violate
  simp only []
  repeat' split
  all_goals simp
@[simp] theorem Dev.violate_freeCtr (d : Dev) (v : Vio) (x : List Byte) : (d.violate v x).freeCtr = d.freeCtr := by
  unfold Dev.violate
  simp only []
  repeat' split
  all_goals simp
@[simp] theorem Dev.violate_modes (d : Dev) (v : Vio) (x : List Byte) : (d.violate v x).modes = d.modes := by
  unfold Dev.violate
  simp only []
  repeat' split
  all_goals simp
@[simp] theorem Dev.violate_epoch (d : Dev) (v : Vio) (x : List Byte) : (d.violate v x).epoch = d.epoch := by
  unfold Dev.violate
  simp only []
  repeat' split
  all_goals simp
@[simp] theorem Dev.violate_cfg (d : Dev) (v : Vio) (x : List Byte) : (d.violate v x).cfg = d.cfg := by
  unfold Dev.violate
  simp only []
  repeat' split
  all_goals simp
@[simp] theorem Dev.violate_stg (d : Dev) (v : Vio) (x : List Byte) : (d.violate v x).stg = d.stg := by
  unfold Dev.violate
  simp only []
  repeat' split
  all_goals simp
@[simp] theorem Dev.violate_snap (d : Dev) (v : Vio) (x : List Byte) : (d.violate v x).snap = d.snap := by
  unfold Dev.violate
  simp only []
  repeat' split
  all_goals simp
@[simp] theorem Dev.violate_flt (d : Dev) (v : Vio) (x : List Byte) : (d.violate v x).flt = d.flt := by
  unfold Dev.violate
  simp only []
  repeat' split
  all_goals simp
@[simp] theorem Dev.violate_host (d : Dev) (v : Vio) (x : List Byte) : (d.violate v x).host = d.host := by
  unfold Dev.violate
  simp only []
  repeat' split
  all_goals simp
@[simp] theorem Dev.violate_disp (d : Dev) (v : Vio) (x : List Byte) : (d.violate v x).disp = d.disp := by
  unfold Dev.violate
  simp only []
  repeat' split
  all_goals simp
@[simp] theorem Dev.violate_ports (d : Dev) (v : Vio) (x : List Byte) : (d.violate v x).ports = d.ports := by
  unfold Dev.violate
  simp only []
  repeat' split
  all_goals simp
@[simp] theorem Dev.violate_cin (d : Dev) (v : Vio) (x : List Byte) : (d.violate v x).cin = d.cin := by
  unfold Dev.violate
  simp only []
  repeat' split
  all_goals simp
@[simp] theorem Dev.violate_lanes (d : Dev) (v : Vio) (x : List Byte) : (d.violate v x).lanes = d.lanes := by
  unfold Dev.violate
  simp only []
  repeat' split
  all_goals simp
@[simp] theorem Dev.violate_txc (d : Dev) (v : Vio) (x : List Byte) : (d.violate v x).txc = d.txc := by
  unfold Dev.violate
  simp only []
  repeat' split
  all_goals simp
@[simp] theorem Dev.violate_duty (d : Dev) (v : Vio) (x : List Byte) : (d.violate v x).duty = d.duty := by
  unfold Dev.violate
  simp only []
  repeat' split
  all_goals simp
@[simp] theorem Dev.violate_air (d : Dev) (v : Vio) (x : List Byte) : (d.violate v x).air = d.air := by
  unfold Dev.violate
  simp only []
  repeat' split
  all_goals simp
@[simp] theorem Dev.violate_seqs (d : Dev) (v : Vio) (x : List Byte) : (d.violate v x).seqs = d.seqs := by
  unfold Dev.violate
  simp only []
  repeat' split
  all_goals simp
@[simp] theorem Dev.violate_vat (d : Dev) (v : Vio) (x : List Byte) : (d.violate v x).vat = d.vat := by
  unfold Dev.violate
  simp only []
  repeat' split
  all_goals simp
@[simp] theorem Dev.violate_tbl (d : Dev) (v : Vio) (x : List Byte) : (d.violate v x).tbl = d.tbl := by
  unfold Dev.violate
  simp only []
  repeat' split
  all_goals simp
@[simp] theorem Dev.violate_pipe (d : Dev) (v : Vio) (x : List Byte) : (d.violate v x).pipe = d.pipe := by
  unfold Dev.violate
  simp only []
  repeat' split
  all_goals simp
@[simp] theorem Dev.violate_tm (d : Dev) (v : Vio) (x : List Byte) : (d.violate v x).tm = d.tm := by
  unfold Dev.violate
  simp only []
  repeat' split
  all_goals simp
@[simp] theorem Dev.violate_time (d : Dev) (v : Vio) (x : List Byte) : (d.violate v x).time = d.time := by
  unfold Dev.violate
  simp only []
  repeat' split
  all_goals simp
@[simp] theorem Dev.violate_otp (d : Dev) (v : Vio) (x : List Byte) : (d.violate v x).otp = d.otp := by
  unfold Dev.violate
  simp only []
  repeat' split
  all_goals simp
@[simp] theorem Dev.violate_ks0 (d : Dev) (v : Vio) (x : List Byte) : (d.violate v x).ks0 = d.ks0 := by
  unfold Dev.violate
  simp only []
  repeat' split
  all_goals simp
@[simp] theorem Dev.violate_ks1 (d : Dev) (v : Vio) (x : List Byte) : (d.violate v x).ks1 = d.ks1 := by
  unfold Dev.violate
  simp only []
  repeat' split
  all_goals simp
@[simp] theorem Dev.violate_pair (d : Dev) (v : Vio) (x : List Byte) : (d.violate v x).pair = d.pair := by
  unfold Dev.violate
  simp only []
  repeat' split
  all_goals simp
@[simp] theorem Dev.violate_elec (d : Dev) (v : Vio) (x : List Byte) : (d.violate v x).elec = d.elec := by
  unfold Dev.violate
  simp only []
  repeat' split
  all_goals simp
@[simp] theorem Dev.violate_sec (d : Dev) (v : Vio) (x : List Byte) : (d.violate v x).sec = d.sec := by
  unfold Dev.violate
  simp only []
  repeat' split
  all_goals simp
@[simp] theorem Dev.violate_links (d : Dev) (v : Vio) (x : List Byte) : (d.violate v x).links = d.links := by
  unfold Dev.violate
  simp only []
  repeat' split
  all_goals simp

/-! ### fireMsix -/

@[simp] theorem Dev.fireMsix_freeCtr (d : Dev) (n : Nat) : (d.fireMsix n).freeCtr = d.freeCtr := by
  unfold Dev.fireMsix
  simp only []
  repeat' split
  all_goals simp
@[simp] theorem Dev.fireMsix_modes (d : Dev) (n : Nat) : (d.fireMsix n).modes = d.modes := by
  unfold Dev.fireMsix
  simp only []
  repeat' split
  all_goals simp
@[simp] theorem Dev.fireMsix_epoch (d : Dev) (n : Nat) : (d.fireMsix n).epoch = d.epoch := by
  unfold Dev.fireMsix
  simp only []
  repeat' split
  all_goals simp
@[simp] theorem Dev.fireMsix_cfg (d : Dev) (n : Nat) : (d.fireMsix n).cfg = d.cfg := by
  unfold Dev.fireMsix
  simp only []
  repeat' split
  all_goals simp
@[simp] theorem Dev.fireMsix_stg (d : Dev) (n : Nat) : (d.fireMsix n).stg = d.stg := by
  unfold Dev.fireMsix
  simp only []
  repeat' split
  all_goals simp
@[simp] theorem Dev.fireMsix_snap (d : Dev) (n : Nat) : (d.fireMsix n).snap = d.snap := by
  unfold Dev.fireMsix
  simp only []
  repeat' split
  all_goals simp
@[simp] theorem Dev.fireMsix_cnt (d : Dev) (n : Nat) : (d.fireMsix n).cnt = d.cnt := by
  unfold Dev.fireMsix
  simp only []
  repeat' split
  all_goals simp
@[simp] theorem Dev.fireMsix_vio (d : Dev) (n : Nat) : (d.fireMsix n).vio = d.vio := by
  unfold Dev.fireMsix
  simp only []
  repeat' split
  all_goals simp
@[simp] theorem Dev.fireMsix_ev (d : Dev) (n : Nat) : (d.fireMsix n).ev = d.ev := by
  unfold Dev.fireMsix
  simp only []
  repeat' split
  all_goals simp
@[simp] theorem Dev.fireMsix_flt (d : Dev) (n : Nat) : (d.fireMsix n).flt = d.flt := by
  unfold Dev.fireMsix
  simp only []
  repeat' split
  all_goals simp
@[simp] theorem Dev.fireMsix_disp (d : Dev) (n : Nat) : (d.fireMsix n).disp = d.disp := by
  unfold Dev.fireMsix
  simp only []
  repeat' split
  all_goals simp
@[simp] theorem Dev.fireMsix_ports (d : Dev) (n : Nat) : (d.fireMsix n).ports = d.ports := by
  unfold Dev.fireMsix
  simp only []
  repeat' split
  all_goals simp
@[simp] theorem Dev.fireMsix_cin (d : Dev) (n : Nat) : (d.fireMsix n).cin = d.cin := by
  unfold Dev.fireMsix
  simp only []
  repeat' split
  all_goals simp
@[simp] theorem Dev.fireMsix_lanes (d : Dev) (n : Nat) : (d.fireMsix n).lanes = d.lanes := by
  unfold Dev.fireMsix
  simp only []
  repeat' split
  all_goals simp
@[simp] theorem Dev.fireMsix_txc (d : Dev) (n : Nat) : (d.fireMsix n).txc = d.txc := by
  unfold Dev.fireMsix
  simp only []
  repeat' split
  all_goals simp
@[simp] theorem Dev.fireMsix_duty (d : Dev) (n : Nat) : (d.fireMsix n).duty = d.duty := by
  unfold Dev.fireMsix
  simp only []
  repeat' split
  all_goals simp
@[simp] theorem Dev.fireMsix_air (d : Dev) (n : Nat) : (d.fireMsix n).air = d.air := by
  unfold Dev.fireMsix
  simp only []
  repeat' split
  all_goals simp
@[simp] theorem Dev.fireMsix_seqs (d : Dev) (n : Nat) : (d.fireMsix n).seqs = d.seqs := by
  unfold Dev.fireMsix
  simp only []
  repeat' split
  all_goals simp
@[simp] theorem Dev.fireMsix_vat (d : Dev) (n : Nat) : (d.fireMsix n).vat = d.vat := by
  unfold Dev.fireMsix
  simp only []
  repeat' split
  all_goals simp
@[simp] theorem Dev.fireMsix_tbl (d : Dev) (n : Nat) : (d.fireMsix n).tbl = d.tbl := by
  unfold Dev.fireMsix
  simp only []
  repeat' split
  all_goals simp
@[simp] theorem Dev.fireMsix_pipe (d : Dev) (n : Nat) : (d.fireMsix n).pipe = d.pipe := by
  unfold Dev.fireMsix
  simp only []
  repeat' split
  all_goals simp
@[simp] theorem Dev.fireMsix_tm (d : Dev) (n : Nat) : (d.fireMsix n).tm = d.tm := by
  unfold Dev.fireMsix
  simp only []
  repeat' split
  all_goals simp
@[simp] theorem Dev.fireMsix_time (d : Dev) (n : Nat) : (d.fireMsix n).time = d.time := by
  unfold Dev.fireMsix
  simp only []
  repeat' split
  all_goals simp
@[simp] theorem Dev.fireMsix_otp (d : Dev) (n : Nat) : (d.fireMsix n).otp = d.otp := by
  unfold Dev.fireMsix
  simp only []
  repeat' split
  all_goals simp
@[simp] theorem Dev.fireMsix_ks0 (d : Dev) (n : Nat) : (d.fireMsix n).ks0 = d.ks0 := by
  unfold Dev.fireMsix
  simp only []
  repeat' split
  all_goals simp
@[simp] theorem Dev.fireMsix_ks1 (d : Dev) (n : Nat) : (d.fireMsix n).ks1 = d.ks1 := by
  unfold Dev.fireMsix
  simp only []
  repeat' split
  all_goals simp
@[simp] theorem Dev.fireMsix_pair (d : Dev) (n : Nat) : (d.fireMsix n).pair = d.pair := by
  unfold Dev.fireMsix
  simp only []
  repeat' split
  all_goals simp
@[simp] theorem Dev.fireMsix_elec (d : Dev) (n : Nat) : (d.fireMsix n).elec = d.elec := by
  unfold Dev.fireMsix
  simp only []
  repeat' split
  all_goals simp
@[simp] theorem Dev.fireMsix_sec (d : Dev) (n : Nat) : (d.fireMsix n).sec = d.sec := by
  unfold Dev.fireMsix
  simp only []
  repeat' split
  all_goals simp
@[simp] theorem Dev.fireMsix_links (d : Dev) (n : Nat) : (d.fireMsix n).links = d.links := by
  unfold Dev.fireMsix
  simp only []
  repeat' split
  all_goals simp

/-! ### advanceRing -/

@[simp] theorem Dev.advanceRing_freeCtr (d : Dev) (n k : Nat) : (d.advanceRing n k).freeCtr = d.freeCtr := by
  unfold Dev.advanceRing
  simp
@[simp] theorem Dev.advanceRing_modes (d : Dev) (n k : Nat) : (d.advanceRing n k).modes = d.modes := by
  unfold Dev.advanceRing
  simp
@[simp] theorem Dev.advanceRing_epoch (d : Dev) (n k : Nat) : (d.advanceRing n k).epoch = d.epoch := by
  unfold Dev.advanceRing
  simp
@[simp] theorem Dev.advanceRing_cfg (d : Dev) (n k : Nat) : (d.advanceRing n k).cfg = d.cfg := by
  unfold Dev.advanceRing
  simp
@[simp] theorem Dev.advanceRing_stg (d : Dev) (n k : Nat) : (d.advanceRing n k).stg = d.stg := by
  unfold Dev.advanceRing
  simp
@[simp] theorem Dev.advanceRing_snap (d : Dev) (n k : Nat) : (d.advanceRing n k).snap = d.snap := by
  unfold Dev.advanceRing
  simp
@[simp] theorem Dev.advanceRing_cnt (d : Dev) (n k : Nat) : (d.advanceRing n k).cnt = d.cnt := by
  unfold Dev.advanceRing
  simp
@[simp] theorem Dev.advanceRing_vio (d : Dev) (n k : Nat) : (d.advanceRing n k).vio = d.vio := by
  unfold Dev.advanceRing
  simp
@[simp] theorem Dev.advanceRing_ev (d : Dev) (n k : Nat) : (d.advanceRing n k).ev = d.ev := by
  unfold Dev.advanceRing
  simp
@[simp] theorem Dev.advanceRing_flt (d : Dev) (n k : Nat) : (d.advanceRing n k).flt = d.flt := by
  unfold Dev.advanceRing
  simp
@[simp] theorem Dev.advanceRing_disp (d : Dev) (n k : Nat) : (d.advanceRing n k).disp = d.disp := by
  unfold Dev.advanceRing
  simp
@[simp] theorem Dev.advanceRing_ports (d : Dev) (n k : Nat) : (d.advanceRing n k).ports = d.ports := by
  unfold Dev.advanceRing
  simp
@[simp] theorem Dev.advanceRing_cin (d : Dev) (n k : Nat) : (d.advanceRing n k).cin = d.cin := by
  unfold Dev.advanceRing
  simp
@[simp] theorem Dev.advanceRing_lanes (d : Dev) (n k : Nat) : (d.advanceRing n k).lanes = d.lanes := by
  unfold Dev.advanceRing
  simp
@[simp] theorem Dev.advanceRing_txc (d : Dev) (n k : Nat) : (d.advanceRing n k).txc = d.txc := by
  unfold Dev.advanceRing
  simp
@[simp] theorem Dev.advanceRing_duty (d : Dev) (n k : Nat) : (d.advanceRing n k).duty = d.duty := by
  unfold Dev.advanceRing
  simp
@[simp] theorem Dev.advanceRing_air (d : Dev) (n k : Nat) : (d.advanceRing n k).air = d.air := by
  unfold Dev.advanceRing
  simp
@[simp] theorem Dev.advanceRing_seqs (d : Dev) (n k : Nat) : (d.advanceRing n k).seqs = d.seqs := by
  unfold Dev.advanceRing
  simp
@[simp] theorem Dev.advanceRing_vat (d : Dev) (n k : Nat) : (d.advanceRing n k).vat = d.vat := by
  unfold Dev.advanceRing
  simp
@[simp] theorem Dev.advanceRing_tbl (d : Dev) (n k : Nat) : (d.advanceRing n k).tbl = d.tbl := by
  unfold Dev.advanceRing
  simp
@[simp] theorem Dev.advanceRing_pipe (d : Dev) (n k : Nat) : (d.advanceRing n k).pipe = d.pipe := by
  unfold Dev.advanceRing
  simp
@[simp] theorem Dev.advanceRing_tm (d : Dev) (n k : Nat) : (d.advanceRing n k).tm = d.tm := by
  unfold Dev.advanceRing
  simp
@[simp] theorem Dev.advanceRing_time (d : Dev) (n k : Nat) : (d.advanceRing n k).time = d.time := by
  unfold Dev.advanceRing
  simp
@[simp] theorem Dev.advanceRing_otp (d : Dev) (n k : Nat) : (d.advanceRing n k).otp = d.otp := by
  unfold Dev.advanceRing
  simp
@[simp] theorem Dev.advanceRing_ks0 (d : Dev) (n k : Nat) : (d.advanceRing n k).ks0 = d.ks0 := by
  unfold Dev.advanceRing
  simp
@[simp] theorem Dev.advanceRing_ks1 (d : Dev) (n k : Nat) : (d.advanceRing n k).ks1 = d.ks1 := by
  unfold Dev.advanceRing
  simp
@[simp] theorem Dev.advanceRing_pair (d : Dev) (n k : Nat) : (d.advanceRing n k).pair = d.pair := by
  unfold Dev.advanceRing
  simp
@[simp] theorem Dev.advanceRing_elec (d : Dev) (n k : Nat) : (d.advanceRing n k).elec = d.elec := by
  unfold Dev.advanceRing
  simp
@[simp] theorem Dev.advanceRing_sec (d : Dev) (n k : Nat) : (d.advanceRing n k).sec = d.sec := by
  unfold Dev.advanceRing
  simp
@[simp] theorem Dev.advanceRing_links (d : Dev) (n k : Nat) : (d.advanceRing n k).links = d.links := by
  unfold Dev.advanceRing
  simp

/-! ### sendQl -/

@[simp] theorem Dev.sendQl_out (d : Dev) (f : QlFrame) : (d.sendQl f).out = d.out := by
  unfold Dev.sendQl
  repeat' split
  all_goals simp [Dev.queueQl]
@[simp] theorem Dev.sendQl_freeCtr (d : Dev) (f : QlFrame) : (d.sendQl f).freeCtr = d.freeCtr := by
  unfold Dev.sendQl
  repeat' split
  all_goals simp [Dev.queueQl]
@[simp] theorem Dev.sendQl_modes (d : Dev) (f : QlFrame) : (d.sendQl f).modes = d.modes := by
  unfold Dev.sendQl
  repeat' split
  all_goals simp [Dev.queueQl]
@[simp] theorem Dev.sendQl_epoch (d : Dev) (f : QlFrame) : (d.sendQl f).epoch = d.epoch := by
  unfold Dev.sendQl
  repeat' split
  all_goals simp [Dev.queueQl]
@[simp] theorem Dev.sendQl_cfg (d : Dev) (f : QlFrame) : (d.sendQl f).cfg = d.cfg := by
  unfold Dev.sendQl
  repeat' split
  all_goals simp [Dev.queueQl]
@[simp] theorem Dev.sendQl_stg (d : Dev) (f : QlFrame) : (d.sendQl f).stg = d.stg := by
  unfold Dev.sendQl
  repeat' split
  all_goals simp [Dev.queueQl]
@[simp] theorem Dev.sendQl_snap (d : Dev) (f : QlFrame) : (d.sendQl f).snap = d.snap := by
  unfold Dev.sendQl
  repeat' split
  all_goals simp [Dev.queueQl]
@[simp] theorem Dev.sendQl_vio (d : Dev) (f : QlFrame) : (d.sendQl f).vio = d.vio := by
  unfold Dev.sendQl
  repeat' split
  all_goals simp [Dev.queueQl]
@[simp] theorem Dev.sendQl_flt (d : Dev) (f : QlFrame) : (d.sendQl f).flt = d.flt := by
  unfold Dev.sendQl
  repeat' split
  all_goals simp [Dev.queueQl]
@[simp] theorem Dev.sendQl_host (d : Dev) (f : QlFrame) : (d.sendQl f).host = d.host := by
  unfold Dev.sendQl
  repeat' split
  all_goals simp [Dev.queueQl]
@[simp] theorem Dev.sendQl_disp (d : Dev) (f : QlFrame) : (d.sendQl f).disp = d.disp := by
  unfold Dev.sendQl
  repeat' split
  all_goals simp [Dev.queueQl]
@[simp] theorem Dev.sendQl_ports (d : Dev) (f : QlFrame) : (d.sendQl f).ports = d.ports := by
  unfold Dev.sendQl
  repeat' split
  all_goals simp [Dev.queueQl]
@[simp] theorem Dev.sendQl_cin (d : Dev) (f : QlFrame) : (d.sendQl f).cin = d.cin := by
  unfold Dev.sendQl
  repeat' split
  all_goals simp [Dev.queueQl]
@[simp] theorem Dev.sendQl_lanes (d : Dev) (f : QlFrame) : (d.sendQl f).lanes = d.lanes := by
  unfold Dev.sendQl
  repeat' split
  all_goals simp [Dev.queueQl]
@[simp] theorem Dev.sendQl_txc (d : Dev) (f : QlFrame) : (d.sendQl f).txc = d.txc := by
  unfold Dev.sendQl
  repeat' split
  all_goals simp [Dev.queueQl]
@[simp] theorem Dev.sendQl_duty (d : Dev) (f : QlFrame) : (d.sendQl f).duty = d.duty := by
  unfold Dev.sendQl
  repeat' split
  all_goals simp [Dev.queueQl]
@[simp] theorem Dev.sendQl_air (d : Dev) (f : QlFrame) : (d.sendQl f).air = d.air := by
  unfold Dev.sendQl
  repeat' split
  all_goals simp [Dev.queueQl]
@[simp] theorem Dev.sendQl_seqs (d : Dev) (f : QlFrame) : (d.sendQl f).seqs = d.seqs := by
  unfold Dev.sendQl
  repeat' split
  all_goals simp [Dev.queueQl]
@[simp] theorem Dev.sendQl_vat (d : Dev) (f : QlFrame) : (d.sendQl f).vat = d.vat := by
  unfold Dev.sendQl
  repeat' split
  all_goals simp [Dev.queueQl]
@[simp] theorem Dev.sendQl_tbl (d : Dev) (f : QlFrame) : (d.sendQl f).tbl = d.tbl := by
  unfold Dev.sendQl
  repeat' split
  all_goals simp [Dev.queueQl]
@[simp] theorem Dev.sendQl_pipe (d : Dev) (f : QlFrame) : (d.sendQl f).pipe = d.pipe := by
  unfold Dev.sendQl
  repeat' split
  all_goals simp [Dev.queueQl]
@[simp] theorem Dev.sendQl_tm (d : Dev) (f : QlFrame) : (d.sendQl f).tm = d.tm := by
  unfold Dev.sendQl
  repeat' split
  all_goals simp [Dev.queueQl]
@[simp] theorem Dev.sendQl_time (d : Dev) (f : QlFrame) : (d.sendQl f).time = d.time := by
  unfold Dev.sendQl
  repeat' split
  all_goals simp [Dev.queueQl]
@[simp] theorem Dev.sendQl_otp (d : Dev) (f : QlFrame) : (d.sendQl f).otp = d.otp := by
  unfold Dev.sendQl
  repeat' split
  all_goals simp [Dev.queueQl]
@[simp] theorem Dev.sendQl_ks0 (d : Dev) (f : QlFrame) : (d.sendQl f).ks0 = d.ks0 := by
  unfold Dev.sendQl
  repeat' split
  all_goals simp [Dev.queueQl]
@[simp] theorem Dev.sendQl_ks1 (d : Dev) (f : QlFrame) : (d.sendQl f).ks1 = d.ks1 := by
  unfold Dev.sendQl
  repeat' split
  all_goals simp [Dev.queueQl]
@[simp] theorem Dev.sendQl_pair (d : Dev) (f : QlFrame) : (d.sendQl f).pair = d.pair := by
  unfold Dev.sendQl
  repeat' split
  all_goals simp [Dev.queueQl]
@[simp] theorem Dev.sendQl_elec (d : Dev) (f : QlFrame) : (d.sendQl f).elec = d.elec := by
  unfold Dev.sendQl
  repeat' split
  all_goals simp [Dev.queueQl]
@[simp] theorem Dev.sendQl_sec (d : Dev) (f : QlFrame) : (d.sendQl f).sec = d.sec := by
  unfold Dev.sendQl
  repeat' split
  all_goals simp [Dev.queueQl]

/-! ### sendHost -/

@[simp] theorem Dev.sendHost_out (d : Dev) (c k r : Nat) (x : List Byte) : (d.sendHost c k r x).out = d.out := by
  unfold Dev.sendHost
  simp
@[simp] theorem Dev.sendHost_freeCtr (d : Dev) (c k r : Nat) (x : List Byte) : (d.sendHost c k r x).freeCtr = d.freeCtr := by
  unfold Dev.sendHost
  simp
@[simp] theorem Dev.sendHost_modes (d : Dev) (c k r : Nat) (x : List Byte) : (d.sendHost c k r x).modes = d.modes := by
  unfold Dev.sendHost
  simp
@[simp] theorem Dev.sendHost_epoch (d : Dev) (c k r : Nat) (x : List Byte) : (d.sendHost c k r x).epoch = d.epoch := by
  unfold Dev.sendHost
  simp
@[simp] theorem Dev.sendHost_cfg (d : Dev) (c k r : Nat) (x : List Byte) : (d.sendHost c k r x).cfg = d.cfg := by
  unfold Dev.sendHost
  simp
@[simp] theorem Dev.sendHost_stg (d : Dev) (c k r : Nat) (x : List Byte) : (d.sendHost c k r x).stg = d.stg := by
  unfold Dev.sendHost
  simp
@[simp] theorem Dev.sendHost_snap (d : Dev) (c k r : Nat) (x : List Byte) : (d.sendHost c k r x).snap = d.snap := by
  unfold Dev.sendHost
  simp
@[simp] theorem Dev.sendHost_vio (d : Dev) (c k r : Nat) (x : List Byte) : (d.sendHost c k r x).vio = d.vio := by
  unfold Dev.sendHost
  simp
@[simp] theorem Dev.sendHost_flt (d : Dev) (c k r : Nat) (x : List Byte) : (d.sendHost c k r x).flt = d.flt := by
  unfold Dev.sendHost
  simp
@[simp] theorem Dev.sendHost_host (d : Dev) (c k r : Nat) (x : List Byte) : (d.sendHost c k r x).host = d.host := by
  unfold Dev.sendHost
  simp
@[simp] theorem Dev.sendHost_disp (d : Dev) (c k r : Nat) (x : List Byte) : (d.sendHost c k r x).disp = d.disp := by
  unfold Dev.sendHost
  simp
@[simp] theorem Dev.sendHost_ports (d : Dev) (c k r : Nat) (x : List Byte) : (d.sendHost c k r x).ports = d.ports := by
  unfold Dev.sendHost
  simp
@[simp] theorem Dev.sendHost_cin (d : Dev) (c k r : Nat) (x : List Byte) : (d.sendHost c k r x).cin = d.cin := by
  unfold Dev.sendHost
  simp
@[simp] theorem Dev.sendHost_lanes (d : Dev) (c k r : Nat) (x : List Byte) : (d.sendHost c k r x).lanes = d.lanes := by
  unfold Dev.sendHost
  simp
@[simp] theorem Dev.sendHost_txc (d : Dev) (c k r : Nat) (x : List Byte) : (d.sendHost c k r x).txc = d.txc := by
  unfold Dev.sendHost
  simp
@[simp] theorem Dev.sendHost_duty (d : Dev) (c k r : Nat) (x : List Byte) : (d.sendHost c k r x).duty = d.duty := by
  unfold Dev.sendHost
  simp
@[simp] theorem Dev.sendHost_air (d : Dev) (c k r : Nat) (x : List Byte) : (d.sendHost c k r x).air = d.air := by
  unfold Dev.sendHost
  simp
@[simp] theorem Dev.sendHost_seqs (d : Dev) (c k r : Nat) (x : List Byte) : (d.sendHost c k r x).seqs = d.seqs := by
  unfold Dev.sendHost
  simp
@[simp] theorem Dev.sendHost_vat (d : Dev) (c k r : Nat) (x : List Byte) : (d.sendHost c k r x).vat = d.vat := by
  unfold Dev.sendHost
  simp
@[simp] theorem Dev.sendHost_tbl (d : Dev) (c k r : Nat) (x : List Byte) : (d.sendHost c k r x).tbl = d.tbl := by
  unfold Dev.sendHost
  simp
@[simp] theorem Dev.sendHost_pipe (d : Dev) (c k r : Nat) (x : List Byte) : (d.sendHost c k r x).pipe = d.pipe := by
  unfold Dev.sendHost
  simp
@[simp] theorem Dev.sendHost_tm (d : Dev) (c k r : Nat) (x : List Byte) : (d.sendHost c k r x).tm = d.tm := by
  unfold Dev.sendHost
  simp
@[simp] theorem Dev.sendHost_time (d : Dev) (c k r : Nat) (x : List Byte) : (d.sendHost c k r x).time = d.time := by
  unfold Dev.sendHost
  simp
@[simp] theorem Dev.sendHost_otp (d : Dev) (c k r : Nat) (x : List Byte) : (d.sendHost c k r x).otp = d.otp := by
  unfold Dev.sendHost
  simp
@[simp] theorem Dev.sendHost_ks0 (d : Dev) (c k r : Nat) (x : List Byte) : (d.sendHost c k r x).ks0 = d.ks0 := by
  unfold Dev.sendHost
  simp
@[simp] theorem Dev.sendHost_ks1 (d : Dev) (c k r : Nat) (x : List Byte) : (d.sendHost c k r x).ks1 = d.ks1 := by
  unfold Dev.sendHost
  simp
@[simp] theorem Dev.sendHost_pair (d : Dev) (c k r : Nat) (x : List Byte) : (d.sendHost c k r x).pair = d.pair := by
  unfold Dev.sendHost
  simp
@[simp] theorem Dev.sendHost_elec (d : Dev) (c k r : Nat) (x : List Byte) : (d.sendHost c k r x).elec = d.elec := by
  unfold Dev.sendHost
  simp
@[simp] theorem Dev.sendHost_sec (d : Dev) (c k r : Nat) (x : List Byte) : (d.sendHost c k r x).sec = d.sec := by
  unfold Dev.sendHost
  simp

/-! ### post -/

@[simp] theorem Dev.post_freeCtr (d : Dev) (k : Completion) : (d.post k).freeCtr = d.freeCtr := by
  unfold Dev.post
  repeat' split
  all_goals simp
@[simp] theorem Dev.post_modes (d : Dev) (k : Completion) : (d.post k).modes = d.modes := by
  unfold Dev.post
  repeat' split
  all_goals simp
@[simp] theorem Dev.post_epoch (d : Dev) (k : Completion) : (d.post k).epoch = d.epoch := by
  unfold Dev.post
  repeat' split
  all_goals simp
@[simp] theorem Dev.post_cfg (d : Dev) (k : Completion) : (d.post k).cfg = d.cfg := by
  unfold Dev.post
  repeat' split
  all_goals simp
@[simp] theorem Dev.post_stg (d : Dev) (k : Completion) : (d.post k).stg = d.stg := by
  unfold Dev.post
  repeat' split
  all_goals simp
@[simp] theorem Dev.post_snap (d : Dev) (k : Completion) : (d.post k).snap = d.snap := by
  unfold Dev.post
  repeat' split
  all_goals simp
@[simp] theorem Dev.post_vio (d : Dev) (k : Completion) : (d.post k).vio = d.vio := by
  unfold Dev.post
  repeat' split
  all_goals simp
@[simp] theorem Dev.post_flt (d : Dev) (k : Completion) : (d.post k).flt = d.flt := by
  unfold Dev.post
  repeat' split
  all_goals simp
@[simp] theorem Dev.post_disp (d : Dev) (k : Completion) : (d.post k).disp = d.disp := by
  unfold Dev.post
  repeat' split
  all_goals simp
@[simp] theorem Dev.post_ports (d : Dev) (k : Completion) : (d.post k).ports = d.ports := by
  unfold Dev.post
  repeat' split
  all_goals simp
@[simp] theorem Dev.post_cin (d : Dev) (k : Completion) : (d.post k).cin = d.cin := by
  unfold Dev.post
  repeat' split
  all_goals simp
@[simp] theorem Dev.post_lanes (d : Dev) (k : Completion) : (d.post k).lanes = d.lanes := by
  unfold Dev.post
  repeat' split
  all_goals simp
@[simp] theorem Dev.post_txc (d : Dev) (k : Completion) : (d.post k).txc = d.txc := by
  unfold Dev.post
  repeat' split
  all_goals simp
@[simp] theorem Dev.post_duty (d : Dev) (k : Completion) : (d.post k).duty = d.duty := by
  unfold Dev.post
  repeat' split
  all_goals simp
@[simp] theorem Dev.post_air (d : Dev) (k : Completion) : (d.post k).air = d.air := by
  unfold Dev.post
  repeat' split
  all_goals simp
@[simp] theorem Dev.post_seqs (d : Dev) (k : Completion) : (d.post k).seqs = d.seqs := by
  unfold Dev.post
  repeat' split
  all_goals simp
@[simp] theorem Dev.post_vat (d : Dev) (k : Completion) : (d.post k).vat = d.vat := by
  unfold Dev.post
  repeat' split
  all_goals simp
@[simp] theorem Dev.post_tbl (d : Dev) (k : Completion) : (d.post k).tbl = d.tbl := by
  unfold Dev.post
  repeat' split
  all_goals simp
@[simp] theorem Dev.post_pipe (d : Dev) (k : Completion) : (d.post k).pipe = d.pipe := by
  unfold Dev.post
  repeat' split
  all_goals simp
@[simp] theorem Dev.post_tm (d : Dev) (k : Completion) : (d.post k).tm = d.tm := by
  unfold Dev.post
  repeat' split
  all_goals simp
@[simp] theorem Dev.post_time (d : Dev) (k : Completion) : (d.post k).time = d.time := by
  unfold Dev.post
  repeat' split
  all_goals simp
@[simp] theorem Dev.post_otp (d : Dev) (k : Completion) : (d.post k).otp = d.otp := by
  unfold Dev.post
  repeat' split
  all_goals simp
@[simp] theorem Dev.post_ks0 (d : Dev) (k : Completion) : (d.post k).ks0 = d.ks0 := by
  unfold Dev.post
  repeat' split
  all_goals simp
@[simp] theorem Dev.post_ks1 (d : Dev) (k : Completion) : (d.post k).ks1 = d.ks1 := by
  unfold Dev.post
  repeat' split
  all_goals simp
@[simp] theorem Dev.post_pair (d : Dev) (k : Completion) : (d.post k).pair = d.pair := by
  unfold Dev.post
  repeat' split
  all_goals simp
@[simp] theorem Dev.post_elec (d : Dev) (k : Completion) : (d.post k).elec = d.elec := by
  unfold Dev.post
  repeat' split
  all_goals simp
@[simp] theorem Dev.post_sec (d : Dev) (k : Completion) : (d.post k).sec = d.sec := by
  unfold Dev.post
  repeat' split
  all_goals simp

/-! ### remember -/

@[simp] theorem Dev.remember_out (d : Dev) (k : Completion) : (d.remember k).out = d.out := by
  rfl
@[simp] theorem Dev.remember_freeCtr (d : Dev) (k : Completion) : (d.remember k).freeCtr = d.freeCtr := by
  rfl
@[simp] theorem Dev.remember_modes (d : Dev) (k : Completion) : (d.remember k).modes = d.modes := by
  rfl
@[simp] theorem Dev.remember_epoch (d : Dev) (k : Completion) : (d.remember k).epoch = d.epoch := by
  rfl
@[simp] theorem Dev.remember_cfg (d : Dev) (k : Completion) : (d.remember k).cfg = d.cfg := by
  rfl
@[simp] theorem Dev.remember_stg (d : Dev) (k : Completion) : (d.remember k).stg = d.stg := by
  rfl
@[simp] theorem Dev.remember_snap (d : Dev) (k : Completion) : (d.remember k).snap = d.snap := by
  rfl
@[simp] theorem Dev.remember_cnt (d : Dev) (k : Completion) : (d.remember k).cnt = d.cnt := by
  rfl
@[simp] theorem Dev.remember_vio (d : Dev) (k : Completion) : (d.remember k).vio = d.vio := by
  rfl
@[simp] theorem Dev.remember_ev (d : Dev) (k : Completion) : (d.remember k).ev = d.ev := by
  rfl
@[simp] theorem Dev.remember_flt (d : Dev) (k : Completion) : (d.remember k).flt = d.flt := by
  rfl
@[simp] theorem Dev.remember_disp (d : Dev) (k : Completion) : (d.remember k).disp = d.disp := by
  rfl
@[simp] theorem Dev.remember_ports (d : Dev) (k : Completion) : (d.remember k).ports = d.ports := by
  rfl
@[simp] theorem Dev.remember_cin (d : Dev) (k : Completion) : (d.remember k).cin = d.cin := by
  rfl
@[simp] theorem Dev.remember_lanes (d : Dev) (k : Completion) : (d.remember k).lanes = d.lanes := by
  rfl
@[simp] theorem Dev.remember_txc (d : Dev) (k : Completion) : (d.remember k).txc = d.txc := by
  rfl
@[simp] theorem Dev.remember_duty (d : Dev) (k : Completion) : (d.remember k).duty = d.duty := by
  rfl
@[simp] theorem Dev.remember_air (d : Dev) (k : Completion) : (d.remember k).air = d.air := by
  rfl
@[simp] theorem Dev.remember_seqs (d : Dev) (k : Completion) : (d.remember k).seqs = d.seqs := by
  rfl
@[simp] theorem Dev.remember_vat (d : Dev) (k : Completion) : (d.remember k).vat = d.vat := by
  rfl
@[simp] theorem Dev.remember_tbl (d : Dev) (k : Completion) : (d.remember k).tbl = d.tbl := by
  rfl
@[simp] theorem Dev.remember_pipe (d : Dev) (k : Completion) : (d.remember k).pipe = d.pipe := by
  rfl
@[simp] theorem Dev.remember_tm (d : Dev) (k : Completion) : (d.remember k).tm = d.tm := by
  rfl
@[simp] theorem Dev.remember_time (d : Dev) (k : Completion) : (d.remember k).time = d.time := by
  rfl
@[simp] theorem Dev.remember_otp (d : Dev) (k : Completion) : (d.remember k).otp = d.otp := by
  rfl
@[simp] theorem Dev.remember_ks0 (d : Dev) (k : Completion) : (d.remember k).ks0 = d.ks0 := by
  rfl
@[simp] theorem Dev.remember_ks1 (d : Dev) (k : Completion) : (d.remember k).ks1 = d.ks1 := by
  rfl
@[simp] theorem Dev.remember_pair (d : Dev) (k : Completion) : (d.remember k).pair = d.pair := by
  rfl
@[simp] theorem Dev.remember_elec (d : Dev) (k : Completion) : (d.remember k).elec = d.elec := by
  rfl
@[simp] theorem Dev.remember_sec (d : Dev) (k : Completion) : (d.remember k).sec = d.sec := by
  rfl
@[simp] theorem Dev.remember_links (d : Dev) (k : Completion) : (d.remember k).links = d.links := by
  rfl

/-! ### complete -/

@[simp] theorem Dev.complete_freeCtr (d : Dev) (c : Cmd) (st : Status) (r : List Byte) : (d.complete c st r).freeCtr = d.freeCtr := by
  simp [Dev.complete]
@[simp] theorem Dev.complete_modes (d : Dev) (c : Cmd) (st : Status) (r : List Byte) : (d.complete c st r).modes = d.modes := by
  simp [Dev.complete]
@[simp] theorem Dev.complete_epoch (d : Dev) (c : Cmd) (st : Status) (r : List Byte) : (d.complete c st r).epoch = d.epoch := by
  simp [Dev.complete]
@[simp] theorem Dev.complete_cfg (d : Dev) (c : Cmd) (st : Status) (r : List Byte) : (d.complete c st r).cfg = d.cfg := by
  simp [Dev.complete]
@[simp] theorem Dev.complete_stg (d : Dev) (c : Cmd) (st : Status) (r : List Byte) : (d.complete c st r).stg = d.stg := by
  simp [Dev.complete]
@[simp] theorem Dev.complete_snap (d : Dev) (c : Cmd) (st : Status) (r : List Byte) : (d.complete c st r).snap = d.snap := by
  simp [Dev.complete]
@[simp] theorem Dev.complete_vio (d : Dev) (c : Cmd) (st : Status) (r : List Byte) : (d.complete c st r).vio = d.vio := by
  simp [Dev.complete]
@[simp] theorem Dev.complete_flt (d : Dev) (c : Cmd) (st : Status) (r : List Byte) : (d.complete c st r).flt = d.flt := by
  simp [Dev.complete]
@[simp] theorem Dev.complete_disp (d : Dev) (c : Cmd) (st : Status) (r : List Byte) : (d.complete c st r).disp = d.disp := by
  simp [Dev.complete]
@[simp] theorem Dev.complete_ports (d : Dev) (c : Cmd) (st : Status) (r : List Byte) : (d.complete c st r).ports = d.ports := by
  simp [Dev.complete]
@[simp] theorem Dev.complete_cin (d : Dev) (c : Cmd) (st : Status) (r : List Byte) : (d.complete c st r).cin = d.cin := by
  simp [Dev.complete]
@[simp] theorem Dev.complete_lanes (d : Dev) (c : Cmd) (st : Status) (r : List Byte) : (d.complete c st r).lanes = d.lanes := by
  simp [Dev.complete]
@[simp] theorem Dev.complete_txc (d : Dev) (c : Cmd) (st : Status) (r : List Byte) : (d.complete c st r).txc = d.txc := by
  simp [Dev.complete]
@[simp] theorem Dev.complete_duty (d : Dev) (c : Cmd) (st : Status) (r : List Byte) : (d.complete c st r).duty = d.duty := by
  simp [Dev.complete]
@[simp] theorem Dev.complete_air (d : Dev) (c : Cmd) (st : Status) (r : List Byte) : (d.complete c st r).air = d.air := by
  simp [Dev.complete]
@[simp] theorem Dev.complete_seqs (d : Dev) (c : Cmd) (st : Status) (r : List Byte) : (d.complete c st r).seqs = d.seqs := by
  simp [Dev.complete]
@[simp] theorem Dev.complete_vat (d : Dev) (c : Cmd) (st : Status) (r : List Byte) : (d.complete c st r).vat = d.vat := by
  simp [Dev.complete]
@[simp] theorem Dev.complete_tbl (d : Dev) (c : Cmd) (st : Status) (r : List Byte) : (d.complete c st r).tbl = d.tbl := by
  simp [Dev.complete]
@[simp] theorem Dev.complete_pipe (d : Dev) (c : Cmd) (st : Status) (r : List Byte) : (d.complete c st r).pipe = d.pipe := by
  simp [Dev.complete]
@[simp] theorem Dev.complete_tm (d : Dev) (c : Cmd) (st : Status) (r : List Byte) : (d.complete c st r).tm = d.tm := by
  simp [Dev.complete]
@[simp] theorem Dev.complete_time (d : Dev) (c : Cmd) (st : Status) (r : List Byte) : (d.complete c st r).time = d.time := by
  simp [Dev.complete]
@[simp] theorem Dev.complete_otp (d : Dev) (c : Cmd) (st : Status) (r : List Byte) : (d.complete c st r).otp = d.otp := by
  simp [Dev.complete]
@[simp] theorem Dev.complete_ks0 (d : Dev) (c : Cmd) (st : Status) (r : List Byte) : (d.complete c st r).ks0 = d.ks0 := by
  simp [Dev.complete]
@[simp] theorem Dev.complete_ks1 (d : Dev) (c : Cmd) (st : Status) (r : List Byte) : (d.complete c st r).ks1 = d.ks1 := by
  simp [Dev.complete]
@[simp] theorem Dev.complete_pair (d : Dev) (c : Cmd) (st : Status) (r : List Byte) : (d.complete c st r).pair = d.pair := by
  simp [Dev.complete]
@[simp] theorem Dev.complete_elec (d : Dev) (c : Cmd) (st : Status) (r : List Byte) : (d.complete c st r).elec = d.elec := by
  simp [Dev.complete]
@[simp] theorem Dev.complete_sec (d : Dev) (c : Cmd) (st : Status) (r : List Byte) : (d.complete c st r).sec = d.sec := by
  simp [Dev.complete]

/-! ### refuseCmd -/

@[simp] theorem Dev.refuseCmd_freeCtr (d : Dev) (c : Cmd) (st : Status) : (d.refuseCmd c st).freeCtr = d.freeCtr := by
  simp [Dev.refuseCmd]
@[simp] theorem Dev.refuseCmd_modes (d : Dev) (c : Cmd) (st : Status) : (d.refuseCmd c st).modes = d.modes := by
  simp [Dev.refuseCmd]
@[simp] theorem Dev.refuseCmd_epoch (d : Dev) (c : Cmd) (st : Status) : (d.refuseCmd c st).epoch = d.epoch := by
  simp [Dev.refuseCmd]
@[simp] theorem Dev.refuseCmd_cfg (d : Dev) (c : Cmd) (st : Status) : (d.refuseCmd c st).cfg = d.cfg := by
  simp [Dev.refuseCmd]
@[simp] theorem Dev.refuseCmd_stg (d : Dev) (c : Cmd) (st : Status) : (d.refuseCmd c st).stg = d.stg := by
  simp [Dev.refuseCmd]
@[simp] theorem Dev.refuseCmd_snap (d : Dev) (c : Cmd) (st : Status) : (d.refuseCmd c st).snap = d.snap := by
  simp [Dev.refuseCmd]
@[simp] theorem Dev.refuseCmd_vio (d : Dev) (c : Cmd) (st : Status) : (d.refuseCmd c st).vio = d.vio := by
  simp [Dev.refuseCmd]
@[simp] theorem Dev.refuseCmd_flt (d : Dev) (c : Cmd) (st : Status) : (d.refuseCmd c st).flt = d.flt := by
  simp [Dev.refuseCmd]
@[simp] theorem Dev.refuseCmd_disp (d : Dev) (c : Cmd) (st : Status) : (d.refuseCmd c st).disp = d.disp := by
  simp [Dev.refuseCmd]
@[simp] theorem Dev.refuseCmd_ports (d : Dev) (c : Cmd) (st : Status) : (d.refuseCmd c st).ports = d.ports := by
  simp [Dev.refuseCmd]
@[simp] theorem Dev.refuseCmd_cin (d : Dev) (c : Cmd) (st : Status) : (d.refuseCmd c st).cin = d.cin := by
  simp [Dev.refuseCmd]
@[simp] theorem Dev.refuseCmd_lanes (d : Dev) (c : Cmd) (st : Status) : (d.refuseCmd c st).lanes = d.lanes := by
  simp [Dev.refuseCmd]
@[simp] theorem Dev.refuseCmd_txc (d : Dev) (c : Cmd) (st : Status) : (d.refuseCmd c st).txc = d.txc := by
  simp [Dev.refuseCmd]
@[simp] theorem Dev.refuseCmd_duty (d : Dev) (c : Cmd) (st : Status) : (d.refuseCmd c st).duty = d.duty := by
  simp [Dev.refuseCmd]
@[simp] theorem Dev.refuseCmd_air (d : Dev) (c : Cmd) (st : Status) : (d.refuseCmd c st).air = d.air := by
  simp [Dev.refuseCmd]
@[simp] theorem Dev.refuseCmd_seqs (d : Dev) (c : Cmd) (st : Status) : (d.refuseCmd c st).seqs = d.seqs := by
  simp [Dev.refuseCmd]
@[simp] theorem Dev.refuseCmd_vat (d : Dev) (c : Cmd) (st : Status) : (d.refuseCmd c st).vat = d.vat := by
  simp [Dev.refuseCmd]
@[simp] theorem Dev.refuseCmd_tbl (d : Dev) (c : Cmd) (st : Status) : (d.refuseCmd c st).tbl = d.tbl := by
  simp [Dev.refuseCmd]
@[simp] theorem Dev.refuseCmd_pipe (d : Dev) (c : Cmd) (st : Status) : (d.refuseCmd c st).pipe = d.pipe := by
  simp [Dev.refuseCmd]
@[simp] theorem Dev.refuseCmd_tm (d : Dev) (c : Cmd) (st : Status) : (d.refuseCmd c st).tm = d.tm := by
  simp [Dev.refuseCmd]
@[simp] theorem Dev.refuseCmd_time (d : Dev) (c : Cmd) (st : Status) : (d.refuseCmd c st).time = d.time := by
  simp [Dev.refuseCmd]
@[simp] theorem Dev.refuseCmd_otp (d : Dev) (c : Cmd) (st : Status) : (d.refuseCmd c st).otp = d.otp := by
  simp [Dev.refuseCmd]
@[simp] theorem Dev.refuseCmd_ks0 (d : Dev) (c : Cmd) (st : Status) : (d.refuseCmd c st).ks0 = d.ks0 := by
  simp [Dev.refuseCmd]
@[simp] theorem Dev.refuseCmd_ks1 (d : Dev) (c : Cmd) (st : Status) : (d.refuseCmd c st).ks1 = d.ks1 := by
  simp [Dev.refuseCmd]
@[simp] theorem Dev.refuseCmd_pair (d : Dev) (c : Cmd) (st : Status) : (d.refuseCmd c st).pair = d.pair := by
  simp [Dev.refuseCmd]
@[simp] theorem Dev.refuseCmd_elec (d : Dev) (c : Cmd) (st : Status) : (d.refuseCmd c st).elec = d.elec := by
  simp [Dev.refuseCmd]
@[simp] theorem Dev.refuseCmd_sec (d : Dev) (c : Cmd) (st : Status) : (d.refuseCmd c st).sec = d.sec := by
  simp [Dev.refuseCmd]

/-! ### setRing and the host interface -/

@[simp] theorem Dev.setRing_host_ring1 (d : Dev) (n : Nat) (x : Ring) : (d.setRing n x).host.ring1 = d.host.ring1 := by
  rfl
@[simp] theorem Dev.setRing_host_ring2 (d : Dev) (n : Nat) (x : Ring) : (d.setRing n x).host.ring2 = d.host.ring2 := by
  rfl
@[simp] theorem Dev.setRing_host_hist (d : Dev) (n : Nat) (x : Ring) : (d.setRing n x).host.hist = d.host.hist := by
  rfl
@[simp] theorem Dev.setRing_host_inflight (d : Dev) (n : Nat) (x : Ring) : (d.setRing n x).host.inflight = d.host.inflight := by
  rfl
@[simp] theorem Dev.setRing_host_unfetched (d : Dev) (n : Nat) (x : Ring) : (d.setRing n x).host.unfetched = d.host.unfetched := by
  rfl
@[simp] theorem Dev.setRing_host_rxWait (d : Dev) (n : Nat) (x : Ring) : (d.setRing n x).host.rxWait = d.host.rxWait := by
  rfl
@[simp] theorem Dev.setRing_host_txDescs (d : Dev) (n : Nat) (x : Ring) : (d.setRing n x).host.txDescs = d.host.txDescs := by
  rfl
@[simp] theorem Dev.setRing_host_rxDescs (d : Dev) (n : Nat) (x : Ring) : (d.setRing n x).host.rxDescs = d.host.rxDescs := by
  rfl
@[simp] theorem Dev.setRing_host_forgotten (d : Dev) (n : Nat) (x : Ring) : (d.setRing n x).host.forgotten = d.host.forgotten := by
  rfl

/-! ### fireMsix and the host interface -/

@[simp] theorem Dev.fireMsix_host_ring1 (d : Dev) (n : Nat) : (d.fireMsix n).host.ring1 = d.host.ring1 := by
  unfold Dev.fireMsix
  simp only []
  repeat' split
  all_goals simp
@[simp] theorem Dev.fireMsix_host_ring2 (d : Dev) (n : Nat) : (d.fireMsix n).host.ring2 = d.host.ring2 := by
  unfold Dev.fireMsix
  simp only []
  repeat' split
  all_goals simp
@[simp] theorem Dev.fireMsix_host_hist (d : Dev) (n : Nat) : (d.fireMsix n).host.hist = d.host.hist := by
  unfold Dev.fireMsix
  simp only []
  repeat' split
  all_goals simp
@[simp] theorem Dev.fireMsix_host_inflight (d : Dev) (n : Nat) : (d.fireMsix n).host.inflight = d.host.inflight := by
  unfold Dev.fireMsix
  simp only []
  repeat' split
  all_goals simp
@[simp] theorem Dev.fireMsix_host_unfetched (d : Dev) (n : Nat) : (d.fireMsix n).host.unfetched = d.host.unfetched := by
  unfold Dev.fireMsix
  simp only []
  repeat' split
  all_goals simp
@[simp] theorem Dev.fireMsix_host_rxWait (d : Dev) (n : Nat) : (d.fireMsix n).host.rxWait = d.host.rxWait := by
  unfold Dev.fireMsix
  simp only []
  repeat' split
  all_goals simp
@[simp] theorem Dev.fireMsix_host_txDescs (d : Dev) (n : Nat) : (d.fireMsix n).host.txDescs = d.host.txDescs := by
  unfold Dev.fireMsix
  simp only []
  repeat' split
  all_goals simp
@[simp] theorem Dev.fireMsix_host_rxDescs (d : Dev) (n : Nat) : (d.fireMsix n).host.rxDescs = d.host.rxDescs := by
  unfold Dev.fireMsix
  simp only []
  repeat' split
  all_goals simp
@[simp] theorem Dev.fireMsix_host_forgotten (d : Dev) (n : Nat) : (d.fireMsix n).host.forgotten = d.host.forgotten := by
  unfold Dev.fireMsix
  simp only []
  repeat' split
  all_goals simp

/-! ### advanceRing and the host interface -/

@[simp] theorem Dev.advanceRing_host_ring1 (d : Dev) (n k : Nat) : (d.advanceRing n k).host.ring1 = d.host.ring1 := by
  unfold Dev.advanceRing
  simp
@[simp] theorem Dev.advanceRing_host_ring2 (d : Dev) (n k : Nat) : (d.advanceRing n k).host.ring2 = d.host.ring2 := by
  unfold Dev.advanceRing
  simp
@[simp] theorem Dev.advanceRing_host_hist (d : Dev) (n k : Nat) : (d.advanceRing n k).host.hist = d.host.hist := by
  unfold Dev.advanceRing
  simp
@[simp] theorem Dev.advanceRing_host_inflight (d : Dev) (n k : Nat) : (d.advanceRing n k).host.inflight = d.host.inflight := by
  unfold Dev.advanceRing
  simp
@[simp] theorem Dev.advanceRing_host_unfetched (d : Dev) (n k : Nat) : (d.advanceRing n k).host.unfetched = d.host.unfetched := by
  unfold Dev.advanceRing
  simp
@[simp] theorem Dev.advanceRing_host_rxWait (d : Dev) (n k : Nat) : (d.advanceRing n k).host.rxWait = d.host.rxWait := by
  unfold Dev.advanceRing
  simp
@[simp] theorem Dev.advanceRing_host_txDescs (d : Dev) (n k : Nat) : (d.advanceRing n k).host.txDescs = d.host.txDescs := by
  unfold Dev.advanceRing
  simp
@[simp] theorem Dev.advanceRing_host_rxDescs (d : Dev) (n k : Nat) : (d.advanceRing n k).host.rxDescs = d.host.rxDescs := by
  unfold Dev.advanceRing
  simp
@[simp] theorem Dev.advanceRing_host_forgotten (d : Dev) (n k : Nat) : (d.advanceRing n k).host.forgotten = d.host.forgotten := by
  unfold Dev.advanceRing
  simp

/-! ### post and the host interface -/

@[simp] theorem Dev.post_host_ring2 (d : Dev) (k : Completion) : (d.post k).host.ring2 = d.host.ring2 := by
  unfold Dev.post
  repeat' split
  all_goals simp
@[simp] theorem Dev.post_host_hist (d : Dev) (k : Completion) : (d.post k).host.hist = d.host.hist := by
  unfold Dev.post
  repeat' split
  all_goals simp
@[simp] theorem Dev.post_host_inflight (d : Dev) (k : Completion) : (d.post k).host.inflight = d.host.inflight := by
  unfold Dev.post
  repeat' split
  all_goals simp
@[simp] theorem Dev.post_host_unfetched (d : Dev) (k : Completion) : (d.post k).host.unfetched = d.host.unfetched := by
  unfold Dev.post
  repeat' split
  all_goals simp
@[simp] theorem Dev.post_host_rxWait (d : Dev) (k : Completion) : (d.post k).host.rxWait = d.host.rxWait := by
  unfold Dev.post
  repeat' split
  all_goals simp
@[simp] theorem Dev.post_host_txDescs (d : Dev) (k : Completion) : (d.post k).host.txDescs = d.host.txDescs := by
  unfold Dev.post
  repeat' split
  all_goals simp
@[simp] theorem Dev.post_host_rxDescs (d : Dev) (k : Completion) : (d.post k).host.rxDescs = d.host.rxDescs := by
  unfold Dev.post
  repeat' split
  all_goals simp

/-! ### remember and the host interface -/

@[simp] theorem Dev.remember_host_rings (d : Dev) (k : Completion) : (d.remember k).host.rings = d.host.rings := by
  rfl
@[simp] theorem Dev.remember_host_ring1 (d : Dev) (k : Completion) : (d.remember k).host.ring1 = d.host.ring1 := by
  rfl
@[simp] theorem Dev.remember_host_ring2 (d : Dev) (k : Completion) : (d.remember k).host.ring2 = d.host.ring2 := by
  rfl
@[simp] theorem Dev.remember_host_inflight (d : Dev) (k : Completion) : (d.remember k).host.inflight = d.host.inflight := by
  rfl
@[simp] theorem Dev.remember_host_unfetched (d : Dev) (k : Completion) : (d.remember k).host.unfetched = d.host.unfetched := by
  rfl
@[simp] theorem Dev.remember_host_rxWait (d : Dev) (k : Completion) : (d.remember k).host.rxWait = d.host.rxWait := by
  rfl
@[simp] theorem Dev.remember_host_txDescs (d : Dev) (k : Completion) : (d.remember k).host.txDescs = d.host.txDescs := by
  rfl
@[simp] theorem Dev.remember_host_rxDescs (d : Dev) (k : Completion) : (d.remember k).host.rxDescs = d.host.rxDescs := by
  rfl
@[simp] theorem Dev.remember_host_forgotten (d : Dev) (k : Completion) : (d.remember k).host.forgotten = d.host.forgotten := by
  rfl

/-! ### complete and the host interface -/

@[simp] theorem Dev.complete_host_ring2 (d : Dev) (c : Cmd) (st : Status) (r : List Byte) : (d.complete c st r).host.ring2 = d.host.ring2 := by
  simp [Dev.complete]
@[simp] theorem Dev.complete_host_unfetched (d : Dev) (c : Cmd) (st : Status) (r : List Byte) : (d.complete c st r).host.unfetched = d.host.unfetched := by
  simp [Dev.complete]
@[simp] theorem Dev.complete_host_rxWait (d : Dev) (c : Cmd) (st : Status) (r : List Byte) : (d.complete c st r).host.rxWait = d.host.rxWait := by
  simp [Dev.complete]
@[simp] theorem Dev.complete_host_txDescs (d : Dev) (c : Cmd) (st : Status) (r : List Byte) : (d.complete c st r).host.txDescs = d.host.txDescs := by
  simp [Dev.complete]
@[simp] theorem Dev.complete_host_rxDescs (d : Dev) (c : Cmd) (st : Status) (r : List Byte) : (d.complete c st r).host.rxDescs = d.host.rxDescs := by
  simp [Dev.complete]

end Sys2Proof.Machine
end

