-- ==== Sys2Proof/Laws/Commands.lean ====
section
/-! SUPPORT. What taking a command does (R514 to R520), and what its completion leaves (R515, R519). -/

-- One proof at a time: the package compiles as one text, and proofs elaborated side by side each take a thread's stack.
set_option Elab.async false

namespace Sys2Proof.Machine

/-- Fetching a command changes the rings' indexes and the outputs alone. -/
theorem Dev.fetchCmd_eq (d : Dev) (p : CmdPath) :
    ∃ o r, d.fetchCmd p = { d with out := o, host := { d.host with rings := r } } := by
  unfold Dev.fetchCmd
  split
  · unfold Dev.advanceRing Dev.fireMsix
    dsimp only
    repeat' split
    all_goals exact ⟨_, _, rfl⟩
  · exact ⟨d.out, d.host.rings, rfl⟩

/-- An accepted command has its effect in the state that has taken it. -/
theorem Dev.command_accepted {d : Dev} {c : Cmd} (h : d.accepts c) (f : Dev → Dev) : d.command c f = f (d.taken c) := by
  obtain ⟨h1, h2, h3, h4, h5, h6, h7, h8⟩ := h
  obtain ⟨o, r, e⟩ := d.fetchCmd_eq c.hdr.path
  have h3' : ¬ c.hdr.cmdId = 0#32 := h3
  have hg : ¬ (d.deaf = true ∨ (c.hdr.path = .pcie ∧ ¬ d.cmdRoom = true)) := by
    rintro (h | ⟨hp, hr⟩)
    · simp [h1] at h
    · exact hr (h2 hp)
  have hl : (d.fetchCmd c.hdr.path).isLocal c = true := by
    rw [e]
    show (!c.hdr.remote || c.hdr.dst.toNat == d.elec.chipId) = true
    by_cases hr : c.hdr.remote = true
    · simp [(h4 hr).1]
    · simp [hr]
  have hn : (d.fetchCmd c.hdr.path).remoteLost c = false := by
    unfold Dev.remoteLost
    rw [hl, e]
    by_cases hr : c.hdr.remote = true
    · simp [(h4 hr).2]
    · simp [hr]
  have hy : (d.fetchCmd c.hdr.path).replayOf c = none := by rw [e]; exact h5
  have hf : (d.fetchCmd c.hdr.path).isInFlight c = false := by rw [e]; exact h6
  have hs : (d.fetchCmd c.hdr.path).sourceOk c = true := by rw [e]; exact h7
  unfold Dev.command Dev.taken
  rw [if_neg hg]
  simp [h3', hn, hy, hf, hs, h8, hl]

theorem Dev.remember_last (d : Dev) (k : Completion) :
    (d.remember k).host.hist.getLast? = some ⟨k.src, k.cmdId, k⟩ := by
  unfold Dev.remember
  dsimp only
  split
  · rename_i hm
    split
    · rename_i i hi
      rw [List.findIdx?_eq_some_iff_getElem] at hi
      obtain ⟨hlt, hx, hbefore⟩ := hi
      have hne : i ≠ d.host.hist.length := by
        intro he
        subst he
        have hnone : ∀ x ∈ d.host.hist, d.sameHist k.src k.origin x = false := by
          intro x hx'
          obtain ⟨j, hj, rfl⟩ := List.getElem_of_mem hx'
          have := hbefore j hj
          simpa [List.getElem_append_left hj] using this
        have : (d.host.hist.filter (d.sameHist k.src k.origin)) = [] :=
          List.filter_eq_nil_iff.2 (fun x hx' => by simp [hnone x hx'])
        rw [List.filter_append, List.length_append, this] at hm
        have hle := List.length_filter_le (d.sameHist k.src k.origin) [⟨k.src, k.cmdId, k⟩]
        simp only [List.length_nil, List.length_singleton] at *
        omega
      have hi' : i < d.host.hist.length := by
        simp only [List.length_append, List.length_singleton] at hlt
        omega
      rw [List.eraseIdx_append_of_lt_length hi']
      simp
    · simp
  · simp

/-- The completion of a command is the newest of the history. -/
theorem Dev.complete_newest (d : Dev) (c : Cmd) (st : Status) (r : List Byte) :
    (d.complete c st r).newest = some (d.cplOf c st r d.epoch.numPcie) := by
  simp [Dev.complete, Dev.newest, Dev.remember_last]

theorem Dev.complete_answered (d : Dev) (c : Cmd) (st : Status) (r : List Byte) : (d.complete c st r).answered c st r := by
  simp [Dev.answered, Dev.complete_newest, Dev.cplOf]

/-! ### What fetching and taking a command leaves alone -/

@[simp] theorem Dev.fetchCmd_freeCtr (d : Dev) (p : CmdPath) : (d.fetchCmd p).freeCtr = d.freeCtr := by
  obtain ⟨o, r, e⟩ := d.fetchCmd_eq p; rw [e]
@[simp] theorem Dev.fetchCmd_modes (d : Dev) (p : CmdPath) : (d.fetchCmd p).modes = d.modes := by
  obtain ⟨o, r, e⟩ := d.fetchCmd_eq p; rw [e]
@[simp] theorem Dev.fetchCmd_epoch (d : Dev) (p : CmdPath) : (d.fetchCmd p).epoch = d.epoch := by
  obtain ⟨o, r, e⟩ := d.fetchCmd_eq p; rw [e]
@[simp] theorem Dev.fetchCmd_cfg (d : Dev) (p : CmdPath) : (d.fetchCmd p).cfg = d.cfg := by
  obtain ⟨o, r, e⟩ := d.fetchCmd_eq p; rw [e]
@[simp] theorem Dev.fetchCmd_stg (d : Dev) (p : CmdPath) : (d.fetchCmd p).stg = d.stg := by
  obtain ⟨o, r, e⟩ := d.fetchCmd_eq p; rw [e]
@[simp] theorem Dev.fetchCmd_snap (d : Dev) (p : CmdPath) : (d.fetchCmd p).snap = d.snap := by
  obtain ⟨o, r, e⟩ := d.fetchCmd_eq p; rw [e]
@[simp] theorem Dev.fetchCmd_vio (d : Dev) (p : CmdPath) : (d.fetchCmd p).vio = d.vio := by
  obtain ⟨o, r, e⟩ := d.fetchCmd_eq p; rw [e]
@[simp] theorem Dev.fetchCmd_flt (d : Dev) (p : CmdPath) : (d.fetchCmd p).flt = d.flt := by
  obtain ⟨o, r, e⟩ := d.fetchCmd_eq p; rw [e]
@[simp] theorem Dev.fetchCmd_disp (d : Dev) (p : CmdPath) : (d.fetchCmd p).disp = d.disp := by
  obtain ⟨o, r, e⟩ := d.fetchCmd_eq p; rw [e]
@[simp] theorem Dev.fetchCmd_ports (d : Dev) (p : CmdPath) : (d.fetchCmd p).ports = d.ports := by
  obtain ⟨o, r, e⟩ := d.fetchCmd_eq p; rw [e]
@[simp] theorem Dev.fetchCmd_cin (d : Dev) (p : CmdPath) : (d.fetchCmd p).cin = d.cin := by
  obtain ⟨o, r, e⟩ := d.fetchCmd_eq p; rw [e]
@[simp] theorem Dev.fetchCmd_lanes (d : Dev) (p : CmdPath) : (d.fetchCmd p).lanes = d.lanes := by
  obtain ⟨o, r, e⟩ := d.fetchCmd_eq p; rw [e]
@[simp] theorem Dev.fetchCmd_txc (d : Dev) (p : CmdPath) : (d.fetchCmd p).txc = d.txc := by
  obtain ⟨o, r, e⟩ := d.fetchCmd_eq p; rw [e]
@[simp] theorem Dev.fetchCmd_duty (d : Dev) (p : CmdPath) : (d.fetchCmd p).duty = d.duty := by
  obtain ⟨o, r, e⟩ := d.fetchCmd_eq p; rw [e]
@[simp] theorem Dev.fetchCmd_air (d : Dev) (p : CmdPath) : (d.fetchCmd p).air = d.air := by
  obtain ⟨o, r, e⟩ := d.fetchCmd_eq p; rw [e]
@[simp] theorem Dev.fetchCmd_seqs (d : Dev) (p : CmdPath) : (d.fetchCmd p).seqs = d.seqs := by
  obtain ⟨o, r, e⟩ := d.fetchCmd_eq p; rw [e]
@[simp] theorem Dev.fetchCmd_vat (d : Dev) (p : CmdPath) : (d.fetchCmd p).vat = d.vat := by
  obtain ⟨o, r, e⟩ := d.fetchCmd_eq p; rw [e]
@[simp] theorem Dev.fetchCmd_tbl (d : Dev) (p : CmdPath) : (d.fetchCmd p).tbl = d.tbl := by
  obtain ⟨o, r, e⟩ := d.fetchCmd_eq p; rw [e]
@[simp] theorem Dev.fetchCmd_pipe (d : Dev) (p : CmdPath) : (d.fetchCmd p).pipe = d.pipe := by
  obtain ⟨o, r, e⟩ := d.fetchCmd_eq p; rw [e]
@[simp] theorem Dev.fetchCmd_tm (d : Dev) (p : CmdPath) : (d.fetchCmd p).tm = d.tm := by
  obtain ⟨o, r, e⟩ := d.fetchCmd_eq p; rw [e]
@[simp] theorem Dev.fetchCmd_time (d : Dev) (p : CmdPath) : (d.fetchCmd p).time = d.time := by
  obtain ⟨o, r, e⟩ := d.fetchCmd_eq p; rw [e]
@[simp] theorem Dev.fetchCmd_otp (d : Dev) (p : CmdPath) : (d.fetchCmd p).otp = d.otp := by
  obtain ⟨o, r, e⟩ := d.fetchCmd_eq p; rw [e]
@[simp] theorem Dev.fetchCmd_ks0 (d : Dev) (p : CmdPath) : (d.fetchCmd p).ks0 = d.ks0 := by
  obtain ⟨o, r, e⟩ := d.fetchCmd_eq p; rw [e]
@[simp] theorem Dev.fetchCmd_ks1 (d : Dev) (p : CmdPath) : (d.fetchCmd p).ks1 = d.ks1 := by
  obtain ⟨o, r, e⟩ := d.fetchCmd_eq p; rw [e]
@[simp] theorem Dev.fetchCmd_pair (d : Dev) (p : CmdPath) : (d.fetchCmd p).pair = d.pair := by
  obtain ⟨o, r, e⟩ := d.fetchCmd_eq p; rw [e]
@[simp] theorem Dev.fetchCmd_elec (d : Dev) (p : CmdPath) : (d.fetchCmd p).elec = d.elec := by
  obtain ⟨o, r, e⟩ := d.fetchCmd_eq p; rw [e]
@[simp] theorem Dev.fetchCmd_sec (d : Dev) (p : CmdPath) : (d.fetchCmd p).sec = d.sec := by
  obtain ⟨o, r, e⟩ := d.fetchCmd_eq p; rw [e]
@[simp] theorem Dev.fetchCmd_links (d : Dev) (p : CmdPath) : (d.fetchCmd p).links = d.links := by
  obtain ⟨o, r, e⟩ := d.fetchCmd_eq p; rw [e]
@[simp] theorem Dev.fetchCmd_cnt (d : Dev) (p : CmdPath) : (d.fetchCmd p).cnt = d.cnt := by
  obtain ⟨o, r, e⟩ := d.fetchCmd_eq p; rw [e]
@[simp] theorem Dev.fetchCmd_ev (d : Dev) (p : CmdPath) : (d.fetchCmd p).ev = d.ev := by
  obtain ⟨o, r, e⟩ := d.fetchCmd_eq p; rw [e]
@[simp] theorem Dev.fetchCmd_host_ring1 (d : Dev) (p : CmdPath) : (d.fetchCmd p).host.ring1 = d.host.ring1 := by
  obtain ⟨o, r, e⟩ := d.fetchCmd_eq p; rw [e]
@[simp] theorem Dev.fetchCmd_host_ring2 (d : Dev) (p : CmdPath) : (d.fetchCmd p).host.ring2 = d.host.ring2 := by
  obtain ⟨o, r, e⟩ := d.fetchCmd_eq p; rw [e]
@[simp] theorem Dev.fetchCmd_host_msixTable (d : Dev) (p : CmdPath) : (d.fetchCmd p).host.msixTable = d.host.msixTable := by
  obtain ⟨o, r, e⟩ := d.fetchCmd_eq p; rw [e]
@[simp] theorem Dev.fetchCmd_host_hist (d : Dev) (p : CmdPath) : (d.fetchCmd p).host.hist = d.host.hist := by
  obtain ⟨o, r, e⟩ := d.fetchCmd_eq p; rw [e]
@[simp] theorem Dev.fetchCmd_host_inflight (d : Dev) (p : CmdPath) : (d.fetchCmd p).host.inflight = d.host.inflight := by
  obtain ⟨o, r, e⟩ := d.fetchCmd_eq p; rw [e]
@[simp] theorem Dev.fetchCmd_host_unfetched (d : Dev) (p : CmdPath) : (d.fetchCmd p).host.unfetched = d.host.unfetched := by
  obtain ⟨o, r, e⟩ := d.fetchCmd_eq p; rw [e]
@[simp] theorem Dev.fetchCmd_host_rxWait (d : Dev) (p : CmdPath) : (d.fetchCmd p).host.rxWait = d.host.rxWait := by
  obtain ⟨o, r, e⟩ := d.fetchCmd_eq p; rw [e]
@[simp] theorem Dev.fetchCmd_host_txDescs (d : Dev) (p : CmdPath) : (d.fetchCmd p).host.txDescs = d.host.txDescs := by
  obtain ⟨o, r, e⟩ := d.fetchCmd_eq p; rw [e]
@[simp] theorem Dev.fetchCmd_host_rxDescs (d : Dev) (p : CmdPath) : (d.fetchCmd p).host.rxDescs = d.host.rxDescs := by
  obtain ⟨o, r, e⟩ := d.fetchCmd_eq p; rw [e]
@[simp] theorem Dev.fetchCmd_host_forgotten (d : Dev) (p : CmdPath) : (d.fetchCmd p).host.forgotten = d.host.forgotten := by
  obtain ⟨o, r, e⟩ := d.fetchCmd_eq p; rw [e]
@[simp] theorem Dev.taken_freeCtr (d : Dev) (c : Cmd) : (d.taken c).freeCtr = d.freeCtr := by simp [Dev.taken]
@[simp] theorem Dev.taken_modes (d : Dev) (c : Cmd) : (d.taken c).modes = d.modes := by simp [Dev.taken]
@[simp] theorem Dev.taken_epoch (d : Dev) (c : Cmd) : (d.taken c).epoch = d.epoch := by simp [Dev.taken]
@[simp] theorem Dev.taken_cfg (d : Dev) (c : Cmd) : (d.taken c).cfg = d.cfg := by simp [Dev.taken]
@[simp] theorem Dev.taken_stg (d : Dev) (c : Cmd) : (d.taken c).stg = d.stg := by simp [Dev.taken]
@[simp] theorem Dev.taken_snap (d : Dev) (c : Cmd) : (d.taken c).snap = d.snap := by simp [Dev.taken]
@[simp] theorem Dev.taken_vio (d : Dev) (c : Cmd) : (d.taken c).vio = d.vio := by simp [Dev.taken]
@[simp] theorem Dev.taken_flt (d : Dev) (c : Cmd) : (d.taken c).flt = d.flt := by simp [Dev.taken]
@[simp] theorem Dev.taken_disp (d : Dev) (c : Cmd) : (d.taken c).disp = d.disp := by simp [Dev.taken]
@[simp] theorem Dev.taken_ports (d : Dev) (c : Cmd) : (d.taken c).ports = d.ports := by simp [Dev.taken]
@[simp] theorem Dev.taken_cin (d : Dev) (c : Cmd) : (d.taken c).cin = d.cin := by simp [Dev.taken]
@[simp] theorem Dev.taken_lanes (d : Dev) (c : Cmd) : (d.taken c).lanes = d.lanes := by simp [Dev.taken]
@[simp] theorem Dev.taken_txc (d : Dev) (c : Cmd) : (d.taken c).txc = d.txc := by simp [Dev.taken]
@[simp] theorem Dev.taken_duty (d : Dev) (c : Cmd) : (d.taken c).duty = d.duty := by simp [Dev.taken]
@[simp] theorem Dev.taken_air (d : Dev) (c : Cmd) : (d.taken c).air = d.air := by simp [Dev.taken]
@[simp] theorem Dev.taken_seqs (d : Dev) (c : Cmd) : (d.taken c).seqs = d.seqs := by simp [Dev.taken]
@[simp] theorem Dev.taken_vat (d : Dev) (c : Cmd) : (d.taken c).vat = d.vat := by simp [Dev.taken]
@[simp] theorem Dev.taken_tbl (d : Dev) (c : Cmd) : (d.taken c).tbl = d.tbl := by simp [Dev.taken]
@[simp] theorem Dev.taken_pipe (d : Dev) (c : Cmd) : (d.taken c).pipe = d.pipe := by simp [Dev.taken]
@[simp] theorem Dev.taken_tm (d : Dev) (c : Cmd) : (d.taken c).tm = d.tm := by simp [Dev.taken]
@[simp] theorem Dev.taken_time (d : Dev) (c : Cmd) : (d.taken c).time = d.time := by simp [Dev.taken]
@[simp] theorem Dev.taken_otp (d : Dev) (c : Cmd) : (d.taken c).otp = d.otp := by simp [Dev.taken]
@[simp] theorem Dev.taken_ks0 (d : Dev) (c : Cmd) : (d.taken c).ks0 = d.ks0 := by simp [Dev.taken]
@[simp] theorem Dev.taken_ks1 (d : Dev) (c : Cmd) : (d.taken c).ks1 = d.ks1 := by simp [Dev.taken]
@[simp] theorem Dev.taken_pair (d : Dev) (c : Cmd) : (d.taken c).pair = d.pair := by simp [Dev.taken]
@[simp] theorem Dev.taken_elec (d : Dev) (c : Cmd) : (d.taken c).elec = d.elec := by simp [Dev.taken]
@[simp] theorem Dev.taken_sec (d : Dev) (c : Cmd) : (d.taken c).sec = d.sec := by simp [Dev.taken]
@[simp] theorem Dev.taken_links (d : Dev) (c : Cmd) : (d.taken c).links = d.links := by simp [Dev.taken]
@[simp] theorem Dev.taken_host_ring1 (d : Dev) (c : Cmd) : (d.taken c).host.ring1 = d.host.ring1 := by simp [Dev.taken]
@[simp] theorem Dev.taken_host_ring2 (d : Dev) (c : Cmd) : (d.taken c).host.ring2 = d.host.ring2 := by simp [Dev.taken]
@[simp] theorem Dev.taken_host_msixTable (d : Dev) (c : Cmd) : (d.taken c).host.msixTable = d.host.msixTable := by simp [Dev.taken]
@[simp] theorem Dev.taken_host_hist (d : Dev) (c : Cmd) : (d.taken c).host.hist = d.host.hist := by simp [Dev.taken]
@[simp] theorem Dev.taken_host_inflight (d : Dev) (c : Cmd) : (d.taken c).host.inflight = d.host.inflight := by simp [Dev.taken]
@[simp] theorem Dev.taken_host_unfetched (d : Dev) (c : Cmd) : (d.taken c).host.unfetched = d.host.unfetched := by simp [Dev.taken]
@[simp] theorem Dev.taken_host_rxWait (d : Dev) (c : Cmd) : (d.taken c).host.rxWait = d.host.rxWait := by simp [Dev.taken]
@[simp] theorem Dev.taken_host_txDescs (d : Dev) (c : Cmd) : (d.taken c).host.txDescs = d.host.txDescs := by simp [Dev.taken]
@[simp] theorem Dev.taken_host_rxDescs (d : Dev) (c : Cmd) : (d.taken c).host.rxDescs = d.host.rxDescs := by simp [Dev.taken]
@[simp] theorem Dev.taken_host_forgotten (d : Dev) (c : Cmd) : (d.taken c).host.forgotten = d.host.forgotten := by simp [Dev.taken]

end Sys2Proof.Machine
end

