-- ==== Sys2Proof/Laws/Leaves.lean ====
section
/-! SUPPORT. What an operation leaves alone, unit by unit: `a.Leaves us d` says that d agrees with a in every unit
    outside us.
Each operation has one lemma: it keeps this for every us that holds the units it may change. -/

-- One proof at a time: the package compiles as one text, and proofs elaborated side by side each take a thread's stack.
set_option Elab.async false
-- The proofs search: each goal uses some of the alternatives.
set_option linter.all false

namespace Sys2Proof.Machine

/-- d agrees with a in every unit outside us. -/
structure Dev.Leaves (us : List DevUnit) (a d : Dev) : Prop where
  same : a.sameBut us d

/-- The units of the first list are all in the second. -/
def unitsIn (xs us : List DevUnit) : Bool := xs.all (fun u => us.contains u)

theorem unitsIn_trans {xs ys us : List DevUnit} (h : unitsIn xs ys = true) (g : unitsIn ys us = true) :
    unitsIn xs us = true := by
  simp only [unitsIn, List.all_eq_true, List.contains_iff_mem] at *
  exact fun u hu => g u (h u hu)

theorem unitsIn_mem {xs us : List DevUnit} {u : DevUnit} (g : unitsIn xs us = true) (h : xs.contains u = true) :
    us.contains u = true := by
  simp only [unitsIn, List.all_eq_true, List.contains_iff_mem] at *
  exact g u h

/-- A unit outside the second list is no unit of the first. -/
theorem unitsIn_absurd {xs us : List DevUnit} {u : DevUnit} {p : Prop} (g : unitsIn xs us = true)
    (hu : us.contains u = false) (h : xs.contains u = true) : p := by
  rw [unitsIn_mem g h] at hu
  contradiction

namespace Dev

theorem sameUnit_refl (u : DevUnit) (a : Dev) : a.sameUnit u a := by cases u <;> rfl

theorem sameUnit_trans {u : DevUnit} {a b c : Dev} (h : a.sameUnit u b) (g : b.sameUnit u c) : a.sameUnit u c := by
  cases u <;> exact Eq.trans h g

theorem Leaves.refl (us : List DevUnit) (a : Dev) : Leaves us a a := ⟨fun u _ => sameUnit_refl u a⟩

theorem Leaves.step {us : List DevUnit} {a x y : Dev} (h : Leaves us a x) (g : ∀ u, us.contains u = false →
    x.sameUnit u y) :
    Leaves us a y := ⟨fun u hu => sameUnit_trans (h.same u hu) (g u hu)⟩

/-- Marks a state that is written field by field, so that only such a state meets the next law. -/
def Marked (d : Dev) : Dev := d

theorem leaves_mark {us : List DevUnit} {a : Dev} (y0 : List Output) (y1 : Nat) (y2 : Modes) (y3 : Epoch) (y4 : Cfg)
    (y5 : Staging) (y6 : Snap) (y7 : Counters) (y8 : VioState) (y9 : EvState) (y10 : Faults) (y11 : HostIf) (y12 :
    Disp) (y13 : SMap Port) (y14 : Cin) (y15 : SMap Lane) (y16 : SMap Carrier) (y17 : Duty) (y18 : Air) (y19 : SMap
    Seq) (y20 : Vat) (y21 : Tables) (y22 : Pipes) (y23 : Tm) (y24 : TimeSt) (y25 : Otp) (y26 : Option KsRecord) (y27
    : Option KsRecord) (y28 : Pair) (y29 : Elec) (y30 : Sec) (y31 : Links) :
    Leaves us a (Dev.mk y0 y1 y2 y3 y4 y5 y6 y7 y8 y9 y10 y11 y12 y13 y14 y15 y16 y17 y18 y19 y20 y21 y22 y23 y24
    y25 y26 y27 y28 y29 y30 y31) = Leaves us a (Marked (Dev.mk y0 y1 y2 y3 y4 y5 y6 y7 y8 y9 y10 y11 y12 y13 y14 y15
    y16 y17 y18 y19 y20 y21 y22 y23 y24 y25 y26 y27 y28 y29 y30 y31)) := rfl

/-- A state written over x: one condition for each unit written. -/
theorem leaves_mk {us : List DevUnit} {a x : Dev} {y0 : List Output} {y1 : Nat} {y2 : Modes} {y3 : Epoch} {y4 : Cfg}
    {y5 : Staging} {y6 : Snap} {y7 : Counters} {y8 : VioState} {y9 : EvState} {y10 : Faults} {y11 : HostIf} {y13 :
    SMap Port} {y14 : Cin} {y15 : SMap Lane} {y16 : SMap Carrier} {y17 : Duty} {y18 : Air} {y19 : SMap Seq} {y20 :
    Vat} {y21 : Tables} {y22 : Pipes} {y23 : Tm} {y24 : TimeSt} {y25 : Otp} {y26 : Option KsRecord} {y27 : Option
    KsRecord} {y28 : Pair} {y29 : Elec} {y30 : Sec} {y31 : Links} (h : Leaves us a x) (g0 : us.contains .out = false
    → x.out = y0) (g1 : us.contains .freeCtr = false → x.freeCtr = y1) (g2 : us.contains .modes = false → x.modes =
    y2) (g3 : us.contains .epoch = false → x.epoch = y3) (g4 : us.contains .cfg = false → x.cfg = y4) (g5 :
    us.contains .stg = false → x.stg = y5) (g6 : us.contains .snap = false → x.snap = y6) (g7 : us.contains .cnt =
    false → x.cnt = y7) (g8 : us.contains .vio = false → x.vio = y8) (g9 : us.contains .ev = false → x.ev = y9) (g10
    : us.contains .flt = false → x.flt = y10) (g11 : us.contains .host = false → x.host = y11) (g13 : us.contains
    .ports = false → x.ports = y13) (g14 : us.contains .cin = false → x.cin = y14) (g15 : us.contains .lanes = false
    → x.lanes = y15) (g16 : us.contains .txc = false → x.txc = y16) (g17 : us.contains .duty = false → x.duty = y17)
    (g18 : us.contains .air = false → x.air = y18) (g19 : us.contains .seqs = false → x.seqs = y19) (g20 :
    us.contains .vat = false → x.vat = y20) (g21 : us.contains .tbl = false → x.tbl = y21) (g22 : us.contains .pipe
    = false → x.pipe = y22) (g23 : us.contains .tm = false → x.tm = y23) (g24 : us.contains .time = false → x.time =
    y24) (g25 : us.contains .otp = false → x.otp = y25) (g26 : us.contains .ks0 = false → x.ks0 = y26) (g27 :
    us.contains .ks1 = false → x.ks1 = y27) (g28 : us.contains .pair = false → x.pair = y28) (g29 : us.contains
    .elec = false → x.elec = y29) (g30 : us.contains .sec = false → x.sec = y30) (g31 : us.contains .links = false →
    x.links = y31) :
    Leaves us a (Marked (Dev.mk y0 y1 y2 y3 y4 y5 y6 y7 y8 y9 y10 y11 x.disp y13 y14 y15 y16 y17 y18 y19 y20 y21
        y22 y23 y24 y25 y26 y27 y28 y29 y30 y31)) :=
  h.step fun u hu => match u with
    | .out => g0 hu
    | .freeCtr => g1 hu
    | .modes => g2 hu
    | .epoch => g3 hu
    | .cfg => g4 hu
    | .stg => g5 hu
    | .snap => g6 hu
    | .cnt => g7 hu
    | .vio => g8 hu
    | .ev => g9 hu
    | .flt => g10 hu
    | .host => g11 hu
    | .disp => rfl
    | .ports => g13 hu
    | .cin => g14 hu
    | .lanes => g15 hu
    | .txc => g16 hu
    | .duty => g17 hu
    | .air => g18 hu
    | .seqs => g19 hu
    | .vat => g20 hu
    | .tbl => g21 hu
    | .pipe => g22 hu
    | .tm => g23 hu
    | .time => g24 hu
    | .otp => g25 hu
    | .ks0 => g26 hu
    | .ks1 => g27 hu
    | .pair => g28 hu
    | .elec => g29 hu
    | .sec => g30 hu
    | .links => g31 hu

theorem leaves_mk' {us : List DevUnit} {a x : Dev} {y0 : List Output} {y1 : Nat} {y2 : Modes} {y3 : Epoch} {y4 :
    Cfg} {y5 : Staging} {y6 : Snap} {y7 : Counters} {y8 : VioState} {y9 : EvState} {y10 : Faults} {y11 : HostIf}
    {y12 : Disp} {y13 : SMap Port} {y14 : Cin} {y15 : SMap Lane} {y16 : SMap Carrier} {y17 : Duty} {y18 : Air} {y19
    : SMap Seq} {y20 : Vat} {y21 : Tables} {y22 : Pipes} {y23 : Tm} {y24 : TimeSt} {y25 : Otp} {y27 : Option
    KsRecord} {y28 : Pair} {y29 : Elec} {y30 : Sec} {y31 : Links} (h : Leaves us a x) (g0 : us.contains .out = false
    → x.out = y0) (g1 : us.contains .freeCtr = false → x.freeCtr = y1) (g2 : us.contains .modes = false → x.modes =
    y2) (g3 : us.contains .epoch = false → x.epoch = y3) (g4 : us.contains .cfg = false → x.cfg = y4) (g5 :
    us.contains .stg = false → x.stg = y5) (g6 : us.contains .snap = false → x.snap = y6) (g7 : us.contains .cnt =
    false → x.cnt = y7) (g8 : us.contains .vio = false → x.vio = y8) (g9 : us.contains .ev = false → x.ev = y9) (g10
    : us.contains .flt = false → x.flt = y10) (g11 : us.contains .host = false → x.host = y11) (g12 : us.contains
    .disp = false → x.disp = y12) (g13 : us.contains .ports = false → x.ports = y13) (g14 : us.contains .cin = false
    → x.cin = y14) (g15 : us.contains .lanes = false → x.lanes = y15) (g16 : us.contains .txc = false → x.txc = y16)
    (g17 : us.contains .duty = false → x.duty = y17) (g18 : us.contains .air = false → x.air = y18) (g19 :
    us.contains .seqs = false → x.seqs = y19) (g20 : us.contains .vat = false → x.vat = y20) (g21 : us.contains .tbl
    = false → x.tbl = y21) (g22 : us.contains .pipe = false → x.pipe = y22) (g23 : us.contains .tm = false → x.tm =
    y23) (g24 : us.contains .time = false → x.time = y24) (g25 : us.contains .otp = false → x.otp = y25) (g27 :
    us.contains .ks1 = false → x.ks1 = y27) (g28 : us.contains .pair = false → x.pair = y28) (g29 : us.contains
    .elec = false → x.elec = y29) (g30 : us.contains .sec = false → x.sec = y30) (g31 : us.contains .links = false →
    x.links = y31) :
    Leaves us a (Marked (Dev.mk y0 y1 y2 y3 y4 y5 y6 y7 y8 y9 y10 y11 y12 y13 y14 y15 y16 y17 y18 y19 y20 y21
        y22 y23 y24 y25 x.ks0 y27 y28 y29 y30 y31)) :=
  h.step fun u hu => match u with
    | .out => g0 hu
    | .freeCtr => g1 hu
    | .modes => g2 hu
    | .epoch => g3 hu
    | .cfg => g4 hu
    | .stg => g5 hu
    | .snap => g6 hu
    | .cnt => g7 hu
    | .vio => g8 hu
    | .ev => g9 hu
    | .flt => g10 hu
    | .host => g11 hu
    | .disp => g12 hu
    | .ports => g13 hu
    | .cin => g14 hu
    | .lanes => g15 hu
    | .txc => g16 hu
    | .duty => g17 hu
    | .air => g18 hu
    | .seqs => g19 hu
    | .vat => g20 hu
    | .tbl => g21 hu
    | .pipe => g22 hu
    | .tm => g23 hu
    | .time => g24 hu
    | .otp => g25 hu
    | .ks0 => rfl
    | .ks1 => g27 hu
    | .pair => g28 hu
    | .elec => g29 hu
    | .sec => g30 hu
    | .links => g31 hu

theorem leaves_each {us : List DevUnit} {a d : Dev} (h : Leaves us a d) (xs : List Nat) (f : Dev → Nat → Dev)
    (hf : ∀ x n, Leaves us a x → Leaves us a (f x n)) : Leaves us a (d.each xs f) := by
  unfold each
  induction xs generalizing d with
  | nil => exact h
  | cons x xs ih => exact ih (hf _ _ h)

theorem leaves_foldl {β : Type} {us : List DevUnit} {a d : Dev} (h : Leaves us a d) (xs : List β) (f : Dev → β → Dev)
    (hf : ∀ x n, Leaves us a x → Leaves us a (f x n)) : Leaves us a (xs.foldl f d) := by
  induction xs generalizing d with
  | nil => exact h
  | cons x xs ih => exact ih (hf _ _ h)

theorem leaves_foldl_fst {α β : Type} {us : List DevUnit} {a : Dev} {p : Dev × α} (h : Leaves us a p.1) (xs : List β)
    (f : Dev × α → β → Dev × α) (hf : ∀ x n, Leaves us a x.1 → Leaves us a (f x n).1) :
    Leaves us a (xs.foldl f p).1 := by
  induction xs generalizing p with
  | nil => exact h
  | cons x xs ih => exact ih (hf _ _ h)

theorem leaves_getD {us : List DevUnit} {a d : Dev} {o : Option Dev} (h : Leaves us a d)
    (ho : ∀ z, o = some z → Leaves us a z) : Leaves us a (o.getD d) := by
  cases o with
  | none => exact h
  | some z => exact ho z rfl

theorem leaves_ite {us : List DevUnit} {a x y : Dev} {c : Prop} [Decidable c] (hx : Leaves us a x) (hy : Leaves us a
    y) :
    Leaves us a (if c then x else y) := by
  split
  · exact hx
  · exact hy

theorem leaves_ite_fst {α : Type} {us : List DevUnit} {a : Dev} {x y : Dev × α} {c : Prop} [Decidable c]
    (hx : Leaves us a x.1) (hy : Leaves us a y.1) : Leaves us a (if c then x else y).1 := by
  split
  · exact hx
  · exact hy

theorem leaves_ite_snd {α : Type} {us : List DevUnit} {a : Dev} {x y : α × Dev} {c : Prop} [Decidable c]
    (hx : Leaves us a x.2) (hy : Leaves us a y.2) : Leaves us a (if c then x else y).2 := by
  split
  · exact hx
  · exact hy

theorem leaves_snd {α : Type} {us : List DevUnit} {a y : Dev} {x : α} {p : α × Dev} (e : p = (x, y))
    (h : Leaves us a p.2) : Leaves us a y := by
  rw [e] at h; exact h

theorem leaves_fst {α : Type} {us : List DevUnit} {a y : Dev} {x : α} {p : Dev × α} (e : p = (y, x))
    (h : Leaves us a p.1) : Leaves us a y := by
  rw [e] at h; exact h

theorem leaves_mid {α β : Type} {us : List DevUnit} {a y : Dev} {x : α} {z : β} {p : α × Dev × β} (e : p = (x, y, z))
    (h : Leaves us a p.2.1) : Leaves us a y := by
  rw [e] at h; exact h

theorem leaves_some {us : List DevUnit} {a y : Dev} {o : Option Dev} (e : o = some y)
    (h : ∀ z, o = some z → Leaves us a z) : Leaves us a y := h _ e

theorem leaves_some_snd {α : Type} {us : List DevUnit} {a y : Dev} {x : α} {o : Option (α × Dev)} (e : o = some (x,
    y))
    (h : ∀ z, o = some z → Leaves us a z.2) : Leaves us a y := h _ e

theorem leaves_some_fst {α : Type} {us : List DevUnit} {a y : Dev} {x : α} {o : Option (Dev × α)} (e : o = some (y,
    x))
    (h : ∀ z, o = some z → Leaves us a z.1) : Leaves us a y := h _ e

theorem leaves_error {α : Type} {us : List DevUnit} {a y : Dev} {o : Except Dev α} (e : o = .error y)
    (h : ∀ z, o = .error z → Leaves us a z) : Leaves us a y := h _ e

end Dev

end Sys2Proof.Machine
end

