-- ==== Sys2Proof/Laws/LeavesOps.lean ====
section
/-! SUPPORT. The units that the operations of Machine/Ops.lean leave alone (see Laws/Leaves.lean). -/

-- One proof at a time: the package compiles as one text, and proofs elaborated side by side each take a thread's stack.
set_option Elab.async false
-- The proofs search: each goal uses some of the alternatives.
set_option linter.all false

namespace Sys2Proof.Machine

namespace Dev

theorem leaves_setCarrier {us : List DevUnit} {a d : Dev} (h : Leaves us a d) (x1 : Nat) (x2 : Carrier) (hs : unitsIn
    [.txc] us = true := by refine unitsIn_trans ?_ ‹unitsIn _ _ = true›; decide) : Leaves us a (setCarrier d x1 x2) := by
  unfold setCarrier
  try dsimp only
  repeat' (first | with_reducible assumption | (with_reducible refine unitsIn_trans ?_ hs; decide) | (simp only [leaves_mark]; (first | with_reducible refine leaves_mk ?_ ?_ ?_ ?_ ?_ ?_ ?_ ?_ ?_ ?_ ?_ ?_ ?_ ?_ ?_ ?_ ?_ ?_ ?_ ?_ ?_ ?_ ?_ ?_ ?_ ?_ ?_ ?_ ?_ ?_ ?_ ?_ | with_reducible refine leaves_mk' ?_ ?_ ?_ ?_ ?_ ?_ ?_ ?_ ?_ ?_ ?_ ?_ ?_ ?_ ?_ ?_ ?_ ?_ ?_ ?_ ?_ ?_ ?_ ?_ ?_ ?_ ?_ ?_ ?_ ?_ ?_ ?_); rotate_left; iterate 31 (first | exact fun hu => unitsIn_absurd hs hu rfl | exact fun _ => rfl)))

theorem leaves_modCarrier {us : List DevUnit} {a d : Dev} (h : Leaves us a d) (x1 : Nat) (x2 : Carrier → Carrier) (hs
    : unitsIn [.txc] us = true := by refine unitsIn_trans ?_ ‹unitsIn _ _ = true›; decide) : Leaves us a (modCarrier d
    x1 x2) := by
  unfold modCarrier
  try dsimp only
  repeat' (first | with_reducible assumption | (with_reducible refine unitsIn_trans ?_ hs; decide) | with_reducible apply leaves_setCarrier | (simp only [leaves_mark]; (first | with_reducible refine leaves_mk ?_ ?_ ?_ ?_ ?_ ?_ ?_ ?_ ?_ ?_ ?_ ?_ ?_ ?_ ?_ ?_ ?_ ?_ ?_ ?_ ?_ ?_ ?_ ?_ ?_ ?_ ?_ ?_ ?_ ?_ ?_ ?_ | with_reducible refine leaves_mk' ?_ ?_ ?_ ?_ ?_ ?_ ?_ ?_ ?_ ?_ ?_ ?_ ?_ ?_ ?_ ?_ ?_ ?_ ?_ ?_ ?_ ?_ ?_ ?_ ?_ ?_ ?_ ?_ ?_ ?_ ?_ ?_); rotate_left; iterate 31 (first | exact fun hu => unitsIn_absurd hs hu rfl | exact fun _ => rfl)))

theorem leaves_draw {us : List DevUnit} {a d : Dev} (h : Leaves us a d) (x1 : Nat) (hs : unitsIn [.freeCtr] us = true
    := by refine unitsIn_trans ?_ ‹unitsIn _ _ = true›; decide) : Leaves us a (draw d x1).2 := by
  unfold draw
  try dsimp only
  repeat' (first | with_reducible assumption | (with_reducible refine unitsIn_trans ?_ hs; decide) | (simp only [leaves_mark]; (first | with_reducible refine leaves_mk ?_ ?_ ?_ ?_ ?_ ?_ ?_ ?_ ?_ ?_ ?_ ?_ ?_ ?_ ?_ ?_ ?_ ?_ ?_ ?_ ?_ ?_ ?_ ?_ ?_ ?_ ?_ ?_ ?_ ?_ ?_ ?_ | with_reducible refine leaves_mk' ?_ ?_ ?_ ?_ ?_ ?_ ?_ ?_ ?_ ?_ ?_ ?_ ?_ ?_ ?_ ?_ ?_ ?_ ?_ ?_ ?_ ?_ ?_ ?_ ?_ ?_ ?_ ?_ ?_ ?_ ?_ ?_); rotate_left; iterate 31 (first | exact fun hu => unitsIn_absurd hs hu rfl | exact fun _ => rfl)))

theorem leaves_drawTo {us : List DevUnit} {a d : Dev} (h : Leaves us a d) (x1 : Nat) (hs : unitsIn [.freeCtr] us =
    true := by refine unitsIn_trans ?_ ‹unitsIn _ _ = true›; decide) : Leaves us a (drawTo d x1).2 := by
  unfold drawTo
  try dsimp only
  repeat' (first | with_reducible assumption | (with_reducible refine unitsIn_trans ?_ hs; decide) | with_reducible apply leaves_draw | split)

theorem leaves_raiseIn {us : List DevUnit} {a d : Dev} (h : Leaves us a d) (x1 : Option Domain) (x2 : EvCode) (x3 :
    List Byte) (hs : unitsIn [.cnt, .ev] us = true := by refine unitsIn_trans ?_ ‹unitsIn _ _ = true›; decide) :
    Leaves us a (raiseIn d x1 x2 x3) := by
  unfold raiseIn
  try dsimp only
  repeat' (first | with_reducible assumption | (with_reducible refine unitsIn_trans ?_ hs; decide) | with_reducible apply leaves_ite | split | (simp only [leaves_mark]; (first | with_reducible refine leaves_mk ?_ ?_ ?_ ?_ ?_ ?_ ?_ ?_ ?_ ?_ ?_ ?_ ?_ ?_ ?_ ?_ ?_ ?_ ?_ ?_ ?_ ?_ ?_ ?_ ?_ ?_ ?_ ?_ ?_ ?_ ?_ ?_ | with_reducible refine leaves_mk' ?_ ?_ ?_ ?_ ?_ ?_ ?_ ?_ ?_ ?_ ?_ ?_ ?_ ?_ ?_ ?_ ?_ ?_ ?_ ?_ ?_ ?_ ?_ ?_ ?_ ?_ ?_ ?_ ?_ ?_ ?_ ?_); rotate_left; iterate 31 (first | exact fun hu => unitsIn_absurd hs hu rfl | exact fun _ => rfl)))

theorem leaves_raise {us : List DevUnit} {a d : Dev} (h : Leaves us a d) (x1 : EvCode) (x2 : List Byte) (hs : unitsIn
    [.cnt, .ev] us = true := by refine unitsIn_trans ?_ ‹unitsIn _ _ = true›; decide) : Leaves us a (raise d x1 x2) := by
  unfold raise
  try dsimp only
  repeat' (first | with_reducible assumption | (with_reducible refine unitsIn_trans ?_ hs; decide) | with_reducible apply leaves_raiseIn)

theorem leaves_countLate {us : List DevUnit} {a d : Dev} (h : Leaves us a d) (x1 : Nat) (x2 : Nat) (hs : unitsIn
    [.cnt] us = true := by refine unitsIn_trans ?_ ‹unitsIn _ _ = true›; decide) : Leaves us a (countLate d x1 x2) := by
  unfold countLate
  try dsimp only
  repeat' (first | with_reducible assumption | (with_reducible refine unitsIn_trans ?_ hs; decide) | with_reducible apply leaves_ite | split | (simp only [leaves_mark]; (first | with_reducible refine leaves_mk ?_ ?_ ?_ ?_ ?_ ?_ ?_ ?_ ?_ ?_ ?_ ?_ ?_ ?_ ?_ ?_ ?_ ?_ ?_ ?_ ?_ ?_ ?_ ?_ ?_ ?_ ?_ ?_ ?_ ?_ ?_ ?_ | with_reducible refine leaves_mk' ?_ ?_ ?_ ?_ ?_ ?_ ?_ ?_ ?_ ?_ ?_ ?_ ?_ ?_ ?_ ?_ ?_ ?_ ?_ ?_ ?_ ?_ ?_ ?_ ?_ ?_ ?_ ?_ ?_ ?_ ?_ ?_); rotate_left; iterate 31 (first | exact fun hu => unitsIn_absurd hs hu rfl | exact fun _ => rfl)))

theorem leaves_bump {us : List DevUnit} {a d : Dev} (h : Leaves us a d) (x1 : Counter) (x2 : Nat) (hs : unitsIn [.cnt,
    .ev] us = true := by refine unitsIn_trans ?_ ‹unitsIn _ _ = true›; decide) : Leaves us a (bump d x1 x2) := by
  unfold bump
  try dsimp only
  repeat' (first | with_reducible assumption | (with_reducible refine unitsIn_trans ?_ hs; decide) | with_reducible apply leaves_countLate | with_reducible apply leaves_raiseIn | with_reducible apply leaves_ite | split | (simp only [leaves_mark]; (first | with_reducible refine leaves_mk ?_ ?_ ?_ ?_ ?_ ?_ ?_ ?_ ?_ ?_ ?_ ?_ ?_ ?_ ?_ ?_ ?_ ?_ ?_ ?_ ?_ ?_ ?_ ?_ ?_ ?_ ?_ ?_ ?_ ?_ ?_ ?_ | with_reducible refine leaves_mk' ?_ ?_ ?_ ?_ ?_ ?_ ?_ ?_ ?_ ?_ ?_ ?_ ?_ ?_ ?_ ?_ ?_ ?_ ?_ ?_ ?_ ?_ ?_ ?_ ?_ ?_ ?_ ?_ ?_ ?_ ?_ ?_); rotate_left; iterate 31 (first | exact fun hu => unitsIn_absurd hs hu rfl | exact fun _ => rfl)))

theorem leaves_setPan {us : List DevUnit} {a d : Dev} (h : Leaves us a d) (x1 : Nat) (x2 : Pan) (hs : unitsIn [.air]
    us = true := by refine unitsIn_trans ?_ ‹unitsIn _ _ = true›; decide) : Leaves us a (setPan d x1 x2) := by
  unfold setPan
  try dsimp only
  repeat' (first | with_reducible assumption | (with_reducible refine unitsIn_trans ?_ hs; decide) | (simp only [leaves_mark]; (first | with_reducible refine leaves_mk ?_ ?_ ?_ ?_ ?_ ?_ ?_ ?_ ?_ ?_ ?_ ?_ ?_ ?_ ?_ ?_ ?_ ?_ ?_ ?_ ?_ ?_ ?_ ?_ ?_ ?_ ?_ ?_ ?_ ?_ ?_ ?_ | with_reducible refine leaves_mk' ?_ ?_ ?_ ?_ ?_ ?_ ?_ ?_ ?_ ?_ ?_ ?_ ?_ ?_ ?_ ?_ ?_ ?_ ?_ ?_ ?_ ?_ ?_ ?_ ?_ ?_ ?_ ?_ ?_ ?_ ?_ ?_); rotate_left; iterate 31 (first | exact fun hu => unitsIn_absurd hs hu rfl | exact fun _ => rfl)))

theorem leaves_modPan {us : List DevUnit} {a d : Dev} (h : Leaves us a d) (x1 : Nat) (x2 : Pan → Pan) (hs : unitsIn
    [.air] us = true := by refine unitsIn_trans ?_ ‹unitsIn _ _ = true›; decide) : Leaves us a (modPan d x1 x2) := by
  unfold modPan
  try dsimp only
  repeat' (first | with_reducible assumption | (with_reducible refine unitsIn_trans ?_ hs; decide) | with_reducible apply leaves_setPan | (simp only [leaves_mark]; (first | with_reducible refine leaves_mk ?_ ?_ ?_ ?_ ?_ ?_ ?_ ?_ ?_ ?_ ?_ ?_ ?_ ?_ ?_ ?_ ?_ ?_ ?_ ?_ ?_ ?_ ?_ ?_ ?_ ?_ ?_ ?_ ?_ ?_ ?_ ?_ | with_reducible refine leaves_mk' ?_ ?_ ?_ ?_ ?_ ?_ ?_ ?_ ?_ ?_ ?_ ?_ ?_ ?_ ?_ ?_ ?_ ?_ ?_ ?_ ?_ ?_ ?_ ?_ ?_ ?_ ?_ ?_ ?_ ?_ ?_ ?_); rotate_left; iterate 31 (first | exact fun hu => unitsIn_absurd hs hu rfl | exact fun _ => rfl)))

theorem leaves_setShared {us : List DevUnit} {a d : Dev} (h : Leaves us a d) (x1 : Nat) (x2 : Shared) (hs : unitsIn
    [.air] us = true := by refine unitsIn_trans ?_ ‹unitsIn _ _ = true›; decide) : Leaves us a (setShared d x1 x2) := by
  unfold setShared
  try dsimp only
  repeat' (first | with_reducible assumption | (with_reducible refine unitsIn_trans ?_ hs; decide) | (simp only [leaves_mark]; (first | with_reducible refine leaves_mk ?_ ?_ ?_ ?_ ?_ ?_ ?_ ?_ ?_ ?_ ?_ ?_ ?_ ?_ ?_ ?_ ?_ ?_ ?_ ?_ ?_ ?_ ?_ ?_ ?_ ?_ ?_ ?_ ?_ ?_ ?_ ?_ | with_reducible refine leaves_mk' ?_ ?_ ?_ ?_ ?_ ?_ ?_ ?_ ?_ ?_ ?_ ?_ ?_ ?_ ?_ ?_ ?_ ?_ ?_ ?_ ?_ ?_ ?_ ?_ ?_ ?_ ?_ ?_ ?_ ?_ ?_ ?_); rotate_left; iterate 31 (first | exact fun hu => unitsIn_absurd hs hu rfl | exact fun _ => rfl)))

theorem leaves_setPort {us : List DevUnit} {a d : Dev} (h : Leaves us a d) (x1 : Nat) (x2 : Port) (hs : unitsIn
    [.ports] us = true := by refine unitsIn_trans ?_ ‹unitsIn _ _ = true›; decide) : Leaves us a (setPort d x1 x2) := by
  unfold setPort
  try dsimp only
  repeat' (first | with_reducible assumption | (with_reducible refine unitsIn_trans ?_ hs; decide) | (simp only [leaves_mark]; (first | with_reducible refine leaves_mk ?_ ?_ ?_ ?_ ?_ ?_ ?_ ?_ ?_ ?_ ?_ ?_ ?_ ?_ ?_ ?_ ?_ ?_ ?_ ?_ ?_ ?_ ?_ ?_ ?_ ?_ ?_ ?_ ?_ ?_ ?_ ?_ | with_reducible refine leaves_mk' ?_ ?_ ?_ ?_ ?_ ?_ ?_ ?_ ?_ ?_ ?_ ?_ ?_ ?_ ?_ ?_ ?_ ?_ ?_ ?_ ?_ ?_ ?_ ?_ ?_ ?_ ?_ ?_ ?_ ?_ ?_ ?_); rotate_left; iterate 31 (first | exact fun hu => unitsIn_absurd hs hu rfl | exact fun _ => rfl)))

theorem leaves_modPort {us : List DevUnit} {a d : Dev} (h : Leaves us a d) (x1 : Nat) (x2 : Port → Port) (hs : unitsIn
    [.ports] us = true := by refine unitsIn_trans ?_ ‹unitsIn _ _ = true›; decide) : Leaves us a (modPort d x1 x2) := by
  unfold modPort
  try dsimp only
  repeat' (first | with_reducible assumption | (with_reducible refine unitsIn_trans ?_ hs; decide) | with_reducible apply leaves_setPort | (simp only [leaves_mark]; (first | with_reducible refine leaves_mk ?_ ?_ ?_ ?_ ?_ ?_ ?_ ?_ ?_ ?_ ?_ ?_ ?_ ?_ ?_ ?_ ?_ ?_ ?_ ?_ ?_ ?_ ?_ ?_ ?_ ?_ ?_ ?_ ?_ ?_ ?_ ?_ | with_reducible refine leaves_mk' ?_ ?_ ?_ ?_ ?_ ?_ ?_ ?_ ?_ ?_ ?_ ?_ ?_ ?_ ?_ ?_ ?_ ?_ ?_ ?_ ?_ ?_ ?_ ?_ ?_ ?_ ?_ ?_ ?_ ?_ ?_ ?_); rotate_left; iterate 31 (first | exact fun hu => unitsIn_absurd hs hu rfl | exact fun _ => rfl)))

theorem leaves_emit {us : List DevUnit} {a d : Dev} (h : Leaves us a d) (x1 : OutKind) (x2 : Nat) (x3 : List Byte) (hs
    : unitsIn [.out] us = true := by refine unitsIn_trans ?_ ‹unitsIn _ _ = true›; decide) : Leaves us a (emit d x1 x2
    x3) := by
  unfold emit
  try dsimp only
  repeat' (first | with_reducible assumption | (with_reducible refine unitsIn_trans ?_ hs; decide) | (simp only [leaves_mark]; (first | with_reducible refine leaves_mk ?_ ?_ ?_ ?_ ?_ ?_ ?_ ?_ ?_ ?_ ?_ ?_ ?_ ?_ ?_ ?_ ?_ ?_ ?_ ?_ ?_ ?_ ?_ ?_ ?_ ?_ ?_ ?_ ?_ ?_ ?_ ?_ | with_reducible refine leaves_mk' ?_ ?_ ?_ ?_ ?_ ?_ ?_ ?_ ?_ ?_ ?_ ?_ ?_ ?_ ?_ ?_ ?_ ?_ ?_ ?_ ?_ ?_ ?_ ?_ ?_ ?_ ?_ ?_ ?_ ?_ ?_ ?_); rotate_left; iterate 31 (first | exact fun hu => unitsIn_absurd hs hu rfl | exact fun _ => rfl)))

theorem leaves_setQueue {us : List DevUnit} {a d : Dev} (h : Leaves us a d) (x1 : Nat) (x2 : List QItem) (hs : unitsIn
    [.tm] us = true := by refine unitsIn_trans ?_ ‹unitsIn _ _ = true›; decide) : Leaves us a (setQueue d x1 x2) := by
  unfold setQueue
  try dsimp only
  repeat' (first | with_reducible assumption | (with_reducible refine unitsIn_trans ?_ hs; decide) | (simp only [leaves_mark]; (first | with_reducible refine leaves_mk ?_ ?_ ?_ ?_ ?_ ?_ ?_ ?_ ?_ ?_ ?_ ?_ ?_ ?_ ?_ ?_ ?_ ?_ ?_ ?_ ?_ ?_ ?_ ?_ ?_ ?_ ?_ ?_ ?_ ?_ ?_ ?_ | with_reducible refine leaves_mk' ?_ ?_ ?_ ?_ ?_ ?_ ?_ ?_ ?_ ?_ ?_ ?_ ?_ ?_ ?_ ?_ ?_ ?_ ?_ ?_ ?_ ?_ ?_ ?_ ?_ ?_ ?_ ?_ ?_ ?_ ?_ ?_); rotate_left; iterate 31 (first | exact fun hu => unitsIn_absurd hs hu rfl | exact fun _ => rfl)))

theorem leaves_setLane {us : List DevUnit} {a d : Dev} (h : Leaves us a d) (x1 : Nat) (x2 : Lane) (hs : unitsIn
    [.lanes] us = true := by refine unitsIn_trans ?_ ‹unitsIn _ _ = true›; decide) : Leaves us a (setLane d x1 x2) := by
  unfold setLane
  try dsimp only
  repeat' (first | with_reducible assumption | (with_reducible refine unitsIn_trans ?_ hs; decide) | (simp only [leaves_mark]; (first | with_reducible refine leaves_mk ?_ ?_ ?_ ?_ ?_ ?_ ?_ ?_ ?_ ?_ ?_ ?_ ?_ ?_ ?_ ?_ ?_ ?_ ?_ ?_ ?_ ?_ ?_ ?_ ?_ ?_ ?_ ?_ ?_ ?_ ?_ ?_ | with_reducible refine leaves_mk' ?_ ?_ ?_ ?_ ?_ ?_ ?_ ?_ ?_ ?_ ?_ ?_ ?_ ?_ ?_ ?_ ?_ ?_ ?_ ?_ ?_ ?_ ?_ ?_ ?_ ?_ ?_ ?_ ?_ ?_ ?_ ?_); rotate_left; iterate 31 (first | exact fun hu => unitsIn_absurd hs hu rfl | exact fun _ => rfl)))

theorem leaves_modLane {us : List DevUnit} {a d : Dev} (h : Leaves us a d) (x1 : Nat) (x2 : Lane → Lane) (hs : unitsIn
    [.lanes] us = true := by refine unitsIn_trans ?_ ‹unitsIn _ _ = true›; decide) : Leaves us a (modLane d x1 x2) := by
  unfold modLane
  try dsimp only
  repeat' (first | with_reducible assumption | (with_reducible refine unitsIn_trans ?_ hs; decide) | with_reducible apply leaves_setLane | (simp only [leaves_mark]; (first | with_reducible refine leaves_mk ?_ ?_ ?_ ?_ ?_ ?_ ?_ ?_ ?_ ?_ ?_ ?_ ?_ ?_ ?_ ?_ ?_ ?_ ?_ ?_ ?_ ?_ ?_ ?_ ?_ ?_ ?_ ?_ ?_ ?_ ?_ ?_ | with_reducible refine leaves_mk' ?_ ?_ ?_ ?_ ?_ ?_ ?_ ?_ ?_ ?_ ?_ ?_ ?_ ?_ ?_ ?_ ?_ ?_ ?_ ?_ ?_ ?_ ?_ ?_ ?_ ?_ ?_ ?_ ?_ ?_ ?_ ?_); rotate_left; iterate 31 (first | exact fun hu => unitsIn_absurd hs hu rfl | exact fun _ => rfl)))

theorem leaves_asFrame {us : List DevUnit} {a d : Dev} (h : Leaves us a d) (x1 : Nat) (x2 : Dev → Dev) (hx2 : ∀ y,
    Leaves us a y → Leaves us a (x2 y)) (hs : unitsIn [.cnt] us = true :=
    by refine unitsIn_trans ?_ ‹unitsIn _ _ = true›; decide) : Leaves us a (asFrame d x1 x2) := by
  unfold asFrame
  try dsimp only
  repeat' (first | with_reducible assumption | (with_reducible refine unitsIn_trans ?_ hs; decide) | with_reducible apply hx2 | (simp only [leaves_mark]; (first | with_reducible refine leaves_mk ?_ ?_ ?_ ?_ ?_ ?_ ?_ ?_ ?_ ?_ ?_ ?_ ?_ ?_ ?_ ?_ ?_ ?_ ?_ ?_ ?_ ?_ ?_ ?_ ?_ ?_ ?_ ?_ ?_ ?_ ?_ ?_ | with_reducible refine leaves_mk' ?_ ?_ ?_ ?_ ?_ ?_ ?_ ?_ ?_ ?_ ?_ ?_ ?_ ?_ ?_ ?_ ?_ ?_ ?_ ?_ ?_ ?_ ?_ ?_ ?_ ?_ ?_ ?_ ?_ ?_ ?_ ?_); rotate_left; iterate 31 (first | exact fun hu => unitsIn_absurd hs hu rfl | exact fun _ => rfl)))

theorem leaves_setRing {us : List DevUnit} {a d : Dev} (h : Leaves us a d) (x1 : Nat) (x2 : Ring) (hs : unitsIn
    [.host] us = true := by refine unitsIn_trans ?_ ‹unitsIn _ _ = true›; decide) : Leaves us a (setRing d x1 x2) := by
  unfold setRing
  try dsimp only
  repeat' (first | with_reducible assumption | (with_reducible refine unitsIn_trans ?_ hs; decide) | (simp only [leaves_mark]; (first | with_reducible refine leaves_mk ?_ ?_ ?_ ?_ ?_ ?_ ?_ ?_ ?_ ?_ ?_ ?_ ?_ ?_ ?_ ?_ ?_ ?_ ?_ ?_ ?_ ?_ ?_ ?_ ?_ ?_ ?_ ?_ ?_ ?_ ?_ ?_ | with_reducible refine leaves_mk' ?_ ?_ ?_ ?_ ?_ ?_ ?_ ?_ ?_ ?_ ?_ ?_ ?_ ?_ ?_ ?_ ?_ ?_ ?_ ?_ ?_ ?_ ?_ ?_ ?_ ?_ ?_ ?_ ?_ ?_ ?_ ?_); rotate_left; iterate 31 (first | exact fun hu => unitsIn_absurd hs hu rfl | exact fun _ => rfl)))

theorem leaves_fireMsix {us : List DevUnit} {a d : Dev} (h : Leaves us a d) (x1 : Nat) (hs : unitsIn [.out, .host] us
    = true := by refine unitsIn_trans ?_ ‹unitsIn _ _ = true›; decide) : Leaves us a (fireMsix d x1) := by
  unfold fireMsix
  try dsimp only
  repeat' (first | with_reducible assumption | (with_reducible refine unitsIn_trans ?_ hs; decide) | with_reducible apply leaves_setRing | with_reducible apply leaves_emit | with_reducible apply leaves_ite | split | (simp only [leaves_mark]; (first | with_reducible refine leaves_mk ?_ ?_ ?_ ?_ ?_ ?_ ?_ ?_ ?_ ?_ ?_ ?_ ?_ ?_ ?_ ?_ ?_ ?_ ?_ ?_ ?_ ?_ ?_ ?_ ?_ ?_ ?_ ?_ ?_ ?_ ?_ ?_ | with_reducible refine leaves_mk' ?_ ?_ ?_ ?_ ?_ ?_ ?_ ?_ ?_ ?_ ?_ ?_ ?_ ?_ ?_ ?_ ?_ ?_ ?_ ?_ ?_ ?_ ?_ ?_ ?_ ?_ ?_ ?_ ?_ ?_ ?_ ?_); rotate_left; iterate 31 (first | exact fun hu => unitsIn_absurd hs hu rfl | exact fun _ => rfl)))

theorem leaves_advanceRing {us : List DevUnit} {a d : Dev} (h : Leaves us a d) (x1 : Nat) (x2 : Nat) (hs : unitsIn
    [.out, .host] us = true := by refine unitsIn_trans ?_ ‹unitsIn _ _ = true›; decide) : Leaves us a (advanceRing d
    x1 x2) := by
  unfold advanceRing
  try dsimp only
  repeat' (first | with_reducible assumption | (with_reducible refine unitsIn_trans ?_ hs; decide) | with_reducible apply leaves_fireMsix | with_reducible apply leaves_emit | with_reducible apply leaves_setRing | with_reducible apply leaves_ite | split | (simp only [leaves_mark]; (first | with_reducible refine leaves_mk ?_ ?_ ?_ ?_ ?_ ?_ ?_ ?_ ?_ ?_ ?_ ?_ ?_ ?_ ?_ ?_ ?_ ?_ ?_ ?_ ?_ ?_ ?_ ?_ ?_ ?_ ?_ ?_ ?_ ?_ ?_ ?_ | with_reducible refine leaves_mk' ?_ ?_ ?_ ?_ ?_ ?_ ?_ ?_ ?_ ?_ ?_ ?_ ?_ ?_ ?_ ?_ ?_ ?_ ?_ ?_ ?_ ?_ ?_ ?_ ?_ ?_ ?_ ?_ ?_ ?_ ?_ ?_); rotate_left; iterate 31 (first | exact fun hu => unitsIn_absurd hs hu rfl | exact fun _ => rfl)))

theorem leaves_modQl {us : List DevUnit} {a d : Dev} (h : Leaves us a d) (x1 : Nat) (x2 : QlPort → QlPort) (hs :
    unitsIn [.links] us = true := by refine unitsIn_trans ?_ ‹unitsIn _ _ = true›; decide) : Leaves us a (modQl d x1
    x2) := by
  unfold modQl
  try dsimp only
  repeat' (first | with_reducible assumption | (with_reducible refine unitsIn_trans ?_ hs; decide) | (simp only [leaves_mark]; (first | with_reducible refine leaves_mk ?_ ?_ ?_ ?_ ?_ ?_ ?_ ?_ ?_ ?_ ?_ ?_ ?_ ?_ ?_ ?_ ?_ ?_ ?_ ?_ ?_ ?_ ?_ ?_ ?_ ?_ ?_ ?_ ?_ ?_ ?_ ?_ | with_reducible refine leaves_mk' ?_ ?_ ?_ ?_ ?_ ?_ ?_ ?_ ?_ ?_ ?_ ?_ ?_ ?_ ?_ ?_ ?_ ?_ ?_ ?_ ?_ ?_ ?_ ?_ ?_ ?_ ?_ ?_ ?_ ?_ ?_ ?_); rotate_left; iterate 31 (first | exact fun hu => unitsIn_absurd hs hu rfl | exact fun _ => rfl)))

theorem leaves_queueQl {us : List DevUnit} {a d : Dev} (h : Leaves us a d) (x1 : Nat) (x2 : QlFrame) (hs : unitsIn
    [.links] us = true := by refine unitsIn_trans ?_ ‹unitsIn _ _ = true›; decide) : Leaves us a (queueQl d x1 x2) := by
  unfold queueQl
  try dsimp only
  repeat' (first | with_reducible assumption | (with_reducible refine unitsIn_trans ?_ hs; decide) | with_reducible apply leaves_modQl | (simp only [leaves_mark]; (first | with_reducible refine leaves_mk ?_ ?_ ?_ ?_ ?_ ?_ ?_ ?_ ?_ ?_ ?_ ?_ ?_ ?_ ?_ ?_ ?_ ?_ ?_ ?_ ?_ ?_ ?_ ?_ ?_ ?_ ?_ ?_ ?_ ?_ ?_ ?_ | with_reducible refine leaves_mk' ?_ ?_ ?_ ?_ ?_ ?_ ?_ ?_ ?_ ?_ ?_ ?_ ?_ ?_ ?_ ?_ ?_ ?_ ?_ ?_ ?_ ?_ ?_ ?_ ?_ ?_ ?_ ?_ ?_ ?_ ?_ ?_); rotate_left; iterate 31 (first | exact fun hu => unitsIn_absurd hs hu rfl | exact fun _ => rfl)))

theorem leaves_sendQl {us : List DevUnit} {a d : Dev} (h : Leaves us a d) (x1 : QlFrame) (hs : unitsIn [.cnt, .ev,
    .links] us = true := by refine unitsIn_trans ?_ ‹unitsIn _ _ = true›; decide) : Leaves us a (sendQl d x1) := by
  unfold sendQl
  try dsimp only
  repeat' (first | with_reducible assumption | (with_reducible refine unitsIn_trans ?_ hs; decide) | with_reducible apply leaves_bump | with_reducible apply leaves_queueQl | with_reducible apply leaves_ite | split | (simp only [leaves_mark]; (first | with_reducible refine leaves_mk ?_ ?_ ?_ ?_ ?_ ?_ ?_ ?_ ?_ ?_ ?_ ?_ ?_ ?_ ?_ ?_ ?_ ?_ ?_ ?_ ?_ ?_ ?_ ?_ ?_ ?_ ?_ ?_ ?_ ?_ ?_ ?_ | with_reducible refine leaves_mk' ?_ ?_ ?_ ?_ ?_ ?_ ?_ ?_ ?_ ?_ ?_ ?_ ?_ ?_ ?_ ?_ ?_ ?_ ?_ ?_ ?_ ?_ ?_ ?_ ?_ ?_ ?_ ?_ ?_ ?_ ?_ ?_); rotate_left; iterate 31 (first | exact fun hu => unitsIn_absurd hs hu rfl | exact fun _ => rfl)))

theorem leaves_sendHost {us : List DevUnit} {a d : Dev} (h : Leaves us a d) (x1 : Nat) (x2 : Nat) (x3 : Nat) (x4 :
    List Byte) (hs : unitsIn [.cnt, .ev, .links] us = true := by refine unitsIn_trans ?_ ‹unitsIn _ _ = true›; decide)
    : Leaves us a (sendHost d x1 x2 x3 x4) := by
  unfold sendHost
  try dsimp only
  repeat' (first | with_reducible assumption | (with_reducible refine unitsIn_trans ?_ hs; decide) | with_reducible apply leaves_sendQl)

theorem leaves_post {us : List DevUnit} {a d : Dev} (h : Leaves us a d) (x1 : Completion) (hs : unitsIn [.out, .cnt,
    .ev, .host, .links] us = true := by refine unitsIn_trans ?_ ‹unitsIn _ _ = true›; decide) : Leaves us a (post d
    x1) := by
  unfold post
  try dsimp only
  repeat' (first | with_reducible assumption | (with_reducible refine unitsIn_trans ?_ hs; decide) | with_reducible apply leaves_advanceRing | with_reducible apply leaves_emit | with_reducible apply leaves_sendHost | with_reducible apply leaves_ite | split | (simp only [leaves_mark]; (first | with_reducible refine leaves_mk ?_ ?_ ?_ ?_ ?_ ?_ ?_ ?_ ?_ ?_ ?_ ?_ ?_ ?_ ?_ ?_ ?_ ?_ ?_ ?_ ?_ ?_ ?_ ?_ ?_ ?_ ?_ ?_ ?_ ?_ ?_ ?_ | with_reducible refine leaves_mk' ?_ ?_ ?_ ?_ ?_ ?_ ?_ ?_ ?_ ?_ ?_ ?_ ?_ ?_ ?_ ?_ ?_ ?_ ?_ ?_ ?_ ?_ ?_ ?_ ?_ ?_ ?_ ?_ ?_ ?_ ?_ ?_); rotate_left; iterate 31 (first | exact fun hu => unitsIn_absurd hs hu rfl | exact fun _ => rfl)))

theorem leaves_remember {us : List DevUnit} {a d : Dev} (h : Leaves us a d) (x1 : Completion) (hs : unitsIn [.host] us
    = true := by refine unitsIn_trans ?_ ‹unitsIn _ _ = true›; decide) : Leaves us a (remember d x1) := by
  unfold remember
  try dsimp only
  repeat' (first | with_reducible assumption | (with_reducible refine unitsIn_trans ?_ hs; decide) | with_reducible apply leaves_ite | split | (simp only [leaves_mark]; (first | with_reducible refine leaves_mk ?_ ?_ ?_ ?_ ?_ ?_ ?_ ?_ ?_ ?_ ?_ ?_ ?_ ?_ ?_ ?_ ?_ ?_ ?_ ?_ ?_ ?_ ?_ ?_ ?_ ?_ ?_ ?_ ?_ ?_ ?_ ?_ | with_reducible refine leaves_mk' ?_ ?_ ?_ ?_ ?_ ?_ ?_ ?_ ?_ ?_ ?_ ?_ ?_ ?_ ?_ ?_ ?_ ?_ ?_ ?_ ?_ ?_ ?_ ?_ ?_ ?_ ?_ ?_ ?_ ?_ ?_ ?_); rotate_left; iterate 31 (first | exact fun hu => unitsIn_absurd hs hu rfl | exact fun _ => rfl)))

theorem leaves_complete {us : List DevUnit} {a d : Dev} (h : Leaves us a d) (x1 : Cmd) (x2 : Status) (x3 : (List
    Byte)) (hs : unitsIn [.out, .cnt, .ev, .host, .links] us = true :=
    by refine unitsIn_trans ?_ ‹unitsIn _ _ = true›; decide) : Leaves us a (complete d x1 x2 x3) := by
  unfold complete
  try dsimp only
  repeat' (first | with_reducible assumption | (with_reducible refine unitsIn_trans ?_ hs; decide) | with_reducible apply leaves_post | with_reducible apply leaves_remember | (simp only [leaves_mark]; (first | with_reducible refine leaves_mk ?_ ?_ ?_ ?_ ?_ ?_ ?_ ?_ ?_ ?_ ?_ ?_ ?_ ?_ ?_ ?_ ?_ ?_ ?_ ?_ ?_ ?_ ?_ ?_ ?_ ?_ ?_ ?_ ?_ ?_ ?_ ?_ | with_reducible refine leaves_mk' ?_ ?_ ?_ ?_ ?_ ?_ ?_ ?_ ?_ ?_ ?_ ?_ ?_ ?_ ?_ ?_ ?_ ?_ ?_ ?_ ?_ ?_ ?_ ?_ ?_ ?_ ?_ ?_ ?_ ?_ ?_ ?_); rotate_left; iterate 31 (first | exact fun hu => unitsIn_absurd hs hu rfl | exact fun _ => rfl)))

theorem leaves_modEth {us : List DevUnit} {a d : Dev} (h : Leaves us a d) (x1 : Nat) (x2 : EthPort → EthPort) (hs :
    unitsIn [.links] us = true := by refine unitsIn_trans ?_ ‹unitsIn _ _ = true›; decide) : Leaves us a (modEth d x1
    x2) := by
  unfold modEth
  try dsimp only
  repeat' (first | with_reducible assumption | (with_reducible refine unitsIn_trans ?_ hs; decide) | (simp only [leaves_mark]; (first | with_reducible refine leaves_mk ?_ ?_ ?_ ?_ ?_ ?_ ?_ ?_ ?_ ?_ ?_ ?_ ?_ ?_ ?_ ?_ ?_ ?_ ?_ ?_ ?_ ?_ ?_ ?_ ?_ ?_ ?_ ?_ ?_ ?_ ?_ ?_ | with_reducible refine leaves_mk' ?_ ?_ ?_ ?_ ?_ ?_ ?_ ?_ ?_ ?_ ?_ ?_ ?_ ?_ ?_ ?_ ?_ ?_ ?_ ?_ ?_ ?_ ?_ ?_ ?_ ?_ ?_ ?_ ?_ ?_ ?_ ?_); rotate_left; iterate 31 (first | exact fun hu => unitsIn_absurd hs hu rfl | exact fun _ => rfl)))

theorem leaves_logEntry {us : List DevUnit} {a d : Dev} (h : Leaves us a d) (x1 : VioEntry) (hs : unitsIn [.cnt, .vio,
    .ev] us = true := by refine unitsIn_trans ?_ ‹unitsIn _ _ = true›; decide) : Leaves us a (logEntry d x1) := by
  unfold logEntry
  try dsimp only
  repeat' (first | with_reducible assumption | (with_reducible refine unitsIn_trans ?_ hs; decide) | with_reducible apply leaves_raise | with_reducible apply leaves_ite | split | (simp only [leaves_mark]; (first | with_reducible refine leaves_mk ?_ ?_ ?_ ?_ ?_ ?_ ?_ ?_ ?_ ?_ ?_ ?_ ?_ ?_ ?_ ?_ ?_ ?_ ?_ ?_ ?_ ?_ ?_ ?_ ?_ ?_ ?_ ?_ ?_ ?_ ?_ ?_ | with_reducible refine leaves_mk' ?_ ?_ ?_ ?_ ?_ ?_ ?_ ?_ ?_ ?_ ?_ ?_ ?_ ?_ ?_ ?_ ?_ ?_ ?_ ?_ ?_ ?_ ?_ ?_ ?_ ?_ ?_ ?_ ?_ ?_ ?_ ?_); rotate_left; iterate 31 (first | exact fun hu => unitsIn_absurd hs hu rfl | exact fun _ => rfl)))

theorem leaves_violate {us : List DevUnit} {a d : Dev} (h : Leaves us a d) (x1 : Vio) (x2 : List Byte) (hs : unitsIn
    [.cnt, .vio, .ev] us = true := by refine unitsIn_trans ?_ ‹unitsIn _ _ = true›; decide) : Leaves us a (violate d
    x1 x2) := by
  unfold violate
  try dsimp only
  repeat' (first | with_reducible assumption | (with_reducible refine unitsIn_trans ?_ hs; decide) | with_reducible apply leaves_bump | with_reducible apply leaves_logEntry | with_reducible apply leaves_ite | split | (simp only [leaves_mark]; (first | with_reducible refine leaves_mk ?_ ?_ ?_ ?_ ?_ ?_ ?_ ?_ ?_ ?_ ?_ ?_ ?_ ?_ ?_ ?_ ?_ ?_ ?_ ?_ ?_ ?_ ?_ ?_ ?_ ?_ ?_ ?_ ?_ ?_ ?_ ?_ | with_reducible refine leaves_mk' ?_ ?_ ?_ ?_ ?_ ?_ ?_ ?_ ?_ ?_ ?_ ?_ ?_ ?_ ?_ ?_ ?_ ?_ ?_ ?_ ?_ ?_ ?_ ?_ ?_ ?_ ?_ ?_ ?_ ?_ ?_ ?_); rotate_left; iterate 31 (first | exact fun hu => unitsIn_absurd hs hu rfl | exact fun _ => rfl)))

theorem leaves_setPipe {us : List DevUnit} {a d : Dev} (h : Leaves us a d) (x1 : Nat) (x2 : PipeSt) (hs : unitsIn
    [.pipe] us = true := by refine unitsIn_trans ?_ ‹unitsIn _ _ = true›; decide) : Leaves us a (setPipe d x1 x2) := by
  unfold setPipe
  try dsimp only
  repeat' (first | with_reducible assumption | (with_reducible refine unitsIn_trans ?_ hs; decide) | (simp only [leaves_mark]; (first | with_reducible refine leaves_mk ?_ ?_ ?_ ?_ ?_ ?_ ?_ ?_ ?_ ?_ ?_ ?_ ?_ ?_ ?_ ?_ ?_ ?_ ?_ ?_ ?_ ?_ ?_ ?_ ?_ ?_ ?_ ?_ ?_ ?_ ?_ ?_ | with_reducible refine leaves_mk' ?_ ?_ ?_ ?_ ?_ ?_ ?_ ?_ ?_ ?_ ?_ ?_ ?_ ?_ ?_ ?_ ?_ ?_ ?_ ?_ ?_ ?_ ?_ ?_ ?_ ?_ ?_ ?_ ?_ ?_ ?_ ?_); rotate_left; iterate 31 (first | exact fun hu => unitsIn_absurd hs hu rfl | exact fun _ => rfl)))

theorem leaves_writeBack {us : List DevUnit} {a d : Dev} (h : Leaves us a d) (x1 : Nat) (x2 : Nat) (x3 : Status) (hs :
    unitsIn [.out, .host] us = true := by refine unitsIn_trans ?_ ‹unitsIn _ _ = true›; decide) : Leaves us a
    (writeBack d x1 x2 x3) := by
  unfold writeBack
  try dsimp only
  repeat' (first | with_reducible assumption | (with_reducible refine unitsIn_trans ?_ hs; decide) | with_reducible apply leaves_advanceRing | (simp only [leaves_mark]; (first | with_reducible refine leaves_mk ?_ ?_ ?_ ?_ ?_ ?_ ?_ ?_ ?_ ?_ ?_ ?_ ?_ ?_ ?_ ?_ ?_ ?_ ?_ ?_ ?_ ?_ ?_ ?_ ?_ ?_ ?_ ?_ ?_ ?_ ?_ ?_ | with_reducible refine leaves_mk' ?_ ?_ ?_ ?_ ?_ ?_ ?_ ?_ ?_ ?_ ?_ ?_ ?_ ?_ ?_ ?_ ?_ ?_ ?_ ?_ ?_ ?_ ?_ ?_ ?_ ?_ ?_ ?_ ?_ ?_ ?_ ?_); rotate_left; iterate 31 (first | exact fun hu => unitsIn_absurd hs hu rfl | exact fun _ => rfl)))

theorem leaves_modKey {us : List DevUnit} {a d : Dev} (h : Leaves us a d) (x1 : Nat) (x2 : KeySlot → KeySlot) (hs :
    unitsIn [.sec] us = true := by refine unitsIn_trans ?_ ‹unitsIn _ _ = true›; decide) : Leaves us a (modKey d x1
    x2) := by
  unfold modKey
  try dsimp only
  repeat' (first | with_reducible assumption | (with_reducible refine unitsIn_trans ?_ hs; decide) | (simp only [leaves_mark]; (first | with_reducible refine leaves_mk ?_ ?_ ?_ ?_ ?_ ?_ ?_ ?_ ?_ ?_ ?_ ?_ ?_ ?_ ?_ ?_ ?_ ?_ ?_ ?_ ?_ ?_ ?_ ?_ ?_ ?_ ?_ ?_ ?_ ?_ ?_ ?_ | with_reducible refine leaves_mk' ?_ ?_ ?_ ?_ ?_ ?_ ?_ ?_ ?_ ?_ ?_ ?_ ?_ ?_ ?_ ?_ ?_ ?_ ?_ ?_ ?_ ?_ ?_ ?_ ?_ ?_ ?_ ?_ ?_ ?_ ?_ ?_); rotate_left; iterate 31 (first | exact fun hu => unitsIn_absurd hs hu rfl | exact fun _ => rfl)))

theorem leaves_completeStaged {us : List DevUnit} {a d : Dev} (h : Leaves us a d) (x1 : Cmd) (x2 : Status) (x3 : (List
    Byte)) (hs : unitsIn [.stg] us = true := by refine unitsIn_trans ?_ ‹unitsIn _ _ = true›; decide) : Leaves us a
    (completeStaged d x1 x2 x3) := by
  unfold completeStaged
  try dsimp only
  repeat' (first | with_reducible assumption | (with_reducible refine unitsIn_trans ?_ hs; decide) | (simp only [leaves_mark]; (first | with_reducible refine leaves_mk ?_ ?_ ?_ ?_ ?_ ?_ ?_ ?_ ?_ ?_ ?_ ?_ ?_ ?_ ?_ ?_ ?_ ?_ ?_ ?_ ?_ ?_ ?_ ?_ ?_ ?_ ?_ ?_ ?_ ?_ ?_ ?_ | with_reducible refine leaves_mk' ?_ ?_ ?_ ?_ ?_ ?_ ?_ ?_ ?_ ?_ ?_ ?_ ?_ ?_ ?_ ?_ ?_ ?_ ?_ ?_ ?_ ?_ ?_ ?_ ?_ ?_ ?_ ?_ ?_ ?_ ?_ ?_); rotate_left; iterate 31 (first | exact fun hu => unitsIn_absurd hs hu rfl | exact fun _ => rfl)))

theorem leaves_setSeq {us : List DevUnit} {a d : Dev} (h : Leaves us a d) (x1 : Nat) (x2 : Seq) (hs : unitsIn [.seqs]
    us = true := by refine unitsIn_trans ?_ ‹unitsIn _ _ = true›; decide) : Leaves us a (setSeq d x1 x2) := by
  unfold setSeq
  try dsimp only
  repeat' (first | with_reducible assumption | (with_reducible refine unitsIn_trans ?_ hs; decide) | (simp only [leaves_mark]; (first | with_reducible refine leaves_mk ?_ ?_ ?_ ?_ ?_ ?_ ?_ ?_ ?_ ?_ ?_ ?_ ?_ ?_ ?_ ?_ ?_ ?_ ?_ ?_ ?_ ?_ ?_ ?_ ?_ ?_ ?_ ?_ ?_ ?_ ?_ ?_ | with_reducible refine leaves_mk' ?_ ?_ ?_ ?_ ?_ ?_ ?_ ?_ ?_ ?_ ?_ ?_ ?_ ?_ ?_ ?_ ?_ ?_ ?_ ?_ ?_ ?_ ?_ ?_ ?_ ?_ ?_ ?_ ?_ ?_ ?_ ?_); rotate_left; iterate 31 (first | exact fun hu => unitsIn_absurd hs hu rfl | exact fun _ => rfl)))

theorem leaves_modSeq {us : List DevUnit} {a d : Dev} (h : Leaves us a d) (x1 : Nat) (x2 : Seq → Seq) (hs : unitsIn
    [.seqs] us = true := by refine unitsIn_trans ?_ ‹unitsIn _ _ = true›; decide) : Leaves us a (modSeq d x1 x2) := by
  unfold modSeq
  try dsimp only
  repeat' (first | with_reducible assumption | (with_reducible refine unitsIn_trans ?_ hs; decide) | with_reducible apply leaves_setSeq | (simp only [leaves_mark]; (first | with_reducible refine leaves_mk ?_ ?_ ?_ ?_ ?_ ?_ ?_ ?_ ?_ ?_ ?_ ?_ ?_ ?_ ?_ ?_ ?_ ?_ ?_ ?_ ?_ ?_ ?_ ?_ ?_ ?_ ?_ ?_ ?_ ?_ ?_ ?_ | with_reducible refine leaves_mk' ?_ ?_ ?_ ?_ ?_ ?_ ?_ ?_ ?_ ?_ ?_ ?_ ?_ ?_ ?_ ?_ ?_ ?_ ?_ ?_ ?_ ?_ ?_ ?_ ?_ ?_ ?_ ?_ ?_ ?_ ?_ ?_); rotate_left; iterate 31 (first | exact fun hu => unitsIn_absurd hs hu rfl | exact fun _ => rfl)))

theorem leaves_alertFrom {us : List DevUnit} {a d : Dev} (h : Leaves us a d) (x1 : Bool) (hs : unitsIn [.out] us =
    true := by refine unitsIn_trans ?_ ‹unitsIn _ _ = true›; decide) : Leaves us a (alertFrom d x1) := by
  unfold alertFrom
  try dsimp only
  repeat' (first | with_reducible assumption | (with_reducible refine unitsIn_trans ?_ hs; decide) | with_reducible apply leaves_emit | with_reducible apply leaves_ite | split)

theorem leaves_refuseCmd {us : List DevUnit} {a d : Dev} (h : Leaves us a d) (x1 : Cmd) (x2 : Status) (hs : unitsIn
    [.out, .cnt, .ev, .host, .links] us = true := by refine unitsIn_trans ?_ ‹unitsIn _ _ = true›; decide) : Leaves us
    a (refuseCmd d x1 x2) := by
  unfold refuseCmd
  try dsimp only
  repeat' (first | with_reducible assumption | (with_reducible refine unitsIn_trans ?_ hs; decide) | with_reducible apply leaves_post)

theorem leaves_fetchCmd {us : List DevUnit} {a d : Dev} (h : Leaves us a d) (x1 : CmdPath) (hs : unitsIn [.out, .host]
    us = true := by refine unitsIn_trans ?_ ‹unitsIn _ _ = true›; decide) : Leaves us a (fetchCmd d x1) := by
  unfold fetchCmd
  try dsimp only
  repeat' (first | with_reducible assumption | (with_reducible refine unitsIn_trans ?_ hs; decide) | with_reducible apply leaves_advanceRing | with_reducible apply leaves_ite | split)

theorem leaves_recallCpl {us : List DevUnit} {a d : Dev} (h : Leaves us a d) (x1 : Cmd) (hs : unitsIn [.host] us =
    true := by refine unitsIn_trans ?_ ‹unitsIn _ _ = true›; decide) : Leaves us a (recallCpl d x1) := by
  unfold recallCpl
  try dsimp only
  repeat' (first | with_reducible assumption | (with_reducible refine unitsIn_trans ?_ hs; decide) | with_reducible apply leaves_ite | split | (simp only [leaves_mark]; (first | with_reducible refine leaves_mk ?_ ?_ ?_ ?_ ?_ ?_ ?_ ?_ ?_ ?_ ?_ ?_ ?_ ?_ ?_ ?_ ?_ ?_ ?_ ?_ ?_ ?_ ?_ ?_ ?_ ?_ ?_ ?_ ?_ ?_ ?_ ?_ | with_reducible refine leaves_mk' ?_ ?_ ?_ ?_ ?_ ?_ ?_ ?_ ?_ ?_ ?_ ?_ ?_ ?_ ?_ ?_ ?_ ?_ ?_ ?_ ?_ ?_ ?_ ?_ ?_ ?_ ?_ ?_ ?_ ?_ ?_ ?_); rotate_left; iterate 31 (first | exact fun hu => unitsIn_absurd hs hu rfl | exact fun _ => rfl)))

theorem leaves_forward {us : List DevUnit} {a d : Dev} (h : Leaves us a d) (x1 : Cmd) (hs : unitsIn [.cnt, .ev, .host,
    .links] us = true := by refine unitsIn_trans ?_ ‹unitsIn _ _ = true›; decide) : Leaves us a (forward d x1) := by
  unfold forward
  try dsimp only
  repeat' (first | with_reducible assumption | (with_reducible refine unitsIn_trans ?_ hs; decide) | with_reducible apply leaves_sendHost | (simp only [leaves_mark]; (first | with_reducible refine leaves_mk ?_ ?_ ?_ ?_ ?_ ?_ ?_ ?_ ?_ ?_ ?_ ?_ ?_ ?_ ?_ ?_ ?_ ?_ ?_ ?_ ?_ ?_ ?_ ?_ ?_ ?_ ?_ ?_ ?_ ?_ ?_ ?_ | with_reducible refine leaves_mk' ?_ ?_ ?_ ?_ ?_ ?_ ?_ ?_ ?_ ?_ ?_ ?_ ?_ ?_ ?_ ?_ ?_ ?_ ?_ ?_ ?_ ?_ ?_ ?_ ?_ ?_ ?_ ?_ ?_ ?_ ?_ ?_); rotate_left; iterate 31 (first | exact fun hu => unitsIn_absurd hs hu rfl | exact fun _ => rfl)))

theorem leaves_command {us : List DevUnit} {a d : Dev} (h : Leaves us a d) (x1 : Cmd) (x2 : Dev → Dev) (hx2 : ∀ y,
    Leaves us a y → Leaves us a (x2 y)) (hs : unitsIn [.out, .cnt, .ev, .host, .links] us = true :=
    by refine unitsIn_trans ?_ ‹unitsIn _ _ = true›; decide) : Leaves us a (command d x1 x2) := by
  unfold command
  try dsimp only
  repeat' (first | with_reducible assumption | (with_reducible refine unitsIn_trans ?_ hs; decide) | with_reducible apply leaves_fetchCmd | with_reducible apply leaves_refuseCmd | with_reducible apply leaves_post | with_reducible apply leaves_bump | with_reducible apply leaves_recallCpl | with_reducible apply leaves_complete | with_reducible apply leaves_forward | with_reducible apply hx2 | with_reducible apply leaves_ite | split | (simp only [leaves_mark]; (first | with_reducible refine leaves_mk ?_ ?_ ?_ ?_ ?_ ?_ ?_ ?_ ?_ ?_ ?_ ?_ ?_ ?_ ?_ ?_ ?_ ?_ ?_ ?_ ?_ ?_ ?_ ?_ ?_ ?_ ?_ ?_ ?_ ?_ ?_ ?_ | with_reducible refine leaves_mk' ?_ ?_ ?_ ?_ ?_ ?_ ?_ ?_ ?_ ?_ ?_ ?_ ?_ ?_ ?_ ?_ ?_ ?_ ?_ ?_ ?_ ?_ ?_ ?_ ?_ ?_ ?_ ?_ ?_ ?_ ?_ ?_); rotate_left; iterate 31 (first | exact fun hu => unitsIn_absurd hs hu rfl | exact fun _ => rfl)))

theorem leaves_stageCmd {us : List DevUnit} {a d : Dev} (h : Leaves us a d) (x1 : Cmd) (x2 : Option Nat) (hs : unitsIn
    [.stg] us = true := by refine unitsIn_trans ?_ ‹unitsIn _ _ = true›; decide) : Leaves us a (stageCmd d x1 x2) := by
  unfold stageCmd
  try dsimp only
  repeat' (first | with_reducible assumption | (with_reducible refine unitsIn_trans ?_ hs; decide) | (simp only [leaves_mark]; (first | with_reducible refine leaves_mk ?_ ?_ ?_ ?_ ?_ ?_ ?_ ?_ ?_ ?_ ?_ ?_ ?_ ?_ ?_ ?_ ?_ ?_ ?_ ?_ ?_ ?_ ?_ ?_ ?_ ?_ ?_ ?_ ?_ ?_ ?_ ?_ | with_reducible refine leaves_mk' ?_ ?_ ?_ ?_ ?_ ?_ ?_ ?_ ?_ ?_ ?_ ?_ ?_ ?_ ?_ ?_ ?_ ?_ ?_ ?_ ?_ ?_ ?_ ?_ ?_ ?_ ?_ ?_ ?_ ?_ ?_ ?_); rotate_left; iterate 31 (first | exact fun hu => unitsIn_absurd hs hu rfl | exact fun _ => rfl)))

theorem leaves_holdCmd {us : List DevUnit} {a d : Dev} (h : Leaves us a d) (x1 : Cmd) (hs : unitsIn [.host] us = true
    := by refine unitsIn_trans ?_ ‹unitsIn _ _ = true›; decide) : Leaves us a (holdCmd d x1) := by
  unfold holdCmd
  try dsimp only
  repeat' (first | with_reducible assumption | (with_reducible refine unitsIn_trans ?_ hs; decide) | (simp only [leaves_mark]; (first | with_reducible refine leaves_mk ?_ ?_ ?_ ?_ ?_ ?_ ?_ ?_ ?_ ?_ ?_ ?_ ?_ ?_ ?_ ?_ ?_ ?_ ?_ ?_ ?_ ?_ ?_ ?_ ?_ ?_ ?_ ?_ ?_ ?_ ?_ ?_ | with_reducible refine leaves_mk' ?_ ?_ ?_ ?_ ?_ ?_ ?_ ?_ ?_ ?_ ?_ ?_ ?_ ?_ ?_ ?_ ?_ ?_ ?_ ?_ ?_ ?_ ?_ ?_ ?_ ?_ ?_ ?_ ?_ ?_ ?_ ?_); rotate_left; iterate 31 (first | exact fun hu => unitsIn_absurd hs hu rfl | exact fun _ => rfl)))

theorem leaves_finish {us : List DevUnit} {a d : Dev} (h : Leaves us a d) (x1 : Completion) (hs : unitsIn [.out, .cnt,
    .ev, .host, .links] us = true := by refine unitsIn_trans ?_ ‹unitsIn _ _ = true›; decide) : Leaves us a (finish d
    x1) := by
  unfold finish
  try dsimp only
  repeat' (first | with_reducible assumption | (with_reducible refine unitsIn_trans ?_ hs; decide) | with_reducible apply leaves_post | with_reducible apply leaves_remember | (simp only [leaves_mark]; (first | with_reducible refine leaves_mk ?_ ?_ ?_ ?_ ?_ ?_ ?_ ?_ ?_ ?_ ?_ ?_ ?_ ?_ ?_ ?_ ?_ ?_ ?_ ?_ ?_ ?_ ?_ ?_ ?_ ?_ ?_ ?_ ?_ ?_ ?_ ?_ | with_reducible refine leaves_mk' ?_ ?_ ?_ ?_ ?_ ?_ ?_ ?_ ?_ ?_ ?_ ?_ ?_ ?_ ?_ ?_ ?_ ?_ ?_ ?_ ?_ ?_ ?_ ?_ ?_ ?_ ?_ ?_ ?_ ?_ ?_ ?_); rotate_left; iterate 31 (first | exact fun hu => unitsIn_absurd hs hu rfl | exact fun _ => rfl)))

theorem leaves_forgetCmds {us : List DevUnit} {a d : Dev} (h : Leaves us a d) (hs : unitsIn [.host] us = true :=
    by refine unitsIn_trans ?_ ‹unitsIn _ _ = true›; decide) : Leaves us a (forgetCmds d) := by
  unfold forgetCmds
  try dsimp only
  repeat' (first | with_reducible assumption | (with_reducible refine unitsIn_trans ?_ hs; decide) | intro _ | with_reducible apply leaves_foldl | with_reducible apply leaves_ite | split | (simp only [leaves_mark]; (first | with_reducible refine leaves_mk ?_ ?_ ?_ ?_ ?_ ?_ ?_ ?_ ?_ ?_ ?_ ?_ ?_ ?_ ?_ ?_ ?_ ?_ ?_ ?_ ?_ ?_ ?_ ?_ ?_ ?_ ?_ ?_ ?_ ?_ ?_ ?_ | with_reducible refine leaves_mk' ?_ ?_ ?_ ?_ ?_ ?_ ?_ ?_ ?_ ?_ ?_ ?_ ?_ ?_ ?_ ?_ ?_ ?_ ?_ ?_ ?_ ?_ ?_ ?_ ?_ ?_ ?_ ?_ ?_ ?_ ?_ ?_); rotate_left; iterate 31 (first | exact fun hu => unitsIn_absurd hs hu rfl | exact fun _ => rfl)))

end Dev

end Sys2Proof.Machine
end

