-- ==== Sys2Proof/Laws/Run.lean ====
section
/-! SUPPORT. Running a meaning from the fresh state, what the fresh state holds, and agreement of states unit by unit. -/

-- One proof at a time: the package compiles as one text, and proofs elaborated side by side each take a thread's stack.
set_option Elab.async false

namespace Sys2Proof.Machine

/-- A meaning is a change of the units from the fresh state; the waiting commands stay. -/
theorem State.run_goes (s : State) (f : Dev → Dev) : s.run f = .next (s.goes (f s.fresh)) := rfl
@[simp] theorem State.goes_dev (s : State) (d : Dev) : (s.goes d).dev = d := rfl
@[simp] theorem State.goes_pending (s : State) (d : Dev) : (s.goes d).pending = s.pending := rfl
@[simp] theorem State.fresh_out (s : State) : s.fresh.out = [] := rfl
@[simp] theorem State.fresh_freeCtr (s : State) : s.fresh.freeCtr = s.dev.freeCtr := rfl
@[simp] theorem State.fresh_modes (s : State) : s.fresh.modes = s.dev.modes := rfl
@[simp] theorem State.fresh_epoch (s : State) : s.fresh.epoch = s.dev.epoch := rfl
@[simp] theorem State.fresh_cfg (s : State) : s.fresh.cfg = s.dev.cfg := rfl
@[simp] theorem State.fresh_stg (s : State) : s.fresh.stg = s.dev.stg := rfl
@[simp] theorem State.fresh_snap (s : State) : s.fresh.snap = s.dev.snap := rfl
@[simp] theorem State.fresh_cnt (s : State) : s.fresh.cnt = s.dev.cnt := rfl
@[simp] theorem State.fresh_vio (s : State) : s.fresh.vio = s.dev.vio := rfl
@[simp] theorem State.fresh_ev (s : State) : s.fresh.ev = s.dev.ev := rfl
@[simp] theorem State.fresh_flt (s : State) : s.fresh.flt = s.dev.flt := rfl
@[simp] theorem State.fresh_host (s : State) : s.fresh.host = s.dev.host := rfl
@[simp] theorem State.fresh_disp (s : State) : s.fresh.disp = s.dev.disp := rfl
@[simp] theorem State.fresh_ports (s : State) : s.fresh.ports = s.dev.ports := rfl
@[simp] theorem State.fresh_cin (s : State) : s.fresh.cin = s.dev.cin := rfl
@[simp] theorem State.fresh_lanes (s : State) : s.fresh.lanes = s.dev.lanes := rfl
@[simp] theorem State.fresh_txc (s : State) : s.fresh.txc = s.dev.txc := rfl
@[simp] theorem State.fresh_duty (s : State) : s.fresh.duty = s.dev.duty := rfl
@[simp] theorem State.fresh_air (s : State) : s.fresh.air = s.dev.air := rfl
@[simp] theorem State.fresh_seqs (s : State) : s.fresh.seqs = s.dev.seqs := rfl
@[simp] theorem State.fresh_vat (s : State) : s.fresh.vat = s.dev.vat := rfl
@[simp] theorem State.fresh_tbl (s : State) : s.fresh.tbl = s.dev.tbl := rfl
@[simp] theorem State.fresh_pipe (s : State) : s.fresh.pipe = s.dev.pipe := rfl
@[simp] theorem State.fresh_tm (s : State) : s.fresh.tm = s.dev.tm := rfl
@[simp] theorem State.fresh_time (s : State) : s.fresh.time = s.dev.time := rfl
@[simp] theorem State.fresh_otp (s : State) : s.fresh.otp = s.dev.otp := rfl
@[simp] theorem State.fresh_ks0 (s : State) : s.fresh.ks0 = s.dev.ks0 := rfl
@[simp] theorem State.fresh_ks1 (s : State) : s.fresh.ks1 = s.dev.ks1 := rfl
@[simp] theorem State.fresh_pair (s : State) : s.fresh.pair = s.dev.pair := rfl
@[simp] theorem State.fresh_elec (s : State) : s.fresh.elec = s.dev.elec := rfl
@[simp] theorem State.fresh_sec (s : State) : s.fresh.sec = s.dev.sec := rfl
@[simp] theorem State.fresh_links (s : State) : s.fresh.links = s.dev.links := rfl
@[simp] theorem State.fresh_port (s : State) (i : Nat) : s.fresh.port i = s.dev.port i := rfl
@[simp] theorem State.fresh_lane (s : State) (i : Nat) : s.fresh.lane i = s.dev.lane i := rfl
@[simp] theorem State.fresh_carrier (s : State) (i : Nat) : s.fresh.carrier i = s.dev.carrier i := rfl
@[simp] theorem State.fresh_seq (s : State) (i : Nat) : s.fresh.seq i = s.dev.seq i := rfl
@[simp] theorem State.fresh_pan (s : State) (i : Nat) : s.fresh.pan i = s.dev.pan i := rfl
@[simp] theorem State.fresh_ring (s : State) (i : Nat) : s.fresh.ring i = s.dev.ring i := rfl
@[simp] theorem State.fresh_shared (s : State) (i : Nat) : s.fresh.shared i = s.dev.shared i := rfl
@[simp] theorem State.fresh_qlp (s : State) (i : Nat) : s.fresh.qlp i = s.dev.qlp i := rfl
@[simp] theorem State.fresh_eth (s : State) (i : Nat) : s.fresh.eth i = s.dev.eth i := rfl
@[simp] theorem State.fresh_key (s : State) (i : Nat) : s.fresh.key i = s.dev.key i := rfl
@[simp] theorem State.fresh_queue (s : State) (i : Nat) : s.fresh.queue i = s.dev.queue i := rfl
@[simp] theorem State.fresh_pipeSt (s : State) (i : Nat) : s.fresh.pipeSt i = s.dev.pipeSt i := rfl
@[simp] theorem State.fresh_count (s : State) (c : Counter) : s.fresh.count c = s.dev.count c := rfl
@[simp] theorem State.fresh_ringOn (s : State) (i : Nat) : s.fresh.ringOn i = s.dev.ringOn i := rfl
@[simp] theorem State.fresh_ringSize (s : State) (i : Nat) : s.fresh.ringSize i = s.dev.ringSize i := rfl
@[simp] theorem State.fresh_ringUsed (s : State) (i : Nat) : s.fresh.ringUsed i = s.dev.ringUsed i := rfl
@[simp] theorem State.fresh_reserved (s : State) : s.fresh.reserved = s.dev.reserved := rfl
@[simp] theorem State.fresh_cmdRoom (s : State) : s.fresh.cmdRoom = s.dev.cmdRoom := rfl
@[simp] theorem State.fresh_deaf (s : State) : s.fresh.deaf = s.dev.deaf := rfl
@[simp] theorem State.fresh_heldReset (s : State) : s.fresh.heldReset = s.dev.heldReset := rfl
@[simp] theorem State.fresh_modePath (s : State) : s.fresh.modePath = s.dev.modePath := rfl
@[simp] theorem State.fresh_runs (s : State) : s.fresh.runs = s.dev.runs := rfl
@[simp] theorem State.fresh_follower (s : State) : s.fresh.follower = s.dev.follower := rfl
@[simp] theorem State.fresh_now (s : State) : s.fresh.now = s.dev.now := rfl
@[simp] theorem State.fresh_up (s : State) : s.fresh.up = s.dev.up := rfl
@[simp] theorem State.fresh_tick (s : State) : s.fresh.tick = s.dev.tick := rfl
@[simp] theorem State.fresh_nextNum (s : State) : s.fresh.nextNum = s.dev.nextNum := rfl
@[simp] theorem State.fresh_logOverflowed (s : State) : s.fresh.logOverflowed = s.dev.logOverflowed := rfl

theorem Dev.sameBut_refl (us : List DevUnit) (d : Dev) : d.sameBut us d := fun u _ => Dev.sameUnit_refl u d

theorem Dev.sameBut_trans {us : List DevUnit} {a b c : Dev} (h : a.sameBut us b) (g : b.sameBut us c) : a.sameBut us c :=
  fun u hu => Dev.sameUnit_trans (h u hu) (g u hu)

/-- The fresh state differs from the state in the outputs alone. -/
theorem State.sameBut_fresh {us : List DevUnit} (s : State) (h : us.contains .out = true) : s.dev.sameBut us s.fresh := by
  intro u hu
  cases u <;> first | rfl | (rw [h] at hu; contradiction)

/-- A change of the fresh state that leaves other units alone leaves them alone from the state itself. -/
theorem State.sameBut_of_leaves {us : List DevUnit} {s : State} {d : Dev} (h : us.contains .out = true)
    (g : Dev.Leaves us s.fresh d) : s.dev.sameBut us d :=
  Dev.sameBut_trans (s.sameBut_fresh h) g.same

end Sys2Proof.Machine
end

