-- ==== Sys2Proof/Laws/Claims.lean ====
section
/-! SUPPORT. An accepted command that is answered at once, or staged, does just that. -/

-- One proof at a time: the package compiles as one text, and proofs elaborated side by side each take a thread's stack.
set_option Elab.async false

namespace Sys2Proof.Machine

open Dev

theorem Dev.leaves_taken {us : List DevUnit} {a d : Dev} (h : Leaves us a d) (c : Cmd)
    (hs : unitsIn [.out, .cnt, .ev, .host] us = true) : Leaves us a (d.taken c) :=
  leaves_bump (leaves_fetchCmd h _ (unitsIn_trans (by decide) hs)) _ _ (unitsIn_trans (by decide) hs)

theorem Dev.complete_ring2 (d : Dev) (c : Cmd) (st : Status) (r : List Byte) :
    (d.complete c st r).host.ring2 = d.host.ring2 := by
  simp [complete]

/-- A command that completes at once with a status is answered, and nothing else happens. -/
theorem Dev.replies_complete (s : State) (c : Cmd) (st : Status) (r : List Byte) :
    s.dev.replies c st ((s.fresh.taken c).complete c st r) r := by
  refine ⟨complete_answered .., ?_, ?_⟩
  · rw [complete_ring2]
    simp
  · exact State.sameBut_of_leaves rfl
      (leaves_complete (leaves_taken (Leaves.refl _ _) c (by decide)) _ _ _ (by decide))

/-- A command that is staged waits, unanswered. -/
theorem Dev.stages_stageCmd (s : State) (c : Cmd) (at_ : Option Nat) :
    s.dev.stages c at_ ((s.fresh.taken c).stageCmd c at_) := by
  refine ⟨by simp [stageCmd], ?_, ?_, ?_, ?_⟩
  · simp [stageCmd]
  · simp [stageCmd]
  · simp [stageCmd]
  · exact State.sameBut_of_leaves rfl (leaves_stageCmd (leaves_taken (Leaves.refl _ _) c (by decide)) _ _ (by decide))

end Sys2Proof.Machine
end

