-- ==== Sys2Proof/Laws/Keeps.lean ====
section
/-! SUPPORT. What every operation of the model leaves: one-time-programmable storage only grows, the event staging and the
violation log keep their sizes, and a fatal fault that stands stays. `Dev.Keeps` says it of two states; here are its basic
laws, and the laws of events, counters and violations. -/

-- One proof at a time: the package compiles as one text, and proofs elaborated side by side each take a thread's stack.
set_option Elab.async false
-- The proofs search: each goal uses some of the alternatives.
set_option linter.all false

namespace Sys2Proof.Machine

/-- What one operation keeps of a state: see the head of the file. -/
structure Dev.Keeps (a b : Dev) : Prop where
  otp : a.otp.Grows b.otp
  ev : a.ev.fits → b.ev.fits
  vio : a.vio.fits → b.vio.fits
  flt : a.flt.fatal = true → b.flt = a.flt

namespace Dev
theorem Keeps.refl (a : Dev) : a.Keeps a := ⟨⟨Nat.le_refl _, Nat.le_refl _, id, id, fun h => ⟨h, rfl⟩, fun h => ⟨h, rfl⟩⟩, id, id, fun _ => rfl⟩
theorem Keeps.trans {a b c : Dev} (h : a.Keeps b) (g : b.Keeps c) : a.Keeps c := by
  obtain ⟨h1, h2, h3, h4⟩ := h
  obtain ⟨g1, g2, g3, g4⟩ := g
  refine ⟨?_, fun x => g2 (h2 x), fun x => g3 (h3 x), fun x => ?_⟩
  · cases h1; cases g1; constructor <;> grind
  · have := h4 x; rw [g4 (by rw [this]; exact x), this]

/-- Only four units matter. -/
theorem Keeps.of_eq {a x y : Dev} (h : a.Keeps x) (h1 : y.otp = x.otp) (h2 : y.ev = x.ev) (h3 : y.vio = x.vio)
    (h4 : y.flt = x.flt) : a.Keeps y := by
  obtain ⟨g1, g2, g3, g4⟩ := h
  exact ⟨h1 ▸ g1, h2 ▸ g2, h3 ▸ g3, h4 ▸ g4⟩

theorem keeps_mk {a x : Dev} (y0 : _) (y1 : _) (y2 : _) (y3 : _) (y4 : _) (y5 : _) (y6 : _) (y7 : _) (y11 : _) (y12 : _) (y13 : _) (y14 : _) (y15 : _) (y16 : _) (y17 : _) (y18 : _) (y19 : _) (y20 : _) (y21 : _) (y22 : _) (y23 : _) (y24 : _) (y26 : _) (y27 : _) (y28 : _) (y29 : _) (y30 : _) (y31 : _) :
    a.Keeps (Dev.mk y0 y1 y2 y3 y4 y5 y6 y7 x.vio x.ev x.flt y11 y12 y13 y14 y15 y16 y17 y18 y19 y20 y21 y22 y23 y24 x.otp y26 y27 y28 y29 y30 y31)  ↔ a.Keeps x :=
  ⟨fun h => h.of_eq rfl rfl rfl rfl, fun h => h.of_eq rfl rfl rfl rfl⟩

theorem keeps_each {a d : Dev} (h : a.Keeps d) (xs : List Nat) (f : Dev → Nat → Dev)
    (hf : ∀ x n, a.Keeps x → a.Keeps (f x n)) : a.Keeps (d.each xs f) := by
  unfold each
  induction xs generalizing d with
  | nil => exact h
  | cons x xs ih => exact ih (hf _ _ h)

theorem keeps_raiseIn {a d : Dev} (h : a.Keeps d) (o : Option Domain) (c : EvCode) (x : List Byte) :
    a.Keeps (d.raiseIn o c x) := by
  refine h.trans ?_
  unfold raiseIn
  obtain ⟨h1, h2, h3, h4⟩ := Keeps.refl d
  simp only []
  split
  · exact ⟨h1, h2, h3, h4⟩
  · split
    · refine ⟨h1, fun h => ?_, h3, h4⟩
      simp [EvState.fits, evCap] at *; omega
    · exact ⟨h1, h2, h3, h4⟩

theorem keeps_raise {a d : Dev} (h : a.Keeps d) (c : EvCode) (x : List Byte) : a.Keeps (d.raise c x) :=
  keeps_raiseIn h _ _ _

theorem keeps_countLate {a d : Dev} (h : a.Keeps d) (off n : Nat) : a.Keeps (d.countLate off n) := by
  unfold countLate
  split
  · exact h.of_eq rfl rfl rfl rfl
  · exact h

theorem keeps_bump {a d : Dev} (h : a.Keeps d) (c : Counter) (n : Nat) : a.Keeps (d.bump c n) := by
  have h := keeps_countLate h c.off n
  unfold bump
  generalize d.countLate c.off n = y at *
  simp only []
  split
  · exact h.of_eq rfl rfl rfl rfl
  · split
    · refine keeps_raiseIn ?_ _ _ _
      exact h.of_eq rfl rfl rfl rfl
    · exact h.of_eq rfl rfl rfl rfl

theorem keeps_logEntry {a d : Dev} (h : a.Keeps d) (e : VioEntry) : a.Keeps (d.logEntry e) := by
  refine h.trans ?_
  obtain ⟨h1, h2, h3, h4⟩ := Keeps.refl d
  unfold logEntry
  split
  · rename_i ho
    refine ⟨h1, h2, fun h => ?_, h4⟩
    simp only [VioState.fits, List.length_map] at *
    refine ⟨h.1, fun hl => ?_⟩
    have := h.2 hl
    simp only [List.any_eq_true, List.mem_map] at *
    obtain ⟨x, hx, hc⟩ := this
    exact ⟨_, ⟨x, hx, rfl⟩, by grind⟩
  · split
    · refine ⟨h1, h2, fun h => ?_, h4⟩
      simp [VioState.fits, logCap] at *; omega
    · refine keeps_raise ?_ _ _
      refine ⟨h1, h2, fun h => ?_, h4⟩
      simp [VioState.fits, logCap, logOverflowed] at *
      rename_i hn hl
      have := h.2
      grind

theorem keeps_violate {a d : Dev} (h : a.Keeps d) (v : Vio) (x : List Byte) : a.Keeps (d.violate v x) := by
  unfold violate
  have h1 := keeps_bump (keeps_bump h Cnt.VIO_TOTAL 1) (Cnt.VIO_CNT v.code) 1
  generalize (d.bump Cnt.VIO_TOTAL).bump (Cnt.VIO_CNT v.code) = y at *
  obtain ⟨k1, k2, k3, k4⟩ := h1
  simp only []
  split
  · split
    · refine keeps_logEntry ?_ _
      exact ⟨k1, k2, k3, k4⟩
    · refine keeps_logEntry ?_ _
      exact ⟨k1, k2, k3, k4⟩
  · exact ⟨k1, k2, k3, k4⟩

theorem keeps_foldl {β : Type} {a d : Dev} (h : a.Keeps d) (xs : List β) (f : Dev → β → Dev)
    (hf : ∀ x n, a.Keeps x → a.Keeps (f x n)) : a.Keeps (xs.foldl f d) := by
  induction xs generalizing d with
  | nil => exact h
  | cons x xs ih => exact ih (hf _ _ h)

theorem keeps_foldl_fst {α β : Type} {a : Dev} {p : Dev × α} (h : a.Keeps p.1) (xs : List β) (f : Dev × α → β → Dev × α)
    (hf : ∀ x n, a.Keeps x.1 → a.Keeps (f x n).1) : a.Keeps (xs.foldl f p).1 := by
  induction xs generalizing p with
  | nil => exact h
  | cons x xs ih => exact ih (hf _ _ h)

theorem keeps_getD {a d : Dev} {o : Option Dev} (h : a.Keeps d) (ho : ∀ z, o = some z → a.Keeps z) :
    a.Keeps (o.getD d) := by
  cases o with
  | none => exact h
  | some z => exact ho z rfl

/-- What keeps the four units one by one. -/
theorem Keeps.step {a x y : Dev} (h : a.Keeps x) (h1 : x.otp.Grows y.otp) (h2 : x.ev.fits → y.ev.fits)
    (h3 : x.vio.fits → y.vio.fits) (h4 : y.flt = x.flt) : a.Keeps y :=
  h.trans ⟨h1, h2, h3, fun _ => h4⟩

theorem keeps_ev {a x y : Dev} (h : a.Keeps x) (h1 : y.otp = x.otp) (h2 : x.ev.fits → y.ev.fits) (h3 : y.vio = x.vio)
    (h4 : y.flt = x.flt) : a.Keeps y :=
  h.step (h1 ▸ (Keeps.refl x).otp) h2 (h3 ▸ id) h4

theorem keeps_vio {a x y : Dev} (h : a.Keeps x) (h1 : y.otp = x.otp) (h2 : y.ev = x.ev) (h3 : x.vio.fits → y.vio.fits)
    (h4 : y.flt = x.flt) : a.Keeps y :=
  h.step (h1 ▸ (Keeps.refl x).otp) (h2 ▸ id) h3 h4

theorem keeps_otp {a x y : Dev} (h : a.Keeps x) (h1 : x.otp.Grows y.otp) (h2 : y.ev = x.ev) (h3 : y.vio = x.vio)
    (h4 : y.flt = x.flt) : a.Keeps y :=
  h.step h1 (h2 ▸ id) (h3 ▸ id) h4

theorem keeps_ite {a x y : Dev} {c : Prop} [Decidable c] (hx : a.Keeps x) (hy : a.Keeps y) :
    a.Keeps (if c then x else y) := by
  split
  · exact hx
  · exact hy

theorem keeps_ite_fst {α : Type} {a : Dev} {x y : Dev × α} {c : Prop} [Decidable c] (hx : a.Keeps x.1) (hy : a.Keeps y.1) :
    a.Keeps (if c then x else y).1 := by
  split
  · exact hx
  · exact hy

theorem keeps_ite_snd {α : Type} {a : Dev} {x y : α × Dev} {c : Prop} [Decidable c] (hx : a.Keeps x.2) (hy : a.Keeps y.2) :
    a.Keeps (if c then x else y).2 := by
  split
  · exact hx
  · exact hy

theorem keeps_snd {α : Type} {a y : Dev} {x : α} {p : α × Dev} (e : p = (x, y)) (h : a.Keeps p.2) : a.Keeps y := by
  rw [e] at h; exact h
theorem keeps_fst {α : Type} {a y : Dev} {x : α} {p : Dev × α} (e : p = (y, x)) (h : a.Keeps p.1) : a.Keeps y := by
  rw [e] at h; exact h
theorem keeps_mid {α β : Type} {a y : Dev} {x : α} {z : β} {p : α × Dev × β} (e : p = (x, y, z)) (h : a.Keeps p.2.1) :
    a.Keeps y := by
  rw [e] at h; exact h
theorem keeps_some {a y : Dev} {o : Option Dev} (e : o = some y) (h : ∀ z, o = some z → a.Keeps z) : a.Keeps y := h _ e
theorem keeps_some_snd {α : Type} {a y : Dev} {x : α} {o : Option (α × Dev)} (e : o = some (x, y))
    (h : ∀ z, o = some z → a.Keeps z.2) : a.Keeps y := h _ e
theorem keeps_some_fst {α : Type} {a y : Dev} {x : α} {o : Option (Dev × α)} (e : o = some (y, x))
    (h : ∀ z, o = some z → a.Keeps z.1) : a.Keeps y := h _ e
theorem keeps_error {α : Type} {a y : Dev} {o : Except Dev α} (e : o = .error y)
    (h : ∀ z, o = .error z → a.Keeps z) : a.Keeps y := h _ e
end Dev
end Sys2Proof.Machine
end

