-- ==== Sys2Proof/Laws/KeepsOps.lean ====
section
/-! SUPPORT. What the operations of Machine/Ops.lean keep (see Laws/Keeps.lean). -/

-- One proof at a time: the package compiles as one text, and proofs elaborated side by side each take a thread's stack.
set_option Elab.async false
-- The proofs search: each goal uses some of the alternatives.
set_option linter.all false

namespace Sys2Proof.Machine

namespace Dev

theorem keeps_setCarrier {a d : Dev} (h : a.Keeps d) (x1 : Nat) (x2 : Carrier) : a.Keeps (setCarrier d x1 x2) := by
  unfold setCarrier
  try dsimp only
  repeat' (first | with_reducible assumption | simp only [keeps_mk])

theorem keeps_modCarrier {a d : Dev} (h : a.Keeps d) (x1 : Nat) (x2 : Carrier → Carrier) : a.Keeps (modCarrier d x1 x2) := by
  unfold modCarrier
  try dsimp only
  repeat' (first | with_reducible assumption | with_reducible apply keeps_setCarrier | simp only [keeps_mk])

theorem keeps_draw {a d : Dev} (h : a.Keeps d) (x1 : Nat) : a.Keeps (draw d x1).2 := by
  unfold draw
  try dsimp only
  repeat' (first | with_reducible assumption | simp only [keeps_mk])

theorem keeps_drawTo {a d : Dev} (h : a.Keeps d) (x1 : Nat) : a.Keeps (drawTo d x1).2 := by
  unfold drawTo
  try dsimp only
  repeat' (first | with_reducible assumption | with_reducible apply keeps_draw | split)

theorem keeps_setPan {a d : Dev} (h : a.Keeps d) (x1 : Nat) (x2 : Pan) : a.Keeps (setPan d x1 x2) := by
  unfold setPan
  try dsimp only
  repeat' (first | with_reducible assumption | simp only [keeps_mk])

theorem keeps_modPan {a d : Dev} (h : a.Keeps d) (x1 : Nat) (x2 : Pan → Pan) : a.Keeps (modPan d x1 x2) := by
  unfold modPan
  try dsimp only
  repeat' (first | with_reducible assumption | with_reducible apply keeps_setPan | simp only [keeps_mk])

theorem keeps_setShared {a d : Dev} (h : a.Keeps d) (x1 : Nat) (x2 : Shared) : a.Keeps (setShared d x1 x2) := by
  unfold setShared
  try dsimp only
  repeat' (first | with_reducible assumption | simp only [keeps_mk])

theorem keeps_setPort {a d : Dev} (h : a.Keeps d) (x1 : Nat) (x2 : Port) : a.Keeps (setPort d x1 x2) := by
  unfold setPort
  try dsimp only
  repeat' (first | with_reducible assumption | simp only [keeps_mk])

theorem keeps_modPort {a d : Dev} (h : a.Keeps d) (x1 : Nat) (x2 : Port → Port) : a.Keeps (modPort d x1 x2) := by
  unfold modPort
  try dsimp only
  repeat' (first | with_reducible assumption | with_reducible apply keeps_setPort | simp only [keeps_mk])

theorem keeps_emit {a d : Dev} (h : a.Keeps d) (x1 : OutKind) (x2 : Nat) (x3 : List Byte) : a.Keeps (emit d x1 x2 x3) := by
  unfold emit
  try dsimp only
  repeat' (first | with_reducible assumption | simp only [keeps_mk])

theorem keeps_setQueue {a d : Dev} (h : a.Keeps d) (x1 : Nat) (x2 : List QItem) : a.Keeps (setQueue d x1 x2) := by
  unfold setQueue
  try dsimp only
  repeat' (first | with_reducible assumption | simp only [keeps_mk])

theorem keeps_setLane {a d : Dev} (h : a.Keeps d) (x1 : Nat) (x2 : Lane) : a.Keeps (setLane d x1 x2) := by
  unfold setLane
  try dsimp only
  repeat' (first | with_reducible assumption | simp only [keeps_mk])

theorem keeps_modLane {a d : Dev} (h : a.Keeps d) (x1 : Nat) (x2 : Lane → Lane) : a.Keeps (modLane d x1 x2) := by
  unfold modLane
  try dsimp only
  repeat' (first | with_reducible assumption | with_reducible apply keeps_setLane | simp only [keeps_mk])

theorem keeps_asFrame {a d : Dev} (h : a.Keeps d) (x1 : Nat) (x2 : Dev → Dev) (hx2 : ∀ y, a.Keeps y → a.Keeps (x2 y)) : a.Keeps (asFrame d x1 x2) := by
  unfold asFrame
  try dsimp only
  repeat' (first | with_reducible assumption | with_reducible apply hx2 | simp only [keeps_mk])

theorem keeps_setRing {a d : Dev} (h : a.Keeps d) (x1 : Nat) (x2 : Ring) : a.Keeps (setRing d x1 x2) := by
  unfold setRing
  try dsimp only
  repeat' (first | with_reducible assumption | simp only [keeps_mk])

theorem keeps_fireMsix {a d : Dev} (h : a.Keeps d) (x1 : Nat) : a.Keeps (fireMsix d x1) := by
  unfold fireMsix
  try dsimp only
  repeat' (first | with_reducible assumption | with_reducible apply keeps_setRing | with_reducible apply keeps_emit | with_reducible apply keeps_ite | split | simp only [keeps_mk])

theorem keeps_advanceRing {a d : Dev} (h : a.Keeps d) (x1 : Nat) (x2 : Nat) : a.Keeps (advanceRing d x1 x2) := by
  unfold advanceRing
  try dsimp only
  repeat' (first | with_reducible assumption | with_reducible apply keeps_fireMsix | with_reducible apply keeps_emit | with_reducible apply keeps_setRing | with_reducible apply keeps_ite | split | simp only [keeps_mk])

theorem keeps_modQl {a d : Dev} (h : a.Keeps d) (x1 : Nat) (x2 : QlPort → QlPort) : a.Keeps (modQl d x1 x2) := by
  unfold modQl
  try dsimp only
  repeat' (first | with_reducible assumption | simp only [keeps_mk])

theorem keeps_queueQl {a d : Dev} (h : a.Keeps d) (x1 : Nat) (x2 : QlFrame) : a.Keeps (queueQl d x1 x2) := by
  unfold queueQl
  try dsimp only
  repeat' (first | with_reducible assumption | with_reducible apply keeps_modQl | simp only [keeps_mk])

theorem keeps_sendQl {a d : Dev} (h : a.Keeps d) (x1 : QlFrame) : a.Keeps (sendQl d x1) := by
  unfold sendQl
  try dsimp only
  repeat' (first | with_reducible assumption | with_reducible apply keeps_bump | with_reducible apply keeps_queueQl | with_reducible apply keeps_ite | split | simp only [keeps_mk])

theorem keeps_sendHost {a d : Dev} (h : a.Keeps d) (x1 : Nat) (x2 : Nat) (x3 : Nat) (x4 : List Byte) : a.Keeps (sendHost d x1 x2 x3 x4) := by
  unfold sendHost
  try dsimp only
  repeat' (first | with_reducible assumption | with_reducible apply keeps_sendQl)

theorem keeps_post {a d : Dev} (h : a.Keeps d) (x1 : Completion) : a.Keeps (post d x1) := by
  unfold post
  try dsimp only
  repeat' (first | with_reducible assumption | with_reducible apply keeps_advanceRing | with_reducible apply keeps_emit | with_reducible apply keeps_sendHost | with_reducible apply keeps_ite | split | simp only [keeps_mk])

theorem keeps_remember {a d : Dev} (h : a.Keeps d) (x1 : Completion) : a.Keeps (remember d x1) := by
  unfold remember
  try dsimp only
  repeat' (first | with_reducible assumption | with_reducible apply keeps_ite | split | simp only [keeps_mk])

theorem keeps_complete {a d : Dev} (h : a.Keeps d) (x1 : Cmd) (x2 : Status) (x3 : (List Byte)) : a.Keeps (complete d x1 x2 x3) := by
  unfold complete
  try dsimp only
  repeat' (first | with_reducible assumption | with_reducible apply keeps_post | with_reducible apply keeps_remember | simp only [keeps_mk])

theorem keeps_modEth {a d : Dev} (h : a.Keeps d) (x1 : Nat) (x2 : EthPort → EthPort) : a.Keeps (modEth d x1 x2) := by
  unfold modEth
  try dsimp only
  repeat' (first | with_reducible assumption | simp only [keeps_mk])

theorem keeps_setPipe {a d : Dev} (h : a.Keeps d) (x1 : Nat) (x2 : PipeSt) : a.Keeps (setPipe d x1 x2) := by
  unfold setPipe
  try dsimp only
  repeat' (first | with_reducible assumption | simp only [keeps_mk])

theorem keeps_writeBack {a d : Dev} (h : a.Keeps d) (x1 : Nat) (x2 : Nat) (x3 : Status) : a.Keeps (writeBack d x1 x2 x3) := by
  unfold writeBack
  try dsimp only
  repeat' (first | with_reducible assumption | with_reducible apply keeps_advanceRing | simp only [keeps_mk])

theorem keeps_modKey {a d : Dev} (h : a.Keeps d) (x1 : Nat) (x2 : KeySlot → KeySlot) : a.Keeps (modKey d x1 x2) := by
  unfold modKey
  try dsimp only
  repeat' (first | with_reducible assumption | simp only [keeps_mk])

theorem keeps_completeStaged {a d : Dev} (h : a.Keeps d) (x1 : Cmd) (x2 : Status) (x3 : (List Byte)) : a.Keeps (completeStaged d x1 x2 x3) := by
  unfold completeStaged
  try dsimp only
  repeat' (first | with_reducible assumption | simp only [keeps_mk])

theorem keeps_setSeq {a d : Dev} (h : a.Keeps d) (x1 : Nat) (x2 : Seq) : a.Keeps (setSeq d x1 x2) := by
  unfold setSeq
  try dsimp only
  repeat' (first | with_reducible assumption | simp only [keeps_mk])

theorem keeps_modSeq {a d : Dev} (h : a.Keeps d) (x1 : Nat) (x2 : Seq → Seq) : a.Keeps (modSeq d x1 x2) := by
  unfold modSeq
  try dsimp only
  repeat' (first | with_reducible assumption | with_reducible apply keeps_setSeq | simp only [keeps_mk])

theorem keeps_alertFrom {a d : Dev} (h : a.Keeps d) (x1 : Bool) : a.Keeps (alertFrom d x1) := by
  unfold alertFrom
  try dsimp only
  repeat' (first | with_reducible assumption | with_reducible apply keeps_emit | with_reducible apply keeps_ite | split)

theorem keeps_refuseCmd {a d : Dev} (h : a.Keeps d) (x1 : Cmd) (x2 : Status) : a.Keeps (refuseCmd d x1 x2) := by
  unfold refuseCmd
  try dsimp only
  repeat' (first | with_reducible assumption | with_reducible apply keeps_post)

theorem keeps_fetchCmd {a d : Dev} (h : a.Keeps d) (x1 : CmdPath) : a.Keeps (fetchCmd d x1) := by
  unfold fetchCmd
  try dsimp only
  repeat' (first | with_reducible assumption | with_reducible apply keeps_advanceRing | with_reducible apply keeps_ite | split)

theorem keeps_recallCpl {a d : Dev} (h : a.Keeps d) (x1 : Cmd) : a.Keeps (recallCpl d x1) := by
  unfold recallCpl
  try dsimp only
  repeat' (first | with_reducible assumption | with_reducible apply keeps_ite | split | simp only [keeps_mk])

theorem keeps_forward {a d : Dev} (h : a.Keeps d) (x1 : Cmd) : a.Keeps (forward d x1) := by
  unfold forward
  try dsimp only
  repeat' (first | with_reducible assumption | with_reducible apply keeps_sendHost | simp only [keeps_mk])

theorem keeps_command {a d : Dev} (h : a.Keeps d) (x1 : Cmd) (x2 : Dev → Dev) (hx2 : ∀ y, a.Keeps y → a.Keeps (x2 y)) : a.Keeps (command d x1 x2) := by
  unfold command
  try dsimp only
  repeat' (first | with_reducible assumption | with_reducible apply keeps_fetchCmd | with_reducible apply keeps_refuseCmd | with_reducible apply keeps_post | with_reducible apply keeps_bump | with_reducible apply keeps_recallCpl | with_reducible apply keeps_complete | with_reducible apply keeps_forward | with_reducible apply hx2 | with_reducible apply keeps_ite | split | simp only [keeps_mk])

theorem keeps_stageCmd {a d : Dev} (h : a.Keeps d) (x1 : Cmd) (x2 : Option Nat) : a.Keeps (stageCmd d x1 x2) := by
  unfold stageCmd
  try dsimp only
  repeat' (first | with_reducible assumption | simp only [keeps_mk])

theorem keeps_holdCmd {a d : Dev} (h : a.Keeps d) (x1 : Cmd) : a.Keeps (holdCmd d x1) := by
  unfold holdCmd
  try dsimp only
  repeat' (first | with_reducible assumption | simp only [keeps_mk])

theorem keeps_finish {a d : Dev} (h : a.Keeps d) (x1 : Completion) : a.Keeps (finish d x1) := by
  unfold finish
  try dsimp only
  repeat' (first | with_reducible assumption | with_reducible apply keeps_post | with_reducible apply keeps_remember | simp only [keeps_mk])

theorem keeps_forgetCmds {a d : Dev} (h : a.Keeps d) : a.Keeps (forgetCmds d) := by
  unfold forgetCmds
  try dsimp only
  repeat' (first | with_reducible assumption | intro _ | with_reducible apply keeps_foldl | with_reducible apply keeps_ite | split | simp only [keeps_mk])

end Dev

end Sys2Proof.Machine
end

