-- ==== Sys2Proof/Laws/KeepsBoot.lean ====
section
/-! SUPPORT. What the operations of Machine/Boot.lean keep (see Laws/Keeps.lean). -/

-- One proof at a time: the package compiles as one text, and proofs elaborated side by side each take a thread's stack.
set_option Elab.async false
-- The proofs search: each goal uses some of the alternatives.
set_option linter.all false

namespace Sys2Proof.Machine

namespace Dev

theorem keeps_loadCinnabar {a d : Dev} (h : a.Keeps d) : a.Keeps (loadCinnabar d) := by
  unfold loadCinnabar
  try dsimp only
  repeat' (first | with_reducible assumption | intro _ | with_reducible apply keeps_foldl | with_reducible apply keeps_ite | split | simp only [keeps_mk])

theorem keeps_checkProvisioning {a d : Dev} (h : a.Keeps d) (x1 : List Byte) : a.Keeps (checkProvisioning d x1) := by
  unfold checkProvisioning
  try dsimp only
  repeat' (first | with_reducible assumption | with_reducible apply keeps_ite | split | simp only [keeps_mk])

theorem keeps_selectKeystore {a d : Dev} (h : a.Keeps d) : a.Keeps (selectKeystore d) := by
  unfold selectKeystore
  try dsimp only
  repeat' (first | with_reducible assumption | with_reducible apply keeps_raise | with_reducible apply keeps_ite | split | simp only [keeps_mk])

theorem keeps_drawSeeds {a d : Dev} (h : a.Keeps d) : a.Keeps (drawSeeds d) := by
  unfold drawSeeds
  try dsimp only
  repeat' (first | with_reducible assumption | intro _ | with_reducible apply keeps_draw | with_reducible apply keeps_each | with_reducible apply keeps_modPan | with_reducible apply keeps_each | split | simp only [keeps_mk])

theorem keeps_bootImages {a d : Dev} (h : a.Keeps d) (x1 : BootFacts) : a.Keeps (bootImages d x1) := by
  unfold bootImages
  try dsimp only
  repeat' (first | with_reducible assumption | with_reducible apply keeps_raise | with_reducible apply keeps_loadCinnabar | with_reducible apply keeps_checkProvisioning | with_reducible apply keeps_selectKeystore | with_reducible apply keeps_drawSeeds | with_reducible apply keeps_ite | split | simp only [keeps_mk])

theorem resetAll_otp (d : Dev) : d.resetAll.otp = d.otp := rfl

theorem keeps_bootFrom {a d : Dev} (h : a.Keeps d) (x1 : BootFacts) : a.Keeps (bootFrom d x1) := by
  unfold bootFrom
  try dsimp only
  repeat' (first | with_reducible assumption | with_reducible apply keeps_raise | with_reducible apply keeps_bootImages | with_reducible apply keeps_ite | split | simp only [keeps_mk])

theorem keeps_leaveReset {a d : Dev} (h : a.Keeps d) (x1 : BootFacts) : a.Keeps (leaveReset d x1) := by
  unfold leaveReset
  try dsimp only
  repeat' (first | with_reducible assumption | with_reducible apply keeps_bootFrom | with_reducible apply keeps_ite | split)

theorem keeps_disableRing {a d : Dev} (h : a.Keeps d) (x1 : Nat) : a.Keeps (disableRing d x1) := by
  unfold disableRing
  try dsimp only
  repeat' (first | with_reducible assumption | simp only [keeps_mk])

end Dev

end Sys2Proof.Machine
end

