-- ==== Sys2Proof/Laws/KeepsHost.lean ====
section
/-! SUPPORT. What the operations of Machine/Host.lean keep (see Laws/Keeps.lean). -/

-- One proof at a time: the package compiles as one text, and proofs elaborated side by side each take a thread's stack.
set_option Elab.async false
-- The proofs search: each goal uses some of the alternatives.
set_option linter.all false

namespace Sys2Proof.Machine

namespace Dev

theorem keeps_cmdNop {a d : Dev} (h : a.Keeps d) (x1 : Hdr) : a.Keeps (cmdNop d x1) := by
  unfold cmdNop
  try dsimp only
  repeat' (first | with_reducible assumption | intro _ | with_reducible apply keeps_command | with_reducible apply keeps_complete)

theorem keeps_thawReg {a d : Dev} (h : a.Keeps d) (x1 : Nat) : a.Keeps (thawReg d x1) := by
  unfold thawReg
  try dsimp only
  repeat' (first | with_reducible assumption | with_reducible apply keeps_ite | split | simp only [keeps_mk])

theorem keeps_stageReg {a d : Dev} (h : a.Keeps d) (x1 : Nat) (x2 : Nat) : a.Keeps (stageReg d x1 x2) := by
  unfold stageReg
  try dsimp only
  repeat' (first | with_reducible assumption | with_reducible apply keeps_thawReg | split | simp only [keeps_mk])

theorem keeps_cmdUnknown {a d : Dev} (h : a.Keeps d) (x1 : Hdr) (x2 : W16) : a.Keeps (cmdUnknown d x1 x2) := by
  unfold cmdUnknown
  try dsimp only
  repeat' (first | with_reducible assumption | with_reducible apply keeps_fetchCmd | with_reducible apply keeps_post | with_reducible apply keeps_ite | split)

theorem keeps_writeCinStage {a d : Dev} (h : a.Keeps d) (x1 : Nat) (x2 : W32) : a.Keeps (writeCinStage d x1 x2) := by
  unfold writeCinStage
  try dsimp only
  repeat' (first | with_reducible assumption | with_reducible apply keeps_violate | with_reducible apply keeps_ite | split | simp only [keeps_mk])

theorem keeps_forgetDescs {a d : Dev} (h : a.Keeps d) (x1 : Nat) : a.Keeps (forgetDescs d x1) := by
  unfold forgetDescs
  try dsimp only
  repeat' (first | with_reducible assumption | intro _ | with_reducible apply keeps_getD | with_reducible apply keeps_ite | split | simp only [keeps_mk])

theorem keeps_writeRingReg {a d : Dev} (h : a.Keeps d) (x1 : Nat) (x2 : Nat) (x3 : Nat) : a.Keeps (writeRingReg d x1 x2 x3) := by
  unfold writeRingReg
  try dsimp only
  repeat' (first | with_reducible assumption | intro _ | with_reducible apply keeps_violate | with_reducible apply keeps_setRing | with_reducible apply keeps_forgetDescs | with_reducible apply keeps_getD | with_reducible apply keeps_ite | split | simp only [keeps_mk])

theorem keeps_putEvent {a d : Dev} (h : a.Keeps d) (x1 : Event) : a.Keeps (putEvent d x1) := by
  unfold putEvent
  try dsimp only
  repeat' (first | with_reducible assumption | with_reducible apply keeps_bump | with_reducible apply keeps_advanceRing | with_reducible apply keeps_emit | simp only [keeps_mk])

theorem keeps_kick {a d : Dev} (h : a.Keeps d) : a.Keeps (kick d) := by
  unfold kick
  try dsimp only
  repeat' (first | with_reducible assumption | simp only [keeps_mk])

theorem keeps_clearCause {a d : Dev} (h : a.Keeps d) (x1 : Nat) : a.Keeps (clearCause d x1) := by
  unfold clearCause
  try dsimp only
  repeat' (first | with_reducible assumption | simp only [keeps_mk])

theorem keeps_writeCfg {a d : Dev} (h : a.Keeps d) (x1 : CfgSrc) (x2 : Nat) (x3 : W32) : a.Keeps (writeCfg d x1 x2 x3) := by
  unfold writeCfg
  try dsimp only
  repeat' (first | with_reducible assumption | with_reducible apply keeps_violate | with_reducible apply keeps_emit | with_reducible apply keeps_kick | with_reducible apply keeps_clearCause | with_reducible apply keeps_writeCinStage | with_reducible apply keeps_writeRingReg | with_reducible apply keeps_modSeq | with_reducible apply keeps_stageReg | with_reducible apply keeps_ite | split | simp only [keeps_mk])

theorem keeps_reply {a d : Dev} (h : a.Keeps d) (x1 : Nat) : a.Keeps (reply d x1) := by
  unfold reply
  try dsimp only
  repeat' (first | with_reducible assumption | with_reducible apply keeps_emit)

theorem keeps_doorbell {a d : Dev} (h : a.Keeps d) (x1 : Nat) (x2 : W16) : a.Keeps (doorbell d x1 x2) := by
  unfold doorbell
  try dsimp only
  repeat' (first | with_reducible assumption | with_reducible apply keeps_bump | with_reducible apply keeps_violate | with_reducible apply keeps_setRing | with_reducible apply keeps_ite | split | simp only [keeps_mk])

theorem keeps_sentOne {a d : Dev} (h : a.Keeps d) (e : Event) : a.Keeps (match d.modes.control, d.links.followed with
        | .shelfMember, some r => (d.sendHost r 3 0 (d.eventOctets e false)).bump Cnt.EVT_POSTED
        | _, _ => d.putEvent e) := by
  split
  · exact keeps_bump (keeps_sendHost h _ _ _ _) _ _
  · exact keeps_putEvent h _

theorem keeps_postEvent {a d : Dev} (h : a.Keeps d) : a.Keeps (postEvent d) := by
  unfold postEvent
  split
  · exact h
  · rename_i e t he
    have h1 : a.Keeps { d with ev := { d.ev with staging := t } } := by
      refine keeps_ev h rfl ?_ rfl rfl
      intro hf
      simp only [EvState.fits, he, List.length_cons] at *
      omega
    have h2 := keeps_sentOne h1 e
    dsimp only at h2 ⊢
    refine keeps_ite h (keeps_ite h2 ?_)
    refine keeps_raise ?_ _ _
    exact keeps_ev h2 rfl id rfl rfl

end Dev

end Sys2Proof.Machine
end

