-- ==== Sys2Proof/Laws/KeepsTasks.lean ====
section
/-! SUPPORT. What the operations of Machine/Tasks.lean keep (see Laws/Keeps.lean). -/

-- One proof at a time: the package compiles as one text, and proofs elaborated side by side each take a thread's stack.
set_option Elab.async false
-- The proofs search: each goal uses some of the alternatives.
set_option linter.all false

namespace Sys2Proof.Machine

namespace Dev

theorem keeps_setCorePort {a d : Dev} (h : a.Keeps d) (x1 : Nat) (x2 : CorePort) : a.Keeps (setCorePort d x1 x2) := by
  unfold setCorePort
  try dsimp only
  repeat' (first | with_reducible assumption | simp only [keeps_mk])

theorem keeps_setResult {a d : Dev} (h : a.Keeps d) (x1 : Nat) (x2 : Nat) (x3 : Status) : a.Keeps (setResult d x1 x2 x3) := by
  unfold setResult
  try dsimp only
  repeat' (first | with_reducible assumption | with_reducible apply keeps_setCorePort | simp only [keeps_mk])

theorem keeps_endTake {a d : Dev} (h : a.Keeps d) (x1 : Nat) : a.Keeps (endTake d x1) := by
  unfold endTake
  try dsimp only
  repeat' (first | with_reducible assumption | with_reducible apply keeps_emit | with_reducible apply keeps_setCorePort | with_reducible apply keeps_ite | split | simp only [keeps_mk])

theorem keeps_setSlot {a d : Dev} (h : a.Keeps d) (x1 : Nat) (x2 : Task) : a.Keeps (setSlot d x1 x2) := by
  unfold setSlot
  try dsimp only
  repeat' (first | with_reducible assumption | simp only [keeps_mk])

theorem keeps_dispatchTo {a d : Dev} (h : a.Keeps d) (x1 : Nat) : ∀ y, (dispatchTo d x1) = some y → a.Keeps y := by
  intro y e
  unfold dispatchTo at e
  try dsimp only at e
  repeat' split at e
  all_goals first | contradiction | (cases e)
  all_goals try dsimp only
  all_goals repeat' (first | with_reducible assumption | with_reducible apply keeps_setSlot | with_reducible apply keeps_setCorePort | with_reducible apply keeps_emit | with_reducible apply keeps_bump | split | simp only [keeps_mk])

theorem keeps_serveWaiting {a d : Dev} (h : a.Keeps d) : a.Keeps (serveWaiting d) := by
  unfold serveWaiting
  try dsimp only
  repeat' (first | with_reducible assumption | with_reducible refine keeps_dispatchTo ?_ _ | intro _ | with_reducible apply keeps_each | with_reducible apply keeps_getD | with_reducible apply keeps_each | with_reducible apply keeps_ite | with_reducible apply keeps_ite_fst | with_reducible apply keeps_ite_snd | split)

theorem keeps_makeReady {a d : Dev} (h : a.Keeps d) (x1 : Nat) : a.Keeps (makeReady d x1) := by
  unfold makeReady
  try dsimp only
  repeat' (first | with_reducible assumption | with_reducible apply keeps_setSlot | simp only [keeps_mk])

theorem keeps_cplTo {a d : Dev} (h : a.Keeps d) (x1 : Nat) (x2 : TaskCpl) : a.Keeps (cplTo d x1 x2) := by
  unfold cplTo
  try dsimp only
  repeat' (first | with_reducible assumption | with_reducible apply keeps_setCorePort | simp only [keeps_mk])

theorem keeps_freeSlot {a d : Dev} (h : a.Keeps d) (x1 : Nat) : a.Keeps (freeSlot d x1) := by
  unfold freeSlot
  try dsimp only
  repeat' (first | with_reducible assumption | with_reducible apply keeps_setSlot)

theorem keeps_coreAccess {a d : Dev} (h : a.Keeps d) (x1 : Nat) (x2 : Option World) (x3 : Bool) (x4 : Bool) (x5 : Nat) (x6 : List Byte) : a.Keeps (coreAccess d x1 x2 x3 x4 x5 x6) := by
  unfold coreAccess
  try dsimp only
  repeat' (first | with_reducible assumption | with_reducible apply keeps_violate | with_reducible apply keeps_emit | with_reducible apply keeps_ite | split | simp only [keeps_mk])

end Dev

end Sys2Proof.Machine
end

