-- ==== Sys2Proof/Laws/KeepsKeys.lean ====
section
/-! SUPPORT. What the operations of Machine/Keys.lean keep (see Laws/Keeps.lean). -/

-- One proof at a time: the package compiles as one text, and proofs elaborated side by side each take a thread's stack.
set_option Elab.async false
-- The proofs search: each goal uses some of the alternatives.
set_option linter.all false

namespace Sys2Proof.Machine

namespace Dev

theorem keeps_cachePlace {a d : Dev} (h : a.Keeps d) (x1 : KeyTag) : a.Keeps (cachePlace d x1) := by
  unfold cachePlace
  try dsimp only
  repeat' (first | with_reducible assumption | with_reducible apply keeps_bump | with_reducible apply keeps_ite | split | simp only [keeps_mk])

theorem keeps_kdfDone {a d : Dev} (h : a.Keeps d) : a.Keeps (kdfDone d) := by
  unfold kdfDone
  try dsimp only
  repeat' (first | with_reducible assumption | with_reducible apply keeps_bump | with_reducible apply keeps_cachePlace | with_reducible apply keeps_ite | split | simp only [keeps_mk])

theorem keeps_invalidate {a d : Dev} (h : a.Keeps d) (x1 : Nat) : a.Keeps (invalidate d x1) := by
  unfold invalidate
  try dsimp only
  repeat' (first | with_reducible assumption | intro _ | with_reducible apply keeps_each | with_reducible apply keeps_modKey | with_reducible apply keeps_modEth | with_reducible apply keeps_each | simp only [keeps_mk])

theorem keeps_requestKey {a d : Dev} (h : a.Keeps d) (x1 : KeyTag) : a.Keeps (requestKey d x1) := by
  unfold requestKey
  try dsimp only
  repeat' (first | with_reducible assumption | with_reducible apply keeps_bump | with_reducible apply keeps_ite | split | simp only [keeps_mk])

theorem keeps_commandView {a d : Dev} (h : a.Keeps d) : a.Keeps (commandView d) := by
  unfold commandView
  try dsimp only
  repeat' (first | with_reducible assumption | split | simp only [keeps_mk])

theorem keeps_keySet {a d : Dev} (h : a.Keeps d) (x1 : Hdr) (x2 : List Byte) (x3 : Nat) : a.Keeps (keySet d x1 x2 x3) := by
  unfold keySet
  try dsimp only
  repeat' (first | with_reducible assumption | intro _ | with_reducible apply keeps_command | with_reducible apply keeps_commandView | with_reducible apply keeps_complete | with_reducible apply keeps_modKey | with_reducible apply keeps_stageCmd | with_reducible apply keeps_ite | split | simp only [keeps_mk])

theorem keeps_setKs {a d : Dev} (h : a.Keeps d) (x1 : Nat) (x2 : Option KsRecord) : a.Keeps (setKs d x1 x2) := by
  unfold setKs
  try dsimp only
  repeat' (first | with_reducible assumption | with_reducible apply keeps_ite | split | simp only [keeps_mk])

theorem keeps_dropUnremoved {a d : Dev} (h : a.Keeps d) (x1 : SMap KeySlot) : a.Keeps (dropUnremoved d x1) := by
  unfold dropUnremoved
  try dsimp only
  repeat' (first | with_reducible assumption | with_reducible apply keeps_ite | split | simp only [keeps_mk])

theorem keeps_startWrite {a d : Dev} (h : a.Keeps d) (x1 : List Byte) (x2 : KeySlot → Bool) (x3 : List Completion) (x4 : Option Cmd) : a.Keeps (startWrite d x1 x2 x3 x4) := by
  unfold startWrite
  try dsimp only
  repeat' (first | with_reducible assumption | with_reducible apply keeps_setKs | simp only [keeps_mk])

theorem keeps_writeIfDue {a d : Dev} (h : a.Keeps d) : a.Keeps (writeIfDue d) := by
  unfold writeIfDue
  try dsimp only
  repeat' (first | with_reducible assumption | with_reducible apply keeps_startWrite | with_reducible apply keeps_ite | split | simp only [keeps_mk])

theorem keeps_writeDone {a d : Dev} (h : a.Keeps d) (x1 : Bool) : a.Keeps (writeDone d x1) := by
  unfold writeDone
  try dsimp only
  repeat' (first | with_reducible assumption | intro _ | with_reducible apply keeps_setKs | with_reducible apply keeps_complete | with_reducible apply keeps_finish | with_reducible apply keeps_dropUnremoved | with_reducible apply keeps_writeIfDue | with_reducible apply keeps_raise | with_reducible apply keeps_bump | with_reducible apply keeps_foldl | with_reducible apply keeps_ite | split | simp only [keeps_mk])

theorem keeps_cmdKeySetPub {a d : Dev} (h : a.Keeps d) (x1 : Hdr) (x2 : List Byte) (x3 : Option (List Byte)) : a.Keeps (cmdKeySetPub d x1 x2 x3) := by
  unfold cmdKeySetPub
  try dsimp only
  repeat' (first | with_reducible assumption | intro _ | with_reducible apply keeps_keySet | with_reducible apply keeps_getD)

theorem keeps_cmdKeySetSym {a d : Dev} (h : a.Keeps d) (x1 : Hdr) (x2 : List Byte) (x3 : Option (List Byte)) : a.Keeps (cmdKeySetSym d x1 x2 x3) := by
  unfold cmdKeySetSym
  try dsimp only
  repeat' (first | with_reducible assumption | intro _ | with_reducible apply keeps_keySet | with_reducible apply keeps_getD)

theorem keeps_keyMigrate {a d : Dev} (h : a.Keeps d) (x1 : Hdr) (x2 : List Byte) (x3 : Option (List Byte)) : a.Keeps (keyMigrate d x1 x2 x3) := by
  unfold keyMigrate
  try dsimp only
  repeat' (first | with_reducible assumption | intro _ | with_reducible apply keeps_command | with_reducible apply keeps_complete | with_reducible apply keeps_startWrite | with_reducible apply keeps_holdCmd | with_reducible apply keeps_ite | split | simp only [keeps_mk])

theorem keeps_macsecSak {a d : Dev} (h : a.Keeps d) (x1 : Hdr) (x2 : List Byte) (x3 : Nat) : a.Keeps (macsecSak d x1 x2 x3) := by
  unfold macsecSak
  try dsimp only
  repeat' (first | with_reducible assumption | intro _ | with_reducible apply keeps_command | with_reducible apply keeps_commandView | with_reducible apply keeps_complete | with_reducible apply keeps_modEth | with_reducible apply keeps_draw | with_reducible apply keeps_getD | with_reducible apply keeps_ite | with_reducible apply keeps_ite_fst | with_reducible apply keeps_ite_snd | split | simp only [keeps_mk] | with_reducible refine keeps_snd ‹_› ?_)

theorem keeps_burnAhead {a d : Dev} (h : a.Keeps d) (x1 : Nat) : a.Keeps (burnAhead d x1) := by
  unfold burnAhead
  split
  · refine keeps_otp (keeps_draw h 256) ?_ rfl rfl rfl
    have e : (d.draw 256).2.otp = d.otp := rfl
    constructor <;> simp_all
  · split
    · refine keeps_otp h ?_ rfl rfl rfl
      constructor <;> simp_all
    · exact h

theorem keeps_burnLc {a d : Dev} (h : a.Keeps d) (x1 : Nat) (x2 : List Byte) (hr : lcReachable d.otp.lc x1 = true) : a.Keeps (burnLc d x1 x2) := by
  have hl : d.otp.lc ≤ x1 := by
    simp [lcReachable] at hr
    omega
  have hb : (d.burnAhead x1).otp.lc = d.otp.lc := by
    unfold burnAhead
    split
    · rfl
    · split <;> rfl
  unfold burnLc
  refine keeps_otp (keeps_burnAhead h x1) ?_ rfl rfl rfl
  constructor <;> simp_all

theorem keeps_burnPart {a d : Dev} (h : a.Keeps d) (x1 : Nat) (x2 : List Byte) (hr : lcReachable d.otp.lc x1 = true) : a.Keeps (burnPart d x1 x2) := by
  unfold burnPart
  dsimp only
  refine keeps_ite (keeps_draw h _) (keeps_ite (keeps_burnAhead (keeps_draw h _) _) ?_)
  exact keeps_burnLc (keeps_draw h _) _ _ hr

theorem keeps_lcAdvance {a d : Dev} (h : a.Keeps d) (x1 : Hdr) (x2 : List Byte) (x3 : Bool) : a.Keeps (lcAdvance d x1 x2 x3) := by
  unfold lcAdvance
  refine keeps_command h _ _ fun y hy => ?_
  dsimp only
  by_cases hr : lcReachable y.otp.lc (fld x2 0 1) = true
  · refine keeps_ite (keeps_complete hy _ _ _) (keeps_ite (keeps_complete hy _ _ _) (keeps_ite (keeps_complete hy _ _ _)
      (keeps_ite (keeps_complete hy _ _ _) (keeps_ite (keeps_complete hy _ _ _) (keeps_ite ?_ ?_)))))
    · exact keeps_complete (keeps_burnPart hy _ _ hr) _ _ _
    · exact keeps_complete (keeps_burnLc hy _ _ hr) _ _ _
  · rw [if_pos hr]
    exact keeps_complete hy _ _ _

theorem keeps_otpHash {a d : Dev} (h : a.Keeps d) (x1 : Hdr) (x2 : List Byte) (x3 : Bool) : a.Keeps (otpHash d x1 x2 x3) := by
  unfold otpHash
  refine keeps_command h _ _ fun y hy => ?_
  have grows : ∀ (o : Otp) (w : Nat) (v : List Byte), o.Grows (burnHash o w v) := by
    intro o w v
    unfold burnHash
    split <;> (constructor <;> simp)
  dsimp only
  repeat' split
  all_goals first | exact keeps_complete hy _ _ _ | refine keeps_complete ?_ _ _ _
  · refine keeps_otp (keeps_draw hy 384) ?_ rfl rfl rfl
    exact ⟨(grows _ _ _).lc, (grows _ _ _).secMin, (grows _ _ _).spent0, (grows _ _ _).spent1, (grows _ _ _).slot0,
      (grows _ _ _).slot1⟩
  · exact keeps_otp hy (grows _ _ _) rfl rfl rfl

theorem keeps_rollbackCommit {a d : Dev} (h : a.Keeps d) (x1 : Hdr) (x2 : List Byte) : a.Keeps (rollbackCommit d x1 x2) := by
  unfold rollbackCommit
  refine keeps_command h _ _ fun y hy => ?_
  dsimp only
  split
  · exact keeps_complete hy _ _ _
  · refine keeps_complete ?_ _ _ _
    refine keeps_otp hy ?_ rfl rfl rfl
    constructor <;> simp <;> omega

theorem keeps_keySetApply {a d : Dev} (h : a.Keeps d) (x1 : Cmd) : a.Keeps (keySetApply d x1) := by
  unfold keySetApply
  try dsimp only
  repeat' (first | with_reducible assumption | with_reducible apply keeps_modKey | with_reducible apply keeps_completeStaged | with_reducible apply keeps_invalidate | with_reducible apply keeps_holdCmd | with_reducible apply keeps_ite | split | simp only [keeps_mk])

theorem keeps_keyReload {a d : Dev} (h : a.Keeps d) (x1 : Nat) : a.Keeps (keyReload d x1) := by
  unfold keyReload
  try dsimp only
  repeat' (first | with_reducible assumption | with_reducible apply keeps_bump | with_reducible apply keeps_modKey | with_reducible apply keeps_ite | split | simp only [keeps_mk])

end Dev

end Sys2Proof.Machine
end

