-- ==== Sys2Proof/Laws/KeepsTime.lean ====
section
/-! SUPPORT. What the operations of Machine/Time.lean keep (see Laws/Keeps.lean). -/

-- One proof at a time: the package compiles as one text, and proofs elaborated side by side each take a thread's stack.
set_option Elab.async false
-- The proofs search: each goal uses some of the alternatives.
set_option linter.all false

namespace Sys2Proof.Machine

namespace Dev

theorem keeps_rxStamp {a d : Dev} (h : a.Keeps d) (x1 : Nat) : a.Keeps (rxStamp d x1).2 := by
  unfold rxStamp
  try dsimp only
  repeat' (first | with_reducible assumption | with_reducible apply keeps_draw | split | simp only [keeps_mk] | with_reducible refine keeps_snd ‹_› ?_)

theorem keeps_regrid {a d : Dev} (h : a.Keeps d) (x1 : Nat) : a.Keeps (regrid d x1) := by
  unfold regrid
  try dsimp only
  repeat' (first | with_reducible assumption | intro _ | with_reducible apply keeps_each | with_reducible apply keeps_modSeq | with_reducible apply keeps_each | with_reducible apply keeps_ite | split | simp only [keeps_mk])

theorem keeps_txStamp {a d : Dev} (h : a.Keeps d) (x1 : Nat) (x2 : Nat) : a.Keeps (txStamp d x1 x2).2 := by
  unfold txStamp
  try dsimp only
  repeat' (first | with_reducible assumption | with_reducible apply keeps_draw | split | simp only [keeps_mk] | with_reducible refine keeps_snd ‹_› ?_)

theorem keeps_stepScale {a d : Dev} (h : a.Keeps d) (x1 : Int) : a.Keeps (stepScale d x1) := by
  unfold stepScale
  try dsimp only
  repeat' (first | with_reducible assumption | intro _ | with_reducible apply keeps_each | with_reducible apply keeps_modEth | with_reducible apply keeps_each | simp only [keeps_mk])

theorem keeps_dropStamped {a d : Dev} (h : a.Keeps d) : a.Keeps (dropStamped d) := by
  unfold dropStamped
  try dsimp only
  repeat' (first | with_reducible assumption | intro _ | with_reducible apply keeps_each | with_reducible apply keeps_modEth | with_reducible apply keeps_each | with_reducible apply keeps_ite | split | simp only [keeps_mk])

theorem keeps_acquire {a d : Dev} (h : a.Keeps d) (x1 : Int) : a.Keeps (acquire d x1) := by
  unfold acquire
  try dsimp only
  repeat' (first | with_reducible assumption | intro _ | with_reducible apply keeps_dropStamped | with_reducible apply keeps_stepScale | with_reducible apply keeps_raise | with_reducible apply keeps_each | with_reducible apply keeps_modEth | with_reducible apply keeps_regrid | with_reducible apply keeps_each | with_reducible apply keeps_ite | split | simp only [keeps_mk])

theorem keeps_timeSet {a d : Dev} (h : a.Keeps d) (x1 : Hdr) (x2 : List Byte) : a.Keeps (timeSet d x1 x2) := by
  unfold timeSet
  try dsimp only
  repeat' (first | with_reducible assumption | intro _ | with_reducible apply keeps_command | with_reducible apply keeps_complete | with_reducible apply keeps_acquire | with_reducible apply keeps_ite | split | simp only [keeps_mk])

theorem keeps_advanceTo {a d : Dev} (h : a.Keeps d) (x1 : Nat) : a.Keeps (advanceTo d x1) := by
  unfold advanceTo
  try dsimp only
  repeat' (first | with_reducible assumption | simp only [keeps_mk])

theorem keeps_putEthStamp {a d : Dev} (h : a.Keeps d) (x1 : Nat) (x2 : Stamp) : a.Keeps (putEthStamp d x1 x2).1 := by
  unfold putEthStamp
  try dsimp only
  repeat' (first | with_reducible assumption | with_reducible apply keeps_modEth | with_reducible apply keeps_bump | with_reducible apply keeps_ite | with_reducible apply keeps_ite_fst | with_reducible apply keeps_ite_snd | split | simp only [keeps_mk])

theorem keeps_ptpQueue {a d : Dev} (h : a.Keeps d) (x1 : Nat) (x2 : PtpOut) : a.Keeps (ptpQueue d x1 x2) := by
  unfold ptpQueue
  try dsimp only
  repeat' (first | with_reducible assumption | with_reducible apply keeps_modEth | simp only [keeps_mk])

theorem keeps_ptpSent {a d : Dev} (h : a.Keeps d) (x1 : Nat) (x2 : PtpOut) (x3 : Nat) : a.Keeps (ptpSent d x1 x2 x3) := by
  unfold ptpSent
  try dsimp only
  repeat' (first | with_reducible assumption | with_reducible apply keeps_ptpQueue | split | simp only [keeps_mk])

theorem keeps_frameEnd {a d : Dev} (h : a.Keeps d) (x1 : Nat) : a.Keeps (frameEnd d x1) := by
  unfold frameEnd
  try dsimp only
  repeat' (first | with_reducible assumption | with_reducible apply keeps_modEth | with_reducible apply keeps_putEthStamp | with_reducible apply keeps_ptpSent | with_reducible apply keeps_bump | with_reducible apply keeps_ite | with_reducible apply keeps_ite_fst | with_reducible apply keeps_ite_snd | split | simp only [keeps_mk] | with_reducible refine keeps_fst ‹_› ?_)

theorem keeps_frameEnds {a d : Dev} (h : a.Keeps d) : a.Keeps (frameEnds d) := by
  unfold frameEnds
  try dsimp only
  repeat' (first | with_reducible assumption | intro _ | with_reducible apply keeps_each | with_reducible apply keeps_frameEnd | with_reducible apply keeps_each)

theorem keeps_timeRestep {a d : Dev} (h : a.Keeps d) (x1 : Hdr) (x2 : List Byte) : a.Keeps (timeRestep d x1 x2) := by
  unfold timeRestep
  try dsimp only
  repeat' (first | with_reducible assumption | intro _ | with_reducible apply keeps_command | with_reducible apply keeps_complete | with_reducible apply keeps_holdCmd | with_reducible apply keeps_getD | with_reducible apply keeps_ite | split | simp only [keeps_mk])

theorem keeps_takeStampSeq {a d : Dev} (h : a.Keeps d) (x1 : Nat) : a.Keeps (takeStampSeq d x1).2 := by
  unfold takeStampSeq
  try dsimp only
  repeat' (first | with_reducible assumption | with_reducible apply keeps_modEth | simp only [keeps_mk])

theorem keeps_endRestep {a d : Dev} (h : a.Keeps d) (x1 : List Int) : a.Keeps (endRestep d x1) := by
  unfold endRestep
  try dsimp only
  repeat' (first | with_reducible assumption | intro _ | with_reducible apply keeps_raise | with_reducible apply keeps_complete | with_reducible apply keeps_foldl | with_reducible apply keeps_ite | split | simp only [keeps_mk])

theorem keeps_exitHoldover {a d : Dev} (h : a.Keeps d) : a.Keeps (exitHoldover d) := by
  unfold exitHoldover
  try dsimp only
  repeat' (first | with_reducible assumption | with_reducible apply keeps_raise | simp only [keeps_mk])

theorem keeps_ppsEdge {a d : Dev} (h : a.Keeps d) (x1 : Bool) : a.Keeps (ppsEdge d x1) := by
  unfold ppsEdge
  try dsimp only
  repeat' (first | with_reducible assumption | intro _ | with_reducible apply keeps_bump | with_reducible apply keeps_violate | with_reducible apply keeps_foldl | with_reducible apply keeps_ite | split | simp only [keeps_mk])

theorem keeps_enterHoldover {a d : Dev} (h : a.Keeps d) : a.Keeps (enterHoldover d) := by
  unfold enterHoldover
  try dsimp only
  repeat' (first | with_reducible assumption | with_reducible apply keeps_raise | with_reducible apply keeps_bump | with_reducible apply keeps_ite | split | simp only [keeps_mk])

theorem keeps_syncDone {a d : Dev} (h : a.Keeps d) (x1 : Nat) (x2 : Int) (x3 : Int) : a.Keeps (syncDone d x1 x2 x3) := by
  unfold syncDone
  try dsimp only
  repeat' (first | with_reducible assumption | split | simp only [keeps_mk])

theorem keeps_setSource {a d : Dev} (h : a.Keeps d) (x1 : Nat) : a.Keeps (setSource d x1) := by
  unfold setSource
  try dsimp only
  repeat' (first | with_reducible assumption | with_reducible apply keeps_raise | with_reducible apply keeps_ite | split | simp only [keeps_mk])

theorem keeps_sourceLost {a d : Dev} (h : a.Keeps d) : a.Keeps (sourceLost d) := by
  unfold sourceLost
  try dsimp only
  repeat' (first | with_reducible assumption | with_reducible apply keeps_setSource | with_reducible apply keeps_enterHoldover | with_reducible apply keeps_ite | split | simp only [keeps_mk])

theorem keeps_lockStep {a d : Dev} (h : a.Keeps d) (x1 : Int) : a.Keeps (lockStep d x1) := by
  unfold lockStep
  try dsimp only
  repeat' (first | with_reducible assumption | with_reducible apply keeps_ite | split | simp only [keeps_mk])

theorem keeps_feed {a d : Dev} (h : a.Keeps d) (x1 : Int) : a.Keeps (feed d x1) := by
  unfold feed
  try dsimp only
  repeat' (first | with_reducible assumption | with_reducible apply keeps_lockStep | with_reducible apply keeps_bump | with_reducible apply keeps_raise | with_reducible apply keeps_ite | split | simp only [keeps_mk])

theorem keeps_endCands {a d : Dev} (h : a.Keeps d) : a.Keeps (endCands d) := by
  unfold endCands
  try dsimp only
  repeat' (first | with_reducible assumption | with_reducible apply keeps_bump | with_reducible apply keeps_ite | split | simp only [keeps_mk])

theorem keeps_judge {a d : Dev} (h : a.Keeps d) (x1 : Nat) (x2 : Int) : a.Keeps (judge d x1 x2) := by
  unfold judge
  try dsimp only
  repeat' (first | with_reducible assumption | with_reducible apply keeps_feed | with_reducible apply keeps_endCands | with_reducible apply keeps_lockStep | with_reducible apply keeps_raise | with_reducible apply keeps_bump | with_reducible apply keeps_enterHoldover | with_reducible apply keeps_ite | split | simp only [keeps_mk])

theorem keeps_syncRx {a d : Dev} (h : a.Keeps d) (x1 : Bool) : a.Keeps (syncRx d x1) := by
  unfold syncRx
  try dsimp only
  repeat' (first | with_reducible assumption | with_reducible apply keeps_bump | with_reducible apply keeps_syncDone | with_reducible apply keeps_ite | split | simp only [keeps_mk])

theorem keeps_drainStamp {a d : Dev} (h : a.Keeps d) (x1 : Stamp) : a.Keeps (drainStamp d x1) := by
  have h1 : a.Keeps { d with ev := { d.ev with seq := d.ev.seq + 1 } } := keeps_ev h rfl id rfl rfl
  unfold drainStamp
  dsimp only
  repeat' split
  · exact h1
  · exact keeps_putEvent h1 _
  · exact keeps_bump (keeps_sendHost h1 _ _ _ _) _ _
  · exact h1

theorem keeps_todRx {a d : Dev} (h : a.Keeps d) (x1 : List Byte) : a.Keeps (todRx d x1) := by
  unfold todRx
  try dsimp only
  repeat' (first | with_reducible assumption | with_reducible apply keeps_bump | with_reducible apply keeps_violate | with_reducible apply keeps_ite | split | simp only [keeps_mk])

theorem keeps_measure1 {a d : Dev} (h : a.Keeps d) : a.Keeps (measure1 d) := by
  unfold measure1
  try dsimp only
  repeat' (first | with_reducible assumption | intro _ | with_reducible apply keeps_acquire | with_reducible apply keeps_setSource | with_reducible apply keeps_endRestep | with_reducible apply keeps_feed | with_reducible apply keeps_exitHoldover | with_reducible apply keeps_endCands | with_reducible apply keeps_judge | with_reducible apply keeps_getD | with_reducible apply keeps_ite | split | simp only [keeps_mk])

theorem keeps_todOut {a d : Dev} (h : a.Keeps d) : a.Keeps (todOut d) := by
  unfold todOut
  try dsimp only
  repeat' (first | with_reducible assumption | with_reducible apply keeps_draw | with_reducible apply keeps_emit | with_reducible apply keeps_ite | with_reducible apply keeps_ite_fst | with_reducible apply keeps_ite_snd | split)

end Dev

end Sys2Proof.Machine
end

