-- ==== Sys2Proof/Laws/KeepsTables.lean ====
section
/-! SUPPORT. What the operations of Machine/Tables.lean keep (see Laws/Keeps.lean). -/

-- One proof at a time: the package compiles as one text, and proofs elaborated side by side each take a thread's stack.
set_option Elab.async false
-- The proofs search: each goal uses some of the alternatives.
set_option linter.all false

namespace Sys2Proof.Machine

namespace Dev

theorem keeps_clearStaged {a d : Dev} (h : a.Keeps d) (x1 : Nat) : a.Keeps (clearStaged d x1) := by
  unfold clearStaged
  try dsimp only
  repeat' (first | with_reducible assumption | split | simp only [keeps_mk])

theorem keeps_setRebuild {a d : Dev} (h : a.Keeps d) (x1 : Nat) (x2 : RebuildSt) : a.Keeps (setRebuild d x1 x2) := by
  unfold setRebuild
  try dsimp only
  repeat' (first | with_reducible assumption | split | simp only [keeps_mk])

theorem keeps_rebuildFail {a d : Dev} (h : a.Keeps d) (x1 : Nat) : a.Keeps (rebuildFail d x1) := by
  unfold rebuildFail
  try dsimp only
  repeat' (first | with_reducible assumption | intro _ | with_reducible apply keeps_bump | with_reducible apply keeps_clearStaged | with_reducible apply keeps_setRebuild | with_reducible apply keeps_raise | with_reducible apply keeps_complete | with_reducible apply keeps_foldl | simp only [keeps_mk])

theorem keeps_dual {a d : Dev} (h : a.Keeps d) (x1 : Nat) (x2 : Nat) (x3 : Bool) : a.Keeps (dual d x1 x2 x3) := by
  unfold dual
  try dsimp only
  repeat' (first | with_reducible assumption | with_reducible apply keeps_rebuildFail | with_reducible apply keeps_setRebuild | with_reducible apply keeps_ite | split | simp only [keeps_mk])

theorem keeps_putRoute {a d : Dev} (h : a.Keeps d) (x1 : RouteEntry) (x2 : Bool) : ∀ y, (putRoute d x1 x2) = some y → a.Keeps y := by
  intro y e
  simp only [putRoute, Option.map_eq_some_iff] at e
  obtain ⟨b, -, rfl⟩ := e
  refine keeps_dual ?_ _ _ _
  rw [keeps_mk]
  exact h

theorem keeps_vgReport {a d : Dev} (h : a.Keeps d) (x1 : Nat) (x2 : Nat) (x3 : List Byte) : a.Keeps (vgReport d x1 x2 x3) := by
  unfold vgReport
  try dsimp only
  repeat' (first | with_reducible assumption | with_reducible apply keeps_bump | with_reducible apply keeps_raise | with_reducible apply keeps_ite | split | simp only [keeps_mk])

theorem keeps_vgRouteWalk {a d : Dev} (h : a.Keeps d) (x1 : Nat) : a.Keeps (vgRouteWalk d x1) := by
  unfold vgRouteWalk
  try dsimp only
  repeat' (first | with_reducible assumption | with_reducible refine keeps_putRoute ?_ _ _ | intro _ | with_reducible apply keeps_vgReport | with_reducible apply keeps_getD | with_reducible apply keeps_ite | with_reducible apply keeps_ite_fst | with_reducible apply keeps_ite_snd | split | simp only [keeps_mk])

theorem keeps_releaseAddr {a d : Dev} (h : a.Keeps d) (x1 : Nat) (x2 : Nat) : a.Keeps (releaseAddr d x1 x2) := by
  unfold releaseAddr
  try dsimp only
  repeat' (first | with_reducible assumption | with_reducible apply keeps_modPan | with_reducible apply keeps_ite | split | simp only [keeps_mk])

theorem keeps_eraseNode {a d : Dev} (h : a.Keeps d) (x1 : Nat) : a.Keeps (eraseNode d x1) := by
  unfold eraseNode
  try dsimp only
  repeat' (first | with_reducible assumption | with_reducible apply keeps_dual | simp only [keeps_mk])

theorem keeps_removeNode {a d : Dev} (h : a.Keeps d) (x1 : NodeEntry) : a.Keeps (removeNode d x1) := by
  unfold removeNode
  try dsimp only
  repeat' (first | with_reducible assumption | with_reducible apply keeps_eraseNode | with_reducible apply keeps_ite | split | simp only [keeps_mk])

theorem keeps_nodeDelete {a d : Dev} (h : a.Keeps d) (x1 : Bool) (x2 : List Byte) : a.Keeps (nodeDelete d x1 x2).1 := by
  unfold nodeDelete
  try dsimp only
  repeat' (first | with_reducible assumption | with_reducible apply keeps_releaseAddr | with_reducible apply keeps_removeNode | with_reducible apply keeps_ite | with_reducible apply keeps_ite_fst | with_reducible apply keeps_ite_snd | split | simp only [keeps_mk])

theorem keeps_seenClearOld {a d : Dev} (h : a.Keeps d) : a.Keeps (seenClearOld d) := by
  unfold seenClearOld
  try dsimp only
  repeat' (first | with_reducible assumption | with_reducible apply keeps_draw | with_reducible apply keeps_ite | with_reducible apply keeps_ite_fst | with_reducible apply keeps_ite_snd | split | simp only [keeps_mk])

theorem keeps_seenFlush {a d : Dev} (h : a.Keeps d) : a.Keeps (seenFlush d) := by
  unfold seenFlush
  try dsimp only
  repeat' (first | with_reducible assumption | with_reducible apply keeps_seenClearOld | simp only [keeps_mk])

theorem keeps_modNode {a d : Dev} (h : a.Keeps d) (x1 : Nat) (x2 : Nat) (x3 : NodeEntry → NodeEntry) : a.Keeps (modNode d x1 x2 x3) := by
  unfold modNode
  try dsimp only
  repeat' (first | with_reducible assumption | with_reducible apply keeps_dual | with_reducible apply keeps_ite | split | simp only [keeps_mk])

theorem keeps_takeAddr {a d : Dev} (h : a.Keeps d) (x1 : Nat) (x2 : Nat) : a.Keeps (takeAddr d x1 x2) := by
  unfold takeAddr
  try dsimp only
  repeat' (first | with_reducible assumption | with_reducible apply keeps_modPan | simp only [keeps_mk])

theorem keeps_allocAddr {a d : Dev} (h : a.Keeps d) (x1 : Nat) : ∀ y, (allocAddr d x1) = some y → a.Keeps y.2 := by
  intro y e
  simp only [allocAddr, Option.map_eq_some_iff] at e
  obtain ⟨b, -, rfl⟩ := e
  dsimp only
  exact keeps_modPan (keeps_takeAddr h _ _) _ _

theorem keeps_hintFail {a d : Dev} (h : a.Keeps d) (x1 : NodeEntry) : a.Keeps (hintFail d x1) := by
  unfold hintFail
  try dsimp only
  repeat' (first | with_reducible assumption | with_reducible apply keeps_raise | with_reducible apply keeps_bump)

theorem keeps_putNode {a d : Dev} (h : a.Keeps d) (x1 : NodeEntry) : a.Keeps (putNode d x1) := by
  unfold putNode
  try dsimp only
  repeat' (first | with_reducible assumption | with_reducible apply keeps_dual | with_reducible apply keeps_hintFail | with_reducible apply keeps_ite | split | simp only [keeps_mk])

theorem keeps_setSeen {a d : Dev} (h : a.Keeps d) (x1 : Nat) (x2 : SeenEntry) : a.Keeps (setSeen d x1 x2) := by
  unfold setSeen
  try dsimp only
  repeat' (first | with_reducible assumption | simp only [keeps_mk])

theorem keeps_seenTouch {a d : Dev} (h : a.Keeps d) (x1 : Nat) (x2 : Nat) (x3 : Nat) (x4 : Bool) : a.Keeps (seenTouch d x1 x2 x3 x4) := by
  unfold seenTouch
  try dsimp only
  repeat' (first | with_reducible assumption | with_reducible apply keeps_setSeen | simp only [keeps_mk])

theorem keeps_seenInsert {a d : Dev} (h : a.Keeps d) (x1 : SeenEntry) : a.Keeps (seenInsert d x1) := by
  unfold seenInsert
  try dsimp only
  repeat' (first | with_reducible assumption | with_reducible apply keeps_setSeen | with_reducible apply keeps_bump | with_reducible apply keeps_ite | split | simp only [keeps_mk])

theorem keeps_hitNode {a d : Dev} (h : a.Keeps d) (x1 : Nat) (x2 : Nat) : a.Keeps (hitNode d x1 x2) := by
  unfold hitNode
  try dsimp only
  repeat' (first | with_reducible assumption | with_reducible apply keeps_modNode | with_reducible apply keeps_ite | split | simp only [keeps_mk])

theorem keeps_nodeAdd {a d : Dev} (h : a.Keeps d) (x1 : Bool) (x2 : List Byte) : a.Keeps (nodeAdd d x1 x2).1 := by
  unfold nodeAdd
  extract_lets i e b alloc live o elsewhere place
  refine keeps_ite_fst h (keeps_ite_fst h (keeps_ite_fst h ?_))
  have hp : ∀ z, place = some z → a.Keeps z.2 := by
    intro z hz
    dsimp only [place] at hz
    split at hz
    · cases hz
      exact keeps_ite h (keeps_takeAddr h _ _)
    · split at hz
      · simp only [Option.map_eq_some_iff] at hz
        obtain ⟨b, -, rfl⟩ := hz
        dsimp only
        exact keeps_modPan h _ _
      · exact keeps_allocAddr h _ _ hz
  clear_value place
  split
  · exact h
  · rename_i p0 loc d'
    have hd := hp _ rfl
    dsimp only at hd
    refine keeps_ite_fst ?_ (keeps_putNode hd _)
    have hd2 : ∀ x, a.Keeps { d' with tbl := { d'.tbl with nodeStaged := x } } := by
      intro x
      rw [keeps_mk]
      exact hd
    exact keeps_ite (hd2 _) (keeps_hintFail (hd2 _) _)

theorem keeps_nodeClear {a d : Dev} (h : a.Keeps d) (x1 : Bool) (x2 : List Byte) : a.Keeps (nodeClear d x1 x2).1 := by
  unfold nodeClear
  try dsimp only
  repeat' (first | with_reducible assumption | with_reducible apply keeps_modNode | with_reducible apply keeps_ite | with_reducible apply keeps_ite_fst | with_reducible apply keeps_ite_snd | split | simp only [keeps_mk])

theorem keeps_routeAdd {a d : Dev} (h : a.Keeps d) (x1 : Bool) (x2 : List Byte) : a.Keeps (routeAdd d x1 x2).1 := by
  unfold routeAdd
  try dsimp only
  repeat' (first | with_reducible assumption | with_reducible refine keeps_putRoute ?_ _ _ | intro _ | with_reducible apply keeps_bump | with_reducible apply keeps_ite | with_reducible apply keeps_ite_fst | with_reducible apply keeps_ite_snd | split | simp only [keeps_mk] | with_reducible refine keeps_some ‹_› ?_)

theorem keeps_eraseRoute {a d : Dev} (h : a.Keeps d) (x1 : Nat) (x2 : Nat) : a.Keeps (eraseRoute d x1 x2) := by
  unfold eraseRoute
  try dsimp only
  repeat' (first | with_reducible assumption | with_reducible apply keeps_dual | simp only [keeps_mk])

theorem keeps_routeDelete {a d : Dev} (h : a.Keeps d) (x1 : Bool) (x2 : List Byte) : a.Keeps (routeDelete d x1 x2).1 := by
  unfold routeDelete
  try dsimp only
  repeat' (first | with_reducible assumption | with_reducible apply keeps_eraseRoute | with_reducible apply keeps_ite | with_reducible apply keeps_ite_fst | with_reducible apply keeps_ite_snd | split | simp only [keeps_mk])

theorem keeps_routeClear {a d : Dev} (h : a.Keeps d) (x1 : Bool) (x2 : List Byte) : a.Keeps (routeClear d x1 x2).1 := by
  unfold routeClear
  try dsimp only
  repeat' (first | with_reducible assumption | with_reducible refine keeps_putRoute ?_ _ _ | intro _ | with_reducible apply keeps_getD | with_reducible apply keeps_ite | with_reducible apply keeps_ite_fst | with_reducible apply keeps_ite_snd | split | simp only [keeps_mk] | with_reducible refine keeps_some ‹_› ?_)

theorem keeps_putPfx {a d : Dev} (h : a.Keeps d) (x1 : PrefixEntry) (x2 : Bool) : ∀ y, (putPfx d x1 x2) = some y → a.Keeps y := by
  intro y e
  simp only [putPfx, Option.map_eq_some_iff] at e
  obtain ⟨b, -, rfl⟩ := e
  refine keeps_dual ?_ _ _ _
  rw [keeps_mk]
  exact h

theorem keeps_pfxAdd {a d : Dev} (h : a.Keeps d) (x1 : Bool) (x2 : List Byte) : a.Keeps (pfxAdd d x1 x2).1 := by
  unfold pfxAdd
  try dsimp only
  repeat' (first | with_reducible assumption | with_reducible refine keeps_putPfx ?_ _ _ | intro _ | with_reducible apply keeps_bump | with_reducible apply keeps_ite | with_reducible apply keeps_ite_fst | with_reducible apply keeps_ite_snd | split | simp only [keeps_mk] | with_reducible refine keeps_some ‹_› ?_)

theorem keeps_erasePfx {a d : Dev} (h : a.Keeps d) (x1 : List Byte) (x2 : Nat) : a.Keeps (erasePfx d x1 x2) := by
  unfold erasePfx
  try dsimp only
  repeat' (first | with_reducible assumption | with_reducible apply keeps_dual | simp only [keeps_mk])

theorem keeps_pfxDelete {a d : Dev} (h : a.Keeps d) (x1 : Bool) (x2 : List Byte) : a.Keeps (pfxDelete d x1 x2).1 := by
  unfold pfxDelete
  try dsimp only
  repeat' (first | with_reducible assumption | with_reducible apply keeps_erasePfx | with_reducible apply keeps_ite | with_reducible apply keeps_ite_fst | with_reducible apply keeps_ite_snd | split | simp only [keeps_mk])

theorem keeps_pfxClear {a d : Dev} (h : a.Keeps d) (x1 : Bool) (x2 : List Byte) : a.Keeps (pfxClear d x1 x2).1 := by
  unfold pfxClear
  try dsimp only
  repeat' (first | with_reducible assumption | with_reducible refine keeps_putPfx ?_ _ _ | intro _ | with_reducible apply keeps_getD | with_reducible apply keeps_ite | with_reducible apply keeps_ite_fst | with_reducible apply keeps_ite_snd | split | simp only [keeps_mk] | with_reducible refine keeps_some ‹_› ?_)

theorem keeps_tblRun {a d : Dev} (h : a.Keeps d) (x1 : Opcode) (x2 : Nat) (x3 : Bool) (x4 : List Byte) : a.Keeps (tblRun d x1 x2 x3 x4).1 := by
  unfold tblRun
  try dsimp only
  repeat' (first | with_reducible assumption | with_reducible apply keeps_nodeAdd | with_reducible apply keeps_nodeDelete | with_reducible apply keeps_nodeClear | with_reducible apply keeps_routeAdd | with_reducible apply keeps_routeDelete | with_reducible apply keeps_routeClear | with_reducible apply keeps_pfxAdd | with_reducible apply keeps_pfxDelete | with_reducible apply keeps_pfxClear | split | simp only [keeps_mk] | with_reducible refine keeps_fst ‹_› ?_)

theorem keeps_vgPfx {a d : Dev} (h : a.Keeps d) (x1 : List Byte) : a.Keeps (vgPfx d x1) := by
  unfold vgPfx
  try dsimp only
  repeat' (first | with_reducible assumption | with_reducible refine keeps_putPfx ?_ _ _ | intro _ | with_reducible apply keeps_vgReport | with_reducible apply keeps_getD | with_reducible apply keeps_ite | with_reducible apply keeps_ite_fst | with_reducible apply keeps_ite_snd | split | simp only [keeps_mk] | with_reducible refine keeps_some ‹_› ?_)

theorem keeps_rekeyApply {a d : Dev} (h : a.Keeps d) (x1 : Cmd) : a.Keeps (rekeyApply d x1) := by
  unfold rekeyApply
  try dsimp only
  repeat' (first | with_reducible assumption | with_reducible apply keeps_completeStaged | with_reducible apply keeps_modNode | split | simp only [keeps_mk])

theorem keeps_seenFlushCmd {a d : Dev} (h : a.Keeps d) (x1 : Hdr) : a.Keeps (seenFlushCmd d x1) := by
  unfold seenFlushCmd
  try dsimp only
  repeat' (first | with_reducible assumption | intro _ | with_reducible apply keeps_command | with_reducible apply keeps_stageCmd)

theorem keeps_tblCmd {a d : Dev} (h : a.Keeps d) (x1 : Hdr) (x2 : Opcode) (x3 : Nat) (x4 : List Byte) : a.Keeps (tblCmd d x1 x2 x3 x4) := by
  unfold tblCmd
  try dsimp only
  repeat' (first | with_reducible assumption | intro _ | with_reducible apply keeps_command | with_reducible apply keeps_complete | with_reducible apply keeps_tblRun | with_reducible apply keeps_stageCmd | with_reducible apply keeps_ite | with_reducible apply keeps_ite_fst | with_reducible apply keeps_ite_snd | split)

theorem keeps_rebuildAbandon {a d : Dev} (h : a.Keeps d) (x1 : Hdr) (x2 : List Byte) : a.Keeps (rebuildAbandon d x1 x2) := by
  unfold rebuildAbandon
  try dsimp only
  repeat' (first | with_reducible assumption | intro _ | with_reducible apply keeps_command | with_reducible apply keeps_complete | with_reducible apply keeps_clearStaged | with_reducible apply keeps_setRebuild | with_reducible apply keeps_ite | split)

theorem keeps_rebuildSwap {a d : Dev} (h : a.Keeps d) (x1 : Hdr) (x2 : List Byte) : a.Keeps (rebuildSwap d x1 x2) := by
  unfold rebuildSwap
  try dsimp only
  repeat' (first | with_reducible assumption | intro _ | with_reducible apply keeps_command | with_reducible apply keeps_complete | with_reducible apply keeps_stageCmd | with_reducible apply keeps_setRebuild | with_reducible apply keeps_ite | split | simp only [keeps_mk])

theorem keeps_rebuildStart {a d : Dev} (h : a.Keeps d) (x1 : Hdr) (x2 : List Byte) (x3 : Nat) : a.Keeps (rebuildStart d x1 x2 x3) := by
  unfold rebuildStart
  try dsimp only
  repeat' (first | with_reducible assumption | intro _ | with_reducible apply keeps_command | with_reducible apply keeps_complete | with_reducible apply keeps_draw | with_reducible apply keeps_setRebuild | with_reducible apply keeps_ite | with_reducible apply keeps_ite_fst | with_reducible apply keeps_ite_snd | split | simp only [keeps_mk] | with_reducible refine keeps_snd ‹_› ?_)

theorem keeps_nodeRekey {a d : Dev} (h : a.Keeps d) (x1 : Hdr) (x2 : List Byte) : a.Keeps (nodeRekey d x1 x2) := by
  unfold nodeRekey
  try dsimp only
  repeat' (first | with_reducible assumption | intro _ | with_reducible apply keeps_command | with_reducible apply keeps_complete | with_reducible apply keeps_stageCmd | with_reducible apply keeps_ite | split | simp only [keeps_mk])

theorem keeps_tblApply {a d : Dev} (h : a.Keeps d) (x1 : Cmd) : a.Keeps (tblApply d x1) := by
  unfold tblApply
  try dsimp only
  repeat' (first | with_reducible assumption | with_reducible apply keeps_tblRun | with_reducible apply keeps_completeStaged | with_reducible apply keeps_ite | with_reducible apply keeps_ite_fst | with_reducible apply keeps_ite_snd | split | simp only [keeps_mk])

theorem keeps_stageNode {a d : Dev} (h : a.Keeps d) (x1 : Nat) (x2 : Bool) : a.Keeps (stageNode d x1 x2) := by
  unfold stageNode
  try dsimp only
  repeat' (first | with_reducible assumption | with_reducible apply keeps_hintFail | with_reducible apply keeps_ite | split | simp only [keeps_mk])

theorem keeps_stageRoute {a d : Dev} (h : a.Keeps d) (x1 : Nat) (x2 : Nat) (x3 : Bool) : a.Keeps (stageRoute d x1 x2 x3) := by
  unfold stageRoute
  try dsimp only
  repeat' (first | with_reducible assumption | intro _ | with_reducible apply keeps_bump | with_reducible apply keeps_getD | with_reducible apply keeps_ite | split | simp only [keeps_mk])

theorem keeps_stagePfx {a d : Dev} (h : a.Keeps d) (x1 : List Byte) (x2 : Nat) (x3 : Bool) : a.Keeps (stagePfx d x1 x2 x3) := by
  unfold stagePfx
  try dsimp only
  repeat' (first | with_reducible assumption | intro _ | with_reducible apply keeps_bump | with_reducible apply keeps_getD | with_reducible apply keeps_ite | split | simp only [keeps_mk])

theorem keeps_stageKey {a d : Dev} (h : a.Keeps d) (x1 : Nat) (x2 : Nat) (x3 : Bool) : a.Keeps (stageKey d x1 x2 x3) := by
  unfold stageKey
  try dsimp only
  repeat' (first | with_reducible assumption | with_reducible apply keeps_stageNode | with_reducible apply keeps_stageRoute | with_reducible apply keeps_stagePfx | split | simp only [keeps_mk])

theorem keeps_drainDual {a d : Dev} (h : a.Keeps d) (x1 : Nat) : a.Keeps (drainDual d x1) := by
  unfold drainDual
  try dsimp only
  repeat' (first | with_reducible assumption | with_reducible apply keeps_stageKey | with_reducible apply keeps_setRebuild | split | simp only [keeps_mk])

theorem keeps_drainDuals {a d : Dev} (h : a.Keeps d) (x1 : Nat) : a.Keeps (drainDuals d x1) := by
  unfold drainDuals
  try dsimp only
  repeat' (first | with_reducible assumption | intro _ | with_reducible apply keeps_drainDual | with_reducible apply keeps_foldl)

theorem keeps_swapApply {a d : Dev} (h : a.Keeps d) (x1 : Cmd) : a.Keeps (swapApply d x1) := by
  unfold swapApply
  try dsimp only
  repeat' (first | with_reducible assumption | intro _ | with_reducible apply keeps_completeStaged | with_reducible apply keeps_setRebuild | with_reducible apply keeps_drainDuals | with_reducible apply keeps_releaseAddr | with_reducible apply keeps_takeAddr | with_reducible apply keeps_foldl | with_reducible apply keeps_ite | split | simp only [keeps_mk])

theorem keeps_vgRoute {a d : Dev} (h : a.Keeps d) (x1 : List Byte) : a.Keeps (vgRoute d x1) := by
  unfold vgRoute
  try dsimp only
  repeat' (first | with_reducible assumption | with_reducible refine keeps_putRoute ?_ _ _ | intro _ | with_reducible apply keeps_vgReport | with_reducible apply keeps_getD | with_reducible apply keeps_ite | with_reducible apply keeps_ite_fst | with_reducible apply keeps_ite_snd | split | simp only [keeps_mk] | with_reducible refine keeps_some ‹_› ?_)

theorem keeps_vgNextStage {a d : Dev} (h : a.Keeps d) : a.Keeps (vgNextStage d) := by
  unfold vgNextStage
  try dsimp only
  repeat' (first | with_reducible assumption | with_reducible apply keeps_raise | split | simp only [keeps_mk])

theorem keeps_vgAdvance {a d : Dev} (h : a.Keeps d) : a.Keeps (vgAdvance d) := by
  unfold vgAdvance
  try dsimp only
  repeat' (first | with_reducible assumption | intro _ | with_reducible apply keeps_vgNextStage | with_reducible apply keeps_foldl | with_reducible apply keeps_ite | split | simp only [keeps_mk])

theorem keeps_copyOne {a d : Dev} (h : a.Keeps d) (x1 : Nat) : a.Keeps (copyOne d x1) := by
  unfold copyOne
  try dsimp only
  repeat' (first | with_reducible assumption | with_reducible apply keeps_stageKey | with_reducible apply keeps_setRebuild | split | simp only [keeps_mk])

theorem keeps_sweepNode {a d : Dev} (h : a.Keeps d) (x1 : Nat) : a.Keeps (sweepNode d x1) := by
  unfold sweepNode
  try dsimp only
  repeat' (first | with_reducible assumption | intro _ | with_reducible apply keeps_bump | with_reducible apply keeps_eraseNode | with_reducible apply keeps_raise | with_reducible apply keeps_getD | with_reducible apply keeps_ite | split)

theorem keeps_background {a d : Dev} (h : a.Keeps d) : a.Keeps (background d) := by
  unfold background
  try dsimp only
  repeat' (first | with_reducible assumption | with_reducible apply keeps_drainDual | with_reducible apply keeps_copyOne | with_reducible apply keeps_sweepNode | with_reducible apply keeps_bump | with_reducible apply keeps_eraseRoute | with_reducible apply keeps_seenClearOld | split | simp only [keeps_mk])

theorem keeps_copyDone {a d : Dev} (h : a.Keeps d) (x1 : Nat) : a.Keeps (copyDone d x1) := by
  unfold copyDone
  try dsimp only
  repeat' (first | with_reducible assumption | intro _ | with_reducible apply keeps_copyOne | with_reducible apply keeps_raise | with_reducible apply keeps_setRebuild | with_reducible apply keeps_foldl | with_reducible apply keeps_ite | split | simp only [keeps_mk])

theorem keeps_ageOut {a d : Dev} (h : a.Keeps d) (x1 : Nat) : a.Keeps (ageOut d x1) := by
  unfold ageOut
  try dsimp only
  repeat' (first | with_reducible assumption | with_reducible apply keeps_releaseAddr | with_reducible apply keeps_modNode | with_reducible apply keeps_ite | split | simp only [keeps_mk])

theorem keeps_vgNode {a d : Dev} (h : a.Keeps d) (x1 : Nat) (x2 : List Byte) : a.Keeps (vgNode d x1 x2) := by
  unfold vgNode
  try dsimp only
  repeat' (first | with_reducible assumption | with_reducible apply keeps_vgReport | with_reducible apply keeps_modNode | with_reducible apply keeps_ite | split | simp only [keeps_mk])

theorem keeps_vgPfxWalk {a d : Dev} (h : a.Keeps d) (x1 : Nat) : a.Keeps (vgPfxWalk d x1) := by
  unfold vgPfxWalk
  try dsimp only
  repeat' (first | with_reducible assumption | with_reducible refine keeps_putPfx ?_ _ _ | intro _ | with_reducible apply keeps_vgReport | with_reducible apply keeps_getD | with_reducible apply keeps_ite | with_reducible apply keeps_ite_fst | with_reducible apply keeps_ite_snd | split | simp only [keeps_mk])

theorem keeps_vgCompare {a d : Dev} (h : a.Keeps d) : a.Keeps (vgCompare d) := by
  unfold vgCompare
  try dsimp only
  repeat' (first | with_reducible assumption | with_reducible apply keeps_vgNode | with_reducible apply keeps_vgRoute | with_reducible apply keeps_vgRouteWalk | with_reducible apply keeps_vgPfx | with_reducible apply keeps_vgPfxWalk | with_reducible apply keeps_vgAdvance | with_reducible apply keeps_ite | split | simp only [keeps_mk])

theorem keeps_verdigris {a d : Dev} (h : a.Keeps d) : a.Keeps (verdigris d) := by
  unfold verdigris
  try dsimp only
  repeat' (first | with_reducible assumption | with_reducible apply keeps_vgCompare | with_reducible apply keeps_ite | split | simp only [keeps_mk])

end Dev

end Sys2Proof.Machine
end

