-- ==== Sys2Proof/Laws/KeepsTm.lean ====
section
/-! SUPPORT. What the operations of Machine/Tm.lean keep (see Laws/Keeps.lean). -/

-- One proof at a time: the package compiles as one text, and proofs elaborated side by side each take a thread's stack.
set_option Elab.async false
-- The proofs search: each goal uses some of the alternatives.
set_option linter.all false

namespace Sys2Proof.Machine

namespace Dev

theorem keeps_offer {a d : Dev} (h : a.Keeps d) (x1 : Nat) (x2 : List QItem) (x3 : Nat) (x4 : Bool) : a.Keeps (offer d x1 x2 x3 x4).1 := by
  unfold offer
  try dsimp only
  repeat' (first | with_reducible assumption | intro _ | with_reducible apply keeps_bump | with_reducible apply keeps_setQueue | with_reducible apply keeps_foldl | with_reducible apply keeps_ite | with_reducible apply keeps_ite_fst | with_reducible apply keeps_ite_snd | split)

theorem keeps_chargeAt {a d : Dev} (h : a.Keeps d) (x1 : Nat) (x2 : Nat) : a.Keeps (chargeAt d x1 x2) := by
  unfold chargeAt
  try dsimp only
  repeat' (first | with_reducible assumption | intro _ | with_reducible apply keeps_bump | with_reducible apply keeps_foldl | with_reducible apply keeps_ite | split | simp only [keeps_mk])

theorem keeps_chargeDequeue {a d : Dev} (h : a.Keeps d) (x1 : Nat) : a.Keeps (chargeDequeue d x1) := by
  unfold chargeDequeue
  try dsimp only
  repeat' (first | with_reducible assumption | with_reducible apply keeps_chargeAt)

theorem keeps_pushFront {a d : Dev} (h : a.Keeps d) (x1 : Nat) (x2 : TxFrame) : a.Keeps (pushFront d x1 x2) := by
  unfold pushFront
  try dsimp only
  repeat' (first | with_reducible assumption | with_reducible apply keeps_setQueue)

theorem keeps_installTree {a d : Dev} (h : a.Keeps d) (x1 : List (List Byte)) (x2 : List (List Byte)) (x3 : List (List Byte)) : a.Keeps (installTree d x1 x2 x3) := by
  unfold installTree
  try dsimp only
  repeat' (first | with_reducible assumption | intro _ | with_reducible apply keeps_foldl | with_reducible apply keeps_ite | split | simp only [keeps_mk])

theorem keeps_tmSet {a d : Dev} (h : a.Keeps d) (x1 : Hdr) (x2 : List Byte) : a.Keeps (tmSet d x1 x2) := by
  unfold tmSet
  try dsimp only
  repeat' (first | with_reducible assumption | intro _ | with_reducible apply keeps_command | with_reducible apply keeps_complete | with_reducible apply keeps_stageCmd | with_reducible apply keeps_ite | split)

theorem keeps_refill {a d : Dev} (h : a.Keeps d) : a.Keeps (refill d) := by
  unfold refill
  try dsimp only
  repeat' (first | with_reducible assumption | with_reducible apply keeps_bump | simp only [keeps_mk])

theorem keeps_tmSetApply {a d : Dev} (h : a.Keeps d) (x1 : Cmd) : a.Keeps (tmSetApply d x1) := by
  unfold tmSetApply
  try dsimp only
  repeat' (first | with_reducible assumption | with_reducible apply keeps_completeStaged | with_reducible apply keeps_ite | split | simp only [keeps_mk])

end Dev

end Sys2Proof.Machine
end

