-- ==== Sys2Proof/Laws/KeepsLanes.lean ====
section
/-! SUPPORT. What the operations of Machine/Lanes.lean keep (see Laws/Keeps.lean). -/

-- One proof at a time: the package compiles as one text, and proofs elaborated side by side each take a thread's stack.
set_option Elab.async false
-- The proofs search: each goal uses some of the alternatives.
set_option linter.all false

namespace Sys2Proof.Machine

namespace Dev

theorem keeps_endWaitFor {a d : Dev} (h : a.Keeps d) (x1 : Nat) (x2 : Nat) : a.Keeps (endWaitFor d x1 x2) := by
  unfold endWaitFor
  try dsimp only
  repeat' (first | with_reducible assumption | intro _ | with_reducible apply keeps_each | with_reducible apply keeps_modCarrier | with_reducible apply keeps_each | with_reducible apply keeps_ite | split | simp only [keeps_mk])

theorem keeps_airRecord {a d : Dev} (h : a.Keeps d) (x1 : RxRecord) (x2 : List Byte) : a.Keeps (airRecord d x1 x2).2 := by
  unfold airRecord
  try dsimp only
  repeat' (first | with_reducible assumption | with_reducible apply keeps_draw | split)

theorem keeps_surveyFrame {a d : Dev} (h : a.Keeps d) (x1 : List Byte) : a.Keeps (surveyFrame d x1).2 := by
  unfold surveyFrame
  try dsimp only
  repeat' (first | with_reducible assumption | with_reducible apply keeps_draw | with_reducible apply keeps_ite | with_reducible apply keeps_ite_fst | with_reducible apply keeps_ite_snd | split)

theorem keeps_deliverAir {a d : Dev} (h : a.Keeps d) (x1 : RxRecord) (x2 : List Byte) : a.Keeps (deliverAir d x1 x2) := by
  unfold deliverAir
  try dsimp only
  repeat' (first | with_reducible assumption | with_reducible apply keeps_airRecord | with_reducible apply keeps_surveyFrame | with_reducible apply keeps_offer | with_reducible apply keeps_ite | with_reducible apply keeps_ite_fst | with_reducible apply keeps_ite_snd | split)

theorem keeps_closeRx {a d : Dev} (h : a.Keeps d) (x1 : Nat) (x2 : Nat) (x3 : Nat) (x4 : Nat) (x5 : List Byte) : a.Keeps (closeRx d x1 x2 x3 x4 x5) := by
  unfold closeRx
  try dsimp only
  repeat' (first | with_reducible assumption | intro _ | with_reducible apply keeps_modLane | with_reducible apply keeps_endWaitFor | with_reducible apply keeps_asFrame | with_reducible apply keeps_bump | with_reducible apply keeps_modPort | with_reducible apply keeps_deliverAir | with_reducible apply keeps_ite | split | simp only [keeps_mk])

theorem keeps_freeOctets {a d : Dev} (h : a.Keeps d) (x1 : Nat) : a.Keeps (freeOctets d x1).2 := by
  unfold freeOctets
  try dsimp only
  repeat' (first | with_reducible assumption | with_reducible apply keeps_draw | split)

theorem keeps_abandon {a d : Dev} (h : a.Keeps d) (x1 : Nat) (x2 : Nat) : a.Keeps (abandon d x1 x2) := by
  unfold abandon
  try dsimp only
  repeat' (first | with_reducible assumption | with_reducible apply keeps_draw | with_reducible apply keeps_closeRx | with_reducible apply keeps_drawTo | with_reducible apply keeps_freeOctets | with_reducible apply keeps_modLane | with_reducible apply keeps_ite | with_reducible apply keeps_ite_fst | with_reducible apply keeps_ite_snd | split | simp only [keeps_mk] | with_reducible refine keeps_snd ‹_› ?_)

theorem keeps_restLane {a d : Dev} (h : a.Keeps d) (x1 : Nat) : a.Keeps (restLane d x1) := by
  unfold restLane
  try dsimp only
  repeat' (first | with_reducible assumption | with_reducible apply keeps_modLane | with_reducible apply keeps_ite | split | simp only [keeps_mk])

theorem keeps_evalLane {a d : Dev} (h : a.Keeps d) (x1 : Nat) : a.Keeps (evalLane d x1) := by
  unfold evalLane
  try dsimp only
  repeat' (first | with_reducible assumption | with_reducible apply keeps_modLane | with_reducible apply keeps_abandon | with_reducible apply keeps_restLane | with_reducible apply keeps_ite | split | simp only [keeps_mk])

theorem keeps_evalTimes {a d : Dev} (h : a.Keeps d) (x0 : Nat) : a.Keeps (evalTimes x0 d) := by
  induction x0 generalizing d with
  | zero => exact h
  | succ n ih =>
    have h1 := keeps_each h d.activeLanes (fun d l => d.evalLane l) fun y l hy => keeps_evalLane hy _
    exact keeps_ite h1 (ih (keeps_each h1 _ _ fun y l hy => keeps_modLane hy _ _))

theorem keeps_evalLanes {a d : Dev} (h : a.Keeps d) : a.Keeps (evalLanes d) := by
  unfold evalLanes
  try dsimp only
  repeat' (first | with_reducible assumption | with_reducible apply keeps_evalTimes)

theorem keeps_releaseLane {a d : Dev} (h : a.Keeps d) (x1 : Nat) : a.Keeps (releaseLane d x1) := by
  unfold releaseLane
  try dsimp only
  repeat' (first | with_reducible assumption | with_reducible apply keeps_evalLanes | with_reducible apply keeps_modLane | with_reducible apply keeps_ite | split | simp only [keeps_mk])

theorem keeps_laneExchEnd {a d : Dev} (h : a.Keeps d) (x1 : Nat) : a.Keeps (laneExchEnd d x1) := by
  unfold laneExchEnd
  try dsimp only
  repeat' (first | with_reducible assumption | with_reducible apply keeps_releaseLane | with_reducible apply keeps_modLane | simp only [keeps_mk])

theorem keeps_markAllBusy {a d : Dev} (h : a.Keeps d) (x1 : Nat) : a.Keeps (markAllBusy d x1) := by
  unfold markAllBusy
  try dsimp only
  repeat' (first | with_reducible assumption | intro _ | with_reducible apply keeps_each | with_reducible apply keeps_modCarrier | with_reducible apply keeps_each | with_reducible apply keeps_ite | split | simp only [keeps_mk])

theorem keeps_blankLane {a d : Dev} (h : a.Keeps d) (x1 : Nat) : a.Keeps (blankLane d x1) := by
  unfold blankLane
  try dsimp only
  repeat' (first | with_reducible assumption | with_reducible apply keeps_releaseLane | with_reducible apply keeps_modLane | with_reducible apply keeps_abandon | with_reducible apply keeps_ite | split | simp only [keeps_mk])

theorem keeps_blankPort {a d : Dev} (h : a.Keeps d) (x1 : Nat) : a.Keeps (blankPort d x1) := by
  unfold blankPort
  try dsimp only
  repeat' (first | with_reducible assumption | intro _ | with_reducible apply keeps_each | with_reducible apply keeps_blankLane | with_reducible apply keeps_each)

theorem keeps_searchPort {a d : Dev} (h : a.Keeps d) (x1 : Nat) : a.Keeps (searchPort d x1) := by
  unfold searchPort
  try dsimp only
  repeat' (first | with_reducible assumption | intro _ | with_reducible apply keeps_each | with_reducible apply keeps_restLane | with_reducible apply keeps_each | with_reducible apply keeps_ite | split)

theorem keeps_dropRecord {a d : Dev} (h : a.Keeps d) (x1 : Nat) (x2 : Nat) : a.Keeps (dropRecord d x1 x2) := by
  unfold dropRecord
  try dsimp only
  repeat' (first | with_reducible assumption | with_reducible apply keeps_modPort | simp only [keeps_mk])

theorem keeps_detect {a d : Dev} (h : a.Keeps d) (x1 : Nat) (x2 : Int) : a.Keeps (detect d x1 x2) := by
  unfold detect
  try dsimp only
  repeat' (first | with_reducible assumption | with_reducible apply keeps_bump | with_reducible apply keeps_modLane | with_reducible apply keeps_abandon | with_reducible apply keeps_ite | split | simp only [keeps_mk])

theorem keeps_psduEnd {a d : Dev} (h : a.Keeps d) (x1 : Nat) (x2 : List Byte) : a.Keeps (psduEnd d x1 x2) := by
  unfold psduEnd
  try dsimp only
  repeat' (first | with_reducible assumption | with_reducible apply keeps_modLane | with_reducible apply keeps_closeRx | with_reducible apply keeps_releaseLane | with_reducible apply keeps_restLane | with_reducible apply keeps_detect | with_reducible apply keeps_ite | split | simp only [keeps_mk])

theorem keeps_latchNoise {a d : Dev} (h : a.Keeps d) (x1 : Nat) : a.Keeps (latchNoise d x1) := by
  unfold latchNoise
  try dsimp only
  repeat' (first | with_reducible assumption | with_reducible apply keeps_modLane | with_reducible apply keeps_ite | split | simp only [keeps_mk])

theorem keeps_holdLane {a d : Dev} (h : a.Keeps d) (x1 : Nat) : a.Keeps (holdLane d x1) := by
  unfold holdLane
  try dsimp only
  repeat' (first | with_reducible assumption | with_reducible apply keeps_modLane | with_reducible apply keeps_ite | split | simp only [keeps_mk])

theorem keeps_markBusy {a d : Dev} (h : a.Keeps d) (x1 : Nat) (x2 : Nat) (x3 : Nat) : a.Keeps (markBusy d x1 x2 x3) := by
  unfold markBusy
  try dsimp only
  repeat' (first | with_reducible assumption | intro _ | with_reducible apply keeps_each | with_reducible apply keeps_modCarrier | with_reducible apply keeps_each | with_reducible apply keeps_ite | split | simp only [keeps_mk])

theorem keeps_phrCheck {a d : Dev} (h : a.Keeps d) (x1 : Nat) (x2 : Nat) : a.Keeps (phrCheck d x1 x2) := by
  unfold phrCheck
  try dsimp only
  repeat' (first | with_reducible assumption | with_reducible apply keeps_releaseLane | with_reducible apply keeps_restLane | with_reducible apply keeps_closeRx | with_reducible apply keeps_modLane | with_reducible apply keeps_ite | split | simp only [keeps_mk])

theorem keeps_syncMatch {a d : Dev} (h : a.Keeps d) (x1 : Nat) (x2 : Nat) (x3 : Int) (x4 : Int) (x5 : Int) : a.Keeps (syncMatch d x1 x2 x3 x4 x5) := by
  unfold syncMatch
  try dsimp only
  repeat' (first | with_reducible assumption | with_reducible apply keeps_markBusy | with_reducible apply keeps_modLane | with_reducible apply keeps_modPort | split | simp only [keeps_mk])

theorem keeps_syncTimeout {a d : Dev} (h : a.Keeps d) (x1 : Nat) : a.Keeps (syncTimeout d x1) := by
  unfold syncTimeout
  try dsimp only
  repeat' (first | with_reducible assumption | with_reducible apply keeps_releaseLane | with_reducible apply keeps_bump | with_reducible apply keeps_restLane | with_reducible apply keeps_modLane | with_reducible apply keeps_ite | split | simp only [keeps_mk])

end Dev

end Sys2Proof.Machine
end

