-- ==== Sys2Proof/Laws/KeepsRadio.lean ====
section
/-! SUPPORT. What the operations of Machine/Radio.lean keep (see Laws/Keeps.lean). -/

-- One proof at a time: the package compiles as one text, and proofs elaborated side by side each take a thread's stack.
set_option Elab.async false
-- The proofs search: each goal uses some of the alternatives.
set_option linter.all false

namespace Sys2Proof.Machine

namespace Dev

theorem keeps_coexFall {a d : Dev} (h : a.Keeps d) (x1 : Nat) : a.Keeps (coexFall d x1) := by
  unfold coexFall
  try dsimp only
  repeat' (first | with_reducible assumption | with_reducible apply keeps_modPort | simp only [keeps_mk])

theorem keeps_coexRaise {a d : Dev} (h : a.Keeps d) (x1 : Nat) (x2 : Bool) : a.Keeps (coexRaise d x1 x2) := by
  unfold coexRaise
  try dsimp only
  repeat' (first | with_reducible assumption | with_reducible apply keeps_modPort | with_reducible apply keeps_ite | split | simp only [keeps_mk])

theorem keeps_refreshFem {a d : Dev} (h : a.Keeps d) (x1 : Nat) : a.Keeps (refreshFem d x1) := by
  unfold refreshFem
  try dsimp only
  repeat' (first | with_reducible assumption | with_reducible apply keeps_modPort | simp only [keeps_mk])

theorem keeps_setSt {a d : Dev} (h : a.Keeps d) (x1 : Nat) (x2 : PortState) (x3 : PortStep) : a.Keeps (setSt d x1 x2 x3) := by
  unfold setSt
  try dsimp only
  repeat' (first | with_reducible assumption | with_reducible apply keeps_modPort | with_reducible apply keeps_markAllBusy | with_reducible apply keeps_blankPort | with_reducible apply keeps_searchPort | with_reducible apply keeps_refreshFem | with_reducible apply keeps_ite | split | simp only [keeps_mk])

theorem keeps_startCal {a d : Dev} (h : a.Keeps d) (x1 : Nat) (x2 : List Nat) (x3 : Bool) (x4 : Option Cmd) : a.Keeps (startCal d x1 x2 x3 x4) := by
  unfold startCal
  try dsimp only
  repeat' (first | with_reducible assumption | with_reducible apply keeps_setSt | with_reducible apply keeps_modPort | simp only [keeps_mk])

theorem keeps_portStart {a d : Dev} (h : a.Keeps d) (x1 : Nat) (x2 : PortStep) : a.Keeps (portStart d x1 x2) := by
  unfold portStart
  try dsimp only
  repeat' (first | with_reducible assumption | with_reducible apply keeps_modPort | with_reducible apply keeps_startCal | with_reducible apply keeps_ite | split | simp only [keeps_mk])

theorem keeps_tempMeasure {a d : Dev} (h : a.Keeps d) (x1 : Nat) (x2 : Int) : a.Keeps (tempMeasure d x1 x2) := by
  unfold tempMeasure
  try dsimp only
  repeat' (first | with_reducible assumption | with_reducible apply keeps_modPort | with_reducible apply keeps_raise | with_reducible apply keeps_ite | split | simp only [keeps_mk])

theorem keeps_retuneTo {a d : Dev} (h : a.Keeps d) (x1 : Nat) (x2 : Nat) : a.Keeps (retuneTo d x1 x2) := by
  unfold retuneTo
  try dsimp only
  repeat' (first | with_reducible assumption | with_reducible apply keeps_setSt | with_reducible apply keeps_modPort | with_reducible apply keeps_ite | split | simp only [keeps_mk])

theorem keeps_seqCal {a d : Dev} (h : a.Keeps d) (x1 : Nat) (x2 : Nat) (x3 : Nat) : a.Keeps (seqCal d x1 x2 x3) := by
  unfold seqCal
  try dsimp only
  repeat' (first | with_reducible assumption | with_reducible apply keeps_startCal | with_reducible apply keeps_ite | split)

theorem keeps_runDeferred {a d : Dev} (h : a.Keeps d) (x1 : Nat) (x2 : SeqDeferred) : a.Keeps (runDeferred d x1 x2) := by
  unfold runDeferred
  try dsimp only
  repeat' (first | with_reducible assumption | with_reducible apply keeps_retuneTo | with_reducible apply keeps_seqCal | with_reducible apply keeps_ite | split)

theorem keeps_enterRx {a d : Dev} (h : a.Keeps d) (x1 : Nat) : a.Keeps (enterRx d x1) := by
  unfold enterRx
  try dsimp only
  repeat' (first | with_reducible assumption | intro _ | with_reducible apply keeps_setSt | with_reducible apply keeps_modPort | with_reducible apply keeps_retuneTo | with_reducible apply keeps_runDeferred | with_reducible apply keeps_foldl | with_reducible apply keeps_ite | split | simp only [keeps_mk])

theorem keeps_synthLock {a d : Dev} (h : a.Keeps d) (x1 : Nat) : a.Keeps (synthLock d x1) := by
  unfold synthLock
  try dsimp only
  repeat' (first | with_reducible assumption | with_reducible apply keeps_enterRx | with_reducible apply keeps_setSt | with_reducible apply keeps_modPort | with_reducible apply keeps_evalLanes | with_reducible apply keeps_ite | split | simp only [keeps_mk])

theorem keeps_calDone {a d : Dev} (h : a.Keeps d) (x1 : Nat) (x2 : Nat) (x3 : Nat) (x4 : Int) : a.Keeps (calDone d x1 x2 x3 x4) := by
  unfold calDone
  try dsimp only
  repeat' (first | with_reducible assumption | intro _ | with_reducible apply keeps_bump | with_reducible apply keeps_modPort | with_reducible apply keeps_raise | with_reducible apply keeps_setSt | with_reducible apply keeps_enterRx | with_reducible apply keeps_complete | with_reducible apply keeps_foldl | with_reducible apply keeps_ite | split | simp only [keeps_mk])

theorem keeps_setIndex {a d : Dev} (h : a.Keeps d) (x1 : Nat) (x2 : Nat) : a.Keeps (setIndex d x1 x2) := by
  unfold setIndex
  try dsimp only
  repeat' (first | with_reducible assumption | with_reducible apply keeps_refreshFem | with_reducible apply keeps_modPort | simp only [keeps_mk])

theorem keeps_agcClamp {a d : Dev} (h : a.Keeps d) (x1 : Nat) : a.Keeps (agcClamp d x1) := by
  unfold agcClamp
  try dsimp only
  repeat' (first | with_reducible assumption | with_reducible apply keeps_setIndex | with_reducible apply keeps_ite | split)

theorem keeps_femLeads {a d : Dev} (h : a.Keeps d) : a.Keeps (femLeads d) := by
  unfold femLeads
  try dsimp only
  repeat' (first | with_reducible assumption | intro _ | with_reducible apply keeps_each | with_reducible apply keeps_refreshFem | with_reducible apply keeps_modPort | with_reducible apply keeps_each | with_reducible apply keeps_ite | split | simp only [keeps_mk])

theorem keeps_spiShift {a d : Dev} (h : a.Keeps d) (x1 : Nat) (x2 : Bool) (x3 : Nat) : a.Keeps (spiShift d x1 x2 x3) := by
  unfold spiShift
  try dsimp only
  repeat' (first | with_reducible assumption | with_reducible apply keeps_emit | with_reducible apply keeps_ite | split)

theorem keeps_spiBegin {a d : Dev} (h : a.Keeps d) (x1 : Nat) (x2 : SpiTxn) : a.Keeps (spiBegin d x1 x2) := by
  unfold spiBegin
  try dsimp only
  repeat' (first | with_reducible assumption | with_reducible apply keeps_spiShift | with_reducible apply keeps_modPort | with_reducible apply keeps_ite | split | simp only [keeps_mk])

theorem keeps_spiHostBegin {a d : Dev} (h : a.Keeps d) (x1 : Nat) (x2 : SpiTxn) : a.Keeps (spiHostBegin d x1 x2) := by
  unfold spiHostBegin
  try dsimp only
  repeat' (first | with_reducible assumption | with_reducible apply keeps_modPort | with_reducible apply keeps_spiBegin | split | simp only [keeps_mk])

theorem keeps_femSpi {a d : Dev} (h : a.Keeps d) (x1 : Hdr) (x2 : List Byte) (x3 : Bool) : a.Keeps (femSpi d x1 x2 x3) := by
  unfold femSpi
  try dsimp only
  repeat' (first | with_reducible assumption | intro _ | with_reducible apply keeps_command | with_reducible apply keeps_complete | with_reducible apply keeps_spiHostBegin | with_reducible apply keeps_holdCmd | with_reducible apply keeps_ite | split)

theorem keeps_spiNext {a d : Dev} (h : a.Keeps d) (x1 : Nat) : a.Keeps (spiNext d x1) := by
  unfold spiNext
  try dsimp only
  repeat' (first | with_reducible assumption | with_reducible apply keeps_spiBegin | with_reducible apply keeps_modPort | split | simp only [keeps_mk])

theorem keeps_agcForced {a d : Dev} (h : a.Keeps d) (x1 : Nat) (x2 : Nat) : a.Keeps (agcForced d x1 x2) := by
  unfold agcForced
  try dsimp only
  repeat' (first | with_reducible assumption | intro _ | with_reducible apply keeps_modPort | with_reducible apply keeps_bump | with_reducible apply keeps_setIndex | with_reducible apply keeps_each | with_reducible apply keeps_modLane | with_reducible apply keeps_each | with_reducible apply keeps_ite | split | simp only [keeps_mk])

theorem keeps_seqSpi {a d : Dev} (h : a.Keeps d) (x1 : Nat) (x2 : W32) : a.Keeps (seqSpi d x1 x2) := by
  unfold seqSpi
  try dsimp only
  repeat' (first | with_reducible assumption | with_reducible apply keeps_bump | with_reducible apply keeps_modPort | with_reducible apply keeps_spiBegin | split | simp only [keeps_mk])

theorem keeps_agcStep {a d : Dev} (h : a.Keeps d) (x1 : Nat) (x2 : Nat) (x3 : Nat) : a.Keeps (agcStep d x1 x2 x3) := by
  unfold agcStep
  try dsimp only
  repeat' (first | with_reducible assumption | with_reducible apply keeps_modPort | with_reducible apply keeps_agcClamp | with_reducible apply keeps_bump | with_reducible apply keeps_setIndex | with_reducible apply keeps_ite | split | simp only [keeps_mk])

end Dev

end Sys2Proof.Machine
end

