-- ==== Sys2Proof/Laws/KeepsMesh.lean ====
section
/-! SUPPORT. What the operations of Machine/Mesh.lean keep (see Laws/Keeps.lean). -/

-- One proof at a time: the package compiles as one text, and proofs elaborated side by side each take a thread's stack.
set_option Elab.async false
-- The proofs search: each goal uses some of the alternatives.
set_option linter.all false

namespace Sys2Proof.Machine

namespace Dev

theorem keeps_setSharedOf {a d : Dev} (h : a.Keeps d) (x1 : TxFrame) (x2 : Shared) : a.Keeps (setSharedOf d x1 x2).1 := by
  unfold setSharedOf
  try dsimp only
  repeat' (first | with_reducible assumption | with_reducible apply keeps_setShared | with_reducible apply keeps_ite | with_reducible apply keeps_ite_fst | with_reducible apply keeps_ite_snd | split | simp only [keeps_mk])

theorem keeps_giveBack {a d : Dev} (h : a.Keeps d) (x1 : TxFrame) : a.Keeps (giveBack d x1).1 := by
  unfold giveBack
  try dsimp only
  repeat' (first | with_reducible assumption | with_reducible apply keeps_modPan | with_reducible apply keeps_setSharedOf | with_reducible apply keeps_ite | with_reducible apply keeps_ite_fst | with_reducible apply keeps_ite_snd | split | simp only [keeps_mk])

theorem keeps_logFrame {a d : Dev} (h : a.Keeps d) (x1 : Nat) (x2 : Status) : a.Keeps (logFrame d x1 x2) := by
  unfold logFrame
  try dsimp only
  repeat' (first | with_reducible assumption | with_reducible apply keeps_emit)

theorem keeps_takeDsn {a d : Dev} (h : a.Keeps d) (x1 : TxFrame) : a.Keeps (takeDsn d x1).1 := by
  unfold takeDsn
  try dsimp only
  repeat' (first | with_reducible assumption | with_reducible apply keeps_setSharedOf | with_reducible apply keeps_modPan | split | simp only [keeps_mk] | with_reducible refine keeps_fst ‹_› ?_)

theorem keeps_fcEvent {a d : Dev} (h : a.Keeps d) (x1 : Nat) (x2 : Nat) (x3 : Nat) : a.Keeps (fcEvent d x1 x2 x3) := by
  unfold fcEvent
  try dsimp only
  repeat' (first | with_reducible assumption | with_reducible apply keeps_raise)

theorem keeps_fcExhausted {a d : Dev} (h : a.Keeps d) (x1 : Nat) (x2 : Nat) : a.Keeps (fcExhausted d x1 x2) := by
  unfold fcExhausted
  try dsimp only
  repeat' (first | with_reducible assumption | with_reducible apply keeps_bump | with_reducible apply keeps_fcEvent | with_reducible apply keeps_ite | split | simp only [keeps_mk])

theorem keeps_measured {a d : Dev} (h : a.Keeps d) (x1 : Nat) (x2 : Nat) (x3 : Nat) (x4 : TxFrame) (x5 : Nat) : a.Keeps (measured d x1 x2 x3 x4 x5).1 := by
  unfold measured
  try dsimp only
  repeat' (first | with_reducible assumption | with_reducible apply keeps_giveBack | with_reducible apply keeps_ite | with_reducible apply keeps_ite_fst | with_reducible apply keeps_ite_snd | split)

theorem keeps_panFcExhausted {a d : Dev} (h : a.Keeps d) (x1 : Nat) : a.Keeps (panFcExhausted d x1) := by
  unfold panFcExhausted
  try dsimp only
  repeat' (first | with_reducible assumption | with_reducible apply keeps_bump | with_reducible apply keeps_fcEvent | with_reducible apply keeps_ite | split | simp only [keeps_mk])

theorem keeps_reserveFlood {a d : Dev} (h : a.Keeps d) (x1 : TxFrame) : ∀ y, (reserveFlood d x1) = some y → a.Keeps y.1 := by
  intro y e
  unfold reserveFlood at e
  try dsimp only at e
  repeat' split at e
  all_goals first | contradiction | (cases e)
  all_goals try dsimp only
  all_goals repeat' (first | with_reducible assumption | with_reducible apply keeps_setSharedOf | with_reducible apply keeps_modPan | with_reducible apply keeps_ite | with_reducible apply keeps_ite_fst | with_reducible apply keeps_ite_snd | split | simp only [keeps_mk])

theorem keeps_withMesh {a d : Dev} (h : a.Keeps d) (x1 : Nat) (x2 : Nat) (x3 : Nat) (x4 : TxFrame) (x5 : Nat) (x6 : MeshIe) (x7 : Bool) : a.Keeps (withMesh d x1 x2 x3 x4 x5 x6 x7).1 := by
  unfold withMesh
  try dsimp only
  repeat' (first | with_reducible assumption | with_reducible refine keeps_reserveFlood ?_ _ | intro _ | with_reducible apply keeps_bump | with_reducible apply keeps_setSharedOf | with_reducible apply keeps_measured | with_reducible apply keeps_ite | with_reducible apply keeps_ite_fst | with_reducible apply keeps_ite_snd | split | simp only [keeps_mk] | with_reducible refine keeps_fst ‹_› ?_ | with_reducible refine keeps_some_snd ‹_› ?_ | with_reducible refine keeps_some_fst ‹_› ?_)

theorem keeps_release {a d : Dev} (h : a.Keeps d) (x1 : Nat) (x2 : Nat) (x3 : Nat) (x4 : TxFrame) (x5 : Nat) : a.Keeps (release d x1 x2 x3 x4 x5).1 := by
  unfold release
  try dsimp only
  repeat' (first | with_reducible assumption | with_reducible apply keeps_measured | with_reducible apply keeps_bump | with_reducible apply keeps_panFcExhausted | with_reducible apply keeps_withMesh | with_reducible apply keeps_requestKey | with_reducible apply keeps_fcExhausted | with_reducible apply keeps_ite | with_reducible apply keeps_ite_fst | with_reducible apply keeps_ite_snd | split | simp only [keeps_mk] | with_reducible refine keeps_fst ‹_› ?_)

theorem keeps_grantAck {a d : Dev} (h : a.Keeps d) (x1 : TxFrame) : ∀ y, (grantAck d x1) = some y → a.Keeps y.1 := by
  intro y e
  unfold grantAck at e
  try dsimp only at e
  repeat' split at e
  all_goals first | contradiction | (cases e)
  all_goals try dsimp only
  all_goals repeat' (first | with_reducible assumption | with_reducible apply keeps_modNode | with_reducible apply keeps_bump | with_reducible apply keeps_ite | with_reducible apply keeps_ite_fst | with_reducible apply keeps_ite_snd | split | simp only [keeps_mk])

theorem keeps_originate {a d : Dev} (h : a.Keeps d) (x1 : Nat) (x2 : MeshIe) (x3 : Nat) : a.Keeps (originate d x1 x2 x3) := by
  unfold originate
  try dsimp only
  repeat' (first | with_reducible assumption | with_reducible apply keeps_seenInsert | with_reducible apply keeps_bump | split | simp only [keeps_mk])

theorem keeps_takeFlood {a d : Dev} (h : a.Keeps d) (x1 : TxFrame) : a.Keeps (takeFlood d x1).1 := by
  unfold takeFlood
  try dsimp only
  repeat' (first | with_reducible assumption | with_reducible apply keeps_modPan | with_reducible apply keeps_setSharedOf | with_reducible apply keeps_originate | with_reducible apply keeps_ite | with_reducible apply keeps_ite_fst | with_reducible apply keeps_ite_snd | split | simp only [keeps_mk] | with_reducible refine keeps_fst ‹_› ?_)

theorem keeps_grantData {a d : Dev} (h : a.Keeps d) (x1 : TxFrame) : ∀ y, (grantData d x1) = some y → a.Keeps y.1 := by
  intro y e
  unfold grantData at e
  try dsimp only at e
  repeat' split at e
  all_goals first | contradiction | (cases e)
  all_goals try dsimp only
  all_goals repeat' (first | with_reducible assumption | with_reducible apply keeps_modPan | with_reducible apply keeps_modNode | with_reducible apply keeps_takeFlood | with_reducible apply keeps_setSharedOf | with_reducible apply keeps_bump | with_reducible apply keeps_ite | with_reducible apply keeps_ite_fst | with_reducible apply keeps_ite_snd | split | simp only [keeps_mk] | with_reducible refine keeps_fst ‹_› ?_)

end Dev

end Sys2Proof.Machine
end

