-- ==== Sys2Proof/Laws/KeepsCarrier.lean ====
section
/-! SUPPORT. What the operations of Machine/Carrier.lean keep (see Laws/Keeps.lean). -/

-- One proof at a time: the package compiles as one text, and proofs elaborated side by side each take a thread's stack.
set_option Elab.async false
-- The proofs search: each goal uses some of the alternatives.
set_option linter.all false

namespace Sys2Proof.Machine

namespace Dev

theorem keeps_modTx {a d : Dev} (h : a.Keeps d) (x1 : Nat) (x2 : Bool) (x3 : Tx → Tx) : a.Keeps (modTx d x1 x2 x3) := by
  unfold modTx
  try dsimp only
  repeat' (first | with_reducible assumption | with_reducible apply keeps_modCarrier | with_reducible apply keeps_ite | split | simp only [keeps_mk])

theorem keeps_coexUpdate {a d : Dev} (h : a.Keeps d) (x1 : Nat) : a.Keeps (coexUpdate d x1) := by
  unfold coexUpdate
  try dsimp only
  repeat' (first | with_reducible assumption | with_reducible apply keeps_coexRaise)

theorem keeps_earlyFall {a d : Dev} (h : a.Keeps d) (x1 : Nat) : a.Keeps (earlyFall d x1) := by
  unfold earlyFall
  try dsimp only
  repeat' (first | with_reducible assumption | with_reducible apply keeps_coexFall | with_reducible apply keeps_coexUpdate | with_reducible apply keeps_ite | split)

theorem keeps_releaseCar {a d : Dev} (h : a.Keeps d) (x1 : Nat) : a.Keeps (releaseCar d x1) := by
  unfold releaseCar
  try dsimp only
  repeat' (first | with_reducible assumption | with_reducible apply keeps_modCarrier | with_reducible apply keeps_ite | split | simp only [keeps_mk])

theorem keeps_clearOwn {a d : Dev} (h : a.Keeps d) (x1 : Nat) : a.Keeps (clearOwn d x1) := by
  unfold clearOwn
  try dsimp only
  repeat' (first | with_reducible assumption | with_reducible apply keeps_releaseCar | with_reducible apply keeps_modCarrier | simp only [keeps_mk])

theorem keeps_noMore {a d : Dev} (h : a.Keeps d) (x1 : Nat) (x2 : Nat) (x3 : Bool) : a.Keeps (noMore d x1 x2 x3) := by
  unfold noMore
  try dsimp only
  repeat' (first | with_reducible assumption | with_reducible apply keeps_modCarrier | with_reducible apply keeps_ite | split | simp only [keeps_mk])

theorem keeps_setHead {a d : Dev} (h : a.Keeps d) (x1 : Nat) (x2 : TxFrame) : a.Keeps (setHead d x1 x2) := by
  unfold setHead
  try dsimp only
  repeat' (first | with_reducible assumption | with_reducible apply keeps_setQueue | with_reducible apply keeps_ite | split)

theorem keeps_subbandEvent {a d : Dev} (h : a.Keeps d) (x1 : Nat) (x2 : Nat) (x3 : Nat) : a.Keeps (subbandEvent d x1 x2 x3) := by
  unfold subbandEvent
  try dsimp only
  repeat' (first | with_reducible assumption | with_reducible apply keeps_raise | with_reducible apply keeps_ite | split | simp only [keeps_mk])

theorem keeps_countParked {a d : Dev} (h : a.Keeps d) (x1 : Nat) (x2 : Bool) (x3 : Status) : a.Keeps (countParked d x1 x2 x3) := by
  unfold countParked
  try dsimp only
  repeat' (first | with_reducible assumption | with_reducible apply keeps_bump | with_reducible apply keeps_subbandEvent | split | simp only [keeps_mk])

theorem keeps_countRefused {a d : Dev} (h : a.Keeps d) (x1 : Nat) (x2 : Bool) (x3 : Status) : a.Keeps (countRefused d x1 x2 x3) := by
  unfold countRefused
  try dsimp only
  repeat' (first | with_reducible assumption | with_reducible apply keeps_bump | with_reducible apply keeps_countParked | split | simp only [keeps_mk])

theorem keeps_refuseQueued {a d : Dev} (h : a.Keeps d) (x1 : Nat) (x2 : Status) (x3 : Bool) : a.Keeps (refuseQueued d x1 x2 x3) := by
  unfold refuseQueued
  try dsimp only
  repeat' (first | with_reducible assumption | with_reducible apply keeps_countRefused | with_reducible apply keeps_giveBack | with_reducible apply keeps_earlyFall | with_reducible apply keeps_clearOwn | with_reducible apply keeps_noMore | with_reducible apply keeps_logFrame | with_reducible apply keeps_setHead | split | simp only [keeps_mk] | with_reducible refine keeps_fst ‹_› ?_)

theorem keeps_ccaStart {a d : Dev} (h : a.Keeps d) (x1 : Nat) : a.Keeps (ccaStart d x1) := by
  unfold ccaStart
  try dsimp only
  repeat' (first | with_reducible assumption | with_reducible apply keeps_modTx | simp only [keeps_mk])

theorem keeps_refuseLate {a d : Dev} (h : a.Keeps d) (x1 : Nat) : a.Keeps (refuseLate d x1) := by
  unfold refuseLate
  try dsimp only
  repeat' (first | with_reducible assumption | with_reducible apply keeps_refuseQueued | with_reducible apply keeps_bump)

theorem keeps_csmaNext {a d : Dev} (h : a.Keeps d) (x1 : Nat) (x2 : Nat) : a.Keeps (csmaNext d x1 x2) := by
  unfold csmaNext
  try dsimp only
  repeat' (first | with_reducible assumption | with_reducible apply keeps_refuseLate | with_reducible apply keeps_refuseQueued | with_reducible apply keeps_bump | with_reducible apply keeps_ccaStart | with_reducible apply keeps_modTx | with_reducible apply keeps_ite | split | simp only [keeps_mk])

theorem keeps_backoff {a d : Dev} (h : a.Keeps d) (x1 : Nat) (x2 : Nat) : a.Keeps (backoff d x1 x2) := by
  unfold backoff
  try dsimp only
  repeat' (first | with_reducible assumption | with_reducible apply keeps_drawTo | with_reducible apply keeps_csmaNext | with_reducible apply keeps_modTx | split | simp only [keeps_mk] | with_reducible refine keeps_snd ‹_› ?_)

theorem keeps_dutyEvent {a d : Dev} (h : a.Keeps d) (x1 : Nat) (x2 : Nat) : a.Keeps (dutyEvent d x1 x2) := by
  unfold dutyEvent
  try dsimp only
  repeat' (first | with_reducible assumption | with_reducible apply keeps_raise | with_reducible apply keeps_ite | split | simp only [keeps_mk])

theorem keeps_modIndirect {a d : Dev} (h : a.Keeps d) (x1 : Option (Nat × W64)) (x2 : Indirect → Option Indirect) : a.Keeps (modIndirect d x1 x2) := by
  unfold modIndirect
  try dsimp only
  repeat' (first | with_reducible assumption | intro _ | with_reducible apply keeps_foldl | with_reducible apply keeps_ite | split | simp only [keeps_mk])

theorem keeps_clearHold {a d : Dev} (h : a.Keeps d) (x1 : Nat) : a.Keeps (clearHold d x1) := by
  unfold clearHold
  try dsimp only
  repeat' (first | with_reducible assumption | with_reducible apply keeps_releaseCar | with_reducible apply keeps_modCarrier | simp only [keeps_mk])

theorem keeps_indirectUnsent {a d : Dev} (h : a.Keeps d) (x1 : Nat) : a.Keeps (indirectUnsent d x1) := by
  unfold indirectUnsent
  try dsimp only
  repeat' (first | with_reducible assumption | with_reducible apply keeps_giveBack | with_reducible apply keeps_modIndirect | with_reducible apply keeps_bump | with_reducible apply keeps_clearHold | with_reducible apply keeps_ite | with_reducible apply keeps_ite_fst | with_reducible apply keeps_ite_snd | split | simp only [keeps_mk] | with_reducible refine keeps_fst ‹_› ?_)

theorem keeps_dropAck {a d : Dev} (h : a.Keeps d) (x1 : Nat) (x2 : Status) : a.Keeps (dropAck d x1 x2) := by
  unfold dropAck
  try dsimp only
  repeat' (first | with_reducible assumption | with_reducible apply keeps_bump | with_reducible apply keeps_countParked | with_reducible apply keeps_logFrame | with_reducible apply keeps_indirectUnsent | with_reducible apply keeps_laneExchEnd | with_reducible apply keeps_ite | split | simp only [keeps_mk])

theorem keeps_skipBeacon {a d : Dev} (h : a.Keeps d) (x1 : Nat) (x2 : Status) : a.Keeps (skipBeacon d x1 x2) := by
  unfold skipBeacon
  try dsimp only
  repeat' (first | with_reducible assumption | with_reducible apply keeps_logFrame | with_reducible apply keeps_clearOwn | with_reducible apply keeps_bump | with_reducible apply keeps_countParked | with_reducible apply keeps_earlyFall | with_reducible apply keeps_ite | split | simp only [keeps_mk])

theorem keeps_testDone {a d : Dev} (h : a.Keeps d) (x1 : Nat) (x2 : Status) (x3 : List Byte) : a.Keeps (testDone d x1 x2 x3) := by
  unfold testDone
  try dsimp only
  repeat' (first | with_reducible assumption | with_reducible apply keeps_clearOwn | with_reducible apply keeps_modCarrier | with_reducible apply keeps_complete | split | simp only [keeps_mk])

theorem keeps_dropCopy {a d : Dev} (h : a.Keeps d) (x1 : TxFrame) : a.Keeps (dropCopy d x1) := by
  unfold dropCopy
  try dsimp only
  repeat' (first | with_reducible assumption | with_reducible apply keeps_setShared | with_reducible apply keeps_ite | split | simp only [keeps_mk])

theorem keeps_takeFrame {a d : Dev} (h : a.Keeps d) (x1 : Nat) (x2 : Nat) : a.Keeps (takeFrame d x1 x2) := by
  unfold takeFrame
  try dsimp only
  repeat' (first | with_reducible assumption | with_reducible apply keeps_setQueue)

theorem keeps_discardQueued {a d : Dev} (h : a.Keeps d) (x1 : Nat) (x2 : Status) : a.Keeps (discardQueued d x1 x2) := by
  unfold discardQueued
  try dsimp only
  repeat' (first | with_reducible assumption | with_reducible apply keeps_countParked | with_reducible apply keeps_giveBack | with_reducible apply keeps_earlyFall | with_reducible apply keeps_clearOwn | with_reducible apply keeps_logFrame | with_reducible apply keeps_dropCopy | with_reducible apply keeps_takeFrame | split | simp only [keeps_mk] | with_reducible refine keeps_fst ‹_› ?_)

theorem keeps_refuse {a d : Dev} (h : a.Keeps d) (x1 : Nat) (x2 : Bool) (x3 : Status) : a.Keeps (refuse d x1 x2 x3) := by
  unfold refuse
  try dsimp only
  repeat' (first | with_reducible assumption | with_reducible apply keeps_dutyEvent | with_reducible apply keeps_dropAck | with_reducible apply keeps_skipBeacon | with_reducible apply keeps_bump | with_reducible apply keeps_countParked | with_reducible apply keeps_testDone | with_reducible apply keeps_indirectUnsent | with_reducible apply keeps_logFrame | with_reducible apply keeps_countRefused | with_reducible apply keeps_refuseLate | with_reducible apply keeps_discardQueued | with_reducible apply keeps_refuseQueued | with_reducible apply keeps_ite | split | simp only [keeps_mk])

theorem keeps_dutyCharge {a d : Dev} (h : a.Keeps d) (x1 : Nat) (x2 : Nat) : a.Keeps (dutyCharge d x1 x2) := by
  unfold dutyCharge
  try dsimp only
  repeat' (first | with_reducible assumption | simp only [keeps_mk])

theorem keeps_admitTx {a d : Dev} (h : a.Keeps d) (x1 : Nat) (x2 : Bool) (x3 : TxFrame) (x4 : Int) : a.Keeps (admitTx d x1 x2 x3 x4) := by
  unfold admitTx
  try dsimp only
  repeat' (first | with_reducible assumption | with_reducible apply keeps_dutyCharge | with_reducible apply keeps_bump | with_reducible apply keeps_modPort | with_reducible apply keeps_takeDsn | with_reducible apply keeps_takeFrame | with_reducible apply keeps_chargeDequeue | with_reducible apply keeps_modTx | with_reducible apply keeps_setSt | with_reducible apply keeps_coexUpdate | with_reducible apply keeps_ite | with_reducible apply keeps_ite_fst | with_reducible apply keeps_ite_snd | split | simp only [keeps_mk] | with_reducible refine keeps_fst ‹_› ?_)

theorem keeps_decideS {a d : Dev} (h : a.Keeps d) (x1 : Nat) (x2 : Bool) : a.Keeps (decideS d x1 x2) := by
  unfold decideS
  try dsimp only
  repeat' (first | with_reducible assumption | with_reducible apply keeps_refuse | with_reducible apply keeps_admitTx | split | simp only [keeps_mk])

theorem keeps_access {a d : Dev} (h : a.Keeps d) (x1 : Nat) : a.Keeps (access d x1) := by
  unfold access
  try dsimp only
  repeat' (first | with_reducible assumption | with_reducible apply keeps_modTx | with_reducible apply keeps_backoff | with_reducible apply keeps_csmaNext | with_reducible apply keeps_decideS | with_reducible apply keeps_ite | split | simp only [keeps_mk])

theorem keeps_gateOpens {a d : Dev} (h : a.Keeps d) : a.Keeps (gateOpens d) := by
  unfold gateOpens
  try dsimp only
  repeat' (first | with_reducible assumption | intro _ | with_reducible apply keeps_each | with_reducible apply keeps_portStart | with_reducible apply keeps_refreshFem | with_reducible apply keeps_each | with_reducible apply keeps_ite | split | simp only [keeps_mk])

theorem keeps_dutyWithdraw {a d : Dev} (h : a.Keeps d) (x1 : TxFrame) : a.Keeps (dutyWithdraw d x1) := by
  unfold dutyWithdraw
  try dsimp only
  repeat' (first | with_reducible assumption | split | simp only [keeps_mk])

theorem keeps_startReturn {a d : Dev} (h : a.Keeps d) (x1 : Nat) : a.Keeps (startReturn d x1) := by
  unfold startReturn
  try dsimp only
  repeat' (first | with_reducible assumption | with_reducible apply keeps_setSt | with_reducible apply keeps_modPort | with_reducible apply keeps_coexUpdate | with_reducible apply keeps_ite | split | simp only [keeps_mk])

theorem keeps_deny {a d : Dev} (h : a.Keeps d) (x1 : Nat) (x2 : Nat) (x3 : Tx) : a.Keeps (deny d x1 x2 x3) := by
  unfold deny
  try dsimp only
  repeat' (first | with_reducible assumption | with_reducible apply keeps_modPort | with_reducible apply keeps_ite | split | simp only [keeps_mk])

theorem keeps_ungranted {a d : Dev} (h : a.Keeps d) (x1 : Nat) (x2 : Bool) (x3 : TxFrame) (x4 : Status) : a.Keeps (ungranted d x1 x2 x3 x4) := by
  unfold ungranted
  try dsimp only
  repeat' (first | with_reducible assumption | with_reducible apply keeps_dutyWithdraw | with_reducible apply keeps_deny | with_reducible apply keeps_dropAck | with_reducible apply keeps_skipBeacon | with_reducible apply keeps_testDone | with_reducible apply keeps_clearHold | with_reducible apply keeps_logFrame | with_reducible apply keeps_dropCopy | with_reducible apply keeps_modIndirect | with_reducible apply keeps_indirectUnsent | with_reducible apply keeps_clearOwn | with_reducible apply keeps_giveBack | with_reducible apply keeps_noMore | with_reducible apply keeps_pushFront | with_reducible apply keeps_startReturn | with_reducible apply keeps_ite | with_reducible apply keeps_ite_fst | with_reducible apply keeps_ite_snd | split | simp only [keeps_mk] | with_reducible refine keeps_fst ‹_› ?_)

theorem keeps_noAck {a d : Dev} (h : a.Keeps d) (x1 : Nat) (x2 : Bool) : a.Keeps (noAck d x1 x2) := by
  unfold noAck
  try dsimp only
  repeat' (first | with_reducible assumption | with_reducible apply keeps_clearHold | with_reducible apply keeps_clearOwn | with_reducible apply keeps_bump | with_reducible apply keeps_logFrame | with_reducible apply keeps_modIndirect | with_reducible apply keeps_indirectUnsent | with_reducible apply keeps_dropCopy | with_reducible apply keeps_noMore | with_reducible apply keeps_pushFront | with_reducible apply keeps_ite | split | simp only [keeps_mk])

theorem keeps_frameDone {a d : Dev} (h : a.Keeps d) (x1 : Nat) (x2 : Bool) : a.Keeps (frameDone d x1 x2) := by
  unfold frameDone
  try dsimp only
  repeat' (first | with_reducible assumption | with_reducible apply keeps_clearHold | with_reducible apply keeps_clearOwn | with_reducible apply keeps_modIndirect | with_reducible apply keeps_dropCopy | with_reducible apply keeps_ite | split | simp only [keeps_mk])

theorem keeps_cutTx {a d : Dev} (h : a.Keeps d) (x1 : Nat) (x2 : Bool) : a.Keeps (cutTx d x1 x2) := by
  unfold cutTx
  try dsimp only
  repeat' (first | with_reducible assumption | with_reducible apply keeps_ungranted | with_reducible apply keeps_dropAck | with_reducible apply keeps_clearOwn | with_reducible apply keeps_testDone | with_reducible apply keeps_noAck | with_reducible apply keeps_frameDone | with_reducible apply keeps_ite | split | simp only [keeps_mk])

theorem keeps_endExch {a d : Dev} (h : a.Keeps d) (x1 : Nat) (x2 : Bool) : a.Keeps (endExch d x1 x2) := by
  unfold endExch
  try dsimp only
  repeat' (first | with_reducible assumption | intro _ | with_reducible apply keeps_modPort | with_reducible apply keeps_each | with_reducible apply keeps_laneExchEnd | with_reducible apply keeps_testDone | with_reducible apply keeps_releaseCar | with_reducible apply keeps_foldl | with_reducible apply keeps_each | with_reducible apply keeps_ite | split | simp only [keeps_mk])

theorem keeps_fall {a d : Dev} (h : a.Keeps d) (x1 : Nat) : a.Keeps (fall d x1) := by
  unfold fall
  try dsimp only
  repeat' (first | with_reducible assumption | intro _ | with_reducible apply keeps_cutTx | with_reducible apply keeps_modPort | with_reducible apply keeps_endExch | with_reducible apply keeps_setSt | with_reducible apply keeps_complete | with_reducible apply keeps_foldl | with_reducible apply keeps_ite | split | simp only [keeps_mk])

theorem keeps_gateClose {a d : Dev} (h : a.Keeps d) : a.Keeps (gateClose d) := by
  unfold gateClose
  try dsimp only
  repeat' (first | with_reducible assumption | intro _ | with_reducible apply keeps_each | with_reducible apply keeps_refreshFem | with_reducible apply keeps_fall | with_reducible apply keeps_each | with_reducible apply keeps_ite | split | simp only [keeps_mk])

theorem keeps_releaseOwn {a d : Dev} (h : a.Keeps d) : a.Keeps (releaseOwn d) := by
  unfold releaseOwn
  try dsimp only
  repeat' (first | with_reducible assumption | intro _ | with_reducible apply keeps_each | with_reducible apply keeps_gateClose | with_reducible apply keeps_modSeq | with_reducible apply keeps_each | simp only [keeps_mk])

theorem keeps_earlyReq {a d : Dev} (h : a.Keeps d) (x1 : Nat) (x2 : Nat) : a.Keeps (earlyReq d x1 x2) := by
  unfold earlyReq
  try dsimp only
  repeat' (first | with_reducible assumption | with_reducible apply keeps_coexUpdate | with_reducible apply keeps_modTx | with_reducible apply keeps_ite | split | simp only [keeps_mk])

theorem keeps_offerIndirect {a d : Dev} (h : a.Keeps d) (x1 : TxFrame) (x2 : Nat) (x3 : Nat) (x4 : W64) : a.Keeps (offerIndirect d x1 x2 x3 x4).1 := by
  unfold offerIndirect
  try dsimp only
  repeat' (first | with_reducible assumption | with_reducible apply keeps_ite | with_reducible apply keeps_ite_fst | with_reducible apply keeps_ite_snd | split | simp only [keeps_mk])

theorem keeps_waitForLock {a d : Dev} (h : a.Keeps d) (x1 : Nat) (x2 : Nat) (x3 : Nat) : a.Keeps (waitForLock d x1 x2 x3) := by
  unfold waitForLock
  try dsimp only
  repeat' (first | with_reducible assumption | with_reducible apply keeps_modCarrier | split | simp only [keeps_mk])

theorem keeps_startTx {a d : Dev} (h : a.Keeps d) (x1 : Nat) (x2 : Nat) (x3 : Nat) (x4 : Bool) : a.Keeps (startTx d x1 x2 x3 x4) := by
  unfold startTx
  try dsimp only
  repeat' (first | with_reducible assumption | with_reducible apply keeps_modCarrier | with_reducible apply keeps_offerIndirect | with_reducible apply keeps_takeFrame | with_reducible apply keeps_logFrame | with_reducible apply keeps_dropCopy | with_reducible apply keeps_release | with_reducible apply keeps_noMore | with_reducible apply keeps_setHead | with_reducible apply keeps_refuse | with_reducible apply keeps_earlyReq | with_reducible apply keeps_access | with_reducible apply keeps_ite | with_reducible apply keeps_ite_fst | with_reducible apply keeps_ite_snd | split | simp only [keeps_mk] | with_reducible refine keeps_fst ‹_› ?_)

theorem keeps_restartTx {a d : Dev} (h : a.Keeps d) (x1 : Nat) (x2 : Nat) (x3 : Nat) : a.Keeps (restartTx d x1 x2 x3) := by
  unfold restartTx
  try dsimp only
  repeat' (first | with_reducible assumption | with_reducible apply keeps_startTx | with_reducible apply keeps_modCarrier | with_reducible apply keeps_earlyFall | with_reducible apply keeps_modTx | with_reducible apply keeps_ite | split | simp only [keeps_mk])

theorem keeps_pumpOne {a d : Dev} (h : a.Keeps d) (x1 : Nat) : ∀ y, (pumpOne d x1) = some y → a.Keeps y := by
  intro y e
  unfold pumpOne at e
  split at e
  · contradiction
  · split at e
    · contradiction
    · split at e
      · simp only [Option.map_eq_some_iff] at e
        obtain ⟨b, -, rfl⟩ := e
        exact keeps_restartTx h _ _ _
      · split at e
        · simp only [Option.map_eq_some_iff] at e
          obtain ⟨b, -, rfl⟩ := e
          exact keeps_startTx h _ _ _ _
        · contradiction

theorem keeps_pumpPort {a d : Dev} (h : a.Keeps d) (x1 : Nat) (x2 : Nat) : a.Keeps (pumpPort d x1 x2) := by
  induction x2 generalizing d with
  | zero => exact h
  | succ n ih =>
    unfold pumpPort
    split
    · exact ih (keeps_pumpOne h _ _ ‹_›)
    · exact h

theorem keeps_pump {a d : Dev} (h : a.Keeps d) : a.Keeps (pump d) := by
  unfold pump
  try dsimp only
  repeat' (first | with_reducible assumption | intro _ | with_reducible apply keeps_each | with_reducible apply keeps_pumpPort | with_reducible apply keeps_foldl | with_reducible apply keeps_each)

theorem keeps_settle {a d : Dev} (h : a.Keeps d) : a.Keeps (settle d) := by
  unfold settle
  try dsimp only
  repeat' (first | with_reducible assumption | intro _ | with_reducible apply keeps_each | with_reducible apply keeps_noAck | with_reducible apply keeps_each | split | simp only [keeps_mk])

theorem keeps_gntFall {a d : Dev} (h : a.Keeps d) (x1 : Nat) : a.Keeps (gntFall d x1) := by
  unfold gntFall
  try dsimp only
  repeat' (first | with_reducible assumption | intro _ | with_reducible apply keeps_modPort | with_reducible apply keeps_bump | with_reducible apply keeps_modTx | with_reducible apply keeps_foldl | with_reducible apply keeps_ite | split | simp only [keeps_mk])

theorem keeps_holdCarrier {a d : Dev} (h : a.Keeps d) (x1 : Nat) : a.Keeps (holdCarrier d x1) := by
  unfold holdCarrier
  try dsimp only
  repeat' (first | with_reducible assumption | with_reducible apply keeps_modCarrier | with_reducible apply keeps_ite | split | simp only [keeps_mk])

theorem keeps_rampOut {a d : Dev} (h : a.Keeps d) (x1 : Nat) (x2 : Bool) (x3 : Bool) : a.Keeps (rampOut d x1 x2 x3) := by
  unfold rampOut
  try dsimp only
  repeat' (first | with_reducible assumption | with_reducible apply keeps_emit)

theorem keeps_deniedEnd {a d : Dev} (h : a.Keeps d) (x1 : Nat) (x2 : Nat) : a.Keeps (deniedEnd d x1 x2) := by
  unfold deniedEnd
  try dsimp only
  repeat' (first | with_reducible assumption | with_reducible apply keeps_startReturn | with_reducible apply keeps_modPort | with_reducible apply keeps_ite | split | simp only [keeps_mk])

theorem keeps_rampUp {a d : Dev} (h : a.Keeps d) (x1 : Nat) : a.Keeps (rampUp d x1) := by
  unfold rampUp
  try dsimp only
  repeat' (first | with_reducible assumption | intro _ | with_reducible apply keeps_each | with_reducible apply keeps_deniedEnd | with_reducible apply keeps_modPort | with_reducible apply keeps_modTx | with_reducible apply keeps_bump | with_reducible apply keeps_setSt | with_reducible apply keeps_emit | with_reducible apply keeps_rampOut | with_reducible apply keeps_modPan | with_reducible apply keeps_each | with_reducible apply keeps_ite | split | simp only [keeps_mk])

theorem keeps_exchDue {a d : Dev} (h : a.Keeps d) : a.Keeps (exchDue d) := by
  unfold exchDue
  try dsimp only
  repeat' (first | with_reducible assumption | intro _ | with_reducible apply keeps_each | with_reducible apply keeps_deniedEnd | with_reducible apply keeps_modPort | with_reducible apply keeps_releaseCar | with_reducible apply keeps_laneExchEnd | with_reducible apply keeps_foldl | with_reducible apply keeps_each | with_reducible apply keeps_ite | split | simp only [keeps_mk])

theorem keeps_lateLock {a d : Dev} (h : a.Keeps d) (x1 : Nat) : a.Keeps (lateLock d x1) := by
  unfold lateLock
  try dsimp only
  repeat' (first | with_reducible assumption | with_reducible apply keeps_refuseLate | with_reducible apply keeps_ite | split)

theorem keeps_accessFailure {a d : Dev} (h : a.Keeps d) (x1 : Nat) : a.Keeps (accessFailure d x1) := by
  unfold accessFailure
  try dsimp only
  repeat' (first | with_reducible assumption | with_reducible apply keeps_bump | with_reducible apply keeps_refuseQueued | with_reducible apply keeps_modTx | with_reducible apply keeps_discardQueued | with_reducible apply keeps_ite | split | simp only [keeps_mk])

theorem keeps_ccaEnd {a d : Dev} (h : a.Keeps d) (x1 : Nat) (x2 : Int) : a.Keeps (ccaEnd d x1 x2) := by
  unfold ccaEnd
  try dsimp only
  repeat' (first | with_reducible assumption | with_reducible apply keeps_decideS | with_reducible apply keeps_skipBeacon | with_reducible apply keeps_refuse | with_reducible apply keeps_accessFailure | with_reducible apply keeps_backoff | with_reducible apply keeps_earlyFall | with_reducible apply keeps_modTx | with_reducible apply keeps_ite | split | simp only [keeps_mk])

theorem keeps_rxReturn {a d : Dev} (h : a.Keeps d) (x1 : Nat) : a.Keeps (rxReturn d x1) := by
  unfold rxReturn
  try dsimp only
  repeat' (first | with_reducible assumption | with_reducible apply keeps_endExch | with_reducible apply keeps_enterRx | with_reducible apply keeps_ite | split)

theorem keeps_pushStamp {a d : Dev} (h : a.Keeps d) (x1 : Nat) (x2 : Bool) (x3 : TxFrame) (x4 : Bool) : a.Keeps (pushStamp d x1 x2 x3 x4) := by
  unfold pushStamp
  try dsimp only
  repeat' (first | with_reducible assumption | with_reducible apply keeps_bump | with_reducible apply keeps_modPort | with_reducible apply keeps_ite | split | simp only [keeps_mk])

theorem keeps_exchFor {a d : Dev} (h : a.Keeps d) (x1 : Nat) (x2 : Nat) : a.Keeps (exchFor d x1 x2) := by
  unfold exchFor
  try dsimp only
  repeat' (first | with_reducible assumption | with_reducible apply keeps_modPort | simp only [keeps_mk])

theorem keeps_txEnd {a d : Dev} (h : a.Keeps d) (x1 : Nat) : a.Keeps (txEnd d x1) := by
  unfold txEnd
  try dsimp only
  repeat' (first | with_reducible assumption | with_reducible apply keeps_pushStamp | with_reducible apply keeps_rampOut | with_reducible apply keeps_modTx | with_reducible apply keeps_modPort | with_reducible apply keeps_modCarrier | with_reducible apply keeps_clearHold | with_reducible apply keeps_clearOwn | with_reducible apply keeps_exchFor | with_reducible apply keeps_noAck | with_reducible apply keeps_frameDone | with_reducible apply keeps_startReturn | with_reducible apply keeps_ite | split | simp only [keeps_mk])

theorem keeps_dutyAdvance {a d : Dev} (h : a.Keeps d) : a.Keeps (dutyAdvance d) := by
  unfold dutyAdvance
  try dsimp only
  repeat' (first | with_reducible assumption | simp only [keeps_mk])

theorem keeps_grant {a d : Dev} (h : a.Keeps d) (x1 : Nat) (x2 : Bool) : a.Keeps (grant d x1 x2) := by
  unfold grant
  split
  · exact h
  · rename_i hold hh
    extract_lets p en ok d1
    have h1 : a.Keeps d1 := keeps_ite (keeps_modPort h _ _) h
    clear_value d1
    split
    · exact h1
    · rename_i f hf
      extract_lets barred s1 r d2
      refine keeps_ite (keeps_ungranted h1 _ _ _ _) (keeps_ite (keeps_ungranted h1 _ _ _ _)
        (keeps_ite (keeps_ungranted h1 _ _ _ _) ?_))
      have hr : ∀ z, r = some z → a.Keeps z.1 := by
        intro z hz
        dsimp only [r] at hz
        split at hz
        · exact keeps_grantData h1 _ _ hz
        · exact keeps_grantData h1 _ _ hz
        · exact keeps_grantAck h1 _ _ hz
        · split at hz
          · cases hz
            exact h1
          · split at hz
            · contradiction
            · cases hz
              dsimp only
              exact keeps_modPan (keeps_bump h1 _ _) _ _
        · cases hz
          exact h1
      have h2 : a.Keeps d2 := keeps_ite (keeps_panFcExhausted h1 _) (keeps_fcExhausted h1 _ _)
      clear_value r d2
      split
      · exact keeps_modTx (hr _ rfl) _ _ _
      · exact keeps_ungranted h2 _ _ _ _

theorem keeps_ackWaitEnd {a d : Dev} (h : a.Keeps d) (x1 : Nat) : a.Keeps (ackWaitEnd d x1) := by
  unfold ackWaitEnd
  try dsimp only
  repeat' (first | with_reducible assumption | with_reducible apply keeps_modTx | split | simp only [keeps_mk])

end Dev

end Sys2Proof.Machine
end

