-- ==== Sys2Proof/Laws/KeepsIngress.lean ====
section
/-! SUPPORT. What the operations of Machine/Ingress.lean keep (see Laws/Keeps.lean). -/

-- One proof at a time: the package compiles as one text, and proofs elaborated side by side each take a thread's stack.
set_option Elab.async false
-- The proofs search: each goal uses some of the alternatives.
set_option linter.all false

namespace Sys2Proof.Machine

namespace Dev

theorem keeps_ingress {a d : Dev} (h : a.Keeps d) (x1 : Packet) : a.Keeps (ingress d x1) := by
  unfold ingress
  try dsimp only
  repeat' (first | with_reducible assumption | with_reducible apply keeps_bump | with_reducible apply keeps_setPipe | with_reducible apply keeps_ite | split | simp only [keeps_mk])

theorem keeps_freeRecord {a d : Dev} (h : a.Keeps d) (x1 : Packet) : a.Keeps (freeRecord d x1) := by
  unfold freeRecord
  try dsimp only
  repeat' (first | with_reducible assumption | with_reducible apply keeps_dropRecord | with_reducible apply keeps_ite | split | simp only [keeps_mk])

theorem keeps_takeOctets {a d : Dev} (h : a.Keeps d) (x1 : Packet) : a.Keeps (takeOctets d x1) := by
  unfold takeOctets
  try dsimp only
  repeat' (first | with_reducible assumption | with_reducible apply keeps_modPort | with_reducible apply keeps_ite | split | simp only [keeps_mk])

theorem keeps_reassemble {a d : Dev} (h : a.Keeps d) (x1 : Packet) (x2 : Nat) (x3 : Nat) (x4 : Option Nat) (x5 : List Byte) : a.Keeps (reassemble d x1 x2 x3 x4 x5) := by
  unfold reassemble
  try dsimp only
  repeat' (first | with_reducible assumption | intro _ | with_reducible apply keeps_freeRecord | with_reducible apply keeps_bump | with_reducible apply keeps_violate | with_reducible apply keeps_ingress | with_reducible apply keeps_takeOctets | with_reducible apply keeps_foldl | with_reducible apply keeps_getD | with_reducible apply keeps_ite | split | simp only [keeps_mk])

theorem keeps_uplink {a d : Dev} (h : a.Keeps d) (x1 : Packet) : a.Keeps (uplink d x1) := by
  unfold uplink
  try dsimp only
  repeat' (first | with_reducible assumption | with_reducible apply keeps_reassemble | with_reducible apply keeps_ingress | with_reducible apply keeps_takeOctets | split | simp only [keeps_mk])

end Dev

end Sys2Proof.Machine
end

