-- ==== Sys2Proof/Laws/KeepsAir.lean ====
section
/-! SUPPORT. What the operations of Machine/Air.lean keep (see Laws/Keeps.lean). -/

-- One proof at a time: the package compiles as one text, and proofs elaborated side by side each take a thread's stack.
set_option Elab.async false
-- The proofs search: each goal uses some of the alternatives.
set_option linter.all false

namespace Sys2Proof.Machine

namespace Dev

theorem keeps_setNbr {a d : Dev} (h : a.Keeps d) (x1 : Nat) (x2 : Nbr) : a.Keeps (setNbr d x1 x2) := by
  unfold setNbr
  try dsimp only
  repeat' (first | with_reducible assumption | simp only [keeps_mk])

theorem keeps_nbrSetApply {a d : Dev} (h : a.Keeps d) (x1 : Cmd) : a.Keeps (nbrSetApply d x1) := by
  unfold nbrSetApply
  try dsimp only
  repeat' (first | with_reducible assumption | with_reducible apply keeps_completeStaged | with_reducible apply keeps_setNbr | split | simp only [keeps_mk])

theorem keeps_endRecord {a d : Dev} (h : a.Keeps d) (x1 : Nat) (x2 : RxRecord) : a.Keeps (endRecord d x1 x2) := by
  unfold endRecord
  try dsimp only
  repeat' (first | with_reducible assumption | with_reducible apply keeps_laneExchEnd | with_reducible apply keeps_dropRecord)

theorem keeps_lowerHop {a d : Dev} (h : a.Keeps d) (x1 : Nat) (x2 : Nat) (x3 : Nat) : a.Keeps (lowerHop d x1 x2 x3) := by
  unfold lowerHop
  try dsimp only
  repeat' (first | with_reducible assumption | with_reducible apply keeps_modNode | with_reducible apply keeps_ite | split | simp only [keeps_mk])

theorem keeps_dropMulti {a d : Dev} (h : a.Keeps d) (x1 : Nat) (x2 : Nat) (x3 : RxRecord) (x4 : RxMac) (x5 : Option Nat) (x6 : Bool) : a.Keeps (dropMulti d x1 x2 x3 x4 x5 x6) := by
  unfold dropMulti
  try dsimp only
  repeat' (first | with_reducible assumption | intro _ | with_reducible apply keeps_bump | with_reducible apply keeps_endRecord | with_reducible apply keeps_asFrame | with_reducible apply keeps_lowerHop | with_reducible apply keeps_ite | split | simp only [keeps_mk])

theorem keeps_lookupSource {a d : Dev} (h : a.Keeps d) (x1 : Nat) (x2 : Nat × Nat) : a.Keeps (lookupSource d x1 x2).2 := by
  unfold lookupSource
  try dsimp only
  repeat' (first | with_reducible assumption | with_reducible apply keeps_bump | split | simp only [keeps_mk])

theorem keeps_sendAck {a d : Dev} (h : a.Keeps d) (x1 : Nat) (x2 : Nat) (x3 : RxRecord) (x4 : RxMac) (x5 : Option Nat) : a.Keeps (sendAck d x1 x2 x3 x4 x5) := by
  unfold sendAck
  try dsimp only
  repeat' (first | with_reducible assumption | intro _ | with_reducible apply keeps_lookupSource | with_reducible apply keeps_laneExchEnd | with_reducible apply keeps_fcExhausted | with_reducible apply keeps_bump | with_reducible apply keeps_requestKey | with_reducible apply keeps_modCarrier | with_reducible apply keeps_getD | with_reducible apply keeps_ite | with_reducible apply keeps_ite_fst | with_reducible apply keeps_ite_snd | split | simp only [keeps_mk] | with_reducible refine keeps_snd ‹_› ?_)

theorem keeps_maybeAck {a d : Dev} (h : a.Keeps d) (x1 : Nat) (x2 : Nat) (x3 : RxRecord) (x4 : RxMac) (x5 : Option Nat) (x6 : Bool) : a.Keeps (maybeAck d x1 x2 x3 x4 x5 x6) := by
  unfold maybeAck
  try dsimp only
  repeat' (first | with_reducible assumption | with_reducible apply keeps_sendAck | with_reducible apply keeps_laneExchEnd | with_reducible apply keeps_ite | split)

theorem keeps_assocRespond {a d : Dev} (h : a.Keeps d) (x1 : AssocReq) (x2 : Nat) (x3 : Nat) : a.Keeps (assocRespond d x1 x2 x3).1 := by
  unfold assocRespond
  try dsimp only
  repeat' (first | with_reducible assumption | with_reducible apply keeps_offerIndirect | split)

theorem keeps_assocAdmit {a d : Dev} (h : a.Keeps d) (x1 : AssocReq) (x2 : Option Nat) : a.Keeps (assocAdmit d x1 x2).1 := by
  unfold assocAdmit
  extract_lets k pre0 pre place
  refine keeps_ite_fst (keeps_assocRespond (keeps_bump h _ _) _ _ _) (keeps_ite_fst (by dsimp only; exact keeps_bump h _ _) ?_)
  clear_value pre
  have hp : ∀ z, place = some z → a.Keeps z.2 := by
    intro z hz
    dsimp only [place] at hz
    split at hz
    · cases hz
      exact h
    · cases hz
      exact keeps_takeAddr h _ _
    · exact keeps_allocAddr h _ _ hz
  clear_value place
  split
  · exact keeps_assocRespond (keeps_bump h _ _) _ _ _
  · have hd := hp _ rfl
    dsimp only at hd ⊢
    exact keeps_raise (keeps_bump (keeps_assocRespond (keeps_putNode hd _) _ _ _) _ _) _ _

theorem keeps_assocRequest {a d : Dev} (h : a.Keeps d) (x1 : AssocReq) : a.Keeps (assocRequest d x1) := by
  unfold assocRequest
  try dsimp only
  repeat' (first | with_reducible assumption | with_reducible apply keeps_bump | with_reducible apply keeps_assocRespond | with_reducible apply keeps_raise | with_reducible apply keeps_assocAdmit | with_reducible apply keeps_ite | with_reducible apply keeps_ite_fst | with_reducible apply keeps_ite_snd | split | simp only [keeps_mk] | with_reducible refine keeps_fst ‹_› ?_)

theorem keeps_forwardAir {a d : Dev} (h : a.Keeps d) (x1 : Nat) (x2 : Nat) (x3 : RxRecord) : a.Keeps (forwardAir d x1 x2 x3) := by
  unfold forwardAir
  try dsimp only
  repeat' (first | with_reducible assumption | with_reducible apply keeps_sendQl)

theorem keeps_learnSource {a d : Dev} (h : a.Keeps d) (x1 : Nat) (x2 : RxMac) (x3 : RxRecord) : a.Keeps (learnSource d x1 x2 x3) := by
  unfold learnSource
  try dsimp only
  repeat' (first | with_reducible assumption | with_reducible apply keeps_raise | with_reducible apply keeps_ite | split | simp only [keeps_mk])

theorem keeps_meshUnowned {a d : Dev} (h : a.Keeps d) (x1 : Nat) (x2 : Nat) (x3 : RxRecord) (x4 : RxMac) (x5 : MeshIe) (x6 : Bool) : a.Keeps (meshUnowned d x1 x2 x3 x4 x5 x6) := by
  unfold meshUnowned
  try dsimp only
  repeat' (first | with_reducible assumption | with_reducible apply keeps_learnSource | with_reducible apply keeps_bump | with_reducible apply keeps_seenTouch | with_reducible apply keeps_forwardAir | with_reducible apply keeps_seenInsert | with_reducible apply keeps_ite | split | simp only [keeps_mk])

theorem keeps_unknownSource {a d : Dev} (h : a.Keeps d) (x1 : Nat) (x2 : Nat) (x3 : RxRecord) (x4 : RxMac) (x5 : Bool) : a.Keeps (unknownSource d x1 x2 x3 x4 x5) := by
  unfold unknownSource
  try dsimp only
  repeat' (first | with_reducible assumption | with_reducible apply keeps_learnSource | with_reducible apply keeps_bump | with_reducible apply keeps_forwardAir | with_reducible apply keeps_ite | split | simp only [keeps_mk])

theorem keeps_macCommand {a d : Dev} (h : a.Keeps d) (x1 : Nat) (x2 : RxMac) (x3 : Nat) : a.Keeps (macCommand d x1 x2 x3) := by
  unfold macCommand
  try dsimp only
  repeat' (first | with_reducible assumption | with_reducible apply keeps_violate | split | simp only [keeps_mk])

theorem keeps_startCcm {a d : Dev} (h : a.Keeps d) (x1 : RxPending) (x2 : NodeEntry) : a.Keeps (startCcm d x1 x2) := by
  unfold startCcm
  try dsimp only
  repeat' (first | with_reducible assumption | intro _ | with_reducible apply keeps_requestKey | with_reducible apply keeps_getD | with_reducible apply keeps_ite | split | simp only [keeps_mk])

theorem keeps_decideGroup {a d : Dev} (h : a.Keeps d) (x1 : RxPending) (x2 : List (Nat × RxRecord × RxMac)) : a.Keeps (decideGroup d x1 x2) := by
  unfold decideGroup
  try dsimp only
  repeat' (first | with_reducible assumption | intro _ | with_reducible apply keeps_dropMulti | with_reducible apply keeps_dropRecord | with_reducible apply keeps_endRecord | with_reducible apply keeps_maybeAck | with_reducible apply keeps_assocRequest | with_reducible apply keeps_violate | with_reducible apply keeps_lookupSource | with_reducible apply keeps_meshUnowned | with_reducible apply keeps_unknownSource | with_reducible apply keeps_hitNode | with_reducible apply keeps_macCommand | with_reducible apply keeps_bump | with_reducible apply keeps_lowerHop | with_reducible apply keeps_startCcm | with_reducible apply keeps_foldl | with_reducible apply keeps_getD | with_reducible apply keeps_ite | with_reducible apply keeps_ite_fst | with_reducible apply keeps_ite_snd | split | simp only [keeps_mk] | with_reducible refine keeps_snd ‹_› ?_)

theorem keeps_nbrBeacon {a d : Dev} (h : a.Keeps d) (x1 : Nat) (x2 : RxMac) (x3 : RxRecord) : a.Keeps (nbrBeacon d x1 x2 x3) := by
  unfold nbrBeacon
  try dsimp only
  repeat' (first | with_reducible assumption | intro _ | with_reducible apply keeps_requestKey | with_reducible apply keeps_raise | with_reducible apply keeps_setNbr | with_reducible apply keeps_foldl | with_reducible apply keeps_ite | split | simp only [keeps_mk])

theorem keeps_beaconRx {a d : Dev} (h : a.Keeps d) (x1 : Nat) (x2 : RxMac) (x3 : RxRecord) : a.Keeps (beaconRx d x1 x2 x3) := by
  unfold beaconRx
  try dsimp only
  repeat' (first | with_reducible assumption | with_reducible apply keeps_nbrBeacon | with_reducible apply keeps_bump | with_reducible apply keeps_setNbr | with_reducible apply keeps_ite | split | simp only [keeps_mk])

theorem keeps_ackRx {a d : Dev} (h : a.Keeps d) (x1 : Nat) (x2 : RxMac) (x3 : RxRecord) : a.Keeps (ackRx d x1 x2 x3) := by
  unfold ackRx
  try dsimp only
  repeat' (first | with_reducible assumption | with_reducible apply keeps_frameDone | with_reducible apply keeps_ite | split | simp only [keeps_mk])

theorem keeps_early {a d : Dev} (h : a.Keeps d) (x1 : Nat) (x2 : RxMac) : ∀ y, (early d x1 x2) = .error y → a.Keeps y := by
  intro y e
  unfold early at e
  try dsimp only at e
  repeat' split at e
  all_goals first | contradiction | (cases e)
  all_goals try dsimp only
  all_goals repeat' (first | with_reducible assumption | with_reducible apply keeps_violate | with_reducible apply keeps_bump | with_reducible apply keeps_ite | split | simp only [keeps_mk])

theorem keeps_joinGroup {a d : Dev} (h : a.Keeps d) (x1 : Nat) (x2 : Nat) (x3 : RxRecord) (x4 : RxMac) : a.Keeps (joinGroup d x1 x2 x3 x4) := by
  unfold joinGroup
  try dsimp only
  repeat' (first | with_reducible assumption | split | simp only [keeps_mk])

theorem keeps_decideRecord {a d : Dev} (h : a.Keeps d) (x1 : Nat) (x2 : Nat) : a.Keeps (decideRecord d x1 x2) := by
  unfold decideRecord
  try dsimp only
  repeat' (first | with_reducible assumption | with_reducible refine keeps_early ?_ _ _ | intro _ | with_reducible apply keeps_modPort | with_reducible apply keeps_asFrame | with_reducible apply keeps_beaconRx | with_reducible apply keeps_deliverAir | with_reducible apply keeps_endRecord | with_reducible apply keeps_ackRx | with_reducible apply keeps_joinGroup | with_reducible apply keeps_pump | with_reducible apply keeps_settle | with_reducible apply keeps_endWaitFor | with_reducible apply keeps_ite | with_reducible apply keeps_ite_fst | with_reducible apply keeps_ite_snd | split | simp only [keeps_mk] | with_reducible refine keeps_error ‹_› ?_)

theorem keeps_seenAccept {a d : Dev} (h : a.Keeps d) (x1 : Nat) (x2 : Nat) (x3 : RxMac) : a.Keeps (seenAccept d x1 x2 x3).2 := by
  unfold seenAccept
  try dsimp only
  repeat' (first | with_reducible assumption | with_reducible apply keeps_bump | with_reducible apply keeps_seenTouch | with_reducible apply keeps_seenInsert | with_reducible apply keeps_ite | with_reducible apply keeps_ite_fst | with_reducible apply keeps_ite_snd | split | simp only [keeps_mk])

theorem keeps_nbrSet {a d : Dev} (h : a.Keeps d) (x1 : Hdr) (x2 : List Byte) (x3 : Nat) : a.Keeps (nbrSet d x1 x2 x3) := by
  unfold nbrSet
  try dsimp only
  repeat' (first | with_reducible assumption | intro _ | with_reducible apply keeps_command | with_reducible apply keeps_complete | with_reducible apply keeps_stageCmd | with_reducible apply keeps_ite | split)

theorem keeps_indirectExpire {a d : Dev} (h : a.Keeps d) (x1 : Nat) : a.Keeps (indirectExpire d x1) := by
  unfold indirectExpire
  try dsimp only
  repeat' (first | with_reducible assumption | with_reducible apply keeps_dropCopy | with_reducible apply keeps_bump | with_reducible apply keeps_ite | split | simp only [keeps_mk])

theorem keeps_assocDecide {a d : Dev} (h : a.Keeps d) (x1 : Hdr) (x2 : List Byte) (x3 : Nat) : a.Keeps (assocDecide d x1 x2 x3) := by
  unfold assocDecide
  try dsimp only
  repeat' (first | with_reducible assumption | intro _ | with_reducible apply keeps_command | with_reducible apply keeps_complete | with_reducible apply keeps_assocAdmit | with_reducible apply keeps_bump | with_reducible apply keeps_assocRespond | with_reducible apply keeps_ite | with_reducible apply keeps_ite_fst | with_reducible apply keeps_ite_snd | split | simp only [keeps_mk] | with_reducible refine keeps_fst ‹_› ?_)

theorem keeps_applyLeaving {a d : Dev} (h : a.Keeps d) : a.Keeps (applyLeaving d) := by
  unfold applyLeaving
  try dsimp only
  repeat' (first | with_reducible assumption | intro _ | with_reducible apply keeps_each | with_reducible apply keeps_raise | with_reducible apply keeps_bump | with_reducible apply keeps_removeNode | with_reducible apply keeps_releaseAddr | with_reducible apply keeps_each | with_reducible apply keeps_ite | split | simp only [keeps_mk])

theorem keeps_uplinkPacket {a d : Dev} (h : a.Keeps d) (x1 : RxPending) (x2 : List Byte) (x3 : Nat) : a.Keeps (uplinkPacket d x1 x2 x3).2 := by
  unfold uplinkPacket
  try dsimp only
  repeat' (first | with_reducible assumption | with_reducible apply keeps_bump | with_reducible apply keeps_ite | with_reducible apply keeps_ite_fst | with_reducible apply keeps_ite_snd | split)

theorem keeps_tallyNode {a d : Dev} (h : a.Keeps d) (x1 : Nat) (x2 : Nat) : a.Keeps (tallyNode d x1 x2) := by
  have h1 : ∀ t, a.Keeps { d with vio := { d.vio with tally := t } } := fun t => keeps_vio h rfl rfl id rfl
  unfold tallyNode
  dsimp only
  repeat' split
  · exact keeps_bump h _ _
  · exact keeps_raise (keeps_bump (keeps_modNode (h1 _) _ _ _) _ _) _ _
  · exact h1 _

theorem keeps_uplinkChecks {a d : Dev} (h : a.Keeps d) (x1 : RxPending) (x2 : NodeEntry) : ∀ y, (uplinkChecks d x1 x2) = .error y → a.Keeps y := by
  intro y e
  unfold uplinkChecks at e
  try dsimp only at e
  repeat' split at e
  all_goals first | contradiction | (cases e)
  all_goals try dsimp only
  all_goals repeat' (first | with_reducible assumption | intro _ | with_reducible apply keeps_tallyNode | with_reducible apply keeps_bump | with_reducible apply keeps_violate | with_reducible apply keeps_lowerHop | with_reducible apply keeps_getD | with_reducible apply keeps_ite | split | simp only [keeps_mk])

theorem keeps_nbrJudge {a d : Dev} (h : a.Keeps d) (x1 : Nat) : a.Keeps (nbrJudge d x1) := by
  unfold nbrJudge
  try dsimp only
  repeat' (first | with_reducible assumption | intro _ | with_reducible apply keeps_setNbr | with_reducible apply keeps_raise | with_reducible apply keeps_enterHoldover | with_reducible apply keeps_bump | with_reducible apply keeps_getD | with_reducible apply keeps_ite | split | simp only [keeps_mk])

theorem keeps_dropPending {a d : Dev} (h : a.Keeps d) (x1 : RxPending) : a.Keeps (dropPending d x1) := by
  unfold dropPending
  try dsimp only
  repeat' (first | with_reducible assumption | with_reducible apply keeps_dropRecord | with_reducible apply keeps_ite | split)

theorem keeps_shelfFrame {a d : Dev} (h : a.Keeps d) (x1 : List Byte) : a.Keeps (shelfFrame d x1) := by
  unfold shelfFrame
  try dsimp only
  repeat' (first | with_reducible assumption | with_reducible refine keeps_early ?_ _ _ | intro _ | with_reducible apply keeps_decideGroup | with_reducible apply keeps_ite | with_reducible apply keeps_ite_fst | with_reducible apply keeps_ite_snd | split | simp only [keeps_mk] | with_reducible refine keeps_error ‹_› ?_)

theorem keeps_removeWaiting {a d : Dev} (h : a.Keeps d) : a.Keeps (removeWaiting d) := by
  unfold removeWaiting
  try dsimp only
  repeat' (first | with_reducible assumption | intro _ | with_reducible apply keeps_each | with_reducible apply keeps_complete | with_reducible apply keeps_eraseNode | with_reducible apply keeps_foldl | with_reducible apply keeps_each | simp only [keeps_mk])

theorem keeps_closeGroup {a d : Dev} (h : a.Keeps d) : a.Keeps (closeGroup d) := by
  unfold closeGroup
  try dsimp only
  repeat' (first | with_reducible assumption | intro _ | with_reducible apply keeps_asFrame | with_reducible apply keeps_decideGroup | with_reducible apply keeps_foldl | with_reducible apply keeps_ite | split | simp only [keeps_mk])

theorem keeps_assocTimeout {a d : Dev} (h : a.Keeps d) (x1 : Nat) (x2 : W64) : a.Keeps (assocTimeout d x1 x2) := by
  unfold assocTimeout
  try dsimp only
  repeat' (first | with_reducible assumption | with_reducible apply keeps_bump | with_reducible apply keeps_ite | split | simp only [keeps_mk])

theorem keeps_ccmDone {a d : Dev} (h : a.Keeps d) (x1 : Nat) (x2 : Nat) : a.Keeps (ccmDone d x1 x2) := by
  unfold ccmDone
  try dsimp only
  repeat' (first | with_reducible assumption | with_reducible refine keeps_uplinkChecks ?_ _ _ | intro _ | with_reducible apply keeps_asFrame | with_reducible apply keeps_removeWaiting | with_reducible apply keeps_dropPending | with_reducible apply keeps_modNode | with_reducible apply keeps_bump | with_reducible apply keeps_lowerHop | with_reducible apply keeps_fcEvent | with_reducible apply keeps_seenAccept | with_reducible apply keeps_macCommand | with_reducible apply keeps_uplinkPacket | with_reducible apply keeps_uplink | with_reducible apply keeps_getD | with_reducible apply keeps_ite | with_reducible apply keeps_ite_fst | with_reducible apply keeps_ite_snd | split | simp only [keeps_mk] | with_reducible refine keeps_snd ‹_› ?_ | with_reducible refine keeps_error ‹_› ?_)

theorem keeps_indirectStart {a d : Dev} (h : a.Keeps d) (x1 : Nat) (x2 : Int) : a.Keeps (indirectStart d x1 x2) := by
  unfold indirectStart
  try dsimp only
  repeat' (first | with_reducible assumption | with_reducible apply keeps_clearHold | with_reducible apply keeps_release | with_reducible apply keeps_indirectUnsent | with_reducible apply keeps_modIndirect | with_reducible apply keeps_logFrame | with_reducible apply keeps_dropCopy | with_reducible apply keeps_modCarrier | with_reducible apply keeps_refuse | with_reducible apply keeps_decideS | with_reducible apply keeps_ite | with_reducible apply keeps_ite_fst | with_reducible apply keeps_ite_snd | split | simp only [keeps_mk] | with_reducible refine keeps_fst ‹_› ?_)

end Dev

end Sys2Proof.Machine
end

