-- ==== Sys2Proof/Laws/KeepsSeqr.lean ====
section
/-! SUPPORT. What the operations of Machine/Seqr.lean keep (see Laws/Keeps.lean). -/

-- One proof at a time: the package compiles as one text, and proofs elaborated side by side each take a thread's stack.
set_option Elab.async false
-- The proofs search: each goal uses some of the alternatives.
set_option linter.all false

namespace Sys2Proof.Machine

namespace Dev

theorem keeps_seqRxp {a d : Dev} (h : a.Keeps d) (x1 : Nat) : a.Keeps (seqRxp d x1) := by
  unfold seqRxp
  try dsimp only
  repeat' (first | with_reducible assumption | with_reducible apply keeps_modPort | with_reducible apply keeps_ite | split | simp only [keeps_mk])

theorem keeps_seqBcn {a d : Dev} (h : a.Keeps d) (x1 : Nat) (x2 : Nat) (x3 : Nat) (x4 : Nat) (x5 : Nat) (x6 : Nat) : a.Keeps (seqBcn d x1 x2 x3 x4 x5 x6) := by
  unfold seqBcn
  try dsimp only
  repeat' (first | with_reducible assumption | with_reducible apply keeps_bump | with_reducible apply keeps_logFrame | with_reducible apply keeps_subbandEvent | with_reducible apply keeps_panFcExhausted | with_reducible apply keeps_requestKey | with_reducible apply keeps_modCarrier | with_reducible apply keeps_refuse | with_reducible apply keeps_earlyReq | with_reducible apply keeps_ccaStart | with_reducible apply keeps_decideS | with_reducible apply keeps_ite | split | simp only [keeps_mk])

theorem keeps_deferInstr {a d : Dev} (h : a.Keeps d) (x1 : Nat) (x2 : SeqDeferred) : a.Keeps (deferInstr d x1 x2) := by
  unfold deferInstr
  try dsimp only
  repeat' (first | with_reducible assumption | with_reducible apply keeps_bump | with_reducible apply keeps_modPort | simp only [keeps_mk])

theorem keeps_seqRetune {a d : Dev} (h : a.Keeps d) (x1 : Nat) (x2 : Bool) (x3 : Nat) : a.Keeps (seqRetune d x1 x2 x3) := by
  unfold seqRetune
  try dsimp only
  repeat' (first | with_reducible assumption | with_reducible apply keeps_bump | with_reducible apply keeps_modPort | with_reducible apply keeps_deferInstr | with_reducible apply keeps_retuneTo | with_reducible apply keeps_ite | split | simp only [keeps_mk])

theorem keeps_after {a d : Dev} (h : a.Keeps d) : a.Keeps (after d) := by
  unfold after
  try dsimp only
  repeat' (first | with_reducible assumption | with_reducible apply keeps_pump | with_reducible apply keeps_settle)

theorem keeps_rfCal {a d : Dev} (h : a.Keeps d) (x1 : Hdr) (x2 : List Byte) : a.Keeps (rfCal d x1 x2) := by
  unfold rfCal
  try dsimp only
  repeat' (first | with_reducible assumption | intro _ | with_reducible apply keeps_command | with_reducible apply keeps_complete | with_reducible apply keeps_startCal | with_reducible apply keeps_holdCmd | with_reducible apply keeps_ite | split | simp only [keeps_mk])

theorem keeps_testLater {a d : Dev} (h : a.Keeps d) (x1 : Cmd) (x2 : Nat) (x3 : List Byte) : a.Keeps (testLater d x1 x2 x3) := by
  unfold testLater
  try dsimp only
  repeat' (first | with_reducible assumption | with_reducible apply keeps_modCarrier | with_reducible apply keeps_countParked | with_reducible apply keeps_complete | with_reducible apply keeps_ite | split | simp only [keeps_mk])

theorem keeps_rfTestTx {a d : Dev} (h : a.Keeps d) (x1 : Hdr) (x2 : List Byte) (x3 : Int) : a.Keeps (rfTestTx d x1 x2 x3) := by
  unfold rfTestTx
  try dsimp only
  repeat' (first | with_reducible assumption | intro _ | with_reducible apply keeps_command | with_reducible apply keeps_complete | with_reducible apply keeps_testLater | with_reducible apply keeps_freeOctets | with_reducible apply keeps_modCarrier | with_reducible apply keeps_holdCmd | with_reducible apply keeps_refuse | with_reducible apply keeps_decideS | with_reducible apply keeps_ite | with_reducible apply keeps_ite_fst | with_reducible apply keeps_ite_snd | split | simp only [keeps_mk] | with_reducible refine keeps_snd ‹_› ?_)

theorem keeps_seqEnd {a d : Dev} (h : a.Keeps d) (x1 : Nat) : a.Keeps (seqEnd d x1) := by
  unfold seqEnd
  try dsimp only
  repeat' (first | with_reducible assumption | with_reducible apply keeps_modSeq | simp only [keeps_mk])

theorem keeps_skipInstr {a d : Dev} (h : a.Keeps d) (x1 : Nat) : a.Keeps (skipInstr d x1) := by
  unfold skipInstr
  try dsimp only
  repeat' (first | with_reducible assumption | with_reducible apply keeps_bump)

theorem keeps_seqForeign {a d : Dev} (h : a.Keeps d) (x1 : Nat) (x2 : Nat) : a.Keeps (seqForeign d x1 x2) := by
  unfold seqForeign
  try dsimp only
  repeat' (first | with_reducible assumption | with_reducible apply keeps_skipInstr | with_reducible apply keeps_violate)

theorem keeps_seqLane {a d : Dev} (h : a.Keeps d) (x1 : Nat) (x2 : Nat) (x3 : Nat) (x4 : Nat) (x5 : Lane → Lane) : a.Keeps (seqLane d x1 x2 x3 x4 x5) := by
  unfold seqLane
  try dsimp only
  repeat' (first | with_reducible assumption | with_reducible apply keeps_seqForeign | with_reducible apply keeps_restLane | with_reducible apply keeps_abandon | with_reducible apply keeps_modLane | with_reducible apply keeps_evalLanes | with_reducible apply keeps_ite | split | simp only [keeps_mk])

theorem keeps_seqCond {a d : Dev} (h : a.Keeps d) (x1 : Nat) (x2 : Nat) (x3 : Nat) (x4 : Nat) : a.Keeps (seqCond d x1 x2 x3 x4) := by
  unfold seqCond
  try dsimp only
  repeat' (first | with_reducible assumption | with_reducible apply keeps_modSeq | with_reducible apply keeps_ite | split | simp only [keeps_mk])

theorem keeps_issue {a d : Dev} (h : a.Keeps d) (x1 : Nat) (x2 : Nat) (x3 : Nat) (x4 : Nat) (x5 : Dev → Dev) (hx5 : ∀ y, a.Keeps y → a.Keeps (x5 y)) : a.Keeps (issue d x1 x2 x3 x4 x5) := by
  unfold issue
  try dsimp only
  repeat' (first | with_reducible assumption | with_reducible apply keeps_modSeq | with_reducible apply keeps_bump | with_reducible apply keeps_after | with_reducible apply hx5 | with_reducible apply keeps_ite | split | simp only [keeps_mk])

theorem keeps_seqRx {a d : Dev} (h : a.Keeps d) (x1 : Nat) : a.Keeps (seqRx d x1) := by
  unfold seqRx
  try dsimp only
  repeat' (first | with_reducible assumption | with_reducible apply keeps_skipInstr | with_reducible apply keeps_deferInstr | with_reducible apply keeps_enterRx | with_reducible apply keeps_ite | split)

theorem keeps_testEnd {a d : Dev} (h : a.Keeps d) (x1 : Nat) : a.Keeps (testEnd d x1) := by
  unfold testEnd
  try dsimp only
  repeat' (first | with_reducible assumption | with_reducible apply keeps_modCarrier | with_reducible apply keeps_rampOut | with_reducible apply keeps_startReturn | with_reducible apply keeps_exchFor | split | simp only [keeps_mk])

theorem keeps_seqCalOp {a d : Dev} (h : a.Keeps d) (x1 : Nat) (x2 : Nat) (x3 : Nat) : a.Keeps (seqCalOp d x1 x2 x3) := by
  unfold seqCalOp
  try dsimp only
  repeat' (first | with_reducible assumption | with_reducible apply keeps_skipInstr | with_reducible apply keeps_deferInstr | with_reducible apply keeps_seqCal | with_reducible apply keeps_ite | split)

theorem keeps_seqCarrier {a d : Dev} (h : a.Keeps d) (x1 : Nat) (x2 : Nat) (x3 : Carrier → Carrier) (x4 : Carrier → Carrier) : a.Keeps (seqCarrier d x1 x2 x3 x4) := by
  unfold seqCarrier
  try dsimp only
  repeat' (first | with_reducible assumption | with_reducible apply keeps_seqForeign | with_reducible apply keeps_modCarrier | with_reducible apply keeps_ite | split)

theorem keeps_slotClose {a d : Dev} (h : a.Keeps d) (x1 : Nat) : a.Keeps (slotClose d x1) := by
  unfold slotClose
  try dsimp only
  repeat' (first | with_reducible assumption | with_reducible apply keeps_lateLock | with_reducible apply keeps_refuseLate | with_reducible apply keeps_refuseQueued | with_reducible apply keeps_logFrame | with_reducible apply keeps_bump | with_reducible apply keeps_modCarrier | with_reducible apply keeps_ite | split | simp only [keeps_mk])

theorem keeps_openSlot {a d : Dev} (h : a.Keeps d) (x1 : Nat) (x2 : Nat) (x3 : Slot) : a.Keeps (openSlot d x1 x2 x3) := by
  unfold openSlot
  try dsimp only
  repeat' (first | with_reducible assumption | with_reducible apply keeps_bump | with_reducible apply keeps_modCarrier | with_reducible apply keeps_startTx | with_reducible apply keeps_earlyReq | with_reducible apply keeps_waitForLock | with_reducible apply keeps_ite | split | simp only [keeps_mk])

theorem keeps_femSpiDone {a d : Dev} (h : a.Keeps d) (x1 : Nat) (x2 : Nat) (x3 : Bool) : a.Keeps (femSpiDone d x1 x2 x3) := by
  unfold femSpiDone
  try dsimp only
  repeat' (first | with_reducible assumption | with_reducible apply keeps_modPort | with_reducible apply keeps_spiNext | with_reducible apply keeps_complete | with_reducible apply keeps_spiBegin | with_reducible apply keeps_violate | with_reducible apply keeps_fall | with_reducible apply keeps_ite | split | simp only [keeps_mk])

end Dev

end Sys2Proof.Machine
end

