-- ==== Sys2Proof/Laws/KeepsVat.lean ====
section
/-! SUPPORT. What the operations of Machine/Vat.lean keep (see Laws/Keeps.lean). -/

-- One proof at a time: the package compiles as one text, and proofs elaborated side by side each take a thread's stack.
set_option Elab.async false
-- The proofs search: each goal uses some of the alternatives.
set_option linter.all false

namespace Sys2Proof.Machine

namespace Dev

theorem keeps_setCfg {a d : Dev} (h : a.Keeps d) (x1 : Nat) (x2 : Nat) : a.Keeps (setCfg d x1 x2) := by
  unfold setCfg
  try dsimp only
  repeat' (first | with_reducible assumption | split | simp only [keeps_mk])

theorem keeps_loadPlans {a d : Dev} (h : a.Keeps d) (x1 : VatImage) : a.Keeps (loadPlans d x1) := by
  unfold loadPlans
  try dsimp only
  repeat' (first | with_reducible assumption | intro _ | with_reducible apply keeps_each | with_reducible apply keeps_setCfg | with_reducible apply keeps_getD | with_reducible apply keeps_each | with_reducible apply keeps_ite | split)

theorem keeps_vatCopyDone {a d : Dev} (h : a.Keeps d) (x1 : Bool) (x2 : List Byte) : a.Keeps (vatCopyDone d x1 x2) := by
  unfold vatCopyDone
  try dsimp only
  repeat' (first | with_reducible assumption | with_reducible apply keeps_complete | with_reducible apply keeps_ite | split | simp only [keeps_mk])

theorem keeps_commitPipe {a d : Dev} (h : a.Keeps d) (x1 : VatImage) : a.Keeps (commitPipe d x1) := by
  unfold commitPipe
  try dsimp only
  repeat' (first | with_reducible assumption | intro _ | with_reducible apply keeps_each | with_reducible apply keeps_setPipe | with_reducible apply keeps_installTree | with_reducible apply keeps_modEth | with_reducible apply keeps_getD | with_reducible apply keeps_each | simp only [keeps_mk])

theorem keeps_commitTime {a d : Dev} (h : a.Keeps d) (x1 : VatImage) : a.Keeps (commitTime d x1) := by
  unfold commitTime
  try dsimp only
  repeat' (first | with_reducible assumption | intro _ | with_reducible apply keeps_each | with_reducible apply keeps_modPort | with_reducible apply keeps_modSeq | with_reducible apply keeps_each | split | simp only [keeps_mk])

theorem keeps_commitCmd {a d : Dev} (h : a.Keeps d) (x1 : Hdr) (x2 : List Byte) : a.Keeps (commitCmd d x1 x2) := by
  unfold commitCmd
  try dsimp only
  repeat' (first | with_reducible assumption | intro _ | with_reducible apply keeps_command | with_reducible apply keeps_complete | with_reducible apply keeps_stageCmd | with_reducible apply keeps_ite | split | simp only [keeps_mk])

theorem keeps_refreshUsable {a d : Dev} (h : a.Keeps d) : a.Keeps (refreshUsable d) := by
  unfold refreshUsable
  try dsimp only
  repeat' (first | with_reducible assumption | intro _ | with_reducible apply keeps_each | with_reducible apply keeps_modSeq | with_reducible apply keeps_foldl | with_reducible apply keeps_getD | with_reducible apply keeps_each | split | simp only [keeps_mk])

theorem keeps_stageImage {a d : Dev} (h : a.Keeps d) (x1 : VatImage) : a.Keeps (stageImage d x1) := by
  unfold stageImage
  try dsimp only
  repeat' (first | with_reducible assumption | intro _ | with_reducible apply keeps_each | with_reducible apply keeps_modSeq | with_reducible apply keeps_each | simp only [keeps_mk])

theorem keeps_vatLoad {a d : Dev} (h : a.Keeps d) (x1 : Hdr) (x2 : List Byte) : a.Keeps (vatLoad d x1 x2) := by
  unfold vatLoad
  try dsimp only
  repeat' (first | with_reducible assumption | intro _ | with_reducible apply keeps_command | with_reducible apply keeps_complete | with_reducible apply keeps_holdCmd | with_reducible apply keeps_ite | split | simp only [keeps_mk])

theorem keeps_vatDiscard {a d : Dev} (h : a.Keeps d) (x1 : Hdr) : a.Keeps (vatDiscard d x1) := by
  unfold vatDiscard
  try dsimp only
  repeat' (first | with_reducible assumption | intro _ | with_reducible apply keeps_command | with_reducible apply keeps_complete | with_reducible apply keeps_ite | split | simp only [keeps_mk])

theorem keeps_vatVerifyDone {a d : Dev} (h : a.Keeps d) : a.Keeps (vatVerifyDone d) := by
  unfold vatVerifyDone
  try dsimp only
  repeat' (first | with_reducible assumption | with_reducible apply keeps_commandView | with_reducible apply keeps_complete | with_reducible apply keeps_stageImage | with_reducible apply keeps_ite | split | simp only [keeps_mk])

end Dev

end Sys2Proof.Machine
end

