-- ==== Sys2Proof/Laws/KeepsPipe.lean ====
section
/-! SUPPORT. What the operations of Machine/Pipe.lean keep (see Laws/Keeps.lean). -/

-- One proof at a time: the package compiles as one text, and proofs elaborated side by side each take a thread's stack.
set_option Elab.async false
-- The proofs search: each goal uses some of the alternatives.
set_option linter.all false

namespace Sys2Proof.Machine

namespace Dev

theorem keeps_offerAir {a d : Dev} (h : a.Keeps d) (x1 : List (Nat × Nat)) (x2 : List TxFrame) (x3 : Nat) : a.Keeps (offerAir d x1 x2 x3).1 := by
  unfold offerAir
  extract_lets many g s1 d1 frames r n d2
  have h1 : a.Keeps d1 := by
    refine keeps_ite ?_ h
    rw [keeps_mk]
    exact h
  clear_value d1
  have hr : a.Keeps r.1 := by
    refine keeps_foldl_fst ?_ _ _ fun x t hx => ?_
    · exact h1
    · dsimp only
      refine keeps_offer ?_ _ _ _ _
      rw [keeps_mk]
      exact hx
  exact keeps_ite (keeps_each hr _ _ fun x j hx => keeps_setShared hx _ _) hr

theorem keeps_fwdAir {a d : Dev} (h : a.Keeps d) (x1 : Nat) (x2 : Packet) (x3 : PipeSt) : a.Keeps (fwdAir d x1 x2 x3).1 := by
  unfold fwdAir
  try dsimp only
  repeat' (first | with_reducible assumption | intro _ | with_reducible apply keeps_bump | with_reducible apply keeps_modPan | with_reducible apply keeps_logFrame | with_reducible apply keeps_offerAir | with_reducible apply keeps_offerIndirect | with_reducible apply keeps_foldl | with_reducible apply keeps_getD | with_reducible apply keeps_ite | with_reducible apply keeps_ite_fst | with_reducible apply keeps_ite_snd | split | simp only [keeps_mk] | with_reducible refine keeps_fst ‹_› ?_)

theorem keeps_fwdEth {a d : Dev} (h : a.Keeps d) (x1 : Nat) (x2 : Packet) (x3 : PipeSt) : a.Keeps (fwdEth d x1 x2 x3).1 := by
  unfold fwdEth
  try dsimp only
  repeat' (first | with_reducible assumption | with_reducible apply keeps_bump | with_reducible apply keeps_offer | with_reducible apply keeps_ite | with_reducible apply keeps_ite_fst | with_reducible apply keeps_ite_snd | split)

theorem keeps_fwdShelf {a d : Dev} (h : a.Keeps d) (x1 : Nat) (x2 : Packet) (x3 : PipeSt) : a.Keeps (fwdShelf d x1 x2 x3).1 := by
  unfold fwdShelf
  try dsimp only
  repeat' (first | with_reducible assumption | with_reducible apply keeps_bump | with_reducible apply keeps_offer | with_reducible apply keeps_ite | with_reducible apply keeps_ite_fst | with_reducible apply keeps_ite_snd | split)

theorem keeps_fwdHost {a d : Dev} (h : a.Keeps d) (x1 : Nat) (x2 : Packet) (x3 : PipeSt) : a.Keeps (fwdHost d x1 x2 x3).1 := by
  unfold fwdHost
  try dsimp only
  repeat' (first | with_reducible assumption | intro _ | with_reducible apply keeps_bump | with_reducible apply keeps_offer | with_reducible apply keeps_getD | with_reducible apply keeps_ite | with_reducible apply keeps_ite_fst | with_reducible apply keeps_ite_snd | split | simp only [keeps_mk] | with_reducible refine keeps_fst ‹_› ?_)

theorem keeps_countLookup {a d : Dev} (h : a.Keeps d) (x1 : LookupReq) : a.Keeps (countLookup d x1) := by
  unfold countLookup
  try dsimp only
  repeat' (first | with_reducible assumption | with_reducible apply keeps_bump | with_reducible apply keeps_ite | split)

theorem keeps_packetFate {a d : Dev} (h : a.Keeps d) (x1 : Packet) (x2 : Status) : a.Keeps (packetFate d x1 x2) := by
  unfold packetFate
  try dsimp only
  repeat' (first | with_reducible assumption | with_reducible apply keeps_freeRecord | with_reducible apply keeps_writeBack | with_reducible apply keeps_ite | split | simp only [keeps_mk])

theorem keeps_endPass {a d : Dev} (h : a.Keeps d) (x1 : Nat) (x2 : Status) : a.Keeps (endPass d x1 x2) := by
  unfold endPass
  try dsimp only
  repeat' (first | with_reducible assumption | intro _ | with_reducible apply keeps_countLookup | with_reducible apply keeps_setPipe | with_reducible apply keeps_packetFate | with_reducible apply keeps_foldl | split | simp only [keeps_mk])

theorem keeps_fwd {a d : Dev} (h : a.Keeps d) (x1 : Nat) (x2 : Packet) (x3 : PipeSt) : a.Keeps (fwd d x1 x2 x3) := by
  unfold fwd
  try dsimp only
  repeat' (first | with_reducible assumption | with_reducible apply keeps_fwdAir | with_reducible apply keeps_fwdEth | with_reducible apply keeps_fwdShelf | with_reducible apply keeps_fwdHost | with_reducible apply keeps_endPass | split | simp only [keeps_mk] | with_reducible refine keeps_fst ‹_› ?_)

theorem keeps_noEmit {a d : Dev} (h : a.Keeps d) (x1 : Nat) : a.Keeps (noEmit d x1) := by
  unfold noEmit
  try dsimp only
  repeat' (first | with_reducible assumption | with_reducible apply keeps_endPass | with_reducible apply keeps_bump | with_reducible apply keeps_ite | split | simp only [keeps_mk])

theorem keeps_asPacket {a d : Dev} (h : a.Keeps d) (x1 : Packet) (x2 : Dev → Dev) (hx2 : ∀ y, a.Keeps y → a.Keeps (x2 y)) : a.Keeps (asPacket d x1 x2) := by
  unfold asPacket
  try dsimp only
  repeat' (first | with_reducible assumption | intro _ | with_reducible apply keeps_asFrame | with_reducible apply hx2 | with_reducible apply keeps_ite | split)

theorem keeps_inPass {a d : Dev} (h : a.Keeps d) (x1 : Nat) (x2 : Packet) (x3 : Dev → Dev) (hx3 : ∀ y, a.Keeps y → a.Keeps (x3 y)) : a.Keeps (inPass d x1 x2 x3) := by
  unfold inPass
  try dsimp only
  repeat' (first | with_reducible assumption | intro _ | with_reducible apply keeps_asPacket | with_reducible apply hx3 | with_reducible apply keeps_getD | simp only [keeps_mk])

theorem keeps_act {a d : Dev} (h : a.Keeps d) (x1 : Nat) (x2 : Nat) (x3 : Dev → Packet → PipeSt → Dev × PipeSt) (hx3 : ∀ y p q, a.Keeps y → a.Keeps (x3 y p q).1) : a.Keeps (act d x1 x2 x3) := by
  unfold act
  try dsimp only
  repeat' (first | with_reducible assumption | intro _ | with_reducible apply keeps_inPass | with_reducible apply keeps_noEmit | with_reducible apply keeps_setPipe | with_reducible apply hx3 | split | simp only [keeps_mk])

theorem keeps_actP {a d : Dev} (h : a.Keeps d) (x1 : Nat) (x2 : Nat) (x3 : PipeSt → PipeSt) : a.Keeps (actP d x1 x2 x3) := by
  unfold actP
  try dsimp only
  repeat' (first | with_reducible assumption | intro _ | with_reducible apply keeps_act)

theorem keeps_lookupReturn {a d : Dev} (h : a.Keeps d) (x1 : Nat) (x2 : Bool) : a.Keeps (lookupReturn d x1 x2) := by
  unfold lookupReturn
  try dsimp only
  repeat' (first | with_reducible assumption | intro _ | with_reducible apply keeps_countLookup | with_reducible apply keeps_bump | with_reducible apply keeps_asPacket | with_reducible apply keeps_setPipe | with_reducible apply keeps_ite | split | simp only [keeps_mk])

theorem keeps_lookup {a d : Dev} (h : a.Keeps d) (x1 : Nat) (x2 : Nat) (x3 : Nat) (x4 : Nat) (x5 : Nat) (x6 : Dev → PipeSt → Option (List Byte)) : a.Keeps (lookup d x1 x2 x3 x4 x5 x6) := by
  unfold lookup
  try dsimp only
  repeat' (first | with_reducible assumption | intro _ | with_reducible apply keeps_act | with_reducible apply hx6 | with_reducible apply keeps_getD | with_reducible apply keeps_ite | split | simp only [keeps_mk])

theorem keeps_actBr {a d : Dev} (h : a.Keeps d) (x1 : Nat) (x2 : Nat) (x3 : Nat) (x4 : PipeSt → Bool) : a.Keeps (actBr d x1 x2 x3 x4) := by
  unfold actBr
  try dsimp only
  repeat' (first | with_reducible assumption | with_reducible apply keeps_actP | with_reducible apply keeps_ite | split | simp only [keeps_mk])

theorem keeps_takePacket {a d : Dev} (h : a.Keeps d) (x0 : Nat) (x1 : Nat) : a.Keeps (takePacket x0 x1 d).2 := by
  induction x1 generalizing d with
  | zero => exact h
  | succ n ih =>
    unfold takePacket
    dsimp only
    split
    · exact h
    · split
      · exact h
      · split
        all_goals
          split
          · exact ih (keeps_packetFate (keeps_setPipe h _ _) _ _)
          · split
            · exact keeps_setPipe h _ _
            · exact ih (keeps_asPacket (keeps_setPipe h _ _) _ _ fun y hy => keeps_packetFate (keeps_bump hy _ _) _ _)

theorem keeps_windowStart {a d : Dev} (h : a.Keeps d) (x1 : Nat) : a.Keeps (windowStart d x1) := by
  unfold windowStart
  try dsimp only
  repeat' (first | with_reducible assumption | intro _ | with_reducible apply keeps_asPacket | with_reducible apply keeps_setPipe | with_reducible apply keeps_bump | with_reducible apply keeps_takePacket | with_reducible apply keeps_foldl | with_reducible apply keeps_ite | with_reducible apply keeps_ite_fst | with_reducible apply keeps_ite_snd | split | simp only [keeps_mk] | with_reducible refine keeps_snd ‹_› ?_)

theorem keeps_pol {a d : Dev} (h : a.Keeps d) (x1 : Nat) (x2 : Nat) (x3 : PipeSt) : a.Keeps (pol d x1 x2 x3).2.1 := by
  unfold pol
  try dsimp only
  repeat' (first | with_reducible assumption | with_reducible apply keeps_bump | with_reducible apply keeps_ite | with_reducible apply keeps_ite_fst | with_reducible apply keeps_ite_snd | split | simp only [keeps_mk])

theorem keeps_dcmp {a d : Dev} (h : a.Keeps d) (x1 : Packet) (x2 : PipeSt) : a.Keeps (dcmp d x1 x2).2.1 := by
  unfold dcmp
  try dsimp only
  repeat' (first | with_reducible assumption | with_reducible apply keeps_draw | with_reducible apply keeps_ite | with_reducible apply keeps_ite_fst | with_reducible apply keeps_ite_snd | split | simp only [keeps_mk] | with_reducible refine keeps_snd ‹_› ?_)

theorem keeps_recirc {a d : Dev} (h : a.Keeps d) (x1 : Nat) (x2 : Nat) (x3 : PipeSt) : a.Keeps (recirc d x1 x2 x3) := by
  unfold recirc
  try dsimp only
  repeat' (first | with_reducible assumption | intro _ | with_reducible apply keeps_setPipe | with_reducible apply keeps_countLookup | with_reducible apply keeps_endPass | with_reducible apply keeps_bump | with_reducible apply keeps_foldl | with_reducible apply keeps_ite | split | simp only [keeps_mk])

theorem keeps_actEmit {a d : Dev} (h : a.Keeps d) (x1 : Nat) (x2 : Nat) (x3 : Dev → Packet → PipeSt → Dev) (hx3 : ∀ y p q, a.Keeps y → a.Keeps (x3 y p q)) : a.Keeps (actEmit d x1 x2 x3) := by
  unfold actEmit
  split
  · exact h
  · exact keeps_inPass h _ _ _ (fun y hy => hx3 _ _ _ hy)

end Dev

end Sys2Proof.Machine
end

