-- ==== Sys2Proof/Laws/KeepsEth.lean ====
section
/-! SUPPORT. What the operations of Machine/Eth.lean keep (see Laws/Keeps.lean). -/

-- One proof at a time: the package compiles as one text, and proofs elaborated side by side each take a thread's stack.
set_option Elab.async false
-- The proofs search: each goal uses some of the alternatives.
set_option linter.all false

namespace Sys2Proof.Machine

namespace Dev

theorem keeps_macsecOpen {a d : Dev} (h : a.Keeps d) (x1 : Nat) (x2 : List Byte) : ∀ y, (macsecOpen d x1 x2) = some y → a.Keeps y.2.2 := by
  intro y e
  unfold macsecOpen at e
  dsimp only at e
  repeat' split at e
  all_goals first | contradiction | skip
  all_goals
    simp only [Option.map_eq_some_iff] at e
    obtain ⟨b, -, rfl⟩ := e
    dsimp only
  all_goals first | exact h | exact keeps_modEth h _ _ | (split <;> first | exact h | exact keeps_modEth h _ _)

theorem keeps_macsecRx {a d : Dev} (h : a.Keeps d) (x1 : Nat) (x2 : List Byte) : a.Keeps (macsecRx d x1 x2).2 := by
  unfold macsecRx
  dsimp only
  split
  · exact h
  · split
    · exact h
    · split
      · rename_i hm
        have hd := keeps_macsecOpen h _ _ _ hm
        dsimp only at hd ⊢
        split
        · (dsimp only; exact keeps_bump hd _ _)
        · exact hd
      · split
        · split <;> (dsimp only; exact keeps_bump h _ _)
        · (dsimp only; exact keeps_bump h _ _)

theorem keeps_ethIngress {a d : Dev} (h : a.Keeps d) (x1 : Nat) (x2 : List Byte) (x3 : Bool) (x4 : Nat) : a.Keeps (ethIngress d x1 x2 x3 x4) := by
  unfold ethIngress
  try dsimp only
  repeat' (first | with_reducible assumption | intro _ | with_reducible apply keeps_emit | with_reducible apply keeps_violate | with_reducible apply keeps_ingress | with_reducible apply keeps_bump | with_reducible apply keeps_getD | with_reducible apply keeps_ite | split | simp only [keeps_mk])

theorem keeps_ethRx {a d : Dev} (h : a.Keeps d) (x1 : Nat) (x2 : List Byte) : a.Keeps (ethRx d x1 x2) := by
  unfold ethRx
  try dsimp only
  repeat' (first | with_reducible assumption | with_reducible apply keeps_bump | with_reducible apply keeps_rxStamp | with_reducible apply keeps_macsecRx | with_reducible apply keeps_ethIngress | with_reducible apply keeps_ite | with_reducible apply keeps_ite_fst | with_reducible apply keeps_ite_snd | split | simp only [keeps_mk] | with_reducible refine keeps_snd ‹_› ?_)

theorem keeps_setLink {a d : Dev} (h : a.Keeps d) (x1 : Nat) (x2 : Bool) (x3 : Nat) : a.Keeps (setLink d x1 x2 x3) := by
  unfold setLink
  try dsimp only
  repeat' (first | with_reducible assumption | with_reducible apply keeps_raise | with_reducible apply keeps_modEth | with_reducible apply keeps_ite | split | simp only [keeps_mk])

theorem keeps_ethLink {a d : Dev} (h : a.Keeps d) (x1 : Nat) (x2 : Bool) (x3 : Nat) (x4 : Bool) : a.Keeps (ethLink d x1 x2 x3 x4) := by
  unfold ethLink
  try dsimp only
  repeat' (first | with_reducible assumption | with_reducible apply keeps_setLink | with_reducible apply keeps_violate | with_reducible apply keeps_ite | split)

theorem keeps_refreshSpans {a d : Dev} (h : a.Keeps d) : a.Keeps (refreshSpans d) := by
  unfold refreshSpans
  try dsimp only
  repeat' (first | with_reducible assumption | intro _ | with_reducible apply keeps_each | with_reducible apply keeps_modEth | with_reducible apply keeps_each | split | simp only [keeps_mk])

theorem keeps_ptpFrame {a d : Dev} (h : a.Keeps d) (x1 : Nat) (x2 : List Byte) : a.Keeps (ptpFrame d x1 x2).2 := by
  unfold ptpFrame
  try dsimp only
  repeat' (first | with_reducible assumption | with_reducible apply keeps_draw | with_reducible apply keeps_ite | with_reducible apply keeps_ite_fst | with_reducible apply keeps_ite_snd | split | simp only [keeps_mk] | with_reducible refine keeps_snd ‹_› ?_)

theorem keeps_macsecTx {a d : Dev} (h : a.Keeps d) (x1 : Nat) (x2 : List Byte) : a.Keeps (macsecTx d x1 x2).2 := by
  unfold macsecTx
  try dsimp only
  repeat' (first | with_reducible assumption | with_reducible apply keeps_bump | with_reducible apply keeps_modEth | with_reducible apply keeps_raise | with_reducible apply keeps_ite | with_reducible apply keeps_ite_fst | with_reducible apply keeps_ite_snd | split | simp only [keeps_mk])

theorem keeps_macSend {a d : Dev} (h : a.Keeps d) (x1 : Nat) (x2 : List Byte) (x3 : Nat) (x4 : Option (Nat × W32)) (x5 : Option PtpOut) : a.Keeps (macSend d x1 x2 x3 x4 x5) := by
  unfold macSend
  try dsimp only
  repeat' (first | with_reducible assumption | with_reducible apply keeps_macsecTx | with_reducible apply keeps_bump | with_reducible apply keeps_emit | with_reducible apply keeps_modEth | with_reducible apply keeps_takeStampSeq | split | simp only [keeps_mk] | with_reducible refine keeps_snd ‹_› ?_)

theorem keeps_ptpTake {a d : Dev} (h : a.Keeps d) (x1 : Nat) : a.Keeps (ptpTake d x1) := by
  unfold ptpTake
  try dsimp only
  repeat' (first | with_reducible assumption | intro _ | with_reducible apply keeps_txStamp | with_reducible apply keeps_ptpFrame | with_reducible apply keeps_macSend | with_reducible apply keeps_modEth | with_reducible apply keeps_getD | with_reducible apply keeps_ite | with_reducible apply keeps_ite_fst | with_reducible apply keeps_ite_snd | split | simp only [keeps_mk] | with_reducible refine keeps_snd ‹_› ?_)

theorem keeps_ptpKick {a d : Dev} (h : a.Keeps d) (x1 : Nat) : a.Keeps (ptpKick d x1) := by
  unfold ptpKick
  try dsimp only
  repeat' (first | with_reducible assumption | with_reducible apply keeps_frameEnd | with_reducible apply keeps_ptpTake | with_reducible apply keeps_ite | split)

theorem keeps_ptpSend {a d : Dev} (h : a.Keeps d) (x1 : Nat) : a.Keeps (ptpSend d x1) := by
  unfold ptpSend
  try dsimp only
  repeat' (first | with_reducible assumption | with_reducible apply keeps_draw | with_reducible apply keeps_ptpQueue | with_reducible apply keeps_ptpKick | with_reducible apply keeps_ite | with_reducible apply keeps_ite_fst | with_reducible apply keeps_ite_snd | split | simp only [keeps_mk])

theorem keeps_setMpd {a d : Dev} (h : a.Keeps d) (x1 : Int) : a.Keeps (setMpd d x1) := by
  unfold setMpd
  try dsimp only
  repeat' (first | with_reducible assumption | simp only [keeps_mk])

theorem keeps_ptpAnswer {a d : Dev} (h : a.Keeps d) (x1 : PtpMsg) : a.Keeps (ptpAnswer d x1) := by
  unfold ptpAnswer
  try dsimp only
  repeat' (first | with_reducible assumption | with_reducible apply keeps_draw | with_reducible apply keeps_ptpQueue | with_reducible apply keeps_ite | with_reducible apply keeps_ite_fst | with_reducible apply keeps_ite_snd | split)

theorem keeps_ptpResponse {a d : Dev} (h : a.Keeps d) (x1 : PtpMsg) : a.Keeps (ptpResponse d x1) := by
  unfold ptpResponse
  try dsimp only
  repeat' (first | with_reducible assumption | with_reducible apply keeps_setMpd | with_reducible apply keeps_ite | split | simp only [keeps_mk])

theorem keeps_delayRx {a d : Dev} (h : a.Keeps d) : a.Keeps (delayRx d) := by
  unfold delayRx
  try dsimp only
  repeat' (first | with_reducible assumption | with_reducible apply keeps_ptpKick | with_reducible apply keeps_ptpAnswer | with_reducible apply keeps_ptpResponse | with_reducible apply keeps_frameEnd | with_reducible apply keeps_ite | split | simp only [keeps_mk])

theorem keeps_dropUnfit {a d : Dev} (h : a.Keeps d) (x0 : Nat) (x1 : Nat) (x2 : Nat) : a.Keeps (dropUnfit x0 x1 x2 d) := by
  induction x2 generalizing d with
  | zero => exact h
  | succ n ih =>
    unfold dropUnfit
    split
    · split
      · exact ih (keeps_setQueue h _ _)
      · split
        · exact ih (keeps_bump (keeps_setQueue h _ _) _ _)
        · exact h
    · exact h

theorem keeps_macTake {a d : Dev} (h : a.Keeps d) (x1 : Nat) (x2 : Nat) : a.Keeps (macTake d x1 x2) := by
  unfold macTake
  try dsimp only
  repeat' (first | with_reducible assumption | intro _ | with_reducible apply keeps_txStamp | with_reducible apply keeps_macSend | with_reducible apply keeps_chargeDequeue | with_reducible apply keeps_setQueue | with_reducible apply keeps_getD | with_reducible apply keeps_ite | with_reducible apply keeps_ite_fst | with_reducible apply keeps_ite_snd | split | simp only [keeps_mk] | with_reducible refine keeps_snd ‹_› ?_)

theorem keeps_lpiExit {a d : Dev} (h : a.Keeps d) (x1 : Nat) : a.Keeps (lpiExit d x1) := by
  unfold lpiExit
  try dsimp only
  repeat' (first | with_reducible assumption | with_reducible apply keeps_modEth | with_reducible apply keeps_ite | split | simp only [keeps_mk])

theorem keeps_ethTake {a d : Dev} (h : a.Keeps d) (x1 : Nat) : a.Keeps (ethTake d x1) := by
  unfold ethTake
  try dsimp only
  repeat' (first | with_reducible assumption | intro _ | with_reducible apply keeps_frameEnd | with_reducible apply keeps_each | with_reducible apply keeps_dropUnfit | with_reducible apply keeps_ptpTake | with_reducible apply keeps_macTake | with_reducible apply keeps_lpiExit | with_reducible apply keeps_bump | with_reducible apply keeps_chargeDequeue | with_reducible apply keeps_setQueue | with_reducible apply keeps_each | with_reducible apply keeps_ite | split | simp only [keeps_mk])

theorem keeps_lpiEntry {a d : Dev} (h : a.Keeps d) (x1 : Nat) : a.Keeps (lpiEntry d x1) := by
  unfold lpiEntry
  try dsimp only
  repeat' (first | with_reducible assumption | with_reducible apply keeps_bump | with_reducible apply keeps_modEth | with_reducible apply keeps_ite | split | simp only [keeps_mk])

theorem keeps_gateChange {a d : Dev} (h : a.Keeps d) (x1 : Nat) : a.Keeps (gateChange d x1) := by
  unfold gateChange
  try dsimp only
  repeat' (first | with_reducible assumption | with_reducible apply keeps_modEth | with_reducible apply keeps_ite | split | simp only [keeps_mk])

end Dev

end Sys2Proof.Machine
end

