-- ==== Sys2Proof/Laws/KeepsQlLink.lean ====
section
/-! SUPPORT. What the operations of Machine/QlLink.lean keep (see Laws/Keeps.lean). -/

-- One proof at a time: the package compiles as one text, and proofs elaborated side by side each take a thread's stack.
set_option Elab.async false
-- The proofs search: each goal uses some of the alternatives.
set_option linter.all false

namespace Sys2Proof.Machine

namespace Dev

theorem keeps_queueMir {a d : Dev} (h : a.Keeps d) (x1 : Nat) (x2 : List Byte) : a.Keeps (queueMir d x1 x2) := by
  unfold queueMir
  try dsimp only
  repeat' (first | with_reducible assumption | with_reducible apply keeps_draw | with_reducible apply keeps_modQl | with_reducible apply keeps_ite | with_reducible apply keeps_ite_fst | with_reducible apply keeps_ite_snd | split | simp only [keeps_mk])

theorem keeps_bumpQl {a d : Dev} (h : a.Keeps d) (x1 : Nat) (x2 : Nat → Counter) (x3 : Nat) : a.Keeps (bumpQl d x1 x2 x3) := by
  unfold bumpQl
  try dsimp only
  repeat' (first | with_reducible assumption | with_reducible apply keeps_bump | with_reducible apply keeps_ite | split)

theorem keeps_follow {a d : Dev} (h : a.Keeps d) : a.Keeps (follow d) := by
  unfold follow
  try dsimp only
  repeat' (first | with_reducible assumption | with_reducible apply keeps_ite | split | simp only [keeps_mk])

theorem keeps_refreshRoot {a d : Dev} (h : a.Keeps d) : a.Keeps (refreshRoot d) := by
  unfold refreshRoot
  try dsimp only
  repeat' (first | with_reducible assumption | with_reducible apply keeps_follow | simp only [keeps_mk])

theorem keeps_linkEvent {a d : Dev} (h : a.Keeps d) : a.Keeps (linkEvent d) := by
  unfold linkEvent
  try dsimp only
  repeat' (first | with_reducible assumption | with_reducible apply keeps_refreshRoot | with_reducible apply keeps_raise)

theorem keeps_sendWord {a d : Dev} (h : a.Keeps d) (x1 : Nat) (x2 : Nat) (x3 : Nat) : a.Keeps (sendWord d x1 x2 x3) := by
  unfold sendWord
  try dsimp only
  repeat' (first | with_reducible assumption | with_reducible apply keeps_emit | with_reducible apply keeps_ite | split)

theorem keeps_returnCredits {a d : Dev} (h : a.Keeps d) (x1 : Nat) (x2 : QlFrame) : a.Keeps (returnCredits d x1 x2) := by
  unfold returnCredits
  try dsimp only
  repeat' (first | with_reducible assumption | with_reducible apply keeps_sendWord | with_reducible apply keeps_modQl | with_reducible apply keeps_ite | split | simp only [keeps_mk])

theorem keeps_leaveBuffer {a d : Dev} (h : a.Keeps d) (x1 : QlFrame) : a.Keeps (leaveBuffer d x1) := by
  unfold leaveBuffer
  try dsimp only
  repeat' (first | with_reducible assumption | with_reducible apply keeps_returnCredits | with_reducible apply keeps_modQl | split | simp only [keeps_mk])

theorem keeps_forgetRx {a d : Dev} (h : a.Keeps d) (x1 : Nat) : a.Keeps (forgetRx d x1) := by
  unfold forgetRx
  try dsimp only
  repeat' (first | with_reducible assumption | intro _ | with_reducible apply keeps_each | with_reducible apply keeps_modQl | with_reducible apply keeps_each | with_reducible apply keeps_ite | split | simp only [keeps_mk])

theorem keeps_linkDown {a d : Dev} (h : a.Keeps d) (x1 : Nat) : a.Keeps (linkDown d x1) := by
  unfold linkDown
  try dsimp only
  repeat' (first | with_reducible assumption | intro _ | with_reducible apply keeps_bumpQl | with_reducible apply keeps_leaveBuffer | with_reducible apply keeps_forgetRx | with_reducible apply keeps_linkEvent | with_reducible apply keeps_modQl | with_reducible apply keeps_foldl | with_reducible apply keeps_ite | split | simp only [keeps_mk])

theorem keeps_sendRecord {a d : Dev} (h : a.Keeps d) (x1 : TxRec) : a.Keeps (sendRecord d x1) := by
  unfold sendRecord
  try dsimp only
  repeat' (first | with_reducible assumption | intro _ | with_reducible apply keeps_queueMir | with_reducible apply keeps_foldl)

theorem keeps_qlAckRx {a d : Dev} (h : a.Keeps d) (x1 : Nat) (x2 : Nat) : a.Keeps (qlAckRx d x1 x2) := by
  unfold qlAckRx
  try dsimp only
  repeat' (first | with_reducible assumption | with_reducible apply keeps_modQl | with_reducible apply keeps_ite | split | simp only [keeps_mk])

theorem keeps_sendFrame {a d : Dev} (h : a.Keeps d) (x1 : Nat) (x2 : QlFrame) (x3 : Nat) : a.Keeps (sendFrame d x1 x2 x3) := by
  unfold sendFrame
  try dsimp only
  repeat' (first | with_reducible assumption | with_reducible apply keeps_emit | with_reducible apply keeps_ite | split)

theorem keeps_resend {a d : Dev} (h : a.Keeps d) (x1 : Nat) : a.Keeps (resend d x1) := by
  unfold resend
  try dsimp only
  repeat' (first | with_reducible assumption | intro _ | with_reducible apply keeps_bumpQl | with_reducible apply keeps_modQl | with_reducible apply keeps_sendFrame | with_reducible apply keeps_foldl | with_reducible apply keeps_ite | split | simp only [keeps_mk])

theorem keeps_nakRx {a d : Dev} (h : a.Keeps d) (x1 : Nat) : a.Keeps (nakRx d x1) := by
  unfold nakRx
  try dsimp only
  repeat' (first | with_reducible assumption | with_reducible apply keeps_resend)

theorem keeps_creditRx {a d : Dev} (h : a.Keeps d) (x1 : Nat) (x2 : Nat) : a.Keeps (creditRx d x1 x2) := by
  unfold creditRx
  try dsimp only
  repeat' (first | with_reducible assumption | with_reducible apply keeps_modQl | with_reducible apply keeps_ite | split | simp only [keeps_mk])

theorem keeps_levelStep {a d : Dev} (h : a.Keeps d) (x1 : Nat) : a.Keeps (levelStep d x1) := by
  unfold levelStep
  try dsimp only
  repeat' (first | with_reducible assumption | with_reducible apply keeps_bump | with_reducible apply keeps_modQl | with_reducible apply keeps_ite | split | simp only [keeps_mk])

theorem keeps_levelRx {a d : Dev} (h : a.Keeps d) (x1 : Nat) (x2 : Nat) : a.Keeps (levelRx d x1 x2) := by
  unfold levelRx
  try dsimp only
  repeat' (first | with_reducible assumption | with_reducible apply keeps_levelStep | with_reducible apply keeps_modQl | simp only [keeps_mk])

theorem keeps_laneFail {a d : Dev} (h : a.Keeps d) (x1 : Nat) : a.Keeps (laneFail d x1) := by
  unfold laneFail
  try dsimp only
  repeat' (first | with_reducible assumption | with_reducible apply keeps_raise | with_reducible apply keeps_modQl | with_reducible apply keeps_ite | split | simp only [keeps_mk])

theorem keeps_stepDone {a d : Dev} (h : a.Keeps d) (x1 : Nat) (x2 : Bool) : a.Keeps (stepDone d x1 x2) := by
  unfold stepDone
  try dsimp only
  repeat' (first | with_reducible assumption | intro _ | with_reducible apply keeps_modQl | with_reducible apply keeps_sendWord | with_reducible apply keeps_laneFail | with_reducible apply keeps_foldl | with_reducible apply keeps_ite | split | simp only [keeps_mk])

theorem keeps_shelfRootLoss {a d : Dev} (h : a.Keeps d) : a.Keeps (shelfRootLoss d) := by
  unfold shelfRootLoss
  try dsimp only
  repeat' (first | with_reducible assumption | with_reducible apply keeps_ite | split | simp only [keeps_mk])

theorem keeps_dropUnrouted {a d : Dev} (h : a.Keeps d) (x0 : Nat) (x1 : Nat) : a.Keeps (dropUnrouted x0 x1 d) := by
  induction x1 generalizing d with
  | zero => exact h
  | succ n ih =>
    unfold dropUnrouted
    split
    · repeat' split
      all_goals first | exact h | exact ih (keeps_setQueue h _ _)
    · repeat' split
      all_goals first | exact h | exact ih (keeps_bump (keeps_setQueue h _ _) _ _)

theorem keeps_classNext {a d : Dev} (h : a.Keeps d) (x1 : Nat) (x2 : Nat) : ∀ y, (classNext d x1 x2) = some y → a.Keeps y.2 := by
  intro y e
  unfold classNext at e
  split at e
  · cases e
    dsimp only
    exact keeps_leaveBuffer (keeps_modQl h _ _) _
  · split at e
    · contradiction
    · simp only [Option.map_eq_some_iff] at e
      obtain ⟨b, -, rfl⟩ := e
      dsimp only
      rw [keeps_mk]
      exact keeps_chargeAt (keeps_setQueue h _ _) _ _

theorem keeps_announceOn {a d : Dev} (h : a.Keeps d) (x1 : List Nat) (x2 : QlFrame) : a.Keeps (announceOn d x1 x2) := by
  unfold announceOn
  try dsimp only
  repeat' (first | with_reducible assumption | intro _ | with_reducible apply keeps_each | with_reducible apply keeps_queueQl | with_reducible apply keeps_each | with_reducible apply keeps_ite | split)

theorem keeps_rootAnnounce {a d : Dev} (h : a.Keeps d) (x1 : Nat) (x2 : QlFrame) : a.Keeps (rootAnnounce d x1 x2) := by
  unfold rootAnnounce
  try dsimp only
  repeat' (first | with_reducible assumption | with_reducible apply keeps_violate | with_reducible apply keeps_follow | with_reducible apply keeps_announceOn | with_reducible apply keeps_ite | split | simp only [keeps_mk])

theorem keeps_transmit {a d : Dev} (h : a.Keeps d) (x1 : Nat) (x2 : QlFrame) : a.Keeps (transmit d x1 x2) := by
  unfold transmit
  try dsimp only
  repeat' (first | with_reducible assumption | with_reducible apply keeps_modQl | with_reducible apply keeps_sendFrame | with_reducible apply keeps_bumpQl | simp only [keeps_mk])

theorem keeps_tryClasses {a d : Dev} (h : a.Keeps d) (q : Nat) (l : List (Dev → Option (QlFrame × Dev))) (hl : ∀ g ∈ l, ∀ y, a.Keeps y → ∀ z, g y = some z → a.Keeps z.2) : a.Keeps (tryClasses q l d) := by
  induction l generalizing d with
  | nil => exact h
  | cons g gs ih =>
    unfold tryClasses
    split
    · exact ih h (fun g hg => hl g (List.mem_cons_of_mem _ hg))
    · rename_i f d1 e
      have h1 := hl g List.mem_cons_self d h _ e
      split
      · exact keeps_transmit h1 _ _
      · exact ih (keeps_modQl h _ _) (fun g hg => hl g (List.mem_cons_of_mem _ hg))

theorem keeps_levelWindow {a d : Dev} (h : a.Keeps d) (x1 : Nat) : a.Keeps (levelWindow d x1) := by
  unfold levelWindow
  try dsimp only
  repeat' (first | with_reducible assumption | with_reducible apply keeps_modQl | with_reducible apply keeps_levelStep | with_reducible apply keeps_sendWord | with_reducible apply keeps_ite | split | simp only [keeps_mk])

theorem keeps_linkUp {a d : Dev} (h : a.Keeps d) (x1 : Nat) (x2 : Bool) : a.Keeps (linkUp d x1 x2) := by
  unfold linkUp
  try dsimp only
  repeat' (first | with_reducible assumption | intro _ | with_reducible apply keeps_modQl | with_reducible apply keeps_laneFail | with_reducible apply keeps_linkEvent | with_reducible apply keeps_bump | with_reducible apply keeps_sendRecord | with_reducible apply keeps_foldl | with_reducible apply keeps_ite | split)

theorem keeps_mirNext {a d : Dev} (h : a.Keeps d) (x0 : Nat) : ∀ y, (mirNext x0 d) = some y → a.Keeps y.2 := by
  intro y e
  unfold mirNext at e
  dsimp only at e
  split at e
  · simp only [Option.map_eq_some_iff] at e
    obtain ⟨b, -, rfl⟩ := e
    dsimp only
    exact keeps_modQl h _ _
  · contradiction

theorem keeps_memberAnnounce {a d : Dev} (h : a.Keeps d) (x1 : Nat) (x2 : QlFrame) : a.Keeps (memberAnnounce d x1 x2) := by
  unfold memberAnnounce
  try dsimp only
  repeat' (first | with_reducible assumption | with_reducible apply keeps_announceOn | with_reducible apply keeps_ite | split | simp only [keeps_mk])

theorem keeps_memberAnnounceSend {a d : Dev} (h : a.Keeps d) : a.Keeps (memberAnnounceSend d) := by
  unfold memberAnnounceSend
  try dsimp only
  repeat' (first | with_reducible assumption | with_reducible apply keeps_announceOn | with_reducible apply keeps_ite | split | simp only [keeps_mk])

theorem keeps_schedule {a d : Dev} (h : a.Keeps d) (x1 : Nat) : a.Keeps (schedule d x1) := by
  unfold schedule
  refine keeps_ite h (keeps_ite (keeps_tryClasses h _ _ ?_) (keeps_tryClasses ?_ _ _ ?_))
  · intro g hg y hy
    simp only [List.mem_cons, List.not_mem_nil, or_false] at hg
    rcases hg with rfl | rfl
    · exact keeps_mirNext hy _
    · exact keeps_mirNext hy _
  · exact keeps_each h _ _ fun y c hy => keeps_each hy _ _ fun z n hz => keeps_dropUnrouted hz _ _
  · intro g hg y hy
    simp only [List.mem_map] at hg
    obtain ⟨c, -, rfl⟩ := hg
    exact keeps_classNext hy _ _

theorem keeps_rootExpiry {a d : Dev} (h : a.Keeps d) (x1 : Nat) : a.Keeps (rootExpiry d x1) := by
  unfold rootExpiry
  try dsimp only
  repeat' (first | with_reducible assumption | with_reducible apply keeps_follow | with_reducible apply keeps_ite | split | simp only [keeps_mk])

theorem keeps_announceSend {a d : Dev} (h : a.Keeps d) : a.Keeps (announceSend d) := by
  unfold announceSend
  try dsimp only
  repeat' (first | with_reducible assumption | with_reducible apply keeps_announceOn | with_reducible apply keeps_ite | split)

theorem keeps_announceRx {a d : Dev} (h : a.Keeps d) : a.Keeps (announceRx d) := by
  unfold announceRx
  try dsimp only
  repeat' (first | with_reducible assumption | with_reducible apply keeps_violate | with_reducible apply keeps_modQl | with_reducible apply keeps_rootAnnounce | with_reducible apply keeps_memberAnnounce | with_reducible apply keeps_ite | split | simp only [keeps_mk])

end Dev

end Sys2Proof.Machine
end

