-- ==== Sys2Proof/Laws/KeepsModes.lean ====
section
/-! SUPPORT. What the operations of Machine/Modes.lean keep (see Laws/Keeps.lean). -/

-- One proof at a time: the package compiles as one text, and proofs elaborated side by side each take a thread's stack.
set_option Elab.async false
-- The proofs search: each goal uses some of the alternatives.
set_option linter.all false

namespace Sys2Proof.Machine

namespace Dev

theorem keeps_ownInRelease {a d : Dev} (h : a.Keeps d) : a.Keeps (ownInRelease d) := by
  unfold ownInRelease
  try dsimp only
  repeat' (first | with_reducible assumption | with_reducible apply keeps_gateOpens | with_reducible apply keeps_ite | split | simp only [keeps_mk])

theorem keeps_pairSetApply {a d : Dev} (h : a.Keeps d) (x1 : Cmd) : a.Keeps (pairSetApply d x1) := by
  unfold pairSetApply
  try dsimp only
  repeat' (first | with_reducible assumption | with_reducible apply keeps_completeStaged | with_reducible apply keeps_linkDown | with_reducible apply keeps_ite | split | simp only [keeps_mk])

theorem keeps_putReg {a d : Dev} (h : a.Keeps d) (x1 : Nat) (x2 : W32) : a.Keeps (putReg d x1 x2) := by
  unfold putReg
  try dsimp only
  repeat' (first | with_reducible assumption | with_reducible apply keeps_setCfg | with_reducible apply keeps_ite | split | simp only [keeps_mk])

theorem keeps_setRedund {a d : Dev} (h : a.Keeps d) (x1 : Redund) : a.Keeps (setRedund d x1) := by
  unfold setRedund
  try dsimp only
  repeat' (first | with_reducible assumption | with_reducible apply keeps_raise | with_reducible apply keeps_ite | split | simp only [keeps_mk])

theorem keeps_enterResync {a d : Dev} (h : a.Keeps d) : a.Keeps (enterResync d) := by
  unfold enterResync
  try dsimp only
  repeat' (first | with_reducible assumption | with_reducible apply keeps_setRedund | simp only [keeps_mk])

theorem keeps_acquireOwn {a d : Dev} (h : a.Keeps d) : a.Keeps (acquireOwn d) := by
  unfold acquireOwn
  try dsimp only
  repeat' (first | with_reducible assumption | with_reducible apply keeps_gateOpens | with_reducible apply keeps_ite | split | simp only [keeps_mk])

theorem keeps_bootAcquire {a d : Dev} (h : a.Keeps d) : a.Keeps (bootAcquire d) := by
  unfold bootAcquire
  try dsimp only
  repeat' (first | with_reducible assumption | with_reducible apply keeps_acquireOwn | simp only [keeps_mk])

theorem keeps_bootProcedure {a d : Dev} (h : a.Keeps d) : a.Keeps (bootProcedure d) := by
  unfold bootProcedure
  try dsimp only
  repeat' (first | with_reducible assumption | with_reducible apply keeps_enterResync | with_reducible apply keeps_bootAcquire | with_reducible apply keeps_ite | split | simp only [keeps_mk])

theorem keeps_decideMode {a d : Dev} (h : a.Keeps d) (x1 : Ctl) : a.Keeps (decideMode d x1) := by
  unfold decideMode
  try dsimp only
  repeat' (first | with_reducible assumption | with_reducible apply keeps_bootProcedure | with_reducible apply keeps_refreshRoot | simp only [keeps_mk])

theorem keeps_windowEnd {a d : Dev} (h : a.Keeps d) : a.Keeps (windowEnd d) := by
  unfold windowEnd
  try dsimp only
  repeat' (first | with_reducible assumption | with_reducible apply keeps_decideMode | with_reducible apply keeps_ite | split)

theorem keeps_setControl {a d : Dev} (h : a.Keeps d) (x1 : Ctl) : a.Keeps (setControl d x1) := by
  unfold setControl
  try dsimp only
  repeat' (first | with_reducible assumption | with_reducible apply keeps_refreshRoot | with_reducible apply keeps_ite | split | simp only [keeps_mk])

theorem keeps_hostAttachApply {a d : Dev} (h : a.Keeps d) (x1 : Cmd) : a.Keeps (hostAttachApply d x1) := by
  unfold hostAttachApply
  try dsimp only
  repeat' (first | with_reducible assumption | with_reducible apply keeps_completeStaged | with_reducible apply keeps_setControl | with_reducible apply keeps_ite | split | simp only [keeps_mk])

theorem keeps_flushAir {a d : Dev} (h : a.Keeps d) : a.Keeps (flushAir d) := by
  unfold flushAir
  try dsimp only
  repeat' (first | with_reducible assumption | intro _ | with_reducible apply keeps_each | with_reducible apply keeps_clearOwn | with_reducible apply keeps_giveBack | with_reducible apply keeps_dropCopy | with_reducible apply keeps_bump | with_reducible apply keeps_setQueue | with_reducible apply keeps_foldl | with_reducible apply keeps_each | with_reducible apply keeps_ite | with_reducible apply keeps_ite_fst | with_reducible apply keeps_ite_snd | split | simp only [keeps_mk] | with_reducible refine keeps_fst ‹_› ?_)

theorem keeps_setPhase {a d : Dev} (h : a.Keeps d) (x1 : Phase) : a.Keeps (setPhase d x1) := by
  unfold setPhase
  try dsimp only
  repeat' (first | with_reducible assumption | with_reducible apply keeps_flushAir | with_reducible apply keeps_ite | split | simp only [keeps_mk])

theorem keeps_hostAttach {a d : Dev} (h : a.Keeps d) (x1 : Hdr) : a.Keeps (hostAttach d x1) := by
  unfold hostAttach
  try dsimp only
  repeat' (first | with_reducible assumption | intro _ | with_reducible apply keeps_command | with_reducible apply keeps_complete | with_reducible apply keeps_stageCmd | with_reducible apply keeps_ite | split | simp only [keeps_mk])

theorem keeps_setPhaseCmd {a d : Dev} (h : a.Keeps d) (x1 : Hdr) (x2 : List Byte) : a.Keeps (setPhaseCmd d x1 x2) := by
  unfold setPhaseCmd
  try dsimp only
  repeat' (first | with_reducible assumption | intro _ | with_reducible apply keeps_command | with_reducible apply keeps_complete | with_reducible apply keeps_stageCmd | with_reducible apply keeps_ite | split | simp only [keeps_mk])

theorem keeps_cinLock {a d : Dev} (h : a.Keeps d) (x1 : Hdr) (x2 : List Byte) (x3 : Bool) : a.Keeps (cinLock d x1 x2 x3) := by
  unfold cinLock
  refine keeps_command h _ _ fun y hy => ?_
  dsimp only
  split
  · exact keeps_complete hy _ _ _
  · rename_i hno
    split
    · exact keeps_complete hy _ _ _
    · split
      · exact keeps_complete hy _ _ _
      · split
        · exact keeps_complete hy _ _ _
        · have hb : ∀ s v b, a.Keeps { y with otp := cinBurn y.otp s v b } := by
            intro s v b
            refine keeps_otp hy ?_ rfl rfl rfl
            unfold cinBurn
            split <;> (constructor <;> simp_all)
          split
          · exact keeps_complete (keeps_loadCinnabar (hb _ _ _)) _ _ _
          · exact keeps_complete (hb _ _ _) _ _ _

theorem keeps_pairSet {a d : Dev} (h : a.Keeps d) (x1 : Hdr) (x2 : List Byte) (x3 : Nat) : a.Keeps (pairSet d x1 x2 x3) := by
  unfold pairSet
  try dsimp only
  repeat' (first | with_reducible assumption | intro _ | with_reducible apply keeps_command | with_reducible apply keeps_complete | with_reducible apply keeps_stageCmd | with_reducible apply keeps_ite | split)

theorem keeps_contentionLog {a d : Dev} (h : a.Keeps d) : a.Keeps (contentionLog d) := by
  unfold contentionLog
  try dsimp only
  repeat' (first | with_reducible assumption | with_reducible apply keeps_violate | with_reducible apply keeps_ite | split)

theorem keeps_ownInAssert {a d : Dev} (h : a.Keeps d) : a.Keeps (ownInAssert d) := by
  unfold ownInAssert
  try dsimp only
  repeat' (first | with_reducible assumption | with_reducible apply keeps_enterResync | with_reducible apply keeps_bump | with_reducible apply keeps_gateClose | with_reducible apply keeps_contentionLog | with_reducible apply keeps_raise | with_reducible apply keeps_ite | split | simp only [keeps_mk])

theorem keeps_pcieLink {a d : Dev} (h : a.Keeps d) (x1 : LinkState) : a.Keeps (pcieLink d x1) := by
  unfold pcieLink
  try dsimp only
  repeat' (first | with_reducible assumption | with_reducible apply keeps_decideMode | with_reducible apply keeps_ite | split | simp only [keeps_mk])

theorem keeps_hostLinkLoss {a d : Dev} (h : a.Keeps d) : a.Keeps (hostLinkLoss d) := by
  unfold hostLinkLoss
  try dsimp only
  repeat' (first | with_reducible assumption | with_reducible apply keeps_ite | split | simp only [keeps_mk])

theorem keeps_ownBootDelayEnd {a d : Dev} (h : a.Keeps d) : a.Keeps (ownBootDelayEnd d) := by
  unfold ownBootDelayEnd
  try dsimp only
  repeat' (first | with_reducible assumption | with_reducible apply keeps_bootAcquire | with_reducible apply keeps_ite | split)

end Dev

end Sys2Proof.Machine
end

