-- ==== Sys2Proof/Laws/KeepsRedund.lean ====
section
/-! SUPPORT. What the operations of Machine/Redund.lean keep (see Laws/Keeps.lean). -/

-- One proof at a time: the package compiles as one text, and proofs elaborated side by side each take a thread's stack.
set_option Elab.async false
-- The proofs search: each goal uses some of the alternatives.
set_option linter.all false

namespace Sys2Proof.Machine

namespace Dev

theorem keeps_inherit {a d : Dev} (h : a.Keeps d) (x1 : Mord) : a.Keeps (inherit d x1) := by
  unfold inherit
  try dsimp only
  repeat' (first | with_reducible assumption | intro _ | with_reducible apply keeps_putReg | with_reducible apply keeps_regrid | with_reducible apply keeps_foldl | with_reducible apply keeps_getD | with_reducible apply keeps_ite | split | simp only [keeps_mk])

theorem keeps_applyCommitted {a d : Dev} (h : a.Keeps d) (x1 : CommRec) : a.Keeps (applyCommitted d x1) := by
  unfold applyCommitted
  try dsimp only
  repeat' (first | with_reducible assumption | intro _ | with_reducible apply keeps_inherit | with_reducible apply keeps_setRedund | with_reducible apply keeps_getD | with_reducible apply keeps_ite | split | simp only [keeps_mk])

theorem keeps_sendEpochRecord {a d : Dev} (h : a.Keeps d) (x1 : Nat) : a.Keeps (sendEpochRecord d x1) := by
  unfold sendEpochRecord
  try dsimp only
  repeat' (first | with_reducible assumption | intro _ | with_reducible apply keeps_bump | with_reducible apply keeps_sendRecord | with_reducible apply keeps_getD | with_reducible apply keeps_ite | split | simp only [keeps_mk])

theorem keeps_recordStrobe {a d : Dev} (h : a.Keeps d) (x1 : Nat) : a.Keeps (recordStrobe d x1) := by
  unfold recordStrobe
  try dsimp only
  repeat' (first | with_reducible assumption | with_reducible apply keeps_sendEpochRecord | with_reducible apply keeps_ite | split)

theorem keeps_heartbeatRx {a d : Dev} (h : a.Keeps d) (x1 : Nat) : a.Keeps (heartbeatRx d x1) := by
  unfold heartbeatRx
  try dsimp only
  repeat' (first | with_reducible assumption | with_reducible apply keeps_violate | with_reducible apply keeps_enterResync | with_reducible apply keeps_ite | split | simp only [keeps_mk])

theorem keeps_heartbeatMiss {a d : Dev} (h : a.Keeps d) : a.Keeps (heartbeatMiss d) := by
  unfold heartbeatMiss
  try dsimp only
  repeat' (first | with_reducible assumption | with_reducible apply keeps_bump | with_reducible apply keeps_raise | with_reducible apply keeps_ite | split | simp only [keeps_mk])

theorem keeps_restore {a d : Dev} (h : a.Keeps d) (x1 : Mord) : a.Keeps (restore d x1) := by
  unfold restore
  try dsimp only
  repeat' (first | with_reducible assumption | intro _ | with_reducible apply keeps_each | with_reducible apply keeps_draw | with_reducible apply keeps_modPan | with_reducible apply keeps_commitPipe | with_reducible apply keeps_commitTime | with_reducible apply keeps_foldl | with_reducible apply keeps_each | split | simp only [keeps_mk] | with_reducible refine keeps_snd ‹_› ?_)

theorem keeps_reqBaseSend {a d : Dev} (h : a.Keeps d) : a.Keeps (reqBaseSend d) := by
  unfold reqBaseSend
  try dsimp only
  repeat' (first | with_reducible assumption | with_reducible apply keeps_queueMir | with_reducible apply keeps_ite | split)

theorem keeps_refreshReady {a d : Dev} (h : a.Keeps d) : a.Keeps (refreshReady d) := by
  unfold refreshReady
  try dsimp only
  repeat' (first | with_reducible assumption | with_reducible apply keeps_raise | with_reducible apply keeps_ite | split | simp only [keeps_mk])

theorem keeps_enterActive {a d : Dev} (h : a.Keeps d) : a.Keeps (enterActive d) := by
  unfold enterActive
  try dsimp only
  repeat' (first | with_reducible assumption | with_reducible apply keeps_setRedund | simp only [keeps_mk])

theorem keeps_toHost {a d : Dev} (h : a.Keeps d) (x1 : Cmd) (x2 : List Byte) : a.Keeps (toHost d x1 x2) := by
  unfold toHost
  try dsimp only
  repeat' (first | with_reducible assumption | with_reducible apply keeps_emit | split | simp only [keeps_mk])

theorem keeps_takeoverRead {a d : Dev} (h : a.Keeps d) (x1 : Hdr) (x2 : List Byte) (x3 : Bool) : a.Keeps (takeoverRead d x1 x2 x3) := by
  unfold takeoverRead
  try dsimp only
  repeat' (first | with_reducible assumption | intro _ | with_reducible apply keeps_command | with_reducible apply keeps_complete | with_reducible apply keeps_toHost | with_reducible apply keeps_foldl | with_reducible apply keeps_ite | split | simp only [keeps_mk])

theorem keeps_discardRx {a d : Dev} (h : a.Keeps d) : a.Keeps (discardRx d) := by
  unfold discardRx
  try dsimp only
  repeat' (first | with_reducible assumption | with_reducible apply keeps_bump | split | simp only [keeps_mk])

theorem keeps_breakChain {a d : Dev} (h : a.Keeps d) (x1 : Nat) : a.Keeps (breakChain d x1) := by
  unfold breakChain
  try dsimp only
  repeat' (first | with_reducible assumption | with_reducible apply keeps_queueMir | with_reducible apply keeps_bump | with_reducible apply keeps_raise | simp only [keeps_mk])

theorem keeps_recordAckTimeout {a d : Dev} (h : a.Keeps d) : a.Keeps (recordAckTimeout d) := by
  unfold recordAckTimeout
  try dsimp only
  repeat' (first | with_reducible assumption | with_reducible apply keeps_breakChain | with_reducible apply keeps_ite | split | simp only [keeps_mk])

theorem keeps_heartbeatSend {a d : Dev} (h : a.Keeps d) : a.Keeps (heartbeatSend d) := by
  unfold heartbeatSend
  try dsimp only
  repeat' (first | with_reducible assumption | with_reducible apply keeps_sendWord | with_reducible apply keeps_ite | split | simp only [keeps_mk])

theorem keeps_applyAll {a d : Dev} (h : a.Keeps d) : a.Keeps (applyAll d) := by
  unfold applyAll
  try dsimp only
  repeat' (first | with_reducible assumption | intro _ | with_reducible apply keeps_applyCommitted | with_reducible apply keeps_foldl | simp only [keeps_mk])

theorem keeps_takeMir {a d : Dev} (h : a.Keeps d) (x1 : Nat) : ∀ y, (takeMir d x1) = some y → a.Keeps y.2 := by
  intro y e
  unfold takeMir at e
  try dsimp only at e
  repeat' split at e
  all_goals first | contradiction | (cases e)
  all_goals try dsimp only
  all_goals repeat' (first | with_reducible assumption | with_reducible apply keeps_ite | with_reducible apply keeps_ite_fst | with_reducible apply keeps_ite_snd | split | simp only [keeps_mk])

theorem keeps_queueCommitted {a d : Dev} (h : a.Keeps d) (x1 : Nat) (x2 : Nat) (x3 : Nat) (x4 : List Byte) : a.Keeps (queueCommitted d x1 x2 x3 x4) := by
  unfold queueCommitted
  try dsimp only
  repeat' (first | with_reducible assumption | simp only [keeps_mk])

theorem keeps_commitRecord {a d : Dev} (h : a.Keeps d) (x1 : List Byte) : a.Keeps (commitRecord d x1) := by
  unfold commitRecord
  try dsimp only
  repeat' (first | with_reducible assumption | with_reducible apply keeps_queueMir | with_reducible apply keeps_bump | with_reducible apply keeps_queueCommitted | with_reducible apply keeps_enterResync | with_reducible apply keeps_refreshReady | with_reducible apply keeps_ite | split | simp only [keeps_mk])

theorem keeps_fragmentInto {a d : Dev} (h : a.Keeps d) (x1 : QlFrame) : a.Keeps (fragmentInto d x1) := by
  unfold fragmentInto
  try dsimp only
  repeat' (first | with_reducible assumption | with_reducible apply keeps_discardRx | with_reducible apply keeps_commitRecord | with_reducible apply keeps_ite | split | simp only [keeps_mk])

theorem keeps_fragmentRx {a d : Dev} (h : a.Keeps d) : a.Keeps (fragmentRx d) := by
  unfold fragmentRx
  try dsimp only
  repeat' (first | with_reducible assumption | with_reducible refine keeps_takeMir ?_ _ | intro _ | with_reducible apply keeps_fragmentInto | with_reducible apply keeps_ite | with_reducible apply keeps_ite_fst | with_reducible apply keeps_ite_snd | split | simp only [keeps_mk] | with_reducible refine keeps_some_snd ‹_› ?_ | with_reducible refine keeps_some_fst ‹_› ?_)

theorem keeps_breakRx {a d : Dev} (h : a.Keeps d) : a.Keeps (breakRx d) := by
  unfold breakRx
  try dsimp only
  repeat' (first | with_reducible assumption | with_reducible refine keeps_takeMir ?_ _ | intro _ | with_reducible apply keeps_enterResync | with_reducible apply keeps_discardRx | with_reducible apply keeps_ite | with_reducible apply keeps_ite_fst | with_reducible apply keeps_ite_snd | split | simp only [keeps_mk] | with_reducible refine keeps_some_snd ‹_› ?_ | with_reducible refine keeps_some_fst ‹_› ?_)

theorem keeps_openJournal {a d : Dev} (h : a.Keeps d) : a.Keeps (openJournal d) := by
  unfold openJournal
  try dsimp only
  repeat' (first | with_reducible assumption | with_reducible apply keeps_ite | split | simp only [keeps_mk])

theorem keeps_takeOwn {a d : Dev} (h : a.Keeps d) : a.Keeps (takeOwn d) := by
  unfold takeOwn
  try dsimp only
  repeat' (first | with_reducible assumption | intro _ | with_reducible apply keeps_bump | with_reducible apply keeps_applyAll | with_reducible apply keeps_discardRx | with_reducible apply keeps_evalLanes | with_reducible apply keeps_acquireOwn | with_reducible apply keeps_openJournal | with_reducible apply keeps_restore | with_reducible apply keeps_setRedund | with_reducible apply keeps_getD | with_reducible apply keeps_ite | split | simp only [keeps_mk])

theorem keeps_mirrorFillDone {a d : Dev} (h : a.Keeps d) : a.Keeps (mirrorFillDone d) := by
  unfold mirrorFillDone
  try dsimp only
  repeat' (first | with_reducible assumption | with_reducible apply keeps_ite | split | simp only [keeps_mk])

theorem keeps_ochreStrobe {a d : Dev} (h : a.Keeps d) : a.Keeps (ochreStrobe d) := by
  unfold ochreStrobe
  try dsimp only
  repeat' (first | with_reducible assumption | with_reducible apply keeps_refreshReady | with_reducible apply keeps_queueMir | with_reducible apply keeps_ite | split | simp only [keeps_mk])

theorem keeps_ownWaitDeadline {a d : Dev} (h : a.Keeps d) : a.Keeps (ownWaitDeadline d) := by
  unfold ownWaitDeadline
  try dsimp only
  repeat' (first | with_reducible assumption | with_reducible apply keeps_enterResync | with_reducible apply keeps_raise | with_reducible apply keeps_ite | split)

theorem keeps_restoreDone {a d : Dev} (h : a.Keeps d) : a.Keeps (restoreDone d) := by
  unfold restoreDone
  try dsimp only
  repeat' (first | with_reducible assumption | with_reducible apply keeps_raise | with_reducible apply keeps_ite | split | simp only [keeps_mk])

theorem keeps_ochreTest {a d : Dev} (h : a.Keeps d) (x1 : Nat) (x2 : Bool) (x3 : Nat) : a.Keeps (ochreTest d x1 x2 x3) := by
  unfold ochreTest
  try dsimp only
  repeat' (first | with_reducible assumption | with_reducible apply keeps_bump | with_reducible apply keeps_enterResync | with_reducible apply keeps_refreshReady | with_reducible apply keeps_ite | split | simp only [keeps_mk])

theorem keeps_recordAckRx {a d : Dev} (h : a.Keeps d) : a.Keeps (recordAckRx d) := by
  unfold recordAckRx
  try dsimp only
  repeat' (first | with_reducible assumption | with_reducible refine keeps_takeMir ?_ _ | intro _ | with_reducible apply keeps_bump | with_reducible apply keeps_ite | with_reducible apply keeps_ite_fst | with_reducible apply keeps_ite_snd | split | simp only [keeps_mk] | with_reducible refine keeps_some_snd ‹_› ?_ | with_reducible refine keeps_some_fst ‹_› ?_)

theorem keeps_reqBaseRx {a d : Dev} (h : a.Keeps d) : a.Keeps (reqBaseRx d) := by
  unfold reqBaseRx
  try dsimp only
  repeat' (first | with_reducible assumption | with_reducible refine keeps_takeMir ?_ _ | intro _ | with_reducible apply keeps_ite | with_reducible apply keeps_ite_fst | with_reducible apply keeps_ite_snd | split | simp only [keeps_mk] | with_reducible refine keeps_some_snd ‹_› ?_ | with_reducible refine keeps_some_fst ‹_› ?_)

theorem keeps_heartbeatStall {a d : Dev} (h : a.Keeps d) : a.Keeps (heartbeatStall d) := by
  unfold heartbeatStall
  try dsimp only
  repeat' (first | with_reducible assumption | with_reducible apply keeps_releaseOwn | with_reducible apply keeps_ite | split)

theorem keeps_ochreRx {a d : Dev} (h : a.Keeps d) : a.Keeps (ochreRx d) := by
  unfold ochreRx
  try dsimp only
  repeat' (first | with_reducible assumption | with_reducible refine keeps_takeMir ?_ _ | intro _ | split | simp only [keeps_mk] | with_reducible refine keeps_some_snd ‹_› ?_ | with_reducible refine keeps_some_fst ‹_› ?_)

end Dev

end Sys2Proof.Machine
end

