-- ==== Sys2Proof/Laws/KeepsEpoch.lean ====
section
/-! SUPPORT. What the operations of Machine/Epoch.lean keep (see Laws/Keeps.lean). -/

-- One proof at a time: the package compiles as one text, and proofs elaborated side by side each take a thread's stack.
set_option Elab.async false
-- The proofs search: each goal uses some of the alternatives.
set_option linter.all false

namespace Sys2Proof.Machine

namespace Dev

theorem keeps_applyModeCmd {a d : Dev} (h : a.Keeps d) (x1 : Cmd) : a.Keeps (applyModeCmd d x1) := by
  unfold applyModeCmd
  try dsimp only
  repeat' (first | with_reducible assumption | with_reducible apply keeps_hostAttachApply | with_reducible apply keeps_completeStaged | with_reducible apply keeps_setPhase | split | simp only [keeps_mk])

theorem keeps_overcommit {a d : Dev} (h : a.Keeps d) (x1 : Vio) (x2 : Nat) (x3 : Nat) (x4 : Nat → Nat) : a.Keeps (overcommit d x1 x2 x3 x4) := by
  unfold overcommit
  try dsimp only
  repeat' (first | with_reducible assumption | intro _ | with_reducible apply keeps_each | with_reducible apply keeps_violate | with_reducible apply keeps_each | with_reducible apply keeps_ite | split)

theorem keeps_setNextB {a d : Dev} (h : a.Keeps d) (x1 : Bool) : a.Keeps (setNextB d x1) := by
  unfold setNextB
  try dsimp only
  repeat' (first | with_reducible assumption | with_reducible apply keeps_regrid | with_reducible apply keeps_ite | split | simp only [keeps_mk])

theorem keeps_applyTight {a d : Dev} (h : a.Keeps d) (x1 : Nat) (x2 : Bool) (x3 : Nat) : a.Keeps (applyTight d x1 x2 x3) := by
  unfold applyTight
  try dsimp only
  repeat' (first | with_reducible assumption | intro _ | with_reducible apply keeps_violate | with_reducible apply keeps_foldl | with_reducible apply keeps_ite | split | simp only [keeps_mk])

theorem keeps_applyReg {a d : Dev} (h : a.Keeps d) (x1 : Nat) (x2 : W32) : a.Keeps (applyReg d x1 x2) := by
  unfold applyReg
  try dsimp only
  repeat' (first | with_reducible assumption | with_reducible apply keeps_applyTight | with_reducible apply keeps_putReg | with_reducible apply keeps_ite | split)

theorem keeps_applyRegs {a d : Dev} (h : a.Keeps d) (x1 : Nat → Bool) : a.Keeps (applyRegs d x1) := by
  unfold applyRegs
  try dsimp only
  repeat' (first | with_reducible assumption | intro _ | with_reducible apply keeps_applyReg | with_reducible apply keeps_foldl | simp only [keeps_mk])

theorem keeps_latchDomain {a d : Dev} (h : a.Keeps d) (x1 : Option Domain) (x2 : List (Nat × Nat)) : a.Keeps (latchDomain d x1 x2) := by
  unfold latchDomain
  try dsimp only
  repeat' (first | with_reducible assumption | intro _ | with_reducible apply keeps_foldl | split | simp only [keeps_mk])

theorem keeps_serdesStrobe {a d : Dev} (h : a.Keeps d) : a.Keeps (serdesStrobe d) := by
  unfold serdesStrobe
  try dsimp only
  repeat' (first | with_reducible assumption | intro _ | with_reducible apply keeps_applyRegs | with_reducible apply keeps_each | with_reducible apply keeps_linkDown | with_reducible apply keeps_latchDomain | with_reducible apply keeps_each | with_reducible apply keeps_ite | split | simp only [keeps_mk])

theorem keeps_takeFrozen {a d : Dev} (h : a.Keeps d) (x1 : Cmd → Bool) : a.Keeps (takeFrozen d x1).2 := by
  unfold takeFrozen
  try dsimp only
  repeat' (first | with_reducible assumption | simp only [keeps_mk])

theorem keeps_changeAir {a d : Dev} (h : a.Keeps d) (x1 : Dev → Dev) (hx1 : ∀ y, a.Keeps y → a.Keeps (x1 y)) : a.Keeps (changeAir d x1) := by
  unfold changeAir
  try dsimp only
  repeat' (first | with_reducible assumption | intro _ | with_reducible apply keeps_each | with_reducible apply keeps_holdLane | with_reducible apply keeps_holdCarrier | with_reducible apply keeps_modLane | with_reducible apply keeps_modCarrier | with_reducible apply hx1 | with_reducible apply keeps_getD | with_reducible apply keeps_each | with_reducible apply keeps_ite | split | simp only [keeps_mk])

theorem keeps_portStrobe {a d : Dev} (h : a.Keeps d) (x1 : Nat) : a.Keeps (portStrobe d x1) := by
  unfold portStrobe
  try dsimp only
  repeat' (first | with_reducible assumption | with_reducible apply keeps_portStart | with_reducible apply keeps_fall | with_reducible apply keeps_modPort | with_reducible apply keeps_coexFall | with_reducible apply keeps_refreshFem | with_reducible apply keeps_agcClamp | with_reducible apply keeps_ite | split | simp only [keeps_mk])

theorem keeps_homeRetune {a d : Dev} (h : a.Keeps d) (x1 : Nat) : a.Keeps (homeRetune d x1) := by
  unfold homeRetune
  try dsimp only
  repeat' (first | with_reducible assumption | with_reducible apply keeps_seqRetune | with_reducible apply keeps_bump | with_reducible apply keeps_ite | split)

theorem keeps_snapView {a d : Dev} (h : a.Keeps d) : a.Keeps (snapView d) := by
  unfold snapView
  try dsimp only
  repeat' (first | with_reducible assumption | split | simp only [keeps_mk])

theorem keeps_latchAir {a d : Dev} (h : a.Keeps d) : a.Keeps (latchAir d) := by
  unfold latchAir
  try dsimp only
  repeat' (first | with_reducible assumption | with_reducible apply keeps_snapView | simp only [keeps_mk])

theorem keeps_dspStrobe {a d : Dev} (h : a.Keeps d) : a.Keeps (dspStrobe d) := by
  unfold dspStrobe
  try dsimp only
  repeat' (first | with_reducible assumption | intro _ | with_reducible apply keeps_latchNoise | with_reducible apply keeps_takeFrozen | with_reducible apply keeps_nbrSetApply | with_reducible apply keeps_changeAir | with_reducible apply keeps_loadPlans | with_reducible apply keeps_applyRegs | with_reducible apply keeps_overcommit | with_reducible apply keeps_evalLanes | with_reducible apply keeps_each | with_reducible apply keeps_portStrobe | with_reducible apply keeps_homeRetune | with_reducible apply keeps_modPan | with_reducible apply keeps_refreshUsable | with_reducible apply keeps_latchAir | with_reducible apply keeps_latchDomain | with_reducible apply keeps_snapView | with_reducible apply keeps_after | with_reducible apply keeps_foldl | with_reducible apply keeps_each | split | simp only [keeps_mk] | with_reducible refine keeps_snd ‹_› ?_)

theorem keeps_provision {a d : Dev} (h : a.Keeps d) : a.Keeps (provision d) := by
  unfold provision
  try dsimp only
  repeat' (first | with_reducible assumption | with_reducible refine keeps_putPfx ?_ _ _ | intro _ | with_reducible apply keeps_modKey | with_reducible apply keeps_setCfg | with_reducible apply keeps_getD | split | simp only [keeps_mk])

theorem keeps_romCommit {a d : Dev} (h : a.Keeps d) : a.Keeps (romCommit d) := by
  unfold romCommit
  try dsimp only
  repeat' (first | with_reducible assumption | with_reducible apply keeps_commitTime | with_reducible apply keeps_stageImage | with_reducible apply keeps_setCfg | with_reducible apply keeps_setPhase | with_reducible apply keeps_provision | with_reducible apply keeps_raise | with_reducible apply keeps_ite | split | simp only [keeps_mk])

theorem keeps_applyCommits {a d : Dev} (h : a.Keeps d) : a.Keeps (applyCommits d) := by
  unfold applyCommits
  try dsimp only
  repeat' (first | with_reducible assumption | intro _ | with_reducible apply keeps_romCommit | with_reducible apply keeps_takeFrozen | with_reducible apply keeps_commitTime | with_reducible apply keeps_completeStaged | with_reducible apply keeps_foldl | with_reducible apply keeps_ite | with_reducible apply keeps_ite_fst | with_reducible apply keeps_ite_snd | split | simp only [keeps_mk] | with_reducible refine keeps_snd ‹_› ?_)

theorem keeps_applyModes {a d : Dev} (h : a.Keeps d) (x1 : Phase) : a.Keeps (applyModes d x1) := by
  unfold applyModes
  try dsimp only
  repeat' (first | with_reducible assumption | intro _ | with_reducible apply keeps_setControl | with_reducible apply keeps_setRedund | with_reducible apply keeps_enterActive | with_reducible apply keeps_takeFrozen | with_reducible apply keeps_applyModeCmd | with_reducible apply keeps_setPhase | with_reducible apply keeps_foldl | with_reducible apply keeps_ite | with_reducible apply keeps_ite_fst | with_reducible apply keeps_ite_snd | split | simp only [keeps_mk] | with_reducible refine keeps_snd ‹_› ?_)

theorem keeps_startSeqs {a d : Dev} (h : a.Keeps d) : a.Keeps (startSeqs d) := by
  unfold startSeqs
  try dsimp only
  repeat' (first | with_reducible assumption | intro _ | with_reducible apply keeps_each | with_reducible apply keeps_modSeq | with_reducible apply keeps_each | with_reducible apply keeps_ite | split | simp only [keeps_mk])

theorem keeps_selectTimeRef {a d : Dev} (h : a.Keeps d) : a.Keeps (selectTimeRef d) := by
  unfold selectTimeRef
  try dsimp only
  repeat' (first | with_reducible assumption | intro _ | with_reducible apply keeps_each | with_reducible apply keeps_setNbr | with_reducible apply keeps_foldl | with_reducible apply keeps_each | with_reducible apply keeps_ite | split | simp only [keeps_mk])

theorem keeps_passTo {a d : Dev} (h : a.Keeps d) (x1 : Nat) : a.Keeps (passTo d x1) := by
  unfold passTo
  try dsimp only
  repeat' (first | with_reducible assumption | with_reducible apply keeps_exchDue | with_reducible apply keeps_femLeads | with_reducible apply keeps_frameEnds | with_reducible apply keeps_advanceTo)

theorem keeps_truncRest {a d : Dev} (h : a.Keeps d) : a.Keeps (truncRest d) := by
  unfold truncRest
  try dsimp only
  repeat' (first | with_reducible assumption | intro _ | with_reducible apply keeps_each | with_reducible apply keeps_bump | with_reducible apply keeps_each | with_reducible apply keeps_ite | split | simp only [keeps_mk])

theorem keeps_epochBoundary {a d : Dev} (h : a.Keeps d) : a.Keeps (epochBoundary d) := by
  unfold epochBoundary
  try dsimp only
  repeat' (first | with_reducible assumption | with_reducible apply keeps_passTo | with_reducible apply keeps_truncRest | with_reducible apply keeps_applyCommits | with_reducible apply keeps_applyRegs | with_reducible apply keeps_applyModes | with_reducible apply keeps_setNextB | with_reducible apply keeps_startSeqs | with_reducible apply keeps_selectTimeRef | with_reducible apply keeps_latchDomain | with_reducible apply keeps_ite | split | simp only [keeps_mk])

theorem keeps_pcieStrobe {a d : Dev} (h : a.Keeps d) : a.Keeps (pcieStrobe d) := by
  unfold pcieStrobe
  try dsimp only
  repeat' (first | with_reducible assumption | intro _ | with_reducible apply keeps_latchDomain | with_reducible apply keeps_applyRegs | with_reducible apply keeps_finish | with_reducible apply keeps_foldl | simp only [keeps_mk])

theorem keeps_dwellEnd {a d : Dev} (h : a.Keeps d) : a.Keeps (dwellEnd d) := by
  unfold dwellEnd
  try dsimp only
  repeat' (first | with_reducible assumption | with_reducible apply keeps_setPhase | with_reducible apply keeps_ite | split | simp only [keeps_mk])

theorem keeps_applyPipeCmd {a d : Dev} (h : a.Keeps d) (x1 : Cmd) : a.Keeps (applyPipeCmd d x1) := by
  unfold applyPipeCmd
  try dsimp only
  repeat' (first | with_reducible assumption | with_reducible apply keeps_tblApply | with_reducible apply keeps_swapApply | with_reducible apply keeps_rekeyApply | with_reducible apply keeps_tmSetApply | with_reducible apply keeps_keySetApply | with_reducible apply keeps_pairSetApply | with_reducible apply keeps_completeStaged | with_reducible apply keeps_seenFlush | split | simp only [keeps_mk])

theorem keeps_freezeModes {a d : Dev} (h : a.Keeps d) : a.Keeps (freezeModes d) := by
  unfold freezeModes
  try dsimp only
  repeat' (first | with_reducible assumption | simp only [keeps_mk])

theorem keeps_unstage {a d : Dev} (h : a.Keeps d) (x1 : Staged) (x2 : Status) : a.Keeps (unstage d x1 x2) := by
  unfold unstage
  try dsimp only
  repeat' (first | with_reducible assumption | with_reducible apply keeps_modKey | with_reducible apply keeps_setRebuild | with_reducible apply keeps_complete | with_reducible apply keeps_ite | split | simp only [keeps_mk])

theorem keeps_stagingFreeze {a d : Dev} (h : a.Keeps d) : a.Keeps (stagingFreeze d) := by
  unfold stagingFreeze
  try dsimp only
  repeat' (first | with_reducible assumption | intro _ | with_reducible apply keeps_passTo | with_reducible apply keeps_freezeModes | with_reducible apply keeps_unstage | with_reducible apply keeps_foldl | with_reducible apply keeps_ite | split | simp only [keeps_mk])

theorem keeps_publish {a d : Dev} (h : a.Keeps d) : a.Keeps (publish d) := by
  unfold publish
  try dsimp only
  repeat' (first | with_reducible assumption | intro _ | with_reducible apply keeps_raise | with_reducible apply keeps_foldl | with_reducible apply keeps_ite | split | simp only [keeps_mk])

theorem keeps_settleNodes {a d : Dev} (h : a.Keeps d) : a.Keeps (settleNodes d) := by
  unfold settleNodes
  try dsimp only
  repeat' (first | with_reducible assumption | with_reducible apply keeps_ite | split | simp only [keeps_mk])

theorem keeps_resetPanFc {a d : Dev} (h : a.Keeps d) (x1 : List Nat) : a.Keeps (resetPanFc d x1) := by
  unfold resetPanFc
  try dsimp only
  repeat' (first | with_reducible assumption | intro _ | with_reducible apply keeps_each | with_reducible apply keeps_modPan | with_reducible apply keeps_getD | with_reducible apply keeps_each | with_reducible apply keeps_ite | split | simp only [keeps_mk])

theorem keeps_pipeAnew {a d : Dev} (h : a.Keeps d) : a.Keeps (pipeAnew d) := by
  unfold pipeAnew
  have h1 := keeps_vio (y := { d with
    tbl := { d.tbl with lens := d.tbl.pfx.lens, vg := { d.tbl.vg with events := 0 } }
    vio := { d.vio with tally := [] } }) h rfl rfl id rfl
  exact keeps_each (keeps_each h1 _ _ fun x n hx => keeps_modPan hx _ _) _ _ fun x n hx =>
    keeps_ite (keeps_setLink hx _ _ _) hx

theorem keeps_keepCoreKeys {a d : Dev} (h : a.Keeps d) (x1 : SMap KeySlot) : a.Keeps (keepCoreKeys d x1) := by
  unfold keepCoreKeys
  try dsimp only
  repeat' (first | with_reducible assumption | with_reducible apply keeps_ite | split | simp only [keeps_mk])

theorem keeps_pipeCommands {a d : Dev} (h : a.Keeps d) : a.Keeps (pipeCommands d) := by
  unfold pipeCommands
  try dsimp only
  repeat' (first | with_reducible assumption | intro _ | with_reducible apply keeps_takeFrozen | with_reducible apply keeps_settleNodes | with_reducible apply keeps_keepCoreKeys | with_reducible apply keeps_applyLeaving | with_reducible apply keeps_applyPipeCmd | with_reducible apply keeps_ageOut | with_reducible apply keeps_foldl | split | simp only [keeps_mk])

theorem keeps_pipeSettings {a d : Dev} (h : a.Keeps d) : a.Keeps (pipeSettings d) := by
  unfold pipeSettings
  try dsimp only
  repeat' (first | with_reducible assumption | intro _ | with_reducible apply keeps_each | with_reducible apply keeps_setPipe | with_reducible apply keeps_commitPipe | with_reducible apply keeps_resetPanFc | with_reducible apply keeps_applyRegs | with_reducible apply keeps_each | with_reducible apply keeps_ite | split | simp only [keeps_mk])

theorem keeps_latchInherited {a d : Dev} (h : a.Keeps d) : a.Keeps (latchInherited d) := by
  unfold latchInherited
  try dsimp only
  repeat' (first | with_reducible assumption | intro _ | with_reducible apply keeps_snapView | with_reducible apply keeps_latchAir | with_reducible apply keeps_foldl | simp only [keeps_mk])

theorem keeps_pipeLatch {a d : Dev} (h : a.Keeps d) : a.Keeps (pipeLatch d) := by
  unfold pipeLatch
  try dsimp only
  repeat' (first | with_reducible assumption | with_reducible apply keeps_draw | with_reducible apply keeps_latchDomain | with_reducible apply keeps_snapView | with_reducible apply keeps_latchInherited | with_reducible apply keeps_ite | with_reducible apply keeps_ite_fst | with_reducible apply keeps_ite_snd | split | simp only [keeps_mk])

theorem keeps_pipeStrobe {a d : Dev} (h : a.Keeps d) : a.Keeps (pipeStrobe d) := by
  unfold pipeStrobe
  try dsimp only
  repeat' (first | with_reducible assumption | with_reducible apply keeps_pipeAnew | with_reducible apply keeps_pipeCommands | with_reducible apply keeps_pipeSettings | with_reducible apply keeps_applyAll | with_reducible apply keeps_pipeLatch | with_reducible apply keeps_ochreStrobe | with_reducible apply keeps_refreshSpans | with_reducible apply keeps_alertFrom | with_reducible apply keeps_writeIfDue | with_reducible apply keeps_openJournal | with_reducible apply keeps_recordStrobe | with_reducible apply keeps_ite | split)

theorem keeps_coreInvalid {a d : Dev} (h : a.Keeps d) : a.Keeps (coreInvalid d) := by
  unfold coreInvalid
  try dsimp only
  repeat' (first | with_reducible assumption | intro _ | with_reducible apply keeps_invalidate | with_reducible apply keeps_foldl | with_reducible apply keeps_ite | split | simp only [keeps_mk])

theorem keeps_coreStrobe {a d : Dev} (h : a.Keeps d) : a.Keeps (coreStrobe d) := by
  unfold coreStrobe
  try dsimp only
  repeat' (first | with_reducible assumption | with_reducible apply keeps_coreInvalid | with_reducible apply keeps_latchDomain | with_reducible apply keeps_applyRegs | simp only [keeps_mk])

theorem keeps_strobe {a d : Dev} (h : a.Keeps d) (x1 : Domain) : a.Keeps (strobe d x1) := by
  unfold strobe
  try dsimp only
  repeat' (first | with_reducible assumption | with_reducible apply keeps_dspStrobe | with_reducible apply keeps_pipeStrobe | with_reducible apply keeps_coreStrobe | with_reducible apply keeps_pcieStrobe | with_reducible apply keeps_serdesStrobe | with_reducible apply keeps_ite | split | simp only [keeps_mk])

end Dev

end Sys2Proof.Machine
end

