-- ==== Sys2Proof/Laws/KeepsFaults.lean ====
section
/-! SUPPORT. What the operations of Machine/Faults.lean keep (see Laws/Keeps.lean). -/

-- One proof at a time: the package compiles as one text, and proofs elaborated side by side each take a thread's stack.
set_option Elab.async false
-- The proofs search: each goal uses some of the alternatives.
set_option linter.all false

namespace Sys2Proof.Machine

namespace Dev

theorem keeps_fatalFault {a d : Dev} (h : a.Keeps d) (x1 : Nat) : a.Keeps (fatalFault d x1) := by
  unfold fatalFault
  split
  · exact h
  · rename_i hf
    refine keeps_alertFrom (keeps_raise (keeps_releaseOwn ?_) _ _) _
    refine ⟨h.otp, h.ev, h.vio, fun ha => ?_⟩
    rw [h.flt ha] at hf
    exact absurd ha hf

theorem keeps_eccStoredKey {a d : Dev} (h : a.Keeps d) (x1 : Nat) : a.Keeps (eccStoredKey d x1) := by
  unfold eccStoredKey
  try dsimp only
  repeat' (first | with_reducible assumption | with_reducible apply keeps_modKey | with_reducible apply keeps_fatalFault | with_reducible apply keeps_ite | split | simp only [keeps_mk])

theorem keeps_restored {a d : Dev} (h : a.Keeps d) : a.Keeps (restored d) := by
  unfold restored
  try dsimp only
  repeat' (first | with_reducible assumption | with_reducible apply keeps_bump)

theorem keeps_eccSeqWord {a d : Dev} (h : a.Keeps d) (x1 : Nat) : a.Keeps (eccSeqWord d x1) := by
  unfold eccSeqWord
  try dsimp only
  repeat' (first | with_reducible assumption | with_reducible apply keeps_restored | with_reducible apply keeps_modSeq | with_reducible apply keeps_ite | split | simp only [keeps_mk])

theorem keeps_eccCounter {a d : Dev} (h : a.Keeps d) (x1 : Nat) : a.Keeps (eccCounter d x1) := by
  unfold eccCounter
  try dsimp only
  repeat' (first | with_reducible assumption | with_reducible apply keeps_ite | split | simp only [keeps_mk])

theorem keeps_eccGateWord {a d : Dev} (h : a.Keeps d) (x1 : Nat) : a.Keeps (eccGateWord d x1) := by
  unfold eccGateWord
  try dsimp only
  repeat' (first | with_reducible assumption | with_reducible apply keeps_restored | with_reducible apply keeps_modEth | with_reducible apply keeps_ite | split | simp only [keeps_mk])

theorem keeps_eccPfxRow {a d : Dev} (h : a.Keeps d) (x1 : Nat) : a.Keeps (eccPfxRow d x1) := by
  unfold eccPfxRow
  try dsimp only
  repeat' (first | with_reducible assumption | intro _ | with_reducible apply keeps_restored | with_reducible apply keeps_each | with_reducible apply keeps_erasePfx | with_reducible apply keeps_each | with_reducible apply keeps_ite | split)

theorem keeps_eccStandbyImage {a d : Dev} (h : a.Keeps d) : a.Keeps (eccStandbyImage d) := by
  unfold eccStandbyImage
  try dsimp only
  repeat' (first | with_reducible assumption | with_reducible apply keeps_bump | with_reducible apply keeps_refreshReady | with_reducible apply keeps_enterResync | with_reducible apply keeps_ite | split | simp only [keeps_mk])

theorem keeps_eccStamp {a d : Dev} (h : a.Keeps d) (x1 : Nat) : a.Keeps (eccStamp d x1) := by
  unfold eccStamp
  try dsimp only
  repeat' (first | with_reducible assumption | with_reducible apply keeps_modPort | with_reducible apply keeps_modEth | with_reducible apply keeps_ite | split | simp only [keeps_mk])

theorem keeps_sendLog {a d : Dev} (h : a.Keeps d) (x1 : Cmd) (x2 : List VioEntry) : a.Keeps (sendLog d x1 x2) := by
  unfold sendLog
  try dsimp only
  repeat' (first | with_reducible assumption | intro _ | with_reducible apply keeps_emit | with_reducible apply keeps_toHost | with_reducible apply keeps_foldl | with_reducible apply keeps_ite | split)

theorem keeps_logDrain {a d : Dev} (h : a.Keeps d) (x1 : Hdr) (x2 : List Byte) (x3 : Bool) : a.Keeps (logDrain d x1 x2 x3) := by
  unfold logDrain
  refine keeps_command h _ _ fun y hy => ?_
  dsimp only
  split
  · exact keeps_complete hy _ _ _
  · split
    · exact keeps_complete hy _ _ _
    · refine keeps_complete ?_ _ _ _
      rename_i hm _
      refine keeps_vio (keeps_sendLog hy _ _) rfl rfl ?_ rfl
      generalize sendLog y _ _ = z
      intro hf
      refine ⟨?_, ?_⟩
      · have := hf.1
        simp only [List.length_drop]
        omega
      · intro hl
        simp only [List.length_drop] at hl
        have := hf.1
        omega

theorem keeps_eccStaged {a d : Dev} (h : a.Keeps d) (x1 : Nat) : a.Keeps (eccStaged d x1) := by
  unfold eccStaged
  try dsimp only
  repeat' (first | with_reducible assumption | with_reducible apply keeps_rebuildFail | with_reducible apply keeps_ite | split)

theorem keeps_crossingParity {a d : Dev} (h : a.Keeps d) (x1 : CrossItem) : a.Keeps (crossingParity d x1) := by
  unfold crossingParity
  split
  · exact keeps_bump h _ _
  · exact keeps_fatalFault h _

theorem keeps_eccNodeRow {a d : Dev} (h : a.Keeps d) (x1 : Nat) : a.Keeps (eccNodeRow d x1) := by
  unfold eccNodeRow
  try dsimp only
  repeat' (first | with_reducible assumption | intro _ | with_reducible apply keeps_restored | with_reducible apply keeps_each | with_reducible apply keeps_modNode | with_reducible apply keeps_eraseNode | with_reducible apply keeps_each | with_reducible apply keeps_ite | split | simp only [keeps_mk])

theorem keeps_eccRouteRow {a d : Dev} (h : a.Keeps d) (x1 : Nat) : a.Keeps (eccRouteRow d x1) := by
  unfold eccRouteRow
  try dsimp only
  repeat' (first | with_reducible assumption | intro _ | with_reducible apply keeps_restored | with_reducible apply keeps_each | with_reducible apply keeps_eraseRoute | with_reducible apply keeps_each | with_reducible apply keeps_ite | split)

theorem keeps_eccSeenRow {a d : Dev} (h : a.Keeps d) (x1 : Nat) : a.Keeps (eccSeenRow d x1) := by
  unfold eccSeenRow
  try dsimp only
  repeat' (first | with_reducible assumption | intro _ | with_reducible apply keeps_each | with_reducible apply keeps_each | simp only [keeps_mk])

theorem keeps_eccActionWord {a d : Dev} (h : a.Keeps d) (x1 : Nat) : a.Keeps (eccActionWord d x1) := by
  unfold eccActionWord
  try dsimp only
  repeat' (first | with_reducible assumption | intro _ | with_reducible apply keeps_restored | with_reducible apply keeps_each | with_reducible apply keeps_endPass | with_reducible apply keeps_each | with_reducible apply keeps_ite | split)

theorem keeps_eccQueue {a d : Dev} (h : a.Keeps d) (x1 : Nat) : a.Keeps (eccQueue d x1) := by
  unfold eccQueue
  try dsimp only
  repeat' (first | with_reducible assumption | intro _ | with_reducible apply keeps_setQueue | with_reducible apply keeps_dropCopy | with_reducible apply keeps_foldl | split | simp only [keeps_mk])

theorem keeps_eccPacket {a d : Dev} (h : a.Keeps d) (x1 : Nat) : a.Keeps (eccPacket d x1) := by
  unfold eccPacket
  try dsimp only
  repeat' (first | with_reducible assumption | with_reducible apply keeps_setQueue | with_reducible apply keeps_setPipe | with_reducible apply keeps_ite | split | simp only [keeps_mk])

theorem keeps_eccMordant {a d : Dev} (h : a.Keeps d) : a.Keeps (eccMordant d) := by
  unfold eccMordant
  try dsimp only
  repeat' (first | with_reducible assumption | with_reducible apply keeps_breakChain | with_reducible apply keeps_discardRx | with_reducible apply keeps_ite | split | simp only [keeps_mk])

theorem keeps_eccStagedImage {a d : Dev} (h : a.Keeps d) : a.Keeps (eccStagedImage d) := by
  unfold eccStagedImage
  try dsimp only
  repeat' (first | with_reducible assumption | with_reducible apply keeps_unstage | split | simp only [keeps_mk])

theorem keeps_eccTask {a d : Dev} (h : a.Keeps d) (x1 : Nat) : a.Keeps (eccTask d x1) := by
  unfold eccTask
  try dsimp only
  repeat' (first | with_reducible assumption | with_reducible apply keeps_cplTo | with_reducible apply keeps_freeSlot | with_reducible apply keeps_ite | split)

theorem keeps_eccAnswer {a d : Dev} (h : a.Keeps d) (x1 : Occupant) (x2 : Nat) : a.Keeps (eccAnswer d x1 x2) := by
  have herase : ∀ i, a.Keeps { d with vio := { d.vio with log := d.vio.log.eraseIdx i } } := by
    intro i
    refine keeps_vio h rfl rfl ?_ rfl
    intro hf
    have hl : (d.vio.log.eraseIdx i).length = if i < d.vio.log.length then d.vio.log.length - 1 else d.vio.log.length :=
      List.length_eraseIdx
    by_cases hi : i < d.vio.log.length
    · simp only [VioState.fits, hl, if_pos hi] at *
      exact ⟨by omega, fun hx => by omega⟩
    · simp only [VioState.fits, List.eraseIdx_of_length_le (Nat.le_of_not_lt hi)] at *
      exact hf
  have hev : ∀ i, a.Keeps { d with ev := { d.ev with staging := d.ev.staging.eraseIdx i } } := by
    intro i
    refine keeps_ev h rfl ?_ rfl rfl
    intro hf
    simp only [EvState.fits, List.length_eraseIdx] at *
    split <;> omega
  unfold eccAnswer
  dsimp only
  repeat' (first | exact herase _ | exact hev _ | with_reducible assumption | with_reducible apply keeps_eccNodeRow | with_reducible apply keeps_eccRouteRow | with_reducible apply keeps_eccPfxRow | with_reducible apply keeps_eccStaged | with_reducible apply keeps_eccSeenRow | with_reducible apply keeps_eccSeqWord | with_reducible apply keeps_eccActionWord | with_reducible apply keeps_eccGateWord | with_reducible apply keeps_eccQueue | with_reducible apply keeps_eccPacket | with_reducible apply keeps_endRecord | with_reducible apply keeps_eccStamp | with_reducible apply keeps_eccStoredKey | with_reducible apply keeps_eccMordant | with_reducible apply keeps_eccStandbyImage | with_reducible apply keeps_vgAdvance | with_reducible apply keeps_restored | with_reducible apply keeps_eccStagedImage | with_reducible apply keeps_eccCounter | with_reducible apply keeps_eccTask | with_reducible apply keeps_emit | with_reducible apply keeps_fatalFault | split | simp only [keeps_mk])

theorem keeps_eccUncorrectable {a d : Dev} (h : a.Keeps d) (x1 : Occupant) (x2 : Nat) : a.Keeps (eccUncorrectable d x1 x2) := by
  unfold eccUncorrectable
  try dsimp only
  repeat' (first | with_reducible assumption | with_reducible apply keeps_draw | with_reducible apply keeps_bump | with_reducible apply keeps_eccAnswer | with_reducible apply keeps_raise | split)

end Dev

end Sys2Proof.Machine
end

