-- ==== Sys2Proof/Laws/KeepsHostDma.lean ====
section
/-! SUPPORT. What the operations of Machine/HostDma.lean keep (see Laws/Keeps.lean). -/

-- One proof at a time: the package compiles as one text, and proofs elaborated side by side each take a thread's stack.
set_option Elab.async false
-- The proofs search: each goal uses some of the alternatives.
set_option linter.all false

namespace Sys2Proof.Machine

namespace Dev

theorem keeps_remoteTx {a d : Dev} (h : a.Keeps d) (x1 : Nat) (x2 : TxDesc) (x3 : List Byte) (x4 : Nat) : a.Keeps (remoteTx d x1 x2 x3 x4) := by
  unfold remoteTx
  try dsimp only
  repeat' (first | with_reducible assumption | with_reducible apply keeps_sendHost | with_reducible apply keeps_writeBack | with_reducible apply keeps_ite | split | simp only [keeps_mk])

theorem keeps_hostIngress {a d : Dev} (h : a.Keeps d) (x1 : Nat) (x2 : TxDesc) (x3 : List Byte) (x4 : Nat) : a.Keeps (hostIngress d x1 x2 x3 x4) := by
  unfold hostIngress
  try dsimp only
  repeat' (first | with_reducible assumption | with_reducible apply keeps_ingress)

theorem keeps_txFetch {a d : Dev} (h : a.Keeps d) (x1 : Nat) (x2 : List TxDesc) (x3 : List Byte) : a.Keeps (txFetch d x1 x2 x3) := by
  unfold txFetch
  try dsimp only
  repeat' (first | with_reducible assumption | intro _ | with_reducible apply keeps_violate | with_reducible apply keeps_writeBack | with_reducible apply keeps_remoteTx | with_reducible apply keeps_hostIngress | with_reducible apply keeps_foldl | with_reducible apply keeps_ite | split | simp only [keeps_mk])

theorem keeps_dropBadHost {a d : Dev} (h : a.Keeps d) (x0 : Nat) (x1 : Nat) : a.Keeps (dropBadHost x0 x1 d) := by
  induction x1 generalizing d with
  | zero => exact h
  | succ n ih =>
    unfold dropBadHost
    split
    · exact ih (keeps_setQueue h _ _)
    · exact h

theorem keeps_popHost {a d : Dev} (h : a.Keeps d) (x1 : Nat) (x2 : Nat) : a.Keeps (popHost d x1 x2) := by
  unfold popHost
  try dsimp only
  repeat' (first | with_reducible assumption | with_reducible apply keeps_setQueue | simp only [keeps_mk])

theorem keeps_giveDescs {a d : Dev} (h : a.Keeps d) (x1 : Nat) (x2 : Nat) (x3 : Nat) (x4 : List Nat) : a.Keeps (giveDescs d x1 x2 x3 x4) := by
  unfold giveDescs
  try dsimp only
  repeat' (first | with_reducible assumption | with_reducible apply keeps_advanceRing | simp only [keeps_mk])

theorem keeps_rxDeliver {a d : Dev} (h : a.Keeps d) (x1 : Nat) (x2 : List Nat) : a.Keeps (rxDeliver d x1 x2) := by
  unfold rxDeliver
  try dsimp only
  repeat' (first | with_reducible assumption | intro _ | with_reducible apply keeps_each | with_reducible apply keeps_dropBadHost | with_reducible apply keeps_sendHost | with_reducible apply keeps_chargeDequeue | with_reducible apply keeps_popHost | with_reducible apply keeps_bump | with_reducible apply keeps_giveDescs | with_reducible apply keeps_emit | with_reducible apply keeps_each | with_reducible apply keeps_ite | split | simp only [keeps_mk])

theorem keeps_rxStall {a d : Dev} (h : a.Keeps d) (x1 : Nat) : a.Keeps (rxStall d x1) := by
  unfold rxStall
  try dsimp only
  repeat' (first | with_reducible assumption | with_reducible apply keeps_bump | with_reducible apply keeps_popHost | split | simp only [keeps_mk])

theorem keeps_dropWaiting {a d : Dev} (h : a.Keeps d) : a.Keeps (dropWaiting d) := by
  unfold dropWaiting
  try dsimp only
  repeat' (first | with_reducible assumption | intro _ | with_reducible apply keeps_bump | with_reducible apply keeps_setQueue | with_reducible apply keeps_foldl | simp only [keeps_mk])

theorem keeps_clearRings {a d : Dev} (h : a.Keeps d) : a.Keeps (clearRings d) := by
  unfold clearRings
  try dsimp only
  repeat' (first | with_reducible assumption | intro _ | with_reducible apply keeps_each | with_reducible apply keeps_dropWaiting | with_reducible apply keeps_forgetCmds | with_reducible apply keeps_each | simp only [keeps_mk])

end Dev

end Sys2Proof.Machine
end

