-- ==== Sys2Proof/Laws/KeepsMgmt.lean ====
section
/-! SUPPORT. What the operations of Machine/Mgmt.lean keep (see Laws/Keeps.lean). -/

-- One proof at a time: the package compiles as one text, and proofs elaborated side by side each take a thread's stack.
set_option Elab.async false
-- The proofs search: each goal uses some of the alternatives.
set_option linter.all false

namespace Sys2Proof.Machine

namespace Dev

theorem keeps_smbusAnswer {a d : Dev} (h : a.Keeps d) (x1 : Option (List Byte)) : a.Keeps (smbusAnswer d x1) := by
  unfold smbusAnswer
  try dsimp only
  repeat' (first | with_reducible assumption | with_reducible apply keeps_emit | with_reducible apply keeps_ite | split | simp only [keeps_mk])

theorem keeps_thermal {a d : Dev} (h : a.Keeps d) (x1 : Int) : a.Keeps (thermal d x1) := by
  unfold thermal
  try dsimp only
  repeat' (first | with_reducible assumption | with_reducible apply keeps_alertFrom | simp only [keeps_mk])

end Dev

end Sys2Proof.Machine
end

