-- ==== Sys2Proof/Laws/KeepsWire.lean ====
section
/-! SUPPORT. What the operations of Machine/Wire.lean keep (see Laws/Keeps.lean). -/

-- One proof at a time: the package compiles as one text, and proofs elaborated side by side each take a thread's stack.
set_option Elab.async false
-- The proofs search: each goal uses some of the alternatives.
set_option linter.all false

namespace Sys2Proof.Machine

namespace Dev

theorem keeps_linkWord {a d : Dev} (h : a.Keeps d) (x1 : Nat) (x2 : Nat) (x3 : Nat) : a.Keeps (linkWord d x1 x2 x3) := by
  unfold linkWord
  try dsimp only
  repeat' (first | with_reducible assumption | with_reducible apply keeps_qlAckRx | with_reducible apply keeps_nakRx | with_reducible apply keeps_creditRx | with_reducible apply keeps_levelRx | with_reducible apply keeps_heartbeatRx | with_reducible apply keeps_violate | with_reducible apply keeps_ite | split | simp only [keeps_mk])

theorem keeps_memberDelivery {a d : Dev} (h : a.Keeps d) (x1 : Nat) (x2 : Nat) (x3 : List Byte) : a.Keeps (memberDelivery d x1 x2 x3) := by
  unfold memberDelivery
  try dsimp only
  repeat' (first | with_reducible assumption | with_reducible apply keeps_offer | with_reducible apply keeps_ite | with_reducible apply keeps_ite_fst | with_reducible apply keeps_ite_snd | split | simp only [keeps_mk])

theorem keeps_runCommand {a d : Dev} (h : a.Keeps d) (x1 : Hdr) (x2 : Opcode) (x3 : List Byte) (x4 : CmdEnv) : a.Keeps (runCommand d x1 x2 x3 x4) := by
  unfold runCommand
  try dsimp only
  repeat' (first | with_reducible assumption | with_reducible apply keeps_cmdNop | with_reducible apply keeps_hostAttach | with_reducible apply keeps_setPhaseCmd | with_reducible apply keeps_commitCmd | with_reducible apply keeps_vatLoad | with_reducible apply keeps_vatDiscard | with_reducible apply keeps_rfCal | with_reducible apply keeps_after | with_reducible apply keeps_rfTestTx | with_reducible apply keeps_femSpi | with_reducible apply keeps_cinLock | with_reducible apply keeps_assocDecide | with_reducible apply keeps_nbrSet | with_reducible apply keeps_seenFlushCmd | with_reducible apply keeps_tblCmd | with_reducible apply keeps_rebuildAbandon | with_reducible apply keeps_rebuildSwap | with_reducible apply keeps_rebuildStart | with_reducible apply keeps_nodeRekey | with_reducible apply keeps_tmSet | with_reducible apply keeps_cmdKeySetPub | with_reducible apply keeps_keySet | with_reducible apply keeps_cmdKeySetSym | with_reducible apply keeps_keyMigrate | with_reducible apply keeps_macsecSak | with_reducible apply keeps_lcAdvance | with_reducible apply keeps_otpHash | with_reducible apply keeps_rollbackCommit | with_reducible apply keeps_timeSet | with_reducible apply keeps_timeRestep | with_reducible apply keeps_pairSet | with_reducible apply keeps_takeoverRead | with_reducible apply keeps_logDrain | with_reducible apply keeps_ite | split | simp only [keeps_mk])

theorem keeps_runSlot {a d : Dev} (h : a.Keeps d) (x1 : CmdPath) (x2 : List Byte) (x3 : CmdEnv) : a.Keeps (runSlot d x1 x2 x3) := by
  unfold runSlot
  try dsimp only
  repeat' (first | with_reducible assumption | with_reducible apply keeps_runCommand | with_reducible apply keeps_cmdUnknown | split | simp only [keeps_mk])

theorem keeps_qlBad {a d : Dev} (h : a.Keeps d) (x1 : Nat) : a.Keeps (qlBad d x1) := by
  unfold qlBad
  try dsimp only
  repeat' (first | with_reducible assumption | with_reducible apply keeps_sendWord | with_reducible apply keeps_bumpQl)

theorem keeps_mirFrame {a d : Dev} (h : a.Keeps d) (x1 : QlFrame) : a.Keeps (mirFrame d x1) := by
  unfold mirFrame
  try dsimp only
  repeat' (first | with_reducible assumption | with_reducible apply keeps_violate | with_reducible apply keeps_ite | split | simp only [keeps_mk])

theorem keeps_holdBuffer {a d : Dev} (h : a.Keeps d) (x1 : Nat) (x2 : QlFrame) : a.Keeps (holdBuffer d x1 x2) := by
  unfold holdBuffer
  try dsimp only
  repeat' (first | with_reducible assumption | with_reducible apply keeps_modQl | simp only [keeps_mk])

theorem keeps_qlTransit {a d : Dev} (h : a.Keeps d) (x1 : Nat) (x2 : QlFrame) : a.Keeps (qlTransit d x1 x2) := by
  unfold qlTransit
  try dsimp only
  repeat' (first | with_reducible assumption | with_reducible apply keeps_bump | with_reducible apply keeps_returnCredits | with_reducible apply keeps_queueQl | with_reducible apply keeps_holdBuffer | with_reducible apply keeps_ite | split | simp only [keeps_mk])

theorem keeps_memberCompletion {a d : Dev} (h : a.Keeps d) (x1 : Nat) (x2 : List Byte) : a.Keeps (memberCompletion d x1 x2) := by
  unfold memberCompletion
  try dsimp only
  repeat' (first | with_reducible assumption | intro _ | with_reducible apply keeps_post | with_reducible apply keeps_remember | with_reducible apply keeps_getD | split | simp only [keeps_mk])

theorem keeps_memberEvent {a d : Dev} (h : a.Keeps d) (x1 : Nat) (x2 : List Byte) : a.Keeps (memberEvent d x1 x2) := by
  unfold memberEvent
  split
  · exact h
  · split
    · rename_i hl
      refine keeps_ev h rfl ?_ rfl rfl
      intro _
      simp [EvState.fits, evCap] at *
      omega
    · refine keeps_bump ?_ _ _
      exact keeps_ev h rfl id rfl rfl

theorem keeps_memberTx {a d : Dev} (h : a.Keeps d) (x1 : Nat) (x2 : List Byte) : a.Keeps (memberTx d x1 x2) := by
  unfold memberTx
  try dsimp only
  repeat' (first | with_reducible assumption | with_reducible apply keeps_bump | with_reducible apply keeps_hostIngress | with_reducible apply keeps_ite | split)

theorem keeps_hostFrame {a d : Dev} (h : a.Keeps d) (x1 : QlFrame) (x2 : CmdEnv) : a.Keeps (hostFrame d x1 x2) := by
  unfold hostFrame
  try dsimp only
  repeat' (first | with_reducible assumption | with_reducible apply keeps_runSlot | with_reducible apply keeps_memberCompletion | with_reducible apply keeps_memberEvent | with_reducible apply keeps_memberDelivery | with_reducible apply keeps_memberTx | with_reducible apply keeps_ite | split | simp only [keeps_mk])

theorem keeps_qlData {a d : Dev} (h : a.Keeps d) (x1 : Nat) (x2 : QlFrame) : a.Keeps (qlData d x1 x2) := by
  unfold qlData
  try dsimp only
  repeat' (first | with_reducible assumption | with_reducible apply keeps_ingress)

theorem keeps_qlFrame {a d : Dev} (h : a.Keeps d) (x1 : Nat) (x2 : QlFrame) (x3 : CmdEnv) : a.Keeps (qlFrame d x1 x2 x3) := by
  unfold qlFrame
  try dsimp only
  repeat' (first | with_reducible assumption | with_reducible apply keeps_qlTransit | with_reducible apply keeps_returnCredits | with_reducible apply keeps_qlData | with_reducible apply keeps_shelfFrame | with_reducible apply keeps_hostFrame | with_reducible apply keeps_ite | split | simp only [keeps_mk])

theorem keeps_qlFrameRx {a d : Dev} (h : a.Keeps d) (x1 : Nat) (x2 : List Byte) (x3 : CmdEnv) : a.Keeps (qlFrameRx d x1 x2 x3) := by
  unfold qlFrameRx
  try dsimp only
  repeat' (first | with_reducible assumption | with_reducible apply keeps_qlBad | with_reducible apply keeps_violate | with_reducible apply keeps_modQl | with_reducible apply keeps_sendWord | with_reducible apply keeps_bumpQl | with_reducible apply keeps_mirFrame | with_reducible apply keeps_returnCredits | with_reducible apply keeps_qlFrame | with_reducible apply keeps_ite | split | simp only [keeps_mk])

theorem keeps_consoleRx {a d : Dev} (h : a.Keeps d) (x1 : List Byte) (x2 : CmdEnv) : a.Keeps (consoleRx d x1 x2) := by
  unfold consoleRx
  try dsimp only
  repeat' (first | with_reducible assumption | with_reducible apply keeps_bump | with_reducible apply keeps_runSlot | with_reducible apply keeps_ite | split)

end Dev

end Sys2Proof.Machine
end

