-- ==== Sys2Proof/Laws/KeepsTick.lean ====
section
/-! SUPPORT. What the operations of Machine/Tick.lean keep (see Laws/Keeps.lean). -/

-- One proof at a time: the package compiles as one text, and proofs elaborated side by side each take a thread's stack.
set_option Elab.async false
-- The proofs search: each goal uses some of the alternatives.
set_option linter.all false

namespace Sys2Proof.Machine

namespace Dev

theorem keeps_tickClock {a d : Dev} (h : a.Keeps d) : a.Keeps (tickClock d) := by
  unfold tickClock
  try dsimp only
  repeat' (first | with_reducible assumption | with_reducible apply keeps_contentionLog | with_reducible apply keeps_exchDue | with_reducible apply keeps_femLeads | with_reducible apply keeps_frameEnds | with_reducible apply keeps_ite | split | simp only [keeps_mk])

end Dev

end Sys2Proof.Machine
end

