-- ==== Sys2Proof/Laws/LeavesBoot.lean ====
section
/-! SUPPORT. The units that the operations of Machine/Boot.lean leave alone (see Laws/Leaves.lean). -/

-- One proof at a time: the package compiles as one text, and proofs elaborated side by side each take a thread's stack.
set_option Elab.async false
-- The proofs search: each goal uses some of the alternatives.
set_option linter.all false

namespace Sys2Proof.Machine

namespace Dev

theorem leaves_loadCinnabar {us : List DevUnit} {a d : Dev} (h : Leaves us a d) (hs : unitsIn [.cin] us = true :=
    by refine unitsIn_trans ?_ ‹unitsIn _ _ = true›; decide) : Leaves us a (loadCinnabar d) := by
  unfold loadCinnabar
  try dsimp only
  repeat' (first | with_reducible assumption | (with_reducible refine unitsIn_trans ?_ hs; decide) | intro _ | with_reducible apply leaves_foldl | with_reducible apply leaves_ite | split | (simp only [leaves_mark]; (first | with_reducible refine leaves_mk ?_ ?_ ?_ ?_ ?_ ?_ ?_ ?_ ?_ ?_ ?_ ?_ ?_ ?_ ?_ ?_ ?_ ?_ ?_ ?_ ?_ ?_ ?_ ?_ ?_ ?_ ?_ ?_ ?_ ?_ ?_ ?_ | with_reducible refine leaves_mk' ?_ ?_ ?_ ?_ ?_ ?_ ?_ ?_ ?_ ?_ ?_ ?_ ?_ ?_ ?_ ?_ ?_ ?_ ?_ ?_ ?_ ?_ ?_ ?_ ?_ ?_ ?_ ?_ ?_ ?_ ?_ ?_); rotate_left; iterate 31 (first | exact fun hu => unitsIn_absurd hs hu rfl | exact fun _ => rfl)))

theorem leaves_checkProvisioning {us : List DevUnit} {a d : Dev} (h : Leaves us a d) (x1 : List Byte) (hs : unitsIn
    [.modes, .sec] us = true := by refine unitsIn_trans ?_ ‹unitsIn _ _ = true›; decide) : Leaves us a
    (checkProvisioning d x1) := by
  unfold checkProvisioning
  try dsimp only
  repeat' (first | with_reducible assumption | (with_reducible refine unitsIn_trans ?_ hs; decide) | with_reducible apply leaves_ite | split | (simp only [leaves_mark]; (first | with_reducible refine leaves_mk ?_ ?_ ?_ ?_ ?_ ?_ ?_ ?_ ?_ ?_ ?_ ?_ ?_ ?_ ?_ ?_ ?_ ?_ ?_ ?_ ?_ ?_ ?_ ?_ ?_ ?_ ?_ ?_ ?_ ?_ ?_ ?_ | with_reducible refine leaves_mk' ?_ ?_ ?_ ?_ ?_ ?_ ?_ ?_ ?_ ?_ ?_ ?_ ?_ ?_ ?_ ?_ ?_ ?_ ?_ ?_ ?_ ?_ ?_ ?_ ?_ ?_ ?_ ?_ ?_ ?_ ?_ ?_); rotate_left; iterate 31 (first | exact fun hu => unitsIn_absurd hs hu rfl | exact fun _ => rfl)))

theorem leaves_selectKeystore {us : List DevUnit} {a d : Dev} (h : Leaves us a d) (hs : unitsIn [.cnt, .ev, .sec] us =
    true := by refine unitsIn_trans ?_ ‹unitsIn _ _ = true›; decide) : Leaves us a (selectKeystore d) := by
  unfold selectKeystore
  try dsimp only
  repeat' (first | with_reducible assumption | (with_reducible refine unitsIn_trans ?_ hs; decide) | with_reducible apply leaves_raise | with_reducible apply leaves_ite | split | (simp only [leaves_mark]; (first | with_reducible refine leaves_mk ?_ ?_ ?_ ?_ ?_ ?_ ?_ ?_ ?_ ?_ ?_ ?_ ?_ ?_ ?_ ?_ ?_ ?_ ?_ ?_ ?_ ?_ ?_ ?_ ?_ ?_ ?_ ?_ ?_ ?_ ?_ ?_ | with_reducible refine leaves_mk' ?_ ?_ ?_ ?_ ?_ ?_ ?_ ?_ ?_ ?_ ?_ ?_ ?_ ?_ ?_ ?_ ?_ ?_ ?_ ?_ ?_ ?_ ?_ ?_ ?_ ?_ ?_ ?_ ?_ ?_ ?_ ?_); rotate_left; iterate 31 (first | exact fun hu => unitsIn_absurd hs hu rfl | exact fun _ => rfl)))

theorem leaves_drawSeeds {us : List DevUnit} {a d : Dev} (h : Leaves us a d) (hs : unitsIn [.freeCtr, .air, .tbl] us =
    true := by refine unitsIn_trans ?_ ‹unitsIn _ _ = true›; decide) : Leaves us a (drawSeeds d) := by
  unfold drawSeeds
  try dsimp only
  repeat' (first | with_reducible assumption | (with_reducible refine unitsIn_trans ?_ hs; decide) | intro _ | with_reducible apply leaves_draw | with_reducible apply leaves_each | with_reducible apply leaves_modPan | with_reducible apply leaves_each | split | (simp only [leaves_mark]; (first | with_reducible refine leaves_mk ?_ ?_ ?_ ?_ ?_ ?_ ?_ ?_ ?_ ?_ ?_ ?_ ?_ ?_ ?_ ?_ ?_ ?_ ?_ ?_ ?_ ?_ ?_ ?_ ?_ ?_ ?_ ?_ ?_ ?_ ?_ ?_ | with_reducible refine leaves_mk' ?_ ?_ ?_ ?_ ?_ ?_ ?_ ?_ ?_ ?_ ?_ ?_ ?_ ?_ ?_ ?_ ?_ ?_ ?_ ?_ ?_ ?_ ?_ ?_ ?_ ?_ ?_ ?_ ?_ ?_ ?_ ?_); rotate_left; iterate 31 (first | exact fun hu => unitsIn_absurd hs hu rfl | exact fun _ => rfl)))

theorem leaves_bootImages {us : List DevUnit} {a d : Dev} (h : Leaves us a d) (x1 : BootFacts) (hs : unitsIn
    [.freeCtr, .modes, .cnt, .ev, .cin, .air, .tbl, .pair, .elec, .sec] us = true :=
    by refine unitsIn_trans ?_ ‹unitsIn _ _ = true›; decide) : Leaves us a (bootImages d x1) := by
  unfold bootImages
  try dsimp only
  repeat' (first | with_reducible assumption | (with_reducible refine unitsIn_trans ?_ hs; decide) | with_reducible apply leaves_raise | with_reducible apply leaves_loadCinnabar | with_reducible apply leaves_checkProvisioning | with_reducible apply leaves_selectKeystore | with_reducible apply leaves_drawSeeds | with_reducible apply leaves_ite | split | (simp only [leaves_mark]; (first | with_reducible refine leaves_mk ?_ ?_ ?_ ?_ ?_ ?_ ?_ ?_ ?_ ?_ ?_ ?_ ?_ ?_ ?_ ?_ ?_ ?_ ?_ ?_ ?_ ?_ ?_ ?_ ?_ ?_ ?_ ?_ ?_ ?_ ?_ ?_ | with_reducible refine leaves_mk' ?_ ?_ ?_ ?_ ?_ ?_ ?_ ?_ ?_ ?_ ?_ ?_ ?_ ?_ ?_ ?_ ?_ ?_ ?_ ?_ ?_ ?_ ?_ ?_ ?_ ?_ ?_ ?_ ?_ ?_ ?_ ?_); rotate_left; iterate 31 (first | exact fun hu => unitsIn_absurd hs hu rfl | exact fun _ => rfl)))

theorem leaves_bootFrom {us : List DevUnit} {a d : Dev} (h : Leaves us a d) (x1 : BootFacts) (hs : unitsIn [.freeCtr,
    .modes, .cnt, .ev, .cin, .air, .tbl, .pair, .elec, .sec] us = true :=
    by refine unitsIn_trans ?_ ‹unitsIn _ _ = true›; decide) : Leaves us a (bootFrom d x1) := by
  unfold bootFrom
  try dsimp only
  repeat' (first | with_reducible assumption | (with_reducible refine unitsIn_trans ?_ hs; decide) | with_reducible apply leaves_raise | with_reducible apply leaves_bootImages | with_reducible apply leaves_ite | split | (simp only [leaves_mark]; (first | with_reducible refine leaves_mk ?_ ?_ ?_ ?_ ?_ ?_ ?_ ?_ ?_ ?_ ?_ ?_ ?_ ?_ ?_ ?_ ?_ ?_ ?_ ?_ ?_ ?_ ?_ ?_ ?_ ?_ ?_ ?_ ?_ ?_ ?_ ?_ | with_reducible refine leaves_mk' ?_ ?_ ?_ ?_ ?_ ?_ ?_ ?_ ?_ ?_ ?_ ?_ ?_ ?_ ?_ ?_ ?_ ?_ ?_ ?_ ?_ ?_ ?_ ?_ ?_ ?_ ?_ ?_ ?_ ?_ ?_ ?_); rotate_left; iterate 31 (first | exact fun hu => unitsIn_absurd hs hu rfl | exact fun _ => rfl)))

theorem leaves_leaveReset {us : List DevUnit} {a d : Dev} (h : Leaves us a d) (x1 : BootFacts) (hs : unitsIn
    [.freeCtr, .modes, .cnt, .ev, .cin, .air, .tbl, .pair, .elec, .sec] us = true :=
    by refine unitsIn_trans ?_ ‹unitsIn _ _ = true›; decide) : Leaves us a (leaveReset d x1) := by
  unfold leaveReset
  try dsimp only
  repeat' (first | with_reducible assumption | (with_reducible refine unitsIn_trans ?_ hs; decide) | with_reducible apply leaves_bootFrom | with_reducible apply leaves_ite | split)

theorem leaves_disableRing {us : List DevUnit} {a d : Dev} (h : Leaves us a d) (x1 : Nat) (hs : unitsIn [.cfg] us =
    true := by refine unitsIn_trans ?_ ‹unitsIn _ _ = true›; decide) : Leaves us a (disableRing d x1) := by
  unfold disableRing
  try dsimp only
  repeat' (first | with_reducible assumption | (with_reducible refine unitsIn_trans ?_ hs; decide) | (simp only [leaves_mark]; (first | with_reducible refine leaves_mk ?_ ?_ ?_ ?_ ?_ ?_ ?_ ?_ ?_ ?_ ?_ ?_ ?_ ?_ ?_ ?_ ?_ ?_ ?_ ?_ ?_ ?_ ?_ ?_ ?_ ?_ ?_ ?_ ?_ ?_ ?_ ?_ | with_reducible refine leaves_mk' ?_ ?_ ?_ ?_ ?_ ?_ ?_ ?_ ?_ ?_ ?_ ?_ ?_ ?_ ?_ ?_ ?_ ?_ ?_ ?_ ?_ ?_ ?_ ?_ ?_ ?_ ?_ ?_ ?_ ?_ ?_ ?_); rotate_left; iterate 31 (first | exact fun hu => unitsIn_absurd hs hu rfl | exact fun _ => rfl)))

end Dev

end Sys2Proof.Machine
end

