-- ==== Sys2Proof/Laws/LeavesHost.lean ====
section
/-! SUPPORT. The units that the operations of Machine/Host.lean leave alone (see Laws/Leaves.lean). -/

-- One proof at a time: the package compiles as one text, and proofs elaborated side by side each take a thread's stack.
set_option Elab.async false
-- The proofs search: each goal uses some of the alternatives.
set_option linter.all false

namespace Sys2Proof.Machine

namespace Dev

theorem leaves_cmdNop {us : List DevUnit} {a d : Dev} (h : Leaves us a d) (x1 : Hdr) (hs : unitsIn [.out, .cnt, .ev,
    .host, .links] us = true := by refine unitsIn_trans ?_ ‹unitsIn _ _ = true›; decide) : Leaves us a (cmdNop d x1) := by
  unfold cmdNop
  try dsimp only
  repeat' (first | with_reducible assumption | (with_reducible refine unitsIn_trans ?_ hs; decide) | intro _ | with_reducible apply leaves_command | with_reducible apply leaves_complete)

theorem leaves_thawReg {us : List DevUnit} {a d : Dev} (h : Leaves us a d) (x1 : Nat) (hs : unitsIn [.stg] us = true
    := by refine unitsIn_trans ?_ ‹unitsIn _ _ = true›; decide) : Leaves us a (thawReg d x1) := by
  unfold thawReg
  try dsimp only
  repeat' (first | with_reducible assumption | (with_reducible refine unitsIn_trans ?_ hs; decide) | with_reducible apply leaves_ite | split | (simp only [leaves_mark]; (first | with_reducible refine leaves_mk ?_ ?_ ?_ ?_ ?_ ?_ ?_ ?_ ?_ ?_ ?_ ?_ ?_ ?_ ?_ ?_ ?_ ?_ ?_ ?_ ?_ ?_ ?_ ?_ ?_ ?_ ?_ ?_ ?_ ?_ ?_ ?_ | with_reducible refine leaves_mk' ?_ ?_ ?_ ?_ ?_ ?_ ?_ ?_ ?_ ?_ ?_ ?_ ?_ ?_ ?_ ?_ ?_ ?_ ?_ ?_ ?_ ?_ ?_ ?_ ?_ ?_ ?_ ?_ ?_ ?_ ?_ ?_); rotate_left; iterate 31 (first | exact fun hu => unitsIn_absurd hs hu rfl | exact fun _ => rfl)))

theorem leaves_stageReg {us : List DevUnit} {a d : Dev} (h : Leaves us a d) (x1 : Nat) (x2 : Nat) (hs : unitsIn [.stg]
    us = true := by refine unitsIn_trans ?_ ‹unitsIn _ _ = true›; decide) : Leaves us a (stageReg d x1 x2) := by
  unfold stageReg
  try dsimp only
  repeat' (first | with_reducible assumption | (with_reducible refine unitsIn_trans ?_ hs; decide) | with_reducible apply leaves_thawReg | split | (simp only [leaves_mark]; (first | with_reducible refine leaves_mk ?_ ?_ ?_ ?_ ?_ ?_ ?_ ?_ ?_ ?_ ?_ ?_ ?_ ?_ ?_ ?_ ?_ ?_ ?_ ?_ ?_ ?_ ?_ ?_ ?_ ?_ ?_ ?_ ?_ ?_ ?_ ?_ | with_reducible refine leaves_mk' ?_ ?_ ?_ ?_ ?_ ?_ ?_ ?_ ?_ ?_ ?_ ?_ ?_ ?_ ?_ ?_ ?_ ?_ ?_ ?_ ?_ ?_ ?_ ?_ ?_ ?_ ?_ ?_ ?_ ?_ ?_ ?_); rotate_left; iterate 31 (first | exact fun hu => unitsIn_absurd hs hu rfl | exact fun _ => rfl)))

theorem leaves_cmdUnknown {us : List DevUnit} {a d : Dev} (h : Leaves us a d) (x1 : Hdr) (x2 : W16) (hs : unitsIn
    [.out, .cnt, .ev, .host, .links] us = true := by refine unitsIn_trans ?_ ‹unitsIn _ _ = true›; decide) : Leaves us
    a (cmdUnknown d x1 x2) := by
  unfold cmdUnknown
  try dsimp only
  repeat' (first | with_reducible assumption | (with_reducible refine unitsIn_trans ?_ hs; decide) | with_reducible apply leaves_fetchCmd | with_reducible apply leaves_post | with_reducible apply leaves_ite | split)

theorem leaves_writeCinStage {us : List DevUnit} {a d : Dev} (h : Leaves us a d) (x1 : Nat) (x2 : W32) (hs : unitsIn
    [.cnt, .vio, .ev, .cin] us = true := by refine unitsIn_trans ?_ ‹unitsIn _ _ = true›; decide) : Leaves us a
    (writeCinStage d x1 x2) := by
  unfold writeCinStage
  try dsimp only
  repeat' (first | with_reducible assumption | (with_reducible refine unitsIn_trans ?_ hs; decide) | with_reducible apply leaves_violate | with_reducible apply leaves_ite | split | (simp only [leaves_mark]; (first | with_reducible refine leaves_mk ?_ ?_ ?_ ?_ ?_ ?_ ?_ ?_ ?_ ?_ ?_ ?_ ?_ ?_ ?_ ?_ ?_ ?_ ?_ ?_ ?_ ?_ ?_ ?_ ?_ ?_ ?_ ?_ ?_ ?_ ?_ ?_ | with_reducible refine leaves_mk' ?_ ?_ ?_ ?_ ?_ ?_ ?_ ?_ ?_ ?_ ?_ ?_ ?_ ?_ ?_ ?_ ?_ ?_ ?_ ?_ ?_ ?_ ?_ ?_ ?_ ?_ ?_ ?_ ?_ ?_ ?_ ?_); rotate_left; iterate 31 (first | exact fun hu => unitsIn_absurd hs hu rfl | exact fun _ => rfl)))

theorem leaves_forgetDescs {us : List DevUnit} {a d : Dev} (h : Leaves us a d) (x1 : Nat) (hs : unitsIn [.pipe] us =
    true := by refine unitsIn_trans ?_ ‹unitsIn _ _ = true›; decide) : Leaves us a (forgetDescs d x1) := by
  unfold forgetDescs
  try dsimp only
  repeat' (first | with_reducible assumption | (with_reducible refine unitsIn_trans ?_ hs; decide) | intro _ | with_reducible apply leaves_getD | with_reducible apply leaves_ite | split | (simp only [leaves_mark]; (first | with_reducible refine leaves_mk ?_ ?_ ?_ ?_ ?_ ?_ ?_ ?_ ?_ ?_ ?_ ?_ ?_ ?_ ?_ ?_ ?_ ?_ ?_ ?_ ?_ ?_ ?_ ?_ ?_ ?_ ?_ ?_ ?_ ?_ ?_ ?_ | with_reducible refine leaves_mk' ?_ ?_ ?_ ?_ ?_ ?_ ?_ ?_ ?_ ?_ ?_ ?_ ?_ ?_ ?_ ?_ ?_ ?_ ?_ ?_ ?_ ?_ ?_ ?_ ?_ ?_ ?_ ?_ ?_ ?_ ?_ ?_); rotate_left; iterate 31 (first | exact fun hu => unitsIn_absurd hs hu rfl | exact fun _ => rfl)))

theorem leaves_writeRingReg {us : List DevUnit} {a d : Dev} (h : Leaves us a d) (x1 : Nat) (x2 : Nat) (x3 : Nat) (hs :
    unitsIn [.cfg, .cnt, .vio, .ev, .host, .pipe] us = true :=
    by refine unitsIn_trans ?_ ‹unitsIn _ _ = true›; decide) : Leaves us a (writeRingReg d x1 x2 x3) := by
  unfold writeRingReg
  try dsimp only
  repeat' (first | with_reducible assumption | (with_reducible refine unitsIn_trans ?_ hs; decide) | intro _ | with_reducible apply leaves_violate | with_reducible apply leaves_setRing | with_reducible apply leaves_forgetDescs | with_reducible apply leaves_getD | with_reducible apply leaves_ite | split | (simp only [leaves_mark]; (first | with_reducible refine leaves_mk ?_ ?_ ?_ ?_ ?_ ?_ ?_ ?_ ?_ ?_ ?_ ?_ ?_ ?_ ?_ ?_ ?_ ?_ ?_ ?_ ?_ ?_ ?_ ?_ ?_ ?_ ?_ ?_ ?_ ?_ ?_ ?_ | with_reducible refine leaves_mk' ?_ ?_ ?_ ?_ ?_ ?_ ?_ ?_ ?_ ?_ ?_ ?_ ?_ ?_ ?_ ?_ ?_ ?_ ?_ ?_ ?_ ?_ ?_ ?_ ?_ ?_ ?_ ?_ ?_ ?_ ?_ ?_); rotate_left; iterate 31 (first | exact fun hu => unitsIn_absurd hs hu rfl | exact fun _ => rfl)))

theorem leaves_putEvent {us : List DevUnit} {a d : Dev} (h : Leaves us a d) (x1 : Event) (hs : unitsIn [.out, .cnt,
    .ev, .host] us = true := by refine unitsIn_trans ?_ ‹unitsIn _ _ = true›; decide) : Leaves us a (putEvent d x1) := by
  unfold putEvent
  try dsimp only
  repeat' (first | with_reducible assumption | (with_reducible refine unitsIn_trans ?_ hs; decide) | with_reducible apply leaves_bump | with_reducible apply leaves_advanceRing | with_reducible apply leaves_emit | (simp only [leaves_mark]; (first | with_reducible refine leaves_mk ?_ ?_ ?_ ?_ ?_ ?_ ?_ ?_ ?_ ?_ ?_ ?_ ?_ ?_ ?_ ?_ ?_ ?_ ?_ ?_ ?_ ?_ ?_ ?_ ?_ ?_ ?_ ?_ ?_ ?_ ?_ ?_ | with_reducible refine leaves_mk' ?_ ?_ ?_ ?_ ?_ ?_ ?_ ?_ ?_ ?_ ?_ ?_ ?_ ?_ ?_ ?_ ?_ ?_ ?_ ?_ ?_ ?_ ?_ ?_ ?_ ?_ ?_ ?_ ?_ ?_ ?_ ?_); rotate_left; iterate 31 (first | exact fun hu => unitsIn_absurd hs hu rfl | exact fun _ => rfl)))

theorem leaves_kick {us : List DevUnit} {a d : Dev} (h : Leaves us a d) (hs : unitsIn [.pair] us = true :=
    by refine unitsIn_trans ?_ ‹unitsIn _ _ = true›; decide) : Leaves us a (kick d) := by
  unfold kick
  try dsimp only
  repeat' (first | with_reducible assumption | (with_reducible refine unitsIn_trans ?_ hs; decide) | (simp only [leaves_mark]; (first | with_reducible refine leaves_mk ?_ ?_ ?_ ?_ ?_ ?_ ?_ ?_ ?_ ?_ ?_ ?_ ?_ ?_ ?_ ?_ ?_ ?_ ?_ ?_ ?_ ?_ ?_ ?_ ?_ ?_ ?_ ?_ ?_ ?_ ?_ ?_ | with_reducible refine leaves_mk' ?_ ?_ ?_ ?_ ?_ ?_ ?_ ?_ ?_ ?_ ?_ ?_ ?_ ?_ ?_ ?_ ?_ ?_ ?_ ?_ ?_ ?_ ?_ ?_ ?_ ?_ ?_ ?_ ?_ ?_ ?_ ?_); rotate_left; iterate 31 (first | exact fun hu => unitsIn_absurd hs hu rfl | exact fun _ => rfl)))

theorem leaves_clearCause {us : List DevUnit} {a d : Dev} (h : Leaves us a d) (x1 : Nat) (hs : unitsIn [.elec] us =
    true := by refine unitsIn_trans ?_ ‹unitsIn _ _ = true›; decide) : Leaves us a (clearCause d x1) := by
  unfold clearCause
  try dsimp only
  repeat' (first | with_reducible assumption | (with_reducible refine unitsIn_trans ?_ hs; decide) | (simp only [leaves_mark]; (first | with_reducible refine leaves_mk ?_ ?_ ?_ ?_ ?_ ?_ ?_ ?_ ?_ ?_ ?_ ?_ ?_ ?_ ?_ ?_ ?_ ?_ ?_ ?_ ?_ ?_ ?_ ?_ ?_ ?_ ?_ ?_ ?_ ?_ ?_ ?_ | with_reducible refine leaves_mk' ?_ ?_ ?_ ?_ ?_ ?_ ?_ ?_ ?_ ?_ ?_ ?_ ?_ ?_ ?_ ?_ ?_ ?_ ?_ ?_ ?_ ?_ ?_ ?_ ?_ ?_ ?_ ?_ ?_ ?_ ?_ ?_); rotate_left; iterate 31 (first | exact fun hu => unitsIn_absurd hs hu rfl | exact fun _ => rfl)))

theorem leaves_writeCfg {us : List DevUnit} {a d : Dev} (h : Leaves us a d) (x1 : CfgSrc) (x2 : Nat) (x3 : W32) (hs :
    unitsIn [.out, .cfg, .stg, .cnt, .vio, .ev, .host, .cin, .seqs, .pipe, .pair, .elec] us = true :=
    by refine unitsIn_trans ?_ ‹unitsIn _ _ = true›; decide) : Leaves us a (writeCfg d x1 x2 x3) := by
  unfold writeCfg
  try dsimp only
  repeat' (first | with_reducible assumption | (with_reducible refine unitsIn_trans ?_ hs; decide) | with_reducible apply leaves_violate | with_reducible apply leaves_emit | with_reducible apply leaves_kick | with_reducible apply leaves_clearCause | with_reducible apply leaves_writeCinStage | with_reducible apply leaves_writeRingReg | with_reducible apply leaves_modSeq | with_reducible apply leaves_stageReg | with_reducible apply leaves_ite | split | (simp only [leaves_mark]; (first | with_reducible refine leaves_mk ?_ ?_ ?_ ?_ ?_ ?_ ?_ ?_ ?_ ?_ ?_ ?_ ?_ ?_ ?_ ?_ ?_ ?_ ?_ ?_ ?_ ?_ ?_ ?_ ?_ ?_ ?_ ?_ ?_ ?_ ?_ ?_ | with_reducible refine leaves_mk' ?_ ?_ ?_ ?_ ?_ ?_ ?_ ?_ ?_ ?_ ?_ ?_ ?_ ?_ ?_ ?_ ?_ ?_ ?_ ?_ ?_ ?_ ?_ ?_ ?_ ?_ ?_ ?_ ?_ ?_ ?_ ?_); rotate_left; iterate 31 (first | exact fun hu => unitsIn_absurd hs hu rfl | exact fun _ => rfl)))

theorem leaves_reply {us : List DevUnit} {a d : Dev} (h : Leaves us a d) (x1 : Nat) (hs : unitsIn [.out] us = true :=
    by refine unitsIn_trans ?_ ‹unitsIn _ _ = true›; decide) : Leaves us a (reply d x1) := by
  unfold reply
  try dsimp only
  repeat' (first | with_reducible assumption | (with_reducible refine unitsIn_trans ?_ hs; decide) | with_reducible apply leaves_emit)

theorem leaves_doorbell {us : List DevUnit} {a d : Dev} (h : Leaves us a d) (x1 : Nat) (x2 : W16) (hs : unitsIn [.cnt,
    .vio, .ev, .host] us = true := by refine unitsIn_trans ?_ ‹unitsIn _ _ = true›; decide) : Leaves us a (doorbell d
    x1 x2) := by
  unfold doorbell
  try dsimp only
  repeat' (first | with_reducible assumption | (with_reducible refine unitsIn_trans ?_ hs; decide) | with_reducible apply leaves_bump | with_reducible apply leaves_violate | with_reducible apply leaves_setRing | with_reducible apply leaves_ite | split | (simp only [leaves_mark]; (first | with_reducible refine leaves_mk ?_ ?_ ?_ ?_ ?_ ?_ ?_ ?_ ?_ ?_ ?_ ?_ ?_ ?_ ?_ ?_ ?_ ?_ ?_ ?_ ?_ ?_ ?_ ?_ ?_ ?_ ?_ ?_ ?_ ?_ ?_ ?_ | with_reducible refine leaves_mk' ?_ ?_ ?_ ?_ ?_ ?_ ?_ ?_ ?_ ?_ ?_ ?_ ?_ ?_ ?_ ?_ ?_ ?_ ?_ ?_ ?_ ?_ ?_ ?_ ?_ ?_ ?_ ?_ ?_ ?_ ?_ ?_); rotate_left; iterate 31 (first | exact fun hu => unitsIn_absurd hs hu rfl | exact fun _ => rfl)))

theorem leaves_postEvent {us : List DevUnit} {a d : Dev} (h : Leaves us a d) (hs : unitsIn [.out, .cnt, .ev, .host,
    .links] us = true := by refine unitsIn_trans ?_ ‹unitsIn _ _ = true›; decide) : Leaves us a (postEvent d) := by
  unfold postEvent
  try dsimp only
  repeat' (first | with_reducible assumption | (with_reducible refine unitsIn_trans ?_ hs; decide) | with_reducible apply leaves_bump | with_reducible apply leaves_sendHost | with_reducible apply leaves_putEvent | with_reducible apply leaves_raise | with_reducible apply leaves_ite | split | (simp only [leaves_mark]; (first | with_reducible refine leaves_mk ?_ ?_ ?_ ?_ ?_ ?_ ?_ ?_ ?_ ?_ ?_ ?_ ?_ ?_ ?_ ?_ ?_ ?_ ?_ ?_ ?_ ?_ ?_ ?_ ?_ ?_ ?_ ?_ ?_ ?_ ?_ ?_ | with_reducible refine leaves_mk' ?_ ?_ ?_ ?_ ?_ ?_ ?_ ?_ ?_ ?_ ?_ ?_ ?_ ?_ ?_ ?_ ?_ ?_ ?_ ?_ ?_ ?_ ?_ ?_ ?_ ?_ ?_ ?_ ?_ ?_ ?_ ?_); rotate_left; iterate 31 (first | exact fun hu => unitsIn_absurd hs hu rfl | exact fun _ => rfl)))

end Dev

end Sys2Proof.Machine
end

