-- ==== Sys2Proof/Laws/LeavesTasks.lean ====
section
/-! SUPPORT. The units that the operations of Machine/Tasks.lean leave alone (see Laws/Leaves.lean). -/

-- One proof at a time: the package compiles as one text, and proofs elaborated side by side each take a thread's stack.
set_option Elab.async false
-- The proofs search: each goal uses some of the alternatives.
set_option linter.all false

namespace Sys2Proof.Machine

namespace Dev

theorem leaves_setCorePort {us : List DevUnit} {a d : Dev} (h : Leaves us a d) (x1 : Nat) (x2 : CorePort) (hs :
    unitsIn [.disp] us = true := by refine unitsIn_trans ?_ ‹unitsIn _ _ = true›; decide) : Leaves us a (setCorePort d
    x1 x2) := by
  unfold setCorePort
  try dsimp only
  repeat' (first | with_reducible assumption | (with_reducible refine unitsIn_trans ?_ hs; decide) | (simp only [leaves_mark]; (first | with_reducible refine leaves_mk ?_ ?_ ?_ ?_ ?_ ?_ ?_ ?_ ?_ ?_ ?_ ?_ ?_ ?_ ?_ ?_ ?_ ?_ ?_ ?_ ?_ ?_ ?_ ?_ ?_ ?_ ?_ ?_ ?_ ?_ ?_ ?_ | with_reducible refine leaves_mk' ?_ ?_ ?_ ?_ ?_ ?_ ?_ ?_ ?_ ?_ ?_ ?_ ?_ ?_ ?_ ?_ ?_ ?_ ?_ ?_ ?_ ?_ ?_ ?_ ?_ ?_ ?_ ?_ ?_ ?_ ?_ ?_); rotate_left; iterate 31 (first | exact fun hu => unitsIn_absurd hs hu rfl | exact fun _ => rfl)))

theorem leaves_setResult {us : List DevUnit} {a d : Dev} (h : Leaves us a d) (x1 : Nat) (x2 : Nat) (x3 : Status) (hs :
    unitsIn [.disp] us = true := by refine unitsIn_trans ?_ ‹unitsIn _ _ = true›; decide) : Leaves us a (setResult d
    x1 x2 x3) := by
  unfold setResult
  try dsimp only
  repeat' (first | with_reducible assumption | (with_reducible refine unitsIn_trans ?_ hs; decide) | with_reducible apply leaves_setCorePort | (simp only [leaves_mark]; (first | with_reducible refine leaves_mk ?_ ?_ ?_ ?_ ?_ ?_ ?_ ?_ ?_ ?_ ?_ ?_ ?_ ?_ ?_ ?_ ?_ ?_ ?_ ?_ ?_ ?_ ?_ ?_ ?_ ?_ ?_ ?_ ?_ ?_ ?_ ?_ | with_reducible refine leaves_mk' ?_ ?_ ?_ ?_ ?_ ?_ ?_ ?_ ?_ ?_ ?_ ?_ ?_ ?_ ?_ ?_ ?_ ?_ ?_ ?_ ?_ ?_ ?_ ?_ ?_ ?_ ?_ ?_ ?_ ?_ ?_ ?_); rotate_left; iterate 31 (first | exact fun hu => unitsIn_absurd hs hu rfl | exact fun _ => rfl)))

theorem leaves_endTake {us : List DevUnit} {a d : Dev} (h : Leaves us a d) (x1 : Nat) (hs : unitsIn [.out, .disp] us =
    true := by refine unitsIn_trans ?_ ‹unitsIn _ _ = true›; decide) : Leaves us a (endTake d x1) := by
  unfold endTake
  try dsimp only
  repeat' (first | with_reducible assumption | (with_reducible refine unitsIn_trans ?_ hs; decide) | with_reducible apply leaves_emit | with_reducible apply leaves_setCorePort | with_reducible apply leaves_ite | split | (simp only [leaves_mark]; (first | with_reducible refine leaves_mk ?_ ?_ ?_ ?_ ?_ ?_ ?_ ?_ ?_ ?_ ?_ ?_ ?_ ?_ ?_ ?_ ?_ ?_ ?_ ?_ ?_ ?_ ?_ ?_ ?_ ?_ ?_ ?_ ?_ ?_ ?_ ?_ | with_reducible refine leaves_mk' ?_ ?_ ?_ ?_ ?_ ?_ ?_ ?_ ?_ ?_ ?_ ?_ ?_ ?_ ?_ ?_ ?_ ?_ ?_ ?_ ?_ ?_ ?_ ?_ ?_ ?_ ?_ ?_ ?_ ?_ ?_ ?_); rotate_left; iterate 31 (first | exact fun hu => unitsIn_absurd hs hu rfl | exact fun _ => rfl)))

theorem leaves_setSlot {us : List DevUnit} {a d : Dev} (h : Leaves us a d) (x1 : Nat) (x2 : Task) (hs : unitsIn
    [.disp] us = true := by refine unitsIn_trans ?_ ‹unitsIn _ _ = true›; decide) : Leaves us a (setSlot d x1 x2) := by
  unfold setSlot
  try dsimp only
  repeat' (first | with_reducible assumption | (with_reducible refine unitsIn_trans ?_ hs; decide) | (simp only [leaves_mark]; (first | with_reducible refine leaves_mk ?_ ?_ ?_ ?_ ?_ ?_ ?_ ?_ ?_ ?_ ?_ ?_ ?_ ?_ ?_ ?_ ?_ ?_ ?_ ?_ ?_ ?_ ?_ ?_ ?_ ?_ ?_ ?_ ?_ ?_ ?_ ?_ | with_reducible refine leaves_mk' ?_ ?_ ?_ ?_ ?_ ?_ ?_ ?_ ?_ ?_ ?_ ?_ ?_ ?_ ?_ ?_ ?_ ?_ ?_ ?_ ?_ ?_ ?_ ?_ ?_ ?_ ?_ ?_ ?_ ?_ ?_ ?_); rotate_left; iterate 31 (first | exact fun hu => unitsIn_absurd hs hu rfl | exact fun _ => rfl)))

theorem leaves_dispatchTo {us : List DevUnit} {a d : Dev} (h : Leaves us a d) (x1 : Nat) (hs : unitsIn [.out, .cnt,
    .ev, .disp] us = true := by refine unitsIn_trans ?_ ‹unitsIn _ _ = true›; decide) : ∀ y, (dispatchTo d x1) = some
    y → Leaves us a y := by
  intro y e
  unfold dispatchTo at e
  try dsimp only at e
  repeat' split at e
  all_goals first | contradiction | (cases e)
  all_goals try dsimp only
  all_goals repeat' (first | with_reducible assumption | (with_reducible refine unitsIn_trans ?_ hs; decide) | with_reducible apply leaves_setSlot | with_reducible apply leaves_setCorePort | with_reducible apply leaves_emit | with_reducible apply leaves_bump | split | (simp only [leaves_mark]; (first | with_reducible refine leaves_mk ?_ ?_ ?_ ?_ ?_ ?_ ?_ ?_ ?_ ?_ ?_ ?_ ?_ ?_ ?_ ?_ ?_ ?_ ?_ ?_ ?_ ?_ ?_ ?_ ?_ ?_ ?_ ?_ ?_ ?_ ?_ ?_ | with_reducible refine leaves_mk' ?_ ?_ ?_ ?_ ?_ ?_ ?_ ?_ ?_ ?_ ?_ ?_ ?_ ?_ ?_ ?_ ?_ ?_ ?_ ?_ ?_ ?_ ?_ ?_ ?_ ?_ ?_ ?_ ?_ ?_ ?_ ?_); rotate_left; iterate 31 (first | exact fun hu => unitsIn_absurd hs hu rfl | exact fun _ => rfl)))

theorem leaves_serveWaiting {us : List DevUnit} {a d : Dev} (h : Leaves us a d) (hs : unitsIn [.out, .cnt, .ev, .disp]
    us = true := by refine unitsIn_trans ?_ ‹unitsIn _ _ = true›; decide) : Leaves us a (serveWaiting d) := by
  unfold serveWaiting
  try dsimp only
  repeat' (first | with_reducible assumption | (with_reducible refine unitsIn_trans ?_ hs; decide) | with_reducible refine leaves_dispatchTo ?_ _ (hs := ?_) | intro _ | with_reducible apply leaves_each | with_reducible apply leaves_getD | with_reducible apply leaves_each | with_reducible apply leaves_ite | with_reducible apply leaves_ite_fst | with_reducible apply leaves_ite_snd | split)

theorem leaves_makeReady {us : List DevUnit} {a d : Dev} (h : Leaves us a d) (x1 : Nat) (hs : unitsIn [.disp] us =
    true := by refine unitsIn_trans ?_ ‹unitsIn _ _ = true›; decide) : Leaves us a (makeReady d x1) := by
  unfold makeReady
  try dsimp only
  repeat' (first | with_reducible assumption | (with_reducible refine unitsIn_trans ?_ hs; decide) | with_reducible apply leaves_setSlot | (simp only [leaves_mark]; (first | with_reducible refine leaves_mk ?_ ?_ ?_ ?_ ?_ ?_ ?_ ?_ ?_ ?_ ?_ ?_ ?_ ?_ ?_ ?_ ?_ ?_ ?_ ?_ ?_ ?_ ?_ ?_ ?_ ?_ ?_ ?_ ?_ ?_ ?_ ?_ | with_reducible refine leaves_mk' ?_ ?_ ?_ ?_ ?_ ?_ ?_ ?_ ?_ ?_ ?_ ?_ ?_ ?_ ?_ ?_ ?_ ?_ ?_ ?_ ?_ ?_ ?_ ?_ ?_ ?_ ?_ ?_ ?_ ?_ ?_ ?_); rotate_left; iterate 31 (first | exact fun hu => unitsIn_absurd hs hu rfl | exact fun _ => rfl)))

theorem leaves_cplTo {us : List DevUnit} {a d : Dev} (h : Leaves us a d) (x1 : Nat) (x2 : TaskCpl) (hs : unitsIn
    [.disp] us = true := by refine unitsIn_trans ?_ ‹unitsIn _ _ = true›; decide) : Leaves us a (cplTo d x1 x2) := by
  unfold cplTo
  try dsimp only
  repeat' (first | with_reducible assumption | (with_reducible refine unitsIn_trans ?_ hs; decide) | with_reducible apply leaves_setCorePort | (simp only [leaves_mark]; (first | with_reducible refine leaves_mk ?_ ?_ ?_ ?_ ?_ ?_ ?_ ?_ ?_ ?_ ?_ ?_ ?_ ?_ ?_ ?_ ?_ ?_ ?_ ?_ ?_ ?_ ?_ ?_ ?_ ?_ ?_ ?_ ?_ ?_ ?_ ?_ | with_reducible refine leaves_mk' ?_ ?_ ?_ ?_ ?_ ?_ ?_ ?_ ?_ ?_ ?_ ?_ ?_ ?_ ?_ ?_ ?_ ?_ ?_ ?_ ?_ ?_ ?_ ?_ ?_ ?_ ?_ ?_ ?_ ?_ ?_ ?_); rotate_left; iterate 31 (first | exact fun hu => unitsIn_absurd hs hu rfl | exact fun _ => rfl)))

theorem leaves_freeSlot {us : List DevUnit} {a d : Dev} (h : Leaves us a d) (x1 : Nat) (hs : unitsIn [.disp] us = true
    := by refine unitsIn_trans ?_ ‹unitsIn _ _ = true›; decide) : Leaves us a (freeSlot d x1) := by
  unfold freeSlot
  try dsimp only
  repeat' (first | with_reducible assumption | (with_reducible refine unitsIn_trans ?_ hs; decide) | with_reducible apply leaves_setSlot)

theorem leaves_coreAccess {us : List DevUnit} {a d : Dev} (h : Leaves us a d) (x1 : Nat) (x2 : Option World) (x3 :
    Bool) (x4 : Bool) (x5 : Nat) (x6 : List Byte) (hs : unitsIn [.out, .cnt, .vio, .ev, .disp] us = true :=
    by refine unitsIn_trans ?_ ‹unitsIn _ _ = true›; decide) : Leaves us a (coreAccess d x1 x2 x3 x4 x5 x6) := by
  unfold coreAccess
  try dsimp only
  repeat' (first | with_reducible assumption | (with_reducible refine unitsIn_trans ?_ hs; decide) | with_reducible apply leaves_violate | with_reducible apply leaves_emit | with_reducible apply leaves_ite | split | (simp only [leaves_mark]; (first | with_reducible refine leaves_mk ?_ ?_ ?_ ?_ ?_ ?_ ?_ ?_ ?_ ?_ ?_ ?_ ?_ ?_ ?_ ?_ ?_ ?_ ?_ ?_ ?_ ?_ ?_ ?_ ?_ ?_ ?_ ?_ ?_ ?_ ?_ ?_ | with_reducible refine leaves_mk' ?_ ?_ ?_ ?_ ?_ ?_ ?_ ?_ ?_ ?_ ?_ ?_ ?_ ?_ ?_ ?_ ?_ ?_ ?_ ?_ ?_ ?_ ?_ ?_ ?_ ?_ ?_ ?_ ?_ ?_ ?_ ?_); rotate_left; iterate 31 (first | exact fun hu => unitsIn_absurd hs hu rfl | exact fun _ => rfl)))

end Dev

end Sys2Proof.Machine
end

