-- ==== Sys2Proof/Laws/LeavesKeys.lean ====
section
/-! SUPPORT. The units that the operations of Machine/Keys.lean leave alone (see Laws/Leaves.lean). -/

-- One proof at a time: the package compiles as one text, and proofs elaborated side by side each take a thread's stack.
set_option Elab.async false
-- The proofs search: each goal uses some of the alternatives.
set_option linter.all false

namespace Sys2Proof.Machine

namespace Dev

theorem leaves_cachePlace {us : List DevUnit} {a d : Dev} (h : Leaves us a d) (x1 : KeyTag) (hs : unitsIn [.cnt, .ev,
    .sec] us = true := by refine unitsIn_trans ?_ ‹unitsIn _ _ = true›; decide) : Leaves us a (cachePlace d x1) := by
  unfold cachePlace
  try dsimp only
  repeat' (first | with_reducible assumption | (with_reducible refine unitsIn_trans ?_ hs; decide) | with_reducible apply leaves_bump | with_reducible apply leaves_ite | split | (simp only [leaves_mark]; (first | with_reducible refine leaves_mk ?_ ?_ ?_ ?_ ?_ ?_ ?_ ?_ ?_ ?_ ?_ ?_ ?_ ?_ ?_ ?_ ?_ ?_ ?_ ?_ ?_ ?_ ?_ ?_ ?_ ?_ ?_ ?_ ?_ ?_ ?_ ?_ | with_reducible refine leaves_mk' ?_ ?_ ?_ ?_ ?_ ?_ ?_ ?_ ?_ ?_ ?_ ?_ ?_ ?_ ?_ ?_ ?_ ?_ ?_ ?_ ?_ ?_ ?_ ?_ ?_ ?_ ?_ ?_ ?_ ?_ ?_ ?_); rotate_left; iterate 31 (first | exact fun hu => unitsIn_absurd hs hu rfl | exact fun _ => rfl)))

theorem leaves_kdfDone {us : List DevUnit} {a d : Dev} (h : Leaves us a d) (hs : unitsIn [.cnt, .ev, .sec] us = true
    := by refine unitsIn_trans ?_ ‹unitsIn _ _ = true›; decide) : Leaves us a (kdfDone d) := by
  unfold kdfDone
  try dsimp only
  repeat' (first | with_reducible assumption | (with_reducible refine unitsIn_trans ?_ hs; decide) | with_reducible apply leaves_bump | with_reducible apply leaves_cachePlace | with_reducible apply leaves_ite | split | (simp only [leaves_mark]; (first | with_reducible refine leaves_mk ?_ ?_ ?_ ?_ ?_ ?_ ?_ ?_ ?_ ?_ ?_ ?_ ?_ ?_ ?_ ?_ ?_ ?_ ?_ ?_ ?_ ?_ ?_ ?_ ?_ ?_ ?_ ?_ ?_ ?_ ?_ ?_ | with_reducible refine leaves_mk' ?_ ?_ ?_ ?_ ?_ ?_ ?_ ?_ ?_ ?_ ?_ ?_ ?_ ?_ ?_ ?_ ?_ ?_ ?_ ?_ ?_ ?_ ?_ ?_ ?_ ?_ ?_ ?_ ?_ ?_ ?_ ?_); rotate_left; iterate 31 (first | exact fun hu => unitsIn_absurd hs hu rfl | exact fun _ => rfl)))

theorem leaves_invalidate {us : List DevUnit} {a d : Dev} (h : Leaves us a d) (x1 : Nat) (hs : unitsIn [.sec, .links]
    us = true := by refine unitsIn_trans ?_ ‹unitsIn _ _ = true›; decide) : Leaves us a (invalidate d x1) := by
  unfold invalidate
  try dsimp only
  repeat' (first | with_reducible assumption | (with_reducible refine unitsIn_trans ?_ hs; decide) | intro _ | with_reducible apply leaves_each | with_reducible apply leaves_modKey | with_reducible apply leaves_modEth | with_reducible apply leaves_each | (simp only [leaves_mark]; (first | with_reducible refine leaves_mk ?_ ?_ ?_ ?_ ?_ ?_ ?_ ?_ ?_ ?_ ?_ ?_ ?_ ?_ ?_ ?_ ?_ ?_ ?_ ?_ ?_ ?_ ?_ ?_ ?_ ?_ ?_ ?_ ?_ ?_ ?_ ?_ | with_reducible refine leaves_mk' ?_ ?_ ?_ ?_ ?_ ?_ ?_ ?_ ?_ ?_ ?_ ?_ ?_ ?_ ?_ ?_ ?_ ?_ ?_ ?_ ?_ ?_ ?_ ?_ ?_ ?_ ?_ ?_ ?_ ?_ ?_ ?_); rotate_left; iterate 31 (first | exact fun hu => unitsIn_absurd hs hu rfl | exact fun _ => rfl)))

theorem leaves_requestKey {us : List DevUnit} {a d : Dev} (h : Leaves us a d) (x1 : KeyTag) (hs : unitsIn [.cnt, .ev,
    .sec] us = true := by refine unitsIn_trans ?_ ‹unitsIn _ _ = true›; decide) : Leaves us a (requestKey d x1) := by
  unfold requestKey
  try dsimp only
  repeat' (first | with_reducible assumption | (with_reducible refine unitsIn_trans ?_ hs; decide) | with_reducible apply leaves_bump | with_reducible apply leaves_ite | split | (simp only [leaves_mark]; (first | with_reducible refine leaves_mk ?_ ?_ ?_ ?_ ?_ ?_ ?_ ?_ ?_ ?_ ?_ ?_ ?_ ?_ ?_ ?_ ?_ ?_ ?_ ?_ ?_ ?_ ?_ ?_ ?_ ?_ ?_ ?_ ?_ ?_ ?_ ?_ | with_reducible refine leaves_mk' ?_ ?_ ?_ ?_ ?_ ?_ ?_ ?_ ?_ ?_ ?_ ?_ ?_ ?_ ?_ ?_ ?_ ?_ ?_ ?_ ?_ ?_ ?_ ?_ ?_ ?_ ?_ ?_ ?_ ?_ ?_ ?_); rotate_left; iterate 31 (first | exact fun hu => unitsIn_absurd hs hu rfl | exact fun _ => rfl)))

theorem leaves_commandView {us : List DevUnit} {a d : Dev} (h : Leaves us a d) (hs : unitsIn [.sec] us = true :=
    by refine unitsIn_trans ?_ ‹unitsIn _ _ = true›; decide) : Leaves us a (commandView d) := by
  unfold commandView
  try dsimp only
  repeat' (first | with_reducible assumption | (with_reducible refine unitsIn_trans ?_ hs; decide) | split | (simp only [leaves_mark]; (first | with_reducible refine leaves_mk ?_ ?_ ?_ ?_ ?_ ?_ ?_ ?_ ?_ ?_ ?_ ?_ ?_ ?_ ?_ ?_ ?_ ?_ ?_ ?_ ?_ ?_ ?_ ?_ ?_ ?_ ?_ ?_ ?_ ?_ ?_ ?_ | with_reducible refine leaves_mk' ?_ ?_ ?_ ?_ ?_ ?_ ?_ ?_ ?_ ?_ ?_ ?_ ?_ ?_ ?_ ?_ ?_ ?_ ?_ ?_ ?_ ?_ ?_ ?_ ?_ ?_ ?_ ?_ ?_ ?_ ?_ ?_); rotate_left; iterate 31 (first | exact fun hu => unitsIn_absurd hs hu rfl | exact fun _ => rfl)))

theorem leaves_keySet {us : List DevUnit} {a d : Dev} (h : Leaves us a d) (x1 : Hdr) (x2 : List Byte) (x3 : Nat) (hs :
    unitsIn [.out, .stg, .cnt, .ev, .host, .sec, .links] us = true :=
    by refine unitsIn_trans ?_ ‹unitsIn _ _ = true›; decide) : Leaves us a (keySet d x1 x2 x3) := by
  unfold keySet
  try dsimp only
  repeat' (first | with_reducible assumption | (with_reducible refine unitsIn_trans ?_ hs; decide) | intro _ | with_reducible apply leaves_command | with_reducible apply leaves_commandView | with_reducible apply leaves_complete | with_reducible apply leaves_modKey | with_reducible apply leaves_stageCmd | with_reducible apply leaves_ite | split | (simp only [leaves_mark]; (first | with_reducible refine leaves_mk ?_ ?_ ?_ ?_ ?_ ?_ ?_ ?_ ?_ ?_ ?_ ?_ ?_ ?_ ?_ ?_ ?_ ?_ ?_ ?_ ?_ ?_ ?_ ?_ ?_ ?_ ?_ ?_ ?_ ?_ ?_ ?_ | with_reducible refine leaves_mk' ?_ ?_ ?_ ?_ ?_ ?_ ?_ ?_ ?_ ?_ ?_ ?_ ?_ ?_ ?_ ?_ ?_ ?_ ?_ ?_ ?_ ?_ ?_ ?_ ?_ ?_ ?_ ?_ ?_ ?_ ?_ ?_); rotate_left; iterate 31 (first | exact fun hu => unitsIn_absurd hs hu rfl | exact fun _ => rfl)))

theorem leaves_setKs {us : List DevUnit} {a d : Dev} (h : Leaves us a d) (x1 : Nat) (x2 : Option KsRecord) (hs :
    unitsIn [.ks0, .ks1] us = true := by refine unitsIn_trans ?_ ‹unitsIn _ _ = true›; decide) : Leaves us a (setKs d
    x1 x2) := by
  unfold setKs
  try dsimp only
  repeat' (first | with_reducible assumption | (with_reducible refine unitsIn_trans ?_ hs; decide) | with_reducible apply leaves_ite | split | (simp only [leaves_mark]; (first | with_reducible refine leaves_mk ?_ ?_ ?_ ?_ ?_ ?_ ?_ ?_ ?_ ?_ ?_ ?_ ?_ ?_ ?_ ?_ ?_ ?_ ?_ ?_ ?_ ?_ ?_ ?_ ?_ ?_ ?_ ?_ ?_ ?_ ?_ ?_ | with_reducible refine leaves_mk' ?_ ?_ ?_ ?_ ?_ ?_ ?_ ?_ ?_ ?_ ?_ ?_ ?_ ?_ ?_ ?_ ?_ ?_ ?_ ?_ ?_ ?_ ?_ ?_ ?_ ?_ ?_ ?_ ?_ ?_ ?_ ?_); rotate_left; iterate 31 (first | exact fun hu => unitsIn_absurd hs hu rfl | exact fun _ => rfl)))

theorem leaves_dropUnremoved {us : List DevUnit} {a d : Dev} (h : Leaves us a d) (x1 : SMap KeySlot) (hs : unitsIn
    [.sec] us = true := by refine unitsIn_trans ?_ ‹unitsIn _ _ = true›; decide) : Leaves us a (dropUnremoved d x1) := by
  unfold dropUnremoved
  try dsimp only
  repeat' (first | with_reducible assumption | (with_reducible refine unitsIn_trans ?_ hs; decide) | with_reducible apply leaves_ite | split | (simp only [leaves_mark]; (first | with_reducible refine leaves_mk ?_ ?_ ?_ ?_ ?_ ?_ ?_ ?_ ?_ ?_ ?_ ?_ ?_ ?_ ?_ ?_ ?_ ?_ ?_ ?_ ?_ ?_ ?_ ?_ ?_ ?_ ?_ ?_ ?_ ?_ ?_ ?_ | with_reducible refine leaves_mk' ?_ ?_ ?_ ?_ ?_ ?_ ?_ ?_ ?_ ?_ ?_ ?_ ?_ ?_ ?_ ?_ ?_ ?_ ?_ ?_ ?_ ?_ ?_ ?_ ?_ ?_ ?_ ?_ ?_ ?_ ?_ ?_); rotate_left; iterate 31 (first | exact fun hu => unitsIn_absurd hs hu rfl | exact fun _ => rfl)))

theorem leaves_startWrite {us : List DevUnit} {a d : Dev} (h : Leaves us a d) (x1 : List Byte) (x2 : KeySlot → Bool)
    (x3 : List Completion) (x4 : Option Cmd) (hs : unitsIn [.ks0, .ks1, .sec] us = true :=
    by refine unitsIn_trans ?_ ‹unitsIn _ _ = true›; decide) : Leaves us a (startWrite d x1 x2 x3 x4) := by
  unfold startWrite
  try dsimp only
  repeat' (first | with_reducible assumption | (with_reducible refine unitsIn_trans ?_ hs; decide) | with_reducible apply leaves_setKs | (simp only [leaves_mark]; (first | with_reducible refine leaves_mk ?_ ?_ ?_ ?_ ?_ ?_ ?_ ?_ ?_ ?_ ?_ ?_ ?_ ?_ ?_ ?_ ?_ ?_ ?_ ?_ ?_ ?_ ?_ ?_ ?_ ?_ ?_ ?_ ?_ ?_ ?_ ?_ | with_reducible refine leaves_mk' ?_ ?_ ?_ ?_ ?_ ?_ ?_ ?_ ?_ ?_ ?_ ?_ ?_ ?_ ?_ ?_ ?_ ?_ ?_ ?_ ?_ ?_ ?_ ?_ ?_ ?_ ?_ ?_ ?_ ?_ ?_ ?_); rotate_left; iterate 31 (first | exact fun hu => unitsIn_absurd hs hu rfl | exact fun _ => rfl)))

theorem leaves_writeIfDue {us : List DevUnit} {a d : Dev} (h : Leaves us a d) (hs : unitsIn [.ks0, .ks1, .sec] us =
    true := by refine unitsIn_trans ?_ ‹unitsIn _ _ = true›; decide) : Leaves us a (writeIfDue d) := by
  unfold writeIfDue
  try dsimp only
  repeat' (first | with_reducible assumption | (with_reducible refine unitsIn_trans ?_ hs; decide) | with_reducible apply leaves_startWrite | with_reducible apply leaves_ite | split | (simp only [leaves_mark]; (first | with_reducible refine leaves_mk ?_ ?_ ?_ ?_ ?_ ?_ ?_ ?_ ?_ ?_ ?_ ?_ ?_ ?_ ?_ ?_ ?_ ?_ ?_ ?_ ?_ ?_ ?_ ?_ ?_ ?_ ?_ ?_ ?_ ?_ ?_ ?_ | with_reducible refine leaves_mk' ?_ ?_ ?_ ?_ ?_ ?_ ?_ ?_ ?_ ?_ ?_ ?_ ?_ ?_ ?_ ?_ ?_ ?_ ?_ ?_ ?_ ?_ ?_ ?_ ?_ ?_ ?_ ?_ ?_ ?_ ?_ ?_); rotate_left; iterate 31 (first | exact fun hu => unitsIn_absurd hs hu rfl | exact fun _ => rfl)))

theorem leaves_writeDone {us : List DevUnit} {a d : Dev} (h : Leaves us a d) (x1 : Bool) (hs : unitsIn [.out, .cnt,
    .ev, .host, .ks0, .ks1, .sec, .links] us = true := by refine unitsIn_trans ?_ ‹unitsIn _ _ = true›; decide) :
    Leaves us a (writeDone d x1) := by
  unfold writeDone
  try dsimp only
  repeat' (first | with_reducible assumption | (with_reducible refine unitsIn_trans ?_ hs; decide) | intro _ | with_reducible apply leaves_setKs | with_reducible apply leaves_complete | with_reducible apply leaves_finish | with_reducible apply leaves_dropUnremoved | with_reducible apply leaves_writeIfDue | with_reducible apply leaves_raise | with_reducible apply leaves_bump | with_reducible apply leaves_foldl | with_reducible apply leaves_ite | split | (simp only [leaves_mark]; (first | with_reducible refine leaves_mk ?_ ?_ ?_ ?_ ?_ ?_ ?_ ?_ ?_ ?_ ?_ ?_ ?_ ?_ ?_ ?_ ?_ ?_ ?_ ?_ ?_ ?_ ?_ ?_ ?_ ?_ ?_ ?_ ?_ ?_ ?_ ?_ | with_reducible refine leaves_mk' ?_ ?_ ?_ ?_ ?_ ?_ ?_ ?_ ?_ ?_ ?_ ?_ ?_ ?_ ?_ ?_ ?_ ?_ ?_ ?_ ?_ ?_ ?_ ?_ ?_ ?_ ?_ ?_ ?_ ?_ ?_ ?_); rotate_left; iterate 31 (first | exact fun hu => unitsIn_absurd hs hu rfl | exact fun _ => rfl)))

theorem leaves_cmdKeySetPub {us : List DevUnit} {a d : Dev} (h : Leaves us a d) (x1 : Hdr) (x2 : List Byte) (x3 :
    Option (List Byte)) (hs : unitsIn [.out, .stg, .cnt, .ev, .host, .sec, .links] us = true :=
    by refine unitsIn_trans ?_ ‹unitsIn _ _ = true›; decide) : Leaves us a (cmdKeySetPub d x1 x2 x3) := by
  unfold cmdKeySetPub
  try dsimp only
  repeat' (first | with_reducible assumption | (with_reducible refine unitsIn_trans ?_ hs; decide) | intro _ | with_reducible apply leaves_keySet | with_reducible apply leaves_getD)

theorem leaves_cmdKeySetSym {us : List DevUnit} {a d : Dev} (h : Leaves us a d) (x1 : Hdr) (x2 : List Byte) (x3 :
    Option (List Byte)) (hs : unitsIn [.out, .stg, .cnt, .ev, .host, .sec, .links] us = true :=
    by refine unitsIn_trans ?_ ‹unitsIn _ _ = true›; decide) : Leaves us a (cmdKeySetSym d x1 x2 x3) := by
  unfold cmdKeySetSym
  try dsimp only
  repeat' (first | with_reducible assumption | (with_reducible refine unitsIn_trans ?_ hs; decide) | intro _ | with_reducible apply leaves_keySet | with_reducible apply leaves_getD)

theorem leaves_keyMigrate {us : List DevUnit} {a d : Dev} (h : Leaves us a d) (x1 : Hdr) (x2 : List Byte) (x3 : Option
    (List Byte)) (hs : unitsIn [.out, .cnt, .ev, .host, .ks0, .ks1, .sec, .links] us = true :=
    by refine unitsIn_trans ?_ ‹unitsIn _ _ = true›; decide) : Leaves us a (keyMigrate d x1 x2 x3) := by
  unfold keyMigrate
  try dsimp only
  repeat' (first | with_reducible assumption | (with_reducible refine unitsIn_trans ?_ hs; decide) | intro _ | with_reducible apply leaves_command | with_reducible apply leaves_complete | with_reducible apply leaves_startWrite | with_reducible apply leaves_holdCmd | with_reducible apply leaves_ite | split | (simp only [leaves_mark]; (first | with_reducible refine leaves_mk ?_ ?_ ?_ ?_ ?_ ?_ ?_ ?_ ?_ ?_ ?_ ?_ ?_ ?_ ?_ ?_ ?_ ?_ ?_ ?_ ?_ ?_ ?_ ?_ ?_ ?_ ?_ ?_ ?_ ?_ ?_ ?_ | with_reducible refine leaves_mk' ?_ ?_ ?_ ?_ ?_ ?_ ?_ ?_ ?_ ?_ ?_ ?_ ?_ ?_ ?_ ?_ ?_ ?_ ?_ ?_ ?_ ?_ ?_ ?_ ?_ ?_ ?_ ?_ ?_ ?_ ?_ ?_); rotate_left; iterate 31 (first | exact fun hu => unitsIn_absurd hs hu rfl | exact fun _ => rfl)))

theorem leaves_macsecSak {us : List DevUnit} {a d : Dev} (h : Leaves us a d) (x1 : Hdr) (x2 : List Byte) (x3 : Nat)
    (hs : unitsIn [.out, .freeCtr, .cnt, .ev, .host, .sec, .links] us = true :=
    by refine unitsIn_trans ?_ ‹unitsIn _ _ = true›; decide) : Leaves us a (macsecSak d x1 x2 x3) := by
  unfold macsecSak
  try dsimp only
  repeat' (first | with_reducible assumption | (with_reducible refine unitsIn_trans ?_ hs; decide) | intro _ | with_reducible apply leaves_command | with_reducible apply leaves_commandView | with_reducible apply leaves_complete | with_reducible apply leaves_modEth | with_reducible apply leaves_draw | with_reducible apply leaves_getD | with_reducible apply leaves_ite | with_reducible apply leaves_ite_fst | with_reducible apply leaves_ite_snd | split | (simp only [leaves_mark]; (first | with_reducible refine leaves_mk ?_ ?_ ?_ ?_ ?_ ?_ ?_ ?_ ?_ ?_ ?_ ?_ ?_ ?_ ?_ ?_ ?_ ?_ ?_ ?_ ?_ ?_ ?_ ?_ ?_ ?_ ?_ ?_ ?_ ?_ ?_ ?_ | with_reducible refine leaves_mk' ?_ ?_ ?_ ?_ ?_ ?_ ?_ ?_ ?_ ?_ ?_ ?_ ?_ ?_ ?_ ?_ ?_ ?_ ?_ ?_ ?_ ?_ ?_ ?_ ?_ ?_ ?_ ?_ ?_ ?_ ?_ ?_); rotate_left; iterate 31 (first | exact fun hu => unitsIn_absurd hs hu rfl | exact fun _ => rfl)) | with_reducible refine leaves_snd ‹_› ?_)

theorem leaves_burnAhead {us : List DevUnit} {a d : Dev} (h : Leaves us a d) (x1 : Nat) (hs : unitsIn [.freeCtr, .otp]
    us = true := by refine unitsIn_trans ?_ ‹unitsIn _ _ = true›; decide) : Leaves us a (burnAhead d x1) := by
  unfold burnAhead
  try dsimp only
  repeat' (first | with_reducible assumption | (with_reducible refine unitsIn_trans ?_ hs; decide) | with_reducible apply leaves_draw | with_reducible apply leaves_ite | with_reducible apply leaves_ite_fst | with_reducible apply leaves_ite_snd | split | (simp only [leaves_mark]; (first | with_reducible refine leaves_mk ?_ ?_ ?_ ?_ ?_ ?_ ?_ ?_ ?_ ?_ ?_ ?_ ?_ ?_ ?_ ?_ ?_ ?_ ?_ ?_ ?_ ?_ ?_ ?_ ?_ ?_ ?_ ?_ ?_ ?_ ?_ ?_ | with_reducible refine leaves_mk' ?_ ?_ ?_ ?_ ?_ ?_ ?_ ?_ ?_ ?_ ?_ ?_ ?_ ?_ ?_ ?_ ?_ ?_ ?_ ?_ ?_ ?_ ?_ ?_ ?_ ?_ ?_ ?_ ?_ ?_ ?_ ?_); rotate_left; iterate 31 (first | exact fun hu => unitsIn_absurd hs hu rfl | exact fun _ => rfl)))

theorem leaves_burnLc {us : List DevUnit} {a d : Dev} (h : Leaves us a d) (x1 : Nat) (x2 : List Byte) (hs : unitsIn
    [.freeCtr, .otp] us = true := by refine unitsIn_trans ?_ ‹unitsIn _ _ = true›; decide) : Leaves us a (burnLc d x1
    x2) := by
  unfold burnLc
  try dsimp only
  repeat' (first | with_reducible assumption | (with_reducible refine unitsIn_trans ?_ hs; decide) | with_reducible apply leaves_burnAhead | with_reducible apply leaves_ite | split | (simp only [leaves_mark]; (first | with_reducible refine leaves_mk ?_ ?_ ?_ ?_ ?_ ?_ ?_ ?_ ?_ ?_ ?_ ?_ ?_ ?_ ?_ ?_ ?_ ?_ ?_ ?_ ?_ ?_ ?_ ?_ ?_ ?_ ?_ ?_ ?_ ?_ ?_ ?_ | with_reducible refine leaves_mk' ?_ ?_ ?_ ?_ ?_ ?_ ?_ ?_ ?_ ?_ ?_ ?_ ?_ ?_ ?_ ?_ ?_ ?_ ?_ ?_ ?_ ?_ ?_ ?_ ?_ ?_ ?_ ?_ ?_ ?_ ?_ ?_); rotate_left; iterate 31 (first | exact fun hu => unitsIn_absurd hs hu rfl | exact fun _ => rfl)))

theorem leaves_burnPart {us : List DevUnit} {a d : Dev} (h : Leaves us a d) (x1 : Nat) (x2 : List Byte) (hs : unitsIn
    [.freeCtr, .otp] us = true := by refine unitsIn_trans ?_ ‹unitsIn _ _ = true›; decide) : Leaves us a (burnPart d
    x1 x2) := by
  unfold burnPart
  try dsimp only
  repeat' (first | with_reducible assumption | (with_reducible refine unitsIn_trans ?_ hs; decide) | with_reducible apply leaves_draw | with_reducible apply leaves_burnAhead | with_reducible apply leaves_burnLc | with_reducible apply leaves_ite | with_reducible apply leaves_ite_fst | with_reducible apply leaves_ite_snd | split)

theorem leaves_lcAdvance {us : List DevUnit} {a d : Dev} (h : Leaves us a d) (x1 : Hdr) (x2 : List Byte) (x3 : Bool)
    (hs : unitsIn [.out, .freeCtr, .cnt, .ev, .host, .otp, .links] us = true :=
    by refine unitsIn_trans ?_ ‹unitsIn _ _ = true›; decide) : Leaves us a (lcAdvance d x1 x2 x3) := by
  unfold lcAdvance
  try dsimp only
  repeat' (first | with_reducible assumption | (with_reducible refine unitsIn_trans ?_ hs; decide) | intro _ | with_reducible apply leaves_command | with_reducible apply leaves_complete | with_reducible apply leaves_burnPart | with_reducible apply leaves_burnLc | with_reducible apply leaves_each | with_reducible apply leaves_ite | split)

theorem leaves_otpHash {us : List DevUnit} {a d : Dev} (h : Leaves us a d) (x1 : Hdr) (x2 : List Byte) (x3 : Bool) (hs
    : unitsIn [.out, .freeCtr, .cnt, .ev, .host, .otp, .links] us = true :=
    by refine unitsIn_trans ?_ ‹unitsIn _ _ = true›; decide) : Leaves us a (otpHash d x1 x2 x3) := by
  unfold otpHash
  try dsimp only
  repeat' (first | with_reducible assumption | (with_reducible refine unitsIn_trans ?_ hs; decide) | intro _ | with_reducible apply leaves_command | with_reducible apply leaves_complete | with_reducible apply leaves_draw | with_reducible apply leaves_ite | with_reducible apply leaves_ite_fst | with_reducible apply leaves_ite_snd | split | (simp only [leaves_mark]; (first | with_reducible refine leaves_mk ?_ ?_ ?_ ?_ ?_ ?_ ?_ ?_ ?_ ?_ ?_ ?_ ?_ ?_ ?_ ?_ ?_ ?_ ?_ ?_ ?_ ?_ ?_ ?_ ?_ ?_ ?_ ?_ ?_ ?_ ?_ ?_ | with_reducible refine leaves_mk' ?_ ?_ ?_ ?_ ?_ ?_ ?_ ?_ ?_ ?_ ?_ ?_ ?_ ?_ ?_ ?_ ?_ ?_ ?_ ?_ ?_ ?_ ?_ ?_ ?_ ?_ ?_ ?_ ?_ ?_ ?_ ?_); rotate_left; iterate 31 (first | exact fun hu => unitsIn_absurd hs hu rfl | exact fun _ => rfl)))

theorem leaves_rollbackCommit {us : List DevUnit} {a d : Dev} (h : Leaves us a d) (x1 : Hdr) (x2 : List Byte) (hs :
    unitsIn [.out, .cnt, .ev, .host, .otp, .links] us = true :=
    by refine unitsIn_trans ?_ ‹unitsIn _ _ = true›; decide) : Leaves us a (rollbackCommit d x1 x2) := by
  unfold rollbackCommit
  try dsimp only
  repeat' (first | with_reducible assumption | (with_reducible refine unitsIn_trans ?_ hs; decide) | intro _ | with_reducible apply leaves_command | with_reducible apply leaves_complete | with_reducible apply leaves_ite | split | (simp only [leaves_mark]; (first | with_reducible refine leaves_mk ?_ ?_ ?_ ?_ ?_ ?_ ?_ ?_ ?_ ?_ ?_ ?_ ?_ ?_ ?_ ?_ ?_ ?_ ?_ ?_ ?_ ?_ ?_ ?_ ?_ ?_ ?_ ?_ ?_ ?_ ?_ ?_ | with_reducible refine leaves_mk' ?_ ?_ ?_ ?_ ?_ ?_ ?_ ?_ ?_ ?_ ?_ ?_ ?_ ?_ ?_ ?_ ?_ ?_ ?_ ?_ ?_ ?_ ?_ ?_ ?_ ?_ ?_ ?_ ?_ ?_ ?_ ?_); rotate_left; iterate 31 (first | exact fun hu => unitsIn_absurd hs hu rfl | exact fun _ => rfl)))

theorem leaves_keySetApply {us : List DevUnit} {a d : Dev} (h : Leaves us a d) (x1 : Cmd) (hs : unitsIn [.stg, .host,
    .sec, .links] us = true := by refine unitsIn_trans ?_ ‹unitsIn _ _ = true›; decide) : Leaves us a (keySetApply d
    x1) := by
  unfold keySetApply
  try dsimp only
  repeat' (first | with_reducible assumption | (with_reducible refine unitsIn_trans ?_ hs; decide) | with_reducible apply leaves_modKey | with_reducible apply leaves_completeStaged | with_reducible apply leaves_invalidate | with_reducible apply leaves_holdCmd | with_reducible apply leaves_ite | split | (simp only [leaves_mark]; (first | with_reducible refine leaves_mk ?_ ?_ ?_ ?_ ?_ ?_ ?_ ?_ ?_ ?_ ?_ ?_ ?_ ?_ ?_ ?_ ?_ ?_ ?_ ?_ ?_ ?_ ?_ ?_ ?_ ?_ ?_ ?_ ?_ ?_ ?_ ?_ | with_reducible refine leaves_mk' ?_ ?_ ?_ ?_ ?_ ?_ ?_ ?_ ?_ ?_ ?_ ?_ ?_ ?_ ?_ ?_ ?_ ?_ ?_ ?_ ?_ ?_ ?_ ?_ ?_ ?_ ?_ ?_ ?_ ?_ ?_ ?_); rotate_left; iterate 31 (first | exact fun hu => unitsIn_absurd hs hu rfl | exact fun _ => rfl)))

theorem leaves_keyReload {us : List DevUnit} {a d : Dev} (h : Leaves us a d) (x1 : Nat) (hs : unitsIn [.cnt, .ev,
    .sec] us = true := by refine unitsIn_trans ?_ ‹unitsIn _ _ = true›; decide) : Leaves us a (keyReload d x1) := by
  unfold keyReload
  try dsimp only
  repeat' (first | with_reducible assumption | (with_reducible refine unitsIn_trans ?_ hs; decide) | with_reducible apply leaves_bump | with_reducible apply leaves_modKey | with_reducible apply leaves_ite | split | (simp only [leaves_mark]; (first | with_reducible refine leaves_mk ?_ ?_ ?_ ?_ ?_ ?_ ?_ ?_ ?_ ?_ ?_ ?_ ?_ ?_ ?_ ?_ ?_ ?_ ?_ ?_ ?_ ?_ ?_ ?_ ?_ ?_ ?_ ?_ ?_ ?_ ?_ ?_ | with_reducible refine leaves_mk' ?_ ?_ ?_ ?_ ?_ ?_ ?_ ?_ ?_ ?_ ?_ ?_ ?_ ?_ ?_ ?_ ?_ ?_ ?_ ?_ ?_ ?_ ?_ ?_ ?_ ?_ ?_ ?_ ?_ ?_ ?_ ?_); rotate_left; iterate 31 (first | exact fun hu => unitsIn_absurd hs hu rfl | exact fun _ => rfl)))

end Dev

end Sys2Proof.Machine
end

