-- ==== Sys2Proof/Laws/SMap.lean ====
section
/-! SUPPORT. The laws of the sparse maps: a read after a write, and that every operation keeps the canonical form. -/

-- One proof at a time: the package compiles as one text, and proofs elaborated side by side each take a thread's stack.
set_option Elab.async false

namespace Sys2Proof.Machine

namespace SMap

variable {α : Type}

@[simp] theorem find_put_self (m : SMap α) (i : Nat) (v : α) : (m.put i v).find i = some v := by
  induction m with
  | nil => simp [put, find]
  | cons p t ih =>
    unfold put
    split
    · simp [find]
    · split
      · simp [find]
      · have : ¬ p.1 = i := fun h => by simp_all
        simp [find, this, ih]

theorem find_put_ne (m : SMap α) {i j : Nat} (v : α) (h : j ≠ i) : (m.put i v).find j = m.find j := by
  induction m with
  | nil => simp [put, find, Ne.symm h]
  | cons p t ih =>
    unfold put
    split
    · simp [find, Ne.symm h]
    · split
      · rename_i h1 h2
        simp [find, Ne.symm h, ← h2]
      · simp [find, ih]

@[simp] theorem find_del_self (m : SMap α) (i : Nat) : (m.del i).find i = none := by
  induction m with
  | nil => rfl
  | cons p t ih =>
    unfold del
    split
    · exact ih
    · rename_i h
      simp [find, h, ih]

theorem find_del_ne (m : SMap α) {i j : Nat} (h : j ≠ i) : (m.del i).find j = m.find j := by
  induction m with
  | nil => rfl
  | cons p t ih =>
    unfold del
    split
    · rename_i h1
      simp [find, h1, Ne.symm h, ih]
    · simp [find, ih]

theorem get_put_self (m : SMap α) (d : α) (i : Nat) (v : α) : (m.put i v).get d i = v := by simp [get]
theorem get_put_ne (m : SMap α) (d : α) {i j : Nat} (v : α) (h : j ≠ i) : (m.put i v).get d j = m.get d j := by
  simp [get, find_put_ne m v h]

variable [DecidableEq α]

@[simp] theorem get_set_self (m : SMap α) (d : α) (i : Nat) (v : α) : (m.set d i v).get d i = v := by
  unfold set get
  split <;> simp_all

theorem get_set_ne (m : SMap α) (d : α) {i j : Nat} (v : α) (h : j ≠ i) : (m.set d i v).get d j = m.get d j := by
  unfold set get
  split
  · rw [find_del_ne m h]
  · rw [find_put_ne m v h]

theorem find_set_ne (m : SMap α) (d : α) {i j : Nat} (v : α) (h : j ≠ i) : (m.set d i v).find j = m.find j := by
  unfold set
  split
  · rw [find_del_ne m h]
  · rw [find_put_ne m v h]

/-- Read after write at any key. -/
theorem get_set (m : SMap α) (d : α) (i j : Nat) (v : α) : (m.set d i v).get d j = if j = i then v else m.get d j := by
  split
  · subst_vars
    simp
  · exact get_set_ne m d v ‹_›

@[simp] theorem get_upd_self (m : SMap α) (d : α) (i : Nat) (f : α → α) : (m.upd d i f).get d i = f (m.get d i) := by
  simp [upd]

theorem get_upd_ne (m : SMap α) (d : α) {i j : Nat} (f : α → α) (h : j ≠ i) : (m.upd d i f).get d j = m.get d j :=
  get_set_ne m d _ h

/-! ### The canonical form -/

/-- Every key of the map is above i. -/
def above (i : Nat) (m : SMap α) : Prop := ∀ p ∈ m, i < p.1

omit [DecidableEq α] in
theorem rising_cons (p : Nat × α) (t : SMap α) : rising (p :: t) = true ↔ above p.1 t ∧ rising t = true := by
  induction t generalizing p with
  | nil => simp [rising, above]
  | cons q t ih =>
    simp only [rising, Bool.and_eq_true, decide_eq_true_eq]
    constructor
    · intro h
      refine ⟨fun x hx => ?_, h.2⟩
      rcases List.mem_cons.1 hx with rfl | hx
      · exact h.1
      · exact Nat.lt_trans h.1 (((ih q).1 h.2).1 x hx)
    · intro h
      exact ⟨h.1 q (List.mem_cons_self ..), h.2⟩

omit [DecidableEq α] in
theorem above_del {i : Nat} {m : SMap α} (j : Nat) (h : above i m) : above i (m.del j) := by
  induction m with
  | nil => exact h
  | cons p t ih =>
    have ht : above i t := fun x hx => h x (List.mem_cons_of_mem _ hx)
    unfold del
    split
    · exact ih ht
    · intro x hx
      rcases List.mem_cons.1 hx with rfl | hx
      · exact h _ (List.mem_cons_self ..)
      · exact ih ht x hx

omit [DecidableEq α] in
theorem above_put {i j : Nat} {m : SMap α} (v : α) (h : above i m) (hj : i < j) : above i (m.put j v) := by
  induction m with
  | nil => exact fun x hx => by simp_all [put]
  | cons p t ih =>
    have ht : above i t := fun x hx => h x (List.mem_cons_of_mem _ hx)
    unfold put
    split
    · intro x hx
      rcases List.mem_cons.1 hx with rfl | hx
      · exact hj
      · exact h x hx
    · split
      · intro x hx
        rcases List.mem_cons.1 hx with rfl | hx
        · exact hj
        · exact ht x hx
      · intro x hx
        rcases List.mem_cons.1 hx with rfl | hx
        · exact h _ (List.mem_cons_self ..)
        · exact ih ht x hx

omit [DecidableEq α] in
theorem rising_del {m : SMap α} (j : Nat) (h : rising m = true) : rising (m.del j) = true := by
  induction m with
  | nil => exact h
  | cons p t ih =>
    have hp := (rising_cons p t).1 h
    unfold del
    split
    · exact ih hp.2
    · exact (rising_cons _ _).2 ⟨above_del j hp.1, ih hp.2⟩

omit [DecidableEq α] in
theorem rising_put {m : SMap α} (j : Nat) (v : α) (h : rising m = true) : rising (m.put j v) = true := by
  induction m with
  | nil => rfl
  | cons p t ih =>
    have hp := (rising_cons p t).1 h
    unfold put
    split
    · refine (rising_cons _ _).2 ⟨fun x hx => ?_, h⟩
      rcases List.mem_cons.1 hx with rfl | hx
      · assumption
      · exact Nat.lt_trans ‹_› (hp.1 x hx)
    · split
      · rename_i e
        exact (rising_cons _ _).2 ⟨fun x hx => by simpa [e] using hp.1 x hx, hp.2⟩
      · exact (rising_cons _ _).2 ⟨above_put v hp.1 (by omega), ih hp.2⟩

omit [DecidableEq α] in
theorem mem_del {m : SMap α} {j : Nat} {p : Nat × α} (h : p ∈ m.del j) : p ∈ m := by
  induction m with
  | nil => exact h
  | cons q t ih =>
    unfold del at h
    split at h
    · exact List.mem_cons_of_mem _ (ih h)
    · rcases List.mem_cons.1 h with rfl | h
      · exact List.mem_cons_self ..
      · exact List.mem_cons_of_mem _ (ih h)

omit [DecidableEq α] in
theorem mem_put {m : SMap α} {j : Nat} {v : α} {p : Nat × α} (h : p ∈ m.put j v) : p = (j, v) ∨ p ∈ m := by
  induction m with
  | nil => exact .inl (by simpa [put] using h)
  | cons q t ih =>
    unfold put at h
    split at h
    · rcases List.mem_cons.1 h with h | h
      · exact .inl h
      · exact .inr h
    · split at h
      · rcases List.mem_cons.1 h with h | h
        · exact .inl h
        · exact .inr (List.mem_cons_of_mem _ h)
      · rcases List.mem_cons.1 h with rfl | h
        · exact .inr (List.mem_cons_self ..)
        · exact (ih h).imp id (List.mem_cons_of_mem _)

/-- Every write keeps the canonical form. -/
theorem wf_set {m : SMap α} {d : α} (i : Nat) (v : α) (h : m.wf d = true) : (m.set d i v).wf d = true := by
  simp only [wf, Bool.and_eq_true, List.all_eq_true] at h ⊢
  unfold set
  split
  · exact ⟨rising_del i h.1, fun p hp => h.2 p (mem_del hp)⟩
  · refine ⟨rising_put i v h.1, fun p hp => ?_⟩
    rcases mem_put hp with rfl | hp
    · simpa using ‹¬ v = d›
    · exact h.2 p hp

theorem wf_upd {m : SMap α} {d : α} (i : Nat) (f : α → α) (h : m.wf d = true) : (m.upd d i f).wf d = true :=
  wf_set i _ h

end SMap

end Sys2Proof.Machine
end

