-- ==== Sys2Proof/Laws/Memory.lean ====
section
/-! SUPPORT. A write keeps a memory in its canonical form. -/

-- One proof at a time: the package compiles as one text, and proofs elaborated side by side each take a thread's stack.
set_option Elab.async false

namespace Sys2Proof.Machine

/-- A write keeps the canonical form. -/
theorem wf_memWrite {m : SMap Byte} (a : Nat) (b : List Byte) (h : Memory.wf m = true) :
    Memory.wf (memWrite m a b) = true := by
  unfold memWrite
  generalize b.zipIdx = l
  induction l generalizing m with
  | nil => exact h
  | cons x t ih => exact ih (SMap.wf_set _ _ h)

/-- No memory lists anything at reset. -/
theorem reset_memory_wf :
    Memory.wf State.reset.dev.disp.sram = true ∧ Memory.wf State.reset.dev.disp.dram = true := by decide

end Sys2Proof.Machine
end

