-- ==== Sys2Proof/Laws/Units.lean ====
section
/-! SUPPORT. Reading a unit that was just written, and any other of its kind. -/

-- One proof at a time: the package compiles as one text, and proofs elaborated side by side each take a thread's stack.
set_option Elab.async false

namespace Sys2Proof.Machine

namespace Dev

@[simp] theorem port_setPort (d : Dev) (i : Nat) (x : Port) : (d.setPort i x).port i = x := SMap.get_set_self ..
theorem port_setPort_ne (d : Dev) {i j : Nat} (x : Port) (h : j ≠ i) : (d.setPort i x).port j = d.port j := SMap.get_set_ne _ _ _ h
@[simp] theorem port_modPort (d : Dev) (i : Nat) (f : Port → Port) : (d.modPort i f).port i = f (d.port i) := SMap.get_set_self ..
theorem port_modPort_ne (d : Dev) {i j : Nat} (f : Port → Port) (h : j ≠ i) : (d.modPort i f).port j = d.port j :=
  SMap.get_set_ne _ _ _ h

@[simp] theorem lane_setLane (d : Dev) (i : Nat) (x : Lane) : (d.setLane i x).lane i = x := SMap.get_set_self ..
theorem lane_setLane_ne (d : Dev) {i j : Nat} (x : Lane) (h : j ≠ i) : (d.setLane i x).lane j = d.lane j := SMap.get_set_ne _ _ _ h
@[simp] theorem lane_modLane (d : Dev) (i : Nat) (f : Lane → Lane) : (d.modLane i f).lane i = f (d.lane i) := SMap.get_set_self ..
theorem lane_modLane_ne (d : Dev) {i j : Nat} (f : Lane → Lane) (h : j ≠ i) : (d.modLane i f).lane j = d.lane j :=
  SMap.get_set_ne _ _ _ h

@[simp] theorem carrier_setCarrier (d : Dev) (i : Nat) (x : Carrier) : (d.setCarrier i x).carrier i = x := SMap.get_set_self ..
theorem carrier_setCarrier_ne (d : Dev) {i j : Nat} (x : Carrier) (h : j ≠ i) : (d.setCarrier i x).carrier j = d.carrier j := SMap.get_set_ne _ _ _ h
@[simp] theorem carrier_modCarrier (d : Dev) (i : Nat) (f : Carrier → Carrier) : (d.modCarrier i f).carrier i = f (d.carrier i) := SMap.get_set_self ..
theorem carrier_modCarrier_ne (d : Dev) {i j : Nat} (f : Carrier → Carrier) (h : j ≠ i) : (d.modCarrier i f).carrier j = d.carrier j :=
  SMap.get_set_ne _ _ _ h

@[simp] theorem seq_setSeq (d : Dev) (i : Nat) (x : Seq) : (d.setSeq i x).seq i = x := SMap.get_set_self ..
theorem seq_setSeq_ne (d : Dev) {i j : Nat} (x : Seq) (h : j ≠ i) : (d.setSeq i x).seq j = d.seq j := SMap.get_set_ne _ _ _ h
@[simp] theorem seq_modSeq (d : Dev) (i : Nat) (f : Seq → Seq) : (d.modSeq i f).seq i = f (d.seq i) := SMap.get_set_self ..
theorem seq_modSeq_ne (d : Dev) {i j : Nat} (f : Seq → Seq) (h : j ≠ i) : (d.modSeq i f).seq j = d.seq j :=
  SMap.get_set_ne _ _ _ h

@[simp] theorem pan_setPan (d : Dev) (i : Nat) (x : Pan) : (d.setPan i x).pan i = x := SMap.get_set_self ..
theorem pan_setPan_ne (d : Dev) {i j : Nat} (x : Pan) (h : j ≠ i) : (d.setPan i x).pan j = d.pan j := SMap.get_set_ne _ _ _ h
@[simp] theorem pan_modPan (d : Dev) (i : Nat) (f : Pan → Pan) : (d.modPan i f).pan i = f (d.pan i) := SMap.get_set_self ..
theorem pan_modPan_ne (d : Dev) {i j : Nat} (f : Pan → Pan) (h : j ≠ i) : (d.modPan i f).pan j = d.pan j :=
  SMap.get_set_ne _ _ _ h

@[simp] theorem ring_setRing (d : Dev) (i : Nat) (x : Ring) : (d.setRing i x).ring i = x := SMap.get_set_self ..
theorem ring_setRing_ne (d : Dev) {i j : Nat} (x : Ring) (h : j ≠ i) : (d.setRing i x).ring j = d.ring j := SMap.get_set_ne _ _ _ h

@[simp] theorem shared_setShared (d : Dev) (i : Nat) (x : Shared) : (d.setShared i x).shared i = x := SMap.get_set_self ..
theorem shared_setShared_ne (d : Dev) {i j : Nat} (x : Shared) (h : j ≠ i) : (d.setShared i x).shared j = d.shared j := SMap.get_set_ne _ _ _ h

@[simp] theorem queue_setQueue (d : Dev) (i : Nat) (x : List QItem) : (d.setQueue i x).queue i = x := SMap.get_set_self ..
theorem queue_setQueue_ne (d : Dev) {i j : Nat} (x : List QItem) (h : j ≠ i) : (d.setQueue i x).queue j = d.queue j := SMap.get_set_ne _ _ _ h

@[simp] theorem pipeSt_setPipe (d : Dev) (i : Nat) (x : PipeSt) : (d.setPipe i x).pipeSt i = x := SMap.get_set_self ..
theorem pipeSt_setPipe_ne (d : Dev) {i j : Nat} (x : PipeSt) (h : j ≠ i) : (d.setPipe i x).pipeSt j = d.pipeSt j := SMap.get_set_ne _ _ _ h

@[simp] theorem qlp_modQl (d : Dev) (i : Nat) (f : QlPort → QlPort) : (d.modQl i f).qlp i = f (d.qlp i) := SMap.get_set_self ..
theorem qlp_modQl_ne (d : Dev) {i j : Nat} (f : QlPort → QlPort) (h : j ≠ i) : (d.modQl i f).qlp j = d.qlp j :=
  SMap.get_set_ne _ _ _ h

@[simp] theorem eth_modEth (d : Dev) (i : Nat) (f : EthPort → EthPort) : (d.modEth i f).eth i = f (d.eth i) := SMap.get_set_self ..
theorem eth_modEth_ne (d : Dev) {i j : Nat} (f : EthPort → EthPort) (h : j ≠ i) : (d.modEth i f).eth j = d.eth j :=
  SMap.get_set_ne _ _ _ h

@[simp] theorem key_modKey (d : Dev) (i : Nat) (f : KeySlot → KeySlot) : (d.modKey i f).key i = f (d.key i) := SMap.get_set_self ..
theorem key_modKey_ne (d : Dev) {i j : Nat} (f : KeySlot → KeySlot) (h : j ≠ i) : (d.modKey i f).key j = d.key j :=
  SMap.get_set_ne _ _ _ h

/-! ### Counters -/

theorem count_raiseIn_ne (d : Dev) (c : Counter) (o : Option Domain) (e : EvCode) (x : List Byte)
    (h : c.off ≠ Cnt.EVT_LOST.off) : (d.raiseIn o e x).count c = d.count c := by
  unfold raiseIn count
  dsimp only
  split
  · rfl
  · split
    · rfl
    · exact SMap.get_set_ne _ _ _ h

/-- Raising an event changes no counter but EVT_LOST, and never lowers that one or takes it past its maximum. -/
theorem count_raiseIn_max (d : Dev) (c : Counter) (o : Option Domain) (e : EvCode) (x : List Byte)
    (h : d.count c = 0xFFFFFFFF) : (d.raiseIn o e x).count c = 0xFFFFFFFF := by
  by_cases hc : c.off = Cnt.EVT_LOST.off
  · unfold raiseIn count at *
    dsimp only
    split
    · exact h
    · split
      · exact h
      · rw [hc] at h ⊢
        rw [SMap.get_set_self, h]
        rfl
  · rw [count_raiseIn_ne _ _ _ _ _ hc, h]

/-- A count kept for the snapshot of an ended epoch leaves the live counters alone (R20). -/
@[simp] theorem count_countLate (d : Dev) (off n : Nat) (c : Counter) : (d.countLate off n).count c = d.count c := by
  unfold countLate; split <;> rfl

/-- An event counter goes up by n and sticks at its maximum (R591). -/
theorem count_bump (d : Dev) (c : Counter) (n : Nat) (hc : c.wide = false) :
    (d.bump c n).count c = min (d.count c + n) 0xFFFFFFFF := by
  have hk := count_countLate d c.off n c
  unfold bump
  generalize d.countLate c.off n = y at *
  simp only [hc, Bool.false_eq_true, if_false, ← hk]
  split
  · rename_i h
    rw [count_raiseIn_max]
    · omega
    · show SMap.get (SMap.set _ 0 c.off _) 0 c.off = _
      rw [SMap.get_set_self]
      omega
  · show SMap.get (SMap.set _ 0 c.off _) 0 c.off = _
    rw [SMap.get_set_self]

/-- A statistics counter goes up by n modulo 2^64 (R591). -/
theorem count_bump_wide (d : Dev) (c : Counter) (n : Nat) (hc : c.wide = true) :
    (d.bump c n).count c = (d.count c + n) % 2 ^ 64 := by
  have hk := count_countLate d c.off n c
  unfold bump
  generalize d.countLate c.off n = y at *
  simp only [hc, if_true, ← hk]
  show SMap.get (SMap.set _ 0 c.off _) 0 c.off = _
  rw [SMap.get_set_self]

/-- No counter but the one that advances changes, unless an alarm loses its event. -/
theorem count_bump_ne (d : Dev) (c e : Counter) (n : Nat) (h : e.off ≠ c.off) (hl : e.off ≠ Cnt.EVT_LOST.off) :
    (d.bump c n).count e = d.count e := by
  rw [← count_countLate d c.off n e]
  unfold bump
  generalize d.countLate c.off n = y
  dsimp only
  split
  · exact SMap.get_set_ne _ _ _ h
  · split
    · rw [count_raiseIn_ne _ _ _ _ _ hl]
      exact SMap.get_set_ne _ _ _ h
    · exact SMap.get_set_ne _ _ _ h

end Dev

end Sys2Proof.Machine
end

