-- ==== Sys2Proof/Tests/Slice0.lean ====
section
/-! SUPPORT. Tests: each check of WellFormed refuses an ill-formed command; every statement with hypotheses has a state and
operands that meet them, for each of its clauses; and a few commands do what the spec's own examples and tables say. -/

-- One proof at a time: the package compiles as one text, and proofs elaborated side by side each take a thread's stack.
set_option Elab.async false

namespace Sys2Proof.Tests

open Sys2Proof Sys2Proof.Machine

/-- A state after reset with some units changed, and no command waiting. -/
def wit (f : Dev → Dev) : State := { dev := f {}, pending := [] }

/-- What a witness state meets. -/
abbrev On (s : State) (p : State → Prop) : Prop := p s

/-- A command of a service core in the secure world. -/
def hdr : Hdr := ⟨.core .secure, 1, false, 0⟩

/-- A command from the console. -/
def hdrCon : Hdr := ⟨.console, 1, false, 0⟩

/-- A payload of zeros with some octets set. -/
def pay (xs : List (Nat × Nat)) : List Byte :=
  (List.range 64).map (fun i => BitVec.ofNat 8 (((xs.find? (fun y => y.1 == i)).map Prod.snd).getD 0))

/-- A register in force. -/
def reg (off v : Nat) : Cfg := [(off, BitVec.ofNat 32 v)]

def sp (x : Seq) : Dev := { seqs := [(0, x)] }
def po (x : Port) : Dev := { ports := [(0, x)] }
def la (x : Lane) : Dev := { lanes := [(0, x)] }
def ca (x : Carrier) : Dev := { txc := [(0, x)] }
def wit0 (d : Dev) : State := { dev := d, pending := [] }

/-! ## WellFormed refuses -/

theorem test_wf_short_payload : Instr.wf (.cmdCommit hdr []) = false := by decide
theorem test_wf_whole_payload : Instr.wf (.cmdCommit hdr (pay [])) = true := by decide
theorem test_wf_odd_register_offset : Instr.wf (.registerWrite .host 0x000002#24 0) = false := by decide
theorem test_wf_empty_descriptor :
    Instr.wf (.txRingFetch 0 [⟨0, 0, true, true, false, false, 0, 0, 0⟩] []) = false := by decide
theorem test_wf_packet_past_its_buffers :
    Instr.wf (.txRingFetch 0 [⟨0, 1, true, true, false, false, 0, 0, 0⟩] [0, 0]) = false := by decide
theorem test_wf_small_receive_buffer : Instr.wf (.rxDmaDeliver 0 [192]) = false := by decide
theorem test_wf_ragged_receive_buffer : Instr.wf (.rxDmaDeliver 0 [257]) = false := by decide
theorem test_wf_listed_opcode_is_not_unknown : Instr.wf (.cmdUnknownOpcode hdr 0x0001#16) = false := by decide
theorem test_wf_long_psdu : Instr.wf (.psduEnd 0 (List.replicate 2048 0#8)) = false := by decide +kernel
theorem test_wf_longest_psdu : Instr.wf (.psduEnd 0 (List.replicate 2047 0#8)) = true := by decide +kernel

/-! ## Witnesses -/

theorem test_witness_IdleStepIsOneClock :
    On (wit id) (fun s => s.pending = [] ∧ s.fresh.heldReset = false) ∧
    On (wit fun d => { d with elec := { d.elec with sysLow := true } })
      (fun s => s.pending = [] ∧ s.fresh.heldReset = true) ∧
    On (wit0 { ports := [(0, { femLeadAt := some 4 }), (3, { femLeadAt := some 5 })] })
      (fun s => s.fresh.heldReset = false ∧ (s.dev.port 0).femLeadAt = some 4 ∧ 4 ≤ s.dev.time.up + 4 ∧
        (s.dev.port 3).femLeadAt = some 5 ∧ s.dev.time.up + 4 < 5) ∧
    On (wit0 { ports := [(0, { denied := [(2, 5)], exchAt := [(2, 5)] })] })
      (fun s => ∀ p, p < 4 → (∀ y ∈ (s.dev.port p).denied, s.dev.time.up + 4 < y.2) ∧
        ∀ y ∈ (s.dev.port p).exchAt, s.dev.time.up + 4 < y.2) := by decide

theorem test_witness_EveryStepKeepsLogAndStagingWithinBounds :
    ∃ t, State.reset.dev.vio.fits ∧ State.reset.dev.ev.fits ∧
      step { State.reset with pending := [.clockLoss] } = .next t :=
  ⟨_, ⟨by decide, by decide⟩, by unfold EvState.fits; decide, rfl⟩

theorem test_witness_FatalFaultStaysUntilReset :
    (∃ s t : State, exec (.cmdNop hdr) s = .next t ∧ s.dev.flt.fatal = true) ∧
    (∃ s t : State, s.pending = [] ∧ step s = .next t ∧ s.dev.flt.fatal = true) :=
  ⟨⟨wit fun d => { d with flt := ⟨true, 4⟩ }, _, rfl, rfl⟩, ⟨wit fun d => { d with flt := ⟨true, 4⟩ }, _, rfl, rfl, rfl⟩⟩

theorem test_witness_OneTimeProgrammableStorageOnlyGrows :
    ∃ t, exec (.cmdLcAdvance hdr (pay []) true) State.reset = .next t := ⟨_, rfl⟩

theorem test_witness_EndOfResetBootsTheDevice :
    On (wit fun d => { d with modes := { d.modes with inReset := true }, elec := { d.elec with sysLow := true } })
      (fun s => s.dev.elec.booted = false ∧ s.dev.elec.bootNone = false ∧ s.dev.elec.ddrFail = false ∧
        s.dev.elec.testEn = false ∧ s.dev.elec.heldBoot = none ∧ s.dev.elec.supplyLow = false ∧
        s.dev.elec.thermalHeld = false) ∧
    On (wit fun d => { d with elec := { d.elec with supplyLow := true } })
      (fun s => s.dev.elec.booted = false ∧ s.dev.elec.bootNone = false ∧ s.dev.elec.ddrFail = false ∧
        s.dev.elec.testEn = false ∧ s.dev.elec.heldBoot = none ∧ s.dev.elec.supplyLow = true ∧ s.dev.elec.sysLow = false ∧
        s.dev.elec.thermalHeld = false) ∧
    On (wit fun d => { d with elec := { d.elec with thermalHeld := true } })
      (fun s => s.dev.elec.booted = false ∧ s.dev.elec.bootNone = false ∧ s.dev.elec.ddrFail = false ∧
        s.dev.elec.testEn = false ∧ s.dev.elec.heldBoot = none ∧ s.dev.elec.thermalHeld = true ∧ s.dev.elec.sysLow = false ∧
        s.dev.elec.supplyLow = false) ∧
    On (wit fun d => { d with elec := { d.elec with sysLow := true, thermalHeld := true, supplyLow := true } })
      (fun s => s.dev.elec.supplyLow = true ∧ s.dev.elec.thermalHeld = true ∧ s.dev.elec.sysLow = true) ∧
    (∀ e ∈ [({ booted := true, supplyLow := true, thermalHeld := true } : Elec), { bootNone := true }, { ddrFail := true },
        { testEn := true }, { heldBoot := some ⟨0, false, false, false, 0, 0, false, false, []⟩ }],
      e.booted = true ∨ e.bootNone = true ∨ e.ddrFail = true ∨ e.testEn = true ∨ e.heldBoot.isSome = true) ∧
    On (wit id) (fun s => s.dev.elec.supplyLow = false ∧ s.dev.elec.thermalHeld = false) := by decide

theorem test_witness_FatalCausesSetFatalAndReleaseOwn :
    On (wit id) (fun s => s.dev.flt.fatal = false ∧ CrossItem.strobe ≠ .frame) ∧
    On (wit fun d => { d with flt := ⟨true, 1⟩ }) (fun s => s.dev.flt.fatal = true ∧ CrossItem.lookupResult ≠ .frame) := by
  decide

theorem test_witness_ScrubAndCorrectableErrorsAreTransparent :
    (wit id).dev.count Cnt.ECC_CE < 0xFFFFFFFF ∧
      ∃ t, exec (.eccCorrectable .nodeRow 0) (wit id) = .next t := ⟨by decide, _, rfl⟩

theorem test_witness_PcieResetsDisableEveryRing : (34 : Nat) < 35 ∧ (0 : Nat) ≠ (34 : Fin 35).val ∧
    On (wit id) (fun s => s.dev.host.rxWait = []) ∧
    On (wit0 { host := { rxWait := [(3, (5, 7))] } }) (fun s =>
      s.dev.host.rxWait.countP (fun x => 72 + 8 * (x.1 - 3) + x.2.2 == 79) = 1) := by decide

theorem test_witness_ControlModeIsDecidedOnce :
    On (wit fun d => { d with elec := { d.elec with booted := true } })
      (fun s => s.dev.elec.booted = true ∧ s.dev.modes.decided = false) ∧
    On (wit fun d => { d with elec := { d.elec with booted := true }, modes := { d.modes with decided := true } })
      (fun s => s.dev.elec.booted = true ∧ s.dev.modes.decided = true) ∧
    (LinkState.recovery true).inL0 = true ∧ (LinkState.recovery false).inL0 = false ∧
    On (wit id) (fun s => s.dev.elec.booted = false) := by decide

theorem test_witness_LostHostLinkMakesStandAloneDue :
    On (wit fun d => { d with modes := { d.modes with control := .hosted } })
      (fun s => s.dev.modes.control = .hosted ∧ s.dev.linkL0 = false) ∧
    On (wit id) (fun s => s.dev.modes.control ≠ .hosted) ∧
    On (wit fun d => { d with modes := { d.modes with control := .hosted, link := .l0 } })
      (fun s => s.dev.linkL0 = true) ∧
    On (wit fun d => { d with pair := { d.pair with bootWait := true } })
      (fun s => s.dev.pair.bootWait = true ∧ s.dev.pair.ownIn = false ∧ s.dev.flt.fatal = false) ∧
    On (wit fun d => { d with pair := { d.pair with bootWait := true, ownIn := true } }) (fun s => s.dev.pair.ownIn = true) ∧
    On (wit id) (fun s => s.dev.pair.bootWait = false) := by decide

theorem test_witness_OwnContentionClosesTheGate :
    On (wit fun d => { d with pair := { d.pair with ownOut := true } })
      (fun s => s.dev.pair.ownIn = false ∧ s.dev.pair.ownOut = true ∧ s.dev.pair.bootWait = false) ∧
    On (wit id) (fun s => s.dev.pair.ownIn = false ∧ s.dev.pair.ownOut = false ∧ s.dev.pair.bootWait = false) ∧
    On (wit fun d => { d with pair := { d.pair with bootWait := true } })
      (fun s => s.dev.pair.ownIn = false ∧ s.dev.pair.bootWait = true) ∧
    On (wit fun d => { d with pair := { d.pair with ownIn := true, ownOut := true } })
      (fun s => s.dev.pair.ownIn = true ∧ s.dev.pair.ownOut = true ∧ s.dev.flt.fatal = false) := by decide

/-- 64 octets with the frame check sequence that goes with them. -/
def frame64 (et : Nat) (good : Bool) : List Byte :=
  let b := List.replicate 12 0#8 ++ be 2 et ++ List.replicate 46 0#8
  b ++ le 4 (crc32 b + if good then 0 else 1)

def ethUp (x : EthPort) : Dev := { links := { eth := [(0, { x with link := true })] } }

theorem test_witness_EthernetPortsReceiveAndSend_receive :
    On (wit id) (fun s => (s.dev.eth 0).link = false) ∧
    On (wit0 (ethUp {})) (fun s => (s.dev.eth 0).link = true ∧
      (frame64 0x86DD false).drop 60 ≠ le 4 (crc32 ((frame64 0x86DD false).take 60)) ∧ ([] : List Byte).length < 4 ∧
      4 ≤ (le 4 (crc32 [])).length ∧ (le 4 (crc32 [])).length < 64 ∧
      (le 4 (crc32 [])).drop 0 = le 4 (crc32 ((le 4 (crc32 [])).take 0)) ∧
      64 ≤ (frame64 0x86DD true).length ∧ (frame64 0x86DD true).length ≤ clampN 64 9216 (s.dev.cfg.ETH_CFG_MAX_FRAME 0) ∧
      (frame64 0x86DD true).drop 60 = le 4 (crc32 ((frame64 0x86DD true).take 60)) ∧
      Dev.etherType ((frame64 0x86DD true).take 60) = 0x86DD ∧ s.dev.cfg.ETH_MACSEC_VALIDATE 0 < 2 ∧ s.dev.ptpOn 0 = false ∧
      (frame64 0x8808 true).drop 60 = le 4 (crc32 ((frame64 0x8808 true).take 60)) ∧
      Dev.etherType ((frame64 0x8808 true).take 60) = 0x8808) := by decide +kernel

theorem test_witness_EthernetPortsReceiveAndSend_send :
    On (wit id) (fun s => (s.dev.eth 0).wire = none ∧ (s.dev.eth 0).link = false ∧ s.dev.cfg.ETH_CFG_FLUSH_DOWN 0 ≠ 1) ∧
    On (wit0 (ethUp { busyUntil := 1 })) (fun s => (s.dev.eth 0).link = true ∧ s.dev.time.ns < (s.dev.eth 0).busyUntil) ∧
    On (wit0 (ethUp { ptpOut := [⟨0, 0, 0, 0, 0x7F, [], 0, 0⟩] })) (fun s => (s.dev.eth 0).link = true ∧
      (s.dev.eth 0).busyUntil ≤ s.dev.time.ns ∧ (s.dev.eth 0).ptpOut = ⟨0, 0, 0, 0, 0x7F, [], 0, 0⟩ :: []) ∧
    On (wit0 (ethUp {})) (fun s => (s.dev.eth 0).link = true ∧ (s.dev.eth 0).ptpOut = [] ∧ (s.dev.eth 0).lpi = false ∧
      (∀ k, k < 8 → s.dev.tqFits 0 k = false) ∧ ∀ c, c < 8 → s.dev.queue (32 + 8 * 0 + c) = []) ∧
    On (wit0 { ethUp { rate := 2, lpi := true, open_ := 0 } with tm := { queues := [(39, [.eth (List.replicate 14 0#8) false 0])] } })
      (fun s => (∀ k, k < 8 → s.dev.tqFits 0 k = false) ∧ (s.dev.eth 0).lpi = true ∧ (s.dev.tqHead 0 7).isSome = true ∧
        s.dev.eligible (32 + 8 * 0 + 7) = true) ∧
    On (wit0 { links := { eth := [(0, { wire := some ⟨0, ⟨1, 0, 0, 0, 0⟩, none⟩ })] } })
      (fun s => (s.dev.eth 0).wire = some ⟨0, ⟨1, 0, 0, 0, 0⟩, none⟩ ∧ 0 ≤ s.dev.time.ns ∧ (s.dev.eth 0).stamps.length < 64 ∧
        (s.dev.eth 0).link = false ∧ s.dev.cfg.ETH_CFG_FLUSH_DOWN 0 ≠ 1) := by decide +kernel

theorem test_witness_EthernetPortsReceiveAndSend_take :
    On (wit0 { ethUp { rate := 2 } with tm := { queues := [(39, [.eth (List.replicate 14 0#8) false 0])] } })
      (fun s => (s.dev.eth 0).link = true ∧ (s.dev.eth 0).busyUntil ≤ s.dev.time.ns ∧
        (∀ k, k < 8 → ∀ i ∈ (s.dev.queue (32 + 8 * 0 + k)).head?.toList,
          i.isBad = false ∧ s.dev.neverFits (32 + 8 * 0 + k) i = false) ∧
        (∀ k, k < 8 → 7 < k → s.dev.tqFits 0 k = false) ∧ s.dev.tqFits 0 7 = true ∧
        s.dev.tqHead 0 7 = some (List.replicate 14 0#8, false, 0) ∧ s.dev.cfg.ETH_MACSEC_TX_EN 0 ≠ 1) ∧
    On (wit0 { ethUp { rate := 2 } with tm := { queues := [(32, [.eth (List.replicate 14 0#8) false 0])] } })
      (fun s => (∀ k, k < 8 → 0 < k → s.dev.tqFits 0 k = false) ∧ s.dev.tqFits 0 0 = true) ∧
    On (wit0 (ethUp {})) (fun s => (s.dev.eth 0).gatesNext = none ∧ (s.dev.eth 0).gates.entries = []) ∧
    On (wit0 (ethUp { gatesNext := some ({}, 0) }))
      (fun s => (s.dev.eth 0).gatesNext = some ({}, 0) ∧
        s.dev.nextCycle {} 0 ≤ s.dev.time.ns) ∧
    On (wit0 (ethUp { gatesNext := some ({ cycle := 1000, entries := [(255, 1000)] }, 1) }))
      (fun s => s.dev.time.ns < s.dev.nextCycle { cycle := 1000, entries := [(255, 1000)] } 1) ∧
    On (wit0 { ethUp { rate := 3 } with cfg := reg (Reg.ETH_CFG 0) 0x2000000 })
      (fun s => (s.dev.eth 0).link = true ∧ (s.dev.eth 0).lpi = false ∧ s.dev.cfg.ETH_CFG_EEE 0 = 1 ∧ (s.dev.eth 0).rate ≠ 2 ∧
        (s.dev.eth 0).busyUntil ≤ s.dev.time.ns ∧ (s.dev.eth 0).ptpOut = [] ∧ ∀ c, c < 8 → s.dev.queue (32 + 8 * 0 + c) = []) ∧
    On (wit0 (ethUp { rate := 2 })) (fun s => s.dev.cfg.ETH_CFG_EEE 0 ≠ 1 ∧ (s.dev.eth 0).rate = 2) := by decide +kernel

theorem test_witness_EthernetPortsReceiveAndSend_stamps :
    On (wit id) (fun s => (s.dev.eth 0).stamps = [] ∧ (s.dev.eth 0).wire = none ∧ (s.dev.port 0).stamps = [] ∧
      s.dev.nextStamp 0 = none) ∧
    On (wit0 { modes := { control := .shelfMember } }) (fun s => s.dev.stampRoom = false) ∧
    On (wit0 { modes := { control := .hosted }, cfg := reg (Reg.HR_CTL 2) 0xA0000000
               links := { eth := [(0, { stamps := [⟨1, 0, 0, 0, 0⟩] })] }, ports := [(0, { stamps := [⟨1, 0, 0, 0, 0⟩] })] })
      (fun s => s.dev.modes.control = .hosted ∧ s.dev.stampRoom = true ∧ (s.dev.eth 0).stamps = [⟨1, 0, 0, 0, 0⟩] ∧
        (s.dev.eth 0).wire = none ∧ s.dev.nextStamp 0 = some ⟨1, 0, 0, 0, 0⟩) ∧
    On (wit0 { ports := [(0, { txSeq := 2, stamps := [⟨1, 0, 1, 0, 0⟩, ⟨2, 0, 0, 0, 0⟩] })] }) (fun s =>
      (⟨2, 0, 0, 0, 0⟩ : Stamp) ∈ (s.dev.port 0).stamps ∧ (∀ x ∈ (s.dev.port 0).stamps, x ≠ ⟨2, 0, 0, 0, 0⟩ →
        s.dev.stampAge 0 x.seq < s.dev.stampAge 0 0) ∧ s.dev.activeOn 0 = []) := by decide +kernel

/-- 16 octets of a ToD message with its check. -/
def todMsg (flags : Nat) : List Byte :=
  let b := [0x51#8, 0x54#8, 1#8, BitVec.ofNat 8 flags] ++ List.replicate 10 0#8
  b ++ le 2 (Dev.crcCcitt b)

/-- 64 octets that begin as a PTP message of a type. -/
def ptpMsg (type : Nat) : List Byte := BitVec.ofNat 8 type :: 2#8 :: List.replicate 62 0#8

theorem test_witness_TimeFollowsItsMeasurements_servo :
    On (wit id) (fun s => s.dev.time.meas = []) ∧
    On (wit0 { time := { ns := 5, meas := [.ptp 0 0] } }) (fun s => s.dev.time.meas = [.ptp 0 0] ∧ s.dev.time.acquired = false ∧
      Dev.measSecs (.ptp 0 0) = true) ∧
    On (wit0 { time := { meas := [.pps 7 none] } }) (fun s => s.dev.time.acquired = false ∧ Dev.measSecs (.pps 7 none) = false) ∧
    On (wit0 { time := { meas := [.ptp 100 0], acquired := true, source := 0 } })
      (fun s => s.dev.time.acquired = true ∧ Dev.measSource (.ptp 100 0) = s.dev.time.source ∧ s.dev.time.restep = none ∧
        s.dev.time.holdover = false ∧ absI (s.dev.offsetOf (.ptp 100 0) - s.dev.prediction) ≤ s.dev.stepThresh) ∧
    On (wit0 { time := { meas := [.ptp 10000000 0], acquired := true, source := 0 } })
      (fun s => s.dev.stepThresh < absI (s.dev.offsetOf (.ptp 10000000 0) - s.dev.prediction) ∧ s.dev.time.cands.length < 3) ∧
    On (wit0 { time := { meas := [.ptp 10000000 0], acquired := true, source := 0, cands := [1, 2, 3] } })
      (fun s => s.dev.stepThresh < absI (s.dev.offsetOf (.ptp 10000000 0) - s.dev.prediction) ∧ 3 ≤ s.dev.time.cands.length) ∧
    On (wit id) (fun s => s.dev.time.source = 3 ∧ s.dev.time.acquired = false) ∧
    On (wit0 { time := { acquired := true, source := 2 } }) (fun s => s.dev.time.source ≠ 3 ∧ s.dev.time.holdover = false ∧
      s.dev.time.acquired = true ∧ (∀ x, x < 3 → s.dev.sourceSeen x = false) ∧ s.dev.time.source < 3) := by decide +kernel

theorem test_witness_TimeFollowsItsMeasurements_ptp :
    On (wit id) (fun s => (∀ m ∈ s.dev.time.ptpIn, Dev.ptpType m.msg ≠ 0 ∧ Dev.ptpType m.msg ≠ 8) ∧
      (∀ m ∈ s.dev.time.ptpIn, Dev.ptpType m.msg ∉ [1, 2, 3, 9, 10]) ∧ s.dev.ptpOn 0 = false) ∧
    On (wit0 { time := { ptpIn := [⟨0, 9, ptpMsg 0⟩], mpd := some 3 } }) (fun s => Dev.ptpType (ptpMsg 0) = 0 ∧
      (0 : Nat) = s.dev.cfg.PTP_CTL_RX_PORT ∧ Dev.ptpTwoStep (ptpMsg 0) = false ∧ s.dev.time.mpd = some 3) ∧
    On (wit0 { time := { ptpIn := [⟨3, 9, ptpMsg 1⟩] } }) (fun s => Dev.ptpType (ptpMsg 1) = 1 ∧ 3 ≠ s.dev.cfg.PTP_CTL_RX_PORT ∧
      (s.dev.eth 3).wire = none ∧ (s.dev.eth 3).link = false) ∧
    On (wit0 { links := { eth := [(3, { link := true })] }, time := { ptpIn := [⟨3, 9, ptpMsg 1⟩] } }) (fun s =>
      (s.dev.eth 3).wire = none ∧ (s.dev.eth 3).link = true ∧ (s.dev.eth 3).busyUntil ≤ s.dev.time.ns ∧
      (s.dev.eth 3).ptpOut = [] ∧ s.dev.cfg.ETH_MACSEC_TX_EN 3 ≠ 1 ∧ s.dev.cfg.PTP_CTL_TRANSPORT ≠ 1 ∧
      s.dev.cfg.PTP_CTL_TRANSPORT ≠ 2) ∧
    On (wit0 { ethUp { busyUntil := 1 } with cfg := reg Reg.PTP_CTL 0x80004000, time := { ptpIn := [⟨0, 9, ptpMsg 2⟩] } }) (fun s =>
      Dev.ptpType (ptpMsg 2) = 2 ∧ s.dev.ptpP2p 0 = true ∧ (s.dev.eth 0).wire = none ∧
      s.dev.time.ns < (s.dev.eth 0).busyUntil) ∧
    (∀ r ∈ [0x80040000, 0x80040001], On (wit0 { ethUp { busyUntil := 1 } with cfg := reg Reg.PTP_CTL r }) (fun s =>
      s.dev.ptpOn 0 = true ∧ s.dev.time.ns < (s.dev.eth 0).busyUntil ∧ (s.dev.eth 0).wire = none ∧ s.dev.ptpP2p 0 = false ∧
      (0 = s.dev.cfg.PTP_CTL_RX_PORT ↔ r = 0x80040000))) := by decide +kernel

theorem test_witness_TimeFollowsItsMeasurements_pps :
    On (wit id) (fun s => s.dev.cfg.PPS_CTL_IN_EN = 0 ∧ s.dev.cfg.PPS_CTL_TOD_IN = 0 ∧ s.dev.ppsRuns = false) ∧
    On (wit0 { cfg := reg Reg.PPS_CTL 0x3 }) (fun s => true = (s.dev.cfg.PPS_CTL_IN_POL == 1)) ∧
    On (wit0 { cfg := reg Reg.PPS_CTL 0x1 }) (fun s => s.dev.cfg.PPS_CTL_IN_EN ≠ 0 ∧ true ≠ (s.dev.cfg.PPS_CTL_IN_POL == 1) ∧
      s.dev.time.tod = []) ∧
    On (wit0 { cfg := reg Reg.PPS_CTL 0x1, time := { up := 900000000, tod := [(⟨9, 0, 0, 0⟩, 0)] } }) (fun s =>
      s.dev.cfg.PPS_CTL_IN_EN ≠ 0 ∧ s.dev.time.tod = [(⟨9, 0, 0, 0⟩, 0)] ∧ 50000000 ≤ s.dev.time.up - 0 ∧
      s.dev.time.up - 0 ≤ 900000000) ∧
    On (wit0 { cfg := reg Reg.PPS_CTL 0x10 }) (fun s => s.dev.cfg.PPS_CTL_TOD_IN ≠ 0 ∧ ([] : List Byte).length ≠ 16 ∧
      (∀ fl, fl ∈ [0, 15] → (todMsg fl).length = 16 ∧ slice (todMsg fl) 0 2 = [0x51#8, 0x54#8] ∧ fld (todMsg fl) 2 1 = 1 ∧
        fld (todMsg fl) 3 1 < 16 ∧ fld (todMsg fl) 14 2 = Dev.crcCcitt (slice (todMsg fl) 0 14) ∧
        bit (fld (todMsg fl) 3 1) 0 = (fl == 15))) ∧
    On (wit0 { cfg := reg Reg.PPS_CTL 0x2C }) (fun s => s.dev.ppsRuns = true ∧ s.dev.cfg.PPS_CTL_TOD_OUT ≠ 0) := by
  decide +kernel

/-! ### Links -/

/-- A QZ-Link frame as octets: 16 of header, payload, CRC. -/
def qlBytes (type ttl dst seq : Nat) (p : List Byte) : List Byte :=
  let b := le 1 type ++ le 1 7 ++ le 2 dst ++ le 2 5 ++ le 2 p.length ++ le 2 seq ++ le 1 ttl ++ List.replicate 5 0#8 ++ p
  b ++ le 4 (crc32 b)

def qlUp (q : Nat) (x : QlPort) : Links := { ql := [(q, { x with up := true })] }

def qf : QlFrame := { type := 1, cls := 7, dst := 3, src := 5, ttl := 9, payload := [] }

theorem test_witness_QlFramesAndWordsMoveTheirPort_frames :
    On (wit id) (fun s => (s.dev.qlp 0).up = false) ∧
    On (wit0 { links := qlUp 0 {} }) (fun s => (s.dev.qlp 0).up = true ∧ Dev.carries (s.dev.qlp 0) = true ∧
      (s.dev.qlp 0).rxUsed.get 0 7 + (qlFrameOf (qlBytes 3 2 8 0 [])).units ≤ 128) ∧
    On (wit0 { links := qlUp 0 { rxUsed := [(7, 128)] } }) (fun s => Dev.carries (s.dev.qlp 0) = true ∧
      (qlFrameOf (qlBytes 3 2 8 0 [])).cls = 7 ∧ 128 < (s.dev.qlp 0).rxUsed.get 0 7 + (qlFrameOf (qlBytes 3 2 8 0 [])).units) ∧
    ¬ qlWhole [] ∧ qlWhole (qlBytes 9 9 0 0 []) ∧ ¬ qlHeader 0 (qlBytes 9 9 0 0 []) ∧
    (∀ b, b = qlBytes 1 9 0 1 [] → qlWhole b ∧ qlHeader 0 b ∧ (fld b 8 2 + 4096 - 0) % 4096 = 1) ∧
    (∀ b, b = qlBytes 1 9 0 2048 [] → qlWhole b ∧ qlHeader 0 b ∧ (fld b 8 2 + 4096 - 0) % 4096 = 2048) ∧
    (∀ x ∈ [((6 : Nat), (0x10 : Nat), (0 : Nat)), (6, 0x14, 4), (0, 4, 1), (0, 1, 0), (0, 2, 8), (0, 3, 8)],
      qlWhole (qlBytes x.2.1 1 x.2.2 0 []) ∧ qlHeader x.1 (qlBytes x.2.1 1 x.2.2 0 []) ∧
      fld (qlBytes x.2.1 1 x.2.2 0 []) 8 2 = 0 ∧ (qlFrameOf (qlBytes x.2.1 1 x.2.2 0 [])).type = x.2.1 ∧
      (qlFrameOf (qlBytes x.2.1 1 x.2.2 0 [])).dst = x.2.2 ∧ (qlFrameOf (qlBytes x.2.1 1 x.2.2 0 [])).ttl ≤ 1) ∧
    On (wit0 { links := { qlUp 0 {} with learned := [(8, 0)] } }) (fun s => 1 < (qlFrameOf (qlBytes 3 2 8 0 [])).ttl ∧
      s.dev.routeTo 8 true = some 0 ∧ (s.dev.qlp 0).up = true ∧ (s.dev.qlp 0).dupId = false) ∧
    On (wit0 { links := qlUp 0 { dupId := true } }) (fun s => (s.dev.qlp 0).dupId = true) := by
  unfold qlWhole qlHeader
  refine ⟨by decide, by decide +kernel, by decide +kernel, by decide, by decide +kernel, by decide +kernel, ?_, ?_, by decide +kernel, by decide +kernel,
    by decide⟩ <;> rintro b rfl <;> decide +kernel

theorem test_witness_QlFramesAndWordsMoveTheirPort_words :
    On (wit0 { links := qlUp 0 { unacked := [(4, qf), (5, qf), (6, qf)] } }) (fun s =>
      (∀ y ∈ (s.dev.qlp 0).unacked, y.1 ≠ (7#16 : W16).toNat % 4096) ∧
      (s.dev.qlp 0).unacked = [(4, qf)] ++ ((5#16 : W16).toNat % 4096, qf) :: [(6, qf)] ∧
      (∀ y ∈ [((4 : Nat), qf)], y.1 ≠ (5#16 : W16).toNat % 4096) ∧ (s.dev.qlp 0).unacked ≠ [] ∧ (s.dev.qlp 0).resends < 8) ∧
    (4 < (5#8 : Byte).toNat ∧ (5#8 : Byte) ≠ 0x10 ∧ (6 : Nat) ≠ 0) ∧
    On (wit id) (fun s => (s.dev.qlp 0).unacked = [] ∧ (s.dev.qlp 0).ackDue = false ∧ s.dev.linkWanted 0 = false ∧
      Dev.carries (s.dev.qlp 0) = false ∧ (s.dev.qlp 0).stepping = none) ∧
    On (wit0 { links := qlUp 0 { unacked := [(4, qf)], resends := 8 } }) (fun s => 8 ≤ (s.dev.qlp 0).resends) ∧
    On (wit0 { links := qlUp 0 { ackDue := true } }) (fun s => (s.dev.qlp 0).ackDue = true ∧ Dev.carries (s.dev.qlp 0) = true) ∧
    On (wit0 { links := qlUp 0 { stepping := some 0, unacked := [(4, qf)] } }) (fun s => Dev.carries (s.dev.qlp 0) = false ∧
      (s.dev.qlp 0).up = true) ∧
    (∀ n ∈ [1, 200], On (wit0 { links := qlUp 0 { credits := [(7, 0)], waitNeed := [(7, n)] } }) (fun s =>
      Dev.carries (s.dev.qlp 0) = true ∧ ((s.dev.qlp 0).waitNeed.get 0 7 ≤ 100 ↔ n = 1))) ∧
    On (wit0 { links := qlUp 0 { transit := [(7, [{ qf with rx := some 0 }])] } }) (fun s =>
      (s.dev.qlp 0).transit.get [] 7 = [{ qf with rx := some 0 }] ∧ (0 : Nat) ≠ 6) ∧
    On (wit0 { links := qlUp 0 { stepping := some 2, credDue := [(7, 1)] } }) (fun s => (s.dev.qlp 0).credDue = [(7, 1)]) ∧
    On (wit0 { cfg := reg (Reg.QL_CFG 0) 0xC5064040 }) (fun s => (s.dev.qlp 0).up = false ∧ s.dev.linkWanted 0 = true) ∧
    On (wit0 { links := qlUp 0 { transit := [(7, [qf])] } }) (fun s => Dev.carries (s.dev.qlp 0) = true ∧
      (s.dev.qlp 0).unacked.length < 2048 ∧ (s.dev.qlp 0).transit.get [] 7 = [qf] ∧
      qf.units ≤ (s.dev.qlp 0).credits.get 128 qf.cls) ∧
    On (wit0 { links := qlUp 6 { ctrl := [qf] } }) (fun s => Dev.carries (s.dev.qlp 6) = true ∧ (s.dev.qlp 6).ctrl = [qf] ∧
      qf.cls = 7 ∧ qf.units ≤ (s.dev.qlp 6).credits.get 128 qf.cls) ∧
    On (wit0 { links := qlUp 0 { stepping := some 2, level := 1, winOctets := 1000000000 } }) (fun s =>
      (s.dev.qlp 0).up = true ∧ (s.dev.qlp 0).stepping = some 2 ∧
      min 100 (s.dev.cfg.QL_CFG_UP_PCT 0) * levelOctets (s.dev.qlp 0).level < 100 * (s.dev.qlp 0).winOctets) := by
  decide +kernel

theorem test_witness_QlFramesAndWordsMoveTheirPort_full :
    ∃ s : State, 2048 ≤ (s.dev.qlp 0).unacked.length :=
  ⟨wit0 { links := qlUp 0 { unacked := List.replicate 2048 (0, qf) } }, by
    show 2048 ≤ (List.replicate 2048 (0, qf)).length
    exact Nat.le_of_eq List.length_replicate.symm⟩

def ann (root hops src : Nat) : QlFrame := { type := 4, dst := root, src := src, payload := le 2 src ++ le 1 hops ++ [0#8] }

theorem test_witness_AnnouncesBuildTheTreeAndItsRoutes :
    On (wit id) (fun s => s.dev.links.annIn = [] ∧ s.dev.links.isRoot = false ∧ s.dev.modes.control ≠ .shelfMember) ∧
    On (wit0 { links := { annIn := [(1, ann 0 0 0)] } }) (fun s => s.dev.links.annIn = [(1, ann 0 0 0)] ∧
      fld (ann 0 0 0).payload 0 2 % 1024 = s.dev.elec.chipId ∧ s.dev.links.isRoot = false) ∧
    On (wit0 { links := { annIn := [(1, ann 3 62 3)] } }) (fun s => fld (ann 3 62 3).payload 0 2 % 1024 = 3 ∧
      3 ≠ s.dev.elec.chipId ∧ (ann 3 62 3).dst = 3 ∧ fld (ann 3 62 3).payload 2 1 < 63 ∧ s.dev.links.isRoot = false) ∧
    On (wit0 { elec := { chipId := 4 }, links := { isRoot := true, annIn := [(1, ann 3 0 3)] } })
      (fun s => 3 ≠ s.dev.elec.chipId ∧ 3 ≤ s.dev.elec.chipId ∧ s.dev.links.isRoot = true) ∧
    (63 ≤ fld (ann 3 63 3).payload 2 1 ∧ (ann 3 63 3).dst = 3) ∧
    (fld (ann 9 0 3).payload 0 2 % 1024 = 3 ∧ (ann 9 0 3).dst ≠ 3) ∧
    On (wit0 { links := { qlUp 5 {} with isRoot := true } }) (fun s => s.dev.links.isRoot = true ∧ (s.dev.qlp 5).up = true ∧
      (s.dev.qlp 0).up = false) ∧
    On (wit0 { modes := { control := .shelfMember }, links := { qlUp 5 {} with followed := some 3, rootPort := 5 } })
      (fun s => s.dev.modes.control = .shelfMember ∧ s.dev.links.followed = some 3 ∧ s.dev.links.rootPort < 6 ∧
        (s.dev.qlp s.dev.links.rootPort).up = true ∧ s.dev.currentRoots = []) ∧
    On (wit0 { links := { roots := [(3, { last := 0 })] }, time := { up := 299999999 } })
      (fun s => s.dev.links.roots.find 3 = some { last := 0 } ∧ s.dev.time.up < 0 + 300000000 ∧ s.dev.currentRoots ≠ []) ∧
    On (wit0 { links := { roots := [(3, { last := 0 })] }, time := { up := 300000000 } })
      (fun s => s.dev.links.roots.find 3 = some { last := 0 } ∧ 0 + 300000000 ≤ s.dev.time.up) := by decide +kernel

def pairUp (x : Pair) : Dev := { pair := x, links := qlUp 6 {} }

theorem test_witness_HeartbeatsAndTakeoverMoveThePair :
    On (wit0 { flt := ⟨true, 1⟩ }) (fun s => s.dev.mayHeartbeat = false ∧ s.dev.flt.fatal = true) ∧
    On (wit0 { modes := { inReset := true } }) (fun s => s.dev.modes.inReset = true) ∧
    On (wit id) (fun s => s.dev.mayHeartbeat = true ∧ s.dev.pair.ownOut = false ∧ (s.dev.qlp 6).up = false ∧
      s.dev.pair.hbLast = none ∧ s.dev.modes.redund ≠ .standby ∧ s.dev.pair.takeover = none) ∧
    On (wit0 { pair := { ownOut := true } }) (fun s => s.dev.pair.ownOut = true) ∧
    On (wit0 { pairUp { commit := some 7 } with modes := { redund := .standby } }) (fun s => (s.dev.qlp 6).up = true ∧
      s.dev.pair.commit = some 7 ∧ s.dev.modes.redund = .standby ∧
      3 ≤ (bits ((10 * 8 : Nat)) 15 3 + 8192 - 7 % 8192) % 8192 ∧ (bits ((9 * 8 : Nat)) 15 3 + 8192 - 7 % 8192) % 8192 < 3) ∧
    On (wit0 { pair := { hbLast := some 0, misses := 2 } }) (fun s => s.dev.pair.hbLast = some 0 ∧ s.dev.pair.misses = 2) ∧
    On (wit0 { pair := { hbLast := some 0, misses := 3 } }) (fun s => s.dev.pair.misses ≠ 2) ∧
    On (wit0 { modes := { redund := .standby }, pair := { takeoverWait := true, ownIn := true } })
      (fun s => s.dev.modes.redund = .standby ∧ s.dev.pair.takeoverWait = true ∧ s.dev.ownReleased = false) ∧
    On (wit0 { modes := { redund := .standby }, pair := { takeoverWait := true, image := some {} }, time := { up := 50000 } })
      (fun s => s.dev.modes.redund = .standby ∧ s.dev.pair.takeoverWait = true ∧ s.dev.ownReleased = true ∧
        s.dev.pair.committed = [] ∧ s.dev.pair.image = some {}) ∧
    On (wit0 { pair := { restoring := true, takeover := some ⟨true, 1, 2, 3, 4, 5, [], []⟩ } })
      (fun s => s.dev.pair.takeover = some ⟨true, 1, 2, 3, 4, 5, [], []⟩ ∧ s.dev.pair.restoring = true) := by decide +kernel

/-- A record of 64 header octets and its 32 octets of trailer: epoch e, kind k, base b. -/
def rcdOctets (e k b : Nat) : List Byte :=
  let h := asc "QZMD" ++ le 2 0 ++ le 1 k ++ le 1 0 ++ le 8 e ++ le 8 b ++ le 8 64 ++ List.replicate 32 0#8
  let t := asc "QZMC" ++ le 4 0 ++ le 8 e ++ le 8 64 ++ le 4 0
  h ++ t ++ le 4 (crc32 (h ++ t))

def frag (e k : Nat) (x : List Byte) : QlFrame := { type := 0x10, payload := le 6 e ++ le 1 k ++ le 1 0 ++ le 8 0 ++ x }

theorem test_witness_RecordsMirrorTheActiveDevice_fragments :
    On (wit id) (fun s => s.dev.links.mirIn = [] ∧ s.dev.runs = true) ∧
    On (wit0 { modes := { redund := .standby }, links := { mirIn := [frag 9 1 (rcdOctets 9 1 9)] } }) (fun s =>
      s.dev.links.mirIn = [frag 9 1 (rcdOctets 9 1 9)] ∧ (frag 9 1 (rcdOctets 9 1 9)).type = 0x10 ∧ s.dev.runs = false ∧
      fld (frag 9 1 (rcdOctets 9 1 9)).payload 8 8 = 0 ∧ recordCommitted (rcdOctets 9 1 9) = true ∧
      recordCommitted [] = false ∧ fld ((rcdOctets 9 1 9).take (fld (rcdOctets 9 1 9) 0x18 8 + 32)) 6 1 = 1) ∧
    On (wit0 { modes := { redund := .standby }, pair := { commit := some 8, rxBase := some 5 }
               links := { mirIn := [frag 9 2 (rcdOctets 9 2 5)] } }) (fun s =>
      recordCommitted (rcdOctets 9 2 5) = true ∧ fld (rcdOctets 9 2 5) 6 1 ≠ 1 ∧
      s.dev.pair.commit = some (fld (rcdOctets 9 2 5) 8 6 - 1) ∧ 0 < fld (rcdOctets 9 2 5) 8 6 ∧
      s.dev.pair.rxBase = some (fld (rcdOctets 9 2 5) 0x10 6)) ∧
    On (wit0 { modes := { redund := .standby }, pair := { commit := some 8 }
               links := { mirIn := [frag 9 2 (rcdOctets 9 2 5)] } }) (fun s =>
      s.dev.pair.rxBase ≠ some (fld (rcdOctets 9 2 5) 0x10 6)) ∧
    On (wit0 { modes := { redund := .standby }, pair := { rx := some ⟨9, 1, [0#8, 0#8]⟩ } }) (fun s =>
      (match s.dev.pair.rx with | some r => if r.epoch = 9 ∧ r.kind = 1 then r.octets else [] | none => []) = [0#8, 0#8]) := by
  decide +kernel

theorem test_witness_RecordsMirrorTheActiveDevice_rest :
    On (wit0 { modes := { redund := .active }, epoch := { num := 11 }, pair := { unacked := [⟨9, 1, []⟩] }
               links := { mirIn := [{ type := 0x11, payload := le 6 9 ++ le 1 1 ++ [0#8] }] } }) (fun s =>
      s.dev.modes.redund = .active ∧ (∃ r ∈ s.dev.pair.unacked, r.epoch = 9 ∧ r.kind = 1) ∧
      (∃ y ∈ s.dev.pair.unacked, y.epoch + 2 ≤ s.dev.epoch.num) ∧ s.dev.pair.restoring = false) ∧
    On (wit0 { modes := { redund := .active }, epoch := { num := 10 }, pair := { unacked := [⟨9, 1, []⟩] } }) (fun s =>
      (∀ r ∈ s.dev.pair.unacked, r.epoch ≠ 8 ∨ r.kind ≠ 1) ∧ ∀ r ∈ s.dev.pair.unacked, s.dev.epoch.num < r.epoch + 2) ∧
    On (wit0 { modes := { redund := .standby }, links := { mirIn := [{ type := 0x13 }] } }) (fun s =>
      s.dev.links.mirIn = [{ type := 0x13 }] ∧ s.dev.runs = false ∧ s.dev.modes.redund ≠ .resync ∧ s.dev.modes.redund ≠ .active) ∧
    On (wit0 { links := { mirIn := [{ type := 0x12 }, { type := 0x14 }] } }) (fun s =>
      s.dev.links.mirIn = [{ type := 0x12 }, { type := 0x14 }]) ∧
    On (wit0 { pairUp {} with modes := { redund := .resync } }) (fun s => s.dev.modes.redund = .resync ∧
      s.dev.pair.baseFragment = false ∧ (s.dev.qlp 6).up = true) ∧
    On (wit0 { pair := { rxBase := some 1 }, modes := { redund := .resync } }) (fun s => s.dev.runs = false ∧
      s.dev.pair.rxBase ≠ none ∧ s.dev.testPasses 0 true = true ∧ s.dev.testPasses 10 false = false ∧
      s.dev.testPasses 1 false = false) := by decide +kernel

/-! ### Host rings, tasks, storage -/

def hostedRing (n : Nat) (d : Dev) : Dev :=
  { d with modes := { d.modes with control := .hosted }, cfg := reg (Reg.HR_CTL n) 0xA0000000 }

def hp : HostPkt := { kind := 1, data := [1#8] }

theorem test_witness_PacketRingsDeliverAndFetch_receive :
    On (wit id) (fun s => (∀ c, c < 8 → ∀ n, n ∈ [0, 1] → (s.dev.queue (72 + 8 * 0 + c)).head? ≠ some (.bad n)) ∧
      s.dev.rxClass 0 = none ∧ s.dev.host.rxWait.find (3 + 0) = none) ∧
    On (wit0 { modes := { control := .shelfMember }, links := { followed := some 1 }, tm := { queues := [(79, [.host hp])] } })
      (fun s => s.dev.rxClass 0 = some 7 ∧ (s.dev.queue 79).head? = some (.host hp) ∧ s.dev.links.followed ≠ none) ∧
    On (wit0 { tm := { queues := [(72, [.host hp])] } }) (fun s => s.dev.rxClass 0 = some 0 ∧
      s.dev.modes.control ≠ .shelfMember ∧ s.dev.ringOn (3 + 0) = false) ∧
    On (wit0 (hostedRing 3 { tm := { queues := [(72, [.host hp])] }, host := { rings := [(3, { hostIdx := 1 })] } }))
      (fun s => s.dev.rxClass 0 = some 0 ∧ s.dev.ringOn (3 + 0) = true ∧
        min ((s.dev.ring 3).hostIdx - (s.dev.ring 3).devIdx).toNat (s.dev.ringSize 3) = 1 ∧
        min 32 (s.dev.ringSize 3 - 1) = 15 ∧ descsFor ([65536].take 1) (s.dev.hostPktOctets hp).length = some 1 ∧ 1 ≤ 15 ∧
        descsFor (([] : List Nat).take 1) (s.dev.hostPktOctets hp).length = none ∧ min 1 ([] : List Nat).length < 15 ∧
        min 14 (List.replicate 16 1).length < 15) ∧
    On (wit0 (hostedRing 3 { tm := { queues := [(72, [.host hp])] }, host := { rings := [(3, { hostIdx := 15 })] } }))
      (fun s => min ((s.dev.ring 3).hostIdx - (s.dev.ring 3).devIdx).toNat (s.dev.ringSize 3) = 15 ∧
        descsFor ((List.replicate 16 1).take 15) (s.dev.hostPktOctets hp).length = none ∧
        15 ≤ min 15 (List.replicate 16 1).length) ∧
    On (wit0 { host := { rxWait := [(3, (5, 7))] } }) (fun s => s.dev.host.rxWait.find (3 + 0) = some (5, 7)) := by
  decide +kernel

def td (sop eop remote : Bool) : TxDesc := ⟨0, 4, sop, eop, false, remote, 0, 0, 9⟩

theorem test_witness_PacketRingsDeliverAndFetch_transmit :
    On (wit id) (fun s => s.dev.ringOn (19 + 0) = false ∧ s.dev.modes.control ≠ .hosted) ∧
    On (wit0 (hostedRing 19 { host := { rings := [(19, { hostIdx := 1 })] } })) (fun s => s.dev.ringOn (19 + 0) = true ∧
      s.dev.modes.control = .hosted ∧
      ((s.dev.pipeSt (s.dev.pipeOf (14 + 0))).queues.get [] (14 + 0)).length < 256 ∧ s.dev.descsOut (14 + 0) = 0 ∧
      min ((s.dev.ring 19).hostIdx - (s.dev.ring 19).devIdx).toNat (s.dev.ringSize 19) - 0 = 1 ∧
      chainOf ([td true false false].take 1) = .short ∧ chainOf ([td false true false].take 1) = .bad 1 ∧
      chainOf ([td true true false].take 1) = .good 1 ∧ (td true true false).remote = false ∧ s.dev.bufRoom 4 = true) ∧
    On (wit0 (hostedRing 19 { host := { rings := [(19, { hostIdx := 2 })] }, links := { qlUp 5 {} with isRoot := true, learned := [(9, 5)] } }))
      (fun s => chainOf ([td true true true].take 2) = .good 1 ∧ s.dev.links.isRoot = true ∧
        (td true true true).dstChip.toNat ≠ s.dev.elec.chipId ∧ s.dev.routeTo (td true true true).dstChip.toNat true = some 5 ∧
        (s.dev.qlp 5).up = true ∧ 4 + 40 ≤ 9728) := by decide +kernel

def tk (cores : Byte) : TaskDesc := ⟨1, 0, 3, cores, false, 0⟩

def taskIn (st : TaskSt) (taker : Nat) : Dev :=
  { disp := { slots := [(0, { st := st, gen := 1, cores := 1, taker := taker })], ports := [(0, { waiting := true })] } }

theorem test_witness_TasksPassFromProducerToCore :
    On (wit id) (fun s => (tk 0).cores.toNat = 0 ∧ (tk 1).cores.toNat ≠ 0 ∧
      (tk 1).cores.toNat &&& s.dev.worldMask (s.dev.worldOf 0) = (tk 1).cores.toNat ∧
      (tk 255).cores.toNat &&& s.dev.worldMask (s.dev.worldOf 0) ≠ (tk 255).cores.toNat ∧
      (s.dev.slotOf 0).st = .free ∧ (∀ j, j < 0 → (s.dev.slotOf j).st ≠ .free) ∧
      (s.dev.busySlots.filter (fun p => decide (p.2.group = 0))).length < s.dev.groupLimit 0 ∧ s.dev.unreported 0 < 512 ∧
      (∀ c, c < 8 → (s.dev.corePort c).waiting = false) ∧ s.dev.slotOfHandle 0 = none ∧ s.dev.pickGroup 0 = none ∧
      s.dev.cfg.DISP_CTL_TAKE_TIMEOUT_US = 0 ∧ s.dev.cfg.DISP_CTL_WATCHDOG_MS = 0 ∧ (s.dev.corePort 0).cpl = []) ∧
    On (wit0 { disp := { slots := [(0, { st := .held, gen := 1, group := 0 })] }, cfg := reg (Reg.DISP_GROUP 0) 0x00010001 })
      (fun s => s.dev.groupLimit 0 ≤ (s.dev.busySlots.filter (fun p => decide (p.2.group = 0))).length ∧
        s.dev.slotOfHandle 0x1000 = some 0 ∧ (s.dev.slotOf 0).st = .held ∧ ∀ c, c < 8 → (s.dev.corePort c).waiting = false) ∧
    On (wit0 { taskIn .dispatched 0 with cfg := reg Reg.DISP_CTL 0x00010001 }) (fun s => s.dev.slotOfHandle 0x1000 = some 0 ∧
      (s.dev.slotOf 0).st = .dispatched ∧ (s.dev.slotOf 0).taker = 0 ∧ s.dev.cfg.DISP_CTL_WATCHDOG_MS ≠ 0 ∧
      s.dev.cfg.DISP_CTL_TAKE_TIMEOUT_US ≠ 0 ∧ (s.dev.corePort 0).waiting = true) ∧
    On (wit0 (taskIn .dispatched 1)) (fun s => (s.dev.slotOf 0).st = .dispatched ∧ (s.dev.slotOf 0).taker ≠ 0) ∧
    On (wit0 (taskIn .ready 0)) (fun s => (s.dev.slotOf 0).st ≠ .held ∧ (s.dev.slotOf 0).st ≠ .dispatched ∧
      (s.dev.pickGroup 0).map Prod.fst = some 0 ∧ s.dev.bestOf 0 0 = some 0) ∧
    On (wit0 { disp := { ports := [(0, { cpl := [⟨1, .ST_OK, 0⟩] })] } }) (fun s =>
      (s.dev.corePort 0).cpl = [⟨1, .ST_OK, 0⟩]) ∧
    On (wit id) (fun s => s.dev.worldOf 7 = .vendor ∧
      (0x17FFFF#34 : BitVec 34).toNat + [1#8].length ≤ s.dev.sramSize .vendor) := by decide +kernel

def conFrame (op : Nat) : List Byte :=
  let b := [0x51#8, 0x4D#8, 1#8, 0#8] ++ le 2 128 ++ le 2 op ++ le 2 0 ++ le 4 7 ++ List.replicate 120 0#8
  b ++ le 2 (Dev.crcCcitt b)

set_option maxRecDepth 20000 in
theorem test_witness_StorageErrorsAndManagementAnswer :
    On (wit id) (fun s => Occupant.seenRow ≠ .storedKey ∧ ((1022#32 : W32).toNat = 1022 ∧ (1023#32 : W32).toNat = 1023) ∧
      Dev.isCounter Cnt.ECC_CE.off = true ∧ s.dev.elec.heldBoot = none ∧ s.dev.heldReset = false ∧ s.dev.elec.testEn = false ∧
      slice (conFrame 1) 0 2 = [0x51#8, 0x4D#8] ∧ fld (conFrame 1) 2 1 = 1 ∧ fld (conFrame 1) 4 2 = 128 ∧
      (conFrame 1).length = 136 ∧ fld (conFrame 1) 134 2 = Dev.crcCcitt ((conFrame 1).take 134) ∧
      fld (slice (conFrame Opcode.CMD_NOP.code) 6 128) 0 2 = Opcode.CMD_NOP.code ∧ 7 < (8#8 : Byte).toNat) ∧
    On (wit0 { tm := { numShapers := 1 } }) (fun s => (0#32 : W32).toNat < s.dev.tm.numShapers) ∧
    On (wit0 (taskIn .held 0)) (fun s => (s.dev.slotOf (0#32 : W32).toNat).st ≠ .free) ∧
    On (wit0 { elec := { heldBoot := some ⟨0, false, false, false, 0, 0, false, false, []⟩ } }) (fun s =>
      s.dev.elec.heldBoot = some ⟨0, false, false, false, 0, 0, false, false, []⟩ ∧ s.dev.heldReset = false) ∧
    On (wit0 { elec := { sysLow := true } }) (fun s => s.dev.heldReset = true) ∧
    On (wit0 { elec := { testEn := true } }) (fun s => s.dev.elec.testEn = true) := by decide +kernel

/-! ### Registers, violations, rings, commands -/

theorem test_witness_EveryCommandLeavesTheOtherUnitsAlone : ∃ t, exec .tokenRefill State.reset = .next t := ⟨_, rfl⟩

theorem test_witness_LatchingReadsReturnTheLowHalf :
    On (wit0 { pair := { commit := some 0x100000001 } }) (fun s => s.dev.pair.commit = some 0x100000001) ∧
    On (wit id) (fun s => s.dev.pair.commit = none ∧
      (if (s.dev.seq 0).peekStaged then (s.dev.seq 0).staged else (s.dev.seq 0).act).get 0 (s.dev.seq 0).peekIndex = 0 ∧
      [s.dev.tbl.node.seed, s.dev.tbl.route.seed, s.dev.tbl.pfx.seed, s.dev.tbl.seen.seed].getD 3 0 = 0) := by decide +kernel

theorem test_witness_BadAccessesHaveNoEffectButTheLog :
    (regAt (cfgOffset 0xFFFFFC) = none ∧ Dev.isCounter (cfgOffset 0xFFFFFC) = false) ∧ (regAt (cfgOffset 0x38)).isSome = true ∧
      (wit id).dev.worldOf 0 ≠ .customer ∧ cfgOffset Reg.PAIR_KEEPALIVE = Reg.PAIR_KEEPALIVE ∧ cfgOffset 0x38 ≠ Reg.PAIR_KEEPALIVE ∧
      Dev.isCounter (cfgOffset Cnt.VIO_TOTAL.off) = true ∧
      On (wit id) (fun s => s.dev.worldOf 7 = .vendor ∧
        s.dev.sramSize .vendor < (0x17FFFF#34 : BitVec 34).toNat + [1#8, 2#8].length ∧
        none ≠ some (s.dev.worldOf 7) ∧ some World.customer ≠ some (s.dev.worldOf 0)) := by decide +kernel

theorem test_witness_AViolationCountsAndIsLogged :
    On (wit id) (fun s => s.dev.count Cnt.VIO_TOTAL < 0xFFFFFFFF ∧ s.dev.logOverflowed = false ∧ s.dev.vio.log.length < 4095) ∧
    On (wit0 { vio := { lastNs := [(Vio.VIO_CFG_WIDTH.code, 0)] }, time := { up := 1000000 } }) (fun s =>
      ∀ t ∈ s.dev.vio.lastNs.find Vio.VIO_CFG_WIDTH.code, t + 1000000 ≤ s.dev.time.up) ∧
    On (wit0 { vio := { log := [⟨1, 0, 0, 0, 0, 0, []⟩] } }) (fun s => s.dev.logOverflowed = true) := by decide +kernel

theorem test_witness_AStagedRegisterWriteWaitsForItsBoundary :
    ∃ r : RegDef, On (wit id) (fun s => Reg.RF_CTL 0 = cfgOffset (Reg.RF_CTL 0) ∧ Reg.RF_CTL 0 % 4 = 0 ∧
      regAt (Reg.RF_CTL 0) = some r ∧ r.st ≠ 0 ∧ Reg.RF_CTL 0 ≠ Reg.PTP_CTL ∧ Dev.pairHalf (Reg.RF_CTL 0) = none ∧
      s.dev.planOwned (Reg.RF_CTL 0) = false ∧ r.name ≠ "CIN_TIGHT_A" ∧ r.name ≠ "CIN_TIGHT_B" ∧
      s.dev.cfgDenied .host = false ∧ s.dev.lastReg (Reg.RF_CTL 0) r.reset < 2 ^ 32) ∧
    On (wit0 { stg := { regs := [(Reg.RF_CTL 0, 1)], frozenRegs := [(Reg.RF_CTL 0, 2)] } }) (fun s =>
      s.dev.stg.regs.find (Reg.RF_CTL 0) = some 1 ∧ s.dev.stg.frozenRegs.find (Reg.RF_CTL 0) = some 2) :=
  ⟨(regAt (Reg.RF_CTL 0)).get (by decide +kernel), by decide +kernel⟩

theorem test_witness_ImmediateWritesActAtOnce :
    On (wit id) (fun s => s.dev.cin.locked = false) ∧ On (wit0 { cin := { locked := true } }) (fun s => s.dev.cin.locked = true) ∧
      cfgOffset (2#24 : BitVec 24).toNat % 4 ≠ 0 ∧
      On (wit0 { sec := { custWorld := true } }) (fun s => s.dev.cfgDenied (.core 6) = true ∧ s.dev.cfgDenied (.core 7) = true ∧
        s.dev.cfgDenied (.core 5) = false ∧ s.dev.cfgDenied (.core 1) = false ∧ s.dev.cfgDenied .host = false) := by
  decide +kernel

theorem test_witness_RingsStartEmptyAndRefuseBadDoorbells :
    On (wit id) (fun s => s.dev.ringOn 34 = false ∧ (0x80000000#32 : W32)[31] = true ∧
      (0#32 : W32)[31] = false ∧ ((s.dev.ring 34).hostIdx - (s.dev.ring 34).devIdx).toNat = 0 ∧
      ((16#16 : W16) - (s.dev.ring 34).hostIdx).toNat ≤ 32768 ∧
      (0 : Int) + ((16#16 : W16) - (s.dev.ring 34).hostIdx).toNat ≤ (s.dev.ringSize 34 : Int) ∧
      (s.dev.ringSize 34 : Int) < 0 + ((17#16 : W16) - (s.dev.ring 34).hostIdx).toNat ∧
      32768 < ((32769#16 : W16) - (s.dev.ring 34).hostIdx).toNat ∧ 35 ≤ (35 : Fin 64).val ∧ (s.dev.ring 34).inInterval = false) ∧
    On (wit0 { host := { rings := [(1, { devIdx := 3 })] } }) (fun s =>
      -(((s.dev.ring 1).devIdx - (s.dev.ring 1).hostIdx).toNat : Int) + ((19#16 : W16) - (s.dev.ring 1).hostIdx).toNat ≤
          (s.dev.ringSize 1 : Int) ∧
      (s.dev.ringSize 1 : Int) <
        -(((s.dev.ring 1).devIdx - (s.dev.ring 1).hostIdx).toNat : Int) + ((20#16 : W16) - (s.dev.ring 1).hostIdx).toNat) ∧
    On (wit0 (hostedRing 0 { host := { rings := [(0, { inInterval := true })] } })) (fun s => s.dev.ringOn 0 = true ∧
      (s.dev.ring 0).inInterval = true) := by decide +kernel

def ev0 : Event := { code := .EVT_EPOCH, seq := 0, epoch := 0, time := 0, data := [] }

theorem test_witness_EventsArePostedOldestFirst :
    On (wit0 (hostedRing 2 { ev := { staging := [ev0] } })) (fun s => s.dev.modes.control = .hosted ∧
      s.dev.ev.staging = [ev0] ∧ s.dev.ev.lost = 0 ∧ s.dev.ringOn 2 = true ∧ s.dev.ringUsed 2 < s.dev.ringSize 2 ∧
      s.dev.count Cnt.EVT_POSTED < 0xFFFFFFFE) ∧
    On (wit0 (hostedRing 2 { ev := { staging := [ev0], lost := 1 } })) (fun s => s.dev.ev.lost ≠ 0 ∧
      ([] : List Event).length < 8192) ∧
    On (wit id) (fun s => s.dev.ev.staging = [] ∧ s.dev.modes.control = .standAlone) ∧
    On (wit0 { modes := { control := .hosted }, ev := { staging := [ev0] } }) (fun s => s.dev.modes.control = .hosted ∧
      s.dev.ringOn 2 = false) ∧
    On (wit0 (hostedRing 2 { host := { rings := [(2, { devIdx := 16 })] } })) (fun s => s.dev.ringSize 2 ≤ s.dev.ringUsed 2) := by
  decide +kernel

def cpl0 : Completion := ⟨.core .secure, 1, .ST_OK, 1, 0, 0, false, []⟩

theorem test_witness_CommandsAreTakenOnceAndRefusedByRule :
    ((wit id).fresh.accepts ⟨hdr, .CMD_NOP, 0, []⟩ ∧ (wit id).fresh.accepts ⟨hdrCon, .CMD_NOP, 0, []⟩) ∧
    On (wit0 { elec := { testEn := true } }) (fun s => s.dev.deaf = true) ∧
    On (wit id) (fun s => s.dev.deaf = false ∧ hdr.path ≠ .pcie ∧ (⟨.console, 0, false, 0⟩ : Hdr).cmdId = 0 ∧
      hdr.cmdId ≠ 0 ∧ hdr.remote = false) ∧
    On (wit0 { host := { hist := [⟨.core .secure, 1, cpl0⟩] } }) (fun s =>
      s.dev.replayOf ⟨hdr, .CMD_NOP, 0, []⟩ = some cpl0) ∧
    On (wit0 { host := { inflight := [⟨hdr, .CMD_VAT_LOAD, 0, []⟩] } }) (fun s =>
      s.dev.replayOf ⟨hdr, .CMD_NOP, 0, []⟩ = none ∧ s.dev.isInFlight ⟨hdr, .CMD_NOP, 0, []⟩ = true ∧
      s.dev.host.forgotten = []) ∧
    On (wit0 { cfg := [(Reg.HR_CTL 0, 0xA0000000), (Reg.HR_CTL 1, 0xA0000000)], host := { rings := [(0, { hostIdx := 1 })] } })
      (fun s => s.dev.cmdRoom = true ∧ s.dev.deaf = false ∧
        s.dev.replayOf ⟨⟨.pcie, 1, false, 0⟩, .CMD_NOP, 0, []⟩ = none ∧
        s.dev.isInFlight ⟨⟨.pcie, 1, false, 0⟩, .CMD_NOP, 0, []⟩ = false ∧
        s.dev.sourceOk ⟨⟨.pcie, 1, false, 0⟩, .CMD_SEEN_FLUSH, 0, []⟩ = false) := by
  unfold Dev.accepts; decide +kernel

theorem test_witness_SetPhaseIsRefusedOrStaged :
    (wit id).fresh.accepts ⟨hdr, .CMD_SET_PHASE, 0, pay []⟩ ∧
    (∀ n ∈ [0, 1, 2, 3, 4], (Dev.phaseTarget (pay [(0, n)])).isSome = true) ∧
    Dev.phaseTarget (pay [(0, 3)]) = some .survey ∧ Dev.phaseTarget (pay [(0, 4)]) = some .test ∧
    fld (pay [(0, 3)]) 1 1 ≤ 1 ∧ zeros (pay [(0, 3)]) 2 6 = true ∧ zeros (pay [(0, 3), (0x0D, 255)]) 0x0E 50 = true ∧
    (Dev.phaseTarget (pay [(0, 5)]) = none ∧ 1 < fld (pay [(1, 2)]) 1 1 ∧ zeros (pay [(7, 1)]) 2 6 = false ∧
      zeros (pay [(0x0E, 1)]) 0x0E 50 = false) ∧
    On (wit id) (fun s => s.dev.follower = false ∧ s.dev.lcAllows .survey = true ∧ s.dev.lcAllows .service = false ∧
      s.dev.modes.control = .standAlone ∧ hdr.path ≠ .console ∧ s.dev.freezePassed 0 = true ∧ s.dev.freezePassed 1 = false) ∧
    On (wit0 { sec := { lc := 1 } }) (fun s => s.dev.lcAllows .service = true ∧ s.dev.cin.locked = false) ∧
    On (wit0 { modes := { redund := .standby } }) (fun s => s.dev.follower = true) := by
  unfold Dev.accepts; decide +kernel

theorem test_witness_AttachAndPairSetAreStaged :
    (∀ m ∈ [Ctl.standAlone, .hosted, .shelfMember], (wit0 {
        modes := { control := m }
        host := { rings := [(0, { hostIdx := 1 })] }
        cfg := [(Reg.HR_CTL 0, 0xA0000000), (Reg.HR_CTL 1, 0xA0000000)] }).fresh.accepts
      ⟨⟨.pcie, 1, false, 0⟩, .CMD_HOST_ATTACH, 0, []⟩) ∧ Dev.attachTarget .pcie = some .hosted ∧
    (∀ s ∈ [wit id, wit0 { modes := { control := .hosted } }, wit0 { modes := { control := .shelfMember } }],
      s.fresh.accepts ⟨⟨.root, 1, false, 0⟩, .CMD_HOST_ATTACH, 0, []⟩) ∧
    Dev.attachTarget .root = some .shelfMember ∧ Dev.attachTarget .console = none ∧
    (∀ x ∈ [0, 1], (wit id).fresh.accepts ⟨hdr, .CMD_PAIR_SET, x, pay [(0, x)]⟩ ∧ fld (pay [(0, x)]) 0 1 = x) := by
  unfold Dev.accepts; decide +kernel

theorem test_witness_TableCommandsAreRefusedOrStaged :
    (∀ op ∈ [Opcode.CMD_NODE_SET, .CMD_ROUTE_SET, .CMD_PREFIX_SET], ∀ x ∈ [0, 1, 2], ∀ f ∈ [0, 1, 2, 3],
      (wit id).fresh.accepts ⟨hdr, op, x, pay [(0, x), (1, f)]⟩ ∧ Dev.tOp (pay [(0, x), (1, f)]) = x ∧
        Dev.tFlags (pay [(0, x), (1, f)]) = f ∧ zeros (pay [(0, x), (1, f)]) 8 8 = true) ∧
    (∀ op ∈ [Opcode.CMD_NODE_SET, .CMD_ROUTE_SET, .CMD_PREFIX_SET], ((wit id).dev.rebuild (Dev.tblIndex op)).st = .idle ∧
      (wit id).dev.tblImageBad op 2 (pay [(0, 2)]) = false) := by unfold Dev.accepts; decide +kernel

theorem test_witness_RekeyTmNeighbourAndFlushAreStaged :
    (∀ x ∈ [(Opcode.CMD_SEEN_FLUSH, 0), (.CMD_NBR_SET, 0), (.CMD_NBR_SET, 1), (.CMD_TM_SET, 0), (.CMD_NODE_REKEY, 0)],
      (wit id).fresh.accepts ⟨hdr, x.1, x.2, []⟩ ∧ (wit id).fresh.accepts ⟨hdr, x.1, x.2, pay []⟩) ∧
    (let p := pay [(0, 3), (2, 0xEF), (3, 0xFF), (0x0E, 1)]
     On (wit id) (fun s => s.dev.follower = false ∧ fld p 0 1 ≤ 3 ∧ fld p 1 1 ≤ 1 ∧ zeros p 4 4 = true ∧
       zeros p 0x10 48 = true ∧ s.dev.findShort (fld p 0 1) (fld p 2 2) = none)) ∧
    On (wit0 { tbl := { node := { slots := [(home 0 5, { valid := true, short := 5, loc := 5, pan := 0 })] } } }) (fun s =>
      s.dev.findShort 0 5 = some 5) := by unfold Dev.accepts; decide +kernel

theorem test_witness_RebuildsStartSwapAndEnd :
    (∀ x ∈ [0, 1, 2, 3], ∀ k ∈ [0, 1, 2], (wit id).fresh.accepts ⟨hdr, .CMD_TABLE_REBUILD, x, pay [(0, k), (1, x)]⟩ ∧
      Dev.rebuildBad x (pay [(0, k), (1, x)]) = false ∧ fld (pay [(0, k), (1, x)]) 0 1 = k) ∧
    On (wit id) (fun s => s.dev.follower = false ∧ (s.dev.rebuild 2).st ≠ .copying ∧ (s.dev.rebuild 2).st = .idle) ∧
    bit (fld (pay [(2, 2)]) 2 1) 1 = true ∧ bit (fld (pay [(2, 1)]) 2 1) 0 = true ∧
    On (wit0 { tbl := { pfxRb := { st := .copying } } }) (fun s => (s.dev.rebuild 2).st = .copying ∧ (s.dev.rebuild 2).left = [] ∧
      s.dev.stg.cmds.any (Dev.isSwap 2) = false) := by unfold Dev.accepts; decide +kernel

def loadPay (n : Nat) : List Byte := pay [(0x10, n % 256), (0x11, n / 256 % 256), (0x12, n / 65536)]

theorem test_witness_ImagesLoadVerifyCommitAndDiscard :
    (∀ n ∈ [5800, 4194304], (wit id).fresh.accepts ⟨hdr, .CMD_VAT_LOAD, 0, loadPay n⟩ ∧ fld (loadPay n) 0 1 ≤ 1 ∧
      zeros (loadPay n) 1 7 = true ∧ zeros (loadPay n) 0x14 44 = true ∧ 5800 ≤ fld (loadPay n) 0x10 4 ∧
      fld (loadPay n) 0x10 4 ≤ 4194304) ∧
    On (wit id) (fun s => s.dev.follower = false ∧ s.dev.pendingCommit = none ∧ s.dev.vat.staged = none) ∧
    (wit id).fresh.accepts ⟨hdr, .CMD_VAT_DISCARD, 0, []⟩ ∧
    On (wit0 { vat := { loading := some ⟨hdr, .CMD_VAT_LOAD, 0, loadPay 5800⟩ } }) (fun s =>
      s.dev.vat.loading = some ⟨hdr, .CMD_VAT_LOAD, 0, loadPay 5800⟩ ∧ s.dev.vat.verifying = false) ∧
    On (wit0 { vat := { verifying := true, loading := some ⟨hdr, .CMD_VAT_LOAD, 0, loadPay 5800⟩ } }) (fun s =>
      s.dev.vat.loading = some ⟨hdr, .CMD_VAT_LOAD, 0, loadPay 5800⟩ ∧ s.dev.vat.verifying = true ∧
      s.dev.commandView.vatFault s.dev.vat.area 5800 = some (1, 0, 0)) ∧
    (∀ f ∈ [0, 1], (wit id).fresh.accepts ⟨hdr, .CMD_COMMIT, 0, pay [(0, f)]⟩ ∧ fld (pay [(0, f)]) 0 1 ≤ 1 ∧
      zeros (pay [(0, f)]) 1 7 = true ∧ zeros (pay [(0, f)]) 0x0E 2 = true ∧ zeros (pay [(0, f)]) 0x18 40 = true) ∧
    On (wit0 { vat := { staged := some {} } }) (fun s => s.dev.vat.staged.isSome = true) := by
  unfold Dev.accepts
  refine ⟨?_, ?_, ?_, ?_, ?_, ?_, ?_⟩ <;> decide +kernel

/-! ### Keys -/

theorem test_witness_KeySetIsRefusedOrStaged :
    (∀ x ∈ [0, 1, 2, 3], (wit id).fresh.accepts ⟨hdr, .CMD_KEY_SET, x, slice (pay [(0, x)]) 0 64⟩) ∧
    On (wit id) (fun s => s.dev.sec.lc ≠ 1 ∧ s.dev.sec.lc ≠ 2) ∧
    On (wit0 { sec := { lc := 2, migrationPending := true } }) (fun s => s.dev.sec.lc = 2 ∧ s.dev.sec.migrationPending = true) ∧
    On (wit0 { sec := { lc := 1 } }) (fun s =>
      s.dev.commandView.keySetRefusal ⟨hdr, .CMD_KEY_SET, 3, slice (pay [(0, 3)]) 0 64⟩ 3 = some .ST_NOT_FOUND) ∧
    On (wit0 { sec := { lc := 1, keys := [(0, { valid := true, callers := 2 })] } }) (fun s =>
      s.dev.commandView.keySetRefusal ⟨hdr, .CMD_KEY_SET, 3, slice (pay [(0, 3)]) 0 64⟩ 3 = none) := by unfold Dev.accepts; decide +kernel

def rcd0 : KsRecord := ⟨1, 1, [], [(0, { valid := true })], []⟩

theorem test_witness_KeystoreRecordsAreWrittenTwiceThenGivenUp :
    On (wit id) (fun s => s.dev.sec.write = none ∧ (s.dev.key 1023).reloading = false ∧ s.dev.sec.kdfs = []) ∧
    (∀ r ∈ [true, false], ∀ n ∈ [0, 1], On (wit0 { sec := { write := some ⟨rcd0, n, r, [], none⟩ } }) (fun s =>
      s.dev.sec.write = some ⟨rcd0, n, r, [], none⟩ ∧ s.dev.sec.nextDue = false ∧ s.dev.count Cnt.KS_WRITE_FAIL < 0xFFFFFFFF)) ∧
    On (wit0 { ks0 := some rcd0, sec := { ksSlot := 0, keys := [(0, { reloading := true })] } }) (fun s =>
      (s.dev.key 0).reloading = true ∧ s.dev.sec.ksSlot = 0 ∧ s.dev.ks0 = some rcd0 ∧ rcd0.entries.find 0 = some { valid := true }) ∧
    On (wit0 { sec := { kdfs := [⟨0, 0, .up, 0, 0⟩], keys := [(0, { valid := true })] } }) (fun s =>
      s.dev.sec.kdfs = [⟨0, 0, .up, 0, 0⟩] ∧ (s.dev.key 0).valid = true ∧ (s.dev.key 0).gen = 0) ∧
    On (wit0 { sec := { kdfs := [⟨0, 0, .up, 0, 0⟩] } }) (fun s => (s.dev.key 0).valid = false) := by decide +kernel

theorem test_witness_MigrationIsRefusedInOrderOrStarts :
    (wit id).fresh.accepts ⟨hdr, .CMD_KEY_MIGRATE, 0, pay []⟩ ∧ On (wit id) (fun s => s.dev.keysAllowed = false) ∧
    On (wit0 { sec := { lc := 1 } }) (fun s => s.dev.keysAllowed = true ∧ s.dev.sec.migrationPending = false ∧
      s.dev.sec.write.isSome = false ∧ fld (pay []) 0x10 4 < 0x15E8) ∧
    (let p := pay [(0x10, 0xE8), (0x11, 0x15)]
     zeros p 1 7 = true ∧ zeros p 0x14 44 = true ∧ fld p 0x10 4 = 0x15E8 ∧
      On (wit0 { sec := { lc := 1 } }) (fun s => s.dev.manifestBad (slice [] 0 (fld p 0x10 4)) = some 0)) := by unfold Dev.accepts; decide +kernel

theorem test_witness_MacsecKeysAreInstalledAndRemoved :
    (∀ x ∈ [0, 1, 2, 3], (wit id).fresh.accepts ⟨hdr, .CMD_MACSEC_SAK, x, pay [(0, 3), (1, x), (2, 3)]⟩ ∧
      fld (pay [(0, 3), (1, x), (2, 3)]) 0 1 ≤ 3 ∧ fld (pay [(0, 3), (1, x), (2, 3)]) 1 1 = x ∧
      fld (pay [(0, 3), (1, x), (2, 3)]) 2 1 ≤ 3 ∧ zeros (pay [(0, 3), (1, x), (2, 3)]) 6 2 = true ∧
      zeros (pay [(0, 3), (1, x), (2, 3)]) 0x38 8 = true ∧ zeros (pay [(0, 3), (1, x), (2, 3)]) 0x10 40 = true ∧
      fld (pay [(0, 3), (1, x), (2, 3)]) 3 1 = 0 ∧ fld (pay [(0, 3), (1, x), (2, 3)]) 4 2 = 0) ∧
    On (wit id) (fun s => s.dev.keysAllowed = false) ∧
    On (wit0 { sec := { lc := 1, keys := [(0, { valid := true, usage := 32, callers := 2 })] } }) (fun s =>
      s.dev.keysAllowed = true ∧ s.dev.commandView.keyUsable 0 5 = true ∧ bit (s.dev.commandView.key 0).callers (Dev.callerBit hdr.path) = true ∧
      s.dev.sec.trngFail = false ∧ Dev.rxChannel (s.dev.eth 3) 0 = some (0, [0])) := by unfold Dev.accepts; decide +kernel

/-- The clauses on CMD_MACSEC_SAK OP 0 and 1 speak of a key that unwraps; unwrapping is AES key unwrap, which no state
computes here (Config), so their witness is conditional on it. -/
theorem test_witness_MacsecKeys_unwrap (k : List Byte)
    (h : Config.keyUnwrap [] (slice (pay [(0, 3), (2, 3)]) 0x10 40) = some k) :
    (wit0 { sec := { lc := 1, keys := [(0, { valid := true, usage := 32, callers := 2 })] } }).dev.commandView.sakOf
      (pay [(0, 3), (2, 3)]) = some k := h

def lcPay (n : Nat) (key : Nat) : List Byte :=
  pay ([(0, n), (4, 0x31), (5, 0x56), (6, 0x43), (7, 0x4C)] ++ (if key = 0 then [] else [(0x10, key)]))

theorem test_witness_OneTimeCommandsBurnWhatTheyName_lc :
    (∀ n ∈ [0, 1, 2, 3, 4], (wit id).fresh.accepts ⟨hdr, .CMD_LC_ADVANCE, 0, lcPay n 0⟩) ∧
    Dev.lcReachable 0 (fld (lcPay 2 0) 0 1) = false ∧
    (∀ n ∈ [2, 3, 4], fld (lcPay n 0) 0 1 = n ∧ fld (lcPay n 0) 4 4 = 0x4C435631 ∧ zeros (lcPay n 0) 1 3 = true ∧
      zeros (lcPay n 0) 8 8 = true ∧ zeros (lcPay n 0) 0x10 32 = true ∧ zeros (lcPay n 0) 0x30 16 = true) ∧
    On (wit0 { otp := { lc := 1, cin0Ok := true } }) (fun s => Dev.lcReachable s.dev.otp.lc 2 = true ∧
      Dev.lcReachable s.dev.otp.lc 3 = true ∧ s.dev.otp.cin0Ok = true ∧ s.dev.otp.lc < 4) ∧
    On (wit id) (fun s => s.dev.otp.lc = 0 ∧ fld (lcPay 1 7) 0 1 = 1 ∧ fld (lcPay 1 7) 4 4 = 0x4C435631 ∧
      zeros (lcPay 1 7) 0x10 32 = false ∧ (slice (lcPay 1 7) 0x10 32).all (fun b => b == 0xFF#8) = false ∧
      zeros (lcPay 1 7) 0x30 16 = true ∧ s.dev.sec.trngFail = false) := by unfold Dev.accepts; decide +kernel

def otpPay (w : Nat) : List Byte := pay [(0, w), (4, 0x48), (5, 0x50), (6, 0x54), (7, 0x4F), (0x10, 1)]

theorem test_witness_OneTimeCommandsBurnWhatTheyName_rest :
    (∀ w ∈ [0, 3], (wit id).fresh.accepts ⟨hdrCon, .CMD_OTP_HASH, 0, otpPay w⟩ ∧ fld (otpPay w) 0 1 = w ∧
      fld (otpPay w) 4 4 = 0x4F545048 ∧ zeros (otpPay w) 0x10 48 = false ∧ zeros (otpPay w) 1 3 = true ∧
      zeros (otpPay w) 8 8 = true ∧ w ∉ (wit id).dev.otp.spent ∧
      (Dev.otpHashField (wit id).dev.otp w).all (fun b => b == 0#8) = true) ∧
    On (wit id) (fun s => s.dev.sec.lc = 0 ∧ Dev.callerBit hdrCon.path = 0) ∧
    On (wit0 { otp := { spent := [0] } }) (fun s => 0 ∈ s.dev.otp.spent) ∧
    ((wit id).fresh.accepts ⟨hdr, .CMD_ROLLBACK_COMMIT, 0, pay []⟩ ∧ fld (pay []) 0 4 = (wit id).dev.sec.running ∧
      zeros (pay []) 4 60 = true) ∧
    (wit id).fresh.accepts ⟨hdr, .CMD_CINNABAR_LOCK, 0, pay []⟩ ∧
    On (wit id) (fun s => Dev.cinCheck s.dev.cinBlock (pay []) = some 1 ∧ s.dev.otp.cin0Ok = false ∧ s.dev.otp.cin1Ok = false ∧
      s.dev.otp.cin0Spent = false) := by unfold Dev.accepts; decide +kernel

theorem test_witness_TimeTakeoverAndLogCommands :
    (∀ op ∈ [Opcode.CMD_TIME_SET, .CMD_TIME_RESTEP, .CMD_TAKEOVER_READ, .CMD_LOG_DRAIN],
      (wit id).fresh.accepts ⟨hdr, op, 0, pay []⟩) ∧
    On (wit id) (fun s => s.dev.time.acquired = false ∧ s.dev.time.jumpPending = false ∧ s.dev.pair.takeover = none) ∧
    On (wit0 { time := { acquired := true, jumpPending := true } }) (fun s => s.dev.time.acquired = true ∧
      zeros (pay []) 0 64 = true ∧ s.dev.time.jumpPending = true) ∧
    On (wit0 { pair := { takeover := some ⟨true, 1, 2, 3, 4, 5, [], []⟩ } }) (fun s => s.dev.pair.restoring = false ∧
      fld (pay []) 8 4 < (Dev.takeoverOctets ⟨true, 1, 2, 3, 4, 5, [], []⟩).length ∧
      (Dev.takeoverOctets ⟨true, 1, 2, 3, 4, 5, [], []⟩).length ≤ fld (pay [(10, 1)]) 8 4 ∧ zeros (pay [(10, 1)]) 0x0C 52 = true) ∧
    (fld (pay []) 8 4 = 0 ∧ fld (pay [(9, 16)]) 8 4 = 4096 ∧ 4096 < fld (pay [(8, 1), (9, 16)]) 8 4) := by
  unfold Dev.accepts; decide +kernel

def asPay (r lo hi : Nat) : List Byte := pay [(1, r), (2, lo), (3, hi), (8, 7)]

theorem test_witness_AssociationIsDecidedOnce :
    (∀ r ∈ [0, 1], (wit id).fresh.accepts ⟨hdr, .CMD_ASSOC_DECIDE, r, asPay r 0xFE 0xFF⟩ ∧ fld (asPay r 0xFE 0xFF) 0 1 ≤ 3 ∧
      fld (asPay r 0xFE 0xFF) 1 1 = r ∧ zeros (asPay r 0xFE 0xFF) 4 4 = true ∧ zeros (asPay r 0xFE 0xFF) 0x10 48 = true) ∧
    On (wit id) (fun s => s.dev.follower = false ∧
      s.dev.air.assoc.find? (fun x => decide (x.pan = 0 ∧ x.eui = BitVec.ofNat 64 (fld (asPay 0 0 0) 8 8))) = none) ∧
    (fld (asPay 0 0xFF 0xFF) 2 2 ≠ 0xFFFE ∧ 0xFFEF < fld (asPay 0 0xF0 0xFF) 2 2 ∧ fld (asPay 0 0xFE 0xFF) 2 2 = 0xFFFE ∧
      fld (asPay 0 0xEF 0xFF) 2 2 ≤ 0xFFEF) ∧
    On (wit0 { air := { assoc := [⟨0, 7, false, 2⟩] } }) (fun s =>
      (s.dev.air.assoc.find? (fun x => decide (x.pan = 0 ∧ x.eui = BitVec.ofNat 64 (fld (asPay 0 5 0) 8 8)))).isSome = true ∧
      s.dev.indirectRoom 0 7 = true) ∧
    On (wit0 { air := { assoc := [⟨0, 7, false, 2⟩] }, cfg := reg (Reg.SEC_PAN 0) 0x68001 }) (fun s =>
      (s.dev.nodeAt 0 5).valid = false ∧ (s.dev.pan 0).used.get false 5 = false ∧ s.dev.held 0 5 = false ∧
      s.dev.findEui 0 7 = none ∧ s.dev.cfg.SEC_PAN_SLOT_EN 0 ≠ 0) ∧
    On (wit0 { air := { assoc := [⟨0, 7, false, 2⟩], indirect := List.replicate 4 ⟨{}, 0, 7, 0, false, false⟩ } }) (fun s =>
      s.dev.indirectRoom 0 7 = false) := by unfold Dev.accepts; decide +kernel

/-! ### Sequencers and ports -/

/-- Sequencer 0 stands at the instruction: the only word of its active bank. -/
def stands (i : Instr) (d : Dev) : Dev :=
  match seqRow i with
  | some (q, op, tick, args) =>
    { d with seqs := [(q, { stopped := false, act := [(0, BitVec.ofNat 64 (Dev.seqWord op tick args))] })] }
  | none => d

/-- The sequencer can issue it, and no cut is set. -/
def standsAt (d : Dev) (i : Instr) : Bool :=
  match seqRow i with
  | some (q, op, tick, args) => d.seqAt q op tick args && (d.seq q).cut.isNone
  | none => false

theorem takes_of {d : Dev} {i : Instr} (h : standsAt d i = true) : d.takes i := by
  unfold standsAt at h
  split at h
  · rename_i q op tick args e
    have h' : d.seqAt q op tick args = true ∧ (d.seq q).cut = none := by simpa using h
    exact ⟨q, op, tick, args, e, h'.1, by intro k hk; simp [h'.2] at hk⟩
  · exact absurd h (by simp)

/-- Each instruction can be issued at its place in the states named beside it. -/
theorem takes_all {l : List (Instr × Dev)} (h : l.all (fun x => standsAt x.2 x.1) = true) : ∀ x ∈ l, x.2.takes x.1 :=
  fun x hx => takes_of (List.all_eq_true.mp h x hx)

theorem still_reset {d : Dev} (h : d.txc = []) : d.still := by
  intro c; unfold Dev.carrier; rw [h]; exact ⟨rfl, rfl, rfl, rfl⟩

theorem test_witness_SequencersIssueInOrderOrNotAtAll :
    seqRow (.seqNop 0 0) = some (0, 0, 0, 0) ∧
    On (wit id) (fun s => s.dev.seqAt 0 0 0 0 = false) ∧
    On (wit0 (stands (.seqNop 0 0) {})) (fun s => s.dev.seqAt 0 0 0 0 = true ∧ s.dev.issues 0 0 0 0) ∧
    On (wit0 (sp { stopped := false, act := [(0, 0)], cut := some 0 })) (fun s => s.dev.seqAt 0 0 0 0 = true ∧
      ∃ k, (s.dev.seq 0).cut = some k ∧ k ≤ 0) :=
  ⟨rfl, by decide +kernel, ⟨by decide +kernel, by decide +kernel, by intro k hk; cases hk⟩, by decide +kernel, 0, rfl, Nat.le_refl 0⟩

/-- The instruction stands at its place while its port is as x says. -/
def withPort (i : Instr) (x : Port) : Instr × Dev := (i, stands i (po x))

theorem test_witness_SequencerControlAndTuning :
    (∀ y ∈ ([.seqNop 0 0, .seqEnd 0 0, .seqCond 0 0 1 2 3, .seqRxp 0 0 9, .seqSpi 0 0 7].map (fun i => withPort i {})) ++
        [withPort (.seqSpi 0 0 7) { spi := some ⟨1, false, none, 0⟩ }] ++
        ([PortState.off, .stby, .idle, .rx, .txpre, .tx, .retune, .cal].flatMap (fun p =>
          [Instr.seqRx 0 0, .seqRetune 0 0 false 868000, .seqRetune 0 0 true 0, .seqCal 0 0 0 0, .seqCal 0 0 5000 1].map
            (fun i => withPort i { st := p }))), (wit0 y.2).dev.takes y.1) ∧
    (∀ x ∈ [PortState.off, .stby, .idle, .rx], ((wit0 (withPort (.seqRx 0 0) { st := x }).2).dev.port 0).st = x ∧
      ((wit0 (withPort (.seqRx 0 0) { st := x }).2).dev.port 0).pendCentre = none ∧
      ((wit0 (withPort (.seqRx 0 0) { st := x }).2).dev.port 0).deferred = []) ∧
    (∀ x ∈ [PortState.txpre, .tx, .retune, .cal],
      ((wit0 (withPort (.seqRx 0 0) { st := x }).2).fresh.issued 0 0).portEngaged 0 = true) ∧
    (selBits (0#7 : BitVec 7).toNat = [] ∧ selBits (1#7 : BitVec 7).toNat ≠ []) ∧
    ((wit0 (withPort (.seqSpi 0 0 7) {}).2).dev.port 0).spi = none ∧
    ((wit0 (withPort (.seqSpi 0 0 7) { spi := some ⟨1, false, none, 0⟩ }).2).dev.port 0).spi = some ⟨1, false, none, 0⟩ ∧
    (wit0 (withPort (.seqNop 0 0) {}).2).dev.still :=
  ⟨takes_all (by decide +kernel), by decide +kernel, by decide +kernel, by decide, by decide +kernel, by decide +kernel,
    still_reset rfl⟩

/-- Port 0 in RX in Service, lane 0 and carrier 0 on it. -/
def slotted (x : Carrier) (more : Cfg) : Dev :=
  { po { st := .rx } with
    modes := { phase := .service }, txc := [(0, x)]
    cfg := [(Reg.LG_CFG 0, 0#32), (Reg.TXC_CFG 0, 0x85008801#32), (Reg.TXC_FREQ 0, 868000#32)] ++ more }

/-- The instructions on units, as the witnesses below issue them. -/
def unitIns : List Instr :=
  [.seqLfreq 0 0 0 0xFFF448, .seqLfreq 0 0 191 0, .seqLmode 0 0 0 1, .seqLmode 0 0 191 1, .seqCset 0 0 0 5, .seqCset 0 0 15 5,
    .seqCmode 0 0 0 2, .seqCmode 0 0 15 2, .seqTx 0 0 0 7 true false 100, .seqWin 0 0 0 255 100, .seqBcn 0 0 0 3 1024 100]

theorem test_witness_SequencerChannelsAndSlots :
    (∀ y ∈ [slotted {} [], slotted { own := { phase := .onAir } } [], po { st := .rx },
        { slotted {} [] with cfg := [(Reg.TXC_CFG 0, 0x95008801#32)] }].flatMap (fun d =>
          unitIns.map (fun i => (i, stands i d))), (wit0 y.2).dev.takes y.1) ∧
    On (wit0 (slotted {} [])) (fun s => s.dev.lanePort 0 = some 0 ∧ s.dev.lanePort 191 ≠ some 0 ∧ s.dev.carPort 0 = some 0 ∧
      s.dev.carPort 15 ≠ some 0 ∧ (s.dev.carrier 0).own.phase = .idle ∧ (s.dev.carrier 0).hold = none ∧
      (s.dev.carrier 0).held = none ∧ s.dev.exchanging 0 = false ∧ s.fresh.slotBarred 0 = none ∧
      s.dev.cfg.PAN_CFG_EN 0 = 0) ∧
    On (wit0 (slotted { own := { phase := .onAir } } [])) (fun s => s.dev.carPort 0 = some 0 ∧
      (s.dev.carrier 0).own.active = true) ∧
    On (wit0 (po { st := .rx })) (fun s => s.dev.modes.phase = .survey ∧ (s.dev.port 0).st ≠ .off ∧ (s.dev.port 0).st ≠ .stby) ∧
    On (wit0 { slotted {} [] with cfg := [(Reg.TXC_CFG 0, 0x95008801#32)] }) (fun s => s.dev.carPort 0 = some 1) ∧
    On (wit0 { slotted {} [] with ports := [(0, { st := .rx, centre := 868000 })] }) (fun s => s.dev.carParked 0 false = false ∧
      s.fresh.slotBarred 0 = none) :=
  ⟨takes_all (by decide +kernel), by decide +kernel⟩

theorem test_witness_SequencerChannelsAndSlots_still :
    (wit0 (slotted {} [])).dev.still ∧ ∀ m, (wit0 (slotted {} [])).dev.queue m = [] := by
  refine ⟨?_, fun m => rfl⟩
  intro c
  by_cases h : c = 0
  · subst h; exact ⟨rfl, rfl, rfl, rfl⟩
  · have e : (wit0 (slotted {} [])).dev.carrier c = {} := by
      simp [wit0, slotted, Dev.carrier, SMap.get, SMap.find, Ne.symm h]
    rw [e]; exact ⟨rfl, rfl, rfl, rfl⟩

/-- A radio side that may transmit: the gate open, carrier 0 on port 0 in a sub-band of a locked Cinnabar block. -/
def airD (ph : Phase) (x : Carrier) : Dev :=
  { modes := { phase := ph }, pair := { gateOpen := true }
    cfg := [(Reg.LG_CFG 0, 0#32), (Reg.TXC_CFG 0, 0x85008801#32), (Reg.TXC_FREQ 0, 868000#32)]
    cin := { locked := true, numSb := 1, dutyWindow := 3600, ports := [(0, { txPermitted := true })]
             sb := [(0, { fLo := 863000, fHi := 870000, maxEirp := 100, duty := 1000, valid := true })] }
    ports := [(0, { st := .rx, locked := true, centre := 868000 })], txc := [(0, x)] }

/-- Carrier 0 may send a beacon of PAN 3. -/
def bcnD : Dev := { airD .service {} with
  cfg := [(Reg.LG_CFG 0, 0#32), (Reg.TXC_CFG 0, 0x85008801#32), (Reg.TXC_FREQ 0, 868000#32), (Reg.PAN_CFG 3, 0x80000001#32)] }

theorem test_witness_SequencerChannelsAndSlots_beacon :
    On (wit0 (stands (.seqBcn 0 0 0 3 1024 1000) bcnD)) (fun s => s.dev.takes (.seqBcn 0 0 0 3 1024 1000) ∧
      s.fresh.slotBarred 0 = none ∧ s.dev.carPort 0 = some 0 ∧ s.dev.carParked 0 false = false ∧ s.dev.cfg.PAN_CFG_EN 3 ≠ 0 ∧
      s.dev.cfg.PAN_CFG_BCN_SEC 3 ≠ 1 ∧ (s.dev.carrier 0).hold = none ∧ (s.dev.carrier 0).own.phase = .idle ∧
      (s.dev.port 0).st = .rx ∧ (s.dev.port 0).step ≠ .returning ∧
      s.dev.sbPermits 0 (s.dev.carKhz 0) (s.dev.carMode 0) = true ∧ s.dev.lbtReq (s.dev.carKhz 0) (s.dev.carMode 0) = false ∧
      (let f := (s.fresh.issued 0 0).beaconFrame 3 0 1024
       let x := (s.fresh.issued 0 0).modCarrier 0 (fun y => { y with own := { phase := .backoff, cur := some f }, bcnClose := 100000 })
       x.decideCheck 0 false f = none ∧ (x.powerOf 0 false f).isSome = true)) :=
  ⟨takes_of (by decide +kernel), by decide +kernel⟩

def spiPay (q op : Nat) : List Byte := pay [(0, q), (1, op)]
def spi0 (read : Bool) (n : Nat) : SpiTxn := ⟨7, read, some ⟨hdr, .CMD_FEM_SPI, ofBool read, []⟩, n⟩
def testCmd : Cmd := ⟨hdr, .CMD_RF_TEST_TX, 0, pay [(8, 0xE8), (9, 3)]⟩
def testFrame : TxFrame := { kind := .test, durUs := fld testCmd.p 8 4, power := some (sext 16 (fld testCmd.p 4 2)) }

theorem test_witness_RfCommandsAreRefusedOrRun_spi :
    (∀ r ∈ [false, true], (wit id).fresh.accepts ⟨hdr, .CMD_FEM_SPI, ofBool r, spiPay 3 (ofBool r)⟩ ∧
      fld (spiPay 3 (ofBool r)) 1 1 = ofBool r) ∧
    On (wit id) (fun s => (s.dev.port 3).spi = none ∧ (s.dev.port 3).st = .off ∧ s.dev.cfg.FEM_SPI_CTL_VERIFY 3 = 0) := by
  unfold Dev.accepts; decide +kernel

def spiD (x : SpiTxn) (ws : List W32) (hs : List SpiTxn) : Dev :=
  { po { spi := some x, spiWait := ws, spiHost := hs } with cfg := reg (Reg.FEM_SPI_CTL 0) 0x4028 }

theorem test_witness_RfCommandsAreRefusedOrRun_spiDone :
    ∀ r ∈ [false, true], ∀ n ∈ [0, 1], ∀ q ∈ [(([] : List W32), ([] : List SpiTxn)), ([5], []), ([], [spi0 true 0])],
      ((spiD (spi0 r n) q.1 q.2).port 0).spi = some (spi0 r n) ∧ (spi0 r n).read = r ∧
      ((spiD (spi0 r n) q.1 q.2).port 0).spiWait = q.1 ∧ ((spiD (spi0 r n) q.1 q.2).port 0).spiHost = q.2 ∧
      (spiD (spi0 r n) q.1 q.2).cfg.FEM_SPI_CTL_VERIFY 0 ≠ 0 ∧ (spi0 r n).attempt = n ∧
      SMap.rising (spiD (spi0 r n) q.1 q.2).txc = true := by decide +kernel

theorem test_witness_RfCommandsAreRefusedOrRun_cal :
    (∀ sel ∈ [0, 1, 0x7F, 0x80], (wit id).fresh.accepts ⟨hdr, .CMD_RF_CAL, 0, pay [(1, sel)]⟩ ∧
      zeros (pay [(1, sel)]) 2 62 = true) ∧
    On (wit0 (po { st := .rx })) (fun s => s.dev.modes.phase = .survey ∧ s.dev.follower = false ∧ (s.dev.port 0).st = .rx ∧
      s.dev.nextUse 0 Dev.usesPort = none) ∧
    On (wit0 (po { st := .cal, cal := some ⟨[0, 6], false, 0, true, none⟩ })) (fun s => (s.dev.port 0).st = .cal ∧
      (s.dev.port 0).cal = some ⟨[0, 6], false, 0, true, none⟩) ∧
    On (wit0 (po { st := .cal, cal := some ⟨[3], false, 0, false, some ⟨hdr, .CMD_RF_CAL, 0, []⟩⟩ })) (fun s =>
      (s.dev.port 0).cal = some ⟨[3], false, 0, false, some ⟨hdr, .CMD_RF_CAL, 0, []⟩⟩) ∧
    On (wit id) (fun s => (s.dev.port 0).st ≠ .cal) := by unfold Dev.accepts; decide +kernel

theorem test_witness_RfCommandsAreRefusedOrRun_test :
    (wit0 (airD .test {})).fresh.accepts testCmd ∧
    On (wit0 (airD .test {})) (fun s => s.dev.modes.phase = .test ∧ s.dev.follower = false ∧ s.dev.testBad testCmd.p = false ∧
      (s.dev.port 0).st = .rx ∧ (s.dev.carrier 0).own.phase = .idle ∧ (s.dev.carrier 0).hold = none ∧
      (s.dev.carrier 0).test.isSome = false) ∧
    On (wit0 (((wit0 (airD .test {})).fresh.taken testCmd |>.holdCmd testCmd).modCarrier 0 (fun y => { y with
        test := some testCmd, testKhz := if fld testCmd.p 0x0C 4 = 0 then none else some (fld testCmd.p 0x0C 4)
        own := { phase := .cca, cur := some testFrame } }))) (fun s =>
      s.dev.lbtReq (s.dev.carKhz 0) (s.dev.carMode 0) = false ∧ s.dev.decideCheck 0 false testFrame = none ∧
      s.dev.powerOf 0 false testFrame = some 0) ∧
    On (wit0 (airD .test { own := { phase := .onAir, cur := some testFrame }, test := some testCmd })) (fun s =>
      (s.dev.carrier 0).own.phase = .onAir ∧ (s.dev.carrier 0).own.cur = some testFrame ∧
      (s.dev.carrier 0).test = some testCmd) ∧
    (∀ p ∈ [PortState.retune, .txpre, .tx, .cal], (wit0 { airD .test {} with ports := [(0, { st := p })] }).fresh.accepts testCmd) ∧
    (∀ p ∈ [PortState.off, .stby, .idle], On (wit0 { airD .test {} with ports := [(0, { st := p })] }) (fun s =>
      (s.dev.port 0).st ≠ .cal ∧ (s.dev.port 0).st ≠ .retune ∧ (s.dev.port 0).st ≠ .txpre ∧ (s.dev.port 0).st ≠ .tx)) ∧
    On (wit0 (airD .test { test := some testCmd })) (fun s => (s.dev.carrier 0).test ≠ none ∧ s.dev.testBad testCmd.p = false) := by
  unfold Dev.accepts; decide +kernel

/-- A test transmission on air whose end begins the port's return to RX. -/
def testAir : Dev := { airD .test { own := { phase := .onAir, cur := some testFrame }, test := some testCmd } with
  ports := [(0, { st := .tx, locked := true, centre := 868000 })] }

theorem test_witness_RfCommandsAreRefusedOrRun_testEnd :
    On (wit0 testAir) (fun s => (s.dev.carrier 0).own.phase = .onAir ∧ (s.dev.carrier 0).own.cur = some testFrame ∧
      (s.dev.carrier 0).test = some testCmd ∧ s.dev.carPort 0 = some 0 ∧ (s.dev.port 0).st = .tx ∧
      (s.dev.port 0).denied = [] ∧ SMap.rising s.dev.txc = true ∧ (s.dev.carrier 0).hold = none) ∧
    ∀ x, x ≠ 0 → ((wit0 testAir).dev.carrier x).hold = none ∧ ((wit0 testAir).dev.carrier x).own.phase = .idle ∧
      ((wit0 testAir).dev.carrier x).testPwr = none := by
  refine ⟨by decide +kernel, fun x hx => ?_⟩
  have e : (wit0 testAir).dev.carrier x = {} := by
    simp [wit0, testAir, airD, Dev.carrier, SMap.get, SMap.find, Ne.symm hx]
  rw [e]; exact ⟨rfl, rfl, rfl⟩

def powerD (g k : Bool) : Dev :=
  { po { coeffs := k } with cfg := reg (Reg.RF_CTL 0) 1, modes := { decided := true }, pair := { gateOpen := g } }

theorem test_witness_PortsMoveAsTheirEventsSay_power :
    ∀ g ∈ [false, true], ∀ k ∈ [false, true], On (wit0 (powerD g k)) (fun s =>
      (s.dev.port 0).st = .off ∧ s.dev.cfg.RF_CTL_ENABLE 0 = 1 ∧ s.dev.runs = true ∧ s.dev.modes.decided = true ∧
      s.dev.pair.gateOpen = g ∧ (s.dev.port 0).fault = false ∧ (s.dev.port 0).calHold = false ∧
      (s.dev.port 0).coeffs = k) := by decide +kernel

theorem test_witness_PortsMoveAsTheirEventsSay :
    On (wit id) (fun s => s.dev.modes.decided = false) ∧
    On (wit0 { po { st := .stby, step := .locking } with pair := { gateOpen := true }, cfg := reg (Reg.RF_CTL 0) 1 })
      (fun s => (s.dev.port 0).st = .stby ∧ (s.dev.port 0).step = .locking ∧ s.dev.pair.gateOpen = true ∧
        s.dev.cfg.RF_CTL_ENABLE 0 ≠ 0) ∧
    On (wit id) (fun s => s.dev.cfg.RF_CTL_ENABLE 3 ≠ 1 ∧ (s.dev.port 3).st ≠ .stby ∧ (s.dev.port 3).step ≠ .returning) ∧
    On (wit0 (po { st := .stby })) (fun s => (s.dev.port 0).st = .stby ∧ s.dev.cfg.RF_CTL_ENABLE 0 = 0) ∧
    On (wit0 (po { st := .retune })) (fun s => (s.dev.port 0).deferred = [] ∧ (s.dev.port 0).pendCentre = none ∧
      (s.dev.port 0).st = .retune) ∧
    On (wit0 { po { st := .stby, step := .reopening } with pair := { gateOpen := true }, cfg := reg (Reg.RF_CTL 0) 1 })
      (fun s => (s.dev.port 0).st = .stby ∧ (s.dev.port 0).step = .reopening ∧ s.dev.pair.gateOpen = true ∧
        s.dev.cfg.RF_CTL_ENABLE 0 ≠ 0 ∧ (s.dev.port 0).deferred = [] ∧ (s.dev.port 0).pendCentre = none) ∧
    On (wit0 { po { st := .tx, step := .returning } with txc := [(3, { testPwr := some 7, testPort := 0, test := some testCmd })] })
      (fun s => (s.dev.port 0).step = .returning ∧ (s.dev.port 0).deferred = [] ∧ (s.dev.port 0).pendCentre = none ∧
        (s.dev.carrier 3).testPwr = some 7 ∧ (s.dev.carrier 3).testPort = 0 ∧ (s.dev.carrier 3).test = some testCmd ∧
        ∀ x, x < 16 → x ≠ 3 → (s.dev.carrier x).testPwr = none) ∧
    On (wit0 { slotted { own := { phase := .onAir } } [] with
        cfg := [(Reg.COEX_CTL 0, 5#32), (Reg.TXC_CFG 0, 0x85008801#32)] }) (fun s => s.dev.cfg.COEX_CTL_EN 0 = 1 ∧
      (s.dev.port 0).rxp = false ∧ s.dev.cfg.COEX_CTL_REVOKE_ABORT 0 ≠ 0 ∧ s.dev.carPort 0 = some 0 ∧ (s.dev.carrier 0).own.phase = .onAir) := by
  decide +kernel

/-! ### Lanes, carriers, frames -/

/-- Lane 0 on port 0 in RX, as x says. -/
def laneAt (x : Lane) (cfg : W32) : Dev :=
  { la x with ports := [(0, { st := .rx })], cfg := [(Reg.LG_CFG 0, 0#32), (Reg.LANE_CFG 0, cfg)] }

/-- A PSDU with its 16-bit check. -/
def psdu16 (b : List Byte) : List Byte := b ++ le 2 (crc16 b)

theorem test_witness_LanesReceiveStepByStep :
    On (wit0 (la { st := .search })) (fun s => (s.dev.lane 0).st = .search) ∧
    On (wit id) (fun s => (s.dev.lane 191).st ≠ .search ∧ (s.dev.lane 191).st ≠ .preamble ∧ (s.dev.lane 191).st ≠ .header ∧
      (s.dev.lane 191).st ≠ .payload ∧ (s.dev.lane 191).st.inFrame = false) ∧
    On (wit0 (laneAt { st := .preamble } 0xC6080801#32)) (fun s => (s.dev.lane 0).st = .preamble ∧
      (modeOf (s.dev.laneMode 0)).isSome = true ∧ s.dev.lanePort 0 = some 0 ∧ (s.dev.lane 0).held.isNone = true ∧
      (s.dev.lane 0).rx.capUp ≠ some s.dev.up ∧
      (modeOf (s.dev.laneMode 0)).map (fun m => [28494, 36942, 0].map (syncKind m.family (bits (s.dev.laneWord 0) 13 13))) =
        some [some true, some false, none]) ∧
    On (wit0 (la { st := .preamble, rx := { capUp := some 0 } })) (fun s => (s.dev.lane 0).rx.capUp = some s.dev.up) ∧
    On (wit0 (laneAt { st := .header } 0xC6080801#32)) (fun s => (s.dev.lane 0).st = .header ∧
      ((modeOf (s.dev.laneMode 0)).map (fun m => (phrOf m 0).reason)) ≠ some 0 ∧
      ((modeOf (s.dev.laneMode 0)).map (fun m => (phrOf m 0x2808).reason)) = some 0) ∧
    On (wit0 (laneAt { st := .payload, rx := { buffered := true, fcs2 := true, len := 5 } } 0xC6080801#32)) (fun s =>
      (s.dev.lane 0).st = .payload ∧ (s.dev.lane 0).rx.buffered = true ∧
      whiten (s.dev.lane 0).rx.whitened (slice (psdu16 [1#8, 2#8, 3#8]) 0 (s.dev.lane 0).rx.len) = psdu16 [1#8, 2#8, 3#8] ∧
      fcsOk (s.dev.lane 0).rx.fcs2 (psdu16 [1#8, 2#8, 3#8]) = true ∧ (s.dev.lane 0).nextE = none ∧
      s.dev.frameEnded 0 = false ∧
      (s.dev.port (s.dev.lane 0).rx.port).rxlog.length < 4096 ∧ (s.dev.lane 0).st.inFrame = true ∧ bit (s.dev.laneWord 0) 30 = true ∧
      s.dev.captureMargin 0 ≤ 1000 - (s.dev.lane 0).rx.eRef ∧ 0 - (s.dev.lane 0).rx.eRef < s.dev.captureMargin 0) ∧
    On (wit0 (laneAt { st := .payload } 0x86080801#32)) (fun s => bit (s.dev.laneWord 0) 30 = false) ∧
    On (wit0 { laneAt { st := .payload, nextE := some 7, rx := { buffered := true, fcs2 := true, len := 5 } } 0xC6080801#32 with
        time := { up := 4000000 } }) (fun s =>
      s.dev.frameEnded 0 = true ∧ (s.dev.lane 0).nextE = some 7 ∧ s.dev.laneRest 0 = .search) := by decide +kernel

def af : TxFrame := { kind := .assoc, psduLen := 20, fcs2 := true, uid := 3 }
def openSlot : Slot := { classes := 1, multi := true, close := 1000000 }
def inPhase (p : TxPhase) (f : TxFrame) : Carrier := { own := { phase := p, cur := some f, queue := some 0 }, slot := some openSlot }

theorem test_witness_TransmissionsRunFromAccessToTheirEnd_own :
    On (wit0 { airD .service { slot := some openSlot } with tm := { queues := [(0, [.air { af with kind := .data }])] } }) (fun s =>
      s.dev.portReady 0 = true ∧ s.dev.tickOpen 0 = false ∧ s.dev.lockCome 0 0 = false ∧
      (s.dev.carrier 0).slot = some openSlot ∧ s.dev.slotClass 0 openSlot = some 0 ∧
      (s.dev.carOf 0).filter (fun y => s.dev.lockCome 0 y || (s.dev.mayRelease y && !s.dev.yields 0 y)) = [0]) ∧
    On (wit0 (airD .service (inPhase .waitLock af))) (fun s => s.dev.portReady 0 = true ∧ s.dev.tickOpen 0 = false ∧
      s.dev.lockCome 0 0 = true ∧ (s.dev.carrier 0).own.queue = some 0 ∧
      (s.dev.carOf 0).filter (fun y => s.dev.lockCome 0 y || (s.dev.mayRelease y && !s.dev.yields 0 y)) = [0]) ∧
    On (wit id) (fun s => s.dev.portReady 0 = false ∧ ∀ q : Fin 4, (s.dev.port q.val).denied.any (fun x => x.1 == 15) = false) ∧
    On (wit0 { airD .service {} with ports := [(0, { st := .txpre, denied := [(0, 40000)] })] }) (fun s =>
      (s.dev.carrier 0).own.phase ≠ .granted ∧ (s.dev.carrier 0).hold = none ∧
      (s.dev.port 0).denied.any (fun x => x.1 == 0) = true ∧ (s.dev.port 0).st = .txpre ∧
      (s.dev.activeOn 0).isEmpty = true ∧ (s.dev.port 0).denied.del 0 = []) ∧
    On (wit id) (fun s => (s.dev.carrier 15).slot = none ∧ (s.dev.carrier 15).own.phase = .idle ∧ (s.dev.carrier 15).hold = none) ∧
    On (wit0 (airD .service { slot := some openSlot })) (fun s => (s.dev.carrier 0).own.phase = .idle ∧
      s.dev.slotClass (s.dev.portOf 0) openSlot = none) ∧
    (∀ p ∈ [TxPhase.backoff, .cca, .txpre, .granted, .onAir, .waitLock, .ackWait], On (wit0 (airD .service (inPhase p af)))
      (fun s => (s.dev.carrier 0).own.phase = p ∧ (s.dev.carrier 0).own.cur = some af ∧ (s.dev.carrier 0).own.queue = some 0 ∧
        (s.dev.carrier 0).own.waitOver = false ∧ (s.dev.carrier 0).own.aborted = false ∧ af.bad = false ∧
        s.dev.ackPrecedes 0 = false ∧ (s.dev.port (s.dev.portOf 0)).rxp = false ∧
        s.dev.cfg.COEX_CTL_EN (s.dev.portOf 0) ≠ 1)) ∧
    On (wit0 (airD .service (inPhase .cca af))) (fun s => s.dev.ccaBusy 0 false (-480) = false ∧
      s.dev.decideCheck 0 false af = none ∧ s.dev.powerOf 0 false af = some (-120)) ∧
    On (wit0 (airD .service (inPhase .cca { kind := .beacon }))) (fun s => s.dev.ccaBusy 0 false 0 = true) ∧
    On (wit0 { airD .service (inPhase .txpre { af with kind := .data }) with
        cfg := [(Reg.COEX_CTL 0, 1#32), (Reg.LG_CFG 0, 0#32), (Reg.TXC_CFG 0, 0x85008801#32), (Reg.TXC_FREQ 0, 868000#32)] }) (fun s =>
      s.dev.cfg.COEX_CTL_EN (s.dev.portOf 0) = 1 ∧ false = (s.dev.cfg.COEX_CTL_GNT_ACTIVE_LOW (s.dev.portOf 0) == 1)) ∧
    On (wit0 (airD .service (inPhase .txpre { af with kind := .data }))) (fun s =>
      (s.fresh.grantData { af with kind := .data }).isSome = true ∧
      (s.dev.nodeAt { af with kind := .data }.pan { af with kind := .data }.loc).valid = false) ∧
    On (wit0 (airD .service (inPhase .onAir { af with kind := .data, ar := true, stampSeq := some 9 }))) (fun s =>
      s.dev.frameAr { af with kind := .data, ar := true, stampSeq := some 9 } = true ∧ s.dev.frameAr { af with kind := .data } = false ∧
      (s.dev.port (s.dev.portOf 0)).stamps.length < 256) := by decide +kernel

/-- A head frame with an open slot on carrier 0, and no grant gate: the release of a frame at once. -/
def headD : Dev := { airD .service { slot := some openSlot } with
  seqs := [(0, { usable := [(0, 1000000)] })]
  tm := { queues := [(0, [.air { af with kind := .data, sh := { fc := some 1 } }])] } }

theorem test_witness_TransmissionsRunFromAccessToTheirEnd_release :
    On (wit0 headD) (fun s => (∀ q ∈ [1, 2, 3], s.fresh.pumpOne q = none) ∧ s.dev.portReady 0 = true ∧ s.dev.tickOpen 0 = false ∧
      (s.dev.carrier 0).slot = some openSlot ∧ s.dev.slotClass 0 openSlot = some 0 ∧
      (s.dev.carOf 0).filter (fun y => s.dev.mayRelease y && !s.dev.yields 0 y) = [0]) ∧
    (∀ y, ((wit0 headD).dev.carrier y).testPwr = none ∧ ((wit0 headD).dev.carrier y).own.phase ≠ .waitLock ∧
      ((wit0 headD).dev.carrier y).own.phase ≠ .ackWait ∧ ((wit0 headD).dev.carrier y).hold = none) ∧
    ((wit0 headD).fresh.startTx 0 0 0).quiet := by
  have e : ∀ (d : Dev) (x : Carrier), d.txc = [(0, x)] → ∀ c, d.carrier c = if c = 0 then x else {} := by
    intro d x h c
    unfold Dev.carrier; rw [h]
    by_cases hc : c = 0
    · subst hc; rfl
    · simp [SMap.get, SMap.find, hc, Ne.symm hc]
  have hx : ((wit0 headD).fresh.startTx 0 0 0).txc = [(0, ((wit0 headD).fresh.startTx 0 0 0).carrier 0)] := by decide +kernel
  have h0 : (((wit0 headD).fresh.startTx 0 0 0).carrier 0).own.phase ≠ .idle ∧
      (((wit0 headD).fresh.startTx 0 0 0).carrier 0).testPwr = none ∧
      (((wit0 headD).fresh.startTx 0 0 0).carrier 0).own.phase ≠ .waitLock ∧
      (((wit0 headD).fresh.startTx 0 0 0).carrier 0).own.phase ≠ .ackWait ∧
      (((wit0 headD).fresh.startTx 0 0 0).carrier 0).hold = none := by decide +kernel
  refine ⟨by decide +kernel, fun y => ?_, fun c => ?_⟩
  · rw [e (wit0 headD).dev _ rfl y]
    by_cases hy : y = 0
    · simp only [hy, if_true]; decide
    · simp only [hy, if_false]; decide
  · rw [e _ _ hx c]
    by_cases hc : c = 0
    · simp only [hc, if_true]
      obtain ⟨a, b, c', d', e'⟩ := h0
      exact ⟨.inr (.inl a), b, c', fun h => d' h.1, fun h hh => by simp [e'] at hh⟩
    · simp only [hc, if_false]
      exact ⟨.inl (by decide), by decide, by decide, by decide, fun h hh => by cases hh⟩

def ackHold : Hold := { lane := 0, khz := 868000, mode := 1, tx := { phase := .sched, cur := some { kind := .ack, fcs2 := true, psduLen := 5 } } }

theorem test_witness_TransmissionsRunFromAccessToTheirEnd_ack :
    On (wit0 (airD .service { hold := some ackHold })) (fun s => (s.dev.carrier 0).hold = some ackHold ∧ ackHold.tx.phase = .sched ∧
      s.dev.decideCheck 0 true { kind := .ack, fcs2 := true, psduLen := 5 } = none ∧
      (s.dev.powerOf 0 true { kind := .ack, fcs2 := true, psduLen := 5 }).isSome = true) ∧
    On (wit0 (airD .survey { hold := some ackHold })) (fun s =>
      (s.dev.decideCheck 0 true { kind := .ack, fcs2 := true, psduLen := 5 }).isSome = true) := by decide +kernel

/-- An Association request to the broadcast address of PAN 0x1234, with its check, as a stored PSDU. -/
def assocReq : List Byte :=
  psdu16 ([0x03#8, 0xC8#8, 1#8, 0x34#8, 0x12#8, 0xFF#8, 0xFF#8, 0x34#8, 0x12#8] ++ le 8 7 ++ [1#8, 0x80#8])

def recAt (r : RxRecord) (b : List Byte) (ph : Phase) : Dev :=
  { modes := { phase := ph }, ports := [(0, { rxlog := [(r.seq, r)], rxData := [(r.seq, b)] })]
    cfg := reg (Reg.PAN_CFG 0) 0x90001234 }

def fcs2Rec : RxRecord := { seq := 9, flags := 0x10 }

theorem test_witness_ReceivedFramesAreDecidedInOrder_records :
    On (wit id) (fun s => (s.dev.port 3).rxlog.find 65535 = none ∧ s.dev.air.groups.isEmpty = true ∧
      s.dev.air.indirect.isEmpty = true ∧ (s.dev.nbr 63).valid = false) ∧
    On (wit0 (recAt { fcs2Rec with outcome := 3 } [] .service)) (fun s => (s.dev.port 0).rxlog.find 9 = some { fcs2Rec with outcome := 3 }) ∧
    On (wit0 (recAt fcs2Rec assocReq .survey)) (fun s => (s.dev.port 0).rxlog.find 9 = some fcs2Rec ∧ fcs2Rec.outcome = 0 ∧
      fcs2Rec.seq = 9 ∧ (s.dev.port 0).decided.contains 9 = false ∧ s.dev.modes.phase = .survey) ∧
    On (wit0 (recAt fcs2Rec assocReq .service)) (fun s => s.dev.modes.phase ≠ .survey ∧ s.dev.runs = true ∧
      (match s.fresh.early 0 (s.dev.recMac 0 fcs2Rec) with | .ok k => k == 0 | .error _ => false) = true ∧
      ∀ g ∈ s.dev.air.groups, g.pan ≠ 0) ∧
    On (wit0 (recAt fcs2Rec (psdu16 [0x07#8, 0#8, 1#8]) .service)) (fun s =>
      (match s.fresh.early 0 (s.dev.recMac 0 fcs2Rec) with | .ok _ => false | .error _ => true) = true) ∧
    On (wit0 (recAt fcs2Rec (psdu16 [0x02#8, 0#8, 1#8]) .service)) (fun s => (s.dev.recMac 0 fcs2Rec).ftype = 2) ∧
    On (wit0 { air := { groups := [⟨{}, 0, none, fcs2Rec, 0, false, [⟨0, 9, 0, 0⟩], [], false, false, none⟩] } }) (fun s =>
      s.dev.air.groups.length = 1 ∧ (s.dev.port 0).rxlog.find 9 = none) := by decide +kernel

def rx0 : RxPending := ⟨{ ftype := 1, secured := true, secLevel := 5, keyIdMode := 1, keyIndex := 0x80, fc := some 6 }, 0, some 5,
  { seq := 9 }, 0, false, [], [], true, true, none⟩
def node5 : NodeEntry := { valid := true, short := 5, loc := 5, pan := 0, lastFc := 5 }

/-- The clause on an uplink frame that passes R432 speaks of one that CCM* opens; CCM* is not computed here (Config), so its
witness is conditional on it. -/
theorem test_witness_ReceivedFramesAreDecidedInOrder_ccm (plain : List Byte)
    (h : Config.ccmOpen [] (Dev.nonceOf 0 6 5) [] (micOctets 5) [] = some plain) :
    On (wit0 { air := { ccm := [rx0] }, tbl := { node := { slots := [(home 0 5, node5)] } } }) (fun s =>
      s.dev.air.ccm.findIdx? (fun x => decide (bits x.rcd.flags 15 14 = 0 ∧ x.rcd.seq = 9)) = some 0 ∧ s.dev.air.ccm[0]? = some rx0 ∧
      node5 = s.dev.nodeAt rx0.pan (rx0.loc.getD 0xFFFF) ∧ node5.valid = true ∧
      s.dev.inEngine rx0 = true ∧ rx0.mac.mesh = none ∧ rx0.mac.ftype = 1 ∧
      s.dev.air.removing = [] ∧ s.fresh.uplinkChecks rx0 node5 = .ok plain) := by
  refine ⟨by decide +kernel, rfl, by decide +kernel, rfl, by decide +kernel, rfl, rfl, rfl, ?_⟩
  simp only [Dev.uplinkChecks, rx0, node5]
  simp [RxMac.counter, h]

/-- A frame that has no engine yet: the key it needs is still being derived. -/
theorem test_witness_ReceivedFramesAreDecidedInOrder_waits :
    On (wit0 { air := { ccm := [{ rx0 with keyTag := some ⟨3, 0, .up, 0, 0⟩ }] }, sec := { kdfs := [⟨3, 0, .up, 0, 0⟩] } }) (fun s =>
      (s.dev.air.ccm.find? (fun x => decide (bits x.rcd.flags 15 14 = 0 ∧ x.rcd.seq = 9))).map s.dev.inEngine = some false) := by
  decide +kernel

def ind (x : Bool) : Indirect := ⟨{ kind := .assoc, fcs2 := true }, 0, 7, 0, x, false⟩
def gapHold : Hold := { lane := 0, khz := 868000, mode := 1, poll := some (0, 7), gap := true }
def assocOut : TxFrame := { kind := .assoc, fcs2 := true, coded := match modeOf 1 with | some m => Dev.codedIn m | none => false
                            psduLen := assocPsduLen 2 }

theorem test_witness_ReceivedFramesAreDecidedInOrder_rest :
    On (wit0 { air := { indirect := [ind true, ind false] } }) (fun s => s.dev.air.indirect[0]? = some (ind true) ∧
      s.dev.air.indirect[1]? = some (ind false)) ∧
    On (wit id) (fun s => (s.dev.carrier 0).hold = none) ∧
    On (wit0 (airD .service { hold := some gapHold })) (fun s => (s.dev.carrier 0).hold = some gapHold ∧ gapHold.gap = true ∧
      s.dev.air.indirect.findIdx? (fun x => decide (x.pan = 0 ∧ x.eui = 7)) = none) ∧
    On (wit0 { airD .service { hold := some gapHold } with air := { indirect := [ind false] } }) (fun s =>
      s.dev.air.indirect.findIdx? (fun x => decide (x.pan = 0 ∧ x.eui = 7)) = some 0 ∧ (ind false).inExch = false ∧
      s.dev.lbtReq gapHold.khz gapHold.mode = false) ∧
    On (wit0 { airD .service { hold := some { gapHold with gap := false, tx := { phase := .sched, cur := some assocOut } } } with
        air := { indirect := [{ ind true with frame := assocOut }] } }) (fun s => s.dev.decideCheck 0 true assocOut = none ∧
      (s.dev.powerOf 0 true assocOut).isSome = true) ∧
    (∀ n ∈ [0, 1, 2, 3], On (wit0 { air := { nbrs := [(63, { valid := true, misses := n })] } }) (fun s =>
      (s.dev.nbr 63).valid = true ∧ (s.dev.nbr 63).heardInWindow = false ∧ (s.dev.nbr 63).nextBcnMs = 0xFFFF ∧
      (s.dev.nbr 63).lost = false)) ∧
    On (wit0 { air := { nbrs := [(0, { valid := true, heardInWindow := true })] } }) (fun s => (s.dev.nbr 0).valid = true ∧
      (s.dev.nbr 0).heardInWindow = true) ∧
    (60 < 61 ∧ (60 : Nat) ≠ (0 + 1) % 61) := by decide +kernel

/-! ### Packet pipelines -/

def pk : Packet := { src := 4, data := [0#8, 1#8, 2#8, 3#8] }
def py (f : PipeSt → PipeSt) : PipeSt := f { cur := some pk, pass := 1, prog := 4, w := pk.data }
def pd (y : PipeSt) : Dev := { pipe := { pipes := [(0, y)], progs := [(4, (0, [0, 0]))] } }

/-- The pass of pipeline 0 on `pk` stands at the instruction, the first word of its program. -/
def actIn (j : Instr) (y : PipeSt) : Dev :=
  { pipe := { pipes := [(0, y)], progs := [(4, (0, [((actRow j).getD (0, 0)).2, 0]))] } }

/-- The pass stands there, and what it reads is ready. -/
def actReady (j : Instr) (reads : List Nat) (y : PipeSt) : Bool :=
  match actRow j with
  | some (i, w) => decide (i = 0 ∧ y.cur = some pk ∧ y.recirc = false) && y.ready reads &&
      (match (actIn j y).progOf y.oldBank y.prog with | some p => decide (p.2[y.pc]? = some w) | none => false)
  | none => false

theorem acts_of {j : Instr} {reads : List Nat} {y : PipeSt} (h : actReady j reads y = true) :
    (wit0 (actIn j y)).dev.acts j reads pk y := by
  unfold actReady at h
  split at h
  · rename_i i w e
    split at h
    · rename_i p hp
      have h' : ((i = 0 ∧ y.cur = some pk ∧ y.recirc = false) ∧ y.ready reads = true) ∧ p.2[y.pc]? = some w := by simpa using h
      obtain ⟨⟨⟨rfl, hc, hr⟩, hd⟩, hw⟩ := h'
      exact ⟨⟨0, w, p, e, ⟨rfl, hc, hr⟩, hp, hw⟩, hd⟩
    · simp at h
  · exact absurd h (by simp)

/-- Each instruction can issue, with the operands it reads, in the pipeline state beside it. -/
theorem acts_all {l : List (Instr × List Nat × PipeSt)} (h : l.all (fun x => actReady x.1 x.2.1 x.2.2) = true) :
    ∀ x ∈ l, (wit0 (actIn x.1 x.2.2)).dev.acts x.1 x.2.1 pk x.2.2 :=
  fun x hx => acts_of (List.all_eq_true.mp h x hx)

def look (d rb : Nat) : LookupReq := ⟨d, rb, true, [], 0⟩
def pend (n : Nat) : PipeSt := py fun y => { y with lookups := List.replicate n (look 3 0) }

/-- Register instructions with the registers they read. -/
def regIns : List (Instr × List Nat) :=
  [(.actMovi 0 3 5, []), (.actLui 0 3 5, [3]), (.actAdd 0 3 4 5, [4, 5]), (.actAddi 0 3 4 0x2001, [4]), (.actSub 0 3 4 5, [4, 5]),
    (.actAnd 0 3 4 5, [4, 5]), (.actOr 0 3 4 5, [4, 5]), (.actXor 0 3 4 5, [4, 5]), (.actExt 0 3 4 31 31, [4]),
    (.actBeq 0 4 5 63, [4, 5]), (.actBne 0 4 5 63, [4, 5]), (.actBltu 0 4 5 63, [4, 5]), (.actBgeu 0 4 5 63, [4, 5]),
    (.actBeqi 0 4 255 63, [4]), (.actBnei 0 4 255 63, [4]), (.actBbs 0 4 31 63, [4]), (.actBbc 0 4 31 63, [4]), (.actJmp 0 63, [])]

theorem test_witness_ActionArithmeticAndBranches :
    (∀ x ∈ (.actNop 0, [], py id) :: (.actIns 0 3 4 31 31, [3, 4], py id) :: regIns.map (fun r => (r.1, r.2, py id)),
      (wit0 (actIn x.1 x.2.2)).dev.acts x.1 x.2.1 pk x.2.2) ∧
    (∀ x ∈ [(Instr.actAdd 0 3 4 3, ([] : List Nat), pend 1), (.actBeq 0 3 5 63, [], pend 1)],
      (wit0 (actIn x.1 x.2.2)).dev.acts x.1 x.2.1 pk x.2.2) ∧ (pend 1).ready [4, 3] = false ∧ (pend 1).ready [3, 5] = false ∧
    (actRow (.actNop 0) = some (0, 0) ∧ ∀ x y, ¬ (wit id).dev.actAt (.actNop 0) x y) ∧
    (actIn (.actNop 0) (py id)).progOf false 4 = some (0, [0, 0]) ∧ (1 < 2 ∧ (2 : Nat) ≤ 2) := by
  refine ⟨acts_all (by decide +kernel), acts_all (by decide +kernel), by decide, by decide, ⟨rfl, ?_⟩, by decide, by decide⟩
  intro x y h
  obtain ⟨i, w, p, e, ⟨ha, hb, _⟩, _⟩ := h
  cases e
  have hn : ((wit id).dev.pipeSt 0).cur = none := by decide
  rw [← ha] at hb
  exact absurd (hn.symm.trans hb) (by simp)

def polY (v : Nat) (ch : List (Nat × Nat)) : PipeSt := py fun y => { y.setG 4 (BitVec.ofNat 32 v) with charged := ch }

theorem pol_ready : ∀ v ∈ [0xFFFF, 0xFFFE, 2048, 2047], ∀ ch ∈ [[], [((2047 : Nat), (1 : Nat))]],
    actReady (.actPol 0 3 4) [4, 55] (polY v ch) = true ∧ ((polY v ch).g 4).toNat % 65536 = v := by decide +kernel

theorem cmp_ready : ∀ n ∈ [0, 1, 2], actReady (.actDcmp 0 3) [16] (py fun y => { y with l3 := n }) = true ∧
    actReady (.actCmpr 0 3) [16, 34, 52] (py fun y => { y with l3 := n }) = true := by decide +kernel

theorem test_witness_ActionLoadsStoresAndServices :
    (∀ x ∈ [(Instr.actLdm 0 3 0x13, [32 + 0x13], py id), (.actLdm 0 3 0xFF, [32 + 0xFF], py id), (.actStm 0 4 0x13, [4], py id),
        (.actSth 0 4 126 1, [4], py id), (.actOwnr 0 3 4, [4, 34], py id), (.actPol 0 3 4, [4, 55], py id),
        (.actLdh 0 3 126 1, [16], py id), (.actDcmp 0 3, [16], py id), (.actCmpr 0 3, [16, 34, 52], py id),
        (.actLdr 0 3 3 63 0, [17 + 3], py id), (.actCnt 0 1023, [], py id)], (wit0 (actIn x.1 x.2.2)).dev.acts x.1 x.2.1 pk x.2.2) ∧
    (∀ v ∈ [0xFFFF, 0xFFFE, 2048, 2047], ∀ ch ∈ [[], [((2047 : Nat), (1 : Nat))]],
      (wit0 (actIn (.actPol 0 3 4) (polY v ch))).dev.acts (.actPol 0 3 4) [4, 55] pk (polY v ch) ∧
      ((polY v ch).g 4).toNat % 65536 = v) ∧
    (∀ n ∈ [0, 1, 2],
      (wit0 (actIn (.actDcmp 0 3) (py fun y => { y with l3 := n }))).dev.acts (.actDcmp 0 3) [16] pk (py fun y => { y with l3 := n }) ∧
      (wit0 (actIn (.actCmpr 0 3) (py fun y => { y with l3 := n }))).dev.acts (.actCmpr 0 3) [16, 34, 52] pk
        (py fun y => { y with l3 := n })) ∧
    (((py id).field pk 0x13).isSome = true ∧ (py id).field pk 0xFF = none) ∧
    (PipeSt.rwField 0x13 = true ∧ PipeSt.rwField 0 = false) ∧
    (wit id).dev.ownerChip 0 0 = none ∧
    ({ cfg := [(Reg.OWNER_RANGE 0 0, 0xFFFF0000#32), (Reg.OWNER_CHIP 0 0, 0x80000005#32)] } : Dev).ownerChip 0 0xFFFF = some 5 ∧
    [((2047 : Nat), (1 : Nat))].find? (fun w => w.1 == 2047) = some (2047, 1) ∧
    ([] : List (Nat × Nat)).find? (fun w => w.1 == 2047) = none ∧
    (match unLowpan (fun _ => none) [] [] [0x41#8] with | .ok w => w == ([], 0) | .error _ => false) = true ∧
    (match unLowpan (fun _ => none) [] [] [] with | .ok _ => false | .error _ => true) = true ∧
    (match packLowpan [] [] [] (0x60#8 :: List.replicate 39 0#8) with | .ok _ => true | .error _ => false) = true ∧
    (match packLowpan [] [] [] [] with | .ok _ => false | .error _ => true) = true :=
  ⟨acts_all (by decide +kernel), fun v hv ch hc => ⟨acts_of (pol_ready v hv ch hc).1, (pol_ready v hv ch hc).2⟩,
    fun n hn => ⟨acts_of (cmp_ready n hn).1, acts_of (cmp_ready n hn).2⟩, by decide, by decide, by decide +kernel, by decide +kernel,
    by decide, by decide, by decide, by decide, by decide +kernel, by decide⟩

theorem test_witness_LookupsWindowsAndEmits :
    (∀ x ∈ [(Instr.actLkn 0 3 4 5 0, [4, 5], py id), (.actLke 0 3 4 5 0, [4, 5, 34], py id), (.actLkr 0 3 4 5 0, [4, 5], pend 3),
        (.actLkp 0 3 0 true, [16], py id), (.actLkp 0 3 0 false, [16], py fun y => { y with l3 := 1 }),
        (.actFwd 0, [16, 48, 49, 50, 51, 52, 53, 56], py fun y => y.setMd 0x10 4), (.actDrop 0 1023, [], py id), (.actRecirc 0 4, [], py id),
        (.actRecirc 0 7, [], py fun y => { y with pass := 2 }), (.actRecircp 0 3, [17 + 3], py id)],
      (wit0 (actIn x.1 x.2.2)).dev.acts x.1 x.2.1 pk x.2.2) ∧
    (4 ≤ ((wit0 (actIn (.actLkn 0 3 4 5 0) (pend 4))).dev.pipeSt 0).lookups.length ∧ (pend 3).lookups.length < 4) ∧
    (4 ≤ (py fun y => y.setMd 0x10 4).rw 0x10 ∧ (py id).lookups = [] ∧ pk.descs = 0) ∧
    ((py id).pass = 1 ∧ (actIn (.actRecircp 0 3) (py id)).progOf (py id).oldBank 7 = none ∧
      recirculates [((actRow (.actRecirc 0 4)).getD (0, 0)).2, 0] = true ∧ recirculates [0, 0] = false ∧
      ({ actIn (.actRecirc 0 7) (py id) with pipe := { pipes := [(0, py id)], progs :=
        [(4, (0, [((actRow (.actRecirc 0 7)).getD (0, 0)).2])), (7, (0, [0, 0]))] } } : Dev).progOf (py id).oldBank 7 = some (0, [0, 0])) ∧
    On (wit id) (fun s => (s.dev.pipeSt 1).lookups = []) ∧
    On (wit0 (pd (py fun y => { y with lookups := [look 3 1, look 0 0] }))) (fun s =>
      (s.dev.pipeSt 0).lookups = [look 3 1, look 0 0] ∧ (look 3 1).d ≠ 0) ∧
    On (wit0 (pd (py id))) (fun s => (s.dev.pipeSt 0).cur ≠ none ∧ (s.dev.pipeSt 0).recirc = false) ∧
    On (wit0 (pd (py fun y => { y with recirc := true }))) (fun s => (s.dev.pipeSt 0).cur ≠ none ∧ (s.dev.pipeSt 0).recirc = true) ∧
    On (wit0 (pd { queues := [(4, [pk])] })) (fun s => (s.dev.pipeSt 0).cur = none ∧ Dev.nextSource (s.dev.pipeSt 0) = some 4 ∧
      (s.dev.pipeSt 0).queues.get [] 4 = [pk] ∧ pk.bad = false ∧ pk.src = 4 ∧ s.dev.pipe.progs.find 4 = some (0, [0, 0])) ∧
    On (wit id) (fun s => s.dev.pipe.reasm.length ≤ 0) ∧
    On (wit0 { pipe := { reasm := [{}] } }) (fun s => 0 < s.dev.pipe.reasm.length) :=
  ⟨acts_all (by decide +kernel), by decide, by decide, by decide, by decide, by decide, by decide, by decide, by decide +kernel,
    by decide, by decide⟩

/-- RECIRC to a program that does not recirculate: the pass of pipeline 0 stands at it. -/
theorem test_witness_LookupsWindowsAndEmits_recirc :
    let d : Dev := { pipe := { pipes := [(0, py id)], progs :=
      [(4, (0, [((actRow (.actRecirc 0 7)).getD (0, 0)).2])), (7, (0, [0, 0]))] } }
    d.acts (.actRecirc 0 7) [] pk (py id) ∧ (py id).pass = 1 ∧ d.progOf (py id).oldBank 7 = some (0, [0, 0]) ∧
      recirculates [0, 0] = false :=
  ⟨⟨⟨0, _, _, rfl, ⟨rfl, rfl, rfl⟩, rfl, rfl⟩, by decide⟩, rfl, rfl, by decide⟩

/-! ### Epochs and tables -/

def phaseCmd : Cmd := ⟨hdr, .CMD_SET_PHASE, 0, pay [(0, 4)]⟩

theorem test_witness_EpochsFreezeBeginAndReachEachDomain :
    On (wit0 { modes := { inReset := true } }) (fun s => s.dev.modes.inReset = true) ∧
    On (wit0 { stg := { hold := true, regs := [(4, 1)] } }) (fun s => s.dev.modes.inReset = false ∧ s.dev.stg.hold = true) ∧
    On (wit0 { stg := { regs := [(4, 1)], cmds := [⟨phaseCmd, some 1, false⟩] } }) (fun s => s.dev.stg.hold = false ∧
      (s.dev.stg.regs.map Prod.fst).Nodup ∧ s.dev.stg.regs.find 4 = some 1 ∧ s.dev.stg.regs.find 8 = none ∧ 1 ≤ s.dev.nextNum) ∧
    On (wit0 { stg := { cmds := [⟨phaseCmd, none, true⟩] } }) (fun s => s.dev.stg.cmds = [⟨phaseCmd, none, true⟩] ∧
      phaseCmd.op = .CMD_SET_PHASE ∧ Dev.phaseTarget phaseCmd.p = some .test ∧ s.dev.modes.romDue = false ∧
      s.dev.modes.lossFrozen = false ∧ s.dev.modes.soloFrozen = false ∧ s.dev.modes.activeFrozen = false ∧
      s.dev.vat.inForce.isNone = true) ∧
    On (wit id) (fun s => Domain.dsp ∉ s.dev.epoch.strobes ∧ s.dev.snap.fill = false ∧ s.dev.modes.phase ≠ .startUp) ∧
    (∀ x ∈ [Domain.dsp, .pipe, .core, .pcie, .serdes, .lpddr], On (wit0 { epoch := { strobes := [x] } }) (fun s =>
      x ∈ s.dev.epoch.strobes ∧ s.dev.runs = true)) ∧
    On (wit0 { snap := { fill := true } }) (fun s => s.dev.snap.fill = true) ∧
    (∀ n ∈ [62, 63, 64], On (wit0 { modes := { phase := .startUp, romDwell := n }, vat := { inForce := some { rom := true } } })
      (fun s => (s.dev.vat.inForce.map (fun v => v.rom)) = some true ∧ s.dev.modes.phase = .startUp ∧ s.dev.runs = true ∧
        s.dev.modes.romDwell = n)) := by decide +kernel

def vgD (e : NodeEntry) (v : Byte) : Dev := { disp := { dram := memWrite [] 0x0A [v] }, tbl := { node := { slots := [(0, e)] } }, cfg := reg Reg.VG_CTL 0x80000000, epoch := { numPipe := 50 } }

theorem test_witness_TablesAgeAndRefillInTheBackground :
    (∀ a ∈ [1, 2], On (wit0 { cfg := reg (Reg.TBL_AGE 0) 1, epoch := { numPipe := a }, tbl := { node := { slots := [(0, { valid := true })] } } })
      (fun s => (s.dev.tbl.node.at_ 0).valid = true ∧ (s.dev.tbl.node.at_ 0).aged = none ∧
        s.dev.aged (s.dev.tbl.node.at_ 0) = decide (a = 2) ∧ home 0 0 = 0)) ∧
    On (wit0 { cfg := reg (Reg.PAN_POOL 0) 0xFFFF0000, tbl := { node := { slots := [(0, { valid := true })] } } })
      (fun s => s.dev.inPool 0 0 = true) ∧
    On (wit0 { air := { pans := [(3, { hold := [(5, 9)] })] }, epoch := { numPipe := 8 } }) (fun s => s.dev.held 3 5 = true) ∧
    On (wit0 { air := { pans := [(3, { hold := [(5, 9)] })] }, epoch := { numPipe := 9 } }) (fun s => s.dev.held 3 5 = false) ∧
    On (wit0 { tbl := { nodeRb := { queue := [4] } } }) (fun s => (s.dev.rebuild 0).queue = [4]) ∧
    On (wit0 { tbl := { node := { slots := [(0, { valid := true, aged := some 1 })] } } }) (fun s =>
      (∀ n ∈ [0, 1, 2], (s.dev.rebuild n).queue = [] ∧ ((s.dev.rebuild n).st ≠ .copying ∨ (s.dev.rebuild n).left = [])) ∧
      s.dev.tbl.node.slots.find? (fun y => y.2.valid && y.2.aged.isSome) = some (0, { valid := true, aged := some 1 })) ∧
    On (wit0 { tbl := { route := { slots := [(0, { valid := true, expires := 1 })] } }, epoch := { numPipe := 1 } }) (fun s =>
      (∀ y ∈ s.dev.tbl.node.slots, y.2.valid = true → y.2.aged = none) ∧
      s.dev.tbl.route.slots.find? (fun y => y.2.valid && decide (y.2.expires ≠ 0 ∧ y.2.expires ≤ s.dev.epoch.numPipe)) =
        some (0, { valid := true, expires := 1 })) ∧
    On (wit id) (fun s => s.dev.tbl.route.slots = [] ∧ s.dev.tbl.seen.slots = [] ∧ s.dev.tbl.seenClear = false ∧
      s.dev.cfg.VG_CTL_EN = 0) ∧
    (∀ x ∈ [(({ valid := true, adopted := true, short := 0, policer := 0, keySlot := 0 } : NodeEntry), (0#8 : Byte), true),
        ({ valid := true, adopted := true, short := 0, policer := 0, keySlot := 0 }, 1, false),
        ({ valid := true, adopted := true, short := 5, policer := 0, keySlot := 0 }, 1, true)],
      On (wit0 (vgD x.1 x.2.1)) (fun s => s.dev.runs = true ∧ s.dev.cfg.VG_CTL_EN ≠ 0 ∧ s.dev.sweepsDue = false ∧
        s.dev.vgThisMs < max 1 s.dev.cfg.VG_CTL_RATE ∧ s.dev.tbl.vg.table = 0 ∧ s.dev.tbl.vg.index + 1 < 262144 ∧
        s.dev.tbl.node.at_ s.dev.tbl.vg.index = x.1 ∧ home 0 0 = 0 ∧ s.dev.seesNode x.1 = true ∧ x.1.adopted = true ∧
        s.dev.settling 0 = false ∧ s.dev.held (homeOf s.dev.tbl.vg.index).1 (homeOf s.dev.tbl.vg.index).2 = false ∧
        bit (fld (memRead s.dev.disp.dram (s.dev.cfg.VG_BASE_BASE_4K 0 * 4096 + 32 * Dev.shadowOf s.dev.tbl.vg.index) 32) 0x0A 1) 0 =
          (x.2.1 == 1) ∧
        (x.2.1 = 1 → Dev.nodeDiffers x.1 (memRead s.dev.disp.dram 0 32) = x.2.2))) ∧
    On (wit0 { tbl := { seenClear := true } }) (fun s => s.dev.sweepsDue = true) ∧
    On (wit0 { tbl := { vg := { done := 1 } }, cfg := reg Reg.VG_CTL 0x80000000 }) (fun s => max 1 s.dev.cfg.VG_CTL_RATE ≤ s.dev.vgThisMs) ∧
    On (wit0 { tm := { shapers := [(1, {})], policers := [(2, {})] } }) (fun s => s.dev.tm.shapers.find 1 = some {} ∧
      s.dev.tm.policers.find 2 = some {}) := by decide +kernel

/-! ### Keystore records and snapshots -/

/-- An update manifest without a customer part, and its vendor signature block of algorithm 1. -/
def manif : List Byte :=
  asc "QZUM" ++ le 2 1 ++ le 1 deviceRev ++ List.replicate (0x890 - 7) 0#8 ++ [1#8] ++ List.replicate (0x15E8 - 0x891) 0#8

/-- Octets of the manifest's vendor part, for the signature's hash, its key block and its signature block. -/
def manifPart (off n : Nat) : List Byte := slice manif off n

/-- CMD_KEY_MIGRATE of a manifest of 0x15E8 octets. -/
def migPay : List Byte := pay [(0x10, 0xE8), (0x11, 0x15)]

/-- A customer-state device whose fused key hashes are those of the manifest's keys. -/
def migD : Dev :=
  { sec := { lc := 1 }
    otp := { vendorEc := Config.sha384 (keyBlockEc (manifPart 0x88 2056)), vendorMl := Config.sha384 (keyBlockMl (manifPart 0x88 2056)) } }

/-- The clause on a migration speaks of a manifest whose signatures verify; they are not computed here (Config), so its witness
is conditional on them. -/
theorem test_witness_RecordsCarryTheirCommitAndSnapshotsAreReadWhole_migrate
    (h1 : Config.ecdsaVerify (keyBlockEc (manifPart 0x88 2056)) (Config.sha384 (manifPart 0 0x888)) (slice (manifPart 0x890 3416) 8 96) = true)
    (h2 : Config.mldsaVerify (keyBlockMl (manifPart 0x88 2056)) (Config.sha384 (manifPart 0 0x888)) (slice (manifPart 0x890 3416) 104 3309) = true) :
    (wit0 migD).fresh.accepts ⟨hdr, .CMD_KEY_MIGRATE, 0, migPay⟩ ∧ migD.keysAllowed = true ∧ migD.sec.migrationPending = false ∧
      migD.sec.write = none ∧ fld migPay 0 1 ≤ 1 ∧ 0x15E8 ≤ fld migPay 0x10 4 ∧ fld migPay 0x10 4 ≤ 4194304 ∧ zeros migPay 1 7 = true ∧ zeros migPay 0x14 44 = true ∧
      migD.manifestBad (slice manif 0 (fld migPay 0x10 4)) = none ∧ migD.otp.secMin ≤ fld manif 8 4 := by
  have a : slice manif 0 4 = asc "QZUM" ∧ fld manif 4 2 = 1 ∧ fld manif 6 1 = deviceRev ∧ fld manif 7 1 = 0 ∧
    fld manif 8 4 = 0 ∧ zeros manif 0x0C 4 = true ∧ zeros manif 0x40 48 = true ∧ zeros manif 0x70 24 = true ∧
    fld (slice manif 0x890 3416) 0 2 = 1 ∧ zeros (slice manif 0x890 3416) 2 6 = true ∧
    zeros (slice manif 0x890 3416) 3413 3 = true ∧ zeros (manifPart 0x88 2056) 97 3 = true ∧
    zeros (manifPart 0x88 2056) 2052 4 = true := by decide +kernel
  obtain ⟨a1, a2, a3, a4, a5, a6, a7, a8, b1, b2, b3, c1, c2⟩ := a
  have hl : manif.length = 0x15E8 := by decide +kernel
  have hp : fld migPay 0x10 4 = 0x15E8 := by decide
  have hs : slice manif 0 (fld migPay 0x10 4) = manif := by rw [hp, ← hl]; simp [slice]
  refine ⟨by unfold Dev.accepts; decide +kernel, rfl, rfl, rfl, by decide, by decide, by decide, by decide, by decide, ?_, Nat.zero_le _⟩
  have k1 : keysMatch (slice manif 0x88 2056) migD.otp.vendorEc migD.otp.vendorMl = true := by
    simp only [keysMatch, migD, manifPart] at *; simp [c1, c2]
  have k2 : sigOk (slice manif 0x88 2056) (slice manif 0x890 3416) (Config.sha384 (slice manif 0 0x888)) = true := by
    unfold sigOk manifPart at *; simp only [b1, b2, b3, h1, h2]; decide
  rw [hs]
  unfold Dev.manifestBad
  simp only [a1, a2, a3, a4, a5, a6, a7, a8, k1, k2]
  decide

/-- A record without entries. -/
def rec1 : KsRecord := ⟨1, 1, [], [], []⟩

theorem test_witness_RecordsCarryTheirCommitAndSnapshotsAreReadWhole :
    On (wit0 { sec := { lc := 1 } }) (fun s => (s.dev.ksBody rec1).length < 2 ^ 32 ∧
      rec1.counter < 2 ^ 64 ∧ rec1.meas = s.dev.sec.meas ∧ rec1.lc = s.dev.sec.lc) ∧
    On (wit0 { snap := { fill := true } }) (fun s => s.dev.snap.fill = true ∧ s.dev.readSnap 0 false = some 0 ∧
      s.dev.readSnap 4 false = some 0) := by decide +kernel

/-! ## The spec's worked cases and tables -/

def next? (o : Host.Outcome State Fault Refusal) : Option Dev := match o with | .next t => some t.dev | _ => none

/-- Chapter 10, one entry through a rebuild and ageing: the home of node 0x2A17 of PAN_0. -/
theorem test_node_home : home 0 0x2A17 = 133791 ∧ home 0 0x2A17 / 4 = 0x82A7 ∧ 64 * home 0 0x2A17 = 0x82A7C0 := by decide

def agingD (n touch : Nat) : Dev := { cfg := reg (Reg.TBL_AGE 0) 3, epoch := { numPipe := n }, tbl := { node := { slots := [(133791, { valid := true, loc := 0x2A17, touch := touch })] } } }

/-- The same case: touched at 1,003 it has aged at 1,007 and not at 1,006; touched at 1,006 it lives on. -/
theorem test_node_ages : (agingD 1006 1003).aged (agingD 1006 1003 |>.nodeAt 0 0x2A17) = false ∧
    (agingD 1007 1003).aged (agingD 1007 1003 |>.nodeAt 0 0x2A17) = true ∧
    (agingD 1007 1006).aged (agingD 1007 1006 |>.nodeAt 0 0x2A17) = false := by decide +kernel

/-- Chapter 5, a 0.1 % sub-band: FSK-100 uncoded with ramps of 8 µs. -/
theorem test_airtime_fsk : (modeOf 0x02).map (fun m => (airtime m false 8 60, airtime m false 8 5)) = some (5776, 1376) := by decide

/-- Chapter 7, the excursion program: DEEP-25 coded with ramps of 8 µs. -/
theorem test_airtime_deep : (modeOf 0x22).map (fun m => (airtime m true 8 30, airtime m true 8 40)) = some (13456, 18576) := by decide

def dutyD (used : Nat) : Dev :=
  { cin := { locked := true, dutyWindow := 3600, sb := [(0, { duty := 10 })] }, cfg := reg (Reg.DUTY_RSV 0 0) 2, duty := { bins := [(0, used)] } }

/-- Chapter 5, a 0.1 % sub-band: the budget and the reserve; 498 downlink frames pass and the 499th waits; acknowledgements
still pass; a bin lasts 60,000 ms. -/
theorem test_duty : (dutyD 0).dutyBudget 0 = (3600000, 720000) ∧ (dutyD (497 * 5776)).dutyFits 0 5776 false = true ∧
    (dutyD (498 * 5776)).dutyFits 0 5776 false = false ∧ (dutyD (498 * 5776 + 524 * 1376)).dutyFits 0 1376 true = true ∧
    (dutyD (498 * 5776 + 525 * 1376)).dutyFits 0 1376 true = false ∧ (dutyD 0).binMs = 60000 := by decide +kernel

def limitD (eirp : Int) : Dev :=
  { cin := { locked := true, ports := [(1, { aerialGain := 24, cableLoss := 6, femTxGain := 80, femRxGain := 14 })],
             sb := [(0, { valid := true, fLo := 916000, fHi := 917500, maxEirp := eirp, lbtReq := true, lbtThresh := -82 })] },
    cfg := reg (Reg.CSMA_CTL 1) 0x00000000 }

/-- Chapter 3, limits for one carrier: 5.5 dBm, 2.5 dBm after the tightening, and −63.5 dBm at the ball. -/
theorem test_driver_limit : (limitD 120).driverLimit 1 916700 2 = 22 ∧ (limitD 108).driverLimit 1 916700 2 = 10 ∧
    (limitD 120).ccaThresh 1 916700 2 = -254 := by decide +kernel

/-- Chapter 5, a second carrier on RF_B: beside +5.00 dBm on air the headroom is +4.75 dBm. -/
theorem test_headroom :
    ({ txc := [(4, { own := { phase := .onAir, granted := 20 }, held := some { cfg := 0x10000000, khz := 916700, mode := 2, pwr := 20 } })] } : Dev).headroom 1 = some 19 := by decide +kernel

/-- Chapter 15, one cycle, two speeds: the spans of TQ_7 and TQ_3. -/
theorem test_gate_spans : let g : GateList := { cycle := 15625, entries := [(1250, 0x80), (14375, 0x7F)] }
    spanOf g 7 = 10000 ∧ spanOf g 3 = 115000 := by decide +kernel

/-- Chapter 12, a rate cut while in debt. -/
theorem test_shaper_debt : let s0 : Shaper := { rate := 512, burst := 4, bucket := -448, staged := some (128, 4) }
    let s1 := Dev.refillShaper s0
    s1.bucket = -320 ∧ s1.rate = 128 ∧ (Dev.refillShaper s1).bucket = -192 ∧
      (Dev.refillShaper (Dev.refillShaper (Dev.refillShaper s1))).bucket = 64 := by decide +kernel

/-- Chapter 2, first time acquisition with a 1,024 ms epoch: 1,700,000,000.300 s and 1,700,000,000.990 s. -/
theorem test_first_grid : let at' := fun (n : Nat) => ({ time := { ns := n }, epoch := { lenMs := 1024 } } : Dev).gridAfter
    at' 1700000000300000000 = 1700000001024000000 ∧ at' 1700000000990000000 = 1700000002048000000 := by decide +kernel

/-- Chapter 7, words of the worked programs: opcode and tick, and the channel 3,000 kHz below the home. -/
theorem test_sequencer_words : Dev.seqOpc 0x1100B3B080000000 = 0x11 ∧ Dev.seqTick 0x1100B3B080000000 = 46000 ∧
    Dev.seqOpc 0x2000B3B028FFF448 = 0x20 ∧ Dev.seqTick 0x2000B3B028FFF448 = 46000 ∧
    ({ ports := [(1, { home := 963000 })] } : Dev).offsetKhz 1 0xFFF448 = 960000 := by decide +kernel

/-- Chapter 13, the KDF input of one node key, and the nonce of its uplink frame 9,002 at level 5. -/
theorem test_node_key_input (d : Dev) :
    d.derivedKey ⟨3, 0, .up, 0x001BC50CA1002A17, 3⟩ = (slice (Config.cmac (d.key 3).key
      [0x01, 0x51, 0x5A, 0x2D, 0x4E, 0x4F, 0x44, 0x45, 0x00, 0x00, 0x1B, 0xC5, 0x0C, 0xA1, 0x00, 0x2A, 0x17, 0x00, 0x03, 0x55, 0x00,
        0x80]) 0 16) ∧
    Dev.nonceOf 0x001BC50CA1002A17 9002 5 = [0x00, 0x1B, 0xC5, 0x0C, 0xA1, 0x00, 0x2A, 0x17, 0x00, 0x00, 0x23, 0x2A, 0x05] :=
  ⟨rfl, by decide⟩

/-- IEEE 802.3's check word of the nine ASCII digits. -/
theorem test_crc32 : crc32 [0x31, 0x32, 0x33, 0x34, 0x35, 0x36, 0x37, 0x38, 0x39] = 0xCBF43926 := by decide +kernel

/-- R515 and R516: CMD_NOP completes with ST_OK; its opcode, ST_OK and its CMD_ID stand in octets 0 to 7. -/
theorem test_nop : (next? (exec (.cmdNop hdr) State.reset)).map (fun d => d.out.map (fun x => (x.kind, x.data.take 8))) =
    some [(.coreReply, [1, 0, 0, 0, 1, 0, 0, 0])] := by decide +kernel

/-- R373: ADD wraps at 32 bits, and a source may be the destination. -/
theorem test_add_wraps :
    (next? (exec (.actAdd 0 3 3 4) (wit0 (actIn (.actAdd 0 3 3 4) ((py id).setG 3 0xFFFFFFFF |>.setG 4 2))))).map (fun d => (d.pipeSt 0).g 3) = some 1 := by
  decide +kernel

end Sys2Proof.Tests
end

section
/-! PROOFS. Accesses to WIN_CFG and to the memory of the cores (R8 to R14, R66, R69, R120, R131, R534): an equation for
each way a register write ends, and the claims on refused, immediate and staged writes. -/

namespace Sys2Proof.Machine

/-! ### The register map -/

theorem RegDef.mem_of_regAt {o : Nat} {r : RegDef} (h : regAt o = some r) : r ∈ regTable := List.mem_of_find?_eq_some h

/-- Masks of staged fields are 32 bits wide, and SEQ_PEEK_IDX, which acts at once, has no staged field. -/
theorem regTable_st : ∀ r ∈ regTable, r.st < 2 ^ 32 ∧ (r.name = "SEQ_PEEK_IDX" → r.st = 0) := by decide +kernel

/-- The registers that act at once have a row without staged fields: these four, CIN_STAGE and the rings'. -/
theorem regAt_immediate_st : ∀ o ∈ [Reg.PAIR_KEEPALIVE, Reg.RST_CAUSE, Reg.STAGE_CTL, Reg.PAD_DRIVE],
    (regAt o).map RegDef.st = some 0 := by decide +kernel

theorem regAt_cinStage_st : ∀ w < 64, (regAt (Reg.CIN_STAGE w)).map RegDef.st = some 0 := by decide +kernel

theorem regAt_ringWord_st : ∀ n < 140, (regAt (Reg.HR_BASE_LO 0 + 4 * n)).map RegDef.st = some 0 := by decide +kernel

/-- The offset is of none of the registers that act at once (R8, R69, R120, R512, R553). -/
structure ActsAtBoundary (o : Nat) : Prop where
  keepalive : o ≠ Reg.PAIR_KEEPALIVE
  rstCause : o ≠ Reg.RST_CAUSE
  stageCtl : o ≠ Reg.STAGE_CTL
  padDrive : o ≠ Reg.PAD_DRIVE
  cinStage : ¬ (Reg.CIN_STAGE 0 ≤ o ∧ o ≤ Reg.CIN_STAGE 63)
  ring : ¬ (Reg.HR_BASE_LO 0 ≤ o ∧ o < Reg.HR_BASE_LO 35)

/-- An aligned register with staged fields is none of those that act at once. -/
theorem actsAtBoundary {o : Nat} {r : RegDef} (ho : o % 4 = 0) (hr : regAt o = some r) (hst : r.st ≠ 0) :
    ActsAtBoundary o := by
  have hne {o' : Nat} (h : (regAt o').map RegDef.st = some 0) : o ≠ o' := by
    rintro rfl
    rw [hr] at h
    exact hst (by simpa using h)
  refine ⟨hne (regAt_immediate_st _ (by decide)), hne (regAt_immediate_st _ (by decide)),
    hne (regAt_immediate_st _ (by decide)), hne (regAt_immediate_st _ (by decide)), ?_, ?_⟩
  · rintro ⟨h0, h1⟩
    simp only [Reg.CIN_STAGE] at h0 h1
    refine hne (regAt_cinStage_st ((o - 0x100400) / 4) (by omega)) ?_
    simp only [Reg.CIN_STAGE]
    omega
  · rintro ⟨h0, h1⟩
    simp only [Reg.HR_BASE_LO] at h0 h1
    refine hne (regAt_ringWord_st ((o - 0x800100) / 4) (by omega)) ?_
    simp only [Reg.HR_BASE_LO]
    omega

/-- The merge of a write with the value last written (R66), as words. -/
theorem ofNat_merge {st : Nat} (h : st < 2 ^ 32) (old : Nat) (v : W32) :
    BitVec.ofNat 32 ((old &&& (0xFFFFFFFF - st)) + (v.toNat &&& st)) =
      (BitVec.ofNat 32 old &&& ~~~ BitVec.ofNat 32 st) ||| (v &&& BitVec.ofNat 32 st) := by
  have hc : BitVec.ofNat 32 (0xFFFFFFFF - st) = ~~~ BitVec.ofNat 32 st := by
    apply BitVec.eq_of_toNat_eq
    rw [BitVec.toNat_not, BitVec.toNat_ofNat, BitVec.toNat_ofNat]
    omega
  have hd : (BitVec.ofNat 32 old &&& ~~~ BitVec.ofNat 32 st) &&& (v &&& BitVec.ofNat 32 st) = 0#32 := by
    ext i
    simp only [BitVec.getElem_and, BitVec.getElem_not, BitVec.getElem_zero]
    cases (BitVec.ofNat 32 st)[i]
    · simp only [Bool.and_false]
    · simp only [Bool.not_true, Bool.and_false, Bool.false_and]
  rw [BitVec.ofNat_add, BitVec.ofNat_and, BitVec.ofNat_and, hc, BitVec.ofNat_toNat, BitVec.setWidth_eq,
    BitVec.add_eq_or_of_and_eq_zero _ _ hd]

theorem bit_toNat {w : Nat} (v : BitVec w) (i : Nat) : bit v.toNat i = v.getLsbD i := by
  rw [BitVec.getLsbD, Nat.testBit_eq_decide_div_mod_eq, bit, Nat.shiftRight_eq_div_pow]
  rfl

namespace Dev

/-! ### How a register write ends -/

/-- Only a core of the customer world is outside WIN_CFG (R533, R534). -/
theorem cfgDenied_iff (d : Dev) (src : CfgSrc) :
    d.cfgDenied src = true ↔ ∃ k : Fin 8, src = .core k ∧ 6 ≤ k.val ∧ d.sec.custWorld = true := by
  cases src with
  | host => simp [cfgDenied]
  | core k =>
    simp only [cfgDenied, worldOf, CfgSrc.core.injEq, exists_eq_left', beq_iff_eq]
    split
    · exact ⟨nofun, fun ⟨h6, _⟩ => absurd h6 (by omega)⟩
    · split
      · exact ⟨nofun, fun ⟨h6, _⟩ => absurd h6 (by omega)⟩
      · cases d.sec.custWorld
        · exact ⟨nofun, fun ⟨_, hc⟩ => nomatch hc⟩
        · exact ⟨fun _ => ⟨by omega, rfl⟩, fun _ => rfl⟩

variable {d : Dev} {src : CfgSrc} {off : Nat}

theorem writeCfg_denied (h : d.cfgDenied src = true) (v : W32) : d.writeCfg src off v =
    (d.emit .coreReply (coreIndex src) []).violate .VIO_CORE_ACCESS (le 1 (coreIndex src)) := by
  simp [writeCfg, h]

theorem writeCfg_misaligned (h : d.cfgDenied src = false) (ho : cfgOffset off % 4 ≠ 0) (v : W32) :
    d.writeCfg src off v = d.violate .VIO_CFG_WIDTH (le 4 off) := by
  simp [writeCfg, h, ho]

theorem writeCfg_keepalive (h : d.cfgDenied src = false) (ho : cfgOffset off = Reg.PAIR_KEEPALIVE) (v : W32) :
    d.writeCfg src off v = if keepsAlive src then d.kick else d.violate .VIO_CFG_UNMAPPED (le 4 off) := by
  obtain ⟨r, hr, -⟩ := Option.map_eq_some_iff.1 (regAt_immediate_st Reg.PAIR_KEEPALIVE (by decide))
  have ha : Reg.PAIR_KEEPALIVE % 4 = 0 := by decide
  simp [writeCfg, h, ho, ha, hr]

theorem writeCfg_rstCause (h : d.cfgDenied src = false) (ho : cfgOffset off = Reg.RST_CAUSE) (v : W32) :
    d.writeCfg src off v = d.clearCause v.toNat := by
  obtain ⟨r, hr, -⟩ := Option.map_eq_some_iff.1 (regAt_immediate_st Reg.RST_CAUSE (by decide))
  have ha : Reg.RST_CAUSE % 4 = 0 ∧ Reg.RST_CAUSE ≠ Reg.PAIR_KEEPALIVE := by decide
  simp [writeCfg, h, ho, ha, hr]

theorem writeCfg_stageCtl (h : d.cfgDenied src = false) (ho : cfgOffset off = Reg.STAGE_CTL) (v : W32) :
    d.writeCfg src off v = { d with stg := { d.stg with hold := v.getLsbD 0 } } := by
  obtain ⟨r, hr, -⟩ := Option.map_eq_some_iff.1 (regAt_immediate_st Reg.STAGE_CTL (by decide))
  have ha : Reg.STAGE_CTL % 4 = 0 ∧ Reg.STAGE_CTL ≠ Reg.PAIR_KEEPALIVE ∧ Reg.STAGE_CTL ≠ Reg.RST_CAUSE := by decide
  simp [writeCfg, h, ho, ha, hr, bit_toNat]

/-- A write to RST_CAUSE clears the causes whose bit is 1 (R8). -/
theorem clearCause_elec (d : Dev) (v : W32) :
    (d.clearCause v.toNat).elec.por = (d.elec.por && !v[1]) ∧
      (d.clearCause v.toNat).elec.causeSys = (d.elec.causeSys && !v[2]) ∧
      (d.clearCause v.toNat).elec.causeSupply = (d.elec.causeSupply && !v[3]) ∧
      (d.clearCause v.toNat).elec.causeThermal = (d.elec.causeThermal && !v[4]) ∧
      (d.clearCause v.toNat).elec.tj = d.elec.tj := by
  simp only [clearCause, bit_toNat]
  exact ⟨rfl, rfl, rfl, rfl, trivial⟩

/-- A CIN_STAGE word before the lock and after it (R120). -/
theorem writeCinStage_unlocked (h : d.cin.locked = false) (w : Nat) (v : W32) :
    d.writeCinStage w v = { d with cin := { d.cin with stage := d.cin.stage.set 0 w v } } := by
  simp [writeCinStage, h]

theorem writeCinStage_locked (h : d.cin.locked = true) (w : Nat) (v : W32) :
    d.writeCinStage w v = d.violate .VIO_CIN_LOCKED [] := by
  simp [writeCinStage, h]

/-- A write to a register with staged fields that nothing owns or locks stages the merged value (R66). -/
theorem writeCfg_staged {r : RegDef} (h : d.cfgDenied src = false) (ho : cfgOffset off % 4 = 0)
    (hr : regAt (cfgOffset off) = some r) (hst : r.st ≠ 0) (hp : cfgOffset off ≠ Reg.PTP_CTL)
    (hplan : src ≠ .host ∨ d.planOwned (cfgOffset off) = false)
    (htight : r.name ≠ "CIN_TIGHT_A" ∧ r.name ≠ "CIN_TIGHT_B" ∨ d.cin.locked = true) (v : W32) :
    d.writeCfg src off v = d.stageReg (cfgOffset off)
      ((d.lastReg (cfgOffset off) r.reset &&& (0xFFFFFFFF - r.st)) + (v.toNat &&& r.st)) := by
  obtain ⟨h1, h2, h3, h4, h5, h6⟩ := actsAtBoundary ho hr hst
  have hn : ¬ r.name = "SEQ_PEEK_IDX" := fun e => hst ((regTable_st r (RegDef.mem_of_regAt hr)).2 e)
  have hplan' : ¬ (src = .host ∧ d.planOwned (cfgOffset off) = true) := by
    rintro ⟨e, g⟩
    exact hplan.elim (· e) (fun f => by simp [f] at g)
  have htight' : ¬ ((r.name = "CIN_TIGHT_A" ∨ r.name = "CIN_TIGHT_B") ∧ ¬ d.cin.locked = true) := by
    rintro ⟨hname, hl⟩
    obtain ⟨ha, hb⟩ | hlock := htight
    · exact hname.elim ha hb
    · exact hl hlock
  simp only [writeCfg, h, ho, hr, Bool.false_eq_true, ne_eq, not_true_eq_false, if_false, if_neg h1, if_neg h2,
    if_neg h3, if_neg h4, if_neg h5, if_neg h6, if_neg hn, if_neg hst, if_neg hplan', if_neg htight', if_neg hp]

/-- Outside the pairs of R620 a value is staged beside the others, and what has passed its freeze stays. -/
theorem stageReg_stg {o : Nat} (h : pairHalf o = none) (d : Dev) (v : Nat) :
    (d.stageReg o v).stg = { d.stg with regs := d.stg.regs.put o (BitVec.ofNat 32 v) } := by
  simp [stageReg, h]

/-- What the register was last given is the newest staged value (R11). -/
theorem lastReg_of_staged {o : Nat} {v : W32} (h : d.stg.regs.find o = some v) (rst : Nat) : d.lastReg o rst = v.toNat := by
  simp [lastReg, h]

/-- A read shows what has passed its freeze before anything newer (R9). -/
theorem stagedReg_of_frozen {o : Nat} {v : W32} (h : d.stg.frozenRegs.find o = some v) (rst : Nat) :
    d.stagedReg o rst = v.toNat := by
  simp [stagedReg, h]

end Dev

end Sys2Proof.Machine
end

section
/-! PROOFS. The claims on staged, refused and immediate accesses. -/

namespace Sys2Proof.Machine

open Dev

/-! ### Staged writes -/

/-- A REGISTER_WRITE is the write of the register from the fresh state. -/
theorem exec_registerWrite (s : State) (src : CfgSrc) (off : BitVec 24) (v : W32) :
    exec (.registerWrite src off v) s = .next (s.goes (s.fresh.writeCfg src off.toNat v)) := rfl

/-- What the chip's facts give a register reads the lock and the fuses alone. -/
theorem Dev.chipValue_congr {a b : Dev} (hc : a.cin = b.cin) (ho : a.otp = b.otp) (off rst : Nat) :
    a.chipValue off rst = b.chipValue off rst := by
  unfold chipValue tightWords
  rw [hc, ho]

theorem State.fresh_lastReg (s : State) (off rst : Nat) : s.fresh.lastReg off rst = s.dev.lastReg off rst := by
  unfold lastReg stagedReg regInForce
  rw [chipValue_congr s.fresh_cin s.fresh_otp, s.fresh_stg, s.fresh_cfg]

/-- Settles O29: the write is staged by `writeCfg_staged`, and outside the pairs of R620 nothing that is frozen thaws. -/
theorem aStagedRegisterWriteWaitsForItsBoundary : Obligations.AStagedRegisterWriteWaitsForItsBoundary := by
  unfold Obligations.AStagedRegisterWriteWaitsForItsBoundary
  rintro s src off val o r rfl halign hr hst hptp hpair hd hplan htight
  have hmerge := ofNat_merge (regTable_st r (RegDef.mem_of_regAt hr)).1 (s.dev.lastReg (cfgOffset off.toNat) r.reset) val
  have hw := writeCfg_staged (d := s.fresh) (src := src) hd halign hr hst hptp hplan htight val
  rw [s.fresh_lastReg] at hw
  generalize (s.dev.lastReg (cfgOffset off.toNat) r.reset &&& (0xFFFFFFFF - r.st)) + (val.toNat &&& r.st) = m at hw hmerge
  have hstg := stageReg_stg hpair s.fresh m
  have hrun := exec_registerWrite s src off val
  rw [hw] at hrun
  refine ⟨_, hrun, ⟨BitVec.ofNat 32 m, ?_, fun _ => hmerge⟩, fun v hv => lastReg_of_staged hv _,
    fun v hv => ⟨stagedReg_of_frozen hv _, stagedReg_of_frozen ?_ _⟩, fun o' ho' => ?_, ?_, ?_, ?_,
    State.sameBut_of_leaves rfl (leaves_stageReg (Leaves.refl _ _) _ _ (by decide))⟩
  · rw [State.goes_dev, hstg]; exact SMap.find_put_self ..
  · rw [State.goes_dev, hstg]; exact hv
  · rw [State.goes_dev, hstg]; exact SMap.find_put_ne _ _ ho'
  all_goals rw [State.goes_dev, hstg]; rfl

/-! ### Refused accesses -/

/-- An access to PAIR_KEEPALIVE that is not its cores', or to an offset without register or counter, is unmapped (R14, R578). -/
theorem execCfgUnmappedAccess_unmapped {s : State} {off : BitVec 24} (w : Bool)
    (h : cfgOffset off.toNat = Reg.PAIR_KEEPALIVE ∨
      regAt (cfgOffset off.toNat) = none ∧ Dev.isCounter (cfgOffset off.toNat) = false) :
    exec (.cfgUnmappedAccess w off) s = .next (s.goes
      (if w then s.fresh.violate .VIO_CFG_UNMAPPED (le 4 off.toNat)
       else (s.fresh.violate .VIO_CFG_UNMAPPED (le 4 off.toNat)).reply 0)) := by
  have hn : ¬ (cfgOffset off.toNat ≠ Reg.PAIR_KEEPALIVE ∧
      ((regAt (cfgOffset off.toNat)).isSome = true ∨ Dev.isCounter (cfgOffset off.toNat) = true)) := by
    rintro ⟨hk, hm⟩
    obtain hk' | ⟨hr, hc⟩ := h
    · exact hk hk'
    · simp [hr, hc] at hm
  show execCfgUnmappedAccess w off s = _
  simp only [execCfgUnmappedAccess, State.run_goes, if_neg hn]

/-- Any other assigned offset is no unmapped access. -/
theorem execCfgUnmappedAccess_mapped {s : State} {off : BitVec 24} (w : Bool)
    (hk : cfgOffset off.toNat ≠ Reg.PAIR_KEEPALIVE)
    (h : (regAt (cfgOffset off.toNat)).isSome = true ∨ Dev.isCounter (cfgOffset off.toNat) = true) :
    exec (.cfgUnmappedAccess w off) s = .next (s.goes s.fresh) := by
  show execCfgUnmappedAccess w off s = _
  simp only [execCfgUnmappedAccess, State.run_goes, if_pos (And.intro hk h)]

/-- Outside its own world, or past its world's SRAM, a core's access faults and is logged (R534). -/
theorem Dev.coreAccess_denied (d : Dev) {k off : Nat} {o : Option World} {dram : Bool} {data : List Byte}
    (h : o ≠ some (d.worldOf k) ∨ (dram = false ∧ d.sramSize (d.worldOf k) < off + data.length)) (w : Bool) :
    d.coreAccess k o dram w off data = (d.emit .coreReply k []).violate .VIO_CORE_ACCESS (le 1 k) := by
  simp [coreAccess, h]

/-- Settles O27: each refused access is its violation, with the value that a read returns. -/
theorem badAccessesHaveNoEffectButTheLog : Obligations.BadAccessesHaveNoEffectButTheLog := by
  unfold Obligations.BadAccessesHaveNoEffectButTheLog
  intro s off o2
  refine ⟨rfl, rfl, fun hr hc => ?_, fun hk => ?_, fun w hk h => execCfgUnmappedAccess_mapped w hk h, fun _ => rfl,
    fun k o dram write at_ data h => ?_⟩
  · exact ⟨execCfgUnmappedAccess_unmapped true (.inr ⟨hr, hc⟩), execCfgUnmappedAccess_unmapped false (.inr ⟨hr, hc⟩)⟩
  · exact ⟨execCfgUnmappedAccess_unmapped true (.inl hk), execCfgUnmappedAccess_unmapped false (.inl hk)⟩
  · exact congrArg (fun d => Host.Outcome.next (s.goes d)) (s.fresh.coreAccess_denied h write)

/-! ### Immediate writes -/

theorem State.sameBut_cin (s : State) (x : Cin) : s.dev.sameBut [.out, .cin] { s.fresh with cin := x } := by
  intro u hu
  cases u
  case out | cin => contradiction
  all_goals rfl

theorem exec_cinStageWrite (s : State) (w : Fin 64) (v : W32) :
    exec (.cinStageWrite w v) s = .next (s.goes (s.fresh.writeCinStage w.val v)) := rfl

/-- Settles O30: each clause is the equation of `writeCfg` for its register, or of the command that writes it. -/
theorem immediateWritesActAtOnce : Obligations.ImmediateWritesActAtOnce := by
  unfold Obligations.ImmediateWritesActAtOnce
  intro s
  refine ⟨s.dev.cfgDenied_iff, fun k off v hd => ?denied, fun src v hd => ?cause, fun _ => rfl, fun src v hd => ?hold,
    fun _ => rfl, fun src v hsrc hd => ?foreign, fun k v hk => ?kept, fun w v hl => ?cin, fun w v hl => ?locked,
    fun src off v hd ho => ?width⟩
  case denied => rw [exec_registerWrite, writeCfg_denied (d := s.fresh) (src := .core k) hd]; rfl
  case cause =>
    refine ⟨_, exec_registerWrite .., ?_⟩
    rw [State.goes_dev, writeCfg_rstCause (d := s.fresh) hd (by decide)]
    obtain ⟨h1, h2, h3, h4, h5⟩ := clearCause_elec s.fresh v
    exact ⟨h1, h2, h3, h4, h5, State.sameBut_of_leaves rfl (leaves_clearCause (Leaves.refl _ _) _ (by decide))⟩
  case hold => rw [exec_registerWrite, writeCfg_stageCtl (d := s.fresh) hd (by decide)]; rfl
  case foreign =>
    have hk : keepsAlive src = false := by
      obtain rfl | ⟨k, rfl, h2⟩ := hsrc
      · rfl
      · simp [keepsAlive, Nat.not_lt.2 h2]
    rw [exec_registerWrite, writeCfg_keepalive (d := s.fresh) hd (by decide), hk]; rfl
  case kept =>
    have hd : s.fresh.cfgDenied (.core k) = false := by simp [cfgDenied, worldOf, hk]
    rw [exec_registerWrite, writeCfg_keepalive hd (by decide)]
    simp [keepsAlive, hk, kick, Dev.up]
  case cin =>
    refine ⟨_, exec_cinStageWrite .., ?_⟩
    rw [State.goes_dev, writeCinStage_unlocked (d := s.fresh) hl]
    exact ⟨SMap.get_set_self .., fun x hx => SMap.get_set_ne _ _ _ hx, hl,
      s.sameBut_cin _⟩
  case locked => rw [exec_cinStageWrite, writeCinStage_locked (d := s.fresh) hl]
  case width => rw [exec_registerWrite, writeCfg_misaligned (d := s.fresh) hd ho]

end Sys2Proof.Machine
end

section
/-! PROOFS. Octet strings in little-endian order: the length of a field, its value, and a field cut out of a record. -/

namespace Sys2Proof.Machine

@[simp] theorem length_le (n v : Nat) : (le n v).length = n := by
  induction n generalizing v with
  | zero => rfl
  | succ n ih => simp [le, ih]

/-- The octets of a value give it back, modulo their width. -/
theorem unle_le (n v : Nat) : unle (le n v) = v % 256 ^ n := by
  induction n generalizing v with
  | zero => simp [le, unle, Nat.mod_one]
  | succ n ih =>
    have hpow : 256 ^ (n + 1) = 256 * 256 ^ n := Nat.pow_succ'
    rw [le, unle, ih, BitVec.toNat_ofNat, ← Nat.mod_mul, hpow]

@[simp] theorem length_slice (bs : List Byte) (off n : Nat) : (slice bs off n).length = n := by
  simp only [slice, List.length_append, List.length_replicate, List.length_take]
  omega

/-- A part of a record is the slice at its place. -/
theorem slice_append {a b c : List Byte} {off n : Nat} (ha : a.length = off) (hb : b.length = n) :
    slice (a ++ (b ++ c)) off n = b := by
  subst ha hb
  simp [slice]

theorem fld_append {a c : List Byte} {off n v : Nat} (ha : a.length = off) :
    fld (a ++ (le n v ++ c)) off n = v % 256 ^ n := by
  rw [fld, slice_append ha (length_le n v), unle_le]

/-- A CRC register of 32 bits stays one. -/
theorem crcOctet_lt {poly crc : Nat} (hp : poly < 2 ^ 32) (hc : crc < 2 ^ 32) (o : Byte) : crcOctet poly crc o < 2 ^ 32 := by
  have hbit (l : List Nat) (c : Nat) (h : c < 2 ^ 32) :
      l.foldl (fun c _ => if c % 2 == 1 then (c / 2) ^^^ poly else c / 2) c < 2 ^ 32 := by
    induction l generalizing c with
    | nil => exact h
    | cons _ l ih =>
      refine ih _ ?_
      dsimp only
      split
      · exact Nat.xor_lt_two_pow (by omega) hp
      · omega
  exact hbit _ _ (Nat.xor_lt_two_pow hc (Nat.lt_of_lt_of_le o.isLt (by decide)))

theorem crc32_lt (bs : List Byte) : crc32 bs < 2 ^ 32 := by
  have hfold (c : Nat) (h : c < 2 ^ 32) : bs.foldl (crcOctet 0xEDB88320) c < 2 ^ 32 := by
    induction bs generalizing c with
    | nil => exact h
    | cons o bs ih => exact ih _ (crcOctet_lt (by decide) h o)
  exact Nat.xor_lt_two_pow (hfold _ (by decide)) (by decide)

end Sys2Proof.Machine
end

section
/-! PROOFS. The keystore record and its commit record (R440 to R446): what the commit record holds, that the record it seals is
committed and qualifies, and the record write that CMD_KEY_MIGRATE starts. -/

namespace Sys2Proof.Machine.Dev

/-! ### The commit record (R442) -/

/-- The octets of a commit record ahead of its CRC. -/
def ksCommitBody (len counter : Nat) (tag : List Byte) : List Byte :=
  asc "QZKC" ++ le 4 len ++ le 8 counter ++ tag ++ le 28 0

theorem ksCommitRecord_eq (len counter : Nat) (tag : List Byte) : ksCommitRecord len counter tag =
    ksCommitBody len counter tag ++ le 4 (crc32 (ksCommitBody len counter tag)) := rfl

/-- The parts of a commit record, for a look at one of them with `slice_append`. -/
theorem ksCommitRecord_parts (len counter : Nat) (tag : List Byte) : ∃ crc : List Byte,
    ksCommitRecord len counter tag = asc "QZKC" ++ (le 4 len ++ (le 8 counter ++ (tag ++ (le 28 0 ++ crc)))) :=
  ⟨le 4 (crc32 (ksCommitBody len counter tag)), by rw [ksCommitRecord_eq, ksCommitBody]; simp only [List.append_assoc]⟩

theorem length_asc_magic : (asc "QZKC").length = 4 := by decide

theorem slice_ksCommitRecord_magic (len counter : Nat) (tag : List Byte) :
    slice (ksCommitRecord len counter tag) 0 4 = asc "QZKC" := by
  obtain ⟨crc, hc⟩ := ksCommitRecord_parts len counter tag
  rw [hc]
  exact slice_append (a := []) rfl length_asc_magic

theorem fld_ksCommitRecord_length (len counter : Nat) (tag : List Byte) :
    fld (ksCommitRecord len counter tag) 4 4 = len % 2 ^ 32 := by
  obtain ⟨crc, hc⟩ := ksCommitRecord_parts len counter tag
  rw [hc]
  exact fld_append length_asc_magic

theorem fld_ksCommitRecord_counter (len counter : Nat) (tag : List Byte) :
    fld (ksCommitRecord len counter tag) 8 8 = counter % 2 ^ 64 := by
  obtain ⟨crc, hc⟩ := ksCommitRecord_parts len counter tag
  have h : (asc "QZKC" ++ le 4 len).length = 8 := by simp [length_asc_magic]
  rw [hc, ← List.append_assoc]
  exact fld_append h

section
variable {tag : List Byte} (ht : tag.length = 16) (len counter : Nat)
include ht

theorem length_ksCommitBody : (ksCommitBody len counter tag).length = 0x3C := by
  simp [ksCommitBody, length_asc_magic, ht]

theorem length_ksCommitRecord : (ksCommitRecord len counter tag).length = 64 := by
  simp [ksCommitRecord_eq, length_ksCommitBody ht]

theorem slice_ksCommitRecord_tag : slice (ksCommitRecord len counter tag) 0x10 16 = tag := by
  obtain ⟨crc, hc⟩ := ksCommitRecord_parts len counter tag
  have h : (asc "QZKC" ++ le 4 len ++ le 8 counter).length = 0x10 := by simp [length_asc_magic]
  rw [hc, ← List.append_assoc, ← List.append_assoc]
  exact slice_append h ht

theorem zeros_ksCommitRecord : zeros (ksCommitRecord len counter tag) 0x20 28 = true := by
  obtain ⟨crc, hc⟩ := ksCommitRecord_parts len counter tag
  have h : (asc "QZKC" ++ le 4 len ++ le 8 counter ++ tag).length = 0x20 := by simp [length_asc_magic, ht]
  rw [zeros, hc, ← List.append_assoc, ← List.append_assoc, ← List.append_assoc, slice_append h (length_le 28 0)]
  decide

theorem fld_ksCommitRecord_crc : fld (ksCommitRecord len counter tag) 0x3C 4 =
    crc32 (slice (ksCommitRecord len counter tag) 0 0x3C) := by
  have hl := length_ksCommitBody ht len counter
  have hb : slice (ksCommitRecord len counter tag) 0 0x3C = ksCommitBody len counter tag := by
    rw [ksCommitRecord_eq]
    exact slice_append (a := []) rfl hl
  rw [hb, ksCommitRecord_eq, ← List.append_nil (le 4 _), fld_append hl]
  exact Nat.mod_eq_of_lt (crc32_lt _)

end

/-! ### A sealed record (R442, R443) -/

/-- The record that is sealed is committed where its length and counter fit their fields (R442). -/
theorem ksCommitted_sealRecord {d : Dev} {r : KsRecord} (hl : (d.ksBody r).length < 2 ^ 32) (hc : r.counter < 2 ^ 64) :
    d.ksCommitted (d.sealRecord r) = true := by
  have ht : (d.ksTag r).length = 16 := length_slice ..
  refine decide_eq_true ⟨slice_ksCommitRecord_magic .., ?_, ?_, fld_ksCommitRecord_crc ht ..⟩
  · exact (fld_ksCommitRecord_length ..).trans (Nat.mod_eq_of_lt hl)
  · exact (fld_ksCommitRecord_counter ..).trans (Nat.mod_eq_of_lt hc)

/-- It qualifies where it is of the running measurement and life cycle (R443). -/
theorem ksQualifies_sealRecord {d : Dev} {r : KsRecord} (hl : (d.ksBody r).length < 2 ^ 32) (hc : r.counter < 2 ^ 64)
    (hm : r.meas = d.sec.meas) (hlc : r.lc = d.sec.lc) (h12 : r.lc = 1 ∨ r.lc = 2) :
    d.ksQualifies (some (d.sealRecord r)) = true := by
  have htag : slice (d.sealRecord r).commit 0x10 16 = d.ksTag (d.sealRecord r) :=
    slice_ksCommitRecord_tag (length_slice ..) ..
  have hrun : (d.sealRecord r).meas = d.sec.meas ∧ (d.sealRecord r).lc = d.sec.lc ∧ (d.sec.lc = 1 ∨ d.sec.lc = 2) :=
    ⟨hm, hlc, hlc ▸ h12⟩
  simp only [ksQualifies, ksCommitted_sealRecord hl hc, htag, hrun, and_self, decide_true, Bool.and_self]

theorem ksCommitted_empty (d : Dev) (r : KsRecord) : d.ksCommitted { r with commit := [] } = false := by
  have h : slice ([] : List Byte) 0 4 ≠ asc "QZKC" := by decide
  simp [ksCommitted, h]

/-- A seal depends on the device's root secret and life cycle alone (R418). -/
theorem sealRecord_congr {a b : Dev} (ho : a.otp = b.otp) (hs : a.sec = b.sec) (r : KsRecord) :
    a.sealRecord r = b.sealRecord r := by
  unfold sealRecord ksTag ksBody storeMac storeKek deviceRoot
  rw [ho, hs]

/-! ### The start of a record write (R444, R446) -/

theorem setKs_sec (d : Dev) (i : Nat) (r : Option KsRecord) : (d.setKs i r).sec = d.sec := by
  unfold setKs
  split <;> rfl

theorem setKs_slots (d : Dev) (i : Nat) (r : Option KsRecord) :
    if i = 0 then (d.setKs i r).ks0 = r ∧ (d.setKs i r).ks1 = d.ks1
    else (d.setKs i r).ks1 = r ∧ (d.setKs i r).ks0 = d.ks0 := by
  unfold setKs
  split <;> exact ⟨rfl, rfl⟩

/-- A write that starts is of a sealed record, and its slot holds none. -/
theorem startWrite_erases (d : Dev) (meas : List Byte) (p : KeySlot → Bool) (cmds : List Completion) (mig : Option Cmd) :
    ∃ w, (d.startWrite meas p cmds mig).sec.write = some w ∧ w.rcd = d.sealRecord { w.rcd with commit := [] } ∧
      (if d.ksOther = 0 then (d.startWrite meas p cmds mig).ks0 = none ∧ (d.startWrite meas p cmds mig).ks1 = d.ks1
       else (d.startWrite meas p cmds mig).ks1 = none ∧ (d.startWrite meas p cmds mig).ks0 = d.ks0) := by
  refine ⟨_, congrArg Sec.write (setKs_sec _ _ _), rfl, ?_⟩
  exact setKs_slots _ _ _

theorem manifestBad_congr {a b : Dev} (ho : a.otp = b.otp) (hs : a.sec = b.sec) (m : List Byte) :
    a.manifestBad m = b.manifestBad m := by
  unfold manifestBad
  rw [ho, hs]

/-- A CMD_KEY_MIGRATE that passes every check starts a record write under the manifest's measurement (R446). -/
theorem keyMigrate_starts {d : Dev} {h : Hdr} {p m : List Byte} (ha : d.accepts ⟨h, .CMD_KEY_MIGRATE, 0, p⟩)
    (hk : d.keysAllowed = true) (hm : d.sec.migrationPending = false) (hw : d.sec.write = none) (h0 : fld p 0 1 ≤ 1)
    (hz1 : zeros p 1 7 = true) (hz2 : zeros p 0x14 44 = true) (hlo : 0x15E8 ≤ fld p 0x10 4) (hhi : fld p 0x10 4 ≤ 4194304)
    (hb : d.manifestBad (slice m 0 (fld p 0x10 4)) = none) (hv : d.otp.secMin ≤ fld m 8 4) :
    d.keyMigrate h p (some m) = ((d.taken ⟨h, .CMD_KEY_MIGRATE, 0, p⟩).holdCmd ⟨h, .CMD_KEY_MIGRATE, 0, p⟩).startWrite
      (measure [Config.romDigest, slice m 0x10 48, slice m 0x40 48]) (fun x => bit x.usage 6) []
      (some ⟨h, .CMD_KEY_MIGRATE, 0, p⟩) := by
  have hk' : (d.taken ⟨h, .CMD_KEY_MIGRATE, 0, p⟩).keysAllowed = true := by simpa [keysAllowed] using hk
  have hb' := (manifestBad_congr (d.taken_otp ⟨h, .CMD_KEY_MIGRATE, 0, p⟩) (d.taken_sec _) _).trans hb
  have hp : ¬ (1 < fld p 0 1 ∨ ¬ zeros p 1 7 = true ∨ ¬ zeros p 0x14 44 = true ∨ fld p 0x10 4 < 0x15E8 ∨
      4194304 < fld p 0x10 4) := by
    simp only [hz1, hz2, not_true_eq_false, false_or]
    omega
  rw [keyMigrate, command_accepted ha]
  simp only [hk', taken_sec, taken_otp, hm, hw, if_neg hp, hb', Nat.not_lt.2 hv, not_true_eq_false, if_false,
    Bool.false_eq_true, Option.isSome_none]

end Sys2Proof.Machine.Dev
end

section
/-! PROOFS. Reads of WIN_SNAP and the header of the buffer that SNAPSHOT_PUBLISH publishes (R15, R60, R72, R73). -/

namespace Sys2Proof.Machine.Dev

/-! ### Snapshot reads (R15, R72, R73) -/

/-- The buffer that an offset of WIN_SNAP lies in. -/
def snapBufAt (d : Dev) (off : Nat) : SnapBuf := if off < 0x2000000 then d.snap.b0 else d.snap.b1

theorem readSnap_none {off : Nat} {wide : Bool} (d : Dev)
    (h : 0x4000000 ≤ off ∨ off % (if wide then 8 else 4) ≠ 0) : d.readSnap off wide = none := by
  simp only [readSnap, if_pos h]

theorem readSnap_word {off : Nat} (d : Dev) (hr : off < 0x4000000) (ha : off % 4 = 0) :
    d.readSnap off false = some (d.snapWord (d.snapBufAt off) (off % 0x2000000)) := by
  have h : ¬ (0x4000000 ≤ off ∨ off % 4 ≠ 0) := by omega
  simp only [readSnap, snapBufAt, Bool.false_eq_true, if_false, if_neg h, Nat.add_zero]

theorem readSnap_pair {off : Nat} (d : Dev) (hr : off < 0x4000000) (ha : off % 8 = 0) :
    d.readSnap off true = some (d.snapWord (d.snapBufAt off) (off % 0x2000000) +
      d.snapWord (d.snapBufAt off) (off % 0x2000000 + 4) * 2 ^ 32) := by
  have h : ¬ (0x4000000 ≤ off ∨ off % 8 ≠ 0) := by omega
  simp only [readSnap, snapBufAt, if_true, if_neg h]

/-- A 64-bit read is the two words at its offset, of one buffer. -/
theorem readSnap_wide {off : Nat} (d : Dev) (hr : off < 0x4000000) (ha : off % 8 = 0) {lo hi : Nat}
    (hlo : d.readSnap off false = some lo) (hhi : d.readSnap (off + 4) false = some hi) :
    d.readSnap off true = some (lo + hi * 2 ^ 32) := by
  have hbuf : d.snapBufAt (off + 4) = d.snapBufAt off := by
    have h : off + 4 < 0x2000000 ↔ off < 0x2000000 := by omega
    simp only [snapBufAt, h]
  have hoff : (off + 4) % 0x2000000 = off % 0x2000000 + 4 := by omega
  rw [readSnap_word d hr (by omega)] at hlo
  rw [readSnap_word d (by omega) (by omega), hbuf, hoff] at hhi
  rw [readSnap_pair d hr ha, Option.some.inj hlo, Option.some.inj hhi]

/-! ### The header of the published buffer (R60 step 6, R73) -/

/-- Where the published buffer starts in WIN_SNAP. -/
def publishedAt (d : Dev) : Nat := if d.snap.buf then 0x2000000 else 0

theorem snapBufAt_published (d : Dev) {o : Nat} (h : o < 0x2000000) : d.snapBufAt (d.publishedAt + o) = d.published := by
  unfold snapBufAt publishedAt published
  cases d.snap.buf
  · simp only [Bool.false_eq_true, if_false, Nat.zero_add, if_pos h]
  · simp only [if_true, if_neg (Nat.not_lt.2 (Nat.le_add_right 0x2000000 o))]

/-- The words of a buffer's header (R73): EPOCH in 48 bits, PUB_SEQ, and reserved octets. -/
theorem snapWord_header (d : Dev) (b : SnapBuf) : d.snapWord b 0 = b.epoch % 2 ^ 32 ∧
    d.snapWord b 4 = b.epoch / 2 ^ 32 % 65536 ∧ d.snapWord b 8 = b.pubSeq % 65536 ∧ d.snapWord b 0xC = 0 :=
  ⟨rfl, rfl, rfl, rfl⟩

theorem readSnap_published_header (d : Dev) :
    d.readSnap d.publishedAt true = some (d.published.epoch % 2 ^ 48) ∧
      d.readSnap (d.publishedAt + 8) true = some (d.published.pubSeq % 65536) := by
  have hat : d.publishedAt = 0 ∨ d.publishedAt = 0x2000000 := by
    unfold publishedAt
    split
    · exact .inr rfl
    · exact .inl rfl
  have h0 : d.publishedAt % 0x2000000 = 0 ∧ (d.publishedAt + 8) % 0x2000000 = 8 := by omega
  obtain ⟨w0, w4, w8, wC⟩ := d.snapWord_header d.published
  constructor
  · rw [readSnap_pair d (by omega) (by omega), h0.1, ← Nat.add_zero d.publishedAt, snapBufAt_published d (by decide),
      Nat.zero_add, w0, w4]
    exact congrArg some (by omega)
  · rw [readSnap_pair d (by omega) (by omega), h0.2, snapBufAt_published d (by decide), w8, wC, Nat.zero_mul, Nat.add_zero]

/-- SNAPSHOT_PUBLISH publishes a buffer of the ended epoch with the next count of publications (R60 step 6, R73). -/
theorem publish_published {d : Dev} (h : d.snap.fill = true) :
    d.publish.published.epoch = d.snap.ended ∧ d.publish.published.pubSeq = (d.snap.pubSeq + 1) % 65536 := by
  unfold publish published
  simp only [h, not_true_eq_false, if_false, raise_snap]
  cases d.snap.buf <;> exact ⟨rfl, rfl⟩

end Sys2Proof.Machine.Dev
end

section
/-! PROOFS. The claim on keystore records and snapshots. -/

namespace Sys2Proof.Machine

open Dev

/-- Settles O60: the fields of the commit record, the start of a write after CMD_KEY_MIGRATE, and the words of one buffer. -/
theorem recordsCarryTheirCommitAndSnapshotsAreReadWhole : Obligations.RecordsCarryTheirCommitAndSnapshotsAreReadWhole := by
  unfold Obligations.RecordsCarryTheirCommitAndSnapshotsAreReadWhole
  intro s
  refine ⟨?sealed, ?migrate, fun off hr => ⟨fun ha => ?word, fun ha => readSnap_none _ (.inr ha),
    fun ha => readSnap_none _ (.inr ha), fun lo hi ha hlo hhi => readSnap_wide _ hr ha hlo hhi⟩,
    fun off w hr => readSnap_none _ (.inl hr), fun hf => ?publish⟩
  case sealed =>
    rintro r x c rfl rfl
    have ht : (s.dev.ksTag r).length = 16 := length_slice ..
    exact ⟨rfl, length_ksCommitRecord ht .., slice_ksCommitRecord_magic .., fld_ksCommitRecord_length ..,
      fld_ksCommitRecord_counter .., slice_ksCommitRecord_tag ht .., zeros_ksCommitRecord ht .., fld_ksCommitRecord_crc ht ..,
      fun hl hc => ⟨ksCommitted_sealRecord hl hc, fun hm hlc h12 => ksQualifies_sealRecord hl hc hm hlc h12⟩,
      ksCommitted_empty ..⟩
  case migrate =>
    intro h p b ha hk hm hw h0 hz1 hz2 hlo hhi hb hv
    have hrun : exec (.cmdKeyMigrate h p (some b)) s = .next (s.goes (s.fresh.keyMigrate h p (some b))) := rfl
    rw [keyMigrate_starts ha hk hm hw h0 hz1 hz2 hlo hhi hb hv] at hrun
    obtain ⟨w, hsome, hseal, hslots⟩ := startWrite_erases
      ((s.fresh.taken ⟨h, .CMD_KEY_MIGRATE, 0, p⟩).holdCmd ⟨h, .CMD_KEY_MIGRATE, 0, p⟩)
      (measure [Config.romDigest, slice b 0x10 48, slice b 0x40 48]) (fun x => bit x.usage 6) []
      (some ⟨h, .CMD_KEY_MIGRATE, 0, p⟩)
    refine ⟨_, w, hrun, hsome, hseal.trans (sealRecord_congr ?_ ?_ _), ?_⟩
    · simp
    · simp
    · simpa [ksOther] using hslots
  case word => rw [readSnap_word _ hr ha]; rfl
  case publish =>
    obtain ⟨he, hq⟩ := publish_published (d := s.fresh) hf
    obtain ⟨h0, h8⟩ := s.fresh.publish.readSnap_published_header
    rw [he] at h0
    rw [hq, Nat.mod_mod] at h8
    exact ⟨_, _, rfl, rfl, h0, h8⟩

end Sys2Proof.Machine
end

section
/-! PROOFS. What follows from a change of the radio side at once (R185, R193, R209, R244): nothing, where no carrier is due. How a
reception's record is written (R156 to R163), and that all this leaves a device at rest whose carriers all rest. -/

namespace Sys2Proof.Machine.Dev

/-! ### Nothing is due -/

/-- A device whose carriers all rest has nothing due. -/
theorem still.quiet {d : Dev} (h : d.still) : d.quiet := by
  intro c
  obtain ⟨hslot, hhold, hphase, htest⟩ := h c
  simp [hslot, hhold, hphase, htest]

theorem each_eq_self {d : Dev} {f : Dev → Nat → Dev} (h : ∀ n, f d n = d) (xs : List Nat) : d.each xs f = d := by
  unfold each
  induction xs with
  | nil => rfl
  | cons x xs ih => rw [List.foldl_cons, h, ih]

/-- Neither side of a carrier matches where its own transmission does not and no held one does. -/
theorem sideWith_eq_none {d : Dev} {c : Nat} {f : Tx → Bool} (ho : f (d.carrier c).own = false)
    (hh : ∀ h, (d.carrier c).hold = some h → f h.tx = false) : d.sideWith c f = none := by
  unfold sideWith tx
  cases hx : (d.carrier c).hold with
  | none => simp [ho]
  | some h => simp [ho, hh h hx]

theorem settle_of_quiet {d : Dev} (h : d.quiet) : d.settle = d := by
  refine each_eq_self (fun c => ?_) _
  obtain ⟨-, -, -, hown, hhold⟩ := h c
  rw [sideWith_eq_none]
  · simpa [and_assoc] using hown
  · intro x hx
    simpa [and_assoc] using hhold x hx

theorem mayRelease_of_quiet {d : Dev} (h : d.quiet) (c : Nat) : d.mayRelease c = false := by
  unfold mayRelease
  dsimp only
  split
  · rename_i hslot _
    obtain ⟨hnone | hphase | hhold, -⟩ := h c
    · simp [hnone] at hslot
    · simp [hphase]
    · simp [hhold]
  · rfl

theorem lockCome_of_quiet {d : Dev} (h : d.quiet) (p c : Nat) : d.lockCome p c = false := by
  obtain ⟨-, -, hphase, -⟩ := h c
  simp [lockCome, tx, hphase]

theorem pumpOne_of_quiet {d : Dev} (h : d.quiet) (p : Nat) : d.pumpOne p = none := by
  have hfind : (d.carOf p).find? (fun c => d.lockCome p c || (d.mayRelease c && !d.yields p c)) = none :=
    List.find?_eq_none.2 (fun c _ => by simp [mayRelease_of_quiet h, lockCome_of_quiet h])
  rw [pumpOne, hfind]
  split <;> rfl

theorem pumpPort_of_quiet {d : Dev} (h : d.quiet) (p n : Nat) : d.pumpPort p n = d := by
  cases n with
  | zero => rfl
  | succ n => rw [pumpPort, pumpOne_of_quiet h]

/-- Where nothing is due at once, nothing follows. -/
theorem after_of_quiet {d : Dev} (h : d.quiet) : d.after = d := by
  rw [after, settle_of_quiet h]
  exact each_eq_self (fun p => pumpPort_of_quiet h p _) _

/-! ### How a frame's record is written (R156, R157, R160, R161) -/

/-- The lane is done with its frame, and remembers the end of the reception (R196). -/
def closeLane (d : Dev) (l : Nat) : Dev :=
  d.modLane l (fun y => { y with
    rx := {}, nextE := none, lastRx := some (d.up, d.laneKhz l, spacingOf (d.laneMode l)) })

/-- The record of the frame that a lane has latched (R157). -/
def rxRecord (d : Dev) (l outcome reason len : Nat) (psdu : List Byte) : RxRecord :=
  let x := (d.lane l).rx
  { syncTime := x.syncTime, epoch := x.epoch, seq := x.seq, phrLen := len, present := psdu.length, rssi := x.rssi
    snr := satSnr x.snr, lqi := lqiOf x.snr, foff := x.foff, flags := rxFlags x len psdu.length, lane := l
    mode := d.laneMode l, outcome := outcome, aux := 16 * x.gainIdx + reason }

/-- The frame has ended, with a count for its epoch (R20, R166). -/
def closeCount (d : Dev) (l : Nat) (c : Counter) : Dev :=
  (d.closeLane l).asFrame (d.lane l).rx.epoch (fun d => d.bump c)

/-- The frame has ended without an RX_OK record: no ack wait waits for it any more (R209). -/
def closeUnkept (d : Dev) (l : Nat) (c : Counter) : Dev :=
  (d.closeCount l c).endWaitFor (d.lane l).rx.port (d.lane l).rx.seq

section
variable {d : Dev} {l : Nat}

/-- With a full log the frame leaves no record. -/
theorem closeRx_full (h : 4096 ≤ (d.port (d.lane l).rx.port).rxlog.length) (outcome reason len : Nat) (psdu : List Byte) :
    d.closeRx l outcome reason len psdu = d.closeUnkept l (Cnt.RXLOG_FULL (d.lane l).rx.port) := if_pos h

/-- An RX_OK record enters the log, and the exchange begins (R64, R163). -/
theorem closeRx_ok (h : (d.port (d.lane l).rx.port).rxlog.length < 4096) (reason len : Nat) (psdu : List Byte) :
    d.closeRx l 0 reason len psdu = ((d.closeCount l (Cnt.RX_OK l)).modPort (d.lane l).rx.port (fun y => { y with
      rxlog := y.rxlog.put (d.lane l).rx.seq (d.rxRecord l 0 reason len psdu)
      rxData := y.rxData.put (d.lane l).rx.seq psdu
      rxT0 := y.rxT0.put (d.lane l).rx.seq (d.closeCount l (Cnt.RX_OK l)).up
      rxSync := y.rxSync.put (d.lane l).rx.seq (d.lane l).rx.syncUp })).modLane l (fun y => { y with exch := true }) :=
  if_neg (Nat.not_le.2 h)

/-- A record of another outcome does not stay: it is delivered, or goes (R163). -/
theorem closeRx_failed {outcome : Nat} (h : (d.port (d.lane l).rx.port).rxlog.length < 4096) (ho : outcome ≠ 0)
    (reason len : Nat) (psdu : List Byte) :
    d.closeRx l outcome reason len psdu = if (d.closeUnkept l (outcomeCnt l outcome)).deliversFailed (d.lane l).rx.port
      then (d.closeUnkept l (outcomeCnt l outcome)).deliverAir (d.rxRecord l outcome reason len psdu) psdu
      else d.closeUnkept l (outcomeCnt l outcome) :=
  (if_neg (Nat.not_le.2 h)).trans (if_neg ho)

theorem leaves_closeCount (d : Dev) (l : Nat) (c : Counter) : Leaves [.cnt, .ev] (d.closeLane l) (d.closeCount l c) :=
  leaves_asFrame (Leaves.refl _ _) _ _ (fun _ hy => leaves_bump hy _ _ (by decide)) (by decide)

/-- A frame that leaves no RX_OK record changes neither the ports nor, but for its end, the lanes. -/
theorem leaves_closeRx_failed {outcome : Nat} (ho : outcome ≠ 0) (reason len : Nat) (psdu : List Byte) :
    Leaves [.freeCtr, .cnt, .ev, .txc, .tm] (d.closeLane l) (d.closeRx l outcome reason len psdu) := by
  have hunkept (c : Counter) : Leaves [.freeCtr, .cnt, .ev, .txc, .tm] (d.closeLane l) (d.closeUnkept l c) :=
    leaves_endWaitFor (leaves_asFrame (Leaves.refl _ _) _ _ (fun _ hy => leaves_bump hy _ _ (by decide)) (by decide)) _ _
      (by decide)
  by_cases h : 4096 ≤ (d.port (d.lane l).rx.port).rxlog.length
  · rw [closeRx_full h]
    exact hunkept _
  · rw [closeRx_failed (Nat.not_le.1 h) ho]
    exact leaves_ite (leaves_deliverAir (hunkept _) _ _ (by decide)) (hunkept _)

end

/-! ### Receptions leave the carriers at rest -/

section
variable {d : Dev} (h : d.still)
include h

/-- An operation that leaves the carriers alone leaves them at rest. -/
theorem still.leaves {us : List DevUnit} {y : Dev} (g : Leaves us d y) (ht : us.contains .txc = false) : y.still := by
  have htxc : d.txc = y.txc := g.same .txc ht
  intro c
  have hc := h c
  unfold carrier at hc ⊢
  rwa [← htxc]

theorem still.modCarrier {c : Nat} {f : Carrier → Carrier}
    (hf : ∀ x, x.slot = none ∧ x.hold = none ∧ x.own.phase = .idle ∧ x.testPwr = none →
      (f x).slot = none ∧ (f x).hold = none ∧ (f x).own.phase = .idle ∧ (f x).testPwr = none) :
    (d.modCarrier c f).still := by
  intro k
  by_cases hk : k = c
  · subst hk
    rw [carrier_modCarrier]
    exact hf _ (h k)
  · rw [carrier_modCarrier_ne _ _ hk]
    exact h k

theorem still.each {f : Dev → Nat → Dev} (hf : ∀ x n, x.still → (f x n).still) (xs : List Nat) :
    (d.each xs f).still := by
  unfold Dev.each
  induction xs generalizing d with
  | nil => exact h
  | cons x xs ih => exact ih (hf d x h)

theorem still.modLane (l : Nat) (f : Lane → Lane) : (d.modLane l f).still :=
  h.leaves (us := [.lanes]) (leaves_modLane (Leaves.refl _ _) l f (by decide)) rfl

theorem still.restLane (l : Nat) : (d.restLane l).still := h.modLane l _

theorem still.bump (c : Counter) : (d.bump c).still :=
  h.leaves (us := [.cnt, .ev]) (leaves_bump (Leaves.refl _ _) c 1 (by decide)) rfl

theorem still.endWaitFor (p seq : Nat) : (d.endWaitFor p seq).still := by
  refine h.each (fun x c hx => ?_) _
  split
  · refine hx.modCarrier ?_
    rintro y ⟨hslot, hhold, hphase, htest⟩
    exact ⟨hslot, by rw [hhold]; rfl, hphase, htest⟩
  · exact hx

theorem still.closeCount (l : Nat) (c : Counter) : (d.closeCount l c).still :=
  still.leaves (h.modLane l _) (leaves_closeCount d l c) rfl

theorem still.closeUnkept (l : Nat) (c : Counter) : (d.closeUnkept l c).still := (h.closeCount l c).endWaitFor _ _

theorem still.closeRx (l outcome reason len : Nat) (psdu : List Byte) : (d.closeRx l outcome reason len psdu).still := by
  by_cases hlog : 4096 ≤ (d.port (d.lane l).rx.port).rxlog.length
  · rw [closeRx_full hlog]
    exact h.closeUnkept l _
  · by_cases ho : outcome = 0
    · rw [ho, closeRx_ok (Nat.not_le.1 hlog)]
      exact ((h.closeCount l _).leaves (us := [.ports]) (leaves_modPort (Leaves.refl _ _) _ _ (by decide)) rfl).modLane l _
    · rw [closeRx_failed (Nat.not_le.1 hlog) ho]
      split
      · exact (h.closeUnkept l _).leaves (us := [.freeCtr, .cnt, .ev, .tm])
          (leaves_deliverAir (Leaves.refl _ _) _ _ (by decide)) rfl
      · exact h.closeUnkept l _

theorem still.abandon (l outcome : Nat) : (d.abandon l outcome).still := by
  unfold Dev.abandon
  dsimp only
  split
  · exact (h.leaves (us := [.freeCtr]) (leaves_draw (Leaves.refl _ _) _ (by decide)) rfl).closeRx l _ _ _ _
  · exact (h.leaves (us := [.freeCtr]) (leaves_freeOctets (leaves_drawTo (Leaves.refl _ _) _ (by decide)) _ (by decide))
      rfl).closeRx l _ _ _ _
  · exact h.modLane l _

theorem still.evalLane (l : Nat) : (d.evalLane l).still := by
  have hlane (f : Lane → Lane) : (d.modLane l f).still := h.modLane l f
  unfold Dev.evalLane
  dsimp only
  split
  · exact (h.abandon l 5).modLane l _
  · split
    · exact hlane _
    · exact (hlane _).restLane l

theorem still.evalTimes (n : Nat) : (Dev.evalTimes n d).still := by
  induction n generalizing d with
  | zero => exact h
  | succ n ih =>
    have hall := h.each (fun x l hx => hx.evalLane l) d.activeLanes
    unfold Dev.evalTimes
    dsimp only
    split
    · exact hall
    · exact ih (hall.each (fun x l hx => hx.modLane l _) _)

theorem still.releaseLane (l : Nat) : (d.releaseLane l).still := by
  unfold Dev.releaseLane
  split
  · exact (h.modLane l _).evalTimes 192
  · exact h

end

end Sys2Proof.Machine.Dev
end

section
/-! PROOFS. The steps of a receive lane (R139 to R162): an equation for each way that a preamble, a sync word, a timeout, a PHR
and the end of a frame act. -/

namespace Sys2Proof.Machine.Dev

variable {d : Dev} {l : Nat}

/-! ### Lanes and ports that an operation leaves alone -/

theorem Leaves.lane {us : List DevUnit} {a b : Dev} (h : Leaves us a b) (hl : us.contains .lanes = false) (k : Nat) :
    b.lane k = a.lane k := by
  have hlanes : a.lanes = b.lanes := h.same .lanes hl
  unfold Dev.lane
  rw [hlanes]

theorem Leaves.port {us : List DevUnit} {a b : Dev} (h : Leaves us a b) (hp : us.contains .ports = false) (k : Nat) :
    b.port k = a.port k := by
  have hports : a.ports = b.ports := h.same .ports hp
  unfold Dev.port
  rw [hports]

/-! ### A lane out of frame -/

/-- Where a lane rests is a matter of the settings it keeps, of the configuration and of its port's state. -/
theorem laneRest_congr {a b : Dev} (hheld : (a.lane l).held = (b.lane l).held) (hcfg : a.cfg = b.cfg)
    (hst : ∀ p, (a.port p).st = (b.port p).st) : a.laneRest l = b.laneRest l := by
  have hport : a.lanePort l = b.lanePort l := by
    unfold lanePort lgPort lgOf
    rw [hheld, hcfg]
  simp only [laneRest, hport, hst]

theorem lane_bump (d : Dev) (c : Counter) (n k : Nat) : (d.bump c n).lane k = d.lane k :=
  (leaves_bump (us := [.cnt, .ev]) (Leaves.refl _ _) c n (by decide)).lane rfl k

theorem port_bump (d : Dev) (c : Counter) (n k : Nat) : (d.bump c n).port k = d.port k :=
  (leaves_bump (us := [.cnt, .ev]) (Leaves.refl _ _) c n (by decide)).port rfl k

theorem port_modLane (d : Dev) (l : Nat) (f : Lane → Lane) (p : Nat) : (d.modLane l f).port p = d.port p := rfl

/-- A lane that keeps no settings, or whose exchange runs, is not released. -/
theorem releaseLane_of_not_free (h : (d.lane l).held = none ∨ (d.lane l).exch = true) : d.releaseLane l = d := by
  refine if_neg ?_
  obtain hheld | hexch := h
  · simp [laneFree, hheld]
  · simp [laneFree, hexch]

/-! ### Preambles (R142, R145 to R149) -/

theorem detect_search (h : (d.lane l).st = .search) (e : Int) : d.detect l e =
    (d.modLane l (fun y => { y with st := .preamble, rx := { eRef := e } })).bump (Cnt.PREAMBLE_DET l) := by
  simp [detect, h]

theorem frameEnded_st (h : d.frameEnded l = true) : (d.lane l).st = .payload := by
  simp only [frameEnded, Bool.and_eq_true, beq_iff_eq] at h
  exact h.1

theorem detect_frameEnded (h : d.frameEnded l = true) (e : Int) :
    d.detect l e = d.modLane l (fun y => { y with nextE := some e }) := by
  simp [detect, h, frameEnded_st h]

theorem ne_search_of_inFrame {s : LaneState} (h : s.inFrame = true) : s ≠ .search := by
  rintro rfl
  contradiction

theorem detect_missed (h : (d.lane l).st.inFrame = true) (hend : d.frameEnded l = false) {e : Int}
    (hm : bit (d.laneWord l) 30 = false ∨ e - (d.lane l).rx.eRef < d.captureMargin l) :
    d.detect l e = d.bump (Cnt.CAPTURE_MISSED l) := by
  have hcap : ¬ (bit (d.laneWord l) 30 = true ∧ d.captureMargin l ≤ e - (d.lane l).rx.eRef) := by
    rintro ⟨hb, hle⟩
    obtain hb' | hlt := hm
    · simp [hb'] at hb
    · omega
  simp [detect, h, hend, hcap, ne_search_of_inFrame h]

/-- The frame that a capture ends: a preamble goes without a record, anything later leaves one (R147, R148). -/
def preempt (d : Dev) (l : Nat) : Dev :=
  if (d.lane l).st == .preamble then d.bump (Cnt.PRESYNC_PREEMPT l) else d.abandon l 3

theorem detect_captured (h : (d.lane l).st.inFrame = true) (hend : d.frameEnded l = false) {e : Int}
    (hb : bit (d.laneWord l) 30 = true) (hm : d.captureMargin l ≤ e - (d.lane l).rx.eRef) :
    d.detect l e = (d.preempt l).modLane l (fun y => { y with
      st := .preamble, rx := { eRef := e, captured := true, capUp := some (d.preempt l).up } }) := by
  simp [detect, preempt, h, hend, hb, hm, ne_search_of_inFrame h]

theorem preempt_up (d : Dev) (l : Nat) : (d.preempt l).up = d.up := by
  have hl : Leaves [.freeCtr, .cnt, .ev, .ports, .lanes, .txc, .tm] d (d.preempt l) :=
    leaves_ite (leaves_bump (Leaves.refl _ _) _ _ (by decide)) (leaves_abandon (Leaves.refl _ _) _ _ (by decide))
  exact congrArg TimeSt.up (hl.same .time rfl).symm

theorem still.preempt (h : d.still) (l : Nat) : (d.preempt l).still := by
  unfold Dev.preempt
  split
  · exact h.bump _
  · exact h.abandon l 3

theorem still.detect (h : d.still) (l : Nat) (e : Int) : (d.detect l e).still := by
  unfold Dev.detect
  dsimp only
  split
  · exact (h.modLane l _).bump _
  · split
    · exact h.modLane l _
    · split
      · split
        · exact (h.preempt l).modLane l _
        · exact h.bump _
      · exact h

/-! ### The sync word (R143, R151 to R154, R161) and its timeout (R144) -/

theorem syncMatch_of_ne (h : (d.lane l).st ≠ .preamble) (word : Nat) (rssi snr foff : Int) :
    d.syncMatch l word rssi snr foff = d := by
  unfold syncMatch
  split
  · contradiction
  · rfl

/-- What a lane latches at its sync word. -/
def latchedFrame (d : Dev) (l : Nat) (m : Mode) (p : Nat) (coded : Bool) (rssi snr foff : Int) : RxFrame :=
  { (d.lane l).rx with
    latched := true, eRef := rssi, rssi := clampI (-32768) 32767 rssi, snr := snr, foff := clampI (-32768) 32767 foff
    syncTime := ((d.now : Int) - ((rxDelayNs m : Nat) : Int) - sext 16 (d.cfg.TS_RF_ADJ_RX_NS p)).toNat, syncUp := d.up
    epoch := d.epoch.numDsp, seq := (d.port p).nextSeq, port := p, gainIdx := (d.port p).agcIndex
    tempDue := (d.port p).tempDue, coded := coded, fcs2 := m.family == .oqpsk }

section
variable {m : Mode} {p word : Nat} (hst : (d.lane l).st = .preamble) (hm : modeOf (d.laneMode l) = some m)
  (hp : d.lanePort l = some p) (rssi snr foff : Int)
include hst hm hp

theorem syncMatch_unmatched (hk : syncKind m.family (bits (d.laneWord l) 13 13) word = none) :
    d.syncMatch l word rssi snr foff = d := by
  simp [syncMatch, hst, hm, hp, hk]

theorem syncMatch_matched {coded : Bool} (hk : syncKind m.family (bits (d.laneWord l) 13 13) word = some coded) :
    d.syncMatch l word rssi snr foff =
      ((d.modPort p (fun y => { y with nextSeq := (y.nextSeq + 1) % 65536 })).modLane l
        (fun y => { y with st := .header, rx := d.latchedFrame l m p coded rssi snr foff })).markBusy p (d.laneKhz l)
          m.spacing := by
  simp [syncMatch, hst, hm, hp, hk, latchedFrame]

end

theorem leaves_markBusy_txc (d : Dev) (p khz spacing : Nat) : Leaves [.txc] d (d.markBusy p khz spacing) :=
  leaves_markBusy (Leaves.refl _ _) _ _ _ (by decide)

/-- The sync timeout, on a lane that keeps no settings through a change. -/
theorem syncTimeout_preamble (hst : (d.lane l).st = .preamble) (hcap : (d.lane l).rx.capUp ≠ some d.up)
    (hheld : (d.lane l).held = none) : d.syncTimeout l =
      ((d.modLane l (fun y => { y with rx := {} })).restLane l).bump (Cnt.SYNC_TIMEOUT l) := by
  have hc : ((d.lane l).st == .preamble && (d.lane l).rx.capUp != some d.up) = true := by simp [hst, hcap]
  refine (if_pos hc).trans (releaseLane_of_not_free (.inl ?_))
  rw [lane_bump]
  simp [restLane, hheld]

theorem syncTimeout_of_not (h : (d.lane l).st ≠ .preamble ∨ (d.lane l).rx.capUp = some d.up) : d.syncTimeout l = d := by
  refine if_neg ?_
  obtain hst | hcap := h
  · simp [hst]
  · simp [hcap]

/-! ### The PHR (R139, R140, R162) -/

theorem phrCheck_of_ne (h : (d.lane l).st ≠ .header) (phr : Nat) : d.phrCheck l phr = d := by
  unfold phrCheck
  split
  · contradiction
  · rfl

section
variable {m : Mode} {phr : Nat} (hst : (d.lane l).st = .header) (hm : modeOf (d.laneMode l) = some m)
include hst hm

theorem phrCheck_valid (h : (phrOf m phr).reason = 0) : d.phrCheck l phr = d.modLane l (fun y => { y with
    st := .payload, rx := { y.rx with fcs2 := (phrOf m phr).fcs2, whitened := (phrOf m phr).whitened
                                      len := (phrOf m phr).len, buffered := d.bufRoom (phrOf m phr).len } }) := by
  simp [phrCheck, hst, hm, h]

theorem phrCheck_bad (h : (phrOf m phr).reason ≠ 0) :
    d.phrCheck l phr = ((d.closeRx l 2 (phrOf m phr).reason 0 []).restLane l).releaseLane l := by
  simp [phrCheck, hst, hm, h]

end

theorem still.phrCheck (h : d.still) (phr : Nat) : (d.phrCheck l phr).still := by
  unfold Dev.phrCheck
  dsimp only
  split
  · split
    · exact ((h.closeRx l _ _ _ _).restLane l).releaseLane l
    · exact h.modLane l _
  · exact h

/-- A frame that leaves no RX_OK record leaves the settings, and the place where its lane rests, as they were. -/
theorem closeRx_failed_lane {outcome : Nat} (ho : outcome ≠ 0) (reason len : Nat) (psdu : List Byte) :
    ((d.closeRx l outcome reason len psdu).lane l).held = (d.lane l).held ∧
      (d.closeRx l outcome reason len psdu).laneRest l = d.laneRest l := by
  have hl := leaves_closeRx_failed (d := d) (l := l) ho reason len psdu
  have hheld : ((d.closeRx l outcome reason len psdu).lane l).held = (d.lane l).held := by
    rw [hl.lane rfl]
    simp [closeLane]
  exact ⟨hheld, laneRest_congr hheld (hl.same .cfg rfl).symm (fun p => congrArg Port.st (hl.port rfl p))⟩

/-- A bad PHR sends a lane that keeps no settings back to where it rests. -/
theorem phrCheck_bad_st {m : Mode} {phr : Nat} (hst : (d.lane l).st = .header) (hm : modeOf (d.laneMode l) = some m)
    (h : (phrOf m phr).reason ≠ 0) (hheld : (d.lane l).held = none) : ((d.phrCheck l phr).lane l).st = d.laneRest l := by
  obtain ⟨hkept, hrest⟩ := closeRx_failed_lane (d := d) (l := l) (outcome := 2) (by decide) (phrOf m phr).reason 0 []
  rw [phrCheck_bad hst hm h, releaseLane_of_not_free (.inl (by simp [restLane, hkept, hheld]))]
  simp [restLane, hrest]

/-! ### The end of a frame (R142, R145, R156) -/

theorem psduEnd_of_ne (h : (d.lane l).st ≠ .payload) (psdu : List Byte) : d.psduEnd l psdu = d := by
  simp [psduEnd, h]

section
variable (hlog : (d.port (d.lane l).rx.port).rxlog.length < 4096) (reason len : Nat) (psdu : List Byte)
include hlog

theorem closeRx_ok_lane : (d.closeRx l 0 reason len psdu).lane l = { (d.closeLane l).lane l with exch := true } := by
  rw [closeRx_ok hlog, lane_modLane]
  exact congrArg (fun x : Lane => { x with exch := true }) ((leaves_closeCount ..).lane rfl l)

theorem closeRx_ok_port : ((d.closeRx l 0 reason len psdu).port (d.lane l).rx.port).rxlog.find (d.lane l).rx.seq =
      some (d.rxRecord l 0 reason len psdu) ∧
    ((d.closeRx l 0 reason len psdu).port (d.lane l).rx.port).rxData.find (d.lane l).rx.seq = some psdu := by
  rw [closeRx_ok hlog, port_modLane, port_modPort]
  exact ⟨SMap.find_put_self .., SMap.find_put_self ..⟩

theorem closeRx_ok_port_st (p : Nat) : ((d.closeRx l 0 reason len psdu).port p).st = (d.port p).st := by
  have hp : ((d.closeCount l (Cnt.RX_OK l)).port p).st = (d.port p).st :=
    congrArg Port.st ((leaves_closeCount d l _).port rfl p)
  rw [closeRx_ok hlog, port_modLane]
  by_cases h : p = (d.lane l).rx.port
  · subst h
    rw [port_modPort]
    exact hp
  · rw [port_modPort_ne _ _ h]
    exact hp

theorem closeRx_ok_laneRest : (d.closeRx l 0 reason len psdu).laneRest l = d.laneRest l := by
  refine laneRest_congr ?_ ?_ (closeRx_ok_port_st hlog reason len psdu)
  · rw [closeRx_ok_lane hlog]
    simp [closeLane]
  · rw [closeRx_ok hlog]
    exact ((leaves_closeCount d l (Cnt.RX_OK l)).same .cfg rfl).symm

end

/-- The last symbol has passed: the lane is in CLOSE, and what it latched stands. -/
def closing (d : Dev) (l : Nat) : Dev := d.modLane l (fun y => { y with st := .close, nextE := none })

theorem closing_rx (d : Dev) (l : Nat) : ((d.closing l).lane l).rx = (d.lane l).rx := by simp [closing]

/-- The lane has written the RX_OK record of a frame with these octets, and rests. -/
def received (d : Dev) (l : Nat) (o : List Byte) : Dev := ((d.closing l).closeRx l 0 0 (d.lane l).rx.len o).restLane l

section
variable (hlog : (d.port (d.lane l).rx.port).rxlog.length < 4096) (o : List Byte)
include hlog

theorem closing_room : ((d.closing l).port ((d.closing l).lane l).rx.port).rxlog.length < 4096 := by
  rw [closing_rx]
  exact hlog

/-- The record of a good frame: what the lane latched, and its octets. -/
theorem received_port : ∃ r : RxRecord, ((d.received l o).port (d.lane l).rx.port).rxlog.find (d.lane l).rx.seq = some r ∧
    r.outcome = 0 ∧ r.lane = l ∧ r.seq = (d.lane l).rx.seq ∧ r.rssi = (d.lane l).rx.rssi ∧
    r.epoch = (d.lane l).rx.epoch ∧ r.foff = (d.lane l).rx.foff ∧
    ((d.received l o).port (d.lane l).rx.port).rxData.find (d.lane l).rx.seq = some o := by
  obtain ⟨hrec, hdata⟩ := closeRx_ok_port (closing_room hlog) 0 (d.lane l).rx.len o
  rw [closing_rx] at hrec hdata
  refine ⟨_, hrec, rfl, rfl, ?_, ?_, ?_, ?_, hdata⟩
  all_goals rw [← closing_rx]; rfl

theorem received_lane : ((d.received l o).lane l).st = d.laneRest l ∧ ((d.received l o).lane l).exch = true := by
  have hrest : (d.closing l).laneRest l = d.laneRest l := laneRest_congr (by simp [closing]) rfl (fun _ => rfl)
  constructor
  · rw [← hrest, ← closeRx_ok_laneRest (closing_room hlog) 0 (d.lane l).rx.len o]
    simp [received, restLane]
  · simp [received, restLane, closeRx_ok_lane (closing_room hlog)]

end

/-- A good frame: the record is written, and a preamble that came at its last symbol starts a reception where the lane
searches (R145). -/
theorem psduEnd_ok {psdu o : List Byte} (hst : (d.lane l).st = .payload) (hbuf : (d.lane l).rx.buffered = true)
    (ho : whiten (d.lane l).rx.whitened (slice psdu 0 (d.lane l).rx.len) = o) (hfcs : fcsOk (d.lane l).rx.fcs2 o = true)
    (hlog : (d.port (d.lane l).rx.port).rxlog.length < 4096) :
    (∀ e, (d.lane l).nextE = some e → d.laneRest l = .search → d.psduEnd l psdu = (d.received l o).detect l e) ∧
      ((d.lane l).nextE = none ∨ d.laneRest l ≠ .search → d.psduEnd l psdu = d.received l o) := by
  obtain ⟨hrest, hexch⟩ := received_lane hlog o
  have hrel : (d.received l o).releaseLane l = d.received l o := releaseLane_of_not_free (.inr hexch)
  unfold received closing at hrest hrel ⊢
  simp only [psduEnd, hst, beq_self_eq_true, hbuf, not_true_eq_false, ho, hfcs, if_true, if_false, hrel]
  constructor
  · intro e he hs
    simp only [he, hrest, hs]
  · intro h
    split
    · rename_i he hs
      rw [hrest] at hs
      simp [he, hs] at h
    · rfl

/-- Nothing of a good frame's record is lost to a preamble that came at its last symbol. -/
theorem psduEnd_ok_keeps {psdu o : List Byte} (hst : (d.lane l).st = .payload) (hbuf : (d.lane l).rx.buffered = true)
    (ho : whiten (d.lane l).rx.whitened (slice psdu 0 (d.lane l).rx.len) = o) (hfcs : fcsOk (d.lane l).rx.fcs2 o = true)
    (hlog : (d.port (d.lane l).rx.port).rxlog.length < 4096) :
    (∀ p, (d.psduEnd l psdu).port p = (d.received l o).port p) ∧ ((d.psduEnd l psdu).lane l).exch = true := by
  obtain ⟨hagain, hplain⟩ := psduEnd_ok hst hbuf ho hfcs hlog
  obtain ⟨hrest, hexch⟩ := received_lane hlog o
  have hkept (h : (d.lane l).nextE = none ∨ d.laneRest l ≠ .search) :
      (∀ p, (d.psduEnd l psdu).port p = (d.received l o).port p) ∧ ((d.psduEnd l psdu).lane l).exch = true := by
    rw [hplain h]
    exact ⟨fun _ => rfl, hexch⟩
  cases he : (d.lane l).nextE with
  | none => exact hkept (.inl he)
  | some e =>
    by_cases hs : d.laneRest l = .search
    · rw [hagain e he hs, detect_search (hrest.trans hs)]
      exact ⟨fun p => by rw [port_bump, port_modLane], by rw [lane_bump, lane_modLane]; exact hexch⟩
    · exact hkept (.inr hs)

theorem still.ite {c : Prop} [Decidable c] {x y : Dev} (hx : x.still) (hy : y.still) : (if c then x else y).still := by
  split
  · exact hx
  · exact hy

theorem still.psduEnd (h : d.still) (l : Nat) (psdu : List Byte) : (d.psduEnd l psdu).still := by
  have hclose (outcome : Nat) (o : List Byte) : ((d.closing l).closeRx l outcome 0 (d.lane l).rx.len o).still :=
    still.closeRx (h.modLane l _) l _ _ _ _
  unfold Dev.psduEnd
  dsimp only
  split
  · split
    · exact (((still.ite (hclose _ _) (hclose _ _)).restLane l).releaseLane l).detect l _
    · exact ((still.ite (hclose _ _) (hclose _ _)).restLane l).releaseLane l
  · exact h

end Sys2Proof.Machine.Dev
end

section
/-! PROOFS. The claim on the steps of the receive lanes. -/

namespace Sys2Proof.Machine

open Dev

/-! ### The instructions -/

theorem exec_preambleDetect (s : State) (l : Fin 192) (e : Int) : exec (.preambleDetect l e) s =
    .next (s.goes (if (s.dev.lane l.val).st = .search then s.fresh.detect l.val e else s.fresh)) := rfl

theorem exec_syncMatch (s : State) (l : Fin 192) (word : W32) (rssi snr foff : Int) : exec (.syncMatch l word rssi snr foff) s =
    .next (s.goes (s.fresh.syncMatch l.val word.toNat rssi snr foff)) := rfl

theorem exec_syncTimeout (s : State) (l : Fin 192) : exec (.syncTimeout l) s = .next (s.goes (s.fresh.syncTimeout l.val)) := rfl

theorem exec_phrCheck (s : State) (l : Fin 192) (phr : BitVec 24) :
    exec (.phrCheck l phr) s = .next (s.goes (s.fresh.phrCheck l.val phr.toNat).after) := rfl

theorem exec_psduEnd (s : State) (l : Fin 192) (psdu : List Byte) :
    exec (.psduEnd l psdu) s = .next (s.goes (s.fresh.psduEnd l.val psdu).after) := rfl

/-- A capture on a lane that is in frame or searches. -/
theorem exec_capture {s : State} {l : Fin 192} (h : (s.dev.lane l.val).st.inFrame = true ∨ (s.dev.lane l.val).st = .search)
    (e : Int) : exec (.capture l e) s = .next (s.goes (s.fresh.detect l.val e).after) := by
  have hc : ((s.dev.lane l.val).st.inFrame || (s.dev.lane l.val).st == .search) = true := by simpa using h
  exact congrArg (fun d => Host.Outcome.next (s.goes d)) (if_pos hc)

theorem exec_capture_idle {s : State} {l : Fin 192} (h : (s.dev.lane l.val).st.inFrame = false)
    (hs : (s.dev.lane l.val).st ≠ .search) (e : Int) : exec (.capture l e) s = .next (s.goes s.fresh) := by
  have hc : ¬ ((s.dev.lane l.val).st.inFrame || (s.dev.lane l.val).st == .search) = true := by simp [h, hs]
  exact congrArg (fun d => Host.Outcome.next (s.goes d)) (if_neg hc)

/-- A device at rest is so in the fresh state too, and nothing follows from a capture there. -/
theorem after_detect_fresh {s : State} (h : s.dev.still) (l : Nat) (e : Int) :
    (s.fresh.detect l e).after = s.fresh.detect l e :=
  after_of_quiet (still.detect (d := s.fresh) h l e).quiet

/-- Settles O52: each clause is the lane's equation for the state it is in, and where every carrier rests nothing is due
after it. -/
theorem lanesReceiveStepByStep : Obligations.LanesReceiveStepByStep := by
  unfold Obligations.LanesReceiveStepByStep
  intro s l
  refine ⟨fun d hd => after_of_quiet hd.quiet, fun e => ⟨fun hst => ?detect, fun hst => ?deaf⟩,
    fun word rssi snr foff hst => ?unsynced,
    fun word rssi snr foff m p hst hm hp => ⟨fun coded hk => ?matched, fun hk => ?unmatched⟩,
    fun hst hcap hheld => ?timeout, fun h => ?untimed,
    fun phr m hst hm => ⟨_, exec_phrCheck .., fun hs => ?phrStill, fun hr => ?phrValid, fun hr hheld => ?phrBad⟩,
    fun hst phr => ?noPhr, fun psdu o hst hbuf ho hfcs hlog => ?frame, fun hst psdu => ?noFrame,
    fun e => ⟨fun hf hst => exec_capture_idle hf hst e, fun hst => ?afresh, fun hend => ?ended, fun hf hend hm => ?missed,
      fun hf hend hb hm => ?captured⟩⟩
  case detect =>
    refine ⟨_, exec_preambleDetect .., ?_⟩
    rw [State.goes_dev, if_pos hst, detect_search (d := s.fresh) hst]
    refine ⟨?_, fun k hk => ?_, State.sameBut_of_leaves rfl
      (leaves_bump (leaves_modLane (Leaves.refl _ _) _ _ (by decide)) _ _ (by decide))⟩
    · rw [lane_bump, lane_modLane]; rfl
    · rw [lane_bump, lane_modLane_ne _ _ hk]; rfl
  case deaf => rw [exec_preambleDetect, if_neg hst]
  case unsynced => rw [exec_syncMatch, syncMatch_of_ne (d := s.fresh) hst]
  case matched =>
    have hb := leaves_markBusy_txc ((s.fresh.modPort p (fun y => { y with nextSeq := (y.nextSeq + 1) % 65536 })).modLane l.val
      (fun y => { y with st := .header, rx := s.fresh.latchedFrame l.val m p coded rssi snr foff })) p
      (s.fresh.laneKhz l.val) m.spacing
    refine ⟨_, exec_syncMatch .., ?_⟩
    rw [State.goes_dev, syncMatch_matched (d := s.fresh) hst hm hp rssi snr foff hk, hb.lane rfl, hb.port rfl, lane_modLane,
      port_modLane, port_modPort]
    exact ⟨rfl, rfl, rfl, rfl, rfl, rfl, rfl, rfl, rfl, rfl, rfl, State.sameBut_of_leaves rfl
      (leaves_markBusy (leaves_modLane (leaves_modPort (Leaves.refl _ _) _ _ (by decide)) _ _ (by decide)) _ _ _ (by decide))⟩
  case unmatched => rw [exec_syncMatch, syncMatch_unmatched (d := s.fresh) hst hm hp _ _ _ hk]
  case timeout =>
    refine ⟨_, exec_syncTimeout .., ?_⟩
    rw [State.goes_dev, syncTimeout_preamble (d := s.fresh) hst hcap hheld]
    refine ⟨?_, ?_, fun k hk => ?_, State.sameBut_of_leaves rfl
      (leaves_bump (leaves_restLane (leaves_modLane (Leaves.refl _ _) _ _ (by decide)) _ (by decide)) _ _ (by decide))⟩
    · rw [lane_bump, restLane, lane_modLane]
      exact laneRest_congr (by simp) rfl (fun _ => rfl)
    · rw [lane_bump, restLane, lane_modLane, lane_modLane]
    · rw [lane_bump, restLane, lane_modLane_ne _ _ hk, lane_modLane_ne _ _ hk]; rfl
  case untimed => rw [exec_syncTimeout, syncTimeout_of_not (d := s.fresh) h]
  case phrStill => exact after_of_quiet (still.phrCheck (d := s.fresh) hs _).quiet
  case phrValid =>
    rw [phrCheck_valid (d := s.fresh) hst hm hr, lane_modLane]
    exact ⟨rfl, rfl, rfl, rfl, rfl, rfl⟩
  case phrBad => exact phrCheck_bad_st (d := s.fresh) hst hm hr hheld
  case noPhr => rw [exec_phrCheck, phrCheck_of_ne (d := s.fresh) hst]
  case frame =>
    obtain ⟨r, hr, h0, hlane, hseq, hrssi, hepoch, hfoff, hdata⟩ := received_port (d := s.fresh) (l := l.val) hlog o
    obtain ⟨hports, hexch⟩ := psduEnd_ok_keeps (d := s.fresh) hst hbuf ho hfcs hlog
    obtain ⟨hagain, hplain⟩ := psduEnd_ok (d := s.fresh) hst hbuf ho hfcs hlog
    obtain ⟨hrest, -⟩ := received_lane (d := s.fresh) (l := l.val) hlog o
    rw [← hports] at hr hdata
    refine ⟨_, r, exec_psduEnd .., fun hs => after_of_quiet (still.psduEnd (d := s.fresh) hs _ _).quiet, hr, h0, hlane, hseq,
      hrssi, hepoch, hfoff, hdata, hexch, fun hnone => ?_, fun e he hs => ?_⟩
    · rw [hplain (.inl hnone)]
      exact hrest
    · rw [hagain e he hs, detect_search (hrest.trans hs), lane_bump, lane_modLane]
      exact ⟨rfl, rfl⟩
  case noFrame => rw [exec_psduEnd, psduEnd_of_ne (d := s.fresh) hst]
  case afresh =>
    refine ⟨_, exec_capture (.inr hst) e, fun hs => after_detect_fresh hs _ _, ?_⟩
    rw [detect_search (d := s.fresh) hst, lane_bump, lane_modLane]; rfl
  case ended =>
    have hf : (s.dev.lane l.val).st.inFrame = true := by rw [frameEnded_st hend]; rfl
    refine ⟨_, exec_capture (.inl hf) e, fun hs => after_detect_fresh hs _ _, ?_⟩
    rw [detect_frameEnded (d := s.fresh) hend, lane_modLane]; rfl
  case missed => rw [exec_capture (.inl hf), detect_missed (d := s.fresh) hf hend hm]
  case captured =>
    refine ⟨_, exec_capture (.inl hf) e, fun hs => after_detect_fresh hs _ _, ?_⟩
    rw [detect_captured (d := s.fresh) hf hend hb hm, lane_modLane, preempt_up]
    exact ⟨rfl, rfl⟩

end Sys2Proof.Machine
end

section
/-! PROOFS. The issue of a sequencer's instruction (R231, R253, R255, R258): where the sequencer stands at it, the three ways that
an attempt to issue it ends, and what an instruction's effect keeps of the sequencers. -/

namespace Sys2Proof.Machine.Dev

/-! ### An attempt to issue (R231, R258) -/

theorem seqAt_iff (d : Dev) (q op tick args : Nat) :
    d.seqAt q op tick args = true ↔ (d.seq q).stopped = false ∧ (d.seq q).inTail = false ∧
      Domain.dsp ∉ d.epoch.strobes ∧ tick ≤ d.tick ∧ (∃ x ∈ (d.seq q).act, (d.seq q).pc ≤ x.1) ∧
      ((d.seq q).act.get 0 (d.seq q).pc).toNat = seqWord op tick args := by
  simp only [seqAt, Bool.and_eq_true, Bool.not_eq_true', List.contains_eq_mem, decide_eq_true_eq, decide_eq_false_iff_not,
    List.any_eq_true, and_assoc]

section Issue
variable {d : Dev} {q op tick args : Nat} (f : Dev → Dev)

theorem issue_of_not_seqAt (h : d.seqAt q op tick args = false) : d.issue q op tick args f = d :=
  if_pos (by simp [h])

theorem issue_of_cut (h : d.seqAt q op tick args = true) {k : Nat} (hk : (d.seq q).cut = some k) (hle : k ≤ tick) :
    d.issue q op tick args f = d.truncated q tick := by
  simp [issue, truncated, h, hk, hle]

theorem issue_of_issues (h : d.issues q tick op args) : d.issue q op tick args f = (f (d.issued q tick)).after := by
  obtain ⟨hat, hcut⟩ := h
  cases hk : (d.seq q).cut with
  | none => simp [issue, issued, hat, hk]
  | some k =>
    have hlt : ¬ k ≤ tick := Nat.not_le_of_lt (hcut k hk)
    simp [issue, issued, hat, hk, hlt]

end Issue

/-! ### What an instruction keeps of the sequencers -/

/-- From a to d sequencer q keeps its banks, its cut and whether it is stopped, and the other sequencers stay as they are. -/
structure SeqKept (q : Nat) (a d : Dev) : Prop where
  stopped : (d.seq q).stopped = (a.seq q).stopped
  act : (d.seq q).act = (a.seq q).act
  staged : (d.seq q).staged = (a.seq q).staged
  cut : (d.seq q).cut = (a.seq q).cut
  others : ∀ r, r ≠ q → d.seq r = a.seq r

section SeqKept
variable {q : Nat} {a b c : Dev}

theorem SeqKept.trans (h : SeqKept q a b) (g : SeqKept q b c) : SeqKept q a c :=
  ⟨g.stopped.trans h.stopped, g.act.trans h.act, g.staged.trans h.staged, g.cut.trans h.cut,
    fun r hr => (g.others r hr).trans (h.others r hr)⟩

theorem seq_of_seqs (h : b.seqs = a.seqs) (r : Nat) : b.seq r = a.seq r := congrArg (fun m : SMap Seq => m.get {} r) h

theorem seqKept_of_seqs (h : b.seqs = a.seqs) : SeqKept q a b := by
  have hq := seq_of_seqs h q
  exact ⟨by rw [hq], by rw [hq], by rw [hq], by rw [hq], fun r _ => seq_of_seqs h r⟩

/-- The units that the effects of the sequencers' instructions change, the sequencers themselves apart. -/
def effectUnits : List DevUnit :=
  [.out, .freeCtr, .cnt, .vio, .ev, .host, .ports, .cin, .lanes, .txc, .duty, .air, .tm, .sec, .links]

theorem seqs_of_leaves (h : Leaves effectUnits a b) : b.seqs = a.seqs := (h.same .seqs rfl).symm

theorem seqs_after (d : Dev) : d.after.seqs = d.seqs := seqs_of_leaves (leaves_after (Leaves.refl _ d) (by decide))

theorem seqKept_seqEnd (q : Nat) (d : Dev) : SeqKept q d (d.seqEnd q) := by
  refine ⟨?_, ?_, ?_, ?_, fun r hr => seq_modSeq_ne d _ hr⟩ <;> simp [seqEnd]

theorem seq_seqEnd_pc (q : Nat) (d : Dev) : ((d.seqEnd q).seq q).pc = (d.seq q).pc := by simp [seqEnd]

theorem seqKept_seqCond (q cond arg n : Nat) (d : Dev) : SeqKept q d (d.seqCond q cond arg n) := by
  refine ⟨?_, ?_, ?_, ?_, fun r hr => seq_modSeq_ne d _ hr⟩ <;> simp [seqCond]

theorem seqKept_issued (q tick : Nat) (d : Dev) : SeqKept q d (d.issued q tick) := by
  refine .trans ⟨?_, ?_, ?_, ?_, fun r hr => seq_modSeq_ne d _ hr⟩ (seqKept_of_seqs (bump_seqs ..)) <;> simp

theorem seq_issued_pc (q tick : Nat) (d : Dev) : ((d.issued q tick).seq q).pc = (d.seq q).pc + 1 +
    (if (d.seq q).condA && (d.seq q).condLeft == 1 then (d.seq q).condN else 0) := by
  rw [issued, seq_of_seqs (bump_seqs ..), seq_modSeq]

end SeqKept

end Sys2Proof.Machine.Dev
end

section
/-! PROOFS. The claim on the order in which the sequencers issue. -/

namespace Sys2Proof.Machine

open Dev

/-- The instruction is issued as the word of this opcode, tick and operands, with the effect f, which keeps the sequencers' banks
and, unless the instruction is COND (R253), the index. -/
structure IssuesWith (i : Instr) (q op tick args : Nat) (f : Dev → Dev) : Prop where
  exec_eq : ∀ s, exec i s = .next (s.goes (s.fresh.issue q op tick args f))
  kept : ∀ d, SeqKept q d (f d)
  pc : (∃ x y a b n, i = .seqCond x y a b n) ∨ ∀ d, ((f d).seq q).pc = (d.seq q).pc

/-- An instruction whose effect leaves the sequencers alone. -/
theorem issuesWith_of_leaves {i : Instr} {q op tick args : Nat} {f : Dev → Dev}
    (he : ∀ s, exec i s = .next (s.goes (s.fresh.issue q op tick args f))) (hf : ∀ d, Leaves effectUnits d (f d)) :
    IssuesWith i q op tick args f :=
  ⟨he, fun d => seqKept_of_seqs (seqs_of_leaves (hf d)),
    .inr fun d => congrArg Seq.pc (seq_of_seqs (seqs_of_leaves (hf d)) q)⟩

/-- Each instruction of a sequencer is issued as its row says. Only END (R255) and COND (R253) have an effect on the sequencer
itself; the cases are the lines of `seqRow`, in its order. -/
theorem exists_issuesWith {i : Instr} {q op tick args : Nat} (h : seqRow i = some (q, op, tick, args)) :
    ∃ f, IssuesWith i q op tick args f := by
  unfold seqRow at h
  split at h <;> cases h
  case h_1 => exact ⟨_, issuesWith_of_leaves (fun _ => rfl) (Leaves.refl _)⟩
  case h_2 q _ => exact ⟨_, fun _ => rfl, seqKept_seqEnd q.val, .inr (seq_seqEnd_pc q.val)⟩
  case h_3 q tick cond arg n => exact ⟨_, fun _ => rfl, seqKept_seqCond q.val _ _ _, .inl ⟨q, tick, cond, arg, n, rfl⟩⟩
  case h_4 => exact ⟨_, issuesWith_of_leaves (fun _ => rfl) fun d => leaves_seqRx (.refl _ d) _ (by decide)⟩
  case h_5 => exact ⟨_, issuesWith_of_leaves (fun _ => rfl) fun d => leaves_seqRetune (.refl _ d) _ _ _ (by decide)⟩
  case h_6 => exact ⟨_, issuesWith_of_leaves (fun _ => rfl) fun d => leaves_seqCalOp (.refl _ d) _ _ _ (by decide)⟩
  case h_7 | h_8 => exact ⟨_, issuesWith_of_leaves (fun _ => rfl) fun d => leaves_seqLane (.refl _ d) _ _ _ _ _ (by decide)⟩
  case h_9 | h_10 => exact ⟨_, issuesWith_of_leaves (fun _ => rfl) fun d => leaves_seqCarrier (.refl _ d) _ _ _ _ (by decide)⟩
  case h_11 | h_12 => exact ⟨_, issuesWith_of_leaves (fun _ => rfl) fun d => leaves_openSlot (.refl _ d) _ _ _ (by decide)⟩
  case h_13 => exact ⟨_, issuesWith_of_leaves (fun _ => rfl) fun d => leaves_seqBcn (.refl _ d) _ _ _ _ _ _ (by decide)⟩
  case h_14 => exact ⟨_, issuesWith_of_leaves (fun _ => rfl) fun d => leaves_seqRxp (.refl _ d) _ (by decide)⟩
  case h_15 => exact ⟨_, issuesWith_of_leaves (fun _ => rfl) fun d => leaves_seqSpi (.refl _ d) _ _ (by decide)⟩

/-- Settles O47: an attempt to issue ends in one of three ways, and the effect of an issued instruction keeps the sequencers'
banks. -/
theorem sequencersIssueInOrderOrNotAtAll : Obligations.SequencersIssueInOrderOrNotAtAll := by
  unfold Obligations.SequencersIssueInOrderOrNotAtAll
  intro s i q op tick args h
  obtain ⟨f, hi⟩ := exists_issuesWith h
  refine ⟨seqAt_iff s.dev q op tick args, fun hat => ?notAt, fun hat ⟨k, hk, hle⟩ => ?cut, fun hiss => ?issued⟩
  case notAt => rw [hi.exec_eq, issue_of_not_seqAt (d := s.fresh) f hat]
  case cut => rw [hi.exec_eq, issue_of_cut (d := s.fresh) f hat hk hle]
  case issued =>
    have hexec : exec i s = .next (s.goes (f (s.fresh.issued q tick)).after) := by
      rw [hi.exec_eq, issue_of_issues (d := s.fresh) f hiss]
    have hafter := seqs_after (f (s.fresh.issued q tick))
    have hkept : SeqKept q s.dev (f (s.fresh.issued q tick)).after :=
      (seqKept_of_seqs s.fresh_seqs).trans <| (seqKept_issued q tick _).trans <| (hi.kept _).trans <| seqKept_of_seqs hafter
    obtain ⟨hrun, -⟩ := (seqAt_iff ..).1 hiss.1
    refine ⟨_, hexec, ?_⟩
    rw [State.goes_dev]
    refine ⟨hkept.stopped.trans hrun, hkept.act, hkept.staged, hkept.cut, hkept.others, hi.pc.imp_right fun hpc => ?_⟩
    rw [seq_of_seqs hafter, hpc, seq_issued_pc, State.fresh_seq]

end Sys2Proof.Machine
end

section
/-! PROOFS. Vat images (R274 to R280): what CMD_VAT_LOAD, the end of its copy and of its verification, CMD_VAT_DISCARD and
CMD_COMMIT come to once their checks are decided, and that a verified image leaves the sequencers' active banks alone (R232). -/

namespace Sys2Proof.Machine.Dev

/-! ### What the decisions read -/

@[simp] theorem taken_follower (d : Dev) (c : Cmd) : (d.taken c).follower = d.follower := by simp [follower, runs]

@[simp] theorem taken_freezePassed (d : Dev) (c : Cmd) (e : Nat) : (d.taken c).freezePassed e = d.freezePassed e := by
  simp [freezePassed, nextNum]

@[simp] theorem fresh_freezePassed (s : State) (e : Nat) : s.fresh.freezePassed e = s.dev.freezePassed e := rfl

section Congr
variable {a b : Dev}

theorem pendingCommit_congr (h : a.stg = b.stg) : a.pendingCommit = b.pendingCommit := by
  rw [pendingCommit, h, pendingCommit]

theorem key_congr (h : a.sec = b.sec) (n : Nat) : a.key n = b.key n := by rw [key, h, key]

theorem keyUsable_congr (h : a.sec = b.sec) (n usage : Nat) : a.keyUsable n usage = b.keyUsable n usage := by
  rw [keyUsable, key_congr h, keyUsable]

/-- The signatures are verified with a stored key (R265). -/
theorem check4_congr (h : a.sec = b.sec) (raw : List Byte) : a.check4 raw = b.check4 raw := by
  simp only [check4, key_congr h]

/-- The banks are timed by the registers in force. -/
theorem check9_congr (h : a.cfg = b.cfg) (v : VatImage) : a.check9 v = b.check9 v := by
  simp only [check9, spiLen, h]

/-- The channels are tested against the Cinnabar record (R276). -/
theorem check10_congr (h : a.cin = b.cin) (v : VatImage) : a.check10 v = b.check10 v := by
  have hpermits (p : Nat) : a.cinPermits p = b.cinPermits p := by
    funext khz mode
    simp only [cinPermits, sbOf, h]
  simp only [check10, linearPort, hpermits, h]

/-- The checks of R275 read the stored keys, the Cinnabar record and the registers in force, and nothing else of the device. -/
theorem vatFault_congr (hsec : a.sec = b.sec) (hcin : a.cin = b.cin) (hcfg : a.cfg = b.cfg) (raw : List Byte) (len : Nat) :
    a.vatFault raw len = b.vatFault raw len := by
  dsimp only [vatFault]
  rw [keyUsable_congr hsec, check4_congr hsec, check9_congr hcfg, check10_congr hcin, hcin]

end Congr

theorem fresh_vatFault (s : State) (raw : List Byte) (len : Nat) :
    s.fresh.commandView.vatFault raw len = s.dev.commandView.vatFault raw len := by
  unfold commandView
  rw [State.fresh_sec]
  split <;> exact vatFault_congr rfl rfl rfl raw len

/-! ### Loading (R274, R277) -/

section Load
variable {d : Dev} {h : Hdr} {p : List Byte}

/-- The load of an image begins: the staged image is dropped, and the command waits for its copy. -/
def loadBegins (d : Dev) (c : Cmd) : Dev :=
  ({ d with vat := { d.vat with staged := none, loading := some c, area := [], verifying := false } }).holdCmd c

/-- CMD_VAT_LOAD whose payload is in order is refused while a load runs or a commit waits, and begins otherwise. -/
theorem vatLoad_of_wellFormed (ha : d.accepts ⟨h, .CMD_VAT_LOAD, 0, p⟩) (hf : d.follower = false) (hsrc : fld p 0 1 ≤ 1)
    (hz1 : zeros p 1 7 = true) (hz2 : zeros p 0x14 44 = true) (hlo : 5800 ≤ fld p 0x10 4) (hhi : fld p 0x10 4 ≤ 4194304) :
    d.vatLoad h p =
      if d.vat.loading.isSome = true then (d.taken ⟨h, .CMD_VAT_LOAD, 0, p⟩).complete ⟨h, .CMD_VAT_LOAD, 0, p⟩ .ST_BUSY
      else if d.pendingCommit.isSome = true then
        (d.taken ⟨h, .CMD_VAT_LOAD, 0, p⟩).complete ⟨h, .CMD_VAT_LOAD, 0, p⟩ .ST_COMMIT_PENDING
      else (d.taken ⟨h, .CMD_VAT_LOAD, 0, p⟩).loadBegins ⟨h, .CMD_VAT_LOAD, 0, p⟩ := by
  have hgood : ¬ (1 < fld p 0 1 ∨ ¬ zeros p 1 7 = true ∨ ¬ zeros p 0x14 44 = true ∨ fld p 0x10 4 < 5800 ∨
      4194304 < fld p 0x10 4) := by
    simp only [hz1, hz2, not_true_eq_false, false_or]
    omega
  rw [vatLoad, command_accepted ha]
  simp only [taken_follower, hf, if_neg hgood, taken_vat, pendingCommit_congr (taken_stg ..), Bool.false_eq_true, if_false,
    loadBegins]

end Load

section Loading
variable {d : Dev} {c : Cmd} (hl : d.vat.loading = some c)
include hl

/-- A copy that fails ends the load. -/
theorem vatCopyDone_failed (hv : d.vat.verifying = false) (image : List Byte) :
    d.vatCopyDone false image = ({ d with vat := { d.vat with loading := none } }).complete c .ST_TRANSFER_FAIL := by
  simp [vatCopyDone, hl, hv]

/-- A copy that succeeds is verified. -/
theorem vatCopyDone_copied (hv : d.vat.verifying = false) (image : List Byte) : d.vatCopyDone true image =
    { d with vat := { d.vat with area := slice image 0 (fld c.p 0x10 4), verifying := true } } := by
  simp [vatCopyDone, hl, hv]

/-- The image fails a check: the load ends with the check, and stages nothing (R275). -/
theorem vatVerifyDone_refused (hv : d.vat.verifying = true) {k x i : Nat}
    (hfault : d.commandView.vatFault d.vat.area (fld c.p 0x10 4) = some (k, x, i)) : d.vatVerifyDone =
    ({ d with vat := { d.vat with
        loading := none, area := [], verifying := false, lastCheck := k, lastSection := x, refuse := i } }).complete c
      .ST_IMAGE_REFUSED (le 1 k ++ le 1 x ++ le 2 0 ++ le 4 i) := by
  simp [vatVerifyDone, hl, hv, hfault]

/-- The image passes every check, and is staged. -/
theorem vatVerifyDone_staged (hv : d.vat.verifying = true)
    (hfault : d.commandView.vatFault d.vat.area (fld c.p 0x10 4) = none) : d.vatVerifyDone =
    (({ d with vat := { d.vat with loading := none, area := [], verifying := false } }).stageImage
        (parseVat d.vat.area)).complete c .ST_OK
      (le 4 (parseVat d.vat.area).planId ++ (parseVat d.vat.area).digest.take 8) := by
  simp [vatVerifyDone, hl, hv, hfault]

end Loading

/-! ### The staged image and the sequencers' banks (R232) -/

/-- A change of sequencer i that keeps its active bank keeps every sequencer's. -/
theorem act_modSeq (d : Dev) (i q : Nat) {f : Seq → Seq} (hf : ∀ x, (f x).act = x.act) :
    ((d.modSeq i f).seq q).act = (d.seq q).act := by
  by_cases hq : q = i
  · rw [hq, seq_modSeq, hf]
  · rw [seq_modSeq_ne d f hq]

/-- A verified image goes to the staged banks. -/
theorem act_stageImage (d : Dev) (v : VatImage) (q : Nat) : ((d.stageImage v).seq q).act = (d.seq q).act := by
  simp only [stageImage, each, List.foldl_cons, List.foldl_nil]
  iterate 4 rw [act_modSeq]
  all_goals intros; rfl

theorem stageImage_vat (d : Dev) (v : VatImage) : (d.stageImage v).vat = { d.vat with staged := some v } := rfl

/-! ### Discarding (R278) and committing (R280) -/

section Commit
variable {d : Dev} {h : Hdr} {p : List Byte}

/-- With no commit that waits, CMD_VAT_DISCARD drops the staged image. -/
theorem vatDiscard_of_not_pending (ha : d.accepts ⟨h, .CMD_VAT_DISCARD, 0, []⟩) (hn : d.pendingCommit = none) :
    d.vatDiscard h = ({ d.taken ⟨h, .CMD_VAT_DISCARD, 0, []⟩ with vat := { d.vat with staged := none } }).complete
      ⟨h, .CMD_VAT_DISCARD, 0, []⟩ .ST_OK := by
  rw [vatDiscard, command_accepted ha]
  simp only [pendingCommit_congr (taken_stg d _), hn, taken_vat]

/-- FLAGS.AT_EPOCH is the one flag of CMD_COMMIT (R279). -/
theorem commitEpoch_eq (hflags : fld p 0 1 ≤ 1) : commitEpoch p = if fld p 0 1 = 0 then none else some (fld p 8 6) := by
  unfold commitEpoch
  obtain h0 | h1 : fld p 0 1 = 0 ∨ fld p 0 1 = 1 := by omega
  · rw [h0]; rfl
  · rw [h1]; rfl

variable (ha : d.accepts ⟨h, .CMD_COMMIT, 0, p⟩) (hf : d.follower = false) (hflags : fld p 0 1 ≤ 1)
  (hz1 : zeros p 1 7 = true) (hz2 : zeros p 0x0E 2 = true) (hz3 : zeros p 0x18 40 = true)
include ha hf hflags hz1 hz2 hz3

/-- CMD_COMMIT whose payload is in order is decided by the staged image. -/
theorem commitCmd_of_wellFormed : d.commitCmd h p =
    match d.vat.staged with
    | none => (d.taken ⟨h, .CMD_COMMIT, 0, p⟩).complete ⟨h, .CMD_COMMIT, 0, p⟩ .ST_NOTHING_STAGED
    | some v =>
      if slice p 0x10 8 ≠ v.digest.take 8 then
        (d.taken ⟨h, .CMD_COMMIT, 0, p⟩).complete ⟨h, .CMD_COMMIT, 0, p⟩ .ST_DIGEST_MISMATCH
      else if d.pendingCommit.isSome = true then
        (d.taken ⟨h, .CMD_COMMIT, 0, p⟩).complete ⟨h, .CMD_COMMIT, 0, p⟩ .ST_COMMIT_PENDING
      else if fld p 0 1 = 0 then (d.taken ⟨h, .CMD_COMMIT, 0, p⟩).stageCmd ⟨h, .CMD_COMMIT, 0, p⟩ none
      else if d.freezePassed (fld p 8 6) = true then
        (d.taken ⟨h, .CMD_COMMIT, 0, p⟩).complete ⟨h, .CMD_COMMIT, 0, p⟩ .ST_EPOCH_PASSED
      else (d.taken ⟨h, .CMD_COMMIT, 0, p⟩).stageCmd ⟨h, .CMD_COMMIT, 0, p⟩ (some (fld p 8 6)) := by
  have hgood : ¬ (1 < fld p 0 1 ∨ ¬ zeros p 1 7 = true ∨ ¬ zeros p 0x0E 2 = true ∨ ¬ zeros p 0x18 40 = true) := by
    simp only [hz1, hz2, hz3, not_true_eq_false, or_false]
    omega
  rw [commitCmd, command_accepted ha]
  simp only [taken_follower, hf, if_neg hgood, taken_vat, pendingCommit_congr (taken_stg ..), taken_freezePassed,
    commitEpoch_eq hflags, Bool.false_eq_true, if_false]
  cases d.vat.staged with
  | none => rfl
  | some v => by_cases h0 : fld p 0 1 = 0 <;> simp [h0]

end Commit

end Sys2Proof.Machine.Dev
end

section
/-! PROOFS. The claim on Vat images. -/

namespace Sys2Proof.Machine

open Dev

/-! ### The meanings, run from the fresh state -/

theorem exec_cmdVatLoad (s : State) (h : Hdr) (p : List Byte) :
    exec (.cmdVatLoad h p) s = .next (s.goes (s.fresh.vatLoad h p)) := rfl

theorem exec_vatCopyDone (s : State) (ok : Bool) (image : List Byte) :
    exec (.vatCopyDone ok image) s = .next (s.goes (s.fresh.vatCopyDone ok image)) := rfl

theorem exec_vatVerifyDone (s : State) : exec .vatVerifyDone s = .next (s.goes s.fresh.vatVerifyDone) := rfl

theorem exec_cmdVatDiscard (s : State) (h : Hdr) : exec (.cmdVatDiscard h) s = .next (s.goes (s.fresh.vatDiscard h)) := rfl

theorem exec_cmdCommit (s : State) (h : Hdr) (p : List Byte) :
    exec (.cmdCommit h p) s = .next (s.goes (s.fresh.commitCmd h p)) := rfl

/-- Settles O39: each command comes to the outcome that its checks decide, and only the image that is staged, loading or dropped
changes; the image in force and the active banks stay. -/
theorem imagesLoadVerifyCommitAndDiscard : Obligations.ImagesLoadVerifyCommitAndDiscard := by
  unfold Obligations.ImagesLoadVerifyCommitAndDiscard
  intro s h p hf
  refine ⟨fun ha hsrc hz1 hz2 hlo hhi => ⟨_, exec_cmdVatLoad .., ?load⟩,
    fun c image hl hv => ⟨⟨_, exec_vatCopyDone .., ?failed⟩, ⟨_, exec_vatCopyDone .., ?copied⟩⟩,
    fun c hl hv => ⟨_, exec_vatVerifyDone s, ?verified⟩, fun ha hn => ⟨_, exec_cmdVatDiscard .., ?discard⟩,
    fun ha hflags hz1 hz2 hz3 => ⟨_, exec_cmdCommit .., ?commit⟩⟩
  case load =>
    rw [State.goes_dev, vatLoad_of_wellFormed ha hf hsrc hz1 hz2 hlo hhi]
    rw [State.fresh_vat, pendingCommit_congr s.fresh_stg]
    by_cases hbusy : s.dev.vat.loading.isSome = true
    · simp only [if_pos hbusy]
      exact replies_complete ..
    · by_cases hwaits : s.dev.pendingCommit.isSome = true
      · simp only [if_neg hbusy, if_pos hwaits]
        exact replies_complete ..
      · simp only [if_neg hbusy, if_neg hwaits]
        simp [loadBegins, holdCmd]
  case failed =>
    rw [State.goes_dev, vatCopyDone_failed (d := s.fresh) hl hv]
    exact ⟨complete_answered .., by simp, by simp⟩
  case copied =>
    rw [State.goes_dev, vatCopyDone_copied (d := s.fresh) hl hv]
    exact ⟨rfl, rfl, rfl, rfl⟩
  case verified =>
    rw [State.goes_dev, ← fresh_vatFault]
    cases hfault : s.fresh.commandView.vatFault s.dev.vat.area (fld c.p 0x10 4) with
    | some f =>
      obtain ⟨k, x, i⟩ := f
      rw [vatVerifyDone_refused (d := s.fresh) hl hv hfault]
      refine ⟨by simp, by simp, ?_, nofun⟩
      rintro _ _ _ ⟨rfl, rfl, rfl⟩
      exact ⟨complete_answered .., by simp, by simp⟩
    | none =>
      rw [vatVerifyDone_staged (d := s.fresh) hl hv hfault]
      refine ⟨by simp [stageImage_vat], by simp [stageImage_vat], nofun, fun _ => ⟨by simp [stageImage_vat],
        complete_answered .., fun q => ?_⟩⟩
      rw [seq_of_seqs (complete_seqs ..), act_stageImage]
      rfl
  case discard =>
    rw [State.goes_dev, vatDiscard_of_not_pending ha ((pendingCommit_congr s.fresh_stg).trans hn)]
    exact ⟨complete_answered .., by simp, by simp⟩
  case commit =>
    rw [State.goes_dev, commitCmd_of_wellFormed ha hf hflags hz1 hz2 hz3]
    refine ⟨fun hnone => ?_, fun v hsome => ?_⟩
    · rw [State.fresh_vat, hnone]
      exact replies_complete ..
    · rw [State.fresh_vat, hsome]
      dsimp only
      rw [pendingCommit_congr s.fresh_stg, fresh_freezePassed]
      by_cases hdigest : slice p 0x10 8 ≠ v.digest.take 8
      · simp only [if_pos hdigest]
        exact replies_complete ..
      by_cases hwaits : s.dev.pendingCommit.isSome = true
      · simp only [if_neg hdigest, if_pos hwaits]
        exact replies_complete ..
      by_cases hnext : fld p 0 1 = 0
      · simp only [if_neg hdigest, if_neg hwaits, if_pos hnext]
        exact stages_stageCmd ..
      by_cases hpassed : s.dev.freezePassed (fld p 8 6) = true
      · simp only [if_neg hdigest, if_neg hwaits, if_neg hnext, if_pos hpassed]
        exact replies_complete ..
      · simp only [if_neg hdigest, if_neg hwaits, if_neg hnext, if_neg hpassed]
        exact stages_stageCmd ..

end Sys2Proof.Machine
end

section
/-! PROOFS. Re-key, traffic records, neighbours and the seen set (R226, R302, R402, R436): what each command comes to at its
acceptance. -/

namespace Sys2Proof.Machine.Dev

/-! ### What the decisions read -/

section Congr
variable {a b : Dev}

theorem nodeAt_congr (htbl : a.tbl = b.tbl) (k loc : Nat) : a.nodeAt k loc = b.nodeAt k loc := by
  rw [nodeAt, htbl, nodeAt]

/-- An entry ages by the limit of its PAN and by the epoch of the PIPE domain (R339). -/
theorem aged_congr (hcfg : a.cfg = b.cfg) (hepoch : a.epoch = b.epoch) (x : NodeEntry) : a.aged x = b.aged x := by
  dsimp only [aged]
  rw [hcfg, hepoch]

theorem seesNode_congr (hcfg : a.cfg = b.cfg) (hepoch : a.epoch = b.epoch) (x : NodeEntry) : a.seesNode x = b.seesNode x := by
  rw [seesNode, aged_congr hcfg hepoch, seesNode]

theorem findShort_congr (htbl : a.tbl = b.tbl) (hcfg : a.cfg = b.cfg) (hepoch : a.epoch = b.epoch) (k addr : Nat) :
    a.findShort k addr = b.findShort k addr := by
  dsimp only [findShort]
  rw [nodeAt_congr htbl, seesNode_congr hcfg hepoch]

theorem rekeyRefusal_congr (htbl : a.tbl = b.tbl) (hcfg : a.cfg = b.cfg) (hepoch : a.epoch = b.epoch) (p : List Byte) :
    a.rekeyRefusal p = b.rekeyRefusal p := by
  simp only [rekeyRefusal, findShort_congr htbl hcfg hepoch, nodeAt_congr htbl]

/-- A queue without a record of its own has the default depth. -/
theorem qrec_congr (htm : a.tm = b.tm) (hcfg : a.cfg = b.cfg) (q : Nat) : a.qrec q = b.qrec q := by
  rw [qrec, htm, hcfg, qrec]

theorem shaper_congr (htm : a.tm = b.tm) (i : Nat) : a.shaper i = b.shaper i := by
  rw [shaper, htm, shaper]

theorem queueExists_congr (htm : a.tm = b.tm) (q : Nat) : a.queueExists q = b.queueExists q := by
  rw [queueExists, htm, queueExists]

/-- A record is checked against the shapers, policers and queues in force (R402). -/
theorem tmSetBad_congr (htm : a.tm = b.tm) (hcfg : a.cfg = b.cfg) (p : List Byte) : a.tmSetBad p = b.tmSetBad p := by
  dsimp only [tmSetBad]
  rw [shaper_congr htm, queueExists_congr htm, qrec_congr htm hcfg, htm]

end Congr

/-- FLAGS of a record that is in order has no bit but AT_EPOCH (R402). -/
theorem flags_le_of_not_tmSetBad {d : Dev} {p : List Byte} (h : ¬ d.tmSetBad p = true) : fld p 1 1 ≤ 1 := by
  simp only [tmSetBad, Bool.or_eq_true, not_or, decide_eq_true_eq, Nat.not_lt] at h
  obtain ⟨⟨⟨⟨hflags, -⟩, -⟩, -⟩, -⟩ := h
  exact hflags

/-! ### The refusals of CMD_NODE_REKEY (R436) -/

section Refusal
variable {d : Dev} {p : List Byte}

theorem rekeyRefusal_of_malformed (h : 3 < fld p 0 1 ∨ 1 < fld p 1 1 ∨ zeros p 4 4 = false ∨ zeros p 0x10 48 = false) :
    d.rekeyRefusal p = some .ST_BAD_PARAM := by
  rw [rekeyRefusal, if_pos (by simpa using h)]

variable (h : ¬ (3 < fld p 0 1 ∨ 1 < fld p 1 1 ∨ zeros p 4 4 = false ∨ zeros p 0x10 48 = false))
include h

theorem rekeyRefusal_of_unknown (hfind : d.findShort (fld p 0 1) (fld p 2 2) = none) :
    d.rekeyRefusal p = some .ST_NOT_FOUND := by
  rw [rekeyRefusal, if_neg (by simpa using h), hfind]

/-- The new key epoch of a known node must exceed the one that it has. -/
theorem rekeyRefusal_of_known {loc : Nat} (hfind : d.findShort (fld p 0 1) (fld p 2 2) = some loc) :
    d.rekeyRefusal p =
      if fld p 0x0E 2 ≤ (d.nodeAt (fld p 0 1) loc).keyEpoch then some .ST_BAD_PARAM else none := by
  rw [rekeyRefusal, if_neg (by simpa using h), hfind]

end Refusal

/-! ### Staging at the epoch that FLAGS names (R52, R66) -/

/-- A command that is in order waits for the next boundary, or for the epoch it names unless the freeze of that has passed. -/
theorem stages_unless_passed (s : State) (c : Cmd) {flags e : Nat} {t : Dev} (hflags : flags ≤ 1)
    (ht : t = if bit flags 0 = true ∧ s.dev.freezePassed e = true then (s.fresh.taken c).complete c .ST_EPOCH_PASSED
      else (s.fresh.taken c).stageCmd c (if bit flags 0 = true then some e else none)) :
    if flags = 0 then s.dev.stages c none t
    else if s.dev.freezePassed e = true then s.dev.replies c .ST_EPOCH_PASSED t
    else s.dev.stages c (some e) t := by
  obtain rfl | rfl : flags = 0 ∨ flags = 1 := by omega
  · have hnext : bit 0 0 = false := rfl
    simp only [hnext, Bool.false_eq_true, false_and, if_false] at ht
    rw [if_pos rfl, ht]
    exact stages_stageCmd ..
  · have hat : bit 1 0 = true := rfl
    simp only [hat, true_and, if_true] at ht
    rw [if_neg Nat.one_ne_zero, ht]
    by_cases hpassed : s.dev.freezePassed e = true
    · rw [if_pos hpassed, if_pos hpassed]
      exact replies_complete ..
    · rw [if_neg hpassed, if_neg hpassed]
      exact stages_stageCmd ..

/-! ### The commands, accepted -/

section Accepted
variable {d : Dev} {h : Hdr} {p : List Byte}

theorem seenFlushCmd_accepted (ha : d.accepts ⟨h, .CMD_SEEN_FLUSH, 0, []⟩) :
    d.seenFlushCmd h = (d.taken ⟨h, .CMD_SEEN_FLUSH, 0, []⟩).stageCmd ⟨h, .CMD_SEEN_FLUSH, 0, []⟩ none := by
  rw [seenFlushCmd, command_accepted ha]

theorem nbrSet_accepted {sub : Nat} (ha : d.accepts ⟨h, .CMD_NBR_SET, sub, p⟩) :
    d.nbrSet h p sub =
      if d.follower = true then (d.taken ⟨h, .CMD_NBR_SET, sub, p⟩).complete ⟨h, .CMD_NBR_SET, sub, p⟩ .ST_MODE_REFUSED
      else if fld p 0 1 ≠ sub ∨ zeros p 1 1 = false ∨ zeros p 4 4 = false ∨ zeros p 0x10 48 = false then
        (d.taken ⟨h, .CMD_NBR_SET, sub, p⟩).complete ⟨h, .CMD_NBR_SET, sub, p⟩ .ST_BAD_PARAM
      else (d.taken ⟨h, .CMD_NBR_SET, sub, p⟩).stageCmd ⟨h, .CMD_NBR_SET, sub, p⟩ none := by
  rw [nbrSet, command_accepted ha]
  simp only [taken_follower, Bool.not_eq_true]

theorem tmSet_accepted (ha : d.accepts ⟨h, .CMD_TM_SET, 0, p⟩) :
    d.tmSet h p =
      if d.follower = true then (d.taken ⟨h, .CMD_TM_SET, 0, p⟩).complete ⟨h, .CMD_TM_SET, 0, p⟩ .ST_MODE_REFUSED
      else if d.tmSetBad p = true then
        (d.taken ⟨h, .CMD_TM_SET, 0, p⟩).complete ⟨h, .CMD_TM_SET, 0, p⟩ .ST_BAD_PARAM
      else if bit (fld p 1 1) 0 = true ∧ d.freezePassed (fld p 8 6) = true then
        (d.taken ⟨h, .CMD_TM_SET, 0, p⟩).complete ⟨h, .CMD_TM_SET, 0, p⟩ .ST_EPOCH_PASSED
      else (d.taken ⟨h, .CMD_TM_SET, 0, p⟩).stageCmd ⟨h, .CMD_TM_SET, 0, p⟩
        (if bit (fld p 1 1) 0 = true then some (fld p 8 6) else none) := by
  rw [tmSet, command_accepted ha]
  simp only [taken_follower, taken_freezePassed, tmSetBad_congr (taken_tm ..) (taken_cfg ..)]

theorem fresh_rekeyRefusal (s : State) (p : List Byte) : s.fresh.rekeyRefusal p = s.dev.rekeyRefusal p := rfl

theorem taken_rekeyRefusal (d : Dev) (c : Cmd) (p : List Byte) : (d.taken c).rekeyRefusal p = d.rekeyRefusal p :=
  rekeyRefusal_congr (taken_tbl ..) (taken_cfg ..) (taken_epoch ..) p

variable (ha : d.accepts ⟨h, .CMD_NODE_REKEY, 0, p⟩)
include ha

theorem nodeRekey_follower (hf : d.follower = true) :
    d.nodeRekey h p = (d.taken ⟨h, .CMD_NODE_REKEY, 0, p⟩).complete ⟨h, .CMD_NODE_REKEY, 0, p⟩ .ST_MODE_REFUSED := by
  rw [nodeRekey, command_accepted ha]
  simp only [taken_follower, hf, if_true]

theorem nodeRekey_refused {st : Status} (hf : ¬ d.follower = true) (hr : d.rekeyRefusal p = some st) :
    d.nodeRekey h p = (d.taken ⟨h, .CMD_NODE_REKEY, 0, p⟩).complete ⟨h, .CMD_NODE_REKEY, 0, p⟩ st := by
  rw [nodeRekey, command_accepted ha]
  simp only [taken_follower, if_neg hf, taken_rekeyRefusal, hr]

theorem nodeRekey_admitted (hf : ¬ d.follower = true) (hr : d.rekeyRefusal p = none) :
    d.nodeRekey h p =
      if bit (fld p 1 1) 0 = true ∧ d.freezePassed (fld p 8 6) = true then
        (d.taken ⟨h, .CMD_NODE_REKEY, 0, p⟩).complete ⟨h, .CMD_NODE_REKEY, 0, p⟩ .ST_EPOCH_PASSED
      else (d.taken ⟨h, .CMD_NODE_REKEY, 0, p⟩).stageCmd ⟨h, .CMD_NODE_REKEY, 0, p⟩
        (if bit (fld p 1 1) 0 = true then some (fld p 8 6) else none) := by
  rw [nodeRekey, command_accepted ha]
  simp only [taken_follower, if_neg hf, taken_rekeyRefusal, hr, taken_freezePassed]

end Accepted

end Sys2Proof.Machine.Dev
end

section
/-! PROOFS. The claim on CMD_NODE_REKEY, CMD_TM_SET, CMD_NBR_SET and CMD_SEEN_FLUSH. -/

namespace Sys2Proof.Machine

open Dev

/-! ### The meanings, run from the fresh state -/

theorem exec_cmdSeenFlush (s : State) (h : Hdr) : exec (.cmdSeenFlush h) s = .next (s.goes (s.fresh.seenFlushCmd h)) := rfl

theorem exec_cmdNbrSetAdd (s : State) (h : Hdr) (p : List Byte) :
    exec (.cmdNbrSetAdd h p) s = .next (s.goes (s.fresh.nbrSet h p 0)) := rfl

theorem exec_cmdNbrSetRemove (s : State) (h : Hdr) (p : List Byte) :
    exec (.cmdNbrSetRemove h p) s = .next (s.goes (s.fresh.nbrSet h p 1)) := rfl

theorem exec_cmdTmSet (s : State) (h : Hdr) (p : List Byte) :
    exec (.cmdTmSet h p) s = .next (s.goes (s.fresh.tmSet h p)) := rfl

theorem exec_cmdNodeRekey (s : State) (h : Hdr) (p : List Byte) :
    exec (.cmdNodeRekey h p) s = .next (s.goes (s.fresh.nodeRekey h p)) := rfl

/-! ### What each command comes to -/

section Outcome
variable {s : State} {h : Hdr} {p : List Byte}

theorem nbrSet_outcome {sub : Nat} (ha : s.fresh.accepts ⟨h, .CMD_NBR_SET, sub, p⟩) :
    if s.dev.follower = true then s.dev.replies ⟨h, .CMD_NBR_SET, sub, p⟩ .ST_MODE_REFUSED (s.fresh.nbrSet h p sub)
    else if fld p 0 1 ≠ sub ∨ zeros p 1 1 = false ∨ zeros p 4 4 = false ∨ zeros p 0x10 48 = false then
      s.dev.replies ⟨h, .CMD_NBR_SET, sub, p⟩ .ST_BAD_PARAM (s.fresh.nbrSet h p sub)
    else s.dev.stages ⟨h, .CMD_NBR_SET, sub, p⟩ none (s.fresh.nbrSet h p sub) := by
  rw [nbrSet_accepted ha, State.fresh_follower]
  by_cases hf : s.dev.follower = true
  · simp only [if_pos hf]
    exact replies_complete ..
  by_cases hbad : fld p 0 1 ≠ sub ∨ zeros p 1 1 = false ∨ zeros p 4 4 = false ∨ zeros p 0x10 48 = false
  · simp only [if_neg hf, if_pos hbad]
    exact replies_complete ..
  · simp only [if_neg hf, if_neg hbad]
    exact stages_stageCmd ..

theorem tmSet_outcome (ha : s.fresh.accepts ⟨h, .CMD_TM_SET, 0, p⟩) :
    if s.dev.follower = true then s.dev.replies ⟨h, .CMD_TM_SET, 0, p⟩ .ST_MODE_REFUSED (s.fresh.tmSet h p)
    else if s.dev.tmSetBad p = true then s.dev.replies ⟨h, .CMD_TM_SET, 0, p⟩ .ST_BAD_PARAM (s.fresh.tmSet h p)
    else if fld p 1 1 = 0 then s.dev.stages ⟨h, .CMD_TM_SET, 0, p⟩ none (s.fresh.tmSet h p)
    else if s.dev.freezePassed (fld p 8 6) = true then
      s.dev.replies ⟨h, .CMD_TM_SET, 0, p⟩ .ST_EPOCH_PASSED (s.fresh.tmSet h p)
    else s.dev.stages ⟨h, .CMD_TM_SET, 0, p⟩ (some (fld p 8 6)) (s.fresh.tmSet h p) := by
  rw [tmSet_accepted ha, State.fresh_follower, fresh_freezePassed, tmSetBad_congr s.fresh_tm s.fresh_cfg]
  by_cases hf : s.dev.follower = true
  · simp only [if_pos hf]
    exact replies_complete ..
  by_cases hbad : s.dev.tmSetBad p = true
  · simp only [if_neg hf, if_pos hbad]
    exact replies_complete ..
  · rw [if_neg hf, if_neg hf, if_neg hbad, if_neg hbad]
    exact stages_unless_passed s _ (flags_le_of_not_tmSetBad hbad) rfl

/-- A re-key that its payload or the node refuses is answered with that refusal. -/
theorem nodeRekey_replies {st : Status} (ha : s.fresh.accepts ⟨h, .CMD_NODE_REKEY, 0, p⟩) (hf : ¬ s.dev.follower = true)
    (hr : s.dev.rekeyRefusal p = some st) :
    s.dev.replies ⟨h, .CMD_NODE_REKEY, 0, p⟩ st (s.fresh.nodeRekey h p) := by
  rw [nodeRekey_refused ha hf ((fresh_rekeyRefusal ..).trans hr)]
  exact replies_complete ..

/-- A re-key of a known node is answered, or waits. -/
theorem nodeRekey_known {loc : Nat} (ha : s.fresh.accepts ⟨h, .CMD_NODE_REKEY, 0, p⟩) (hf : ¬ s.dev.follower = true)
    (hform : ¬ (3 < fld p 0 1 ∨ 1 < fld p 1 1 ∨ zeros p 4 4 = false ∨ zeros p 0x10 48 = false))
    (hfind : s.dev.findShort (fld p 0 1) (fld p 2 2) = some loc) :
    if fld p 0x0E 2 ≤ (s.dev.nodeAt (fld p 0 1) loc).keyEpoch then
      s.dev.replies ⟨h, .CMD_NODE_REKEY, 0, p⟩ .ST_BAD_PARAM (s.fresh.nodeRekey h p)
    else if fld p 1 1 = 0 then s.dev.stages ⟨h, .CMD_NODE_REKEY, 0, p⟩ none (s.fresh.nodeRekey h p)
    else if s.dev.freezePassed (fld p 8 6) = true then
      s.dev.replies ⟨h, .CMD_NODE_REKEY, 0, p⟩ .ST_EPOCH_PASSED (s.fresh.nodeRekey h p)
    else s.dev.stages ⟨h, .CMD_NODE_REKEY, 0, p⟩ (some (fld p 8 6)) (s.fresh.nodeRekey h p) := by
  have hr := rekeyRefusal_of_known hform hfind
  by_cases hold : fld p 0x0E 2 ≤ (s.dev.nodeAt (fld p 0 1) loc).keyEpoch
  · rw [if_pos hold] at hr ⊢
    exact nodeRekey_replies ha hf hr
  · rw [if_neg hold] at hr ⊢
    exact stages_unless_passed s _ (by omega) (nodeRekey_admitted ha hf ((fresh_rekeyRefusal ..).trans hr))

end Outcome

/-- Settles O37: an accepted command is refused by the first of its rules that applies, and otherwise is only put among those
that wait for a boundary. -/
theorem rekeyTmNeighbourAndFlushAreStaged : Obligations.RekeyTmNeighbourAndFlushAreStaged := by
  unfold Obligations.RekeyTmNeighbourAndFlushAreStaged
  intro s h p
  refine ⟨fun ha => ⟨_, exec_cmdSeenFlush .., ?flush⟩, ?neighbour, fun ha => ⟨_, exec_cmdTmSet .., tmSet_outcome ha⟩,
    fun ha => ⟨_, exec_cmdNodeRekey .., ?rekey, ?unknown⟩⟩
  case flush =>
    rw [State.goes_dev, seenFlushCmd_accepted ha]
    exact stages_stageCmd ..
  case neighbour =>
    simp only [List.forall_mem_cons, List.not_mem_nil, false_implies, implies_true, and_true]
    exact ⟨fun ha => ⟨_, exec_cmdNbrSetAdd .., nbrSet_outcome ha⟩, fun ha => ⟨_, exec_cmdNbrSetRemove .., nbrSet_outcome ha⟩⟩
  case rekey =>
    rw [State.goes_dev]
    by_cases hf : s.dev.follower = true
    · rw [if_pos hf, nodeRekey_follower ha hf]
      exact replies_complete ..
    by_cases hform : 3 < fld p 0 1 ∨ 1 < fld p 1 1 ∨ zeros p 4 4 = false ∨ zeros p 0x10 48 = false
    · rw [if_neg hf, if_pos hform]
      exact nodeRekey_replies ha hf (rekeyRefusal_of_malformed hform)
    · rw [if_neg hf, if_neg hform]
      exact fun loc hfind => nodeRekey_known ha hf hform hfind
  case unknown =>
    intro hf hpan hflags hz1 hz2 hfind
    have hform : ¬ (3 < fld p 0 1 ∨ 1 < fld p 1 1 ∨ zeros p 4 4 = false ∨ zeros p 0x10 48 = false) := by
      simp only [hz1, hz2, Bool.true_eq_false, or_false]
      omega
    exact nodeRekey_replies ha (ne_true_of_eq_false hf) (rekeyRefusal_of_unknown hform hfind)

end Sys2Proof.Machine
end

section
/-! PROOFS. The tables of nodes, routes and prefixes (R331 to R346): the active banks and what leaves them alone, the commands at their
acceptance, and the start, the swap and the end of a rebuild. -/

namespace Sys2Proof.Machine.Dev

/-! ### The active banks (R341) -/

/-- The active banks of the three tables. -/
def activeBanks (d : Dev) : NodeBank × RouteBank × PrefixBank := (d.tbl.node, d.tbl.route, d.tbl.pfx)

theorem activeBanks_congr {a b : Dev} (h : a.tbl = b.tbl) : a.activeBanks = b.activeBanks := by
  rw [activeBanks, h, activeBanks]

theorem activeBanks_eq_iff {a b : Dev} :
    a.activeBanks = b.activeBanks ↔ a.tbl.node = b.tbl.node ∧ a.tbl.route = b.tbl.route ∧ a.tbl.pfx = b.tbl.pfx := by
  simp only [activeBanks, Prod.mk.injEq]

@[simp] theorem activeBanks_complete (d : Dev) (c : Cmd) (st : Status) (r : List Byte) :
    (d.complete c st r).activeBanks = d.activeBanks :=
  activeBanks_congr (complete_tbl ..)

@[simp] theorem activeBanks_bump (d : Dev) (c : Counter) (n : Nat) : (d.bump c n).activeBanks = d.activeBanks :=
  activeBanks_congr (bump_tbl ..)

@[simp] theorem activeBanks_hintFail (d : Dev) (e : NodeEntry) : (d.hintFail e).activeBanks = d.activeBanks :=
  (activeBanks_congr (raise_tbl ..)).trans (activeBanks_bump ..)

/-- A write that may fail to place its hint (R320). -/
theorem activeBanks_hintFail_unless (d : Dev) (e : NodeEntry) (placed : Bool) :
    (if placed = true then d else d.hintFail e).activeBanks = d.activeBanks := by
  split
  · rfl
  · exact activeBanks_hintFail ..

@[simp] theorem activeBanks_modPan (d : Dev) (k : Nat) (f : Pan → Pan) : (d.modPan k f).activeBanks = d.activeBanks := rfl

/-! ### A write with FLAGS.STAGED goes to the staged bank (R342) -/

section StagedWrite
variable (d : Dev) (p : List Byte)

/-- An address that the device chooses moves the PAN's cursor, and the entry goes to the staged bank (R332). -/
theorem activeBanks_nodeAdd_staged : (d.nodeAdd true p).1.activeBanks = d.activeBanks := by
  simp only [nodeAdd, if_true]
  split
  · rfl
  split
  · rfl
  split
  · rfl
  split
  · rfl
  rename_i loc x hplace
  have hx : x.activeBanks = d.activeBanks := by
    split at hplace
    · cases hplace; rfl
    · obtain ⟨a, -, ha⟩ := Option.map_eq_some_iff.1 hplace
      cases ha
      exact activeBanks_modPan ..
  exact (activeBanks_hintFail_unless ..).trans hx

theorem activeBanks_nodeDelete_staged : (d.nodeDelete true p).1.activeBanks = d.activeBanks := by
  simp only [nodeDelete, not_true_eq_false, false_and, if_false, if_true]
  split <;> rfl

theorem activeBanks_nodeClear_staged : (d.nodeClear true p).1.activeBanks = d.activeBanks := by
  simp only [nodeClear, if_true]
  split <;> rfl

theorem activeBanks_routeAdd_staged : (d.routeAdd true p).1.activeBanks = d.activeBanks := by
  simp only [routeAdd, if_true]
  split
  · rfl
  · exact activeBanks_bump ..

theorem activeBanks_routeDelete_staged : (d.routeDelete true p).1.activeBanks = d.activeBanks := by
  simp only [routeDelete, if_true]
  split <;> rfl

theorem activeBanks_routeClear_staged : (d.routeClear true p).1.activeBanks = d.activeBanks := by
  simp only [routeClear, if_true]
  split <;> rfl

theorem activeBanks_pfxAdd_staged : (d.pfxAdd true p).1.activeBanks = d.activeBanks := by
  simp only [pfxAdd, if_true]
  split
  · rfl
  split
  · rfl
  · exact activeBanks_bump ..

theorem activeBanks_pfxDelete_staged : (d.pfxDelete true p).1.activeBanks = d.activeBanks := by
  simp only [pfxDelete, if_true]
  split <;> rfl

theorem activeBanks_pfxClear_staged : (d.pfxClear true p).1.activeBanks = d.activeBanks := by
  simp only [pfxClear, if_true]
  split <;> rfl

theorem activeBanks_tblRun_staged (op : Opcode) (sub : Nat) : (d.tblRun op sub true p).1.activeBanks = d.activeBanks := by
  unfold tblRun
  split
  · exact activeBanks_nodeAdd_staged ..
  · exact activeBanks_nodeDelete_staged ..
  · exact activeBanks_nodeClear_staged ..
  · exact activeBanks_routeAdd_staged ..
  · exact activeBanks_routeDelete_staged ..
  · exact activeBanks_routeClear_staged ..
  · exact activeBanks_pfxAdd_staged ..
  · exact activeBanks_pfxDelete_staged ..
  · exact activeBanks_pfxClear_staged ..

end StagedWrite

/-! ### The table commands, accepted (R331 to R334) -/

theorem rebuild_congr {a b : Dev} (h : a.tbl = b.tbl) (t : Nat) : a.rebuild t = b.rebuild t := by
  simp only [rebuild, h]

/-- An image is checked against the entries of the node table (R437). -/
theorem tblImageBad_congr {a b : Dev} (htbl : a.tbl = b.tbl) (hcfg : a.cfg = b.cfg) (hepoch : a.epoch = b.epoch) (op : Opcode)
    (sub : Nat) (p : List Byte) : a.tblImageBad op sub p = b.tblImageBad op sub p := by
  simp only [tblImageBad, nodeEpochBad, nodeAt_congr htbl, seesNode_congr hcfg hepoch, htbl]

/-- Of the values that FLAGS can take, only AT_EPOCH and STAGED together are refused beside those past its two bits (R331). -/
theorem flags_refused_iff (n : Nat) : (4 ≤ n ∨ (bit n 0 = true ∧ bit n 1 = true)) ↔ 3 ≤ n := by
  match n with
  | 0 | 1 | 2 | 3 => decide
  | n + 4 => exact iff_of_true (.inl (Nat.le_add_left ..)) (Nat.le_add_left 3 (n + 1))

/-- FLAGS in order has STAGED just where it is 2 (R331). -/
theorem staged_iff {n : Nat} (h : n < 3) : bit n 1 = true ↔ n = 2 := by
  match n with
  | 0 | 1 | 2 => decide
  | n + 3 => exact absurd h (Nat.not_lt.2 (Nat.le_add_left ..))

theorem tblCmd_accepted {d : Dev} {h : Hdr} {op : Opcode} {sub : Nat} {p : List Byte} (ha : d.accepts ⟨h, op, sub, p⟩) :
    d.tblCmd h op sub p =
      if d.follower = true then (d.taken ⟨h, op, sub, p⟩).complete ⟨h, op, sub, p⟩ .ST_MODE_REFUSED
      else if tOp p ≠ sub ∨ 3 ≤ tFlags p ∨ zeros p 8 8 = false ∨ d.tblImageBad op sub p = true then
        (d.taken ⟨h, op, sub, p⟩).complete ⟨h, op, sub, p⟩ .ST_BAD_PARAM
      else if tFlags p = 2 then
        if (d.rebuild (tblIndex op)).st = .idle then (d.taken ⟨h, op, sub, p⟩).complete ⟨h, op, sub, p⟩ .ST_NO_REBUILD
        else
          let r := (d.taken ⟨h, op, sub, p⟩).tblRun op sub true p
          r.1.complete ⟨h, op, sub, p⟩ r.2.1 r.2.2
      else if bit (tFlags p) 0 = true ∧ d.freezePassed (tEpoch p) = true then
        (d.taken ⟨h, op, sub, p⟩).complete ⟨h, op, sub, p⟩ .ST_EPOCH_PASSED
      else (d.taken ⟨h, op, sub, p⟩).stageCmd ⟨h, op, sub, p⟩ (if bit (tFlags p) 0 = true then some (tEpoch p) else none) := by
  -- The model's test of the form, in the words of the claim.
  have hrefused : (tOp p ≠ sub ∨ 4 ≤ tFlags p ∨ (bit (tFlags p) 0 = true ∧ bit (tFlags p) 1 = true) ∨ ¬ zeros p 8 8 = true ∨
      d.tblImageBad op sub p = true) ↔
      (tOp p ≠ sub ∨ 3 ≤ tFlags p ∨ zeros p 8 8 = false ∨ d.tblImageBad op sub p = true) := by
    rw [← flags_refused_iff, Bool.not_eq_true, or_assoc]
  rw [tblCmd, command_accepted ha]
  simp only [taken_follower, taken_freezePassed, rebuild_congr (taken_tbl ..),
    tblImageBad_congr (taken_tbl d _) (taken_cfg ..) (taken_epoch ..), hrefused]
  split
  · rfl
  split
  · rfl
  next hform =>
    have hflags : tFlags p < 3 := Nat.lt_of_not_le fun hge => hform (.inr (.inl hge))
    simp only [staged_iff hflags]

/-! ### Rebuilds -/

section Rebuild
variable (d : Dev) (t : Nat)

/-- A change of a rebuild is a change of the tables. -/
theorem setRebuild_eq (r : RebuildSt) : ∃ u, d.setRebuild t r = { d with tbl := u } := by
  rcases t with _ | _ | t <;> exact ⟨_, rfl⟩

@[simp] theorem rebuild_setRebuild (r : RebuildSt) : (d.setRebuild t r).rebuild t = r := by
  rcases t with _ | _ | t <;> rfl

@[simp] theorem activeBanks_setRebuild (r : RebuildSt) : (d.setRebuild t r).activeBanks = d.activeBanks := by
  rcases t with _ | _ | t <;> rfl

@[simp] theorem setRebuild_nodeStaged (r : RebuildSt) : (d.setRebuild t r).tbl.nodeStaged = d.tbl.nodeStaged := by
  rcases t with _ | _ | t <;> rfl

@[simp] theorem setRebuild_routeStaged (r : RebuildSt) : (d.setRebuild t r).tbl.routeStaged = d.tbl.routeStaged := by
  rcases t with _ | _ | t <;> rfl

@[simp] theorem setRebuild_stg (r : RebuildSt) : (d.setRebuild t r).stg = d.stg := by
  obtain ⟨u, hu⟩ := d.setRebuild_eq t r
  rw [hu]

@[simp] theorem setRebuild_ev (r : RebuildSt) : (d.setRebuild t r).ev = d.ev := by
  obtain ⟨u, hu⟩ := d.setRebuild_eq t r
  rw [hu]

@[simp] theorem setRebuild_evStep (r : RebuildSt) : (d.setRebuild t r).evStep = d.evStep := by
  obtain ⟨u, hu⟩ := d.setRebuild_eq t r
  rw [hu]
  rfl

@[simp] theorem rebuild_clearStaged : (d.clearStaged t).rebuild t = d.rebuild t := by
  rcases t with _ | _ | t <;> rfl

@[simp] theorem activeBanks_clearStaged : (d.clearStaged t).activeBanks = d.activeBanks := by
  rcases t with _ | _ | t <;> rfl

/-- The staged bank of table t is empty, with this seed (R341). -/
def seedStaged (seed : W64) : Dev :=
  match t with
  | 0 => { d with tbl := { d.tbl with nodeStaged := { seed := seed } } }
  | 1 => { d with tbl := { d.tbl with routeStaged := { seed := seed } } }
  | _ => { d with tbl := { d.tbl with pfxStaged := { seed := seed } } }

@[simp] theorem activeBanks_seedStaged (seed : W64) : (d.seedStaged t seed).activeBanks = d.activeBanks := by
  rcases t with _ | _ | t <;> rfl

theorem seedStaged_node (seed : W64) : (d.seedStaged 0 seed).tbl.nodeStaged = { seed := seed } := rfl

theorem seedStaged_route (seed : W64) : (d.seedStaged 1 seed).tbl.routeStaged = { seed := seed } := rfl

end Rebuild

/-! ### The start of a rebuild (R341, R346) -/

/-- The seed of the new staged bank: the one that the payload gives, or a random one (R341). -/
def rebuildSeed (d : Dev) (p : List Byte) : W64 :=
  if bit (fld p 2 1) 1 = true then BitVec.ofNat 64 (fld p 0x10 8) else (d.draw 64).1

/-- The staged bank of a rebuild that starts is empty. -/
def rebuildEmptied (d : Dev) (p : List Byte) : Dev :=
  (if bit (fld p 2 1) 1 = true then d else (d.draw 64).2).seedStaged (fld p 0 1) (d.rebuildSeed p)

/-- A rebuild starts: by COPY (sub 0) it has the active bank's entries left to copy, by EMPTY nothing. -/
def rebuildBegins (d : Dev) (p : List Byte) (sub : Nat) : Dev :=
  (d.rebuildEmptied p).setRebuild (fld p 0 1)
    (if sub = 0 then { st := .copying, left := (d.rebuildEmptied p).tblKeys (fld p 0 1) } else { st := .ready })

section Begins
variable (d : Dev) (p : List Byte) (sub : Nat)

theorem activeBanks_rebuildEmptied : (d.rebuildEmptied p).activeBanks = d.activeBanks := by
  rw [rebuildEmptied, activeBanks_seedStaged]
  split <;> rfl

theorem activeBanks_rebuildBegins : (d.rebuildBegins p sub).activeBanks = d.activeBanks :=
  (activeBanks_setRebuild ..).trans (activeBanks_rebuildEmptied ..)

theorem rebuildBegins_st :
    ((d.rebuildBegins p sub).rebuild (fld p 0 1)).st = if sub = 0 then .copying else .ready := by
  rw [rebuildBegins, rebuild_setRebuild]
  split <;> rfl

theorem rebuildBegins_nodeStaged (ht : fld p 0 1 = 0) :
    (d.rebuildBegins p sub).tbl.nodeStaged = { seed := d.rebuildSeed p } := by
  rw [rebuildBegins, setRebuild_nodeStaged, rebuildEmptied, ht, seedStaged_node]

theorem rebuildBegins_routeStaged (ht : fld p 0 1 = 1) :
    (d.rebuildBegins p sub).tbl.routeStaged = { seed := d.rebuildSeed p } := by
  rw [rebuildBegins, setRebuild_routeStaged, rebuildEmptied, ht, seedStaged_route]

end Begins

/-! ### CMD_TABLE_REBUILD, accepted (R345, R346) -/

section RebuildCommand
variable {d : Dev} {h : Hdr} {p : List Byte} (hf : d.follower = false)
include hf

theorem rebuildStart_accepted {sub : Nat} (ha : d.accepts ⟨h, .CMD_TABLE_REBUILD, sub, p⟩) :
    d.rebuildStart h p sub =
      if rebuildBad sub p = true then
        (d.taken ⟨h, .CMD_TABLE_REBUILD, sub, p⟩).complete ⟨h, .CMD_TABLE_REBUILD, sub, p⟩ .ST_BAD_PARAM
      else if (d.rebuild (fld p 0 1)).st ≠ .idle then
        (d.taken ⟨h, .CMD_TABLE_REBUILD, sub, p⟩).complete ⟨h, .CMD_TABLE_REBUILD, sub, p⟩ .ST_BUSY
      else ((d.taken ⟨h, .CMD_TABLE_REBUILD, sub, p⟩).rebuildBegins p sub).complete ⟨h, .CMD_TABLE_REBUILD, sub, p⟩ .ST_OK := by
  rw [rebuildStart, command_accepted ha]
  simp only [taken_follower, hf, Bool.false_eq_true, if_false, rebuild_congr (taken_tbl d _)]
  rfl

theorem rebuildSwap_accepted (ha : d.accepts ⟨h, .CMD_TABLE_REBUILD, 2, p⟩) (hgood : rebuildBad 2 p = false) :
    d.rebuildSwap h p =
      if (d.rebuild (fld p 0 1)).st = .idle then
        (d.taken ⟨h, .CMD_TABLE_REBUILD, 2, p⟩).complete ⟨h, .CMD_TABLE_REBUILD, 2, p⟩ .ST_NO_REBUILD
      else if bit (fld p 2 1) 0 = true ∧ d.freezePassed (fld p 8 6) = true then
        (d.taken ⟨h, .CMD_TABLE_REBUILD, 2, p⟩).complete ⟨h, .CMD_TABLE_REBUILD, 2, p⟩ .ST_EPOCH_PASSED
      else
        let r := d.rebuild (fld p 0 1)
        ((d.taken ⟨h, .CMD_TABLE_REBUILD, 2, p⟩).setRebuild (fld p 0 1)
          { r with st := if r.st = .ready then .swapPending else r.st }).stageCmd ⟨h, .CMD_TABLE_REBUILD, 2, p⟩
            (if bit (fld p 2 1) 0 = true then some (fld p 8 6) else none) := by
  rw [rebuildSwap, command_accepted ha]
  simp only [taken_follower, hf, hgood, Bool.false_eq_true, if_false, rebuild_congr (taken_tbl d _), taken_freezePassed]

theorem rebuildAbandon_accepted (ha : d.accepts ⟨h, .CMD_TABLE_REBUILD, 3, p⟩) (hgood : rebuildBad 3 p = false) :
    d.rebuildAbandon h p =
      (((d.taken ⟨h, .CMD_TABLE_REBUILD, 3, p⟩).setRebuild (fld p 0 1) {}).clearStaged (fld p 0 1)).complete
        ⟨h, .CMD_TABLE_REBUILD, 3, p⟩ .ST_OK := by
  rw [rebuildAbandon, command_accepted ha]
  simp only [taken_follower, hf, hgood, Bool.false_eq_true, if_false]

end RebuildCommand

/-! ### The end of a copy (R346) -/

theorem copyDone_of_not_copying {d : Dev} {t : Nat} (h : (d.rebuild t).st ≠ .copying) : d.copyDone t = d := if_neg h

/-- A copy with nothing left to copy, and no swap that waits for it, makes the rebuild ready. -/
theorem copyDone_of_copied {d : Dev} {t : Nat} (hst : (d.rebuild t).st = .copying) (hleft : (d.rebuild t).left = [])
    (hswap : d.stg.cmds.any (isSwap t) = false) :
    d.copyDone t = (d.setRebuild t { d.rebuild t with st := .ready }).raise .EVT_REBUILD_READY (le 1 t) := by
  simp only [copyDone, if_pos hst, hleft, List.foldl_nil, hswap, Bool.false_eq_true, if_false]

/-- An event takes the next SEQ, and a second one goes with it where EVT_LOST reaches its maximum (R524, R591). -/
theorem raiseIn_ev_seq (d : Dev) (o : Option Domain) (c : EvCode) (x : List Byte) :
    (d.raiseIn o c x).ev.seq = d.ev.seq + d.evStep := by
  unfold raiseIn evStep
  by_cases halone : d.modes.control = .standAlone
  · simp [halone]
  by_cases hroom : d.ev.staging.length < evCap
  · simp [halone, hroom, Nat.not_le.2 hroom]
  · have hlost : (0xFFFFFFFF ≤ d.count Cnt.EVT_LOST + 1 ∧ d.count Cnt.EVT_LOST < 0xFFFFFFFF) ↔
        d.count Cnt.EVT_LOST = 0xFFFFFFFE := by omega
    simp only [halone, hroom, Nat.not_lt.1 hroom, if_false, ne_eq, not_false_eq_true, true_and, ge_iff_le, decide_eq_true_eq]
    rw [← count]
    simp only [hlost]
    split <;> rfl

theorem raise_ev_seq (d : Dev) (c : EvCode) (x : List Byte) : (d.raise c x).ev.seq = d.ev.seq + d.evStep := raiseIn_ev_seq ..

end Sys2Proof.Machine.Dev
end

section
/-! PROOFS. The claims on the table commands and on rebuilds. -/

namespace Sys2Proof.Machine

open Dev

/-! ### The meanings, run from the fresh state -/

/-- The commands on table entries, with the opcode and OP of each (R331). -/
def tableCommands : List ((Hdr → List Byte → Instr) × Opcode × Nat) :=
  [(Instr.cmdNodeSetAdd, Opcode.CMD_NODE_SET, 0), (Instr.cmdNodeSetDelete, Opcode.CMD_NODE_SET, 1),
    (Instr.cmdNodeSetClearQuarantine, Opcode.CMD_NODE_SET, 2), (Instr.cmdRouteSetAdd, Opcode.CMD_ROUTE_SET, 0),
    (Instr.cmdRouteSetDelete, Opcode.CMD_ROUTE_SET, 1), (Instr.cmdRouteSetClearQuarantine, Opcode.CMD_ROUTE_SET, 2),
    (Instr.cmdPrefixSetAdd, Opcode.CMD_PREFIX_SET, 0), (Instr.cmdPrefixSetDelete, Opcode.CMD_PREFIX_SET, 1),
    (Instr.cmdPrefixSetClearQuarantine, Opcode.CMD_PREFIX_SET, 2)]

theorem exec_tableCommand {r : (Hdr → List Byte → Instr) × Opcode × Nat} (hr : r ∈ tableCommands) (s : State) (h : Hdr)
    (p : List Byte) : exec (r.1 h p) s = .next (s.goes (s.fresh.tblCmd h r.2.1 r.2.2 p)) := by
  revert r
  simp only [tableCommands, List.forall_mem_cons, List.not_mem_nil, false_implies, implies_true, and_true]
  exact ⟨rfl, rfl, rfl, rfl, rfl, rfl, rfl, rfl, rfl⟩

theorem exec_rebuildStart {r : (Hdr → List Byte → Instr) × Nat}
    (hr : r ∈ [(Instr.cmdTableRebuildCopy, 0), (Instr.cmdTableRebuildEmpty, 1)]) (s : State) (h : Hdr) (p : List Byte) :
    exec (r.1 h p) s = .next (s.goes (s.fresh.rebuildStart h p r.2)) := by
  revert r
  simp only [List.forall_mem_cons, List.not_mem_nil, false_implies, implies_true, and_true]
  exact ⟨rfl, rfl⟩

theorem exec_cmdTableRebuildSwap (s : State) (h : Hdr) (p : List Byte) :
    exec (.cmdTableRebuildSwap h p) s = .next (s.goes (s.fresh.rebuildSwap h p)) := rfl

theorem exec_cmdTableRebuildAbandon (s : State) (h : Hdr) (p : List Byte) :
    exec (.cmdTableRebuildAbandon h p) s = .next (s.goes (s.fresh.rebuildAbandon h p)) := rfl

theorem exec_rebuildCopyDone (s : State) (k : Fin 3) :
    exec (.rebuildCopyDone k) s = .next (s.goes (s.fresh.copyDone k.val)) := rfl

/-! ### What the commands come to -/

theorem activeBanks_taken_fresh (s : State) (c : Cmd) : (s.fresh.taken c).activeBanks = s.dev.activeBanks :=
  activeBanks_congr ((taken_tbl ..).trans s.fresh_tbl)

section Outcome
variable {s : State} {h : Hdr} {p : List Byte}

/-- A table command with FLAGS.STAGED needs a rebuild, and leaves the active banks alone. -/
theorem tblCmd_outcome {op : Opcode} {sub : Nat} (ha : s.fresh.accepts ⟨h, op, sub, p⟩)
    {t : Dev} (ht : s.fresh.tblCmd h op sub p = t) :
    if s.dev.follower = true then s.dev.replies ⟨h, op, sub, p⟩ .ST_MODE_REFUSED t
    else if tOp p ≠ sub ∨ 3 ≤ tFlags p ∨ zeros p 8 8 = false ∨ s.dev.tblImageBad op sub p = true then
      s.dev.replies ⟨h, op, sub, p⟩ .ST_BAD_PARAM t
    else if tFlags p = 2 then
      ((s.dev.rebuild (tblIndex op)).st = .idle → s.dev.replies ⟨h, op, sub, p⟩ .ST_NO_REBUILD t) ∧
      t.activeBanks = s.dev.activeBanks
    else if tFlags p = 0 then s.dev.stages ⟨h, op, sub, p⟩ none t
    else if s.dev.freezePassed (tEpoch p) = true then s.dev.replies ⟨h, op, sub, p⟩ .ST_EPOCH_PASSED t
    else s.dev.stages ⟨h, op, sub, p⟩ (some (tEpoch p)) t := by
  subst ht
  rw [tblCmd_accepted ha, State.fresh_follower, fresh_freezePassed, rebuild_congr s.fresh_tbl,
    tblImageBad_congr s.fresh_tbl s.fresh_cfg s.fresh_epoch]
  by_cases hf : s.dev.follower = true
  · simp only [if_pos hf]
    exact replies_complete ..
  by_cases hform : tOp p ≠ sub ∨ 3 ≤ tFlags p ∨ zeros p 8 8 = false ∨ s.dev.tblImageBad op sub p = true
  · simp only [if_neg hf, if_pos hform]
    exact replies_complete ..
  by_cases hstaged : tFlags p = 2
  · simp only [if_neg hf, if_neg hform, if_pos hstaged]
    by_cases hidle : (s.dev.rebuild (tblIndex op)).st = .idle
    · simp only [if_pos hidle]
      exact ⟨fun _ => replies_complete .., (activeBanks_complete ..).trans (activeBanks_taken_fresh ..)⟩
    · simp only [if_neg hidle]
      exact ⟨fun hi => absurd hi hidle,
        (activeBanks_complete ..).trans ((activeBanks_tblRun_staged ..).trans (activeBanks_taken_fresh ..))⟩
  · have hflags : tFlags p ≤ 1 := by
      have : ¬ 3 ≤ tFlags p := fun hge => hform (.inr (.inl hge))
      omega
    simp only [if_neg hf, if_neg hform, if_neg hstaged]
    exact stages_unless_passed s _ hflags rfl

/-- A start of a rebuild that is in order, on a table without one, empties the staged bank. -/
theorem rebuildStart_outcome {sub : Nat} (ha : s.fresh.accepts ⟨h, .CMD_TABLE_REBUILD, sub, p⟩) (hf : s.dev.follower = false)
    {t : Dev} (ht : s.fresh.rebuildStart h p sub = t) :
    if rebuildBad sub p = true then s.dev.replies ⟨h, .CMD_TABLE_REBUILD, sub, p⟩ .ST_BAD_PARAM t
    else if (s.dev.rebuild (fld p 0 1)).st ≠ .idle then s.dev.replies ⟨h, .CMD_TABLE_REBUILD, sub, p⟩ .ST_BUSY t
    else t.answered ⟨h, .CMD_TABLE_REBUILD, sub, p⟩ .ST_OK ∧
      (t.rebuild (fld p 0 1)).st = (if sub = 0 then .copying else .ready) ∧
      (fld p 0 1 = 1 → t.tbl.routeStaged.slots = [] ∧
        (bit (fld p 2 1) 1 = true → t.tbl.routeStaged.seed = BitVec.ofNat 64 (fld p 0x10 8))) ∧
      (fld p 0 1 = 0 → t.tbl.nodeStaged.slots = [] ∧ t.tbl.nodeStaged.hints = []) ∧
      t.activeBanks = s.dev.activeBanks := by
  subst ht
  rw [rebuildStart_accepted (d := s.fresh) hf ha, rebuild_congr s.fresh_tbl]
  by_cases hbad : rebuildBad sub p = true
  · simp only [if_pos hbad]
    exact replies_complete ..
  by_cases hbusy : (s.dev.rebuild (fld p 0 1)).st ≠ .idle
  · simp only [if_neg hbad, if_pos hbusy]
    exact replies_complete ..
  · simp only [if_neg hbad, if_neg hbusy, complete_tbl, activeBanks_complete, activeBanks_rebuildBegins,
      activeBanks_taken_fresh, rebuild_congr (complete_tbl ..), rebuildBegins_st]
    refine ⟨complete_answered .., trivial, fun ht => ?route, fun ht => ?node, trivial⟩
    case route =>
      rw [rebuildBegins_routeStaged _ _ _ ht]
      exact ⟨rfl, fun hgiven => if_pos hgiven⟩
    case node =>
      rw [rebuildBegins_nodeStaged _ _ _ ht]
      exact ⟨rfl, rfl⟩

/-- A swap that is in order waits for its boundary, and the active banks stay. -/
theorem rebuildSwap_outcome (ha : s.fresh.accepts ⟨h, .CMD_TABLE_REBUILD, 2, p⟩) (hf : s.dev.follower = false)
    (hgood : rebuildBad 2 p = false) {t : Dev} (ht : s.fresh.rebuildSwap h p = t) :
    if (s.dev.rebuild (fld p 0 1)).st = .idle then
      s.dev.replies ⟨h, .CMD_TABLE_REBUILD, 2, p⟩ .ST_NO_REBUILD t
    else if bit (fld p 2 1) 0 = true ∧ s.dev.freezePassed (fld p 8 6) = true then
      s.dev.replies ⟨h, .CMD_TABLE_REBUILD, 2, p⟩ .ST_EPOCH_PASSED t
    else t.stg.cmds = s.dev.stg.cmds ++
        [⟨⟨h, .CMD_TABLE_REBUILD, 2, p⟩, if bit (fld p 2 1) 0 = true then some (fld p 8 6) else none, false⟩] ∧
      t.activeBanks = s.dev.activeBanks := by
  subst ht
  rw [rebuildSwap_accepted (d := s.fresh) hf ha hgood, rebuild_congr s.fresh_tbl, fresh_freezePassed]
  by_cases hidle : (s.dev.rebuild (fld p 0 1)).st = .idle
  · simp only [if_pos hidle]
    exact replies_complete ..
  by_cases hpassed : bit (fld p 2 1) 0 = true ∧ s.dev.freezePassed (fld p 8 6) = true
  · simp only [if_neg hidle, if_pos hpassed]
    exact replies_complete ..
  · simp only [if_neg hidle, if_neg hpassed]
    exact ⟨by simp [stageCmd],
      (activeBanks_congr (stageCmd_tbl ..)).trans ((activeBanks_setRebuild ..).trans (activeBanks_taken_fresh ..))⟩

theorem rebuildAbandon_outcome (ha : s.fresh.accepts ⟨h, .CMD_TABLE_REBUILD, 3, p⟩) (hf : s.dev.follower = false)
    (hgood : rebuildBad 3 p = false) {t : Dev} (ht : s.fresh.rebuildAbandon h p = t) :
    t.answered ⟨h, .CMD_TABLE_REBUILD, 3, p⟩ .ST_OK ∧ (t.rebuild (fld p 0 1)).st = .idle ∧
      t.activeBanks = s.dev.activeBanks := by
  subst ht
  rw [rebuildAbandon_accepted (d := s.fresh) hf ha hgood]
  refine ⟨complete_answered .., ?_, ?_⟩
  · rw [rebuild_congr (complete_tbl ..), rebuild_clearStaged, rebuild_setRebuild]
  · rw [activeBanks_complete, activeBanks_clearStaged, activeBanks_setRebuild, activeBanks_taken_fresh]

end Outcome

/-- The end of a copy with nothing left to copy makes the rebuild ready and raises one event. -/
theorem copyDone_outcome {s : State} {k : Nat} (hst : (s.dev.rebuild k).st = .copying) (hleft : (s.dev.rebuild k).left = [])
    (hswap : s.dev.stg.cmds.any (isSwap k) = false) :
    ((s.fresh.copyDone k).rebuild k).st = .ready ∧ (s.fresh.copyDone k).activeBanks = s.dev.activeBanks ∧
      (s.fresh.copyDone k).ev.seq = s.dev.ev.seq + s.dev.evStep := by
  rw [copyDone_of_copied (d := s.fresh) hst hleft hswap]
  refine ⟨?_, ?_, ?_⟩
  · rw [rebuild_congr (raise_tbl ..), rebuild_setRebuild]
  · rw [activeBanks_congr (raise_tbl ..), activeBanks_setRebuild]
    exact activeBanks_congr s.fresh_tbl
  · rw [raise_ev_seq, setRebuild_ev, setRebuild_evStep]
    rfl

/-! ### The claims -/

/-- Settles O36: a command is refused by the first of its rules that applies, waits for its boundary, or with FLAGS.STAGED
leaves the active banks alone. -/
theorem tableCommandsAreRefusedOrStaged : Obligations.TableCommandsAreRefusedOrStaged := by
  unfold Obligations.TableCommandsAreRefusedOrStaged
  intro r hr s h p ha
  refine ⟨_, exec_tableCommand hr s h p, ?_⟩
  have houtcome := tblCmd_outcome ha rfl
  simp only [activeBanks_eq_iff] at houtcome
  exact houtcome

/-- Settles O38: each OP comes to the outcome that its checks decide, and the active banks stay. -/
theorem rebuildsStartSwapAndEnd : Obligations.RebuildsStartSwapAndEnd := by
  unfold Obligations.RebuildsStartSwapAndEnd
  intro s h p
  refine ⟨fun r hr ha hf => ⟨_, exec_rebuildStart hr s h p, ?start⟩,
    fun ha hf hgood => ⟨_, exec_cmdTableRebuildSwap .., ?swap⟩,
    fun ha hf hgood => ⟨_, exec_cmdTableRebuildAbandon .., ?abandon⟩,
    fun k => ⟨fun hst => ?idle, fun hst hleft hswap => ⟨_, exec_rebuildCopyDone .., ?ready⟩⟩⟩
  case start =>
    have houtcome := rebuildStart_outcome ha hf rfl
    simp only [activeBanks_eq_iff] at houtcome
    exact houtcome
  case swap =>
    have houtcome := rebuildSwap_outcome ha hf hgood rfl
    simp only [activeBanks_eq_iff] at houtcome
    exact houtcome
  case abandon =>
    obtain ⟨hok, hidle, hactive⟩ := rebuildAbandon_outcome ha hf hgood rfl
    exact ⟨hok, hidle, activeBanks_eq_iff.1 hactive⟩
  case idle => rw [exec_rebuildCopyDone, copyDone_of_not_copying (d := s.fresh) hst]
  case ready =>
    obtain ⟨hready, hactive, hseq⟩ := copyDone_outcome hst hleft hswap
    obtain ⟨hnode, hroute, hpfx⟩ := activeBanks_eq_iff.1 hactive
    exact ⟨hready, hnode, hroute, hpfx, hseq⟩

end Sys2Proof.Machine
end

section
/-! PROOFS. What every command keeps and leaves alone (R408, R525, R585, R590, and the table of the units a command touches):
the dispatcher's arms, each by the law of the operation that it calls. -/

namespace Sys2Proof.Machine

open Dev

/-! ### What every command keeps -/

/-- The three resets of R599, R598 and R611. -/
def isReset (c : Instr) : Prop := c = .sysRstAssert ∨ (∃ r, c = .supplyLoss r) ∨ c = .thermalOvertemp

section Keeps
variable {a d : Dev}

theorem Dev.keeps_epoch (h : a.Keeps d) (x) : a.Keeps { d with epoch := x } := h.of_eq rfl rfl rfl rfl

theorem Dev.keeps_stg (h : a.Keeps d) (x) : a.Keeps { d with stg := x } := h.of_eq rfl rfl rfl rfl

theorem Dev.keeps_tbl (h : a.Keeps d) (x) : a.Keeps { d with tbl := x } := h.of_eq rfl rfl rfl rfl

theorem Dev.keeps_pipe (h : a.Keeps d) (x) : a.Keeps { d with pipe := x } := h.of_eq rfl rfl rfl rfl

theorem Dev.keeps_time (h : a.Keeps d) (x) : a.Keeps { d with time := x } := h.of_eq rfl rfl rfl rfl

theorem Dev.keeps_pair (h : a.Keeps d) (x) : a.Keeps { d with pair := x } := h.of_eq rfl rfl rfl rfl

theorem Dev.keeps_elec (h : a.Keeps d) (x) : a.Keeps { d with elec := x } := h.of_eq rfl rfl rfl rfl

theorem Dev.keeps_sec (h : a.Keeps d) (x) : a.Keeps { d with sec := x } := h.of_eq rfl rfl rfl rfl

end Keeps

/-- A meaning is run on the fresh state, so that a law for every state holds from there. -/
theorem run_keeps {o : Host.Outcome State Fault Refusal} {f : Dev → Dev} {s : State} (ho : o = s.run f)
    (h : ∀ d : Dev, d.Keeps (f d)) : ∃ d, o = .next (s.goes d) ∧ s.fresh.Keeps d := ⟨_, ho, h _⟩

theorem exec_taskSubmit_keeps (k : Fin 8) (desc : TaskDesc) (s : State) :
    ∃ d, exec (.taskSubmit k desc) s = .next (s.goes d) ∧ s.fresh.Keeps d := by
  refine run_keeps (rfl : execTaskSubmit k desc s = s.run _) fun d => ?_
  refine keeps_ite (keeps_setResult (.refl _) ..) ?_
  generalize List.find? _ _ = free
  cases free with
  | none => exact keeps_bump (keeps_setResult (.refl _) ..) ..
  | some i =>
    refine keeps_ite (keeps_bump (keeps_setResult (.refl _) ..) ..) (keeps_ite ?_ ?_)
    · exact keeps_setResult (keeps_setSlot (.refl _) ..) ..
    · exact keeps_serveWaiting (keeps_makeReady (keeps_setResult (keeps_setSlot (.refl _) ..) ..) ..)

/-- A command that is no reset keeps what `Dev.Keeps` names: one-time-programmable storage only grows, the log and the staging
stay within their sizes, and a fatal fault stays. -/
theorem exec_keeps (c : Instr) (hc : ¬ isReset c) (s : State) : ∃ d, exec c s = .next (s.goes d) ∧ s.fresh.Keeps d := by
  cases c with
  | sysRstAssert => exact absurd (.inl rfl) hc
  | sysRstRelease _ => exact ⟨_, rfl, keeps_leaveReset (keeps_elec (.refl _) _) ..⟩
  | supplyLoss r => exact absurd (.inr (.inl ⟨r, rfl⟩)) hc
  | supplyResetEnd _ => exact ⟨_, rfl, keeps_ite (keeps_leaveReset (keeps_elec (.refl _) _) ..) (.refl _)⟩
  | thermalOvertemp => exact absurd (.inr (.inr rfl)) hc
  | thermalResetEnd _ => exact ⟨_, rfl, keeps_ite (keeps_leaveReset (keeps_elec (.refl _) _) ..) (.refl _)⟩
  | clockLoss => exact ⟨_, rfl, keeps_fatalFault (.refl _) ..⟩
  | perstNAssert => exact ⟨_, rfl, keeps_pcieLink (keeps_clearRings (.refl _) ..) ..⟩
  | jtagTrst => exact ⟨_, rfl, .refl _⟩
  | pcieLinkChange _ => exact ⟨_, rfl, keeps_pcieLink (.refl _) ..⟩
  | hostLinkLossTimeout => exact ⟨_, rfl, keeps_hostLinkLoss (.refl _) ..⟩
  | controlModeWindowEnd => exact ⟨_, rfl, keeps_windowEnd (.refl _) ..⟩
  | ownBootDelayEnd => exact ⟨_, rfl, keeps_ownBootDelayEnd (.refl _) ..⟩
  | functionLevelReset => exact ⟨_, rfl, keeps_clearRings (.refl _) ..⟩
  | d3hotEntry => exact ⟨_, rfl, keeps_pcieLink (keeps_clearRings (.refl _) ..) ..⟩
  | pcieDmaError _ => exact ⟨_, rfl, keeps_raise (keeps_bump (keeps_violate (keeps_disableRing (.refl _) ..) ..) ..)
      ..⟩
  | registerWrite _ _ _ => exact ⟨_, rfl, keeps_writeCfg (.refl _) ..⟩
  | cfgBadWidthAccess _ _ => exact ⟨_, rfl, keeps_ite (keeps_violate (.refl _) ..) (keeps_reply (keeps_violate
      (.refl _) ..) ..)⟩
  | cfgUnmappedAccess _ _ => exact ⟨_, rfl, keeps_ite (.refl _) (keeps_ite (keeps_violate (.refl _) ..) (keeps_reply
      (keeps_violate (.refl _) ..) ..))⟩
  | winRingBadAccess _ _ => exact ⟨_, rfl, keeps_violate (.refl _) ..⟩
  | epochNumLoRead => exact ⟨_, rfl, keeps_reply (keeps_epoch (.refl _) _) ..⟩
  | seqPeekLoRead _ => exact ⟨_, rfl, keeps_reply (keeps_setSeq (.refl _) ..) ..⟩
  | timeNowLoRead => exact ⟨_, rfl, keeps_reply (keeps_time (.refl _) _) ..⟩
  | tblSeedLoRead _ => exact ⟨_, rfl, keeps_reply (keeps_tbl (.refl _) _) ..⟩
  | pairCommitLoRead => exact ⟨_, rfl, keeps_reply (keeps_pair (.refl _) _) ..⟩
  | stageHoldWrite _ => exact ⟨_, rfl, keeps_stg (.refl _) _⟩
  | cinStageWrite _ _ => exact ⟨_, rfl, keeps_writeCinStage (.refl _) ..⟩
  | ringEnable _ _ => exact ⟨_, rfl, keeps_writeRingReg (.refl _) ..⟩
  | ringDoorbell _ _ => exact ⟨_, rfl, keeps_doorbell (.refl _) ..⟩
  | pairKeepaliveWrite _ => exact ⟨_, rfl, keeps_kick (.refl _)⟩
  | cmdNop _ => exact ⟨_, rfl, keeps_cmdNop (.refl _) ..⟩
  | cmdHostAttach _ => exact ⟨_, rfl, keeps_hostAttach (.refl _) ..⟩
  | cmdSetPhase _ _ => exact ⟨_, rfl, keeps_setPhaseCmd (.refl _) ..⟩
  | cmdCommit _ _ => exact ⟨_, rfl, keeps_commitCmd (.refl _) ..⟩
  | cmdVatLoad _ _ => exact ⟨_, rfl, keeps_vatLoad (.refl _) ..⟩
  | vatCopyDone _ _ => exact ⟨_, rfl, keeps_vatCopyDone (.refl _) ..⟩
  | vatVerifyDone => exact ⟨_, rfl, keeps_vatVerifyDone (.refl _) ..⟩
  | cmdVatDiscard _ => exact ⟨_, rfl, keeps_vatDiscard (.refl _) ..⟩
  | cmdRfCal _ _ => exact ⟨_, rfl, keeps_rfCal (.refl _) ..⟩
  | cmdRfTestTx _ _ _ => exact ⟨_, rfl, keeps_after (keeps_rfTestTx (.refl _) ..) ..⟩
  | testTxEnd _ => exact ⟨_, rfl, keeps_after (keeps_testEnd (.refl _) ..) ..⟩
  | cmdFemSpiWrite _ _ => exact ⟨_, rfl, keeps_femSpi (.refl _) ..⟩
  | cmdFemSpiRead _ _ => exact ⟨_, rfl, keeps_femSpi (.refl _) ..⟩
  | cmdCinnabarLock _ _ _ => exact ⟨_, rfl, keeps_cinLock (.refl _) ..⟩
  | cmdAssocDecideAdmit _ _ => exact ⟨_, rfl, keeps_assocDecide (.refl _) ..⟩
  | cmdAssocDecideDeny _ _ => exact ⟨_, rfl, keeps_assocDecide (.refl _) ..⟩
  | cmdNbrSetAdd _ _ => exact ⟨_, rfl, keeps_nbrSet (.refl _) ..⟩
  | cmdNbrSetRemove _ _ => exact ⟨_, rfl, keeps_nbrSet (.refl _) ..⟩
  | cmdSeenFlush _ => exact ⟨_, rfl, keeps_seenFlushCmd (.refl _) ..⟩
  | cmdNodeSetAdd _ _ => exact ⟨_, rfl, keeps_tblCmd (.refl _) ..⟩
  | cmdNodeSetDelete _ _ => exact ⟨_, rfl, keeps_tblCmd (.refl _) ..⟩
  | cmdNodeSetClearQuarantine _ _ => exact ⟨_, rfl, keeps_tblCmd (.refl _) ..⟩
  | cmdRouteSetAdd _ _ => exact ⟨_, rfl, keeps_tblCmd (.refl _) ..⟩
  | cmdRouteSetDelete _ _ => exact ⟨_, rfl, keeps_tblCmd (.refl _) ..⟩
  | cmdRouteSetClearQuarantine _ _ => exact ⟨_, rfl, keeps_tblCmd (.refl _) ..⟩
  | cmdPrefixSetAdd _ _ => exact ⟨_, rfl, keeps_tblCmd (.refl _) ..⟩
  | cmdPrefixSetDelete _ _ => exact ⟨_, rfl, keeps_tblCmd (.refl _) ..⟩
  | cmdPrefixSetClearQuarantine _ _ => exact ⟨_, rfl, keeps_tblCmd (.refl _) ..⟩
  | cmdTableRebuildCopy _ _ => exact ⟨_, rfl, keeps_rebuildStart (.refl _) ..⟩
  | cmdTableRebuildEmpty _ _ => exact ⟨_, rfl, keeps_rebuildStart (.refl _) ..⟩
  | cmdTableRebuildSwap _ _ => exact ⟨_, rfl, keeps_rebuildSwap (.refl _) ..⟩
  | cmdTableRebuildAbandon _ _ => exact ⟨_, rfl, keeps_rebuildAbandon (.refl _) ..⟩
  | rebuildCopyDone _ => exact ⟨_, rfl, keeps_copyDone (.refl _) ..⟩
  | cmdNodeRekey _ _ => exact ⟨_, rfl, keeps_nodeRekey (.refl _) ..⟩
  | cmdTmSet _ _ => exact ⟨_, rfl, keeps_tmSet (.refl _) ..⟩
  | cmdKeySetImportSym256 _ _ _ => exact ⟨_, rfl, keeps_cmdKeySetSym (.refl _) ..⟩
  | cmdKeySetImportPubPair _ _ _ => exact ⟨_, rfl, keeps_cmdKeySetPub (.refl _) ..⟩
  | cmdKeySetDerive _ _ => exact ⟨_, rfl, keeps_keySet (.refl _) ..⟩
  | cmdKeySetInvalidate _ _ => exact ⟨_, rfl, keeps_keySet (.refl _) ..⟩
  | keystoreWriteDone _ => exact ⟨_, rfl, keeps_writeDone (.refl _) ..⟩
  | cmdKeyMigrate _ _ _ => exact ⟨_, rfl, keeps_keyMigrate (.refl _) ..⟩
  | cmdMacsecSakInstallTx _ _ => exact ⟨_, rfl, keeps_macsecSak (.refl _) ..⟩
  | cmdMacsecSakInstallRx _ _ => exact ⟨_, rfl, keeps_macsecSak (.refl _) ..⟩
  | cmdMacsecSakGenerateTx _ _ => exact ⟨_, rfl, keeps_macsecSak (.refl _) ..⟩
  | cmdMacsecSakRemove _ _ => exact ⟨_, rfl, keeps_macsecSak (.refl _) ..⟩
  | cmdLcAdvance _ _ _ => exact ⟨_, rfl, keeps_lcAdvance (.refl _) ..⟩
  | cmdOtpHash _ _ _ => exact ⟨_, rfl, keeps_otpHash (.refl _) ..⟩
  | cmdRollbackCommit _ _ => exact ⟨_, rfl, keeps_rollbackCommit (.refl _) ..⟩
  | cmdTimeSet _ _ => exact ⟨_, rfl, keeps_timeSet (.refl _) ..⟩
  | cmdTimeRestep _ _ => exact ⟨_, rfl, keeps_timeRestep (.refl _) ..⟩
  | cmdPairSetForbid _ _ => exact ⟨_, rfl, keeps_pairSet (.refl _) ..⟩
  | cmdPairSetAllow _ _ => exact ⟨_, rfl, keeps_pairSet (.refl _) ..⟩
  | cmdTakeoverRead _ _ _ => exact ⟨_, rfl, keeps_takeoverRead (.refl _) ..⟩
  | cmdLogDrain _ _ _ => exact ⟨_, rfl, keeps_logDrain (.refl _) ..⟩
  | stagingFreeze => exact ⟨_, rfl, keeps_stagingFreeze (.refl _) ..⟩
  | epochBoundary => exact ⟨_, rfl, keeps_epochBoundary (.refl _) ..⟩
  | boundaryStrobeArrival _ => exact ⟨_, rfl, keeps_strobe (.refl _) ..⟩
  | nodeAgeOut _ => exact ⟨_, rfl, keeps_ageOut (.refl _) ..⟩
  | addressReleaseHoldEnd _ _ => exact ⟨_, rfl, keeps_ite (.refl _) (keeps_modPan (.refl _) ..)⟩
  | romStartupDwellEnd => exact ⟨_, rfl, keeps_dwellEnd (.refl _) ..⟩
  | recordAckTimeout => exact ⟨_, rfl, keeps_recordAckTimeout (.refl _) ..⟩
  | snapshotPublish => exact ⟨_, rfl, keeps_publish (.refl _) ..⟩
  | portTempMeasure _ _ => exact ⟨_, rfl, keeps_tempMeasure (.refl _) ..⟩
  | seqNop _ _ => exact ⟨_, rfl, keeps_issue (.refl _) (hx5 := fun _ h => h) ..⟩
  | seqEnd _ _ => exact ⟨_, rfl, keeps_issue (.refl _) (hx5 := fun _ h => keeps_seqEnd h ..) ..⟩
  | seqCond _ _ _ _ _ => exact ⟨_, rfl, keeps_issue (.refl _) (hx5 := fun _ h => keeps_seqCond h ..) ..⟩
  | seqRx _ _ => exact ⟨_, rfl, keeps_issue (.refl _) (hx5 := fun _ h => keeps_seqRx h ..) ..⟩
  | seqRetune _ _ _ _ => exact ⟨_, rfl, keeps_issue (.refl _) (hx5 := fun _ h => keeps_seqRetune h ..) ..⟩
  | seqCal _ _ _ _ => exact ⟨_, rfl, keeps_issue (.refl _) (hx5 := fun _ h => keeps_seqCalOp h ..) ..⟩
  | seqLfreq _ _ _ _ => exact ⟨_, rfl, keeps_issue (.refl _) (hx5 := fun _ h => keeps_seqLane h ..) ..⟩
  | seqLmode _ _ _ _ => exact ⟨_, rfl, keeps_issue (.refl _) (hx5 := fun _ h => keeps_seqLane h ..) ..⟩
  | seqCset _ _ _ _ => exact ⟨_, rfl, keeps_issue (.refl _) (hx5 := fun _ h => keeps_seqCarrier h ..) ..⟩
  | seqCmode _ _ _ _ => exact ⟨_, rfl, keeps_issue (.refl _) (hx5 := fun _ h => keeps_seqCarrier h ..) ..⟩
  | seqTx _ _ _ _ _ _ _ => exact ⟨_, rfl, keeps_issue (.refl _) (hx5 := fun _ h => keeps_openSlot h ..) ..⟩
  | seqWin _ _ _ _ _ => exact ⟨_, rfl, keeps_issue (.refl _) (hx5 := fun _ h => keeps_openSlot h ..) ..⟩
  | seqBcn _ _ _ _ _ _ => exact ⟨_, rfl, keeps_issue (.refl _) (hx5 := fun _ h => keeps_seqBcn h ..) ..⟩
  | seqRxp _ _ _ => exact ⟨_, rfl, keeps_issue (.refl _) (hx5 := fun _ h => keeps_seqRxp h ..) ..⟩
  | seqSpi _ _ _ => exact ⟨_, rfl, keeps_issue (.refl _) (hx5 := fun _ h => keeps_seqSpi h ..) ..⟩
  | slotClose _ => exact ⟨_, rfl, keeps_after (keeps_slotClose (.refl _) ..) ..⟩
  | airQueueHeadArrival _ _ => exact ⟨_, rfl, keeps_after (.refl _) ..⟩
  | csmaBackoffExpiry _ => exact ⟨_, rfl, keeps_ite (keeps_ccaStart (.refl _) ..) (.refl _)⟩
  | ccaEnd _ _ => exact ⟨_, rfl, keeps_after (keeps_ccaEnd (.refl _) ..) ..⟩
  | portRxReturn _ => exact ⟨_, rfl, keeps_after (keeps_rxReturn (.refl _) ..) ..⟩
  | coexGntRevoke _ => exact ⟨_, rfl, keeps_gntFall (.refl _) ..⟩
  | coexReqHoldEnd _ => exact ⟨_, rfl, keeps_ite (keeps_coexFall (keeps_modPort (.refl _) ..) ..) (keeps_modPort
      (.refl _) ..)⟩
  | rxpEnd _ => exact ⟨_, rfl, keeps_modPort (.refl _) ..⟩
  | ackWaitEnd _ => exact ⟨_, rfl, keeps_after (keeps_ackWaitEnd (.refl _) ..) ..⟩
  | portPowerUp _ => exact ⟨_, rfl, keeps_ite (keeps_portStart (keeps_setSt (.refl _) ..) ..) (.refl _)⟩
  | synthLock _ => exact ⟨_, rfl, keeps_after (keeps_synthLock (.refl _) ..) ..⟩
  | calDone _ _ _ _ => exact ⟨_, rfl, keeps_after (keeps_calDone (.refl _) ..) ..⟩
  | portPowerDown _ => exact ⟨_, rfl, keeps_ite (keeps_setSt (keeps_modPort (.refl _) ..) ..) (.refl _)⟩
  | femSpiDone _ _ _ => exact ⟨_, rfl, keeps_after (keeps_femSpiDone (.refl _) ..) ..⟩
  | agcStep _ _ _ => exact ⟨_, rfl, keeps_agcStep (.refl _) ..⟩
  | agcForcedStep _ _ => exact ⟨_, rfl, keeps_agcForced (.refl _) ..⟩
  | preambleDetect _ _ => exact ⟨_, rfl, keeps_ite (keeps_detect (.refl _) ..) (.refl _)⟩
  | syncMatch _ _ _ _ _ => exact ⟨_, rfl, keeps_syncMatch (.refl _) ..⟩
  | syncTimeout _ => exact ⟨_, rfl, keeps_syncTimeout (.refl _) ..⟩
  | phrCheck _ _ => exact ⟨_, rfl, keeps_after (keeps_phrCheck (.refl _) ..) ..⟩
  | psduEnd _ _ => exact ⟨_, rfl, keeps_after (keeps_psduEnd (.refl _) ..) ..⟩
  | capture _ _ => exact ⟨_, rfl, keeps_ite (keeps_after (keeps_detect (.refl _) ..) ..) (.refl _)⟩
  | rxRecordDecide _ _ => exact ⟨_, rfl, keeps_decideRecord (.refl _) ..⟩
  | copyGroupClose => exact ⟨_, rfl, keeps_closeGroup (.refl _) ..⟩
  | ccmUplinkDone _ _ => exact ⟨_, rfl, keeps_ccmDone (.refl _) ..⟩
  | kdfDone => exact ⟨_, rfl, keeps_kdfDone (.refl _) ..⟩
  | indirectResponseStart _ _ => exact ⟨_, rfl, keeps_pump (keeps_indirectStart (.refl _) ..) ..⟩
  | indirectExpire _ => exact ⟨_, rfl, keeps_indirectExpire (.refl _) ..⟩
  | assocDecideTimeout _ _ => exact ⟨_, rfl, keeps_assocTimeout (.refl _) ..⟩
  | nbrWindowJudge _ => exact ⟨_, rfl, keeps_nbrJudge (.refl _) ..⟩
  | dutyBinAdvance => exact ⟨_, rfl, keeps_dutyAdvance (.refl _) ..⟩
  | tokenRefill => exact ⟨_, rfl, keeps_refill (.refl _) ..⟩
  | pipeWindowStart _ => exact ⟨_, rfl, keeps_windowStart (.refl _) ..⟩
  | actNop _ => exact ⟨_, rfl, keeps_actP (.refl _) ..⟩
  | actMovi _ _ _ => exact ⟨_, rfl, keeps_actP (.refl _) ..⟩
  | actLui _ _ _ => exact ⟨_, rfl, keeps_actP (.refl _) ..⟩
  | actAdd _ _ _ _ => exact ⟨_, rfl, keeps_actP (.refl _) ..⟩
  | actAddi _ _ _ _ => exact ⟨_, rfl, keeps_actP (.refl _) ..⟩
  | actSub _ _ _ _ => exact ⟨_, rfl, keeps_actP (.refl _) ..⟩
  | actAnd _ _ _ _ => exact ⟨_, rfl, keeps_actP (.refl _) ..⟩
  | actOr _ _ _ _ => exact ⟨_, rfl, keeps_actP (.refl _) ..⟩
  | actXor _ _ _ _ => exact ⟨_, rfl, keeps_actP (.refl _) ..⟩
  | actExt _ _ _ _ _ => exact ⟨_, rfl, keeps_actP (.refl _) ..⟩
  | actIns _ _ _ _ _ => exact ⟨_, rfl, keeps_actP (.refl _) ..⟩
  | actLdm _ _ _ =>
    refine ⟨_, rfl, keeps_act (.refl _) (hx3 := fun _ _ _ h => ?_) ..⟩
    split
    · exact h
    · exact keeps_draw h 32
  | actStm _ _ _ => exact ⟨_, rfl, keeps_actP (.refl _) ..⟩
  | actLdh _ _ _ _ => exact ⟨_, rfl, keeps_actP (.refl _) ..⟩
  | actSth _ _ _ _ => exact ⟨_, rfl, keeps_actP (.refl _) ..⟩
  | actLdr _ _ _ _ _ => exact ⟨_, rfl, keeps_actP (.refl _) ..⟩
  | actCnt _ _ => exact ⟨_, rfl, keeps_act (.refl _) (hx3 := fun _ _ _ h => keeps_bump h (Cnt.ACT_CNT _) 1) ..⟩
  | actOwnr _ _ _ => exact ⟨_, rfl, keeps_act (.refl _) (hx3 := fun _ _ _ h => h) ..⟩
  | actBeq _ _ _ _ => exact ⟨_, rfl, keeps_actBr (.refl _) ..⟩
  | actBne _ _ _ _ => exact ⟨_, rfl, keeps_actBr (.refl _) ..⟩
  | actBltu _ _ _ _ => exact ⟨_, rfl, keeps_actBr (.refl _) ..⟩
  | actBgeu _ _ _ _ => exact ⟨_, rfl, keeps_actBr (.refl _) ..⟩
  | actBeqi _ _ _ _ => exact ⟨_, rfl, keeps_actBr (.refl _) ..⟩
  | actBnei _ _ _ _ => exact ⟨_, rfl, keeps_actBr (.refl _) ..⟩
  | actBbs _ _ _ _ => exact ⟨_, rfl, keeps_actBr (.refl _) ..⟩
  | actBbc _ _ _ _ => exact ⟨_, rfl, keeps_actBr (.refl _) ..⟩
  | actJmp _ _ => exact ⟨_, rfl, keeps_actBr (.refl _) ..⟩
  | actLkn _ _ _ _ _ => exact ⟨_, rfl, keeps_lookup (.refl _) ..⟩
  | actLke _ _ _ _ _ => exact ⟨_, rfl, keeps_lookup (.refl _) ..⟩
  | actLkr _ _ _ _ _ => exact ⟨_, rfl, keeps_lookup (.refl _) ..⟩
  | actLkp _ _ _ _ => exact ⟨_, rfl, keeps_lookup (.refl _) ..⟩
  | lookupReturn _ _ => exact ⟨_, rfl, keeps_lookupReturn (.refl _) ..⟩
  | actPol _ _ _ => exact ⟨_, rfl, keeps_act (.refl _) (hx3 := fun _ _ _ h => (keeps_pol h ..)) ..⟩
  | actDcmp _ _ => exact ⟨_, rfl, keeps_act (.refl _) (hx3 := fun _ _ _ h => (keeps_dcmp h ..)) ..⟩
  | actCmpr _ _ => exact ⟨_, rfl, keeps_act (.refl _) (hx3 := fun _ _ _ h => h) ..⟩
  | actFwd _ => exact ⟨_, rfl, keeps_actEmit (.refl _) (hx3 := fun _ _ _ h => keeps_fwd h ..) ..⟩
  | actDrop _ _ => exact ⟨_, rfl, keeps_actEmit (.refl _) (hx3 := fun _ _ _ h => keeps_endPass (keeps_bump h ..) ..)
      ..⟩
  | actRecirc _ _ => exact ⟨_, rfl, keeps_actEmit (.refl _) (hx3 := fun _ _ _ h => keeps_recirc h ..) ..⟩
  | actRecircp _ _ => exact ⟨_, rfl, keeps_actEmit (.refl _) (hx3 := fun _ _ _ h => keeps_recirc h ..) ..⟩
  | reasmTimeout _ => exact ⟨_, rfl, keeps_ite (keeps_bump (keeps_pipe (.refl _) _) ..) (.refl _)⟩
  | ethFrameRx _ _ => exact ⟨_, rfl, keeps_ethRx (.refl _) ..⟩
  | ethLinkChange _ _ _ _ => exact ⟨_, rfl, keeps_ethLink (.refl _) ..⟩
  | ethTxTake _ => exact ⟨_, rfl, keeps_ethTake (.refl _) ..⟩
  | gateChange _ => exact ⟨_, rfl, keeps_gateChange (.refl _) ..⟩
  | eeeLpiEntry _ => exact ⟨_, rfl, keeps_lpiEntry (.refl _) ..⟩
  | ptpSyncRx _ => exact ⟨_, rfl, keeps_syncRx (.refl _) ..⟩
  | ptpDelayMsgRx => exact ⟨_, rfl, keeps_delayRx (.refl _) ..⟩
  | ppsEdge _ => exact ⟨_, rfl, keeps_ppsEdge (.refl _) ..⟩
  | todMessageRx _ => exact ⟨_, rfl, keeps_todRx (.refl _) ..⟩
  | timeMeasurement => exact ⟨_, rfl, keeps_measure1 (.refl _) ..⟩
  | holdoverLossTimeout => exact ⟨_, rfl, keeps_sourceLost (.refl _) ..⟩
  | ppsOutEdge => exact ⟨_, rfl, keeps_ite (keeps_emit (keeps_time (.refl _) _) ..) (.refl _)⟩
  | todOutSend => exact ⟨_, rfl, keeps_todOut (.refl _) ..⟩
  | txStampDrain _ _ =>
    refine ⟨_, rfl, keeps_ite (.refl _) (keeps_ite ?_ ?_)⟩
    · dsimp only
      split
      · exact keeps_frameEnd (.refl _) ..
      · exact keeps_drainStamp (keeps_modEth (keeps_frameEnd (.refl _) ..) ..) ..
    · split
      · exact .refl _
      · exact keeps_drainStamp (keeps_modPort (.refl _) ..) ..
  | qlFrameRx _ _ _ => exact ⟨_, rfl, keeps_qlFrameRx (.refl _) ..⟩
  | qlAckRx _ _ _ => exact ⟨_, rfl, keeps_linkWord (.refl _) ..⟩
  | qlNakRx _ _ => exact ⟨_, rfl, keeps_ite (keeps_nakRx (.refl _) ..) (.refl _)⟩
  | qlCreditRx _ _ => exact ⟨_, rfl, keeps_ite (keeps_creditRx (.refl _) ..) (.refl _)⟩
  | qlLevelRx _ _ => exact ⟨_, rfl, keeps_ite (keeps_levelRx (.refl _) ..) (.refl _)⟩
  | qlAckSend _ => exact ⟨_, rfl, keeps_ite (keeps_sendWord (keeps_modQl (.refl _) ..) ..) (.refl _)⟩
  | qlReplayTimeout _ => exact ⟨_, rfl, keeps_resend (.refl _) ..⟩
  | qlLinkDown _ => exact ⟨_, rfl, keeps_linkDown (.refl _) ..⟩
  | qlLinkUp _ _ => exact ⟨_, rfl, keeps_linkUp (.refl _) ..⟩
  | qlLevelWindow _ => exact ⟨_, rfl, keeps_levelWindow (.refl _) ..⟩
  | qlStepDone _ _ => exact ⟨_, rfl, keeps_stepDone (.refl _) ..⟩
  | qlTxSchedule _ => exact ⟨_, rfl, keeps_schedule (.refl _) ..⟩
  | announceRx => exact ⟨_, rfl, keeps_announceRx (.refl _) ..⟩
  | announceSend => exact ⟨_, rfl, keeps_announceSend (.refl _) ..⟩
  | memberAnnounceSend => exact ⟨_, rfl, keeps_memberAnnounceSend (.refl _) ..⟩
  | rootExpiry _ => exact ⟨_, rfl, keeps_rootExpiry (.refl _) ..⟩
  | shelfRootLoss => exact ⟨_, rfl, keeps_shelfRootLoss (.refl _) ..⟩
  | heartbeatSend => exact ⟨_, rfl, keeps_heartbeatSend (.refl _) ..⟩
  | heartbeatStall => exact ⟨_, rfl, keeps_heartbeatStall (.refl _) ..⟩
  | heartbeatRx _ => exact ⟨_, rfl, keeps_heartbeatRx (.refl _) ..⟩
  | heartbeatMiss => exact ⟨_, rfl, keeps_heartbeatMiss (.refl _) ..⟩
  | takeoverOwnAcquire => exact ⟨_, rfl, keeps_takeOwn (.refl _) ..⟩
  | takeoverRestoreDone => exact ⟨_, rfl, keeps_restoreDone (.refl _) ..⟩
  | ownInAssert => exact ⟨_, rfl, keeps_ownInAssert (.refl _) ..⟩
  | ownInRelease => exact ⟨_, rfl, keeps_ownInRelease (.refl _) ..⟩
  | mirFragmentRx => exact ⟨_, rfl, keeps_fragmentRx (.refl _) ..⟩
  | mirRecordAckRx => exact ⟨_, rfl, keeps_recordAckRx (.refl _) ..⟩
  | mirReqBaseRx => exact ⟨_, rfl, keeps_reqBaseRx (.refl _) ..⟩
  | mirBreakRx => exact ⟨_, rfl, keeps_breakRx (.refl _) ..⟩
  | mirOchreRx => exact ⟨_, rfl, keeps_ochreRx (.refl _) ..⟩
  | reqBaseSend => exact ⟨_, rfl, keeps_reqBaseSend (.refl _) ..⟩
  | mirrorFillDone => exact ⟨_, rfl, keeps_mirrorFillDone (.refl _) ..⟩
  | ochreTestRun _ _ _ => exact ⟨_, rfl, keeps_ochreTest (.refl _) ..⟩
  | rxDmaDeliver _ _ => exact ⟨_, rfl, keeps_rxDeliver (.refl _) ..⟩
  | rxStallTimeout _ => exact ⟨_, rfl, keeps_rxStall (.refl _) ..⟩
  | txRingFetch _ _ _ => exact ⟨_, rfl, keeps_txFetch (.refl _) ..⟩
  | eventPost => exact ⟨_, rfl, keeps_postEvent (.refl _) ..⟩
  | msixModerationEnd _ => exact ⟨_, rfl, keeps_ite (keeps_ite (keeps_emit (keeps_setRing (.refl _) ..) ..)
      (keeps_setRing (.refl _) ..)) (.refl _)⟩
  | taskSubmit _ _ => exact exec_taskSubmit_keeps ..
  | taskReady _ _ =>
    refine ⟨_, rfl, ?_⟩
    dsimp only
    split
    · exact keeps_ite (keeps_serveWaiting (keeps_setResult (keeps_makeReady (.refl _) ..) ..)) (keeps_setResult
        (.refl _) ..)
    · exact keeps_setResult (.refl _) ..
  | taskCancel _ _ =>
    refine ⟨_, rfl, ?_⟩
    dsimp only
    split
    · exact keeps_ite (keeps_setResult (.refl _) ..) (keeps_bump (keeps_cplTo (keeps_setResult (keeps_freeSlot
        (.refl _) ..) ..) ..) ..)
    · exact keeps_setResult (.refl _) ..
  | taskTake _ =>
    refine ⟨_, rfl, ?_⟩
    dsimp only
    split
    · exact keeps_dispatchTo (.refl _) _ _ ‹_›
    · exact keeps_setCorePort (.refl _) ..
  | taskTakeTimeout _ => exact ⟨_, rfl, keeps_ite (.refl _) (keeps_endTake (.refl _) ..)⟩
  | taskDone _ _ _ =>
    refine ⟨_, rfl, ?_⟩
    dsimp only
    split
    · exact keeps_ite (keeps_cplTo (keeps_freeSlot (.refl _) ..) ..) (keeps_emit (.refl _) ..)
    · exact keeps_emit (.refl _) ..
  | taskCplRead _ =>
    refine ⟨_, rfl, ?_⟩
    dsimp only
    split
    · exact keeps_emit (.refl _) ..
    · exact keeps_emit (keeps_setCorePort (.refl _) ..) ..
  | taskWatchdogExpiry _ => exact ⟨_, rfl, keeps_ite (keeps_bump (keeps_cplTo (keeps_freeSlot (.refl _) ..) ..) ..)
      (.refl _)⟩
  | backgroundTableWork => exact ⟨_, rfl, keeps_background (.refl _) ..⟩
  | verdigrisCompare => exact ⟨_, rfl, keeps_verdigris (.refl _) ..⟩
  | patrolScrub => exact ⟨_, rfl, .refl _⟩
  | eccCorrectable _ _ => exact ⟨_, rfl, keeps_bump (.refl _) ..⟩
  | eccUncorrectable _ _ => exact ⟨_, rfl, keeps_eccUncorrectable (.refl _) ..⟩
  | crossingParityError _ => exact ⟨_, rfl, keeps_crossingParity (.refl _) ..⟩
  | trngHealthFail => exact ⟨_, rfl, keeps_ite (keeps_raise (keeps_sec (.refl _) _) ..) (keeps_sec (.refl _) _)⟩
  | consoleFrameRx _ _ => exact ⟨_, rfl, keeps_consoleRx (.refl _) ..⟩
  | bootNoneReport => exact ⟨_, rfl, keeps_ite (keeps_emit (.refl _) ..) (.refl _)⟩
  | ddrTrainFailReport => exact ⟨_, rfl, keeps_ite (keeps_emit (.refl _) ..) (.refl _)⟩
  | smbusBlockRead _ => exact ⟨_, rfl, keeps_smbusAnswer (.refl _) ..⟩
  | smbusWrite => exact ⟨_, rfl, keeps_smbusAnswer (.refl _) ..⟩
  | smbusAlertResponse => exact ⟨_, rfl, keeps_smbusAnswer (.refl _) ..⟩
  | txGrant _ _ => exact ⟨_, rfl, keeps_after (keeps_grant (.refl _) ..) ..⟩
  | txRampUp _ => exact ⟨_, rfl, keeps_rampUp (.refl _) ..⟩
  | txEnd _ => exact ⟨_, rfl, keeps_after (keeps_txEnd (.refl _) ..) ..⟩
  | ackTxStart _ => exact ⟨_, rfl, keeps_ite (keeps_after (keeps_decideS (.refl _) ..) ..) (.refl _)⟩
  | lateLockTimeout _ => exact ⟨_, rfl, keeps_after (keeps_lateLock (.refl _) ..) ..⟩
  | ownWaitDeadline => exact ⟨_, rfl, keeps_ownWaitDeadline (.refl _) ..⟩
  | trngHealthPass =>
    refine ⟨_, rfl, ?_⟩
    dsimp only
    split
    · exact keeps_ite (keeps_elec (keeps_sec (.refl _) _) _) (keeps_bootFrom (keeps_elec (keeps_sec (.refl _) _) _)
        ..)
    · exact keeps_elec (keeps_sec (.refl _) _) _
  | keySlotReload _ => exact ⟨_, rfl, keeps_keyReload (.refl _) ..⟩
  | ptpMessageSend _ => exact ⟨_, rfl, keeps_ptpSend (.refl _) ..⟩
  | ppsOutPulseEnd => exact ⟨_, rfl, keeps_time (.refl _) _⟩
  | coreMemoryAccess _ _ _ _ _ _ => exact ⟨_, rfl, keeps_coreAccess (.refl _) ..⟩
  | coreInterruptPending _ => exact ⟨_, rfl, keeps_endTake (.refl _) ..⟩
  | thermalWarning _ => exact ⟨_, rfl, keeps_thermal (.refl _) ..⟩
  | cmdUnknownOpcode _ _ => exact ⟨_, rfl, keeps_cmdUnknown (.refl _) ..⟩

/-- A reset keeps one-time-programmable storage, and leaves the log and the staging empty. -/
theorem exec_reset {c : Instr} (hc : isReset c) (s : State) :
    ∃ d, exec c s = .next (s.goes d) ∧ d.otp = s.dev.otp ∧ d.vio = {} ∧ d.ev = {} := by
  obtain rfl | ⟨r, rfl⟩ | rfl := hc
  · exact ⟨_, rfl, rfl, rfl, rfl⟩
  · exact ⟨_, rfl, rfl, rfl, rfl⟩
  · exact ⟨_, rfl, rfl, rfl, rfl⟩

/-! ### The frame of every command -/

section Leaves
variable {us : List DevUnit} {a d : Dev}

/-- A write of one unit in the list. -/
theorem Dev.Leaves.write {y : Dev} {w : DevUnit} (h : Leaves us a d) (hw : us.contains w = true)
    (hy : ∀ v, v ≠ w → d.sameUnit v y) : Leaves us a y :=
  h.step fun v hv => hy v fun e => by rw [e, hw] at hv; contradiction

theorem Dev.leaves_epoch (h : Leaves us a d) (x) (hu : us.contains .epoch = true) : Leaves us a { d with epoch := x } :=
  h.write hu fun v hv => by cases v <;> trivial

theorem Dev.leaves_stg (h : Leaves us a d) (x) (hu : us.contains .stg = true) : Leaves us a { d with stg := x } :=
  h.write hu fun v hv => by cases v <;> trivial

theorem Dev.leaves_tbl (h : Leaves us a d) (x) (hu : us.contains .tbl = true) : Leaves us a { d with tbl := x } :=
  h.write hu fun v hv => by cases v <;> trivial

theorem Dev.leaves_pipe (h : Leaves us a d) (x) (hu : us.contains .pipe = true) : Leaves us a { d with pipe := x } :=
  h.write hu fun v hv => by cases v <;> trivial

theorem Dev.leaves_time (h : Leaves us a d) (x) (hu : us.contains .time = true) : Leaves us a { d with time := x } :=
  h.write hu fun v hv => by cases v <;> trivial

theorem Dev.leaves_pair (h : Leaves us a d) (x) (hu : us.contains .pair = true) : Leaves us a { d with pair := x } :=
  h.write hu fun v hv => by cases v <;> trivial

theorem Dev.leaves_elec (h : Leaves us a d) (x) (hu : us.contains .elec = true) : Leaves us a { d with elec := x } :=
  h.write hu fun v hv => by cases v <;> trivial

theorem Dev.leaves_sec (h : Leaves us a d) (x) (hu : us.contains .sec = true) : Leaves us a { d with sec := x } :=
  h.write hu fun v hv => by cases v <;> trivial

/-- A reset writes every unit but these four. -/
theorem Dev.leaves_resetAll (h : Leaves us a d) (hu : unitsIn (touches .sysRstAssert) us = true) : Leaves us a d.resetAll := by
  refine h.step fun v hv => ?_
  cases v
  case freeCtr | otp | ks0 | ks1 => rfl
  all_goals exact unitsIn_absurd hu hv rfl

/-- A meaning is run on the fresh state, so that a frame of every state holds from there. -/
theorem run_leaves {o : Host.Outcome State Fault Refusal} {f : Dev → Dev} {s : State} (ho : o = s.run f)
    (h : ∀ d : Dev, Leaves us d (f d)) : ∃ d, o = .next (s.goes d) ∧ Leaves us s.fresh d := ⟨_, ho, h _⟩

end Leaves

theorem exec_taskSubmit_leaves (k : Fin 8) (desc : TaskDesc) (s : State) :
    ∃ d, exec (.taskSubmit k desc) s = .next (s.goes d) ∧ Leaves (touches (.taskSubmit k desc)) s.fresh d := by
  refine run_leaves (rfl : execTaskSubmit k desc s = s.run _) fun d => ?_
  refine leaves_ite (leaves_setResult (.refl _ _) (hs := rfl) ..) ?_
  generalize List.find? _ _ = free
  cases free with
  | none => exact leaves_bump (leaves_setResult (.refl _ _) (hs := rfl) ..) (hs := rfl) ..
  | some i =>
    refine leaves_ite (leaves_bump (leaves_setResult (.refl _ _) (hs := rfl) ..) (hs := rfl) ..) (leaves_ite ?_ ?_)
    · exact leaves_setResult (leaves_setSlot (.refl _ _) (hs := rfl) ..) (hs := rfl) ..
    · exact leaves_serveWaiting (leaves_makeReady (leaves_setResult (leaves_setSlot (.refl _ _) (hs := rfl) ..)
        (hs := rfl) ..) (hs := rfl) ..) (hs := rfl)

/-- Every command leaves alone the units that its row of the table does not name. -/
theorem exec_leaves (c : Instr) (s : State) : ∃ d, exec c s = .next (s.goes d) ∧ Leaves (touches c) s.fresh d := by
  cases c with
  | sysRstAssert => exact ⟨_, rfl, leaves_resetAll (leaves_elec (.refl _ _) _ rfl) rfl⟩
  | sysRstRelease _ => exact ⟨_, rfl, leaves_leaveReset (leaves_elec (.refl _ _) _ rfl) (hs := rfl) ..⟩
  | supplyLoss _ => exact ⟨_, rfl, leaves_resetAll (leaves_elec (.refl _ _) _ rfl) rfl⟩
  | supplyResetEnd _ => exact ⟨_, rfl, leaves_ite (leaves_leaveReset (leaves_elec (.refl _ _) _ rfl) (hs := rfl) ..)
      (.refl _ _)⟩
  | thermalOvertemp => exact ⟨_, rfl, leaves_resetAll (leaves_elec (.refl _ _) _ rfl) rfl⟩
  | thermalResetEnd _ => exact ⟨_, rfl, leaves_ite (leaves_leaveReset (leaves_elec (.refl _ _) _ rfl) (hs := rfl)
      ..) (.refl _ _)⟩
  | clockLoss => exact ⟨_, rfl, leaves_fatalFault (.refl _ _) (hs := rfl) ..⟩
  | perstNAssert => exact ⟨_, rfl, leaves_pcieLink (leaves_clearRings (.refl _ _) (hs := rfl)) (hs := rfl) ..⟩
  | jtagTrst => exact ⟨_, rfl, .refl _ _⟩
  | pcieLinkChange _ => exact ⟨_, rfl, leaves_pcieLink (.refl _ _) (hs := rfl) ..⟩
  | hostLinkLossTimeout => exact ⟨_, rfl, leaves_hostLinkLoss (.refl _ _) (hs := rfl)⟩
  | controlModeWindowEnd => exact ⟨_, rfl, leaves_windowEnd (.refl _ _) (hs := rfl)⟩
  | ownBootDelayEnd => exact ⟨_, rfl, leaves_ownBootDelayEnd (.refl _ _) (hs := rfl)⟩
  | functionLevelReset => exact ⟨_, rfl, leaves_clearRings (.refl _ _) (hs := rfl)⟩
  | d3hotEntry => exact ⟨_, rfl, leaves_pcieLink (leaves_clearRings (.refl _ _) (hs := rfl)) (hs := rfl) ..⟩
  | pcieDmaError _ => exact ⟨_, rfl, leaves_raise (leaves_bump (leaves_violate (leaves_disableRing (.refl _ _) (hs
      := rfl) ..) (hs := rfl) ..) (hs := rfl) ..) (hs := rfl) ..⟩
  | registerWrite _ _ _ => exact ⟨_, rfl, leaves_writeCfg (.refl _ _) (hs := rfl) ..⟩
  | cfgBadWidthAccess _ _ => exact ⟨_, rfl, leaves_ite (leaves_violate (.refl _ _) (hs := rfl) ..) (leaves_reply
      (leaves_violate (.refl _ _) (hs := rfl) ..) (hs := rfl) ..)⟩
  | cfgUnmappedAccess _ _ => exact ⟨_, rfl, leaves_ite (.refl _ _) (leaves_ite (leaves_violate (.refl _ _) (hs :=
      rfl) ..) (leaves_reply (leaves_violate (.refl _ _) (hs := rfl) ..) (hs := rfl) ..))⟩
  | winRingBadAccess _ _ => exact ⟨_, rfl, leaves_violate (.refl _ _) (hs := rfl) ..⟩
  | epochNumLoRead => exact ⟨_, rfl, leaves_reply (leaves_epoch (.refl _ _) _ rfl) (hs := rfl) ..⟩
  | seqPeekLoRead _ => exact ⟨_, rfl, leaves_reply (leaves_setSeq (.refl _ _) (hs := rfl) ..) (hs := rfl) ..⟩
  | timeNowLoRead => exact ⟨_, rfl, leaves_reply (leaves_time (.refl _ _) _ rfl) (hs := rfl) ..⟩
  | tblSeedLoRead _ => exact ⟨_, rfl, leaves_reply (leaves_tbl (.refl _ _) _ rfl) (hs := rfl) ..⟩
  | pairCommitLoRead => exact ⟨_, rfl, leaves_reply (leaves_pair (.refl _ _) _ rfl) (hs := rfl) ..⟩
  | stageHoldWrite _ => exact ⟨_, rfl, leaves_stg (.refl _ _) _ rfl⟩
  | cinStageWrite _ _ => exact ⟨_, rfl, leaves_writeCinStage (.refl _ _) (hs := rfl) ..⟩
  | ringEnable _ _ => exact ⟨_, rfl, leaves_writeRingReg (.refl _ _) (hs := rfl) ..⟩
  | ringDoorbell _ _ => exact ⟨_, rfl, leaves_doorbell (.refl _ _) (hs := rfl) ..⟩
  | pairKeepaliveWrite _ => exact ⟨_, rfl, leaves_kick (.refl _ _) (hs := rfl)⟩
  | cmdNop _ => exact ⟨_, rfl, leaves_cmdNop (.refl _ _) (hs := rfl) ..⟩
  | cmdHostAttach _ => exact ⟨_, rfl, leaves_hostAttach (.refl _ _) (hs := rfl) ..⟩
  | cmdSetPhase _ _ => exact ⟨_, rfl, leaves_setPhaseCmd (.refl _ _) (hs := rfl) ..⟩
  | cmdCommit _ _ => exact ⟨_, rfl, leaves_commitCmd (.refl _ _) (hs := rfl) ..⟩
  | cmdVatLoad _ _ => exact ⟨_, rfl, leaves_vatLoad (.refl _ _) (hs := rfl) ..⟩
  | vatCopyDone _ _ => exact ⟨_, rfl, leaves_vatCopyDone (.refl _ _) (hs := rfl) ..⟩
  | vatVerifyDone => exact ⟨_, rfl, leaves_vatVerifyDone (.refl _ _) (hs := rfl)⟩
  | cmdVatDiscard _ => exact ⟨_, rfl, leaves_vatDiscard (.refl _ _) (hs := rfl) ..⟩
  | cmdRfCal _ _ => exact ⟨_, rfl, leaves_rfCal (.refl _ _) (hs := rfl) ..⟩
  | cmdRfTestTx _ _ _ => exact ⟨_, rfl, leaves_after (leaves_rfTestTx (.refl _ _) (hs := rfl) ..) (hs := rfl)⟩
  | testTxEnd _ => exact ⟨_, rfl, leaves_after (leaves_testEnd (.refl _ _) (hs := rfl) ..) (hs := rfl)⟩
  | cmdFemSpiWrite _ _ => exact ⟨_, rfl, leaves_femSpi (.refl _ _) (hs := rfl) ..⟩
  | cmdFemSpiRead _ _ => exact ⟨_, rfl, leaves_femSpi (.refl _ _) (hs := rfl) ..⟩
  | cmdCinnabarLock _ _ _ => exact ⟨_, rfl, leaves_cinLock (.refl _ _) (hs := rfl) ..⟩
  | cmdAssocDecideAdmit _ _ => exact ⟨_, rfl, leaves_assocDecide (.refl _ _) (hs := rfl) ..⟩
  | cmdAssocDecideDeny _ _ => exact ⟨_, rfl, leaves_assocDecide (.refl _ _) (hs := rfl) ..⟩
  | cmdNbrSetAdd _ _ => exact ⟨_, rfl, leaves_nbrSet (.refl _ _) (hs := rfl) ..⟩
  | cmdNbrSetRemove _ _ => exact ⟨_, rfl, leaves_nbrSet (.refl _ _) (hs := rfl) ..⟩
  | cmdSeenFlush _ => exact ⟨_, rfl, leaves_seenFlushCmd (.refl _ _) (hs := rfl) ..⟩
  | cmdNodeSetAdd _ _ => exact ⟨_, rfl, leaves_tblCmd (.refl _ _) (hs := rfl) ..⟩
  | cmdNodeSetDelete _ _ => exact ⟨_, rfl, leaves_tblCmd (.refl _ _) (hs := rfl) ..⟩
  | cmdNodeSetClearQuarantine _ _ => exact ⟨_, rfl, leaves_tblCmd (.refl _ _) (hs := rfl) ..⟩
  | cmdRouteSetAdd _ _ => exact ⟨_, rfl, leaves_tblCmd (.refl _ _) (hs := rfl) ..⟩
  | cmdRouteSetDelete _ _ => exact ⟨_, rfl, leaves_tblCmd (.refl _ _) (hs := rfl) ..⟩
  | cmdRouteSetClearQuarantine _ _ => exact ⟨_, rfl, leaves_tblCmd (.refl _ _) (hs := rfl) ..⟩
  | cmdPrefixSetAdd _ _ => exact ⟨_, rfl, leaves_tblCmd (.refl _ _) (hs := rfl) ..⟩
  | cmdPrefixSetDelete _ _ => exact ⟨_, rfl, leaves_tblCmd (.refl _ _) (hs := rfl) ..⟩
  | cmdPrefixSetClearQuarantine _ _ => exact ⟨_, rfl, leaves_tblCmd (.refl _ _) (hs := rfl) ..⟩
  | cmdTableRebuildCopy _ _ => exact ⟨_, rfl, leaves_rebuildStart (.refl _ _) (hs := rfl) ..⟩
  | cmdTableRebuildEmpty _ _ => exact ⟨_, rfl, leaves_rebuildStart (.refl _ _) (hs := rfl) ..⟩
  | cmdTableRebuildSwap _ _ => exact ⟨_, rfl, leaves_rebuildSwap (.refl _ _) (hs := rfl) ..⟩
  | cmdTableRebuildAbandon _ _ => exact ⟨_, rfl, leaves_rebuildAbandon (.refl _ _) (hs := rfl) ..⟩
  | rebuildCopyDone _ => exact ⟨_, rfl, leaves_copyDone (.refl _ _) (hs := rfl) ..⟩
  | cmdNodeRekey _ _ => exact ⟨_, rfl, leaves_nodeRekey (.refl _ _) (hs := rfl) ..⟩
  | cmdTmSet _ _ => exact ⟨_, rfl, leaves_tmSet (.refl _ _) (hs := rfl) ..⟩
  | cmdKeySetImportSym256 _ _ _ => exact ⟨_, rfl, leaves_cmdKeySetSym (.refl _ _) (hs := rfl) ..⟩
  | cmdKeySetImportPubPair _ _ _ => exact ⟨_, rfl, leaves_cmdKeySetPub (.refl _ _) (hs := rfl) ..⟩
  | cmdKeySetDerive _ _ => exact ⟨_, rfl, leaves_keySet (.refl _ _) (hs := rfl) ..⟩
  | cmdKeySetInvalidate _ _ => exact ⟨_, rfl, leaves_keySet (.refl _ _) (hs := rfl) ..⟩
  | keystoreWriteDone _ => exact ⟨_, rfl, leaves_writeDone (.refl _ _) (hs := rfl) ..⟩
  | cmdKeyMigrate _ _ _ => exact ⟨_, rfl, leaves_keyMigrate (.refl _ _) (hs := rfl) ..⟩
  | cmdMacsecSakInstallTx _ _ => exact ⟨_, rfl, leaves_macsecSak (.refl _ _) (hs := rfl) ..⟩
  | cmdMacsecSakInstallRx _ _ => exact ⟨_, rfl, leaves_macsecSak (.refl _ _) (hs := rfl) ..⟩
  | cmdMacsecSakGenerateTx _ _ => exact ⟨_, rfl, leaves_macsecSak (.refl _ _) (hs := rfl) ..⟩
  | cmdMacsecSakRemove _ _ => exact ⟨_, rfl, leaves_macsecSak (.refl _ _) (hs := rfl) ..⟩
  | cmdLcAdvance _ _ _ => exact ⟨_, rfl, leaves_lcAdvance (.refl _ _) (hs := rfl) ..⟩
  | cmdOtpHash _ _ _ => exact ⟨_, rfl, leaves_otpHash (.refl _ _) (hs := rfl) ..⟩
  | cmdRollbackCommit _ _ => exact ⟨_, rfl, leaves_rollbackCommit (.refl _ _) (hs := rfl) ..⟩
  | cmdTimeSet _ _ => exact ⟨_, rfl, leaves_timeSet (.refl _ _) (hs := rfl) ..⟩
  | cmdTimeRestep _ _ => exact ⟨_, rfl, leaves_timeRestep (.refl _ _) (hs := rfl) ..⟩
  | cmdPairSetForbid _ _ => exact ⟨_, rfl, leaves_pairSet (.refl _ _) (hs := rfl) ..⟩
  | cmdPairSetAllow _ _ => exact ⟨_, rfl, leaves_pairSet (.refl _ _) (hs := rfl) ..⟩
  | cmdTakeoverRead _ _ _ => exact ⟨_, rfl, leaves_takeoverRead (.refl _ _) (hs := rfl) ..⟩
  | cmdLogDrain _ _ _ => exact ⟨_, rfl, leaves_logDrain (.refl _ _) (hs := rfl) ..⟩
  | stagingFreeze => exact ⟨_, rfl, leaves_stagingFreeze (.refl _ _) (hs := rfl)⟩
  | epochBoundary => exact ⟨_, rfl, leaves_epochBoundary (.refl _ _) (hs := rfl)⟩
  | boundaryStrobeArrival _ => exact ⟨_, rfl, leaves_strobe (.refl _ _) (hs := rfl) ..⟩
  | nodeAgeOut _ => exact ⟨_, rfl, leaves_ageOut (.refl _ _) (hs := rfl) ..⟩
  | addressReleaseHoldEnd _ _ => exact ⟨_, rfl, leaves_ite (.refl _ _) (leaves_modPan (.refl _ _) (hs := rfl) ..)⟩
  | romStartupDwellEnd => exact ⟨_, rfl, leaves_dwellEnd (.refl _ _) (hs := rfl)⟩
  | recordAckTimeout => exact ⟨_, rfl, leaves_recordAckTimeout (.refl _ _) (hs := rfl)⟩
  | snapshotPublish => exact ⟨_, rfl, leaves_publish (.refl _ _) (hs := rfl)⟩
  | portTempMeasure _ _ => exact ⟨_, rfl, leaves_tempMeasure (.refl _ _) (hs := rfl) ..⟩
  | seqNop _ _ => exact ⟨_, rfl, leaves_issue (.refl _ _) (hx5 := fun _ h => h) (hs := rfl) ..⟩
  | seqEnd _ _ => exact ⟨_, rfl, leaves_issue (.refl _ _) (hx5 := fun _ h => leaves_seqEnd h (hs := rfl) ..) (hs :=
      rfl) ..⟩
  | seqCond _ _ _ _ _ => exact ⟨_, rfl, leaves_issue (.refl _ _) (hx5 := fun _ h => leaves_seqCond h (hs := rfl) ..)
      (hs := rfl) ..⟩
  | seqRx _ _ => exact ⟨_, rfl, leaves_issue (.refl _ _) (hx5 := fun _ h => leaves_seqRx h (hs := rfl) ..) (hs :=
      rfl) ..⟩
  | seqRetune _ _ _ _ => exact ⟨_, rfl, leaves_issue (.refl _ _) (hx5 := fun _ h => leaves_seqRetune h (hs := rfl)
      ..) (hs := rfl) ..⟩
  | seqCal _ _ _ _ => exact ⟨_, rfl, leaves_issue (.refl _ _) (hx5 := fun _ h => leaves_seqCalOp h (hs := rfl) ..)
      (hs := rfl) ..⟩
  | seqLfreq _ _ _ _ => exact ⟨_, rfl, leaves_issue (.refl _ _) (hx5 := fun _ h => leaves_seqLane h (hs := rfl) ..)
      (hs := rfl) ..⟩
  | seqLmode _ _ _ _ => exact ⟨_, rfl, leaves_issue (.refl _ _) (hx5 := fun _ h => leaves_seqLane h (hs := rfl) ..)
      (hs := rfl) ..⟩
  | seqCset _ _ _ _ => exact ⟨_, rfl, leaves_issue (.refl _ _) (hx5 := fun _ h => leaves_seqCarrier h (hs := rfl)
      ..) (hs := rfl) ..⟩
  | seqCmode _ _ _ _ => exact ⟨_, rfl, leaves_issue (.refl _ _) (hx5 := fun _ h => leaves_seqCarrier h (hs := rfl)
      ..) (hs := rfl) ..⟩
  | seqTx _ _ _ _ _ _ _ => exact ⟨_, rfl, leaves_issue (.refl _ _) (hx5 := fun _ h => leaves_openSlot h (hs := rfl)
      ..) (hs := rfl) ..⟩
  | seqWin _ _ _ _ _ => exact ⟨_, rfl, leaves_issue (.refl _ _) (hx5 := fun _ h => leaves_openSlot h (hs := rfl) ..)
      (hs := rfl) ..⟩
  | seqBcn _ _ _ _ _ _ => exact ⟨_, rfl, leaves_issue (.refl _ _) (hx5 := fun _ h => leaves_seqBcn h (hs := rfl) ..)
      (hs := rfl) ..⟩
  | seqRxp _ _ _ => exact ⟨_, rfl, leaves_issue (.refl _ _) (hx5 := fun _ h => leaves_seqRxp h (hs := rfl) ..) (hs
      := rfl) ..⟩
  | seqSpi _ _ _ => exact ⟨_, rfl, leaves_issue (.refl _ _) (hx5 := fun _ h => leaves_seqSpi h (hs := rfl) ..) (hs
      := rfl) ..⟩
  | slotClose _ => exact ⟨_, rfl, leaves_after (leaves_slotClose (.refl _ _) (hs := rfl) ..) (hs := rfl)⟩
  | airQueueHeadArrival _ _ => exact ⟨_, rfl, leaves_after (.refl _ _) (hs := rfl)⟩
  | csmaBackoffExpiry _ => exact ⟨_, rfl, leaves_ite (leaves_ccaStart (.refl _ _) (hs := rfl) ..) (.refl _ _)⟩
  | ccaEnd _ _ => exact ⟨_, rfl, leaves_after (leaves_ccaEnd (.refl _ _) (hs := rfl) ..) (hs := rfl)⟩
  | portRxReturn _ => exact ⟨_, rfl, leaves_after (leaves_rxReturn (.refl _ _) (hs := rfl) ..) (hs := rfl)⟩
  | coexGntRevoke _ => exact ⟨_, rfl, leaves_gntFall (.refl _ _) (hs := rfl) ..⟩
  | coexReqHoldEnd _ => exact ⟨_, rfl, leaves_ite (leaves_coexFall (leaves_modPort (.refl _ _) (hs := rfl) ..) (hs
      := rfl) ..) (leaves_modPort (.refl _ _) (hs := rfl) ..)⟩
  | rxpEnd _ => exact ⟨_, rfl, leaves_modPort (.refl _ _) (hs := rfl) ..⟩
  | ackWaitEnd _ => exact ⟨_, rfl, leaves_after (leaves_ackWaitEnd (.refl _ _) (hs := rfl) ..) (hs := rfl)⟩
  | portPowerUp _ => exact ⟨_, rfl, leaves_ite (leaves_portStart (leaves_setSt (.refl _ _) (hs := rfl) ..) (hs :=
      rfl) ..) (.refl _ _)⟩
  | synthLock _ => exact ⟨_, rfl, leaves_after (leaves_synthLock (.refl _ _) (hs := rfl) ..) (hs := rfl)⟩
  | calDone _ _ _ _ => exact ⟨_, rfl, leaves_after (leaves_calDone (.refl _ _) (hs := rfl) ..) (hs := rfl)⟩
  | portPowerDown _ => exact ⟨_, rfl, leaves_ite (leaves_setSt (leaves_modPort (.refl _ _) (hs := rfl) ..) (hs :=
      rfl) ..) (.refl _ _)⟩
  | femSpiDone _ _ _ => exact ⟨_, rfl, leaves_after (leaves_femSpiDone (.refl _ _) (hs := rfl) ..) (hs := rfl)⟩
  | agcStep _ _ _ => exact ⟨_, rfl, leaves_agcStep (.refl _ _) (hs := rfl) ..⟩
  | agcForcedStep _ _ => exact ⟨_, rfl, leaves_agcForced (.refl _ _) (hs := rfl) ..⟩
  | preambleDetect _ _ => exact ⟨_, rfl, leaves_ite (leaves_detect (.refl _ _) (hs := rfl) ..) (.refl _ _)⟩
  | syncMatch _ _ _ _ _ => exact ⟨_, rfl, leaves_syncMatch (.refl _ _) (hs := rfl) ..⟩
  | syncTimeout _ => exact ⟨_, rfl, leaves_syncTimeout (.refl _ _) (hs := rfl) ..⟩
  | phrCheck _ _ => exact ⟨_, rfl, leaves_after (leaves_phrCheck (.refl _ _) (hs := rfl) ..) (hs := rfl)⟩
  | psduEnd _ _ => exact ⟨_, rfl, leaves_after (leaves_psduEnd (.refl _ _) (hs := rfl) ..) (hs := rfl)⟩
  | capture _ _ => exact ⟨_, rfl, leaves_ite (leaves_after (leaves_detect (.refl _ _) (hs := rfl) ..) (hs := rfl))
      (.refl _ _)⟩
  | rxRecordDecide _ _ => exact ⟨_, rfl, leaves_decideRecord (.refl _ _) (hs := rfl) ..⟩
  | copyGroupClose => exact ⟨_, rfl, leaves_closeGroup (.refl _ _) (hs := rfl)⟩
  | ccmUplinkDone _ _ => exact ⟨_, rfl, leaves_ccmDone (.refl _ _) (hs := rfl) ..⟩
  | kdfDone => exact ⟨_, rfl, leaves_kdfDone (.refl _ _) (hs := rfl)⟩
  | indirectResponseStart _ _ => exact ⟨_, rfl, leaves_pump (leaves_indirectStart (.refl _ _) (hs := rfl) ..) (hs :=
      rfl)⟩
  | indirectExpire _ => exact ⟨_, rfl, leaves_indirectExpire (.refl _ _) (hs := rfl) ..⟩
  | assocDecideTimeout _ _ => exact ⟨_, rfl, leaves_assocTimeout (.refl _ _) (hs := rfl) ..⟩
  | nbrWindowJudge _ => exact ⟨_, rfl, leaves_nbrJudge (.refl _ _) (hs := rfl) ..⟩
  | dutyBinAdvance => exact ⟨_, rfl, leaves_dutyAdvance (.refl _ _) (hs := rfl)⟩
  | tokenRefill => exact ⟨_, rfl, leaves_refill (.refl _ _) (hs := rfl)⟩
  | pipeWindowStart _ => exact ⟨_, rfl, leaves_windowStart (.refl _ _) (hs := rfl) ..⟩
  | actNop _ => exact ⟨_, rfl, leaves_actP (.refl _ _) (hs := rfl) ..⟩
  | actMovi _ _ _ => exact ⟨_, rfl, leaves_actP (.refl _ _) (hs := rfl) ..⟩
  | actLui _ _ _ => exact ⟨_, rfl, leaves_actP (.refl _ _) (hs := rfl) ..⟩
  | actAdd _ _ _ _ => exact ⟨_, rfl, leaves_actP (.refl _ _) (hs := rfl) ..⟩
  | actAddi _ _ _ _ => exact ⟨_, rfl, leaves_actP (.refl _ _) (hs := rfl) ..⟩
  | actSub _ _ _ _ => exact ⟨_, rfl, leaves_actP (.refl _ _) (hs := rfl) ..⟩
  | actAnd _ _ _ _ => exact ⟨_, rfl, leaves_actP (.refl _ _) (hs := rfl) ..⟩
  | actOr _ _ _ _ => exact ⟨_, rfl, leaves_actP (.refl _ _) (hs := rfl) ..⟩
  | actXor _ _ _ _ => exact ⟨_, rfl, leaves_actP (.refl _ _) (hs := rfl) ..⟩
  | actExt _ _ _ _ _ => exact ⟨_, rfl, leaves_actP (.refl _ _) (hs := rfl) ..⟩
  | actIns _ _ _ _ _ => exact ⟨_, rfl, leaves_actP (.refl _ _) (hs := rfl) ..⟩
  | actLdm _ _ _ =>
    refine ⟨_, rfl, leaves_act (.refl _ _) (hx3 := fun _ _ _ h => ?_) (hs := rfl) ..⟩
    split
    · exact h
    · exact leaves_draw h 32 (hs := rfl)
  | actStm _ _ _ => exact ⟨_, rfl, leaves_actP (.refl _ _) (hs := rfl) ..⟩
  | actLdh _ _ _ _ => exact ⟨_, rfl, leaves_actP (.refl _ _) (hs := rfl) ..⟩
  | actSth _ _ _ _ => exact ⟨_, rfl, leaves_actP (.refl _ _) (hs := rfl) ..⟩
  | actLdr _ _ _ _ _ => exact ⟨_, rfl, leaves_actP (.refl _ _) (hs := rfl) ..⟩
  | actCnt _ _ =>
    exact ⟨_, rfl, leaves_act (.refl _ _) (hx3 := fun _ _ _ h => leaves_bump h (Cnt.ACT_CNT _) 1 (hs := rfl)) (hs := rfl) ..⟩
  | actOwnr _ _ _ => exact ⟨_, rfl, leaves_act (.refl _ _) (hx3 := fun _ _ _ h => h) (hs := rfl) ..⟩
  | actBeq _ _ _ _ => exact ⟨_, rfl, leaves_actBr (.refl _ _) (hs := rfl) ..⟩
  | actBne _ _ _ _ => exact ⟨_, rfl, leaves_actBr (.refl _ _) (hs := rfl) ..⟩
  | actBltu _ _ _ _ => exact ⟨_, rfl, leaves_actBr (.refl _ _) (hs := rfl) ..⟩
  | actBgeu _ _ _ _ => exact ⟨_, rfl, leaves_actBr (.refl _ _) (hs := rfl) ..⟩
  | actBeqi _ _ _ _ => exact ⟨_, rfl, leaves_actBr (.refl _ _) (hs := rfl) ..⟩
  | actBnei _ _ _ _ => exact ⟨_, rfl, leaves_actBr (.refl _ _) (hs := rfl) ..⟩
  | actBbs _ _ _ _ => exact ⟨_, rfl, leaves_actBr (.refl _ _) (hs := rfl) ..⟩
  | actBbc _ _ _ _ => exact ⟨_, rfl, leaves_actBr (.refl _ _) (hs := rfl) ..⟩
  | actJmp _ _ => exact ⟨_, rfl, leaves_actBr (.refl _ _) (hs := rfl) ..⟩
  | actLkn _ _ _ _ _ => exact ⟨_, rfl, leaves_lookup (.refl _ _) (hs := rfl) ..⟩
  | actLke _ _ _ _ _ => exact ⟨_, rfl, leaves_lookup (.refl _ _) (hs := rfl) ..⟩
  | actLkr _ _ _ _ _ => exact ⟨_, rfl, leaves_lookup (.refl _ _) (hs := rfl) ..⟩
  | actLkp _ _ _ _ => exact ⟨_, rfl, leaves_lookup (.refl _ _) (hs := rfl) ..⟩
  | lookupReturn _ _ => exact ⟨_, rfl, leaves_lookupReturn (.refl _ _) (hs := rfl) ..⟩
  | actPol _ _ _ => exact ⟨_, rfl, leaves_act (.refl _ _) (hx3 := fun _ _ _ h => (leaves_pol h (hs := rfl) ..)) (hs
      := rfl) ..⟩
  | actDcmp _ _ => exact ⟨_, rfl, leaves_act (.refl _ _) (hx3 := fun _ _ _ h => (leaves_dcmp h (hs := rfl) ..)) (hs
      := rfl) ..⟩
  | actCmpr _ _ => exact ⟨_, rfl, leaves_act (.refl _ _) (hx3 := fun _ _ _ h => h) (hs := rfl) ..⟩
  | actFwd _ => exact ⟨_, rfl, leaves_actEmit (.refl _ _) (hx3 := fun _ _ _ h => leaves_fwd h (hs := rfl) ..) (hs :=
      rfl) ..⟩
  | actDrop _ _ => exact ⟨_, rfl, leaves_actEmit (.refl _ _) (hx3 := fun _ _ _ h => leaves_endPass (leaves_bump h
      (hs := rfl) ..) (hs := rfl) ..) (hs := rfl) ..⟩
  | actRecirc _ _ => exact ⟨_, rfl, leaves_actEmit (.refl _ _) (hx3 := fun _ _ _ h => leaves_recirc h (hs := rfl)
      ..) (hs := rfl) ..⟩
  | actRecircp _ _ => exact ⟨_, rfl, leaves_actEmit (.refl _ _) (hx3 := fun _ _ _ h => leaves_recirc h (hs := rfl)
      ..) (hs := rfl) ..⟩
  | reasmTimeout _ => exact ⟨_, rfl, leaves_ite (leaves_bump (leaves_pipe (.refl _ _) _ rfl) (hs := rfl) ..) (.refl
      _ _)⟩
  | ethFrameRx _ _ => exact ⟨_, rfl, leaves_ethRx (.refl _ _) (hs := rfl) ..⟩
  | ethLinkChange _ _ _ _ => exact ⟨_, rfl, leaves_ethLink (.refl _ _) (hs := rfl) ..⟩
  | ethTxTake _ => exact ⟨_, rfl, leaves_ethTake (.refl _ _) (hs := rfl) ..⟩
  | gateChange _ => exact ⟨_, rfl, leaves_gateChange (.refl _ _) (hs := rfl) ..⟩
  | eeeLpiEntry _ => exact ⟨_, rfl, leaves_lpiEntry (.refl _ _) (hs := rfl) ..⟩
  | ptpSyncRx _ => exact ⟨_, rfl, leaves_syncRx (.refl _ _) (hs := rfl) ..⟩
  | ptpDelayMsgRx => exact ⟨_, rfl, leaves_delayRx (.refl _ _) (hs := rfl)⟩
  | ppsEdge _ => exact ⟨_, rfl, leaves_ppsEdge (.refl _ _) (hs := rfl) ..⟩
  | todMessageRx _ => exact ⟨_, rfl, leaves_todRx (.refl _ _) (hs := rfl) ..⟩
  | timeMeasurement => exact ⟨_, rfl, leaves_measure1 (.refl _ _) (hs := rfl)⟩
  | holdoverLossTimeout => exact ⟨_, rfl, leaves_sourceLost (.refl _ _) (hs := rfl)⟩
  | ppsOutEdge => exact ⟨_, rfl, leaves_ite (leaves_emit (leaves_time (.refl _ _) _ rfl) (hs := rfl) ..) (.refl _ _)⟩
  | todOutSend => exact ⟨_, rfl, leaves_todOut (.refl _ _) (hs := rfl)⟩
  | txStampDrain _ _ =>
    refine ⟨_, rfl, leaves_ite (.refl _ _) (leaves_ite ?_ ?_)⟩
    · dsimp only
      split
      · exact leaves_frameEnd (.refl _ _) (hs := rfl) ..
      · exact leaves_drainStamp (leaves_modEth (leaves_frameEnd (.refl _ _) (hs := rfl) ..) (hs := rfl) ..) (hs := rfl) ..
    · split
      · exact .refl _ _
      · exact leaves_drainStamp (leaves_modPort (.refl _ _) (hs := rfl) ..) (hs := rfl) ..
  | qlFrameRx _ _ _ => exact ⟨_, rfl, leaves_qlFrameRx (.refl _ _) (hs := rfl) ..⟩
  | qlAckRx _ _ _ => exact ⟨_, rfl, leaves_linkWord (.refl _ _) (hs := rfl) ..⟩
  | qlNakRx _ _ => exact ⟨_, rfl, leaves_ite (leaves_nakRx (.refl _ _) (hs := rfl) ..) (.refl _ _)⟩
  | qlCreditRx _ _ => exact ⟨_, rfl, leaves_ite (leaves_creditRx (.refl _ _) (hs := rfl) ..) (.refl _ _)⟩
  | qlLevelRx _ _ => exact ⟨_, rfl, leaves_ite (leaves_levelRx (.refl _ _) (hs := rfl) ..) (.refl _ _)⟩
  | qlAckSend _ => exact ⟨_, rfl, leaves_ite (leaves_sendWord (leaves_modQl (.refl _ _) (hs := rfl) ..) (hs := rfl)
      ..) (.refl _ _)⟩
  | qlReplayTimeout _ => exact ⟨_, rfl, leaves_resend (.refl _ _) (hs := rfl) ..⟩
  | qlLinkDown _ => exact ⟨_, rfl, leaves_linkDown (.refl _ _) (hs := rfl) ..⟩
  | qlLinkUp _ _ => exact ⟨_, rfl, leaves_linkUp (.refl _ _) (hs := rfl) ..⟩
  | qlLevelWindow _ => exact ⟨_, rfl, leaves_levelWindow (.refl _ _) (hs := rfl) ..⟩
  | qlStepDone _ _ => exact ⟨_, rfl, leaves_stepDone (.refl _ _) (hs := rfl) ..⟩
  | qlTxSchedule _ => exact ⟨_, rfl, leaves_schedule (.refl _ _) (hs := rfl) ..⟩
  | announceRx => exact ⟨_, rfl, leaves_announceRx (.refl _ _) (hs := rfl)⟩
  | announceSend => exact ⟨_, rfl, leaves_announceSend (.refl _ _) (hs := rfl)⟩
  | memberAnnounceSend => exact ⟨_, rfl, leaves_memberAnnounceSend (.refl _ _) (hs := rfl)⟩
  | rootExpiry _ => exact ⟨_, rfl, leaves_rootExpiry (.refl _ _) (hs := rfl) ..⟩
  | shelfRootLoss => exact ⟨_, rfl, leaves_shelfRootLoss (.refl _ _) (hs := rfl)⟩
  | heartbeatSend => exact ⟨_, rfl, leaves_heartbeatSend (.refl _ _) (hs := rfl)⟩
  | heartbeatStall => exact ⟨_, rfl, leaves_heartbeatStall (.refl _ _) (hs := rfl)⟩
  | heartbeatRx _ => exact ⟨_, rfl, leaves_heartbeatRx (.refl _ _) (hs := rfl) ..⟩
  | heartbeatMiss => exact ⟨_, rfl, leaves_heartbeatMiss (.refl _ _) (hs := rfl)⟩
  | takeoverOwnAcquire => exact ⟨_, rfl, leaves_takeOwn (.refl _ _) (hs := rfl)⟩
  | takeoverRestoreDone => exact ⟨_, rfl, leaves_restoreDone (.refl _ _) (hs := rfl)⟩
  | ownInAssert => exact ⟨_, rfl, leaves_ownInAssert (.refl _ _) (hs := rfl)⟩
  | ownInRelease => exact ⟨_, rfl, leaves_ownInRelease (.refl _ _) (hs := rfl)⟩
  | mirFragmentRx => exact ⟨_, rfl, leaves_fragmentRx (.refl _ _) (hs := rfl)⟩
  | mirRecordAckRx => exact ⟨_, rfl, leaves_recordAckRx (.refl _ _) (hs := rfl)⟩
  | mirReqBaseRx => exact ⟨_, rfl, leaves_reqBaseRx (.refl _ _) (hs := rfl)⟩
  | mirBreakRx => exact ⟨_, rfl, leaves_breakRx (.refl _ _) (hs := rfl)⟩
  | mirOchreRx => exact ⟨_, rfl, leaves_ochreRx (.refl _ _) (hs := rfl)⟩
  | reqBaseSend => exact ⟨_, rfl, leaves_reqBaseSend (.refl _ _) (hs := rfl)⟩
  | mirrorFillDone => exact ⟨_, rfl, leaves_mirrorFillDone (.refl _ _) (hs := rfl)⟩
  | ochreTestRun _ _ _ => exact ⟨_, rfl, leaves_ochreTest (.refl _ _) (hs := rfl) ..⟩
  | rxDmaDeliver _ _ => exact ⟨_, rfl, leaves_rxDeliver (.refl _ _) (hs := rfl) ..⟩
  | rxStallTimeout _ => exact ⟨_, rfl, leaves_rxStall (.refl _ _) (hs := rfl) ..⟩
  | txRingFetch _ _ _ => exact ⟨_, rfl, leaves_txFetch (.refl _ _) (hs := rfl) ..⟩
  | eventPost => exact ⟨_, rfl, leaves_postEvent (.refl _ _) (hs := rfl)⟩
  | msixModerationEnd _ => exact ⟨_, rfl, leaves_ite (leaves_ite (leaves_emit (leaves_setRing (.refl _ _) (hs :=
      rfl) ..) (hs := rfl) ..) (leaves_setRing (.refl _ _) (hs := rfl) ..)) (.refl _ _)⟩
  | taskSubmit _ _ => exact exec_taskSubmit_leaves ..
  | taskReady _ _ =>
    refine ⟨_, rfl, ?_⟩
    dsimp only
    split
    · exact leaves_ite (leaves_serveWaiting (leaves_setResult (leaves_makeReady (.refl _ _) (hs := rfl) ..) (hs :=
        rfl) ..) (hs := rfl)) (leaves_setResult (.refl _ _) (hs := rfl) ..)
    · exact leaves_setResult (.refl _ _) (hs := rfl) ..
  | taskCancel _ _ =>
    refine ⟨_, rfl, ?_⟩
    dsimp only
    split
    · exact leaves_ite (leaves_setResult (.refl _ _) (hs := rfl) ..) (leaves_bump (leaves_cplTo (leaves_setResult
        (leaves_freeSlot (.refl _ _) (hs := rfl) ..) (hs := rfl) ..) (hs := rfl) ..) (hs := rfl) ..)
    · exact leaves_setResult (.refl _ _) (hs := rfl) ..
  | taskTake _ =>
    refine ⟨_, rfl, ?_⟩
    dsimp only
    split
    · exact leaves_dispatchTo (.refl _ _) _ (hs := rfl) _ ‹_›
    · exact leaves_setCorePort (.refl _ _) (hs := rfl) ..
  | taskTakeTimeout _ => exact ⟨_, rfl, leaves_ite (.refl _ _) (leaves_endTake (.refl _ _) (hs := rfl) ..)⟩
  | taskDone _ _ _ =>
    refine ⟨_, rfl, ?_⟩
    dsimp only
    split
    · exact leaves_ite (leaves_cplTo (leaves_freeSlot (.refl _ _) (hs := rfl) ..) (hs := rfl) ..) (leaves_emit
        (.refl _ _) (hs := rfl) ..)
    · exact leaves_emit (.refl _ _) (hs := rfl) ..
  | taskCplRead _ =>
    refine ⟨_, rfl, ?_⟩
    dsimp only
    split
    · exact leaves_emit (.refl _ _) (hs := rfl) ..
    · exact leaves_emit (leaves_setCorePort (.refl _ _) (hs := rfl) ..) (hs := rfl) ..
  | taskWatchdogExpiry _ => exact ⟨_, rfl, leaves_ite (leaves_bump (leaves_cplTo (leaves_freeSlot (.refl _ _) (hs :=
      rfl) ..) (hs := rfl) ..) (hs := rfl) ..) (.refl _ _)⟩
  | backgroundTableWork => exact ⟨_, rfl, leaves_background (.refl _ _) (hs := rfl)⟩
  | verdigrisCompare => exact ⟨_, rfl, leaves_verdigris (.refl _ _) (hs := rfl)⟩
  | patrolScrub => exact ⟨_, rfl, .refl _ _⟩
  | eccCorrectable _ _ => exact ⟨_, rfl, leaves_bump (.refl _ _) (hs := rfl) ..⟩
  | eccUncorrectable _ _ => exact ⟨_, rfl, leaves_eccUncorrectable (.refl _ _) (hs := rfl) ..⟩
  | crossingParityError _ => exact ⟨_, rfl, leaves_crossingParity (.refl _ _) (hs := rfl) ..⟩
  | trngHealthFail => exact ⟨_, rfl, leaves_ite (leaves_raise (leaves_sec (.refl _ _) _ rfl) (hs := rfl) ..)
      (leaves_sec (.refl _ _) _ rfl)⟩
  | consoleFrameRx _ _ => exact ⟨_, rfl, leaves_consoleRx (.refl _ _) (hs := rfl) ..⟩
  | bootNoneReport => exact ⟨_, rfl, leaves_ite (leaves_emit (.refl _ _) (hs := rfl) ..) (.refl _ _)⟩
  | ddrTrainFailReport => exact ⟨_, rfl, leaves_ite (leaves_emit (.refl _ _) (hs := rfl) ..) (.refl _ _)⟩
  | smbusBlockRead _ => exact ⟨_, rfl, leaves_smbusAnswer (.refl _ _) (hs := rfl) ..⟩
  | smbusWrite => exact ⟨_, rfl, leaves_smbusAnswer (.refl _ _) (hs := rfl) ..⟩
  | smbusAlertResponse => exact ⟨_, rfl, leaves_smbusAnswer (.refl _ _) (hs := rfl) ..⟩
  | txGrant _ _ => exact ⟨_, rfl, leaves_after (leaves_grant (.refl _ _) (hs := rfl) ..) (hs := rfl)⟩
  | txRampUp _ => exact ⟨_, rfl, leaves_rampUp (.refl _ _) (hs := rfl) ..⟩
  | txEnd _ => exact ⟨_, rfl, leaves_after (leaves_txEnd (.refl _ _) (hs := rfl) ..) (hs := rfl)⟩
  | ackTxStart _ => exact ⟨_, rfl, leaves_ite (leaves_after (leaves_decideS (.refl _ _) (hs := rfl) ..) (hs := rfl))
      (.refl _ _)⟩
  | lateLockTimeout _ => exact ⟨_, rfl, leaves_after (leaves_lateLock (.refl _ _) (hs := rfl) ..) (hs := rfl)⟩
  | ownWaitDeadline => exact ⟨_, rfl, leaves_ownWaitDeadline (.refl _ _) (hs := rfl)⟩
  | trngHealthPass =>
    refine ⟨_, rfl, ?_⟩
    dsimp only
    split
    · exact leaves_ite (leaves_elec (leaves_sec (.refl _ _) _ rfl) _ rfl) (leaves_bootFrom (leaves_elec (leaves_sec
        (.refl _ _) _ rfl) _ rfl) (hs := rfl) ..)
    · exact leaves_elec (leaves_sec (.refl _ _) _ rfl) _ rfl
  | keySlotReload _ => exact ⟨_, rfl, leaves_keyReload (.refl _ _) (hs := rfl) ..⟩
  | ptpMessageSend _ => exact ⟨_, rfl, leaves_ptpSend (.refl _ _) (hs := rfl) ..⟩
  | ppsOutPulseEnd => exact ⟨_, rfl, leaves_time (.refl _ _) _ rfl⟩
  | coreMemoryAccess _ _ _ _ _ _ => exact ⟨_, rfl, leaves_coreAccess (.refl _ _) (hs := rfl) ..⟩
  | coreInterruptPending _ => exact ⟨_, rfl, leaves_endTake (.refl _ _) (hs := rfl) ..⟩
  | thermalWarning _ => exact ⟨_, rfl, leaves_thermal (.refl _ _) (hs := rfl) ..⟩
  | cmdUnknownOpcode _ _ => exact ⟨_, rfl, leaves_cmdUnknown (.refl _ _) (hs := rfl) ..⟩

/-! ### The invariants of every step -/

/-- A command that goes to a state answers that state alone. -/
theorem dev_of_next {s t : State} {d : Dev} {o : Host.Outcome State Fault Refusal} (he : o = .next (s.goes d)) (ht : o = .next t) :
    t = s.goes d := Host.Outcome.next.inj (ht.symm.trans he)

/-- Settles O7: by the law of every command that is no reset, and a reset keeps one-time-programmable storage. -/
theorem oneTimeProgrammableStorageOnlyGrows : Obligations.OneTimeProgrammableStorageOnlyGrows := by
  unfold Obligations.OneTimeProgrammableStorageOnlyGrows
  intro c s t ht
  by_cases hc : isReset c
  case pos =>
    obtain ⟨d, he, hotp, -⟩ := exec_reset hc s
    rw [dev_of_next he ht, State.goes_dev, hotp]
    exact (Keeps.refl s.dev).otp
  case neg =>
    obtain ⟨d, he, hk⟩ := exec_keeps c hc s
    rw [dev_of_next he ht]
    exact hk.otp

/-- Without a waiting command a step keeps what `Dev.Keeps` names too. -/
theorem step_idle_keeps {s : State} (hs : s.pending = []) : ∃ d, step s = .next (s.goes d) ∧ s.fresh.Keeps d := by
  obtain ⟨dev, pending⟩ := s
  subst hs
  exact ⟨_, rfl, keeps_tickClock (.refl _)⟩

/-- Settles O5: an idle step and every command but a reset keep both within their sizes, and a reset empties them. -/
theorem everyStepKeepsLogAndStagingWithinBounds : Obligations.EveryStepKeepsLogAndStagingWithinBounds := by
  unfold Obligations.EveryStepKeepsLogAndStagingWithinBounds
  intro s t hvio hev ht
  cases hp : s.pending with
  | nil =>
    obtain ⟨d, he, hk⟩ := step_idle_keeps hp
    rw [dev_of_next he ht]
    exact ⟨hk.vio hvio, hk.ev hev⟩
  | cons c rest =>
    have hstep : step s = exec c { s with pending := rest } := by rw [step, hp]
    rw [hstep] at ht
    by_cases hc : isReset c
    case pos =>
      obtain ⟨d, he, -, hv, hd⟩ := exec_reset hc { s with pending := rest }
      rw [dev_of_next he ht, State.goes_dev, hv, hd]
      exact ⟨⟨Nat.zero_le _, nofun⟩, Nat.zero_le _⟩
    case neg =>
      obtain ⟨d, he, hk⟩ := exec_keeps c hc { s with pending := rest }
      rw [dev_of_next he ht]
      exact ⟨hk.vio hvio, hk.ev hev⟩

/-- Settles O6: no command but a reset, and no idle step, changes a fatal fault that stands. -/
theorem fatalFaultStaysUntilReset : Obligations.FatalFaultStaysUntilReset := by
  unfold Obligations.FatalFaultStaysUntilReset
  refine ⟨fun c s t hsys hsupply hthermal ht hfatal => ?_, fun s t hs ht hfatal => ?_⟩
  case refine_1 =>
    have hc : ¬ isReset c := by
      rintro (h | ⟨r, h⟩ | h)
      · exact hsys h
      · exact hsupply r h
      · exact hthermal h
    obtain ⟨d, he, hk⟩ := exec_keeps c hc s
    rw [dev_of_next he ht, State.goes_dev, hk.flt hfatal]
    exact ⟨hfatal, rfl⟩
  case refine_2 =>
    obtain ⟨d, he, hk⟩ := step_idle_keeps hs
    rw [dev_of_next he ht]
    exact hk.flt hfatal

/-- Every command may leave outputs. -/
theorem touches_out (c : Instr) : (touches c).contains .out = true := by cases c <;> rfl

/-- Settles O25, by the frame of every command. -/
theorem everyCommandLeavesTheOtherUnitsAlone : Obligations.EveryCommandLeavesTheOtherUnitsAlone := by
  unfold Obligations.EveryCommandLeavesTheOtherUnitsAlone
  intro c s t ht
  obtain ⟨d, he, hl⟩ := exec_leaves c s
  rw [dev_of_next he ht]
  exact ⟨rfl, State.sameBut_of_leaves (touches_out c) hl⟩

/-- Settles O3: the front command runs by the definition of a step, and every command answers a next state. -/
theorem stepRunsTheFrontCommand : Obligations.StepRunsTheFrontCommand := by
  unfold Obligations.StepRunsTheFrontCommand
  refine fun c s rest => ⟨rfl, ?_⟩
  obtain ⟨d, he, -⟩ := exec_leaves c s
  exact ⟨_, he, rfl⟩

end Sys2Proof.Machine
end

section
/-! PROOFS. Resets, boot, the OWN keeper and errors in storage (R413 to R415, R547 to R550, R587 to R590, R598, R599, R611). -/

namespace Sys2Proof.Machine

open Dev

/-- Settles O2, on the reset state itself. -/
theorem resetFits : Obligations.ResetFits := by
  unfold Obligations.ResetFits
  exact ⟨⟨Nat.zero_le _, nofun⟩, Nat.zero_le _, rfl, reset_memory_wf⟩

/-- Settles O8: each meaning resets every unit, by its definition. -/
theorem resetsLeaveOnlyWhatSurvives : Obligations.ResetsLeaveOnlyWhatSurvives := by
  unfold Obligations.ResetsLeaveOnlyWhatSurvives
  exact fun s => ⟨rfl, fun _ => rfl, rfl, rfl, rfl⟩

theorem exec_eccCorrectable (s : State) (o : Occupant) (i : W32) :
    exec (.eccCorrectable o i) s = .next (s.goes (s.fresh.bump Cnt.ECC_CE)) := rfl

/-- Settles O11: a patrol read and the test reset change nothing, and a correction is one count. -/
theorem scrubAndCorrectableErrorsAreTransparent : Obligations.ScrubAndCorrectableErrorsAreTransparent := by
  unfold Obligations.ScrubAndCorrectableErrorsAreTransparent
  refine fun s => ⟨rfl, fun o i => ⟨exec_eccCorrectable s o i, fun hmax t ht => ?_⟩, rfl⟩
  rw [dev_of_next (exec_eccCorrectable s o i) ht, State.goes_dev, count_bump_wide _ _ _ rfl, State.fresh_count]
  omega

/-! ### The transmit gate and OWN -/

namespace Dev

@[simp] theorem gateClose_pair (d : Dev) : d.gateClose.pair = { d.pair with gateOpen := false } := by
  unfold gateClose
  split
  case isTrue h => rw [← Bool.not_eq_true _ |>.mp h]
  case isFalse =>
    exact ((leaves_each (us := [.out, .freeCtr, .cnt, .ev, .host, .ports, .cin, .lanes, .txc, .duty, .air, .tm, .links])
      (.refl _ _) _ _ fun x n h => leaves_refreshFem (leaves_fall h (hs := rfl) ..) (hs := rfl) ..).same .pair rfl).symm

@[simp] theorem gateOpens_pair (d : Dev) : d.gateOpens.pair = { d.pair with gateOpen := true } := by
  unfold gateOpens
  split
  case isTrue h => rw [← h]
  case isFalse =>
    exact ((leaves_each (us := [.freeCtr, .cnt, .ev, .ports, .lanes, .txc, .tm]) (.refl _ _) _ _
      fun x n h => leaves_portStart (leaves_refreshFem h (hs := rfl) ..) (hs := rfl) ..).same .pair rfl).symm

theorem releaseOwn_pair (d : Dev) :
    d.releaseOwn.pair = { d.pair with ownOut := false, contention := false, gateOpen := false } := by
  unfold releaseOwn
  rw [← (leaves_each (us := [.seqs]) (.refl _ _) _ _ fun x n h => leaves_modSeq h (hs := rfl) ..).same .pair rfl, gateClose_pair]

@[simp] theorem alertFrom_pair (d : Dev) (b : Bool) : (d.alertFrom b).pair = d.pair :=
  ((leaves_alertFrom (us := [.out]) (.refl _ d) b (hs := rfl)).same .pair rfl).symm

@[simp] theorem alertFrom_flt (d : Dev) (b : Bool) : (d.alertFrom b).flt = d.flt :=
  ((leaves_alertFrom (us := [.out]) (.refl _ d) b (hs := rfl)).same .flt rfl).symm

theorem fatalFault_of_fatal {d : Dev} (h : d.flt.fatal = true) (cause : Nat) : d.fatalFault cause = d := by
  simp [fatalFault, h]

/-- The first fatal fault sets FATAL with its cause and releases OWN (R590, R548). -/
theorem fatalFault_first {d : Dev} (h : d.flt.fatal = false) (cause : Nat) :
    (d.fatalFault cause).flt = ⟨true, cause⟩ ∧ (d.fatalFault cause).pair.ownOut = false ∧
      (d.fatalFault cause).pair.gateOpen = false := by
  have hflt : ({ d with flt := ⟨true, cause⟩ } : Dev).releaseOwn.flt = ⟨true, cause⟩ :=
    ((leaves_releaseOwn (us := [.out, .freeCtr, .cnt, .ev, .host, .ports, .cin, .lanes, .txc, .duty, .air, .seqs, .tm, .pair, .links])
      (.refl _ { d with flt := ⟨true, cause⟩ }) (hs := rfl)).same .flt rfl).symm
  simp [fatalFault, h, hflt, releaseOwn_pair]

theorem leaves_fatalFault_touched (d : Dev) (cause : Nat) : Leaves (touches .clockLoss) d (d.fatalFault cause) :=
  leaves_fatalFault (.refl _ d) (hs := rfl) ..

end Dev

theorem exec_clockLoss (s : State) : exec .clockLoss s = .next (s.goes (s.fresh.fatalFault 4)) := rfl

theorem exec_crossingParityError {x : CrossItem} (h : x ≠ .frame) (s : State) :
    exec (.crossingParityError x) s = .next (s.goes (s.fresh.fatalFault 3)) := by
  cases x
  case frame => exact absurd rfl h
  all_goals rfl

/-- Settles O10: a fatal fault's law, for either cause. -/
theorem fatalCausesSetFatalAndReleaseOwn : Obligations.FatalCausesSetFatalAndReleaseOwn := by
  unfold Obligations.FatalCausesSetFatalAndReleaseOwn
  refine fun s => ⟨fun hf => ⟨?_, fun x hx => ?_⟩, fun hf => ⟨?_, fun x hx => ?_⟩, rfl⟩
  case refine_1 =>
    obtain ⟨hflt, hown, hgate⟩ := fatalFault_first (d := s.fresh) hf 4
    have hl := leaves_fatalFault_touched s.fresh 4
    exact ⟨_, exec_clockLoss s, hflt, hown, hgate, (hl.same .cfg rfl).symm, (hl.same .time rfl).symm⟩
  case refine_2 =>
    obtain ⟨hflt, hown, hgate⟩ := fatalFault_first (d := s.fresh) hf 3
    exact ⟨_, exec_crossingParityError hx s, hflt, hown, hgate, ((leaves_fatalFault_touched s.fresh 3).same .cfg rfl).symm⟩
  case refine_3 => rw [exec_clockLoss, fatalFault_of_fatal (d := s.fresh) hf]
  case refine_4 => rw [exec_crossingParityError hx, fatalFault_of_fatal (d := s.fresh) hf]

/-! ### OWN_IN -/

namespace Dev

theorem enterResync_redund (d : Dev) : d.enterResync.modes.redund = .resync := by
  unfold enterResync setRedund
  dsimp only
  split
  case isTrue h => exact h
  case isFalse => rw [raise_modes]; split <;> rfl

theorem enterResync_bootWait (d : Dev) : d.enterResync.pair.bootWait = false := by
  unfold enterResync setRedund
  dsimp only
  split
  case isTrue => rfl
  case isFalse => rw [raise_pair]; split <;> rfl

@[simp] theorem contentionLog_pair (d : Dev) : d.contentionLog.pair = d.pair := by
  unfold contentionLog
  split
  · exact violate_pair ..
  · rfl

/-- Where both devices hold OWN, the gate closes and the contention stands (R550). -/
theorem ownInAssert_contention {d : Dev} (hin : d.pair.ownIn = false) (hout : d.pair.ownOut = true) (hwait : d.pair.bootWait = false) :
    d.ownInAssert.pair.ownIn = true ∧ d.ownInAssert.pair.gateOpen = false ∧ d.ownInAssert.pair.contention = true ∧
      d.ownInAssert.pair.ownOut = true := by
  unfold ownInAssert
  dsimp only
  simp only [hin, hout, hwait, Bool.false_eq_true, if_false, if_true]
  split
  · simp
  · simp

/-- A contention changes no mode and no setting. -/
theorem leaves_ownInAssert_contention {d : Dev} (hin : d.pair.ownIn = false) (hout : d.pair.ownOut = true)
    (hwait : d.pair.bootWait = false) :
    Leaves [.out, .freeCtr, .cnt, .vio, .ev, .host, .ports, .cin, .lanes, .txc, .duty, .air, .tm, .pair, .links] d d.ownInAssert := by
  unfold ownInAssert
  dsimp only
  simp only [hin, hout, hwait, Bool.false_eq_true, if_false, if_true]
  refine leaves_ite (leaves_raise ?_ (hs := rfl) ..) ?_
  all_goals
    exact leaves_contentionLog (leaves_pair (leaves_bump (leaves_gateClose (leaves_pair (.refl _ d) _ rfl) (hs := rfl))
      Cnt.OWN_CONTENTION 1 (hs := rfl)) _ rfl) (hs := rfl)

theorem ownInAssert_waiting {d : Dev} (hin : d.pair.ownIn = false) (hwait : d.pair.bootWait = true) :
    d.ownInAssert = ({ d with pair := { d.pair with ownIn := true } }).enterResync := by
  simp [ownInAssert, hin, hwait]

theorem ownInAssert_alone {d : Dev} (hin : d.pair.ownIn = false) (hout : d.pair.ownOut = false) (hwait : d.pair.bootWait = false) :
    d.ownInAssert = { d with pair := { d.pair with ownIn := true } } := by
  simp [ownInAssert, hin, hout, hwait]

theorem ownInAssert_held {d : Dev} (hin : d.pair.ownIn = true) : d.ownInAssert = d := by simp [ownInAssert, hin]

theorem ownInRelease_released {d : Dev} (hin : d.pair.ownIn = false) : d.ownInRelease = d := by simp [ownInRelease, hin]

/-- A release of OWN_IN ends the contention, and opens the gate where OWN_OUT holds it and no fatal fault stands (R547). -/
theorem ownInRelease_held {d : Dev} (hin : d.pair.ownIn = true) :
    d.ownInRelease.pair.ownIn = false ∧ d.ownInRelease.pair.contention = false ∧
      (d.pair.ownOut = true → d.flt.fatal = false → d.ownInRelease.pair.gateOpen = true) := by
  unfold ownInRelease
  dsimp only
  rw [if_neg (by simp [hin])]
  split
  case isTrue => simp
  case isFalse h =>
    refine ⟨rfl, rfl, fun hout hfatal => absurd ?_ h⟩
    simp [gateWanted, hout, hfatal]

end Dev

theorem exec_ownInAssert (s : State) : exec .ownInAssert s = .next (s.goes s.fresh.ownInAssert) := rfl

theorem exec_ownInRelease (s : State) : exec .ownInRelease s = .next (s.goes s.fresh.ownInRelease) := rfl

/-- Settles O15, by what each edge does with OWN held or not. -/
theorem ownContentionClosesTheGate : Obligations.OwnContentionClosesTheGate := by
  unfold Obligations.OwnContentionClosesTheGate
  intro s
  refine ⟨fun hin hout hwait => ?contends, fun hin hout hwait => ?alone, fun hin hwait => ?waits, fun hin => ⟨?asserted, ?released⟩,
    fun hin => ?still⟩
  case contends =>
    obtain ⟨hi, hg, hc, ho⟩ := ownInAssert_contention (d := s.fresh) hin hout hwait
    have hl := leaves_ownInAssert_contention (d := s.fresh) hin hout hwait
    exact ⟨_, exec_ownInAssert s, hi, hg, hc, ho, (hl.same .modes rfl).symm, (hl.same .cfg rfl).symm⟩
  case alone => rw [exec_ownInAssert, ownInAssert_alone (d := s.fresh) hin hout hwait, State.fresh_pair]
  case waits =>
    refine ⟨_, exec_ownInAssert s, ?_⟩
    rw [State.goes_dev, ownInAssert_waiting (d := s.fresh) hin hwait]
    exact ⟨enterResync_redund _, enterResync_bootWait _⟩
  case asserted => rw [exec_ownInAssert, ownInAssert_held (d := s.fresh) hin]
  case released =>
    obtain ⟨hi, hc, hg⟩ := ownInRelease_held (d := s.fresh) hin
    have hl : Leaves (touches .ownInRelease) s.fresh s.fresh.ownInRelease := leaves_ownInRelease (.refl _ _) (hs := rfl)
    exact ⟨_, exec_ownInRelease s, hi, hc, (hl.same .modes rfl).symm, (hl.same .cfg rfl).symm, hg⟩
  case still => rw [exec_ownInRelease, ownInRelease_released (d := s.fresh) hin]

/-! ### Boot -/

namespace Dev

/-- The image of boot flash region A or B, as R410 places them. -/
def imageA (b : BootFacts) : List Byte := flashImage b.flash flashBootA bootSize
def imageB (b : BootFacts) : List Byte := flashImage b.flash flashBootB bootSize

/-- A boot image verifies under the keys and the version floor of one-time-programmable storage (R412). -/
def imageOk (d : Dev) (img : List Byte) : Bool := imageVerifies true bootSize d.otp.vendorEc d.otp.vendorMl d.otp.secMin img

/-- Image A is the one to boot (R414): it verifies, and B does not or is no newer. -/
def firstImage (d : Dev) (b : BootFacts) : Bool :=
  d.imageOk (imageA b) && !(d.imageOk (imageB b) && decide (fld (imageA b) 12 4 < fld (imageB b) 12 4))

/-- The steps of R413 after the image is selected: the keystore record, the provisioning block, the limits and the seeds. -/
def bootSettled (d : Dev) (prov : List Byte) : Dev := ((d.selectKeystore).checkProvisioning prov).loadCinnabar.drawSeeds

theorem selectKeystore_sec (d : Dev) : ∃ slot keys, d.selectKeystore.sec = { d.sec with ksSlot := slot, keys := keys } := by
  unfold selectKeystore
  dsimp only
  split
  · exact ⟨_, _, rfl⟩
  · exact ⟨_, _, raise_sec ..⟩

theorem checkProvisioning_sec (d : Dev) (x : List Byte) :
    (d.checkProvisioning x).sec.lc = d.sec.lc ∧ (d.checkProvisioning x).sec.bootSlot = d.sec.bootSlot ∧
      (d.checkProvisioning x).sec.running = d.sec.running ∧ (d.checkProvisioning x).modes.inReset = d.modes.inReset := by
  unfold checkProvisioning
  dsimp only
  split
  case h_1 => exact ⟨rfl, rfl, rfl, rfl⟩
  case h_2 =>
    split
    · exact ⟨rfl, rfl, rfl, rfl⟩
    · exact ⟨rfl, rfl, rfl, rfl⟩

/-- They change neither the life cycle nor the selection, and leave the reset ended. -/
theorem bootSettled_keeps (d : Dev) (prov : List Byte) :
    (d.bootSettled prov).sec.lc = d.sec.lc ∧ (d.bootSettled prov).sec.bootSlot = d.sec.bootSlot ∧
      (d.bootSettled prov).sec.running = d.sec.running ∧ (d.bootSettled prov).modes.inReset = d.modes.inReset ∧
      (d.bootSettled prov).elec = d.elec := by
  have hend : Leaves [.freeCtr, .cin, .air, .tbl] (d.selectKeystore.checkProvisioning prov) (d.bootSettled prov) :=
    leaves_drawSeeds (leaves_loadCinnabar (.refl _ _) (hs := rfl)) (hs := rfl)
  have hall : Leaves [.freeCtr, .modes, .cnt, .ev, .cin, .air, .tbl, .sec] d (d.bootSettled prov) :=
    leaves_drawSeeds (leaves_loadCinnabar (leaves_checkProvisioning (leaves_selectKeystore (.refl _ d) (hs := rfl)) _ (hs := rfl))
      (hs := rfl)) (hs := rfl)
  have hks : Leaves [.cnt, .ev, .sec] d d.selectKeystore := leaves_selectKeystore (.refl _ d) (hs := rfl)
  have hsec := hend.same .sec rfl
  have hmodes := hend.same .modes rfl
  obtain ⟨slot, keys, hkeys⟩ := d.selectKeystore_sec
  obtain ⟨hlc, hslot, hrun, hreset⟩ := d.selectKeystore.checkProvisioning_sec prov
  rw [← hsec, ← hmodes, hlc, hslot, hrun, hreset, hkeys]
  exact ⟨rfl, rfl, rfl, congrArg Modes.inReset (hks.same .modes rfl).symm, (hall.same .elec rfl).symm⟩

theorem bootImages_none {d : Dev} {b : BootFacts} (hA : d.imageOk (imageA b) = false) (hB : d.imageOk (imageB b) = false) :
    d.bootImages b = { d with elec := { d.elec with bootNone := true } } := by
  unfold imageOk imageA at hA
  unfold imageOk imageB at hB
  unfold bootImages
  simp [hA, hB]

theorem firstImage_iff (d : Dev) (b : BootFacts) : d.firstImage b = true ↔
    d.imageOk (imageA b) = true ∧ ¬ (d.imageOk (imageB b) = true ∧ fld (imageA b) 12 4 < fld (imageB b) 12 4) := by
  unfold firstImage
  cases d.imageOk (imageB b) <;> simp

/-- Where an image verifies, the newer one that does is selected (R414), before the remaining steps run. -/
theorem bootImages_selects {d : Dev} {b : BootFacts} (h : (d.imageOk (imageA b) || d.imageOk (imageB b)) = true) :
    ∃ (e : Dev) (prov : List Byte), d.bootImages b = { e.bootSettled prov with
        elec := { (e.bootSettled prov).elec with
          booted := true, entry := fld (if d.firstImage b = true then imageA b else imageB b) 16 4 }
        pair := { (e.bootSettled prov).pair with side := b.pairSide } } ∧
      e.sec.lc = d.sec.lc ∧ e.sec.bootSlot = (if d.firstImage b = true then 0 else 1) ∧
      e.sec.running = (if d.firstImage b = true then fld (imageA b) 12 4 else fld (imageB b) 12 4) ∧ e.modes = d.modes ∧ e.elec = d.elec := by
  simp only [firstImage_iff]
  unfold imageOk imageA imageB at h ⊢
  unfold bootImages
  dsimp only
  rw [if_neg (by simpa [or_iff_not_imp_left] using h)]
  refine ⟨_, _, rfl, ?_⟩
  split
  · simp
  · simp

/-- Booting an image keeps its slot, version and ENTRY, and the strap. -/
theorem bootImages_some {d : Dev} {b : BootFacts} (h : (d.imageOk (imageA b) || d.imageOk (imageB b)) = true) :
    (d.bootImages b).elec = { d.elec with
      booted := true, entry := fld (if d.firstImage b = true then imageA b else imageB b) 16 4 } ∧
    (d.bootImages b).sec.lc = d.sec.lc ∧ (d.bootImages b).sec.bootSlot = (if d.firstImage b = true then 0 else 1) ∧
    (d.bootImages b).sec.running = fld (if d.firstImage b = true then imageA b else imageB b) 12 4 ∧
    (d.bootImages b).modes.inReset = d.modes.inReset ∧ (d.bootImages b).pair.side = b.pairSide := by
  obtain ⟨e, prov, he, hlc, hslot, hrun, hmodes, helec⟩ := bootImages_selects h
  obtain ⟨klc, kslot, krun, kreset, kelec⟩ := e.bootSettled_keeps prov
  rw [he]
  refine ⟨?_, klc.trans hlc, kslot.trans hslot, ?_, kreset.trans (by rw [hmodes]), rfl⟩
  · rw [kelec, helec]
  · rw [krun, hrun, apply_ite (fun img => fld img 12 4)]

/-- What holds the device in reset is over, and no boot was made. -/
def atBoot (d : Dev) : Prop :=
  d.heldReset = false ∧ d.elec.booted = false ∧ d.elec.bootNone = false ∧ d.elec.ddrFail = false ∧ d.elec.heldBoot = none

/-- The straps are sampled (R604), and the running life cycle is that of one-time-programmable storage. -/
def strapped (d : Dev) (b : BootFacts) : Dev := { d with
  modes := { d.modes with inReset := false }
  elec := { d.elec with chipId := b.chipId.toNat, octal := b.bootOctal, testEn := b.testEn }
  pair := { d.pair with side := b.pairSide }
  sec := { d.sec with lc := d.otp.lc } }

/-- LPDDR is trained, or found unfit (R35). -/
def trainedDdr (d : Dev) (b : BootFacts) : Dev :=
  { d with elec := { d.elec with dens0 := b.dens0.val, dens1 := b.dens1.val, trained := ddrOk b } }

section BootFrom
variable {d : Dev} {b : BootFacts}

theorem bootFrom_test (ht : b.testEn = true) : d.bootFrom b = d.strapped b := by
  unfold bootFrom strapped; simp [ht]

theorem bootFrom_random (ht : b.testEn = false) (hr : b.trngOk = false) : d.bootFrom b =
    ({ d.strapped b with
      sec := { (d.strapped b).sec with trngFail := true, trngEvt := true }
      elec := { (d.strapped b).elec with heldBoot := some b } }).raise .EVT_TRNG_FAIL [] := by
  unfold bootFrom strapped; simp [ht, hr]

theorem bootFrom_unfit (ht : b.testEn = false) (hr : b.trngOk = true) (hd : ddrOk b = false) : d.bootFrom b =
    { (d.strapped b).trainedDdr b with elec := { ((d.strapped b).trainedDdr b).elec with ddrFail := true } } := by
  unfold bootFrom trainedDdr strapped; simp [ht, hr, hd]

theorem bootFrom_fit (ht : b.testEn = false) (hr : b.trngOk = true) (hd : ddrOk b = true) :
    d.bootFrom b = ((d.strapped b).trainedDdr b).bootImages b := by
  unfold bootFrom trainedDdr strapped; simp [ht, hr, hd]

end BootFrom

/-- The boot of R413, in each of its outcomes. -/
theorem bootFrom_bootsTo {a d : Dev} (ho : d.otp = a.otp) (h : d.atBoot) (b : BootFacts) : a.bootsTo b (d.bootFrom b) := by
  obtain ⟨hheld, hbooted, hnone, hddr, hboot⟩ := h
  have hotp : (d.bootFrom b).otp = a.otp := by
    rw [← ho]
    exact ((leaves_bootFrom (us := [.freeCtr, .modes, .cnt, .ev, .cin, .air, .tbl, .pair, .elec, .sec]) (.refl _ d) b
      (hs := rfl)).same .otp rfl).symm
  unfold bootsTo
  dsimp only
  cases ht : b.testEn
  case true =>
    rw [bootFrom_test ht] at hotp ⊢
    exact ⟨hheld, rfl, rfl, rfl, ht, rfl, hotp, congrArg Otp.lc ho, by rw [if_pos rfl]; exact ⟨hbooted, hboot⟩⟩
  case false =>
    rw [if_neg Bool.false_ne_true]
    cases hr : b.trngOk
    case false =>
      rw [bootFrom_random ht hr] at hotp ⊢
      rw [if_pos rfl]
      simp only [raise_elec, raise_modes, raise_pair, raise_sec, heldReset] at hheld ⊢
      exact ⟨hheld, rfl, rfl, rfl, ht, rfl, hotp, congrArg Otp.lc ho, hbooted, trivial, trivial⟩
    case true =>
      rw [if_neg (by simp)]
      cases hd : ddrOk b
      case false =>
        rw [bootFrom_unfit ht hr hd] at hotp ⊢
        exact ⟨hheld, rfl, rfl, rfl, ht, rfl, hotp, congrArg Otp.lc ho, hboot, hd, rfl, hnone, hbooted,
          fun h => absurd (hbooted.symm.trans h) Bool.false_ne_true⟩
      case true =>
        rw [bootFrom_fit ht hr hd] at hotp ⊢
        cases himg : ((d.strapped b).trainedDdr b).imageOk (imageA b) || ((d.strapped b).trainedDdr b).imageOk (imageB b)
        case false =>
          obtain ⟨hA, hB⟩ := Bool.or_eq_false_iff.mp himg
          rw [bootImages_none hA hB] at hotp ⊢
          simp only [imageOk, imageA, imageB, show ((d.strapped b).trainedDdr b).otp = a.otp from ho] at himg
          simp only [himg]
          exact ⟨hheld, rfl, rfl, rfl, ht, rfl, hotp, congrArg Otp.lc ho, hboot, hd, hddr, rfl, hbooted,
            fun h => absurd (hbooted.symm.trans h) Bool.false_ne_true⟩
        case true =>
          obtain ⟨helec, hlc, hslot, hrun, hreset, hside⟩ := bootImages_some himg
          simp only [firstImage, imageOk, imageA, imageB, show ((d.strapped b).trainedDdr b).otp = a.otp from ho] at himg helec hslot hrun
          simp only [heldReset, helec, hlc, hslot, hrun, hreset, hside, himg]
          exact ⟨hheld, rfl, rfl, rfl, ht, trivial, hotp, congrArg Otp.lc ho, hboot, hd, hddr, hnone, rfl,
            fun _ => ⟨rfl, rfl, rfl⟩⟩

theorem leaveReset_boots {d : Dev} {b : BootFacts} (h : d.atBoot) (ht : d.elec.testEn = false) :
    d.leaveReset b = d.bootFrom b := by
  obtain ⟨hheld, hbooted, hnone, hddr, hboot⟩ := h
  simp [leaveReset, hheld, hbooted, hnone, hddr, hboot, ht]

theorem leaveReset_stays {d : Dev} (b : BootFacts) (h : d.heldReset = true ∨ d.elec.booted = true ∨ d.elec.bootNone = true ∨
    d.elec.ddrFail = true ∨ d.elec.testEn = true ∨ d.elec.heldBoot.isSome = true) : d.leaveReset b = d := if_pos h

end Dev

theorem exec_sysRstRelease (s : State) (b : BootFacts) : exec (.sysRstRelease b) s =
    .next (s.goes (({ s.fresh with elec := { s.dev.elec with sysLow := false } }).leaveReset b)) := rfl

/-- A meaning that goes to a state goes to an equal one. -/
theorem goes_congr {o : Host.Outcome State Fault Refusal} {s : State} {x y : Dev} (ho : o = .next (s.goes x)) (h : x = y) :
    o = .next (s.goes y) := h ▸ ho

theorem exec_supplyResetEnd {s : State} (h : s.dev.elec.supplyLow = true) (b : BootFacts) : exec (.supplyResetEnd b) s =
    .next (s.goes (({ s.fresh with elec := { s.dev.elec with supplyLow := false } }).leaveReset b)) :=
  goes_congr rfl (if_pos h)

theorem exec_thermalResetEnd {s : State} (h : s.dev.elec.thermalHeld = true) (b : BootFacts) : exec (.thermalResetEnd b) s =
    .next (s.goes (({ s.fresh with elec := { s.dev.elec with thermalHeld := false } }).leaveReset b)) :=
  goes_congr rfl (if_pos h)

theorem exec_supplyResetEnd_idle {s : State} (h : s.dev.elec.supplyLow = false) (b : BootFacts) :
    exec (.supplyResetEnd b) s = .next (s.goes s.fresh) :=
  goes_congr rfl (if_neg (Bool.not_eq_true _ |>.mpr h))

theorem exec_thermalResetEnd_idle {s : State} (h : s.dev.elec.thermalHeld = false) (b : BootFacts) :
    exec (.thermalResetEnd b) s = .next (s.goes s.fresh) :=
  goes_congr rfl (if_neg (Bool.not_eq_true _ |>.mpr h))

/-- A change of the reset's causes that ends the last one, with no boot made, boots the device. -/
theorem leaveReset_bootsTo {s : State} {e : Elec} (b : BootFacts)
    (hheld : (e.sysLow || e.supplyLow || e.thermalHeld) = false)
    (hfresh : e.booted = false ∧ e.bootNone = false ∧ e.ddrFail = false ∧ e.testEn = false ∧ e.heldBoot = none) :
    s.dev.bootsTo b (({ s.fresh with elec := e }).leaveReset b) := by
  obtain ⟨hbooted, hnone, hddr, htest, hboot⟩ := hfresh
  have h : ({ s.fresh with elec := e } : Dev).atBoot := ⟨hheld, hbooted, hnone, hddr, hboot⟩
  rw [leaveReset_boots h htest]
  exact bootFrom_bootsTo rfl h b

/-- Settles O9: where the last cause ends with no boot made the device boots, and otherwise only the cause ends. -/
theorem endOfResetBootsTheDevice : Obligations.EndOfResetBootsTheDevice := by
  unfold Obligations.EndOfResetBootsTheDevice
  intro s b e fresh made
  refine ⟨fun hf hsup hth => ?sys, fun hf hsup hsys hth => ?supply, fun hf hth hsys hsup => ?thermal, fun h => ?sysStays,
    fun hsup h => ?supplyStays, fun hth h => ?thermalStays, fun h => exec_supplyResetEnd_idle h b,
    fun h => exec_thermalResetEnd_idle h b⟩
  case sys => exact ⟨_, exec_sysRstRelease s b, rfl, leaveReset_bootsTo b (by simp [e] at *; simp [*]) hf⟩
  case supply => exact ⟨_, exec_supplyResetEnd hsup b, rfl, leaveReset_bootsTo b (by simp [e] at *; simp [*]) hf⟩
  case thermal => exact ⟨_, exec_thermalResetEnd hth b, rfl, leaveReset_bootsTo b (by simp [e] at *; simp [*]) hf⟩
  case sysStays =>
    rw [exec_sysRstRelease, leaveReset_stays]
    simpa [heldReset, e, made, or_assoc] using h
  case supplyStays =>
    rw [exec_supplyResetEnd hsup, leaveReset_stays]
    simpa [heldReset, e, made, or_assoc] using h
  case thermalStays =>
    rw [exec_thermalResetEnd hth, leaveReset_stays]
    simpa [heldReset, e, made, or_assoc] using h

end Sys2Proof.Machine
end
section
/-! PROOFS. The violation log (R580 to R585). -/

namespace Sys2Proof.Machine

namespace Dev

/-! ### The epoch that a command's counts and violations belong to -/

@[simp] theorem raiseIn_frame (d : Dev) (o : Option Domain) (c : EvCode) (x : List Byte) :
    (d.raiseIn o c x).cnt.frame = d.cnt.frame := by
  unfold raiseIn
  dsimp only
  split
  · rfl
  · split <;> rfl

@[simp] theorem countLate_frame (d : Dev) (off n : Nat) : (d.countLate off n).cnt.frame = d.cnt.frame := by
  unfold countLate
  split <;> rfl

@[simp] theorem bump_frame (d : Dev) (c : Counter) (n : Nat) : (d.bump c n).cnt.frame = d.cnt.frame := by
  unfold bump
  dsimp only
  split
  case isTrue => exact countLate_frame ..
  case isFalse =>
    split
    · rw [raiseIn_frame]; exact countLate_frame ..
    · exact countLate_frame ..

theorem epochIn_congr {a b : Dev} (hf : a.cnt.frame = b.cnt.frame) (he : a.epoch = b.epoch) (o : Option Domain) :
    a.epochIn o = b.epochIn o := by
  unfold epochIn domainEpoch
  rw [hf, he]

/-! ### Logging -/

section LogEntry
variable {d : Dev} {e : VioEntry}

theorem logEntry_seq (d : Dev) (e : VioEntry) : (d.logEntry e).vio.seq = d.vio.seq := by
  unfold logEntry
  split
  · rfl
  · split
    · rfl
    · rw [raise_vio]

theorem logEntry_log_of_room (ho : d.logOverflowed = false) (hl : d.vio.log.length < 4095) :
    (d.logEntry e).vio.log = d.vio.log ++ [e] := by
  unfold logEntry
  rw [if_neg (by simp [ho]), if_pos (show d.vio.log.length < logCap from hl)]

theorem length_logEntry_of_overflowed (ho : d.logOverflowed = true) : (d.logEntry e).vio.log.length = d.vio.log.length := by
  unfold logEntry
  rw [if_pos ho]
  exact List.length_map ..

theorem count_logEntry {c : Counter} (h : c.off ≠ Cnt.EVT_LOST.off) : (d.logEntry e).count c = d.count c := by
  unfold logEntry
  split
  · rfl
  · split
    · rfl
    · exact count_raiseIn_ne _ _ _ _ _ h

end LogEntry

/-- The state once a violation is counted and numbered, before the log takes it (R580). -/
def violationCounted (d : Dev) (v : Vio) : Dev := (d.bump Cnt.VIO_TOTAL).bump (Cnt.VIO_CNT v.code)

/-- The rate limiter lets a violation of this code be logged now (R581). -/
theorem vioLoggable_iff (d : Dev) (v : Vio) : d.vioLoggable v = true ↔
    v.rateLimited = false ∨ ∀ t, d.vio.lastNs.find v.code = some t → t + 1000000 ≤ d.time.up := by
  unfold vioLoggable
  cases d.vio.lastNs.find v.code <;> simp

/-- A violation that the rate limiter holds back is counted and numbered, and the log stays. -/
theorem violate_limited {d : Dev} {v : Vio} (h : d.vioLoggable v = false) (items : List Byte) :
    (d.violate v items).vio.seq = d.vio.seq + 1 ∧ (d.violate v items).vio.log = d.vio.log ∧
      (d.violate v items).cnt = (d.violationCounted v).cnt := by
  have hl : ({ d.violationCounted v with vio := { (d.violationCounted v).vio with seq := (d.violationCounted v).vio.seq + 1 } } :
      Dev).vioLoggable v = false := by
    rw [← h]; simp [vioLoggable, violationCounted]
  unfold violate
  dsimp only
  rw [if_neg (by rw [Bool.not_eq_true]; exact hl)]
  exact ⟨by simp, by simp, rfl⟩

/-- A violation that may be logged is counted and numbered, and its entry goes to the log (R585). -/
theorem violate_logged {d : Dev} {v : Vio} (h : d.vioLoggable v = true) (items : List Byte) :
    ∃ (x : Dev) (e : VioEntry), d.violate v items = x.logEntry e ∧ x.vio.seq = d.vio.seq + 1 ∧ x.vio.log = d.vio.log ∧
      x.cnt = (d.violationCounted v).cnt ∧ e.code = v.code ∧ e.seq = d.vio.seq ∧ e.epoch = d.epochIn (vioDomain v) ∧
      e.time = d.time.ns ∧ e.detail = items := by
  have hl : ({ d.violationCounted v with vio := { (d.violationCounted v).vio with seq := (d.violationCounted v).vio.seq + 1 } } :
      Dev).vioLoggable v = true := by
    rw [← h]; simp [vioLoggable, violationCounted]
  unfold violate
  dsimp only
  rw [if_pos (by exact hl)]
  refine ⟨_, _, rfl, ?_, ?_, ?_, rfl, by simp, epochIn_congr (by simp) (by simp) _, by simp, rfl⟩
  · split <;> simp
  · split <;> simp
  · split <;> rfl

theorem logOverflowed_congr {a b : Dev} (h : a.vio.log = b.vio.log) : a.logOverflowed = b.logOverflowed := by
  unfold logOverflowed; rw [h]

theorem vioTotal_ne (v : Vio) : Cnt.VIO_TOTAL.off ≠ (Cnt.VIO_CNT v.code).off := by
  show 0x981000 ≠ 0x982000 + 4 * v.code; omega

theorem vioCnt_ne_lost (v : Vio) : (Cnt.VIO_CNT v.code).off ≠ Cnt.EVT_LOST.off := by
  show 0x982000 + 4 * v.code ≠ 0x801010; omega

/-- The counts of a violation, whether it is logged or not. -/
theorem count_violate {d : Dev} {v : Vio} {c : Counter} (h : c.off ≠ Cnt.EVT_LOST.off) (items : List Byte) :
    (d.violate v items).count c = (d.violationCounted v).count c := by
  cases hl : d.vioLoggable v
  case false => unfold count; rw [(violate_limited hl items).2.2]
  case true =>
    obtain ⟨x, e, he, -, -, hc, -⟩ := violate_logged hl items
    rw [he, count_logEntry h]
    unfold count
    rw [hc]

end Dev

open Dev

/-- Settles O28, from what a violation does whether or not the rate limiter lets it be logged. -/
theorem aViolationCountsAndIsLogged : Obligations.AViolationCountsAndIsLogged := by
  unfold Obligations.AViolationCountsAndIsLogged
  intro d v items
  have hlost : Cnt.VIO_TOTAL.off ≠ Cnt.EVT_LOST.off := by decide
  refine ⟨?seq, fun hmax => ?total, ?code, fun hover hroom hlim => ?logged, fun hover => ?full⟩
  case seq =>
    cases hl : d.vioLoggable v
    case false => exact (violate_limited hl items).1
    case true =>
      obtain ⟨x, e, he, hseq, -⟩ := violate_logged hl items
      rw [he, logEntry_seq, hseq]
  case total =>
    rw [count_violate hlost, violationCounted, count_bump_ne _ _ _ _ (vioTotal_ne v) hlost, count_bump_wide _ _ _ rfl]
    omega
  case code =>
    rw [count_violate (vioCnt_ne_lost v), violationCounted, count_bump _ _ _ rfl,
      count_bump_ne _ _ _ _ (vioTotal_ne v).symm (vioCnt_ne_lost v)]
  case logged =>
    obtain ⟨x, e, he, -, hlog, -, hcode, hseq, hepoch, htime, hdetail⟩ := violate_logged ((vioLoggable_iff d v).2 hlim) items
    refine ⟨e, ?_, hcode, hseq, hepoch, htime, hdetail⟩
    rw [he, logEntry_log_of_room ((logOverflowed_congr hlog).trans hover) (hlog ▸ hroom), hlog]
  case full =>
    cases hl : d.vioLoggable v
    case false => rw [(violate_limited hl items).2.1]
    case true =>
      obtain ⟨x, e, he, -, hlog, -⟩ := violate_logged hl items
      rw [he, length_logEntry_of_overflowed ((logOverflowed_congr hlog).trans hover), hlog]

end Sys2Proof.Machine
end

section
/-! PROOFS. Rings, doorbells and events to ring 2 (R506 to R513, R524, R525). -/

namespace Sys2Proof.Machine

open Dev

/-! ### The control word of a ring -/

theorem field_eq_bits (c : Cfg) {off rst : Nat} (hi lo : Nat) (h : rst < 2 ^ 32) :
    c.field off rst hi lo = bits (c.get (BitVec.ofNat 32 rst) off).toNat hi lo := by
  unfold Cfg.field SMap.get bits
  cases c.find off with
  | some v => rfl
  | none => simp only [Option.getD_none, BitVec.toNat_ofNat, Nat.mod_eq_of_lt h]

theorem testBit_highHalf : ∀ j < 32, Nat.testBit 0xFFFF0000 j = decide (16 ≤ j) := by decide

/-- A field of the upper half of a word is kept where the lower half is cleared. -/
theorem bits_highHalf (v : Nat) {hi lo : Nat} (hlo : 16 ≤ lo) (hhi : hi < 32) (hle : lo ≤ hi) :
    bits (v &&& 0xFFFF0000) hi lo = bits v hi lo := by
  unfold bits
  refine Nat.eq_of_testBit_eq fun i => ?_
  simp only [Nat.testBit_mod_two_pow, Nat.testBit_shiftRight, Nat.testBit_and]
  by_cases hi' : i < hi - lo + 1
  · rw [testBit_highHalf _ (by omega)]
    simp [hi', show 16 ≤ lo + i by omega]
  · simp [hi']

theorem toNat_ofNat_highHalf (v : Nat) : (BitVec.ofNat 32 (v &&& 0xFFFF0000)).toNat = v &&& 0xFFFF0000 := by
  rw [BitVec.toNat_ofNat, Nat.mod_eq_of_lt]
  exact Nat.lt_of_le_of_lt Nat.and_le_right (by decide)

theorem ofNat_highHalf (v : W32) : BitVec.ofNat 32 (v.toNat &&& 0xFFFF0000) = v &&& 0xFFFF0000#32 := by
  refine BitVec.eq_of_toNat_eq ?_
  rw [toNat_ofNat_highHalf, BitVec.toNat_and]
  rfl

theorem bits_31_iff (v : W32) : bits v.toNat 31 31 = 1 ↔ v[31] = true := by
  have h : v[31] = v.toNat.testBit 31 := rfl
  rw [h, Nat.testBit_eq_decide_div_mod_eq, decide_eq_true_iff]
  unfold bits
  rw [Nat.shiftRight_eq_div_pow, Nat.pow_one]

theorem bit_31 (v : Nat) : bit v 31 = (bits v 31 31 == 1) := rfl

/-- Another size put into a control word changes no other field of it. -/
theorem bits_resized {v size : Nat} (hs : size < 16) :
    bits (v - bits v 30 27 * 2 ^ 27 + size * 2 ^ 27) 31 31 = bits v 31 31 ∧
      bits (v - bits v 30 27 * 2 ^ 27 + size * 2 ^ 27) 30 27 = size := by
  unfold bits
  simp only [Nat.shiftRight_eq_div_pow]
  omega

theorem bits_30_27_lt (v : Nat) : bits v 30 27 < 16 := Nat.mod_lt _ (by decide)

namespace Dev

/-- HR_CTL_n as the device holds it. -/
def ringCtl (d : Dev) (n : Nat) : W32 := d.cfg.get 0x20000000#32 (Reg.HR_CTL n)

theorem ringOn_eq (d : Dev) (n : Nat) : d.ringOn n = bit (d.ringCtl n).toNat 31 :=
  congrArg (· == 1) (field_eq_bits d.cfg 31 31 (by decide))

theorem sizeLog2_eq (d : Dev) (n : Nat) : d.cfg.HR_CTL_SIZE_LOG2 n = bits (d.ringCtl n).toNat 30 27 :=
  field_eq_bits d.cfg 30 27 (by decide)

theorem ringSize_eq (d : Dev) (n : Nat) : d.ringSize n = 2 ^ clampN 4 15 (bits (d.ringCtl n).toNat 30 27) := by
  rw [ringSize, sizeLog2_eq]

/-- HR_CTL_n takes a value; its lower half reads 0. -/
def setRingCtl (d : Dev) (n v : Nat) : Dev :=
  { d with cfg := d.cfg.set 0x20000000#32 (Reg.HR_CTL n) (BitVec.ofNat 32 (v &&& 0xFFFF0000)) }

@[simp] theorem ringCtl_setRingCtl (d : Dev) (n v : Nat) : (d.setRingCtl n v).ringCtl n = BitVec.ofNat 32 (v &&& 0xFFFF0000) :=
  SMap.get_set_self ..

@[simp] theorem setRingCtl_host (d : Dev) (n v : Nat) : (d.setRingCtl n v).host = d.host := rfl

@[simp] theorem setRingCtl_vio (d : Dev) (n v : Nat) : (d.setRingCtl n v).vio = d.vio := rfl

theorem leaves_setRingCtl {us : List DevUnit} {a d : Dev} (h : Leaves us a d) (n v : Nat) (hs : us.contains .cfg = true) :
    Leaves us a (d.setRingCtl n v) := h.write hs fun w hw => by cases w <;> trivial

theorem ringOn_setRingCtl (d : Dev) (n v : Nat) : (d.setRingCtl n v).ringOn n = bit v 31 := by
  rw [ringOn_eq, ringCtl_setRingCtl, toNat_ofNat_highHalf, bit_31, bits_highHalf v (by decide) (by decide) (by decide), bit_31]

theorem ringSize_setRingCtl (d : Dev) (n v : Nat) : (d.setRingCtl n v).ringSize n = 2 ^ clampN 4 15 (bits v 30 27) := by
  rw [ringSize_eq, ringCtl_setRingCtl, toNat_ofNat_highHalf, bits_highHalf v (by decide) (by decide) (by decide)]

/-- A ring that starts is empty, and nothing of it waits. -/
def ringStarted (d : Dev) (n : Nat) : Dev :=
  let d := d.setRing n {}
  let d := if 19 ≤ n then d.forgetDescs (n - 5) else d
  { d with host := { d.host with
      ring1 := if n = 1 then [] else d.host.ring1
      ring2 := if n = 2 then [] else d.host.ring2
      unfetched := if n = 0 then 0 else d.host.unfetched
      rxWait := d.host.rxWait.del n } }

theorem ring_ringStarted (d : Dev) (n m : Nat) : (d.ringStarted n).ring m = (d.setRing n {}).ring m := by
  unfold ringStarted
  dsimp only
  split <;> rfl

theorem ringStarted_keeps (d : Dev) (n : Nat) : (d.ringStarted n).cfg = d.cfg ∧ (d.ringStarted n).vio = d.vio ∧
    (d.ringStarted n).host.hist = d.host.hist ∧ (d.ringStarted n).host.inflight = d.host.inflight := by
  unfold ringStarted
  dsimp only
  split <;> exact ⟨rfl, rfl, rfl, rfl⟩

theorem ringOn_congr {a b : Dev} (h : a.cfg = b.cfg) (n : Nat) : a.ringOn n = b.ringOn n := by rw [ringOn, h, ringOn]

theorem ringSize_congr {a b : Dev} (h : a.cfg = b.cfg) (n : Nat) : a.ringSize n = b.ringSize n := by rw [ringSize, h, ringSize]

theorem writeRingReg_starts {d : Dev} {n v : Nat} (hoff : d.ringOn n = false) (hen : bit v 31 = true) :
    d.writeRingReg n 2 v = (d.setRingCtl n v).ringStarted n := by
  have hctl : bit (d.cfg.get 0x20000000#32 (Reg.HR_CTL n)).toNat 31 = false := (ringOn_eq d n).symm.trans hoff
  simp [writeRingReg, hctl, hen, setRingCtl, ringStarted]

theorem writeRingReg_stays_off {d : Dev} {n v : Nat} (hoff : d.ringOn n = false) (hen : bit v 31 = false) :
    d.writeRingReg n 2 v = d.setRingCtl n v := by
  have hctl : bit (d.cfg.get 0x20000000#32 (Reg.HR_CTL n)).toNat 31 = false := (ringOn_eq d n).symm.trans hoff
  simp [writeRingReg, hctl, hen, setRingCtl]

theorem writeRingReg_same_size {d : Dev} {n v : Nat} (hon : d.ringOn n = true)
    (hs : bits v 30 27 = bits (d.ringCtl n).toNat 30 27) : d.writeRingReg n 2 v = d.setRingCtl n v := by
  have hctl : bit (d.cfg.get 0x20000000#32 (Reg.HR_CTL n)).toNat 31 = true := (ringOn_eq d n).symm.trans hon
  simp [writeRingReg, hctl, hs, setRingCtl, ringCtl]

theorem writeRingReg_busy {d : Dev} {n v : Nat} (hon : d.ringOn n = true)
    (hs : bits v 30 27 ≠ bits (d.ringCtl n).toNat 30 27) : d.writeRingReg n 2 v =
      (d.violate .VIO_RING_BUSY (le 1 n)).setRingCtl n
        (v - bits v 30 27 * 2 ^ 27 + bits (d.ringCtl n).toNat 30 27 * 2 ^ 27) := by
  have hctl : bit (d.cfg.get 0x20000000#32 (Reg.HR_CTL n)).toNat 31 = true := (ringOn_eq d n).symm.trans hon
  unfold ringCtl at hs ⊢
  simp [writeRingReg, hctl, hs, setRingCtl]

theorem doorbell_refused {d : Dev} {n : Nat} {idx : W16} (h : 32768 < (idx - (d.ring n).hostIdx).toNat ∨
    (d.ringSize n : Int) < d.hostLead n + ((idx - (d.ring n).hostIdx).toNat : Int)) :
    d.doorbell n idx = (d.violate .VIO_RING_DOORBELL (le 1 n)).bump Cnt.RING_DB_BAD := if_pos h

theorem doorbell_taken {d : Dev} {n : Nat} {idx : W16} (h : ¬ (32768 < (idx - (d.ring n).hostIdx).toNat ∨
    (d.ringSize n : Int) < d.hostLead n + ((idx - (d.ring n).hostIdx).toNat : Int))) :
    d.doorbell n idx = d.setRing n { d.ring n with hostIdx := idx } := if_neg h

theorem violate_seq (d : Dev) (v : Vio) (items : List Byte) : (d.violate v items).vio.seq = d.vio.seq + 1 := by
  cases hl : d.vioLoggable v
  case false => exact (violate_limited hl items).1
  case true =>
    obtain ⟨x, e, he, hseq, -⟩ := violate_logged hl items
    rw [he, logEntry_seq, hseq]

end Dev

@[simp] theorem State.fresh_ringCtl (s : State) (n : Nat) : s.fresh.ringCtl n = s.dev.ringCtl n := rfl

theorem exec_ringEnable (s : State) (n : Fin 35) (ctl : W32) :
    exec (.ringEnable n ctl) s = .next (s.goes (s.fresh.writeRingReg n.val 2 ctl.toNat)) := rfl

theorem exec_ringDoorbell (s : State) (n : Fin 35) (idx : W16) :
    exec (.ringDoorbell n idx) s = .next (s.goes (s.fresh.doorbell n.val idx)) := rfl

/-- The end of an interval fires the vector where an advance fell inside it (R507). -/
def Dev.msixEnd (d : Dev) (n : Nat) : Dev :=
  if (d.ring n).deferred then
    (d.setRing n { d.ring n with deferred := false, inInterval := d.cfg.HR_CTL_MOD_US n != 0 }).emit .msix n []
  else d.setRing n { d.ring n with inInterval := false }

theorem Dev.ring_msixEnd (d : Dev) (n : Nat) : (d.msixEnd n).ring n = { d.ring n with
    deferred := false, inInterval := (d.ring n).deferred && d.cfg.HR_CTL_MOD_US n != 0 } := by
  unfold msixEnd
  split
  case isTrue hd =>
    simp only [hd, Bool.true_and]
    exact ring_setRing ..
  case isFalse hd => simp [hd]

theorem Dev.ring_msixEnd_ne (d : Dev) {n m : Nat} (h : m ≠ n) : (d.msixEnd n).ring m = d.ring m := by
  unfold msixEnd
  split
  · exact ring_setRing_ne _ _ h
  · exact ring_setRing_ne _ _ h

theorem Dev.msixEnd_out (d : Dev) (n : Nat) :
    (d.msixEnd n).out = d.out ++ if (d.ring n).deferred then [⟨.msix, n, []⟩] else [] := by
  unfold msixEnd
  split
  · rfl
  · simp

theorem exec_msixModerationEnd_interval {s : State} {k : Fin 64} (h : k.val < 35 ∧ (s.dev.ring k.val).inInterval = true) :
    exec (.msixModerationEnd k) s = .next (s.goes (s.fresh.msixEnd k.val)) := goes_congr rfl (if_pos h)

theorem exec_msixModerationEnd_idle {s : State} {k : Fin 64} (h : ¬ (k.val < 35 ∧ (s.dev.ring k.val).inInterval = true)) :
    exec (.msixModerationEnd k) s = .next (s.goes s.fresh) := goes_congr rfl (if_neg h)

/-- Settles O31, by how each write of HR_CTL_n, each doorbell and each end of an interval comes out. -/
theorem ringsStartEmptyAndRefuseBadDoorbells : Obligations.RingsStartEmptyAndRefuseBadDoorbells := by
  unfold Obligations.RingsStartEmptyAndRefuseBadDoorbells
  intro s n
  refine ⟨fun ctl hoff hen => ?starts, fun ctl hoff hen => ?staysOff, fun ctl hon => ?inUse, fun idx lead hlead => ⟨?taken, ?refused⟩,
    ?fires, ?idle⟩
  case starts =>
    have hbit : bit ctl.toNat 31 = true := by rw [bit_31, beq_iff_eq, bits_31_iff, hen]
    refine ⟨_, exec_ringEnable s n ctl, ?_⟩
    rw [State.goes_dev, writeRingReg_starts (d := s.fresh) hoff hbit]
    obtain ⟨hcfg, hvio, hhist, hinflight⟩ := (s.fresh.setRingCtl n ctl.toNat).ringStarted_keeps n
    refine ⟨?_, ?_, ?_, ?_, fun m hm => ?_, hhist, hinflight, hvio⟩
    · rw [ringOn_congr hcfg, ringOn_setRingCtl, hbit]
    · rw [ring_ringStarted, ring_setRing]
    · rw [hcfg]
      exact (ringCtl_setRingCtl ..).trans (ofNat_highHalf ctl)
    · rw [ringSize_congr hcfg, ringSize_setRingCtl]
    · rw [ring_ringStarted, ring_setRing_ne _ _ hm]
      rfl
  case staysOff =>
    have hbit : bit ctl.toNat 31 = false := by
      rw [bit_31, beq_eq_false_iff_ne, Ne, bits_31_iff, hen]; exact Bool.false_ne_true
    refine ⟨_, exec_ringEnable s n ctl, ?_⟩
    rw [State.goes_dev, writeRingReg_stays_off (d := s.fresh) hoff hbit]
    refine ⟨(ringOn_setRingCtl ..).trans hbit, (ringCtl_setRingCtl ..).trans (ofNat_highHalf ctl), ?_⟩
    exact State.sameBut_of_leaves rfl (leaves_setRingCtl (.refl _ _) _ _ rfl)
  case inUse =>
    have hbit : bit ctl.toNat 31 = ctl[31] := by
      rw [bit_31, Bool.eq_iff_iff, beq_iff_eq, bits_31_iff]
    refine ⟨_, exec_ringEnable s n ctl, ?_⟩
    rw [State.goes_dev, sizeLog2_eq]
    by_cases hs : bits ctl.toNat 30 27 = bits (s.dev.ringCtl n).toNat 30 27
    case pos =>
      rw [writeRingReg_same_size (d := s.fresh) hon hs, if_pos hs]
      refine ⟨(ringOn_setRingCtl ..).trans hbit, ?_, rfl, (BitVec.add_zero _).symm⟩
      rw [ringSize_setRingCtl, hs, ringSize_eq]
    case neg =>
      obtain ⟨h31, hsize⟩ := bits_resized (v := ctl.toNat) (bits_30_27_lt (s.dev.ringCtl n).toNat)
      rw [writeRingReg_busy (d := s.fresh) hon hs, if_neg hs, State.fresh_ringCtl]
      refine ⟨?_, ?_, ?_, ?_⟩
      · rw [ringOn_setRingCtl, bit_31, h31, ← bit_31, hbit]
      · rw [ringSize_setRingCtl, ringSize_eq s.dev, hsize]
      · rw [setRingCtl_host, violate_host, State.fresh_host]
      · rw [setRingCtl_vio, violate_seq, State.fresh_vio]
  case taken =>
    intro hstep hroom
    refine ⟨_, exec_ringDoorbell s n idx, ?_⟩
    have hahead : s.fresh.hostLead n = lead := hlead.symm
    rw [State.goes_dev, doorbell_taken (d := s.fresh) (hahead ▸ not_or.mpr ⟨Nat.not_lt.mpr hstep, Int.not_lt.mpr hroom⟩)]
    exact ⟨ring_setRing .., fun m hm => ring_setRing_ne _ _ hm, State.sameBut_of_leaves rfl (leaves_setRing (.refl _ _) (hs := rfl) ..)⟩
  case refused =>
    intro h
    rw [exec_ringDoorbell, doorbell_refused (d := s.fresh)]
    rw [show s.fresh.hostLead n = lead from hlead.symm]
    exact h
  case fires =>
    intro k hk hin
    refine ⟨_, exec_msixModerationEnd_interval (hk ▸ ⟨n.isLt, hin⟩), ?_⟩
    rw [State.goes_dev, hk]
    have hl : Leaves [.out, .host] s.fresh (s.fresh.msixEnd n) := leaves_ite
      (leaves_emit (leaves_setRing (.refl _ _) (hs := rfl) ..) (hs := rfl) ..) (leaves_setRing (.refl _ _) (hs := rfl) ..)
    refine ⟨?_, fun m hm => ?_, ?_, State.sameBut_of_leaves rfl hl⟩
    · rw [ring_msixEnd]; rfl
    · exact ring_msixEnd_ne _ hm
    · exact msixEnd_out _ _
  case idle =>
    intro k hk
    exact exec_msixModerationEnd_idle (by rintro ⟨h1, h2⟩; simp [h2] at hk; omega)

end Sys2Proof.Machine
end
section
/-! PROOFS. Events to ring 2 and the taking of commands (R506 to R520, R524, R525). -/

namespace Sys2Proof.Machine

namespace Dev

/-! ### An index advance -/

section Advance
variable (d : Dev) {n m : Nat} (k : Nat)

theorem ring_fireMsix_ne (h : m ≠ n) : (d.fireMsix n).ring m = d.ring m := by
  unfold fireMsix
  dsimp only
  split
  · rfl
  · split
    · exact ring_setRing_ne _ _ h
    · exact ring_setRing_ne _ _ h

theorem ring_fireMsix (n : Nat) : ((d.fireMsix n).ring n).devIdx = (d.ring n).devIdx ∧
    ((d.fireMsix n).ring n).hostIdx = (d.ring n).hostIdx ∧ ((d.fireMsix n).ring n).phase = (d.ring n).phase := by
  unfold fireMsix
  dsimp only
  split
  · exact ⟨rfl, rfl, rfl⟩
  · split
    · rw [ring_setRing]; exact ⟨rfl, rfl, rfl⟩
    · rw [show (∀ x : Dev, (x.emit .msix n []).ring n = x.ring n) from fun _ => rfl, ring_setRing]
      exact ⟨rfl, rfl, rfl⟩

theorem fireMsix_out (n : Nat) : ∃ m, (m = [] ∨ m = [⟨.msix, n, []⟩]) ∧ (d.fireMsix n).out = d.out ++ m := by
  unfold fireMsix
  dsimp only
  split
  · exact ⟨[], .inl rfl, (List.append_nil _).symm⟩
  · split
    · exact ⟨[], .inl rfl, (List.append_nil _).symm⟩
    · exact ⟨_, .inr rfl, rfl⟩

@[simp] theorem ring_emit (o : OutKind) (i : Nat) (x : List Byte) (m : Nat) : (d.emit o i x).ring m = d.ring m := rfl

/-- The ring's device index moves, its index word goes out, and its vector fires. -/
theorem advanceRing_eq (n k : Nat) : ∃ r : Ring,
    d.advanceRing n k = ((d.setRing n r).emit .ringIndex n (le 8 r.devIdx.toNat)).fireMsix n ∧
    r.devIdx = (d.ring n).devIdx + BitVec.ofNat 16 k ∧ r.hostIdx = (d.ring n).hostIdx := ⟨_, rfl, rfl, rfl⟩

theorem ring_advanceRing_ne (h : m ≠ n) : (d.advanceRing n k).ring m = d.ring m := by
  obtain ⟨r, he, -⟩ := d.advanceRing_eq n k
  rw [he, ring_fireMsix_ne _ h, ring_emit, ring_setRing_ne _ _ h]

theorem ring_advanceRing (n k : Nat) : ((d.advanceRing n k).ring n).devIdx = (d.ring n).devIdx + BitVec.ofNat 16 k ∧
    ((d.advanceRing n k).ring n).hostIdx = (d.ring n).hostIdx := by
  obtain ⟨r, he, hdev, hhost⟩ := d.advanceRing_eq n k
  obtain ⟨fdev, fhost, -⟩ := ring_fireMsix ((d.setRing n r).emit .ringIndex n (le 8 r.devIdx.toNat)) n
  rw [he, fdev, fhost, ring_emit, ring_setRing]
  exact ⟨hdev, hhost⟩

theorem advanceRing_out (n k : Nat) : ∃ m, (m = [] ∨ m = [⟨.msix, n, []⟩]) ∧ (d.advanceRing n k).out =
    d.out ++ (⟨.ringIndex, n, le 8 ((d.ring n).devIdx + BitVec.ofNat 16 k).toNat⟩ : Output) :: m := by
  obtain ⟨r, he, hdev, -⟩ := d.advanceRing_eq n k
  obtain ⟨m, hm, hout⟩ := fireMsix_out ((d.setRing n r).emit .ringIndex n (le 8 r.devIdx.toNat)) n
  refine ⟨m, hm, ?_⟩
  rw [he, hout, ← hdev]
  exact List.append_assoc ..

end Advance

/-! ### Events -/

/-- A statistics counter raises no event. -/
theorem bump_ev_wide (d : Dev) {c : Counter} (h : c.wide = true) (n : Nat) : (d.bump c n).ev = d.ev := by
  unfold bump
  dsimp only
  rw [if_pos h]
  unfold countLate
  split <;> rfl

theorem ring_bump (d : Dev) (c : Counter) (n m : Nat) : (d.bump c n).ring m = d.ring m := by rw [ring, bump_host, ring]

/-- With room in the staging an event is staged last (R525). -/
theorem raise_staged {d : Dev} (hmode : d.modes.control ≠ .standAlone) (hroom : d.ev.staging.length < 8192) (c : EvCode)
    (x : List Byte) : ∃ e, (d.raise c x).ev = { d.ev with seq := d.ev.seq + 1, staging := d.ev.staging ++ [e] } ∧ e.code = c ∧
      e.data = x := by
  unfold raise raiseIn
  dsimp only
  rw [if_neg hmode, if_pos (show _ < evCap from hroom)]
  exact ⟨_, rfl, rfl, rfl⟩

/-- An event that goes to ring 2 leaves the staging and the count of losses alone. -/
theorem putEvent_ev (d : Dev) (e : Event) : (d.putEvent e).ev = d.ev := by
  unfold putEvent
  rw [bump_ev_wide _ rfl, advanceRing_ev, emit_ev]

/-- The state with the event written to its slot, before the index moves. -/
def eventWritten (d : Dev) (e : Event) : Dev :=
  ({ d with host := { d.host with ring2 := d.host.ring2.put ((d.ring 2).devIdx.toNat % d.ringSize 2) (e, (d.ring 2).phase) } }).emit
    .ringEntry 2 (d.eventOctets e (d.ring 2).phase)

theorem putEvent_eq (d : Dev) (e : Event) : d.putEvent e = ((d.eventWritten e).advanceRing 2 1).bump Cnt.EVT_POSTED := rfl

@[simp] theorem ring_eventWritten (d : Dev) (e : Event) (m : Nat) : (d.eventWritten e).ring m = d.ring m := rfl

theorem putEvent_ring (d : Dev) (e : Event) : ((d.putEvent e).ring 2).devIdx = (d.ring 2).devIdx + 1 ∧
    ((d.putEvent e).ring 2).hostIdx = (d.ring 2).hostIdx ∧ ∀ m, m ≠ 2 → (d.putEvent e).ring m = d.ring m := by
  obtain ⟨hdev, hhost⟩ := ring_advanceRing (d.eventWritten e) 2 1
  simp only [putEvent_eq, ring_bump]
  exact ⟨hdev, hhost, fun m hm => ring_advanceRing_ne _ _ hm⟩

theorem putEvent_out (d : Dev) (e : Event) : ∃ m, (m = [] ∨ m = [⟨.msix, 2, []⟩]) ∧ (d.putEvent e).out = d.out ++
    (⟨.ringEntry, 2, d.eventOctets e (d.ring 2).phase⟩ : Output) :: ⟨.ringIndex, 2, le 8 ((d.ring 2).devIdx + 1).toNat⟩ :: m := by
  obtain ⟨m, hm, hout⟩ := advanceRing_out (d.eventWritten e) 2 1
  refine ⟨m, hm, ?_⟩
  rw [putEvent_eq, bump_out, hout]
  exact List.append_assoc ..

theorem putEvent_ring2 (d : Dev) (e : Event) :
    (d.putEvent e).host.ring2.find ((d.ring 2).devIdx.toNat % d.ringSize 2) = some (e, (d.ring 2).phase) := by
  rw [putEvent_eq, bump_host, advanceRing_host_ring2]
  exact SMap.find_put_self ..

theorem putEvent_ring1 (d : Dev) (e : Event) : (d.putEvent e).host.ring1 = d.host.ring1 := by
  rw [putEvent_eq, bump_host, advanceRing_host_ring1]
  rfl

theorem count_putEvent {d : Dev} (h : d.count Cnt.EVT_POSTED < 0xFFFFFFFE) (e : Event) :
    (d.putEvent e).count Cnt.EVT_POSTED = d.count Cnt.EVT_POSTED + 1 := by
  have hc : ((d.eventWritten e).advanceRing 2 1).count Cnt.EVT_POSTED = d.count Cnt.EVT_POSTED := by
    unfold count
    rw [advanceRing_cnt]
    rfl
  rw [putEvent_eq, count_bump_wide _ _ _ rfl, hc]
  omega

/-- The staging once its oldest event is taken off. -/
def unstaged (d : Dev) (t0 : List Event) : Dev := { d with ev := { d.ev with staging := t0 } }

theorem postEvent_hosted {d : Dev} {e : Event} {t0 : List Event} (hmode : d.modes.control = .hosted)
    (hstaged : d.ev.staging = e :: t0) (hroom : d.eventRoom = true) : d.postEvent =
      if d.ev.lost = 0 then (d.unstaged t0).putEvent e
      else ({ (d.unstaged t0).putEvent e with ev := { (d.unstaged t0).ev with lost := 0 } }).raise .EVT_OVERFLOW
        (le 4 d.ev.lost) := by
  simp [postEvent, hmode, hstaged, hroom, putEvent_ev, unstaged]

theorem postEvent_idle {d : Dev} (h : d.ev.staging = [] ∨ d.modes.control = .standAlone ∨
    (d.modes.control = .hosted ∧ d.eventRoom = false)) : d.postEvent = d := by
  unfold postEvent
  obtain h | h | ⟨h, hroom⟩ := h
  · rw [h]
  · cases d.ev.staging <;> simp [h]
  · cases d.ev.staging <;> simp [h, hroom]

end Dev

open Dev

theorem exec_eventPost (s : State) : exec .eventPost s = .next (s.goes s.fresh.postEvent) := rfl

theorem eventRoom_iff (d : Dev) : d.eventRoom = true ↔ d.ringOn 2 = true ∧ d.ringUsed 2 < d.ringSize 2 := by
  simp [eventRoom]

/-- Settles O32: the event goes to the slot of the device index, and the discards before it are reported once. -/
theorem eventsArePostedOldestFirst : Obligations.EventsArePostedOldestFirst := by
  unfold Obligations.EventsArePostedOldestFirst
  refine fun s => ⟨fun e t0 hmode hstaged hlost hon hroom hcount => ?posts, fun h => ?idle,
    fun e t0 hmode hstaged hlost hon hroom hcount hlen => ?reports⟩
  case posts =>
    refine ⟨_, exec_eventPost s, ?_⟩
    rw [State.goes_dev, postEvent_hosted (d := s.fresh) hmode hstaged ((eventRoom_iff _).2 ⟨hon, hroom⟩),
      if_pos (show s.fresh.ev.lost = 0 from hlost)]
    obtain ⟨hdev, hhost, hrings⟩ := putEvent_ring (s.fresh.unstaged t0) e
    obtain ⟨m, hm, hout⟩ := putEvent_out (s.fresh.unstaged t0) e
    rw [putEvent_ev]
    exact ⟨rfl, hlost, putEvent_ring2 (s.fresh.unstaged t0) e, ⟨m, hm, hout⟩, hdev, hhost, hrings,
      putEvent_ring1 .., count_putEvent (d := s.fresh.unstaged t0) hcount e⟩
  case idle =>
    rw [exec_eventPost, postEvent_idle (d := s.fresh)]
    obtain h | h | ⟨h, hroom⟩ := h
    · exact .inl h
    · exact .inr (.inl h)
    · refine .inr (.inr ⟨h, ?_⟩)
      rw [← Bool.not_eq_true, eventRoom_iff]
      rintro ⟨h1, h2⟩
      obtain h | h := hroom
      · exact absurd (h.symm.trans h1) Bool.false_ne_true
      · exact absurd h2 (Nat.not_lt.mpr h)
  case reports =>
    have hpost := postEvent_hosted (d := s.fresh) hmode hstaged ((eventRoom_iff _).2 ⟨hon, hroom⟩)
    rw [if_neg (show ¬ s.fresh.ev.lost = 0 from hlost)] at hpost
    have hcontrol : ((s.fresh.unstaged t0).putEvent e).modes.control ≠ .standAlone := by
      rw [putEvent_eq, bump_modes, advanceRing_modes, show ((s.fresh.unstaged t0).eventWritten e).modes.control = .hosted from hmode]
      exact nofun
    obtain ⟨e', hev, hcode, hdata⟩ := raise_staged (d := { (s.fresh.unstaged t0).putEvent e with
      ev := { (s.fresh.unstaged t0).ev with lost := 0 } }) hcontrol hlen .EVT_OVERFLOW (le 4 s.fresh.ev.lost)
    refine ⟨_, e', goes_congr (exec_eventPost s) hpost, ?_, hcode, hdata, ?_⟩
    · rw [State.goes_dev, hev]; rfl
    · rw [State.goes_dev, hev]

/-! ### Taking a command -/

namespace Dev

/-- What decides the fate of a command before it is accepted. -/
theorem fetchCmd_decides (d : Dev) (p : CmdPath) (c : Cmd) : (d.fetchCmd p).remoteLost c = d.remoteLost c ∧
    (d.fetchCmd p).replayOf c = d.replayOf c ∧ (d.fetchCmd p).isInFlight c = d.isInFlight c ∧
    (d.fetchCmd p).sourceOk c = d.sourceOk c := by
  obtain ⟨o, r, he⟩ := d.fetchCmd_eq p
  rw [he]
  exact ⟨rfl, rfl, rfl, rfl⟩

/-- The command is heard, and ring 0 has a place for its completion (R517). -/
def hears (d : Dev) (c : Cmd) : Prop := d.deaf = false ∧ (c.hdr.path = .pcie → d.cmdRoom = true)

theorem hears.not_unheard {d : Dev} {c : Cmd} (h : d.hears c) : ¬ (d.deaf = true ∨ (c.hdr.path = .pcie ∧ ¬ d.cmdRoom = true)) := by
  obtain ⟨hdeaf, hroom⟩ := h
  rintro (hd | ⟨hp, hr⟩)
  · exact absurd (hdeaf.symm.trans hd) Bool.false_ne_true
  · exact hr (hroom hp)

section Command
variable {d : Dev} {c : Cmd} {f : Dev → Dev}

theorem command_deaf (h : d.deaf = true) : d.command c f = d := if_pos (.inl h)

theorem command_no_id (h : d.hears c) (hid : c.hdr.cmdId = 0) :
    d.command c f = (d.fetchCmd c.hdr.path).refuseCmd c .ST_BAD_PARAM := by
  unfold command
  rw [if_neg h.not_unheard, if_pos hid]

/-- A command with an id that can reach its chip: the history, the commands in flight and the source decide it. -/
theorem command_with_id (h : d.hears c) (hid : c.hdr.cmdId ≠ 0) (hr : d.remoteLost c = false) : d.command c f =
    match d.replayOf c with
    | some k => ((d.fetchCmd c.hdr.path).bump Cnt.CMD_REPLAYED).post { k with src := c.hdr.path, replayed := true }
    | none =>
      if d.isInFlight c then ((d.fetchCmd c.hdr.path).recallCpl c).bump Cnt.CMD_DUP_INFLIGHT
      else if ¬ d.sourceOk c then (d.fetchCmd c.hdr.path).complete c .ST_MODE_REFUSED
      else if customerDenied c then (d.fetchCmd c.hdr.path).complete c .ST_WORLD_DENIED
      else if (d.fetchCmd c.hdr.path).isLocal c then f ((d.fetchCmd c.hdr.path).bump Cnt.CMD_ACCEPTED)
      else ((d.fetchCmd c.hdr.path).bump Cnt.CMD_ACCEPTED).forward c := by
  obtain ⟨hlost, hreplay, hflight, hsource⟩ := d.fetchCmd_decides c.hdr.path c
  unfold command
  rw [if_neg h.not_unheard, if_neg hid, hlost, if_neg (by rw [hr]; exact Bool.false_ne_true), hreplay, hflight, hsource]
    <;> rfl

theorem command_replayed {k : Completion} (h : d.hears c) (hid : c.hdr.cmdId ≠ 0) (hr : d.remoteLost c = false)
    (hk : d.replayOf c = some k) : d.command c f =
      ((d.fetchCmd c.hdr.path).bump Cnt.CMD_REPLAYED).post { k with src := c.hdr.path, replayed := true } := by
  rw [command_with_id h hid hr, hk]

theorem command_duplicate (h : d.hears c) (hid : c.hdr.cmdId ≠ 0) (hr : d.remoteLost c = false)
    (hk : d.replayOf c = none) (hf : d.isInFlight c = true) :
    d.command c f = ((d.fetchCmd c.hdr.path).recallCpl c).bump Cnt.CMD_DUP_INFLIGHT := by
  rw [command_with_id h hid hr, hk]
  exact if_pos hf

theorem command_foreign (h : d.hears c) (hid : c.hdr.cmdId ≠ 0) (hr : d.remoteLost c = false)
    (hk : d.replayOf c = none) (hf : d.isInFlight c = false) (hs : d.sourceOk c = false) :
    d.command c f = (d.fetchCmd c.hdr.path).complete c .ST_MODE_REFUSED := by
  rw [command_with_id h hid hr, hk]
  exact (if_neg (by rw [hf]; exact Bool.false_ne_true)).trans (if_pos (by rw [hs]; exact Bool.false_ne_true))

theorem recallCpl_of_none_forgotten (h : d.host.forgotten = []) (c : Cmd) : d.recallCpl c = d := by
  unfold recallCpl
  split
  · rw [h, List.filter_nil, ← h]
  · rfl

theorem cmdUnknown_deaf (h : d.deaf = true) (hdr : Hdr) (o : W16) : d.cmdUnknown hdr o = d := if_pos (.inl h)

theorem replayOf_origin {k : Completion} (h : d.replayOf c = some k) (hl : d.isLocal c = true) : k.origin = d.elec.chipId := by
  unfold replayOf at h
  obtain ⟨x, -, rfl⟩ := Option.map_eq_some_iff.mp h
  exact if_pos hl

end Command

end Dev

theorem exec_cmdNop (s : State) (h : Hdr) : exec (.cmdNop h) s =
    .next (s.goes (s.fresh.command ⟨h, .CMD_NOP, 0, []⟩ (fun d => d.complete ⟨h, .CMD_NOP, 0, []⟩ .ST_OK))) := rfl

theorem exec_cmdUnknownOpcode (s : State) (h : Hdr) (o : W16) :
    exec (.cmdUnknownOpcode h o) s = .next (s.goes (s.fresh.cmdUnknown h o)) := rfl

/-- Settles O33, by the tests that a command meets in their order. -/
theorem commandsAreTakenOnceAndRefusedByRule : Obligations.CommandsAreTakenOnceAndRefusedByRule := by
  unfold Obligations.CommandsAreTakenOnceAndRefusedByRule
  refine fun s h => ⟨fun ha => ?nop, fun hdeaf o => ⟨?deafNop, ?deafUnknown⟩, ?heard⟩
  case nop =>
    refine ⟨_, exec_cmdNop s h, ?_⟩
    rw [State.goes_dev, command_accepted ha]
    obtain ⟨hans, -, hsame⟩ := replies_complete s ⟨h, .CMD_NOP, 0, []⟩ .ST_OK []
    exact ⟨hans, hsame⟩
  case deafNop => rw [exec_cmdNop, command_deaf (d := s.fresh) hdeaf]
  case deafUnknown => rw [exec_cmdUnknownOpcode, cmdUnknown_deaf (d := s.fresh) hdeaf]
  case heard =>
    rintro d hdeaf hroom rfl
    refine ⟨fun hp => if_neg hp, fun hp => ?ring0, fun hid => ?noId, fun hid hremote => ⟨fun k hk => ?replay,
      fun hk => ⟨fun hf hforgot => ?duplicate, fun hf hs => ?foreign⟩⟩, fun o => ?unknown⟩
    case ring0 =>
      rw [show s.fresh.fetchCmd h.path = s.fresh.advanceRing 0 1 from if_pos hp]
      obtain ⟨hdev, hhost⟩ := ring_advanceRing s.fresh 0 1
      obtain ⟨m, -, hout⟩ := advanceRing_out s.fresh 0 1
      refine ⟨hdev, hhost, ?_, ?_, fun m hm => ring_advanceRing_ne _ _ hm⟩
      · rw [hout]; rfl
      · exact State.sameBut_of_leaves rfl (leaves_advanceRing (.refl _ _) (hs := rfl) ..)
    case noId =>
      rw [exec_cmdNop, command_no_id (d := s.fresh) ⟨hdeaf, hroom⟩ hid, refuseCmd, cplOf, fetchCmd_epoch, fetchCmd_elec]
      simp only [hid, State.fresh_epoch, State.fresh_elec]
    case replay =>
      have hlost : s.fresh.remoteLost ⟨h, .CMD_NOP, 0, []⟩ = false := by simp [remoteLost, hremote]
      rw [exec_cmdNop, command_replayed (d := s.fresh) ⟨hdeaf, hroom⟩ hid hlost hk]
      exact ⟨rfl, replayOf_origin hk (by simp [isLocal, hremote])⟩
    case duplicate =>
      have hlost : s.fresh.remoteLost ⟨h, .CMD_NOP, 0, []⟩ = false := by simp [remoteLost, hremote]
      rw [exec_cmdNop, command_duplicate (d := s.fresh) ⟨hdeaf, hroom⟩ hid hlost hk hf, recallCpl_of_none_forgotten]
      rw [fetchCmd_host_forgotten]
      exact hforgot
    case foreign =>
      have hlost : s.fresh.remoteLost ⟨h, .CMD_SEEN_FLUSH, 0, []⟩ = false := by simp [remoteLost, hremote]
      rw [exec_cmdSeenFlush, seenFlushCmd, command_foreign (d := s.fresh) ⟨hdeaf, hroom⟩ hid hlost hk hf hs]
    case unknown =>
      have hheard : ¬ (s.fresh.deaf = true ∨ (h.path = .pcie ∧ ¬ s.fresh.cmdRoom = true)) :=
        hears.not_unheard (c := ⟨h, .CMD_NOP, 0, []⟩) ⟨hdeaf, hroom⟩
      rw [exec_cmdUnknownOpcode, cmdUnknown, if_neg hheard]
      dsimp only
      rw [fetchCmd_epoch, fetchCmd_elec]
      rfl

end Sys2Proof.Machine
end

section
/-! PROOFS. The PCIE port's resets (R508, R509, R599). -/

namespace Sys2Proof.Machine

namespace Dev

/-! ### Rings off -/

section DisableRing
variable (d : Dev) {n m : Nat}

theorem ringCtl_disableRing (n : Nat) : (d.disableRing n).ringCtl n = d.ringCtl n &&& 0x7FFFFFFF#32 := SMap.get_set_self ..

theorem ringCtl_disableRing_ne (h : m ≠ n) : (d.disableRing n).ringCtl m = d.ringCtl m :=
  SMap.get_set_ne _ _ _ (by unfold Reg.HR_CTL; omega)

theorem ringOn_disableRing (n : Nat) : (d.disableRing n).ringOn n = false := by
  rw [ringOn_eq, ringCtl_disableRing, bit_toNat, BitVec.getLsbD_and, show (0x7FFFFFFF#32).getLsbD 31 = false from by decide,
    Bool.and_false]

theorem ringOn_disableRing_ne (h : m ≠ n) : (d.disableRing n).ringOn m = d.ringOn m := by
  rw [ringOn_eq, ringCtl_disableRing_ne d h, ringOn_eq]

end DisableRing

/-- Rings of a list disabled one after the other are off. -/
theorem ringOn_each_disableRing {xs : List Nat} {m : Nat} (d : Dev) (h : m ∈ xs ∨ d.ringOn m = false) :
    (d.each xs disableRing).ringOn m = false := by
  unfold each
  induction xs generalizing d with
  | nil => exact h.resolve_left List.not_mem_nil
  | cons n xs ih =>
    refine ih (d.disableRing n) ?_
    by_cases hm : m = n
    case pos => exact .inr (hm ▸ ringOn_disableRing d n)
    case neg =>
      rw [ringOn_disableRing_ne d hm]
      exact h.imp_left fun hmem => (List.mem_cons.mp hmem).resolve_left hm

/-! ### Packets that waited for a ring -/

/-- The queue whose head waits for a receive ring, from the ring's number and what it waits with. -/
def waitQueue (x : Nat × Nat × Nat) : Nat := 72 + 8 * (x.1 - 3) + x.2.2

/-- A packet that waits leaves its queue and is counted (R508). -/
def dropWaitingOne (d : Dev) (x : Nat × Nat × Nat) : Dev :=
  (d.setQueue (waitQueue x) ((d.queue (waitQueue x)).drop 1)).bump (Cnt.RX_STALL_DROP (x.1 - 3))

theorem dropWaiting_eq (d : Dev) :
    d.dropWaiting = d.host.rxWait.foldl dropWaitingOne { d with host := { d.host with rxWait := [] } } := rfl

theorem queue_congr {a b : Dev} (h : a.tm = b.tm) : a.queue = b.queue := by unfold queue; rw [h]

theorem queue_bump (d : Dev) (c : Counter) (n q : Nat) : (d.bump c n).queue q = d.queue q := by rw [queue, bump_tm, queue]

theorem queue_dropWaitingOne (d : Dev) (x : Nat × Nat × Nat) (q : Nat) :
    (d.dropWaitingOne x).queue q = if waitQueue x = q then (d.queue q).drop 1 else d.queue q := by
  unfold dropWaitingOne
  rw [queue_bump]
  split
  case isTrue h => rw [h, queue_setQueue]
  case isFalse h => exact queue_setQueue_ne _ _ (Ne.symm h)

theorem dropWaitingOne_host (d : Dev) (x : Nat × Nat × Nat) : (d.dropWaitingOne x).host = d.host := by
  rw [dropWaitingOne, bump_host, setQueue_host]

theorem foldl_dropWaitingOne (xs : List (Nat × Nat × Nat)) (d : Dev) : (xs.foldl dropWaitingOne d).host = d.host ∧
    ∀ q, (xs.foldl dropWaitingOne d).queue q = (d.queue q).drop (xs.countP (fun x => waitQueue x == q)) := by
  induction xs generalizing d with
  | nil => exact ⟨rfl, fun q => rfl⟩
  | cons x xs ih =>
    obtain ⟨hhost, hqueue⟩ := ih (d.dropWaitingOne x)
    refine ⟨hhost.trans (dropWaitingOne_host d x), fun q => ?_⟩
    rw [List.foldl_cons, hqueue, queue_dropWaitingOne]
    by_cases hq : waitQueue x = q
    case pos => rw [if_pos hq, List.drop_drop, List.countP_cons_of_pos (by simpa using hq), Nat.add_comm]
    case neg => rw [if_neg hq, List.countP_cons_of_neg (by simpa using hq)]

/-- The packets that waited are dropped, and their queues alone change. -/
theorem dropWaiting_effect (d : Dev) : d.dropWaiting.host = { d.host with rxWait := [] } ∧ d.dropWaiting.cfg = d.cfg ∧
    (d.host.rxWait = [] → d.dropWaiting.tm = d.tm) ∧
    ∀ q, d.dropWaiting.queue q = (d.queue q).drop (d.host.rxWait.countP (fun x => waitQueue x == q)) := by
  have hl : Leaves [.cnt, .ev, .host, .tm] d d.dropWaiting := leaves_dropWaiting (.refl _ d) (hs := rfl)
  obtain ⟨hhost, hqueue⟩ := foldl_dropWaitingOne d.host.rxWait { d with host := { d.host with rxWait := [] } }
  rw [dropWaiting_eq] at hl ⊢
  exact ⟨hhost, (hl.same .cfg rfl).symm, fun hnone => by rw [hnone]; rfl, hqueue⟩

@[simp] theorem forgetCmds_inflight (d : Dev) : d.forgetCmds.host.inflight = d.host.inflight := rfl
@[simp] theorem forgetCmds_rxWait (d : Dev) : d.forgetCmds.host.rxWait = d.host.rxWait := rfl
@[simp] theorem forgetCmds_cfg (d : Dev) : d.forgetCmds.cfg = d.cfg := rfl
@[simp] theorem forgetCmds_tm (d : Dev) : d.forgetCmds.tm = d.tm := rfl

/-! ### The effect of a reset of the function -/

theorem clearRings_eq (d : Dev) : d.clearRings = ((d.each (List.range 35) disableRing).forgetCmds).dropWaiting := rfl

theorem each_disableRing_leaves (d : Dev) (xs : List Nat) : Leaves [.cfg] d (d.each xs disableRing) :=
  leaves_each (.refl _ d) _ _ fun _ _ h => leaves_disableRing h (hs := rfl) ..

/-- What a function-level reset does (R508): every ring is off, and the packets that waited are dropped. -/
theorem clearRings_effect (d : Dev) : (∀ n, n < 35 → d.clearRings.ringOn n = false) ∧
    d.clearRings.host.inflight = d.host.inflight ∧ d.clearRings.host.rxWait = [] ∧
    (d.host.rxWait = [] → d.clearRings.tm = d.tm) ∧
    ∀ q, d.clearRings.queue q = (d.queue q).drop (d.host.rxWait.countP (fun x => waitQueue x == q)) := by
  have hon : ∀ n, n < 35 → (d.each (List.range 35) disableRing).ringOn n = false :=
    fun n hn => ringOn_each_disableRing d (.inl (List.mem_range.mpr hn))
  have hoff := each_disableRing_leaves d (List.range 35)
  have hhost : d.host = (d.each (List.range 35) disableRing).host := hoff.same .host rfl
  have htm : d.tm = (d.each (List.range 35) disableRing).tm := hoff.same .tm rfl
  rw [clearRings_eq, hhost, htm, queue_congr htm]
  generalize d.each (List.range 35) disableRing = x at hon ⊢
  obtain ⟨hx, hcfg, hkept, hqueue⟩ := dropWaiting_effect x.forgetCmds
  refine ⟨fun n hn => (ringOn_congr hcfg n).trans (hon n hn), ?_, ?_, hkept, hqueue⟩
  · rw [hx]; rfl
  · rw [hx]

end Dev

open Dev

theorem exec_functionLevelReset (s : State) : exec .functionLevelReset s = .next (s.goes s.fresh.clearRings) := rfl

theorem exec_d3hotEntry (s : State) : exec .d3hotEntry s = .next (s.goes (s.fresh.clearRings.pcieLink .l1D3hot)) := rfl

theorem exec_perstNAssert (s : State) : exec .perstNAssert s = .next (s.goes (s.fresh.clearRings.pcieLink .detect)) := rfl

theorem exec_pcieDmaError (s : State) (n : Fin 35) : exec (.pcieDmaError n) s =
    .next (s.goes ((((s.fresh.disableRing n.val).violate .VIO_PCIE_DMA (le 1 n.val)).bump Cnt.DMA_FAULT).raise .EVT_DMA_FAULT
      (le 1 n.val))) := rfl

/-- A link that leaves L0 shows in the modes of a booted device, and nothing else changes. -/
theorem pcieLink_out_of_L0 (d : Dev) {l : LinkState} (hl : l.inL0 = false) : d.pcieLink l =
    if d.elec.booted = true then { d with modes := { d.modes with link := l } } else d := by
  unfold pcieLink
  cases d.elec.booted <;> simp [hl]

/-- The outcome of a reset of the function that leaves the link as `l`. -/
theorem pcieReset_outcome {s : State} {i : Instr} {l : LinkState} {y : Dev} (he : exec i s = .next (s.goes y))
    (hy : Leaves [.modes] s.fresh.clearRings y)
    (hmodes : y.modes = if s.dev.elec.booted = true then { s.dev.modes with link := l } else s.dev.modes) :
    ∃ t, exec i s = .next t ∧ (∀ n, n < 35 → t.dev.ringOn n = false) ∧
      t.dev.modes = (if s.dev.elec.booted = true then { s.dev.modes with link := l } else s.dev.modes) ∧
      t.dev.snap = s.dev.snap ∧ t.dev.host.inflight = s.dev.host.inflight ∧ t.dev.host.rxWait = [] ∧
      t.dev.stg = s.dev.stg ∧ t.dev.tbl = s.dev.tbl ∧ t.dev.ports = s.dev.ports ∧
      (s.dev.host.rxWait = [] → t.dev.tm = s.dev.tm) ∧
      ∀ q, t.dev.queue q = (s.dev.queue q).drop (s.dev.host.rxWait.countP (fun x => 72 + 8 * (x.1 - 3) + x.2.2 == q)) := by
  obtain ⟨hon, hinflight, hwait, htm, hqueue⟩ := clearRings_effect s.fresh
  have hl : Leaves [.cfg, .cnt, .ev, .host, .tm] s.fresh s.fresh.clearRings := leaves_clearRings (.refl _ _) (hs := rfl)
  have hcfg : s.fresh.clearRings.cfg = y.cfg := hy.same .cfg rfl
  have hhost : s.fresh.clearRings.host = y.host := hy.same .host rfl
  have hytm : s.fresh.clearRings.tm = y.tm := hy.same .tm rfl
  refine ⟨_, he, fun n hn => (ringOn_congr hcfg n).symm.trans (hon n hn), hmodes, ?_, hhost ▸ hinflight, hhost ▸ hwait, ?_, ?_, ?_,
    fun h => hytm ▸ htm h, fun q => ?_⟩
  · exact ((hl.same .snap rfl : s.fresh.snap = _).trans (hy.same .snap rfl)).symm
  · exact ((hl.same .stg rfl : s.fresh.stg = _).trans (hy.same .stg rfl)).symm
  · exact ((hl.same .tbl rfl : s.fresh.tbl = _).trans (hy.same .tbl rfl)).symm
  · exact ((hl.same .ports rfl : s.fresh.ports = _).trans (hy.same .ports rfl)).symm
  · exact (congrFun (queue_congr hytm) q).symm.trans (hqueue q)

/-- Settles O12: each reset of the function clears the rings, and shows the link out of L0 where it leaves it. -/
theorem pcieResetsDisableEveryRing : Obligations.PcieResetsDisableEveryRing := by
  unfold Obligations.PcieResetsDisableEveryRing
  refine fun s => ⟨?resets, rfl, rfl, fun n => ?dma⟩
  case resets =>
    have hl : Leaves [.cfg, .cnt, .ev, .host, .tm] s.fresh s.fresh.clearRings := leaves_clearRings (.refl _ _) (hs := rfl)
    have hmodes : s.fresh.clearRings.modes = s.dev.modes := (hl.same .modes rfl).symm
    have helec : s.fresh.clearRings.elec = s.dev.elec := (hl.same .elec rfl).symm
    have hlink : ∀ l : LinkState, l.inL0 = false → Leaves [.modes] s.fresh.clearRings (s.fresh.clearRings.pcieLink l) ∧
        (s.fresh.clearRings.pcieLink l).modes =
          if s.dev.elec.booted = true then { s.dev.modes with link := l } else s.dev.modes := by
      intro l hl0
      rw [pcieLink_out_of_L0 _ hl0, helec]
      split
      · exact ⟨(Leaves.refl _ _).write (w := .modes) rfl fun v hv => by cases v <;> trivial, by rw [hmodes]⟩
      · exact ⟨.refl _ _, hmodes⟩
    intro r hr
    simp only [List.mem_cons, List.not_mem_nil, or_false] at hr
    obtain rfl | rfl | rfl := hr
    · exact pcieReset_outcome (exec_functionLevelReset s) (.refl _ _) (by rw [hmodes]; split <;> rfl)
    · obtain ⟨hy, hm⟩ := hlink .l1D3hot rfl
      exact pcieReset_outcome (exec_d3hotEntry s) hy hm
    · obtain ⟨hy, hm⟩ := hlink .detect rfl
      exact pcieReset_outcome (exec_perstNAssert s) hy hm
  case dma =>
    refine ⟨_, exec_pcieDmaError s n, ?_⟩
    rw [State.goes_dev]
    have hcfg : ((((s.fresh.disableRing n.val).violate .VIO_PCIE_DMA (le 1 n.val)).bump Cnt.DMA_FAULT).raise .EVT_DMA_FAULT
      (le 1 n.val)).cfg = (s.fresh.disableRing n.val).cfg := by simp
    refine ⟨(ringOn_congr hcfg _).trans (ringOn_disableRing ..), fun m _ hm =>
      (ringOn_congr hcfg m).trans (ringOn_disableRing_ne _ hm), ?_, ?_, ?_, ?_⟩
    · rw [raise_host, bump_host, violate_host]; rfl
    · rw [raise_modes, bump_modes, violate_modes]; rfl
    · rw [raise_tbl, bump_tbl, violate_tbl]; rfl
    · rw [raise_stg, bump_stg, violate_stg]; rfl

end Sys2Proof.Machine
end
section
/-! PROOFS. One clock with no command waiting (R99, R183, R453). -/

namespace Sys2Proof.Machine

namespace Dev

/-! ### Changes port by port -/

/-- Where each step of a list changes the port that it names alone, a port not in the list is as it was. -/
theorem port_each_ne {f : Dev → Nat → Dev} (hf : ∀ d n m, m ≠ n → (f d n).port m = d.port m) {p : Nat} (xs : List Nat) (d : Dev)
    (hp : p ∉ xs) : (d.each xs f).port p = d.port p := by
  unfold each
  induction xs generalizing d with
  | nil => rfl
  | cons n xs ih =>
    rw [List.mem_cons, not_or] at hp
    obtain ⟨hne, hrest⟩ := hp
    exact (ih (f d n) hrest).trans (hf d n p hne)

/-- And a port that the list names once is what its own step makes of it. -/
theorem port_each_mem {f : Dev → Nat → Dev} (hf : ∀ d n m, m ≠ n → (f d n).port m = d.port m) (hup : ∀ d n, (f d n).up = d.up)
    {p : Nat} (xs : List Nat) (d : Dev) (hnd : xs.Nodup) (hp : p ∈ xs) :
    ∃ a : Dev, a.port p = d.port p ∧ a.up = d.up ∧ (d.each xs f).port p = (f a p).port p := by
  induction xs generalizing d with
  | nil => exact absurd hp List.not_mem_nil
  | cons n xs ih =>
    obtain ⟨hn, hnd⟩ := List.nodup_cons.mp hnd
    by_cases hpn : p = n
    case pos =>
      subst hpn
      exact ⟨d, rfl, rfl, port_each_ne hf xs (f d p) hn⟩
    case neg =>
      obtain ⟨a, hport, hupa, he⟩ := ih (f d n) hnd ((List.mem_cons.mp hp).resolve_left hpn)
      exact ⟨a, hport.trans (hf d n p hpn), hupa.trans (hup d n), he⟩

/-! ### A lead that falls due (R99) -/

/-- A port's lead is due: the instant has come. -/
def leadDue (d : Dev) (p : Nat) : Prop := ∃ u, (d.port p).femLeadAt = some u ∧ u ≤ d.up

/-- A port whose lead has begun takes its next map. -/
def leadPort (d : Dev) (p : Nat) : Dev :=
  match (d.port p).femLeadAt with
  | some t => if t ≤ d.up then (d.modPort p (fun x => { x with femLead := true, femLeadAt := none })).refreshFem p else d
  | none => d

theorem femLeads_eq (d : Dev) : d.femLeads = d.each [0, 1, 2, 3] leadPort := rfl

theorem leadPort_due {d : Dev} {p : Nat} (h : d.leadDue p) :
    d.leadPort p = (d.modPort p (fun x => { x with femLead := true, femLeadAt := none })).refreshFem p := by
  obtain ⟨u, hu, hle⟩ := h
  simp [leadPort, hu, hle]

theorem leadPort_not_due {d : Dev} {p : Nat} (h : ¬ d.leadDue p) : d.leadPort p = d := by
  unfold leadPort
  cases hu : (d.port p).femLeadAt with
  | none => rfl
  | some u => exact if_neg fun hle => h ⟨u, hu, hle⟩

theorem leadPort_up (d : Dev) (p : Nat) : (d.leadPort p).up = d.up := by
  by_cases h : d.leadDue p
  · rw [leadPort_due h]; rfl
  · rw [leadPort_not_due h]

theorem port_leadPort_ne (d : Dev) (n m : Nat) (h : m ≠ n) : (d.leadPort n).port m = d.port m := by
  by_cases hd : d.leadDue n
  · rw [leadPort_due hd]
    exact (port_modPort_ne _ _ h).trans (port_modPort_ne _ _ h)
  · rw [leadPort_not_due hd]

/-- What a lead changes of its port: the lines, the driver and the lead's own marks. -/
theorem port_leadPort (d : Dev) (p : Nat) : ∃ lines driver lead leadAt,
    (d.leadPort p).port p = { d.port p with femLines := lines, driver := driver, femLead := lead, femLeadAt := leadAt } ∧
      (d.leadDue p → lead = true ∧ leadAt = none) := by
  by_cases h : d.leadDue p
  · rw [leadPort_due h, refreshFem, port_modPort, port_modPort]
    exact ⟨_, _, _, _, rfl, fun _ => ⟨rfl, rfl⟩⟩
  · rw [leadPort_not_due h]
    exact ⟨_, _, _, _, rfl, fun hd => absurd hd h⟩

/-- A pass over the ports changes each in its lead alone. -/
theorem port_femLeads (d : Dev) (p : Nat) : ∃ lines driver lead leadAt,
    d.femLeads.port p = { d.port p with femLines := lines, driver := driver, femLead := lead, femLeadAt := leadAt } ∧
      (p < 4 → d.leadDue p → lead = true ∧ leadAt = none) ∧ (¬ d.leadDue p → d.femLeads.port p = d.port p) := by
  rw [femLeads_eq]
  by_cases hp : p ∈ [0, 1, 2, 3]
  case pos =>
    obtain ⟨a, hport, hup, he⟩ := port_each_mem port_leadPort_ne leadPort_up [0, 1, 2, 3] d (by decide) hp
    obtain ⟨lines, driver, lead, leadAt, hl, hdue⟩ := a.port_leadPort p
    have hiff : a.leadDue p ↔ d.leadDue p := by unfold leadDue; rw [hport, hup]
    refine ⟨lines, driver, lead, leadAt, ?_, fun _ h => hdue (hiff.2 h), fun h => ?_⟩
    · rw [he, hl, hport]
    · rw [he, leadPort_not_due (mt hiff.1 h), hport]
  case neg =>
    rw [port_each_ne port_leadPort_ne _ _ hp]
    exact ⟨_, _, _, _, rfl, fun h => absurd (by simp; omega) hp, fun _ => rfl⟩

/-! ### Stamped frames that end -/

/-- The clock of two states reads the same. -/
def sameClock (a b : Dev) : Prop :=
  b.time.ns = a.time.ns ∧ b.time.frac = a.time.frac ∧ b.time.up = a.time.up ∧ b.time.cycles = a.time.cycles

theorem sameClock.of_time {a b : Dev} (h : b.time = a.time) : a.sameClock b := by
  unfold sameClock
  rw [h]
  exact ⟨rfl, rfl, rfl, rfl⟩

theorem sameClock.trans {a b c : Dev} (h : a.sameClock b) (g : b.sameClock c) : a.sameClock c := by
  obtain ⟨h1, h2, h3, h4⟩ := h
  obtain ⟨g1, g2, g3, g4⟩ := g
  exact ⟨g1.trans h1, g2.trans h2, g3.trans h3, g4.trans h4⟩

theorem sameClock_ptpSent (d : Dev) (e : Nat) (x : PtpOut) (t : Nat) : d.sameClock (d.ptpSent e x t) := by
  unfold ptpSent
  split
  all_goals exact ⟨rfl, rfl, rfl, rfl⟩

theorem sameClock_frameEnd (d : Dev) (e : Nat) : d.sameClock (d.frameEnd e) := by
  unfold frameEnd
  split
  case h_1 => exact .of_time rfl
  case h_2 w _ =>
    dsimp only
    split
    case isTrue => exact .of_time rfl
    case isFalse =>
      split
      case h_1 =>
        exact .of_time ((leaves_putEthStamp (us := [.cnt, .ev, .links]) (.refl _ (d.modEth e (fun x => { x with wire := none }))) e w.stamp
          (hs := rfl)).same .time rfl).symm
      case h_2 =>
        split
        · exact sameClock_ptpSent (d.modEth e _) ..
        · split
          · exact .of_time (by simp)
          · exact .of_time (by simp)

theorem sameClock_frameEnds (d : Dev) : d.sameClock d.frameEnds := by
  unfold frameEnds each
  generalize [0, 1, 2, 3] = xs
  induction xs generalizing d with
  | nil => exact .of_time rfl
  | cons e xs ih => exact (sameClock_frameEnd d e).trans (ih _)

/-! ### Denied frames and exchanges -/

/-- No denied frame of a port reaches its E, and no exchange its end. -/
def exchQuiet (d : Dev) (p : Nat) : Prop :=
  (∀ y ∈ (d.port p).denied, d.up < y.2) ∧ ∀ y ∈ (d.port p).exchAt, d.up < y.2

theorem filter_due_eq_nil {t : Nat} {xs : SMap Nat} (h : ∀ y ∈ xs, t < y.2) : xs.filter (fun y => decide (y.2 ≤ t)) = [] :=
  List.filter_eq_nil_iff.mpr fun y hy => by simpa using h y hy

theorem exchDue_quiet {d : Dev} (h : ∀ p, p < 4 → d.exchQuiet p) : d.exchDue = d := by
  have hstep : ∀ p ∈ [0, 1, 2, 3], d.exchQuiet p := fun p hp => h p (by simp at hp; omega)
  unfold exchDue each
  generalize [0, 1, 2, 3] = xs at hstep
  induction xs with
  | nil => rfl
  | cons p xs ih =>
    obtain ⟨hdenied, hexch⟩ := hstep p List.mem_cons_self
    have hrest := ih fun q hq => hstep q (List.mem_cons_of_mem _ hq)
    rw [List.foldl_cons]
    simp only [filter_due_eq_nil hdenied, filter_due_eq_nil hexch, List.map_nil, List.foldl_nil, ite_self]
    exact hrest

/-! ### One clock -/

/-- The clock's registers, one clock on (R453). -/
def clocked (d : Dev) : Dev :=
  { d with time := { d.time with
      ns := (d.time.ns + (d.time.frac + clockStep d.time.rate) / 2 ^ 32) % 2 ^ 64
      frac := (d.time.frac + clockStep d.time.rate) % 2 ^ 32, up := d.time.up + 4, cycles := d.time.cycles + 1 } }

theorem tickClock_held {d : Dev} (h : d.heldReset = true) : d.tickClock = d := if_pos h

theorem tickClock_running {d : Dev} (h : d.heldReset = false) :
    d.tickClock = d.clocked.frameEnds.femLeads.exchDue.contentionLog := if_neg (by rw [h]; exact Bool.false_ne_true)

theorem clocked_instant (d : Dev) : d.clocked.time.ns * 2 ^ 32 + d.clocked.time.frac =
    (d.time.ns * 2 ^ 32 + d.time.frac + clockStep d.time.rate) % 2 ^ 96 := by
  show (d.time.ns + (d.time.frac + clockStep d.time.rate) / 2 ^ 32) % 2 ^ 64 * 2 ^ 32 +
    (d.time.frac + clockStep d.time.rate) % 2 ^ 32 = _
  omega

end Dev

open Dev

theorem step_idle {s : State} (h : s.pending = []) : step s = .next (s.goes s.fresh.tickClock) := by
  obtain ⟨dev, pending⟩ := s
  subst h
  rfl

/-- Settles O4: the clock's registers, and what falls due with them. -/
theorem idleStepIsOneClock : Obligations.IdleStepIsOneClock := by
  unfold Obligations.IdleStepIsOneClock
  intro s hs
  refine ⟨fun hheld => ?held, fun hheld => ⟨_, step_idle hs, hs, ?_⟩⟩
  case held => rw [step_idle hs, tickClock_held hheld]
  rw [State.goes_dev, tickClock_running hheld]
  have hends : Leaves [.out, .cnt, .vio, .ev, .ports, .time, .links] s.fresh s.fresh.clocked.frameEnds :=
    leaves_frameEnds (leaves_time (.refl _ _) _ rfl) (hs := rfl)
  have hleads : Leaves [.out, .cnt, .vio, .ev, .ports, .time, .links] s.fresh s.fresh.clocked.frameEnds.femLeads :=
    leaves_femLeads hends (hs := rfl)
  have hlate : Leaves [.freeCtr, .cnt, .vio, .ev, .ports, .lanes, .txc, .tm] s.fresh.clocked.frameEnds
      s.fresh.clocked.frameEnds.femLeads.exchDue.contentionLog :=
    leaves_contentionLog (leaves_exchDue (leaves_femLeads (.refl _ _) (hs := rfl)) (hs := rfl)) (hs := rfl)
  obtain ⟨hns, hfrac, hup, hcycles⟩ := sameClock_frameEnds s.fresh.clocked
  rw [← (hlate.same .time rfl : s.fresh.clocked.frameEnds.time = _), hns, hfrac, hup, hcycles]
  refine ⟨clocked_instant s.fresh, rfl, rfl, ?frame, fun hquiet => ?quiet⟩
  case frame =>
    exact State.sameBut_of_leaves rfl (leaves_contentionLog (leaves_exchDue (leaves_femLeads (leaves_frameEnds (leaves_time
      (.refl _ _) _ rfl) (hs := rfl)) (hs := rfl)) (hs := rfl)) (hs := rfl))
  case quiet =>
    have hport : ∀ p, s.fresh.clocked.frameEnds.port p = s.dev.port p := fun p =>
      ((leaves_frameEnds (us := [.cnt, .ev, .time, .links]) (.refl _ s.fresh.clocked) (hs := rfl)).port rfl p).trans rfl
    have hupLeads : s.fresh.clocked.frameEnds.femLeads.up = s.dev.time.up + 4 :=
      (congrArg TimeSt.up ((leaves_femLeads (us := [.ports]) (.refl _ s.fresh.clocked.frameEnds) (hs := rfl)).same .time rfl)).symm.trans hup
    have hexch : ∀ p, p < 4 → s.fresh.clocked.frameEnds.femLeads.exchQuiet p := by
      intro p hp
      obtain ⟨lines, driver, lead, leadAt, he, -⟩ := s.fresh.clocked.frameEnds.port_femLeads p
      unfold exchQuiet
      rw [he, hport, hupLeads]
      exact hquiet p hp
    rw [exchDue_quiet hexch]
    have hlog : Leaves [.cnt, .vio, .ev] s.fresh.clocked.frameEnds.femLeads s.fresh.clocked.frameEnds.femLeads.contentionLog :=
      leaves_contentionLog (.refl _ _) (hs := rfl)
    refine ⟨fun p => ?_, State.sameBut_of_leaves rfl (leaves_contentionLog hleads (hs := rfl)), fun p hp => ⟨fun hno => ?_,
      fun u hu hle => ?_⟩⟩
    · obtain ⟨lines, driver, lead, leadAt, he, -⟩ := s.fresh.clocked.frameEnds.port_femLeads p
      rw [hlog.port rfl, he, hport]
    · obtain ⟨-, -, -, -, -, -, hkeep⟩ := s.fresh.clocked.frameEnds.port_femLeads p
      rw [hlog.port rfl, hkeep, hport]
      rintro ⟨u, hu, hle⟩
      rw [hport] at hu
      exact Nat.not_lt.mpr (hle.trans_eq hup) (hno u hu)
    · obtain ⟨lines, driver, lead, leadAt, he, hdue, -⟩ := s.fresh.clocked.frameEnds.port_femLeads p
      rw [hlog.port rfl, he]
      exact hdue hp ⟨u, (hport p).symm ▸ hu, hle.trans_eq hup.symm⟩

end Sys2Proof.Machine
end

section
/-! PROOFS. CMD_KEY_SET (R423 to R426): the first outcome of its order is decided on the keys as commands see them, and a
command that none refuses waits for its boundary. -/

namespace Sys2Proof.Machine.Dev

/-! ### What the order of R425 reads -/

theorem commandView_lc (d : Dev) : d.commandView.sec.lc = d.sec.lc := by
  unfold commandView
  split <;> rfl

theorem commandView_migrationPending (d : Dev) : d.commandView.sec.migrationPending = d.sec.migrationPending := by
  unfold commandView
  split <;> rfl

theorem commandView_sec_congr {a b : Dev} (h : a.sec = b.sec) : a.commandView.sec = b.commandView.sec := by
  unfold commandView
  rw [h]
  split
  · rfl
  · exact h

theorem commandView_otp (d : Dev) : d.commandView.otp = d.otp := by
  unfold commandView
  split <;> rfl

/-- The refusals read one-time-programmable storage and the stored keys, and nothing else of the device. -/
theorem keySetRefusal_congr {a b : Dev} (ho : a.otp = b.otp) (hs : a.sec = b.sec) (c : Cmd) (op : Nat) :
    a.keySetRefusal c op = b.keySetRefusal c op := by
  have hreads : a.keySetRefusal c op = keySetRefusal { b with otp := a.otp, sec := a.sec } c op := rfl
  rw [hreads, ho, hs]

theorem commandView_keySetRefusal_congr {a b : Dev} (ho : a.otp = b.otp) (hs : a.sec = b.sec) (c : Cmd) (op : Nat) :
    a.commandView.keySetRefusal c op = b.commandView.keySetRefusal c op :=
  keySetRefusal_congr (by rw [commandView_otp, commandView_otp, ho]) (commandView_sec_congr hs) c op

/-- The life cycle comes first in the order of R425. -/
theorem keySetRefusal_lifecycle {d : Dev} (h : d.keysAllowed = false) (c : Cmd) (op : Nat) :
    d.keySetRefusal c op = some .ST_WRONG_LIFECYCLE := by
  simp only [keySetRefusal, h, Bool.false_eq_true, not_false_eq_true, if_true]

/-- A migration that waits comes second. -/
theorem keySetRefusal_migration {d : Dev} (h : d.keysAllowed = true) (hm : d.sec.migrationPending = true) (c : Cmd) (op : Nat) :
    d.keySetRefusal c op = some .ST_MIGRATION_PENDING := by
  simp only [keySetRefusal, h, hm, not_true_eq_false, if_false, if_true]

theorem keysAllowed_eq_true (d : Dev) : d.keysAllowed = true ↔ d.sec.lc = 1 ∨ d.sec.lc = 2 := by
  simp [keysAllowed]

theorem commandView_keysAllowed (d : Dev) : d.commandView.keysAllowed = d.keysAllowed := by
  simp only [keysAllowed, commandView_lc]

/-! ### The command, accepted -/

/-- An invalidation that waits shows at once that it is pending (R426). -/
def keyPending (d : Dev) (op slot : Nat) : Dev :=
  if op = 3 then d.modKey slot (fun x => { x with pendingInvalid := true }) else d

theorem keyPending_stg (d : Dev) (op slot : Nat) : (d.keyPending op slot).stg = d.stg := by
  unfold keyPending
  split <;> rfl

theorem keyPending_host (d : Dev) (op slot : Nat) : (d.keyPending op slot).host = d.host := by
  unfold keyPending
  split <;> rfl

section Accepted
variable {d : Dev} {h : Hdr} {p : List Byte} {op : Nat} (ha : d.accepts ⟨h, .CMD_KEY_SET, op, p⟩)
include ha

theorem keySet_refused {st : Status} (hr : d.commandView.keySetRefusal ⟨h, .CMD_KEY_SET, op, p⟩ op = some st) :
    d.keySet h p op = (d.taken ⟨h, .CMD_KEY_SET, op, p⟩).complete ⟨h, .CMD_KEY_SET, op, p⟩ st := by
  rw [keySet, command_accepted ha]
  simp only [commandView_keySetRefusal_congr (taken_otp d _) (taken_sec d _), hr]

theorem keySet_passed (hr : d.commandView.keySetRefusal ⟨h, .CMD_KEY_SET, op, p⟩ op = none)
    (hp : bit (fld p 1 1) 0 = true ∧ d.freezePassed (ksEpoch p) = true) :
    d.keySet h p op =
      (d.taken ⟨h, .CMD_KEY_SET, op, p⟩).complete ⟨h, .CMD_KEY_SET, op, p⟩ .ST_EPOCH_PASSED := by
  rw [keySet, command_accepted ha]
  simp only [commandView_keySetRefusal_congr (taken_otp d _) (taken_sec d _), hr, taken_freezePassed, if_pos hp]

theorem keySet_staged (hr : d.commandView.keySetRefusal ⟨h, .CMD_KEY_SET, op, p⟩ op = none)
    (hp : ¬ (bit (fld p 1 1) 0 = true ∧ d.freezePassed (ksEpoch p) = true)) :
    d.keySet h p op =
      ((d.taken ⟨h, .CMD_KEY_SET, op, p⟩).keyPending op (ksSlotField p)).stageCmd ⟨h, .CMD_KEY_SET, op, p⟩
        (if bit (fld p 1 1) 0 = true then some (ksEpoch p) else none) := by
  rw [keySet, command_accepted ha]
  simp only [commandView_keySetRefusal_congr (taken_otp d _) (taken_sec d _), hr, taken_freezePassed, if_neg hp, keyPending]

end Accepted

/-- What CMD_KEY_SET comes to for each OP, decided by the keys as commands see them before it. -/
theorem keySet_effect {s : State} {h : Hdr} {p : List Byte} {op : Nat} (ha : s.fresh.accepts ⟨h, .CMD_KEY_SET, op, p⟩) :
    (s.dev.sec.lc ≠ 1 → s.dev.sec.lc ≠ 2 →
      s.dev.replies ⟨h, .CMD_KEY_SET, op, p⟩ .ST_WRONG_LIFECYCLE (s.fresh.keySet h p op)) ∧
    ((s.dev.sec.lc = 1 ∨ s.dev.sec.lc = 2) → s.dev.sec.migrationPending = true →
      s.dev.replies ⟨h, .CMD_KEY_SET, op, p⟩ .ST_MIGRATION_PENDING (s.fresh.keySet h p op)) ∧
    (∀ st, s.dev.commandView.keySetRefusal ⟨h, .CMD_KEY_SET, op, p⟩ op = some st →
      s.dev.replies ⟨h, .CMD_KEY_SET, op, p⟩ st (s.fresh.keySet h p op)) ∧
    (s.dev.commandView.keySetRefusal ⟨h, .CMD_KEY_SET, op, p⟩ op = none →
      (if bit (fld p 1 1) 0 = true ∧ s.dev.freezePassed (ksEpoch p) = true then
        s.dev.replies ⟨h, .CMD_KEY_SET, op, p⟩ .ST_EPOCH_PASSED (s.fresh.keySet h p op)
      else (s.fresh.keySet h p op) =
        ((s.fresh.taken ⟨h, .CMD_KEY_SET, op, p⟩).keyPending op (ksSlotField p)).stageCmd ⟨h, .CMD_KEY_SET, op, p⟩
          (if bit (fld p 1 1) 0 = true then some (ksEpoch p) else none))) := by
  have hview : s.fresh.commandView.keySetRefusal ⟨h, .CMD_KEY_SET, op, p⟩ op =
      s.dev.commandView.keySetRefusal ⟨h, .CMD_KEY_SET, op, p⟩ op := commandView_keySetRefusal_congr (a := s.fresh) (b := s.dev) rfl rfl _ _
  have hrefused : ∀ st, s.dev.commandView.keySetRefusal ⟨h, .CMD_KEY_SET, op, p⟩ op = some st →
      s.dev.replies ⟨h, .CMD_KEY_SET, op, p⟩ st (s.fresh.keySet h p op) := fun st hr => by
    rw [keySet_refused ha (hview.trans hr)]
    exact replies_complete ..
  refine ⟨fun h1 h2 => hrefused _ (keySetRefusal_lifecycle ?_ _ _),
    fun hlc hm => hrefused _ (keySetRefusal_migration ?_ ?_ _ _), hrefused, fun hr => ?_⟩
  · rw [commandView_keysAllowed, Bool.eq_false_iff, ne_eq, keysAllowed_eq_true]
    exact not_or.2 ⟨h1, h2⟩
  · rw [commandView_keysAllowed, keysAllowed_eq_true]
    exact hlc
  · rw [commandView_migrationPending, hm]
  · split
    · rename_i hp
      rw [keySet_passed ha (hview.trans hr) hp]
      exact replies_complete ..
    · rename_i hp
      exact keySet_staged ha (hview.trans hr) hp

/-- A CMD_KEY_SET that is staged waits unanswered, with every key as it was but the mark of an invalidation. -/
theorem keySet_waits {s : State} {c : Cmd} {at_ : Option Nat} {op slot : Nat} {t : Dev}
    (ht : t = ((s.fresh.taken c).keyPending op slot).stageCmd c at_) :
    t.stg.cmds = s.dev.stg.cmds ++ [⟨c, at_, false⟩] ∧ t.host.hist = s.dev.host.hist ∧
      (op ≠ 3 → t.sec = s.dev.sec) ∧
      (op = 3 → t.key slot = { s.dev.key slot with pendingInvalid := true } ∧
        ∀ n, n ≠ slot → t.key n = s.dev.key n) := by
  subst ht
  have hkey (n : Nat) : (((s.fresh.taken c).keyPending op slot).stageCmd c at_).key n =
      ((s.fresh.taken c).keyPending op slot).key n := key_congr (by simp [stageCmd]) n
  have htaken (n : Nat) : (s.fresh.taken c).key n = s.dev.key n := key_congr (by simp) n
  refine ⟨by simp [stageCmd, keyPending_stg], by simp [stageCmd, keyPending_host], fun hop => ?_, fun hop => ⟨?_, fun n hn => ?_⟩⟩
  · simp [stageCmd, keyPending, hop]
  · rw [hkey, keyPending, if_pos hop, key_modKey, htaken]
  · rw [hkey, keyPending, if_pos hop, key_modKey_ne _ _ hn, htaken]

end Sys2Proof.Machine.Dev

namespace Sys2Proof.Machine

open Dev

/-- Settles O40: for each OP the command is `keySet` on its payload, and `keySet_effect` decides what that comes to. -/
theorem keySetIsRefusedOrStaged : Obligations.KeySetIsRefusedOrStaged := by
  unfold Obligations.KeySetIsRefusedOrStaged
  intro s h p blob r hr ha
  have hrun : exec r.1 s = .next (s.goes (s.fresh.keySet h r.2.2 r.2.1)) := by
    simp only [List.mem_cons, List.not_mem_nil, or_false] at hr
    obtain rfl | rfl | rfl | rfl := hr <;> rfl
  obtain ⟨hlc, hmig, href, hstage⟩ := keySet_effect ha
  refine ⟨_, hrun, hlc, hmig, href, fun hn => ?_⟩
  have hst := hstage hn
  split at hst
  · rename_i hp
    rw [if_pos hp]
    exact hst
  · rename_i hp
    rw [if_neg hp]
    exact keySet_waits hst

end Sys2Proof.Machine
end
section
/-! PROOFS. Keystore records (R444), the reload of a stored slot (R588) and the end of a key derivation (R428, R438). -/

namespace Sys2Proof.Machine.Dev

/-! ### The end of a record write (R444) -/

theorem writeIfDue_of_not_due {d : Dev} (h : d.sec.nextDue = false) : d.writeIfDue = d := by
  simp only [writeIfDue, h, Bool.false_eq_true, false_and, and_false, if_false]

theorem writeDone_none {d : Dev} (h : d.sec.write = none) (ok : Bool) : d.writeDone ok = d := by
  simp only [writeDone, h]

theorem writeDone_retry {d : Dev} {w : KsWrite} (h : d.sec.write = some w) (hr : w.retried = false) :
    d.writeDone false = { d with sec := { d.sec with write := some { w with retried := true } } } := by
  simp only [writeDone, h, hr, Bool.false_eq_true, if_false, not_false_eq_true, if_true]

/-- The record is in its slot of boot flash, and no write is in progress. -/
def recordWritten (d : Dev) (w : KsWrite) : Dev :=
  ({ d with sec := { d.sec with write := none } }).setKs w.into (some w.rcd)

/-- The record written is the one in use. -/
def recordInUse (d : Dev) (w : KsWrite) : Dev :=
  { d.recordWritten w with sec := { (d.recordWritten w).sec with ksSlot := w.into } }

theorem recordWritten_sec (d : Dev) (w : KsWrite) : (d.recordWritten w).sec = { d.sec with write := none } := setKs_sec ..

theorem recordWritten_rest (d : Dev) (w : KsWrite) :
    (d.recordWritten w).otp = d.otp ∧ (d.recordWritten w).host = d.host := by
  unfold recordWritten setKs
  split <;> exact ⟨rfl, rfl⟩

theorem dropUnremoved_rest (d : Dev) (es : SMap KeySlot) :
    d.dropUnremoved es = { d with sec := { d.sec with keys := (d.dropUnremoved es).sec.keys } } := rfl

section Write
variable {d : Dev} {w : KsWrite} (hw : d.sec.write = some w) (hm : w.migrate = none) (hc : w.cmds = [])
  (hn : d.sec.nextDue = false)
include hw hm hc hn

/-- A write that succeeds, with no migration, command or change that waits for it. -/
theorem writeDone_succeeds : d.writeDone true = (d.recordInUse w).dropUnremoved w.rcd.entries := by
  have hdue : ((d.recordInUse w).dropUnremoved w.rcd.entries).sec.nextDue = false := by
    rw [dropUnremoved_rest]
    show (d.recordWritten w).sec.nextDue = false
    rw [recordWritten_sec]
    exact hn
  rw [← writeIfDue_of_not_due hdue]
  simp only [writeDone, hw, if_true, hm, hc, List.foldl_nil]
  rfl

/-- A second failure ends the write (R444). -/
theorem writeDone_gives_up (hr : w.retried = true) : d.writeDone false =
    (({ d with sec := { d.sec with write := none } }).bump Cnt.KS_WRITE_FAIL).raise .EVT_KEYSTORE_FAIL [] := by
  have hdue : ((({ d with sec := { d.sec with write := none } }).bump Cnt.KS_WRITE_FAIL).raise
      .EVT_KEYSTORE_FAIL []).sec.nextDue = false := by simpa using hn
  rw [← writeIfDue_of_not_due hdue]
  simp only [writeDone, hw, hm, hc, hr, Bool.false_eq_true, if_false, not_true_eq_false, List.foldl_nil]

end Write

/-! ### The reload of a slot (R588) -/

theorem keyReload_idle {d : Dev} {n : Nat} (h : (d.key n).reloading = false) : d.keyReload n = d := by
  simp only [keyReload, h, Bool.false_eq_true, not_false_eq_true, if_true]

theorem keyReload_of_record {d : Dev} {n : Nat} {x : KsRecord} {k : KeySlot} (h : (d.key n).reloading = true)
    (hs : d.sec.ksSlot = 0) (hx : d.ks0 = some x) (hk : x.entries.find n = some k) : d.keyReload n =
      (d.modKey n (fun y => { k with gen := y.gen, pendingInvalid := y.pendingInvalid, reloading := false })).bump
        Cnt.ECC_RESTORED := by
  simp only [keyReload, h, not_true_eq_false, if_false, hs, if_true, hx, hk]

/-! ### The end of a derivation (R428, R438) -/

theorem kdfDone_idle {d : Dev} (h : d.sec.kdfs = []) : d.kdfDone = d := by
  simp only [kdfDone, h]

/-- A derivation has ended: it has left the KDF units, and KDF_DERIVE counts it. -/
def derived (d : Dev) (rest : List KeyTag) : Dev :=
  ({ d with sec := { d.sec with kdfs := rest } }).bump Cnt.KDF_DERIVE

theorem derived_sec (d : Dev) (rest : List KeyTag) : (d.derived rest).sec = { d.sec with kdfs := rest } := by
  simp [derived]

theorem derived_key (d : Dev) (rest : List KeyTag) (n : Nat) : (d.derived rest).key n = d.key n := by
  rw [key, derived_sec]
  rfl

theorem kdfDone_cons {d : Dev} {k : KeyTag} {rest : List KeyTag} (h : d.sec.kdfs = k :: rest) : d.kdfDone =
    if (d.key k.slot).valid = true ∧ (d.key k.slot).gen = k.gen then (d.derived rest).cachePlace k else d.derived rest := by
  rw [← derived_key d rest, kdfDone, h]
  rfl

/-- Placing a key makes it the most recently used, and touches nothing of the keys but the cache. -/
theorem cachePlace_sec (d : Dev) (t : KeyTag) :
    ∃ c, (d.cachePlace t).sec = { d.sec with cache := t :: c } := by
  unfold cachePlace
  dsimp only
  split
  · exact ⟨_, rfl⟩
  · split
    · exact ⟨_, by simp; rfl⟩
    · exact ⟨_, rfl⟩

end Sys2Proof.Machine.Dev

namespace Sys2Proof.Machine

open Dev

/-- Settles O41: how a record write ends, what a reload restores, and which derived keys are placed. -/
theorem keystoreRecordsAreWrittenTwiceThenGivenUp : Obligations.KeystoreRecordsAreWrittenTwiceThenGivenUp := by
  unfold Obligations.KeystoreRecordsAreWrittenTwiceThenGivenUp
  intro s
  have hwrite (ok : Bool) : exec (.keystoreWriteDone ok) s = .next (s.goes (s.fresh.writeDone ok)) := rfl
  have hreload (n : Fin 1024) : exec (.keySlotReload n) s = .next (s.goes (s.fresh.keyReload n.val)) := rfl
  have hkdf : exec .kdfDone s = .next (s.goes s.fresh.kdfDone) := rfl
  refine ⟨fun h ok => ?_, fun w hw => ⟨fun hm hc hn => ?_, fun hr => ?_, fun hr hm hc hn hcnt => ?_⟩, fun n h => ?_,
    fun n x k h hs hx hk => ?_, fun h => ?_, fun k rest h => ?_⟩
  · rw [hwrite, writeDone_none (d := s.fresh) h]
  · refine ⟨_, hwrite true, ?_⟩
    rw [State.goes_dev, writeDone_succeeds (d := s.fresh) hw hm hc hn, dropUnremoved_rest]
    refine ⟨rfl, ?_, (s.fresh.recordWritten_rest w).1, (s.fresh.recordWritten_rest w).2, setKs_slots _ w.into (some w.rcd)⟩
    exact congrArg Sec.write (s.fresh.recordWritten_sec w)
  · rw [hwrite, writeDone_retry (d := s.fresh) hw hr]
    rfl
  · refine ⟨_, hwrite false, ?_⟩
    rw [State.goes_dev, writeDone_gives_up (d := s.fresh) hw hm hc hn hr]
    refine ⟨by simp, by simp, by simp, ?_⟩
    rw [raise, count_raiseIn_ne _ _ _ _ _ (by decide), count_bump _ _ _ rfl]
    have hsame : count { s.fresh with sec := { s.fresh.sec with write := none } } Cnt.KS_WRITE_FAIL =
      s.dev.count Cnt.KS_WRITE_FAIL := rfl
    rw [hsame]
    omega
  · rw [hreload, keyReload_idle (d := s.fresh) h]
  · refine ⟨_, hreload n, ?_⟩
    rw [State.goes_dev, keyReload_of_record (d := s.fresh) h hs hx hk]
    have hkey (m : Nat) (f : KeySlot → KeySlot) : ((s.fresh.modKey n.val f).bump Cnt.ECC_RESTORED).key m =
      (s.fresh.modKey n.val f).key m := key_congr (by simp) m
    refine ⟨?_, fun m hm => ?_, by simp⟩
    · rw [hkey, key_modKey]
      rfl
    · rw [hkey, key_modKey_ne _ _ hm]
      rfl
  · rw [hkdf, kdfDone_idle (d := s.fresh) h]
  · refine ⟨_, hkdf, ?_⟩
    rw [State.goes_dev, kdfDone_cons (d := s.fresh) h]
    rw [State.fresh_key]
    by_cases hlive : (s.dev.key k.slot).valid = true ∧ (s.dev.key k.slot).gen = k.gen
    · rw [if_pos hlive]
      obtain ⟨c, hc⟩ := (s.fresh.derived rest).cachePlace_sec k
      rw [hc, derived_sec]
      refine ⟨rfl, rfl, fun _ _ => rfl, fun hdead => ?_⟩
      simp [hlive.1, hlive.2] at hdead
    · rw [if_neg hlive, derived_sec]
      exact ⟨rfl, rfl, fun hv hg => absurd ⟨hv, hg⟩ hlive, fun _ => rfl⟩

end Sys2Proof.Machine
end
section
/-! PROOFS. CMD_KEY_MIGRATE (R445 to R447): the order of its refusals, and the record whose write it starts. -/

namespace Sys2Proof.Machine.Dev

/-! ### The record of a write that starts (R441, R444) -/

/-- The write that starts for the slots that pass a test. -/
def newWrite (d : Dev) (meas : List Byte) (p : KeySlot → Bool) (cmds : List Completion) (mig : Option Cmd) : KsWrite :=
  ⟨d.sealRecord ⟨d.ksCounter + 1, d.sec.lc, meas, d.recordEntries p, []⟩, d.ksOther, false, cmds, mig⟩

theorem startWrite_sec (d : Dev) (meas : List Byte) (p : KeySlot → Bool) (cmds : List Completion) (mig : Option Cmd) :
    (d.startWrite meas p cmds mig).sec = { d.sec with write := some (d.newWrite meas p cmds mig) } := setKs_sec ..

theorem startWrite_host (d : Dev) (meas : List Byte) (p : KeySlot → Bool) (cmds : List Completion) (mig : Option Cmd) :
    (d.startWrite meas p cmds mig).host = d.host := by
  unfold startWrite setKs
  dsimp only
  split <;> rfl

/-- A record holds valid keys that are in boot flash's keeping and pass the test (R441, R449). -/
theorem of_mem_recordEntries {d : Dev} {p : KeySlot → Bool} {n : Nat} {k : KeySlot} (h : (n, k) ∈ d.recordEntries p) :
    ∃ x : KeySlot, x.valid = true ∧ x.volatile = false ∧ p x = true ∧
      k = { x with pendingInvalid := false, unremoved := false, reloading := false } := by
  unfold recordEntries at h
  obtain ⟨⟨m, x⟩, hx, heq⟩ := List.mem_map.1 h
  obtain ⟨rfl, rfl⟩ := Prod.mk.inj heq
  obtain ⟨-, hp⟩ := List.mem_filter.1 hx
  simp only [Bool.and_eq_true, Bool.not_eq_true'] at hp
  obtain ⟨⟨hv, hvol⟩, hp⟩ := hp
  exact ⟨x, hv, hvol, hp, rfl⟩

theorem ksCounter_congr {a b : Dev} (hs : a.sec = b.sec) (h0 : a.ks0 = b.ks0) (h1 : a.ks1 = b.ks1) :
    a.ksCounter = b.ksCounter := by
  unfold ksCounter
  rw [hs, h0, h1]

/-! ### The refusals of CMD_KEY_MIGRATE (R446) -/

section Refusals
variable {d : Dev} {h : Hdr} {p : List Byte} {m : Option (List Byte)} (ha : d.accepts ⟨h, .CMD_KEY_MIGRATE, 0, p⟩)
include ha

/-- The command, accepted, decided on the state before it. -/
theorem keyMigrate_accepted : d.keyMigrate h p m =
    (let c : Cmd := ⟨h, .CMD_KEY_MIGRATE, 0, p⟩
    if ¬ d.keysAllowed = true then (d.taken c).complete c .ST_WRONG_LIFECYCLE
    else if d.sec.migrationPending = true then (d.taken c).complete c .ST_MIGRATION_PENDING
    else if d.sec.write.isSome = true then (d.taken c).complete c .ST_BUSY
    else if 1 < fld p 0 1 ∨ ¬ zeros p 1 7 = true ∨ ¬ zeros p 0x14 44 = true ∨ fld p 0x10 4 < 0x15E8 ∨
        4194304 < fld p 0x10 4 then (d.taken c).complete c .ST_BAD_PARAM
    else match m with
      | none => (d.taken c).complete c .ST_TRANSFER_FAIL
      | some x => match d.manifestBad (slice x 0 (fld p 0x10 4)) with
        | some o => (d.taken c).complete c .ST_MANIFEST_REFUSED (le 4 o)
        | none =>
          if fld x 8 4 < d.otp.secMin then (d.taken c).complete c .ST_ROLLBACK
          else ((d.taken c).holdCmd c).startWrite (measure [Config.romDigest, slice x 0x10 48, slice x 0x40 48])
            (fun x => bit x.usage 6) [] (some c)) := by
  have hk : (d.taken ⟨h, .CMD_KEY_MIGRATE, 0, p⟩).keysAllowed = d.keysAllowed := by simp only [keysAllowed, taken_sec]
  rw [keyMigrate, command_accepted ha]
  simp only [hk, taken_sec, taken_otp, manifestBad_congr (d.taken_otp _) (d.taken_sec _)]
    <;> rfl

end Refusals

/-- What the record that a migration starts holds. -/
theorem migration_record {s : State} {c : Cmd} {meas : List Byte} {t : Dev}
    (ht : t = ((s.fresh.taken c).holdCmd c).startWrite meas (fun x => bit x.usage 6) [] (some c)) :
    t.host.hist = s.dev.host.hist ∧ t.sec.keys = s.dev.sec.keys ∧
      ∃ w, t.sec.write = some w ∧ w.into = s.dev.ksOther ∧ w.retried = false ∧ w.migrate = some c ∧
        w.rcd.counter = s.dev.ksCounter + 1 ∧ w.rcd.meas = meas ∧
        (∀ n k, (n, k) ∈ w.rcd.entries → k.valid = true ∧ k.volatile = false ∧ bit k.usage 6 = true) := by
  subst ht
  rw [startWrite_host, startWrite_sec]
  refine ⟨by simp [holdCmd], by simp, _, rfl, congrArg (fun x : Sec => if x.ksSlot = 0 then 1 else 0) (by simp), rfl, rfl,
    ?_, rfl, fun n k hn => ?_⟩
  · exact congrArg (· + 1) (ksCounter_congr (b := s.dev) (by simp) (by simp) (by simp))
  · obtain ⟨x, hv, hvol, hu, rfl⟩ := of_mem_recordEntries (d := (s.fresh.taken c).holdCmd c) (p := fun x => bit x.usage 6) hn
    exact ⟨hv, hvol, hu⟩

end Sys2Proof.Machine.Dev

namespace Sys2Proof.Machine

open Dev

/-- Settles O42: the outcomes of `keyMigrate_accepted` in their order, and the record of `migration_record`. -/
theorem migrationIsRefusedInOrderOrStarts : Obligations.MigrationIsRefusedInOrderOrStarts := by
  unfold Obligations.MigrationIsRefusedInOrderOrStarts
  intro s h p m ha
  have hrun : exec (.cmdKeyMigrate h p m) s = .next (s.goes (s.fresh.keyMigrate h p m)) := rfl
  refine ⟨_, hrun, ?_⟩
  rw [State.goes_dev, keyMigrate_accepted ha]
  simp only [Bool.not_eq_true, show s.fresh.keysAllowed = s.dev.keysAllowed from rfl, State.fresh_sec,
    show ∀ x, s.fresh.manifestBad x = s.dev.manifestBad x from fun _ => rfl]
  by_cases hk : s.dev.keysAllowed = false
  · rw [if_pos hk, if_pos hk]
    exact replies_complete ..
  rw [if_neg hk, if_neg hk]
  by_cases hm : s.dev.sec.migrationPending = true
  · rw [if_pos hm, if_pos hm]
    exact replies_complete ..
  rw [if_neg hm, if_neg hm]
  by_cases hw : s.dev.sec.write.isSome = true
  · rw [if_pos hw, if_pos hw]
    exact replies_complete ..
  rw [if_neg hw, if_neg hw]
  split
  · exact replies_complete ..
  refine ⟨fun hnone => ?_, fun x hx => ⟨fun o ho => ?_, fun hgood => ?_⟩⟩
  · subst hnone
    exact replies_complete ..
  · subst hx
    simp only [ho]
    exact replies_complete ..
  · subst hx
    simp only [hgood]
    by_cases hv : fld x 8 4 < s.dev.otp.secMin
    · rw [if_pos hv, if_pos (show fld x 8 4 < s.fresh.otp.secMin from hv)]
      exact replies_complete ..
    · rw [if_neg hv, if_neg (show ¬ fld x 8 4 < s.fresh.otp.secMin from hv)]
      exact migration_record rfl

end Sys2Proof.Machine
end

section
/-! PROOFS. CMD_MACSEC_SAK (R450, R488): what it checks, and the SA that it installs, generates or removes. -/

namespace Sys2Proof.Machine.Dev

/-! ### The Ethernet ports across a completion -/

theorem eth_sendQl (d : Dev) (f : QlFrame) (e : Nat) : (d.sendQl f).eth e = d.eth e := by
  have hbump (c : Counter) : (d.bump c).eth e = d.eth e := by rw [eth, bump_links]; rfl
  unfold sendQl
  split
  · exact hbump _
  · split
    · rfl
    · exact hbump _

theorem eth_post (d : Dev) (k : Completion) (e : Nat) : (d.post k).eth e = d.eth e := by
  unfold post
  split
  · split
    · rfl
    · split
      · rw [eth, advanceRing_links]
        rfl
      · rfl
  · rfl
  · split
    · exact eth_sendQl ..
    · rfl
  · rfl
  · rfl

@[simp] theorem eth_complete (d : Dev) (c : Cmd) (st : Status) (r : List Byte) (e : Nat) :
    (d.complete c st r).eth e = d.eth e := by
  rw [complete, eth_post]
  rfl

@[simp] theorem eth_taken (d : Dev) (c : Cmd) (e : Nat) : (d.taken c).eth e = d.eth e := by
  rw [eth, taken_links]
  rfl

/-! ### The command's checks (R450) -/

section Checks
variable {d : Dev} {h : Hdr} {p : List Byte} {op : Nat} (ha : d.accepts ⟨h, .CMD_MACSEC_SAK, op, p⟩)
include ha

theorem macsecSak_lifecycle (hk : d.keysAllowed = false) :
    d.macsecSak h p op = (d.taken ⟨h, .CMD_MACSEC_SAK, op, p⟩).complete ⟨h, .CMD_MACSEC_SAK, op, p⟩ .ST_WRONG_LIFECYCLE := by
  have hk' : (d.taken ⟨h, .CMD_MACSEC_SAK, op, p⟩).keysAllowed = false := by simpa [keysAllowed] using hk
  rw [macsecSak, command_accepted ha]
  simp only [hk', Bool.false_eq_true, not_false_eq_true, if_true]

end Checks

/-- The fields that every OP of CMD_MACSEC_SAK has are in range. -/
structure SakFields (d : Dev) (p : List Byte) : Prop where
  allowed : d.keysAllowed = true
  port : fld p 0 1 ≤ 3
  an : fld p 2 1 ≤ 3
  zero : zeros p 6 2 = true
  tail : zeros p 0x38 8 = true

/-- The key slot of a SAK, as commands see it, may be used by the command's source (R422, R450). -/
structure SakSlot (d : Dev) (h : Hdr) (p : List Byte) : Prop where
  tx : fld p 3 1 = 0
  slot : fld p 4 2 ≤ 1023
  usable : d.commandView.keyUsable (fld p 4 2) 5 = true
  caller : bit (d.commandView.key (fld p 4 2)).callers (Dev.callerBit h.path) = true

theorem SakFields.congr {a b : Dev} {p : List Byte} (hs : a.sec = b.sec) (h : SakFields a p) : SakFields b p :=
  { h with allowed := by simpa only [keysAllowed, hs] using h.allowed }

theorem SakSlot.congr {a b : Dev} {h : Hdr} {p : List Byte} (hs : a.sec = b.sec) (hk : SakSlot a h p) : SakSlot b h p :=
  { hk with
    usable := by rw [← keyUsable_congr (commandView_sec_congr hs)]; exact hk.usable
    caller := by rw [← key_congr (commandView_sec_congr hs)]; exact hk.caller }

theorem sakOf_congr {a b : Dev} (hs : a.sec = b.sec) (p : List Byte) : a.commandView.sakOf p = b.commandView.sakOf p := by
  rw [sakOf, key_congr (commandView_sec_congr hs), sakOf]

section Install
variable {d : Dev} {h : Hdr} {p : List Byte} (hf : SakFields d p) (hk : SakSlot d h p)
include hf hk

theorem macsecSak_install_tx (ha : d.accepts ⟨h, .CMD_MACSEC_SAK, 0, p⟩) (hop : fld p 1 1 = 0) {k : List Byte}
    (hsak : d.commandView.sakOf p = some k) :
    d.macsecSak h p 0 = ((d.taken ⟨h, .CMD_MACSEC_SAK, 0, p⟩).modEth (fld p 0 1) (fun x => { x with
      txSa := x.txSa.put (fld p 2 1) ⟨BitVec.ofNat 64 (fld p 8 8), k, fld p 4 2, 1, false⟩ })).complete
        ⟨h, .CMD_MACSEC_SAK, 0, p⟩ .ST_OK := by
  have hsec := (d.taken_sec ⟨h, .CMD_MACSEC_SAK, 0, p⟩).symm
  obtain ⟨hall, hport, han, hz, hz'⟩ := hf.congr hsec
  obtain ⟨htx, hslot, huse, hcall⟩ := hk.congr hsec
  rw [sakOf_congr hsec] at hsak
  rw [macsecSak, command_accepted ha]
  simp [hall, hport.not_gt, han.not_gt, hz, hz', htx, hslot, hslot.not_gt, huse, hcall, hsak, hop]

theorem macsecSak_install_rx (ha : d.accepts ⟨h, .CMD_MACSEC_SAK, 1, p⟩) (hop : fld p 1 1 = 1) {k : List Byte}
    (hsak : d.commandView.sakOf p = some k) {i : Nat} {scis : List W64}
    (hch : rxChannel (d.eth (fld p 0 1)) (BitVec.ofNat 64 (fld p 8 8)) = some (i, scis)) :
    d.macsecSak h p 1 = ((d.taken ⟨h, .CMD_MACSEC_SAK, 1, p⟩).modEth (fld p 0 1) (fun x =>
      match rxChannel x (BitVec.ofNat 64 (fld p 8 8)) with
      | some (i, scis) => { x with
          rxSci := scis, rxSa := x.rxSa.put (4 * i + fld p 2 1) ⟨BitVec.ofNat 64 (fld p 8 8), k, fld p 4 2, 0, false⟩ }
      | none => x)).complete ⟨h, .CMD_MACSEC_SAK, 1, p⟩ .ST_OK := by
  have hsec := (d.taken_sec ⟨h, .CMD_MACSEC_SAK, 1, p⟩).symm
  obtain ⟨hall, hport, han, hz, hz'⟩ := hf.congr hsec
  obtain ⟨htx, hslot, huse, hcall⟩ := hk.congr hsec
  rw [sakOf_congr hsec] at hsak
  rw [macsecSak, command_accepted ha]
  simp [hall, hport.not_gt, han.not_gt, hz, hz', htx, hslot, hslot.not_gt, huse, hcall, hsak, hop, hch]
    <;> rfl

theorem macsecSak_generate (ha : d.accepts ⟨h, .CMD_MACSEC_SAK, 2, p⟩) (hop : fld p 1 1 = 2)
    (hb : zeros p 0x10 40 = true) (hr : d.sec.trngFail = false) :
    ∃ sak, d.macsecSak h p 2 = (((d.taken ⟨h, .CMD_MACSEC_SAK, 2, p⟩).draw 256).2.modEth (fld p 0 1) (fun x => { x with
      txSa := x.txSa.put (fld p 2 1) ⟨BitVec.ofNat 64 (fld p 8 8), sak, fld p 4 2, 1, false⟩ })).complete
        ⟨h, .CMD_MACSEC_SAK, 2, p⟩ .ST_OK (slice (Config.keyWrap (d.commandView.key (fld p 4 2)).key sak) 0 40) := by
  have hsec := (d.taken_sec ⟨h, .CMD_MACSEC_SAK, 2, p⟩).symm
  obtain ⟨hall, hport, han, hz, hz'⟩ := hf.congr hsec
  obtain ⟨htx, hslot, huse, hcall⟩ := hk.congr hsec
  rw [macsecSak, command_accepted ha, key_congr (commandView_sec_congr hsec)]
  exact ⟨_, by simp [hall, hport.not_gt, han.not_gt, hz, hz', htx, hslot, hslot.not_gt, huse, hcall, hop, hb, hr]; rfl⟩

end Install

theorem macsecSak_remove {d : Dev} {h : Hdr} {p : List Byte} (hf : SakFields d p)
    (ha : d.accepts ⟨h, .CMD_MACSEC_SAK, 3, p⟩) (hop : fld p 1 1 = 3) (htx : fld p 3 1 = 0) (hslot : fld p 4 2 = 0)
    (hb : zeros p 0x10 40 = true) :
    d.macsecSak h p 3 = ((d.taken ⟨h, .CMD_MACSEC_SAK, 3, p⟩).modEth (fld p 0 1)
      (fun x => { x with txSa := x.txSa.del (fld p 2 1) })).complete ⟨h, .CMD_MACSEC_SAK, 3, p⟩ .ST_OK := by
  obtain ⟨hall, hport, han, hz, hz'⟩ := hf.congr (d.taken_sec ⟨h, .CMD_MACSEC_SAK, 3, p⟩).symm
  rw [macsecSak, command_accepted ha]
  simp [hall, hport.not_gt, han.not_gt, hz, hz', htx, hslot, hop, hb, removeSa]

/-- A command that changes one Ethernet port and is answered leaves the other ports and the keys as they were. -/
theorem eth_changed {s : State} {c : Cmd} {t : Dev} {e : Nat} {f : EthPort → EthPort} {st : Status} {r : List Byte}
    {d : Dev} (hd : d.links = (s.fresh.taken c).links ∧ d.sec = s.dev.sec) (ht : t = (d.modEth e f).complete c st r) :
    t.answered c st r ∧ t.eth e = f (s.dev.eth e) ∧ (∀ x, x ≠ e → t.eth x = s.dev.eth x) ∧ t.sec = s.dev.sec := by
  have heth (x : Nat) : d.eth x = s.dev.eth x := by
    rw [eth, hd.1, taken_links]
    rfl
  subst ht
  refine ⟨complete_answered .., ?_, fun x hx => ?_, ?_⟩
  · rw [eth_complete, eth_modEth, heth]
  · rw [eth_complete, eth_modEth_ne _ _ hx, heth]
  · rw [complete_sec]
    exact hd.2

end Sys2Proof.Machine.Dev

namespace Sys2Proof.Machine

open Dev

/-- Settles O43: each OP is one change of its port, by `macsecSak_install_tx`, `macsecSak_install_rx`, `macsecSak_generate`
and `macsecSak_remove`; `eth_changed` is the rest. -/
theorem macsecKeysAreInstalledAndRemoved : Obligations.MacsecKeysAreInstalledAndRemoved := by
  unfold Obligations.MacsecKeysAreInstalledAndRemoved
  intro s h p
  have hrun_tx : exec (.cmdMacsecSakInstallTx h p) s = .next (s.goes (s.fresh.macsecSak h p 0)) := rfl
  have hrun_rx : exec (.cmdMacsecSakInstallRx h p) s = .next (s.goes (s.fresh.macsecSak h p 1)) := rfl
  have hrun_gen : exec (.cmdMacsecSakGenerateTx h p) s = .next (s.goes (s.fresh.macsecSak h p 2)) := rfl
  have hrun_rem : exec (.cmdMacsecSakRemove h p) s = .next (s.goes (s.fresh.macsecSak h p 3)) := rfl
  have hid (c : Cmd) : (s.fresh.taken c).links = (s.fresh.taken c).links ∧ (s.fresh.taken c).sec = s.dev.sec := by simp
  refine ⟨fun r hr ha hk => ?_, fun hall hport han hz hz' => ⟨fun htx hslot huse hcall => ⟨?_, ?_, ?_⟩, ?_⟩⟩
  · have hrun : exec (r.1 h p) s = .next (s.goes (s.fresh.macsecSak h p r.2)) := by
      simp only [List.mem_cons, List.not_mem_nil, or_false] at hr
      obtain rfl | rfl | rfl | rfl := hr
      exacts [hrun_tx, hrun_rx, hrun_gen, hrun_rem]
    refine ⟨_, hrun, ?_⟩
    rw [State.goes_dev, macsecSak_lifecycle ha hk]
    exact replies_complete ..
  all_goals have hf : SakFields s.fresh p := ⟨hall, hport, han, hz, hz'⟩
  · intro k ha hop hsak
    have hk : SakSlot s.fresh h p := SakSlot.congr (a := s.dev) rfl ⟨htx, hslot, huse, hcall⟩
    rw [sakOf_congr (a := s.dev) (b := s.fresh) rfl] at hsak
    obtain ⟨hans, hport', hother, hsec⟩ := eth_changed (hid _) (macsecSak_install_tx hf hk ha hop hsak)
    refine ⟨_, hrun_tx, hans, ?_, fun a hne => ?_, ?_, hother, hsec⟩ <;> rw [State.goes_dev, hport']
    · exact SMap.find_put_self ..
    · exact SMap.find_put_ne _ _ hne
  · intro k ha hop hsak i scis hch
    have hk : SakSlot s.fresh h p := SakSlot.congr (a := s.dev) rfl ⟨htx, hslot, huse, hcall⟩
    rw [sakOf_congr (a := s.dev) (b := s.fresh) rfl] at hsak
    obtain ⟨hans, hport', hother, hsec⟩ := eth_changed (hid _) (macsecSak_install_rx hf hk ha hop hsak hch)
    rw [hch] at hport'
    refine ⟨_, hrun_rx, hans, ?_, ?_, ?_, hother, hsec⟩ <;> rw [State.goes_dev, hport']
    exact SMap.find_put_self ..
  · intro ha hop hb hr
    have hk : SakSlot s.fresh h p := SakSlot.congr (a := s.dev) rfl ⟨htx, hslot, huse, hcall⟩
    obtain ⟨sak, he⟩ := macsecSak_generate hf hk ha hop hb hr
    obtain ⟨hans, hport', hother, hsec⟩ := eth_changed (d := ((s.fresh.taken _).draw 256).2) (hid _) he
    rw [key_congr (commandView_sec_congr (a := s.fresh) (b := s.dev) rfl)] at hans
    refine ⟨_, hrun_gen, ⟨sak, hans, ?_⟩, hother, hsec⟩
    rw [State.goes_dev, hport']
    exact SMap.find_put_self ..
  · intro ha hop htx hslot hb
    obtain ⟨hans, hport', hother, hsec⟩ := eth_changed (hid _) (macsecSak_remove hf ha hop htx hslot hb)
    exact ⟨_, hrun_rem, hans, by rw [State.goes_dev, hport'], by rw [State.goes_dev, hport'], hother, hsec⟩

end Sys2Proof.Machine
end
section
/-! PROOFS. The commands that burn one-time-programmable storage: CMD_LC_ADVANCE (R408, R409), CMD_OTP_HASH (R522),
CMD_ROLLBACK_COMMIT (R417) and CMD_CINNABAR_LOCK (R120, R121). -/

namespace Sys2Proof.Machine.Dev

/-! ### What a life-cycle burn writes (R409) -/

theorem burnAhead_later {d : Dev} {target : Nat} (h1 : target ≠ 1) (h4 : target ≠ 4) : d.burnAhead target = d := by
  simp only [burnAhead, h1, h4, false_and, if_false]

theorem burnLc_later (d : Dev) {target : Nat} (h1 : target ≠ 1) (h4 : target ≠ 4) (key : List Byte) :
    (d.burnLc target key).otp = { d.otp with lc := target } := by
  simp only [burnLc, burnAhead_later h1 h4, if_neg h1]

/-- Retirement burns both hidden fields to ones. -/
def hiddenBurnt (o : Otp) : Otp :=
  { o with siliconRoot := List.replicate 32 0xFF#8, transportKey := List.replicate 32 0xFF#8 }

theorem burnAhead_retired (d : Dev) : (d.burnAhead 4).otp = hiddenBurnt d.otp := rfl

theorem burnLc_retired (d : Dev) (key : List Byte) : (d.burnLc 4 key).otp = { hiddenBurnt d.otp with lc := 4 } := rfl

/-- The silicon root is drawn, or an earlier attempt's stands. -/
theorem burnLc_provisioned (d : Dev) (key : List Byte) :
    ∃ root, (d.burnLc 1 key).otp = { d.otp with siliconRoot := root, transportKey := key, lc := 1 } := by
  by_cases hz : d.otp.siliconRoot.all (fun b => b == 0#8) = true
  · exact ⟨le 32 (d.draw 256).1.toNat, by simp only [burnLc, burnAhead, hz, true_and, if_true, draw_otp]⟩
  · exact ⟨d.otp.siliconRoot, by simp only [burnLc, burnAhead, hz, if_true]; rfl⟩

theorem burnLc_sec (d : Dev) (target : Nat) (key : List Byte) : (d.burnLc target key).sec = d.sec :=
  Eq.symm ((leaves_burnLc (us := [.freeCtr, .otp]) (Leaves.refl _ d) target key (by decide)).same .sec rfl)

theorem burnLc_ks0 (d : Dev) (target : Nat) (key : List Byte) : (d.burnLc target key).ks0 = d.ks0 :=
  Eq.symm ((leaves_burnLc (us := [.freeCtr, .otp]) (Leaves.refl _ d) target key (by decide)).same .ks0 rfl)

theorem burnPart_sec (d : Dev) (target : Nat) (key : List Byte) : (d.burnPart target key).sec = d.sec :=
  Eq.symm ((leaves_burnPart (us := [.freeCtr, .otp]) (Leaves.refl _ d) target key (by decide)).same .sec rfl)

/-- A burn that does not read back has burnt nothing, what goes ahead, or all of it. -/
theorem burnPart_otp (d : Dev) (target : Nat) (key : List Byte) :
    (d.burnPart target key).otp = d.otp ∨ (d.burnPart target key).otp = ((d.draw 2).2.burnAhead target).otp ∨
      (d.burnPart target key).otp = ((d.draw 2).2.burnLc target key).otp := by
  unfold burnPart
  dsimp only
  split
  · exact .inl rfl
  · split
    · exact .inr (.inl rfl)
    · exact .inr (.inr rfl)

/-! ### CMD_LC_ADVANCE (R409) -/

section LifeCycle
variable {d : Dev} {h : Hdr} {p : List Byte} (ha : d.accepts ⟨h, .CMD_LC_ADVANCE, 0, p⟩)
include ha

theorem lcAdvance_unreachable (hr : lcReachable d.otp.lc (fld p 0 1) = false) (ok : Bool) : d.lcAdvance h p ok =
    (d.taken ⟨h, .CMD_LC_ADVANCE, 0, p⟩).complete ⟨h, .CMD_LC_ADVANCE, 0, p⟩ .ST_WRONG_LIFECYCLE := by
  rw [lcAdvance, command_accepted ha]
  simp only [taken_otp, hr, Bool.false_eq_true, not_false_eq_true, if_true]

/-- A target that R408 reaches, with the fields of the payload that every target has in order. -/
structure LcFields (d : Dev) (p : List Byte) : Prop where
  reach : lcReachable d.otp.lc (fld p 0 1) = true
  magic : fld p 4 4 = 0x4C435631
  zero1 : zeros p 1 3 = true
  zero8 : zeros p 8 8 = true
  tail : zeros p 0x30 16 = true

variable (hf : LcFields d p)
include hf

/-- A life-cycle step without a transport key: Deployed once a Cinnabar slot is committed, or a later one. -/
theorem lcAdvance_later (h1 : fld p 0 1 ≠ 1) (hkey : zeros p 0x10 32 = true)
    (hcin : fld p 0 1 = 2 → d.otp.cin0Ok = true ∨ d.otp.cin1Ok = true) (ok : Bool) : d.lcAdvance h p ok =
    if ok = true then ((d.taken ⟨h, .CMD_LC_ADVANCE, 0, p⟩).burnLc (fld p 0 1) (slice p 0x10 32)).complete
      ⟨h, .CMD_LC_ADVANCE, 0, p⟩ .ST_OK
    else ((d.taken ⟨h, .CMD_LC_ADVANCE, 0, p⟩).burnPart (fld p 0 1) (slice p 0x10 32)).complete
      ⟨h, .CMD_LC_ADVANCE, 0, p⟩ .ST_OTP_FAIL := by
  obtain ⟨hr, hm, hz1, hz8, ht⟩ := hf
  have hcin' : ¬ (fld p 0 1 = 2 ∧ ¬ (d.otp.cin0Ok = true ∨ d.otp.cin1Ok = true)) := fun hc => hc.2 (hcin hc.1)
  rw [lcAdvance, command_accepted ha]
  cases ok <;> simp only [taken_otp, hr, hm, hz1, hz8, ht, h1, hkey, if_neg hcin', not_true_eq_false, ne_eq, and_false,
    false_and, or_false, if_false, if_true, Bool.false_eq_true, not_false_eq_true]

/-- Provisioning with a transport key that is neither blank nor all ones. -/
theorem lcAdvance_provision (h1 : fld p 0 1 = 1) (hkey : zeros p 0x10 32 = false)
    (hones : (slice p 0x10 32).all (fun b => b == 0xFF#8) = false) (hrng : d.sec.trngFail = false) : d.lcAdvance h p true =
    ((d.taken ⟨h, .CMD_LC_ADVANCE, 0, p⟩).burnLc 1 (slice p 0x10 32)).complete ⟨h, .CMD_LC_ADVANCE, 0, p⟩ .ST_OK := by
  obtain ⟨hr, hm, hz1, hz8, ht⟩ := hf
  rw [lcAdvance, command_accepted ha]
  rw [h1] at hr
  simp [hr, hm, hz1, hz8, ht, h1, hkey, hones, hrng]

end LifeCycle

/-! ### CMD_OTP_HASH (R522) -/

section Hash
variable {d : Dev} {h : Hdr} {p : List Byte}

/-- CMD_OTP_HASH from the host in a life cycle that allows it, with the payload in order. -/
structure HashFields (d : Dev) (h : Hdr) (p : List Byte) : Prop where
  lc : d.sec.lc = 0 ∨ d.sec.lc = 1
  caller : callerBit h.path = 0
  which : fld p 0 1 ≤ 3
  magic : fld p 4 4 = 0x4F545048
  value : zeros p 0x10 48 = false
  zero1 : zeros p 1 3 = true
  zero8 : zeros p 8 8 = true

variable (ha : d.accepts ⟨h, .CMD_OTP_HASH, 0, p⟩) (hf : HashFields d h p)
include ha hf

theorem otpHash_spent (hs : fld p 0 1 ∈ d.otp.spent) (ok : Bool) : d.otpHash h p ok =
    (d.taken ⟨h, .CMD_OTP_HASH, 0, p⟩).complete ⟨h, .CMD_OTP_HASH, 0, p⟩ .ST_ALREADY_SET := by
  obtain ⟨hlc, hc, hw, hm, hv, hz1, hz8⟩ := hf
  rw [otpHash, command_accepted ha]
  simp [hlc, hc, hw.not_gt, hm, hv, hz1, hz8, hs]

theorem otpHash_burns (hs : fld p 0 1 ∉ d.otp.spent)
    (hblank : (otpHashField d.otp (fld p 0 1)).all (fun b => b == 0#8) = true) : d.otpHash h p true =
    ({ d.taken ⟨h, .CMD_OTP_HASH, 0, p⟩ with otp := burnHash d.otp (fld p 0 1) (slice p 0x10 48) }).complete
      ⟨h, .CMD_OTP_HASH, 0, p⟩ .ST_OK := by
  obtain ⟨hlc, hc, hw, hm, hv, hz1, hz8⟩ := hf
  rw [otpHash, command_accepted ha]
  simp only [taken_sec, taken_otp, hlc, hc, hw.not_gt, hm, hv, hz1, hz8, hs, hblank, not_true_eq_false, ne_eq, or_false,
    if_false, Bool.false_eq_true]

end Hash

/-- The field burnt holds the octets, and the other three keep theirs. -/
theorem otpHashField_burnHash (o : Otp) {w v : Nat} (hw : w ≤ 3) (hv : v ≤ 3) (x : List Byte) :
    otpHashField (burnHash o w x) v = if v = w then x else otpHashField o v := by
  obtain rfl | rfl | rfl | rfl : w = 0 ∨ w = 1 ∨ w = 2 ∨ w = 3 := by omega
  all_goals obtain rfl | rfl | rfl | rfl : v = 0 ∨ v = 1 ∨ v = 2 ∨ v = 3 := by omega
  all_goals rfl

theorem burnHash_rest (o : Otp) (w : Nat) (x : List Byte) : (burnHash o w x).lc = o.lc ∧ (burnHash o w x).secMin = o.secMin := by
  unfold burnHash
  split <;> exact ⟨rfl, rfl⟩

/-! ### CMD_ROLLBACK_COMMIT (R417) -/

theorem rollbackCommit_accepted {d : Dev} {h : Hdr} {p : List Byte} (ha : d.accepts ⟨h, .CMD_ROLLBACK_COMMIT, 0, p⟩) :
    d.rollbackCommit h p = if fld p 0 4 = d.sec.running ∧ zeros p 4 60 = true then
      ({ d.taken ⟨h, .CMD_ROLLBACK_COMMIT, 0, p⟩ with otp := { d.otp with secMin := max d.otp.secMin d.sec.running } }).complete
        ⟨h, .CMD_ROLLBACK_COMMIT, 0, p⟩ .ST_OK
    else (d.taken ⟨h, .CMD_ROLLBACK_COMMIT, 0, p⟩).complete ⟨h, .CMD_ROLLBACK_COMMIT, 0, p⟩ .ST_BAD_PARAM := by
  rw [rollbackCommit, command_accepted ha]
  simp only [taken_sec, taken_otp]
  by_cases hv : fld p 0 4 = d.sec.running <;> by_cases hz : zeros p 4 60 = true
  all_goals simp [hv, hz]

/-! ### CMD_CINNABAR_LOCK (R120, R121) -/

section Lock
variable {d : Dev} {h : Hdr} {p : List Byte} (ha : d.accepts ⟨h, .CMD_CINNABAR_LOCK, 0, p⟩)
include ha

theorem cinLock_locked (hl : d.otp.cin0Ok = true ∨ d.otp.cin1Ok = true) (ok : Bool) : d.cinLock h p ok =
    (d.taken ⟨h, .CMD_CINNABAR_LOCK, 0, p⟩).complete ⟨h, .CMD_CINNABAR_LOCK, 0, p⟩ .ST_CINNABAR_LOCKED := by
  rw [cinLock, command_accepted ha]
  simp only [taken_otp, if_pos hl]

variable (hl : ¬ (d.otp.cin0Ok = true ∨ d.otp.cin1Ok = true))
include hl

theorem cinLock_lifecycle (hlc : d.sec.lc ≠ 0 ∧ d.sec.lc ≠ 1) (ok : Bool) : d.cinLock h p ok =
    (d.taken ⟨h, .CMD_CINNABAR_LOCK, 0, p⟩).complete ⟨h, .CMD_CINNABAR_LOCK, 0, p⟩ .ST_WRONG_LIFECYCLE := by
  rw [cinLock, command_accepted ha]
  simp only [taken_otp, taken_sec, if_neg hl, if_pos hlc]

variable (hlc : ¬ (d.sec.lc ≠ 0 ∧ d.sec.lc ≠ 1))
include hlc

theorem cinLock_invalid {n : Nat} (hn : cinCheck d.cinBlock p = some n) (ok : Bool) : d.cinLock h p ok =
    (d.taken ⟨h, .CMD_CINNABAR_LOCK, 0, p⟩).complete ⟨h, .CMD_CINNABAR_LOCK, 0, p⟩ .ST_CINNABAR_INVALID (le 1 n) := by
  have hblock : (d.taken ⟨h, .CMD_CINNABAR_LOCK, 0, p⟩).cinBlock = d.cinBlock := by simp only [cinBlock, taken_cin]
  rw [cinLock, command_accepted ha]
  simp only [taken_otp, taken_sec, if_neg hl, if_neg hlc, hblock, hn]

theorem cinLock_burns (hn : cinCheck d.cinBlock p = none) (hs : d.otp.cin0Spent = false) : d.cinLock h p true =
    (loadCinnabar { d.taken ⟨h, .CMD_CINNABAR_LOCK, 0, p⟩ with otp := cinBurn d.otp 0 d.cinBlock true }).complete
      ⟨h, .CMD_CINNABAR_LOCK, 0, p⟩ .ST_OK := by
  have hblock : (d.taken ⟨h, .CMD_CINNABAR_LOCK, 0, p⟩).cinBlock = d.cinBlock := by simp only [cinBlock, taken_cin]
  have hslot : cinSlot d.otp = some 0 := by
    rw [not_or] at hl
    simp [cinSlot, hs, hl.1]
  rw [cinLock, command_accepted ha]
  simp only [taken_otp, taken_sec, if_neg hl, if_neg hlc, hblock, hn, hslot, if_true]

end Lock

/-- Loading a committed Cinnabar slot puts its limits in force. -/
theorem loadCinnabar_committed {d : Dev} (h : d.otp.cin0Ok = true) :
    d.loadCinnabar.otp = d.otp ∧ d.loadCinnabar.cin.locked = true := by
  simp only [loadCinnabar, h, if_true, and_self]

end Sys2Proof.Machine.Dev

namespace Sys2Proof.Machine

open Dev

/-- Settles O44: the burns of `burnLc`, `burnPart`, `burnHash` and `cinBurn`, behind the commands' checks. -/
theorem oneTimeCommandsBurnWhatTheyName : Obligations.OneTimeCommandsBurnWhatTheyName := by
  unfold Obligations.OneTimeCommandsBurnWhatTheyName
  intro s h p ok
  have hlcrun (ok : Bool) : exec (.cmdLcAdvance h p ok) s = .next (s.goes (s.fresh.lcAdvance h p ok)) := rfl
  have hhashrun (ok : Bool) : exec (.cmdOtpHash h p ok) s = .next (s.goes (s.fresh.otpHash h p ok)) := rfl
  have hrollrun : exec (.cmdRollbackCommit h p) s = .next (s.goes (s.fresh.rollbackCommit h p)) := rfl
  have hcinrun : exec (.cmdCinnabarLock h p ok) s = .next (s.goes (s.fresh.cinLock h p ok)) := rfl
  refine ⟨fun ha => ⟨fun hr => ?unreachable, fun hr hm hz1 hz8 hkey ht htarget => ?later,
    fun hlc h4 hm hz1 hz8 hkey ht => ?retired, fun hlc h1 hm hz1 hz8 hkey hones ht hrng => ?provisioned⟩,
    fun ha hlc hc hw hm hv hz1 hz8 => ⟨fun hs => ?spent, fun hs hblank => ?burnt⟩, fun ha => ?rollback, fun ha => ?cinnabar⟩
  case unreachable =>
    refine ⟨_, hlcrun ok, ?_⟩
    rw [State.goes_dev, lcAdvance_unreachable ha hr]
    exact replies_complete ..
  case later =>
    have h1 : fld p 0 1 ≠ 1 := by omega
    have h4 : fld p 0 1 ≠ 4 := by omega
    have hrun := lcAdvance_later ha ⟨hr, hm, hz1, hz8, ht⟩ h1 hkey (fun h2 => by
      obtain h3 | ⟨-, hcin⟩ := htarget
      · omega
      · exact hcin)
    have hpart := burnPart_otp (s.fresh.taken ⟨h, .CMD_LC_ADVANCE, 0, p⟩) (fld p 0 1) (slice p 0x10 32)
    rw [burnAhead_later h1 h4, burnLc_later _ h1 h4, draw_otp, taken_otp] at hpart
    refine ⟨_, hlcrun true, ?_, ?_, ?_, ?_, _, hlcrun false, ?_, ?_, ?_⟩ <;> rw [State.goes_dev, hrun]
    · exact complete_answered ..
    · exact (complete_otp ..).trans ((burnLc_later _ h1 h4 _).trans (by rw [taken_otp]; rfl))
    · exact (complete_sec ..).trans ((burnLc_sec ..).trans (taken_sec ..))
    · exact (complete_ks0 ..).trans ((burnLc_ks0 ..).trans (taken_ks0 ..))
    · exact complete_answered ..
    · simp only [Bool.false_eq_true, if_false, complete_otp]
      tauto
    · exact (complete_sec ..).trans ((burnPart_sec ..).trans (taken_sec ..))
  case retired =>
    have hreach : lcReachable s.dev.otp.lc (fld p 0 1) = true := by simp [lcReachable, h4, hlc]
    have hrun := lcAdvance_later ha ⟨hreach, hm, hz1, hz8, ht⟩ (by omega) hkey (by omega)
    rw [h4] at hrun
    have hpart := burnPart_otp (s.fresh.taken ⟨h, .CMD_LC_ADVANCE, 0, p⟩) 4 (slice p 0x10 32)
    rw [burnAhead_retired, burnLc_retired, draw_otp, taken_otp] at hpart
    have hlost : hiddenBurnt s.dev.otp = { hiddenBurnt s.dev.otp with lc := s.dev.otp.lc } := rfl
    refine ⟨_, hlcrun true, ?_, ?_, _, hlcrun false, ?_, ?_⟩ <;> rw [State.goes_dev, hrun]
    · exact complete_answered ..
    · exact (complete_otp ..).trans ((burnLc_retired ..).trans (by rw [taken_otp]; rfl))
    · exact complete_answered ..
    · rw [State.goes_dev, hrun]
      simp only [Bool.false_eq_true, if_false, if_true, complete_otp, burnLc_retired, taken_otp]
      obtain h0 | h0 | h0 := hpart
      · exact .inl h0
      · exact .inr (.inr h0)
      · exact .inr (.inl h0)
  case provisioned =>
    have hreach : lcReachable s.dev.otp.lc (fld p 0 1) = true := by rw [h1, hlc]; rfl
    obtain ⟨root, hroot⟩ := burnLc_provisioned (s.fresh.taken ⟨h, .CMD_LC_ADVANCE, 0, p⟩) (slice p 0x10 32)
    refine ⟨_, root, hlcrun true, ?_⟩
    rw [State.goes_dev, lcAdvance_provision ha ⟨hreach, hm, hz1, hz8, ht⟩ h1 hkey hones hrng, complete_otp, hroot, taken_otp]
    exact ⟨complete_answered .., rfl⟩
  case spent =>
    refine ⟨_, hhashrun ok, ?_⟩
    rw [State.goes_dev, otpHash_spent ha ⟨hlc, hc, hw, hm, hv, hz1, hz8⟩ hs]
    exact replies_complete ..
  case burnt =>
    refine ⟨_, hhashrun true, ?_⟩
    rw [State.goes_dev, otpHash_burns ha ⟨hlc, hc, hw, hm, hv, hz1, hz8⟩ hs hblank, complete_otp]
    exact ⟨complete_answered .., (otpHashField_burnHash _ hw hw _).trans (if_pos rfl),
      fun w hw' hne => (otpHashField_burnHash _ hw hw' _).trans (if_neg hne), burnHash_rest ..⟩
  case rollback =>
    refine ⟨_, hrollrun, ?_⟩
    rw [State.goes_dev, rollbackCommit_accepted ha]
    by_cases hv : fld p 0 4 = s.dev.sec.running ∧ zeros p 4 60 = true
    · rw [if_pos hv, State.fresh_sec, if_pos hv, complete_otp]
      exact ⟨complete_answered .., rfl⟩
    · rw [if_neg hv, State.fresh_sec, if_neg hv]
      exact replies_complete ..
  case cinnabar =>
    refine ⟨_, hcinrun, ?_⟩
    rw [State.goes_dev]
    split
    · rename_i hl
      rw [cinLock_locked ha hl]
      exact replies_complete ..
    · rename_i hl
      split
      · rename_i hlc
        rw [cinLock_lifecycle ha hl hlc]
        exact replies_complete ..
      · rename_i hlc
        refine ⟨fun n hn => ?_, fun hn hs hok => ?_⟩
        · rw [cinLock_invalid ha hl hlc hn]
          exact replies_complete ..
        · subst hok
          rw [cinLock_burns ha hl hlc hn hs, complete_otp, complete_cin]
          obtain ⟨ho, hc⟩ := loadCinnabar_committed
            (d := { s.fresh.taken ⟨h, .CMD_CINNABAR_LOCK, 0, p⟩ with otp := cinBurn s.fresh.otp 0 s.fresh.cinBlock true }) rfl
          rw [ho]
          exact ⟨complete_answered .., rfl, rfl, rfl, hc⟩

end Sys2Proof.Machine
end
section
/-! PROOFS. First acquisition of the time scale (R454, R456), and the commands CMD_TIME_SET (R462), CMD_TIME_RESTEP (R461),
CMD_TAKEOVER_READ (R569) and CMD_LOG_DRAIN (R586). -/

namespace Sys2Proof.Machine

theorem unle_lt (b : List Byte) : unle b < 256 ^ b.length := by
  induction b with
  | nil => decide
  | cons x b ih =>
    have hx := x.isLt
    simp only [unle, List.length_cons, Nat.pow_succ]
    omega

theorem fld_lt (b : List Byte) (off n : Nat) : fld b off n < 256 ^ n := by
  have h := unle_lt (slice b off n)
  rwa [length_slice] at h

namespace Dev

/-- What no step of a loop changes, the loop leaves as it was. -/
theorem each_const {α : Type} (g : Dev → α) {f : Dev → Nat → Dev} (hf : ∀ x n, g (f x n) = g x) (xs : List Nat) (d : Dev) :
    g (d.each xs f) = g d := by
  induction xs generalizing d with
  | nil => rfl
  | cons n xs ih => exact (ih (f d n)).trans (hf d n)

/-! ### First acquisition (R56, R454, R456) -/

/-- The time unit after the first acquisition with the offset o. -/
def acquiredTime (t : TimeSt) (o : Int) : TimeSt :=
  { t with
    ns := (((t.ns : Int) + -o) % 2 ^ 64).toNat
    meas := [], ptpIn := [], syncT := none, syncWait := none, reqT := [], reqSeq := [], pdResp := none
    acquired := true, freq := 0, lastT := none, lastO := 0, predict := none, cands := [] }

theorem stepScale_time (d : Dev) (step : Int) :
    (d.stepScale step).time = { d.time with ns := (((d.time.ns : Int) + step) % 2 ^ 64).toNat } := by
  unfold stepScale
  exact each_const Dev.time (by intros; rfl) _ _

theorem stepScale_epoch (d : Dev) (step : Int) :
    (d.stepScale step).epoch = { d.epoch with start := (((d.epoch.start : Int) + step) % 2 ^ 64).toNat } := by
  unfold stepScale
  exact each_const Dev.epoch (by intros; rfl) _ _

theorem dropStamped_time (d : Dev) : d.dropStamped.time = { d.time with
    meas := [], ptpIn := [], syncT := none, syncWait := none, reqT := [], reqSeq := [], pdResp := none } := by
  unfold dropStamped
  exact each_const Dev.time (by intros; rfl) _ _

theorem dropStamped_epoch (d : Dev) : d.dropStamped.epoch = d.epoch := by
  unfold dropStamped
  exact each_const Dev.epoch (by intros; rfl) _ _

theorem regrid_time (d : Dev) (oldLen : Nat) : (d.regrid oldLen).time = d.time := by
  unfold regrid
  exact each_const Dev.time (by intros; rfl) _ _

theorem regrid_epoch (d : Dev) (oldLen : Nat) : (d.regrid oldLen).epoch =
    { d.epoch with nextB := d.gridAfter, frozen := false, gridOld := some oldLen } := by
  unfold regrid
  exact each_const Dev.epoch (by intros; rfl) _ _

theorem acquire_time (d : Dev) (o : Int) : (d.acquire o).time = acquiredTime d.time o := by
  unfold acquire
  dsimp only
  rw [regrid_time, each_const Dev.time (fun x n => by split <;> rfl), raise_time]
  simp only [dropStamped_time, stepScale_time, acquiredTime]

theorem acquire_epoch (d : Dev) (o : Int) :
    (d.acquire o).epoch.num = d.epoch.num ∧ (d.acquire o).epoch.gridOld = some d.epoch.lenMs := by
  unfold acquire
  dsimp only
  rw [regrid_epoch, each_const Dev.epoch (fun x n => by split <;> rfl), raise_epoch]
  simp only [dropStamped_epoch, stepScale_epoch, and_self]

/-! ### CMD_TIME_SET (R462) and CMD_TIME_RESTEP (R461) -/

section TimeCommands
variable {d : Dev} {h : Hdr} {p : List Byte}

theorem timeSet_acquired (ha : d.accepts ⟨h, .CMD_TIME_SET, 0, p⟩) (hq : d.time.acquired = true) : d.timeSet h p =
    (d.taken ⟨h, .CMD_TIME_SET, 0, p⟩).complete ⟨h, .CMD_TIME_SET, 0, p⟩ .ST_ALREADY_ACQUIRED := by
  rw [timeSet, command_accepted ha]
  simp only [taken_time, hq, if_true]

/-- The state with the scale acquired by command, its error stated. -/
def setTime (d : Dev) (ns err : Nat) : Dev :=
  let e := d.acquire ((d.time.ns : Int) - (ns : Int))
  { e with time := { e.time with setErr := some err } }

theorem timeSet_first (ha : d.accepts ⟨h, .CMD_TIME_SET, 0, p⟩) (hq : d.time.acquired = false) : d.timeSet h p =
    ((d.taken ⟨h, .CMD_TIME_SET, 0, p⟩).setTime (fld p 0 8) (fld p 8 4)).complete ⟨h, .CMD_TIME_SET, 0, p⟩ .ST_OK := by
  rw [timeSet, command_accepted ha]
  simp only [taken_time, hq, Bool.false_eq_true, if_false, setTime]

theorem setTime_time (d : Dev) {ns : Nat} (err : Nat) (hns : ns < 2 ^ 64) :
    (d.setTime ns err).time.acquired = true ∧ (d.setTime ns err).time.ns = ns ∧ (d.setTime ns err).time.setErr = some err ∧
      (d.setTime ns err).time.freq = 0 ∧ (d.setTime ns err).time.up = d.time.up := by
  have ht : (d.setTime ns err).time =
      { acquiredTime d.time ((d.time.ns : Int) - (ns : Int)) with setErr := some err } := by
    rw [setTime, ← acquire_time]
  rw [ht]
  refine ⟨rfl, ?_, rfl, rfl, rfl⟩
  show ((((d.time.ns : Int) + -((d.time.ns : Int) - (ns : Int))) % 2 ^ 64).toNat) = ns
  omega

/-- A re-step waits for its measurements. -/
def restepHeld (d : Dev) (c : Cmd) : Dev :=
  { d.holdCmd c with time := { d.time with
      restep := some (d.time.restep.getD [])
      restepSrc := if d.time.restep.isSome then d.time.restepSrc else d.time.source
      restepCmds := d.time.restepCmds ++ [c] } }

theorem timeRestep_accepted (ha : d.accepts ⟨h, .CMD_TIME_RESTEP, 0, p⟩) : d.timeRestep h p =
    if zeros p 0 64 = false then (d.taken ⟨h, .CMD_TIME_RESTEP, 0, p⟩).complete ⟨h, .CMD_TIME_RESTEP, 0, p⟩ .ST_BAD_PARAM
    else if d.time.jumpPending = false then
      (d.taken ⟨h, .CMD_TIME_RESTEP, 0, p⟩).complete ⟨h, .CMD_TIME_RESTEP, 0, p⟩ .ST_NO_JUMP
    else (d.taken ⟨h, .CMD_TIME_RESTEP, 0, p⟩).restepHeld ⟨h, .CMD_TIME_RESTEP, 0, p⟩ := by
  rw [timeRestep, command_accepted ha]
  simp only [Bool.not_eq_true, taken_time, restepHeld, holdCmd]

end TimeCommands

/-! ### CMD_TAKEOVER_READ (R569) -/

section Takeover
variable {d : Dev} {h : Hdr} {p : List Byte} {ok : Bool} (ha : d.accepts ⟨h, .CMD_TAKEOVER_READ, 0, p⟩)
include ha

theorem takeoverRead_none (hk : d.pair.takeover = none) : d.takeoverRead h p ok =
    (d.taken ⟨h, .CMD_TAKEOVER_READ, 0, p⟩).complete ⟨h, .CMD_TAKEOVER_READ, 0, p⟩ .ST_NO_TAKEOVER := by
  rw [takeoverRead, command_accepted ha]
  simp only [taken_pair, hk]

variable {k : Takeover} (hk : d.pair.takeover = some k) (hr : d.pair.restoring = false)
include hk hr

theorem takeoverRead_short (hlen : fld p 8 4 < (takeoverOctets k).length) : d.takeoverRead h p ok =
    (d.taken ⟨h, .CMD_TAKEOVER_READ, 0, p⟩).complete ⟨h, .CMD_TAKEOVER_READ, 0, p⟩ .ST_BAD_PARAM := by
  rw [takeoverRead, command_accepted ha]
  simp only [taken_pair, hk, hr, Bool.false_eq_true, if_false, hlen, true_or, if_true]

/-- A read that fits hands the record over; its answer begins with the epoch the record was committed in. -/
theorem takeoverRead_hands_over (hlen : (takeoverOctets k).length ≤ fld p 8 4) (hz : zeros p 0x0C 52 = true) (hok : ok = true) :
    ∃ r, d.takeoverRead h p ok = ((d.taken ⟨h, .CMD_TAKEOVER_READ, 0, p⟩).toHost ⟨h, .CMD_TAKEOVER_READ, 0, p⟩
      (takeoverOctets k)).complete ⟨h, .CMD_TAKEOVER_READ, 0, p⟩ .ST_OK (le 6 k.committed ++ r) := by
  rw [takeoverRead, command_accepted ha]
  simp only [taken_pair, hk, hr, Bool.false_eq_true, if_false, hlen.not_gt, hz, hok, not_true_eq_false, or_self]
  exact ⟨_, by simp only [List.append_assoc]; rfl⟩

end Takeover

/-! ### CMD_LOG_DRAIN (R586) -/

theorem logDrain_accepted {d : Dev} {h : Hdr} {p : List Byte} {ok : Bool} (ha : d.accepts ⟨h, .CMD_LOG_DRAIN, 0, p⟩) :
    d.logDrain h p ok =
      let l := d.vio.log.take (fld p 8 4)
      let e := (d.taken ⟨h, .CMD_LOG_DRAIN, 0, p⟩).sendLog ⟨h, .CMD_LOG_DRAIN, 0, p⟩ l
      if fld p 8 4 = 0 ∨ 4096 < fld p 8 4 ∨ zeros p 12 52 = false then
        (d.taken ⟨h, .CMD_LOG_DRAIN, 0, p⟩).complete ⟨h, .CMD_LOG_DRAIN, 0, p⟩ .ST_BAD_PARAM
      else if ok = false ∧ d.modes.control ≠ .standAlone then
        (d.taken ⟨h, .CMD_LOG_DRAIN, 0, p⟩).complete ⟨h, .CMD_LOG_DRAIN, 0, p⟩ .ST_TRANSFER_FAIL
      else ({ e with vio := { e.vio with log := e.vio.log.drop (fld p 8 4) } }).complete ⟨h, .CMD_LOG_DRAIN, 0, p⟩ .ST_OK
        (le 4 l.length ++ le 4 (match l with | e :: _ => e.seq.toNat | [] => 0) ++
          le 1 (ofBool (l.any (fun e => e.code == 1)))) := by
  rw [logDrain, command_accepted ha]
  simp only [Bool.not_eq_true, taken_vio, taken_modes]
    <;> rfl

theorem sendLog_vio (d : Dev) (c : Cmd) (l : List VioEntry) : (d.sendLog c l).vio = d.vio :=
  ((leaves_sendLog (us := [.out]) (Leaves.refl _ d) c l (by decide)).same .vio rfl).symm

end Dev

open Dev

/-- Settles O45: `setTime_time`, `timeRestep_accepted`, the cases of CMD_TAKEOVER_READ and `logDrain_accepted`. -/
theorem timeTakeoverAndLogCommands : Obligations.TimeTakeoverAndLogCommands := by
  unfold Obligations.TimeTakeoverAndLogCommands
  intro s h p ok
  have hset : exec (.cmdTimeSet h p) s = .next (s.goes (s.fresh.timeSet h p)) := rfl
  have hrestep : exec (.cmdTimeRestep h p) s = .next (s.goes (s.fresh.timeRestep h p)) := rfl
  have htake : exec (.cmdTakeoverRead h p ok) s = .next (s.goes (s.fresh.takeoverRead h p ok)) := rfl
  have hdrain : exec (.cmdLogDrain h p ok) s = .next (s.goes (s.fresh.logDrain h p ok)) := rfl
  refine ⟨fun ha => ⟨_, hset, ?_⟩, fun ha => ⟨_, hrestep, ?_⟩, fun ha => ⟨_, htake, fun hk => ?_, fun k hk hr =>
    ⟨fun hlen => ?_, fun hlen hz hok => ?_⟩⟩, fun ha => ⟨_, hdrain, ?_⟩⟩
  · rw [State.goes_dev]
    by_cases hq : s.dev.time.acquired = true
    · rw [if_pos hq, timeSet_acquired ha hq]
      exact replies_complete ..
    · rw [if_neg hq, timeSet_first ha (Bool.eq_false_iff.2 hq), complete_time, complete_epoch]
      obtain ⟨hacq, hns, herr, hfreq, hup⟩ := setTime_time (s.fresh.taken ⟨h, .CMD_TIME_SET, 0, p⟩) (fld p 8 4) (fld_lt p 0 8)
      have hepoch := acquire_epoch (s.fresh.taken ⟨h, .CMD_TIME_SET, 0, p⟩)
        (((s.fresh.taken ⟨h, .CMD_TIME_SET, 0, p⟩).time.ns : Int) - (fld p 0 8 : Int))
      rw [taken_epoch] at hepoch
      rw [taken_time] at hup
      exact ⟨complete_answered .., hacq, hns, herr, hfreq, hup, hepoch⟩
  · rw [State.goes_dev, timeRestep_accepted ha]
    by_cases hz : zeros p 0 64 = false
    · rw [if_pos hz, if_pos hz]
      exact replies_complete ..
    rw [if_neg hz, if_neg hz, State.fresh_time]
    by_cases hj : s.dev.time.jumpPending = false
    · rw [if_pos hj, if_pos hj]
      exact replies_complete ..
    · rw [if_neg hj, if_neg hj]
      simp [restepHeld, holdCmd]
  · rw [State.goes_dev, takeoverRead_none ha hk]
    exact replies_complete ..
  · rw [State.goes_dev, takeoverRead_short ha hk hr hlen]
    exact replies_complete ..
  · obtain ⟨r, hrun⟩ := takeoverRead_hands_over ha hk hr hlen hz hok
    rw [State.goes_dev, hrun]
    exact ⟨_, complete_answered .., fld_append (a := []) rfl, State.sameBut_of_leaves rfl
      (leaves_complete (leaves_toHost (leaves_taken (Leaves.refl _ _) _ (by decide)) _ _ (by decide)) _ _ _ (by decide))⟩
  · rw [State.goes_dev, logDrain_accepted ha]
    dsimp only
    by_cases hp : fld p 8 4 = 0 ∨ 4096 < fld p 8 4 ∨ zeros p 12 52 = false
    · rw [if_pos hp, if_pos hp]
      exact replies_complete ..
    rw [if_neg hp, if_neg hp, State.fresh_modes, State.fresh_vio]
    by_cases hok : ok = false ∧ s.dev.modes.control ≠ .standAlone
    · rw [if_pos hok, if_pos hok]
      exact replies_complete ..
    · rw [if_neg hok, if_neg hok, complete_vio, sendLog_vio, taken_vio]
      exact ⟨rfl, rfl, complete_answered ..⟩

end Sys2Proof.Machine
end

section
/-! PROOFS. The action instructions (R366 to R374): their words, the operands they read, when they issue, and the pass after
one that has issued. -/

namespace Sys2Proof.Machine

/-! ### Words and operands (R366, R369, R370) -/

/-- The operands that an opcode reads: general registers, 16 the window, from 17 the result buffers, from 32 the metadata. -/
def regsOf (op d a b aux : Nat) : List Nat :=
  match op with
  | 2 => [d]
  | 3 => [a, b]
  | 4 => [a]
  | 5 => [a, b]
  | 6 => [a, b]
  | 7 => [a, b]
  | 8 => [a, b]
  | 9 => [a]
  | 10 => [d, a]
  | 11 => [32 + aux % 256]
  | 12 => [a]
  | 13 => [16]
  | 14 => [a]
  | 15 => [17 + aux / 4096]
  | 17 => [a, 34]
  | 20 => [d, a]
  | 21 => [d, a]
  | 22 => [d, a]
  | 23 => [d, a]
  | 24 => [d]
  | 25 => [d]
  | 26 => [d]
  | 27 => [d]
  | 32 => [a, b]
  | 33 => [a, b, 34]
  | 34 => [a, b]
  | 35 => [16]
  | 40 => [a, 55]
  | 48 => [16]
  | 49 => [16, 34, 52]
  | 56 => [16, 48, 49, 50, 51, 52, 53, 56]
  | 59 => [17 + aux / 4096]
  | _ => []

/-- Whether operands are ready depends on which they are, and G0 always is (R366, R371). -/
theorem ready_congr {y : PipeSt} {rs ts : List Nat} (h : ∀ r, r ≠ 0 → (r ∈ rs ↔ r ∈ ts)) : y.ready rs = y.ready ts := by
  have hc (r : Nat) (hr : r ≠ 0) : rs.contains r = ts.contains r := by
    rw [Bool.eq_iff_iff, List.contains_iff_mem, List.contains_iff_mem]
    exact h r hr
  unfold PipeSt.ready
  congr 1
  funext l
  by_cases hl : l.d = 0
  · simp only [hl, bne_self_eq_false, Bool.false_and, hc (17 + l.rb) (by omega)]
  · simp only [hc l.d hl, hc (17 + l.rb) (by omega)]

section Word
variable {op d a b aux : Nat} (h : op < 64 ∧ d < 16 ∧ a < 16 ∧ b < 16 ∧ aux < 2 ^ 14)
include h

theorem wordA_fields : actOp (wordA op d a b aux) = op ∧ actD (wordA op d a b aux) = d ∧ actA (wordA op d a b aux) = a ∧
    actB (wordA op d a b aux) = b ∧ actField (wordA op d a b aux) = aux % 256 ∧ actRb (wordA op d a b aux) = aux / 4096 := by
  obtain ⟨hop, hd, ha, hb, haux⟩ := h
  simp only [actOp, actD, actA, actB, actField, actRb, bits, wordA, Nat.shiftRight_eq_div_pow]
  omega

theorem ready_wordA (y : PipeSt) : y.ready (actReads (wordA op d a b aux)) = y.ready (regsOf op d a b aux) := by
  obtain ⟨hop, hd, ha, hb, hf, hrb⟩ := wordA_fields h
  refine ready_congr fun r hr => ?_
  have hg (q : Nat) : r ∈ (if q = 0 then [] else [q]) ↔ r = q := by
    split
    · rename_i hq
      simp [hq, hr]
    · simp
  unfold actReads regsOf
  simp only [hop, hd, ha, hb, hf, hrb, show actJA (wordA op d a b aux) = d from hd, show actJB (wordA op d a b aux) = a from ha]
  split <;> simp [hg, or_comm]
  exact or_assoc

end Word

/-- The operands of an action instruction. -/
def operands : Instr → List Nat
  | .actLui _ rd _ => [rd.val]
  | .actAdd _ _ ra rb => [ra.val, rb.val]
  | .actAddi _ _ ra _ => [ra.val]
  | .actSub _ _ ra rb => [ra.val, rb.val]
  | .actAnd _ _ ra rb => [ra.val, rb.val]
  | .actOr _ _ ra rb => [ra.val, rb.val]
  | .actXor _ _ ra rb => [ra.val, rb.val]
  | .actExt _ _ ra _ _ => [ra.val]
  | .actIns _ rd ra _ _ => [rd.val, ra.val]
  | .actLdm _ _ f => [32 + f.toNat]
  | .actStm _ ra _ => [ra.val]
  | .actLdh _ _ _ _ => [16]
  | .actSth _ ra _ _ => [ra.val]
  | .actLdr _ _ res _ _ => [17 + res.val]
  | .actOwnr _ _ ra => [ra.val, 34]
  | .actBeq _ ra rb _ => [ra.val, rb.val]
  | .actBne _ ra rb _ => [ra.val, rb.val]
  | .actBltu _ ra rb _ => [ra.val, rb.val]
  | .actBgeu _ ra rb _ => [ra.val, rb.val]
  | .actBeqi _ ra _ _ => [ra.val]
  | .actBnei _ ra _ _ => [ra.val]
  | .actBbs _ ra _ _ => [ra.val]
  | .actBbc _ ra _ _ => [ra.val]
  | .actLkn _ _ ra rb _ => [ra.val, rb.val]
  | .actLke _ _ ra rb _ => [ra.val, rb.val, 34]
  | .actLkr _ _ ra rb _ => [ra.val, rb.val]
  | .actLkp _ _ _ _ => [16]
  | .actPol _ _ ra => [ra.val, 55]
  | .actDcmp _ _ => [16]
  | .actCmpr _ _ => [16, 34, 52]
  | .actFwd _ => [16, 48, 49, 50, 51, 52, 53, 56]
  | .actRecircp _ res => [17 + res.val]
  | _ => []

/-- A word is one of format A, and its opcode reads the operands given. -/
def readsAs (w : Nat) (reads : List Nat) : Prop :=
  ∃ op d a b aux, w = wordA op d a b aux ∧ (op < 64 ∧ d < 16 ∧ a < 16 ∧ b < 16 ∧ aux < 2 ^ 14) ∧
    regsOf op d a b aux = reads

theorem readsAs.ready {w : Nat} {reads : List Nat} (h : readsAs w reads) (y : PipeSt) :
    y.ready (actReads w) = y.ready reads := by
  obtain ⟨op, d, a, b, aux, rfl, hb, rfl⟩ := h
  exact ready_wordA hb y

theorem readsAs_word {w : Nat} {reads : List Nat} (op d a b aux : Nat) (hw : w = wordA op d a b aux)
    (hb : op < 64 ∧ d < 16 ∧ a < 16 ∧ b < 16 ∧ aux < 2 ^ 14) (hr : regsOf op d a b aux = reads := by rfl) :
    readsAs w reads := ⟨op, d, a, b, aux, hw, hb, hr⟩

/-- The word of an action instruction reads the instruction's operands. -/
theorem actRow_reads {j : Instr} {k w : Nat} (h : actRow j = some (k, w)) : readsAs w (operands j) := by
  unfold actRow at h
  split at h
  next i =>
    cases h
    exact readsAs_word 0 0 0 0 0 (by unfold wordA; omega) (by omega)
  next i rd imm =>
    cases h
    exact readsAs_word 1 rd.val 0 (imm.toNat / 2 ^ 14) (imm.toNat % 2 ^ 14) (by unfold wordA; omega) (by omega)
  next i rd imm =>
    cases h
    exact readsAs_word 2 rd.val 0 (imm.toNat / 2 ^ 14) (imm.toNat % 2 ^ 14) (by unfold wordA; omega) (by omega)
  next i rd ra rb =>
    cases h
    exact readsAs_word 3 rd.val ra.val rb.val 0 (by unfold wordA; omega) (by omega)
  next i rd ra aux =>
    cases h
    exact readsAs_word 4 rd.val ra.val 0 (aux.toNat) (by unfold wordA; omega) (by omega)
  next i rd ra rb =>
    cases h
    exact readsAs_word 5 rd.val ra.val rb.val 0 (by unfold wordA; omega) (by omega)
  next i rd ra rb =>
    cases h
    exact readsAs_word 6 rd.val ra.val rb.val 0 (by unfold wordA; omega) (by omega)
  next i rd ra rb =>
    cases h
    exact readsAs_word 7 rd.val ra.val rb.val 0 (by unfold wordA; omega) (by omega)
  next i rd ra rb =>
    cases h
    exact readsAs_word 8 rd.val ra.val rb.val 0 (by unfold wordA; omega) (by omega)
  next i rd ra pos wm1 =>
    cases h
    exact readsAs_word 9 rd.val ra.val 0 (pos.val * 2 ^ 9 + wm1.val * 2 ^ 4) (by unfold wordA; omega) (by omega)
  next i rd ra pos wm1 =>
    cases h
    exact readsAs_word 10 rd.val ra.val 0 (pos.val * 2 ^ 9 + wm1.val * 2 ^ 4) (by unfold wordA; omega) (by omega)
  next i rd f =>
    cases h
    exact readsAs_word 11 rd.val 0 0 (f.toNat) (by unfold wordA; omega) (by omega) (by rw [regsOf, Nat.mod_eq_of_lt f.isLt]; rfl)
  next i ra f =>
    cases h
    exact readsAs_word 12 0 ra.val 0 (f.toNat) (by unfold wordA; omega) (by omega)
  next i rd off wid =>
    cases h
    exact readsAs_word 13 rd.val 0 0 (off.val * 2 ^ 7 + wid.val * 2 ^ 5) (by unfold wordA; omega) (by omega)
  next i ra off wid =>
    cases h
    exact readsAs_word 14 0 ra.val 0 (off.val * 2 ^ 7 + wid.val * 2 ^ 5) (by unfold wordA; omega) (by omega)
  next i rd res off wid =>
    cases h
    exact readsAs_word 15 rd.val 0 0 (res.val * 2 ^ 12 + off.val * 2 ^ 6 + wid.val * 2 ^ 4) (by unfold wordA; omega) (by omega) (by rw [regsOf, show (res.val * 2 ^ 12 + off.val * 2 ^ 6 + wid.val * 2 ^ 4) / 4096 = res.val by omega]; rfl)
  next i k =>
    cases h
    exact readsAs_word 16 0 0 0 k.val (by unfold wordA; omega) (by omega)
  next i rd ra =>
    cases h
    exact readsAs_word 17 rd.val ra.val 0 0 (by unfold wordA; omega) (by omega)
  next i ra rb target =>
    cases h
    exact readsAs_word 20 ra.val rb.val 0 (target.val) (by unfold wordA; omega) (by omega)
  next i ra rb target =>
    cases h
    exact readsAs_word 21 ra.val rb.val 0 (target.val) (by unfold wordA; omega) (by omega)
  next i ra rb target =>
    cases h
    exact readsAs_word 22 ra.val rb.val 0 (target.val) (by unfold wordA; omega) (by omega)
  next i ra rb target =>
    cases h
    exact readsAs_word 23 ra.val rb.val 0 (target.val) (by unfold wordA; omega) (by omega)
  next i ra imm target =>
    cases h
    exact readsAs_word 24 ra.val 0 (imm.toNat / 16) (imm.toNat % 16 * 2 ^ 10 + target.val) (by unfold wordA; omega) (by omega)
  next i ra imm target =>
    cases h
    exact readsAs_word 25 ra.val 0 (imm.toNat / 16) (imm.toNat % 16 * 2 ^ 10 + target.val) (by unfold wordA; omega) (by omega)
  next i ra imm target =>
    cases h
    exact readsAs_word 26 ra.val 0 (imm.toNat / 16) (imm.toNat % 16 * 2 ^ 10 + target.val) (by unfold wordA; omega) (by omega)
  next i ra imm target =>
    cases h
    exact readsAs_word 27 ra.val 0 (imm.toNat / 16) (imm.toNat % 16 * 2 ^ 10 + target.val) (by unfold wordA; omega) (by omega)
  next i target =>
    cases h
    exact readsAs_word 28 0 0 0 (target.val) (by unfold wordA; omega) (by omega)
  next i rd ra rb res =>
    cases h
    exact readsAs_word 32 rd.val ra.val rb.val (res.val * 2 ^ 12) (by unfold wordA; omega) (by omega)
  next i rd ra rb res =>
    cases h
    exact readsAs_word 33 rd.val ra.val rb.val (res.val * 2 ^ 12) (by unfold wordA; omega) (by omega)
  next i rd ra rb res =>
    cases h
    exact readsAs_word 34 rd.val ra.val rb.val (res.val * 2 ^ 12) (by unfold wordA; omega) (by omega)
  next i rd res source =>
    have hs : ofBool source ≤ 1 := by cases source <;> decide
    cases h
    exact readsAs_word 35 rd.val 0 0 (res.val * 2 ^ 12 + ofBool source) (by unfold wordA; omega) (by omega)
  next i rd ra =>
    cases h
    exact readsAs_word 40 rd.val ra.val 0 0 (by unfold wordA; omega) (by omega)
  next i rd =>
    cases h
    exact readsAs_word 48 rd.val 0 0 0 (by unfold wordA; omega) (by omega)
  next i rd =>
    cases h
    exact readsAs_word 49 rd.val 0 0 0 (by unfold wordA; omega) (by omega)
  next i =>
    cases h
    exact readsAs_word 56 0 0 0 0 (by unfold wordA; omega) (by omega)
  next i k =>
    cases h
    exact readsAs_word 57 0 0 0 k.val (by unfold wordA; omega) (by omega)
  next i prog =>
    cases h
    exact readsAs_word 58 0 0 0 (prog.toNat) (by unfold wordA; omega) (by omega)
  next i res =>
    cases h
    exact readsAs_word 59 0 0 0 (res.val * 2 ^ 12) (by unfold wordA; omega) (by omega) (by rw [regsOf, show (res.val * 2 ^ 12) / 4096 = res.val by omega]; rfl)
  next => cases h

/-! ### When an instruction issues (R369, R371) -/

namespace Dev

/-- A pass that stands at an instruction whose operands are ready issues it. -/
theorem issuing_of_acts {a : Dev} {j : Instr} {k w : Nat} {x : Packet} {y : PipeSt} (hrow : actRow j = some (k, w))
    (h : a.acts j (operands j) x y) : a.issuing k w = some x ∧ a.pipeSt k = y := by
  obtain ⟨⟨i, v, p, hj, ⟨hy, hx, hr⟩, hp, hw⟩, hready⟩ := h
  obtain ⟨rfl, rfl⟩ := Prod.mk.inj (Option.some.inj (hrow.symm.trans hj))
  refine ⟨?_, hy⟩
  subst hy
  rw [← (actRow_reads hrow).ready] at hready
  simp [issuing, hr, hp, hw, hready, hx]

/-- A pass whose instruction reads the destination of a lookup in flight does not issue it. -/
theorem issuing_of_unready {a : Dev} {j : Instr} {k w : Nat} {x : Packet} {y : PipeSt} (hrow : actRow j = some (k, w))
    (h : a.actAt j x y) (hready : y.ready (operands j) = false) : a.issuing k w = none := by
  obtain ⟨i, v, p, hj, ⟨hy, hx, hr⟩, hp, hw⟩ := h
  obtain ⟨rfl, rfl⟩ := Prod.mk.inj (Option.some.inj (hrow.symm.trans hj))
  subst hy
  rw [← (actRow_reads hrow).ready] at hready
  simp [issuing, hready]

/-- Where no pass stands at an instruction, none issues it. -/
theorem issuing_of_nowhere {a : Dev} {j : Instr} {k w : Nat} (hrow : actRow j = some (k, w))
    (h : ∀ x y, ¬ a.actAt j x y) : a.issuing k w = none := by
  refine Option.eq_none_iff_forall_ne_some.2 fun x hx => ?_
  have hnot (p : Nat × List Nat) (hp : a.progOf (a.pipeSt k).oldBank (a.pipeSt k).prog = some p)
      (hcur : (a.pipeSt k).cur = some x) (hr : (a.pipeSt k).recirc = false) : p.2[(a.pipeSt k).pc]? ≠ some w :=
    fun hw => h x (a.pipeSt k) ⟨k, w, p, hrow, ⟨rfl, hcur, hr⟩, hp, hw⟩
  unfold issuing at hx
  cases hp : a.progOf (a.pipeSt k).oldBank (a.pipeSt k).prog with
  | none => simp [hp] at hx
  | some p =>
    simp only [hp, Option.ite_none_left_eq_some, Bool.or_eq_true, bne_iff_ne, ne_eq, not_or, Bool.not_eq_true,
      not_not] at hx
    obtain ⟨⟨⟨hr, hw⟩, -⟩, hcur⟩ := hx
    exact hnot p hp hcur hr hw

/-- An instruction that does not issue changes nothing. -/
theorem act_unissued {d : Dev} {k w : Nat} (h : d.issuing k w = none) (f : Dev → Packet → PipeSt → Dev × PipeSt) :
    d.act k w f = d := by
  simp only [act, h]

theorem actEmit_unissued {d : Dev} {k w : Nat} (h : d.issuing k w = none) (f : Dev → Packet → PipeSt → Dev) :
    d.actEmit k w f = d := by
  simp only [actEmit, h]

theorem lookup_unissued {d : Dev} {k w : Nat} (h : d.issuing k w = none) (rd rb kind : Nat)
    (f : Dev → PipeSt → Option (List Byte)) : d.lookup k w rd rb kind f = d := by
  unfold lookup
  split
  · rfl
  · exact act_unissued h _

/-- A meaning that is the identity unless the word issues. -/
def issuesOnly (k w : Nat) (f : Dev → Dev) : Prop := ∀ d : Dev, d.issuing k w = none → f d = d

theorem act_issuesOnly {k w : Nat} (v : Nat) (f : Dev → Packet → PipeSt → Dev × PipeSt) (hv : v = w) :
    issuesOnly k w (fun d => d.act k v f) := by
  subst hv
  exact fun d h => act_unissued h f

theorem actP_issuesOnly {k w : Nat} (v : Nat) (f : PipeSt → PipeSt) (hv : v = w) :
    issuesOnly k w (fun d => d.actP k v f) := act_issuesOnly v _ hv

theorem actBr_issuesOnly {k w : Nat} (v t : Nat) (f : PipeSt → Bool) (hv : v = w) :
    issuesOnly k w (fun d => d.actBr k v t f) := actP_issuesOnly v _ hv

theorem actEmit_issuesOnly {k w : Nat} (v : Nat) (f : Dev → Packet → PipeSt → Dev) (hv : v = w) :
    issuesOnly k w (fun d => d.actEmit k v f) := by
  subst hv
  exact fun d h => actEmit_unissued h f

theorem lookup_issuesOnly {k w : Nat} (v : Nat) (rd rb : Nat) (kind : Dev → Nat) (f : Dev → PipeSt → Option (List Byte))
    (hv : v = w) : issuesOnly k w (fun d => d.lookup k v rd rb (kind d) f) := by
  subst hv
  exact fun d h => lookup_unissued h ..

end Dev

/-- Each action instruction means the issue of its word. -/
theorem actRow_meaning {j : Instr} {k w : Nat} (h : actRow j = some (k, w)) (s : State) :
    ∃ f, exec j s = s.run f ∧ Dev.issuesOnly k w f := by
  unfold actRow at h
  split at h
  next => cases h; exact ⟨_, rfl, Dev.actP_issuesOnly _ _ (by unfold wordA; omega)⟩
  next => cases h; exact ⟨_, rfl, Dev.actP_issuesOnly _ _ (by unfold wordI; omega)⟩
  next => cases h; exact ⟨_, rfl, Dev.actP_issuesOnly _ _ (by unfold wordI; omega)⟩
  next => cases h; exact ⟨_, rfl, Dev.actP_issuesOnly _ _ (by unfold wordA; omega)⟩
  next => cases h; exact ⟨_, rfl, Dev.actP_issuesOnly _ _ (by unfold wordA; omega)⟩
  next => cases h; exact ⟨_, rfl, Dev.actP_issuesOnly _ _ (by unfold wordA; omega)⟩
  next => cases h; exact ⟨_, rfl, Dev.actP_issuesOnly _ _ (by unfold wordA; omega)⟩
  next => cases h; exact ⟨_, rfl, Dev.actP_issuesOnly _ _ (by unfold wordA; omega)⟩
  next => cases h; exact ⟨_, rfl, Dev.actP_issuesOnly _ _ (by unfold wordA; omega)⟩
  next => cases h; exact ⟨_, rfl, Dev.actP_issuesOnly _ _ (by unfold wordA; omega)⟩
  next => cases h; exact ⟨_, rfl, Dev.actP_issuesOnly _ _ (by unfold wordA; omega)⟩
  next => cases h; exact ⟨_, rfl, Dev.act_issuesOnly _ _ (by unfold wordA; omega)⟩
  next => cases h; exact ⟨_, rfl, Dev.actP_issuesOnly _ _ (by unfold wordA; omega)⟩
  next => cases h; exact ⟨_, rfl, Dev.actP_issuesOnly _ _ (by unfold wordA; omega)⟩
  next => cases h; exact ⟨_, rfl, Dev.actP_issuesOnly _ _ (by unfold wordA; omega)⟩
  next => cases h; exact ⟨_, rfl, Dev.actP_issuesOnly _ _ (by unfold wordA; omega)⟩
  next => cases h; exact ⟨_, rfl, Dev.act_issuesOnly _ _ (by unfold wordA; omega)⟩
  next => cases h; exact ⟨_, rfl, Dev.act_issuesOnly _ _ (by unfold wordA; omega)⟩
  next => cases h; exact ⟨_, rfl, Dev.actBr_issuesOnly _ _ _ (by unfold wordJ; omega)⟩
  next => cases h; exact ⟨_, rfl, Dev.actBr_issuesOnly _ _ _ (by unfold wordJ; omega)⟩
  next => cases h; exact ⟨_, rfl, Dev.actBr_issuesOnly _ _ _ (by unfold wordJ; omega)⟩
  next => cases h; exact ⟨_, rfl, Dev.actBr_issuesOnly _ _ _ (by unfold wordJ; omega)⟩
  next => cases h; exact ⟨_, rfl, Dev.actBr_issuesOnly _ _ _ (by unfold wordJ; omega)⟩
  next => cases h; exact ⟨_, rfl, Dev.actBr_issuesOnly _ _ _ (by unfold wordJ; omega)⟩
  next => cases h; exact ⟨_, rfl, Dev.actBr_issuesOnly _ _ _ (by unfold wordJ; omega)⟩
  next => cases h; exact ⟨_, rfl, Dev.actBr_issuesOnly _ _ _ (by unfold wordJ; omega)⟩
  next => cases h; exact ⟨_, rfl, Dev.actBr_issuesOnly _ _ _ (by unfold wordJ; omega)⟩
  next => cases h; exact ⟨_, rfl, Dev.lookup_issuesOnly _ _ _ (fun _ => 0) _ (by unfold wordA; omega)⟩
  next => cases h; exact ⟨_, rfl, Dev.lookup_issuesOnly _ _ _ (fun _ => 0) _ (by unfold wordA; omega)⟩
  next => cases h; exact ⟨_, rfl, Dev.lookup_issuesOnly _ _ _ (fun _ => 2) _ (by unfold wordA; omega)⟩
  next i _ _ _ => cases h; exact ⟨_, rfl, Dev.lookup_issuesOnly _ _ _ (fun d => if (d.pipeSt i.val).l3 = 0 then 1 else 3) _ (by unfold wordA; omega)⟩
  next => cases h; exact ⟨_, rfl, Dev.act_issuesOnly _ _ (by unfold wordA; omega)⟩
  next => cases h; exact ⟨_, rfl, Dev.act_issuesOnly _ _ (by unfold wordA; omega)⟩
  next => cases h; exact ⟨_, rfl, Dev.act_issuesOnly _ _ (by unfold wordA; omega)⟩
  next => cases h; exact ⟨_, rfl, Dev.actEmit_issuesOnly _ _ (by unfold wordA; omega)⟩
  next => cases h; exact ⟨_, rfl, Dev.actEmit_issuesOnly _ _ (by unfold wordA; omega)⟩
  next => cases h; exact ⟨_, rfl, Dev.actEmit_issuesOnly _ _ (by unfold wordA; omega)⟩
  next => cases h; exact ⟨_, rfl, Dev.actEmit_issuesOnly _ _ (by unfold wordA; omega)⟩
  next => cases h

end Sys2Proof.Machine
end

section
/-! PROOFS. The pass after an action instruction (R64, R374), and the arithmetic and branch instructions (R369, R370). -/

namespace Sys2Proof.Machine

namespace Dev

/-! ### Work of a pass (R20, R64) -/

/-- Work of a pass runs under the pass's settings, with the counts of some epoch, and in the state as it is otherwise. -/
theorem inPass_congr {d : Dev} {i : Nat} {x : Packet} {f g : Dev → Dev}
    (h : ∀ n : Counters, f { d.seen i with cnt := n } = g { d.seen i with cnt := n }) : d.inPass i x f = d.inPass i x g := by
  have hin : (d.seen i).asPacket x f = (d.seen i).asPacket x g := by
    unfold asPacket
    split
    · simp only [asFrame, h]
    · exact h d.cnt
  show ({ (d.seen i).asPacket x f with cfg := d.cfg } : Dev) = { (d.seen i).asPacket x g with cfg := d.cfg }
  rw [hin]

section Issued
variable {s : State} {j : Instr} {k w v : Nat} {x : Packet} {y z : PipeSt} (hrow : actRow j = some (k, w)) (hv : v = w)
  (ha : s.dev.acts j (operands j) x y)
include hrow hv ha

/-- An instruction that issues lets its pass go on with what it makes of the pipeline and of the state. -/
theorem act_issued {F : Dev → Packet → PipeSt → Dev × PipeSt} {g : Dev → Dev}
    (hF : ∀ n : Counters, F { s.fresh.seen k with cnt := n } x { y with pc := y.pc + 1 } =
      (g { s.fresh.seen k with cnt := n }, z)) : s.fresh.act k v F = s.fresh.goesOn k x z g := by
  obtain ⟨hissue, hy⟩ := issuing_of_acts (a := s.fresh) hrow ha
  rw [act, hv, hissue]
  refine inPass_congr fun n => ?_
  have hpipe : pipeSt { s.fresh.seen k with cnt := n } k = y := hy
  dsimp only
  rw [hpipe, hF]

theorem exec_act {F : Dev → Packet → PipeSt → Dev × PipeSt} {g : Dev → Dev}
    (hrun : exec j s = s.run (fun d => d.act k v F))
    (hF : ∀ n : Counters, F { s.fresh.seen k with cnt := n } x { y with pc := y.pc + 1 } =
      (g { s.fresh.seen k with cnt := n }, z)) :
    exec j s = .next (s.goes (s.fresh.goesOn k x z g)) := by
  rw [hrun, State.run_goes, act_issued hrow hv ha hF]

/-- One that changes only the pipeline. -/
theorem exec_actP {f : PipeSt → PipeSt} (hrun : exec j s = s.run (fun d => d.actP k v f))
    (hf : f { y with pc := y.pc + 1 } = z) : exec j s = .next (s.goes (s.fresh.goesOn k x z)) :=
  exec_act hrow hv ha hrun (fun _ => by rw [hf]; rfl)

/-- A branch goes to its target where its condition holds. -/
theorem exec_actBr {f : PipeSt → Bool} {t : Nat} {c : Bool} (hrun : exec j s = s.run (fun d => d.actBr k v t f))
    (hf : f { y with pc := y.pc + 1 } = c) :
    exec j s = .next (s.goes (s.fresh.goesOn k x { y with pc := if c = true then t else y.pc + 1 })) := by
  refine exec_actP hrow hv ha hrun ?_
  cases c <;> simp only [hf, if_true, Bool.false_eq_true, if_false]

end Issued

/-- An instruction that does not issue changes nothing. -/
theorem exec_unissued {s : State} {j : Instr} {k w : Nat} (hrow : actRow j = some (k, w))
    (h : s.fresh.issuing k w = none) : exec j s = .next (s.goes s.fresh) := by
  obtain ⟨f, hrun, hf⟩ := actRow_meaning hrow s
  rw [hrun, State.run_goes, hf _ h]

theorem exec_unready {s : State} {j : Instr} {x : Packet} {y : PipeSt} (h : s.dev.actAt j x y)
    (hready : y.ready (operands j) = false) : exec j s = .next (s.goes s.fresh) := by
  obtain ⟨k, w, -, hrow, -⟩ := id h
  exact exec_unissued hrow (issuing_of_unready (a := s.fresh) hrow h hready)

/-! ### The end of a program (R374) -/

theorem goesOn_within {d : Dev} {i : Nat} {x : Packet} {y : PipeSt} {p : Nat × List Nat}
    (hp : d.progOf y.oldBank y.prog = some p) (h : y.pc < p.2.length) : d.goesOn i x y = d.setPipe i y := by
  have hstay (e : Dev) (he : e.pipe = d.pipe) : (e.setPipe i y).noEmit i = e.setPipe i y := by
    have hprog : (e.setPipe i y).progOf y.oldBank y.prog = some p := by
      rw [← hp, progOf, progOf, ← he]
      rfl
    have hn : ¬ (y.cur.isSome = true ∧ p.2.length ≤ y.pc) := fun hc => Nat.not_le.2 h hc.2
    simp only [noEmit, pipeSt_setPipe, hprog, if_neg hn]
  rw [goesOn, inPass_congr (g := fun e => e.setPipe i y) (fun n => hstay { d.seen i with cnt := n } rfl)]
  unfold inPass asPacket asFrame
  dsimp only
  split <;> rfl

/-- The end of a pass leaves the pipeline idle. -/
theorem pipeSt_endPass (d : Dev) (i : Nat) (st : Status) : (d.endPass i st).pipeSt i = (d.pipeSt i).idle := by
  unfold endPass
  dsimp only
  split
  · rename_i x _
    have hpipe := (leaves_packetFate (us := [.out, .host, .ports]) (Leaves.refl _ (((d.pipeSt i).lookups.foldl countLookup d).setPipe i
      (d.pipeSt i).idle)) x st (by decide)).same .pipe rfl
    rw [pipeSt, ← hpipe]
    exact pipeSt_setPipe ..
  · exact pipeSt_setPipe ..

theorem pipe_bump (d : Dev) (c : Counter) (n i : Nat) : (d.bump c n).pipeSt i = d.pipeSt i := by
  rw [pipeSt, bump_pipe, pipeSt]

/-- What a pass leaves in its pipeline is what its work leaves there. -/
theorem pipeSt_inPass {d : Dev} {i : Nat} {x : Packet} {f : Dev → Dev} {z : PipeSt}
    (h : ∀ n : Counters, (f { d.seen i with cnt := n }).pipeSt i = z) : (d.inPass i x f).pipeSt i = z := by
  unfold inPass asPacket
  dsimp only
  split
  · exact h _
  · exact h d.cnt

theorem goesOn_past {d : Dev} {i : Nat} {x : Packet} {y : PipeSt} {p : Nat × List Nat}
    (hp : d.progOf y.oldBank y.prog = some p) (hx : y.cur = some x) (h : p.2.length ≤ y.pc) :
    (d.goesOn i x y).pipeSt i = y.idle := by
  refine pipeSt_inPass fun n => ?_
  have hprog : (setPipe { d.seen i with cnt := n } i y).progOf y.oldBank y.prog = some p := hp
  have hend : y.cur.isSome = true ∧ p.2.length ≤ y.pc := ⟨by rw [hx]; rfl, h⟩
  simp only [id, noEmit, pipeSt_setPipe, hprog, if_pos hend]
  rw [pipeSt_endPass, pipe_bump, pipeSt_setPipe]

end Dev

/-! ### Registers (R366) -/

namespace PipeSt

theorem g_setG_zero (y : PipeSt) (v : W32) : (y.setG 0 v).g 0 = 0 := rfl

theorem g_setG_self (y : PipeSt) {r : Nat} (hr : r ≠ 0) (v : W32) : (y.setG r v).g r = v := by
  rw [setG, if_neg hr, g, if_neg hr]
  exact SMap.get_set_self ..

theorem g_setG_ne (y : PipeSt) {r q : Nat} (h : q ≠ r) (v : W32) : (y.setG r v).g q = y.g q := by
  unfold setG
  split
  · rfl
  · unfold g
    split
    · rfl
    · exact SMap.get_set_ne _ _ _ h

end PipeSt

/-! ### Values (R370) -/

/-- LUI puts its immediate above the low 14 bits. -/
theorem lui_value (imm : BitVec 18) (g : W32) :
    ((imm.setWidth 32 <<< 14) ||| (g &&& 0x3FFF)) = BitVec.ofNat 32 (imm.toNat * 2 ^ 14 + g.toNat % 2 ^ 14) := by
  have hi : imm.toNat * 2 ^ 14 < 2 ^ 32 := by omega
  have hmod : g.toNat % 2 ^ 14 < 2 ^ 14 := Nat.mod_lt _ (Nat.two_pow_pos 14)
  have hsum : imm.toNat * 2 ^ 14 + g.toNat % 2 ^ 14 < 2 ^ 32 :=
    Nat.lt_of_lt_of_le (Nat.add_lt_add_left hmod _) (show imm.toNat * 2 ^ 14 + 2 ^ 14 ≤ 2 ^ 32 by omega)
  have hlow : g.toNat &&& 0x3FFF = g.toNat % 2 ^ 14 := Nat.and_two_pow_sub_one_eq_mod _ 14
  refine BitVec.eq_of_toNat_eq ?_
  rw [BitVec.toNat_or, BitVec.toNat_shiftLeft, BitVec.toNat_and, BitVec.toNat_ofNat, BitVec.toNat_setWidth,
    show (0x3FFF : W32).toNat = 0x3FFF from rfl, hlow, Nat.shiftLeft_eq, Nat.mod_eq_of_lt (show imm.toNat < 2 ^ 32 by omega),
    Nat.mod_eq_of_lt hi, Nat.mod_eq_of_lt hsum, Nat.mul_comm]
  exact (Nat.two_pow_add_eq_or_of_lt hmod _).symm

/-- EXT takes WM1 + 1 bits from POS. -/
theorem ext_value (g : W32) (pos wm1 : Fin 32) :
    ((g >>> pos.val) &&& lowMask wm1.val) = BitVec.ofNat 32 (g.toNat / 2 ^ pos.val % 2 ^ (wm1.val + 1)) := by
  have hpow : 2 ^ (wm1.val + 1) ≤ 2 ^ 32 := Nat.pow_le_pow_right (by decide) (by omega)
  have hpos : 0 < 2 ^ (wm1.val + 1) := Nat.two_pow_pos _
  refine BitVec.eq_of_toNat_eq ?_
  rw [BitVec.toNat_and, BitVec.toNat_ushiftRight, lowMask, BitVec.toNat_ofNat, BitVec.toNat_ofNat,
    Nat.mod_eq_of_lt (show 2 ^ (wm1.val + 1) - 1 < 2 ^ 32 by omega), Nat.and_two_pow_sub_one_eq_mod, Nat.shiftRight_eq_div_pow,
    Nat.mod_eq_of_lt (Nat.lt_of_lt_of_le (Nat.mod_lt _ hpos) hpow)]

theorem lowMask_getLsbD (wm1 : Fin 32) (n : Nat) : (lowMask wm1.val).getLsbD n = decide (n ≤ wm1.val) := by
  rw [lowMask, BitVec.getLsbD_ofNat, Nat.testBit_two_pow_sub_one]
  have h := wm1.isLt
  by_cases hn : n ≤ wm1.val
  · simp [hn, show n < 32 by omega, show n < wm1.val + 1 by omega]
  · simp [hn, show ¬ n < wm1.val + 1 by omega]

/-- INS replaces WM1 + 1 bits from POS by the low bits of its operand. -/
theorem ins_bits (d a : W32) (pos wm1 : Fin 32) {n : Nat} (hn : n < 32) :
    ((d &&& ~~~(lowMask wm1.val <<< pos.val)) ||| ((a <<< pos.val) &&& (lowMask wm1.val <<< pos.val))).getLsbD n =
      (if pos.val ≤ n ∧ n ≤ pos.val + wm1.val then a.getLsbD (n - pos.val) else d.getLsbD n) := by
  simp only [BitVec.getLsbD_or, BitVec.getLsbD_and, BitVec.getLsbD_not, BitVec.getLsbD_shiftLeft, hn, decide_true,
    Bool.true_and, lowMask_getLsbD]
  by_cases hlo : pos.val ≤ n
  · by_cases hhi : n ≤ pos.val + wm1.val
    · simp [hlo, hhi, Nat.not_lt.2 hlo, show n - pos.val ≤ wm1.val by omega]
    · simp [hlo, hhi, Nat.not_lt.2 hlo, show ¬ n - pos.val ≤ wm1.val by omega]
  · simp [hlo, Nat.not_le.1 hlo]

open Dev

/-- Settles O55: an instruction that issues is `exec_actP` or `exec_actBr`, one that does not is `exec_unready` or
`exec_unissued`, and `goesOn_within` and `goesOn_past` say where a pass goes on. -/
theorem actionArithmeticAndBranches : Obligations.ActionArithmeticAndBranches := by
  unfold Obligations.ActionArithmeticAndBranches
  intro s i rd ra rb imm aux pos wm1 imm8 target x y
  refine ⟨fun ha => ?nop, ?arithmetic, fun ha => ?insert, ?branches, fun j k w hrow hn => ?nowhere,
    fun v => ⟨y.g_setG_zero v, fun hr => y.g_setG_self hr v, fun q hq => y.g_setG_ne hq v⟩,
    fun d p hp hx => ⟨fun h => goesOn_within hp h, fun h => ?past⟩⟩
  case nop => exact exec_actP rfl (by unfold wordA; omega) ha rfl rfl
  case arithmetic =>
    refine List.forall_mem_cons.2 ⟨?movi, List.forall_mem_cons.2 ⟨?lui, List.forall_mem_cons.2 ⟨?add,
      List.forall_mem_cons.2 ⟨?addi, List.forall_mem_cons.2 ⟨?sub, List.forall_mem_cons.2 ⟨?and,
      List.forall_mem_cons.2 ⟨?or, List.forall_mem_cons.2 ⟨?xor, List.forall_mem_cons.2 ⟨?ext, List.forall_mem_nil _⟩⟩⟩⟩⟩⟩⟩⟩⟩
    all_goals refine ⟨fun ha => ?_, fun ha hr => exec_unready ha hr⟩
    case movi => exact exec_actP rfl (by unfold wordI; omega) ha rfl (by rw [BitVec.ofNat_toNat])
    case lui => exact exec_actP rfl (by unfold wordI; omega) ha rfl (by rw [← lui_value]; rfl)
    case ext => exact exec_actP rfl (by unfold wordA; omega) ha rfl (by rw [← ext_value]; rfl)
    all_goals exact exec_actP rfl (by unfold wordA; omega) ha rfl rfl
  case insert => exact ⟨_, exec_actP rfl (by unfold wordA; omega) ha rfl rfl, fun j hj => ins_bits _ _ pos wm1 hj⟩
  case branches =>
    refine List.forall_mem_cons.2 ⟨?beq, List.forall_mem_cons.2 ⟨?bne, List.forall_mem_cons.2 ⟨?bltu,
      List.forall_mem_cons.2 ⟨?bgeu, List.forall_mem_cons.2 ⟨?beqi, List.forall_mem_cons.2 ⟨?bnei,
      List.forall_mem_cons.2 ⟨?bbs, List.forall_mem_cons.2 ⟨?bbc, List.forall_mem_cons.2 ⟨?jmp, List.forall_mem_nil _⟩⟩⟩⟩⟩⟩⟩⟩⟩
    all_goals refine ⟨fun ha => ?_, fun ha hr => exec_unready ha hr⟩
    case beq => exact exec_actBr rfl (by unfold wordJ; omega) ha rfl (Bool.beq_eq_decide_eq ..)
    case bne => exact exec_actBr rfl (by unfold wordJ; omega) ha rfl ((congrArg not (Bool.beq_eq_decide_eq ..)).trans decide_not.symm)
    case bbs => exact exec_actBr rfl (by unfold wordJ; omega) ha rfl (bit_toNat ..)
    case bbc => exact exec_actBr rfl (by unfold wordJ; omega) ha rfl (congrArg _ (bit_toNat ..))
    all_goals exact exec_actBr rfl (by unfold wordJ; omega) ha rfl rfl
  case nowhere => exact exec_unissued hrow (issuing_of_nowhere (a := s.fresh) hrow hn)
  case past => rw [goesOn_past hp hx h]; rfl

end Sys2Proof.Machine
end

section
/-! PROOFS. The loads and stores of metadata, window and result buffers, and the services of a pass (R366, R367, R370, R373,
R376 to R379). -/

namespace Sys2Proof.Machine

namespace Dev

/-- What a unit other than the settings and the counts holds after a pass's work, the work leaves there. -/
theorem read_inPass {α : Type} (u : Dev → α) (hcfg : ∀ e c, u { e with cfg := c } = u e)
    (hcnt : ∀ e n, u { e with cnt := n } = u e) {d : Dev} {i : Nat} {x : Packet} {f : Dev → Dev} {z : α}
    (h : ∀ n : Counters, u (f { d.seen i with cnt := n }) = z) : u (d.inPass i x f) = z := by
  unfold inPass asPacket asFrame
  rw [hcfg]
  split
  · exact (hcnt _ _).trans (h _)
  · exact h d.cnt

theorem noEmit_same {u : DevUnit} (d : Dev) (i : Nat) (hu : [DevUnit.out, .cnt, .ev, .host, .ports, .pipe].contains u = false) :
    d.sameUnit u (d.noEmit i) :=
  (leaves_noEmit (us := [.out, .cnt, .ev, .host, .ports, .pipe]) (Leaves.refl _ d) i (by decide)).same u hu

/-! ### A field that R367 does not name -/

/-- The value read is free, and nothing but the free values moves on beside what the pass does. -/
theorem goesOn_draw (d : Dev) (i : Nat) (x : Packet) (y : PipeSt) :
    (d.goesOn i x y (fun e => (e.draw 32).2)).freeCtr = d.freeCtr + 1 ∧
      (d.goesOn i x y (fun e => (e.draw 32).2)).tm = d.tm ∧ (d.goesOn i x y (fun e => (e.draw 32).2)).tbl = d.tbl ∧
      (d.goesOn i x y (fun e => (e.draw 32).2)).vio = d.vio := by
  refine ⟨?_, ?_, ?_, ?_⟩
  · exact read_inPass freeCtr (fun _ _ => rfl) (fun _ _ => rfl) (fun _ => (noEmit_same (u := .freeCtr) _ i rfl).symm)
  · exact read_inPass tm (fun _ _ => rfl) (fun _ _ => rfl) (fun _ => (noEmit_same (u := .tm) _ i rfl).symm)
  · exact read_inPass tbl (fun _ _ => rfl) (fun _ _ => rfl) (fun _ => (noEmit_same (u := .tbl) _ i rfl).symm)
  · exact read_inPass vio (fun _ _ => rfl) (fun _ _ => rfl) (fun _ => (noEmit_same (u := .vio) _ i rfl).symm)

/-! ### POL (R373) -/

theorem pol_unlisted (d : Dev) (i : Nat) {n : Nat} (y : PipeSt) (h : 2048 ≤ n) :
    d.pol i n y = (0, if n = 0xFFFF then d else d.bump (Cnt.PIPE_NO_POLICER i), y) := by
  rw [pol, if_pos h]

theorem pol_charged (d : Dev) (i : Nat) {n c : Nat} {y : PipeSt} (h : n < 2048)
    (hc : y.charged.find? (fun w => w.1 == n) = some (n, c)) : d.pol i n y = (c, d, y) := by
  simp only [pol, if_neg (Nat.not_le.2 h), hc]

/-- The traffic manager after policer n is charged by a packet of y. -/
def charge (t : Tm) (n : Nat) (y : PipeSt) : Tm :=
  let p : Policer := t.policers.get {} n
  let r := police p.aware p.c p.p (y.rw 0x17)
  { t with policers := t.policers.put n { p with c := r.2.1, p := r.2.2 } }

theorem pol_charges (d : Dev) (i : Nat) {n c : Nat} {y : PipeSt} (h : n < 2048)
    (hnone : y.charged.find? (fun w => w.1 == n) = none)
    (hc : (police (d.tm.policers.get {} n).aware (d.tm.policers.get {} n).c (d.tm.policers.get {} n).p (y.rw 0x17)).1 = c) :
    d.pol i n y = (c, { d with tm := charge d.tm n y }, { y with charged := y.charged ++ [(n, c)] }) := by
  subst hc
  simp only [pol, if_neg (Nat.not_le.2 h), hnone, charge]

/-! ### DCMP and CMPR (R376 to R379) -/

theorem dcmp_plain (d : Dev) (x : Packet) {y : PipeSt} (h : y.l3 = 0) : d.dcmp x y = (7, d, y) := by
  rw [dcmp, if_pos h]

theorem dcmp_unpacks (d : Dev) (x : Packet) {y : PipeSt} {w : List Byte} {hdr : Nat} (h : y.l3 = 1)
    (hw : unLowpan (d.contextOf x.pan) (d.llOf x y).1 (d.llOf x y).2 y.w = .ok (w, hdr)) :
    d.dcmp x y = if 128 < hdr then (4, d, y) else (0, d, { y with w := w, l3 := 0 }) := by
  rw [dcmp, if_neg (by omega), if_neg (by omega)]
  simp only [hw]

theorem dcmp_error (d : Dev) (x : Packet) {y : PipeSt} {e : Nat} (h : y.l3 = 1)
    (hw : unLowpan (d.contextOf x.pan) (d.llOf x y).1 (d.llOf x y).2 y.w = .error e) :
    d.dcmp x y = (BitVec.ofNat 32 e, d, y) := by
  rw [dcmp, if_neg (by omega), if_neg (by omega)]
  simp only [hw]

theorem cmpr_packed (d : Dev) {y : PipeSt} (h : y.l3 = 1) : d.cmpr y = (7, y) := by
  rw [cmpr, if_pos h]

theorem cmpr_other (d : Dev) {y : PipeSt} (h : 1 < y.l3) : d.cmpr y = (6, y) := by
  rw [cmpr, if_neg (by omega), if_pos (by omega)]

theorem cmpr_packs (d : Dev) {y : PipeSt} {w : List Byte} (h : y.l3 = 0)
    (hw : packLowpan (d.contexts y.pan) (iidEui (d.panEui y.pan)) (iidShort (y.rw 0x14 % 65536)) y.w = .ok w) :
    d.cmpr y = (0, { y with w := w, l3 := 1 }) := by
  rw [cmpr, if_neg (by omega), if_neg (by omega)]
  simp only [hw]

theorem cmpr_error (d : Dev) {y : PipeSt} {e : Nat} (h : y.l3 = 0)
    (hw : packLowpan (d.contexts y.pan) (iidEui (d.panEui y.pan)) (iidShort (y.rw 0x14 % 65536)) y.w = .error e) :
    d.cmpr y = (BitVec.ofNat 32 e, y) := by
  rw [cmpr, if_neg (by omega), if_neg (by omega)]
  simp only [hw]

/-! ### What a pass sees does not depend on its program counter or its counts -/

theorem rw_pc (y : PipeSt) (n f : Nat) : PipeSt.rw { y with pc := n } f = y.rw f := rfl

/-- The value in force of a register is that of the settings, or one that the chip gives it (R126, R226, R358). -/
theorem regInForce_congr {a b : Dev} (hc : a.cfg = b.cfg) (hi : a.cin = b.cin) (ho : a.otp = b.otp) (r v : Nat) :
    a.regInForce r v = b.regInForce r v := by
  have hchip : a.chipValue r v = b.chipValue r v := by simp only [chipValue, tightWords, hi, ho]
  rw [regInForce, hc, hchip, regInForce]

theorem panEui_congr {a b : Dev} (hc : a.cfg = b.cfg) (hi : a.cin = b.cin) (ho : a.otp = b.otp) (k : Nat) :
    a.panEui k = b.panEui k := by
  rw [panEui, regInForce_congr hc hi ho, regInForce_congr hc hi ho, panEui]

theorem panEui_seen (s : State) (i : Nat) (m : Counters) (k : Nat) :
    panEui { s.fresh.seen i with cnt := m } k = (s.dev.seen i).panEui k :=
  panEui_congr (a := { s.fresh.seen i with cnt := m }) (b := s.dev.seen i) rfl rfl rfl k

theorem llOf_congr {a b : Dev} {x : Packet} {y z : PipeSt} (h : ∀ k, a.panEui k = b.panEui k) (hr : y.rw 0x14 = z.rw 0x14) :
    a.llOf x y = b.llOf x z := by
  simp only [llOf, h, hr]

theorem llOf_seen (s : State) (i : Nat) (m : Counters) (x : Packet) (y : PipeSt) (n : Nat) :
    llOf { s.fresh.seen i with cnt := m } x { y with pc := n } = (s.dev.seen i).llOf x y :=
  llOf_congr (panEui_seen s i m) (rw_pc y n 0x14)

/-! ### The services, issued -/

section Services
variable {s : State} {i : Fin 2} {rd ra : Fin 16} {x : Packet} {y z : PipeSt} {g : Dev → Dev}

theorem exec_actPol {n c : Nat} (ha : s.dev.acts (.actPol i rd ra) [ra.val, 55] x y) (hn : n = (y.g ra.val).toNat % 65536)
    (hp : ∀ m : Counters, pol { s.fresh.seen i.val with cnt := m } i.val n { y with pc := y.pc + 1 } =
      (c, g { s.fresh.seen i.val with cnt := m }, z)) :
    exec (.actPol i rd ra) s = .next (s.goes (s.fresh.goesOn i.val x (z.setG rd.val (BitVec.ofNat 32 c)) g)) := by
  subst hn
  refine exec_act rfl (by unfold wordA; omega) ha rfl fun m => ?_
  have hg : PipeSt.g { y with pc := y.pc + 1 } ra.val = y.g ra.val := rfl
  dsimp only
  rw [hg, hp m]

theorem exec_actDcmp {v : W32} (ha : s.dev.acts (.actDcmp i rd) [16] x y)
    (hp : ∀ m : Counters, dcmp { s.fresh.seen i.val with cnt := m } x { y with pc := y.pc + 1 } =
      (v, { s.fresh.seen i.val with cnt := m }, z)) :
    exec (.actDcmp i rd) s = .next (s.goes (s.fresh.goesOn i.val x (z.setG rd.val v))) := by
  refine exec_act rfl (by unfold wordA; omega) ha rfl fun m => ?_
  exact congrArg (fun r : W32 × Dev × PipeSt => (r.2.1, r.2.2.setG rd.val r.1)) (hp m)

theorem exec_actCmpr {v : W32} (ha : s.dev.acts (.actCmpr i rd) [16, 34, 52] x y)
    (hp : ∀ m : Counters, cmpr { s.fresh.seen i.val with cnt := m } { y with pc := y.pc + 1 } = (v, z)) :
    exec (.actCmpr i rd) s = .next (s.goes (s.fresh.goesOn i.val x (z.setG rd.val v))) := by
  refine exec_act rfl (by unfold wordA; omega) ha rfl fun m => ?_
  exact congrArg (fun r : W32 × PipeSt => (({ s.fresh.seen i.val with cnt := m } : Dev), r.2.setG rd.val r.1)) (hp m)

end Services

end Dev

/-! ### Metadata (R367) -/

namespace PipeSt

theorem setMd_readOnly {y : PipeSt} {f : Nat} (h : rwField f = false) (v : W32) : y.setMd f v = y := by
  simp only [setMd, h, Bool.false_eq_true, if_false]

/-- OUT_FLAGS keeps its four flags. -/
theorem flags_value (v : W32) : (v &&& 0xF).toNat = v.toNat % 16 := by
  rw [BitVec.toNat_and]
  exact Nat.and_two_pow_sub_one_eq_mod v.toNat 4

theorem field_setMd {y : PipeSt} {f : Nat} (h : rwField f = true) (x : Packet) (v : W32) :
    (y.setMd f v).field x f = some (if f = 0x13 then v.toNat % 16 else v.toNat) := by
  simp only [field, h, if_true, rw, setMd]
  rw [SMap.get_set_self]
  split
  · rw [flags_value]
  · rfl

end PipeSt

open Dev

/-- Settles O56: each instruction issues by `exec_act` or `exec_actP`, and what it makes of the pipeline is `pol_charges`,
`dcmp_packed`, `cmpr_plain` and the lemmas beside them. -/
theorem actionLoadsStoresAndServices : Obligations.ActionLoadsStoresAndServices := by
  unfold Obligations.ActionLoadsStoresAndServices
  rintro s i rd ra f off roff wid rb k x y z rfl
  refine ⟨fun ha => ⟨fun v hv => ?ldm, fun hv => ?ldmFree⟩, fun ha => ⟨?stm, fun h => PipeSt.field_setMd h x _,
    fun h => PipeSt.setMd_readOnly h _⟩, fun ha => ?sth, fun ha => ⟨fun hc => ?ownrNone, fun c hc => ?ownr⟩,
    fun n hn ha => ⟨fun h => ?polNone, fun hlo hhi => ?polUnlisted, fun c h hc => ?polAgain, fun p c h hc hp hcol => ?pol⟩,
    fun ha => ?ldh, fun ha => ⟨fun h => ?dcmpPlain, fun w hdr h hw => ?dcmp, fun e h hw => ?dcmpError⟩,
    fun ha => ⟨fun h => ?cmprPacked, fun h => ?cmprOther, fun w h hw => ?cmpr, fun e h hw => ?cmprError⟩, fun ha => ?ldr,
    fun ha => ?cnt⟩
  case ldm =>
    refine exec_act rfl (by unfold wordA; omega) ha rfl (g := id) fun n => ?_
    have hv' : PipeSt.field { y with pc := y.pc + 1 } x f.toNat = some v := hv
    simp only [hv', id]
  case ldmFree =>
    have hv' : PipeSt.field { y with pc := y.pc + 1 } x f.toNat = none := hv
    refine ⟨_, exec_act rfl (by unfold wordA; omega) ha rfl (g := fun e => (e.draw 32).2)
      (z := PipeSt.setG { y with pc := y.pc + 1 } rd.val (s.dev.draw 32).1) fun n => ?_, goesOn_draw ..⟩
    simp only [hv']
    rfl
  case stm => exact exec_actP rfl (by unfold wordA; omega) ha rfl rfl
  case sth => exact exec_actP rfl (by unfold wordA; omega) ha rfl rfl
  case ldh => exact exec_actP rfl (by unfold wordA; omega) ha rfl rfl
  case ldr => exact exec_actP rfl (by unfold wordA; omega) ha rfl rfl
  case cnt => exact exec_act rfl (by unfold wordA; omega) ha rfl fun _ => rfl
  case ownrNone =>
    refine exec_act rfl (by unfold wordA; omega) ha rfl (g := id) fun n => ?_
    have hc' : ownerChip { s.fresh.seen i.val with cnt := n } (PipeSt.pan { y with pc := y.pc + 1 })
      ((PipeSt.g { y with pc := y.pc + 1 } ra.val).toNat % 65536) = none := hc
    simp only [hc', id]
  case ownr =>
    refine exec_act rfl (by unfold wordA; omega) ha rfl (g := id) fun n => ?_
    have hc' : ownerChip { s.fresh.seen i.val with cnt := n } (PipeSt.pan { y with pc := y.pc + 1 })
      ((PipeSt.g { y with pc := y.pc + 1 } ra.val).toNat % 65536) = some c := hc
    simp only [hc', id]
  case polNone =>
    refine exec_actPol (c := 0) (g := id) ha hn fun m => ?_
    rw [pol_unlisted _ _ _ (by omega), if_pos h]
    rfl
  case polUnlisted =>
    refine exec_actPol (c := 0) ha hn fun m => ?_
    rw [pol_unlisted _ _ _ hlo, if_neg (by omega)]
  case polAgain => exact exec_actPol ha hn fun m => pol_charged _ _ h hc
  case pol =>
    subst hp
    exact ⟨charge s.dev.tm n { y with pc := y.pc + 1 }, exec_actPol ha hn fun m => pol_charges _ _ h hc hcol,
      fun m hm => SMap.get_put_ne _ _ _ hm, rfl⟩
  case dcmpPlain => exact exec_actDcmp ha fun m => dcmp_plain _ _ h
  case dcmp =>
    have hd (m : Counters) := dcmp_unpacks { s.fresh.seen i.val with cnt := m } x (y := { y with pc := y.pc + 1 }) h
      (by rw [llOf_seen]; exact hw)
    by_cases hh : hdr ≤ 128
    · rw [if_pos hh]
      exact exec_actDcmp ha fun m => (hd m).trans (if_neg (Nat.not_lt.2 hh))
    · rw [if_neg hh]
      exact exec_actDcmp ha fun m => (hd m).trans (if_pos (Nat.not_le.1 hh))
  case dcmpError => exact exec_actDcmp ha fun m => dcmp_error _ _ h (by rw [llOf_seen]; exact hw)
  case cmprPacked => exact exec_actCmpr ha fun m => cmpr_packed _ h
  case cmprOther => exact exec_actCmpr ha fun m => cmpr_other _ h
  case cmpr => exact exec_actCmpr ha fun m => cmpr_packs _ h (by rw [panEui_seen, rw_pc]; exact hw)
  case cmprError => exact exec_actCmpr ha fun m => cmpr_error _ h (by rw [panEui_seen, rw_pc]; exact hw)

end Sys2Proof.Machine
end

section
/-! PROOFS. The lookups of a pass, the packet that takes a window, and the instructions that end a pass (R360 to R363, R371 to
R375, R381 to R383). -/

namespace Sys2Proof.Machine

namespace Dev

section Congr
variable {a b : Dev} (htbl : a.tbl = b.tbl) (hcfg : a.cfg = b.cfg) (hepoch : a.epoch = b.epoch)
include htbl hcfg hepoch

/-- The node table as a lookup sees it depends on the tables, the age limits and the epoch (R321, R339). -/
theorem lkn_congr (k addr : Nat) : a.lkn k addr = b.lkn k addr := by
  simp only [lkn, findShort_congr htbl hcfg hepoch, nodeAt_congr htbl]

theorem lke_congr (k : Nat) (eui : W64) : a.lke k eui = b.lke k eui := by
  have hsees (x : NodeEntry) : a.seesNode x = b.seesNode x := seesNode_congr hcfg hepoch x
  simp only [lke, findEui, htbl, hsees, nodeAt_congr htbl]

end Congr

/-! ### Lookups go out (R273, R371, R372) -/

theorem lookup_full {d : Dev} {i : Nat} (h : 4 ≤ (d.pipeSt i).lookups.length) (v rd rb kind : Nat)
    (f : Dev → PipeSt → Option (List Byte)) : d.lookup i v rd rb kind f = d := if_pos h

/-- A lookup that issues joins those in flight with what the tables hold now. -/
theorem exec_lookup {α : Type} {s : State} {j : Instr} {k w v rd rb : Nat} {x : Packet} {y : PipeSt}
    (hrow : actRow j = some (k, w)) (hv : v = w) (ha : s.dev.acts j (operands j) x y) (hroom : y.lookups.length < 4)
    {kind : Dev → Nat} {F : Dev → PipeSt → Option (List Byte)}
    (hrun : exec j s = s.run (fun d => d.lookup k v rd rb (kind d) F)) (r : Option α) (o : α → List Byte)
    (hF : ∀ n : Counters, F { s.fresh.seen k with cnt := n } { y with pc := y.pc + 1 } = r.map o) :
    exec j s = .next (s.goes (s.fresh.goesOn k x { y with
      pc := y.pc + 1, lookups := y.lookups ++ [⟨rd, rb, r.isSome, slice ((r.map o).getD []) 0 64, kind s.fresh⟩] })) := by
  have hy : s.fresh.pipeSt k = y := (issuing_of_acts (a := s.fresh) hrow ha).2
  rw [hrun, State.run_goes, lookup, if_neg (by rw [hy]; omega), act_issued hrow hv ha (g := id) fun n => ?_]
  simp only [hF n, id, Option.isSome_map]

/-! ### Instructions that end a pass (R374, R375, R382, R383) -/

/-- An EMIT that issues does its work on the pipeline of the pass. -/
theorem exec_actEmit {s : State} {j : Instr} {k w v : Nat} {x : Packet} {y : PipeSt} (hrow : actRow j = some (k, w))
    (hv : v = w) (ha : s.dev.acts j (operands j) x y) {F : Dev → Packet → PipeSt → Dev}
    (hrun : exec j s = s.run (fun d => d.actEmit k v F)) :
    exec j s = .next (s.goes (s.fresh.inPass k x (fun e => F e x y))) := by
  obtain ⟨hissue, hy⟩ := issuing_of_acts (a := s.fresh) hrow ha
  rw [hrun, State.run_goes, actEmit, hv, hissue]
  refine congrArg (fun e => Host.Outcome.next (s.goes e)) (inPass_congr fun n => ?_)
  have hpipe : pipeSt { s.fresh.seen k with cnt := n } k = y := hy
  dsimp only
  rw [hpipe]

theorem fwd_drops {y : PipeSt} (h : 4 ≤ y.rw 0x10) (d : Dev) (i : Nat) (x : Packet) : d.fwd i x y = d.endPass i .ST_DROPPED := by
  unfold fwd
  split
  next h0 => omega
  next h1 => omega
  next h2 => omega
  next h3 => omega
  next => rfl

/-- Wherever FWD sends its packet, it leaves the pipeline idle. -/
theorem pipeSt_fwd (d : Dev) (i : Nat) (x : Packet) (y : PipeSt) : (d.fwd i x y).pipeSt i = (d.pipeSt i).idle := by
  have hsame {e : Dev} (h : e.pipe = d.pipe) (st : Status) : (e.endPass i st).pipeSt i = (d.pipeSt i).idle := by
    rw [pipeSt_endPass, pipeSt, h, pipeSt]
  unfold fwd
  split
  next => exact hsame ((leaves_fwdAir (us := [.out, .cnt, .ev, .air, .tm]) (.refl _ d) i x y rfl).same .pipe rfl).symm _
  next => exact hsame ((leaves_fwdEth (us := [.cnt, .ev, .tm]) (.refl _ d) i x y rfl).same .pipe rfl).symm _
  next => exact hsame ((leaves_fwdShelf (us := [.cnt, .ev, .tm]) (.refl _ d) i x y rfl).same .pipe rfl).symm _
  next => exact hsame ((leaves_fwdHost (us := [.cnt, .ev, .tm]) (.refl _ d) i x y rfl).same .pipe rfl).symm _
  next => exact hsame rfl _

theorem tm_endPass (d : Dev) (i : Nat) (st : Status) : (d.endPass i st).tm = d.tm :=
  ((leaves_endPass (us := [.out, .cnt, .ev, .host, .ports, .pipe]) (.refl _ d) i st rfl).same .tm rfl).symm

/-- The end of a pass with no lookup in flight counts nothing. -/
theorem cnt_endPass {d : Dev} {i : Nat} {x : Packet} (hl : (d.pipeSt i).lookups = []) (hx : (d.pipeSt i).cur = some x)
    (st : Status) : (d.endPass i st).cnt = d.cnt := by
  simp only [endPass, hl, hx, List.foldl_nil]
  exact ((leaves_packetFate (us := [.out, .host, .ports]) (.refl _ (d.setPipe i (d.pipeSt i).idle)) x st rfl).same .cnt rfl).symm

/-- The live counts after a pass's work are those that the work leaves, under whatever epoch it counts (R20). -/
theorem count_inPass {d : Dev} {i : Nat} {x : Packet} {f : Dev → Dev} {c : Counter} {z : Nat}
    (h : ∀ n : Counters, n.live = d.cnt.live → (f { d.seen i with cnt := n }).count c = z) : (d.inPass i x f).count c = z := by
  unfold inPass asPacket
  dsimp only
  split
  · exact h _ rfl
  · exact h d.cnt rfl

theorem recirc_goes {d : Dev} {i prog : Nat} {y : PipeSt} {p : Nat × List Nat} (hpass : y.pass = 1)
    (hp : d.progOf y.oldBank prog = some p) (hr : recirculates p.2 = false) :
    (d.recirc i prog y).pipeSt i = { y with recirc := true, prog := prog, lookups := [] } := by
  simp [recirc, hpass, hp, hr]

/-- RECIRC anywhere but to a program of the image that does not recirculate, or in the second pass, drops the packet. -/
theorem recirc_drops {d : Dev} {i prog : Nat} {y : PipeSt} (h : y.pass ≠ 1 ∨ d.progOf y.oldBank prog = none ∨
    ∃ p, d.progOf y.oldBank prog = some p ∧ recirculates p.2 = true) :
    (d.recirc i prog y).pipeSt i = (d.pipeSt i).idle := by
  have hrec : d.recirc i prog y = (d.bump (Cnt.PIPE_BAD_TARGET i)).endPass i .ST_DROPPED := by
    obtain hpass | hnone | ⟨p, hp, hr⟩ := h
    · simp [recirc, hpass]
    · simp [recirc, hnone]
    · simp [recirc, hp, hr]
  rw [hrec, pipeSt_endPass, pipe_bump]

/-- A recirculation that issues keeps its packet for a second pass, or drops it. -/
theorem exec_recirc {s : State} {j : Instr} {k w v : Nat} {x : Packet} {y : PipeSt} (hrow : actRow j = some (k, w))
    (hv : v = w) (ha : s.dev.acts j (operands j) x y) {g : PipeSt → Nat}
    (hrun : exec j s = s.run (fun d => d.actEmit k v (fun d _ t => d.recirc k (g t) t))) :
    (∀ p, y.pass = 1 → s.dev.progOf y.oldBank (g y) = some p → recirculates p.2 = false → ∃ t, exec j s = .next t ∧
      t.dev.pipeSt k = { y with recirc := true, prog := g y, lookups := [] }) ∧
    ((y.pass ≠ 1 ∨ s.dev.progOf y.oldBank (g y) = none ∨ ∃ p, s.dev.progOf y.oldBank (g y) = some p ∧ recirculates p.2 = true) →
      ∃ t, exec j s = .next t ∧ (t.dev.pipeSt k).cur = none ∧ (t.dev.pipeSt k).queues = y.queues) := by
  have hy : s.dev.pipeSt k = y := (issuing_of_acts (a := s.dev) hrow ha).2
  have hexec := exec_actEmit hrow hv ha hrun
  refine ⟨fun p hpass hp hr => ⟨_, hexec, ?_⟩, fun h => ⟨_, hexec, ?_⟩⟩
  · exact pipeSt_inPass fun n => recirc_goes (d := { s.fresh.seen k with cnt := n }) hpass hp hr
  · have hidle : (s.fresh.inPass k x (fun e => e.recirc k (g y) y)).pipeSt k = y.idle := pipeSt_inPass fun n =>
      (recirc_drops (d := { s.fresh.seen k with cnt := n }) h).trans (congrArg PipeSt.idle hy)
    rw [State.goes_dev, hidle]
    exact ⟨rfl, rfl⟩

/-! ### LOOKUP_RETURN (R361, R371) -/

/-- The pipeline after its oldest lookup l has returned. -/
def returned (y : PipeSt) (l : LookupReq) (rest : List LookupReq) : PipeSt :=
  ({ y with lookups := rest, rbs := y.rbs.set [] l.rb l.data } : PipeSt).setG l.d (if l.hit then 1 else 0)

theorem returned_fields (y : PipeSt) (l : LookupReq) (rest : List LookupReq) :
    (returned y l rest).lookups = rest ∧ (returned y l rest).rbs.get [] l.rb = l.data ∧
      (returned y l rest).pc = y.pc ∧ (returned y l rest).cur = y.cur := by
  have hget : (y.rbs.set [] l.rb l.data).get [] l.rb = l.data := SMap.get_set_self ..
  unfold returned PipeSt.setG
  split
  · exact ⟨rfl, hget, rfl, rfl⟩
  · exact ⟨rfl, hget, rfl, rfl⟩

/-- What a packet counts leaves the pipelines alone. -/
theorem pipe_asPacket {d : Dev} {x : Packet} {f : Dev → Dev} (h : ∀ e : Dev, (f e).pipe = e.pipe) :
    (d.asPacket x f).pipe = d.pipe := by
  unfold asPacket asFrame
  split
  · exact h _
  · exact h d

theorem pipe_countLookup (d : Dev) (l : LookupReq) : (d.countLookup l).pipe = d.pipe :=
  ((leaves_countLookup (us := [.cnt, .ev]) (.refl _ d) l rfl).same .pipe rfl).symm

theorem lookupReturn_pipeSt {d : Dev} {i : Nat} {l : LookupReq} {rest : List LookupReq} (h : (d.pipeSt i).lookups = l :: rest)
    (late : Bool) : (d.lookupReturn i late).pipeSt i = returned (d.pipeSt i) l rest := by
  have hcount (e : Dev) : (if late = true then (e.countLookup l).bump (Cnt.PIPE_LATE i) else e.countLookup l).pipe = e.pipe := by
    split
    · rw [bump_pipe, pipe_countLookup]
    · exact pipe_countLookup e l
  have hset : (d.setPipe i (returned (d.pipeSt i) l rest)).pipeSt i = returned (d.pipeSt i) l rest := pipeSt_setPipe ..
  unfold lookupReturn
  simp only [h]
  split
  · rw [pipeSt, pipe_asPacket hcount]
    exact hset
  · rw [pipeSt, hcount]
    exact hset

/-! ### PIPE_WINDOW_START (R360 to R363, R366) -/

theorem windowStart_running {d : Dev} {i : Nat} (hcur : (d.pipeSt i).cur ≠ none) (h : (d.pipeSt i).recirc = false) :
    d.windowStart i = d := by
  obtain ⟨x, hx⟩ := Option.ne_none_iff_exists'.1 hcur
  simp only [windowStart, hx, h, Bool.false_eq_true, if_false]

/-- The pipeline at the start of a second pass. -/
def secondPass (y : PipeSt) : PipeSt :=
  { y with recirc := false, pass := 2, pc := 0, rbs := [], charged := [], lookups := [] }

theorem windowStart_again {d : Dev} {i : Nat} {x : Packet} (hx : (d.pipeSt i).cur = some x) (h : (d.pipeSt i).recirc = true) :
    d.windowStart i = (d.setPipe i (secondPass (d.pipeSt i))).asPacket x
      (fun d => (d.bump (Cnt.PIPE_PASSES i)).bump (Cnt.PIPE_RECIRC i)) := by
  simp only [windowStart, hx, h, if_true, secondPass]

/-- A pipeline with a queue that is not empty has packets that wait. -/
theorem waiting_pos {q : SMap (List Packet)} {src n : Nat} (h : q.get [] src ≠ []) :
    0 < q.foldl (fun n (y : Nat × List Packet) => n + y.2.length) n := by
  induction q generalizing n with
  | nil => exact absurd rfl h
  | cons y q ih =>
    rw [List.foldl_cons]
    by_cases hk : y.1 = src
    · have hy : y.2 ≠ [] := by
        rwa [SMap.get, SMap.find, if_pos hk] at h
      have hpos : 0 < n + y.2.length := Nat.add_pos_right _ (List.length_pos_iff.2 hy)
      exact Nat.lt_of_lt_of_le hpos (waiting_mono q _)
    · refine ih ?_
      rwa [SMap.get, SMap.find, if_neg hk] at h
where
  waiting_mono (q : SMap (List Packet)) (n : Nat) : n ≤ q.foldl (fun n (y : Nat × List Packet) => n + y.2.length) n := by
    induction q generalizing n with
    | nil => exact Nat.le_refl n
    | cons y q ih => exact Nat.le_trans (Nat.le_add_right ..) (ih _)

/-- The packet of a source as it enters a pass (R20). -/
def entered (d : Dev) (src : Nat) (x : Packet) : Packet := if srcKind src = 0 then x else { x with epoch := d.epoch.numPipe }

/-- The pipeline once the packet at the front of a source's queue has left it. -/
def dequeued (y : PipeSt) (src : Nat) (rest : List Packet) : PipeSt :=
  { y with queues := y.queues.set [] src rest, turn := src }

theorem takePacket_first {d : Dev} {i n src : Nat} {x : Packet} {rest : List Packet} {p : Nat × List Nat}
    (hnext : nextSource (d.pipeSt i) = some src) (hq : (d.pipeSt i).queues.get [] src = x :: rest) (hbad : x.bad = false)
    (hp : d.pipe.progs.find src = some p) (hn : 0 < n) :
    takePacket i n d = (some (d.entered src x), d.setPipe i (dequeued (d.pipeSt i) src rest)) := by
  obtain ⟨n, rfl⟩ := Nat.exists_eq_add_of_lt hn
  have hgood : (d.entered src x).bad = false := by
    unfold entered
    split <;> exact hbad
  have hprog : ((d.setPipe i (dequeued (d.pipeSt i) src rest)).pipe.progs.find src).isSome = true := by
    rw [show (d.setPipe i (dequeued (d.pipeSt i) src rest)).pipe.progs = d.pipe.progs from rfl, hp]
    rfl
  rw [Nat.zero_add, takePacket]
  simp only [hnext, hq]
  exact (if_neg (by rw [← Bool.not_eq_true] at hgood; exact hgood)).trans (if_pos hprog)

/-- The pipeline with a packet in its window at the start of a first pass. -/
def firstPass (y : PipeSt) (x : Packet) : PipeSt :=
  ((({ y.idle with cur := some x, pass := 1, prog := x.src, w := x.data, l3 := x.l3 } : PipeSt).setMd 2
    (BitVec.ofNat 32 x.pan)).setMd 0x16 x.tag)

theorem windowStart_first {d : Dev} {i src : Nat} {x : Packet} {rest : List Packet} {p : Nat × List Nat}
    (hcur : (d.pipeSt i).cur = none) (hnext : nextSource (d.pipeSt i) = some src)
    (hq : (d.pipeSt i).queues.get [] src = x :: rest) (hbad : x.bad = false) (hp : d.pipe.progs.find src = some p) :
    d.windowStart i = ((d.setPipe i (dequeued (d.pipeSt i) src rest)).setPipe i
      (firstPass (dequeued (d.pipeSt i) src rest) (d.entered src x))).asPacket (d.entered src x)
        (fun d => d.bump (Cnt.PIPE_PASSES i)) := by
  have hn := waiting_pos (n := 0) (q := (d.pipeSt i).queues) (src := src) (by rw [hq]; simp)
  simp only [windowStart, hcur, takePacket_first hnext hq hbad hp hn, pipeSt_setPipe, firstPass]

/-- The metadata of a packet that enters a window: OUT_KIND 4, OUT_DST 0xFFFF, PAN its own (R367). -/
theorem firstPass_metadata (y : PipeSt) (x : Packet) : (firstPass y x).rw 0x10 = 4 ∧ (firstPass y x).rw 0x14 = 0xFFFF ∧
    (firstPass y x).rw 2 = x.pan % 2 ^ 32 := by
  have hmd : (firstPass y x).md = (SMap.set [] (PipeSt.meta0 2) 2 (BitVec.ofNat 32 x.pan)).set (PipeSt.meta0 0x16) 0x16 x.tag := rfl
  have hfind (f : Nat) (h : f ≠ 0x16) :
      (firstPass y x).md.find f = (SMap.set [] (PipeSt.meta0 2) 2 (BitVec.ofNat 32 x.pan)).find f := by
    rw [hmd, SMap.find_set_ne _ _ _ h]
  have hfresh (f : Nat) (h : f ≠ 0x16) (h2 : f ≠ 2) : (firstPass y x).rw f = (PipeSt.meta0 f).toNat := by
    rw [PipeSt.rw, SMap.get, hfind f h, SMap.find_set_ne _ _ _ h2]
    rfl
  refine ⟨hfresh 0x10 (by decide) (by decide), hfresh 0x14 (by decide) (by decide), ?_⟩
  have hpan : (SMap.set [] (PipeSt.meta0 2) 2 (BitVec.ofNat 32 x.pan)).get (PipeSt.meta0 2) 2 = BitVec.ofNat 32 x.pan :=
    SMap.get_set_self ..
  rw [PipeSt.rw, SMap.get, hfind 2 (by decide)]
  exact (congrArg BitVec.toNat hpan).trans (BitVec.toNat_ofNat ..)

end Dev

open Dev

/-- Settles O57: lookups join by `exec_lookup` and return by `lookupReturn_pipeSt`, an EMIT does its work by `exec_actEmit`, and a
window starts by `windowStart_running`, `windowStart_again` and `windowStart_first`. -/
theorem lookupsWindowsAndEmits : Obligations.LookupsWindowsAndEmits := by
  unfold Obligations.LookupsWindowsAndEmits
  intro s i
  refine ⟨?pass, fun h late => ?returnNone, fun l rest late h => ?returns, fun hcur h => ?running, fun hcur h => ?again,
    fun src x rest p hcur hnext hq hbad hsrc hp => ?first, fun j => ⟨fun h => ?noContext, fun h => ?context⟩⟩
  case pass =>
    rintro x y z rd ra rb res src rfl
    refine ⟨?full, fun hroom => ⟨fun e ha he => ?lkn, fun e ha he => ?lke, fun e ha he => ?lkr⟩,
      fun hroom ha => ⟨fun h => ?lkpOther, fun e h he => ?lkp⟩, fun ha => ?fwd, fun k ha => ?drop, ?recirc⟩
    case full =>
      intro h
      have hfull (v rd rb kind : Nat) (f : Dev → PipeSt → Option (List Byte)) :
          s.run (fun d => d.lookup i.val v rd rb kind f) = .next (s.goes s.fresh) :=
        congrArg (fun e => Host.Outcome.next (s.goes e)) (lookup_full (d := s.fresh) h v rd rb kind f)
      refine List.forall_mem_cons.2 ⟨hfull .., List.forall_mem_cons.2 ⟨hfull .., List.forall_mem_cons.2 ⟨hfull ..,
        List.forall_mem_cons.2 ⟨?_, List.forall_mem_nil _⟩⟩⟩⟩
      exact congrArg (fun e => Host.Outcome.next (s.goes e)) (lookup_full (d := s.fresh) h ..)
    case lkn =>
      subst he
      exact exec_lookup (kind := fun _ => 0) rfl (by unfold wordA; omega) ha hroom rfl _ NodeEntry.octets fun n =>
        congrArg (Option.map NodeEntry.octets)
          (lkn_congr (a := { s.fresh.seen i.val with cnt := n }) (b := s.dev.seen i.val) rfl rfl rfl _ _)
    case lke =>
      subst he
      exact exec_lookup (kind := fun _ => 0) rfl (by unfold wordA; omega) ha hroom rfl _ NodeEntry.octets fun n =>
        congrArg (Option.map NodeEntry.octets)
          (lke_congr (a := { s.fresh.seen i.val with cnt := n }) (b := s.dev.seen i.val) rfl rfl rfl _ _)
    case lkr =>
      subst he
      exact exec_lookup (kind := fun _ => 2) rfl (by unfold wordA; omega) ha hroom rfl _ RouteEntry.octets fun n => rfl
    case lkpOther =>
      have hy : s.dev.pipeSt i.val = y := (issuing_of_acts (a := s.dev) rfl ha).2
      refine (exec_lookup (kind := fun d => if (d.pipeSt i.val).l3 = 0 then 1 else 3) rfl (by unfold wordA; omega) ha hroom rfl
        none PrefixEntry.octets fun n => ?_).trans ?_
      · exact if_neg h
      · rw [show s.fresh.pipeSt i.val = y from hy, if_neg h]
        rfl
    case lkp =>
      subst he
      have hy : s.dev.pipeSt i.val = y := (issuing_of_acts (a := s.dev) rfl ha).2
      refine (exec_lookup (kind := fun d => if (d.pipeSt i.val).l3 = 0 then 1 else 3) rfl (by unfold wordA; omega) ha hroom rfl
        (s.dev.findPrefix (y.win (if src then 8 else 24) 16)) PrefixEntry.octets fun n => if_pos h).trans ?_
      rw [show s.fresh.pipeSt i.val = y from hy, if_pos h]
    case fwd =>
      have hy : s.dev.pipeSt i.val = y := (issuing_of_acts (a := s.dev) rfl ha).2
      have hidle : (s.fresh.inPass i.val x (fun e => e.fwd i.val x y)).pipeSt i.val = y.idle :=
        pipeSt_inPass fun n => (pipeSt_fwd ..).trans (congrArg PipeSt.idle hy)
      refine ⟨_, exec_actEmit rfl (by unfold wordA; omega) ha rfl, ?_⟩
      rw [State.goes_dev, hidle]
      refine ⟨rfl, rfl, rfl, fun h => read_inPass tm (fun _ _ => rfl) (fun _ _ => rfl) fun n => ?_⟩
      rw [fwd_drops h, tm_endPass]
      rfl
    case drop =>
      have hy : s.dev.pipeSt i.val = y := (issuing_of_acts (a := s.dev) rfl ha).2
      have hx : y.cur = some x := by
        obtain ⟨⟨_, _, _, hrow, ⟨_, hx, _⟩, _⟩, _⟩ := ha
        exact hx
      have hidle : (s.fresh.inPass i.val x (fun e => (e.bump (Cnt.ACT_CNT k.val)).endPass i.val .ST_DROPPED)).pipeSt i.val = y.idle :=
        pipeSt_inPass fun n => (pipeSt_endPass ..).trans (congrArg PipeSt.idle ((pipe_bump ..).trans hy))
      refine ⟨_, exec_actEmit rfl (by unfold wordA; omega) ha rfl, ?_⟩
      rw [State.goes_dev, hidle]
      refine ⟨rfl, rfl, rfl, read_inPass tm (fun _ _ => rfl) (fun _ _ => rfl) fun n => ?_, fun hl _ => count_inPass fun n hn => ?_⟩
      · rw [tm_endPass, bump_tm]
        rfl
      · have hpipe : (({ s.fresh.seen i.val with cnt := n } : Dev).bump (Cnt.ACT_CNT k.val)).pipeSt i.val = y := (pipe_bump ..).trans hy
        rw [count, cnt_endPass (x := x) (by rw [hpipe]; exact hl) (by rw [hpipe]; exact hx)]
        refine (count_bump_wide _ _ _ rfl).trans ?_
        simp only [count, hn]
        rfl
    case recirc =>
      intro prog
      refine List.forall_mem_cons.2 ⟨fun ha => ?_, List.forall_mem_cons.2 ⟨fun ha => ?_, List.forall_mem_nil _⟩⟩
      · exact exec_recirc (g := fun _ => prog.toNat) rfl (by unfold wordA; omega) ha rfl
      · have hrec := exec_recirc (g := fun t => fld (t.rbs.get [] res.val) 0x16 1) (k := i.val) rfl (by unfold wordA; omega) ha rfl
        exact hrec
  case returnNone =>
    have hret : s.fresh.lookupReturn i.val late = s.fresh := by
      unfold lookupReturn
      simp only [show (s.fresh.pipeSt i.val).lookups = [] from h]
    exact congrArg (fun e => Host.Outcome.next (s.goes e)) hret
  case returns =>
    have hpipe := lookupReturn_pipeSt (d := s.fresh) h late
    obtain ⟨hrest, hdata, hpc, hcur⟩ := returned_fields (s.fresh.pipeSt i.val) l rest
    have hrun : exec (.lookupReturn i late) s = .next (s.goes (s.fresh.lookupReturn i.val late)) := rfl
    refine ⟨_, hrun, ?_⟩
    rw [State.goes_dev, hpipe]
    refine ⟨hrest, hdata, fun hd => PipeSt.g_setG_self _ hd _, hpc, hcur, State.sameBut_of_leaves rfl ?_⟩
    exact leaves_lookupReturn (.refl _ _) _ _ rfl
  case running => exact congrArg (fun e => Host.Outcome.next (s.goes e)) (windowStart_running (d := s.fresh) hcur h)
  case again =>
    obtain ⟨x, hx⟩ := Option.ne_none_iff_exists'.1 hcur
    have hcounts (e : Dev) : ((e.bump (Cnt.PIPE_PASSES i.val)).bump (Cnt.PIPE_RECIRC i.val)).pipe = e.pipe := by
      rw [bump_pipe, bump_pipe]
    refine ⟨_, congrArg (fun e => Host.Outcome.next (s.goes e)) (windowStart_again (d := s.fresh) hx h), ?_, ?_⟩
    · rw [State.goes_dev, pipeSt, pipe_asPacket hcounts]
      exact pipeSt_setPipe ..
    · rw [State.goes_dev]
      refine State.sameBut_of_leaves rfl (leaves_asPacket (leaves_setPipe (.refl _ _) _ _ rfl) _ _ (fun e he => ?_) rfl)
      exact leaves_bump (leaves_bump he _ _ rfl) _ _ rfl
  case first =>
    have hpipe (e : Dev) : (e.bump (Cnt.PIPE_PASSES i.val)).pipe = e.pipe := bump_pipe ..
    have hstart := windowStart_first (d := s.fresh) hcur hnext hq hbad hp
    obtain ⟨hkind, hdst, hpan⟩ := firstPass_metadata (dequeued (s.fresh.pipeSt i.val) src rest) (s.fresh.entered src x)
    have hq' : ((s.fresh.pipeSt i.val).queues.set [] src rest).get [] src = rest := SMap.get_set_self ..
    have hsame : (s.fresh.entered src x).src = x.src ∧ (s.fresh.entered src x).data = x.data ∧ (s.fresh.entered src x).l3 = x.l3 ∧
        (s.fresh.entered src x).pan = x.pan := by
      unfold entered
      split <;> exact ⟨rfl, rfl, rfl, rfl⟩
    obtain ⟨hsrc', hdata, hl3, hpan'⟩ := hsame
    have hset : (s.fresh.windowStart i.val).pipeSt i.val =
        firstPass (dequeued (s.fresh.pipeSt i.val) src rest) (s.fresh.entered src x) := by
      rw [hstart, pipeSt, pipe_asPacket hpipe]
      exact pipeSt_setPipe ..
    have hrun : exec (.pipeWindowStart i) s = .next (s.goes (s.fresh.windowStart i.val)) := rfl
    refine ⟨_, s.fresh.entered src x, hrun, ?_⟩
    rw [State.goes_dev, hset]
    refine ⟨rfl, rfl, rfl, rfl, hsrc'.trans hsrc, hdata, hl3, rfl, hkind, hdst, hpan.trans (by rw [hpan']), hq', ?_⟩
    rw [hstart]
    refine State.sameBut_of_leaves rfl (leaves_asPacket (leaves_setPipe (leaves_setPipe (.refl _ _) _ _ rfl) _ _ rfl) _ _
      (fun e he => leaves_bump he _ _ rfl) rfl)
  case noContext => exact congrArg (fun e => Host.Outcome.next (s.goes e)) (if_neg (Nat.not_lt.2 h))
  case context => exact congrArg (fun e => Host.Outcome.next (s.goes e)) (if_pos h)

end Sys2Proof.Machine
end

section
/-! PROOFS. The packet rings (R386, R527 to R532): the delivery of a queue's head, the stall limit, and the fetch of a chain. -/

namespace Sys2Proof.Machine

namespace Dev

/-! ### Folds that change nothing -/

theorem each_same {f : Dev → Nat → Dev} {d : Dev} {xs : List Nat} (h : ∀ n ∈ xs, f d n = d) : d.each xs f = d := by
  induction xs with
  | nil => rfl
  | cons n xs ih =>
    rw [each, List.foldl_cons, h n List.mem_cons_self]
    exact ih fun m hm => h m (List.mem_cons_of_mem _ hm)

/-! ### Heads and charges (R394, R395, R588) -/

/-- A head that no error has hit stays. -/
theorem dropBadHost_good {d : Dev} {q : Nat} (h : ∀ n, (d.queue q).head? ≠ some (.bad n)) (n : Nat) : dropBadHost q n d = d := by
  cases n with
  | zero => rfl
  | succ n =>
    rw [dropBadHost]
    split
    next m rest heq => exact absurd (by rw [heq]; rfl) (h m)
    next => rfl

/-- A dequeue charges shapers, and leaves the queues alone. -/
theorem queue_chargeDequeue (d : Dev) (q p : Nat) : (d.chargeDequeue q).queue p = d.queue p := by
  have hqueues : (d.chargeDequeue q).tm.queues = d.tm.queues := by
    rw [chargeDequeue, chargeAt, bump_tm]
    exact each_const (fun e => e.tm.queues) (by intros; rfl) (d.chain q) d
  rw [queue, hqueues, queue]

theorem chargeDequeue_same {u : DevUnit} (d : Dev) (q : Nat) (hu : [DevUnit.cnt, .ev, .tm].contains u = false) :
    d.sameUnit u (d.chargeDequeue q) :=
  (leaves_chargeDequeue (us := [.cnt, .ev, .tm]) (.refl _ d) q rfl).same u hu

theorem chargeDequeue_host (d : Dev) (q : Nat) : (d.chargeDequeue q).host = d.host :=
  (chargeDequeue_same (u := .host) d q rfl).symm

theorem chargeDequeue_out (d : Dev) (q : Nat) : (d.chargeDequeue q).out = d.out := (chargeDequeue_same (u := .out) d q rfl).symm

/-! ### What an advance of a ring leaves alone -/

theorem rxWait_fireMsix (d : Dev) (n : Nat) : (d.fireMsix n).host.rxWait = d.host.rxWait := by
  unfold fireMsix
  dsimp only
  split
  · rfl
  · split <;> rfl

theorem rxWait_advanceRing (d : Dev) (n k : Nat) : (d.advanceRing n k).host.rxWait = d.host.rxWait := by
  obtain ⟨r, he, -, -⟩ := d.advanceRing_eq n k
  rw [he, rxWait_fireMsix]
  rfl

/-! ### The head of a queue (R530, R531) -/

theorem queue_popHost (d : Dev) (r c : Nat) : (d.popHost r c).queue (72 + 8 * r + c) = (d.queue (72 + 8 * r + c)).drop 1 :=
  queue_setQueue ..

theorem queue_popHost_ne (d : Dev) {r c q : Nat} (h : q ≠ 72 + 8 * r + c) : (d.popHost r c).queue q = d.queue q :=
  queue_setQueue_ne _ _ h

theorem rxWait_popHost (d : Dev) (r c : Nat) : (d.popHost r c).host.rxWait.find (3 + r) = none := SMap.find_del_self ..

/-- The descriptors posted in a receive or transmit ring n. -/
def posted (d : Dev) (n : Nat) : Nat := min ((d.ring n).hostIdx - (d.ring n).devIdx).toNat (d.ringSize n)

/-- A head that goes to another chip leaves its queue, and nothing goes to the host. -/
theorem remote_delivery (d : Dev) (r c chip kind ring : Nat) (b : List Byte) (e : Dev)
    (he : e = ((d.popHost r c).chargeDequeue (72 + 8 * r + c)).sendHost chip kind ring b) :
    e.queue (72 + 8 * r + c) = (d.queue (72 + 8 * r + c)).drop 1 ∧ e.host.rxWait.find (3 + r) = none ∧ e.out = d.out := by
  subst he
  have hsame {u : DevUnit} (hu : [DevUnit.cnt, .ev, .links].contains u = false) (a : Dev) :
      a.sameUnit u (a.sendHost chip kind ring b) :=
    (leaves_sendHost (us := [.cnt, .ev, .links]) (.refl _ a) chip kind ring b rfl).same u hu
  have htm (a : Dev) : (a.sendHost chip kind ring b).tm = a.tm := (hsame (u := .tm) rfl a).symm
  have hhost (a : Dev) : (a.sendHost chip kind ring b).host = a.host := (hsame (u := .host) rfl a).symm
  have hout (a : Dev) : (a.sendHost chip kind ring b).out = a.out := (hsame (u := .out) rfl a).symm
  refine ⟨?_, ?_, ?_⟩
  · rw [queue_congr (htm _), queue_chargeDequeue, queue_popHost]
  · rw [hhost, chargeDequeue_host, rxWait_popHost]
  · rw [hout, chargeDequeue_out]
    rfl

/-- The most descriptors that a frame may take (R531). -/
def mostDescs (d : Dev) (n : Nat) : Nat := min 32 (d.ringSize n - 1)

/-- A frame b goes to the host from the head of class c: its data, then k descriptors. -/
def delivered (d : Dev) (r c k : Nat) (bufs : List Nat) (b : List Byte) : Dev :=
  ((((d.popHost r c).chargeDequeue (72 + 8 * r + c)).emit .hostDma (3 + r) b).giveDescs (3 + r) k b.length bufs).bump
    (Cnt.RX_DELIVERED r)

theorem queue_delivered (d : Dev) (r c k : Nat) (bufs : List Nat) (b : List Byte) :
    (d.delivered r c k bufs b).queue (72 + 8 * r + c) = (d.queue (72 + 8 * r + c)).drop 1 := by
  rw [delivered, queue_bump, giveDescs, queue_congr (advanceRing_tm ..)]
  exact (queue_chargeDequeue ..).trans (queue_popHost ..)

theorem rxWait_delivered (d : Dev) (r c k : Nat) (bufs : List Nat) (b : List Byte) :
    (d.delivered r c k bufs b).host.rxWait.find (3 + r) = none := by
  rw [delivered, bump_host, giveDescs, rxWait_advanceRing]
  show (((d.popHost r c).chargeDequeue (72 + 8 * r + c)).host.rxWait).find (3 + r) = none
  rw [chargeDequeue_host, rxWait_popHost]

theorem ring_delivered (d : Dev) (r c k : Nat) (bufs : List Nat) (b : List Byte) :
    ((d.delivered r c k bufs b).ring (3 + r)).devIdx = (d.ring (3 + r)).devIdx + BitVec.ofNat 16 k := by
  rw [delivered, ring_bump, giveDescs, (ring_advanceRing ..).1]
  show (((d.popHost r c).chargeDequeue (72 + 8 * r + c)).ring (3 + r)).devIdx + _ = _
  rw [ring, chargeDequeue_host]
  rfl

theorem out_delivered (d : Dev) (r c k : Nat) (bufs : List Nat) (b : List Byte) :
    ∃ m, (m = [] ∨ m = [⟨.msix, 3 + r, []⟩]) ∧ (d.delivered r c k bufs b).out = d.out ++ (⟨.hostDma, 3 + r, b⟩ ::
      ((rxDescOctets k b.length bufs k b.length).map (fun x => (⟨.ringEntry, 3 + r, x⟩ : Output)) ++
        ⟨.ringIndex, 3 + r, le 8 ((d.ring (3 + r)).devIdx + BitVec.ofNat 16 k).toNat⟩ :: m)) := by
  have hbase : ((d.popHost r c).chargeDequeue (72 + 8 * r + c)).out = d.out := by
    rw [chargeDequeue_out]
    rfl
  have hring : ((d.popHost r c).chargeDequeue (72 + 8 * r + c)).ring (3 + r) = d.ring (3 + r) := by
    rw [ring, chargeDequeue_host]
    rfl
  obtain ⟨m, hm, hout⟩ := advanceRing_out
    { ((d.popHost r c).chargeDequeue (72 + 8 * r + c)).emit .hostDma (3 + r) b with
      out := (((d.popHost r c).chargeDequeue (72 + 8 * r + c)).emit .hostDma (3 + r) b).out ++
        (rxDescOctets k b.length bufs k b.length).map (fun x => (⟨.ringEntry, 3 + r, x⟩ : Output)) } (3 + r) k
  refine ⟨m, hm, ?_⟩
  rw [delivered, bump_out, giveDescs]
  refine hout.trans ?_
  show (((d.popHost r c).chargeDequeue (72 + 8 * r + c)).out ++ [_] ++ _) ++
    ⟨.ringIndex, 3 + r, le 8 ((((d.popHost r c).chargeDequeue (72 + 8 * r + c)).ring (3 + r)).devIdx + _).toNat⟩ :: m = _
  rw [hbase, hring]
  simp only [List.append_assoc, List.cons_append, List.nil_append]

section Deliver
variable {d a : Dev} {r c : Nat} {bufs : List Nat} {h : HostPkt} {b : List Byte}
  (ha : { d with host := { d.host with rxDescs := d.host.rxDescs.set [] r bufs } } = a)
  (hgood : ∀ c, c < 8 → ∀ n, (a.queue (72 + 8 * r + c)).head? ≠ some (.bad n))
include hgood

theorem rxHeads_same : a.each (List.range 8) (fun d c => dropBadHost (72 + 8 * r + c) (d.queue (72 + 8 * r + c)).length d) = a :=
  each_same fun c hc => dropBadHost_good (hgood c (List.mem_range.1 hc)) _

include ha

theorem rxDeliver_idle (hc : a.rxClass r = none) : d.rxDeliver r bufs = a := by
  simp only [rxDeliver, ha, rxHeads_same hgood, hc]

variable (hc : a.rxClass r = some c) (hh : (a.queue (72 + 8 * r + c)).head? = some (.host h)) (hb : a.hostPktOctets h = b)
include hc hh hb

theorem rxDeliver_member {root : Nat} (hm : a.modes.control = .shelfMember) (hf : a.links.followed = some root) :
    d.rxDeliver r bufs = ((a.popHost r c).chargeDequeue (72 + 8 * r + c)).sendHost root 4 r b := by
  simp only [rxDeliver, ha, rxHeads_same hgood, hc, hh, hb, hm, hf]

theorem rxDeliver_off (hm : a.modes.control ≠ .shelfMember) (hoff : a.ringOn (3 + r) = false) :
    d.rxDeliver r bufs = (a.popHost r c).bump (Cnt.RX_RING_OFF r) := by
  simp only [rxDeliver, ha, rxHeads_same hgood, hc, hh, hb, hoff]
  split
  next hm' _ => exact absurd hm' hm
  next => rfl

variable (hm : a.modes.control ≠ .shelfMember) (hon : a.ringOn (3 + r) = true)
include hm hon

theorem rxDeliver_posted {k : Nat} (hk : descsFor (bufs.take (a.posted (3 + r))) b.length = some k) : d.rxDeliver r bufs =
    if a.mostDescs (3 + r) < k then (a.popHost r c).bump (Cnt.RX_TOO_BIG r) else a.delivered r c k bufs b := by
  rw [posted] at hk
  simp only [rxDeliver, ha, rxHeads_same hgood, hc, hh, hb, hon, hk]
  split
  next hm' _ => exact absurd hm' hm
  next => rfl

theorem rxDeliver_unposted (hk : descsFor (bufs.take (a.posted (3 + r))) b.length = none) : d.rxDeliver r bufs =
    if a.mostDescs (3 + r) ≤ min (a.posted (3 + r)) bufs.length then (a.popHost r c).bump (Cnt.RX_TOO_BIG r)
    else if (a.host.rxWait.find (3 + r)).isSome then a
    else { a with host := { a.host with rxWait := a.host.rxWait.put (3 + r) (a.up, c) } } := by
  rw [posted] at hk ⊢
  simp only [rxDeliver, ha, rxHeads_same hgood, hc, hh, hb, hon, hk]
  split
  next hm' _ => exact absurd hm' hm
  next => rfl

theorem rxDeliver_holds (hk : descsFor (bufs.take (a.posted (3 + r))) b.length = none)
    (hlt : min (a.posted (3 + r)) bufs.length < a.mostDescs (3 + r)) (hw : a.host.rxWait.find (3 + r) = none) :
    d.rxDeliver r bufs = { a with host := { a.host with rxWait := a.host.rxWait.put (3 + r) (a.up, c) } } := by
  rw [rxDeliver_unposted ha hgood hc hh hb hm hon hk, if_neg (Nat.not_le.2 hlt), if_neg (by rw [hw]; decide)]

theorem rxDeliver_held (hk : descsFor (bufs.take (a.posted (3 + r))) b.length = none)
    (hlt : min (a.posted (3 + r)) bufs.length < a.mostDescs (3 + r)) (hw : a.host.rxWait.find (3 + r) ≠ none) :
    d.rxDeliver r bufs = a := by
  rw [rxDeliver_unposted ha hgood hc hh hb hm hon hk, if_neg (Nat.not_le.2 hlt), if_pos (Option.isSome_iff_ne_none.2 hw)]

end Deliver

/-! ### The stall limit (R531) -/

theorem rxStall_waits {d : Dev} {r : Nat} {w : Nat × Nat} (h : d.host.rxWait.find (3 + r) = some w) :
    d.rxStall r = (d.popHost r w.2).bump (Cnt.RX_STALL_DROP r) := by
  simp only [rxStall, h]

/-! ### Chains of transmit descriptors (R527, R528) -/

theorem writeBack_out (d : Dev) (n k : Nat) (st : Status) : ∃ m, (m = [] ∨ m = [⟨.msix, n, []⟩]) ∧ (d.writeBack n k st).out =
    d.out ++ (List.replicate k (⟨.ringEntry, n, le 2 0x8000 ++ le 2 st.code⟩ : Output) ++
      ⟨.ringIndex, n, le 8 ((d.ring n).devIdx + BitVec.ofNat 16 k).toNat⟩ :: m) := by
  obtain ⟨m, hm, hout⟩ := advanceRing_out
    { d with out := d.out ++ List.replicate k (⟨.ringEntry, n, le 2 0x8000 ++ le 2 st.code⟩ : Output) } n k
  exact ⟨m, hm, hout.trans (List.append_assoc ..)⟩

theorem writeBack_vio (d : Dev) (n k : Nat) (st : Status) : (d.writeBack n k st).vio = d.vio :=
  ((leaves_writeBack (us := [.out, .host]) (.refl _ d) n k st rfl).same .vio rfl).symm

theorem writeBack_links (d : Dev) (n k : Nat) (st : Status) : (d.writeBack n k st).links = d.links :=
  ((leaves_writeBack (us := [.out, .host]) (.refl _ d) n k st rfl).same .links rfl).symm

theorem ring_writeBack (d : Dev) (n k : Nat) (st : Status) :
    ((d.writeBack n k st).ring n).devIdx = (d.ring n).devIdx + BitVec.ofNat 16 k := (ring_advanceRing ..).1

/-- A malformed chain is written back, and is logged. -/
theorem badChain_written (a : Dev) (n k : Nat) (st : Status) (v : Vio) (x : List Byte) :
    (∃ m, (m = [] ∨ m = [⟨.msix, n, []⟩]) ∧ ((a.writeBack n k st).violate v x).out = a.out ++
      (List.replicate k (⟨.ringEntry, n, le 2 0x8000 ++ le 2 st.code⟩ : Output) ++
        ⟨.ringIndex, n, le 8 ((a.ring n).devIdx + BitVec.ofNat 16 k).toNat⟩ :: m)) ∧
    (((a.writeBack n k st).violate v x).ring n).devIdx = (a.ring n).devIdx + BitVec.ofNat 16 k ∧
    ((a.writeBack n k st).violate v x).vio.seq = a.vio.seq + 1 := by
  have hring : ((a.writeBack n k st).violate v x).ring n = (a.writeBack n k st).ring n := by rw [ring, violate_host, ring]
  rw [violate_seq, writeBack_vio, violate_out, hring]
  exact ⟨writeBack_out a n k st, ring_writeBack a n k st, rfl⟩

theorem txFetch_off {d : Dev} {r : Nat} (h : d.ringOn (19 + r) = false ∨ d.modes.control ≠ .hosted ∨
    256 ≤ ((d.pipeSt (d.pipeOf (14 + r))).queues.get [] (14 + r)).length) (descs : List TxDesc) (data : List Byte) :
    d.txFetch r descs data = d := by
  unfold txFetch
  rw [if_pos (h.imp (fun hoff => by rw [hoff]; decide) id)]

section Fetch
variable {d a : Dev} {r p : Nat} {descs : List TxDesc} {data : List Byte} (hon : d.ringOn (19 + r) = true)
  (hmode : d.modes.control = .hosted) (hroom : ((d.pipeSt (d.pipeOf (14 + r))).queues.get [] (14 + r)).length < 256)
  (hp : d.posted (19 + r) - d.descsOut (14 + r) = p)
  (ha : { d with host := { d.host with txDescs := d.host.txDescs.set [] r (descs.take p) } } = a)
include hon hmode hroom hp ha

theorem txFetch_short (hc : chainOf (descs.take p) = .short) : d.txFetch r descs data = a := by
  subst hp ha
  rw [posted] at hc ⊢
  simp only [txFetch, hon, hmode, hc]
  exact if_neg (by simp [Nat.not_le.2 hroom])

theorem txFetch_bad {k : Nat} (hc : chainOf (descs.take p) = .bad k) : d.txFetch r descs data =
    if d.descsOut (14 + r) ≠ 0 then a else (a.writeBack (19 + r) k .ST_BAD_PARAM).violate .VIO_HOST_DESC [] := by
  subst hp ha
  rw [posted] at hc ⊢
  simp only [txFetch, hon, hmode, hc]
  exact if_neg (by simp [Nat.not_le.2 hroom])

variable {k : Nat} {sop : TxDesc} {l : List TxDesc} {x : List Byte} (hc : chainOf (descs.take p) = .good k) (hd : descs = sop :: l)
  (hx : data.take (((descs.take k).map (fun y => y.len.toNat)).foldl (· + ·) 0) = x)
include hc hd hx

theorem txFetch_good : d.txFetch r descs data =
    if sop.remote = true ∧ a.links.isRoot = true ∧ sop.dstChip.toNat ≠ a.elec.chipId then
      (if d.descsOut (14 + r) ≠ 0 then a else a.remoteTx r sop x k)
    else if ¬ a.bufRoom x.length = true then a else a.hostIngress r sop x k := by
  subst hp ha hx hd
  rw [posted] at hc ⊢
  simp only [txFetch, hon, hmode, hc]
  exact if_neg (by simp [Nat.not_le.2 hroom])

end Fetch

/-! ### A packet for another chip (R532) -/

/-- A packet stays on this chip unless a root's descriptor names another. -/
theorem here_of {remote root : Bool} {chip own : Nat} (h : remote = false ∨ root = false ∨ chip = own) :
    ¬ (remote = true ∧ root = true ∧ chip ≠ own) := by
  rintro ⟨hr, hroot, hne⟩
  obtain h | h | h := h
  · exact Bool.noConfusion (h.symm.trans hr)
  · exact Bool.noConfusion (h.symm.trans hroot)
  · exact hne h

theorem sopOctets_length (x : TxDesc) : (sopOctets x).length = 32 := by
  simp [sopOctets, length_le]

/-- A HOST frame for a chip whose link is up joins the frames that its port sends ahead of the device's own. -/
theorem sendHost_up {d : Dev} {chip p : Nat} (hroute : d.routeTo chip true = some p) (hup : (d.qlp p).up = true) (kind ring : Nat)
    (data : List Byte) :
    (((d.sendHost chip kind ring data).qlp p).transit.get [] 7).length = ((d.qlp p).transit.get [] 7).length + 1 := by
  have hroute' : d.routeTo chip ((3 : Nat) == 3) = some p := hroute
  simp only [sendHost, sendQl, hroute', hup, if_true, queueQl, qlp_modQl]
  refine (congrArg List.length (SMap.get_set_self ..)).trans ?_
  exact List.length_append

theorem remoteTx_up {d : Dev} {r p k : Nat} {sop : TxDesc} {x : List Byte} (hroute : d.routeTo sop.dstChip.toNat true = some p)
    (hup : (d.qlp p).up = true) (hx : x.length + 40 ≤ 9728) :
    d.remoteTx r sop x k = (d.sendHost sop.dstChip.toNat 5 r (sopOctets sop ++ x)).writeBack (19 + r) k .ST_OK := by
  have hlen : (sopOctets sop ++ x).length + 8 ≤ 9728 := by
    rw [List.length_append, sopOctets_length]
    omega
  simp only [remoteTx, hroute, hup, Bool.true_and, decide_eq_true hlen, true_or, if_true]

/-- What a packet that goes to another chip leaves: its descriptors with ST_OK, and its frame with the port. -/
theorem remoteTx_written {a : Dev} {r p k : Nat} {sop : TxDesc} {x : List Byte} (hroute : a.routeTo sop.dstChip.toNat true = some p)
    (hup : (a.qlp p).up = true) (hx : x.length + 40 ≤ 9728) :
    (∃ m, (m = [] ∨ m = [⟨.msix, 19 + r, []⟩]) ∧ (a.remoteTx r sop x k).out = a.out ++
      (List.replicate k (⟨.ringEntry, 19 + r, le 2 0x8000 ++ le 2 Status.ST_OK.code⟩ : Output) ++
        ⟨.ringIndex, 19 + r, le 8 ((a.ring (19 + r)).devIdx + BitVec.ofNat 16 k).toNat⟩ :: m)) ∧
    ((a.remoteTx r sop x k).ring (19 + r)).devIdx = (a.ring (19 + r)).devIdx + BitVec.ofNat 16 k ∧
    (((a.remoteTx r sop x k).qlp p).transit.get [] 7).length = ((a.qlp p).transit.get [] 7).length + 1 := by
  have hring : (a.sendHost sop.dstChip.toNat 5 r (sopOctets sop ++ x)).ring (19 + r) = a.ring (19 + r) := by
    rw [ring, sendHost_host, ring]
  obtain ⟨m, hm, hout⟩ := writeBack_out (a.sendHost sop.dstChip.toNat 5 r (sopOctets sop ++ x)) (19 + r) k .ST_OK
  rw [sendHost_out, hring] at hout
  rw [remoteTx_up hroute hup hx, ring_writeBack, hring, qlp, writeBack_links]
  exact ⟨⟨m, hm, hout⟩, rfl, sendHost_up hroute hup ..⟩

end Dev

open Dev

/-- Settles O22: a delivery is `rxDeliver_idle` to `rxDeliver_unposted` with the fields of `out_delivered`, a stall is
`rxStall_waits`, and a fetch is `txFetch_off` to `txFetch_good`. -/
theorem packetRingsDeliverAndFetch : Obligations.PacketRingsDeliverAndFetch := by
  unfold Obligations.PacketRingsDeliverAndFetch
  intro s r
  refine ⟨fun bufs a hgood ha => ⟨fun hc => ?idle, fun c h q b hc hq hh hb => ?head⟩, fun h => ?noStall, fun w h => ?stall,
    fun descs data => ⟨fun h => ?off, fun p out a hon hmode hroom hout hp ha => ⟨fun hc => ?short, fun k hc => ?bad,
      fun k sop l x hc hd hx => ?good⟩⟩⟩
  case idle =>
    subst ha
    exact congrArg (fun e => Host.Outcome.next (s.goes e)) (rxDeliver_idle (d := s.fresh) rfl hgood hc)
  case head =>
    subst ha hq
    have hrun : exec (.rxDmaDeliver r bufs) s = .next (s.goes (s.fresh.rxDeliver r.val bufs)) := rfl
    refine ⟨_, hrun, fun hm hf => ?member, fun hm hoff => ?ringOff, fun n most hm hon hn hmost => ?ring⟩
    case member =>
      obtain ⟨root, hroot⟩ := Option.ne_none_iff_exists'.1 hf
      rw [State.goes_dev]
      exact remote_delivery _ _ _ _ _ _ _ _ (rxDeliver_member (d := s.fresh) rfl hgood hc hh hb hm hroot)
    case ringOff => exact congrArg s.goes (rxDeliver_off (d := s.fresh) rfl hgood hc hh hb hm hoff)
    case ring =>
      subst hn hmost
      refine ⟨fun k hk hle => ?fits, fun hlarge => ?large, fun hk hlt => ?waits⟩
      case fits =>
        have heq := (rxDeliver_posted (d := s.fresh) rfl hgood hc hh hb hm hon hk).trans (if_neg (Nat.not_lt.2 hle))
        rw [State.goes_dev, heq]
        exact ⟨queue_delivered .., rxWait_delivered .., out_delivered .., ring_delivered ..⟩
      case large =>
        obtain ⟨k, hk, hlt⟩ | ⟨hk, hle⟩ := hlarge
        · exact congrArg s.goes ((rxDeliver_posted (d := s.fresh) rfl hgood hc hh hb hm hon hk).trans (if_pos hlt))
        · exact congrArg s.goes ((rxDeliver_unposted (d := s.fresh) rfl hgood hc hh hb hm hon hk).trans (if_pos hle))
      case waits =>
        by_cases hw : s.dev.host.rxWait.find (3 + r.val) = none
        · rw [State.goes_dev, rxDeliver_holds (d := s.fresh) rfl hgood hc hh hb hm hon hk hlt hw]
          exact ⟨rfl, rfl, fun _ => SMap.find_put_self .., fun hne => absurd hw hne⟩
        · rw [State.goes_dev, rxDeliver_held (d := s.fresh) rfl hgood hc hh hb hm hon hk hlt hw]
          exact ⟨rfl, rfl, fun hnone => absurd hnone hw, fun _ => rfl⟩
  case noStall =>
    have hstay : s.fresh.rxStall r.val = s.fresh := by
      simp only [rxStall, show s.fresh.host.rxWait.find (3 + r.val) = none from h]
    exact congrArg (fun e => Host.Outcome.next (s.goes e)) hstay
  case stall =>
    refine ⟨_, congrArg (fun e => Host.Outcome.next (s.goes e)) (rxStall_waits (d := s.fresh) h), ?_⟩
    rw [State.goes_dev, bump_host, queue_bump, queue_popHost]
    refine ⟨rxWait_popHost .., rfl, fun q hq => ?_, State.sameBut_of_leaves rfl ?_⟩
    · rw [queue_bump]
      exact queue_popHost_ne _ hq
    · exact leaves_bump (leaves_popHost (.refl _ _) _ _ rfl) _ _ rfl
  case off => exact congrArg (fun e => Host.Outcome.next (s.goes e)) (txFetch_off (d := s.fresh) h descs data)
  case short =>
    subst hout
    exact congrArg (fun e => Host.Outcome.next (s.goes e)) (txFetch_short (d := s.fresh) hon hmode hroom hp ha hc)
  case bad =>
    subst hout
    have heq := txFetch_bad (d := s.fresh) (data := data) hon hmode hroom hp ha hc
    subst ha
    refine ⟨fun hne => congrArg (fun e => Host.Outcome.next (s.goes e)) (heq.trans (if_pos hne)), fun hz => ?_⟩
    refine ⟨_, congrArg (fun e => Host.Outcome.next (s.goes e)) (heq.trans (if_neg (not_not.2 hz))), ?_⟩
    exact badChain_written _ (19 + r.val) k .ST_BAD_PARAM .VIO_HOST_DESC []
  case good =>
    subst hout
    have heq := txFetch_good (d := s.fresh) hon hmode hroom hp ha hc hd hx
    subst ha
    refine ⟨fun hhere => ⟨fun hfull => ?full, fun hfits => ?enters⟩, fun hremote hroot hchip => ⟨fun hne => ?later,
      fun q hz hroute hup hlen => ?goes⟩⟩
    case full =>
      exact congrArg (fun e => Host.Outcome.next (s.goes e))
        ((heq.trans (if_neg (here_of hhere))).trans (if_pos (by rw [Bool.not_eq_true]; exact hfull)))
    case enters =>
      exact congrArg (fun e => Host.Outcome.next (s.goes e)) ((heq.trans (if_neg (here_of hhere))).trans (if_neg (not_not.2 hfits)))
    case later =>
      exact congrArg (fun e => Host.Outcome.next (s.goes e)) ((heq.trans (if_pos ⟨hremote, hroot, hchip⟩)).trans (if_pos hne))
    case goes =>
      have hgo := (heq.trans (if_pos ⟨hremote, hroot, hchip⟩)).trans (if_neg (not_not.2 hz))
      refine ⟨_, congrArg (fun e => Host.Outcome.next (s.goes e)) hgo, ?_⟩
      exact remoteTx_written (a := { s.fresh with
        host := { s.fresh.host with txDescs := s.fresh.host.txDescs.set [] r.val (descs.take p) } }) hroute hup hlen

end Sys2Proof.Machine
end

section
/-! PROOFS. The Ethernet ports (R468, R470, R481 to R490): reception, the link, the gates, transmit selection, low-power idle, and
the stamp records on their way to the event ring. -/

namespace Sys2Proof.Machine

namespace Dev

theorem next_goes_congr {s : State} {a b : Dev} (h : a = b) :
    (.next (s.goes a) : Host.Outcome State Fault Refusal) = .next (s.goes b) := by rw [h]

/-! ### What leaves the Ethernet ports alone -/

theorem eth_congr {a b : Dev} (h : a.links = b.links) (e : Nat) : a.eth e = b.eth e := by rw [eth, h, eth]

@[simp] theorem eth_bump (d : Dev) (c : Counter) (n e : Nat) : (d.bump c n).eth e = d.eth e := eth_congr (bump_links ..) e
@[simp] theorem eth_raise (d : Dev) (c : EvCode) (x : List Byte) (e : Nat) : (d.raise c x).eth e = d.eth e := eth_congr (raise_links ..) e
@[simp] theorem eth_emit (d : Dev) (k : OutKind) (i : Nat) (x : List Byte) (e : Nat) : (d.emit k i x).eth e = d.eth e := rfl
@[simp] theorem eth_violate (d : Dev) (v : Vio) (x : List Byte) (e : Nat) : (d.violate v x).eth e = d.eth e :=
  eth_congr (violate_links ..) e

/-! ### Reception (R464, R481, R490) -/

section Receive
variable {d : Dev} {e : Nat} {f : List Byte}

theorem ethRx_down (h : (d.eth e).link = false) : d.ethRx e f = d := by
  simp [ethRx, h]

variable (hl : (d.eth e).link = true)
include hl

theorem ethRx_badFcs (h : f.length < 4 ∨ f.drop (f.length - 4) ≠ le 4 (crc32 (f.take (f.length - 4)))) :
    d.ethRx e f = d.bump (Cnt.ETH_RX_FCS_ERR e) := by
  rw [ethRx, if_neg (not_not.2 hl)]
  exact if_pos h

variable (hlen : 4 ≤ f.length) (hfcs : f.drop (f.length - 4) = le 4 (crc32 (f.take (f.length - 4))))
include hlen hfcs

theorem ethRx_badSize (h : f.length < 64 ∨ clampN 64 9216 (d.cfg.ETH_CFG_MAX_FRAME e) < f.length) :
    d.ethRx e f = d.bump (Cnt.ETH_RX_SIZE_ERR e) := by
  rw [ethRx, if_neg (not_not.2 hl)]
  dsimp only
  rw [if_neg (by rw [not_or, not_not]; exact ⟨Nat.not_lt.2 hlen, hfcs⟩), if_pos h]

variable (hmin : 64 ≤ f.length) (hmax : f.length ≤ clampN 64 9216 (d.cfg.ETH_CFG_MAX_FRAME e))
include hmin hmax

theorem ethRx_pause (h : etherType (f.take (f.length - 4)) = 0x8808) : d.ethRx e f = d.bump (Cnt.ETH_RX_PAUSE e) := by
  rw [ethRx, if_neg (not_not.2 hl)]
  dsimp only
  rw [if_neg (by rw [not_or, not_not]; exact ⟨Nat.not_lt.2 hlen, hfcs⟩),
    if_neg (by rw [not_or]; exact ⟨Nat.not_lt.2 hmin, Nat.not_lt.2 hmax⟩), if_pos h]

/-- A good frame of a port without MACsec and PTP, with no VLAN tag, goes to the pipeline with its stamp. -/
theorem ethRx_passes {et : Nat} (het : etherType (f.take (f.length - 4)) = et) (hpause : et ≠ 0x8808) (htag : et ≠ 0x8100)
    (hsec : et ≠ 0x88E5) (hmode : d.cfg.ETH_MACSEC_VALIDATE e < 2) (hptp : d.ptpOn e = false) :
    d.ethRx e f = ((d.rxStamp e).2.bump (Cnt.ETH_RX_FRAMES e)).ingress {
      src := 4 + e, data := (f.take (f.length - 4)).drop 14, l3 := if et = 0x86DD then 0 else 2
      extType := if et = 0x86DD then 0 else et, ethInfo := 0, stamp := some (d.rxStamp e).1 } := by
  have hsame {u : DevUnit} (hu : [DevUnit.freeCtr].contains u = false) : d.sameUnit u (d.rxStamp e).2 :=
    (leaves_rxStamp (us := [.freeCtr]) (.refl _ d) e rfl).same u hu
  have hcfg : (d.rxStamp e).2.cfg = d.cfg := (hsame (u := .cfg) rfl).symm
  have hlinks : (d.rxStamp e).2.links = d.links := (hsame (u := .links) rfl).symm
  have hmac : (d.rxStamp e).2.macsecRx e (f.take (f.length - 4)) = (some (f.take (f.length - 4), false), (d.rxStamp e).2) := by
    simp only [macsecRx, het, hcfg, if_pos hsec, if_pos (Or.inl hmode : _ ∨ et = 0x888E)]
  have hon : (d.rxStamp e).2.ptpOn e = false := by
    rw [ptpOn, hcfg, eth_congr hlinks]
    exact hptp
  have huntagged : (et == 0x8100) = false := beq_false_of_ne htag
  rw [ethRx, if_neg (not_not.2 hl)]
  dsimp only
  rw [if_neg (by rw [not_or, not_not]; exact ⟨Nat.not_lt.2 hlen, hfcs⟩),
    if_neg (by rw [not_or]; exact ⟨Nat.not_lt.2 hmin, Nat.not_lt.2 hmax⟩), if_neg (by rw [het]; exact hpause), hmac]
  simp only [ethIngress, het, huntagged, hon, Bool.and_false, Bool.false_eq_true, if_false]

end Receive

/-! ### The link (R480, R482) -/

theorem eth_setLink (d : Dev) (e : Nat) (up : Bool) (rate : Nat) :
    ((d.setLink e up rate).eth e).link = up ∧ ((d.setLink e up rate).eth e).rate = rate ∧
      ∀ x, x ≠ e → (d.setLink e up rate).eth x = d.eth x := by
  unfold setLink
  dsimp only
  split
  next h => exact ⟨h.1, h.2, fun _ _ => rfl⟩
  next =>
    rw [eth_raise, eth_modEth]
    refine ⟨rfl, rfl, fun x hx => ?_⟩
    rw [eth_raise, eth_modEth_ne _ _ hx]

/-- The link comes up in full duplex at a rate of the port's mode alone. -/
theorem eth_ethLink (d : Dev) (e : Nat) (up : Bool) (rate : Nat) (half : Bool) :
    ((d.ethLink e up rate half).eth e).link = (up && !half && d.rateFits e rate) ∧
      ((d.ethLink e up rate half).eth e).rate = (if up && !half && d.rateFits e rate then rate else 7) ∧
      ∀ x, x ≠ e → (d.ethLink e up rate half).eth x = d.eth x := by
  unfold ethLink
  split
  next h =>
    obtain ⟨hlink, hrate, hne⟩ := eth_setLink (d.violate .VIO_ETH_HALF_DUPLEX []) e false 7
    have hno : (up && !half && d.rateFits e rate) = false := by simp [h.2.1]
    rw [hno]
    exact ⟨hlink, hrate, fun x hx => (hne x hx).trans (eth_violate ..)⟩
  next h =>
    split
    next hup =>
      obtain ⟨hlink, hrate, hne⟩ := eth_setLink d e true rate
      have hhalf : half = false := by
        have hen : d.cfg.ETH_CFG_EN e = 1 := by
          have hfits := hup.2
          simp only [rateFits, Bool.and_eq_true, beq_iff_eq] at hfits
          exact hfits.1
        by_contra hh
        exact h ⟨hup.1, Bool.not_eq_false _ ▸ hh, hen⟩
      have hyes : (up && !half && d.rateFits e rate) = true := by simp [hup.1, hhalf, hup.2]
      rw [hyes]
      exact ⟨hlink, hrate, hne⟩
    next hdown =>
      obtain ⟨hlink, hrate, hne⟩ := eth_setLink d e false 7
      have hno : (up && !half && d.rateFits e rate) = false := by
        rw [← Bool.not_eq_true, Bool.and_eq_true, Bool.and_eq_true]
        exact fun hy => hdown ⟨hy.1.1, hy.2⟩
      rw [hno]
      exact ⟨hlink, hrate, hne⟩

/-! ### Frames under way (R468) -/

theorem frameEnd_underWay {d : Dev} {e : Nat} (h : ∀ w, (d.eth e).wire = some w → d.time.ns < w.ends) : d.frameEnd e = d := by
  unfold frameEnd
  split
  next => rfl
  next w hw => exact if_pos (h w hw)

/-- A frame that has ended leaves the wire, and its record enters the queue. -/
theorem frameEnd_recorded {d : Dev} {e : Nat} {w : OnWire} (hw : (d.eth e).wire = some w) (hends : w.ends ≤ d.time.ns)
    (hptp : w.ptp = none) (hroom : (d.eth e).stamps.length < 64) :
    d.frameEnd e = (d.modEth e (fun x => { x with wire := none })).modEth e (fun x => { x with stamps := x.stamps ++ [w.stamp] }) := by
  simp only [frameEnd, hw, hptp, putEthStamp, eth_modEth, if_pos hroom]
  exact if_neg (Nat.not_lt.2 hends)

/-! ### Transmit selection (R482, R483, R486) -/

/-- A head that no error has hit and that fits its span stays. -/
theorem dropUnfit_good {d : Dev} {e c : Nat} (h : ∀ i, (d.queue (tq e c)).head? = some i →
    i.isBad = false ∧ d.neverFits (tq e c) i = false) (n : Nat) : dropUnfit e c n d = d := by
  cases n with
  | zero => rfl
  | succ n =>
    rw [dropUnfit]
    split
    next i rest heq =>
      obtain ⟨hbad, hfits⟩ := h i (by rw [heq]; rfl)
      rw [hbad, hfits]
      rfl
    next => rfl

theorem ethTake_down {d a : Dev} {e : Nat} (ha : d.frameEnd e = a) (hl : (a.eth e).link = false)
    (hflush : a.cfg.ETH_CFG_FLUSH_DOWN e ≠ 1) : d.ethTake e = a := by
  simp [ethTake, ha, hl, hflush]

section Take
variable {d : Dev} {e : Nat} (hwire : ∀ w, (d.eth e).wire = some w → d.time.ns < w.ends) (hl : (d.eth e).link = true)
  (hgood : ∀ k, k < 8 → ∀ i, (d.queue (32 + 8 * e + k)).head? = some i →
    i.isBad = false ∧ d.neverFits (32 + 8 * e + k) i = false)
include hgood

/-- The heads of a port stay when none is to be discarded. -/
theorem txHeads_same :
    d.each ((List.range 8).map (fun c => 7 - c)) (fun d c => dropUnfit e c (d.queue (tq e c)).length d) = d :=
  each_same fun c hc => by
    obtain ⟨k, hk, rfl⟩ := List.mem_map.1 hc
    exact dropUnfit_good (hgood (7 - k) (by omega)) _

include hwire hl

theorem ethTake_busy (h : d.time.ns < (d.eth e).busyUntil) : d.ethTake e = d := by
  simp only [ethTake, frameEnd_underWay hwire, txHeads_same hgood]
  exact (if_pos hl).trans (if_pos h)

variable (hidle : (d.eth e).busyUntil ≤ d.time.ns)
include hidle

theorem ethTake_ptp (h : (d.eth e).ptpOut ≠ []) : d.ethTake e = d.ptpTake e := by
  simp only [ethTake, frameEnd_underWay hwire, txHeads_same hgood]
  exact ((if_pos hl).trans (if_neg (Nat.not_lt.2 hidle))).trans (if_pos (by rw [List.isEmpty_iff]; exact h))

variable (hptp : (d.eth e).ptpOut = [])
include hptp

/-- The highest class whose head fits goes out. -/
theorem ethTake_sends {c : Nat} (hc : c < 8) (hhigher : ∀ k, k < 8 → c < k → d.tqFits e k = false) (hfits : d.tqFits e c = true) :
    d.ethTake e = d.macTake e c := by
  have hfind : ((List.range 8).map (fun c => 7 - c)).find? (fun c => d.tqFits e c) = some c := by
    refine List.find?_eq_some_iff_append.2 ⟨hfits, (List.range (7 - c)).map (fun c => 7 - c),
      (List.range c).map (fun k => c - 1 - k), ?_, ?_⟩
    · interval_cases c <;> rfl
    · intro k hk
      obtain ⟨n, hn, rfl⟩ := List.mem_map.1 hk
      have hn' := List.mem_range.1 hn
      rw [hhigher (7 - n) (by omega) (by omega)]
      rfl
  simp only [ethTake, frameEnd_underWay hwire, txHeads_same hgood, hfind]
  exact ((if_pos hl).trans (if_neg (Nat.not_lt.2 hidle))).trans (if_neg (by rw [hptp]; decide))

theorem ethTake_waits (h : ∀ k, k < 8 → d.tqFits e k = false) : d.ethTake e = d.lpiExit e := by
  have hfind : ((List.range 8).map (fun c => 7 - c)).find? (fun c => d.tqFits e c) = none := by
    refine List.find?_eq_none.2 fun k hk => ?_
    obtain ⟨n, hn, rfl⟩ := List.mem_map.1 hk
    rw [h (7 - n) (by omega)]
    decide
  simp only [ethTake, frameEnd_underWay hwire, txHeads_same hgood, hfind]
  exact ((if_pos hl).trans (if_neg (Nat.not_lt.2 hidle))).trans (if_neg (by rw [hptp]; decide))

end Take

/-- Idle classes leave a transmitter in low-power idle, or out of it. -/
theorem lpiExit_stays {d : Dev} {e : Nat} (h : (d.eth e).lpi = false ∨
    ∀ c, c < 8 → d.tqHead e c = none ∨ d.eligible (32 + 8 * e + c) = false) : d.lpiExit e = d := by
  refine if_neg ?_
  rintro ⟨hlpi, hany⟩
  obtain hno | hno := h
  · rw [hno] at hlpi
    exact Bool.noConfusion hlpi
  · obtain ⟨c, hc, hhead⟩ := List.any_eq_true.1 hany
    rw [Bool.and_eq_true] at hhead
    obtain hnone | hinel := hno c (List.mem_range.1 hc)
    · rw [hnone] at hhead
      exact Bool.noConfusion hhead.1
    · exact Bool.noConfusion (hinel.symm.trans hhead.2)

theorem lpiExit_wakes {d : Dev} {e c : Nat} (hlpi : (d.eth e).lpi = true) (hc : c < 8) (hhead : (d.tqHead e c).isSome = true)
    (helig : d.eligible (32 + 8 * e + c) = true) :
    d.lpiExit e = d.modEth e (fun x => { x with lpi := false, wakeUntil := d.now + d.cfg.ETH_EEE_WAKE_NS e }) :=
  if_pos ⟨hlpi, List.any_eq_true.2 ⟨c, List.mem_range.2 hc, by rw [Bool.and_eq_true]; exact ⟨hhead, helig⟩⟩⟩

/-! ### The MAC (R468, R482, R489) -/

/-- A frame that is not stamped, of a port without MACsec, goes out padded and with its FCS. -/
theorem macSend_plain {d : Dev} {e : Nat} (h : d.cfg.ETH_MACSEC_TX_EN e ≠ 1) (f : List Byte) (dur : Nat)
    (x : Option PtpOut) : d.macSend e f dur none x = ((d.modEth e (fun x => { x with lpi := false, busyUntil := d.now + d.wakeNs e + dur })).emit
      .eth e ((f ++ List.replicate (60 - f.length) 0#8) ++ le 4 (crc32 (f ++ List.replicate (60 - f.length) 0#8)))).bump
        (Cnt.ETH_TX_FRAMES e) := by
  have hmac (g : List Byte) : d.macsecTx e g = (some g, d) := if_pos (Or.inl h)
  simp only [macSend, hmac]

/-- What the MAC sends leaves the PTP messages that wait. -/
theorem ptpOut_macsecTx (d : Dev) (e : Nat) (f : List Byte) : ((d.macsecTx e f).2.eth e).ptpOut = (d.eth e).ptpOut := by
  unfold macsecTx
  split
  · rfl
  · dsimp only
    split
    · exact congrArg EthPort.ptpOut (eth_bump ..)
    · split
      · exact congrArg EthPort.ptpOut (eth_bump ..)
      · dsimp only
        split
        · rw [eth_raise, eth_modEth]
        · rw [eth_modEth]

theorem ptpOut_macSend (d : Dev) (e : Nat) (f : List Byte) (dur : Nat) (st : Option (Nat × W32)) (x : Option PtpOut) :
    ((d.macSend e f dur st x).eth e).ptpOut = (d.eth e).ptpOut := by
  rw [← ptpOut_macsecTx d e (f ++ List.replicate (60 - f.length) 0#8)]
  unfold macSend
  dsimp only
  split
  · rfl
  · split
    · rw [eth_bump, eth_emit, eth_modEth]
    · simp only [takeStampSeq, eth_modEth, eth_bump, eth_emit]

theorem tm_ptpTake (d : Dev) (e : Nat) : (d.ptpTake e).tm = d.tm :=
  ((leaves_ptpTake (us := [.out, .freeCtr, .cnt, .ev, .links]) (.refl _ d) e rfl).same .tm rfl).symm

/-- The oldest PTP message that waits goes out. -/
theorem ptpOut_ptpTake {d : Dev} {e : Nat} {x : PtpOut} {rest : List PtpOut} (h : (d.eth e).ptpOut = x :: rest) :
    ((d.ptpTake e).eth e).ptpOut = rest := by
  simp only [ptpTake, h, ptpOut_macSend, eth_modEth]

/-- The MAC takes a head that is not stamped. -/
theorem macTake_plain {d : Dev} {e c : Nat} {f : List Byte} {tag : W32} (h : d.tqHead e c = some (f, false, tag))
    (hsec : d.cfg.ETH_MACSEC_TX_EN e ≠ 1) :
    (d.macTake e c).queue (tq e c) = (d.queue (tq e c)).drop 1 ∧
      (d.macTake e c).out = d.out ++ [⟨.eth, e, (f ++ List.replicate (60 - f.length) 0#8) ++
        le 4 (crc32 (f ++ List.replicate (60 - f.length) 0#8))⟩] ∧
      ((d.macTake e c).eth e).lpi = false ∧
      ((d.macTake e c).eth e).busyUntil = d.time.ns + d.wakeNs e + (d.ethDuration e f).getD 0 ∧
      ∀ q, q ≠ tq e c → (d.macTake e c).queue q = d.queue q := by
  have hsame {u : DevUnit} (hu : [DevUnit.cnt, .ev, .tm].contains u = false) (a : Dev) (q : Nat) :
      a.sameUnit u (a.chargeDequeue q) := chargeDequeue_same a q hu
  have hcfg (a : Dev) (q : Nat) : (a.chargeDequeue q).cfg = a.cfg := (hsame (u := .cfg) rfl a q).symm
  have hlinks (a : Dev) (q : Nat) : (a.chargeDequeue q).links = a.links := (hsame (u := .links) rfl a q).symm
  have htime (a : Dev) (q : Nat) : (a.chargeDequeue q).time = a.time := (hsame (u := .time) rfl a q).symm
  have heth (a : Dev) (q x : Nat) : (a.chargeDequeue q).eth x = a.eth x := eth_congr (hlinks a q) x
  have hwake (l : List QItem) : ((d.setQueue (tq e c) l).chargeDequeue (tq e c)).wakeNs e = d.wakeNs e := by
    rw [wakeNs, now, heth, hcfg, htime]
    rfl
  have htake : d.macTake e c = ((((d.setQueue (tq e c) ((d.queue (tq e c)).drop 1)).chargeDequeue (tq e c)).modEth e (fun x =>
      { x with lpi := false, busyUntil := d.time.ns + d.wakeNs e + (d.ethDuration e f).getD 0 })).emit .eth e
        ((f ++ List.replicate (60 - f.length) 0#8) ++ le 4 (crc32 (f ++ List.replicate (60 - f.length) 0#8)))).bump
          (Cnt.ETH_TX_FRAMES e) := by
    simp only [macTake, h, Bool.false_eq_true, if_false]
    rw [macSend_plain (by rw [hcfg]; exact hsec), hwake, now, htime]
    rfl
  have hout (l : List QItem) : ((d.setQueue (tq e c) l).chargeDequeue (tq e c)).out = d.out := chargeDequeue_out ..
  rw [htake, eth_bump, eth_emit, eth_modEth, bump_out]
  refine ⟨?_, ?_, rfl, rfl, fun q hq => ?_⟩
  · rw [queue_bump]
    exact (queue_chargeDequeue ..).trans (queue_setQueue ..)
  · exact congrArg (· ++ _) (hout _)
  · rw [queue_bump]
    exact (queue_chargeDequeue ..).trans (queue_setQueue_ne _ _ hq)

/-! ### Gates and low-power idle (R483, R484) -/

theorem gateChange_keeps {d : Dev} {e : Nat} (h : (d.eth e).gatesNext = none) : (d.gateChange e).eth e =
    { d.eth e with open_ := if d.now < (d.eth e).closedUntil then 0 else d.gatesAtNow (d.eth e).gates d.now } := by
  rw [gateChange, eth_modEth]
  simp only [h, Bool.false_eq_true, if_false]

theorem gatesAtNow_unlisted {g : GateList} (d : Dev) (h : g.entries = []) (t : Nat) : d.gatesAtNow g t = 0xFF := by
  rw [gatesAtNow, h]
  rfl

theorem gateChange_takesOver {d : Dev} {e : Nat} {g : GateList} {since : Nat} (h : (d.eth e).gatesNext = some (g, since))
    (hdue : d.nextCycle g since ≤ d.time.ns) :
    ((d.gateChange e).eth e).gates = g ∧ ((d.gateChange e).eth e).gatesNext = none := by
  have hdue' : decide (d.nextCycle g since ≤ d.now) = true := decide_eq_true hdue
  rw [gateChange, eth_modEth]
  simp only [h, hdue', if_true, and_self]

theorem gateChange_waits {d : Dev} {e : Nat} {g : GateList} {since : Nat} (h : (d.eth e).gatesNext = some (g, since))
    (hdue : d.time.ns < d.nextCycle g since) :
    ((d.gateChange e).eth e).gates = (d.eth e).gates ∧ ((d.gateChange e).eth e).gatesNext = some (g, since) := by
  have hdue' : decide (d.nextCycle g since ≤ d.now) = false := decide_eq_false (Nat.not_le.2 hdue)
  rw [gateChange, eth_modEth]
  simp only [h, hdue', Bool.false_eq_true, if_false, and_self]

theorem lpiEntry_enters {d : Dev} {e : Nat} (hl : (d.eth e).link = true) (hlpi : (d.eth e).lpi = false)
    (heee : d.cfg.ETH_CFG_EEE e = 1) (hrate : (d.eth e).rate ≠ 2) (hidle : (d.eth e).busyUntil ≤ d.time.ns)
    (hptp : (d.eth e).ptpOut = []) (hempty : ∀ c, c < 8 → d.queue (32 + 8 * e + c) = []) :
    (d.lpiEntry e).eth e = { d.eth e with lpi := true } := by
  have hall : (List.range 8).all (fun c => (d.queue (tq e c)).isEmpty) = true :=
    List.all_eq_true.2 fun c hc => List.isEmpty_iff.2 (hempty c (List.mem_range.1 hc))
  have hcond : decide (d.cfg.ETH_CFG_EEE e = 1 ∧ (d.eth e).rate ≠ 2 ∧ (d.eth e).busyUntil ≤ d.now) = true :=
    decide_eq_true ⟨heee, hrate, hidle⟩
  have henter : d.lpiEntry e = (d.modEth e (fun y => { y with lpi := true })).bump (Cnt.ETH_LPI_ENTRY e) :=
    if_pos (by rw [hl, hlpi, hcond, hptp, hall]; rfl)
  rw [henter, eth_bump, eth_modEth]

theorem lpiEntry_stays {d : Dev} {e : Nat} (h : (d.eth e).link = false ∨ d.cfg.ETH_CFG_EEE e ≠ 1 ∨ (d.eth e).rate = 2 ∨
    (d.eth e).ptpOut ≠ []) : d.lpiEntry e = d := by
  refine if_neg ?_
  simp only [Bool.and_eq_true, decide_eq_true_eq, List.isEmpty_iff]
  rintro ⟨⟨⟨⟨hl, -⟩, heee, hrate, -⟩, hptp⟩, -⟩
  obtain hno | hno | hno | hno := h
  · exact Bool.noConfusion (hno.symm.trans hl)
  · exact hno heee
  · exact hrate hno
  · exact hno hptp

/-! ### Stamp records (R470) -/

/-- One choice of the older of two records. -/
def olderStamp (d : Dev) (p : Nat) (b : Option Stamp) (s : Stamp) : Option Stamp :=
  match b with
  | none => some s
  | some x => if d.stampAge p x.seq < d.stampAge p s.seq then some s else b

/-- The oldest record of a queue is the one that every other is younger than. -/
theorem oldest_stamp {d : Dev} {p : Nat} {r : Stamp} {l : List Stamp} {b : Option Stamp} (hr : b = some r ∨ r ∈ l)
    (hb : ∀ x, b = some x → x ≠ r → d.stampAge p x.seq < d.stampAge p r.seq)
    (hl : ∀ x ∈ l, x ≠ r → d.stampAge p x.seq < d.stampAge p r.seq) : l.foldl (d.olderStamp p) b = some r := by
  induction l generalizing b with
  | nil => exact hr.resolve_right List.not_mem_nil
  | cons s l ih =>
    have hl' : ∀ x ∈ l, x ≠ r → d.stampAge p x.seq < d.stampAge p r.seq := fun x hx => hl x (List.mem_cons_of_mem _ hx)
    have hs : s ≠ r → d.stampAge p s.seq < d.stampAge p r.seq := hl s List.mem_cons_self
    rw [List.foldl_cons]
    cases b with
    | none =>
      have hmem := hr.resolve_left (Option.some_ne_none r).symm
      refine ih ((List.mem_cons.1 hmem).imp (fun h => by rw [h]; rfl) id) (fun x hx hne => ?_) hl'
      exact (Option.some.inj hx) ▸ hs (fun h => hne ((Option.some.inj hx) ▸ h))
    | some x =>
      by_cases hage : d.stampAge p x.seq < d.stampAge p s.seq
      · rw [olderStamp, if_pos hage]
        have hxr : x ≠ r := fun h => by
          by_cases hsr : s = r
          · rw [h, hsr] at hage
            exact Nat.lt_irrefl _ hage
          · rw [h] at hage
            exact Nat.lt_asymm hage (hs hsr)
        have hmem := hr.resolve_left fun h => hxr (Option.some.inj h)
        refine ih ((List.mem_cons.1 hmem).imp (fun h => by rw [h]) id) (fun y hy hne => ?_) hl'
        exact (Option.some.inj hy) ▸ hs (fun h => hne ((Option.some.inj hy) ▸ h))
      · rw [olderStamp, if_neg hage]
        refine ih ?_ hb hl'
        by_cases hxr : x = r
        · exact .inl (congrArg some hxr)
        · have hmem := hr.resolve_left fun h => hxr (Option.some.inj h)
          refine .inr ((List.mem_cons.1 hmem).resolve_left fun h => hage ?_)
          rw [← h]
          exact hb x rfl hxr

theorem nextStamp_none {d : Dev} {p : Nat} (h : (d.port p).stamps = []) : d.nextStamp p = none := by
  rw [nextStamp, h]
  rfl

/-- The oldest record drains once no frame with an older one is still on its way. -/
theorem nextStamp_oldest {d : Dev} {p : Nat} {r : Stamp} (hr : r ∈ (d.port p).stamps)
    (hold : ∀ x ∈ (d.port p).stamps, x ≠ r → d.stampAge p x.seq < d.stampAge p r.seq)
    (hway : ∀ x ∈ d.activeOn p, ∀ f n, (d.tx x.1 x.2).cur = some f → f.stampSeq = some n →
      d.stampAge p n ≤ d.stampAge p r.seq) : d.nextStamp p = some r := by
  have hbest : (d.port p).stamps.foldl (d.olderStamp p) none = some r :=
    oldest_stamp (.inr hr) (fun x hx => absurd hx (Option.some_ne_none x).symm) hold
  have hnone : ¬ ((d.activeOn p).any (fun x => match (d.tx x.1 x.2).cur.bind (fun f => f.stampSeq) with
      | some n => decide (d.stampAge p r.seq < d.stampAge p n)
      | none => false)) = true := by
    rw [List.any_eq_true]
    rintro ⟨x, hx, hlt⟩
    split at hlt
    next n hn =>
      obtain ⟨f, hf, hseq⟩ := Option.bind_eq_some_iff.1 hn
      exact Nat.not_lt.2 (hway x hx f n hf hseq) (of_decide_eq_true hlt)
    next => exact Bool.noConfusion hlt
  exact (congrArg (fun b => Option.bind b _) hbest).trans (if_neg hnone)

/-- A Hosted record goes to the event ring's next slot with the next event number. -/
theorem drainStamp_hosted {d : Dev} (h : d.modes.control = .hosted) (r : Stamp) :
    (d.drainStamp r).links = d.links ∧ (d.drainStamp r).ports = d.ports ∧
      ∃ v : Event, (d.drainStamp r).host.ring2.find ((d.ring 2).devIdx.toNat % d.ringSize 2) = some (v, (d.ring 2).phase) ∧
        v.code = .EVT_TX_STAMP ∧ v.data = r.octets ∧ v.seq = d.ev.seq := by
  have hdrain : d.drainStamp r = ({ d with ev := { d.ev with seq := d.ev.seq + 1 } } : Dev).putEvent
      ⟨.EVT_TX_STAMP, d.ev.seq, d.epoch.numPipe, d.time.ns, r.octets, none⟩ := by
    simp only [drainStamp, h]
  have hsame {u : DevUnit} (a : Dev) (x : Event) (hu : [DevUnit.out, .cnt, .ev, .host].contains u = false) :
      a.sameUnit u (a.putEvent x) := (leaves_putEvent (us := [.out, .cnt, .ev, .host]) (.refl _ a) x rfl).same u hu
  rw [hdrain]
  refine ⟨(hsame (u := .links) _ _ rfl).symm, (hsame (u := .ports) _ _ rfl).symm,
    ⟨.EVT_TX_STAMP, d.ev.seq, d.epoch.numPipe, d.time.ns, r.octets, none⟩, ?_, rfl, rfl, rfl⟩
  rw [putEvent_eq, bump_host, advanceRing_host_ring2]
  exact SMap.find_put_self ..

/-- The radio port's record r leaves its queue for the event ring, or the Ethernet port's first does, with l behind it. -/
def drainRadio (d : Dev) (p : Nat) (r : Stamp) : Dev := (d.modPort p (fun x => { x with stamps := x.stamps.erase r })).drainStamp r
def drainEth (d : Dev) (e : Nat) (r : Stamp) (l : List Stamp) : Dev := (d.modEth e (fun x => { x with stamps := l })).drainStamp r

section Drain
variable {s : State} {e : Fin 4}

theorem exec_drain_nothing (h : s.dev.nextStamp e.val = none) : exec (.txStampDrain false e) s = .next (s.goes s.fresh) := by
  have h' : s.fresh.nextStamp e.val = none := h
  have hrun : exec (.txStampDrain false e) s = execTxStampDrain false e s := rfl
  simp [hrun, execTxStampDrain, State.run_goes, h']

theorem exec_drain_radio {r : Stamp} (hroom : s.dev.stampRoom = true) (h : s.dev.nextStamp e.val = some r) :
    exec (.txStampDrain false e) s = .next (s.goes (s.fresh.drainRadio e.val r)) := by
  have h' : s.fresh.nextStamp e.val = some r := h
  have hroom' : s.fresh.stampRoom = true := hroom
  have hrun : exec (.txStampDrain false e) s = execTxStampDrain false e s := rfl
  simp [hrun, execTxStampDrain, State.run_goes, hroom', h', drainRadio]

variable (hwire : ∀ w, (s.dev.eth e.val).wire = some w → s.dev.time.ns < w.ends)
include hwire

theorem exec_drain_noRecord (h : (s.dev.eth e.val).stamps = []) : exec (.txStampDrain true e) s = .next (s.goes s.fresh) := by
  have h' : (s.fresh.eth e.val).stamps = [] := h
  have hrun : exec (.txStampDrain true e) s = execTxStampDrain true e s := rfl
  rw [hrun, execTxStampDrain, State.run_goes]
  simp only [frameEnd_underWay (d := s.fresh) hwire, h', if_true, ite_self]

theorem exec_drain_eth {r : Stamp} {l : List Stamp} (hroom : s.dev.stampRoom = true) (h : (s.dev.eth e.val).stamps = r :: l) :
    exec (.txStampDrain true e) s = .next (s.goes (s.fresh.drainEth e.val r l)) := by
  have h' : (s.fresh.eth e.val).stamps = r :: l := h
  have hroom' : s.fresh.stampRoom = true := hroom
  have hrun : exec (.txStampDrain true e) s = execTxStampDrain true e s := rfl
  rw [hrun, execTxStampDrain, State.run_goes]
  simp only [frameEnd_underWay (d := s.fresh) hwire, hroom', h', not_true_eq_false, if_false, if_true, drainEth]

end Drain

end Dev

open Dev

/-- Settles O16: reception is `ethRx_down` to `ethRx_passes`, the link `eth_ethLink`, transmission `ethTake_busy` to `ethTake_waits`
with `macTake_plain`, gates `gateChange_keeps` and its companions, and stamp records `nextStamp_oldest` and
`drainStamp_hosted`. -/
theorem ethernetPortsReceiveAndSend : Obligations.EthernetPortsReceiveAndSend := by
  unfold Obligations.EthernetPortsReceiveAndSend
  intro s e
  have hgo {a b : Dev} (h : a = b) : (.next (s.goes a) : Host.Outcome State Fault Refusal) = .next (s.goes b) := next_goes_congr h
  refine ⟨fun f => ⟨fun h => ?rxDown, fun hl => ⟨fun h => ?badFcs, fun hlen hfcs => ⟨fun h => ?badSize,
    fun hmin hmax => ⟨fun h => ?pause, fun et het hpause htag hsec hmode hptp => ?passes⟩⟩⟩⟩, fun up rate half => ?link,
    fun hwire => ⟨fun hl hflush => ?down, fun hl hgood => ⟨fun h => ?busy, fun hidle => ⟨fun x rest h => ?ptp,
      fun hptp => ⟨fun c f tag hc hhigher hfits hhead hsec => ?sends, fun hnone => ⟨fun h => ?stays,
        fun c hlpi hc hhead helig => ?wakes⟩⟩⟩⟩⟩, fun w hw hends hptp hroom hl hflush => ?ended, ?gates,
    fun hl hlpi heee hrate hidle hptp hempty => ?enters, fun h => ?noEntry, fun eth h => ?noRoom,
    fun h => ?nothing, fun h => nextStamp_none h, fun r hr hold hway => nextStamp_oldest hr hold hway,
    fun hmode hroom r hr => ?radio, fun hwire => ⟨fun h => ?noRecord, fun r l hmode hroom h => ?record⟩⟩
  case rxDown => exact hgo (ethRx_down (d := s.fresh) h)
  case noEntry => exact hgo (lpiEntry_stays (d := s.fresh) h)
  case badFcs => exact hgo (ethRx_badFcs (d := s.fresh) hl h)
  case badSize => exact hgo (ethRx_badSize (d := s.fresh) hl hlen hfcs h)
  case pause => exact hgo (ethRx_pause (d := s.fresh) hl hlen hfcs hmin hmax h)
  case passes => exact hgo (ethRx_passes (d := s.fresh) hl hlen hfcs hmin hmax het hpause htag hsec hmode hptp)
  case link =>
    obtain ⟨hlink, hrate, hne⟩ := eth_ethLink s.fresh e.val up rate.val half
    exact ⟨_, rfl, hlink, hrate, hne, State.sameBut_of_leaves rfl (leaves_ethLink (.refl _ _) _ _ _ _ rfl)⟩
  case down => exact hgo (ethTake_down (d := s.fresh) (frameEnd_underWay hwire) hl hflush)
  case busy => exact hgo (ethTake_busy (d := s.fresh) hwire hl hgood h)
  case ptp =>
    refine ⟨_, hgo (ethTake_ptp (d := s.fresh) hwire hl hgood hidle (by rw [show (s.fresh.eth e.val).ptpOut = _ from h]; simp)),
      ptpOut_ptpTake (d := s.fresh) h, fun q => ?_⟩
    exact congrFun (queue_congr (tm_ptpTake s.fresh e.val)) q
  case sends =>
    exact ⟨_, hgo (ethTake_sends (d := s.fresh) hwire hl hgood hidle hptp hc hhigher hfits), macTake_plain (d := s.fresh) hhead hsec⟩
  case stays => exact hgo ((ethTake_waits (d := s.fresh) hwire hl hgood hidle hptp hnone).trans (lpiExit_stays h))
  case wakes =>
    exact hgo ((ethTake_waits (d := s.fresh) hwire hl hgood hidle hptp hnone).trans (lpiExit_wakes hlpi hc hhead helig))
  case ended =>
    have hend := frameEnd_recorded (d := s.fresh) hw hends hptp hroom
    have hstays : ((s.fresh.frameEnd e.val).eth e.val).link = false := by
      rw [hend, eth_modEth, eth_modEth]
      exact hl
    refine ⟨_, hgo (ethTake_down (d := s.fresh) hend (hend ▸ hstays) hflush), ?_⟩
    rw [State.goes_dev, eth_modEth, eth_modEth]
    exact ⟨rfl, rfl, fun q => rfl⟩
  case gates =>
    refine ⟨_, hgo (a := s.fresh.gateChange e.val) rfl, fun h => ?_, fun g since h hdue => gateChange_takesOver (d := s.fresh) h hdue,
      fun g since h hdue => gateChange_waits (d := s.fresh) h hdue, State.sameBut_of_leaves rfl (leaves_gateChange (.refl _ _) _ rfl)⟩
    rw [State.goes_dev, gateChange_keeps (d := s.fresh) h]
    refine ⟨rfl, fun hempty => ?_⟩
    exact congrArg (ite _ 0) (gatesAtNow_unlisted s.fresh hempty _)
  case enters => exact ⟨_, rfl, lpiEntry_enters (d := s.fresh) hl hlpi heee hrate hidle hptp hempty⟩
  case noRoom => exact hgo (if_pos (fun hroom => Bool.noConfusion (h.symm.trans hroom)))
  case nothing => exact exec_drain_nothing h
  case noRecord => exact exec_drain_noRecord hwire h
  case radio =>
    obtain ⟨-, hports, v, hring, hv⟩ := drainStamp_hosted
      (d := s.fresh.modPort e.val (fun x => { x with stamps := x.stamps.erase r })) hmode r
    refine ⟨_, v, exec_drain_radio hroom hr, ?_, hring, hv⟩
    rw [State.goes_dev, drainRadio, port, hports]
    exact congrArg Port.stamps (port_modPort ..)
  case record =>
    obtain ⟨hlinks, -, v, hring, hv⟩ := drainStamp_hosted (d := s.fresh.modEth e.val (fun x => { x with stamps := l })) hmode r
    refine ⟨_, v, exec_drain_eth hwire hroom h, ?_, hring, hv⟩
    rw [State.goes_dev, drainEth, eth_congr hlinks, eth_modEth]

end Sys2Proof.Machine
end

section
/-! PROOFS. The time scale and its servo (R455 to R461): what a measurement and the loss of a source do. -/

namespace Sys2Proof.Machine

theorem clampI_bounds {lo hi : Int} (h : lo ≤ hi) (v : Int) : lo ≤ clampI lo hi v ∧ clampI lo hi v ≤ hi := by
  unfold clampI
  split
  · exact ⟨le_refl _, h⟩
  · split <;> omega

namespace Dev

/-! ### What the parts of the servo leave -/

/-- What LOCKED, the candidates and holdover leave: the scale, the measurements that wait, and the source in use. -/
def sameScale (a b : TimeSt) : Prop := a.ns = b.ns ∧ a.meas = b.meas ∧ a.source = b.source

theorem sameScale.trans {a b c : TimeSt} (h : sameScale a b) (g : sameScale b c) : sameScale a c :=
  ⟨h.1.trans g.1, h.2.1.trans g.2.1, h.2.2.trans g.2.2⟩

/-- LOCKED changes beside the rate, the offsets and holdover (R458). -/
theorem lockStep_time (d : Dev) (o : Int) : sameScale (d.lockStep o).time d.time ∧
    (d.lockStep o).time.rate = d.time.rate ∧ (d.lockStep o).time.cands = d.time.cands ∧
    (d.lockStep o).time.holdover = d.time.holdover := by
  unfold lockStep
  dsimp only
  generalize (if absI o < 100 then d.time.lockRun + 1 else 0) = run
  split
  · exact ⟨⟨rfl, rfl, rfl⟩, rfl, rfl, rfl⟩
  · split <;> exact ⟨⟨rfl, rfl, rfl⟩, rfl, rfl, rfl⟩

theorem time_noted (c : Prop) [Decidable c] (d : Dev) (n : Counter) (e : EvCode) (x : List Byte) :
    (if c then (d.bump n).raise e x else d).time = d.time := by
  split
  · rw [raise_time, bump_time]
  · rfl

/-- A measurement that feeds the servo (R458). -/
theorem feed_time (d : Dev) (o : Int) : sameScale (d.feed o).time d.time ∧ (d.feed o).time.lastO = o ∧
    (d.feed o).time.cands = d.time.cands ∧ (d.feed o).time.holdover = d.time.holdover ∧
    -100000000 ≤ (d.feed o).time.rate ∧ (d.feed o).time.rate ≤ 100000000 := by
  obtain ⟨hscale, -, hcands, hhold⟩ := lockStep_time d o
  have hclamp := clampI_bounds (show (-100000000 : Int) ≤ 100000000 by decide)
  unfold feed
  dsimp only
  rw [time_noted, bump_time]
  exact ⟨hscale, rfl, hcands, hhold, hclamp _⟩

theorem endCands_time (d : Dev) : d.endCands.time = { d.time with cands := [] } := by
  unfold endCands
  dsimp only
  split
  · rfl
  · exact bump_time ..

theorem enterHoldover_held {d : Dev} (h : d.time.holdover = true) : d.enterHoldover = d := by
  rw [enterHoldover, if_pos h]

theorem enterHoldover_time {d : Dev} (h : d.time.holdover = false) : d.enterHoldover.time = { d.time with
    holdover := true, rate := d.holdRate, holdErr := d.errNs, holdSince := d.up, cands := []
    rates := if d.time.locked then (d.up, d.holdRate) :: d.time.rates else [] } := by
  rw [enterHoldover, if_neg (by rw [h]; decide), raise_time, bump_time]

theorem sameScale_enterHoldover (d : Dev) : sameScale d.enterHoldover.time d.time := by
  by_cases h : d.time.holdover = true
  · rw [enterHoldover_held h]
    exact ⟨rfl, rfl, rfl⟩
  · rw [enterHoldover_time (Bool.not_eq_true _ ▸ h)]
    exact ⟨rfl, rfl, rfl⟩

theorem exitHoldover_time (d : Dev) : d.exitHoldover.time = { d.time with
    holdover := false, jumpPending := false, freq := d.time.rate, lastT := none, cands := [] } := raise_time ..

/-- The source changes, and with it the hops alone (R455, R473). -/
theorem setSource_time (d : Dev) (s : Nat) : ∃ hops shown, (d.setSource s).time =
    { d.time with source := s, hops := hops, shown := shown } := by
  unfold setSource
  split
  next h =>
    refine ⟨d.time.hops, d.time.shown, ?_⟩
    rw [← h]
  next => exact ⟨_, _, raise_time ..⟩

/-! ### Measurements (R455 to R461) -/

/-- A measurement near the prediction feeds the servo (R457). -/
theorem judge_near {d : Dev} {o : Int} (h : absI (o - d.prediction) ≤ d.stepThresh) (src : Nat) :
    d.judge src o = d.endCands.feed o := if_pos h

/-- One beyond the threshold is a candidate. -/
theorem judge_candidate {d : Dev} {o : Int} (h : d.stepThresh < absI (o - d.prediction)) (hn : d.time.cands.length < 3) (src : Nat) :
    d.judge src o = { d.lockStep o with time := { (d.lockStep o).time with cands := d.time.cands ++ [o] } } := by
  rw [judge, if_neg (Nat.not_le.2 h)]
  refine if_pos ?_
  rw [List.length_append, List.length_singleton]
  omega

/-- The fourth in sequence is a jump, which is refused (R459). -/
theorem judge_jump {d : Dev} {o : Int} (h : d.stepThresh < absI (o - d.prediction)) (hn : 3 ≤ d.time.cands.length) (src : Nat) :
    ∃ a : Dev, d.judge src o = a.enterHoldover ∧ a.time = { (d.lockStep o).time with cands := [], jumpPending := true } := by
  refine ⟨_, (if_neg (Nat.not_le.2 h)).trans (if_neg ?_), (raise_time ..).trans (bump_time ..)⟩
  rw [List.length_append, List.length_singleton]
  omega

theorem sameScale_judge (d : Dev) (src : Nat) (o : Int) : sameScale (d.judge src o).time d.time := by
  obtain ⟨hlock, -⟩ := lockStep_time d o
  by_cases h : absI (o - d.prediction) ≤ d.stepThresh
  · rw [judge_near h]
    refine (feed_time d.endCands o).1.trans ?_
    rw [endCands_time]
    exact ⟨rfl, rfl, rfl⟩
  · by_cases hn : d.time.cands.length < 3
    · rw [judge_candidate (Nat.not_le.1 h) hn]
      exact hlock
    · obtain ⟨a, ha, htime⟩ := judge_jump (Nat.not_le.1 h) (Nat.not_lt.1 hn) src
      rw [ha]
      refine (sameScale_enterHoldover a).trans ?_
      rw [htime]
      exact hlock

theorem time_completeAll (cs : List Cmd) (d : Dev) (st : Status) : (cs.foldl (fun (d : Dev) (c : Cmd) => d.complete c st) d).time = d.time := by
  induction cs generalizing d with
  | nil => rfl
  | cons c cs ih => rw [List.foldl_cons, ih, complete_time]

theorem meas_endRestep (d : Dev) (l : List Int) : (d.endRestep l).time.meas = d.time.meas := by
  unfold endRestep
  dsimp only
  rw [time_completeAll]
  split
  · rw [raise_time]
  · rfl

/-- The state once the oldest measurement has been taken, and once its source has been seen. -/
def measTaken (d : Dev) (l : List Meas) : Dev := { d with time := { d.time with meas := l } }
def measSeen (d : Dev) (src : Nat) : Dev := { d with time := { d.time with lastValid := d.time.lastValid.put src d.up } }

/-- The offset of a measurement depends on the settings alone. -/
theorem offsetOf_congr {a b : Dev} (h : a.cfg = b.cfg) (m : Meas) : a.offsetOf m = b.offsetOf m := by
  cases m with
  | ptp raw port => simp only [offsetOf, h]
  | pps stamp secs => cases secs <;> simp only [offsetOf, h]
  | mesh sync tx e => simp only [offsetOf, h]

section Measure
variable {d : Dev} {m : Meas} {l : List Meas} (hm : d.time.meas = m :: l)
include hm

theorem measure1_unnamed (ha : d.time.acquired = false) (hs : measSecs m = false) : d.measure1 = d.measTaken l := by
  simp [measure1, hm, ha, hs, measTaken]

theorem measure1_acquires (ha : d.time.acquired = false) (hs : measSecs m = true) :
    d.measure1 = if (((d.measTaken l).measSeen (measSource m)).acquire (d.offsetOf m)).sourceUsed (measSource m)
      then (((d.measTaken l).measSeen (measSource m)).acquire (d.offsetOf m)).setSource (measSource m)
      else ((d.measTaken l).measSeen (measSource m)).acquire (d.offsetOf m) := by
  have ho : (d.measTaken l).offsetOf m = d.offsetOf m := offsetOf_congr rfl m
  rw [← ho]
  simp only [measure1, hm, measTaken, measSeen]
  rw [if_pos (by rw [ha]; decide), if_pos hs]
  congr 1

theorem measure1_inUse (ha : d.time.acquired = true) (hsrc : measSource m = d.time.source) (hr : d.time.restep = none)
    (hh : d.time.holdover = false) :
    d.measure1 = ((d.measTaken l).measSeen (measSource m)).judge (measSource m) (d.offsetOf m) := by
  have ho : (d.measTaken l).offsetOf m = d.offsetOf m := offsetOf_congr rfl m
  rw [← ho]
  simp only [measure1, hm, measTaken, measSeen]
  rw [if_neg (by rw [ha]; decide), if_neg (by rw [hr]; simp), if_neg (by rw [hh]; decide), if_pos hsrc]

/-- Whatever a measurement does on an acquired scale, those that wait behind it stay. -/
theorem measure1_meas (ha : d.time.acquired = true) : d.measure1.time.meas = l := by
  have hsource (x : Dev) (s : Nat) : (x.setSource s).time.meas = x.time.meas := by
    obtain ⟨hops, shown, h⟩ := setSource_time x s
    rw [h]
  have hback (x : Dev) (s : Nat) (o : Int) : ((x.endCands.exitHoldover.setSource s).feed o).time.meas = x.time.meas := by
    rw [(feed_time _ o).1.2.1, hsource, exitHoldover_time, endCands_time]
  simp only [measure1, hm, ha, not_true_eq_false, if_false]
  split
  · split
    · rfl
    · exact meas_endRestep ..
  · split
    · split
      · exact hback ..
      · split
        · exact (sameScale_judge ..).2.1
        · rfl
    · split
      · exact (sameScale_judge ..).2.1
      · split
        · split
          · split
            · exact hsource ..
            · rfl
          · split
            · exact hsource ..
            · rfl
        · rfl

end Measure

/-! ### The loss of the source in use (R460) -/

theorem sourceLost_stays {d : Dev} (h : d.time.source = 3 ∨ d.time.holdover = true ∨ d.sourceSeen d.time.source = true ∨
    d.time.acquired = false) : d.sourceLost = d := by
  refine if_pos ?_
  rw [Bool.not_eq_true]
  exact h

theorem sourceLost_holds {d : Dev} (hsrc : d.time.source ≠ 3) (hh : d.time.holdover = false) (ha : d.time.acquired = true)
    (hlost : ∀ x, x < 3 → d.sourceSeen x = false) (hlt : d.time.source < 3) : d.sourceLost = d.enterHoldover := by
  have hnone (xs : List Nat) :
      xs.find? (fun s => decide (s < 3 ∧ s ≠ d.time.source) && d.sourceUsed s && d.sourceSeen s) = none := by
    refine List.find?_eq_none.2 fun x _ hx => ?_
    simp only [Bool.and_eq_true, decide_eq_true_eq] at hx
    exact Bool.noConfusion ((hlost x hx.1.1.1).symm.trans hx.2)
  rw [sourceLost, if_neg (by rw [hh, hlost _ hlt, ha]; simpa using hsrc)]
  simp only [hnone]

end Dev

end Sys2Proof.Machine
end

section
/-! PROOFS. PTP messages, PPS edges and ToD messages (R464 to R466, R474 to R476). -/

namespace Sys2Proof.Machine

namespace Dev

/-! ### Sync and Follow_Up (R465) -/

theorem syncRx_none {d : Dev} (h : ∀ m ∈ d.time.ptpIn, ptpType m.msg ≠ 0 ∧ ptpType m.msg ≠ 8) (parent : Bool) :
    d.syncRx parent = d := by
  have hfind : d.time.ptpIn.find? (fun m => ptpType m.msg == 0 || ptpType m.msg == 8) = none :=
    List.find?_eq_none.2 fun m hm => by simp [h m hm]
  simp only [syncRx, hfind]

/-- A one-step Sync of the parent, with a delay measured, gives an offset. -/
theorem syncRx_oneStep {d : Dev} {m : PtpMsg} {l : List PtpMsg} {mpd : Int} (h : d.time.ptpIn = m :: l)
    (htype : ptpType m.msg = 0) (hport : m.port = d.cfg.PTP_CTL_RX_PORT) (hstep : ptpTwoStep m.msg = false)
    (hmpd : d.time.mpd = some mpd) : (d.syncRx true).time.ptpIn = l ∧ (d.syncRx true).time.meas = d.time.meas ++
      [.ptp (((m.stamp : Int) - ptpCorr m.msg) - ptpTime m.msg 34 - mpd) m.port] := by
  have hfind : (m :: l).find? (fun m => ptpType m.msg == 0 || ptpType m.msg == 8) = some m :=
    List.find?_cons_of_pos (by simp [htype])
  simp only [syncRx, h, hfind, htype, hstep, List.erase_cons_head, hport, ne_eq, not_true_eq_false, if_false, if_true,
    Bool.false_eq_true, syncDone, bump_time, hmpd, and_self]

/-! ### Delay messages (R464, R465) -/

theorem delayRx_none {d : Dev} (h : ∀ m ∈ d.time.ptpIn, ptpType m.msg ∉ [1, 2, 3, 9, 10]) : d.delayRx = d := by
  have hfind : d.time.ptpIn.find? (fun m => [1, 2, 3, 9, 10].contains (ptpType m.msg)) = none :=
    List.find?_eq_none.2 fun m hm => by rw [List.contains_iff_mem]; exact h m hm
  simp only [delayRx, hfind]

/-- The messages that wait once the first has been taken. -/
def ptpTaken (d : Dev) (l : List PtpMsg) : Dev := { d with time := { d.time with ptpIn := l } }

section Request
variable {d : Dev} {m : PtpMsg} {l : List PtpMsg} (h : d.time.ptpIn = m :: l)
include h

theorem delayRx_request (htype : ptpType m.msg = 1) (hport : m.port ≠ d.cfg.PTP_CTL_RX_PORT) :
    d.delayRx = ((d.ptpTaken l).ptpAnswer m).ptpKick m.port := by
  have hfind : (m :: l).find? (fun m => [1, 2, 3, 9, 10].contains (ptpType m.msg)) = some m :=
    List.find?_cons_of_pos (by rw [htype]; decide)
  simp only [delayRx, h, hfind, htype, List.erase_cons_head, if_neg hport, ptpTaken]

theorem delayRx_peer (htype : ptpType m.msg = 2) (hp2p : d.ptpP2p m.port = true) :
    d.delayRx = ((d.ptpTaken l).ptpAnswer m).ptpKick m.port := by
  have hfind : (m :: l).find? (fun m => [1, 2, 3, 9, 10].contains (ptpType m.msg)) = some m :=
    List.find?_cons_of_pos (by rw [htype]; decide)
  have hp2p' : ptpP2p { d with time := { d.time with ptpIn := l } } m.port = true := hp2p
  simp only [delayRx, h, hfind, htype, List.erase_cons_head, hp2p', if_true, ptpTaken]

end Request

/-- The answer to a Delay_Req, with its interval octet, and to a Pdelay_Req in one step or in two. -/
def delayResp (m : PtpMsg) (i : Nat) : PtpOut :=
  { type := 9, flags := 0, seq := ptpSeqId m.msg, corr := unbe (slice m.msg 8 8), interval := i
    body := ptpTimeOctets m.stamp ++ slice m.msg 20 10 }

def peerResp (m : PtpMsg) (oneStep : Bool) : PtpOut :=
  if oneStep = true then
    { type := 3, flags := 0, seq := ptpSeqId m.msg, corr := unbe (slice m.msg 8 8)
      body := be 10 0 ++ slice m.msg 20 10, rxAt := m.stamp }
  else
    { type := 3, flags := 0x0200, seq := ptpSeqId m.msg, fuCorr := unbe (slice m.msg 8 8)
      body := ptpTimeOctets m.stamp ++ slice m.msg 20 10 }

theorem ptpAnswer_delay {d : Dev} {m : PtpMsg} (h : ptpType m.msg = 1) :
    d.ptpAnswer m = (d.draw 8).2.ptpQueue m.port (delayResp m (d.draw 8).1.toNat) := if_pos h

theorem ptpAnswer_peer {d : Dev} {m : PtpMsg} (h : ptpType m.msg = 2) :
    d.ptpAnswer m = d.ptpQueue m.port (peerResp m (d.ptpOneStep m.port)) := by
  rw [ptpAnswer]
  dsimp only
  rw [if_neg (by rw [h]; decide)]
  unfold peerResp
  split <;> rfl

/-! ### What waits of PTP (R464, R468) -/

theorem ptpKick_idle {d : Dev} {e : Nat} (hwire : ∀ w, (d.eth e).wire = some w → d.time.ns < w.ends)
    (hl : (d.eth e).link = true) (hidle : (d.eth e).busyUntil ≤ d.time.ns) : d.ptpKick e = d.ptpTake e := by
  simp only [ptpKick, frameEnd_underWay hwire]
  exact if_pos ⟨hl, hidle⟩

theorem ptpKick_waits {d : Dev} {e : Nat} (hwire : ∀ w, (d.eth e).wire = some w → d.time.ns < w.ends)
    (h : (d.eth e).link = false ∨ d.time.ns < (d.eth e).busyUntil) : d.ptpKick e = d := by
  simp only [ptpKick, frameEnd_underWay hwire]
  refine if_neg ?_
  rintro ⟨hl, hidle⟩
  obtain hno | hno := h
  · exact Bool.noConfusion (hno.symm.trans hl)
  · exact Nat.not_le.2 hno hidle

theorem time_ptpTake (d : Dev) (e : Nat) : (d.ptpTake e).time = d.time :=
  ((leaves_ptpTake (us := [.out, .freeCtr, .cnt, .ev, .links]) (.refl _ d) e rfl).same .time rfl).symm

/-- A general message goes out at once where the MAC is idle, in the layer-2 transport of a port without MACsec (R464). -/
theorem ptpTake_general {d : Dev} {e : Nat} {x : PtpOut} (h : (d.eth e).ptpOut = [x]) (htype : x.type = 9)
    (hsec : d.cfg.ETH_MACSEC_TX_EN e ≠ 1) (h1 : d.cfg.PTP_CTL_TRANSPORT ≠ 1) (h2 : d.cfg.PTP_CTL_TRANSPORT ≠ 2) (f : List Byte)
    (hf : f = be 6 0x011B19000000 ++ be 6 d.otp.baseMac.toNat ++ be 2 0x88F7 ++ d.ptpMessage e x) :
    (d.ptpTake e).out = d.out ++ [⟨.eth, e, (f ++ List.replicate (60 - f.length) 0#8) ++
      le 4 (crc32 (f ++ List.replicate (60 - f.length) 0#8))⟩] ∧ ((d.ptpTake e).eth e).ptpOut = [] := by
  refine ⟨?_, ptpOut_ptpTake h⟩
  have hsame {u : DevUnit} (t : Nat) (hu : [DevUnit.freeCtr].contains u = false) : d.sameUnit u (d.txStamp e t).2 :=
    (leaves_txStamp (us := [.freeCtr]) (.refl _ d) e t rfl).same u hu
  have hcfg (t : Nat) : (d.txStamp e t).2.cfg = d.cfg := (hsame (u := .cfg) t rfl).symm
  have hotp (t : Nat) : (d.txStamp e t).2.otp = d.otp := (hsame (u := .otp) t rfl).symm
  have hout (t : Nat) : (d.txStamp e t).2.out = d.out := (hsame (u := .out) t rfl).symm
  have hstamped (t : Nat) : ptpStamped x t = x := by
    unfold ptpStamped
    split
    next h0 _ => omega
    next h3 _ => omega
    next => rfl
  have hmsg (t : Nat) : (d.txStamp e t).2.ptpMessage e x = d.ptpMessage e x := by
    rw [ptpMessage, hcfg, hotp, ptpMessage]
  have hframe (t : Nat) : (d.txStamp e t).2.ptpFrame x.type (d.ptpMessage e x) = (f, (d.txStamp e t).2) := by
    rw [hf, htype, ← hotp t]
    unfold ptpFrame
    dsimp only
    split
    next hc => exact absurd (hcfg t ▸ hc) h1
    next hc => exact absurd (hcfg t ▸ hc) h2
    next => rfl
  simp only [ptpTake, h, hstamped, hmsg, hframe, if_neg (show ¬ x.type < 4 by omega)]
  rw [macSend_plain (by rw [show ∀ (a : Dev) g, (a.modEth e g).cfg = a.cfg from fun _ _ => rfl, hcfg]; exact hsec), bump_out]
  exact congrArg (· ++ _) (hout _)

/-! ### Messages of the device's own (R464, R466) -/

theorem ptpSend_off {d : Dev} {e : Nat} (h : d.ptpOn e = false) : d.ptpSend e = d := if_pos (by rw [h]; decide)

/-- The end of a frame leaves the scale and the numbers of the port's messages. -/
theorem frameEnd_time (d : Dev) (e : Nat) : (d.frameEnd e).time.ns = d.time.ns ∧ (d.frameEnd e).time.ptpSeq = d.time.ptpSeq := by
  have hsent (a : Dev) (x : PtpOut) (t : Nat) : (a.ptpSent e x t).time.ns = a.time.ns ∧
      (a.ptpSent e x t).time.ptpSeq = a.time.ptpSeq := by
    unfold ptpSent
    split <;> exact ⟨rfl, rfl⟩
  unfold frameEnd
  split
  · exact ⟨rfl, rfl⟩
  · split
    · exact ⟨rfl, rfl⟩
    · dsimp only
      split
      · unfold putEthStamp
        split
        · exact ⟨rfl, rfl⟩
        · rw [bump_time]
          exact ⟨rfl, rfl⟩
      · split
        · exact hsent ..
        · split
          · rw [bump_time, bump_time]
            exact ⟨rfl, rfl⟩
          · rw [bump_time]
            exact ⟨rfl, rfl⟩

theorem ptpKick_time (d : Dev) (e : Nat) : (d.ptpKick e).time.ns = d.time.ns ∧ (d.ptpKick e).time.ptpSeq = d.time.ptpSeq := by
  unfold ptpKick
  dsimp only
  split
  · rw [time_ptpTake]
    exact frameEnd_time d e
  · exact frameEnd_time d e

/-- The state once a port's message number has been taken. -/
def ptpNumbered (d : Dev) (e : Nat) : Dev :=
  { d with time := { d.time with ptpSeq := d.time.ptpSeq.set 0 e ((d.time.ptpSeq.get 0 e + 1) % 65536) } }

/-- The Sync of a time-transmitter port, and the Delay_Req of the port that receives time. -/
def syncMsg (d : Dev) (e i : Nat) : PtpOut :=
  { type := 0, flags := if d.ptpOneStep e = true then 0 else 0x0200, seq := d.time.ptpSeq.get 0 e, interval := i
    body := List.replicate 10 0#8 }

def delayReq (d : Dev) (e : Nat) : PtpOut :=
  { type := 1, flags := 0, seq := d.time.ptpSeq.get 0 e, body := List.replicate 10 0#8 }

theorem time_ite {c : Prop} [Decidable c] {a b : Dev} {t : TimeSt} (ha : a.time = t) (hb : b.time = t) :
    (if c then a else b).time = t := by
  split
  · exact ha
  · exact hb

section Send
variable {d : Dev} {e : Nat} (h : d.ptpOn e = true)
include h

/-- What a port sends in its turn changes the number alone, before it goes to the MAC. -/
theorem ptpSend_numbers : ∃ a : Dev, d.ptpSend e = a.ptpKick e ∧ a.time = (d.ptpNumbered e).time := by
  exact ⟨_, if_neg (not_not.2 h), time_ite (time_ite rfl rfl) (time_ite (time_ite rfl rfl) (time_ite rfl rfl))⟩

variable (hp : d.ptpP2p e = false)
include hp

theorem ptpSend_sync (hrx : e ≠ d.cfg.PTP_CTL_RX_PORT) : ∃ i,
    d.ptpSend e = (((d.ptpNumbered e).draw 8).2.ptpQueue e (d.syncMsg e i)).ptpKick e := by
  refine ⟨(((d.ptpNumbered e).draw 8).1.toNat % 9 + 249) % 256, (if_neg (not_not.2 h)).trans (congrArg (ptpKick · e) ?_)⟩
  refine (if_neg (by rw [if_neg hrx]; intro hp'; exact Bool.noConfusion (hp.symm.trans hp'))).trans ?_
  refine (if_neg ?_).trans (if_neg hrx)
  rw [if_neg hrx]
  exact hrx

theorem ptpSend_request (hrx : e = d.cfg.PTP_CTL_RX_PORT) :
    d.ptpSend e = ((d.ptpNumbered e).ptpQueue e (d.delayReq e)).ptpKick e := by
  refine (if_neg (not_not.2 h)).trans (congrArg (ptpKick · e) ?_)
  refine (if_neg (by rw [if_pos hrx]; intro hp'; exact Bool.noConfusion (hp.symm.trans hp'))).trans ?_
  refine (if_pos ?_).trans (congrArg (ptpQueue · e (d.delayReq e)) (if_pos hrx))
  rw [if_pos hrx]
  exact hrx

end Send

/-! ### PPS and ToD (R474 to R476) -/

theorem ppsEdge_inactive {d : Dev} {rising : Bool} (h : d.cfg.PPS_CTL_IN_EN = 0 ∨ rising = (d.cfg.PPS_CTL_IN_POL == 1)) :
    d.ppsEdge rising = d := if_pos h

/-- The state once an active edge has been stamped. -/
def ppsStamped (d : Dev) : Dev := { d with time := { d.time with ppsEdge := d.time.up, tod := [] } }

section Edge
variable {d : Dev} {rising : Bool} (hen : d.cfg.PPS_CTL_IN_EN ≠ 0) (hpol : rising ≠ (d.cfg.PPS_CTL_IN_POL == 1))
include hen hpol

/-- The active edge is stamped, and the ToD messages that waited are used up. -/
theorem ppsEdge_time : (d.ppsEdge rising).time.ppsEdge = d.time.up ∧ (d.ppsEdge rising).time.tod = [] := by
  have hfold {α : Type} (xs : List α) (a : Dev) :
      (xs.foldl (fun (d : Dev) _ => (d.violate .VIO_TOD_TIMING []).bump Cnt.TOD_REJECT) a).time = a.time := by
    induction xs generalizing a with
    | nil => rfl
    | cons x xs ih => rw [List.foldl_cons, ih, bump_time, violate_time]
  rw [ppsEdge, if_neg (not_or.2 ⟨hen, hpol⟩)]
  dsimp only
  split
  · exact ⟨congrArg TimeSt.up (hfold _ d), rfl⟩
  · exact ⟨congrArg TimeSt.up (hfold _ d), rfl⟩

/-- Without a ToD message an edge gives its fraction alone, on an acquired scale. -/
theorem ppsEdge_unnamed (htod : d.time.tod = []) : (d.ppsEdge rising).time.meas =
    if d.time.acquired = true then d.time.meas ++ [.pps d.time.ns none] else d.time.meas := by
  rw [ppsEdge, if_neg (not_or.2 ⟨hen, hpol⟩)]
  simp only [htod, List.filter_nil, List.foldl_nil, List.getLast?_nil, Option.map_none, Option.isSome_none, Bool.false_eq_true,
    false_or]
  split <;> rfl

/-- A ToD message in its window names the edge. -/
theorem ppsEdge_named {x : Tod} {at_ : Nat} (htod : d.time.tod = [(x, at_)]) (hlo : 50000000 ≤ d.time.up - at_)
    (hhi : d.time.up - at_ ≤ 900000000) : (d.ppsEdge rising).time.meas = d.time.meas ++ [.pps d.time.ns (some x.secs)] ∧
      (d.ppsEdge rising).vio = d.vio := by
  have hok : decide (50000000 ≤ d.up - at_ ∧ d.up - at_ ≤ 900000000) = true := decide_eq_true ⟨hlo, hhi⟩
  rw [ppsEdge, if_neg (not_or.2 ⟨hen, hpol⟩)]
  simp only [htod, List.filter_cons, hok, if_true, List.filter_nil, Bool.not_true, Bool.false_eq_true, if_false, List.foldl_nil,
    List.getLast?_singleton, Option.map_some, Option.isSome_some, true_or, and_self]

end Edge

section Tod
variable {d : Dev} {m : List Byte}

theorem todRx_off (h : d.cfg.PPS_CTL_TOD_IN = 0) : d.todRx m = d := if_pos h

variable (hon : d.cfg.PPS_CTL_TOD_IN ≠ 0)
include hon

theorem todRx_length (h : m.length ≠ 16) : d.todRx m = (d.violate .VIO_TOD_FORMAT []).bump Cnt.TOD_REJECT :=
  (if_neg hon).trans (if_pos (.inl h))

variable (hlen : m.length = 16) (hsync : slice m 0 2 = [0x51#8, 0x54#8]) (htype : fld m 2 1 = 1) (hres : fld m 3 1 < 16)
  (hcrc : fld m 14 2 = crcCcitt (slice m 0 14))
include hlen hsync htype hres hcrc

theorem todRx_formed : d.todRx m = if ¬ bit (fld m 3 1) 0 = true then d else { d with time := { d.time with
    tod := d.time.tod ++ [(⟨fld m 4 6, fld m 3 1, sext 16 (fld m 10 2), fld m 12 2⟩, d.time.up)] } } := by
  refine (if_neg hon).trans (if_neg ?_)
  rintro (h | h | h | h | h)
  · exact h hlen
  · exact h hsync
  · exact h htype
  · exact Nat.not_le.2 hres h
  · exact h hcrc

end Tod

/-- The ToD message that goes out (R475, R476). -/
theorem todOut_sends {d : Dev} (hen : d.cfg.PPS_CTL_TOD_OUT ≠ 0) (hruns : d.ppsRuns = true) : ∃ m : List Byte,
    d.todOut.out = d.out ++ [⟨.tod, 0, m⟩] ∧ m.length = 16 ∧ m.take 3 = [0x51#8, 0x54#8, 0x01#8] := by
  refine ⟨_, congrArg Dev.out (if_neg (not_or.2 ⟨hen, not_not.2 hruns⟩)), ?_, rfl⟩
  simp [length_le]

theorem rankOf_congr {a b : Dev} (h : a.cfg = b.cfg) (x : Nat) : a.rankOf x = b.rankOf x := by
  dsimp only [rankOf]
  rw [h]

/-- The first measurement with whole seconds steps the scale, and its source is in use where it is an allowed one (R456). -/
theorem measure1_acquired {d : Dev} {m : Meas} {l : List Meas} (hm : d.time.meas = m :: l) (ha : d.time.acquired = false)
    (hs : measSecs m = true) : d.measure1.time.meas = [] ∧ d.measure1.time.acquired = true ∧
      d.measure1.time.source = (if d.sourceUsed (measSource m) = true then measSource m else d.time.source) ∧
      d.measure1.time.ns = (((d.time.ns : Int) - d.offsetOf m) % 2 ^ 64).toNat ∧
      d.measure1.time.up = d.time.up ∧ d.measure1.time.freq = 0 := by
  have htime := acquire_time ((d.measTaken l).measSeen (measSource m)) (d.offsetOf m)
  have hcfg : (((d.measTaken l).measSeen (measSource m)).acquire (d.offsetOf m)).cfg = d.cfg :=
    ((leaves_acquire (us := [.epoch, .cnt, .ev, .seqs, .time, .links]) (.refl _ ((d.measTaken l).measSeen (measSource m)))
      (d.offsetOf m) rfl).same .cfg rfl).symm
  have hused : (((d.measTaken l).measSeen (measSource m)).acquire (d.offsetOf m)).sourceUsed (measSource m) =
      d.sourceUsed (measSource m) := by
    rw [sourceUsed, rankOf_congr hcfg, rankOf_congr hcfg, sourceUsed]
  rw [measure1_acquires hm ha hs, hused]
  split
  · obtain ⟨hops, shown, hset⟩ := setSource_time (((d.measTaken l).measSeen (measSource m)).acquire (d.offsetOf m)) (measSource m)
    rw [hset, htime]
    exact ⟨rfl, rfl, rfl, rfl, rfl, rfl⟩
  · rw [htime]
    exact ⟨rfl, rfl, rfl, rfl, rfl, rfl⟩

end Dev

open Dev

/-- Settles O17: a measurement is `measure1_unnamed`, `measure1_acquires` or `measure1_inUse`, and the messages and edges are the
lemmas beside them. -/
theorem timeFollowsItsMeasurements : Obligations.TimeFollowsItsMeasurements := by
  unfold Obligations.TimeFollowsItsMeasurements
  intro s
  have hgo {a b : Dev} (h : a = b) : (.next (s.goes a) : Host.Outcome State Fault Refusal) = .next (s.goes b) := next_goes_congr h
  refine ⟨fun h => ?nothing, fun m l hm => ?measured, fun h => ?kept, fun hsrc hh ha hlost hlt => ?lost, fun h parent => ?noSync,
    fun m l mpd hm htype hport hstep hmpd => ?sync, fun h => ?noDelay, fun m l hm hwire => ⟨fun htype hport => ?request,
      fun htype hp hwaits => ?peer⟩, fun e => ⟨fun h => ?ptpOff, fun h => ?ptpOn⟩, fun rising => ⟨fun h => ?noEdge,
      fun hen hpol => ?edge⟩, fun m => ⟨fun h => ?todOff, fun hon => ⟨fun h => ?todLength, fun hlen hsync htype hres hcrc =>
      ⟨fun h => ?todInvalid, fun h => ?todKept⟩⟩⟩, rfl, fun h => ?pps, fun h => ⟨?noPps, ?noTod⟩, fun hruns hen => ?todOut⟩
  case nothing =>
    have hstay : s.fresh.measure1 = s.fresh := by simp only [measure1, show s.fresh.time.meas = [] from h]
    exact hgo hstay
  case measured =>
    have hrun : exec .timeMeasurement s = .next (s.goes s.fresh.measure1) := rfl
    refine ⟨_, hrun, ?_, fun ha hs => ?acquires, fun ha hs => ?unnamed, fun ha hsrc hr hh => ?inUse⟩
    case acquires => exact (measure1_acquired (d := s.fresh) hm ha hs).2
    case unnamed =>
      rw [State.goes_dev, measure1_unnamed (d := s.fresh) hm ha hs]
      rfl
    case inUse =>
      rw [State.goes_dev, measure1_inUse (d := s.fresh) hm ha hsrc hr hh]
      refine ⟨(sameScale_judge ..).1, fun hnear => ?near, fun hfar hn => ?candidate, fun hfar hn => ?jump⟩
      case near =>
        obtain ⟨-, ho, hcands, hhold, hrate⟩ := feed_time ((s.fresh.measTaken l).measSeen (measSource m)).endCands (s.fresh.offsetOf m)
        rw [judge_near (o := s.fresh.offsetOf m) (d := (s.fresh.measTaken l).measSeen (measSource m)) hnear]
        rw [endCands_time] at hcands hhold
        exact ⟨ho, hcands, hhold.trans hh, hrate⟩
      case candidate =>
        obtain ⟨-, hrate, -, hhold⟩ := lockStep_time ((s.fresh.measTaken l).measSeen (measSource m)) (s.fresh.offsetOf m)
        rw [judge_candidate (o := s.fresh.offsetOf m) (d := (s.fresh.measTaken l).measSeen (measSource m)) hfar hn]
        exact ⟨rfl, hrate, hhold.trans hh⟩
      case jump =>
        obtain ⟨a, hjudge, htime⟩ := judge_jump (o := s.fresh.offsetOf m) (d := (s.fresh.measTaken l).measSeen (measSource m)) hfar hn (measSource m)
        obtain ⟨-, -, -, hhold⟩ := lockStep_time ((s.fresh.measTaken l).measSeen (measSource m)) (s.fresh.offsetOf m)
        have hnot : a.time.holdover = false := by
          rw [htime]
          exact hhold.trans hh
        refine (congrArg (fun e : Dev => e.time.cands = [] ∧ e.time.jumpPending = true ∧ e.time.holdover = true) hjudge).mpr ?_
        rw [enterHoldover_time hnot, htime]
        exact ⟨rfl, rfl, rfl⟩
    · rw [State.goes_dev]
      split
      next h => exact (measure1_acquired (d := s.fresh) hm h.1 h.2).1
      next h =>
        by_cases ha : s.dev.time.acquired = true
        · exact measure1_meas (d := s.fresh) hm ha
        · have ha' := Bool.not_eq_true _ ▸ ha
          rw [measure1_unnamed (d := s.fresh) hm ha' (Bool.not_eq_true _ ▸ fun hs => h ⟨ha', hs⟩)]
          rfl
  case kept => exact hgo (sourceLost_stays (d := s.fresh) h)
  case lost =>
    refine ⟨_, hgo (sourceLost_holds (d := s.fresh) hsrc hh ha hlost hlt), ?_⟩
    rw [State.goes_dev, enterHoldover_time (d := s.fresh) hh]
    exact ⟨rfl, rfl, rfl, rfl⟩
  case noSync => exact hgo (syncRx_none (d := s.fresh) h parent)
  case sync =>
    exact ⟨_, rfl, syncRx_oneStep (d := s.fresh) hm htype hport hstep hmpd⟩
  case noDelay => exact hgo (delayRx_none (d := s.fresh) h)
  case request =>
    have hrun : exec .ptpDelayMsgRx s = .next (s.goes s.fresh.delayRx) := rfl
    have heq := delayRx_request (d := s.fresh) hm htype hport
    rw [ptpAnswer_delay htype] at heq
    have heth : ((((s.fresh.ptpTaken l).draw 8).2.ptpQueue m.port (delayResp m ((s.fresh.ptpTaken l).draw 8).1.toNat)).eth m.port) =
        { s.dev.eth m.port with ptpOut := (s.dev.eth m.port).ptpOut ++
          [delayResp m ((s.fresh.ptpTaken l).draw 8).1.toNat] } := eth_modEth ..
    refine ⟨_, _, delayResp m ((s.fresh.ptpTaken l).draw 8).1.toNat, hrun, ?_, rfl, fun hwaits => ?_,
      fun hl hidle hempty hsec h1 h2 f hf => ?_⟩
    · have htake (a : Dev) : (a.ptpKick m.port).time.ptpIn = (a.frameEnd m.port).time.ptpIn := by
        unfold ptpKick
        dsimp only
        split
        · rw [time_ptpTake]
        · rfl
      rw [State.goes_dev, heq, htake, frameEnd_underWay]
      · rfl
      · rw [heth]
        exact hwire
    · rw [State.goes_dev, heq, ptpKick_waits, heth]
      · rw [heth]
        exact hwire
      · rw [heth]
        exact hwaits
    · rw [State.goes_dev, heq, ptpKick_idle]
      · have hwait := congrArg EthPort.ptpOut heth
        dsimp only at hwait
        rw [hempty, List.nil_append] at hwait
        exact ptpTake_general hwait rfl hsec h1 h2 f hf
      · rw [heth]
        exact hwire
      · rw [heth]
        exact hl
      · rw [heth]
        exact hidle
  case peer =>
    have hrun : exec .ptpDelayMsgRx s = .next (s.goes s.fresh.delayRx) := rfl
    have heq := delayRx_peer (d := s.fresh) hm htype hp
    rw [ptpAnswer_peer htype] at heq
    have heth : (((s.fresh.ptpTaken l).ptpQueue m.port (peerResp m ((s.fresh.ptpTaken l).ptpOneStep m.port))).eth m.port) =
        { s.dev.eth m.port with ptpOut := (s.dev.eth m.port).ptpOut ++
          [peerResp m ((s.fresh.ptpTaken l).ptpOneStep m.port)] } := eth_modEth ..
    refine ⟨_, hrun, ?_, ?_⟩
    · rw [State.goes_dev, heq, ptpKick_waits]
      · rfl
      · rw [heth]
        exact hwire
      · rw [heth]
        exact hwaits
    · rw [State.goes_dev, heq, ptpKick_waits, heth]
      · rfl
      · rw [heth]
        exact hwire
      · rw [heth]
        exact hwaits
  case ptpOff => exact hgo (ptpSend_off (d := s.fresh) h)
  case ptpOn =>
    obtain ⟨a, ha, htime⟩ := ptpSend_numbers (d := s.fresh) h
    obtain ⟨hns, hseq⟩ := ptpKick_time a e.val
    have hrun : exec (.ptpMessageSend e) s = .next (s.goes (s.fresh.ptpSend e.val)) := rfl
    refine ⟨_, hrun, ?_, ?_, fun hbusy hwire hp => ⟨fun hrx => ?_, fun hrx => ?_⟩⟩
    · rw [State.goes_dev, ha, hseq, htime]
      exact SMap.get_set_self ..
    · rw [State.goes_dev, ha, hns, htime]
      rfl
    · obtain ⟨i, hi⟩ := ptpSend_sync (d := s.fresh) h hp hrx
      refine ⟨i, ?_⟩
      rw [State.goes_dev, hi, ptpKick_waits, ptpQueue, eth_modEth]
      · rfl
      · rw [ptpQueue, eth_modEth]
        exact hwire
      · rw [ptpQueue, eth_modEth]
        exact .inr hbusy
    · rw [State.goes_dev, ptpSend_request (d := s.fresh) h hp hrx, ptpKick_waits, ptpQueue, eth_modEth]
      · rfl
      · rw [ptpQueue, eth_modEth]
        exact hwire
      · rw [ptpQueue, eth_modEth]
        exact .inr hbusy
  case noEdge => exact hgo (ppsEdge_inactive (d := s.fresh) h)
  case edge =>
    obtain ⟨hat, htod⟩ := ppsEdge_time (d := s.fresh) hen hpol
    exact ⟨_, rfl, hat, htod, fun h => ppsEdge_unnamed (d := s.fresh) hen hpol h,
      fun x t h hlo hhi => ppsEdge_named (d := s.fresh) hen hpol h hlo hhi⟩
  case todOff => exact hgo (todRx_off (d := s.fresh) h)
  case todLength => exact hgo (todRx_length (d := s.fresh) hon h)
  case todInvalid =>
    exact hgo ((todRx_formed (d := s.fresh) hon hlen hsync htype hres hcrc).trans (if_pos (by rw [h]; decide)))
  case todKept => exact hgo ((todRx_formed (d := s.fresh) hon hlen hsync htype hres hcrc).trans (if_neg (not_not.2 h)))
  case pps =>
    refine ⟨_, hgo (a := if s.fresh.ppsRuns = true then _ else _) (if_pos h), rfl, rfl, ?_⟩
    refine State.sameBut_of_leaves rfl ⟨fun u hu => ?_⟩
    cases u
    case out => exact absurd hu (by decide)
    case time => exact absurd hu (by decide)
    all_goals rfl
  case noPps => exact hgo (if_neg (fun hruns => Bool.noConfusion (h.symm.trans hruns)))
  case noTod => exact hgo (if_pos (.inr (fun hruns => Bool.noConfusion (h.symm.trans hruns))))
  case todOut =>
    obtain ⟨m, hout, hm⟩ := todOut_sends (d := s.fresh) hen hruns
    exact ⟨_, m, rfl, hout, hm⟩

end Sys2Proof.Machine
end

section
/-! PROOFS. QZ-Link and MIR ports: what each operation on a port leaves, and what becomes of a frame that arrives (R492,
R493, R495, R501, R551). -/

set_option Elab.async false

namespace Sys2Proof.Machine

namespace Dev

/-! ### What operations leave of the ports -/

theorem qlp_congr {a b : Dev} (h : a.links = b.links) (q : Nat) : a.qlp q = b.qlp q := by rw [qlp, qlp, h]

@[simp] theorem qlp_bump (d : Dev) (c : Counter) (n q : Nat) : (d.bump c n).qlp q = d.qlp q := qlp_congr (bump_links ..) q
@[simp] theorem qlp_raise (d : Dev) (c : EvCode) (x : List Byte) (q : Nat) : (d.raise c x).qlp q = d.qlp q := qlp_congr (raise_links ..) q
@[simp] theorem qlp_setQueue (d : Dev) (n : Nat) (x : List QItem) (q : Nat) : (d.setQueue n x).qlp q = d.qlp q := rfl
@[simp] theorem qlp_sendWord (d : Dev) (r d1 v q : Nat) : (d.sendWord r d1 v).qlp q = d.qlp q := rfl
@[simp] theorem qlp_sendFrame (d : Dev) (r : Nat) (f : QlFrame) (sq q : Nat) : (d.sendFrame r f sq).qlp q = d.qlp q := rfl
@[simp] theorem sendWord_out (d : Dev) (q d1 v : Nat) : (d.sendWord q d1 v).out = d.out ++ [qlOut q (le 1 d1 ++ le 2 v)] := rfl
@[simp] theorem sendFrame_out (d : Dev) (q : Nat) (f : QlFrame) (sq : Nat) : (d.sendFrame q f sq).out = d.out ++ [qlOut q (f.octets sq)] := rfl

@[simp] theorem bumpQl_links (d : Dev) (q : Nat) (c : Nat → Counter) (n : Nat) : (d.bumpQl q c n).links = d.links := by
  unfold bumpQl
  split
  · exact bump_links ..
  · rfl

@[simp] theorem bumpQl_out (d : Dev) (q : Nat) (c : Nat → Counter) (n : Nat) : (d.bumpQl q c n).out = d.out := by
  unfold bumpQl
  split
  · exact bump_out ..
  · rfl

@[simp] theorem bumpQl_elec (d : Dev) (q : Nat) (c : Nat → Counter) (n : Nat) : (d.bumpQl q c n).elec = d.elec := by
  unfold bumpQl
  split
  · exact bump_elec ..
  · rfl

@[simp] theorem bumpQl_cfg (d : Dev) (q : Nat) (c : Nat → Counter) (n : Nat) : (d.bumpQl q c n).cfg = d.cfg := by
  unfold bumpQl
  split
  · exact bump_cfg ..
  · rfl

@[simp] theorem qlp_bumpQl (d : Dev) (r : Nat) (c : Nat → Counter) (n q : Nat) : (d.bumpQl r c n).qlp q = d.qlp q :=
  qlp_congr (bumpQl_links ..) q

/-- A change of port i that keeps a property of it keeps that property of every port. -/
theorem modQl_keeps {α : Sort*} (g : QlPort → α) {f : QlPort → QlPort} (h : ∀ x, g (f x) = g x) (d : Dev) (i p : Nat) :
    g ((d.modQl i f).qlp p) = g (d.qlp p) := by
  rcases eq_or_ne p i with rfl | hp
  · rw [qlp_modQl, h]
  · rw [qlp_modQl_ne d f hp]

/-! ### Credits go back (R495) -/

theorem returnCredits_carried {d : Dev} {q : Nat} (h : carries (d.qlp q) = true) (f : QlFrame) :
    d.returnCredits q f = d.sendWord q 3 (f.cls % 8 * 8192 + f.units) := if_pos h

/-! ### A frame arrives (R492, R493, R495) -/

theorem not_qlHeader_iff (q : Nat) (b : List Byte) :
    (¬ (if q = 6 then decide (0x10 ≤ fld b 0 1 ∧ fld b 0 1 ≤ 0x14) else decide (1 ≤ fld b 0 1 ∧ fld b 0 1 ≤ 4)) = true ∨
      8 ≤ fld b 1 1 ∨ 1024 ≤ fld b 2 2 ∨ 1024 ≤ fld b 4 2 ∨ 4096 ≤ fld b 8 2 ∨ ¬ zeros b 0x0B 5 = true ∨
      fld b 6 2 ≠ b.length - 4 - 16 ∨ (if q = 6 then 4096 else 9728) < fld b 6 2) ↔ ¬ qlHeader q b := by
  have hlen : b.length - 4 - 16 = b.length - 20 := Nat.sub_sub ..
  unfold qlHeader
  rw [hlen]
  by_cases hq : q = 6 <;> simp only [hq, if_true, if_false, decide_eq_true_eq, not_and_or, Nat.not_lt, Nat.not_le, ne_eq]

theorem qlWhole_guard {b : List Byte} (hw : qlWhole b) : ¬ (b.length < 20 ∨ b.drop (b.length - 4) ≠ le 4 (crc32 (b.take (b.length - 4)))) := by
  obtain ⟨hlen, hcrc⟩ := hw
  rintro (hx | hx)
  · omega
  · exact hx hcrc

section frames
variable {d : Dev} {q : Nat} (hc : carries (d.qlp q) = true) {b : List Byte}

theorem qlFrameRx_silent (h : carries (d.qlp q) = false) (b : List Byte) (env : CmdEnv) : d.qlFrameRx q b env = d :=
  if_pos fun hx => Bool.noConfusion (h.symm.trans hx)

include hc

theorem qlFrameRx_torn (hw : ¬ qlWhole b) (env : CmdEnv) : d.qlFrameRx q b env = d.qlBad q := by
  have h : b.length < 20 ∨ b.drop (b.length - 4) ≠ le 4 (crc32 (b.take (b.length - 4))) := by
    unfold qlWhole at hw
    rwa [not_and_or, Nat.not_le] at hw
  exact (if_neg (not_not.mpr hc)).trans (if_pos h)

theorem qlFrameRx_header (hw : qlWhole b) (hh : ¬ qlHeader q b) (env : CmdEnv) :
    d.qlFrameRx q b env = (d.qlBad q).violate .VIO_QL_FRAME [] :=
  ((if_neg (not_not.mpr hc)).trans (if_neg (qlWhole_guard hw))).trans (if_pos ((not_qlHeader_iff q b).mpr hh))

/-- A whole frame with a good header is judged by its SEQ and then by the credits of its class. -/
theorem qlFrameRx_whole (hw : qlWhole b) (hh : qlHeader q b) (env : CmdEnv) : d.qlFrameRx q b env =
    if (fld b 8 2 + 4096 - (d.qlp q).rxSeq) % 4096 ≠ 0 then
      (if 2048 ≤ (fld b 8 2 + 4096 - (d.qlp q).rxSeq) % 4096 then d.modQl q (fun y => { y with ackDue := true })
        else (d.modQl q (fun y => { y with ackDue := true })).sendWord q 2 (d.qlp q).rxSeq)
    else if 128 < (d.qlp q).rxUsed.get 0 (qlFrameOf b).cls + (qlFrameOf b).units then (d.qlBad q).violate .VIO_QL_CREDIT []
    else if q = 6 then ((d.qlAccepted q).returnCredits q (qlFrameOf b)).mirFrame (qlFrameOf b)
    else (d.qlAccepted q).qlFrame q (qlFrameOf b) env :=
  ((if_neg (not_not.mpr hc)).trans (if_neg (qlWhole_guard hw))).trans
    (if_neg (mt (not_qlHeader_iff q b).mp (not_not.mpr hh)))

theorem qlFrameRx_ahead (hw : qlWhole b) (hh : qlHeader q b) (h0 : 0 < (fld b 8 2 + 4096 - (d.qlp q).rxSeq) % 4096)
    (h1 : (fld b 8 2 + 4096 - (d.qlp q).rxSeq) % 4096 < 2048) (env : CmdEnv) : d.qlFrameRx q b env =
    (d.modQl q (fun y => { y with ackDue := true })).sendWord q 2 (d.qlp q).rxSeq := by
  rw [qlFrameRx_whole hc hw hh, if_pos (Nat.pos_iff_ne_zero.mp h0), if_neg (Nat.not_le.mpr h1)]

theorem qlFrameRx_behind (hw : qlWhole b) (hh : qlHeader q b) (h : 2048 ≤ (fld b 8 2 + 4096 - (d.qlp q).rxSeq) % 4096)
    (env : CmdEnv) : d.qlFrameRx q b env = d.modQl q (fun y => { y with ackDue := true }) := by
  rw [qlFrameRx_whole hc hw hh, if_pos (by omega), if_pos h]

theorem qlFrameRx_inSequence (hw : qlWhole b) (hh : qlHeader q b) (hseq : fld b 8 2 = (d.qlp q).rxSeq) (env : CmdEnv) :
    d.qlFrameRx q b env =
    if 128 < (d.qlp q).rxUsed.get 0 (qlFrameOf b).cls + (qlFrameOf b).units then (d.qlBad q).violate .VIO_QL_CREDIT []
    else if q = 6 then ((d.qlAccepted q).returnCredits q (qlFrameOf b)).mirFrame (qlFrameOf b)
    else (d.qlAccepted q).qlFrame q (qlFrameOf b) env := by
  rw [qlFrameRx_whole hc hw hh, if_neg (by omega)]

end frames

/-! ### An accepted frame -/

theorem qlAccepted_keeps {α : Sort*} (g : QlPort → α) (h : ∀ (x : QlPort) (a : Bool) (n : Nat), g { x with ackDue := a, rxSeq := n } = g x)
    (d : Dev) (q p : Nat) : g ((d.qlAccepted q).qlp p) = g (d.qlp p) := by
  unfold qlAccepted
  rw [qlp_bumpQl, modQl_keeps g (fun x => h x x.ackDue _), modQl_keeps g (fun x => h x true x.rxSeq)]

@[simp] theorem qlAccepted_elec (d : Dev) (q : Nat) : (d.qlAccepted q).elec = d.elec := bumpQl_elec ..

theorem returnCredits_accepted {d : Dev} {q : Nat} (hc : carries (d.qlp q) = true) (f : QlFrame) :
    (d.qlAccepted q).returnCredits q f = d.qlTaken q f :=
  returnCredits_carried ((qlAccepted_keeps carries (fun _ _ _ => rfl) d q q).trans hc) f

theorem routeTo_congr {a b : Dev} (hcfg : a.cfg = b.cfg) (hlearned : a.links.learned = b.links.learned)
    (hfollowed : a.links.followed = b.links.followed) (hport : a.links.rootPort = b.links.rootPort) (chip : Nat) (host : Bool) :
    a.routeTo chip host = b.routeTo chip host := by
  unfold routeTo
  rw [hcfg, hlearned, hfollowed, hport]

theorem routeTo_qlAccepted (d : Dev) (q chip : Nat) (host : Bool) : (d.qlAccepted q).routeTo chip host = d.routeTo chip host := by
  refine routeTo_congr (bumpQl_cfg ..) ?_ ?_ ?_ chip host <;> exact congrArg _ (bumpQl_links ..)

section accepted
variable {d : Dev} {q : Nat} (hc : carries (d.qlp q) = true) {f : QlFrame}
include hc

theorem mirFrame_taken (h : f.dst = d.elec.chipId) : ((d.qlAccepted q).returnCredits q f).mirFrame f = { d.qlTaken q f with
    links := { (d.qlTaken q f).links with mirIn := (d.qlTaken q f).links.mirIn ++ [f] }
    pair := { (d.qlTaken q f).pair with partnerChip := f.src, partnerKnown := true } } := by
  have he : (d.qlTaken q f).elec = d.elec := qlAccepted_elec ..
  rw [returnCredits_accepted hc]
  exact if_neg (by rw [he]; exact not_not.mpr h)

theorem mirFrame_other (h : f.dst ≠ d.elec.chipId) :
    ((d.qlAccepted q).returnCredits q f).mirFrame f = (d.qlTaken q f).violate .VIO_MIR_FRAME [] := by
  have he : (d.qlTaken q f).elec = d.elec := qlAccepted_elec ..
  rw [returnCredits_accepted hc]
  exact if_pos (by rw [he]; exact h)

theorem qlFrame_announce (h : f.type = 4) (env : CmdEnv) : (d.qlAccepted q).qlFrame q f env = { d.qlTaken q f with
    links := { (d.qlTaken q f).links with annIn := (d.qlTaken q f).links.annIn ++ [(q, f)] } } := by
  refine (if_neg fun hx => hx.1 h).trans ?_
  rw [returnCredits_accepted hc]
  exact if_pos h

/-- A frame that the device keeps, other than an ANNOUNCE, has left the receive buffer. -/
theorem qlFrame_kept (ht : f.type ≠ 4) (hk : (d.qlp q).dupId = true ∨ f.dst = d.elec.chipId) (env : CmdEnv) :
    (d.qlAccepted q).qlFrame q f env = if (d.qlp q).dupId = true then d.qlTaken q f
      else match f.type with
        | 1 => (d.qlTaken q f).qlData q f
        | 2 => (d.qlTaken q f).shelfFrame f.payload
        | _ => (d.qlTaken q f).hostFrame f env := by
  have hdup : ((d.qlAccepted q).qlp q).dupId = (d.qlp q).dupId := qlAccepted_keeps (·.dupId) (fun _ _ _ => rfl) d q q
  have hdup' : ((d.qlTaken q f).qlp q).dupId = (d.qlp q).dupId := hdup
  refine (if_neg ?_).trans ?_
  · rw [hdup, qlAccepted_elec]
    rintro ⟨-, h0, h1⟩
    rcases hk with hk | hk
    · exact Bool.noConfusion (hk.symm.trans h0)
    · exact h1 hk
  · rw [returnCredits_accepted hc]
    exact (if_neg ht).trans (if_congr (by rw [hdup']) rfl rfl)

end accepted

section transit
variable {d : Dev} {q : Nat} {f : QlFrame} (ht : f.type ≠ 4) (hd : (d.qlp q).dupId = false) (hk : f.dst ≠ d.elec.chipId)
include ht hd hk

theorem qlFrame_transit (env : CmdEnv) : (d.qlAccepted q).qlFrame q f env = (d.qlAccepted q).qlTransit q f :=
  if_pos ⟨ht, (qlAccepted_keeps (·.dupId) (fun _ _ _ => rfl) d q q).trans hd, by rwa [qlAccepted_elec]⟩

theorem qlFrame_ttlOver (hc : carries (d.qlp q) = true) (httl : f.ttl ≤ 1) (env : CmdEnv) :
    (d.qlAccepted q).qlFrame q f env = (d.qlTaken q f).bump (Cnt.QL_TTL_DROP q) := by
  rw [qlFrame_transit ht hd hk, qlTransit, if_pos httl, returnCredits_accepted hc]

theorem qlFrame_passedOn (httl : 1 < f.ttl) {p : Nat} (hr : d.routeTo f.dst (f.type == 3) = some p)
    (hup : (d.qlp p).up = true) (env : CmdEnv) : (d.qlAccepted q).qlFrame q f env =
    ((d.qlAccepted q).holdBuffer q f).queueQl p { f with ttl := f.ttl - 1, rx := some q } := by
  have hup' : ((d.qlAccepted q).qlp p).up = true := (qlAccepted_keeps (·.up) (fun _ _ _ => rfl) d q p).trans hup
  rw [qlFrame_transit ht hd hk, qlTransit, if_neg (Nat.not_le.mpr httl)]
  simp only [routeTo_qlAccepted, hr]
  exact if_pos hup'

end transit

end Dev

/-- What a port that carries nothing does with a frame or a word: nothing (R497). -/
theorem qlSilent {s : State} {q : Fin 7} (h : Dev.carries (s.dev.qlp q.val) = false) :
    (∀ b env, exec (.qlFrameRx q b env) s = .next (s.goes s.fresh)) ∧
    (∀ d1 v, exec (.qlAckRx q d1 v) s = .next (s.goes s.fresh)) ∧
    (∀ v, exec (.qlNakRx q v) s = .next (s.goes s.fresh)) ∧ (∀ v, exec (.qlCreditRx q v) s = .next (s.goes s.fresh)) ∧
    exec (.qlTxSchedule q) s = .next (s.goes s.fresh) := by
  have hn : ¬ Dev.carries (s.fresh.qlp q.val) = true := fun hx => Bool.noConfusion (h.symm.trans hx)
  have hgo {a b : Dev} (hab : a = b) : Host.Outcome.next (s.goes a) = .next (s.goes b) := Dev.next_goes_congr hab
  exact ⟨fun b env => hgo (Dev.qlFrameRx_silent (d := s.fresh) h b env), fun d1 v => hgo (if_pos hn), fun v => hgo (if_neg hn),
    fun v => hgo (if_neg hn), hgo (if_pos (Or.inl hn))⟩

/-- What a port that carries frames does with one. -/
theorem qlReceives {s : State} {q : Fin 7} (hc : Dev.carries (s.dev.qlp q.val) = true) :
    (∀ b env, ¬ qlWhole b → exec (.qlFrameRx q b env) s =
      .next (s.goes ((s.fresh.bumpQl q.val Cnt.QL_CRC_ERR).sendWord q.val 2 (s.dev.qlp q.val).rxSeq))) ∧
    (∀ b env, qlWhole b → ¬ qlHeader q.val b → exec (.qlFrameRx q b env) s = .next (s.goes
      (((s.fresh.bumpQl q.val Cnt.QL_CRC_ERR).sendWord q.val 2 (s.dev.qlp q.val).rxSeq).violate .VIO_QL_FRAME []))) ∧
    (∀ b env ahead, qlWhole b → qlHeader q.val b → (fld b 8 2 + 4096 - (s.dev.qlp q.val).rxSeq) % 4096 = ahead →
      (0 < ahead → ahead < 2048 → exec (.qlFrameRx q b env) s =
        .next (s.goes ((s.fresh.modQl q.val (fun y => { y with ackDue := true })).sendWord q.val 2
          (s.dev.qlp q.val).rxSeq))) ∧
      (2048 ≤ ahead → exec (.qlFrameRx q b env) s =
        .next (s.goes (s.fresh.modQl q.val (fun y => { y with ackDue := true }))))) ∧
    (∀ b env f, qlWhole b → qlHeader q.val b → fld b 8 2 = (s.dev.qlp q.val).rxSeq →
      qlFrameOf b = f → 128 < (s.dev.qlp q.val).rxUsed.get 0 f.cls + f.units → exec (.qlFrameRx q b env) s = .next (s.goes
        (((s.fresh.bumpQl q.val Cnt.QL_CRC_ERR).sendWord q.val 2 (s.dev.qlp q.val).rxSeq).violate .VIO_QL_CREDIT []))) ∧
    (∀ b env f a, qlWhole b → qlHeader q.val b → fld b 8 2 = (s.dev.qlp q.val).rxSeq → qlFrameOf b = f →
      (s.dev.qlp q.val).rxUsed.get 0 f.cls + f.units ≤ 128 → s.fresh.qlTaken q.val f = a →
      (q.val = 6 → f.dst = s.dev.elec.chipId → exec (.qlFrameRx q b env) s = .next (s.goes { a with
        links := { a.links with mirIn := a.links.mirIn ++ [f] }
        pair := { a.pair with partnerChip := f.src, partnerKnown := true } })) ∧
      (q.val = 6 → f.dst ≠ s.dev.elec.chipId →
        exec (.qlFrameRx q b env) s = .next (s.goes (a.violate .VIO_MIR_FRAME []))) ∧
      (q.val ≠ 6 → f.type = 4 → exec (.qlFrameRx q b env) s = .next (s.goes { a with
        links := { a.links with annIn := a.links.annIn ++ [(q.val, f)] } })) ∧
      (q.val ≠ 6 → f.type ≠ 4 → (s.dev.qlp q.val).dupId = true → exec (.qlFrameRx q b env) s = .next (s.goes a)) ∧
      (q.val ≠ 6 → f.type ≠ 4 → (s.dev.qlp q.val).dupId = false → f.dst ≠ s.dev.elec.chipId →
        (f.ttl ≤ 1 → exec (.qlFrameRx q b env) s = .next (s.goes (a.bump (Cnt.QL_TTL_DROP q.val)))) ∧
        (∀ p, 1 < f.ttl → s.dev.routeTo f.dst (f.type == 3) = some p → (s.dev.qlp p).up = true →
          exec (.qlFrameRx q b env) s = .next (s.goes (((s.fresh.qlAccepted q.val).holdBuffer q.val f).queueQl p
            { f with ttl := f.ttl - 1, rx := some q.val })))) ∧
      (q.val ≠ 6 → f.type = 1 → (s.dev.qlp q.val).dupId = false → f.dst = s.dev.elec.chipId →
        exec (.qlFrameRx q b env) s = .next (s.goes (a.ingress {
          src := 8 + q.val, data := f.payload.drop 16, pan := fld f.payload 0 1 % 4
          rxFlags := fld f.payload 1 1 % 16 ||| 4, dst := fld f.payload 2 2
          tag := BitVec.ofNat 32 (fld f.payload 8 4), l3 := wiredL3 (f.payload.drop 16) })))) := by
  have hgo {a b : Dev} (hab : a = b) : Host.Outcome.next (s.goes a) = .next (s.goes b) := Dev.next_goes_congr hab
  replace hc : Dev.carries (s.fresh.qlp q.val) = true := hc
  refine ⟨fun b env hw => hgo (Dev.qlFrameRx_torn hc hw env), fun b env hw hh => hgo (Dev.qlFrameRx_header hc hw hh env), ?_, ?_, ?_⟩
  · rintro b env ahead hw hh rfl
    exact ⟨fun h0 h1 => hgo (Dev.qlFrameRx_ahead hc hw hh h0 h1 env), fun h => hgo (Dev.qlFrameRx_behind hc hw hh h env)⟩
  · rintro b env f hw hh hseq rfl hover
    exact hgo ((Dev.qlFrameRx_inSequence hc hw hh hseq env).trans (if_pos hover))
  · rintro b env f a hw hh hseq hf hroom rfl
    have hrx : s.fresh.qlFrameRx q.val b env = if q.val = 6 then ((s.fresh.qlAccepted q.val).returnCredits q.val f).mirFrame f
        else (s.fresh.qlAccepted q.val).qlFrame q.val f env := by
      rw [Dev.qlFrameRx_inSequence hc hw hh hseq, hf]
      exact if_neg (Nat.not_lt.mpr hroom)
    refine ⟨fun h6 hd => hgo ((hrx.trans (if_pos h6)).trans (Dev.mirFrame_taken hc hd)),
      fun h6 hd => hgo ((hrx.trans (if_pos h6)).trans (Dev.mirFrame_other hc hd)), fun h6 ht => ?_, fun h6 ht hdup => ?_,
      fun h6 ht hdup hd => ⟨fun httl => ?_, fun p httl hr hup => ?_⟩, fun h6 ht hdup hd => ?_⟩
    · exact hgo ((hrx.trans (if_neg h6)).trans (Dev.qlFrame_announce hc ht env))
    · exact hgo (((hrx.trans (if_neg h6)).trans (Dev.qlFrame_kept hc ht (Or.inl hdup) env)).trans (if_pos hdup))
    · exact hgo ((hrx.trans (if_neg h6)).trans (Dev.qlFrame_ttlOver (d := s.fresh) ht hdup hd hc httl env))
    · exact hgo ((hrx.trans (if_neg h6)).trans (Dev.qlFrame_passedOn (d := s.fresh) ht hdup hd httl hr hup env))
    · refine hgo (((hrx.trans (if_neg h6)).trans (Dev.qlFrame_kept hc (by omega) (Or.inr hd) env)).trans ?_)
      rw [if_neg (by rw [show (s.fresh.qlp q.val).dupId = false from hdup]; exact Bool.false_ne_true), ht]
      rfl

end Sys2Proof.Machine
end

section
/-! PROOFS. The words of QZ-Link and MIR, resending, and a link that goes down or comes up (R491 to R497, R561). -/

set_option Elab.async false

namespace Sys2Proof.Machine

namespace Dev

/-! ### ACK and CREDIT (R493, R495) -/

theorem ackRx_unknown {d : Dev} {q v : Nat} (h : ∀ y ∈ (d.qlp q).unacked, y.1 ≠ v % 4096) : (d.qlAckRx q v).qlp q = d.qlp q := by
  refine (qlp_modQl ..).trans (if_neg ?_)
  rw [List.any_eq_true]
  rintro ⟨y, hy, hn⟩
  exact h y hy (eq_of_beq hn)

/-- The frames before the acknowledged one in the list of the unacknowledged are those that a drop while another SEQ stands takes. -/
theorem dropWhile_before {α : Type} {l : List (Nat × α)} {n : Nat} (h : ∀ y ∈ l, y.1 ≠ n) (a : α) (r : List (Nat × α)) :
    ((l ++ (n, a) :: r).dropWhile (fun y => y.1 != n)).drop 1 = r := by
  rw [List.dropWhile_append_of_pos fun y hy => bne_iff_ne.mpr (h y hy), List.dropWhile_cons_of_neg (by simp)]
  rfl

theorem ackRx_known {d : Dev} {q v : Nat} {l r : List (Nat × QlFrame)} {f : QlFrame}
    (h : (d.qlp q).unacked = l ++ (v % 4096, f) :: r) (hl : ∀ y ∈ l, y.1 ≠ v % 4096) :
    (d.qlAckRx q v).qlp q = { d.qlp q with unacked := r, resends := 0 } := by
  refine (qlp_modQl ..).trans ((if_pos ?_).trans ?_)
  · rw [h, List.any_eq_true]
    exact ⟨(v % 4096, f), by simp, beq_self_eq_true _⟩
  · rw [h, dropWhile_before hl]

/-- What CREDIT makes of the credits of its class and of the wait for them. -/
theorem creditRx_port (d : Dev) (q v : Nat) : ∃ late : Bool, (d.creditRx q v).qlp q =
    if (d.qlp q).credits.get 128 (bits v 15 13) + v % 8192 < (d.qlp q).waitNeed.get 0 (bits v 15 13) then
      { d.qlp q with
        credits := (d.qlp q).credits.set 128 (bits v 15 13) ((d.qlp q).credits.get 128 (bits v 15 13) + v % 8192)
        creditWait := late }
    else
      { d.qlp q with
        credits := (d.qlp q).credits.set 128 (bits v 15 13) ((d.qlp q).credits.get 128 (bits v 15 13) + v % 8192)
        creditWait := late, waitSince := (d.qlp q).waitSince.del (bits v 15 13)
        waitNeed := (d.qlp q).waitNeed.del (bits v 15 13) } := ⟨_, qlp_modQl ..⟩

theorem creditRx_credits (d : Dev) (q v : Nat) : ((d.creditRx q v).qlp q).credits =
    (d.qlp q).credits.set 128 (bits v 15 13) ((d.qlp q).credits.get 128 (bits v 15 13) + v % 8192) := by
  obtain ⟨late, h⟩ := creditRx_port d q v
  rw [h]
  split <;> rfl

theorem creditRx_unacked (d : Dev) (q v : Nat) : ((d.creditRx q v).qlp q).unacked = (d.qlp q).unacked := by
  obtain ⟨late, h⟩ := creditRx_port d q v
  rw [h]
  split <;> rfl

theorem creditRx_suffices {d : Dev} {q v : Nat}
    (hn : (d.qlp q).waitNeed.get 0 (bits v 15 13) ≤ (d.qlp q).credits.get 128 (bits v 15 13) + v % 8192) :
    ((d.creditRx q v).qlp q).waitSince.find (bits v 15 13) = none := by
  obtain ⟨late, h⟩ := creditRx_port d q v
  rw [h, if_neg (Nat.not_lt.mpr hn)]
  exact SMap.find_del_self ..

theorem creditRx_short {d : Dev} {q v : Nat}
    (hn : (d.qlp q).credits.get 128 (bits v 15 13) + v % 8192 < (d.qlp q).waitNeed.get 0 (bits v 15 13)) :
    ((d.creditRx q v).qlp q).waitSince = (d.qlp q).waitSince := by
  obtain ⟨late, h⟩ := creditRx_port d q v
  rw [h, if_pos hn]

/-! ### Resending (R493) -/

theorem resend_nothing {d : Dev} {q : Nat} (h : (d.qlp q).unacked = [] ∨ 8 ≤ (d.qlp q).resends ∨ carries (d.qlp q) = false) :
    d.resend q = d := by
  refine if_pos ?_
  rwa [List.isEmpty_iff, Bool.not_eq_true]

/-- The state in which the frames are sent again: one more resend is counted. -/
def resendStart (d : Dev) (q : Nat) : Dev :=
  let d := (d.modQl q (fun x => { x with resends := x.resends + 1 })).bumpQl q Cnt.QL_REPLAY
  if q = 6 then { d with pair := { d.pair with ochre := { d.pair.ochre with mirNow := d.pair.ochre.mirNow + 1 } } } else d

theorem resendStart_links (d : Dev) (q : Nat) :
    (d.resendStart q).links = (d.modQl q (fun x => { x with resends := x.resends + 1 })).links := by
  unfold resendStart
  dsimp only
  split <;> exact bumpQl_links ..

theorem resendStart_out (d : Dev) (q : Nat) : (d.resendStart q).out = d.out := by
  unfold resendStart
  dsimp only
  split <;> exact bumpQl_out ..

theorem resend_again {d : Dev} {q : Nat} (hu : (d.qlp q).unacked ≠ []) (hr : (d.qlp q).resends < 8)
    (hc : carries (d.qlp q) = true) :
    d.resend q = (d.qlp q).unacked.foldl (fun (d : Dev) y => d.sendFrame q y.2 y.1) (d.resendStart q) := by
  refine if_neg ?_
  rw [List.isEmpty_iff, hc]
  rintro (h | h | h)
  · exact hu h
  · omega
  · exact h rfl

/-- Things sent one after another stand in the output in that order. -/
theorem emitAll_out {α : Type} (op : Dev → α → Dev) (o : α → Output) (hout : ∀ d x, (op d x).out = d.out ++ [o x])
    (xs : List α) (d : Dev) : (xs.foldl op d).out = d.out ++ xs.map o := by
  induction xs generalizing d with
  | nil => exact (List.append_nil _).symm
  | cons x xs ih => rw [List.foldl_cons, ih, hout, List.map_cons, List.append_assoc]; rfl

theorem foldl_keeps {α : Type} {β : Sort*} (g : Dev → β) {op : Dev → α → Dev} (h : ∀ d x, g (op d x) = g d) (xs : List α) (d : Dev) :
    g (xs.foldl op d) = g d := by
  induction xs generalizing d with
  | nil => rfl
  | cons x xs ih => rw [List.foldl_cons, ih, h]

/-! ### A link goes down (R494) -/

theorem each_keeps {α : Sort*} (g : Dev → α) {op : Dev → Nat → Dev} (h : ∀ d x, g (op d x) = g d) (xs : List Nat) (d : Dev) :
    g (d.each xs op) = g d := foldl_keeps g h xs d

/-- What of a port only the frames of other ports decide: everything but its waiting transit frames and the units of its receive
buffer. -/
def ownOf (x : QlPort) : QlPort := { x with transit := [], rxUsed := [], credDue := [] }

theorem ownOf_leaveBuffer (d : Dev) (f : QlFrame) (p : Nat) : ownOf ((d.leaveBuffer f).qlp p) = ownOf (d.qlp p) := by
  unfold leaveBuffer
  cases f.rx with
  | none => rfl
  | some r =>
    dsimp only
    unfold returnCredits
    split
    · exact (congrArg ownOf (qlp_sendWord ..)).trans (modQl_keeps ownOf (by intro x; rfl) d r p)
    · exact (modQl_keeps ownOf (by intro x; rfl) _ r p).trans (modQl_keeps ownOf (by intro x; rfl) d r p)

/-- The waiting transit frames of a port no longer name port q as the one they came in on. -/
def forget (q : Nat) (x : QlPort) : QlPort := { x with
  transit := x.transit.mapAll [] (fun _ l => l.map (fun f => if f.rx = some q then { f with rx := none } else f)) }

theorem ownOf_forgetRx (d : Dev) (q p : Nat) : ownOf ((d.forgetRx q).qlp p) = ownOf (d.qlp p) := by
  have h (a : Dev) (r : Nat) : ownOf ((a.modQl r (forget q)).qlp p) = ownOf (a.qlp p) := modQl_keeps ownOf (by intro x; rfl) a r p
  have heq : d.forgetRx q = d.each (List.range 6) (fun d r => d.modQl r (forget q)) := rfl
  rw [heq]
  exact each_keeps (fun a => ownOf (a.qlp p)) h _ d

theorem ownOf_leaveAll (fs : List QlFrame) (d : Dev) (p : Nat) :
    ownOf ((fs.foldl (fun (d : Dev) f => d.leaveBuffer f) d).qlp p) = ownOf (d.qlp p) := by
  induction fs generalizing d with
  | nil => rfl
  | cons f fs ih => rw [List.foldl_cons, ih, ownOf_leaveBuffer]

theorem follow_ql (d : Dev) : d.follow.links.ql = d.links.ql := by
  unfold follow
  dsimp only
  split
  · split <;> rfl
  · rfl

theorem qlp_refreshRoot (d : Dev) (p : Nat) : d.refreshRoot.qlp p = d.qlp p := by
  unfold refreshRoot qlp
  rw [follow_ql]

theorem qlp_linkEvent (d : Dev) (p : Nat) : d.linkEvent.qlp p = d.qlp p := (qlp_refreshRoot ..).trans (qlp_raise ..)

/-- A port whose link has gone down. -/
def fallen (x : QlPort) : QlPort := { x with
  up := false, level := 0, stepping := none, unacked := [], resends := 0, transit := [], ctrl := [], ackDue := false
  waitSince := [], waitNeed := [], creditWait := false, rxUsed := [], credDue := [] }

theorem linkDown_ports {d : Dev} {q : Nat} (h : (d.qlp q).up = true) : ∃ a : Dev, (∀ p, ownOf (a.qlp p) = ownOf (d.qlp p)) ∧
    d.linkDown q = ((a.modQl q fallen).bumpQl q Cnt.QL_RETRAIN).linkEvent := by
  refine ⟨_, fun p => ?_, if_neg (not_not.mpr h)⟩
  rw [ownOf_forgetRx, ownOf_leaveAll]
  split <;> simp only [qlp_bumpQl]

theorem linkDown_self {d : Dev} {q : Nat} (h : (d.qlp q).up = true) : ∃ x, (d.linkDown q).qlp q = fallen x := by
  obtain ⟨a, -, heq⟩ := linkDown_ports h
  exact ⟨a.qlp q, by rw [heq, qlp_linkEvent, qlp_bumpQl, qlp_modQl]⟩

theorem linkDown_other {d : Dev} {q p : Nat} (h : (d.qlp q).up = true) (hp : p ≠ q) :
    ownOf ((d.linkDown q).qlp p) = ownOf (d.qlp p) := by
  obtain ⟨a, ha, heq⟩ := linkDown_ports h
  rw [heq, qlp_linkEvent, qlp_bumpQl, qlp_modQl_ne a fallen hp, ha]

/-- A port is what only it decides with its transit frames and the units of its receive buffer. -/
theorem eq_of_ownOf {x y : QlPort} (h : ownOf x = ownOf y) :
    x = { y with transit := x.transit, rxUsed := x.rxUsed, credDue := x.credDue } := by
  have hx : x = { ownOf x with transit := x.transit, rxUsed := x.rxUsed, credDue := x.credDue } := rfl
  rw [h] at hx
  exact hx

/-! ### A link comes up (R494, R561) -/

theorem qlp_queueMir_ne (d : Dev) (type : Nat) (x : List Byte) {p : Nat} (hp : p ≠ 6) : (d.queueMir type x).qlp p = d.qlp p := by
  unfold queueMir
  dsimp only
  rw [qlp_modQl_ne _ _ hp]
  split <;> rfl

/-- A MIR frame that waits changes of port 6 the waiting frames alone. -/
theorem qlp_queueMir (d : Dev) (type : Nat) (x : List Byte) : ∃ f : QlFrame, f.type = type ∧ f.payload = x ∧
    (d.queueMir type x).qlp 6 = { d.qlp 6 with ctrl := (d.qlp 6).ctrl ++ [f] } := by
  unfold queueMir
  dsimp only
  split <;> exact ⟨_, rfl, rfl, qlp_modQl ..⟩

/-- What of a port only its frames that wait for MIR do not decide. -/
def beyondCtrl (x : QlPort) : QlPort := { x with ctrl := [] }

theorem beyondCtrl_queueMir (d : Dev) (type : Nat) (x : List Byte) (p : Nat) :
    beyondCtrl ((d.queueMir type x).qlp p) = beyondCtrl (d.qlp p) := by
  rcases eq_or_ne p 6 with rfl | hp
  · obtain ⟨f, -, -, h⟩ := qlp_queueMir d type x
    rw [h]
    rfl
  · rw [qlp_queueMir_ne d type x hp]

theorem sendRecord_keeps {β : Sort*} (g : Dev → β) (h : ∀ d type x, g (queueMir d type x) = g d) (d : Dev) (r : TxRec) :
    g (d.sendRecord r) = g d := foldl_keeps g (fun d _ => h d ..) _ d

theorem resendRecords_keeps {β : Sort*} (g : QlPort → β) (p : Nat) (h : ∀ d type x, g ((queueMir d type x).qlp p) = g (d.qlp p))
    (rs : List TxRec) (d : Dev) :
    g ((rs.foldl (fun (d : Dev) r => (d.sendRecord r).bump Cnt.RECORD_RESEND) d).qlp p) = g (d.qlp p) := by
  refine foldl_keeps (fun a => g (a.qlp p)) (fun a r => ?_) rs d
  rw [qlp_bump]
  exact sendRecord_keeps (fun a => g (a.qlp p)) h a r

theorem qlp_laneFail (d : Dev) (q : Nat) : (d.laneFail q).qlp q = { d.qlp q with lane1Fail := true } := by
  unfold laneFail
  split
  next h => rw [← h]
  next => rw [qlp_raise, qlp_modQl]

theorem qlp_laneFail_ne (d : Dev) {q p : Nat} (hp : p ≠ q) : (d.laneFail q).qlp p = d.qlp p := by
  unfold laneFail
  split
  · rfl
  · rw [qlp_raise, qlp_modQl_ne _ _ hp]

/-- The state in which a link has come up, before an Active device sends its records again. -/
def linkFresh (d : Dev) (q : Nat) (lane1 : Bool) : Dev :=
  let d := d.modQl q (fun _ => { up := true })
  (if lane1 then d else d.laneFail q).linkEvent

theorem qlp_linkFresh (d : Dev) (q : Nat) (lane1 : Bool) : (d.linkFresh q lane1).qlp q = { up := true, lane1Fail := !lane1 } := by
  unfold linkFresh
  rw [qlp_linkEvent]
  cases lane1 with
  | true => rw [if_pos rfl, qlp_modQl]; rfl
  | false => rw [if_neg Bool.false_ne_true, qlp_laneFail, qlp_modQl]; rfl

theorem qlp_linkFresh_ne (d : Dev) {q p : Nat} (lane1 : Bool) (hp : p ≠ q) : (d.linkFresh q lane1).qlp p = d.qlp p := by
  unfold linkFresh
  rw [qlp_linkEvent]
  cases lane1 with
  | true => rw [if_pos rfl, qlp_modQl_ne _ _ hp]
  | false => rw [if_neg Bool.false_ne_true, qlp_laneFail_ne _ hp, qlp_modQl_ne _ _ hp]

theorem linkUp_refused {d : Dev} {q : Nat} (h : (d.qlp q).up = true ∨ d.linkWanted q = false) (lane1 : Bool) :
    d.linkUp q lane1 = d := by
  refine if_pos ?_
  rwa [Bool.not_eq_true]

theorem linkUp_taken {d : Dev} {q : Nat} (h : (d.qlp q).up = false) (hw : d.linkWanted q = true) (lane1 : Bool) :
    d.linkUp q lane1 = if q = 6 ∧ (d.linkFresh q lane1).modes.redund = .active then
      (d.linkFresh q lane1).pair.unacked.foldl (fun (d : Dev) r => (d.sendRecord r).bump Cnt.RECORD_RESEND) (d.linkFresh q lane1)
    else d.linkFresh q lane1 := by
  refine if_neg ?_
  rw [h, hw]
  rintro (hx | hx)
  · exact Bool.noConfusion hx
  · exact hx rfl

theorem linkUp_self {d : Dev} {q : Nat} (h : (d.qlp q).up = false) (hw : d.linkWanted q = true) (lane1 : Bool) :
    beyondCtrl ((d.linkUp q lane1).qlp q) = { up := true, lane1Fail := !lane1 } := by
  rw [linkUp_taken h hw]
  split
  · rw [resendRecords_keeps beyondCtrl q (fun a type x => beyondCtrl_queueMir a type x q), qlp_linkFresh]
    rfl
  · rw [qlp_linkFresh]
    rfl

theorem linkUp_other {d : Dev} {q p : Nat} (h : (d.qlp q).up = false) (hw : d.linkWanted q = true) (lane1 : Bool) (hp : p ≠ q) :
    (d.linkUp q lane1).qlp p = d.qlp p := by
  rw [linkUp_taken h hw]
  split
  next h6 =>
    exact (resendRecords_keeps id p (fun a type x => qlp_queueMir_ne a type x (h6.1 ▸ hp)) _ _).trans
      (qlp_linkFresh_ne d lane1 hp)
  next => exact qlp_linkFresh_ne d lane1 hp

end Dev

end Sys2Proof.Machine
end

section
/-! PROOFS. Levels of a QZ-Link port and its transmit scheduler (R391, R493, R495 to R497). -/

set_option Elab.async false

namespace Sys2Proof.Machine

namespace Dev

/-! ### Levels (R496, R497) -/

theorem carries_iff_of_step {x : QlPort} (h : carries x = true) : x.up = true := by
  unfold carries at h
  exact (Bool.and_eq_true_iff.mp h).1

/-- The port once its level has been looked at: a step towards the wanted level begins where none runs. -/
def stepped (want : Nat) (x : QlPort) : QlPort :=
  if ¬ x.up = true ∨ x.stepping.isSome = true ∨ want = x.level then x
  else { x with stepping := some (if x.level < want then x.level + 1 else x.level - 1) }

theorem qlp_levelStep (d : Dev) (q : Nat) : (d.levelStep q).qlp q =
    stepped (clampN (d.minLevel q) (d.maxLevel q) (max (d.qlp q).reqOwn (d.qlp q).reqPeer)) (d.qlp q) := by
  unfold levelStep stepped
  dsimp only
  split
  · rfl
  · rw [qlp_bump, qlp_modQl]

theorem levelStep_out (d : Dev) (q : Nat) : (d.levelStep q).out = d.out := by
  unfold levelStep
  dsimp only
  split
  · rfl
  · exact bump_out ..

theorem stepped_keeps {α : Sort*} (g : QlPort → α) (h : ∀ (x : QlPort) (a : Option Nat), g { x with stepping := a } = g x) (want : Nat)
    (x : QlPort) : g (stepped want x) = g x := by
  unfold stepped
  split
  · rfl
  · exact h ..

theorem stepped_running {x : QlPort} {t : Nat} (h : x.stepping = some t) (want : Nat) : (stepped want x).stepping = some t := by
  unfold stepped
  rw [if_pos (Or.inr (Or.inl (by rw [h]; rfl))), h]

theorem stepped_begins {x : QlPort} (hup : x.up = true) (h : x.stepping = none) (want : Nat) : (stepped want x).stepping =
    if want = x.level then none else some (if x.level < want then x.level + 1 else x.level - 1) := by
  unfold stepped
  rw [hup, h]
  by_cases hw : want = x.level
  · rw [if_pos (Or.inr (Or.inr hw)), if_pos hw, h]
  · rw [if_neg hw, if_neg (by rintro (hx | hx | hx); exacts [hx rfl, Bool.noConfusion hx, hw hx])]

theorem maxLevel_modQl (d : Dev) {f : QlPort → QlPort} (h : ∀ x, (f x).lane1Fail = x.lane1Fail) (q : Nat) :
    (d.modQl q f).maxLevel q = d.maxLevel q := by
  unfold maxLevel
  rw [qlp_modQl, h]
  rfl

theorem minLevel_modQl (d : Dev) {f : QlPort → QlPort} (h : ∀ x, (f x).lane1Fail = x.lane1Fail) (q : Nat) :
    (d.modQl q f).minLevel q = d.minLevel q := by
  unfold minLevel
  rw [maxLevel_modQl d h]
  rfl

theorem qlp_levelRx (d : Dev) (q v : Nat) : (d.levelRx q v).qlp q =
    stepped (clampN (d.minLevel q) (d.maxLevel q) (max (d.qlp q).reqOwn (min 2 (v % 4)))) { d.qlp q with reqPeer := min 2 (v % 4) } := by
  unfold levelRx
  rw [qlp_levelStep, minLevel_modQl d (by intro x; rfl), maxLevel_modQl d (by intro x; rfl), qlp_modQl]

/-- The port at the end of a window, with its own request and what the window leaves for the next. -/
def windowed (own low : Nat) (since : Option Nat) (x : QlPort) : QlPort :=
  { x with reqOwn := own, low := low, winOctets := 0, creditWait := false, sinceDown := since }

/-- The window's request goes out where the link carries words. -/
def requestLevel (d : Dev) (q : Nat) : Dev := if carries (d.qlp q) then d.sendWord q 4 (d.qlp q).reqOwn else d

theorem levelWindow_port {d : Dev} {q : Nat} (h : (d.qlp q).up = true) : ∃ own low since,
    (min 100 (d.cfg.QL_CFG_UP_PCT q) * levelOctets (d.qlp q).level < 100 * (d.qlp q).winOctets →
      own = clampN (d.minLevel q) (d.maxLevel q) ((d.qlp q).level + 1)) ∧
    d.levelWindow q = ((d.modQl q (windowed own low since)).requestLevel q).levelStep q :=
  ⟨_, _, _, fun hb => congrArg (clampN _ _) (if_pos (by rw [decide_eq_true hb]; rfl)), if_neg (not_not.mpr h)⟩

theorem qlp_requestLevel (d : Dev) (q p : Nat) : (d.requestLevel q).qlp p = d.qlp p := by
  unfold requestLevel
  split <;> rfl

theorem requestLevel_out (d : Dev) (q : Nat) : (d.requestLevel q).out =
    d.out ++ if carries (d.qlp q) = true then [qlOut q (le 1 4 ++ le 2 (d.qlp q).reqOwn)] else [] := by
  unfold requestLevel
  split
  · rfl
  · exact (List.append_nil _).symm

/-- What the end of a window leaves of the port, and what it sends. -/
theorem levelWindow_rule {d : Dev} {q : Nat} (h : (d.qlp q).up = true) :
    ((d.levelWindow q).qlp q).winOctets = 0 ∧ ((d.levelWindow q).qlp q).creditWait = false ∧
    ((d.levelWindow q).qlp q).level = (d.qlp q).level ∧
    (d.levelWindow q).out = d.out ++
      (if carries (d.qlp q) = true then [qlOut q (le 1 4 ++ le 2 ((d.levelWindow q).qlp q).reqOwn)] else []) ∧
    (min 100 (d.cfg.QL_CFG_UP_PCT q) * levelOctets (d.qlp q).level < 100 * (d.qlp q).winOctets →
      ((d.levelWindow q).qlp q).reqOwn = clampN (d.minLevel q) (d.maxLevel q) ((d.qlp q).level + 1)) := by
  obtain ⟨own, low, since, hown, heq⟩ := levelWindow_port h
  have hkeep {α : Type} (g : QlPort → α) (hg : ∀ (x : QlPort) (a : Option Nat), g { x with stepping := a } = g x) :
      g ((d.levelWindow q).qlp q) = g (windowed own low since (d.qlp q)) := by
    rw [heq, qlp_levelStep, stepped_keeps g hg, qlp_requestLevel, qlp_modQl]
  have hreq : ((d.levelWindow q).qlp q).reqOwn = own := hkeep QlPort.reqOwn fun _ _ => rfl
  have hcarry : carries (windowed own low since (d.qlp q)) = carries (d.qlp q) := rfl
  refine ⟨hkeep QlPort.winOctets fun _ _ => rfl, hkeep QlPort.creditWait fun _ _ => rfl, hkeep QlPort.level fun _ _ => rfl, ?_,
    fun hb => hreq.trans (hown hb)⟩
  rw [hreq, heq, levelStep_out, requestLevel_out, qlp_modQl, hcarry]
  rfl

/-! ### The end of a step (R497) -/

/-- The step has ended and the credits that were due have gone out. -/
def stepWords (d : Dev) (q : Nat) : Dev :=
  (d.qlp q).credDue.foldl (fun (d : Dev) (y : Nat × Nat) => d.sendWord q 3 (y.1 % 8 * 8192 + y.2))
    (d.modQl q (fun x => { x with stepping := none, low := 0, winOctets := 0, credDue := [] }))

theorem qlp_stepWords (d : Dev) (q : Nat) : (d.stepWords q).qlp q =
    { d.qlp q with stepping := none, low := 0, winOctets := 0, credDue := [] } :=
  (qlp_congr (foldl_keeps Dev.links (op := fun (d : Dev) (y : Nat × Nat) => d.sendWord q 3 (y.1 % 8 * 8192 + y.2)) (fun _ _ => rfl) _ _) q).trans
    (qlp_modQl ..)

theorem stepWords_out (d : Dev) (q : Nat) : (d.stepWords q).out = d.out ++
    (d.qlp q).credDue.map (fun y => qlOut q (le 1 3 ++ le 2 (y.1 % 8 * 8192 + y.2))) :=
  emitAll_out _ (fun y : Nat × Nat => qlOut q (le 1 3 ++ le 2 (y.1 % 8 * 8192 + y.2))) (fun _ _ => rfl) _ _

theorem laneFail_out (d : Dev) (q : Nat) : (d.laneFail q).out = d.out := by
  unfold laneFail
  split
  · rfl
  · exact raise_out ..

theorem stepDone_none {d : Dev} {q : Nat} (h : (d.qlp q).stepping = none) (lane1 : Bool) : d.stepDone q lane1 = d := by
  unfold stepDone
  simp only [h]

theorem stepDone_some {d : Dev} {q t : Nat} (h : (d.qlp q).stepping = some t) (lane1 : Bool) : d.stepDone q lane1 =
    if t = 2 ∧ ¬ lane1 = true then (d.stepWords q).laneFail q
    else (d.stepWords q).modQl q (fun x => { x with level := t, sinceDown := if t < x.level then some 0 else none }) := by
  unfold stepDone
  simp only [h]
  rfl

/-! ### The transmit scheduler (R391, R493, R495) -/

theorem dropUnrouted_keeps {α : Sort*} (g : Dev → α) (hset : ∀ d n l, g (setQueue d n l) = g d) (hbump : ∀ d c, g (bump d c) = g d)
    (n k : Nat) (d : Dev) : g (dropUnrouted n k d) = g d := by
  induction k generalizing d with
  | zero => rfl
  | succ k ih =>
    rw [dropUnrouted]
    split
    · split
      · split
        · rw [ih, hset]
        · rfl
      · rfl
    · split
      · rw [ih, hbump, hset]
      · split
        · rfl
        · rw [ih, hbump, hset]

/-- The heads that no port serves have left the shelf queues. -/
def dropAll (d : Dev) : Dev :=
  d.each ((List.range 8).map (fun c => 7 - c)) (fun d c => d.each (d.shelfQueues c) (fun d n => dropUnrouted n (d.queue n).length d))

theorem dropAll_keeps {α : Sort*} (g : Dev → α) (hset : ∀ d n l, g (setQueue d n l) = g d) (hbump : ∀ d c, g (bump d c) = g d)
    (d : Dev) : g d.dropAll = g d :=
  each_keeps g (fun d _ => each_keeps g (fun d n => dropUnrouted_keeps g hset hbump n _ d) _ d) _ d

theorem schedule_idle {d : Dev} {q : Nat} (h : carries (d.qlp q) = false ∨ 2048 ≤ (d.qlp q).unacked.length) : d.schedule q = d := by
  refine if_pos ?_
  rwa [Bool.not_eq_true]

theorem tryClasses_sends {q : Nat} {g : Dev → Option (QlFrame × Dev)} {d a : Dev} {f : QlFrame} (hg : g d = some (f, a))
    (hf : f.units ≤ (d.qlp q).credits.get 128 f.cls) (gs : List (Dev → Option (QlFrame × Dev))) :
    tryClasses q (g :: gs) d = a.transmit q f := by
  rw [tryClasses, hg]
  exact if_pos hf

theorem qlp_transmit (d : Dev) (q : Nat) (f : QlFrame) : ∃ w s n, (d.transmit q f).qlp q = { d.qlp q with
    txSeq := ((d.qlp q).txSeq + 1) % 4096, unacked := (d.qlp q).unacked ++ [((d.qlp q).txSeq, f)]
    winOctets := w, credits := (d.qlp q).credits.set 128 f.cls ((d.qlp q).credits.get 128 f.cls - f.units)
    waitSince := s, waitNeed := n } := by
  unfold transmit
  exact ⟨_, _, _, by rw [qlp_sendFrame, qlp_bumpQl, qlp_modQl]⟩

theorem transmit_out (d : Dev) (q : Nat) (f : QlFrame) : (d.transmit q f).out = d.out ++ [qlOut q (f.octets (d.qlp q).txSeq)] := by
  unfold transmit
  rw [sendFrame_out, bumpQl_out]
  rfl

theorem schedule_mir {d : Dev} {f : QlFrame} {l : List QlFrame} (hc : carries (d.qlp 6) = true) (hu : (d.qlp 6).unacked.length < 2048)
    (hf : (d.qlp 6).ctrl = f :: l) (h7 : f.cls = 7) (hcred : f.units ≤ (d.qlp 6).credits.get 128 f.cls) :
    d.schedule 6 = (d.modQl 6 (fun x => { x with ctrl := x.ctrl.eraseIdx 0 })).transmit 6 f := by
  have hbusy := not_or.mpr ⟨not_not.mpr hc, Nat.not_le.mpr hu⟩
  refine ((if_neg hbusy).trans (if_pos rfl)).trans (tryClasses_sends ?_ hcred _)
  unfold mirNext
  have hidx : (d.qlp 6).ctrl.findIdx? (fun f => f.cls == 7) = some 0 := by
    rw [hf, List.findIdx?_cons, h7]
    rfl
  simp only [hidx]
  rw [hf]
  rfl

theorem leaveBuffer_none (d : Dev) {f : QlFrame} (h : f.rx = none) : d.leaveBuffer f = d := by
  unfold leaveBuffer
  rw [h]

theorem leaveBuffer_carried {d : Dev} {f : QlFrame} {r : Nat} (h : f.rx = some r) (hc : carries (d.qlp r) = true) :
    (d.leaveBuffer f).out = d.out ++ [qlOut r (le 1 3 ++ le 2 (f.cls % 8 * 8192 + f.units))] := by
  unfold leaveBuffer
  rw [h]
  dsimp only
  rw [returnCredits_carried ((modQl_keeps carries (by intro x; rfl) d r r).trans hc)]
  rfl

theorem classNext_transit {d : Dev} {q c : Nat} {f : QlFrame} {l : List QlFrame} (h : (d.qlp q).transit.get [] c = f :: l) :
    d.classNext q c = some ({ f with rx := none }, (d.modQl q (fun x => { x with transit := x.transit.set [] c l })).leaveBuffer f) := by
  unfold classNext
  rw [h]

/-- The state in which the oldest transit frame of class 7 has left the port's list and the receive buffer that held it. -/
def transitTaken (d : Dev) (q : Nat) (f : QlFrame) (l : List QlFrame) : Dev :=
  (d.modQl q (fun x => { x with transit := x.transit.set [] 7 l })).leaveBuffer f

theorem ownOf_transitTaken (d : Dev) (q : Nat) (f : QlFrame) (l : List QlFrame) :
    ownOf ((d.transitTaken q f l).qlp q) = ownOf (d.qlp q) := by
  refine (ownOf_leaveBuffer ..).trans ?_
  rw [qlp_modQl]
  rfl

theorem transitTaken_none (d : Dev) (q : Nat) {f : QlFrame} (h : f.rx = none) (l : List QlFrame) :
    (d.transitTaken q f l).out = d.out := by
  rw [transitTaken, leaveBuffer_none _ h]
  rfl

theorem transitTaken_carried {d : Dev} (q : Nat) {f : QlFrame} {r : Nat} (h : f.rx = some r) (hc : carries (d.qlp r) = true)
    (l : List QlFrame) : (d.transitTaken q f l).out = d.out ++ [qlOut r (le 1 3 ++ le 2 (f.cls % 8 * 8192 + f.units))] :=
  leaveBuffer_carried h ((modQl_keeps carries (by intro x; rfl) d q r).trans hc)

/-- Port q below 6 serves class 7 first, once the heads without a port are gone. -/
theorem schedule_port {d : Dev} {q : Nat} (hc : carries (d.qlp q) = true) (hu : (d.qlp q).unacked.length < 2048) (h6 : q ≠ 6) :
    ∃ gs, d.schedule q = tryClasses q ((fun d => d.classNext q 7) :: gs) d.dropAll :=
  ⟨_, (if_neg (not_or.mpr ⟨not_not.mpr hc, Nat.not_le.mpr hu⟩)).trans (if_neg h6)⟩

theorem schedule_transit {d : Dev} {q : Nat} {f : QlFrame} {l : List QlFrame} (hc : carries (d.qlp q) = true)
    (hu : (d.qlp q).unacked.length < 2048) (h6 : q ≠ 6) (hf : (d.qlp q).transit.get [] 7 = f :: l)
    (hcred : f.units ≤ (d.qlp q).credits.get 128 f.cls) :
    ∃ a : Dev, a.links = d.links ∧ a.out = d.out ∧ d.schedule q = (a.transitTaken q f l).transmit q { f with rx := none } := by
  obtain ⟨gs, hgs⟩ := schedule_port hc hu h6
  have hlinks : d.dropAll.links = d.links := dropAll_keeps (·.links) (fun _ _ _ => rfl) (fun _ _ => bump_links ..) d
  have hout : d.dropAll.out = d.out := dropAll_keeps (·.out) (fun _ _ _ => rfl) (fun _ _ => bump_out ..) d
  generalize d.dropAll = a at hgs hlinks hout
  refine ⟨a, hlinks, hout, hgs.trans ?_⟩
  rw [← qlp_congr hlinks] at hf hcred
  exact tryClasses_sends (g := fun d => d.classNext q 7) (f := { f with rx := none }) (classNext_transit hf) hcred gs

end Dev

end Sys2Proof.Machine
end

section
/-! PROOFS. QZ-Link and MIR ports: the statement (R491 to R497, R501, R551). -/

set_option Elab.async false

namespace Sys2Proof.Machine

/-! ### Words (R493, R495) -/

theorem qlAckRx_rule {s : State} {q : Fin 7} (hc : Dev.carries (s.dev.qlp q.val) = true) (v : W16) :
    ∃ t, exec (.qlAckRx q 1 v) s = .next t ∧
      ((∀ y ∈ (s.dev.qlp q.val).unacked, y.1 ≠ v.toNat % 4096) → t.dev.qlp q.val = s.dev.qlp q.val) ∧
      (∀ l f r, (s.dev.qlp q.val).unacked = l ++ (v.toNat % 4096, f) :: r → (∀ y ∈ l, y.1 ≠ v.toNat % 4096) →
        t.dev.qlp q.val = { s.dev.qlp q.val with unacked := r, resends := 0 }) ∧
      (∀ p, p ≠ q.val → t.dev.qlp p = s.dev.qlp p) :=
  ⟨_, Dev.next_goes_congr (if_neg (not_not.mpr hc)), fun h => Dev.ackRx_unknown (d := s.fresh) h,
    fun _ _ _ h hl => Dev.ackRx_known (d := s.fresh) h hl, fun _ hp => Dev.qlp_modQl_ne s.fresh _ hp⟩

theorem qlAckRx_otherWord {s : State} {q : Fin 7} (hc : Dev.carries (s.dev.qlp q.val) = true) {d1 : Byte}
    (hd : 4 < d1.toNat ∨ d1 = 0) (h6 : q.val ≠ 6 ∨ d1 ≠ 0x10) (v : W16) :
    exec (.qlAckRx q d1 v) s = .next (s.goes (s.fresh.violate .VIO_QL_WORD [])) := by
  have hno : ¬ (q.val = 6 ∧ d1.toNat = 0x10) := by
    rintro ⟨hq, hb⟩
    rcases h6 with h | h
    · exact h hq
    · exact h (BitVec.eq_of_toNat_eq hb)
  have hne (n : Nat) (h1 : 1 ≤ n) (h4 : n ≤ 4) : d1.toNat ≠ n := by
    rcases hd with hd | rfl
    · omega
    · exact fun hx => by simp only [BitVec.ofNat_eq_ofNat, BitVec.toNat_ofNat] at hx; omega
  refine Dev.next_goes_congr ((if_neg (not_not.mpr hc)).trans ?_)
  generalize d1.toNat = n at hno hne
  split
  · exact absurd rfl (hne 1 (by decide) (by decide))
  · exact absurd rfl (hne 2 (by decide) (by decide))
  · exact absurd rfl (hne 3 (by decide) (by decide))
  · exact absurd rfl (hne 4 (by decide) (by decide))
  · exact if_neg hno

theorem qlCreditRx_rule {s : State} {q : Fin 7} (hc : Dev.carries (s.dev.qlp q.val) = true) (v : W16) :
    ∃ t, exec (.qlCreditRx q v) s = .next t ∧
      (t.dev.qlp q.val).credits.get 128 (bits v.toNat 15 13) =
        (s.dev.qlp q.val).credits.get 128 (bits v.toNat 15 13) + v.toNat % 8192 ∧
      ((s.dev.qlp q.val).waitNeed.get 0 (bits v.toNat 15 13) ≤ (t.dev.qlp q.val).credits.get 128 (bits v.toNat 15 13) →
        (t.dev.qlp q.val).waitSince.find (bits v.toNat 15 13) = none) ∧
      ((t.dev.qlp q.val).credits.get 128 (bits v.toNat 15 13) < (s.dev.qlp q.val).waitNeed.get 0 (bits v.toNat 15 13) →
        (t.dev.qlp q.val).waitSince = (s.dev.qlp q.val).waitSince) ∧
      (∀ c, c ≠ bits v.toNat 15 13 → (t.dev.qlp q.val).credits.get 128 c = (s.dev.qlp q.val).credits.get 128 c) ∧
      (t.dev.qlp q.val).unacked = (s.dev.qlp q.val).unacked ∧ s.dev.sameBut [.out, .links] t.dev := by
  have hcr := Dev.creditRx_credits s.fresh q.val v.toNat
  have hget : ((s.fresh.creditRx q.val v.toNat).qlp q.val).credits.get 128 (bits v.toNat 15 13) =
      (s.fresh.qlp q.val).credits.get 128 (bits v.toNat 15 13) + v.toNat % 8192 := by
    rw [hcr, SMap.get_set_self]
  refine ⟨_, Dev.next_goes_congr (if_pos hc), hget, fun h => ?_, fun h => ?_, fun c hne => ?_,
    Dev.creditRx_unacked s.fresh q.val v.toNat,
    State.sameBut_of_leaves rfl (Dev.leaves_creditRx (us := [.out, .links]) (.refl _ s.fresh) q.val v.toNat rfl)⟩
  · exact Dev.creditRx_suffices (d := s.fresh) (h.trans_eq hget)
  · exact Dev.creditRx_short (d := s.fresh) (hget.symm.trans_lt h)
  · exact (congrArg (fun m => SMap.get m 128 c) hcr).trans (SMap.get_set_ne _ 128 _ hne)

/-! ### Resending and acknowledging (R493) -/

theorem qlResend_idle {s : State} {q : Fin 7}
    (h : (s.dev.qlp q.val).unacked = [] ∨ 8 ≤ (s.dev.qlp q.val).resends ∨ Dev.carries (s.dev.qlp q.val) = false) :
    exec (.qlReplayTimeout q) s = .next (s.goes s.fresh) ∧ ∀ v, exec (.qlNakRx q v) s = .next (s.goes s.fresh) := by
  have hres : s.fresh.resend q.val = s.fresh := Dev.resend_nothing (d := s.fresh) h
  exact ⟨Dev.next_goes_congr hres, fun v => Dev.next_goes_congr ((congrArg (fun a => ite _ a _) hres).trans (ite_self _))⟩

theorem qlResend_rule {s : State} {q : Fin 7} (hu : (s.dev.qlp q.val).unacked ≠ []) (hr : (s.dev.qlp q.val).resends < 8)
    (hc : Dev.carries (s.dev.qlp q.val) = true) : ∃ t, exec (.qlReplayTimeout q) s = .next t ∧
      t.dev.out = (s.dev.qlp q.val).unacked.map (fun y => qlOut q.val (y.2.octets y.1)) ∧
      t.dev.qlp q.val = { s.dev.qlp q.val with resends := (s.dev.qlp q.val).resends + 1 } ∧
      ∀ v, exec (.qlNakRx q v) s = .next t := by
  have hres := Dev.resend_again (d := s.fresh) hu hr hc
  have hlinks := Dev.foldl_keeps Dev.links (op := fun (d : Dev) (y : Nat × QlFrame) => d.sendFrame q.val y.2 y.1) (fun _ _ => rfl)
    (s.dev.qlp q.val).unacked (s.fresh.resendStart q.val)
  refine ⟨_, Dev.next_goes_congr hres, ?_, ?_, fun v => Dev.next_goes_congr ((if_pos hc).trans hres)⟩
  · refine (Dev.emitAll_out _ (fun y : Nat × QlFrame => qlOut q.val (y.2.octets y.1)) (fun _ _ => rfl) _ _).trans ?_
    rw [Dev.resendStart_out]
    rfl
  · exact (Dev.qlp_congr (hlinks.trans (Dev.resendStart_links ..)) q.val).trans (Dev.qlp_modQl ..)

theorem qlAckSend_rule {s : State} {q : Fin 7} (ha : (s.dev.qlp q.val).ackDue = true)
    (hc : Dev.carries (s.dev.qlp q.val) = true) : ∃ t, exec (.qlAckSend q) s = .next t ∧ (t.dev.qlp q.val).ackDue = false ∧
      t.dev.out = [qlOut q.val (le 1 1 ++ le 2 (((s.dev.qlp q.val).rxSeq + 4095) % 4096))] ∧
      s.dev.sameBut [.out, .links] t.dev := by
  refine ⟨_, Dev.next_goes_congr (if_pos (Bool.and_eq_true_iff.mpr ⟨ha, hc⟩)), ?_, rfl, ?_⟩
  · exact congrArg QlPort.ackDue (Dev.qlp_modQl s.fresh q.val (fun x => { x with ackDue := false }))
  · refine State.sameBut_of_leaves rfl (us := [.out, .links]) ?_
    exact Dev.leaves_sendWord (Dev.leaves_modQl (.refl _ s.fresh) q.val (fun x => { x with ackDue := false }) rfl) _ _ _ rfl

/-! ### A link goes down or comes up (R494) -/

theorem qlLinkDown_rule {s : State} {q : Fin 7} (h : (s.dev.qlp q.val).up = true) :
    ∃ t, exec (.qlLinkDown q) s = .next t ∧ (t.dev.qlp q.val).up = false ∧ (t.dev.qlp q.val).unacked = [] ∧
      (t.dev.qlp q.val).transit = [] ∧ (t.dev.qlp q.val).ctrl = [] ∧ (t.dev.qlp q.val).level = 0 ∧
      (t.dev.qlp q.val).rxUsed = [] ∧
      (∀ p, p ≠ q.val → t.dev.qlp p = { s.dev.qlp p with
        transit := (t.dev.qlp p).transit, rxUsed := (t.dev.qlp p).rxUsed, credDue := (t.dev.qlp p).credDue }) ∧
      s.dev.sameBut [.out, .freeCtr, .cnt, .ev, .links] t.dev := by
  obtain ⟨x, hx⟩ := Dev.linkDown_self (d := s.fresh) h
  have hf {α : Type} (g : QlPort → α) : g ((s.fresh.linkDown q.val).qlp q.val) = g (Dev.fallen x) := congrArg g hx
  exact ⟨s.goes (s.fresh.linkDown q.val), rfl, hf QlPort.up, hf QlPort.unacked, hf QlPort.transit, hf QlPort.ctrl,
    hf QlPort.level, hf QlPort.rxUsed, fun p hp => Dev.eq_of_ownOf (Dev.linkDown_other (d := s.fresh) h hp),
    State.sameBut_of_leaves rfl (Dev.leaves_linkDown (us := [.out, .freeCtr, .cnt, .ev, .links]) (.refl _ s.fresh) q.val rfl)⟩

theorem qlLinkUp_rule {s : State} {q : Fin 7} (lane1 : Bool) :
    ((s.dev.qlp q.val).up = true ∨ s.dev.linkWanted q.val = false → exec (.qlLinkUp q lane1) s = .next (s.goes s.fresh)) ∧
    ((s.dev.qlp q.val).up = false → s.dev.linkWanted q.val = true → ∃ t, exec (.qlLinkUp q lane1) s = .next t ∧
      (t.dev.qlp q.val).up = true ∧ (t.dev.qlp q.val).txSeq = 0 ∧ (t.dev.qlp q.val).rxSeq = 0 ∧
      (t.dev.qlp q.val).credits = [] ∧ (t.dev.qlp q.val).lane1Fail = !lane1 ∧
      ∀ p, p ≠ q.val → t.dev.qlp p = s.dev.qlp p) := by
  refine ⟨fun h => Dev.next_goes_congr (Dev.linkUp_refused (d := s.fresh) h lane1), fun h hw => ?_⟩
  have hself := Dev.linkUp_self (d := s.fresh) h hw lane1
  have hf {α : Type} (g : QlPort → α) := congrArg g hself
  exact ⟨s.goes (s.fresh.linkUp q.val lane1), rfl, hf QlPort.up, hf QlPort.txSeq, hf QlPort.rxSeq, hf QlPort.credits,
    hf QlPort.lane1Fail, fun p hp => Dev.linkUp_other (d := s.fresh) h hw lane1 hp⟩

/-! ### The scheduler (R391) -/

theorem qlTxSchedule_rule {s : State} {q : Fin 7} {f : QlFrame} {l : List QlFrame} (hc : Dev.carries (s.dev.qlp q.val) = true)
    (hu : (s.dev.qlp q.val).unacked.length < 2048) (hmir : q.val = 6 → (s.dev.qlp q.val).ctrl = f :: l ∧ f.cls = 7)
    (hport : q.val ≠ 6 → (s.dev.qlp q.val).transit.get [] 7 = f :: l) (hcred : f.units ≤ (s.dev.qlp q.val).credits.get 128 f.cls) :
    ∃ t, exec (.qlTxSchedule q) s = .next t ∧
      (f.rx = none ∨ q.val = 6 → t.dev.out = [qlOut q.val (f.octets (s.dev.qlp q.val).txSeq)]) ∧
      (∀ r, f.rx = some r → q.val ≠ 6 → Dev.carries (s.dev.qlp r) = true → t.dev.out =
        [qlOut r (le 1 3 ++ le 2 (f.cls % 8 * 8192 + f.units)), qlOut q.val (f.octets (s.dev.qlp q.val).txSeq)]) ∧
      (t.dev.qlp q.val).txSeq = ((s.dev.qlp q.val).txSeq + 1) % 4096 ∧
      (t.dev.qlp q.val).unacked = (s.dev.qlp q.val).unacked ++
        [((s.dev.qlp q.val).txSeq, if q.val = 6 then f else { f with rx := none })] ∧
      (t.dev.qlp q.val).credits.get 128 f.cls = (s.dev.qlp q.val).credits.get 128 f.cls - f.units := by
  by_cases h6 : q.val = 6
  · obtain ⟨hf, h7⟩ := hmir h6
    rw [h6] at hc hu hf hcred
    have hgo : s.fresh.schedule q.val = _ := (congrArg s.fresh.schedule h6).trans (Dev.schedule_mir (d := s.fresh) hc hu hf h7 hcred)
    generalize hb : s.fresh.modQl 6 (fun x => { x with ctrl := x.ctrl.eraseIdx 0 }) = b at hgo
    have hq : b.qlp 6 = { s.dev.qlp 6 with ctrl := (s.dev.qlp 6).ctrl.eraseIdx 0 } := hb ▸ Dev.qlp_modQl ..
    have hout : b.out = [] := hb ▸ rfl
    obtain ⟨w, since, n, hp⟩ := Dev.qlp_transmit b 6 f
    refine ⟨s.goes (b.transmit 6 f), Dev.next_goes_congr hgo, fun _ => ?_, fun r _ hx => absurd h6 hx, ?_, ?_, ?_⟩
    · rw [h6]
      exact (Dev.transmit_out ..).trans (by rw [hout, hq]; rfl)
    · rw [h6]
      exact (congrArg QlPort.txSeq hp).trans (by rw [hq])
    · rw [h6, if_pos rfl]
      exact (congrArg QlPort.unacked hp).trans (by rw [hq])
    · rw [h6]
      exact (congrArg (fun x : QlPort => x.credits.get 128 f.cls) hp).trans ((SMap.get_set_self ..).trans (by rw [hq]))
  · obtain ⟨a, hlinks, haout, hgo⟩ := Dev.schedule_transit (d := s.fresh) hc hu h6 (hport h6) hcred
    have hown : Dev.ownOf ((a.transitTaken q.val f l).qlp q.val) = Dev.ownOf (s.dev.qlp q.val) :=
      (Dev.ownOf_transitTaken ..).trans (congrArg Dev.ownOf (Dev.qlp_congr hlinks q.val))
    have hf {α : Type} (g : QlPort → α) := congrArg g hown
    have hseq : ((a.transitTaken q.val f l).qlp q.val).txSeq = (s.dev.qlp q.val).txSeq := hf QlPort.txSeq
    have hun : ((a.transitTaken q.val f l).qlp q.val).unacked = (s.dev.qlp q.val).unacked := hf QlPort.unacked
    have hcr : ((a.transitTaken q.val f l).qlp q.val).credits = (s.dev.qlp q.val).credits := hf QlPort.credits
    obtain ⟨w, since, n, hp⟩ := Dev.qlp_transmit (a.transitTaken q.val f l) q.val { f with rx := none }
    have hout := Dev.transmit_out (a.transitTaken q.val f l) q.val { f with rx := none }
    rw [hseq] at hout
    refine ⟨s.goes _, Dev.next_goes_congr hgo, fun h => ?_, fun r hr _ hcr => ?_, ?_, ?_, ?_⟩
    · refine hout.trans ?_
      rw [Dev.transitTaken_none a q.val (h.resolve_right h6), haout]
      rfl
    · refine hout.trans ?_
      rw [Dev.transitTaken_carried q.val hr ((congrArg Dev.carries (Dev.qlp_congr hlinks r)).trans hcr), haout]
      rfl
    · exact (congrArg QlPort.txSeq hp).trans (by rw [hseq])
    · rw [if_neg h6]
      exact (congrArg QlPort.unacked hp).trans (by rw [hun, hseq])
    · exact (congrArg (fun x : QlPort => x.credits.get 128 f.cls) hp).trans ((SMap.get_set_self ..).trans (by rw [hcr]; rfl))

/-! ### Levels (R496, R497) -/

theorem qlLevelRx_rule {s : State} {l : Fin 6} {v : W16} {want : Nat} (hc : Dev.carries (s.dev.qlp l.val) = true)
    (hw : clampN (s.dev.minLevel l.val) (s.dev.maxLevel l.val) (max (s.dev.qlp l.val).reqOwn (min 2 (v.toNat % 4))) = want) :
    ∃ t, exec (.qlLevelRx l v) s = .next t ∧ (t.dev.qlp l.val).reqPeer = min 2 (v.toNat % 4) ∧
      (t.dev.qlp l.val).level = (s.dev.qlp l.val).level ∧
      (∀ x, (s.dev.qlp l.val).stepping = some x → (t.dev.qlp l.val).stepping = some x) ∧
      ((s.dev.qlp l.val).stepping = none → (t.dev.qlp l.val).stepping =
        if want = (s.dev.qlp l.val).level then none
        else some (if (s.dev.qlp l.val).level < want then (s.dev.qlp l.val).level + 1 else (s.dev.qlp l.val).level - 1)) := by
  have hp : (s.fresh.levelRx l.val v.toNat).qlp l.val =
      Dev.stepped want { s.dev.qlp l.val with reqPeer := min 2 (v.toNat % 4) } := (Dev.qlp_levelRx ..).trans (congrArg (Dev.stepped · _) hw)
  refine ⟨_, Dev.next_goes_congr (if_pos hc), ?_, ?_, fun x hx => ?_, fun hx => ?_⟩
  · exact (congrArg QlPort.reqPeer hp).trans (Dev.stepped_keeps QlPort.reqPeer (fun _ _ => rfl) _ _)
  · exact (congrArg QlPort.level hp).trans (Dev.stepped_keeps QlPort.level (fun _ _ => rfl) _ _)
  · exact (congrArg QlPort.stepping hp).trans (Dev.stepped_running (x := { s.dev.qlp l.val with reqPeer := min 2 (v.toNat % 4) }) hx want)
  · exact (congrArg QlPort.stepping hp).trans (Dev.stepped_begins (x := { s.dev.qlp l.val with reqPeer := min 2 (v.toNat % 4) })
      (Dev.carries_iff_of_step hc) hx want)

theorem qlStepDone_rule {s : State} {l : Fin 6} {lane1 : Bool} {x : Nat} (h : (s.dev.qlp l.val).stepping = some x) :
    ∃ t, exec (.qlStepDone l lane1) s = .next t ∧ (t.dev.qlp l.val).stepping = none ∧ (t.dev.qlp l.val).credDue = [] ∧
      t.dev.out = (s.dev.qlp l.val).credDue.map (fun y => qlOut l.val (le 1 3 ++ le 2 (y.1 % 8 * 8192 + y.2))) ∧
      (x ≠ 2 ∨ lane1 = true → (t.dev.qlp l.val).level = x) ∧
      (x = 2 → lane1 = false → (t.dev.qlp l.val).level = (s.dev.qlp l.val).level ∧
        (t.dev.qlp l.val).lane1Fail = true) := by
  have heq := Dev.stepDone_some (d := s.fresh) h lane1
  have hw := Dev.qlp_stepWords s.fresh l.val
  have hwo := Dev.stepWords_out s.fresh l.val
  by_cases hfail : x = 2 ∧ ¬ lane1 = true
  · rw [if_pos hfail] at heq
    have hp := Dev.qlp_laneFail (s.fresh.stepWords l.val) l.val
    rw [hw] at hp
    have hf {α : Type} (g : QlPort → α) := congrArg g hp
    refine ⟨_, Dev.next_goes_congr heq, hf QlPort.stepping, hf QlPort.credDue, (Dev.laneFail_out ..).trans hwo, fun hx => ?_,
      fun _ _ => ⟨hf QlPort.level, hf QlPort.lane1Fail⟩⟩
    exact absurd hfail (by rintro ⟨h2, h1⟩; exact hx.elim (· h2) h1)
  · rw [if_neg hfail] at heq
    have hp := Dev.qlp_modQl (s.fresh.stepWords l.val) l.val
      (fun y => { y with level := x, sinceDown := if x < y.level then some 0 else none })
    rw [hw] at hp
    exact ⟨_, Dev.next_goes_congr heq, congrArg QlPort.stepping hp, congrArg QlPort.credDue hp, hwo,
      fun _ => congrArg QlPort.level hp,
      fun h2 h1 => absurd ⟨h2, fun hx => Bool.noConfusion (h1.symm.trans hx)⟩ hfail⟩

/-- Settles O18: each frame, word and timeout is taken apart by the state of its port; frames go by the order of R492, words by
what they do to the credits and the unacknowledged frames. -/
theorem qlFramesAndWordsMoveTheirPort : Obligations.QlFramesAndWordsMoveTheirPort := by
  intro s q
  have hgo {a b : Dev} (hab : a = b) : Host.Outcome.next (s.goes a) = .next (s.goes b) := Dev.next_goes_congr hab
  refine ⟨fun h => ?_, qlSilent, fun hc => ?_, qlLinkDown_rule, qlResend_idle, qlResend_rule, fun h => ?_, qlAckSend_rule,
    qlLinkUp_rule, fun h => hgo (Dev.schedule_idle (d := s.fresh) h), fun f l => qlTxSchedule_rule, fun l v want => ?_⟩
  · exact hgo (if_pos fun hx => Bool.noConfusion (h.symm.trans hx))
  · obtain ⟨htorn, hheader, hseq, hcredit, htaken⟩ := qlReceives hc
    exact ⟨htorn, hheader, hseq, hcredit, htaken, qlAckRx_rule hc, fun d1 v hd h6 => qlAckRx_otherWord hc hd h6 v,
      qlCreditRx_rule hc⟩
  · refine hgo (if_neg ?_)
    rw [Bool.and_eq_true_iff]
    rintro ⟨ha, hc⟩
    exact h.elim (fun hx => Bool.noConfusion (hx.symm.trans ha)) (fun hx => Bool.noConfusion (hx.symm.trans hc))
  · refine ⟨fun h => hgo (if_neg fun hx => Bool.noConfusion (h.symm.trans hx)),
      fun h => hgo (if_pos fun hx => Bool.noConfusion (h.symm.trans hx)), qlLevelRx_rule, fun h => ?_, fun lane1 =>
      ⟨fun h => hgo (Dev.stepDone_none (d := s.fresh) h lane1), fun x => qlStepDone_rule⟩⟩
    exact ⟨s.goes (s.fresh.levelWindow l.val), rfl, Dev.levelWindow_rule (d := s.fresh) h⟩

end Sys2Proof.Machine
end

section
/-! PROOFS. Records of the pair: what of the redundancy unit the shared operations leave, and what a fragment, a committed
record and an acknowledgement change (R551, R552, R559, R562, R571). -/

set_option Elab.async false

namespace Sys2Proof.Machine

namespace Dev

/-! ### A change of the redundancy mode, and READY -/

/-- What a device that leaves Active forgets of its own records. -/
def leaveActive (x : Pair) : Pair := { x with mirrorValid := false, mirror := none, unacked := [], broken := false, chainOk := false }

/-- What entry into Resync makes of the redundancy unit, before a former Active device forgets its records. -/
def chainLost (x : Pair) : Pair := { x with
  chainOk := false, baseFragment := false, baseApplied := false, rxBase := none, takeoverWait := false, bootWait := false }

theorem setRedund_pair (d : Dev) (r : Redund) : (d.setRedund r).pair = d.pair ∨ (d.setRedund r).pair = leaveActive d.pair := by
  unfold setRedund
  dsimp only
  split
  · exact Or.inl rfl
  · rw [raise_pair]
    split
    · exact Or.inr rfl
    · exact Or.inl rfl

/-- Entry into Resync leaves each part of the redundancy unit that leaving Active does not touch as the loss of the chain has it. -/
theorem enterResync_field {α : Type} (g : Pair → α) (d : Dev) (h : g (leaveActive (chainLost d.pair)) = g (chainLost d.pair)) :
    g d.enterResync.pair = g (chainLost d.pair) := by
  rcases setRedund_pair ({ d with pair := chainLost d.pair }) .resync with hp | hp
  · exact congrArg g hp
  · exact (congrArg g hp).trans h

theorem enterResync_links (d : Dev) : d.enterResync.links = d.links :=
  ((leaves_enterResync (us := [.modes, .cnt, .ev, .pair]) (.refl _ d) rfl).same .links rfl).symm

theorem refreshReady_pair (d : Dev) : ∃ r, d.refreshReady.pair = { d.pair with ochre := { d.pair.ochre with ready := r } } := by
  unfold refreshReady
  dsimp only
  split
  · exact ⟨d.pair.ochre.ready, rfl⟩
  · exact ⟨d.ochreReady, by rw [raise_pair]⟩

theorem refreshReady_field {α : Type} (g : Pair → α) (h : ∀ (x : Pair) r, g { x with ochre := { x.ochre with ready := r } } = g x)
    (d : Dev) : g d.refreshReady.pair = g d.pair := by
  obtain ⟨r, hr⟩ := refreshReady_pair d
  rw [hr, h]

theorem refreshReady_same {u : DevUnit} (d : Dev) (hu : [DevUnit.cnt, .ev, .pair].contains u = false) :
    d.sameUnit u d.refreshReady :=
  (leaves_refreshReady (us := [.cnt, .ev, .pair]) (.refl _ d) rfl).same u hu

theorem refreshReady_modes (d : Dev) : d.refreshReady.modes = d.modes := (refreshReady_same (u := .modes) d rfl).symm
theorem refreshReady_links (d : Dev) : d.refreshReady.links = d.links := (refreshReady_same (u := .links) d rfl).symm

/-! ### A MIR frame that waits -/

theorem queueMir_mirIn (d : Dev) (type : Nat) (x : List Byte) : (d.queueMir type x).links.mirIn = d.links.mirIn := by
  unfold queueMir
  dsimp only
  split <;> rfl

theorem queueMir_same {u : DevUnit} (d : Dev) (type : Nat) (x : List Byte) (hu : [DevUnit.freeCtr, .links].contains u = false) :
    d.sameUnit u (d.queueMir type x) := (leaves_queueMir (us := [.freeCtr, .links]) (.refl _ d) type x rfl).same u hu

theorem queueMir_pair (d : Dev) (type : Nat) (x : List Byte) : (d.queueMir type x).pair = d.pair :=
  (queueMir_same (u := .pair) d type x rfl).symm

theorem queueMir_modes (d : Dev) (type : Nat) (x : List Byte) : (d.queueMir type x).modes = d.modes :=
  (queueMir_same (u := .modes) d type x rfl).symm

theorem queueMir_epoch (d : Dev) (type : Nat) (x : List Byte) : (d.queueMir type x).epoch = d.epoch :=
  (queueMir_same (u := .epoch) d type x rfl).symm

/-- A frame of this type with this payload is the last of those that wait for MIR, and the others are as they were. -/
def SendsMir (a b : Dev) (type : Nat) (x : List Byte) : Prop :=
  ∃ f, (b.qlp 6).ctrl = (a.qlp 6).ctrl ++ [f] ∧ f.type = type ∧ f.payload = x

theorem sendsMir_queueMir (d : Dev) (type : Nat) (x : List Byte) : SendsMir d (d.queueMir type x) type x := by
  obtain ⟨f, ht, hx, h⟩ := qlp_queueMir d type x
  exact ⟨f, by rw [h], ht, hx⟩

theorem SendsMir.of_links {a b c : Dev} {type : Nat} {x : List Byte} (h : SendsMir a b type x) (hl : c.links = b.links) :
    SendsMir a c type x := by
  unfold SendsMir
  rwa [qlp_congr hl]

/-! ### A record commits (R559, R562, R571) -/

/-- The state in which the committed record b has left the assembly, is acknowledged and counted. -/
def acked (d : Dev) (b : List Byte) : Dev :=
  ((({ d with pair := { d.pair with rx := none, commit := some (fld b 8 6) } }).queueMir 0x11
    (le 6 (fld b 8 6) ++ le 1 (fld b 6 1) ++ le 1 0)).bump Cnt.MORDANT_RECORDS).bump Cnt.MORDANT_OCTETS b.length

theorem acked_pair (d : Dev) (b : List Byte) : (d.acked b).pair = { d.pair with rx := none, commit := some (fld b 8 6) } := by
  unfold acked
  rw [bump_pair, bump_pair, queueMir_pair]

theorem acked_modes (d : Dev) (b : List Byte) : (d.acked b).modes = d.modes := by
  unfold acked
  rw [bump_modes, bump_modes, queueMir_modes]

theorem acked_links (d : Dev) (b : List Byte) : (d.acked b).links =
    (({ d with pair := { d.pair with rx := none, commit := some (fld b 8 6) } }).queueMir 0x11
      (le 6 (fld b 8 6) ++ le 1 (fld b 6 1) ++ le 1 0)).links := by
  unfold acked
  rw [bump_links, bump_links]

/-- A base starts the chain afresh. -/
def baseTaken (d : Dev) (b : List Byte) : Dev :=
  ({ d with pair := { d.pair with rxBase := some (fld b 8 6), ochre := { d.pair.ochre with fail := 0 } } }).queueCommitted
    (fld b 8 6) (fld b 0x10 6) (fld b 6 1) b

/-- A delta that follows no committed record breaks the chain. -/
def chainMissed (d : Dev) : Dev :=
  if d.modes.redund = .standby then d.enterResync else { d with pair := { d.pair with rxBase := none, baseApplied := false } }

theorem commitRecord_eq (d : Dev) (b : List Byte) : d.commitRecord b =
    (if fld b 6 1 = 1 then (d.acked b).baseTaken b
    else if decide (d.pair.commit = some (fld b 8 6 - 1) ∧ 0 < fld b 8 6 ∧ d.pair.rxBase = some (fld b 0x10 6)) = true then
      (d.acked b).queueCommitted (fld b 8 6) (fld b 0x10 6) (fld b 6 1) b
    else (d.acked b).chainMissed).refreshReady := rfl

theorem chainMissed_links (d : Dev) : d.chainMissed.links = d.links := by
  unfold chainMissed
  split
  · exact enterResync_links d
  · rfl

theorem commitRecord_links (d : Dev) (b : List Byte) : (d.commitRecord b).links = (d.acked b).links := by
  rw [commitRecord_eq, refreshReady_links]
  split
  · rfl
  · split
    · rfl
    · exact chainMissed_links _

/-- What the loss of the chain leaves of the redundancy unit's record under assembly and last commit. -/
theorem chainMissed_field {α : Type} (g : Pair → α) (hl : ∀ x : Pair, g (leaveActive x) = g x) (hc : ∀ x : Pair, g (chainLost x) = g x)
    (hr : ∀ x : Pair, g { x with rxBase := none, baseApplied := false } = g x) (d : Dev) : g d.chainMissed.pair = g d.pair := by
  unfold chainMissed
  split
  · rw [enterResync_field g d (hl _), hc]
  · exact hr _

theorem chainMissed_rxBase (d : Dev) : d.chainMissed.pair.rxBase = none := by
  unfold chainMissed
  split
  · exact enterResync_field Pair.rxBase d rfl
  · rfl

theorem chainMissed_redund {d : Dev} (h : d.modes.redund = .standby ∨ d.modes.redund = .resync) :
    d.chainMissed.modes.redund = .resync := by
  unfold chainMissed
  split
  next => exact enterResync_redund d
  next hs => exact h.resolve_left hs

theorem commitRecord_field {α : Type} (g : Pair → α) (hl : ∀ x : Pair, g (leaveActive x) = g x)
    (hc : ∀ x : Pair, g (chainLost x) = g x) (hr : ∀ x : Pair, g { x with rxBase := none, baseApplied := false } = g x)
    (hb : ∀ (x : Pair) e o l, g { x with rxBase := e, ochre := o, committed := l } = g x) (d : Dev) (b : List Byte) :
    g (d.commitRecord b).pair = g { d.pair with rx := none, commit := some (fld b 8 6) } := by
  have hready (x : Pair) (r : Bool) : g { x with ochre := { x.ochre with ready := r } } = g x := hb x x.rxBase _ x.committed
  rw [commitRecord_eq, refreshReady_field g hready, ← acked_pair]
  split
  · exact hb (d.acked b).pair _ _ _
  · split
    · exact hb (d.acked b).pair (d.acked b).pair.rxBase (d.acked b).pair.ochre _
    · exact chainMissed_field g hl hc hr _

theorem commitRecord_acks (d : Dev) (b : List Byte) :
    SendsMir d (d.commitRecord b) 0x11 (le 6 (fld b 8 6) ++ le 1 (fld b 6 1) ++ le 1 0) :=
  (sendsMir_queueMir { d with pair := { d.pair with rx := none, commit := some (fld b 8 6) } } 0x11 _).of_links
    ((commitRecord_links d b).trans (acked_links d b))

theorem commitRecord_base (d : Dev) {b : List Byte} (h : fld b 6 1 = 1) :
    (d.commitRecord b).pair.rxBase = some (fld b 8 6) ∧ (d.commitRecord b).modes = d.modes ∧
    (d.commitRecord b).pair.committed = d.pair.committed ++ [⟨fld b 8 6, fld b 0x10 6, 1, b⟩] := by
  have hp := acked_pair d b
  rw [commitRecord_eq, if_pos h, refreshReady_field Pair.rxBase (fun _ _ => rfl), refreshReady_field Pair.committed (fun _ _ => rfl),
    refreshReady_modes]
  refine ⟨rfl, acked_modes d b, ?_⟩
  unfold baseTaken
  rw [h, hp]
  rfl

theorem commitRecord_delta (d : Dev) {b : List Byte} (h : fld b 6 1 ≠ 1) (hc : d.pair.commit = some (fld b 8 6 - 1))
    (he : 0 < fld b 8 6) (hbase : d.pair.rxBase = some (fld b 0x10 6)) : (d.commitRecord b).modes = d.modes ∧
    (d.commitRecord b).pair.committed = d.pair.committed ++ [⟨fld b 8 6, fld b 0x10 6, fld b 6 1, b⟩] := by
  have hp := acked_pair d b
  rw [commitRecord_eq, if_neg h, if_pos (decide_eq_true ⟨hc, he, hbase⟩), refreshReady_field Pair.committed (fun _ _ => rfl),
    refreshReady_modes]
  refine ⟨acked_modes d b, ?_⟩
  unfold queueCommitted
  rw [hp]

theorem commitRecord_missed {d : Dev} (hf : d.modes.redund = .standby ∨ d.modes.redund = .resync) {b : List Byte}
    (h : fld b 6 1 ≠ 1) (hno : d.pair.commit ≠ some (fld b 8 6 - 1) ∨ fld b 8 6 = 0 ∨ d.pair.rxBase ≠ some (fld b 0x10 6)) :
    (d.commitRecord b).pair.committed = d.pair.committed ∧ (d.commitRecord b).pair.rxBase = none ∧
    (d.commitRecord b).modes.redund = .resync := by
  have hnot : ¬ (d.pair.commit = some (fld b 8 6 - 1) ∧ 0 < fld b 8 6 ∧ d.pair.rxBase = some (fld b 0x10 6)) := by
    rintro ⟨hc, he, hbase⟩
    rcases hno with hx | hx | hx
    · exact hx hc
    · omega
    · exact hx hbase
  rw [commitRecord_eq, if_neg h, if_neg (by rwa [decide_eq_true_eq]), refreshReady_field Pair.committed (fun _ _ => rfl),
    refreshReady_field Pair.rxBase (fun _ _ => rfl), refreshReady_modes]
  refine ⟨?_, chainMissed_rxBase _, chainMissed_redund (by rwa [acked_modes])⟩
  rw [chainMissed_field Pair.committed (fun _ => rfl) (fun _ => rfl) (fun _ => rfl), acked_pair]

/-! ### Fragments (R552, R559) -/

/-- The octets of the record under assembly, where it is the record of this epoch and kind. -/
def heldOctets (x : Pair) (e k : Nat) : List Byte :=
  match x.rx with | some r => if r.epoch = e ∧ r.kind = k then r.octets else [] | none => []

/-- The octets of the record under assembly. -/
def rxOctets (x : Pair) : List Byte := match x.rx with | some r => r.octets | none => []

theorem discardRx_pair (d : Dev) : d.discardRx.pair = { d.pair with rx := none } := by
  unfold discardRx
  split
  next r h => rw [bump_pair]
  next h => rw [← h]

theorem discardRx_same {u : DevUnit} (d : Dev) (hu : [DevUnit.cnt, .ev, .pair].contains u = false) : d.sameUnit u d.discardRx :=
  (leaves_discardRx (us := [.cnt, .ev, .pair]) (.refl _ d) rfl).same u hu

theorem discardRx_links (d : Dev) : d.discardRx.links = d.links := (discardRx_same (u := .links) d rfl).symm
theorem discardRx_modes (d : Dev) : d.discardRx.modes = d.modes := (discardRx_same (u := .modes) d rfl).symm

/-- A fragment of a base has come (R571). -/
def baseSeen (d : Dev) (k : Nat) : Dev := if k = 1 then { d with pair := { d.pair with baseFragment := true } } else d

/-- A record under assembly of another epoch or kind is discarded (R559). -/
def discardOther (d : Dev) (e k : Nat) : Dev :=
  let same : Bool := match d.pair.rx with | some r => decide (r.epoch = e ∧ r.kind = k) | none => false
  if same then d else d.discardRx

/-- The state that a fragment of this epoch and kind joins. -/
def fragStart (d : Dev) (e k : Nat) : Dev := (d.baseSeen k).discardOther e k

theorem discardOther_or (d : Dev) (e k : Nat) : d.discardOther e k = d ∨ d.discardOther e k = d.discardRx := ite_eq_or_eq ..

theorem fragStart_links (d : Dev) (e k : Nat) : (d.fragStart e k).links = d.links := by
  have hbase : (d.baseSeen k).links = d.links := by unfold baseSeen; split <;> rfl
  unfold fragStart
  rcases discardOther_or (d.baseSeen k) e k with h | h
  · rw [h, hbase]
  · rw [h, discardRx_links, hbase]

theorem fragStart_modes (d : Dev) (e k : Nat) : (d.fragStart e k).modes = d.modes := by
  have hbase : (d.baseSeen k).modes = d.modes := by unfold baseSeen; split <;> rfl
  unfold fragStart
  rcases discardOther_or (d.baseSeen k) e k with h | h
  · rw [h, hbase]
  · rw [h, discardRx_modes, hbase]

theorem discardOther_pair (d : Dev) (e k : Nat) : ∃ rx, (d.discardOther e k).pair = { d.pair with rx := rx } ∧
    rxOctets { d.pair with rx := rx } = heldOctets d.pair e k := by
  unfold discardOther heldOctets
  cases h : d.pair.rx with
  | none => exact ⟨none, discardRx_pair d, rfl⟩
  | some r =>
    by_cases hr : r.epoch = e ∧ r.kind = k
    · exact ⟨some r, by simp only [hr, and_self, decide_true, if_true, ← h], (if_pos hr).symm⟩
    · exact ⟨none, by simp only [hr, decide_false, Bool.false_eq_true, if_false, discardRx_pair], (if_neg hr).symm⟩

theorem fragStart_pair (d : Dev) (e k : Nat) : ∃ seen rx, (d.fragStart e k).pair = { d.pair with baseFragment := seen, rx := rx } ∧
    rxOctets (d.fragStart e k).pair = heldOctets d.pair e k := by
  obtain ⟨seen, hseen⟩ : ∃ seen, (d.baseSeen k).pair = { d.pair with baseFragment := seen } := by
    unfold baseSeen
    split
    · exact ⟨true, rfl⟩
    · exact ⟨d.pair.baseFragment, rfl⟩
  obtain ⟨rx, hrx, hold⟩ := discardOther_pair (d.baseSeen k) e k
  refine ⟨seen, rx, ?_, ?_⟩
  · unfold fragStart
    rw [hrx, hseen]
  · unfold fragStart
    rw [hrx, hold, hseen]
    rfl

/-- The record under assembly is this one. -/
def assemble (d : Dev) (e k : Nat) (b : List Byte) : Dev := { d with pair := { d.pair with rx := some ⟨e, k, b⟩ } }

theorem fragmentInto_eq (d : Dev) (f : QlFrame) : d.fragmentInto f =
    let a := d.fragStart (fld f.payload 0 6) (fld f.payload 6 1)
    let off := fld f.payload 8 8
    if (rxOctets a.pair).length < off ∧ off ≠ 0 then a
    else
      let b := if off = 0 then f.payload.drop 16 else (rxOctets a.pair).take off ++ f.payload.drop 16
      let a := a.assemble (fld f.payload 0 6) (fld f.payload 6 1) b
      if recordCommitted b then a.commitRecord (b.take (fld b 0x18 8 + 32)) else a := rfl

theorem commitRecord_mirIn (d : Dev) (b : List Byte) : (d.commitRecord b).links.mirIn = d.links.mirIn := by
  rw [commitRecord_links, acked_links, queueMir_mirIn]

theorem fragmentInto_mirIn (d : Dev) (f : QlFrame) : (d.fragmentInto f).links.mirIn = d.links.mirIn := by
  have hjoin (b c : List Byte) (e k : Nat) : (if recordCommitted b then ((d.fragStart e k).assemble e k b).commitRecord c
      else (d.fragStart e k).assemble e k b).links.mirIn = d.links.mirIn := by
    rw [← fragStart_links d e k]
    split
    · exact commitRecord_mirIn ..
    · rfl
  rw [fragmentInto_eq]
  dsimp only
  by_cases hgap : (rxOctets (d.fragStart (fld f.payload 0 6) (fld f.payload 6 1)).pair).length < fld f.payload 8 8 ∧
      fld f.payload 8 8 ≠ 0
  · rw [if_pos hgap, fragStart_links]
  · rw [if_neg hgap]
    exact hjoin ..

/-- A fragment that starts a record or continues the one under assembly. -/
theorem fragmentInto_joins {d : Dev} {f : QlFrame} {e k off : Nat} {x b : List Byte} (he : fld f.payload 0 6 = e)
    (hk : fld f.payload 6 1 = k) (hoff : fld f.payload 8 8 = off) (hx : f.payload.drop 16 = x)
    (hb : (off = 0 ∧ b = x) ∨ (0 < off ∧ off ≤ (heldOctets d.pair e k).length ∧ b = (heldOctets d.pair e k).take off ++ x)) :
    d.fragmentInto f = if recordCommitted b then ((d.fragStart e k).assemble e k b).commitRecord (b.take (fld b 0x18 8 + 32))
      else (d.fragStart e k).assemble e k b := by
  obtain ⟨seen, rx, -, hold⟩ := fragStart_pair d e k
  rw [fragmentInto_eq, he, hk, hoff, hx]
  dsimp only
  rw [hold]
  rcases hb with ⟨rfl, rfl⟩ | ⟨hpos, hle, rfl⟩
  · rw [if_neg fun h => h.2 rfl, if_pos rfl]
  · rw [if_neg fun h => absurd h.1 (Nat.not_lt.mpr hle), if_neg (Nat.pos_iff_ne_zero.mp hpos)]

end Dev

end Sys2Proof.Machine
end

section
/-! PROOFS. Records of the pair: the MIR commands, the chain, the Ochre tests, and the statement (R551 to R576). -/

set_option Elab.async false

namespace Sys2Proof.Machine

namespace Dev

/-! ### Taking a MIR frame (R551) -/

/-- The oldest MIR frame has been taken, and these remain. -/
def mirTaken (d : Dev) (l : List QlFrame) : Dev := { d with links := { d.links with mirIn := l } }

theorem takeMir_other {d : Dev} {type : Nat} (h : d.links.mirIn = [] ∨ ∃ f l, d.links.mirIn = f :: l ∧ f.type ≠ type) :
    d.takeMir type = none := by
  unfold takeMir
  rcases h with h | ⟨f, l, h, ht⟩
  · rw [h]
  · rw [h]
    exact if_neg ht

section taken
variable {d : Dev} {f : QlFrame} {l : List QlFrame} (h : d.links.mirIn = f :: l)
include h

theorem takeMir_head {type : Nat} (ht : f.type = type) : d.takeMir type = some (f, d.mirTaken l) := by
  unfold takeMir
  rw [h]
  exact if_pos ht

theorem fragmentRx_runs (ht : f.type = 0x10) (hr : d.runs = true) : d.fragmentRx = d.mirTaken l := by
  unfold fragmentRx
  rw [takeMir_head h ht]
  exact if_pos fun hx => Bool.noConfusion ((congrArg Bool.not hr).symm.trans hx)

theorem fragmentRx_follows (ht : f.type = 0x10) (hr : d.runs = false) : d.fragmentRx = (d.mirTaken l).fragmentInto f := by
  unfold fragmentRx
  rw [takeMir_head h ht]
  exact if_neg (not_not.mpr (congrArg Bool.not hr))

theorem breakRx_runs (ht : f.type = 0x13) (hr : d.runs = true) : d.breakRx = d.mirTaken l := by
  unfold breakRx
  rw [takeMir_head h ht]
  exact if_neg fun hx => Bool.noConfusion ((congrArg Bool.not hr).symm.trans hx)

theorem breakRx_follows (ht : f.type = 0x13) (hr : d.runs = false) : d.breakRx = (d.mirTaken l).discardRx.enterResync := by
  unfold breakRx
  rw [takeMir_head h ht]
  exact if_pos (congrArg Bool.not hr)

theorem ochreRx_taken (ht : f.type = 0x14) : d.ochreRx = { d.mirTaken l with
    pair := { d.pair with partnerOchre := slice f.payload 0 64, partnerReady := bit (fld f.payload 6 1) 2 } } := by
  unfold ochreRx
  rw [takeMir_head h ht]
  rfl

theorem reqBaseRx_taken (ht : f.type = 0x12) : d.reqBaseRx =
    if d.pair.sideBad = true ∨ ¬ d.pair.allow = true ∨ d.modes.redund ≠ .solo ∨ ¬ (d.qlp 6).up = true then d.mirTaken l
    else { d.mirTaken l with modes := { d.modes with activeDue := true } } := by
  unfold reqBaseRx
  rw [takeMir_head h ht]
  rfl

theorem recordAckRx_taken (ht : f.type = 0x11) : d.recordAckRx =
    if d.modes.redund = .active ∧
        d.pair.unacked.any (fun r => decide (r.epoch = fld f.payload 0 6 ∧ r.kind = fld f.payload 6 1)) = true then
      ({ d.mirTaken l with pair := { d.pair with
          unacked := d.pair.unacked.filter (fun r => !decide (r.epoch = fld f.payload 0 6 ∧ r.kind = fld f.payload 6 1))
          commit := some (fld f.payload 0 6) } }).bump Cnt.MORDANT_RECORDS
    else d.mirTaken l := by
  unfold recordAckRx
  rw [takeMir_head h ht]
  rfl

/-! ### What each MIR command leaves of the frames that wait -/

theorem fragmentRx_mirIn (ht : f.type = 0x10) : d.fragmentRx.links.mirIn = l := by
  cases hr : d.runs with
  | true => rw [fragmentRx_runs h ht hr]; rfl
  | false => rw [fragmentRx_follows h ht hr, fragmentInto_mirIn]; rfl

theorem breakRx_mirIn (ht : f.type = 0x13) : d.breakRx.links.mirIn = l := by
  cases hr : d.runs with
  | true => rw [breakRx_runs h ht hr]; rfl
  | false => rw [breakRx_follows h ht hr, enterResync_links, discardRx_links]; rfl

theorem ochreRx_mirIn (ht : f.type = 0x14) : d.ochreRx.links.mirIn = l := by
  rw [ochreRx_taken h ht]
  rfl

theorem reqBaseRx_mirIn (ht : f.type = 0x12) : d.reqBaseRx.links.mirIn = l := by
  rw [reqBaseRx_taken h ht]
  split <;> rfl

theorem recordAckRx_mirIn (ht : f.type = 0x11) : d.recordAckRx.links.mirIn = l := by
  rw [recordAckRx_taken h ht]
  split
  · rw [bump_links]
    rfl
  · rfl

/-! ### What each changes -/

theorem reqBaseRx_modes (ht : f.type = 0x12) : d.reqBaseRx.modes = { d.modes with
    activeDue := d.modes.activeDue || (!d.pair.sideBad && d.pair.allow && d.modes.redund == .solo && (d.qlp 6).up) } := by
  rw [reqBaseRx_taken h ht]
  split
  next hno =>
    have hf : (!d.pair.sideBad && d.pair.allow && d.modes.redund == .solo && (d.qlp 6).up) = false := by
      rcases hno with hx | hx | hx | hx
      · simp [hx]
      · simp [hx]
      · simp [hx]
      · simp [hx]
    rw [hf, Bool.or_false]
    rfl
  next hyes =>
    obtain ⟨hside, hallow, hsolo, hup⟩ : ¬ d.pair.sideBad = true ∧ d.pair.allow = true ∧ d.modes.redund = .solo ∧
        (d.qlp 6).up = true := by
      simpa only [not_or, not_not, ne_eq] using hyes
    rw [eq_false_of_ne_true hside, hallow, hsolo, hup]
    exact congrArg (fun x => { d.modes with activeDue := x }) (Bool.or_true _).symm

theorem recordAckRx_known (ht : f.type = 0x11) (ha : d.modes.redund = .active)
    (hk : ∃ r ∈ d.pair.unacked, r.epoch = fld f.payload 0 6 ∧ r.kind = fld f.payload 6 1) : d.recordAckRx.pair = { d.pair with
      unacked := d.pair.unacked.filter (fun r => !decide (r.epoch = fld f.payload 0 6 ∧ r.kind = fld f.payload 6 1))
      commit := some (fld f.payload 0 6) } := by
  have hany : d.pair.unacked.any (fun r => decide (r.epoch = fld f.payload 0 6 ∧ r.kind = fld f.payload 6 1)) = true := by
    obtain ⟨r, hr, heq⟩ := hk
    exact List.any_eq_true.mpr ⟨r, hr, decide_eq_true heq⟩
  rw [recordAckRx_taken h ht, if_pos ⟨ha, hany⟩, bump_pair]

theorem recordAckRx_unknown (ht : f.type = 0x11)
    (hk : d.modes.redund ≠ .active ∨ ∀ r ∈ d.pair.unacked, r.epoch ≠ fld f.payload 0 6 ∨ r.kind ≠ fld f.payload 6 1) :
    d.recordAckRx.pair = d.pair := by
  rw [recordAckRx_taken h ht, if_neg]
  · rfl
  · rintro ⟨ha, hany⟩
    obtain ⟨r, hr, heq⟩ := List.any_eq_true.mp hany
    have hboth := of_decide_eq_true heq
    rcases hk with hk | hk
    · exact hk ha
    · exact (hk r hr).elim (· hboth.1) (· hboth.2)

theorem breakRx_rule (ht : f.type = 0x13) (hr : d.runs = false) : d.breakRx.pair.rx = none ∧ d.breakRx.modes.redund = .resync ∧
    d.breakRx.pair.rxBase = none ∧ d.breakRx.pair.chainOk = false ∧ d.breakRx.pair.image = d.pair.image := by
  have hp := discardRx_pair (d.mirTaken l)
  rw [breakRx_follows h ht hr]
  refine ⟨?_, enterResync_redund _, enterResync_field Pair.rxBase _ rfl, enterResync_field Pair.chainOk _ rfl, ?_⟩
  · rw [enterResync_field Pair.rx _ rfl, hp]
    rfl
  · rw [enterResync_field Pair.image _ rfl, hp]
    rfl

end taken

theorem follower_redund {d : Dev} (h : d.runs = false) : d.modes.redund = .standby ∨ d.modes.redund = .resync := by
  unfold runs at h
  cases hr : d.modes.redund with
  | solo => rw [hr] at h; exact Bool.noConfusion h
  | active => rw [hr] at h; exact Bool.noConfusion h
  | standby => exact Or.inl rfl
  | resync => exact Or.inr rfl

/-- A fragment that a follower takes: the record under assembly, and what a whole one changes. -/
theorem fragmentRx_rule {d : Dev} {f : QlFrame} {l : List QlFrame} (h : d.links.mirIn = f :: l) (ht : f.type = 0x10)
    (hr : d.runs = false) {e k off : Nat} {x b : List Byte} (he : fld f.payload 0 6 = e) (hk : fld f.payload 6 1 = k)
    (hoff : fld f.payload 8 8 = off) (hx : f.payload.drop 16 = x)
    (hb : (off = 0 ∧ b = x) ∨ (0 < off ∧ off ≤ (heldOctets d.pair e k).length ∧ b = (heldOctets d.pair e k).take off ++ x)) :
    (recordCommitted b = false → d.fragmentRx.pair.rx = some ⟨e, k, b⟩ ∧ d.fragmentRx.pair.commit = d.pair.commit ∧
      d.fragmentRx.modes = d.modes) ∧
    (∀ c, recordCommitted b = true → b.take (fld b 0x18 8 + 32) = c → d.fragmentRx.pair.rx = none ∧
      d.fragmentRx.pair.commit = some (fld c 8 6) ∧
      (∃ a, (d.fragmentRx.qlp 6).ctrl = (d.qlp 6).ctrl ++ [a] ∧ a.type = 0x11 ∧
        a.payload = le 6 (fld c 8 6) ++ le 1 (fld c 6 1) ++ le 1 0) ∧
      (fld c 6 1 = 1 → d.fragmentRx.pair.rxBase = some (fld c 8 6) ∧ d.fragmentRx.modes = d.modes ∧
        d.fragmentRx.pair.committed = d.pair.committed ++ [⟨fld c 8 6, fld c 0x10 6, 1, c⟩]) ∧
      (fld c 6 1 ≠ 1 → d.pair.commit = some (fld c 8 6 - 1) → 0 < fld c 8 6 →
        d.pair.rxBase = some (fld c 0x10 6) → d.fragmentRx.modes = d.modes ∧
        d.fragmentRx.pair.committed = d.pair.committed ++ [⟨fld c 8 6, fld c 0x10 6, fld c 6 1, c⟩]) ∧
      (fld c 6 1 ≠ 1 → (d.pair.commit ≠ some (fld c 8 6 - 1) ∨ fld c 8 6 = 0 ∨
          d.pair.rxBase ≠ some (fld c 0x10 6)) →
        d.fragmentRx.pair.committed = d.pair.committed ∧ d.fragmentRx.pair.rxBase = none ∧
        d.fragmentRx.modes.redund = .resync)) := by
  have hrx := (fragmentRx_follows h ht hr).trans (fragmentInto_joins (d := d.mirTaken l) he hk hoff hx hb)
  obtain ⟨seen, rx, hpair, -⟩ := fragStart_pair (d.mirTaken l) e k
  generalize ha : ((d.mirTaken l).fragStart e k).assemble e k b = a at hrx
  have hmodes : a.modes = d.modes := ha ▸ fragStart_modes (d.mirTaken l) e k
  have hctrl : (a.qlp 6).ctrl = (d.qlp 6).ctrl := by
    rw [← ha]
    exact congrArg QlPort.ctrl (qlp_congr (fragStart_links (d.mirTaken l) e k) 6)
  have hp : a.pair = { d.pair with baseFragment := seen, rx := some ⟨e, k, b⟩ } := by
    rw [← ha, assemble, hpair]
    rfl
  refine ⟨fun hno => ?_, fun c hyes hc => ?_⟩
  · rw [if_neg (by rw [hno]; exact Bool.false_ne_true)] at hrx
    rw [hrx, hp]
    exact ⟨rfl, rfl, hmodes⟩
  · rw [if_pos hyes, hc] at hrx
    have hfollow : a.modes.redund = .standby ∨ a.modes.redund = .resync := by
      rw [hmodes]
      exact follower_redund hr
    have hcommit : a.pair.commit = d.pair.commit := by rw [hp]
    have hbase : a.pair.rxBase = d.pair.rxBase := by rw [hp]
    have hcomm : a.pair.committed = d.pair.committed := by rw [hp]
    rw [hrx, ← hmodes, ← hctrl, ← hcommit, ← hbase, ← hcomm]
    exact ⟨commitRecord_field Pair.rx (fun _ => rfl) (fun _ => rfl) (fun _ => rfl) (fun _ _ _ _ => rfl) a c,
      commitRecord_field Pair.commit (fun _ => rfl) (fun _ => rfl) (fun _ => rfl) (fun _ _ _ _ => rfl) a c,
      commitRecord_acks a c, commitRecord_base a, commitRecord_delta a, commitRecord_missed hfollow⟩

/-! ### Records that are overdue, and a base that is asked for (R561, R571) -/

theorem recordAckTimeout_none {d : Dev} (h : d.modes.redund ≠ .active ∨ ∀ r ∈ d.pair.unacked, d.epoch.num < r.epoch + 2) :
    d.recordAckTimeout = d := by
  refine if_neg ?_
  rintro ⟨ha, hover⟩
  obtain ⟨r, hr, hle⟩ := List.any_eq_true.mp hover
  rcases h with h | h
  · exact h ha
  · exact absurd (of_decide_eq_true hle) (Nat.not_le.mpr (h r hr))

theorem recordAckTimeout_overdue {d : Dev} {r : TxRec} {l : List TxRec} (ha : d.modes.redund = .active)
    (hu : d.pair.unacked = r :: l) (hover : ∃ y ∈ d.pair.unacked, y.epoch + 2 ≤ d.epoch.num) :
    d.recordAckTimeout = d.breakChain r.epoch := by
  have hany : d.overdue d.epoch.num = true := by
    obtain ⟨y, hy, hle⟩ := hover
    exact List.any_eq_true.mpr ⟨y, hy, decide_eq_true hle⟩
  refine (if_pos ⟨ha, hany⟩).trans ?_
  rw [hu]

theorem breakChain_pair (d : Dev) (e : Nat) : (d.breakChain e).pair = { d.pair with
    unacked := [], broken := true, chainOk := false, brokenAt := some d.epoch.num } := by
  unfold breakChain
  rw [bump_pair, raise_pair]
  simp only [queueMir_pair, queueMir_epoch]

theorem breakChain_modes (d : Dev) (e : Nat) : (d.breakChain e).modes = d.modes := by
  unfold breakChain
  rw [bump_modes, raise_modes]
  exact queueMir_modes d 0x13 (le 6 e ++ le 2 0)

theorem breakChain_sends (d : Dev) (e : Nat) : SendsMir d (d.breakChain e) 0x13 (le 6 e ++ le 2 0) := by
  refine (sendsMir_queueMir d 0x13 (le 6 e ++ le 2 0)).of_links ?_
  unfold breakChain
  rw [bump_links, raise_links]

/-! ### The Ochre tests (R574) -/

theorem testPasses_fresh (s : State) (x : Nat) (pass : Bool) : s.fresh.testPasses x pass = s.dev.testPasses x pass := by
  unfold testPasses
  simp only [fresh_vatFault]
  rfl

theorem testPasses_hardware (d : Dev) {x : Nat} (h : x ∈ [0, 1, 2, 7, 9]) (pass : Bool) : d.testPasses x pass = pass := by
  simp only [List.mem_cons, List.not_mem_nil, or_false] at h
  rcases h with rfl | rfl | rfl | rfl | rfl <;> rfl

/-- The tests run at a Standby device, and at a Resync device that has a base. -/
def mayTest (d : Dev) : Bool := d.modes.redund == .standby || (d.modes.redund == .resync && d.pair.rxBase.isSome)

theorem mayTest_runs {d : Dev} (h : d.runs = true) : d.mayTest = false := by
  unfold runs at h
  unfold mayTest
  cases hr : d.modes.redund with
  | solo => rfl
  | active => rfl
  | standby => rw [hr] at h; exact Bool.noConfusion h
  | resync => rw [hr] at h; exact Bool.noConfusion h

theorem mayTest_follows {d : Dev} (h : d.modes.redund = .standby ∨ (d.modes.redund = .resync ∧ d.pair.rxBase ≠ none)) :
    d.mayTest = true := by
  unfold mayTest
  rcases h with h | ⟨h, hb⟩
  · rw [h]
    rfl
  · rw [h, Option.isSome_iff_ne_none.mpr hb]
    rfl

/-- A test's result is noted. -/
def noted (d : Dev) (x : Nat) (ok : Bool) (ce : Nat) : Dev :=
  let o := d.pair.ochre
  let m : BitVec 11 := 1#11 <<< x
  let done := o.done ||| m
  let o' : Ochre := { o with
    pass := if ok then o.pass ||| m else o.pass
    fail := if ok then o.fail else o.fail ||| m
    sramCe := if x = 0 then min 0xFFFFFFFF (o.sramCe + ce) else o.sramCe
    done := if done = 0x7FF#11 then 0 else done
    cycles := if done = 0x7FF#11 then o.cycles + 1 else o.cycles }
  { d with pair := { d.pair with ochre := o' } }

/-- A failed test is counted, and a failed image test ends the chain. -/
def failed (d : Dev) (x : Nat) (ok first : Bool) : Dev :=
  let d := if ¬ ok = true ∧ first = true then d.bump Cnt.OCHRE_FAIL else d
  if ¬ ok = true ∧ x = 1 ∧ d.modes.redund = .standby then d.enterResync else d

theorem ochreTest_eq {d : Dev} (h : d.mayTest = true) (x : Nat) (pass : Bool) (ce : Nat) : ∃ first : Bool,
    d.ochreTest x pass ce = ((d.noted x (d.testPasses x pass) ce).failed x (d.testPasses x pass) first).refreshReady := by
  refine ⟨decide (d.pair.ochre.fail &&& (1#11 <<< x) = 0#11), (if_neg (not_not.mpr h)).trans ?_⟩
  unfold failed
  simp only [decide_eq_true_eq]
  rfl

theorem ochreTest_runs {d : Dev} (h : d.mayTest = false) (x : Nat) (pass : Bool) (ce : Nat) : d.ochreTest x pass ce = d :=
  if_pos fun hx => Bool.noConfusion (h.symm.trans hx)

theorem failed_ochre (d : Dev) (x : Nat) (ok first : Bool) : (d.failed x ok first).pair.ochre = d.pair.ochre := by
  have hcount : (if ¬ ok = true ∧ first = true then d.bump Cnt.OCHRE_FAIL else d).pair = d.pair := by
    split
    · exact bump_pair ..
    · rfl
  unfold failed
  dsimp only
  generalize (if ¬ ok = true ∧ first = true then d.bump Cnt.OCHRE_FAIL else d) = a at hcount ⊢
  rw [← hcount]
  split
  · exact enterResync_field Pair.ochre _ rfl
  · rfl

theorem failed_passed (d : Dev) (x : Nat) (first : Bool) : d.failed x true first = d := by
  unfold failed
  simp only [not_true, false_and, if_false]

theorem failed_redund (d : Dev) (x : Nat) (first : Bool) (h : d.modes.redund = .standby ∨ d.modes.redund = .resync) :
    (d.failed x false first).modes.redund = if x = 1 then .resync else d.modes.redund := by
  have hcount : (if ¬ false = true ∧ first = true then d.bump Cnt.OCHRE_FAIL else d).modes = d.modes := by
    split
    · exact bump_modes ..
    · rfl
  unfold failed
  dsimp only
  rw [hcount]
  by_cases hx : x = 1
  · rw [if_pos hx]
    by_cases hs : d.modes.redund = .standby
    · rw [if_pos ⟨Bool.false_ne_true, hx, hs⟩]
      exact enterResync_redund _
    · rw [if_neg fun hc => hs hc.2.2, hcount]
      exact h.resolve_left hs
  · rw [if_neg hx, if_neg fun hc => hx hc.2.1, hcount]

theorem ochreTest_rule {d : Dev} (h : d.modes.redund = .standby ∨ (d.modes.redund = .resync ∧ d.pair.rxBase ≠ none))
    (x : Nat) (pass : Bool) (ce : Nat) :
    (d.testPasses x pass = true → (d.ochreTest x pass ce).pair.ochre.pass = d.pair.ochre.pass ||| (1#11 <<< x) ∧
      (d.ochreTest x pass ce).pair.ochre.fail = d.pair.ochre.fail ∧ (d.ochreTest x pass ce).modes = d.modes) ∧
    (d.testPasses x pass = false → (d.ochreTest x pass ce).pair.ochre.fail = d.pair.ochre.fail ||| (1#11 <<< x) ∧
      (d.ochreTest x pass ce).pair.ochre.pass = d.pair.ochre.pass ∧
      (d.ochreTest x pass ce).modes.redund = (if x = 1 then .resync else d.modes.redund)) ∧
    (x = 0 → (d.ochreTest x pass ce).pair.ochre.sramCe = min 0xFFFFFFFF (d.pair.ochre.sramCe + ce)) := by
  obtain ⟨first, heq⟩ := ochreTest_eq (mayTest_follows h) x pass ce
  have hf {α : Type} (g : Ochre → α) (hg : ∀ (o : Ochre) r, g { o with ready := r } = g o) : g (d.ochreTest x pass ce).pair.ochre =
      g (d.noted x (d.testPasses x pass) ce).pair.ochre := by
    rw [heq, refreshReady_field (fun y => g y.ochre) (fun y r => hg y.ochre r), failed_ochre]
  refine ⟨fun hok => ?_, fun hok => ?_, fun hx => ?_⟩
  · refine ⟨(hf Ochre.pass fun _ _ => rfl).trans ?_, (hf Ochre.fail fun _ _ => rfl).trans ?_, ?_⟩
    · rw [hok]
      rfl
    · rw [hok]
      rfl
    · rw [heq, refreshReady_modes, hok, failed_passed]
      rfl
  · refine ⟨(hf Ochre.fail fun _ _ => rfl).trans ?_, (hf Ochre.pass fun _ _ => rfl).trans ?_, ?_⟩
    · rw [hok]
      rfl
    · rw [hok]
      rfl
    · rw [heq, refreshReady_modes, hok]
      exact failed_redund _ x first (h.imp_right And.left)
  · exact (hf Ochre.sramCe fun _ _ => rfl).trans (if_pos hx)

end Dev

/-! ### The commands -/

/-- What each MIR command does with the oldest MIR frame, from what its operation does on the device. -/
theorem mirRx_rule {s : State} {i : Instr} {op : Dev → Dev} {type : Nat} (hexec : exec i s = .next (s.goes (op s.fresh)))
    (hother : ∀ d : Dev, d.takeMir type = none → op d = d)
    (htaken : ∀ (d : Dev) f l, d.links.mirIn = f :: l → f.type = type → (op d).links.mirIn = l)
    (hruns : (i = .mirFragmentRx ∨ i = .mirBreakRx) → ∀ (d : Dev) f l, d.links.mirIn = f :: l → f.type = type → d.runs = true →
      op d = d.mirTaken l) :
    ((s.dev.links.mirIn = [] ∨ ∃ f l, s.dev.links.mirIn = f :: l ∧ f.type ≠ type) → exec i s = .next (s.goes s.fresh)) ∧
    (∀ f l, s.dev.links.mirIn = f :: l → f.type = type → ∃ t, exec i s = .next t ∧ t.dev.links.mirIn = l ∧
      ((i = .mirFragmentRx ∨ i = .mirBreakRx) → s.dev.runs = true →
        t = s.goes { s.fresh with links := { s.dev.links with mirIn := l } })) :=
  ⟨fun h => hexec.trans (Dev.next_goes_congr (hother s.fresh (Dev.takeMir_other h))),
    fun f l h ht => ⟨_, hexec, htaken s.fresh f l h ht, fun hi hr => congrArg s.goes (hruns hi s.fresh f l h ht hr)⟩⟩

theorem mirCommands (s : State) : ∀ i type, (i = .mirFragmentRx ∧ type = 0x10) ∨ (i = .mirRecordAckRx ∧ type = 0x11) ∨
      (i = .mirReqBaseRx ∧ type = 0x12) ∨ (i = .mirBreakRx ∧ type = 0x13) ∨ (i = .mirOchreRx ∧ type = 0x14) →
    ((s.dev.links.mirIn = [] ∨ ∃ f l, s.dev.links.mirIn = f :: l ∧ f.type ≠ type) → exec i s = .next (s.goes s.fresh)) ∧
    (∀ f l, s.dev.links.mirIn = f :: l → f.type = type → ∃ t, exec i s = .next t ∧ t.dev.links.mirIn = l ∧
      ((i = .mirFragmentRx ∨ i = .mirBreakRx) → s.dev.runs = true →
        t = s.goes { s.fresh with links := { s.dev.links with mirIn := l } })) := by
  have hneither {i : Instr} (h1 : i ≠ .mirFragmentRx) (h2 : i ≠ .mirBreakRx) {p : Prop} :
      (i = .mirFragmentRx ∨ i = .mirBreakRx) → p := fun h => absurd h (not_or.mpr ⟨h1, h2⟩)
  rintro i type (⟨rfl, rfl⟩ | ⟨rfl, rfl⟩ | ⟨rfl, rfl⟩ | ⟨rfl, rfl⟩ | ⟨rfl, rfl⟩)
  · exact mirRx_rule (op := Dev.fragmentRx) rfl (fun d h => by rw [Dev.fragmentRx, h]) (fun d f l => Dev.fragmentRx_mirIn)
      fun _ d f l => Dev.fragmentRx_runs
  · exact mirRx_rule (op := Dev.recordAckRx) rfl (fun d h => by rw [Dev.recordAckRx, h]) (fun d f l => Dev.recordAckRx_mirIn)
      (hneither Instr.noConfusion Instr.noConfusion)
  · exact mirRx_rule (op := Dev.reqBaseRx) rfl (fun d h => by rw [Dev.reqBaseRx, h]) (fun d f l => Dev.reqBaseRx_mirIn)
      (hneither Instr.noConfusion Instr.noConfusion)
  · exact mirRx_rule (op := Dev.breakRx) rfl (fun d h => by rw [Dev.breakRx, h]) (fun d f l => Dev.breakRx_mirIn)
      fun _ d f l => Dev.breakRx_runs
  · exact mirRx_rule (op := Dev.ochreRx) rfl (fun d h => by rw [Dev.ochreRx, h]) (fun d f l => Dev.ochreRx_mirIn)
      (hneither Instr.noConfusion Instr.noConfusion)

theorem reqBaseSend_rule {s : State} (hr : s.dev.modes.redund = .resync) (hb : s.dev.pair.baseFragment = false)
    (hup : (s.dev.qlp 6).up = true) : ∃ t a, exec .reqBaseSend s = .next t ∧ (t.dev.qlp 6).ctrl = (s.dev.qlp 6).ctrl ++ [a] ∧
      a.type = 0x12 ∧ a.payload = List.replicate 8 0#8 ∧ s.dev.sameBut [.out, .freeCtr, .links] t.dev := by
  have heq : s.fresh.reqBaseSend = s.fresh.queueMir 0x12 (List.replicate 8 0#8) :=
    if_pos ⟨hr, fun hx => Bool.noConfusion (hb.symm.trans hx), hup⟩
  obtain ⟨a, hctrl, ht, hx⟩ := Dev.sendsMir_queueMir s.fresh 0x12 (List.replicate 8 0#8)
  exact ⟨s.goes s.fresh.reqBaseSend, a, rfl, (congrArg (fun d : Dev => (d.qlp 6).ctrl) heq).trans hctrl, ht, hx,
    State.sameBut_of_leaves rfl (Dev.leaves_reqBaseSend (us := [.out, .freeCtr, .links]) (.refl _ s.fresh) rfl)⟩

theorem recordAckTimeout_rule {s : State} {r : TxRec} {l : List TxRec} (ha : s.dev.modes.redund = .active)
    (hu : s.dev.pair.unacked = r :: l) (hover : ∃ y ∈ s.dev.pair.unacked, y.epoch + 2 ≤ s.dev.epoch.num) :
    ∃ t a, exec .recordAckTimeout s = .next t ∧ t.dev.pair.unacked = [] ∧ t.dev.pair.broken = true ∧
      t.dev.pair.chainOk = false ∧ t.dev.pair.brokenAt = some s.dev.epoch.num ∧ t.dev.modes = s.dev.modes ∧
      (t.dev.qlp 6).ctrl = (s.dev.qlp 6).ctrl ++ [a] ∧ a.type = 0x13 ∧ a.payload = le 6 r.epoch ++ le 2 0 := by
  have heq := Dev.recordAckTimeout_overdue (d := s.fresh) ha hu hover
  obtain ⟨a, hctrl, ht, hx⟩ := Dev.breakChain_sends s.fresh r.epoch
  have hf {α : Type} (g : Pair → α) := congrArg g (Dev.breakChain_pair s.fresh r.epoch)
  exact ⟨_, a, Dev.next_goes_congr heq, hf Pair.unacked, hf Pair.broken, hf Pair.chainOk, hf Pair.brokenAt,
    Dev.breakChain_modes s.fresh r.epoch, hctrl, ht, hx⟩

/-- Settles O21: each MIR command is what its operation does with the frame it takes; a committed record is a base, a delta that
follows, or one that breaks the chain. -/
theorem recordsMirrorTheActiveDevice : Obligations.RecordsMirrorTheActiveDevice := by
  intro s
  have hgo {a b : Dev} (hab : a = b) : Host.Outcome.next (s.goes a) = .next (s.goes b) := Dev.next_goes_congr hab
  refine ⟨mirCommands s, ?_, ?_, fun f l h => ⟨fun ht => ?_, fun ht hr => ?_, fun ht => ?_⟩,
    fun h => hgo (Dev.recordAckTimeout_none (d := s.fresh) h), fun r l => recordAckTimeout_rule, fun h => ?_, reqBaseSend_rule,
    fun h => ?_, fun ha hr => ?_, ?_⟩
  · rintro f l e k off x old h ht hr he hk hoff hx hold
    refine ⟨s.goes s.fresh.fragmentRx, rfl, fun b hb => Dev.fragmentRx_rule (d := s.fresh) h ht hr he hk hoff hx ?_⟩
    have hheld : Dev.heldOctets s.dev.pair e k = old := hold
    exact hheld ▸ hb
  · rintro f l e k h ht rfl rfl
    exact ⟨s.goes s.fresh.recordAckRx, rfl, fun ha hk =>
      ⟨congrArg Pair.unacked (Dev.recordAckRx_known (d := s.fresh) h ht ha hk),
        congrArg Pair.commit (Dev.recordAckRx_known (d := s.fresh) h ht ha hk)⟩,
      Dev.recordAckRx_unknown (d := s.fresh) h ht⟩
  · exact ⟨s.goes s.fresh.reqBaseRx, rfl, Dev.reqBaseRx_modes (d := s.fresh) h ht⟩
  · exact ⟨s.goes s.fresh.breakRx, rfl, Dev.breakRx_rule (d := s.fresh) h ht hr⟩
  · exact hgo (Dev.ochreRx_taken (d := s.fresh) h ht)
  · refine hgo (if_neg ?_)
    rintro ⟨hr, hb, hup⟩
    rcases h with h | h | h
    · exact h hr
    · exact hb h
    · exact Bool.noConfusion (h.symm.trans hup)
  · refine hgo (if_neg ?_)
    rintro ⟨ha, hr⟩
    exact h.elim (· ha) hr
  · exact hgo (if_pos ⟨ha, fun hx => Bool.noConfusion (hr.symm.trans hx)⟩)
  · rintro x pass ce m rfl
    refine ⟨fun hr => hgo (Dev.ochreTest_runs (Dev.mayTest_runs (d := s.fresh) hr) x.val pass ce.toNat),
      fun hx => Dev.testPasses_hardware s.dev hx pass, fun h => ?_⟩
    obtain ⟨hpass, hfail, hsram⟩ := Dev.ochreTest_rule (d := s.fresh) h x.val pass ce.toNat
    rw [Dev.testPasses_fresh] at hpass hfail
    refine ⟨s.goes (s.fresh.ochreTest x.val pass ce.toNat), rfl, hpass, hfail, hsram, ?_⟩
    exact ((Dev.leaves_ochreTest (us := [.modes, .cnt, .ev, .pair, .sec]) (.refl _ s.fresh) x.val pass ce.toNat rfl).same
      .tbl rfl).symm

end Sys2Proof.Machine
end
